-- ==== Sys2Proof/Word.lean ====
section
/-! DEFINITION. The word types of the block and the plainest arithmetic on naturals that carry a fixed width. -/
namespace Sys2Proof

/-- A 32-bit register word (R465). -/
abbrev Word := BitVec 32

/-- One byte. -/
abbrev Byte := BitVec 8

/-- A run of bytes: a block, a slot, a message body. -/
abbrev Bytes := List Byte

end Sys2Proof
end

