-- ==== Sys2Proof/Syntax.lean ====
section
/-! DEFINITION. The commands of the block, one constructor per row of spec/opcode_table.json, and the
messages and values they carry. -/
namespace Sys2Proof

/-! ### Requesters and register writes -/

/-- Who makes a register access (R466): one hart, the Referee pair, PCIe or JTAG. -/
inductive Requester where
  | hart (n : Nat)
  | referee
  | pcie
  | jtag
  deriving DecidableEq, Repr

/-! ### Images (R43-R50) -/

/-- A repair: its kind, unit, what failed and the spare that takes its place, as the repair record has them (R442). -/
structure Repair where
  kind   : Nat
  unit   : Nat
  failed : Nat
  spare  : Nat
  deriving DecidableEq, Repr

/-- The compatibility section of an image (R425). -/
structure Compat where
  level        : Nat
  peerMin      : Nat
  bridgeMin    : Nat
  bridgeMax    : Nat
  stateFmt     : Nat
  stateReadMin : Nat
  metaFmt      : Nat
  metaReadMin  : Nat
  reserved     : Nat
  deriving DecidableEq, Repr

/-- The content of a section as the head decodes it: of a Pattern, or Larelm's code and data; `undecodable` is a body it cannot decode (R45). -/
inductive SectionBody where
  | ethernet (groups : List Nat)
  | purl (x2 : Bool)
  | pcie (ports : List (Nat × Bool × Nat))
  | rows (rows : List (List Nat × List (Nat × List Nat)))
  | scratch (ways : Nat)
  | motif (groups : List (List Nat))
  | repairs (l : List Repair)
  | bins (core row noc motif : Nat)
  | code
  | undecodable
  deriving DecidableEq, Repr

/-- One entry of an image's section table with its body (R47). -/
structure ImageSection where
  type     : Nat
  format   : Nat
  off      : Nat
  len      : Nat
  reserved : Nat
  body     : SectionBody
  deriving DecidableEq, Repr

/-- An image: its bytes, and what the head decodes of its section bodies, in the order of its section table. The byte
formats of a Pattern's bodies are private to the compiler and the head (02), so their content comes with the image. -/
structure Image where
  bytes  : Bytes
  bodies : List SectionBody
  deriving DecidableEq, Repr

/-- A copy of the boot flash's directory as the boot ROM reads it: its generation, what its CRC-32C covers after that
(log entry 172), the CRC, and the images of the two sets it lists, in the order of their classes (R53). -/
structure Directory where
  generation : Nat
  content    : Bytes
  crc        : Nat
  current    : List Image
  lifeline   : List Image
  deriving DecidableEq, Repr

/-- The fuses the boot ROM reads (R56 step 2); floors by image class, bins for core, Row, network and Motif clocks,
OFS_MAX by rail, and the fused repairs. -/
structure Fuses where
  keyHashes : List Bytes
  revoked   : List Bool
  secEpoch  : Nat
  floors    : List Nat
  dieId     : Nat
  bins      : List Nat
  rowsLeft  : Nat
  ofsMax    : List Nat
  repairs   : List Repair
  /-- The hashes of the debug keys (R463). -/
  debugKeys : List Bytes
  deriving DecidableEq, Repr

/-- The strap balls as the head samples them (R52). -/
structure Straps where
  headId    : Nat
  bootMode  : Nat
  xspiOctal : Nat
  debugReq  : Nat
  deriving DecidableEq, Repr

/-- What a cast-on step delivers when it completes (R56, R57): the fuses with the known-answer tests of the
verifying unit; the directory copies that the boot ROM reads at step 3, with the rail settings; the calibration of each ADC channel; the repairs self-test found; the DIMMs' type,
capacity and speed; the engines that failed; the bank; the identity that firmware checked. -/
inductive StepOutcome where
  | done
  | fuses (f : Fuses) (katOk : Bool)
  | images (copies : List Directory) (railBlock : Bytes)
  | applied (pairs : List (Int × Int))
  | sram (repairs : List Repair) (exceed : Bool)
  | dram (channelsOk : Bool) (type cap mts : Nat)
  | cores (repairs : List Repair) (exceed : Bool)
  | engines (failed : List (Nat × Nat))
  | bank (at48V : Bool)
  | identity (ok : Bool)
  deriving DecidableEq, Repr

/-! ### Host commands (R288) -/

/-- The kinds of I/O command the fetch unit takes. -/
inductive HostOp where
  | read
  | write
  | flush
  | writeZeroes
  | deallocate
  | compare
  | verify
  | other (opcode : Nat)
  deriving DecidableEq, Repr

/-- Where a host command came from: its submission queue, its command identifier, and whether the
partner received it and forwarded it (R16). -/
structure Origin where
  queue     : Nat
  cid       : Nat
  /-- The queue's count of fetches after this one. -/
  nth       : Nat
  forwarded : Bool
  deriving DecidableEq, Repr

/-! ### Efmo messages (R77-R80) -/

/-- A block message of channel 0x2 (R78). -/
structure BlockMsg where
  seq       : Nat
  slot      : Nat
  mask      : Nat
  volume    : Nat
  index     : Nat
  forwarded : Bool
  lba       : Nat
  data      : Bytes
  guard     : Nat
  deriving DecidableEq, Repr

/-- An END or ABORT marker (R79); `forwarded` says that it belongs to a write forwarded to its home head. -/
structure Marker where
  seq       : Nat
  firstSlot : Nat
  count     : Nat
  /-- KIND as it arrives: 0x01 END, 0x02 ABORT, 0x80 an acknowledgement, others reserved. -/
  kind      : Nat := 1
  fold      : Nat
  forwarded : Bool
  deriving DecidableEq, Repr

/-- A placement acknowledgement (R79). -/
structure AckMsg where
  seq       : Nat
  firstSlot : Nat
  count     : Nat
  status    : Nat
  failing   : Nat
  credit    : Nat
  forwarded : Bool
  deriving DecidableEq, Repr

/-- A refetch request or reply (R80). -/
structure RefetchMsg where
  seq    : Nat
  lba    : Nat
  volume : Nat
  block  : Nat
  /-- KIND as it arrives: 0x01 a request, 0x81 a reply, others reserved. -/
  kind   : Nat := 1
  status : Nat
  token  : Nat
  deriving DecidableEq, Repr

/-- A state report on channel 0x6 (R77, R22, R426). -/
structure StateMsg where
  headState  : Nat
  epoch0     : Nat
  epoch1     : Nat
  heartbeat  : Nat
  bankFailed : Bool
  level      : Nat
  peerMin    : Nat
  deriving DecidableEq, Repr

/-- The parameter exchange on channel 0x0 (R84). -/
structure ParamMsg where
  headId    : Nat
  headState : Nat
  epoch0    : Nat
  epoch1    : Nat
  /-- Initial receive-buffer credits by channel, in flits, and version floors by image class. -/
  credits   : List Nat := []
  floors    : List Nat := []
  deriving DecidableEq, Repr

/-- A journal record (R191). -/
inductive JRec where
  | mapEntry (volume lba lme seq : Nat)
  | content (cid record : Nat)
  | pointer (slot ident ptr : Nat)
  | relocate (cid idGen old new : Nat)
  | sbState (state phase sb stamp : Nat)
  | alloc (head tail cidNext : Nat)
  | dictUses (dict count : Nat)
  | retire (reason block wear : Nat)
  deriving DecidableEq, Repr

/-- A record group that is whole and good (R190, R191). -/
structure JGroup where
  inst   : Nat
  jseq   : Nat
  recs   : List JRec
  deriving DecidableEq, Repr

/-! ### Purl (R225, R226) -/

/-- An operation descriptor (R225). -/
structure PurlOp where
  opcode  : Nat
  flags   : Nat
  tag     : Nat
  epoch   : Nat
  cwMask  : Nat
  mode    : Nat
  addr    : Nat
  offsets : List Int
  dataLen : Nat
  deriving DecidableEq, Repr

/-- A bridge's status (R226). -/
structure PurlStatus where
  opcode   : Nat
  status   : Nat
  tag      : Nat
  temp     : Int
  suspends : Nat
  epoch    : Nat
  busyUs   : Nat
  dataLen  : Nat
  deriving DecidableEq, Repr

/-- A module parameter page as it arrives (R224); `crcOk` is its CRC check. -/
structure ParamPage where
  format      : Nat
  dies        : Nat
  planes      : Nat
  blocks      : Nat
  pagesQlc    : Nat
  pagesSlc    : Nat
  pageBytes   : Nat
  ptMask      : List Nat
  tReadQlc    : Nat
  tReadSlc    : Nat
  tProgQlc    : Nat
  tProgSlc    : Nat
  tBers       : Nat
  ratedQlc    : Nat
  ratedSlc    : Nat
  onfiRev     : Nat
  compat      : Nat
  fwVersion   : Nat
  tempMax     : Nat
  reserved    : Nat
  crcOk       : Bool
  deriving DecidableEq, Repr

/-! ### Turns (R399, R410) -/

/-- The fields of a good TURN frame (R399). -/
structure TurnFrame where
  count  : Nat
  fpSeat : Nat
  epoch  : Nat
  deriving DecidableEq, Repr

/-- A table message as received (R410). -/
structure TableMsg where
  format   : Nat
  type     : Nat
  seat     : Nat
  state    : Nat
  flags    : Nat
  epoch    : Nat
  reserved : Nat
  count    : Nat
  deriving DecidableEq, Repr

/-! ### Rows (R114, R115) -/

/-- What a stage found as it worked on a Stitch: its input good; the input's HOP_CRC or carry guard
wrong; an internal error of the engine, corrected or not; a failed round trip of the compressor; under
dual compute, outputs that differ with a third run in the majority, or none agreeing. -/
inductive StageCheck where
  | good
  | hopBad
  | guardBad
  | corrected
  | uncorrected
  | roundTripBad
  | dualMajority (odd : Nat)
  | dualNone
  deriving DecidableEq, Repr

/-! ### Host commands as fetched (R282, R284, R288) -/

/-- The protection information of one logical block as it arrives. -/
structure PiIn where
  guard : Nat
  app   : Nat
  ref   : Nat
  deriving DecidableEq, Repr

/-- A submission queue entry: its command, namespace, first logical block and count, the command's
protection bits, and for a deallocate its ranges; `fieldsOk` and `sglOk` say that no reserved or
out-of-range field stands in it and that its SGL is one the head supports. The keyed SGL names the host's
memory; in-capsule data comes with its protection information. -/
structure HostCmd where
  op       : HostOp
  cid      : Nat
  nsid     : Nat
  slba     : Nat
  nlb      : Nat
  prchk    : Nat
  pract    : Bool
  initTag  : Nat
  ranges   : List (Nat × Nat)
  fieldsOk : Bool
  sglOk    : Bool
  inCapsule : Bool
  sglAddr  : Nat
  sglKey   : Nat
  data     : Bytes
  pi       : List PiIn
  deriving DecidableEq, Repr

/-! ### Memory requests (R326, R335) -/

/-- An error that the access of a line meets. -/
inductive MemErr where
  | none
  | tagParity
  | corrected
  | uncorrected
  deriving DecidableEq, Repr

/-- A request to one line of memory: its allocation class, its address, the bytes it reads, or the bytes it
writes. -/
structure MemReq where
  cls  : Nat
  addr : Nat
  len  : Nat
  data : Option Bytes
  deriving DecidableEq, Repr

/-- A DRAM row with the corrected errors a scrub pass found in it; `row` is laid out as DMC_PPR_ROW. -/
structure RowErrs where
  row   : Nat
  count : Nat
  deriving DecidableEq, Repr

/-! ### RoCEv2 (R301, R318) -/

/-- The request opcodes of R301; `unlisted` is any other. -/
inductive RoceOp where
  | send
  | write
  | read
  | compareSwap
  | fetchAdd
  | flush
  | unlisted
  deriving DecidableEq, Repr

/-- A RoCEv2 request packet. `first` and `last` say where it stands in its message; `va`, `rkey` and `len`
are those of its message's first packet. `persist` asks a FLUSH for persistence. `whole` says that the ICRC and
the headers are good, `fieldsOk` that no reserved field is set; `buffer` that a receive buffer stands posted for
it where it needs one. `ecn` is Congestion Experienced, `at_` the time in ns. -/
structure RocePkt where
  qpn      : Nat
  psn      : Nat
  op       : RoceOp
  first    : Bool
  last     : Bool
  imm      : Option Nat
  va       : Nat
  rkey     : Nat
  len      : Nat
  data     : Bytes
  compare  : Nat
  swap     : Nat
  persist  : Bool
  ackReq   : Bool
  ecn      : Bool
  whole    : Bool
  fieldsOk : Bool
  buffer   : Bool
  port     : Nat
  at_      : Nat
  deriving DecidableEq, Repr

/-- Why a request was not acknowledged. -/
inductive NakKind where
  | sequence
  | invalidRequest
  | remoteAccess
  | remoteOperation
  | rnr
  deriving DecidableEq, Repr

/-- A packet of a queue pair: a request, a READ or atomic response, an acknowledgement, a NAK, a CNP. `at_` is the
time in ns; the protection information is that of the logical blocks a response brings of a host's write. -/
inductive RdtPkt where
  | request (p : RocePkt)
  | response (qpn psn : Nat) (data : Bytes) (pi : List PiIn) (ecn : Bool) (at_ : Nat)
  | ack (qpn psn : Nat)
  | nak (qpn psn : Nat) (k : NakKind)
  | cnp (qpn at_ : Nat)
  deriving DecidableEq, Repr

/-! ### Replication messages (R275) -/

/-- A replication message header as it arrives, fields as they stand; `tag` is the tag of a header-only message,
`fixed` the IV fixed field of the direction it came in. -/
structure ReplHdr where
  format   : Nat
  type     : Nat
  status   : Nat
  linkTag  : Nat
  seq      : Nat
  lba      : Nat
  count    : Nat
  volume   : Nat
  reserved : Nat
  cutStamp : Nat
  fixed    : Nat
  tag      : Bytes
  deriving DecidableEq, Repr


/-! ### Calibration probes (R242) -/

/-- The reads of a calibration pass for a page type, 4 being pseudo-SLC: the sample codeword at its offsets, and for each
reference the codeword read with it moved down and up. -/
structure CalProbe where
  ptype : Nat
  centre : Bytes
  refs  : List (Nat × Bytes × Bytes)
  deriving DecidableEq, Repr

/-! ### Replay (R197) -/

/-- What the head reads of an instance at replay (R197): every programmed page of its two anchor blocks, by block and page,
and the journal pages it reads, each with its address and the information part of its codeword, as read or as reconstructed
from its stripe; none where it can be neither. -/
structure ReplayIn where
  inst   : Nat
  anchors : List (Nat × Nat × Option Bytes)
  pages   : List (Nat × Option Bytes)
  deriving DecidableEq, Repr

/-! ### Motif slot ports (R413) -/

/-- An operation of a slot's BOB port. -/
inductive BobOp where
  | alloc (pool : Nat)
  | inc (handle : Nat)
  | free (handle : Nat)
  deriving DecidableEq, Repr

/-- An operation of a slot's QP port: a WQE posted at an index of a send, a receive or a shared receive queue, or the read
of a CQE. -/
inductive SlotQpOp where
  | postSend (qpn index : Nat) (wqe : Bytes)
  | postRecv (qpn index : Nat) (wqe : Bytes)
  | postShared (srq index : Nat) (wqe : Bytes)
  | readCq (cq index : Nat)
  deriving DecidableEq, Repr
/-- The commands, one per row of spec/opcode_table.json, in its order. -/
inductive Instr where
  | castOnStart (x : Straps) (power : Bool)
  | castonStepDone (o : StepOutcome)
  | castonStepTimeout
  | selfFlushMeasured (uj us charge dv v1 i1 v2 i2 : Nat) (inputLost : Bool)
  | journalGapRequest (inst fromJseq : Nat)
  | missingGroupsReply (inst : Nat) (groups : List Bytes)
  | acceptGap
  | soloStart (found : List ReplayIn)
  | ready
  | rejoinPause
  | lastSequence (seq jseq : Nat)
  | survivorHandback
  | finalJseq (jseq : Nat)
  | forfeit (who : Requester) (cause : Nat)
  | junctionOvertemp
  | lockstepMismatch
  | partnerForfeitSampled (found : List ReplayIn)
  | takeoverAdopt
  | leaseClaimTimeout (half : Nat)
  | parameterExchange (m : ParamMsg) (found : List ReplayIn)
  | idClashRetry
  | efmRetrain
  | efmoFlitDiscard (flits : List Bytes)
  | efmoNak (flit : Bytes)
  | efmoReplayTimeout
  | efmoRecoveryDone (ok : Bool)
  | efmoLaneFailing (lane seq : Nat) (lostLock : Bool)
  | laneSpare (logical spare seq : Nat)
  | stateHeartbeat
  | stateMessage (m : StateMsg)
  | flushed
  | refereeMessage (fixed invocation : Nat) (ct tag : Bytes)
  | forwardedCommand (q : Nat) (c : HostCmd)
  | forwardedSlotReply (q cid seq own mirror count status : Nat)
  | forwardedReadData (q cid lba : Nat) (data : Bytes) (guard : Nat)
  | commandFetch (q : Nat) (c : HostCmd) (visit more : Bool)
  | adminCapsule (port qpn cntl : Nat) (capsule : Bytes)
  | blockMessage (m : BlockMsg)
  | endMarker (m : Marker)
  | abortMarker (m : Marker)
  | placementAck (a : AckMsg)
  | drainToStaging (mirror : Bool) (inst seq volume : Nat) (bad : List Nat)
  | hardenedHorizon (inst horizon tail : Nat)
  | journalGroup (inst : Nat) (bytes : Bytes)
  | refetchRequest (m : RefetchMsg) (intact : Bool)
  | refetchReply (m : RefetchMsg) (block : Option BlockMsg)
  | refetchTimeout (token : Nat)
  | readRelease (inst seq : Nat) (bad : List Nat)
  | deallocateApply (inst seq : Nat)
  | flushComplete (inst seq : Nat)
  | writeThroughExit
  | queueThaw (q : Nat)
  | stitchSubmit (tail : Nat)
  | stitchAdmit (fromRing : Bool) (k : Nat)
  | gdStage (sid : Nat) (chk : StageCheck)
  | ldhStage (sid : Nat) (chk : StageCheck)
  | ldsStage (sid : Nat) (chk : StageCheck)
  | xtdStage (sid : Nat) (chk : StageCheck)
  | dcStage (sid : Nat) (chk : StageCheck)
  | mtStage (sid : Nat) (chk : StageCheck) (taken : Nat)
  | fpStage (sid : Nat) (chk : StageCheck)
  | dxStage (sid : Nat) (chk : StageCheck)
  | cpStage (sid : Nat) (chk : StageCheck)
  | xteStage (sid : Nat) (chk : StageCheck)
  | geStage (sid : Nat) (chk : StageCheck)
  | rsStage (sid : Nat) (chk : StageCheck)
  | engineTimeout (sid : Nat)
  | spareKatDone (pool engine : Nat) (pass : Bool)
  | indexPageFetched (inst page : Nat) (data : Option Bytes)
  | verifyCompare (sid : Nat)
  | backgroundDedupResume (sid : Nat)
  | referenceBatch (count : Nat)
  | dictInstall (dict : Nat)
  | dictRetire (dict : Nat)
  | dictFree (dict : Nat)
  | dictReservedOp (dict : Nat)
  | mapPageFetched (inst tree level ident : Nat) (data : Option Bytes)
  | splitHeadAdvance (head : Nat)
  | mapPageWriteback (inst tree level ident : Nat)
  | writeBackAll
  | objectRead (inst index : Nat)
  | objectWrite (inst index : Nat)
  | mcmdReservedOp (inst index : Nat)
  | hotmapInvalidate
  | superblockPush (stream sb : Nat)
  | superblockOpen (inst stream : Nat)
  | stripePad (sb : Nat)
  | operationStatus (port : Nat) (st : PurlStatus)
  | readDataMessage (port tag cw : Nat) (data : Bytes)
  | anchorPageWrite (inst : Nat)
  | anchorReplace (inst n block : Nat)
  | reclaimStart (force : Bool)
  | reclaimFinish (force : Bool) (lost : List Nat)
  | reclaimAbort (force : Bool)
  | reclaimReservedOp (force : Bool)
  | refreshCheck
  | dieArbiterSlot (module die : Nat)
  | purlTrainingStart (port : Nat)
  | purlTrainingTimeout (port : Nat)
  | parameterPage (port : Nat) (p : ParamPage) (credits : List Nat)
  | leaseStateReport (port : Nat) (report : List (Nat × Nat × Nat × Nat))
  | purlFrameDiscard (port : Nat) (frames : List Bytes)
  | purlNak (port : Nat) (frame : Bytes)
  | purlReplayTimeout (port : Nat)
  | purlRecoveryDone (port : Nat) (ok : Bool)
  | purlLaneFailing (port lane seq : Nat) (lostLock : Bool)
  | opStatusTimeout (port tag : Nat)
  | alertPowerWarning (port : Nat)
  | alertDieFault (port die : Nat)
  | alertTemperature (port die : Nat)
  | alertBridgeRestart (port : Nat)
  | alertReserved (port code die : Nat)
  | paramRead (who : Requester) (page die module : Nat)
  | llrRecompute (module die : Nat)
  | calibrationPass (module die group : Nat) (probes : List CalProbe)
  | reconstructSolve (sb stripe want : Nat)
  | modulePresenceChange (port : Nat) (present : Bool)
  | heldLimitExpiry (port : Nat)
  | awayLimitExpiry (port : Nat)
  | snapshotArm (addr set edge count : Nat)
  | snapshotCancel (set : Nat)
  | sweep (volume : Nat)
  | delta (fromEmpty : Bool) (older newer count addr start : Nat)
  | snpReservedOp (op : Nat)
  | mirroredArm (set edge : Nat) (cuts : List (Nat × Nat)) (cancel : Bool)
  | cutEdge (set : Nat)
  | cutGuardEnd (set : Nat)
  | cutSeal (set : Nat)
  | sealLimitExpiry (set : Nat)
  | replicationData (link : Nat) (h : ReplHdr) (frames : List (Bytes × Bytes))
  | replicationZero (link : Nat) (h : ReplHdr)
  | replicationCut (link : Nat) (h : ReplHdr)
  | replicationAck (link : Nat) (h : ReplHdr)
  | syncTimeout (link : Nat)
  | roceRequest (p : RocePkt)
  | roceResponse (qpn psn : Nat) (data : Bytes) (pi : List PiIn) (ecn : Bool) (t : Nat)
  | roceAck (qpn psn : Nat)
  | roceNak (qpn psn : Nat) (k : NakKind)
  | cnpReceive (qpn t : Nat)
  | alphaTimer (qpn : Nat)
  | increaseTimer (qpn : Nat)
  | ackTimeout (qpn : Nat)
  | rnrTimerExpiry (qpn : Nat)
  | qpContextFetched (qpn : Nat) (bad : Bool)
  | sendWqe (qpn : Nat)
  | tallyWaitRelease (qpn : Nat)
  | tallyWaitTimeout (qpn : Nat)
  | createQp (arg addr : Nat)
  | modifyQpConnected (qpn : Nat)
  | modifyQpError (qpn : Nat)
  | destroyQp (qpn : Nat)
  | createCq (cq cls tenant addr size : Nat)
  | destroyCq (cq : Nat)
  | createSrq (srq cls tenant addr size : Nat)
  | destroySrq (srq : Nat)
  | tenantReenable (tenant : Nat)
  | rdtReservedOp (op : Nat)
  | ethLinkUp (port : Nat)
  | ethLinkDown (port : Nat)
  | quarantineRelease (pool index : Nat)
  | cacheRequest (r : MemReq) (e : MemErr)
  | lineFill (line : Nat) (e : MemErr)
  | victimWritebackDone (line : Nat)
  | scratchpadAccess (off len : Nat) (data : Option Bytes) (e : MemErr)
  | rangeClean (who : Requester)
  | rangeCleanInvalidate (who : Requester)
  | rangeInvalidate (who : Requester)
  | rangeReservedOp (who : Requester)
  | patrolScrub (rows : List RowErrs) (bad : List Nat)
  | softRepair (spare : Bool)
  | hardRepair (spare : Bool)
  | allocCmd (pool tenant : Nat)
  | bobbinAllocate (cls tenant pool : Nat)
  | bobbinFree (tenant handle : Nat)
  | bobbinIncrement (tenant handle : Nat)
  | poolInit (pool : Nat)
  | keyLoad (who : Requester) (slot : Nat)
  | keyUnwrap (who : Requester) (slot : Nat)
  | keyGenerate (who : Requester) (slot : Nat)
  | keyWrap (who : Requester) (slot : Nat)
  | keyClear (who : Requester) (slot : Nat)
  | keyClearRetired
  | keyQuery (who : Requester) (slot : Nat)
  | setPhase (who : Requester) (slot : Nat)
  | keyReservedOp (who : Requester) (op slot : Nat)
  | securityAlarm (source : Nat)
  | zeroiseRequest (who : Requester)
  | rngGenerate (fails : Bool)
  | rngReseed
  | drbgHealthFailure (proportion : Bool)
  | drbgReseedDue
  | dualComputeEnd (pool : Nat)
  | controlSample (codes : List Int) (tj temp17 : Int) (tach : List Nat)
  | adcRecalibration (pairs : List (Int × Int))
  | loopSwap (who : Requester) (n : Nat) (reset enable : Bool)
  | captureImmediate (who : Requester) (decim sel : Nat)
  | captureHoldupArm (who : Requester) (decim sel : Nat)
  | captureSatArm (who : Requester) (decim sel : Nat)
  | captureReservedTrig (who : Requester) (decim sel : Nat)
  | probe (vMean : Nat)
  | probeDischargeEnd (charge v1 i1 v2 i2 : Nat)
  | probeRestEnd (vMean : Nat)
  | bankChargeTimeout
  | fanFail (fan : Nat)
  | inputLoss (droop : Bool)
  | inputReturn
  | holdupConfirm (idle : Nat)
  | holdupOwnDone
  | holdupShutdown
  | holdupResetRelease (straps : Straps)
  | vminReached
  | turnEdge (t ptp : Nat)
  | turnFrame (w : Nat)
  | localEdge (t ptp : Nat)
  | pipBoundary (t : Nat) (margins : List Nat)
  | unlockedTimeout (t : Nat)
  | holdoverTimeout (t : Nat)
  | firstPlayerEdge (t ptp readBack : Nat)
  | trnEnable (who : Requester) (w t : Nat)
  | trnDisable (who : Requester) (w t : Nat)
  | yield (who : Requester) (w t : Nat)
  | tableStatus (m : TableMsg)
  | ahead (m : TableMsg)
  | tableStatusSend
  | scheduleSlotFire (n : Nat)
  | schedArm (who : Requester) (n w : Nat)
  | slotLoad (slot : Nat)
  | slotLoadComplete (selfOk : Bool)
  | slotUnload (slot : Nat)
  | bind (slot mode : Nat)
  | unbind (slot mode : Nat)
  | unbindDrained
  | mtfReservedOp (op slot : Nat)
  | slotOutputTimeout (slot : Nat)
  | slotPowerSample (slot mw : Nat)
  | slotErr (slot : Nat)
  | blkOut (slot : Nat) (data : Bytes) (guardOk : Bool)
  | shellMemAccess (slot handle off : Nat) (data : Option Bytes) (e : MemErr)
  | shellBobOp (slot : Nat) (op : BobOp)
  | shellQpOp (slot : Nat) (op : SlotQpOp)
  | shellExport (slot qpn : Nat) (block : Bytes)
  | updateLoad (bodies : List SectionBody)
  | updateStep (cls arg : Nat)
  | boundOff
  | boundOn (held : Nat)
  | stepBindTimeout (held : Nat)
  | refereeBindTimeout
  | bridgeSend (arg : Nat)
  | fwStatus (port code : Nat)
  | bridgeActivate (arg : Nat)
  | frog
  | confirm
  | dirDone
  | updReservedOp (op : Nat)
  | floorRaise (who : Requester) (cls : Nat) (flash : List Nat)
  | sramRowRepair (mac row bad : Nat)
  | repairCore (cluster core : Nat)
  | rprReservedOp (op : Nat)
  | marginWindow (t : Nat)
  | regulatorRetry (rail : Nat) (acked : Bool)
  | gaugeRefresh
  | tlmRebuild
  | checkpoint
  | exportCmd (who : Requester) (slot seg : Nat)
  | replay (who : Requester) (w : Nat)
  | jtagAuth (level : Nat) (key sig : Bytes)
  | registerWrite (who : Requester) (off size value t : Nat)
  | pairLoRead (who : Requester) (off : Nat)
  | pairHiWrite (who : Requester) (off value : Nat)
  | pairLoWrite (who : Requester) (off value : Nat)
  | resultRegisterRead (who : Requester) (off : Nat)
  | interruptSet (who : Requester) (off value : Nat)
  | irqSwap (who : Requester)
  | errFatalClear (who : Requester) (mask : Nat)
  | fatalTimerExpiry
  | seatedRemoval
  | partnerPresenceChange (present : Bool)
  | powerDown
  | repatternStart (bodies : List SectionBody)
  | repatternSection (held : Nat)
  | partnerForfeitRelease
  | qpContextWritebackDone (qpn : Nat)
  | tcpReceiveData (q cid : Nat) (header : Bytes) (hdgst : Nat) (data : Bytes) (ddgst : Nat) (pi : List PiIn)
  | pfcFrameReceive (port mask pause : Nat)
  | recoveryImagesWritten
  deriving DecidableEq, Repr

end Sys2Proof
end

