-- ==== Sys2Proof/Decode.lean ====
section
/-! DEFINITION. The command a table word spells. No row of spec/opcode_table.json gives its command any
bits (every row's list of fields is empty), so no word spells a command. -/
namespace Sys2Proof

/-- The command that the low nbits of w spell by the table: none, for every word. -/
def decodeTableWord (_nbits _w : Nat) : Option Instr := none

end Sys2Proof
end

