-- ==== Sys2Proof/Machine/RegMap.lean ====
section
/-! DEFINITION. The fields of every software-visible register of the 64 MiB window, from the field
tables of the spec: where each lies (window offset, low bit, width) and its reset value (R468, R476). -/
namespace Sys2Proof.Machine

/-- One field of one register: the register's window offset, the field's low bit, its width in bits
and its value at reset. -/
structure Fld where
  off   : Nat
  lo    : Nat
  width : Nat
  reset : Nat
  deriving DecidableEq, Repr

/-- Active engines of each pool code (R103). -/
def poolActive (p : Nat) : Nat :=
  match p with
  | 0 => 48 | 1 => 64 | 2 => 48 | 3 => 32 | 4 => 16 | 5 => 8 | 6 => 40 | 7 => 8 | _ => 0

/-- Spare engines of each pool code (R103). -/
def poolSpares (p : Nat) : Nat :=
  match p with
  | 0 => 4 | 1 => 8 | 2 => 4 | 3 => 2 | 4 => 2 | 5 => 1 | 6 => 4 | 7 => 1 | _ => 0

/-! ### GLB -/

def F.GLB_IDENTITY_PART : Fld := ⟨0x0, 16, 16, 0xA28⟩
def F.GLB_IDENTITY_STEP_MAJOR : Fld := ⟨0x0, 4, 4, 0x2⟩
def F.GLB_IDENTITY_STEP_MINOR : Fld := ⟨0x0, 0, 4, 0x1⟩
def F.GLB_LEASE_EPOCHS_HALF1 : Fld := ⟨0x18, 16, 16, 0x0⟩
def F.GLB_LEASE_EPOCHS_HALF0 : Fld := ⟨0x18, 0, 16, 0x0⟩
def F.GLB_PAIR_STATUS_LEASE_EPOCH : Fld := ⟨0x10, 16, 16, 0x0⟩
def F.GLB_PAIR_STATUS_SOLO : Fld := ⟨0x10, 12, 1, 0x0⟩
def F.GLB_PAIR_STATUS_PARTNER_FORFEIT : Fld := ⟨0x10, 11, 1, 0x0⟩
def F.GLB_PAIR_STATUS_PARTNER_PRESENT : Fld := ⟨0x10, 10, 1, 0x0⟩
def F.GLB_PAIR_STATUS_EFMO_UP : Fld := ⟨0x10, 9, 1, 0x0⟩
def F.GLB_PAIR_STATUS_HEAD_ID : Fld := ⟨0x10, 8, 1, 0x0⟩
def F.GLB_PAIR_STATUS_PARTNER_STATE : Fld := ⟨0x10, 4, 3, 0x0⟩
def F.GLB_PAIR_STATUS_STATE : Fld := ⟨0x10, 0, 3, 0x1⟩
def F.GLB_FORFEIT_FORFEIT : Fld := ⟨0x14, 31, 1, 0x0⟩
def F.GLB_FORFEIT_LAST_CAUSE : Fld := ⟨0x14, 8, 8, 0x0⟩
def F.GLB_FORFEIT_CAUSE : Fld := ⟨0x14, 0, 8, 0x0⟩
def F.GLB_STRAPS_DEBUG_REQ : Fld := ⟨0x20, 5, 1, 0x0⟩
def F.GLB_STRAPS_XSPI_OCTAL : Fld := ⟨0x20, 4, 1, 0x0⟩
def F.GLB_STRAPS_BOOT_MODE : Fld := ⟨0x20, 2, 2, 0x0⟩
def F.GLB_STRAPS_HEAD_ID : Fld := ⟨0x20, 0, 1, 0x0⟩
def F.GLB_SELF_FLUSH_CFG_SIZE_GIB : Fld := ⟨0x48, 0, 3, 0x1⟩
def F.GLB_FLUSH_COST_ENERGY_MJ : Fld := ⟨0x44, 16, 16, 0x0⟩
def F.GLB_FLUSH_COST_TIME_US : Fld := ⟨0x44, 0, 16, 0x0⟩
def F.GLB_CASTON_STATUS_FAILED : Fld := ⟨0x24, 31, 1, 0x0⟩
def F.GLB_CASTON_STATUS_LIFELINE : Fld := ⟨0x24, 30, 1, 0x0⟩
def F.GLB_CASTON_STATUS_WRITE_THROUGH : Fld := ⟨0x24, 29, 1, 0x0⟩
def F.GLB_CASTON_STATUS_FAIL_CODE : Fld := ⟨0x24, 16, 8, 0x0⟩
def F.GLB_CASTON_STATUS_FAIL_STEP : Fld := ⟨0x24, 8, 4, 0x0⟩
def F.GLB_CASTON_STATUS_STEP : Fld := ⟨0x24, 0, 4, 0x0⟩
def F.GLB_PATTERN_VERSION_VERSION : Fld := ⟨0x28, 0, 32, 0x0⟩
def F.GLB_PATTERN_INFO_SEC_EPOCH : Fld := ⟨0x2C, 16, 16, 0x0⟩
def F.GLB_PATTERN_INFO_BOUND : Fld := ⟨0x2C, 15, 1, 0x0⟩
def F.GLB_PATTERN_INFO_REPAIR : Fld := ⟨0x2C, 14, 1, 0x0⟩
def F.GLB_PATTERN_INFO_PARTIAL : Fld := ⟨0x2C, 13, 1, 0x0⟩
def F.GLB_PATTERN_INFO_STEPS : Fld := ⟨0x2C, 0, 8, 0x0⟩
def F.GLB_REPATTERN_ADDR_LO_ADDR_LO : Fld := ⟨0x30, 6, 26, 0x0⟩
def F.GLB_REPATTERN_ADDR_HI_ADDR_HI : Fld := ⟨0x34, 0, 16, 0x0⟩
def F.GLB_REPATTERN_LEN_LENGTH : Fld := ⟨0x38, 0, 32, 0x0⟩
def F.GLB_REPATTERN_CTRL_START : Fld := ⟨0x3C, 0, 1, 0x0⟩
def F.GLB_REPATTERN_RESULT_VALID : Fld := ⟨0x40, 31, 1, 0x0⟩
def F.GLB_REPATTERN_RESULT_SEEN : Fld := ⟨0x40, 30, 1, 0x0⟩
def F.GLB_REPATTERN_RESULT_SEQ : Fld := ⟨0x40, 16, 8, 0x0⟩
def F.GLB_REPATTERN_RESULT_SECTIONS : Fld := ⟨0x40, 8, 8, 0x0⟩
def F.GLB_REPATTERN_RESULT_CODE : Fld := ⟨0x40, 0, 4, 0x0⟩
def F.GLB_ISR_REPATTERN_DONE : Fld := ⟨0xF0, 2, 1, 0x0⟩
def F.GLB_ISR_PARTNER : Fld := ⟨0xF0, 1, 1, 0x0⟩
def F.GLB_ISR_STATE : Fld := ⟨0xF0, 0, 1, 0x0⟩
def F.GLB_IER_REPATTERN_DONE : Fld := ⟨0xF4, 2, 1, 0x0⟩
def F.GLB_IER_PARTNER : Fld := ⟨0xF4, 1, 1, 0x0⟩
def F.GLB_IER_STATE : Fld := ⟨0xF4, 0, 1, 0x0⟩
def F.GLB_ISR_SET_REPATTERN_DONE : Fld := ⟨0xF8, 2, 1, 0x0⟩
def F.GLB_ISR_SET_PARTNER : Fld := ⟨0xF8, 1, 1, 0x0⟩
def F.GLB_ISR_SET_STATE : Fld := ⟨0xF8, 0, 1, 0x0⟩

/-! ### CRP -/

def F.CRP_STATUS_MOTIF : Fld := ⟨0x100000, 8, 8, 0x0⟩
def F.CRP_STATUS_CLUSTER : Fld := ⟨0x100000, 4, 4, 0xF⟩
def F.CRP_STATUS_PCIE : Fld := ⟨0x100000, 3, 1, 0x1⟩
def F.CRP_STATUS_FRONT_END : Fld := ⟨0x100000, 2, 1, 0x1⟩
def F.CRP_ISR_DOMAIN : Fld := ⟨0x1000F0, 0, 1, 0x0⟩
def F.CRP_IER_DOMAIN : Fld := ⟨0x1000F4, 0, 1, 0x0⟩
def F.CRP_ISR_SET_DOMAIN : Fld := ⟨0x1000F8, 0, 1, 0x0⟩

/-! ### RPR -/

def F.RPR_CTRL_ROW_CE_LIMIT : Fld := ⟨0x200000, 24, 8, 0x3⟩
def F.RPR_CTRL_AUTO_ROW : Fld := ⟨0x200000, 0, 1, 0x1⟩
def F.RPR_SPARES_MACROS_OUT : Fld := ⟨0x200004, 8, 8, 0x0⟩
def F.RPR_SPARES_CORE_SPARE : Fld := ⟨0x200004, 0, 4, 0xF⟩
def F.RPR_CMD_START : Fld := ⟨0x200010, 31, 1, 0x0⟩
def F.RPR_CMD_BUSY : Fld := ⟨0x200010, 30, 1, 0x0⟩
def F.RPR_CMD_OP : Fld := ⟨0x200010, 16, 4, 0x0⟩
def F.RPR_CMD_CLUSTER : Fld := ⟨0x200010, 4, 2, 0x0⟩
def F.RPR_CMD_CORE : Fld := ⟨0x200010, 0, 3, 0x0⟩
def F.RPR_RESULT_VALID : Fld := ⟨0x200014, 31, 1, 0x0⟩
def F.RPR_RESULT_SEEN : Fld := ⟨0x200014, 30, 1, 0x0⟩
def F.RPR_RESULT_SEQ : Fld := ⟨0x200014, 16, 8, 0x0⟩
def F.RPR_RESULT_CODE : Fld := ⟨0x200014, 0, 4, 0x0⟩
def F.RPR_REC_BASE_LO_ADDR : Fld := ⟨0x200018, 0, 32, 0x0⟩
def F.RPR_REC_BASE_HI_ADDR : Fld := ⟨0x20001C, 0, 32, 0x0⟩
def F.RPR_REC_COUNT_COUNT : Fld := ⟨0x200020, 0, 32, 0x0⟩
def F.RPR_VADJ_RAIL_EN (r : Nat) : Fld := ⟨0x200040 + 0x4 * r, 31, 1, 0x0⟩
def F.RPR_VADJ_RAIL_ADDR (r : Nat) : Fld := ⟨0x200040 + 0x4 * r, 16, 7, 0x0⟩
def F.RPR_VADJ_RAIL_CMD (r : Nat) : Fld := ⟨0x200040 + 0x4 * r, 8, 8, 0x0⟩
def F.RPR_VADJ_AGE_LIMIT (r : Nat) : Fld := ⟨0x200050 + 0x4 * r, 24, 1, 0x0⟩
def F.RPR_VADJ_OFS_MAX (r : Nat) : Fld := ⟨0x200050 + 0x4 * r, 16, 8, 0x0⟩
def F.RPR_VADJ_STEPS (r : Nat) : Fld := ⟨0x200050 + 0x4 * r, 0, 8, 0x0⟩
def F.RPR_MARGIN_CFG_CRIT : Fld := ⟨0x200060, 16, 8, 0x2⟩
def F.RPR_MARGIN_CFG_LOW : Fld := ⟨0x200060, 8, 8, 0x6⟩
def F.RPR_MARGIN_CFG_HIGH : Fld := ⟨0x200060, 0, 8, 0xC⟩
def F.RPR_MARGIN_MIN_LIFE (d : Nat) : Fld := ⟨0x200070 + 0x4 * d, 16, 8, 0x3F⟩
def F.RPR_MARGIN_MIN_WIN (d : Nat) : Fld := ⟨0x200070 + 0x4 * d, 8, 8, 0x3F⟩
def F.RPR_MARGIN_NOW (d : Nat) : Fld := ⟨0x200070 + 0x4 * d, 0, 8, 0x3F⟩
def F.RPR_ISR_CMD_DONE : Fld := ⟨0x2000F0, 5, 1, 0x0⟩
def F.RPR_ISR_VADJ_FAIL : Fld := ⟨0x2000F0, 4, 1, 0x0⟩
def F.RPR_ISR_AGE_LIMIT : Fld := ⟨0x2000F0, 3, 1, 0x0⟩
def F.RPR_ISR_VADJ_UP : Fld := ⟨0x2000F0, 2, 1, 0x0⟩
def F.RPR_ISR_SPARES_OUT : Fld := ⟨0x2000F0, 1, 1, 0x0⟩
def F.RPR_ISR_REPAIRED : Fld := ⟨0x2000F0, 0, 1, 0x0⟩
def F.RPR_IER_CMD_DONE : Fld := ⟨0x2000F4, 5, 1, 0x0⟩
def F.RPR_IER_VADJ_FAIL : Fld := ⟨0x2000F4, 4, 1, 0x0⟩
def F.RPR_IER_AGE_LIMIT : Fld := ⟨0x2000F4, 3, 1, 0x0⟩
def F.RPR_IER_VADJ_UP : Fld := ⟨0x2000F4, 2, 1, 0x0⟩
def F.RPR_IER_SPARES_OUT : Fld := ⟨0x2000F4, 1, 1, 0x0⟩
def F.RPR_IER_REPAIRED : Fld := ⟨0x2000F4, 0, 1, 0x0⟩
def F.RPR_ISR_SET_CMD_DONE : Fld := ⟨0x2000F8, 5, 1, 0x0⟩
def F.RPR_ISR_SET_VADJ_FAIL : Fld := ⟨0x2000F8, 4, 1, 0x0⟩
def F.RPR_ISR_SET_AGE_LIMIT : Fld := ⟨0x2000F8, 3, 1, 0x0⟩
def F.RPR_ISR_SET_VADJ_UP : Fld := ⟨0x2000F8, 2, 1, 0x0⟩
def F.RPR_ISR_SET_SPARES_OUT : Fld := ⟨0x2000F8, 1, 1, 0x0⟩
def F.RPR_ISR_SET_REPAIRED : Fld := ⟨0x2000F8, 0, 1, 0x0⟩

/-! ### TRN -/

def F.TRN_CTRL_SKIP_TURNS : Fld := ⟨0x300000, 16, 8, 0x0⟩
def F.TRN_CTRL_PTP_PORT : Fld := ⟨0x300000, 12, 4, 0x0⟩
def F.TRN_CTRL_SEAT : Fld := ⟨0x300000, 6, 3, 0x0⟩
def F.TRN_CTRL_YIELD : Fld := ⟨0x300000, 2, 1, 0x0⟩
def F.TRN_CTRL_FP_ELIG : Fld := ⟨0x300000, 1, 1, 0x1⟩
def F.TRN_CTRL_ENABLE : Fld := ⟨0x300000, 0, 1, 0x0⟩
def F.TRN_PERIOD_CFG_PERIOD_US : Fld := ⟨0x300004, 0, 10, 0x64⟩
def F.TRN_STATUS_EPOCH : Fld := ⟨0x300008, 24, 8, 0x0⟩
def F.TRN_STATUS_FP_SEAT : Fld := ⟨0x300008, 16, 3, 0x0⟩
def F.TRN_STATUS_LOCAL : Fld := ⟨0x300008, 4, 4, 0x0⟩
def F.TRN_STATUS_STATE : Fld := ⟨0x300008, 0, 3, 0x0⟩
def F.TRN_NOW_LO_VALUE : Fld := ⟨0x300010, 0, 32, 0x0⟩
def F.TRN_NOW_HI_VALUE : Fld := ⟨0x300014, 0, 32, 0x0⟩
def F.TRN_FLOOR_LO_VALUE : Fld := ⟨0x300018, 0, 32, 0x0⟩
def F.TRN_FLOOR_HI_VALUE : Fld := ⟨0x30001C, 0, 32, 0x0⟩
def F.TRN_EDGE_TURN_LO_VALUE : Fld := ⟨0x300020, 0, 32, 0x0⟩
def F.TRN_EDGE_TURN_HI_VALUE : Fld := ⟨0x300024, 0, 32, 0x0⟩
def F.TRN_EDGE_PTP_LO_VALUE : Fld := ⟨0x300028, 0, 32, 0x0⟩
def F.TRN_EDGE_PTP_HI_VALUE : Fld := ⟨0x30002C, 0, 32, 0x0⟩
def F.TRN_PERIOD_EST_P : Fld := ⟨0x300030, 0, 32, 0x0⟩
def F.TRN_EVENTS_JUMPS : Fld := ⟨0x300038, 24, 8, 0x0⟩
def F.TRN_EVENTS_REJECTS : Fld := ⟨0x300038, 16, 8, 0x0⟩
def F.TRN_EVENTS_FRAME_ERR : Fld := ⟨0x300038, 8, 8, 0x0⟩
def F.TRN_EVENTS_GLITCH : Fld := ⟨0x300038, 0, 8, 0x0⟩
def F.TRN_SCHED_FIRED_FIRED : Fld := ⟨0x30003C, 0, 16, 0x0⟩
def F.TRN_ISR_SCHED : Fld := ⟨0x300070, 6, 1, 0x0⟩
def F.TRN_ISR_REJECT : Fld := ⟨0x300070, 5, 1, 0x0⟩
def F.TRN_ISR_JUMP : Fld := ⟨0x300070, 4, 1, 0x0⟩
def F.TRN_ISR_FP_CHANGE : Fld := ⟨0x300070, 3, 1, 0x0⟩
def F.TRN_ISR_BECAME_FIRST : Fld := ⟨0x300070, 2, 1, 0x0⟩
def F.TRN_ISR_HOLDOVER : Fld := ⟨0x300070, 1, 1, 0x0⟩
def F.TRN_ISR_LOCKED : Fld := ⟨0x300070, 0, 1, 0x0⟩
def F.TRN_IER_SCHED : Fld := ⟨0x300074, 6, 1, 0x0⟩
def F.TRN_IER_REJECT : Fld := ⟨0x300074, 5, 1, 0x0⟩
def F.TRN_IER_JUMP : Fld := ⟨0x300074, 4, 1, 0x0⟩
def F.TRN_IER_FP_CHANGE : Fld := ⟨0x300074, 3, 1, 0x0⟩
def F.TRN_IER_BECAME_FIRST : Fld := ⟨0x300074, 2, 1, 0x0⟩
def F.TRN_IER_HOLDOVER : Fld := ⟨0x300074, 1, 1, 0x0⟩
def F.TRN_IER_LOCKED : Fld := ⟨0x300074, 0, 1, 0x0⟩
def F.TRN_ISR_SET_SCHED : Fld := ⟨0x300078, 6, 1, 0x0⟩
def F.TRN_ISR_SET_REJECT : Fld := ⟨0x300078, 5, 1, 0x0⟩
def F.TRN_ISR_SET_JUMP : Fld := ⟨0x300078, 4, 1, 0x0⟩
def F.TRN_ISR_SET_FP_CHANGE : Fld := ⟨0x300078, 3, 1, 0x0⟩
def F.TRN_ISR_SET_BECAME_FIRST : Fld := ⟨0x300078, 2, 1, 0x0⟩
def F.TRN_ISR_SET_HOLDOVER : Fld := ⟨0x300078, 1, 1, 0x0⟩
def F.TRN_ISR_SET_LOCKED : Fld := ⟨0x300078, 0, 1, 0x0⟩
def F.TRN_PEER_VALID (s : Nat) : Fld := ⟨0x300080 + 0x4 * s, 31, 1, 0x0⟩
def F.TRN_PEER_QPN (s : Nat) : Fld := ⟨0x300080 + 0x4 * s, 0, 24, 0x0⟩
def F.TRN_SCHED_TARGET_LO_STAMP (n : Nat) : Fld := ⟨0x300100 + 0x10 * n, 0, 32, 0x0⟩
def F.TRN_SCHED_TARGET_HI_STAMP (n : Nat) : Fld := ⟨0x300104 + 0x10 * n, 0, 32, 0x0⟩
def F.TRN_SCHED_CFG_EN (n : Nat) : Fld := ⟨0x300108 + 0x10 * n, 31, 1, 0x0⟩
def F.TRN_SCHED_CFG_LATE (n : Nat) : Fld := ⟨0x300108 + 0x10 * n, 30, 1, 0x0⟩
def F.TRN_SCHED_CFG_MISSED (n : Nat) : Fld := ⟨0x300108 + 0x10 * n, 16, 8, 0x0⟩
def F.TRN_SCHED_CFG_PERIOD (n : Nat) : Fld := ⟨0x300108 + 0x10 * n, 0, 16, 0x0⟩

/-! ### CTL -/

def F.CTL_CTRL_PROBE_EN : Fld := ⟨0x400000, 1, 1, 0x1⟩
def F.CTL_CTRL_ENABLE : Fld := ⟨0x400000, 0, 1, 0x1⟩
def F.CTL_STATUS_BANK_CAUSE : Fld := ⟨0x400004, 8, 4, 0x0⟩
def F.CTL_STATUS_SHORT_PREDICTED : Fld := ⟨0x400004, 7, 1, 0x0⟩
def F.CTL_STATUS_SOLO_COST : Fld := ⟨0x400004, 6, 1, 0x0⟩
def F.CTL_STATUS_BANK_FAILED : Fld := ⟨0x400004, 5, 1, 0x0⟩
def F.CTL_STATUS_INPUT_GOOD : Fld := ⟨0x400004, 4, 1, 0x0⟩
def F.CTL_STATUS_MODE : Fld := ⟨0x400004, 0, 3, 0x0⟩
def F.CTL_CONV_CFG_VBANK_SET : Fld := ⟨0x400010, 16, 16, 0x12C0⟩
def F.CTL_CONV_CFG_VBUS_HU_SET : Fld := ⟨0x400010, 0, 16, 0x2DB4⟩
def F.CTL_CONV_CFG2_I_CHG : Fld := ⟨0x400014, 24, 8, 0x50⟩
def F.CTL_CONV_CFG2_I_PROBE : Fld := ⟨0x400014, 16, 8, 0x50⟩
def F.CTL_CONV_CFG2_RIDE_US : Fld := ⟨0x400014, 8, 8, 0x14⟩
def F.CTL_CONV_CFG2_DET_PCT : Fld := ⟨0x400014, 0, 8, 0x3⟩
def F.CTL_PROBE_CFG_PROBE_TURNS : Fld := ⟨0x400018, 16, 16, 0x400⟩
def F.CTL_PROBE_CFG_PROBE_US : Fld := ⟨0x400018, 0, 16, 0x61A8⟩
def F.CTL_BANK_LIMITS_C_FAIL : Fld := ⟨0x40001C, 16, 16, 0xFA⟩
def F.CTL_BANK_LIMITS_ESR_FAIL : Fld := ⟨0x40001C, 0, 16, 0xC350⟩
def F.CTL_LEDGER_CFG_VMIN_MV : Fld := ⟨0x400020, 16, 16, 0x4E20⟩
def F.CTL_LEDGER_CFG_VTOL_MV : Fld := ⟨0x400020, 0, 16, 0x64⟩
def F.CTL_LEDGER_CFG2_P_HU_W : Fld := ⟨0x400024, 16, 16, 0x4B0⟩
def F.CTL_LEDGER_CFG2_SOLO_PCT : Fld := ⟨0x400024, 8, 8, 0x87⟩
def F.CTL_LEDGER_RESERVE_RESERVE_MJ : Fld := ⟨0x400028, 0, 32, 0xEA60⟩
def F.CTL_BANK_V_VBANK_MV : Fld := ⟨0x400030, 16, 16, 0x0⟩
def F.CTL_BANK_V_VBUS_MV : Fld := ⟨0x400030, 0, 16, 0x0⟩
def F.CTL_BANK_C_MEAN_UF : Fld := ⟨0x400034, 0, 32, 0x0⟩
def F.CTL_BANK_C_LOW_UF : Fld := ⟨0x400038, 0, 32, 0x0⟩
def F.CTL_BANK_ESR_HIGH_UO : Fld := ⟨0x40003C, 16, 16, 0xFFFF⟩
def F.CTL_BANK_ESR_MEAN_UO : Fld := ⟨0x40003C, 0, 16, 0x0⟩
def F.CTL_BANK_SAMPLES_PROBES : Fld := ⟨0x400040, 16, 16, 0x0⟩
def F.CTL_BANK_SAMPLES_N_ESR : Fld := ⟨0x400040, 8, 7, 0x0⟩
def F.CTL_BANK_SAMPLES_N : Fld := ⟨0x400040, 0, 7, 0x0⟩
def F.CTL_LEDGER_E_LO_UJ : Fld := ⟨0x400044, 0, 32, 0x0⟩
def F.CTL_LEDGER_E_HI_UJ : Fld := ⟨0x400048, 0, 32, 0x0⟩
def F.CTL_ETA_ETA : Fld := ⟨0x40004C, 0, 17, 0x0⟩
def F.CTL_PWM_CFG_PERIOD_NS : Fld := ⟨0x400050, 16, 16, 0x7D0⟩
def F.CTL_PWM_CFG_DEADTIME_NS : Fld := ⟨0x400050, 8, 8, 0x14⟩
def F.CTL_FAN_CFG_SENSOR_MASK : Fld := ⟨0x400054, 16, 16, 0x0⟩
def F.CTL_FAN_CFG_MIN_DUTY : Fld := ⟨0x400054, 0, 10, 0x12C⟩
def F.CTL_FAN_TACH_RPM (n : Nat) : Fld := ⟨0x400060 + 0x4 * n, 16, 16, 0x0⟩
def F.CTL_FAN_DUTY (n : Nat) : Fld := ⟨0x400060 + 0x4 * n, 0, 10, 0x3E8⟩
def F.CTL_INJ_CFG_EN : Fld := ⟨0x400080, 31, 1, 0x0⟩
def F.CTL_INJ_CFG_LOOP : Fld := ⟨0x400080, 29, 2, 0x0⟩
def F.CTL_INJ_CFG_POINT : Fld := ⟨0x400080, 28, 1, 0x0⟩
def F.CTL_INJ_CFG_WAVE : Fld := ⟨0x400080, 27, 1, 0x0⟩
def F.CTL_INJ_AMP_VALUE : Fld := ⟨0x400084, 0, 32, 0x0⟩
def F.CTL_INJ_FREQ_VALUE : Fld := ⟨0x400088, 0, 32, 0x0⟩
def F.CTL_INJ_MAX_VALUE : Fld := ⟨0x40008C, 0, 32, 0x1000000⟩
def F.CTL_CAP_CFG_START : Fld := ⟨0x400090, 31, 1, 0x0⟩
def F.CTL_CAP_CFG_BUSY : Fld := ⟨0x400090, 30, 1, 0x0⟩
def F.CTL_CAP_CFG_TRIG : Fld := ⟨0x400090, 28, 2, 0x0⟩
def F.CTL_CAP_CFG_DECIM : Fld := ⟨0x400090, 20, 8, 0x0⟩
def F.CTL_CAP_CFG_SEL : Fld := ⟨0x400090, 0, 20, 0x0⟩
def F.CTL_CAP_RESULT_VALID : Fld := ⟨0x400094, 31, 1, 0x0⟩
def F.CTL_CAP_RESULT_SEEN : Fld := ⟨0x400094, 30, 1, 0x0⟩
def F.CTL_CAP_RESULT_SEQ : Fld := ⟨0x400094, 16, 8, 0x0⟩
def F.CTL_CAP_RESULT_CODE : Fld := ⟨0x400094, 0, 4, 0x0⟩
def F.CTL_LOOP_RESULT_VALID (n : Nat) : Fld := ⟨0x400104 + 0x10 * n, 31, 1, 0x0⟩
def F.CTL_LOOP_RESULT_SEEN (n : Nat) : Fld := ⟨0x400104 + 0x10 * n, 30, 1, 0x0⟩
def F.CTL_LOOP_RESULT_SEQ (n : Nat) : Fld := ⟨0x400104 + 0x10 * n, 16, 8, 0x0⟩
def F.CTL_LOOP_RESULT_CODE (n : Nat) : Fld := ⟨0x400104 + 0x10 * n, 0, 4, 0x0⟩
def F.CTL_HU_LAST_KIND : Fld := ⟨0x4000A0, 30, 2, 0x0⟩
def F.CTL_HU_LAST_MARGIN_J : Fld := ⟨0x4000A0, 0, 16, 0x0⟩
def F.CTL_EVENTS_RIDES : Fld := ⟨0x4000A4, 16, 16, 0x0⟩
def F.CTL_EVENTS_ACTIVE_WRITE : Fld := ⟨0x4000A4, 8, 8, 0x0⟩
def F.CTL_EVENTS_WRITE_REFUSED : Fld := ⟨0x4000A4, 0, 8, 0x0⟩
def F.CTL_LOOP_CTRL_SWAP (n : Nat) : Fld := ⟨0x400100 + 0x10 * n, 31, 1, 0x0⟩
def F.CTL_LOOP_CTRL_RESET_STATES (n : Nat) : Fld := ⟨0x400100 + 0x10 * n, 30, 1, 0x0⟩
def F.CTL_LOOP_CTRL_ACTIVE_BANK (n : Nat) : Fld := ⟨0x400100 + 0x10 * n, 1, 1, 0x0⟩
def F.CTL_LOOP_CTRL_ENABLE (n : Nat) : Fld := ⟨0x400100 + 0x10 * n, 0, 1, 0x1⟩
def F.CTL_LOOP_SAT_OUT_SAT (n : Nat) : Fld := ⟨0x400108 + 0x10 * n, 16, 16, 0x0⟩
def F.CTL_LOOP_SAT_STATE_SAT (n : Nat) : Fld := ⟨0x400108 + 0x10 * n, 0, 16, 0x0⟩
def F.CTL_ADC_OFS_VALUE (n : Nat) : Fld := ⟨0x400200 + 0x10 * n, 0, 32, 0x0⟩
def F.CTL_ADC_GAIN_VALUE (n : Nat) : Fld := ⟨0x400204 + 0x10 * n, 0, 32, 0x20000000⟩
def F.CTL_ADC_OFS0_VALUE (n : Nat) : Fld := ⟨0x400208 + 0x10 * n, 0, 32, 0x0⟩
def F.CTL_ADC_GAIN0_VALUE (n : Nat) : Fld := ⟨0x40020C + 0x10 * n, 0, 32, 0x20000000⟩
def F.CTL_ADC_VAL_VALUE (n : Nat) : Fld := ⟨0x400300 + 0x4 * n, 0, 32, 0x0⟩
def F.CTL_ISR_WRITE_REFUSED : Fld := ⟨0x4000F0, 8, 1, 0x0⟩
def F.CTL_ISR_FAN_FAIL : Fld := ⟨0x4000F0, 7, 1, 0x0⟩
def F.CTL_ISR_SAT : Fld := ⟨0x4000F0, 6, 1, 0x0⟩
def F.CTL_ISR_CAP_DONE : Fld := ⟨0x4000F0, 5, 1, 0x0⟩
def F.CTL_ISR_SWAP_DONE : Fld := ⟨0x4000F0, 4, 1, 0x0⟩
def F.CTL_ISR_CAL_DRIFT : Fld := ⟨0x4000F0, 3, 1, 0x0⟩
def F.CTL_ISR_BANK_FAILED : Fld := ⟨0x4000F0, 2, 1, 0x0⟩
def F.CTL_ISR_RIDE : Fld := ⟨0x4000F0, 1, 1, 0x0⟩
def F.CTL_ISR_HU_CONFIRM : Fld := ⟨0x4000F0, 0, 1, 0x0⟩
def F.CTL_IER_WRITE_REFUSED : Fld := ⟨0x4000F4, 8, 1, 0x0⟩
def F.CTL_IER_FAN_FAIL : Fld := ⟨0x4000F4, 7, 1, 0x0⟩
def F.CTL_IER_SAT : Fld := ⟨0x4000F4, 6, 1, 0x0⟩
def F.CTL_IER_CAP_DONE : Fld := ⟨0x4000F4, 5, 1, 0x0⟩
def F.CTL_IER_SWAP_DONE : Fld := ⟨0x4000F4, 4, 1, 0x0⟩
def F.CTL_IER_CAL_DRIFT : Fld := ⟨0x4000F4, 3, 1, 0x0⟩
def F.CTL_IER_BANK_FAILED : Fld := ⟨0x4000F4, 2, 1, 0x0⟩
def F.CTL_IER_RIDE : Fld := ⟨0x4000F4, 1, 1, 0x0⟩
def F.CTL_IER_HU_CONFIRM : Fld := ⟨0x4000F4, 0, 1, 0x0⟩
def F.CTL_ISR_SET_WRITE_REFUSED : Fld := ⟨0x4000F8, 8, 1, 0x0⟩
def F.CTL_ISR_SET_FAN_FAIL : Fld := ⟨0x4000F8, 7, 1, 0x0⟩
def F.CTL_ISR_SET_SAT : Fld := ⟨0x4000F8, 6, 1, 0x0⟩
def F.CTL_ISR_SET_CAP_DONE : Fld := ⟨0x4000F8, 5, 1, 0x0⟩
def F.CTL_ISR_SET_SWAP_DONE : Fld := ⟨0x4000F8, 4, 1, 0x0⟩
def F.CTL_ISR_SET_CAL_DRIFT : Fld := ⟨0x4000F8, 3, 1, 0x0⟩
def F.CTL_ISR_SET_BANK_FAILED : Fld := ⟨0x4000F8, 2, 1, 0x0⟩
def F.CTL_ISR_SET_RIDE : Fld := ⟨0x4000F8, 1, 1, 0x0⟩
def F.CTL_ISR_SET_HU_CONFIRM : Fld := ⟨0x4000F8, 0, 1, 0x0⟩
def F.CTL_COEF_VALUE (n b w : Nat) : Fld := ⟨0x404000 + 0x200 * n + 0x100 * b + 0x4 * w, 0, 32, 0x0⟩

/-! ### SEC -/

def F.SEC_CTRL_DUAL_TURNS : Fld := ⟨0x500000, 16, 16, 0x400⟩
def F.SEC_CTRL_XTS_LIMIT_LOG2 : Fld := ⟨0x500000, 8, 8, 0x28⟩
def F.SEC_CTRL_DUAL_FORCE : Fld := ⟨0x500000, 0, 1, 0x0⟩
def F.SEC_KEY_CMD_START : Fld := ⟨0x500010, 31, 1, 0x0⟩
def F.SEC_KEY_CMD_BUSY : Fld := ⟨0x500010, 30, 1, 0x0⟩
def F.SEC_KEY_CMD_OP : Fld := ⟨0x500010, 16, 4, 0x0⟩
def F.SEC_KEY_CMD_SLOT : Fld := ⟨0x500010, 0, 16, 0x0⟩
def F.SEC_KEY_ATTR_VERSION : Fld := ⟨0x500014, 24, 8, 0x0⟩
def F.SEC_KEY_ATTR_KEK : Fld := ⟨0x500014, 20, 4, 0x0⟩
def F.SEC_KEY_ATTR_GCM_LIMIT_LOG2 : Fld := ⟨0x500014, 8, 6, 0x30⟩
def F.SEC_KEY_ATTR_COUNTER_IV : Fld := ⟨0x500014, 1, 1, 0x0⟩
def F.SEC_KEY_ATTR_EXPORTABLE : Fld := ⟨0x500014, 0, 1, 0x0⟩
def F.SEC_KEY_ADDR_LO_ADDR : Fld := ⟨0x500018, 0, 32, 0x0⟩
def F.SEC_KEY_ADDR_HI_ADDR : Fld := ⟨0x50001C, 0, 32, 0x0⟩
def F.SEC_KEY_RESULT_VALID : Fld := ⟨0x500020, 31, 1, 0x0⟩
def F.SEC_KEY_RESULT_SEEN : Fld := ⟨0x500020, 30, 1, 0x0⟩
def F.SEC_KEY_RESULT_SEQ : Fld := ⟨0x500020, 16, 8, 0x0⟩
def F.SEC_KEY_RESULT_STATE : Fld := ⟨0x500020, 8, 2, 0x0⟩
def F.SEC_KEY_RESULT_PHASE : Fld := ⟨0x500020, 7, 1, 0x0⟩
def F.SEC_KEY_RESULT_CODE : Fld := ⟨0x500020, 0, 4, 0x0⟩
def F.SEC_KEY_CHECK_KCV : Fld := ⟨0x500024, 0, 16, 0x0⟩
def F.SEC_KEY_USAGE_LO_COUNT : Fld := ⟨0x500028, 0, 32, 0x0⟩
def F.SEC_KEY_USAGE_HI_COUNT : Fld := ⟨0x50002C, 0, 32, 0x0⟩
def F.SEC_ALARM_STATUS_SOURCES : Fld := ⟨0x500040, 0, 8, 0x0⟩
def F.SEC_ALARM_MASK_SOURCES : Fld := ⟨0x500044, 0, 8, 0xFF⟩
def F.SEC_ZEROISE_ZEROISE : Fld := ⟨0x500048, 0, 1, 0x0⟩
def F.SEC_RNG_CMD_START : Fld := ⟨0x500050, 31, 1, 0x0⟩
def F.SEC_RNG_CMD_BUSY : Fld := ⟨0x500050, 30, 1, 0x0⟩
def F.SEC_RNG_CMD_OP : Fld := ⟨0x500050, 0, 1, 0x0⟩
def F.SEC_RNG_RESULT_VALID : Fld := ⟨0x500054, 31, 1, 0x0⟩
def F.SEC_RNG_RESULT_SEEN : Fld := ⟨0x500054, 30, 1, 0x0⟩
def F.SEC_RNG_RESULT_SEQ : Fld := ⟨0x500054, 16, 8, 0x0⟩
def F.SEC_RNG_RESULT_CODE : Fld := ⟨0x500054, 0, 4, 0x0⟩
def F.SEC_RNG_HEALTH_RESEEDS : Fld := ⟨0x500058, 16, 16, 0x0⟩
def F.SEC_RNG_HEALTH_APT_FAIL : Fld := ⟨0x500058, 8, 8, 0x0⟩
def F.SEC_RNG_HEALTH_RCT_FAIL : Fld := ⟨0x500058, 0, 8, 0x0⟩
def F.SEC_AUTH_FAILS_GCM : Fld := ⟨0x50005C, 16, 16, 0x0⟩
def F.SEC_AUTH_FAILS_UNWRAP : Fld := ⟨0x50005C, 0, 16, 0x0⟩
def F.SEC_RNG_OUT_DATA (n : Nat) : Fld := ⟨0x500060 + 0x4 * n, 0, 32, 0x0⟩
def F.SEC_DUAL_MISMATCH : Fld := ⟨0x500080, 16, 16, 0x0⟩
def F.SEC_DUAL_GCM_DUAL : Fld := ⟨0x500080, 2, 1, 0x0⟩
def F.SEC_DUAL_XTS_DUAL : Fld := ⟨0x500080, 1, 1, 0x0⟩
def F.SEC_DUAL_FP_DUAL : Fld := ⟨0x500080, 0, 1, 0x0⟩
def F.SEC_LIMIT_LAST_KIND : Fld := ⟨0x500084, 16, 2, 0x0⟩
def F.SEC_LIMIT_LAST_SLOT : Fld := ⟨0x500084, 0, 16, 0x0⟩
def F.SEC_ISR_ALARM : Fld := ⟨0x5000F0, 10, 1, 0x0⟩
def F.SEC_ISR_RNG_HEALTH : Fld := ⟨0x5000F0, 9, 1, 0x0⟩
def F.SEC_ISR_KEY_MISSING : Fld := ⟨0x5000F0, 8, 1, 0x0⟩
def F.SEC_ISR_DUAL_MISMATCH : Fld := ⟨0x5000F0, 7, 1, 0x0⟩
def F.SEC_ISR_AUTH_FAIL : Fld := ⟨0x5000F0, 6, 1, 0x0⟩
def F.SEC_ISR_REKEY_NEEDED : Fld := ⟨0x5000F0, 5, 1, 0x0⟩
def F.SEC_ISR_PHASE_FLIP : Fld := ⟨0x5000F0, 4, 1, 0x0⟩
def F.SEC_ISR_EXHAUSTED : Fld := ⟨0x5000F0, 3, 1, 0x0⟩
def F.SEC_ISR_LIMIT_NEAR : Fld := ⟨0x5000F0, 2, 1, 0x0⟩
def F.SEC_ISR_RNG_DONE : Fld := ⟨0x5000F0, 1, 1, 0x0⟩
def F.SEC_ISR_KEY_DONE : Fld := ⟨0x5000F0, 0, 1, 0x0⟩
def F.SEC_IER_ALARM : Fld := ⟨0x5000F4, 10, 1, 0x0⟩
def F.SEC_IER_RNG_HEALTH : Fld := ⟨0x5000F4, 9, 1, 0x0⟩
def F.SEC_IER_KEY_MISSING : Fld := ⟨0x5000F4, 8, 1, 0x0⟩
def F.SEC_IER_DUAL_MISMATCH : Fld := ⟨0x5000F4, 7, 1, 0x0⟩
def F.SEC_IER_AUTH_FAIL : Fld := ⟨0x5000F4, 6, 1, 0x0⟩
def F.SEC_IER_REKEY_NEEDED : Fld := ⟨0x5000F4, 5, 1, 0x0⟩
def F.SEC_IER_PHASE_FLIP : Fld := ⟨0x5000F4, 4, 1, 0x0⟩
def F.SEC_IER_EXHAUSTED : Fld := ⟨0x5000F4, 3, 1, 0x0⟩
def F.SEC_IER_LIMIT_NEAR : Fld := ⟨0x5000F4, 2, 1, 0x0⟩
def F.SEC_IER_RNG_DONE : Fld := ⟨0x5000F4, 1, 1, 0x0⟩
def F.SEC_IER_KEY_DONE : Fld := ⟨0x5000F4, 0, 1, 0x0⟩
def F.SEC_ISR_SET_ALARM : Fld := ⟨0x5000F8, 10, 1, 0x0⟩
def F.SEC_ISR_SET_RNG_HEALTH : Fld := ⟨0x5000F8, 9, 1, 0x0⟩
def F.SEC_ISR_SET_KEY_MISSING : Fld := ⟨0x5000F8, 8, 1, 0x0⟩
def F.SEC_ISR_SET_DUAL_MISMATCH : Fld := ⟨0x5000F8, 7, 1, 0x0⟩
def F.SEC_ISR_SET_AUTH_FAIL : Fld := ⟨0x5000F8, 6, 1, 0x0⟩
def F.SEC_ISR_SET_REKEY_NEEDED : Fld := ⟨0x5000F8, 5, 1, 0x0⟩
def F.SEC_ISR_SET_PHASE_FLIP : Fld := ⟨0x5000F8, 4, 1, 0x0⟩
def F.SEC_ISR_SET_EXHAUSTED : Fld := ⟨0x5000F8, 3, 1, 0x0⟩
def F.SEC_ISR_SET_LIMIT_NEAR : Fld := ⟨0x5000F8, 2, 1, 0x0⟩
def F.SEC_ISR_SET_RNG_DONE : Fld := ⟨0x5000F8, 1, 1, 0x0⟩
def F.SEC_ISR_SET_KEY_DONE : Fld := ⟨0x5000F8, 0, 1, 0x0⟩
def F.SEC_KEY_WORD_KEY (n : Nat) : Fld := ⟨0x500100 + 0x4 * n, 0, 32, 0x0⟩

/-! ### SCC -/

def F.SCC_STATUS_SPAD_WAYS : Fld := ⟨0x600004, 0, 16, 0x0⟩
def F.SCC_WAYMASK_MASK (c : Nat) : Fld := ⟨0x600010 + 0x4 * c, 0, 16, 0xFFFF⟩
def F.SCC_RANGE_ADDR_LO_VALUE : Fld := ⟨0x600040, 0, 32, 0x0⟩
def F.SCC_RANGE_ADDR_HI_VALUE : Fld := ⟨0x600044, 0, 32, 0x0⟩
def F.SCC_RANGE_LEN_LO_VALUE : Fld := ⟨0x600048, 0, 32, 0x0⟩
def F.SCC_RANGE_LEN_HI_VALUE : Fld := ⟨0x60004C, 0, 32, 0x0⟩
def F.SCC_RANGE_CMD_START : Fld := ⟨0x600050, 31, 1, 0x0⟩
def F.SCC_RANGE_CMD_BUSY : Fld := ⟨0x600050, 30, 1, 0x0⟩
def F.SCC_RANGE_CMD_OP : Fld := ⟨0x600050, 0, 2, 0x0⟩
def F.SCC_RANGE_RESULT_VALID : Fld := ⟨0x600054, 31, 1, 0x0⟩
def F.SCC_RANGE_RESULT_SEEN : Fld := ⟨0x600054, 30, 1, 0x0⟩
def F.SCC_RANGE_RESULT_SEQ : Fld := ⟨0x600054, 16, 8, 0x0⟩
def F.SCC_RANGE_RESULT_SPAD_OVERLAP : Fld := ⟨0x600054, 4, 1, 0x0⟩
def F.SCC_RANGE_RESULT_CODE : Fld := ⟨0x600054, 0, 4, 0x0⟩
def F.SCC_ERRS_TAG_PARITY : Fld := ⟨0x600060, 24, 8, 0x0⟩
def F.SCC_ERRS_DATA_UNCORR : Fld := ⟨0x600060, 16, 8, 0x0⟩
def F.SCC_ERRS_DATA_CORR : Fld := ⟨0x600060, 0, 16, 0x0⟩
def F.SCC_ERR_ADDR_LO_ADDR : Fld := ⟨0x600064, 0, 32, 0x0⟩
def F.SCC_ERR_ADDR_HI_ADDR : Fld := ⟨0x600068, 0, 32, 0x0⟩
def F.SCC_HITS_LO_COUNT : Fld := ⟨0x600080, 0, 32, 0x0⟩
def F.SCC_HITS_HI_COUNT : Fld := ⟨0x600084, 0, 32, 0x0⟩
def F.SCC_MISSES_LO_COUNT : Fld := ⟨0x600088, 0, 32, 0x0⟩
def F.SCC_MISSES_HI_COUNT : Fld := ⟨0x60008C, 0, 32, 0x0⟩
def F.SCC_STAT_WRAPS_MISS_WRAPS : Fld := ⟨0x600090, 16, 16, 0x0⟩
def F.SCC_STAT_WRAPS_HIT_WRAPS : Fld := ⟨0x600090, 0, 16, 0x0⟩
def F.SCC_ISR_SPAD_RANGE : Fld := ⟨0x6000F0, 3, 1, 0x0⟩
def F.SCC_ISR_DATA_UNCORR : Fld := ⟨0x6000F0, 2, 1, 0x0⟩
def F.SCC_ISR_ERR : Fld := ⟨0x6000F0, 1, 1, 0x0⟩
def F.SCC_ISR_RANGE_DONE : Fld := ⟨0x6000F0, 0, 1, 0x0⟩
def F.SCC_IER_SPAD_RANGE : Fld := ⟨0x6000F4, 3, 1, 0x0⟩
def F.SCC_IER_DATA_UNCORR : Fld := ⟨0x6000F4, 2, 1, 0x0⟩
def F.SCC_IER_ERR : Fld := ⟨0x6000F4, 1, 1, 0x0⟩
def F.SCC_IER_RANGE_DONE : Fld := ⟨0x6000F4, 0, 1, 0x0⟩
def F.SCC_ISR_SET_SPAD_RANGE : Fld := ⟨0x6000F8, 3, 1, 0x0⟩
def F.SCC_ISR_SET_DATA_UNCORR : Fld := ⟨0x6000F8, 2, 1, 0x0⟩
def F.SCC_ISR_SET_ERR : Fld := ⟨0x6000F8, 1, 1, 0x0⟩
def F.SCC_ISR_SET_RANGE_DONE : Fld := ⟨0x6000F8, 0, 1, 0x0⟩

/-! ### DMC -/

def F.DMC_INFO_MTS : Fld := ⟨0x700000, 16, 16, 0x0⟩
def F.DMC_INFO_CAP_GIB : Fld := ⟨0x700000, 4, 12, 0x0⟩
def F.DMC_INFO_TYPE : Fld := ⟨0x700000, 0, 4, 0x0⟩
def F.DMC_SCRUB_CFG_ROW_LIMIT : Fld := ⟨0x700004, 16, 16, 0x8⟩
def F.DMC_SCRUB_CFG_HOURS : Fld := ⟨0x700004, 0, 16, 0x18⟩
def F.DMC_PPR_CMD_START : Fld := ⟨0x700008, 31, 1, 0x0⟩
def F.DMC_PPR_CMD_BUSY : Fld := ⟨0x700008, 30, 1, 0x0⟩
def F.DMC_PPR_CMD_HARD : Fld := ⟨0x700008, 0, 1, 0x0⟩
def F.DMC_PPR_ROW_CHANNEL : Fld := ⟨0x70000C, 28, 4, 0x0⟩
def F.DMC_PPR_ROW_SUB : Fld := ⟨0x70000C, 27, 1, 0x0⟩
def F.DMC_PPR_ROW_RANK_BG : Fld := ⟨0x70000C, 24, 3, 0x0⟩
def F.DMC_PPR_ROW_BANK : Fld := ⟨0x70000C, 18, 6, 0x0⟩
def F.DMC_PPR_ROW_ROW : Fld := ⟨0x70000C, 0, 18, 0x0⟩
def F.DMC_PPR_RESULT_VALID : Fld := ⟨0x700010, 31, 1, 0x0⟩
def F.DMC_PPR_RESULT_SEEN : Fld := ⟨0x700010, 30, 1, 0x0⟩
def F.DMC_PPR_RESULT_SEQ : Fld := ⟨0x700010, 16, 8, 0x0⟩
def F.DMC_PPR_RESULT_CODE : Fld := ⟨0x700010, 0, 4, 0x0⟩
def F.DMC_ERR_ADDR_LO_ADDR : Fld := ⟨0x700018, 0, 32, 0x0⟩
def F.DMC_ERR_ADDR_HI_ADDR : Fld := ⟨0x70001C, 0, 32, 0x0⟩
def F.DMC_CH_ERRS_UNCORR (n : Nat) : Fld := ⟨0x700100 + 0x4 * n, 16, 16, 0x0⟩
def F.DMC_CH_ERRS_CORR (n : Nat) : Fld := ⟨0x700100 + 0x4 * n, 0, 16, 0x0⟩
def F.DMC_ISR_PPR_DONE : Fld := ⟨0x7000F0, 4, 1, 0x0⟩
def F.DMC_ISR_PPR_ADVISED : Fld := ⟨0x7000F0, 3, 1, 0x0⟩
def F.DMC_ISR_ADDR_ERR : Fld := ⟨0x7000F0, 2, 1, 0x0⟩
def F.DMC_ISR_UNCORR : Fld := ⟨0x7000F0, 1, 1, 0x0⟩
def F.DMC_ISR_CORR : Fld := ⟨0x7000F0, 0, 1, 0x0⟩
def F.DMC_IER_PPR_DONE : Fld := ⟨0x7000F4, 4, 1, 0x0⟩
def F.DMC_IER_PPR_ADVISED : Fld := ⟨0x7000F4, 3, 1, 0x0⟩
def F.DMC_IER_ADDR_ERR : Fld := ⟨0x7000F4, 2, 1, 0x0⟩
def F.DMC_IER_UNCORR : Fld := ⟨0x7000F4, 1, 1, 0x0⟩
def F.DMC_IER_CORR : Fld := ⟨0x7000F4, 0, 1, 0x0⟩
def F.DMC_ISR_SET_PPR_DONE : Fld := ⟨0x7000F8, 4, 1, 0x0⟩
def F.DMC_ISR_SET_PPR_ADVISED : Fld := ⟨0x7000F8, 3, 1, 0x0⟩
def F.DMC_ISR_SET_ADDR_ERR : Fld := ⟨0x7000F8, 2, 1, 0x0⟩
def F.DMC_ISR_SET_UNCORR : Fld := ⟨0x7000F8, 1, 1, 0x0⟩
def F.DMC_ISR_SET_CORR : Fld := ⟨0x7000F8, 0, 1, 0x0⟩

/-! ### BBM -/

def F.BBM_QUOTA_BASE_LO_ADDR : Fld := ⟨0x800008, 0, 32, 0x0⟩
def F.BBM_QUOTA_BASE_HI_ADDR : Fld := ⟨0x80000C, 0, 32, 0x0⟩
def F.BBM_ALLOC_CMD_START : Fld := ⟨0x800010, 31, 1, 0x0⟩
def F.BBM_ALLOC_CMD_BUSY : Fld := ⟨0x800010, 30, 1, 0x0⟩
def F.BBM_ALLOC_CMD_TENANT : Fld := ⟨0x800010, 6, 12, 0x0⟩
def F.BBM_ALLOC_CMD_POOL : Fld := ⟨0x800010, 0, 6, 0x0⟩
def F.BBM_ALLOC_RESULT_LO_VALID : Fld := ⟨0x800014, 31, 1, 0x0⟩
def F.BBM_ALLOC_RESULT_LO_SEEN : Fld := ⟨0x800014, 30, 1, 0x0⟩
def F.BBM_ALLOC_RESULT_LO_SEQ : Fld := ⟨0x800014, 16, 8, 0x0⟩
def F.BBM_ALLOC_RESULT_LO_CODE : Fld := ⟨0x800014, 0, 4, 0x0⟩
def F.BBM_ALLOC_RESULT_HI_HANDLE : Fld := ⟨0x800018, 0, 32, 0xFFFFFFFF⟩
def F.BBM_FREE_HANDLE : Fld := ⟨0x80001C, 0, 32, 0x0⟩
def F.BBM_REF_INC_HANDLE : Fld := ⟨0x800020, 0, 32, 0x0⟩
def F.BBM_EVENTS_FALLBACKS : Fld := ⟨0x800030, 16, 16, 0x0⟩
def F.BBM_EVENTS_QUOTA : Fld := ⟨0x800030, 8, 8, 0x0⟩
def F.BBM_EVENTS_REFUSED : Fld := ⟨0x800030, 0, 8, 0x0⟩
def F.BBM_ISR_CORRUPT : Fld := ⟨0x8000F0, 3, 1, 0x0⟩
def F.BBM_ISR_EMPTY : Fld := ⟨0x8000F0, 2, 1, 0x0⟩
def F.BBM_ISR_REFUSED : Fld := ⟨0x8000F0, 1, 1, 0x0⟩
def F.BBM_ISR_ALLOC_DONE : Fld := ⟨0x8000F0, 0, 1, 0x0⟩
def F.BBM_IER_CORRUPT : Fld := ⟨0x8000F4, 3, 1, 0x0⟩
def F.BBM_IER_EMPTY : Fld := ⟨0x8000F4, 2, 1, 0x0⟩
def F.BBM_IER_REFUSED : Fld := ⟨0x8000F4, 1, 1, 0x0⟩
def F.BBM_IER_ALLOC_DONE : Fld := ⟨0x8000F4, 0, 1, 0x0⟩
def F.BBM_ISR_SET_CORRUPT : Fld := ⟨0x8000F8, 3, 1, 0x0⟩
def F.BBM_ISR_SET_EMPTY : Fld := ⟨0x8000F8, 2, 1, 0x0⟩
def F.BBM_ISR_SET_REFUSED : Fld := ⟨0x8000F8, 1, 1, 0x0⟩
def F.BBM_ISR_SET_ALLOC_DONE : Fld := ⟨0x8000F8, 0, 1, 0x0⟩
def F.BBM_POOL_BASE_LO_ADDR (p : Nat) : Fld := ⟨0x801000 + 0x20 * p, 0, 32, 0x0⟩
def F.BBM_POOL_BASE_HI_ADDR (p : Nat) : Fld := ⟨0x801004 + 0x20 * p, 0, 32, 0x0⟩
def F.BBM_POOL_CFG_TENANT (p : Nat) : Fld := ⟨0x801008 + 0x20 * p, 16, 12, 0x0⟩
def F.BBM_POOL_CFG_FB_BAD (p : Nat) : Fld := ⟨0x801008 + 0x20 * p, 15, 1, 0x0⟩
def F.BBM_POOL_CFG_FB_EN (p : Nat) : Fld := ⟨0x801008 + 0x20 * p, 14, 1, 0x0⟩
def F.BBM_POOL_CFG_FALLBACK (p : Nat) : Fld := ⟨0x801008 + 0x20 * p, 8, 6, 0x0⟩
def F.BBM_POOL_CFG_SIZE_LOG2 (p : Nat) : Fld := ⟨0x801008 + 0x20 * p, 0, 5, 0xC⟩
def F.BBM_POOL_COUNT_COUNT (p : Nat) : Fld := ⟨0x80100C + 0x20 * p, 0, 26, 0x0⟩
def F.BBM_POOL_CTRL_INIT (p : Nat) : Fld := ⟨0x801010 + 0x20 * p, 1, 1, 0x0⟩
def F.BBM_POOL_CTRL_ENABLE (p : Nat) : Fld := ⟨0x801010 + 0x20 * p, 0, 1, 0x0⟩
def F.BBM_POOL_STATUS_CORRUPT (p : Nat) : Fld := ⟨0x801014 + 0x20 * p, 31, 1, 0x0⟩
def F.BBM_POOL_STATUS_FREE_COUNT (p : Nat) : Fld := ⟨0x801014 + 0x20 * p, 0, 26, 0x0⟩
def F.BBM_POOL_QUAR_QUARANTINED (p : Nat) : Fld := ⟨0x801018 + 0x20 * p, 0, 26, 0x0⟩

/-! ### ROW -/

def F.ROW_CTRL_FAULT_LIMIT : Fld := ⟨0x900000, 16, 8, 0x2⟩
def F.ROW_CTRL_ENGINE_TIMEOUT_US : Fld := ⟨0x900000, 0, 16, 0x14⟩
def F.ROW_POOL_RETIRED (p : Nat) : Fld := ⟨0x900010 + 4 * p, 16, 8, 0x0⟩
def F.ROW_POOL_SPARES_LEFT (p : Nat) : Fld := ⟨0x900010 + 4 * p, 8, 8, (poolSpares p)⟩
def F.ROW_POOL_ACTIVE (p : Nat) : Fld := ⟨0x900010 + 4 * p, 0, 8, (poolActive p)⟩
def F.ROW_RING_BASE_LO_BASE_LO : Fld := ⟨0x900040, 12, 20, 0x0⟩
def F.ROW_RING_BASE_HI_BASE_HI : Fld := ⟨0x900044, 0, 16, 0x0⟩
def F.ROW_RING_CFG_LOG2_ENTRIES : Fld := ⟨0x900048, 0, 4, 0x0⟩
def F.ROW_SQ_TAIL_TAIL : Fld := ⟨0x90004C, 0, 15, 0x0⟩
def F.ROW_CQ_HEAD_HEAD : Fld := ⟨0x900050, 0, 15, 0x0⟩
def F.ROW_FAULT_LAST_KIND : Fld := ⟨0x900060, 24, 8, 0x0⟩
def F.ROW_FAULT_LAST_POOL : Fld := ⟨0x900060, 16, 4, 0x0⟩
def F.ROW_FAULT_LAST_ENGINE : Fld := ⟨0x900060, 8, 8, 0x0⟩
def F.ROW_FAULT_LAST_ROW : Fld := ⟨0x900060, 4, 4, 0x0⟩
def F.ROW_ERRS_GUARD_MISMATCH : Fld := ⟨0x900064, 16, 16, 0x0⟩
def F.ROW_ERRS_HOP_MISMATCH : Fld := ⟨0x900064, 0, 16, 0x0⟩
def F.ROW_ISR_CLASS_LOST : Fld := ⟨0x900070, 5, 1, 0x0⟩
def F.ROW_ISR_CQ : Fld := ⟨0x900070, 4, 1, 0x0⟩
def F.ROW_ISR_GUARD : Fld := ⟨0x900070, 3, 1, 0x0⟩
def F.ROW_ISR_POOL_SHORT : Fld := ⟨0x900070, 2, 1, 0x0⟩
def F.ROW_ISR_SPARE_IN : Fld := ⟨0x900070, 1, 1, 0x0⟩
def F.ROW_ISR_ENGINE_RETIRED : Fld := ⟨0x900070, 0, 1, 0x0⟩
def F.ROW_IER_CLASS_LOST : Fld := ⟨0x900074, 5, 1, 0x0⟩
def F.ROW_IER_CQ : Fld := ⟨0x900074, 4, 1, 0x0⟩
def F.ROW_IER_GUARD : Fld := ⟨0x900074, 3, 1, 0x0⟩
def F.ROW_IER_POOL_SHORT : Fld := ⟨0x900074, 2, 1, 0x0⟩
def F.ROW_IER_SPARE_IN : Fld := ⟨0x900074, 1, 1, 0x0⟩
def F.ROW_IER_ENGINE_RETIRED : Fld := ⟨0x900074, 0, 1, 0x0⟩
def F.ROW_ISR_SET_CLASS_LOST : Fld := ⟨0x900078, 5, 1, 0x0⟩
def F.ROW_ISR_SET_CQ : Fld := ⟨0x900078, 4, 1, 0x0⟩
def F.ROW_ISR_SET_GUARD : Fld := ⟨0x900078, 3, 1, 0x0⟩
def F.ROW_ISR_SET_POOL_SHORT : Fld := ⟨0x900078, 2, 1, 0x0⟩
def F.ROW_ISR_SET_SPARE_IN : Fld := ⟨0x900078, 1, 1, 0x0⟩
def F.ROW_ISR_SET_ENGINE_RETIRED : Fld := ⟨0x900078, 0, 1, 0x0⟩
def F.ROW_N_CFG_CLASSES (n : Nat) : Fld := ⟨0x901000 + 0x100 * n, 16, 9, 0x0⟩
def F.ROW_N_CFG_STAGES (n : Nat) : Fld := ⟨0x901000 + 0x100 * n, 0, 4, 0x0⟩
def F.ROW_N_STAGE_TYPE (n k : Nat) : Fld := ⟨0x901010 + 0x100 * n + 0x4 * k, 16, 4, 0x0⟩
def F.ROW_N_STAGE_NAMED (n k : Nat) : Fld := ⟨0x901010 + 0x100 * n + 0x4 * k, 8, 8, 0x0⟩
def F.ROW_N_STAGE_ACTIVE (n k : Nat) : Fld := ⟨0x901010 + 0x100 * n + 0x4 * k, 0, 8, 0x0⟩
def F.ROW_N_INFLIGHT_QUEUE_FULL (n : Nat) : Fld := ⟨0x901040 + 0x100 * n, 16, 12, 0x0⟩
def F.ROW_N_INFLIGHT_INFLIGHT (n : Nat) : Fld := ⟨0x901040 + 0x100 * n, 0, 12, 0x0⟩
def F.ROW_N_RETIRED_LO_COUNT_LO (n : Nat) : Fld := ⟨0x901048 + 0x100 * n, 0, 32, 0x0⟩
def F.ROW_N_RETIRED_HI_COUNT_HI (n : Nat) : Fld := ⟨0x90104C + 0x100 * n, 0, 32, 0x0⟩
def F.ROW_N_RETIRED_WRAPS_WRAPS (n : Nat) : Fld := ⟨0x901050 + 0x100 * n, 0, 16, 0x0⟩

/-! ### DDP -/

def F.DDP_CTRL_FETCH_MAX : Fld := ⟨0xA00000, 8, 8, 0x40⟩
def F.DDP_CTRL_ENABLE : Fld := ⟨0xA00000, 0, 1, 0x0⟩
def F.DDP_INDEX_CFG_LOG2_PAGES_B : Fld := ⟨0xA00004, 8, 6, 0x10⟩
def F.DDP_INDEX_CFG_LOG2_PAGES_A : Fld := ⟨0xA00004, 0, 6, 0x10⟩
def F.DDP_REGION_BASE_LO_BASE_LO : Fld := ⟨0xA00008, 12, 20, 0x0⟩
def F.DDP_REGION_BASE_HI_BASE_HI : Fld := ⟨0xA0000C, 0, 16, 0x0⟩
def F.DDP_SIZES_ICACHE_LOG2 : Fld := ⟨0xA00010, 8, 5, 0x10⟩
def F.DDP_SIZES_MLOG_LOG2 : Fld := ⟨0xA00010, 0, 4, 0x0⟩
def F.DDP_MLOG_TAIL_TAIL : Fld := ⟨0xA00014, 0, 21, 0x0⟩
def F.DDP_MLOG_HEAD_HEAD : Fld := ⟨0xA00018, 0, 21, 0x0⟩
def F.DDP_REFOP_ADDR_LO_ADDR_LO : Fld := ⟨0xA00020, 3, 29, 0x0⟩
def F.DDP_REFOP_ADDR_HI_ADDR_HI : Fld := ⟨0xA00024, 0, 16, 0x0⟩
def F.DDP_REFOP_CTRL_START : Fld := ⟨0xA00028, 31, 1, 0x0⟩
def F.DDP_REFOP_CTRL_BUSY : Fld := ⟨0xA00028, 30, 1, 0x0⟩
def F.DDP_REFOP_CTRL_COUNT : Fld := ⟨0xA00028, 0, 16, 0x0⟩
def F.DDP_REFOP_RESULT_VALID : Fld := ⟨0xA0002C, 31, 1, 0x0⟩
def F.DDP_REFOP_RESULT_SEEN : Fld := ⟨0xA0002C, 30, 1, 0x0⟩
def F.DDP_REFOP_RESULT_SEQ : Fld := ⟨0xA0002C, 16, 8, 0x0⟩
def F.DDP_REFOP_RESULT_FAILED : Fld := ⟨0xA0002C, 0, 16, 0x0⟩
def F.DDP_LOOKUPS_LO_COUNT : Fld := ⟨0xA00040, 0, 32, 0x0⟩
def F.DDP_LOOKUPS_HI_COUNT : Fld := ⟨0xA00044, 0, 32, 0x0⟩
def F.DDP_DUPS_LO_COUNT : Fld := ⟨0xA00048, 0, 32, 0x0⟩
def F.DDP_DUPS_HI_COUNT : Fld := ⟨0xA0004C, 0, 32, 0x0⟩
def F.DDP_STAT_WRAPS_DUPS_WRAPS : Fld := ⟨0xA00050, 16, 16, 0x0⟩
def F.DDP_STAT_WRAPS_LOOKUPS_WRAPS : Fld := ⟨0xA00050, 0, 16, 0x0⟩
def F.DDP_IMMORTAL_LO_COUNT : Fld := ⟨0xA00058, 0, 32, 0x0⟩
def F.DDP_IMMORTAL_HI_COUNT : Fld := ⟨0xA0005C, 0, 32, 0x0⟩
def F.DDP_EVENTS_A_VERIFY_MISMATCH : Fld := ⟨0xA00060, 16, 16, 0x0⟩
def F.DDP_EVENTS_A_TWINS : Fld := ⟨0xA00060, 0, 16, 0x0⟩
def F.DDP_EVENTS_B_STALE : Fld := ⟨0xA00064, 16, 16, 0x0⟩
def F.DDP_EVENTS_B_LOG_DROPS : Fld := ⟨0xA00064, 0, 16, 0x0⟩
def F.DDP_EVENTS_C_SAT_ABSORBED : Fld := ⟨0xA00068, 20, 12, 0x0⟩
def F.DDP_EVENTS_C_REF_REJECTS : Fld := ⟨0xA00068, 8, 12, 0x0⟩
def F.DDP_EVENTS_C_CORRUPT_RECORD : Fld := ⟨0xA00068, 0, 8, 0x0⟩
def F.DDP_ISR_CORRUPT : Fld := ⟨0xA00070, 5, 1, 0x0⟩
def F.DDP_ISR_REF_REJECT : Fld := ⟨0xA00070, 4, 1, 0x0⟩
def F.DDP_ISR_REFOP_DONE : Fld := ⟨0xA00070, 3, 1, 0x0⟩
def F.DDP_ISR_MLOG_FULL : Fld := ⟨0xA00070, 2, 1, 0x0⟩
def F.DDP_ISR_VERIFY_MISMATCH : Fld := ⟨0xA00070, 1, 1, 0x0⟩
def F.DDP_ISR_IMMORTAL : Fld := ⟨0xA00070, 0, 1, 0x0⟩
def F.DDP_IER_CORRUPT : Fld := ⟨0xA00074, 5, 1, 0x0⟩
def F.DDP_IER_REF_REJECT : Fld := ⟨0xA00074, 4, 1, 0x0⟩
def F.DDP_IER_REFOP_DONE : Fld := ⟨0xA00074, 3, 1, 0x0⟩
def F.DDP_IER_MLOG_FULL : Fld := ⟨0xA00074, 2, 1, 0x0⟩
def F.DDP_IER_VERIFY_MISMATCH : Fld := ⟨0xA00074, 1, 1, 0x0⟩
def F.DDP_IER_IMMORTAL : Fld := ⟨0xA00074, 0, 1, 0x0⟩
def F.DDP_ISR_SET_CORRUPT : Fld := ⟨0xA00078, 5, 1, 0x0⟩
def F.DDP_ISR_SET_REF_REJECT : Fld := ⟨0xA00078, 4, 1, 0x0⟩
def F.DDP_ISR_SET_REFOP_DONE : Fld := ⟨0xA00078, 3, 1, 0x0⟩
def F.DDP_ISR_SET_MLOG_FULL : Fld := ⟨0xA00078, 2, 1, 0x0⟩
def F.DDP_ISR_SET_VERIFY_MISMATCH : Fld := ⟨0xA00078, 1, 1, 0x0⟩
def F.DDP_ISR_SET_IMMORTAL : Fld := ⟨0xA00078, 0, 1, 0x0⟩

/-! ### CMP -/

def F.CMP_CTRL_FORCE_RAW : Fld := ⟨0xB00000, 8, 1, 0x0⟩
def F.CMP_CTRL_MAX_CLASS : Fld := ⟨0xB00000, 0, 4, 0x7⟩
def F.CMP_REGION_BASE_LO_BASE_LO : Fld := ⟨0xB00008, 12, 20, 0x0⟩
def F.CMP_REGION_BASE_HI_BASE_HI : Fld := ⟨0xB0000C, 0, 16, 0x0⟩
def F.CMP_DICT_CMD_START : Fld := ⟨0xB00010, 31, 1, 0x0⟩
def F.CMP_DICT_CMD_BUSY : Fld := ⟨0xB00010, 30, 1, 0x0⟩
def F.CMP_DICT_CMD_OP : Fld := ⟨0xB00010, 16, 2, 0x0⟩
def F.CMP_DICT_CMD_DICT_ID : Fld := ⟨0xB00010, 0, 10, 0x0⟩
def F.CMP_DICT_RESULT_VALID : Fld := ⟨0xB00014, 31, 1, 0x0⟩
def F.CMP_DICT_RESULT_SEEN : Fld := ⟨0xB00014, 30, 1, 0x0⟩
def F.CMP_DICT_RESULT_SEQ : Fld := ⟨0xB00014, 16, 8, 0x0⟩
def F.CMP_DICT_RESULT_DICT_ID : Fld := ⟨0xB00014, 4, 10, 0x0⟩
def F.CMP_DICT_RESULT_CODE : Fld := ⟨0xB00014, 0, 4, 0x0⟩
def F.CMP_DICT_COUNTS_RETIRING : Fld := ⟨0xB00018, 16, 10, 0x0⟩
def F.CMP_DICT_COUNTS_ACTIVE : Fld := ⟨0xB00018, 0, 10, 0x0⟩
def F.CMP_BYTES_IN_LO_COUNT : Fld := ⟨0xB00040, 0, 32, 0x0⟩
def F.CMP_BYTES_IN_HI_COUNT : Fld := ⟨0xB00044, 0, 32, 0x0⟩
def F.CMP_STREAM_BYTES_LO_COUNT : Fld := ⟨0xB00048, 0, 32, 0x0⟩
def F.CMP_STREAM_BYTES_HI_COUNT : Fld := ⟨0xB0004C, 0, 32, 0x0⟩
def F.CMP_STORED_BYTES_LO_COUNT : Fld := ⟨0xB00050, 0, 32, 0x0⟩
def F.CMP_STORED_BYTES_HI_COUNT : Fld := ⟨0xB00054, 0, 32, 0x0⟩
def F.CMP_WRAPS_A_STORED_WRAPS : Fld := ⟨0xB00058, 16, 16, 0x0⟩
def F.CMP_WRAPS_A_IN_WRAPS : Fld := ⟨0xB00058, 0, 16, 0x0⟩
def F.CMP_WRAPS_B_STREAM_WRAPS : Fld := ⟨0xB0005C, 0, 16, 0x0⟩
def F.CMP_DC_ERRS_LAST_CODE : Fld := ⟨0xB00060, 24, 8, 0x0⟩
def F.CMP_DC_ERRS_COUNT : Fld := ⟨0xB00060, 0, 16, 0x0⟩
def F.CMP_EVENTS_DICT_FALLBACK : Fld := ⟨0xB00064, 0, 16, 0x0⟩
def F.CMP_ISR_DICT_DONE : Fld := ⟨0xB00070, 2, 1, 0x0⟩
def F.CMP_ISR_DICT_FALLBACK : Fld := ⟨0xB00070, 1, 1, 0x0⟩
def F.CMP_ISR_DC_ERR : Fld := ⟨0xB00070, 0, 1, 0x0⟩
def F.CMP_IER_DICT_DONE : Fld := ⟨0xB00074, 2, 1, 0x0⟩
def F.CMP_IER_DICT_FALLBACK : Fld := ⟨0xB00074, 1, 1, 0x0⟩
def F.CMP_IER_DC_ERR : Fld := ⟨0xB00074, 0, 1, 0x0⟩
def F.CMP_ISR_SET_DICT_DONE : Fld := ⟨0xB00078, 2, 1, 0x0⟩
def F.CMP_ISR_SET_DICT_FALLBACK : Fld := ⟨0xB00078, 1, 1, 0x0⟩
def F.CMP_ISR_SET_DC_ERR : Fld := ⟨0xB00078, 0, 1, 0x0⟩
def F.CMP_HIST_LO_COUNT (k : Nat) : Fld := ⟨0xB00100 + 0x8 * k, 0, 32, 0x0⟩
def F.CMP_HIST_HI_COUNT (k : Nat) : Fld := ⟨0xB00104 + 0x8 * k, 0, 32, 0x0⟩
def F.CMP_HIST_WRAPS_WRAPS (k : Nat) : Fld := ⟨0xB00180 + 0x4 * k, 0, 16, 0x0⟩

/-! ### FTL -/

def F.FTL_MAP_CTRL_MISS_MAX : Fld := ⟨0xC00000, 0, 12, 0x400⟩
def F.FTL_MPC_CFG_WB_HIGH_PCT : Fld := ⟨0xC00004, 8, 8, 0x20⟩
def F.FTL_MPC_CFG_LOG2_PAGES : Fld := ⟨0xC00004, 0, 5, 0x12⟩
def F.FTL_MPC_BASE_LO_BASE_LO : Fld := ⟨0xC00008, 12, 20, 0x0⟩
def F.FTL_VOL_BASE_LO_BASE_LO : Fld := ⟨0xC00010, 12, 20, 0x0⟩
def F.FTL_SBT_BASE_LO_BASE_LO : Fld := ⟨0xC00018, 12, 20, 0x0⟩
def F.FTL_MPC_BASE_HI_BASE_HI : Fld := ⟨0xC0000C, 0, 16, 0x0⟩
def F.FTL_VOL_BASE_HI_BASE_HI : Fld := ⟨0xC00014, 0, 16, 0x0⟩
def F.FTL_SBT_BASE_HI_BASE_HI : Fld := ⟨0xC0001C, 0, 16, 0x0⟩
def F.FTL_MPC_PINNED_PAGES : Fld := ⟨0xC00020, 0, 32, 0x0⟩
def F.FTL_MPC_DIRTY_PAGES : Fld := ⟨0xC00024, 0, 32, 0x0⟩
def F.FTL_MCMD_ADDR_LO_ADDR_LO : Fld := ⟨0xC00028, 12, 20, 0x0⟩
def F.FTL_MCMD_ADDR_HI_ADDR_HI : Fld := ⟨0xC0002C, 0, 16, 0x0⟩
def F.FTL_MCMD_START : Fld := ⟨0xC00030, 31, 1, 0x0⟩
def F.FTL_MCMD_BUSY : Fld := ⟨0xC00030, 30, 1, 0x0⟩
def F.FTL_MCMD_OP : Fld := ⟨0xC00030, 28, 2, 0x0⟩
def F.FTL_MCMD_INSTANCE : Fld := ⟨0xC00030, 18, 1, 0x0⟩
def F.FTL_MCMD_INDEX : Fld := ⟨0xC00030, 0, 18, 0x0⟩
def F.FTL_MCMD_RESULT_VALID : Fld := ⟨0xC00034, 31, 1, 0x0⟩
def F.FTL_MCMD_RESULT_SEEN : Fld := ⟨0xC00034, 30, 1, 0x0⟩
def F.FTL_MCMD_RESULT_SEQ : Fld := ⟨0xC00034, 16, 8, 0x0⟩
def F.FTL_MCMD_RESULT_CODE : Fld := ⟨0xC00034, 0, 4, 0x0⟩
def F.FTL_SPLIT_BASE_LO_ADDR : Fld := ⟨0xC00038, 0, 32, 0x0⟩
def F.FTL_SPLIT_BASE_HI_ADDR : Fld := ⟨0xC0003C, 0, 32, 0x0⟩
def F.FTL_SPLIT_CFG_LOG2_ENTRIES : Fld := ⟨0xC00040, 0, 4, 0x8⟩
def F.FTL_SPLIT_TAIL_INDEX : Fld := ⟨0xC00044, 0, 19, 0x0⟩
def F.FTL_SPLIT_HEAD_INDEX : Fld := ⟨0xC00048, 0, 19, 0x0⟩
def F.FTL_TIER_CFG_FAST_SHARE : Fld := ⟨0xC00060, 24, 8, 0x40⟩
def F.FTL_TIER_CFG_SPARE_PERMILLE : Fld := ⟨0xC00060, 16, 8, 0x32⟩
def F.FTL_FAST_MIN_COUNT : Fld := ⟨0xC00064, 0, 32, 0x0⟩
def F.FTL_FAST_MAX_COUNT : Fld := ⟨0xC00068, 0, 32, 0x0⟩
def F.FTL_HU_RESERVE_COUNT : Fld := ⟨0xC0006C, 0, 32, 0x0⟩
def F.FTL_SPACE_CFG_STOP_SB : Fld := ⟨0xC00070, 16, 16, 0x100⟩
def F.FTL_SPACE_CFG_WARN_SB : Fld := ⟨0xC00070, 0, 16, 0x400⟩
def F.FTL_SBQ_PUSH_STREAM : Fld := ⟨0xC00074, 29, 3, 0x0⟩
def F.FTL_SBQ_PUSH_SB : Fld := ⟨0xC00074, 0, 28, 0x0⟩
def F.FTL_SBQ_STATUS_LAST_CODE : Fld := ⟨0xC00078, 28, 4, 0x0⟩
def F.FTL_SBQ_STATUS_LAST_SB : Fld := ⟨0xC00078, 0, 28, 0x0⟩
def F.FTL_HOTMAP_CTRL_INVALIDATE : Fld := ⟨0xC0007C, 1, 1, 0x0⟩
def F.FTL_HOTMAP_CTRL_ENABLE : Fld := ⟨0xC0007C, 0, 1, 0x1⟩
def F.FTL_HOTMAP_HITS_LO_COUNT : Fld := ⟨0xC00080, 0, 32, 0x0⟩
def F.FTL_HOTMAP_HITS_HI_COUNT : Fld := ⟨0xC00084, 0, 32, 0x0⟩
def F.FTL_MPC_HITS_LO_COUNT : Fld := ⟨0xC00088, 0, 32, 0x0⟩
def F.FTL_MPC_HITS_HI_COUNT : Fld := ⟨0xC0008C, 0, 32, 0x0⟩
def F.FTL_MAP_FETCHES_LO_COUNT : Fld := ⟨0xC00090, 0, 32, 0x0⟩
def F.FTL_MAP_FETCHES_HI_COUNT : Fld := ⟨0xC00094, 0, 32, 0x0⟩
def F.FTL_MAP_WRAPS_FETCH_WRAPS : Fld := ⟨0xC00098, 20, 10, 0x0⟩
def F.FTL_MAP_WRAPS_MPC_WRAPS : Fld := ⟨0xC00098, 10, 10, 0x0⟩
def F.FTL_MAP_WRAPS_HOTMAP_WRAPS : Fld := ⟨0xC00098, 0, 10, 0x0⟩
def F.FTL_MAP_ERRS_LME_CORRUPT : Fld := ⟨0xC0009C, 16, 16, 0x0⟩
def F.FTL_MAP_ERRS_PTR_CORRUPT : Fld := ⟨0xC0009C, 8, 8, 0x0⟩
def F.FTL_MAP_ERRS_PAGE_LOST : Fld := ⟨0xC0009C, 0, 8, 0x0⟩
def F.FTL_ISR_MCMD_DONE : Fld := ⟨0xC000F0, 9, 1, 0x0⟩
def F.FTL_ISR_SBQ_REFUSED : Fld := ⟨0xC000F0, 8, 1, 0x0⟩
def F.FTL_ISR_CID_EXHAUSTED : Fld := ⟨0xC000F0, 7, 1, 0x0⟩
def F.FTL_ISR_CID_RING_FULL : Fld := ⟨0xC000F0, 6, 1, 0x0⟩
def F.FTL_ISR_HU_SHORT : Fld := ⟨0xC000F0, 5, 1, 0x0⟩
def F.FTL_ISR_FAST_OVER : Fld := ⟨0xC000F0, 4, 1, 0x0⟩
def F.FTL_ISR_SPACE_STOP : Fld := ⟨0xC000F0, 3, 1, 0x0⟩
def F.FTL_ISR_SPACE_WARN : Fld := ⟨0xC000F0, 2, 1, 0x0⟩
def F.FTL_ISR_MAP_ERR : Fld := ⟨0xC000F0, 1, 1, 0x0⟩
def F.FTL_ISR_SPLIT_REQ : Fld := ⟨0xC000F0, 0, 1, 0x0⟩
def F.FTL_IER_MCMD_DONE : Fld := ⟨0xC000F4, 9, 1, 0x0⟩
def F.FTL_IER_SBQ_REFUSED : Fld := ⟨0xC000F4, 8, 1, 0x0⟩
def F.FTL_IER_CID_EXHAUSTED : Fld := ⟨0xC000F4, 7, 1, 0x0⟩
def F.FTL_IER_CID_RING_FULL : Fld := ⟨0xC000F4, 6, 1, 0x0⟩
def F.FTL_IER_HU_SHORT : Fld := ⟨0xC000F4, 5, 1, 0x0⟩
def F.FTL_IER_FAST_OVER : Fld := ⟨0xC000F4, 4, 1, 0x0⟩
def F.FTL_IER_SPACE_STOP : Fld := ⟨0xC000F4, 3, 1, 0x0⟩
def F.FTL_IER_SPACE_WARN : Fld := ⟨0xC000F4, 2, 1, 0x0⟩
def F.FTL_IER_MAP_ERR : Fld := ⟨0xC000F4, 1, 1, 0x0⟩
def F.FTL_IER_SPLIT_REQ : Fld := ⟨0xC000F4, 0, 1, 0x0⟩
def F.FTL_ISR_SET_MCMD_DONE : Fld := ⟨0xC000F8, 9, 1, 0x0⟩
def F.FTL_ISR_SET_SBQ_REFUSED : Fld := ⟨0xC000F8, 8, 1, 0x0⟩
def F.FTL_ISR_SET_CID_EXHAUSTED : Fld := ⟨0xC000F8, 7, 1, 0x0⟩
def F.FTL_ISR_SET_CID_RING_FULL : Fld := ⟨0xC000F8, 6, 1, 0x0⟩
def F.FTL_ISR_SET_HU_SHORT : Fld := ⟨0xC000F8, 5, 1, 0x0⟩
def F.FTL_ISR_SET_FAST_OVER : Fld := ⟨0xC000F8, 4, 1, 0x0⟩
def F.FTL_ISR_SET_SPACE_STOP : Fld := ⟨0xC000F8, 3, 1, 0x0⟩
def F.FTL_ISR_SET_SPACE_WARN : Fld := ⟨0xC000F8, 2, 1, 0x0⟩
def F.FTL_ISR_SET_MAP_ERR : Fld := ⟨0xC000F8, 1, 1, 0x0⟩
def F.FTL_ISR_SET_SPLIT_REQ : Fld := ⟨0xC000F8, 0, 1, 0x0⟩
def F.FTL_CID_RING_BASE_LO_ADDR (i : Nat) : Fld := ⟨0xC00100 + 0x100 * i, 0, 32, 0x0⟩
def F.FTL_CID_RING_BASE_HI_ADDR (i : Nat) : Fld := ⟨0xC00104 + 0x100 * i, 0, 32, 0x0⟩
def F.FTL_CID_RING_CFG_LOG2_ENTRIES (i : Nat) : Fld := ⟨0xC00108 + 0x100 * i, 0, 5, 0x14⟩
def F.FTL_CID_RING_FILL_FILL (i : Nat) : Fld := ⟨0xC0010C + 0x100 * i, 0, 32, 0x0⟩
def F.FTL_CID_NEXT_LO_NEXT (i : Nat) : Fld := ⟨0xC00110 + 0x100 * i, 0, 32, 0x1⟩
def F.FTL_CID_NEXT_HI_NEXT (i : Nat) : Fld := ⟨0xC00114 + 0x100 * i, 0, 32, if i = 0 then 0 else 0x800⟩
def F.FTL_SB_COUNTS_TOTAL_COUNT (i : Nat) : Fld := ⟨0xC00120 + 0x100 * i, 0, 32, 0x0⟩
def F.FTL_SB_COUNTS_FREE_COUNT (i : Nat) : Fld := ⟨0xC00124 + 0x100 * i, 0, 32, 0x0⟩
def F.FTL_SB_COUNTS_HU_COUNT (i : Nat) : Fld := ⟨0xC00128 + 0x100 * i, 0, 32, 0x0⟩
def F.FTL_SB_COUNTS_FAST_COUNT (i : Nat) : Fld := ⟨0xC0012C + 0x100 * i, 0, 32, 0x0⟩
def F.FTL_SB_COUNTS_DENSE_COUNT (i : Nat) : Fld := ⟨0xC00130 + 0x100 * i, 0, 32, 0x0⟩
def F.FTL_SB_COUNTS_META_COUNT (i : Nat) : Fld := ⟨0xC00134 + 0x100 * i, 0, 32, 0x0⟩
def F.FTL_SB_COUNTS_TARGET_COUNT (i : Nat) : Fld := ⟨0xC00138 + 0x100 * i, 0, 32, 0x0⟩
def F.FTL_SB_COUNTS_SPARE_COUNT (i : Nat) : Fld := ⟨0xC0013C + 0x100 * i, 0, 32, 0x0⟩
def F.FTL_MAPPED_LO_LEVEL (i : Nat) : Fld := ⟨0xC00140 + 0x100 * i, 0, 32, 0x0⟩
def F.FTL_MAPPED_HI_LEVEL (i : Nat) : Fld := ⟨0xC00144 + 0x100 * i, 0, 32, 0x0⟩
def F.FTL_VALID_SLOTS_LO_LEVEL (i : Nat) : Fld := ⟨0xC00148 + 0x100 * i, 0, 32, 0x0⟩
def F.FTL_VALID_SLOTS_HI_LEVEL (i : Nat) : Fld := ⟨0xC0014C + 0x100 * i, 0, 32, 0x0⟩
def F.FTL_INVALID_SLOTS_LO_LEVEL (i : Nat) : Fld := ⟨0xC00150 + 0x100 * i, 0, 32, 0x0⟩
def F.FTL_INVALID_SLOTS_HI_LEVEL (i : Nat) : Fld := ⟨0xC00154 + 0x100 * i, 0, 32, 0x0⟩
def F.FTL_SBQ_LEVEL_QUEUED (s i : Nat) : Fld := ⟨0xC00160 + 0x4 * s + 0x100 * i, 0, 7, 0x0⟩
def F.FTL_JNL_CTRL_ACCEPT_GAP : Fld := ⟨0xC00400, 31, 1, 0x0⟩
def F.FTL_JNL_CTRL_MAX_PAGES : Fld := ⟨0xC00400, 0, 20, 0x10000⟩
def F.FTL_RCL_SHARE_BASE_SHARE : Fld := ⟨0xC00404, 8, 8, 0x20⟩
def F.FTL_RCL_SHARE_MAX_SHARE : Fld := ⟨0xC00404, 0, 8, 0x80⟩
def F.FTL_RCL_CMD_START : Fld := ⟨0xC00408, 31, 1, 0x0⟩
def F.FTL_RCL_CMD_BUSY : Fld := ⟨0xC00408, 30, 1, 0x0⟩
def F.FTL_RCL_CMD_FORCE : Fld := ⟨0xC00408, 3, 1, 0x0⟩
def F.FTL_RCL_CMD_OP : Fld := ⟨0xC00408, 0, 2, 0x0⟩
def F.FTL_RCL_SB_SB : Fld := ⟨0xC0040C, 0, 28, 0x0⟩
def F.FTL_RCL_RESULT_VALID : Fld := ⟨0xC00410, 31, 1, 0x0⟩
def F.FTL_RCL_RESULT_SEEN : Fld := ⟨0xC00410, 30, 1, 0x0⟩
def F.FTL_RCL_RESULT_SEQ : Fld := ⟨0xC00410, 16, 8, 0x0⟩
def F.FTL_RCL_RESULT_POISONED : Fld := ⟨0xC00410, 8, 8, 0x0⟩
def F.FTL_RCL_RESULT_CODE : Fld := ⟨0xC00410, 0, 4, 0x0⟩
def F.FTL_SBS_BASE_LO_BASE_LO : Fld := ⟨0xC00418, 12, 20, 0x0⟩
def F.FTL_WEAR_BASE_LO_BASE_LO : Fld := ⟨0xC00420, 12, 20, 0x0⟩
def F.FTL_BBT_BASE_LO_BASE_LO : Fld := ⟨0xC00428, 12, 20, 0x0⟩
def F.FTL_SBS_BASE_HI_BASE_HI : Fld := ⟨0xC0041C, 0, 16, 0x0⟩
def F.FTL_WEAR_BASE_HI_BASE_HI : Fld := ⟨0xC00424, 0, 16, 0x0⟩
def F.FTL_BBT_BASE_HI_BASE_HI : Fld := ⟨0xC0042C, 0, 16, 0x0⟩
def F.FTL_WEAR_CFG_RETIRE_WU : Fld := ⟨0xC00430, 16, 16, 0xFFFF⟩
def F.FTL_WEAR_CFG_SPREAD : Fld := ⟨0xC00430, 4, 12, 0x64⟩
def F.FTL_WEAR_CFG_PSLC_WEIGHT : Fld := ⟨0xC00430, 0, 4, 0x2⟩
def F.FTL_REFRESH_CFG_RET_FAST : Fld := ⟨0xC00434, 16, 16, 0x1000⟩
def F.FTL_REFRESH_CFG_RET_DENSE : Fld := ⟨0xC00434, 0, 16, 0x400⟩
def F.FTL_READ_LIMIT_FAST : Fld := ⟨0xC00438, 16, 16, 0x2000⟩
def F.FTL_READ_LIMIT_DENSE : Fld := ⟨0xC00438, 0, 16, 0x200⟩
def F.FTL_REFRESH_ERR_ERASE_CHECK_BITS : Fld := ⟨0xC0043C, 16, 8, 0x40⟩
def F.FTL_REFRESH_ERR_SOFT_LIMIT : Fld := ⟨0xC0043C, 0, 16, 0x100⟩
def F.FTL_BG_CREDIT_DEBT_CAP (b : Nat) : Fld := ⟨0xC00440 + 0x4 * b, 16, 16, 0x40⟩
def F.FTL_BG_CREDIT_CREDIT (b : Nat) : Fld := ⟨0xC00440 + 0x4 * b, 0, 16, 0x2⟩
def F.FTL_RCL_EVENTS_RELOC_DROPPED : Fld := ⟨0xC00460, 16, 16, 0x0⟩
def F.FTL_RCL_EVENTS_RETIRED : Fld := ⟨0xC00460, 0, 16, 0x0⟩
def F.FTL_RETIRE_LAST_REASON : Fld := ⟨0xC00464, 28, 4, 0x0⟩
def F.FTL_RETIRE_LAST_BLOCK : Fld := ⟨0xC00464, 0, 28, 0x0⟩
def F.FTL_RCL_ISR_ANCHOR_FAIL : Fld := ⟨0xC004F0, 8, 1, 0x0⟩
def F.FTL_RCL_ISR_BAD_MEMBER : Fld := ⟨0xC004F0, 7, 1, 0x0⟩
def F.FTL_RCL_ISR_JNL_FULL : Fld := ⟨0xC004F0, 6, 1, 0x0⟩
def F.FTL_RCL_ISR_JNL_GAP : Fld := ⟨0xC004F0, 5, 1, 0x0⟩
def F.FTL_RCL_ISR_WEAR_SPREAD : Fld := ⟨0xC004F0, 4, 1, 0x0⟩
def F.FTL_RCL_ISR_PROG_FAIL : Fld := ⟨0xC004F0, 3, 1, 0x0⟩
def F.FTL_RCL_ISR_BLOCK_RETIRED : Fld := ⟨0xC004F0, 2, 1, 0x0⟩
def F.FTL_RCL_ISR_REFRESH : Fld := ⟨0xC004F0, 1, 1, 0x0⟩
def F.FTL_RCL_ISR_RCL_DONE : Fld := ⟨0xC004F0, 0, 1, 0x0⟩
def F.FTL_RCL_IER_ANCHOR_FAIL : Fld := ⟨0xC004F4, 8, 1, 0x0⟩
def F.FTL_RCL_IER_BAD_MEMBER : Fld := ⟨0xC004F4, 7, 1, 0x0⟩
def F.FTL_RCL_IER_JNL_FULL : Fld := ⟨0xC004F4, 6, 1, 0x0⟩
def F.FTL_RCL_IER_JNL_GAP : Fld := ⟨0xC004F4, 5, 1, 0x0⟩
def F.FTL_RCL_IER_WEAR_SPREAD : Fld := ⟨0xC004F4, 4, 1, 0x0⟩
def F.FTL_RCL_IER_PROG_FAIL : Fld := ⟨0xC004F4, 3, 1, 0x0⟩
def F.FTL_RCL_IER_BLOCK_RETIRED : Fld := ⟨0xC004F4, 2, 1, 0x0⟩
def F.FTL_RCL_IER_REFRESH : Fld := ⟨0xC004F4, 1, 1, 0x0⟩
def F.FTL_RCL_IER_RCL_DONE : Fld := ⟨0xC004F4, 0, 1, 0x0⟩
def F.FTL_RCL_ISR_SET_ANCHOR_FAIL : Fld := ⟨0xC004F8, 8, 1, 0x0⟩
def F.FTL_RCL_ISR_SET_BAD_MEMBER : Fld := ⟨0xC004F8, 7, 1, 0x0⟩
def F.FTL_RCL_ISR_SET_JNL_FULL : Fld := ⟨0xC004F8, 6, 1, 0x0⟩
def F.FTL_RCL_ISR_SET_JNL_GAP : Fld := ⟨0xC004F8, 5, 1, 0x0⟩
def F.FTL_RCL_ISR_SET_WEAR_SPREAD : Fld := ⟨0xC004F8, 4, 1, 0x0⟩
def F.FTL_RCL_ISR_SET_PROG_FAIL : Fld := ⟨0xC004F8, 3, 1, 0x0⟩
def F.FTL_RCL_ISR_SET_BLOCK_RETIRED : Fld := ⟨0xC004F8, 2, 1, 0x0⟩
def F.FTL_RCL_ISR_SET_REFRESH : Fld := ⟨0xC004F8, 1, 1, 0x0⟩
def F.FTL_RCL_ISR_SET_RCL_DONE : Fld := ⟨0xC004F8, 0, 1, 0x0⟩
def F.FTL_JNL_HARDENED_LO_JSEQ (i : Nat) : Fld := ⟨0xC00180 + 0x100 * i, 0, 32, 0x0⟩
def F.FTL_JNL_HARDENED_HI_JSEQ (i : Nat) : Fld := ⟨0xC00184 + 0x100 * i, 0, 32, 0x0⟩
def F.FTL_JNL_TAIL_LO_JSEQ (i : Nat) : Fld := ⟨0xC00188 + 0x100 * i, 0, 32, 0x0⟩
def F.FTL_JNL_TAIL_HI_JSEQ (i : Nat) : Fld := ⟨0xC0018C + 0x100 * i, 0, 32, 0x0⟩
def F.FTL_JNL_FW_FLOOR_LO_JSEQ (i : Nat) : Fld := ⟨0xC00190 + 0x100 * i, 0, 32, 0xFFFFFFFF⟩
def F.FTL_JNL_FW_FLOOR_HI_JSEQ (i : Nat) : Fld := ⟨0xC00194 + 0x100 * i, 0, 32, 0xFFFFFFFF⟩
def F.FTL_RCL_CAND_VALID (i : Nat) : Fld := ⟨0xC00198 + 0x100 * i, 31, 1, 0x0⟩
def F.FTL_RCL_CAND_URGENT (i : Nat) : Fld := ⟨0xC00198 + 0x100 * i, 30, 1, 0x0⟩
def F.FTL_RCL_CAND_SB (i : Nat) : Fld := ⟨0xC00198 + 0x100 * i, 0, 28, 0x0⟩
def F.FTL_WEAR_RANGE_MAX (i : Nat) : Fld := ⟨0xC0019C + 0x100 * i, 16, 16, 0x0⟩
def F.FTL_WEAR_RANGE_MIN (i : Nat) : Fld := ⟨0xC0019C + 0x100 * i, 0, 16, 0x0⟩
def F.FTL_BG_STATUS_IN_DEBT (i : Nat) : Fld := ⟨0xC001A0 + 0x100 * i, 8, 6, 0x0⟩
def F.FTL_BG_STATUS_SHARE (i : Nat) : Fld := ⟨0xC001A0 + 0x100 * i, 0, 8, 0x20⟩
def F.FTL_JNL_ANCHOR_0_FAILED (i : Nat) : Fld := ⟨0xC001A4 + 0x100 * i, 31, 1, 0x0⟩
def F.FTL_JNL_ANCHOR_0_BLOCK (i : Nat) : Fld := ⟨0xC001A4 + 0x100 * i, 0, 28, 0x0⟩
def F.FTL_JNL_ANCHOR_1_FAILED (i : Nat) : Fld := ⟨0xC001A8 + 0x100 * i, 31, 1, 0x0⟩
def F.FTL_JNL_ANCHOR_1_BLOCK (i : Nat) : Fld := ⟨0xC001A8 + 0x100 * i, 0, 28, 0x0⟩

/-! ### MED -/

def F.MED_CTRL_LANE_THRESH : Fld := ⟨0xD00000, 16, 16, 0x400⟩
def F.MED_CTRL_DIE_DEPTH : Fld := ⟨0xD00000, 0, 3, 0x2⟩
def F.MED_SUSPEND_CFG_MIN_RUN_US : Fld := ⟨0xD00004, 16, 16, 0x1F4⟩
def F.MED_SUSPEND_CFG_GUARD_PCT : Fld := ⟨0xD00004, 8, 4, 0xA⟩
def F.MED_SUSPEND_CFG_PROG_MAX : Fld := ⟨0xD00004, 4, 4, 0x2⟩
def F.MED_SUSPEND_CFG_ERASE_MAX : Fld := ⟨0xD00004, 0, 4, 0x4⟩
def F.MED_PARAM_CMD_START : Fld := ⟨0xD00010, 31, 1, 0x0⟩
def F.MED_PARAM_CMD_BUSY : Fld := ⟨0xD00010, 30, 1, 0x0⟩
def F.MED_PARAM_CMD_PAGE : Fld := ⟨0xD00010, 16, 1, 0x0⟩
def F.MED_PARAM_CMD_DIE : Fld := ⟨0xD00010, 8, 8, 0x0⟩
def F.MED_PARAM_CMD_MODULE : Fld := ⟨0xD00010, 0, 6, 0x0⟩
def F.MED_PARAM_ADDR_LO_ADDR : Fld := ⟨0xD00014, 0, 32, 0x0⟩
def F.MED_PARAM_ADDR_HI_ADDR : Fld := ⟨0xD00018, 0, 32, 0x0⟩
def F.MED_PARAM_RESULT_VALID : Fld := ⟨0xD0001C, 31, 1, 0x0⟩
def F.MED_PARAM_RESULT_SEEN : Fld := ⟨0xD0001C, 30, 1, 0x0⟩
def F.MED_PARAM_RESULT_SEQ : Fld := ⟨0xD0001C, 16, 8, 0x0⟩
def F.MED_PARAM_RESULT_STATUS : Fld := ⟨0xD0001C, 8, 8, 0x0⟩
def F.MED_ERR_COUNTS_REPLAYS : Fld := ⟨0xD00020, 16, 16, 0x0⟩
def F.MED_ERR_COUNTS_DISCARDS : Fld := ⟨0xD00020, 0, 16, 0x0⟩
def F.MED_SUSPENDS_ERASE : Fld := ⟨0xD00024, 16, 16, 0x0⟩
def F.MED_SUSPENDS_PROGRAM : Fld := ⟨0xD00024, 0, 16, 0x0⟩
def F.MED_ALERT_LAST_CODE : Fld := ⟨0xD00028, 24, 8, 0x0⟩
def F.MED_ALERT_LAST_MODULE : Fld := ⟨0xD00028, 8, 6, 0x0⟩
def F.MED_ALERT_LAST_DIE : Fld := ⟨0xD00028, 0, 8, 0x0⟩
def F.MED_EVENTS_QUEUE_FULL : Fld := ⟨0xD0002C, 16, 16, 0x0⟩
def F.MED_EVENTS_CLAIM_REFUSED : Fld := ⟨0xD0002C, 8, 8, 0x0⟩
def F.MED_EVENTS_BAD_ALERTS : Fld := ⟨0xD0002C, 0, 8, 0x0⟩
def F.MED_OPS_LO_COUNT : Fld := ⟨0xD00030, 0, 32, 0x0⟩
def F.MED_OPS_HI_COUNT : Fld := ⟨0xD00034, 0, 32, 0x0⟩
def F.MED_OPS_WRAPS_WRAPS : Fld := ⟨0xD00038, 0, 16, 0x0⟩
def F.MED_ISR_PARAM_DONE : Fld := ⟨0xD00070, 6, 1, 0x0⟩
def F.MED_ISR_HOT : Fld := ⟨0xD00070, 5, 1, 0x0⟩
def F.MED_ISR_ALERT : Fld := ⟨0xD00070, 4, 1, 0x0⟩
def F.MED_ISR_LEASE_FAULT : Fld := ⟨0xD00070, 3, 1, 0x0⟩
def F.MED_ISR_DEGRADED : Fld := ⟨0xD00070, 2, 1, 0x0⟩
def F.MED_ISR_PORT_DOWN : Fld := ⟨0xD00070, 1, 1, 0x0⟩
def F.MED_ISR_PORT_UP : Fld := ⟨0xD00070, 0, 1, 0x0⟩
def F.MED_IER_PARAM_DONE : Fld := ⟨0xD00074, 6, 1, 0x0⟩
def F.MED_IER_HOT : Fld := ⟨0xD00074, 5, 1, 0x0⟩
def F.MED_IER_ALERT : Fld := ⟨0xD00074, 4, 1, 0x0⟩
def F.MED_IER_LEASE_FAULT : Fld := ⟨0xD00074, 3, 1, 0x0⟩
def F.MED_IER_DEGRADED : Fld := ⟨0xD00074, 2, 1, 0x0⟩
def F.MED_IER_PORT_DOWN : Fld := ⟨0xD00074, 1, 1, 0x0⟩
def F.MED_IER_PORT_UP : Fld := ⟨0xD00074, 0, 1, 0x0⟩
def F.MED_ISR_SET_PARAM_DONE : Fld := ⟨0xD00078, 6, 1, 0x0⟩
def F.MED_ISR_SET_HOT : Fld := ⟨0xD00078, 5, 1, 0x0⟩
def F.MED_ISR_SET_ALERT : Fld := ⟨0xD00078, 4, 1, 0x0⟩
def F.MED_ISR_SET_LEASE_FAULT : Fld := ⟨0xD00078, 3, 1, 0x0⟩
def F.MED_ISR_SET_DEGRADED : Fld := ⟨0xD00078, 2, 1, 0x0⟩
def F.MED_ISR_SET_PORT_DOWN : Fld := ⟨0xD00078, 1, 1, 0x0⟩
def F.MED_ISR_SET_PORT_UP : Fld := ⟨0xD00078, 0, 1, 0x0⟩
def F.MED_PORT_STATUS_PRESENT (m : Nat) : Fld := ⟨0xD01000 + 0x4 * m, 15, 1, 0x0⟩
def F.MED_PORT_STATUS_UP (m : Nat) : Fld := ⟨0xD01000 + 0x4 * m, 14, 1, 0x0⟩
def F.MED_PORT_STATUS_RECOVERING (m : Nat) : Fld := ⟨0xD01000 + 0x4 * m, 13, 1, 0x0⟩
def F.MED_PORT_STATUS_PARAM_BAD (m : Nat) : Fld := ⟨0xD01000 + 0x4 * m, 12, 1, 0x0⟩
def F.MED_PORT_STATUS_POWER_WARN (m : Nat) : Fld := ⟨0xD01000 + 0x4 * m, 11, 1, 0x0⟩
def F.MED_PORT_STATUS_DEGRADED (m : Nat) : Fld := ⟨0xD01000 + 0x4 * m, 10, 1, 0x0⟩
def F.MED_PORT_STATUS_WIDTH (m : Nat) : Fld := ⟨0xD01000 + 0x4 * m, 8, 2, 0x0⟩

/-! ### LDC -/

def F.LDC_HARD_CFG_MAX_ITER : Fld := ⟨0xE00000, 0, 5, 0x14⟩
def F.LDC_SOFT_CFG_DELTA : Fld := ⟨0xE00004, 8, 4, 0x4⟩
def F.LDC_SOFT_CFG_FIVE_READS : Fld := ⟨0xE00004, 7, 1, 0x1⟩
def F.LDC_SOFT_CFG_MAX_ITER : Fld := ⟨0xE00004, 0, 5, 0x1E⟩
def F.LDC_LLR_CFG_MIN_COUNT : Fld := ⟨0xE00008, 16, 16, 0x100⟩
def F.LDC_LLR_CFG_FREEZE : Fld := ⟨0xE00008, 0, 1, 0x0⟩
def F.LDC_CAL_CFG_GAIN : Fld := ⟨0xE0000C, 24, 8, 0x20⟩
def F.LDC_CAL_CFG_DEADBAND : Fld := ⟨0xE0000C, 16, 8, 0x2⟩
def F.LDC_CAL_CFG_MIN_ERR : Fld := ⟨0xE0000C, 8, 8, 0x8⟩
def F.LDC_CAL_CFG_PROBE : Fld := ⟨0xE0000C, 0, 8, 0x2⟩
def F.LDC_CAL_CTRL_ENABLE : Fld := ⟨0xE00010, 31, 1, 0x1⟩
def F.LDC_CAL_CTRL_MAX_STEP : Fld := ⟨0xE00010, 16, 8, 0x20⟩
def F.LDC_CAL_CTRL_PERIOD_LOG2 : Fld := ⟨0xE00010, 0, 5, 0x11⟩
def F.LDC_TABLE_BASE_LO_BASE_LO : Fld := ⟨0xE00018, 12, 20, 0x0⟩
def F.LDC_TABLE_BASE_HI_BASE_HI : Fld := ⟨0xE0001C, 0, 16, 0x0⟩
def F.LDC_HARD_OK_LO_COUNT : Fld := ⟨0xE00040, 0, 32, 0x0⟩
def F.LDC_HARD_OK_HI_COUNT : Fld := ⟨0xE00044, 0, 32, 0x0⟩
def F.LDC_SOFT_OK_LO_COUNT : Fld := ⟨0xE00048, 0, 32, 0x0⟩
def F.LDC_SOFT_OK_HI_COUNT : Fld := ⟨0xE0004C, 0, 32, 0x0⟩
def F.LDC_FAILED_LO_COUNT : Fld := ⟨0xE00050, 0, 32, 0x0⟩
def F.LDC_FAILED_HI_COUNT : Fld := ⟨0xE00054, 0, 32, 0x0⟩
def F.LDC_DEC_WRAPS_FAILED_WRAPS : Fld := ⟨0xE00058, 20, 10, 0x0⟩
def F.LDC_DEC_WRAPS_SOFT_WRAPS : Fld := ⟨0xE00058, 10, 10, 0x0⟩
def F.LDC_DEC_WRAPS_HARD_WRAPS : Fld := ⟨0xE00058, 0, 10, 0x0⟩
def F.LDC_EVENTS_OFFSET_SAT : Fld := ⟨0xE00060, 16, 16, 0x0⟩
def F.LDC_EVENTS_CAL_ABORT : Fld := ⟨0xE00060, 8, 8, 0x0⟩
def F.LDC_EVENTS_MSG_SAT : Fld := ⟨0xE00060, 0, 8, 0x0⟩
def F.LDC_ISR_CAL_ABORT : Fld := ⟨0xE00070, 3, 1, 0x0⟩
def F.LDC_ISR_CAL_FLAG : Fld := ⟨0xE00070, 2, 1, 0x0⟩
def F.LDC_ISR_OFFSET_SAT : Fld := ⟨0xE00070, 1, 1, 0x0⟩
def F.LDC_ISR_FAILED : Fld := ⟨0xE00070, 0, 1, 0x0⟩
def F.LDC_IER_CAL_ABORT : Fld := ⟨0xE00074, 3, 1, 0x0⟩
def F.LDC_IER_CAL_FLAG : Fld := ⟨0xE00074, 2, 1, 0x0⟩
def F.LDC_IER_OFFSET_SAT : Fld := ⟨0xE00074, 1, 1, 0x0⟩
def F.LDC_IER_FAILED : Fld := ⟨0xE00074, 0, 1, 0x0⟩
def F.LDC_ISR_SET_CAL_ABORT : Fld := ⟨0xE00078, 3, 1, 0x0⟩
def F.LDC_ISR_SET_CAL_FLAG : Fld := ⟨0xE00078, 2, 1, 0x0⟩
def F.LDC_ISR_SET_OFFSET_SAT : Fld := ⟨0xE00078, 1, 1, 0x0⟩
def F.LDC_ISR_SET_FAILED : Fld := ⟨0xE00078, 0, 1, 0x0⟩

/-! ### STR -/

def F.STR_CTRL_AWAY_LIMIT : Fld := ⟨0xF00000, 16, 16, 0xA⟩
def F.STR_CTRL_HELD_LIMIT : Fld := ⟨0xF00000, 8, 8, 0x32⟩
def F.STR_CTRL_PAD_US : Fld := ⟨0xF00000, 0, 8, 0xC8⟩
def F.STR_REGION_BASE_LO_ADDR : Fld := ⟨0xF00008, 0, 32, 0x0⟩
def F.STR_REGION_BASE_HI_ADDR : Fld := ⟨0xF0000C, 0, 32, 0x0⟩
def F.STR_RECON_LO_COUNT : Fld := ⟨0xF00010, 0, 32, 0x0⟩
def F.STR_RECON_HI_COUNT : Fld := ⟨0xF00014, 0, 32, 0x0⟩
def F.STR_RECON_WRAPS_WRAPS : Fld := ⟨0xF00018, 0, 16, 0x0⟩
def F.STR_ERRS_UNRECOVERED : Fld := ⟨0xF0001C, 16, 16, 0x0⟩
def F.STR_ERRS_SUBSTITUTED : Fld := ⟨0xF0001C, 0, 16, 0x0⟩
def F.STR_ISR_SB_SKIPPED : Fld := ⟨0xF00070, 6, 1, 0x0⟩
def F.STR_ISR_UNRECOVERED : Fld := ⟨0xF00070, 5, 1, 0x0⟩
def F.STR_ISR_EXPOSED : Fld := ⟨0xF00070, 4, 1, 0x0⟩
def F.STR_ISR_DIE_FAILED : Fld := ⟨0xF00070, 3, 1, 0x0⟩
def F.STR_ISR_MOD_BACK : Fld := ⟨0xF00070, 2, 1, 0x0⟩
def F.STR_ISR_MOD_LOST : Fld := ⟨0xF00070, 1, 1, 0x0⟩
def F.STR_ISR_MOD_AWAY : Fld := ⟨0xF00070, 0, 1, 0x0⟩
def F.STR_IER_SB_SKIPPED : Fld := ⟨0xF00074, 6, 1, 0x0⟩
def F.STR_IER_UNRECOVERED : Fld := ⟨0xF00074, 5, 1, 0x0⟩
def F.STR_IER_EXPOSED : Fld := ⟨0xF00074, 4, 1, 0x0⟩
def F.STR_IER_DIE_FAILED : Fld := ⟨0xF00074, 3, 1, 0x0⟩
def F.STR_IER_MOD_BACK : Fld := ⟨0xF00074, 2, 1, 0x0⟩
def F.STR_IER_MOD_LOST : Fld := ⟨0xF00074, 1, 1, 0x0⟩
def F.STR_IER_MOD_AWAY : Fld := ⟨0xF00074, 0, 1, 0x0⟩
def F.STR_ISR_SET_SB_SKIPPED : Fld := ⟨0xF00078, 6, 1, 0x0⟩
def F.STR_ISR_SET_UNRECOVERED : Fld := ⟨0xF00078, 5, 1, 0x0⟩
def F.STR_ISR_SET_EXPOSED : Fld := ⟨0xF00078, 4, 1, 0x0⟩
def F.STR_ISR_SET_DIE_FAILED : Fld := ⟨0xF00078, 3, 1, 0x0⟩
def F.STR_ISR_SET_MOD_BACK : Fld := ⟨0xF00078, 2, 1, 0x0⟩
def F.STR_ISR_SET_MOD_LOST : Fld := ⟨0xF00078, 1, 1, 0x0⟩
def F.STR_ISR_SET_MOD_AWAY : Fld := ⟨0xF00078, 0, 1, 0x0⟩
def F.STR_REBUILD_CAND_VALID (i : Nat) : Fld := ⟨0xF00100 + 0x100 * i, 31, 1, 0x0⟩
def F.STR_REBUILD_CAND_UNAVAIL (i : Nat) : Fld := ⟨0xF00100 + 0x100 * i, 28, 3, 0x0⟩
def F.STR_REBUILD_CAND_SB (i : Nat) : Fld := ⟨0xF00100 + 0x100 * i, 0, 28, 0x0⟩
def F.STR_DEGRADED_COUNT (i : Nat) : Fld := ⟨0xF00104 + 0x100 * i, 0, 32, 0x0⟩
def F.STR_EXPOSED_BROKEN (i : Nat) : Fld := ⟨0xF00108 + 0x100 * i, 16, 16, 0x0⟩
def F.STR_EXPOSED_EXPOSED (i : Nat) : Fld := ⟨0xF00108 + 0x100 * i, 0, 16, 0x0⟩
def F.STR_MOD_AWAY_UNITS (m : Nat) : Fld := ⟨0xF01000 + 0x4 * m, 8, 8, 0x0⟩
def F.STR_MOD_STATE (m : Nat) : Fld := ⟨0xF01000 + 0x4 * m, 0, 3, 0x0⟩

/-! ### CMT -/

def F.CMT_CTRL_WB_RESUME_MIB : Fld := ⟨0x1000000, 16, 16, 0x400⟩
def F.CMT_CTRL_EGRESS_RESV : Fld := ⟨0x1000000, 2, 1, 0x1⟩
def F.CMT_CTRL_SOLO_POLICY : Fld := ⟨0x1000000, 1, 1, 0x0⟩
def F.CMT_CTRL_FORCE_WT : Fld := ⟨0x1000000, 0, 1, 0x0⟩
def F.CMT_STATUS_WT_CAUSE : Fld := ⟨0x1000004, 4, 4, 0x0⟩
def F.CMT_STATUS_ADMIT_HELD : Fld := ⟨0x1000004, 3, 1, 0x0⟩
def F.CMT_STATUS_SOLO : Fld := ⟨0x1000004, 2, 1, 0x0⟩
def F.CMT_STATUS_MODE : Fld := ⟨0x1000004, 0, 2, 0x0⟩
def F.CMT_DIRTY_LIMIT_LO_LIMIT_LO : Fld := ⟨0x1000008, 0, 32, 0x0⟩
def F.CMT_DIRTY_LIMIT_HI_LIMIT_HI : Fld := ⟨0x100000C, 0, 32, 0x0⟩
def F.CMT_DIRTY_CAP_LO_CAP_LO : Fld := ⟨0x1000010, 0, 32, 0x0⟩
def F.CMT_DIRTY_CAP_HI_CAP_HI : Fld := ⟨0x1000014, 0, 32, 0x8⟩
def F.CMT_DIRTY_BYTES_LO_BYTES_LO : Fld := ⟨0x1000018, 0, 32, 0x0⟩
def F.CMT_DIRTY_BYTES_HI_BYTES_HI : Fld := ⟨0x100001C, 0, 32, 0x0⟩
def F.CMT_RING_STATUS_MIRROR_CREDITS : Fld := ⟨0x1000020, 16, 14, 0x0⟩
def F.CMT_RING_STATUS_OWN_FREE : Fld := ⟨0x1000020, 0, 14, 0x2000⟩
def F.CMT_STG_BASE_LO_BASE_LO : Fld := ⟨0x1000028, 12, 20, 0x0⟩
def F.CMT_STG_BASE_HI_BASE_HI : Fld := ⟨0x100002C, 0, 16, 0x0⟩
def F.CMT_STG_OWN_SLOTS_SLOTS : Fld := ⟨0x1000030, 0, 32, 0x0⟩
def F.CMT_STG_MIRROR_SLOTS_SLOTS : Fld := ⟨0x1000034, 0, 32, 0x0⟩
def F.CMT_LAT_OVER : Fld := ⟨0x1000038, 16, 16, 0x0⟩
def F.CMT_LAT_MAX_NS : Fld := ⟨0x1000038, 0, 16, 0x0⟩
def F.CMT_ERRS_GUARD_MISMATCH : Fld := ⟨0x100003C, 16, 16, 0x0⟩
def F.CMT_ERRS_STAGING_POISON : Fld := ⟨0x100003C, 0, 16, 0x0⟩
def F.CMT_ISR_LAT_OVER : Fld := ⟨0x1000040, 4, 1, 0x0⟩
def F.CMT_ISR_HELD_LONG : Fld := ⟨0x1000040, 3, 1, 0x0⟩
def F.CMT_ISR_GUARD : Fld := ⟨0x1000040, 2, 1, 0x0⟩
def F.CMT_ISR_WT_EXIT : Fld := ⟨0x1000040, 1, 1, 0x0⟩
def F.CMT_ISR_WT_ENTER : Fld := ⟨0x1000040, 0, 1, 0x0⟩
def F.CMT_IER_LAT_OVER : Fld := ⟨0x1000044, 4, 1, 0x0⟩
def F.CMT_IER_HELD_LONG : Fld := ⟨0x1000044, 3, 1, 0x0⟩
def F.CMT_IER_GUARD : Fld := ⟨0x1000044, 2, 1, 0x0⟩
def F.CMT_IER_WT_EXIT : Fld := ⟨0x1000044, 1, 1, 0x0⟩
def F.CMT_IER_WT_ENTER : Fld := ⟨0x1000044, 0, 1, 0x0⟩
def F.CMT_ISR_SET_LAT_OVER : Fld := ⟨0x1000048, 4, 1, 0x0⟩
def F.CMT_ISR_SET_HELD_LONG : Fld := ⟨0x1000048, 3, 1, 0x0⟩
def F.CMT_ISR_SET_GUARD : Fld := ⟨0x1000048, 2, 1, 0x0⟩
def F.CMT_ISR_SET_WT_EXIT : Fld := ⟨0x1000048, 1, 1, 0x0⟩
def F.CMT_ISR_SET_WT_ENTER : Fld := ⟨0x1000048, 0, 1, 0x0⟩

/-! ### EFM -/

def F.EFM_LINK_STATUS_ID_CLASH : Fld := ⟨0x1100000, 10, 1, 0x0⟩
def F.EFM_LINK_STATUS_RECOVERING : Fld := ⟨0x1100000, 9, 1, 0x0⟩
def F.EFM_LINK_STATUS_UP : Fld := ⟨0x1100000, 8, 1, 0x0⟩
def F.EFM_LINK_STATUS_RX_SPARES : Fld := ⟨0x1100000, 4, 4, 0x0⟩
def F.EFM_LINK_STATUS_TX_SPARES : Fld := ⟨0x1100000, 0, 4, 0x0⟩
def F.EFM_CTRL_SPARE_THRESH : Fld := ⟨0x1100004, 16, 16, 0x400⟩
def F.EFM_CTRL_RETRAIN : Fld := ⟨0x1100004, 0, 1, 0x0⟩
def F.EFM_LANE_MAP_RX_ACTIVE : Fld := ⟨0x1100008, 0, 18, 0xFFFF⟩
def F.EFM_ERR_COUNTS_REPLAYS : Fld := ⟨0x110000C, 16, 16, 0x0⟩
def F.EFM_ERR_COUNTS_DISCARDS : Fld := ⟨0x110000C, 0, 16, 0x0⟩
def F.EFM_ISR_RECOVERY : Fld := ⟨0x11000F0, 3, 1, 0x0⟩
def F.EFM_ISR_SPARED : Fld := ⟨0x11000F0, 2, 1, 0x0⟩
def F.EFM_ISR_DOWN : Fld := ⟨0x11000F0, 1, 1, 0x0⟩
def F.EFM_ISR_UP : Fld := ⟨0x11000F0, 0, 1, 0x0⟩
def F.EFM_IER_RECOVERY : Fld := ⟨0x11000F4, 3, 1, 0x0⟩
def F.EFM_IER_SPARED : Fld := ⟨0x11000F4, 2, 1, 0x0⟩
def F.EFM_IER_DOWN : Fld := ⟨0x11000F4, 1, 1, 0x0⟩
def F.EFM_IER_UP : Fld := ⟨0x11000F4, 0, 1, 0x0⟩
def F.EFM_ISR_SET_RECOVERY : Fld := ⟨0x11000F8, 3, 1, 0x0⟩
def F.EFM_ISR_SET_SPARED : Fld := ⟨0x11000F8, 2, 1, 0x0⟩
def F.EFM_ISR_SET_DOWN : Fld := ⟨0x11000F8, 1, 1, 0x0⟩
def F.EFM_ISR_SET_UP : Fld := ⟨0x11000F8, 0, 1, 0x0⟩

/-! ### NVQ -/

def F.NVQ_CTRL_PACE_START_PCT : Fld := ⟨0x1200000, 16, 8, 0x4B⟩
def F.NVQ_CTRL_PACE_EN : Fld := ⟨0x1200000, 1, 1, 0x1⟩
def F.NVQ_CTRL_ENABLE : Fld := ⟨0x1200000, 0, 1, 0x0⟩
def F.NVQ_REGION_BASE_LO_ADDR : Fld := ⟨0x1200008, 0, 32, 0x0⟩
def F.NVQ_REGION_BASE_HI_ADDR : Fld := ⟨0x120000C, 0, 32, 0x0⟩
def F.NVQ_PACE_MEDIA_MBPS : Fld := ⟨0x1200010, 0, 32, 0x0⟩
def F.NVQ_WT_MBPS_MBPS : Fld := ⟨0x1200014, 0, 32, 0x2710⟩
def F.NVQ_RATE_W_MBPS : Fld := ⟨0x1200018, 0, 32, 0x0⟩
def F.NVQ_RATE_R_MBPS : Fld := ⟨0x120001C, 0, 32, 0x0⟩
def F.NVQ_TCP_CFG_LIMIT_PCT : Fld := ⟨0x1200020, 0, 4, 0xA⟩
def F.NVQ_THAW_START : Fld := ⟨0x1200024, 31, 1, 0x0⟩
def F.NVQ_THAW_QUEUE : Fld := ⟨0x1200024, 0, 16, 0x0⟩
def F.NVQ_FROZEN_COUNT : Fld := ⟨0x1200028, 0, 17, 0x0⟩
def F.NVQ_CMDS_LO_COUNT : Fld := ⟨0x1200030, 0, 32, 0x0⟩
def F.NVQ_CMDS_HI_COUNT : Fld := ⟨0x1200034, 0, 32, 0x0⟩
def F.NVQ_CMDS_WRAPS_WRAPS : Fld := ⟨0x1200038, 0, 16, 0x0⟩
def F.NVQ_EVENTS_FREEZES : Fld := ⟨0x120003C, 16, 16, 0x0⟩
def F.NVQ_EVENTS_DIGEST_FAIL : Fld := ⟨0x120003C, 8, 8, 0x0⟩
def F.NVQ_EVENTS_NS_MISMATCH : Fld := ⟨0x120003C, 0, 8, 0x0⟩
def F.NVQ_ADM_TAIL_INDEX : Fld := ⟨0x1200040, 0, 12, 0x0⟩
def F.NVQ_ADM_HEAD_INDEX : Fld := ⟨0x1200044, 0, 12, 0x0⟩
def F.NVQ_ISR_TCP_LIMIT : Fld := ⟨0x1200070, 4, 1, 0x0⟩
def F.NVQ_ISR_PACING : Fld := ⟨0x1200070, 3, 1, 0x0⟩
def F.NVQ_ISR_NS_MISMATCH : Fld := ⟨0x1200070, 2, 1, 0x0⟩
def F.NVQ_ISR_ADMIN : Fld := ⟨0x1200070, 1, 1, 0x0⟩
def F.NVQ_ISR_FROZEN : Fld := ⟨0x1200070, 0, 1, 0x0⟩
def F.NVQ_IER_TCP_LIMIT : Fld := ⟨0x1200074, 4, 1, 0x0⟩
def F.NVQ_IER_PACING : Fld := ⟨0x1200074, 3, 1, 0x0⟩
def F.NVQ_IER_NS_MISMATCH : Fld := ⟨0x1200074, 2, 1, 0x0⟩
def F.NVQ_IER_ADMIN : Fld := ⟨0x1200074, 1, 1, 0x0⟩
def F.NVQ_IER_FROZEN : Fld := ⟨0x1200074, 0, 1, 0x0⟩
def F.NVQ_ISR_SET_TCP_LIMIT : Fld := ⟨0x1200078, 4, 1, 0x0⟩
def F.NVQ_ISR_SET_PACING : Fld := ⟨0x1200078, 3, 1, 0x0⟩
def F.NVQ_ISR_SET_NS_MISMATCH : Fld := ⟨0x1200078, 2, 1, 0x0⟩
def F.NVQ_ISR_SET_ADMIN : Fld := ⟨0x1200078, 1, 1, 0x0⟩
def F.NVQ_ISR_SET_FROZEN : Fld := ⟨0x1200078, 0, 1, 0x0⟩

/-! ### RDT -/

def F.RDT_CTRL_ACK_COALESCE : Fld := ⟨0x1300000, 8, 8, 0x40⟩
def F.RDT_CTRL_CC_EN : Fld := ⟨0x1300000, 1, 1, 0x1⟩
def F.RDT_CTRL_ENABLE : Fld := ⟨0x1300000, 0, 1, 0x0⟩
def F.RDT_QPC_BASE_LO_BASE_LO : Fld := ⟨0x1300008, 12, 20, 0x0⟩
def F.RDT_MR_BASE_LO_BASE_LO : Fld := ⟨0x1300010, 12, 20, 0x0⟩
def F.RDT_EVQ_BASE_LO_BASE_LO : Fld := ⟨0x1300018, 12, 20, 0x0⟩
def F.RDT_QPC_BASE_HI_BASE_HI : Fld := ⟨0x130000C, 0, 16, 0x0⟩
def F.RDT_MR_BASE_HI_BASE_HI : Fld := ⟨0x1300014, 0, 16, 0x0⟩
def F.RDT_EVQ_BASE_HI_BASE_HI : Fld := ⟨0x130001C, 0, 16, 0x0⟩
def F.RDT_CMD_START : Fld := ⟨0x1300020, 31, 1, 0x0⟩
def F.RDT_CMD_BUSY : Fld := ⟨0x1300020, 30, 1, 0x0⟩
def F.RDT_CMD_OP : Fld := ⟨0x1300020, 24, 4, 0x0⟩
def F.RDT_CMD_ARG : Fld := ⟨0x1300020, 0, 24, 0x0⟩
def F.RDT_CMD_ADDR_LO_ADDR : Fld := ⟨0x1300024, 0, 32, 0x0⟩
def F.RDT_CMD_ADDR_HI_ADDR : Fld := ⟨0x1300028, 0, 32, 0x0⟩
def F.RDT_CMD_RESULT_VALID : Fld := ⟨0x130002C, 31, 1, 0x0⟩
def F.RDT_CMD_RESULT_SEEN : Fld := ⟨0x130002C, 30, 1, 0x0⟩
def F.RDT_CMD_RESULT_SEQ : Fld := ⟨0x130002C, 16, 8, 0x0⟩
def F.RDT_CMD_RESULT_CODE : Fld := ⟨0x130002C, 0, 4, 0x0⟩
def F.RDT_CACHE_STATUS_PINNED : Fld := ⟨0x1300030, 16, 16, 0x0⟩
def F.RDT_CACHE_STATUS_CACHED : Fld := ⟨0x1300030, 0, 15, 0x0⟩
def F.RDT_PARK_STATUS_PEAK : Fld := ⟨0x1300034, 16, 9, 0x0⟩
def F.RDT_PARK_STATUS_PARKED : Fld := ⟨0x1300034, 0, 9, 0x0⟩
def F.RDT_DROPS_PARK_DROP : Fld := ⟨0x1300038, 16, 16, 0x0⟩
def F.RDT_DROPS_NO_QP : Fld := ⟨0x1300038, 8, 8, 0x0⟩
def F.RDT_DROPS_CPL_LOST : Fld := ⟨0x1300038, 0, 8, 0x0⟩
def F.RDT_DUP_EVENTS_DUP_ACKED : Fld := ⟨0x130003C, 16, 16, 0x0⟩
def F.RDT_DUP_EVENTS_DUP_STALE : Fld := ⟨0x130003C, 0, 16, 0x0⟩
def F.RDT_QUAR_CFG_QUAR_TURNS : Fld := ⟨0x1300040, 0, 32, 0x2710⟩
def F.RDT_QUAR_COUNT_BOBBINS : Fld := ⟨0x1300044, 0, 32, 0x0⟩
def F.RDT_TALLY_CFG_PENDING : Fld := ⟨0x1300048, 0, 13, 0x0⟩
def F.RDT_TALLY_TIMEOUT_TIMEOUT : Fld := ⟨0x130004C, 0, 32, 0x2710⟩
def F.RDT_CC_CFG_G : Fld := ⟨0x1300050, 16, 16, 0x100⟩
def F.RDT_CC_CFG_CNP_GAP_US : Fld := ⟨0x1300050, 8, 8, 0x32⟩
def F.RDT_CC_TIMERS_INC_US : Fld := ⟨0x1300054, 16, 16, 0x3C⟩
def F.RDT_CC_TIMERS_ALPHA_US : Fld := ⟨0x1300054, 0, 16, 0x37⟩
def F.RDT_CC_RATES_AI_MBPS : Fld := ⟨0x1300058, 16, 16, 0x1388⟩
def F.RDT_CC_RATES_MIN_MBPS : Fld := ⟨0x1300058, 0, 16, 0x64⟩
def F.RDT_CNP_COUNTS_SENT : Fld := ⟨0x130005C, 16, 16, 0x0⟩
def F.RDT_CNP_COUNTS_RECEIVED : Fld := ⟨0x130005C, 0, 16, 0x0⟩
def F.RDT_EVQ_TAIL_INDEX : Fld := ⟨0x1300060, 0, 12, 0x0⟩
def F.RDT_EVQ_HEAD_INDEX : Fld := ⟨0x1300064, 0, 12, 0x0⟩
def F.RDT_TENANT_ERRS_QP_ERRS : Fld := ⟨0x1300068, 16, 16, 0x0⟩
def F.RDT_TENANT_ERRS_DISABLED : Fld := ⟨0x1300068, 8, 8, 0x0⟩
def F.RDT_TENANT_ERRS_SYS_LOST : Fld := ⟨0x1300068, 0, 8, 0x0⟩
def F.RDT_ISR_CMD_DONE : Fld := ⟨0x13000F0, 4, 1, 0x0⟩
def F.RDT_ISR_PARK_DROP : Fld := ⟨0x13000F0, 3, 1, 0x0⟩
def F.RDT_ISR_PIN_FULL : Fld := ⟨0x13000F0, 2, 1, 0x0⟩
def F.RDT_ISR_TENANT_ERR : Fld := ⟨0x13000F0, 1, 1, 0x0⟩
def F.RDT_ISR_SYS_QP_ERR : Fld := ⟨0x13000F0, 0, 1, 0x0⟩
def F.RDT_IER_CMD_DONE : Fld := ⟨0x13000F4, 4, 1, 0x0⟩
def F.RDT_IER_PARK_DROP : Fld := ⟨0x13000F4, 3, 1, 0x0⟩
def F.RDT_IER_PIN_FULL : Fld := ⟨0x13000F4, 2, 1, 0x0⟩
def F.RDT_IER_TENANT_ERR : Fld := ⟨0x13000F4, 1, 1, 0x0⟩
def F.RDT_IER_SYS_QP_ERR : Fld := ⟨0x13000F4, 0, 1, 0x0⟩
def F.RDT_ISR_SET_CMD_DONE : Fld := ⟨0x13000F8, 4, 1, 0x0⟩
def F.RDT_ISR_SET_PARK_DROP : Fld := ⟨0x13000F8, 3, 1, 0x0⟩
def F.RDT_ISR_SET_PIN_FULL : Fld := ⟨0x13000F8, 2, 1, 0x0⟩
def F.RDT_ISR_SET_TENANT_ERR : Fld := ⟨0x13000F8, 1, 1, 0x0⟩
def F.RDT_ISR_SET_SYS_QP_ERR : Fld := ⟨0x13000F8, 0, 1, 0x0⟩

/-! ### ETH -/

def F.ETH_PORT_CTRL_PFC_EN (p : Nat) : Fld := ⟨0x1401000 + 0x40 * p, 8, 8, 0x0⟩
def F.ETH_PORT_CTRL_PTP_EN (p : Nat) : Fld := ⟨0x1401000 + 0x40 * p, 2, 1, 0x0⟩
def F.ETH_PORT_CTRL_AN_EN (p : Nat) : Fld := ⟨0x1401000 + 0x40 * p, 1, 1, 0x1⟩
def F.ETH_PORT_CTRL_ENABLE (p : Nat) : Fld := ⟨0x1401000 + 0x40 * p, 0, 1, 0x0⟩
def F.ETH_PORT_STATUS_LANES (p : Nat) : Fld := ⟨0x1401004 + 0x40 * p, 8, 3, 0x0⟩
def F.ETH_PORT_STATUS_SPEED (p : Nat) : Fld := ⟨0x1401004 + 0x40 * p, 4, 2, 0x0⟩
def F.ETH_PORT_STATUS_AN_DONE (p : Nat) : Fld := ⟨0x1401004 + 0x40 * p, 2, 1, 0x0⟩
def F.ETH_PORT_STATUS_FEC_LOCK (p : Nat) : Fld := ⟨0x1401004 + 0x40 * p, 1, 1, 0x0⟩
def F.ETH_PORT_STATUS_UP (p : Nat) : Fld := ⟨0x1401004 + 0x40 * p, 0, 1, 0x0⟩
def F.ETH_FEC_UNCORR (p : Nat) : Fld := ⟨0x1401008 + 0x40 * p, 16, 16, 0x0⟩
def F.ETH_FEC_CORR (p : Nat) : Fld := ⟨0x1401008 + 0x40 * p, 0, 16, 0x0⟩
def F.ETH_PAUSE_TX (p : Nat) : Fld := ⟨0x140100C + 0x40 * p, 16, 16, 0x0⟩
def F.ETH_PAUSE_RX (p : Nat) : Fld := ⟨0x140100C + 0x40 * p, 0, 16, 0x0⟩
def F.ETH_ETS_LO_WEIGHTS (p : Nat) : Fld := ⟨0x1401010 + 0x40 * p, 0, 32, 0x20202020⟩
def F.ETH_ETS_HI_WEIGHTS (p : Nat) : Fld := ⟨0x1401014 + 0x40 * p, 0, 32, 0x20202020⟩
def F.ETH_RX_FRAMES_LO_COUNT (p : Nat) : Fld := ⟨0x1401020 + 0x40 * p, 0, 32, 0x0⟩
def F.ETH_RX_FRAMES_HI_COUNT (p : Nat) : Fld := ⟨0x1401024 + 0x40 * p, 0, 32, 0x0⟩
def F.ETH_TX_FRAMES_LO_COUNT (p : Nat) : Fld := ⟨0x1401028 + 0x40 * p, 0, 32, 0x0⟩
def F.ETH_TX_FRAMES_HI_COUNT (p : Nat) : Fld := ⟨0x140102C + 0x40 * p, 0, 32, 0x0⟩
def F.ETH_FRAME_WRAPS_TX_WRAPS (p : Nat) : Fld := ⟨0x1401030 + 0x40 * p, 16, 16, 0x0⟩
def F.ETH_FRAME_WRAPS_RX_WRAPS (p : Nat) : Fld := ⟨0x1401030 + 0x40 * p, 0, 16, 0x0⟩
def F.ETH_DROPS_ICRC (p : Nat) : Fld := ⟨0x1401034 + 0x40 * p, 16, 16, 0x0⟩
def F.ETH_DROPS_FCS (p : Nat) : Fld := ⟨0x1401034 + 0x40 * p, 0, 16, 0x0⟩
def F.ETH_ISR_FEC_UNCORR : Fld := ⟨0x1400070, 2, 1, 0x0⟩
def F.ETH_ISR_LINK_DOWN : Fld := ⟨0x1400070, 1, 1, 0x0⟩
def F.ETH_ISR_LINK_UP : Fld := ⟨0x1400070, 0, 1, 0x0⟩
def F.ETH_IER_FEC_UNCORR : Fld := ⟨0x1400074, 2, 1, 0x0⟩
def F.ETH_IER_LINK_DOWN : Fld := ⟨0x1400074, 1, 1, 0x0⟩
def F.ETH_IER_LINK_UP : Fld := ⟨0x1400074, 0, 1, 0x0⟩
def F.ETH_ISR_SET_FEC_UNCORR : Fld := ⟨0x1400078, 2, 1, 0x0⟩
def F.ETH_ISR_SET_LINK_DOWN : Fld := ⟨0x1400078, 1, 1, 0x0⟩
def F.ETH_ISR_SET_LINK_UP : Fld := ⟨0x1400078, 0, 1, 0x0⟩

/-! ### PCI -/

def F.PCI_PORT_STATUS_VFS (n : Nat) : Fld := ⟨0x1500000 + 0x4 * n, 24, 7, 0x0⟩
def F.PCI_PORT_STATUS_ENDPOINT (n : Nat) : Fld := ⟨0x1500000 + 0x4 * n, 15, 1, 0x0⟩
def F.PCI_PORT_STATUS_LANES (n : Nat) : Fld := ⟨0x1500000 + 0x4 * n, 8, 5, 0x0⟩
def F.PCI_PORT_STATUS_SPEED (n : Nat) : Fld := ⟨0x1500000 + 0x4 * n, 4, 4, 0x0⟩
def F.PCI_PORT_STATUS_UP (n : Nat) : Fld := ⟨0x1500000 + 0x4 * n, 0, 1, 0x0⟩
def F.PCI_ISR_LINK : Fld := ⟨0x15000F0, 0, 1, 0x0⟩
def F.PCI_IER_LINK : Fld := ⟨0x15000F4, 0, 1, 0x0⟩
def F.PCI_ISR_SET_LINK : Fld := ⟨0x15000F8, 0, 1, 0x0⟩

/-! ### MTF -/

def F.MTF_REGION_BASE_LO_ADDR : Fld := ⟨0x1600008, 0, 32, 0x0⟩
def F.MTF_REGION_BASE_HI_ADDR : Fld := ⟨0x160000C, 0, 32, 0x0⟩
def F.MTF_CMD_START : Fld := ⟨0x1600010, 31, 1, 0x0⟩
def F.MTF_CMD_BUSY : Fld := ⟨0x1600010, 30, 1, 0x0⟩
def F.MTF_CMD_OP : Fld := ⟨0x1600010, 16, 4, 0x0⟩
def F.MTF_CMD_MODE : Fld := ⟨0x1600010, 12, 3, 0x0⟩
def F.MTF_CMD_SLOT : Fld := ⟨0x1600010, 0, 3, 0x0⟩
def F.MTF_CMD_ARG_VOLUME : Fld := ⟨0x1600014, 0, 16, 0x0⟩
def F.MTF_CMD_ADDR_LO_ADDR : Fld := ⟨0x1600018, 0, 32, 0x0⟩
def F.MTF_CMD_ADDR_HI_ADDR : Fld := ⟨0x160001C, 0, 32, 0x0⟩
def F.MTF_CMD_RESULT_VALID : Fld := ⟨0x1600020, 31, 1, 0x0⟩
def F.MTF_CMD_RESULT_SEEN : Fld := ⟨0x1600020, 30, 1, 0x0⟩
def F.MTF_CMD_RESULT_SEQ : Fld := ⟨0x1600020, 16, 8, 0x0⟩
def F.MTF_CMD_RESULT_CODE : Fld := ⟨0x1600020, 0, 4, 0x0⟩
def F.MTF_OPKEY_HASH (k w : Nat) : Fld := ⟨0x1600100 + 0x20 * k + 0x4 * w, 0, 32, 0x0⟩
def F.MTF_ISR_FAULT : Fld := ⟨0x1600070, 2, 1, 0x0⟩
def F.MTF_ISR_LOADED : Fld := ⟨0x1600070, 1, 1, 0x0⟩
def F.MTF_ISR_CMD_DONE : Fld := ⟨0x1600070, 0, 1, 0x0⟩
def F.MTF_IER_FAULT : Fld := ⟨0x1600074, 2, 1, 0x0⟩
def F.MTF_IER_LOADED : Fld := ⟨0x1600074, 1, 1, 0x0⟩
def F.MTF_IER_CMD_DONE : Fld := ⟨0x1600074, 0, 1, 0x0⟩
def F.MTF_ISR_SET_FAULT : Fld := ⟨0x1600078, 2, 1, 0x0⟩
def F.MTF_ISR_SET_LOADED : Fld := ⟨0x1600078, 1, 1, 0x0⟩
def F.MTF_ISR_SET_CMD_DONE : Fld := ⟨0x1600078, 0, 1, 0x0⟩
def F.MTF_SLOT_STATUS_TENANT (s : Nat) : Fld := ⟨0x1601000 + 0x20 * s, 16, 12, 0x0⟩
def F.MTF_SLOT_STATUS_CAUSE (s : Nat) : Fld := ⟨0x1601000 + 0x20 * s, 12, 4, 0x0⟩
def F.MTF_SLOT_STATUS_GROUP (s : Nat) : Fld := ⟨0x1601000 + 0x20 * s, 4, 2, 0x0⟩
def F.MTF_SLOT_STATUS_LEADER (s : Nat) : Fld := ⟨0x1601000 + 0x20 * s, 3, 1, 0x0⟩
def F.MTF_SLOT_STATUS_STATE (s : Nat) : Fld := ⟨0x1601000 + 0x20 * s, 0, 3, 0x0⟩
def F.MTF_SLOT_POWER_CAP_MW (s : Nat) : Fld := ⟨0x1601004 + 0x20 * s, 16, 16, 0xFA0⟩
def F.MTF_SLOT_POWER_NOW_MW (s : Nat) : Fld := ⟨0x1601004 + 0x20 * s, 0, 16, 0x0⟩
def F.MTF_SLOT_BINDS_BINDINGS (s : Nat) : Fld := ⟨0x1601008 + 0x20 * s, 0, 17, 0x0⟩
def F.MTF_SLOT_EVENTS_SKIPS (s : Nat) : Fld := ⟨0x160100C + 0x20 * s, 16, 16, 0x0⟩
def F.MTF_SLOT_EVENTS_THROTTLES (s : Nat) : Fld := ⟨0x160100C + 0x20 * s, 8, 8, 0x0⟩
def F.MTF_SLOT_EVENTS_VIOLATIONS (s : Nat) : Fld := ⟨0x160100C + 0x20 * s, 0, 8, 0x0⟩

/-! ### UPD -/

def F.UPD_CTRL_PAUSE_US : Fld := ⟨0x1700000, 0, 5, 0x14⟩
def F.UPD_CONFIRM_TURNS_TURNS : Fld := ⟨0x1700004, 0, 32, 0x800000⟩
def F.UPD_IMG_ADDR_LO_ADDR : Fld := ⟨0x1700008, 0, 32, 0x0⟩
def F.UPD_IMG_ADDR_HI_ADDR : Fld := ⟨0x170000C, 0, 32, 0x0⟩
def F.UPD_IMG_LEN_LENGTH : Fld := ⟨0x1700010, 0, 32, 0x0⟩
def F.UPD_CMD_START : Fld := ⟨0x1700014, 31, 1, 0x0⟩
def F.UPD_CMD_BUSY : Fld := ⟨0x1700014, 30, 1, 0x0⟩
def F.UPD_CMD_OP : Fld := ⟨0x1700014, 16, 4, 0x0⟩
def F.UPD_CMD_CLASS : Fld := ⟨0x1700014, 8, 4, 0x0⟩
def F.UPD_CMD_ARG : Fld := ⟨0x1700014, 0, 8, 0x0⟩
def F.UPD_RESULT_VALID : Fld := ⟨0x1700018, 31, 1, 0x0⟩
def F.UPD_RESULT_SEEN : Fld := ⟨0x1700018, 30, 1, 0x0⟩
def F.UPD_RESULT_SEQ : Fld := ⟨0x1700018, 16, 8, 0x0⟩
def F.UPD_RESULT_CODE : Fld := ⟨0x1700018, 0, 4, 0x0⟩
def F.UPD_BIND_BOUND_ON : Fld := ⟨0x170001C, 1, 1, 0x0⟩
def F.UPD_BIND_BOUND_OFF : Fld := ⟨0x170001C, 0, 1, 0x0⟩
def F.UPD_STATUS_PHASE : Fld := ⟨0x1700020, 28, 4, 0x0⟩
def F.UPD_STATUS_CLASS : Fld := ⟨0x1700020, 24, 4, 0x0⟩
def F.UPD_STATUS_NEW_CLUSTERS : Fld := ⟨0x1700020, 20, 4, 0x0⟩
def F.UPD_STATUS_SUSPENDED : Fld := ⟨0x1700020, 19, 1, 0x0⟩
def F.UPD_STATUS_FROG_ADVISED : Fld := ⟨0x1700020, 18, 1, 0x0⟩
def F.UPD_STATUS_DIR_STALE : Fld := ⟨0x1700020, 17, 1, 0x0⟩
def F.UPD_STATUS_STEP_FAILS : Fld := ⟨0x1700020, 0, 8, 0x0⟩
def F.UPD_RUN_VERSION_VERSION (c : Nat) : Fld := ⟨0x1700040 + 0x4 * c, 0, 32, 0x0⟩
def F.UPD_LEVEL_PARTNER : Fld := ⟨0x1700060, 16, 16, 0x0⟩
def F.UPD_LEVEL_OWN : Fld := ⟨0x1700060, 0, 16, 0x0⟩
def F.UPD_PEER_MIN_PARTNER : Fld := ⟨0x1700064, 16, 16, 0x0⟩
def F.UPD_PEER_MIN_OWN : Fld := ⟨0x1700064, 0, 16, 0x0⟩
def F.UPD_FLOOR_FLOOR (c : Nat) : Fld := ⟨0x1700080 + 0x4 * c, 0, 32, 0x0⟩
def F.UPD_EPOCH_EPOCH : Fld := ⟨0x17000A0, 0, 7, 0x0⟩
def F.UPD_FUSE_ROWS_LEFT : Fld := ⟨0x17000A4, 0, 28, 0x0⟩
def F.UPD_FLOOR_CMD_START : Fld := ⟨0x17000A8, 31, 1, 0x0⟩
def F.UPD_FLOOR_CMD_BUSY : Fld := ⟨0x17000A8, 30, 1, 0x0⟩
def F.UPD_FLOOR_CMD_CLASS : Fld := ⟨0x17000A8, 24, 4, 0x0⟩
def F.UPD_FLOOR_VALUE_VALUE : Fld := ⟨0x17000AC, 0, 32, 0x0⟩
def F.UPD_FLOOR_RESULT_VALID : Fld := ⟨0x17000B0, 31, 1, 0x0⟩
def F.UPD_FLOOR_RESULT_SEEN : Fld := ⟨0x17000B0, 30, 1, 0x0⟩
def F.UPD_FLOOR_RESULT_SEQ : Fld := ⟨0x17000B0, 16, 8, 0x0⟩
def F.UPD_FLOOR_RESULT_CODE : Fld := ⟨0x17000B0, 0, 4, 0x0⟩
def F.UPD_PAUSE_STEPS : Fld := ⟨0x17000B4, 16, 16, 0x0⟩
def F.UPD_PAUSE_MAX_NS : Fld := ⟨0x17000B4, 0, 16, 0x0⟩
def F.UPD_ISR_PEER_LEVEL : Fld := ⟨0x17000F0, 5, 1, 0x0⟩
def F.UPD_ISR_SUSPENDED : Fld := ⟨0x17000F0, 4, 1, 0x0⟩
def F.UPD_ISR_FROG_ADVISED : Fld := ⟨0x17000F0, 3, 1, 0x0⟩
def F.UPD_ISR_STEP_FAIL : Fld := ⟨0x17000F0, 2, 1, 0x0⟩
def F.UPD_ISR_FLOOR_DONE : Fld := ⟨0x17000F0, 1, 1, 0x0⟩
def F.UPD_ISR_CMD_DONE : Fld := ⟨0x17000F0, 0, 1, 0x0⟩
def F.UPD_IER_PEER_LEVEL : Fld := ⟨0x17000F4, 5, 1, 0x0⟩
def F.UPD_IER_SUSPENDED : Fld := ⟨0x17000F4, 4, 1, 0x0⟩
def F.UPD_IER_FROG_ADVISED : Fld := ⟨0x17000F4, 3, 1, 0x0⟩
def F.UPD_IER_STEP_FAIL : Fld := ⟨0x17000F4, 2, 1, 0x0⟩
def F.UPD_IER_FLOOR_DONE : Fld := ⟨0x17000F4, 1, 1, 0x0⟩
def F.UPD_IER_CMD_DONE : Fld := ⟨0x17000F4, 0, 1, 0x0⟩
def F.UPD_ISR_SET_PEER_LEVEL : Fld := ⟨0x17000F8, 5, 1, 0x0⟩
def F.UPD_ISR_SET_SUSPENDED : Fld := ⟨0x17000F8, 4, 1, 0x0⟩
def F.UPD_ISR_SET_FROG_ADVISED : Fld := ⟨0x17000F8, 3, 1, 0x0⟩
def F.UPD_ISR_SET_STEP_FAIL : Fld := ⟨0x17000F8, 2, 1, 0x0⟩
def F.UPD_ISR_SET_FLOOR_DONE : Fld := ⟨0x17000F8, 1, 1, 0x0⟩
def F.UPD_ISR_SET_CMD_DONE : Fld := ⟨0x17000F8, 0, 1, 0x0⟩

/-! ### RPJ -/

def F.RPJ_CTRL_TYPE_MASK : Fld := ⟨0x1800000, 24, 8, 0x0⟩
def F.RPJ_CTRL_TRACE_CL : Fld := ⟨0x1800000, 18, 2, 0x0⟩
def F.RPJ_CTRL_TRACE : Fld := ⟨0x1800000, 17, 1, 0x0⟩
def F.RPJ_CTRL_REPLAY : Fld := ⟨0x1800000, 16, 1, 0x0⟩
def F.RPJ_CTRL_FREEZE : Fld := ⟨0x1800000, 0, 1, 0x0⟩
def F.RPJ_RING_BASE_LO_ADDR : Fld := ⟨0x1800008, 0, 32, 0x0⟩
def F.RPJ_RING_BASE_HI_ADDR : Fld := ⟨0x180000C, 0, 32, 0x0⟩
def F.RPJ_TRACE_BASE_LO_ADDR : Fld := ⟨0x1800010, 0, 32, 0x0⟩
def F.RPJ_TRACE_BASE_HI_ADDR : Fld := ⟨0x1800014, 0, 32, 0x0⟩
def F.RPJ_RING_CFG_CKPT_TURNS : Fld := ⟨0x1800018, 16, 16, 0x1000⟩
def F.RPJ_RING_CFG_RING_LOG2 : Fld := ⟨0x1800018, 0, 5, 0x1E⟩
def F.RPJ_RSEQ_COUNT : Fld := ⟨0x180001C, 0, 32, 0x0⟩
def F.RPJ_DROPS_COUNT : Fld := ⟨0x1800020, 0, 32, 0x0⟩
def F.RPJ_EXP_CMD_START : Fld := ⟨0x1800024, 31, 1, 0x0⟩
def F.RPJ_EXP_CMD_BUSY : Fld := ⟨0x1800024, 30, 1, 0x0⟩
def F.RPJ_EXP_CMD_EXP_SLOT : Fld := ⟨0x1800024, 17, 10, 0x0⟩
def F.RPJ_EXP_CMD_SEGMENT : Fld := ⟨0x1800024, 0, 17, 0x0⟩
def F.RPJ_EXP_ADDR_LO_VALUE : Fld := ⟨0x180002C, 0, 32, 0x0⟩
def F.RPJ_EXP_ADDR_HI_VALUE : Fld := ⟨0x1800030, 0, 32, 0x0⟩
def F.RPJ_EXP_FIXED_VALUE : Fld := ⟨0x1800028, 0, 32, 0x0⟩
def F.RPJ_EXP_RESULT_VALID : Fld := ⟨0x1800034, 31, 1, 0x0⟩
def F.RPJ_EXP_RESULT_SEEN : Fld := ⟨0x1800034, 30, 1, 0x0⟩
def F.RPJ_EXP_RESULT_SEQ : Fld := ⟨0x1800034, 16, 8, 0x0⟩
def F.RPJ_EXP_RESULT_CODE : Fld := ⟨0x1800034, 0, 4, 0x0⟩
def F.RPJ_REPLAY_STATUS_DIVERGED : Fld := ⟨0x1800038, 31, 1, 0x0⟩
def F.RPJ_REPLAY_STATUS_GAP_END : Fld := ⟨0x1800038, 30, 1, 0x0⟩
def F.RPJ_REPLAY_STATUS_RSEQ : Fld := ⟨0x1800038, 0, 30, 0x0⟩
def F.RPJ_DBG_LEVEL : Fld := ⟨0x180003C, 8, 2, 0x0⟩
def F.RPJ_DBG_EVENTS : Fld := ⟨0x180003C, 0, 8, 0x0⟩
def F.RPJ_ISR_REPLAY_STOP : Fld := ⟨0x18000F0, 3, 1, 0x0⟩
def F.RPJ_ISR_DROP : Fld := ⟨0x18000F0, 2, 1, 0x0⟩
def F.RPJ_ISR_EXP_DONE : Fld := ⟨0x18000F0, 1, 1, 0x0⟩
def F.RPJ_ISR_CKPT : Fld := ⟨0x18000F0, 0, 1, 0x0⟩
def F.RPJ_IER_REPLAY_STOP : Fld := ⟨0x18000F4, 3, 1, 0x0⟩
def F.RPJ_IER_DROP : Fld := ⟨0x18000F4, 2, 1, 0x0⟩
def F.RPJ_IER_EXP_DONE : Fld := ⟨0x18000F4, 1, 1, 0x0⟩
def F.RPJ_IER_CKPT : Fld := ⟨0x18000F4, 0, 1, 0x0⟩
def F.RPJ_ISR_SET_REPLAY_STOP : Fld := ⟨0x18000F8, 3, 1, 0x0⟩
def F.RPJ_ISR_SET_DROP : Fld := ⟨0x18000F8, 2, 1, 0x0⟩
def F.RPJ_ISR_SET_EXP_DONE : Fld := ⟨0x18000F8, 1, 1, 0x0⟩
def F.RPJ_ISR_SET_CKPT : Fld := ⟨0x18000F8, 0, 1, 0x0⟩

/-! ### TLM -/

def F.TLM_CTRL_REBUILD : Fld := ⟨0x1900000, 0, 1, 0x0⟩
def F.TLM_GAUGE_SEQ_SEQ : Fld := ⟨0x1900004, 0, 32, 0x0⟩
def F.TLM_TJ_MAX : Fld := ⟨0x1900008, 16, 16, 0x8000⟩
def F.TLM_TJ_NOW : Fld := ⟨0x1900008, 0, 16, 0x0⟩
def F.TLM_TJ_TURNS_LO_VALUE : Fld := ⟨0x1900010, 0, 32, 0x0⟩
def F.TLM_TJ_TURNS_HI_VALUE : Fld := ⟨0x1900014, 0, 32, 0x0⟩
def F.TLM_TJ_SUM_LO_VALUE : Fld := ⟨0x1900018, 0, 32, 0x0⟩
def F.TLM_TJ_SUM_HI_VALUE : Fld := ⟨0x190001C, 0, 32, 0x0⟩
def F.TLM_TJ_HOT_LO_VALUE : Fld := ⟨0x1900020, 0, 32, 0x0⟩
def F.TLM_TJ_HOT_HI_VALUE : Fld := ⟨0x1900024, 0, 32, 0x0⟩
def F.TLM_TJ_OVER_LO_VALUE : Fld := ⟨0x1900028, 0, 32, 0x0⟩
def F.TLM_TJ_OVER_HI_VALUE : Fld := ⟨0x190002C, 0, 32, 0x0⟩
def F.TLM_TJ_HIST_UNITS (k : Nat) : Fld := ⟨0x1900040 + 0x4 * k, 0, 32, 0x0⟩
def F.TLM_ISR_REBUILT : Fld := ⟨0x19000F0, 3, 1, 0x0⟩
def F.TLM_ISR_OVER : Fld := ⟨0x19000F0, 2, 1, 0x0⟩
def F.TLM_ISR_PROFILE : Fld := ⟨0x19000F0, 1, 1, 0x0⟩
def F.TLM_ISR_GAUGE : Fld := ⟨0x19000F0, 0, 1, 0x0⟩
def F.TLM_IER_REBUILT : Fld := ⟨0x19000F4, 3, 1, 0x0⟩
def F.TLM_IER_OVER : Fld := ⟨0x19000F4, 2, 1, 0x0⟩
def F.TLM_IER_PROFILE : Fld := ⟨0x19000F4, 1, 1, 0x0⟩
def F.TLM_IER_GAUGE : Fld := ⟨0x19000F4, 0, 1, 0x0⟩
def F.TLM_ISR_SET_REBUILT : Fld := ⟨0x19000F8, 3, 1, 0x0⟩
def F.TLM_ISR_SET_OVER : Fld := ⟨0x19000F8, 2, 1, 0x0⟩
def F.TLM_ISR_SET_PROFILE : Fld := ⟨0x19000F8, 1, 1, 0x0⟩
def F.TLM_ISR_SET_GAUGE : Fld := ⟨0x19000F8, 0, 1, 0x0⟩
def F.TLM_SPARE_TOTAL_BLOCKS (i : Nat) : Fld := ⟨0x1900100 + 0x100 * i, 0, 32, 0x0⟩
def F.TLM_BAD_AT_CREATION_BLOCKS (i : Nat) : Fld := ⟨0x1900104 + 0x100 * i, 0, 32, 0x0⟩
def F.TLM_BAD_BLOCKS (i : Nat) : Fld := ⟨0x1900108 + 0x100 * i, 0, 32, 0x0⟩
def F.TLM_SPARE_PCT (i : Nat) : Fld := ⟨0x190010C + 0x100 * i, 0, 7, 0x0⟩
def F.TLM_MOD_WEAR_MAX (m : Nat) : Fld := ⟨0x1901000 + 0x10 * m, 16, 16, 0x0⟩
def F.TLM_MOD_WEAR_AVG (m : Nat) : Fld := ⟨0x1901000 + 0x10 * m, 0, 16, 0x0⟩
def F.TLM_MOD_TEMP_MAX (m : Nat) : Fld := ⟨0x1901004 + 0x10 * m, 8, 8, 0x80⟩
def F.TLM_MOD_TEMP_NOW (m : Nat) : Fld := ⟨0x1901004 + 0x10 * m, 0, 8, 0x0⟩
def F.TLM_MOD_SOFT_COUNT (m : Nat) : Fld := ⟨0x1901008 + 0x10 * m, 0, 32, 0x0⟩
def F.TLM_MOD_ERRS_FAILED (m : Nat) : Fld := ⟨0x190100C + 0x10 * m, 16, 16, 0x0⟩
def F.TLM_MOD_ERRS_RETIRED (m : Nat) : Fld := ⟨0x190100C + 0x10 * m, 0, 16, 0x0⟩

/-! ### IRQ -/

def F.IRQ_PENDING_LINE : Fld := ⟨0x1A00000, 0, 28, 0x0⟩
def F.IRQ_ERR_CORR_BLOCKS : Fld := ⟨0x1A00004, 0, 28, 0x0⟩
def F.IRQ_ERR_DEFER_BLOCKS : Fld := ⟨0x1A00008, 0, 28, 0x0⟩
def F.IRQ_ERR_FATAL_BLOCKS : Fld := ⟨0x1A0000C, 0, 28, 0x0⟩
def F.IRQ_FATAL_TIMER_RUNNING : Fld := ⟨0x1A00010, 31, 1, 0x0⟩
def F.IRQ_FATAL_TIMER_LEFT_NS : Fld := ⟨0x1A00010, 0, 16, 0x0⟩
def F.IRQ_SWAP_HOLDING : Fld := ⟨0x1A00014, 1, 1, 0x0⟩
def F.IRQ_SWAP_SWAP : Fld := ⟨0x1A00014, 0, 1, 0x0⟩
def F.IRQ_ACCESS_ERR_COUNT : Fld := ⟨0x1A00018, 26, 6, 0x0⟩
def F.IRQ_ACCESS_ERR_OFFSET : Fld := ⟨0x1A00018, 0, 26, 0x0⟩
def F.IRQ_ISR_FATAL : Fld := ⟨0x1A000F0, 1, 1, 0x0⟩
def F.IRQ_ISR_ACCESS_ERR : Fld := ⟨0x1A000F0, 0, 1, 0x0⟩
def F.IRQ_IER_FATAL : Fld := ⟨0x1A000F4, 1, 1, 0x0⟩
def F.IRQ_IER_ACCESS_ERR : Fld := ⟨0x1A000F4, 0, 1, 0x0⟩
def F.IRQ_ISR_SET_FATAL : Fld := ⟨0x1A000F8, 1, 1, 0x0⟩
def F.IRQ_ISR_SET_ACCESS_ERR : Fld := ⟨0x1A000F8, 0, 1, 0x0⟩
def F.IRQ_ROUTE_SHADOW (s : Nat) : Fld := ⟨0x1A01000 + 0x4 * s, 8, 8, 0xFF⟩
def F.IRQ_ROUTE_ACTIVE (s : Nat) : Fld := ⟨0x1A01000 + 0x4 * s, 0, 8, 0xFF⟩

/-! ### SNP -/

def F.SNP_CTRL_SEAL_LIMIT : Fld := ⟨0x1B00000, 16, 16, 0x2710⟩
def F.SNP_CTRL_GUARD_NS : Fld := ⟨0x1B00000, 0, 16, 0x1F4⟩
def F.SNP_REGION_BASE_LO_ADDR : Fld := ⟨0x1B00008, 0, 32, 0x0⟩
def F.SNP_REGION_BASE_HI_ADDR : Fld := ⟨0x1B0000C, 0, 32, 0x0⟩
def F.SNP_CMD_START : Fld := ⟨0x1B00010, 31, 1, 0x0⟩
def F.SNP_CMD_BUSY : Fld := ⟨0x1B00010, 30, 1, 0x0⟩
def F.SNP_CMD_FROM_EMPTY : Fld := ⟨0x1B00010, 20, 1, 0x0⟩
def F.SNP_CMD_OP : Fld := ⟨0x1B00010, 16, 4, 0x0⟩
def F.SNP_CMD_COUNT : Fld := ⟨0x1B00010, 0, 16, 0x0⟩
def F.SNP_CMD_ADDR_LO_ADDR : Fld := ⟨0x1B00014, 0, 32, 0x0⟩
def F.SNP_CMD_ADDR_HI_ADDR : Fld := ⟨0x1B00018, 0, 32, 0x0⟩
def F.SNP_CMD_ARG_ARG : Fld := ⟨0x1B0001C, 0, 24, 0x0⟩
def F.SNP_CMD_ARG2_ARG2 : Fld := ⟨0x1B00020, 0, 24, 0x0⟩
def F.SNP_CMD_VALUE_LO_VALUE : Fld := ⟨0x1B00024, 0, 32, 0x0⟩
def F.SNP_CMD_VALUE_HI_VALUE : Fld := ⟨0x1B00028, 0, 32, 0x0⟩
def F.SNP_CMD_RESULT_VALID : Fld := ⟨0x1B0002C, 31, 1, 0x0⟩
def F.SNP_CMD_RESULT_SEEN : Fld := ⟨0x1B0002C, 30, 1, 0x0⟩
def F.SNP_CMD_RESULT_SEQ : Fld := ⟨0x1B0002C, 16, 8, 0x0⟩
def F.SNP_CMD_RESULT_CODE : Fld := ⟨0x1B0002C, 0, 4, 0x0⟩
def F.SNP_DELTA_NEXT_LO_LBA : Fld := ⟨0x1B00030, 0, 32, 0x0⟩
def F.SNP_DELTA_NEXT_HI_LBA : Fld := ⟨0x1B00034, 0, 32, 0x0⟩
def F.SNP_DELTA_WRITTEN_ENTRIES : Fld := ⟨0x1B00038, 0, 16, 0x0⟩
def F.SNP_CUT_RESULT_VALID : Fld := ⟨0x1B00040, 31, 1, 0x0⟩
def F.SNP_CUT_RESULT_SEEN : Fld := ⟨0x1B00040, 30, 1, 0x0⟩
def F.SNP_CUT_RESULT_CODE : Fld := ⟨0x1B00040, 24, 4, 0x0⟩
def F.SNP_CUT_RESULT_SEQ : Fld := ⟨0x1B00040, 16, 8, 0x0⟩
def F.SNP_CUT_RESULT_SET : Fld := ⟨0x1B00040, 0, 16, 0x0⟩
def F.SNP_CUT_SEQ_LO_S_CUT : Fld := ⟨0x1B00044, 0, 32, 0x0⟩
def F.SNP_CUT_SEQ_HI_S_CUT : Fld := ⟨0x1B00048, 0, 32, 0x0⟩
def F.SNP_LINK_EVENTS_AUTH_FAIL : Fld := ⟨0x1B00050, 16, 16, 0x0⟩
def F.SNP_LINK_EVENTS_SEQ_REJECT : Fld := ⟨0x1B00050, 0, 16, 0x0⟩
def F.SNP_ISR_FRACTURED : Fld := ⟨0x1B00070, 5, 1, 0x0⟩
def F.SNP_ISR_AUTH_FAIL : Fld := ⟨0x1B00070, 4, 1, 0x0⟩
def F.SNP_ISR_RX_CUT : Fld := ⟨0x1B00070, 3, 1, 0x0⟩
def F.SNP_ISR_CUT_FAILED : Fld := ⟨0x1B00070, 2, 1, 0x0⟩
def F.SNP_ISR_CUT_DONE : Fld := ⟨0x1B00070, 1, 1, 0x0⟩
def F.SNP_ISR_CMD_DONE : Fld := ⟨0x1B00070, 0, 1, 0x0⟩
def F.SNP_IER_FRACTURED : Fld := ⟨0x1B00074, 5, 1, 0x0⟩
def F.SNP_IER_AUTH_FAIL : Fld := ⟨0x1B00074, 4, 1, 0x0⟩
def F.SNP_IER_RX_CUT : Fld := ⟨0x1B00074, 3, 1, 0x0⟩
def F.SNP_IER_CUT_FAILED : Fld := ⟨0x1B00074, 2, 1, 0x0⟩
def F.SNP_IER_CUT_DONE : Fld := ⟨0x1B00074, 1, 1, 0x0⟩
def F.SNP_IER_CMD_DONE : Fld := ⟨0x1B00074, 0, 1, 0x0⟩
def F.SNP_ISR_SET_FRACTURED : Fld := ⟨0x1B00078, 5, 1, 0x0⟩
def F.SNP_ISR_SET_AUTH_FAIL : Fld := ⟨0x1B00078, 4, 1, 0x0⟩
def F.SNP_ISR_SET_RX_CUT : Fld := ⟨0x1B00078, 3, 1, 0x0⟩
def F.SNP_ISR_SET_CUT_FAILED : Fld := ⟨0x1B00078, 2, 1, 0x0⟩
def F.SNP_ISR_SET_CUT_DONE : Fld := ⟨0x1B00078, 1, 1, 0x0⟩
def F.SNP_ISR_SET_CMD_DONE : Fld := ⟨0x1B00078, 0, 1, 0x0⟩

end Sys2Proof.Machine
end

