-- ==== Sys2Proof/Machine/Operands.lean ====
section
/-! DEFINITION. The forms operands take: little-endian numbers, bit fields, cyclic codes, rounding, and
the serial orders of the links and the lease epochs. -/
namespace Sys2Proof.Machine

/-! ### Bytes and bits -/

/-- The number a run of bytes spells, least significant byte first. -/
def leNat : Bytes → Nat
  | [] => 0
  | b :: r => b.toNat + 256 * leNat r

/-- The low n bytes of a number, least significant first. -/
def leBytes : Nat → Nat → Bytes
  | 0, _ => []
  | n + 1, v => BitVec.ofNat 8 v :: leBytes n (v / 256)

/-- The low n bytes of a number, most significant first. -/
def beBytes (n v : Nat) : Bytes := (leBytes n v).reverse

/-- Bits [hi:lo] of a number. -/
def bits (v hi lo : Nat) : Nat := v / 2 ^ lo % 2 ^ (hi + 1 - lo)

/-- Bit k of a number. -/
def bit (v k : Nat) : Bool := v / 2 ^ k % 2 == 1

/-- A number with bits [hi:lo] replaced. -/
def setBits (v hi lo x : Nat) : Nat :=
  v - bits v hi lo * 2 ^ lo + x % 2 ^ (hi + 1 - lo) * 2 ^ lo

/-- How many of a number's low n bits are set. -/
def popCount : Nat → Nat → Nat
  | 0, _ => 0
  | n + 1, v => v % 2 + popCount n (v / 2)

/-- Zero bytes. -/
def zeros (n : Nat) : Bytes := List.replicate n 0

/-- A 4 KiB block of zeros. -/
def zeroBlock : Bytes := zeros 4096

/-- n bytes from an offset. -/
def slice (b : Bytes) (off n : Nat) : Bytes := (b.drop off).take n

/-- The bytes with a run replaced from an offset. -/
def splice (b : Bytes) (off : Nat) (x : Bytes) : Bytes := b.take off ++ x ++ b.drop (off + x.length)

/-! ### Order -/

/-- Put an element into a sorted list, before those it may stand before. -/
def insertBy {α : Type} (le : α → α → Bool) (x : α) : List α → List α
  | [] => [x]
  | y :: r => if le x y then x :: y :: r else y :: insertBy le x r

/-- A list in an order; equal elements keep their places. -/
def sortBy {α : Type} (le : α → α → Bool) (l : List α) : List α := l.foldr (insertBy le) []

/-! ### Cyclic codes (R101, R165, R190, R399) -/

/-- One bit of a reflected code. -/
def crcBitR (poly c : Nat) : Nat := if c % 2 = 1 then (c / 2) ^^^ poly else c / 2

/-- n bits of a reflected code. -/
def crcBitsR (poly : Nat) : Nat → Nat → Nat
  | 0, c => c
  | n + 1, c => crcBitsR poly n (crcBitR poly c)

/-- A reflected code over bytes. -/
def crcRefl (poly init : Nat) (b : Bytes) : Nat :=
  b.foldl (fun c x => crcBitsR poly 8 (c ^^^ x.toNat)) init

/-- One bit of a code of width w that is not reflected. -/
def crcBitN (w poly c : Nat) : Nat :=
  if c / 2 ^ (w - 1) % 2 = 1 then (c * 2 % 2 ^ w) ^^^ poly else c * 2 % 2 ^ w

def crcBitsN (w poly : Nat) : Nat → Nat → Nat
  | 0, c => c
  | n + 1, c => crcBitsN w poly n (crcBitN w poly c)

/-- A code that is not reflected, over bytes. -/
def crcNorm (w poly init : Nat) (b : Bytes) : Nat :=
  b.foldl (fun c x => crcBitsN w poly 8 (c ^^^ (x.toNat * 2 ^ (w - 8)))) init

/-- The carry guard: the CRC of the NVMe 64-bit guard (R101). -/
def carryGuard (b : Bytes) : Nat :=
  crcRefl 0x9A6C9329AC4BC9B5 0xFFFFFFFFFFFFFFFF b ^^^ 0xFFFFFFFFFFFFFFFF

/-- CRC-32C. -/
def crc32c (b : Bytes) : Nat := crcRefl 0x82F63B78 0xFFFFFFFF b ^^^ 0xFFFFFFFF

/-- CRC-16 of the TURN frame (R399). -/
def crc16 (b : Bytes) : Nat := crcNorm 16 0x1021 0xFFFF b

/-- CRC-8 of the map entries and pointers (R165). -/
def crc8 (b : Bytes) : Nat := crcNorm 8 0x07 0 b

/-- The CRC-8 of a 64-bit entry: over its bits [63:8] (R165). -/
def entryCrc (e : Nat) : Nat := crc8 (leBytes 7 (e / 256))

/-! ### Rounding (R241) -/

/-- x / d rounded to the nearest integer, ties to even. -/
def roundEven (x : Int) (d : Nat) : Int :=
  let q := x.fdiv d
  let r := x - q * d
  if 2 * r < d then q else if 2 * r > d then q + 1 else if q % 2 = 0 then q else q + 1

/-- x / d rounded up. -/
def ceilDiv (x d : Nat) : Nat := (x + d - 1) / d

/-- Floor of log2, 0 for 0. -/
def ilog2 (n : Nat) : Nat := Nat.log2 n

/-- A value held between two bounds. -/
def clampInt (x lo hi : Int) : Int := max lo (min hi x)

/-- A w-bit field read as a signed number. -/
def signed (w v : Nat) : Int := if 2 ^ (w - 1) ≤ v % 2 ^ w then (v % 2 ^ w : Int) - 2 ^ w else (v % 2 ^ w : Int)

/-- The w-bit field of a signed number. -/
def unsigned (w : Nat) (x : Int) : Nat := (x % (2 ^ w : Int)).toNat

/-! ### Serial orders (R22, R81) -/

/-- The lease epoch after e: 0xFFFF is followed by 0x0001 (R22). -/
def epochNext (e : Nat) : Nat := if e % 0x10000 = 0xFFFF then 1 else e % 0x10000 + 1

/-- Is epoch e greater than the held epoch h, in the serial order of R22? A half with no epoch
(0x0000) is exceeded by every epoch. -/
def epochGreater (e h : Nat) : Bool :=
  h = 0 || (let d := (e + 0x10000 - h) % 0x10000; decide (1 ≤ d) && decide (d ≤ 32767))

/-- The greater of two epochs. -/
def epochMax (a b : Nat) : Nat := if a = 0 then b else if b = 0 then a else if epochGreater a b then a else b

/-- The distance from one 12-bit link SEQ to a later one. -/
def seqDist (from_ tgt : Nat) : Nat := (tgt + 4096 - from_) % 4096

end Sys2Proof.Machine
end

