-- ==== Sys2Proof/Config.lean ====
section
/-! DEFINITION. What an implementation fixes and the values the spec leaves open. -/
namespace Sys2Proof

/-- A value the spec leaves open, by the number of the draw (log entry 3): nothing constrains it. -/
opaque Config.freeValue : Nat → Nat

/-- The set of the hot-map cache, of 32,768, that holds a line, by instance, volume and LBA >> 3: the spec gives no rule
(log entry 182). -/
opaque Config.hotSet : Nat → Nat → Nat → Nat

/-- The base matrix of the LDPC code, by block row and block column: the shift of the circulant that stands there, or none. It
is ROM data the spec does not give (R235; log entry 186). -/
opaque Config.ldpcShift : Nat → Nat → Option (Fin 256)

/-- The parity bits of an information part, by the encoder of that code (R235; log entry 186). -/
opaque Config.ldpcParity : List (BitVec 8) → BitVec 3072

end Sys2Proof
end

