-- ==== Sys2Proof/Machine/Store.lean ====
section
/-! DEFINITION. Keyed tables as sorted lists: the one form in which registers, memory and every sparse
table of the block are held, so that equal contents are equal data. -/
namespace Sys2Proof.Machine

/-- A table: entries in rising key order, no key twice. -/
abbrev Tbl (α : Type) := List (Nat × α)

/-- The entry under a key. -/
def Tbl.get? {α : Type} : Tbl α → Nat → Option α
  | [], _ => none
  | (k', v) :: r, k => if k = k' then some v else Tbl.get? r k

/-- Write an entry, keeping the order. -/
def Tbl.put {α : Type} : Tbl α → Nat → α → Tbl α
  | [], k, v => [(k, v)]
  | (k', v') :: r, k, v =>
    if k = k' then (k, v) :: r
    else if k < k' then (k, v) :: (k', v') :: r
    else (k', v') :: Tbl.put r k v

/-- Remove a key. -/
def Tbl.del {α : Type} (t : Tbl α) (k : Nat) : Tbl α := t.filter fun p => decide (p.1 ≠ k)

/-- Change the entry under a key, where there is one. -/
def Tbl.modify {α : Type} (t : Tbl α) (k : Nat) (f : α → α) : Tbl α :=
  match t.get? k with
  | some v => t.put k (f v)
  | none => t

/-- Does the table hold the key? -/
def Tbl.has {α : Type} (t : Tbl α) (k : Nat) : Bool := (t.get? k).isSome

/-- The values in key order. -/
def Tbl.vals {α : Type} (t : Tbl α) : List α := t.map (·.2)

/-- The canonical form: keys strictly rising. -/
def Tbl.wf {α : Type} : Tbl α → Bool
  | [] => true
  | [_] => true
  | (k, _) :: (k', v') :: r => decide (k < k') && Tbl.wf ((k', v') :: r)

end Sys2Proof.Machine
end

