-- ==== Sys2Proof/Machine/State.lean ====
section
/-! DEFINITION. The state of the head: every register field of the window, and every piece of state the
chapters of the spec give its engines, rings, tables and links, as plain data. -/
namespace Sys2Proof.Machine

/-! ### Pins and cast-on (01, 02, 23) -/

/-- The pins the head drives or samples (R26, R52, R481, R486, R488). -/
structure Pins where
  /-- PWR_GOOD and RESET_N both high: the head is not OFF. -/
  powered      : Bool := false
  /-- FORFEIT_N driven high. -/
  forfeitOut   : Bool := false
  /-- Partner FORFEIT_N low for 1 us. -/
  partnerLow   : Bool := false
  /-- Partner canister present. -/
  partnerHere  : Bool := false
  /-- SEATED_N high for 1 us. -/
  unseated     : Bool := false
  /-- INPUT_FAIL_N high and VBUS good. -/
  inputGood    : Bool := true
  /-- The head drives the TURN bus. -/
  turnDriven   : Bool := false
  /-- Front-end transmitters on. -/
  portsOn      : Bool := false
  deriving DecidableEq, Repr

/-- One Row of the Pattern: the classes it serves, and per stage (type, engines named, engines active),
an engine being (pool, index) (R105, R107). -/
structure RowStage where
  type   : Nat
  named  : List Nat
  active : List Nat
  queue  : List Nat
  /-- Engines at work, each with its Stitch. -/
  busy   : List (Nat × Nat)
  deriving DecidableEq, Repr

structure RowSt where
  classes : List Nat
  stages  : List RowStage
  /-- No Stitch is admitted: a stage has no engine left, or the Row is being rewired. -/
  stalled : Bool
  deriving DecidableEq, Repr

/-- The Pattern in force, section by section (R43). -/
structure PatternSt where
  ethernet : List Nat := []
  purlX2   : Bool := false
  pcie     : List (Nat × Bool × Nat) := []
  rows     : List RowSt := []
  scratch  : Nat := 0
  motif    : List (List Nat) := []
  repairs  : List Repair := []
  bins     : List Nat := []
  deriving DecidableEq, Repr

/-- Cast-on progress (R52-R59). -/
structure BootSt where
  /-- Straps sampled and waiting in a hold: the lab hold, the JTAG hold or the wait for images. -/
  jtagHold    : Bool := false
  /-- The challenge presented at step 2 (R463). -/
  challenge   : Bytes := []
  imageHold   : Bool := false
  labHold     : Bool := false
  fuses       : Option Fuses := none
  /-- The images that run, by class, and the head firmware of the lifeline set as far as it is known. -/
  run         : Tbl Image := []
  lifeFw      : Option Compat := none
  /-- The boot flash's directory in use (R53), and the repairs the cast-on tests have made (R439). -/
  dir         : Option Directory := none
  tested      : List Repair := []
  /-- The boot chain runs from the lifeline set. -/
  lifeline    : Bool := false
  /-- The self-flush test is on bank power. -/
  testRunning : Bool := false
  /-- 4 KiB test blocks of the self-flush test in staging (R59). -/
  testBlocks  : Nat := 0
  appCores    : Bool := false
  deriving DecidableEq, Repr

/-- A re-pattern that runs or was abandoned (R62-R65). -/
structure RepatSt where
  running  : Bool := false
  version  : Nat := 0
  base     : Nat := 0
  secEpoch : Nat := 0
  bound    : Bool := false
  left     : List ImageSection := []
  applied  : List Nat := []
  /-- Of those applied, how many an abandoned re-pattern had applied before. -/
  before   : Nat := 0
  abandon  : Bool := false
  deriving DecidableEq, Repr

/-! ### Live update (19) -/

/-- A handover step of an update under way (R428, R429, R435): its class and argument, and whether BOUND_OFF was
written. A class 7 step is a bridge's restart. -/
structure UpdStep where
  cls : Nat
  arg : Nat
  off : Bool := false
  deriving DecidableEq, Repr

/-- Live update (R424-R436). -/
structure UpdSt where
  /-- Staged images by class, and where in DRAM each stands. -/
  staged  : Tbl Image := []
  addr    : Tbl Nat := []
  /-- What ran before the first step of each class that a step has changed: the lifeline images and their versions. -/
  old     : Tbl Image := []
  oldVer  : Tbl Nat := []
  step    : Option UpdStep := none
  /-- The module whose FW_STATUS BRIDGE_SEND waits for. -/
  sending : Option Nat := none
  /-- Classes whose staged image passed R426. -/
  checked : List Nat := []
  /-- Clusters whose functions have moved off; Rows, slot groups and modules that have the staged image. -/
  away    : List Nat := []
  rows    : List Nat := []
  groups  : List Nat := []
  mods    : List Nat := []
  /-- The Referee pair runs from the alternate bank; the old bank is kept. -/
  referee : Bool := false
  bankKept : Bool := false
  /-- A frog has occurred since the first step; the turn of the last step; results 0x4 by step. -/
  frogged : Bool := false
  lastStep : Option Nat := none
  fails   : Tbl Nat := []
  deriving DecidableEq, Repr

/-! ### The pair (01) -/

/-- Why a set of lease claims is out (R230, R254). -/
inductive ClaimFor where
  | takeover | rejoin | cold | solo | holdup | reassert
  deriving DecidableEq, Repr

/-- Lease claims outstanding for one half (R22, R230): the epoch claimed, the round, the modules that
have not granted it, and the highest epoch a refusal reported. -/
structure ClaimSt where
  half    : Nat
  epoch   : Nat
  round   : Nat
  waiting : List Nat
  highest : Nat
  for_    : ClaimFor
  /-- The one die of a re-assertion; none where ALL_DIES is set. -/
  dies    : List (Nat × Nat)
  deriving DecidableEq, Repr

/-- Rejoin progress (R37): the survivor's or the joiner's step. -/
structure RejoinSt where
  survivor : Bool
  step     : Nat
  joinA    : Nat
  joinB    : Nat
  lastSeq  : Nat
  lastJseq : Nat
  finalJseq : Option Nat
  /-- The JSEQ that was next in each instance at the join points. -/
  jseqs    : Nat × Nat := (0, 0)
  deriving DecidableEq, Repr

/-- The pair's progress (R14, R32, R37, R40, R41). -/
structure PairSt where
  /-- Takeover: the step of R32 reached, 0 outside takeover. -/
  takeover    : Nat := 0
  /-- Commands of the partner's group are held. -/
  groupHeld   : Bool := false
  claims      : List ClaimSt := []
  rejoin      : Option RejoinSt := none
  readySent   : Bool := false
  readyGot    : Bool := false
  absentSince : Option Nat := none
  /-- Epochs the partner last reported for half 0 and half 1. -/
  partnerEpochs : Nat × Nat := (0, 0)
  partnerBankFailed : Bool := false
  /-- Epochs and holders the bridges last reported: module -> list of (half, epoch, holder, die). -/
  reports     : Tbl (List (Nat × Nat × Nat × Nat)) := []
  /-- ANA state of groups 1 and 2: 0 none, 1 optimized, 2 non-optimized, 3 inaccessible, 4 change. -/
  ana         : Nat × Nat := (0, 0)
  /-- A start from JOINING under way: 1 a cold pair start (R41), 2 a solo start (R40, R41). -/
  starting    : Nat := 0
  /-- In a cold pair start, the home half has been claimed (R41). -/
  coldClaimed : Bool := false
  /-- The epoch each half was last claimed at, granted or not (R22): what the head's own record holds. -/
  claimed     : Nat × Nat := (0, 0)
  deriving DecidableEq, Repr

/-! ### Commit, mirror, staging (03) -/

/-- The states of an own-ring entry (R71); FREE is its absence. -/
inductive EntrySt where
  | reserved | filling | localDone | complete | aborted
  deriving DecidableEq, Repr

/-- One block of an own-ring entry. -/
structure RBlock where
  lba    : Nat
  mask   : Nat
  data   : Bytes
  guard  : Nat
  placed : Bool
  /-- Counted in CMT_DIRTY_BYTES. -/
  dirty  : Bool
  poisoned : Bool
  /-- The partner's copy has been asked for. -/
  refetched : Bool
  /-- A version with a higher number has become COMPLETE. -/
  superseded : Bool := false
  deriving DecidableEq, Repr

/-- An own-ring entry (R71). -/
structure Entry where
  inst    : Nat
  seq     : Nat
  volume  : Nat
  first   : Nat
  count   : Nat
  /-- Its first slot in the own ring. -/
  ownFirst : Nat
  st      : EntrySt
  mirrorFirst : Nat
  mirrored : Bool
  resends : Nat
  writeThrough : Bool
  /-- Written through, it superseded a version that was not yet durable (R93; log entry 170). -/
  covers  : Bool := false
  /-- The completion has been sent. -/
  completed : Bool
  /-- Drained to staging, its slots waiting for the tail. -/
  drained : Bool
  origin  : Origin
  blocks  : List RBlock
  deriving DecidableEq, Repr

/-- A slot of the mirror ring (R72). -/
structure MSlot where
  seq    : Nat
  volume : Nat
  lba    : Nat
  index  : Nat
  mask   : Nat
  data   : Bytes
  guard  : Nat
  good   : Bool
  /-- Drained or aborted: freed when the tail reaches it. -/
  done   : Bool
  deriving DecidableEq, Repr

/-- A mirror entry that is COMPLETE (R72). -/
structure MEntry where
  seq    : Nat
  volume : Nat
  slots  : List Nat
  deriving DecidableEq, Repr

/-- How far a staged block has come towards flash. -/
inductive StgSt where
  | waiting
  | inRow (sid : Nat)
  | durable (cid : Nat)
  | duplicate (cid : Nat)
  | dropped
  | journaled (jseq : Nat)
  | hardened
  deriving DecidableEq, Repr

/-- A staging slot (R91, R95, R167). `mirror` says which pool holds it; `prior` is the entry that was
durable before the block's oldest staged version, `priorUnknown` while its map page is being fetched. A `zero` version is a deallocate kept among them. -/
structure Stg where
  inst   : Nat
  seq    : Nat
  volume : Nat
  lba    : Nat
  data   : Bytes
  guard  : Nat
  mirror : Bool
  superseded : Bool
  poisoned : Bool
  dirty  : Bool
  zero   : Bool
  prior  : Nat
  st     : StgSt
  /-- The sectors it holds: all but in a version adopted from the partner before it is merged. -/
  mask   : Nat := 0xFF
  /-- The block's index within its write: what a refetch names (R80). -/
  index  : Nat := 0
  /-- The content its block has become or was found equal to. -/
  content : Option Nat := none
  deriving DecidableEq, Repr

/-- A range of the commit interlock (R88). -/
structure CommitRange where
  inst   : Nat
  seq    : Nat
  volume : Nat
  lba    : Nat
  count  : Nat
  deriving DecidableEq, Repr

/-- A command that waits at the home head: a read, a flush or a deallocate range (R70, R89, R289). -/
structure Waiting where
  cmd    : HostCmd
  inst   : Nat
  seq    : Nat
  volume : Nat
  lba    : Nat
  count  : Nat
  origin : Origin
  /-- It has been released (R90) and gathers its blocks. -/
  open_  : Bool
  /-- Blocks gathered so far, by offset in the command. -/
  got    : Tbl Bytes
  /-- Sectors from commit SRAM that go over a block still being read: their mask and bytes. -/
  above   : Tbl (Nat × Bytes)
  /-- For a Compare, the host's data once it has arrived. -/
  hostBytes : Option Bytes
  deriving DecidableEq, Repr

/-- A write whose commit is done and whose completion is due (R71, R99). -/
structure Due where
  inst   : Nat
  seq    : Nat
  volume : Nat
  origin : Origin
  ownFirst : Nat
  count  : Nat
  deriving DecidableEq, Repr

/-- A command the head received for its partner's volume and forwarded (R16, R17), or an atomic piece of a write
for which the home head has answered: the sequence number, the own-ring slots and the mirror slots it named. For a
write `blocks` are those that have arrived from the host, for a read `got` those the home head has returned. -/
structure Fwd where
  cmd    : HostCmd
  origin : Origin
  volume : Nat
  lba    : Nat
  count  : Nat
  seq    : Nat
  own    : Nat
  mirrorFirst : Nat
  replied : Bool
  ended  : Bool
  blocks : List RBlock
  got    : Tbl Bytes
  hostBytes : Option Bytes
  /-- GUARD_FAIL and MISSING answers to a piece. -/
  resends : Nat := 0
  deriving DecidableEq, Repr

/-- The rest of a long write, piece by piece, that waits for room (R92, R97). -/
structure PieceWait where
  cmd    : HostCmd
  origin : Origin
  volume : Nat
  lba    : Nat
  count  : Nat
  deriving DecidableEq, Repr

/-- A write-through entry drained and not yet acknowledged: its blocks that are not durable (R99). -/
structure WtWait where
  inst   : Nat
  seq    : Nat
  volume : Nat
  lbas   : List Nat
  origin : Origin
  ownFirst : Nat
  count  : Nat
  covers : Bool := false
  deriving DecidableEq, Repr

/-- Data on its way from a host (R285): the command, the volume, its bytes so far, the logical blocks whose
protection information has been checked, and the mapping blocks placed. -/
structure Xfer where
  origin  : Origin
  cmd     : HostCmd
  volume  : Nat
  home    : Nat
  bytes   : Bytes
  pi      : List PiIn
  checked : Nat
  placed  : Nat
  deriving DecidableEq, Repr

/-- Counts at a turn boundary, for the rates of R296: the turn, the counts of DDP_LOOKUPS, DDP_DUPS, CMP_BYTES_IN and
CMP_STORED_BYTES, and the blocks that have reached CP by level. -/
structure RateSample where
  turn    : Nat := 0
  lookups : Nat := 0
  dups    : Nat := 0
  bytesIn : Nat := 0
  stored  : Nat := 0
  levels  : Tbl Nat := []
  deriving DecidableEq, Repr

inductive HostMsg where
  /-- Read data: its format, the host address and key of its SGL, its bytes and protection information. -/
  | data (queue cid lba lbaf va key : Nat) (data : Bytes) (pi : List PiIn)
  /-- A completion; `first` says that it is a write's. -/
  | cqe (queue cid status : Nat) (first : Bool)
  deriving DecidableEq, Repr

structure CommitSt where
  /-- Own-ring entries in ring order, the oldest first. -/
  own       : List Entry := []
  ownHead   : Nat := 0
  /-- Where the home head allocates next in the partner's mirror ring. -/
  mirrorHead : Nat := 0
  /-- This head's mirror ring. -/
  mslots    : Tbl MSlot := []
  mentries  : List MEntry := []
  mtail     : Nat := 0
  /-- Slots named so far beyond the tail. -/
  staging   : Tbl Stg := []
  interlock : List CommitRange := []
  waiting   : List Waiting := []
  wt        : List WtWait := []
  fwd       : List Fwd := []
  due       : List Due := []
  xfers     : List Xfer := []
  pieces    : List PieceWait := []
  /-- Token buckets for writes and reads, in bytes, and whether write pacing is in force (R297). -/
  bucketW   : Int := 0
  bucketR   : Int := 0
  pacing    : Bool := false
  /-- Mirror slots freed at the tail whose credits have not been returned yet (R73). -/
  creditOwed : Nat := 0
  /-- Forwarded commands that wait at their ordering point, by queue (R16, R87). -/
  fwdIn     : List (Nat × HostCmd) := []
  /-- NVMe/TCP bytes received since the last turn boundary (R300). -/
  tcpIn     : Nat := 0
  /-- NVMe/TCP bytes sent since the last turn boundary, those above an earlier turn's share included; and what waits for
  its share, each with its bytes of data. -/
  tcpOut    : Nat := 0
  tcpHeld   : List (Nat × HostMsg) := []
  /-- TCP queues whose connection a header digest failure has ended (R300); firmware frees them. -/
  tcpEnded  : List Nat := []
  /-- A write has been held since the last turn boundary (CMT_ISR.HELD_LONG). -/
  heldTurn  : Bool := false
  /-- Counts at the last turn boundaries, the oldest first. -/
  samples   : List RateSample := []
  refetch   : Tbl (Nat × Nat × Nat) := []
  token     : Nat := 0
  /-- Last commit sequence number given, per instance. -/
  lastSeq   : Nat × Nat := (0, 0)
  /-- Hardened horizon per instance. -/
  horizon   : Nat × Nat := (0, 0)
  goodTurns : Nat := 0
  turnGood  : Bool := true
  /-- Drain is stopped (R171, R177, R179, R194). -/
  drainStop : Bool := false
  deriving DecidableEq, Repr

/-! ### Efmo (03) -/

/-- One end of a link of sequenced frames: the flits of Efmo (R74-R83) and the frames of Purl (R217-R221). -/
structure LinkSt where
  /-- Last SEQ sent, last SEQ acknowledged, last SEQ received in order. -/
  txSeq     : Nat := 0
  ackSeq    : Nat := 0
  rxSeq     : Nat := 0
  replayFails : Nat := 0
  /-- A frame has been discarded: later DATA frames are, until the replay. -/
  discarding : Bool := false
  /-- Bytes of messages that wait, by channel or class. -/
  queues    : Tbl Bytes := []
  /-- The last DATA frames sent, kept for replay: SEQ, channel, payload; the oldest first. -/
  replay    : List (Nat × Nat × Bytes) := []
  /-- Frame slots used; those used, and of them those given to the data channel, while that has had data. -/
  slots     : Nat := 0
  busy      : Nat := 0
  given     : Nat := 0
  /-- Receive-buffer credits held by channel, and those owed to the other end. -/
  credits   : Tbl Nat := []
  owed      : Tbl Nat := []
  /-- The scramblers of the transmit lanes, by physical lane. -/
  scramblers : List Nat := []
  /-- FEC-corrected bytes by lane in the window of 2^20 frames under way, and the frames in it. -/
  corrected : Tbl Nat := []
  window    : Nat := 0
  deriving DecidableEq, Repr

structure EfmoSt where
  link      : LinkSt := {}
  /-- Of what the head has sent, how much has been packed into flits. -/
  packed    : Nat := 0
  /-- Lane switches to come (R83): the SEQ, the logical lane, the spare; of the transmitter and of the receiver. -/
  txSwitch  : List (Nat × Nat × Nat) := []
  rxSwitch  : List (Nat × Nat × Nat) := []
  /-- The version floors the partner reported in the parameter exchange, by class. -/
  floors    : List Nat := []
  /-- Training: the step under way, 0 when none. -/
  training  : Nat := 0
  fenced    : Bool := false
  idRetryAt : Option Nat := none
  heartbeat : Nat := 0
  /-- Logical lane -> physical lane, both directions. -/
  txLanes   : List Nat := []
  rxLanes   : List Nat := []
  txBad     : List Nat := []
  rxBad     : List Nat := []
  deriving DecidableEq, Repr

/-! ### The map, superblocks, journal (07, 08) -/

/-- The write-back of a cached page (R175, R178). -/
inductive WbSt where
  | none
  | chosen
  | inFlight
  deriving DecidableEq, Repr

/-- A page of a tree in the map-page cache: its 512 words (a word not listed is zero). `loc` is the
address of its flash image, zero while it has none. -/
structure MapPage where
  inst   : Nat
  tree   : Nat
  ident  : Nat
  level  : Nat
  loc    : Nat
  words  : Tbl Nat
  dirty  : Bool
  /-- JSEQ that first dirtied it since it was last written. -/
  dirtyJseq : Nat
  wb     : WbSt
  /-- Changed while its write-back is in flight, and the JSEQ that first did so. -/
  again  : Bool
  againJseq : Nat := 0
  deriving DecidableEq, Repr

/-- What waits for a lookup: a block of a waiting read, or a Stitch. -/
inductive Asker where
  | read (inst seq lba : Nat)
  | stitch (sid : Nat)
  deriving DecidableEq, Repr

/-- A page of a tree that reclaim has copied: its POINTER record is journaled under a JSEQ, and until that group hardens the
pointer names the source (R203). -/
structure PageMove where
  jseq  : Nat
  inst  : Nat
  tree  : Nat
  level : Nat
  ident : Nat
  old   : Nat
  new   : Nat
  deriving DecidableEq, Repr

/-- A change that waits for a page: an entry to install, a Content Record to write, a reference to drop, a
lookup, or a POINTER record of a replay. -/
inductive PageOp where
  | entry (volume lba lme seq jseq : Nat)
  | setRecord (cid record jseq : Nat)
  | dec (cid : Nat)
  | look (a : Asker)
  | pointer (slot ident ptr jseq : Nat)
  /-- A record of a hardened group of the head's own, or of one that another head journaled or replay reads. -/
  | own (jseq : Nat) (r : JRec)
  | foreign (jseq : Nat) (r : JRec)
  /-- A block programmed at an address of a superblock; a PENDING record given up; a poison block to write. -/
  | placed (sb cid addr slot n : Nat)
  | unplace (cid : Nat)
  | poison (sb cid : Nat)
  /-- A page copied by reclaim whose group has hardened. -/
  | pageMoved (m : PageMove)
  /-- The same once its copy is programmed. -/
  | pageCopied (tree level ident old new : Nat)
  deriving DecidableEq, Repr

/-- A page fetch in flight with the changes and lookups that wait on it, in order (R178). -/
structure PageFetch where
  inst    : Nat
  tree    : Nat
  level   : Nat
  ident   : Nat
  loc     : Nat
  ops     : List PageOp
  rebuilt : Bool
  /-- Where the page may have been written by another volume: the page index at its level, all that is checked (R262). -/
  index   : Option Nat := none
  /-- The budget its read draws on: 6 for foreground. -/
  budget  : Nat := 6
  deriving DecidableEq, Repr

/-- A split request that is not done (R171). -/
structure SplitReq where
  index  : Nat
  volume : Nat
  level  : Nat
  page   : Nat
  ops    : List PageOp
  /-- A sweep waits for it (R261). -/
  sweep  : Bool := false
  deriving DecidableEq, Repr

/-- A metadata command that runs (FTL_MCMD): its OP, instance and page, and the JSEQs that were next at its start. -/
structure McmdSt where
  op    : Nat
  inst  : Nat
  index : Nat
  upTo  : Nat × Nat
  deriving DecidableEq, Repr

structure MapSt where
  /-- The most recently used first. -/
  pages   : List MapPage := []
  fetches : List PageFetch := []
  /-- Fetches that wait for one of MISS_MAX. -/
  misses  : List PageFetch := []
  splits  : List SplitReq := []
  /-- Hot-map lines (inst, volume, LBA >> 3), the most recently used first. -/
  hot     : List (Nat × Nat × Nat) := []
  /-- Pages lost under R173: (inst, tree, level, ident). -/
  lost    : List (Nat × Nat × Nat × Nat) := []
  /-- Roots of the content, index and object trees: key inst x 16 + TREE. -/
  roots   : Tbl Nat := []
  /-- Free-id ring head and tail of each instance, counted without wrap. -/
  cidHead : Nat × Nat := (0, 0)
  cidTail : Nat × Nat := (0, 0)
  /-- Ids whose freeing is journaled and not hardened: (id, ID_GEN, JSEQ). -/
  freeing : List (Nat × Nat × Nat) := []
  mcmd    : Option McmdSt := none
  deriving DecidableEq, Repr

/-- What a run of slots of an open superblock holds: a drained block with its staging slot, a copy of
a relocated block, a page of a tree, a journal page, a poison block, or a received block of replication. -/
inductive Item where
  | drained (cid stg : Nat)
  | moved (cid idGen old : Nat)
  | page (inst tree level ident old : Nat)
  /-- A page of a tree that reclaim copies. -/
  | movedPage (inst tree level ident old : Nat)
  | jpage (inst jpage : Nat)
  | poison (cid idGen old : Nat)
  | received (cid link seq index : Nat)
  deriving DecidableEq, Repr

/-- An item on its way into a superblock: the instance and stream, the slots it takes, its payload and
its slot headers. -/
structure ToPlace where
  inst    : Nat
  stream  : Nat
  need    : Nat
  item    : Item
  payload : Bytes
  headers : Bytes
  deriving DecidableEq, Repr

/-- An item with its place: stripe, data codeword, slot offset. -/
structure Placed where
  stripe : Nat
  cw     : Nat
  slot   : Nat
  what   : ToPlace
  deriving DecidableEq, Repr

/-- One program unit (a page, or a QLC wordline) of a superblock whose programs are out (R192, R247). -/
structure ProgUnit where
  unit   : Nat
  good   : List Nat
  issued : List Nat
  items  : List Placed
  deriving DecidableEq, Repr

/-- An open superblock (R181, R182): the stripe, codeword and slot the next item goes to, the items of
the program unit being filled, the codewords filled so far by stripe x 32 + codeword, and the units
whose programs are out. -/
structure OpenSb where
  sb      : Nat
  inst    : Nat
  stream  : Nat
  mode    : Nat
  k       : Nat
  m       : Nat
  members : List Nat
  stripe  : Nat
  cw      : Nat
  slots   : Nat
  items   : List Placed
  cws     : Tbl Bytes
  units   : List ProgUnit
  /-- Program units per member block. -/
  total   : Nat
  deriving DecidableEq, Repr

/-- A record group the head has built (R189-R192), not yet hardened: the last of its journal pages. -/
structure GroupSt where
  jseq  : Nat
  recs  : List JRec
  last  : Nat
  deriving DecidableEq, Repr

/-- Journal state of one instance (R189-R197). -/
structure JnlSt where
  nextJseq  : Nat := 1
  nextPage  : Nat := 1
  groups    : List GroupSt := []
  /-- Journal pages programmed good, above those of the unbroken run up to `goodTo`. -/
  good      : List Nat := []
  goodTo    : Nat := 0
  /-- The data of the journal page under fill, and FIRST of it, 0xFFFF while no group starts in it. -/
  fill      : Bytes := []
  fillFirst : Nat := 0xFFFF
  /-- Live journal pages: (jpage, highest JSEQ with a part in it, address, 0 while not programmed). -/
  pages     : List (Nat × Nat × Nat) := []
  /-- Groups mirrored from the partner (R193). -/
  mirrored  : List JGroup := []
  partnerTail : Nat := 0
  /-- The anchor: current block, next page of each block, sequence, the tail and journal page last anchored, the turn. -/
  anchorCur  : Nat := 0
  anchorNext : Nat × Nat := (0, 0)
  anchorSeq  : Nat := 0
  anchorTail : Nat := 0
  anchorPage : Nat := 0
  anchorTurn : Nat := 0
  anchorFull : Bool := false
  /-- Anchor pages under program that have not returned: (which block, its bytes). -/
  anchorOut  : List (Nat × Bytes) := []
  /-- An anchor block being erased, and the hold-up record of the anchor page that goes into it then. -/
  anchorWait : Option (Nat × Bytes) := none
  /-- Replay: 0 none, 1 running, 2 the partner is asked, 3 held at a gap, 4 done (R197). -/
  replay    : Nat := 0
  lastApplied : Nat := 0
  /-- Record groups are held (R37 step 5, R193). -/
  hold      : Bool := false
  /-- Groups read past the one replay stopped at, and the records it has applied. -/
  rest      : List JGroup := []
  applied   : List JRec := []
  deriving DecidableEq, Repr

/-- A superblock under open check (R209): the checks out, as (member, 0 or 1 for the page read, 2 for a second
erase), and the members erased a second time. -/
structure OpenCheck where
  sb     : Nat
  inst   : Nat
  stream : Nat
  left   : List (Nat × Nat)
  erased : List Nat
  deriving DecidableEq, Repr

structure FtlSt where
  open_   : List OpenSb := []
  /-- Queues: key inst x 8 + stream. The takeover reserve has stream 4 of the partner's instance. -/
  queues  : Tbl (List Nat) := []
  jnl     : JnlSt × JnlSt := ({}, {})
  /-- Superblocks being erased: (superblock, members not yet erased, a member failed). -/
  erasing : List (Nat × List Nat × Bool) := []
  /-- Items that wait for an open superblock of their stream. -/
  toPlace : List ToPlace := []
  /-- Superblocks under open check. -/
  opening : List OpenCheck := []
  /-- Relocations programmed but not hardened: source superblock of each. -/
  moving  : List (Nat × Nat) := []
  pageMoves : List PageMove := []
  /-- Contents whose relocation is to a poison block, and a forced FINISH that waits for such: its superblock, and how
  many it wrote. -/
  poisoning : List Nat := []
  forced  : Option (Nat × Nat) := none
  /-- Blocks last programmed as QLC. -/
  qlc     : List Nat := []
  /-- Debt per (budget x 2^20 + unit), offset by 2^15 (R213). -/
  debts   : Tbl Int := []
  /-- Window position and reclaim slots given, per unit (R215). -/
  windows : Tbl (Nat × Nat) := []
  deriving DecidableEq, Repr

/-! ### Purl and media (09, 10) -/

/-- What an outstanding operation is for. -/
inductive Purpose where
  | program (sb unit member : Nat)
  | anchor (inst which : Nat)
  | anchorErase (inst which : Nat)
  | eraseMember (sb member : Nat)
  | openCheck (sb member which : Nat)
  | openErase (sb member : Nat)
  | claim (half epoch : Nat)
  | paramRead
  | stitchRead (sid : Nat)
  | softRead (sid : Nat)
  | journalRead (inst jpage : Nat)
  | mapRead (inst tree level ident : Nat)
  | indexRead (inst page : Nat)
  | rebuildRead (sb stripe want cw : Nat)
  | rebuildSoft (sb stripe want cw : Nat)
  | calibration (group : Nat)
  | selfTest
  | scrub
  | notice
  | telemetry
  deriving DecidableEq, Repr

/-- An operation queued at a die arbiter or outstanding at a bridge, with the pages a program carries. -/
structure PendOp where
  port    : Nat
  op      : PurlOp
  purpose : Purpose
  data    : List Bytes
  /-- What a read of a soft decode adds to its offsets (R237). -/
  shift   : Int := 0
  deriving DecidableEq, Repr

/-- One module port (R216-R224, R252). -/
structure PortSt where
  link    : LinkSt := {}
  /-- The switch to x1 to come: the SEQ and the good lane (R221). -/
  narrow  : Option (Nat × Nat) := none
  training : Nat := 0
  page    : Option ParamPage := none
  nextTag : Nat := 0
  badLane : Option Nat := none
  awayAt  : Nat := 0
  /-- Latest TEMP of each die with the turn it came (R241). -/
  temps   : Tbl (Int × Nat) := []
  deriving DecidableEq, Repr

/-- A reconstruction under way (R248): the codeword wanted, those asked for and those given up, and the
good ones decoded. -/
structure ReconSt where
  sb      : Nat
  stripe  : Nat
  want    : Nat
  budget  : Nat
  asked   : List Nat
  bad     : List Nat
  good    : Tbl Bytes
  /-- The reads of codewords that LDH could not decode, the centre read first (R237). -/
  soft    : Tbl (List Bytes) := []
  purpose : Purpose
  deriving DecidableEq, Repr

structure MediaSt where
  /-- Of what the head has sent, how much has been packed into Purl frames. -/
  packed   : Nat := 0
  ports    : Tbl PortSt := []
  /-- Work queued at the die arbiters: (budget or 6 for foreground, operation). -/
  queued   : List (Nat × PendOp) := []
  out      : List PendOp := []
  recons   : List ReconSt := []
  /-- Solves of foreground sources since the last for a background one, at most 3 (R251). -/
  solves   : Nat := 0
  /-- Codewords reconstructed, or found unrecoverable, for what asked for them. -/
  results  : List (Purpose × Option Bytes) := []
  /-- Codeword reads of a member block since its erase (R199), and reconstructions counted to it (R206). -/
  reads    : Tbl Nat := []
  reconsOf : Tbl Nat := []
  /-- Corrected bits per die, key module x 256 + die (R236). -/
  tally    : Tbl Nat := []
  paramDest : Option Nat := none
  holdup   : Bool := false
  deriving DecidableEq, Repr

/-! ### Rows (04) -/

/-- A Stitch (R108) and where it stands. -/
structure Stitch where
  cls     : Nat
  seq     : Nat := 0
  lba     : Nat := 0
  guard   : Nat := 0
  staging : Nat := 0
  volume  : Nat := 0
  domain  : Nat := 0
  level   : Nat := 0
  flags   : Nat := 0
  dict    : Nat := 0
  done    : Nat := 0
  bufIn   : Nat := 0
  bufOut  : Nat := 0
  keySlot : Nat := 0
  stored  : Nat := 0
  slotClass : Nat := 0
  status  : Nat := 0
  errStage : Nat := 0
  retries : Nat := 0
  stripe  : Nat := 0
  cid     : Nat := 0
  fp      : Bytes := []
  cw      : Nat := 0
  slot    : Nat := 0
  gcmSlot : Nat := 0
  hop     : Nat := 0
  stamp   : Nat := 0
  row     : Nat := 0
  /-- The stage type it is in, and the engine that works on it. -/
  stage   : Nat := 0
  engine  : Option Nat := none
  /-- Its engine has finished and holds the output while the next queue is full. -/
  held    : Bool := false
  inst    : Nat := 0
  /-- Its input is at hand; a Stitch that reads flash waits for its codeword. -/
  ready   : Bool := true
  /-- The physical address it reads, and the generation of its content id. -/
  loc     : Nat := 0
  gen     : Nat := 0
  /-- The bytes the next stage takes, and the slot headers that go with a stored form. -/
  data    : Bytes := []
  headers : Bytes := []
  /-- Submitted on the firmware ring. -/
  ring    : Bool := false
  /-- The read it serves: instance and sequence number. -/
  asker   : Option (Nat × Nat) := none
  /-- Parked in a verify slot on a candidate. -/
  parked  : Option Nat := none
  /-- The generation its candidate had when it was parked (R134, R137). -/
  parkedGen : Nat := 0
  /-- The group leader and MODE its volume was bound to at its admission (R416), and whether its block is with the tenant's
  logic. -/
  mt      : Option (Nat × Nat) := none
  mtSent  : Bool := false
  /-- It waits at DX for a content id (R179), with the reason its miss is logged under: 0 for none, 5 where its entry is
  inserted. -/
  waitsCid : Option Nat := none
  /-- It waits for an index page or a content page (R135). -/
  waitsPage : Bool := false
  /-- Re-executions at this stage, and rereads of its first input: 1 from staging, 2 from the partner (R115). -/
  tried   : Nat := 0
  rereads : Nat := 0
  /-- Engines that do not take it again at a stage: (stage, engine) (R115). -/
  avoid   : List (Nat × Nat) := []
  /-- DICT_ID of its domain's map entry as CP's engine found it on taking the Stitch, and whether that dictionary was usable (R149). -/
  cpDict  : Nat × Bool := (0, false)
  /-- The stage whose input has been made again once, failed round trips at CP, and where its reconstruction stands:
  0 none, 1 asked for, 2 at hand. -/
  redone  : Nat := 0
  trips   : Nat := 0
  rebuilt : Nat := 0
  /-- The stage and engine that produced its input, and the input they worked on, kept until this stage
  has passed its check (R115). -/
  producer : Option (Nat × Nat) := none
  kept    : Bytes := []
  keptHeaders : Bytes := []
  /-- For a received frame: link, message and frame index. -/
  frame   : Option (Nat × Nat × Nat) := none
  /-- A stored form of a frame's fields: guard, raw, DICT_TAG, STREAM_LEN. -/
  frameHdr : Option (Nat × Bool × Nat × Nat) := none
  /-- Soft decode stage reached (R237), and the soft reads that have arrived for it. -/
  softStage : Nat := 0
  softReads : List Bytes := []
  /-- The parked Stitch whose candidate it reads (R134); for a parked one, the candidate's plaintext, none
  where its read failed. -/
  verifyFor : Option Nat := none
  cand    : Option (Option Bytes) := none
  deriving DecidableEq, Repr

/-- An engine of a pool (R116): 0 in service, 1 a spare, 2 under test, 3 retired; its faults' turns. -/
structure Engine where
  state  : Nat
  faults : List Nat
  deriving DecidableEq, Repr

/-- A spare under test (R116): its pool and index, the engine it replaces, its Row and stage type. -/
structure SpareTest where
  pool   : Nat
  engine : Nat
  failed : Nat
  row    : Nat
  stage  : Nat
  deriving DecidableEq, Repr

structure RowsSt where
  /-- Stitches in flight, by number. -/
  stitches : Tbl Stitch := []
  nextSid  : Nat := 0
  /-- Stitches the head has built that wait at their source (R111). -/
  waiting  : List Stitch := []
  buffers  : Nat := 4096
  /-- The next ring entry to read, the next completion to write, and its phase. -/
  sqIndex  : Nat := 0
  cqIndex  : Nat := 0
  phase    : Nat := 1
  /-- Engines that are not as at reset, by pool x 256 + index. -/
  engines  : Tbl Engine := []
  testing  : List SpareTest := []
  /-- The spare that stands for an engine, by pool x 256 + index (R116, R118, R439). -/
  subs     : Tbl Nat := []
  /-- Blocks that reached CP, by level (R296). -/
  levels   : Tbl Nat := []
  /-- Class 0x8 only (R119). -/
  holdup   : Bool := false
  /-- Stitches retired whose outcome its source has not yet taken. -/
  retired  : List (Nat × Stitch) := []
  deriving DecidableEq, Repr

/-! ### The dedup index unit (05) -/

/-- A reference batch that runs (R140): the address and number of its descriptors as they stood at its START, the next one and how
many were rejected. -/
structure RefBatch where
  addr   : Nat
  count  : Nat
  next   : Nat
  failed : Nat
  deriving DecidableEq, Repr

/-- A page of the index page cache: its instance and number, whether it has changed since it was last written, and
the address of its flash image, zero while it has none. Its bytes are in DRAM (R130). -/
structure IndexLine where
  inst  : Nat
  page  : Nat
  dirty : Bool
  loc   : Nat
  deriving DecidableEq, Repr

/-- A fetch of an index page: whether its read has been issued, and the address of the image. -/
structure IndexFetch where
  inst   : Nat
  page   : Nat
  issued : Bool
  loc    : Nat
  deriving DecidableEq, Repr

structure DdpSt where
  /-- Cached index pages by cache slot, and the slots in use, the most recently used first. -/
  lines   : Tbl IndexLine := []
  lru     : List Nat := []
  fetches : List IndexFetch := []
  batch   : Option RefBatch := none
  deriving DecidableEq, Repr

/-! ### Keys (15) -/

/-- A loaded key slot (R348); a slot not listed is EMPTY. -/
structure KeySlot where
  key        : Bytes
  exhausted  : Bool
  version    : Nat
  exportable : Bool
  counterIv  : Bool
  limLog2    : Nat
  deriving DecidableEq, Repr

structure SecSt where
  slots    : Tbl KeySlot := []
  /-- Usage counts that are not zero; they survive zeroisation (R365). -/
  counts   : Tbl Nat := []
  /-- Domains whose ENC_PHASE is 1. -/
  phases   : List Nat := []
  zeroised : Bool := false
  /-- Invocation counter of the Referee channel's slot, and the last one accepted (R357). -/
  sentInv  : Nat := 0
  gotInv   : Nat := 0
  /-- A CLEAR that waits for the slot's Stitches to retire. -/
  clearing : Option Nat := none
  /-- Generate requests since the last reseed, its turn, and the turn of the last health failure (R370). -/
  generates : Nat := 0
  failedAt  : Option Nat := none
  /-- Turn up to which a pool runs in dual compute (R369). -/
  dualUntil : Tbl Nat := []
  deriving DecidableEq, Repr

/-! ### Motif slots (18) -/

/-- A block in a group's input queue (R413, R418): its address, its volume, the mode and direction it carries, and the
blocks skipped before it. -/
structure MtBlock where
  lba     : Nat
  volume  : Nat
  mode    : Nat
  dir     : Nat
  skipped : Nat
  data    : Bytes
  deriving DecidableEq, Repr

/-- A slot group that is loaded: its input queue, the blocks skipped since the last one accepted, the XFORM_READ
Stitches that wait for its output, its configuration, and what R423 counts: whether its clock is halved, samples in a row
above its cap, and below 90% of it. -/
structure MtGroup where
  queue   : List MtBlock := []
  skipped : Nat := 0
  xform   : List Nat := []
  config  : Bytes := []
  freq    : Nat := 0
  halved  : Bool := false
  above    : Nat := 0
  under   : Nat := 0
  deriving DecidableEq, Repr

structure MtfSt where
  /-- Groups that are loaded, by leader. -/
  groups    : Tbl MtGroup := []
  /-- The group a LOAD works on, and the volume whose UNBIND waits. -/
  loading   : Option Nat := none
  unbinding : Option Nat := none
  deriving DecidableEq, Repr

/-! ### Turns, replay journal (17, 21) -/

/-- The tracking divider (R402-R405): times on the 1 GHz timebase. -/
structure TrnSt where
  /-- t_last: the last edge, accepted, local or realigned. -/
  lastEdge  : Nat := 0
  /-- The last real edge that was not a glitch. -/
  realEdge  : Option Nat := none
  /-- The last edge was accepted: the next accepted one updates P. -/
  accepted  : Bool := false
  /-- Accepted edges since TRN left OFF. -/
  lockEdges : Nat := 0
  /-- A real edge waits for its frame. -/
  awaiting  : Bool := false
  /-- When HOLDOVER was declared, and when ENABLE was written. -/
  holdAt    : Nat := 0
  enabledAt : Nat := 0
  /-- The count the first edge of a claim carries. -/
  claim     : Option Nat := none
  /-- The count an AHEAD asks for, SKIP_TURNS added. -/
  ahead     : Option Nat := none
  /-- PTP time of an edge that came in UNLOCKED, whose frame has not been checked. -/
  edgePtp   : Nat := 0
  /-- The turn each periodic task last ran (R407). -/
  tasks     : Tbl Nat := []
  deriving DecidableEq, Repr

/-- One event log entry (R462). -/
structure LogEntry where
  stamp    : Nat
  code     : Nat
  block    : Nat
  severity : Nat
  detail   : Nat
  deriving DecidableEq, Repr

structure RpjSt where
  /-- Event log entries written since power-on. -/
  events   : Nat := 0
  log      : Tbl LogEntry := []
  /-- The export counter of R458. -/
  exports  : Nat := 1
  /-- RSEQ has wrapped since power-on. -/
  wrapped  : Bool := false
  /-- Quarters of a record by which the writer is behind, and the first record dropped for it with the records dropped (R455). -/
  behind   : Nat := 0
  gap      : Option (Nat × Nat) := none
  /-- RSEQ of the previous checkpoint of each instance. -/
  lastCkpt : Nat × Nat := (0, 0)
  deriving DecidableEq, Repr

/-! ### The control engine and hold-up (16) -/

/-- A control loop's states (R380, R381): observer, integrator, notch taps u1 u2 w1 w2 with the residue of
its error feedback, the latched output, and a swap that waits for the next sample boundary. -/
structure LoopSt where
  xh    : List Int := [0, 0, 0, 0]
  z     : Int := 0
  taps  : List Int := [0, 0, 0, 0]
  ef    : Int := 0
  out   : Int := 0
  swap  : Bool := false
  deriving DecidableEq, Repr

/-- A capture armed or running (R385): its trigger, samples skipped by DECIM, what it has recorded, the
newest last, and the samples left until it freezes once its trigger has come. -/
structure CapSt where
  trig  : Nat
  skip  : Nat
  words : List (List Nat)
  left  : Option Nat
  deriving DecidableEq, Repr

/-- A probe under way (R388): its step (1 discharging, 2 resting), VBANK before it in µV, the charge taken
in µC, and its ESR sample. -/
structure ProbeSt where
  step    : Nat
  vBefore : Nat
  charge  : Nat
  esr     : Nat
  deriving DecidableEq, Repr

/-- Hold-up (R394, R395). -/
structure HoldSt where
  /-- 0 none, 1 input lost, 2 own data, 3 mirror entries, 4 tail, 5 held in reset. -/
  phase    : Nat := 0
  /-- Input loss by SEATED_N (R486): no Purl operation, no partner signal. -/
  unseated : Bool := false
  /-- Zeroised by an alarm, the flush stopped (R367), or BANK_FAILED at confirmation. -/
  stopped  : Bool := false
  /-- The partner's FLUSHED has come. -/
  partnerFlushed : Bool := false
  /-- The partner forfeited before its FLUSHED; its mirror staging is adopted; energy or reserve cut the flush of its
  entries short. -/
  partnerGone : Bool := false
  adopted  : Bool := false
  cutShort : Bool := false
  /-- Commit sequence numbers of the mirror entries whose flush has started. -/
  started  : List Nat := []
  /-- The anchor page of step 9 is still to be written. -/
  anchorDue : Bool := false
  /-- The stamp of confirmation, and the dirty bytes then. -/
  stamp    : Nat := 0
  dirty    : Nat := 0
  deriving DecidableEq, Repr

structure CtlSt where
  loops   : List LoopSt := [{}, {}, {}, {}]
  /-- The latched phase duty and the four fan duties in force, Q2.29; the time since loop 3 ran, ns. -/
  duty    : Int := 0
  fanTime : Nat := 0
  /-- The latest samples of VBANK, mV, and IBANK, mA, the newest last (at most 16), and of the turn: VBANK, IBANK, VBUS. -/
  vLast   : List (Int × Int) := []
  turnSum : List (Int × Int × Int) := []
  meanI   : Int := 0
  /-- Samples in a row with VBUS low, and with VBANK high. -/
  droop   : Nat := 0
  above    : Nat := 0
  cap     : Option CapSt := none
  /-- The last capture: four signals of up to 4,096 words. -/
  captured : List (List Nat) := []
  prbs    : Nat := 0
  phase   : Nat := 0
  probe   : Option ProbeSt := none
  cSamples : List Nat := []
  esrSamples : List Nat := []
  hold    : HoldSt := {}
  deriving DecidableEq, Repr

/-! ### Spares, ageing, gauges (20) -/

structure HealthSt where
  /-- Spare rows of a macro that are used or failed, and the remap of a row: macro x 65536 + row -> spare. -/
  rowsUsed : Tbl (List Nat) := []
  remap    : Tbl Nat := []
  macrosOut : List Nat := []
  /-- The core a cluster's spare stands for, and cores held in reset by a repair (8 x cluster + core). -/
  coreFor  : Tbl Nat := []
  coreHeld : List Nat := []
  /-- Per rail: when its offset last changed (ns), the turn of its last raise, the last acknowledged STEPS,
  and whether a write waits for its acknowledgement. -/
  changedAt : Tbl Nat := []
  raisedAt : Tbl Nat := []
  acked    : Tbl Nat := []
  waitAck  : List Nat := []
  /-- Least margin of each domain in the window under way. -/
  winMin   : Tbl Nat := []
  /-- Turns of each histogram bin below a unit, and TJ_OVER at the last refresh. -/
  histRem  : Tbl Nat := []
  overSeen : Nat := 0
  /-- Per module: sum of wear units, unretired blocks, greatest wear; and BAD per instance (R449, R450). -/
  wear     : Tbl (Nat × Nat × Nat) := []
  bad      : Nat × Nat := (0, 0)
  /-- Per module since cast-on: codewords through LDS, STATUS 0x05, blocks retired, latest and highest TEMP. -/
  soft     : Tbl Nat := []
  failed   : Tbl Nat := []
  retired  : Tbl Nat := []
  tempNow  : Tbl Int := []
  tempMax  : Tbl Int := []
  deriving DecidableEq, Repr

/-! ### System cache, DRAM, bobbin pools (14) -/

/-- A cached line: its line number (address / 64), dirty or clean; for a dirty one, the bytes DRAM holds. -/
structure CLine where
  line  : Nat
  dirty : Bool
  old   : Bytes
  deriving DecidableEq, Repr

/-- A miss register: the line, its requests in arrival order, and whether its fill has come and waits for a
place. -/
structure MissReg where
  line   : Nat
  reqs   : List MemReq
  filled : Bool
  deriving DecidableEq, Repr

/-- A victim buffer entry: the line, and the bytes DRAM holds. -/
structure Victim where
  line    : Nat
  old     : Bytes
  deriving DecidableEq, Repr

structure SccSt where
  /-- Lines by slice x 2^15 + set x 16 + way. -/
  lines   : Tbl CLine := []
  /-- Tree pseudo-LRU bits by slice x 2^11 + set. -/
  plru    : Tbl Nat := []
  misses  : List MissReg := []
  /-- Requests in the slices' input queues, in order. -/
  waiting : List MemReq := []
  victims : List Victim := []
  /-- Scratchpad bytes that are not zero, by way x 2^22 + offset. -/
  spad    : List Host.Cell := []
  /-- Poisoned lines of memory, and poisoned 8-byte words of the scratchpad (way x 2^19 + word). -/
  poison  : List Nat := []
  spadPoison : List Nat := []
  deriving DecidableEq, Repr

/-- The pools' allocators: the first and last index of each free list (0x3FFFFFF where empty), and the
quarantine list. -/
structure BbmSt where
  head : Tbl Nat := []
  tail : Tbl Nat := []
  quar : Tbl (List Nat) := []
  deriving DecidableEq, Repr

/-! ### RDMA transport (13) -/

/-- A work request sent and not yet complete: its index and opcode, its PSNs, its length and where its data
goes; for a head-generated READ, the host command it serves, with the bytes that have come. -/
structure OutWqe where
  index    : Nat
  op       : Nat
  wrId     : Nat
  first    : Nat
  last     : Nat
  len      : Nat
  signaled : Bool
  laddr    : Nat
  got      : Nat
  host     : Option (Nat × Nat)
  bytes    : Bytes
  pi       : List PiIn
  pkts     : List RocePkt
  deriving DecidableEq, Repr

/-- The message a responder is receiving: its kind, where its next byte goes, the bytes left, its total, and
the receive WQE it took: index and buffer left. -/
structure RxMsg where
  op    : RoceOp
  addr  : Nat
  left  : Nat
  total : Nat
  index : Nat
  rkey  : Nat
  deriving DecidableEq, Repr

/-- A queue pair's context (R306): state 0 created, 1 connected, 2 in error. -/
structure Qp where
  cls      : Nat
  tenant   : Nat
  port     : Nat
  dest     : Nat
  pmtu     : Nat
  retry    : Nat
  rnrRetry : Nat
  sqSize   : Nat
  rqSize   : Nat
  srq      : Nat
  scq      : Nat
  rcq      : Nat
  sqAddr   : Nat
  rqAddr   : Nat
  state    : Nat
  /-- The next PSN sent and the next expected. -/
  sqPsn    : Nat
  rqPsn    : Nat
  sqHead   : Nat := 0
  rqHead   : Nat := 0
  out      : List OutWqe := []
  ackTimeout : Nat := 0
  rnrTimer : Nat := 0
  dscp     : Nat := 0
  prio     : Nat := 0
  sport    : Nat := 0
  destIp   : Bytes := []
  destMac  : Bytes := []
  /-- Messages of the head not started while its priority is paused: is it a write's completion, and the message. -/
  sendQ    : List (Bool × OutWqe) := []
  /-- READs of hosts' data that wait for one of the 16 places. -/
  readQ    : List OutWqe := []
  retriesLeft : Nat
  rnrLeft  : Nat
  rnrWait  : Bool := false
  rx       : Option RxMsg := none
  nakSent  : Bool := false
  /-- The last 16 atomics: PSN and result. -/
  atomics  : List (Nat × Nat) := []
  /-- Request PSNs since the last acknowledgement sent, and the last PSN acknowledged. -/
  unacked  : Nat := 0
  ackedPsn : Nat := 0
  /-- Rate control (R321). -/
  rc       : Nat := 0
  rt       : Nat := 0
  alpha    : Nat := 65536
  steps    : Nat := 0
  cutAt    : Option Nat := none
  cnpAt    : Option Nat := none
  /-- Writes fetched whose completions are not sent (R315): (queue, command identifier). -/
  pins     : List (Nat × Nat) := []
  /-- The turn its tally wait became pending. -/
  tally    : Option Nat := none
  deriving DecidableEq, Repr

/-- A completion queue (R309). `unread` bounds the CQEs its user may not have read. -/
structure Cq where
  cls    : Nat
  tenant : Nat
  addr   : Nat
  size   : Nat
  index  : Nat := 0
  phase  : Nat := 1
  count  : Nat := 0
  unread : Nat := 0
  bad    : Bool := false
  deriving DecidableEq, Repr

structure Srq where
  cls    : Nat
  tenant : Nat
  addr   : Nat
  size   : Nat
  head   : Nat := 0
  deriving DecidableEq, Repr

structure RdtSt where
  qps      : Tbl Qp := []
  cqs      : Tbl Cq := []
  srqs     : Tbl Srq := []
  /-- Contexts cached, the most recently used first; fetches under way, each with the context chosen for
  eviction; write-backs running. -/
  cache    : List Nat := []
  fetching : List (Nat × Option Nat) := []
  writing  : List Nat := []
  /-- Parked packets in arrival order. -/
  parked   : List RdtPkt := []
  /-- Turns of a tenant's QP errors, and the tenants disabled. -/
  errTurns : Tbl (List Nat) := []
  disabled : List Nat := []
  /-- Priorities each port holds paused: a mask; by 8 x port + priority, the turn its time has run out at the latest. -/
  paused   : Tbl Nat := []
  pauseEnd : Tbl Nat := []
  deriving DecidableEq, Repr

/-! ### Snapshots and replication (11) -/

/-- A consistency set armed or under way (R266-R270): its cut list of (volume, snapshot index); `phase` 0 before
the edge, 1 after it, 2 with its POINTER records journaled, which the JSEQs name. -/
structure CutSet where
  id       : Nat
  edge     : Nat
  cuts     : List (Nat × Nat)
  /-- Its arm came from the partner (R266). -/
  mirrored : Bool
  phase    : Nat := 0
  sCut     : Nat × Nat := (0, 0)
  guard    : Bool := false
  jseq     : Nat × Nat := (0, 0)
  deriving DecidableEq, Repr

/-- A commit entry under synchronous replication (R278): its frames by block, and the MSG_SEQ it went out under. -/
structure SyncOut where
  link   : Nat
  inst   : Nat
  seq    : Nat
  volume : Nat
  first  : Nat
  count  : Nat
  frames : Tbl Bytes
  msg    : Option Nat
  origin : Origin
  deriving DecidableEq, Repr

/-- A DATA message of a link being packed, or sent and not acknowledged (R277). -/
structure DataMsg where
  link   : Nat
  seq    : Nat
  volume : Nat
  lba    : Nat
  frames : List Bytes
  deriving DecidableEq, Repr

/-- How far a received frame's block has come (R276). -/
inductive RxSt where
  | waiting
  | inRow
  | programmed (cid : Nat)
  | zero
  | placed (jseq : Nat)
  | hardened
  | authFail
  | corrupt
  deriving DecidableEq, Repr

/-- A DATA message received and not acknowledged. -/
structure RxMsgSt where
  link   : Nat
  seq    : Nat
  volume : Nat
  lba    : Nat
  header : Bytes
  fixed  : Nat
  /-- Each frame's ciphertext and tag, and where it stands. -/
  frames : List (Bytes × Bytes)
  st     : List RxSt
  deriving DecidableEq, Repr

/-- A SWEEP under way: pages to visit, as level, page index and pointer. -/
structure SweepSt where
  volume : Nat
  todo   : List (Nat × Nat × Nat)
  deriving DecidableEq, Repr

structure SnpSt where
  sets    : List CutSet := []
  /-- Installs held above S_cut (R267): instance, JSEQ (0 for one at drain), record. -/
  held    : List (Nat × Nat × JRec) := []
  /-- Completions held under R268. -/
  guarded : List Due := []
  sync    : List SyncOut := []
  /-- Completions that wait for their messages (R278). -/
  syncDue : List Due := []
  packing : List DataMsg := []
  /-- Frames made and not yet packed, by Stitch: link, volume, LBA, frame (R277). -/
  framed  : Tbl (Nat × Nat × Nat × Bytes) := []
  out     : List DataMsg := []
  rx      : List RxMsgSt := []
  /-- DATA and ZERO messages of the set under way, by link. -/
  rxCount : Tbl Nat := []
  /-- Links whose policy fails writes, after a failure (R278). -/
  failing : List Nat := []
  sweep   : Option SweepSt := none
  /-- Volumes walked whose sweep requests firmware has not passed yet. -/
  swept   : List Nat := []
  delta   : Bool := false
  deriving DecidableEq, Repr

/-! ### What the head sends -/

/-- Everything the head sends or drives, in order (log entry 2). -/
inductive Sent where
  /-- Efmo messages, by channel (R77). -/
  | efmoParam (p : ParamMsg)
  | efmoLaneSpare (logical spare seq : Nat)
  | efmoNak (ack : Nat)
  | efmoReplay (first last : Nat)
  /-- A training frame on a physical lane, with the sender's lane map (R84). -/
  | efmoTrainFrame (lane : Nat) (map : List Nat)
  /-- A flit, and a Purl frame, as their lanes carry it: each physical lane's symbols. -/
  | efmoFlit (lanes : List (Nat × List Nat))
  | purlFrame (port : Nat) (lanes : List (Nat × List Nat))
  | efmoMarker (abort : Bool) (m : Marker)
  | efmoAck (a : AckMsg)
  | efmoBlock (b : BlockMsg)
  | efmoForward (queue : Nat) (cmd : HostCmd)
  /-- The home head's reply to a forwarded command: for a write the sequence number and the own-ring and
  mirror slots reserved; with count 0 the command is over with a status. -/
  | efmoSlotReply (queue cid seq own mirror count status : Nat)
  | efmoReadData (queue cid lba : Nat) (data : Bytes) (guard : Nat)
  | efmoGroup (g : JGroup)
  | efmoHorizon (inst horizon tail : Nat)
  | efmoFinalJseq (jseq : Nat)
  | efmoLastSeq (seq jseq : Nat)
  | efmoGapRequest (inst fromJseq : Nat)
  | efmoMissing (inst : Nat) (groups : List JGroup)
  | efmoArm (set turn : Nat) (cuts : List (Nat × Nat))
  | efmoCancelArm (set : Nat)
  | efmoState (m : StateMsg)
  | efmoReady
  | efmoFlushed
  | efmoRefetch (m : RefetchMsg)
  | efmoRefetchReply (m : RefetchMsg) (block : Option BlockMsg)
  /-- Purl (R217-R232). -/
  | purlTrain (port step : Nat)
  /-- The head's side of the parameter exchange (R223 step 6): HEAD_ID, the values of MED_SUSPEND_CFG, its initial credits. -/
  | purlParam (port headId eraseMax progMax guardPct minRun : Nat) (credits : List Nat)
  | purlOp (port : Nat) (op : PurlOp)
  | purlData (port tag page : Nat) (data : Bytes)
  | purlNak (port ack : Nat)
  | purlReplay (port first last : Nat)
  | purlWidth (port seq : Nat)
  /-- Bridge update messages (R434): an image chunk, its length and SHA-256, the restart. -/
  | fwChunk (port off : Nat) (data : Bytes)
  | fwCommit (port length : Nat) (digest : Bytes)
  | fwActivate (port : Nat)
  /-- A register access's read data: requester, offset, value (R469, R470). -/
  | regRead (who off value : Nat)
  /-- An NVMe completion: queue, command, status field, submission queue head. -/
  | cqe (queue cid status sqhd : Nat)
  /-- Read data to a host. -/
  | hostData (queue cid lba : Nat) (data : Bytes) (pi : List PiIn)
  /-- The CRC-32C data digest that goes with read data on a TCP queue (R300). -/
  | tcpDigest (queue cid digest : Nat)
  /-- The end of a TCP queue's connection. -/
  | tcpEnd (queue : Nat)
  /-- An RDMA READ of a write's data from the host's SGL. -/
  | hostRead (queue cid : Nat)
  /-- An ANA change event on every controller of every port (R14). -/
  | anaChange (group state : Nat)
  /-- TURN frame driven, and the bus released (R399, R401). -/
  | turnFrame (w : Nat)
  | turnRelease
  /-- A table message on a system-class queue pair (R410). -/
  | table (qpn : Nat) (m : TableMsg)
  /-- RoCEv2 (R301): request packets, read and atomic responses, acknowledgements, NAKs, CNPs, and a packet of
  the connection management queue pair handed to firmware; a tenant's event. -/
  | roce (p : RocePkt)
  | roceResponse (qpn psn : Nat) (data : Bytes)
  | roceAck (qpn psn : Nat)
  | roceNak (qpn psn : Nat) (k : NakKind)
  /-- An RNR NAK with the queue pair's RNR timer. -/
  | roceRnr (qpn psn timer : Nat)
  | roceCnp (qpn : Nat)
  /-- A replication message on a link's queue pair: its header, its frames with their tags, its own tag (R275). -/
  | replication (link : Nat) (header : Bytes) (frames : List (Bytes × Bytes)) (tag : Bytes)
  | cmPacket (data : Bytes)
  /-- A Referee-channel message that checked, handed to Referee firmware. -/
  | refereeText (data : Bytes)
  | tenantEvent (tenant qpn status : Nat)
  /-- What a memory request, a scratchpad access or a bobbin request answers. -/
  | memData (cls addr : Nat) (data : Bytes) (poisoned : Bool)
  | bobbin (cls tenant handle code : Nat)
  /-- A block delivered to a Motif slot's logic (R413), and what its QP port reads of a completion queue. -/
  | blkIn (leader : Nat) (b : MtBlock)
  | slotCqe (leader cq : Nat) (data : Bytes)
  /-- An SMBus write-word to a regulator (R445). -/
  | smbus (addr cmd value : Nat)
  /-- Ports, links and pins. -/
  | ethTrain (port : Nat)
  | jtagChallenge (challenge : Bytes)
  deriving DecidableEq, Repr

/-! ### Outcomes and the whole state -/

/-- Why a step faults. No command of this block faults: an error raises its flags in the state. -/
inductive Fault where
  /-- Raised by nothing; the type needs a constructor. Safe. -/
  | unused
  deriving DecidableEq, Repr

/-- Why a step is refused. -/
inductive Refusal where
  /-- A command that has no meaning yet, by its mnemonic. Raised by the dispatch alone. Safe. -/
  | notModelled (mnemonic : String)
  deriving DecidableEq, Repr

/-- The whole state of the head. -/
structure State where
  /-- Register fields that are not at their reset value, by key (R468, R476). -/
  cells   : Tbl Nat := []
  /-- DRAM and scratchpad bytes that are not zero (R336; log entry 5). -/
  dram    : List Host.Cell := []
  /-- Pair latches: key 2 x requester for latched reads, 2 x requester + 1 for held _HI writes (R469). -/
  latches : Tbl (Tbl Nat) := []
  /-- Draws of free values so far: the model's own field (log entry 3). -/
  fresh   : Nat := 0
  /-- What the head has sent, oldest first: the model's own record of its outputs (log entry 2). -/
  sent    : List Sent := []
  /-- RoCEv2 packets that wait while their priority is paused: port, priority, packet (R322). -/
  egress  : List (Nat × Nat × Sent) := []
  pins    : Pins := {}
  pattern : PatternSt := {}
  boot    : BootSt := {}
  repat   : RepatSt := {}
  upd     : UpdSt := {}
  pairSt  : PairSt := {}
  commit  : CommitSt := {}
  efmo    : EfmoSt := {}
  rows    : RowsSt := {}
  ddp     : DdpSt := {}
  sec     : SecSt := {}
  mtf     : MtfSt := {}
  scc     : SccSt := {}
  bbm     : BbmSt := {}
  rdt     : RdtSt := {}
  snp     : SnpSt := {}
  ctl     : CtlSt := {}
  health  : HealthSt := {}
  map     : MapSt := {}
  ftl     : FtlSt := {}
  media   : MediaSt := {}
  trn     : TrnSt := {}
  rpj     : RpjSt := {}
  /-- Commands that wait, first in first out. -/
  pending : List Instr := []
  deriving DecidableEq, Repr

/-- The machine right after reset: every register at its reset value, nothing held anywhere, the head
OFF until CAST_ON_START (R56, R470, R476; log entries 4 and 11). -/
def State.reset : State := {}

end Sys2Proof.Machine
end

