-- ==== Sys2Proof/Machine/Mem.lean ====
section
/-! DEFINITION. Memory in its canonical form, and the register fields: reading and writing both. -/
namespace Sys2Proof.Machine

/-- The byte at a physical address (R336): zero where nothing is listed (log entry 5). -/
def memGet (m : List Host.Cell) (a : Nat) : Byte := (Tbl.get? m a).getD 0

/-- Write a byte, keeping the canonical form. -/
def memSet (m : List Host.Cell) (a : Nat) (b : Byte) : List Host.Cell :=
  if b = 0 then Tbl.del m a else Tbl.put m a b

/-- The canonical form of memory: addresses strictly rising, no byte listed that reads as an unlisted one. -/
def Memory.wf (m : List Host.Cell) : Bool := Tbl.wf m && m.all fun p => decide (p.2 ≠ 0)

/-- Write bytes from an address upward. -/
def memWrite (m : List Host.Cell) (a : Nat) : Bytes → List Host.Cell
  | [] => m
  | b :: r => memWrite (memSet m a b) (a + 1) r

/-- n bytes from an address. -/
def memRead (m : List Host.Cell) (a : Nat) : Nat → Bytes
  | 0 => []
  | n + 1 => memGet m a :: memRead m (a + 1) n

/-- The newest bytes at an address. -/
def State.rd (s : State) (a n : Nat) : Bytes := memRead s.dram a n

/-- Write bytes. -/
def State.wr (s : State) (a : Nat) (b : Bytes) : State := { s with dram := memWrite s.dram a b }

/-- An n-byte little-endian number. -/
def State.rdN (s : State) (a n : Nat) : Nat := leNat (s.rd a n)

/-- Write an n-byte little-endian number. -/
def State.wrN (s : State) (a n v : Nat) : State := s.wr a (leBytes n v)

/-- Bits [hi:lo] of the record at a byte address, little-endian. -/
def State.rdBits (s : State) (a hi lo : Nat) : Nat :=
  s.rdN (a + lo / 8) (hi / 8 + 1 - lo / 8) / 2 ^ (lo % 8) % 2 ^ (hi + 1 - lo)

/-- Write bits [hi:lo] of the record at a byte address. -/
def State.wrBits (s : State) (a hi lo v : Nat) : State :=
  let n := hi / 8 + 1 - lo / 8
  s.wrN (a + lo / 8) n (setBits (s.rdN (a + lo / 8) n) (hi - lo / 8 * 8) (lo % 8) v)

/-! ### Fields -/

/-- The key of a field in the register cells: registers are 4-byte aligned, so offset x 8 + low bit
never meets another field's. -/
def Fld.key (f : Fld) : Nat := f.off * 8 + f.lo

/-- The value of a field: its cell, or its reset value where the cells list none. -/
def State.fld (s : State) (f : Fld) : Nat := (s.cells.get? f.key).getD f.reset

/-- The cells with a field written; a field at its reset value is not listed. -/
def cellPut (c : Tbl Nat) (f : Fld) (v : Nat) : Tbl Nat :=
  if v = f.reset then c.del f.key else c.put f.key v

/-- Write a field, truncated to its width. -/
def State.setFld (s : State) (f : Fld) (v : Nat) : State :=
  { s with cells := cellPut s.cells f (v % 2 ^ f.width) }

/-- Is a one-bit field set? -/
def State.flag (s : State) (f : Fld) : Bool := s.fld f != 0

/-- Write a one-bit field. -/
def State.setFlag (s : State) (f : Fld) (b : Bool) : State := s.setFld f (if b then 1 else 0)

/-- Add to a saturating count. -/
def State.inc (s : State) (f : Fld) (n : Nat := 1) : State :=
  s.setFld f (min (s.fld f + n) (2 ^ f.width - 1))

/-- Add to a wrapping count. -/
def State.wrapInc (s : State) (f : Fld) (n : Nat := 1) : State := s.setFld f (s.fld f + n)

/-- A 64-bit value held in a _LO and a _HI field. -/
def State.pair (s : State) (lo hi : Fld) : Nat := s.fld lo + 2 ^ 32 * s.fld hi

/-- Write a 64-bit value into a _LO and a _HI field. -/
def State.setPair (s : State) (lo hi : Fld) (v : Nat) : State :=
  (s.setFld lo (v % 2 ^ 32)).setFld hi (v / 2 ^ 32 % 2 ^ 32)

/-- Add to a 64-bit wrapping count that has no wrap register. -/
def State.incPair (s : State) (lo hi : Fld) (n : Nat := 1) : State :=
  s.setPair lo hi (s.pair lo hi + n)

/-- Add to a 64-bit wrapping count, its wraps counted in a saturating field. -/
def State.count64 (s : State) (lo hi wraps : Fld) (n : Nat := 1) : State :=
  let v := s.pair lo hi + n
  (s.setPair lo hi v).inc wraps (v / 2 ^ 64)

/-- A DRAM base held in a _LO and a _HI field: the low n bits of _LO and bits [31:16] of _HI ignored. -/
def State.base (s : State) (lo hi : Fld) (n : Nat) : Nat :=
  s.fld lo * 2 ^ lo.lo / 2 ^ n * 2 ^ n + 2 ^ 32 * (s.fld hi % 2 ^ 16)

end Sys2Proof.Machine
end

