-- ==== Sys2Proof/Machine/RegTable.lean ====
section
/-! DEFINITION. The register table of the window, block by block (R476): each register's offset, its
instances and the access code of each field (R468). Bits that no row names are reserved. -/
namespace Sys2Proof.Machine

/-- The access codes of R468. -/
inductive Access where
  | RW | RO | WO | W1C | W1P | RWL
  deriving DecidableEq, Repr

/-- One row of the register tables: the offset of its first instance, its dimensions as
(stride, count) with the greater stride first, and the fields of the first instance. -/
structure RegDef where
  off    : Nat
  dims   : List (Nat × Nat)
  fields : List (Fld × Access)
  deriving DecidableEq, Repr

def regRowsGlb0 : List RegDef := [
  ⟨0x0, [], [(F.GLB_IDENTITY_PART, .RO), (F.GLB_IDENTITY_STEP_MAJOR, .RO), (F.GLB_IDENTITY_STEP_MINOR, .RO)]⟩,
  ⟨0x18, [], [(F.GLB_LEASE_EPOCHS_HALF1, .RO), (F.GLB_LEASE_EPOCHS_HALF0, .RO)]⟩,
  ⟨0x10, [], [(F.GLB_PAIR_STATUS_LEASE_EPOCH, .RO), (F.GLB_PAIR_STATUS_SOLO, .RO), (F.GLB_PAIR_STATUS_PARTNER_FORFEIT, .RO), (F.GLB_PAIR_STATUS_PARTNER_PRESENT, .RO), (F.GLB_PAIR_STATUS_EFMO_UP, .RO), (F.GLB_PAIR_STATUS_HEAD_ID, .RO), (F.GLB_PAIR_STATUS_PARTNER_STATE, .RO), (F.GLB_PAIR_STATUS_STATE, .RO)]⟩,
  ⟨0x14, [], [(F.GLB_FORFEIT_FORFEIT, .W1P), (F.GLB_FORFEIT_LAST_CAUSE, .RO), (F.GLB_FORFEIT_CAUSE, .RW)]⟩,
  ⟨0x20, [], [(F.GLB_STRAPS_DEBUG_REQ, .RO), (F.GLB_STRAPS_XSPI_OCTAL, .RO), (F.GLB_STRAPS_BOOT_MODE, .RO), (F.GLB_STRAPS_HEAD_ID, .RO)]⟩,
  ⟨0x48, [], [(F.GLB_SELF_FLUSH_CFG_SIZE_GIB, .RWL)]⟩,
  ⟨0x44, [], [(F.GLB_FLUSH_COST_ENERGY_MJ, .RO), (F.GLB_FLUSH_COST_TIME_US, .RO)]⟩,
  ⟨0x24, [], [(F.GLB_CASTON_STATUS_FAILED, .RO), (F.GLB_CASTON_STATUS_LIFELINE, .RO), (F.GLB_CASTON_STATUS_WRITE_THROUGH, .RO), (F.GLB_CASTON_STATUS_FAIL_CODE, .RO), (F.GLB_CASTON_STATUS_FAIL_STEP, .RO), (F.GLB_CASTON_STATUS_STEP, .RO)]⟩,
  ⟨0x28, [], [(F.GLB_PATTERN_VERSION_VERSION, .RO)]⟩,
  ⟨0x2C, [], [(F.GLB_PATTERN_INFO_SEC_EPOCH, .RO), (F.GLB_PATTERN_INFO_BOUND, .RO), (F.GLB_PATTERN_INFO_REPAIR, .RO), (F.GLB_PATTERN_INFO_PARTIAL, .RO), (F.GLB_PATTERN_INFO_STEPS, .RO)]⟩,
  ⟨0x30, [], [(F.GLB_REPATTERN_ADDR_LO_ADDR_LO, .RW)]⟩,
  ⟨0x34, [], [(F.GLB_REPATTERN_ADDR_HI_ADDR_HI, .RW)]⟩]
def regRowsGlb1 : List RegDef := [
  ⟨0x38, [], [(F.GLB_REPATTERN_LEN_LENGTH, .RW)]⟩,
  ⟨0x3C, [], [(F.GLB_REPATTERN_CTRL_START, .W1P)]⟩,
  ⟨0x40, [], [(F.GLB_REPATTERN_RESULT_VALID, .RO), (F.GLB_REPATTERN_RESULT_SEEN, .RO), (F.GLB_REPATTERN_RESULT_SEQ, .RO), (F.GLB_REPATTERN_RESULT_SECTIONS, .RO), (F.GLB_REPATTERN_RESULT_CODE, .RO)]⟩,
  ⟨0xF0, [], [(F.GLB_ISR_REPATTERN_DONE, .W1C), (F.GLB_ISR_PARTNER, .W1C), (F.GLB_ISR_STATE, .W1C)]⟩,
  ⟨0xF4, [], [(F.GLB_IER_REPATTERN_DONE, .RW), (F.GLB_IER_PARTNER, .RW), (F.GLB_IER_STATE, .RW)]⟩,
  ⟨0xF8, [], [(F.GLB_ISR_SET_REPATTERN_DONE, .W1P), (F.GLB_ISR_SET_PARTNER, .W1P), (F.GLB_ISR_SET_STATE, .W1P)]⟩]
/-- The registers of block GLB (R476). -/
def regRowsGlb : List RegDef := regRowsGlb0 ++ regRowsGlb1

def regRowsCrp0 : List RegDef := [
  ⟨0x100000, [], [(F.CRP_STATUS_MOTIF, .RO), (F.CRP_STATUS_CLUSTER, .RO), (F.CRP_STATUS_PCIE, .RO), (F.CRP_STATUS_FRONT_END, .RO)]⟩,
  ⟨0x1000F0, [], [(F.CRP_ISR_DOMAIN, .W1C)]⟩,
  ⟨0x1000F4, [], [(F.CRP_IER_DOMAIN, .RW)]⟩,
  ⟨0x1000F8, [], [(F.CRP_ISR_SET_DOMAIN, .W1P)]⟩]
/-- The registers of block CRP (R476). -/
def regRowsCrp : List RegDef := regRowsCrp0

def regRowsRpr0 : List RegDef := [
  ⟨0x200000, [], [(F.RPR_CTRL_ROW_CE_LIMIT, .RW), (F.RPR_CTRL_AUTO_ROW, .RW)]⟩,
  ⟨0x200004, [], [(F.RPR_SPARES_MACROS_OUT, .RO), (F.RPR_SPARES_CORE_SPARE, .RO)]⟩,
  ⟨0x200010, [], [(F.RPR_CMD_START, .W1P), (F.RPR_CMD_BUSY, .RO), (F.RPR_CMD_OP, .RW), (F.RPR_CMD_CLUSTER, .RW), (F.RPR_CMD_CORE, .RW)]⟩,
  ⟨0x200014, [], [(F.RPR_RESULT_VALID, .RO), (F.RPR_RESULT_SEEN, .RO), (F.RPR_RESULT_SEQ, .RO), (F.RPR_RESULT_CODE, .RO)]⟩,
  ⟨0x200018, [], [(F.RPR_REC_BASE_LO_ADDR, .RWL)]⟩,
  ⟨0x20001C, [], [(F.RPR_REC_BASE_HI_ADDR, .RWL)]⟩,
  ⟨0x200020, [], [(F.RPR_REC_COUNT_COUNT, .RO)]⟩,
  ⟨0x200040, [(0x4, 3)], [(F.RPR_VADJ_RAIL_EN 0, .RWL), (F.RPR_VADJ_RAIL_ADDR 0, .RWL), (F.RPR_VADJ_RAIL_CMD 0, .RWL)]⟩,
  ⟨0x200050, [(0x4, 3)], [(F.RPR_VADJ_AGE_LIMIT 0, .RO), (F.RPR_VADJ_OFS_MAX 0, .RO), (F.RPR_VADJ_STEPS 0, .RWL)]⟩,
  ⟨0x200060, [], [(F.RPR_MARGIN_CFG_CRIT, .RW), (F.RPR_MARGIN_CFG_LOW, .RW), (F.RPR_MARGIN_CFG_HIGH, .RW)]⟩,
  ⟨0x200070, [(0x4, 5)], [(F.RPR_MARGIN_MIN_LIFE 0, .RO), (F.RPR_MARGIN_MIN_WIN 0, .RO), (F.RPR_MARGIN_NOW 0, .RO)]⟩,
  ⟨0x2000F0, [], [(F.RPR_ISR_CMD_DONE, .W1C), (F.RPR_ISR_VADJ_FAIL, .W1C), (F.RPR_ISR_AGE_LIMIT, .W1C), (F.RPR_ISR_VADJ_UP, .W1C), (F.RPR_ISR_SPARES_OUT, .W1C), (F.RPR_ISR_REPAIRED, .W1C)]⟩]
def regRowsRpr1 : List RegDef := [
  ⟨0x2000F4, [], [(F.RPR_IER_CMD_DONE, .RW), (F.RPR_IER_VADJ_FAIL, .RW), (F.RPR_IER_AGE_LIMIT, .RW), (F.RPR_IER_VADJ_UP, .RW), (F.RPR_IER_SPARES_OUT, .RW), (F.RPR_IER_REPAIRED, .RW)]⟩,
  ⟨0x2000F8, [], [(F.RPR_ISR_SET_CMD_DONE, .W1P), (F.RPR_ISR_SET_VADJ_FAIL, .W1P), (F.RPR_ISR_SET_AGE_LIMIT, .W1P), (F.RPR_ISR_SET_VADJ_UP, .W1P), (F.RPR_ISR_SET_SPARES_OUT, .W1P), (F.RPR_ISR_SET_REPAIRED, .W1P)]⟩]
/-- The registers of block RPR (R476). -/
def regRowsRpr : List RegDef := regRowsRpr0 ++ regRowsRpr1

def regRowsTrn0 : List RegDef := [
  ⟨0x300000, [], [(F.TRN_CTRL_SKIP_TURNS, .RW), (F.TRN_CTRL_PTP_PORT, .RW), (F.TRN_CTRL_SEAT, .RWL), (F.TRN_CTRL_YIELD, .W1P), (F.TRN_CTRL_FP_ELIG, .RW), (F.TRN_CTRL_ENABLE, .RW)]⟩,
  ⟨0x300004, [], [(F.TRN_PERIOD_CFG_PERIOD_US, .RW)]⟩,
  ⟨0x300008, [], [(F.TRN_STATUS_EPOCH, .RO), (F.TRN_STATUS_FP_SEAT, .RO), (F.TRN_STATUS_LOCAL, .RO), (F.TRN_STATUS_STATE, .RO)]⟩,
  ⟨0x300010, [], [(F.TRN_NOW_LO_VALUE, .RO)]⟩,
  ⟨0x300014, [], [(F.TRN_NOW_HI_VALUE, .RO)]⟩,
  ⟨0x300018, [], [(F.TRN_FLOOR_LO_VALUE, .RW)]⟩,
  ⟨0x30001C, [], [(F.TRN_FLOOR_HI_VALUE, .RW)]⟩,
  ⟨0x300020, [], [(F.TRN_EDGE_TURN_LO_VALUE, .RO)]⟩,
  ⟨0x300024, [], [(F.TRN_EDGE_TURN_HI_VALUE, .RO)]⟩,
  ⟨0x300028, [], [(F.TRN_EDGE_PTP_LO_VALUE, .RO)]⟩,
  ⟨0x30002C, [], [(F.TRN_EDGE_PTP_HI_VALUE, .RO)]⟩,
  ⟨0x300030, [], [(F.TRN_PERIOD_EST_P, .RO)]⟩]
def regRowsTrn1 : List RegDef := [
  ⟨0x300038, [], [(F.TRN_EVENTS_JUMPS, .RO), (F.TRN_EVENTS_REJECTS, .RO), (F.TRN_EVENTS_FRAME_ERR, .RO), (F.TRN_EVENTS_GLITCH, .RO)]⟩,
  ⟨0x30003C, [], [(F.TRN_SCHED_FIRED_FIRED, .W1C)]⟩,
  ⟨0x300070, [], [(F.TRN_ISR_SCHED, .W1C), (F.TRN_ISR_REJECT, .W1C), (F.TRN_ISR_JUMP, .W1C), (F.TRN_ISR_FP_CHANGE, .W1C), (F.TRN_ISR_BECAME_FIRST, .W1C), (F.TRN_ISR_HOLDOVER, .W1C), (F.TRN_ISR_LOCKED, .W1C)]⟩,
  ⟨0x300074, [], [(F.TRN_IER_SCHED, .RW), (F.TRN_IER_REJECT, .RW), (F.TRN_IER_JUMP, .RW), (F.TRN_IER_FP_CHANGE, .RW), (F.TRN_IER_BECAME_FIRST, .RW), (F.TRN_IER_HOLDOVER, .RW), (F.TRN_IER_LOCKED, .RW)]⟩,
  ⟨0x300078, [], [(F.TRN_ISR_SET_SCHED, .W1P), (F.TRN_ISR_SET_REJECT, .W1P), (F.TRN_ISR_SET_JUMP, .W1P), (F.TRN_ISR_SET_FP_CHANGE, .W1P), (F.TRN_ISR_SET_BECAME_FIRST, .W1P), (F.TRN_ISR_SET_HOLDOVER, .W1P), (F.TRN_ISR_SET_LOCKED, .W1P)]⟩,
  ⟨0x300080, [(0x4, 8)], [(F.TRN_PEER_VALID 0, .RW), (F.TRN_PEER_QPN 0, .RW)]⟩,
  ⟨0x300100, [(0x10, 16)], [(F.TRN_SCHED_TARGET_LO_STAMP 0, .RW)]⟩,
  ⟨0x300104, [(0x10, 16)], [(F.TRN_SCHED_TARGET_HI_STAMP 0, .RW)]⟩,
  ⟨0x300108, [(0x10, 16)], [(F.TRN_SCHED_CFG_EN 0, .RW), (F.TRN_SCHED_CFG_LATE 0, .RO), (F.TRN_SCHED_CFG_MISSED 0, .RO), (F.TRN_SCHED_CFG_PERIOD 0, .RW)]⟩]
/-- The registers of block TRN (R476). -/
def regRowsTrn : List RegDef := regRowsTrn0 ++ regRowsTrn1

def regRowsCtl0 : List RegDef := [
  ⟨0x400000, [], [(F.CTL_CTRL_PROBE_EN, .RW), (F.CTL_CTRL_ENABLE, .RWL)]⟩,
  ⟨0x400004, [], [(F.CTL_STATUS_BANK_CAUSE, .RO), (F.CTL_STATUS_SHORT_PREDICTED, .RO), (F.CTL_STATUS_SOLO_COST, .RO), (F.CTL_STATUS_BANK_FAILED, .RO), (F.CTL_STATUS_INPUT_GOOD, .RO), (F.CTL_STATUS_MODE, .RO)]⟩,
  ⟨0x400010, [], [(F.CTL_CONV_CFG_VBANK_SET, .RW), (F.CTL_CONV_CFG_VBUS_HU_SET, .RW)]⟩,
  ⟨0x400014, [], [(F.CTL_CONV_CFG2_I_CHG, .RW), (F.CTL_CONV_CFG2_I_PROBE, .RW), (F.CTL_CONV_CFG2_RIDE_US, .RW), (F.CTL_CONV_CFG2_DET_PCT, .RW)]⟩,
  ⟨0x400018, [], [(F.CTL_PROBE_CFG_PROBE_TURNS, .RW), (F.CTL_PROBE_CFG_PROBE_US, .RW)]⟩,
  ⟨0x40001C, [], [(F.CTL_BANK_LIMITS_C_FAIL, .RWL), (F.CTL_BANK_LIMITS_ESR_FAIL, .RWL)]⟩,
  ⟨0x400020, [], [(F.CTL_LEDGER_CFG_VMIN_MV, .RWL), (F.CTL_LEDGER_CFG_VTOL_MV, .RW)]⟩,
  ⟨0x400024, [], [(F.CTL_LEDGER_CFG2_P_HU_W, .RW), (F.CTL_LEDGER_CFG2_SOLO_PCT, .RW)]⟩,
  ⟨0x400028, [], [(F.CTL_LEDGER_RESERVE_RESERVE_MJ, .RW)]⟩,
  ⟨0x400030, [], [(F.CTL_BANK_V_VBANK_MV, .RO), (F.CTL_BANK_V_VBUS_MV, .RO)]⟩,
  ⟨0x400034, [], [(F.CTL_BANK_C_MEAN_UF, .RO)]⟩,
  ⟨0x400038, [], [(F.CTL_BANK_C_LOW_UF, .RO)]⟩]
def regRowsCtl1 : List RegDef := [
  ⟨0x40003C, [], [(F.CTL_BANK_ESR_HIGH_UO, .RO), (F.CTL_BANK_ESR_MEAN_UO, .RO)]⟩,
  ⟨0x400040, [], [(F.CTL_BANK_SAMPLES_PROBES, .RO), (F.CTL_BANK_SAMPLES_N_ESR, .RO), (F.CTL_BANK_SAMPLES_N, .RO)]⟩,
  ⟨0x400044, [], [(F.CTL_LEDGER_E_LO_UJ, .RO)]⟩,
  ⟨0x400048, [], [(F.CTL_LEDGER_E_HI_UJ, .RO)]⟩,
  ⟨0x40004C, [], [(F.CTL_ETA_ETA, .RO)]⟩,
  ⟨0x400050, [], [(F.CTL_PWM_CFG_PERIOD_NS, .RWL), (F.CTL_PWM_CFG_DEADTIME_NS, .RWL)]⟩,
  ⟨0x400054, [], [(F.CTL_FAN_CFG_SENSOR_MASK, .RW), (F.CTL_FAN_CFG_MIN_DUTY, .RW)]⟩,
  ⟨0x400060, [(0x4, 4)], [(F.CTL_FAN_TACH_RPM 0, .RO), (F.CTL_FAN_DUTY 0, .RO)]⟩,
  ⟨0x400080, [], [(F.CTL_INJ_CFG_EN, .RW), (F.CTL_INJ_CFG_LOOP, .RW), (F.CTL_INJ_CFG_POINT, .RW), (F.CTL_INJ_CFG_WAVE, .RW)]⟩,
  ⟨0x400084, [], [(F.CTL_INJ_AMP_VALUE, .RW)]⟩,
  ⟨0x400088, [], [(F.CTL_INJ_FREQ_VALUE, .RW)]⟩,
  ⟨0x40008C, [], [(F.CTL_INJ_MAX_VALUE, .RWL)]⟩]
def regRowsCtl2 : List RegDef := [
  ⟨0x400090, [], [(F.CTL_CAP_CFG_START, .W1P), (F.CTL_CAP_CFG_BUSY, .RO), (F.CTL_CAP_CFG_TRIG, .RW), (F.CTL_CAP_CFG_DECIM, .RW), (F.CTL_CAP_CFG_SEL, .RW)]⟩,
  ⟨0x400094, [], [(F.CTL_CAP_RESULT_VALID, .RO), (F.CTL_CAP_RESULT_SEEN, .RO), (F.CTL_CAP_RESULT_SEQ, .RO), (F.CTL_CAP_RESULT_CODE, .RO)]⟩,
  ⟨0x400104, [(0x10, 4)], [(F.CTL_LOOP_RESULT_VALID 0, .RO), (F.CTL_LOOP_RESULT_SEEN 0, .RO), (F.CTL_LOOP_RESULT_SEQ 0, .RO), (F.CTL_LOOP_RESULT_CODE 0, .RO)]⟩,
  ⟨0x4000A0, [], [(F.CTL_HU_LAST_KIND, .RO), (F.CTL_HU_LAST_MARGIN_J, .RO)]⟩,
  ⟨0x4000A4, [], [(F.CTL_EVENTS_RIDES, .RO), (F.CTL_EVENTS_ACTIVE_WRITE, .RO), (F.CTL_EVENTS_WRITE_REFUSED, .RO)]⟩,
  ⟨0x400100, [(0x10, 4)], [(F.CTL_LOOP_CTRL_SWAP 0, .W1P), (F.CTL_LOOP_CTRL_RESET_STATES 0, .RW), (F.CTL_LOOP_CTRL_ACTIVE_BANK 0, .RO), (F.CTL_LOOP_CTRL_ENABLE 0, .RW)]⟩,
  ⟨0x400108, [(0x10, 4)], [(F.CTL_LOOP_SAT_OUT_SAT 0, .RO), (F.CTL_LOOP_SAT_STATE_SAT 0, .RO)]⟩,
  ⟨0x400200, [(0x10, 16)], [(F.CTL_ADC_OFS_VALUE 0, .RO)]⟩,
  ⟨0x400204, [(0x10, 16)], [(F.CTL_ADC_GAIN_VALUE 0, .RO)]⟩,
  ⟨0x400208, [(0x10, 16)], [(F.CTL_ADC_OFS0_VALUE 0, .RO)]⟩,
  ⟨0x40020C, [(0x10, 16)], [(F.CTL_ADC_GAIN0_VALUE 0, .RO)]⟩,
  ⟨0x400300, [(0x4, 18)], [(F.CTL_ADC_VAL_VALUE 0, .RO)]⟩]
def regRowsCtl3 : List RegDef := [
  ⟨0x4000F0, [], [(F.CTL_ISR_WRITE_REFUSED, .W1C), (F.CTL_ISR_FAN_FAIL, .W1C), (F.CTL_ISR_SAT, .W1C), (F.CTL_ISR_CAP_DONE, .W1C), (F.CTL_ISR_SWAP_DONE, .W1C), (F.CTL_ISR_CAL_DRIFT, .W1C), (F.CTL_ISR_BANK_FAILED, .W1C), (F.CTL_ISR_RIDE, .W1C), (F.CTL_ISR_HU_CONFIRM, .W1C)]⟩,
  ⟨0x4000F4, [], [(F.CTL_IER_WRITE_REFUSED, .RW), (F.CTL_IER_FAN_FAIL, .RW), (F.CTL_IER_SAT, .RW), (F.CTL_IER_CAP_DONE, .RW), (F.CTL_IER_SWAP_DONE, .RW), (F.CTL_IER_CAL_DRIFT, .RW), (F.CTL_IER_BANK_FAILED, .RW), (F.CTL_IER_RIDE, .RW), (F.CTL_IER_HU_CONFIRM, .RW)]⟩,
  ⟨0x4000F8, [], [(F.CTL_ISR_SET_WRITE_REFUSED, .W1P), (F.CTL_ISR_SET_FAN_FAIL, .W1P), (F.CTL_ISR_SET_SAT, .W1P), (F.CTL_ISR_SET_CAP_DONE, .W1P), (F.CTL_ISR_SET_SWAP_DONE, .W1P), (F.CTL_ISR_SET_CAL_DRIFT, .W1P), (F.CTL_ISR_SET_BANK_FAILED, .W1P), (F.CTL_ISR_SET_RIDE, .W1P), (F.CTL_ISR_SET_HU_CONFIRM, .W1P)]⟩,
  ⟨0x404000, [(0x200, 4), (0x100, 2), (0x4, 64)], [(F.CTL_COEF_VALUE 0 0 0, .RW)]⟩]
/-- The registers of block CTL (R476). -/
def regRowsCtl : List RegDef := regRowsCtl0 ++ regRowsCtl1 ++ regRowsCtl2 ++ regRowsCtl3

def regRowsSec0 : List RegDef := [
  ⟨0x500000, [], [(F.SEC_CTRL_DUAL_TURNS, .RW), (F.SEC_CTRL_XTS_LIMIT_LOG2, .RWL), (F.SEC_CTRL_DUAL_FORCE, .RW)]⟩,
  ⟨0x500010, [], [(F.SEC_KEY_CMD_START, .W1P), (F.SEC_KEY_CMD_BUSY, .RO), (F.SEC_KEY_CMD_OP, .RW), (F.SEC_KEY_CMD_SLOT, .RW)]⟩,
  ⟨0x500014, [], [(F.SEC_KEY_ATTR_VERSION, .RW), (F.SEC_KEY_ATTR_KEK, .RW), (F.SEC_KEY_ATTR_GCM_LIMIT_LOG2, .RW), (F.SEC_KEY_ATTR_COUNTER_IV, .RW), (F.SEC_KEY_ATTR_EXPORTABLE, .RW)]⟩,
  ⟨0x500018, [], [(F.SEC_KEY_ADDR_LO_ADDR, .RW)]⟩,
  ⟨0x50001C, [], [(F.SEC_KEY_ADDR_HI_ADDR, .RW)]⟩,
  ⟨0x500020, [], [(F.SEC_KEY_RESULT_VALID, .RO), (F.SEC_KEY_RESULT_SEEN, .RO), (F.SEC_KEY_RESULT_SEQ, .RO), (F.SEC_KEY_RESULT_STATE, .RO), (F.SEC_KEY_RESULT_PHASE, .RO), (F.SEC_KEY_RESULT_CODE, .RO)]⟩,
  ⟨0x500024, [], [(F.SEC_KEY_CHECK_KCV, .RO)]⟩,
  ⟨0x500028, [], [(F.SEC_KEY_USAGE_LO_COUNT, .RO)]⟩,
  ⟨0x50002C, [], [(F.SEC_KEY_USAGE_HI_COUNT, .RO)]⟩,
  ⟨0x500040, [], [(F.SEC_ALARM_STATUS_SOURCES, .RO)]⟩,
  ⟨0x500044, [], [(F.SEC_ALARM_MASK_SOURCES, .RWL)]⟩,
  ⟨0x500048, [], [(F.SEC_ZEROISE_ZEROISE, .W1P)]⟩]
def regRowsSec1 : List RegDef := [
  ⟨0x500050, [], [(F.SEC_RNG_CMD_START, .W1P), (F.SEC_RNG_CMD_BUSY, .RO), (F.SEC_RNG_CMD_OP, .RW)]⟩,
  ⟨0x500054, [], [(F.SEC_RNG_RESULT_VALID, .RO), (F.SEC_RNG_RESULT_SEEN, .RO), (F.SEC_RNG_RESULT_SEQ, .RO), (F.SEC_RNG_RESULT_CODE, .RO)]⟩,
  ⟨0x500058, [], [(F.SEC_RNG_HEALTH_RESEEDS, .RO), (F.SEC_RNG_HEALTH_APT_FAIL, .RO), (F.SEC_RNG_HEALTH_RCT_FAIL, .RO)]⟩,
  ⟨0x50005C, [], [(F.SEC_AUTH_FAILS_GCM, .RO), (F.SEC_AUTH_FAILS_UNWRAP, .RO)]⟩,
  ⟨0x500060, [(0x4, 8)], [(F.SEC_RNG_OUT_DATA 0, .RO)]⟩,
  ⟨0x500080, [], [(F.SEC_DUAL_MISMATCH, .RO), (F.SEC_DUAL_GCM_DUAL, .RO), (F.SEC_DUAL_XTS_DUAL, .RO), (F.SEC_DUAL_FP_DUAL, .RO)]⟩,
  ⟨0x500084, [], [(F.SEC_LIMIT_LAST_KIND, .RO), (F.SEC_LIMIT_LAST_SLOT, .RO)]⟩,
  ⟨0x5000F0, [], [(F.SEC_ISR_ALARM, .W1C), (F.SEC_ISR_RNG_HEALTH, .W1C), (F.SEC_ISR_KEY_MISSING, .W1C), (F.SEC_ISR_DUAL_MISMATCH, .W1C), (F.SEC_ISR_AUTH_FAIL, .W1C), (F.SEC_ISR_REKEY_NEEDED, .W1C), (F.SEC_ISR_PHASE_FLIP, .W1C), (F.SEC_ISR_EXHAUSTED, .W1C), (F.SEC_ISR_LIMIT_NEAR, .W1C), (F.SEC_ISR_RNG_DONE, .W1C), (F.SEC_ISR_KEY_DONE, .W1C)]⟩,
  ⟨0x5000F4, [], [(F.SEC_IER_ALARM, .RW), (F.SEC_IER_RNG_HEALTH, .RW), (F.SEC_IER_KEY_MISSING, .RW), (F.SEC_IER_DUAL_MISMATCH, .RW), (F.SEC_IER_AUTH_FAIL, .RW), (F.SEC_IER_REKEY_NEEDED, .RW), (F.SEC_IER_PHASE_FLIP, .RW), (F.SEC_IER_EXHAUSTED, .RW), (F.SEC_IER_LIMIT_NEAR, .RW), (F.SEC_IER_RNG_DONE, .RW), (F.SEC_IER_KEY_DONE, .RW)]⟩,
  ⟨0x5000F8, [], [(F.SEC_ISR_SET_ALARM, .W1P), (F.SEC_ISR_SET_RNG_HEALTH, .W1P), (F.SEC_ISR_SET_KEY_MISSING, .W1P), (F.SEC_ISR_SET_DUAL_MISMATCH, .W1P), (F.SEC_ISR_SET_AUTH_FAIL, .W1P), (F.SEC_ISR_SET_REKEY_NEEDED, .W1P), (F.SEC_ISR_SET_PHASE_FLIP, .W1P), (F.SEC_ISR_SET_EXHAUSTED, .W1P), (F.SEC_ISR_SET_LIMIT_NEAR, .W1P), (F.SEC_ISR_SET_RNG_DONE, .W1P), (F.SEC_ISR_SET_KEY_DONE, .W1P)]⟩,
  ⟨0x500100, [(0x4, 16)], [(F.SEC_KEY_WORD_KEY 0, .WO)]⟩]
/-- The registers of block SEC (R476). -/
def regRowsSec : List RegDef := regRowsSec0 ++ regRowsSec1

def regRowsScc0 : List RegDef := [
  ⟨0x600004, [], [(F.SCC_STATUS_SPAD_WAYS, .RO)]⟩,
  ⟨0x600010, [(0x4, 8)], [(F.SCC_WAYMASK_MASK 0, .RW)]⟩,
  ⟨0x600040, [], [(F.SCC_RANGE_ADDR_LO_VALUE, .RW)]⟩,
  ⟨0x600044, [], [(F.SCC_RANGE_ADDR_HI_VALUE, .RW)]⟩,
  ⟨0x600048, [], [(F.SCC_RANGE_LEN_LO_VALUE, .RW)]⟩,
  ⟨0x60004C, [], [(F.SCC_RANGE_LEN_HI_VALUE, .RW)]⟩,
  ⟨0x600050, [], [(F.SCC_RANGE_CMD_START, .W1P), (F.SCC_RANGE_CMD_BUSY, .RO), (F.SCC_RANGE_CMD_OP, .RW)]⟩,
  ⟨0x600054, [], [(F.SCC_RANGE_RESULT_VALID, .RO), (F.SCC_RANGE_RESULT_SEEN, .RO), (F.SCC_RANGE_RESULT_SEQ, .RO), (F.SCC_RANGE_RESULT_SPAD_OVERLAP, .RO), (F.SCC_RANGE_RESULT_CODE, .RO)]⟩,
  ⟨0x600060, [], [(F.SCC_ERRS_TAG_PARITY, .RO), (F.SCC_ERRS_DATA_UNCORR, .RO), (F.SCC_ERRS_DATA_CORR, .RO)]⟩,
  ⟨0x600064, [], [(F.SCC_ERR_ADDR_LO_ADDR, .RO)]⟩,
  ⟨0x600068, [], [(F.SCC_ERR_ADDR_HI_ADDR, .RO)]⟩,
  ⟨0x600080, [], [(F.SCC_HITS_LO_COUNT, .RO)]⟩]
def regRowsScc1 : List RegDef := [
  ⟨0x600084, [], [(F.SCC_HITS_HI_COUNT, .RO)]⟩,
  ⟨0x600088, [], [(F.SCC_MISSES_LO_COUNT, .RO)]⟩,
  ⟨0x60008C, [], [(F.SCC_MISSES_HI_COUNT, .RO)]⟩,
  ⟨0x600090, [], [(F.SCC_STAT_WRAPS_MISS_WRAPS, .RO), (F.SCC_STAT_WRAPS_HIT_WRAPS, .RO)]⟩,
  ⟨0x6000F0, [], [(F.SCC_ISR_SPAD_RANGE, .W1C), (F.SCC_ISR_DATA_UNCORR, .W1C), (F.SCC_ISR_ERR, .W1C), (F.SCC_ISR_RANGE_DONE, .W1C)]⟩,
  ⟨0x6000F4, [], [(F.SCC_IER_SPAD_RANGE, .RW), (F.SCC_IER_DATA_UNCORR, .RW), (F.SCC_IER_ERR, .RW), (F.SCC_IER_RANGE_DONE, .RW)]⟩,
  ⟨0x6000F8, [], [(F.SCC_ISR_SET_SPAD_RANGE, .W1P), (F.SCC_ISR_SET_DATA_UNCORR, .W1P), (F.SCC_ISR_SET_ERR, .W1P), (F.SCC_ISR_SET_RANGE_DONE, .W1P)]⟩]
/-- The registers of block SCC (R476). -/
def regRowsScc : List RegDef := regRowsScc0 ++ regRowsScc1

def regRowsDmc0 : List RegDef := [
  ⟨0x700000, [], [(F.DMC_INFO_MTS, .RO), (F.DMC_INFO_CAP_GIB, .RO), (F.DMC_INFO_TYPE, .RO)]⟩,
  ⟨0x700004, [], [(F.DMC_SCRUB_CFG_ROW_LIMIT, .RW), (F.DMC_SCRUB_CFG_HOURS, .RW)]⟩,
  ⟨0x700008, [], [(F.DMC_PPR_CMD_START, .W1P), (F.DMC_PPR_CMD_BUSY, .RO), (F.DMC_PPR_CMD_HARD, .RW)]⟩,
  ⟨0x70000C, [], [(F.DMC_PPR_ROW_CHANNEL, .RW), (F.DMC_PPR_ROW_SUB, .RW), (F.DMC_PPR_ROW_RANK_BG, .RW), (F.DMC_PPR_ROW_BANK, .RW), (F.DMC_PPR_ROW_ROW, .RW)]⟩,
  ⟨0x700010, [], [(F.DMC_PPR_RESULT_VALID, .RO), (F.DMC_PPR_RESULT_SEEN, .RO), (F.DMC_PPR_RESULT_SEQ, .RO), (F.DMC_PPR_RESULT_CODE, .RO)]⟩,
  ⟨0x700018, [], [(F.DMC_ERR_ADDR_LO_ADDR, .RO)]⟩,
  ⟨0x70001C, [], [(F.DMC_ERR_ADDR_HI_ADDR, .RO)]⟩,
  ⟨0x700100, [(0x4, 12)], [(F.DMC_CH_ERRS_UNCORR 0, .RO), (F.DMC_CH_ERRS_CORR 0, .RO)]⟩,
  ⟨0x7000F0, [], [(F.DMC_ISR_PPR_DONE, .W1C), (F.DMC_ISR_PPR_ADVISED, .W1C), (F.DMC_ISR_ADDR_ERR, .W1C), (F.DMC_ISR_UNCORR, .W1C), (F.DMC_ISR_CORR, .W1C)]⟩,
  ⟨0x7000F4, [], [(F.DMC_IER_PPR_DONE, .RW), (F.DMC_IER_PPR_ADVISED, .RW), (F.DMC_IER_ADDR_ERR, .RW), (F.DMC_IER_UNCORR, .RW), (F.DMC_IER_CORR, .RW)]⟩,
  ⟨0x7000F8, [], [(F.DMC_ISR_SET_PPR_DONE, .W1P), (F.DMC_ISR_SET_PPR_ADVISED, .W1P), (F.DMC_ISR_SET_ADDR_ERR, .W1P), (F.DMC_ISR_SET_UNCORR, .W1P), (F.DMC_ISR_SET_CORR, .W1P)]⟩]
/-- The registers of block DMC (R476). -/
def regRowsDmc : List RegDef := regRowsDmc0

def regRowsBbm0 : List RegDef := [
  ⟨0x800008, [], [(F.BBM_QUOTA_BASE_LO_ADDR, .RWL)]⟩,
  ⟨0x80000C, [], [(F.BBM_QUOTA_BASE_HI_ADDR, .RWL)]⟩,
  ⟨0x800010, [], [(F.BBM_ALLOC_CMD_START, .W1P), (F.BBM_ALLOC_CMD_BUSY, .RO), (F.BBM_ALLOC_CMD_TENANT, .RW), (F.BBM_ALLOC_CMD_POOL, .RW)]⟩,
  ⟨0x800014, [], [(F.BBM_ALLOC_RESULT_LO_VALID, .RO), (F.BBM_ALLOC_RESULT_LO_SEEN, .RO), (F.BBM_ALLOC_RESULT_LO_SEQ, .RO), (F.BBM_ALLOC_RESULT_LO_CODE, .RO)]⟩,
  ⟨0x800018, [], [(F.BBM_ALLOC_RESULT_HI_HANDLE, .RO)]⟩,
  ⟨0x80001C, [], [(F.BBM_FREE_HANDLE, .WO)]⟩,
  ⟨0x800020, [], [(F.BBM_REF_INC_HANDLE, .WO)]⟩,
  ⟨0x800030, [], [(F.BBM_EVENTS_FALLBACKS, .RO), (F.BBM_EVENTS_QUOTA, .RO), (F.BBM_EVENTS_REFUSED, .RO)]⟩,
  ⟨0x8000F0, [], [(F.BBM_ISR_CORRUPT, .W1C), (F.BBM_ISR_EMPTY, .W1C), (F.BBM_ISR_REFUSED, .W1C), (F.BBM_ISR_ALLOC_DONE, .W1C)]⟩,
  ⟨0x8000F4, [], [(F.BBM_IER_CORRUPT, .RW), (F.BBM_IER_EMPTY, .RW), (F.BBM_IER_REFUSED, .RW), (F.BBM_IER_ALLOC_DONE, .RW)]⟩,
  ⟨0x8000F8, [], [(F.BBM_ISR_SET_CORRUPT, .W1P), (F.BBM_ISR_SET_EMPTY, .W1P), (F.BBM_ISR_SET_REFUSED, .W1P), (F.BBM_ISR_SET_ALLOC_DONE, .W1P)]⟩,
  ⟨0x801000, [(0x20, 64)], [(F.BBM_POOL_BASE_LO_ADDR 0, .RW)]⟩]
def regRowsBbm1 : List RegDef := [
  ⟨0x801004, [(0x20, 64)], [(F.BBM_POOL_BASE_HI_ADDR 0, .RW)]⟩,
  ⟨0x801008, [(0x20, 64)], [(F.BBM_POOL_CFG_TENANT 0, .RW), (F.BBM_POOL_CFG_FB_BAD 0, .RO), (F.BBM_POOL_CFG_FB_EN 0, .RW), (F.BBM_POOL_CFG_FALLBACK 0, .RW), (F.BBM_POOL_CFG_SIZE_LOG2 0, .RW)]⟩,
  ⟨0x80100C, [(0x20, 64)], [(F.BBM_POOL_COUNT_COUNT 0, .RW)]⟩,
  ⟨0x801010, [(0x20, 64)], [(F.BBM_POOL_CTRL_INIT 0, .W1P), (F.BBM_POOL_CTRL_ENABLE 0, .RW)]⟩,
  ⟨0x801014, [(0x20, 64)], [(F.BBM_POOL_STATUS_CORRUPT 0, .RO), (F.BBM_POOL_STATUS_FREE_COUNT 0, .RO)]⟩,
  ⟨0x801018, [(0x20, 64)], [(F.BBM_POOL_QUAR_QUARANTINED 0, .RO)]⟩]
/-- The registers of block BBM (R476). -/
def regRowsBbm : List RegDef := regRowsBbm0 ++ regRowsBbm1

def regRowsRow0 : List RegDef := [
  ⟨0x900000, [], [(F.ROW_CTRL_FAULT_LIMIT, .RW), (F.ROW_CTRL_ENGINE_TIMEOUT_US, .RW)]⟩,
  ⟨0x900010, [], [(F.ROW_POOL_RETIRED 0, .RO), (F.ROW_POOL_SPARES_LEFT 0, .RO), (F.ROW_POOL_ACTIVE 0, .RO)]⟩,
  ⟨0x900014, [], [(F.ROW_POOL_RETIRED 1, .RO), (F.ROW_POOL_SPARES_LEFT 1, .RO), (F.ROW_POOL_ACTIVE 1, .RO)]⟩,
  ⟨0x900018, [], [(F.ROW_POOL_RETIRED 2, .RO), (F.ROW_POOL_SPARES_LEFT 2, .RO), (F.ROW_POOL_ACTIVE 2, .RO)]⟩,
  ⟨0x90001C, [], [(F.ROW_POOL_RETIRED 3, .RO), (F.ROW_POOL_SPARES_LEFT 3, .RO), (F.ROW_POOL_ACTIVE 3, .RO)]⟩,
  ⟨0x900020, [], [(F.ROW_POOL_RETIRED 4, .RO), (F.ROW_POOL_SPARES_LEFT 4, .RO), (F.ROW_POOL_ACTIVE 4, .RO)]⟩,
  ⟨0x900024, [], [(F.ROW_POOL_RETIRED 5, .RO), (F.ROW_POOL_SPARES_LEFT 5, .RO), (F.ROW_POOL_ACTIVE 5, .RO)]⟩,
  ⟨0x900028, [], [(F.ROW_POOL_RETIRED 6, .RO), (F.ROW_POOL_SPARES_LEFT 6, .RO), (F.ROW_POOL_ACTIVE 6, .RO)]⟩,
  ⟨0x90002C, [], [(F.ROW_POOL_RETIRED 7, .RO), (F.ROW_POOL_SPARES_LEFT 7, .RO), (F.ROW_POOL_ACTIVE 7, .RO)]⟩,
  ⟨0x900040, [], [(F.ROW_RING_BASE_LO_BASE_LO, .RWL)]⟩,
  ⟨0x900044, [], [(F.ROW_RING_BASE_HI_BASE_HI, .RWL)]⟩,
  ⟨0x900048, [], [(F.ROW_RING_CFG_LOG2_ENTRIES, .RWL)]⟩]
def regRowsRow1 : List RegDef := [
  ⟨0x90004C, [], [(F.ROW_SQ_TAIL_TAIL, .RW)]⟩,
  ⟨0x900050, [], [(F.ROW_CQ_HEAD_HEAD, .RW)]⟩,
  ⟨0x900060, [], [(F.ROW_FAULT_LAST_KIND, .RO), (F.ROW_FAULT_LAST_POOL, .RO), (F.ROW_FAULT_LAST_ENGINE, .RO), (F.ROW_FAULT_LAST_ROW, .RO)]⟩,
  ⟨0x900064, [], [(F.ROW_ERRS_GUARD_MISMATCH, .RO), (F.ROW_ERRS_HOP_MISMATCH, .RO)]⟩,
  ⟨0x900070, [], [(F.ROW_ISR_CLASS_LOST, .W1C), (F.ROW_ISR_CQ, .W1C), (F.ROW_ISR_GUARD, .W1C), (F.ROW_ISR_POOL_SHORT, .W1C), (F.ROW_ISR_SPARE_IN, .W1C), (F.ROW_ISR_ENGINE_RETIRED, .W1C)]⟩,
  ⟨0x900074, [], [(F.ROW_IER_CLASS_LOST, .RW), (F.ROW_IER_CQ, .RW), (F.ROW_IER_GUARD, .RW), (F.ROW_IER_POOL_SHORT, .RW), (F.ROW_IER_SPARE_IN, .RW), (F.ROW_IER_ENGINE_RETIRED, .RW)]⟩,
  ⟨0x900078, [], [(F.ROW_ISR_SET_CLASS_LOST, .W1P), (F.ROW_ISR_SET_CQ, .W1P), (F.ROW_ISR_SET_GUARD, .W1P), (F.ROW_ISR_SET_POOL_SHORT, .W1P), (F.ROW_ISR_SET_SPARE_IN, .W1P), (F.ROW_ISR_SET_ENGINE_RETIRED, .W1P)]⟩,
  ⟨0x901000, [(0x100, 16)], [(F.ROW_N_CFG_CLASSES 0, .RO), (F.ROW_N_CFG_STAGES 0, .RO)]⟩,
  ⟨0x901010, [(0x100, 16), (0x4, 12)], [(F.ROW_N_STAGE_TYPE 0 0, .RO), (F.ROW_N_STAGE_NAMED 0 0, .RO), (F.ROW_N_STAGE_ACTIVE 0 0, .RO)]⟩,
  ⟨0x901040, [(0x100, 16)], [(F.ROW_N_INFLIGHT_QUEUE_FULL 0, .RO), (F.ROW_N_INFLIGHT_INFLIGHT 0, .RO)]⟩,
  ⟨0x901048, [(0x100, 16)], [(F.ROW_N_RETIRED_LO_COUNT_LO 0, .RO)]⟩,
  ⟨0x90104C, [(0x100, 16)], [(F.ROW_N_RETIRED_HI_COUNT_HI 0, .RO)]⟩]
def regRowsRow2 : List RegDef := [
  ⟨0x901050, [(0x100, 16)], [(F.ROW_N_RETIRED_WRAPS_WRAPS 0, .RO)]⟩]
/-- The registers of block ROW (R476). -/
def regRowsRow : List RegDef := regRowsRow0 ++ regRowsRow1 ++ regRowsRow2

def regRowsDdp0 : List RegDef := [
  ⟨0xA00000, [], [(F.DDP_CTRL_FETCH_MAX, .RW), (F.DDP_CTRL_ENABLE, .RWL)]⟩,
  ⟨0xA00004, [], [(F.DDP_INDEX_CFG_LOG2_PAGES_B, .RWL), (F.DDP_INDEX_CFG_LOG2_PAGES_A, .RWL)]⟩,
  ⟨0xA00008, [], [(F.DDP_REGION_BASE_LO_BASE_LO, .RWL)]⟩,
  ⟨0xA0000C, [], [(F.DDP_REGION_BASE_HI_BASE_HI, .RWL)]⟩,
  ⟨0xA00010, [], [(F.DDP_SIZES_ICACHE_LOG2, .RWL), (F.DDP_SIZES_MLOG_LOG2, .RWL)]⟩,
  ⟨0xA00014, [], [(F.DDP_MLOG_TAIL_TAIL, .RO)]⟩,
  ⟨0xA00018, [], [(F.DDP_MLOG_HEAD_HEAD, .RW)]⟩,
  ⟨0xA00020, [], [(F.DDP_REFOP_ADDR_LO_ADDR_LO, .RW)]⟩,
  ⟨0xA00024, [], [(F.DDP_REFOP_ADDR_HI_ADDR_HI, .RW)]⟩,
  ⟨0xA00028, [], [(F.DDP_REFOP_CTRL_START, .W1P), (F.DDP_REFOP_CTRL_BUSY, .RO), (F.DDP_REFOP_CTRL_COUNT, .RW)]⟩,
  ⟨0xA0002C, [], [(F.DDP_REFOP_RESULT_VALID, .RO), (F.DDP_REFOP_RESULT_SEEN, .RO), (F.DDP_REFOP_RESULT_SEQ, .RO), (F.DDP_REFOP_RESULT_FAILED, .RO)]⟩,
  ⟨0xA00040, [], [(F.DDP_LOOKUPS_LO_COUNT, .RO)]⟩]
def regRowsDdp1 : List RegDef := [
  ⟨0xA00044, [], [(F.DDP_LOOKUPS_HI_COUNT, .RO)]⟩,
  ⟨0xA00048, [], [(F.DDP_DUPS_LO_COUNT, .RO)]⟩,
  ⟨0xA0004C, [], [(F.DDP_DUPS_HI_COUNT, .RO)]⟩,
  ⟨0xA00050, [], [(F.DDP_STAT_WRAPS_DUPS_WRAPS, .RO), (F.DDP_STAT_WRAPS_LOOKUPS_WRAPS, .RO)]⟩,
  ⟨0xA00058, [], [(F.DDP_IMMORTAL_LO_COUNT, .RO)]⟩,
  ⟨0xA0005C, [], [(F.DDP_IMMORTAL_HI_COUNT, .RO)]⟩,
  ⟨0xA00060, [], [(F.DDP_EVENTS_A_VERIFY_MISMATCH, .RO), (F.DDP_EVENTS_A_TWINS, .RO)]⟩,
  ⟨0xA00064, [], [(F.DDP_EVENTS_B_STALE, .RO), (F.DDP_EVENTS_B_LOG_DROPS, .RO)]⟩,
  ⟨0xA00068, [], [(F.DDP_EVENTS_C_SAT_ABSORBED, .RO), (F.DDP_EVENTS_C_REF_REJECTS, .RO), (F.DDP_EVENTS_C_CORRUPT_RECORD, .RO)]⟩,
  ⟨0xA00070, [], [(F.DDP_ISR_CORRUPT, .W1C), (F.DDP_ISR_REF_REJECT, .W1C), (F.DDP_ISR_REFOP_DONE, .W1C), (F.DDP_ISR_MLOG_FULL, .W1C), (F.DDP_ISR_VERIFY_MISMATCH, .W1C), (F.DDP_ISR_IMMORTAL, .W1C)]⟩,
  ⟨0xA00074, [], [(F.DDP_IER_CORRUPT, .RW), (F.DDP_IER_REF_REJECT, .RW), (F.DDP_IER_REFOP_DONE, .RW), (F.DDP_IER_MLOG_FULL, .RW), (F.DDP_IER_VERIFY_MISMATCH, .RW), (F.DDP_IER_IMMORTAL, .RW)]⟩,
  ⟨0xA00078, [], [(F.DDP_ISR_SET_CORRUPT, .W1P), (F.DDP_ISR_SET_REF_REJECT, .W1P), (F.DDP_ISR_SET_REFOP_DONE, .W1P), (F.DDP_ISR_SET_MLOG_FULL, .W1P), (F.DDP_ISR_SET_VERIFY_MISMATCH, .W1P), (F.DDP_ISR_SET_IMMORTAL, .W1P)]⟩]
/-- The registers of block DDP (R476). -/
def regRowsDdp : List RegDef := regRowsDdp0 ++ regRowsDdp1

def regRowsCmp0 : List RegDef := [
  ⟨0xB00000, [], [(F.CMP_CTRL_FORCE_RAW, .RW), (F.CMP_CTRL_MAX_CLASS, .RW)]⟩,
  ⟨0xB00008, [], [(F.CMP_REGION_BASE_LO_BASE_LO, .RWL)]⟩,
  ⟨0xB0000C, [], [(F.CMP_REGION_BASE_HI_BASE_HI, .RWL)]⟩,
  ⟨0xB00010, [], [(F.CMP_DICT_CMD_START, .W1P), (F.CMP_DICT_CMD_BUSY, .RO), (F.CMP_DICT_CMD_OP, .RW), (F.CMP_DICT_CMD_DICT_ID, .RW)]⟩,
  ⟨0xB00014, [], [(F.CMP_DICT_RESULT_VALID, .RO), (F.CMP_DICT_RESULT_SEEN, .RO), (F.CMP_DICT_RESULT_SEQ, .RO), (F.CMP_DICT_RESULT_DICT_ID, .RO), (F.CMP_DICT_RESULT_CODE, .RO)]⟩,
  ⟨0xB00018, [], [(F.CMP_DICT_COUNTS_RETIRING, .RO), (F.CMP_DICT_COUNTS_ACTIVE, .RO)]⟩,
  ⟨0xB00040, [], [(F.CMP_BYTES_IN_LO_COUNT, .RO)]⟩,
  ⟨0xB00044, [], [(F.CMP_BYTES_IN_HI_COUNT, .RO)]⟩,
  ⟨0xB00048, [], [(F.CMP_STREAM_BYTES_LO_COUNT, .RO)]⟩,
  ⟨0xB0004C, [], [(F.CMP_STREAM_BYTES_HI_COUNT, .RO)]⟩,
  ⟨0xB00050, [], [(F.CMP_STORED_BYTES_LO_COUNT, .RO)]⟩,
  ⟨0xB00054, [], [(F.CMP_STORED_BYTES_HI_COUNT, .RO)]⟩]
def regRowsCmp1 : List RegDef := [
  ⟨0xB00058, [], [(F.CMP_WRAPS_A_STORED_WRAPS, .RO), (F.CMP_WRAPS_A_IN_WRAPS, .RO)]⟩,
  ⟨0xB0005C, [], [(F.CMP_WRAPS_B_STREAM_WRAPS, .RO)]⟩,
  ⟨0xB00060, [], [(F.CMP_DC_ERRS_LAST_CODE, .RO), (F.CMP_DC_ERRS_COUNT, .RO)]⟩,
  ⟨0xB00064, [], [(F.CMP_EVENTS_DICT_FALLBACK, .RO)]⟩,
  ⟨0xB00070, [], [(F.CMP_ISR_DICT_DONE, .W1C), (F.CMP_ISR_DICT_FALLBACK, .W1C), (F.CMP_ISR_DC_ERR, .W1C)]⟩,
  ⟨0xB00074, [], [(F.CMP_IER_DICT_DONE, .RW), (F.CMP_IER_DICT_FALLBACK, .RW), (F.CMP_IER_DC_ERR, .RW)]⟩,
  ⟨0xB00078, [], [(F.CMP_ISR_SET_DICT_DONE, .W1P), (F.CMP_ISR_SET_DICT_FALLBACK, .W1P), (F.CMP_ISR_SET_DC_ERR, .W1P)]⟩,
  ⟨0xB00100, [(0x8, 9)], [(F.CMP_HIST_LO_COUNT 0, .RO)]⟩,
  ⟨0xB00104, [(0x8, 9)], [(F.CMP_HIST_HI_COUNT 0, .RO)]⟩,
  ⟨0xB00180, [(0x4, 9)], [(F.CMP_HIST_WRAPS_WRAPS 0, .RO)]⟩]
/-- The registers of block CMP (R476). -/
def regRowsCmp : List RegDef := regRowsCmp0 ++ regRowsCmp1

def regRowsFtl0 : List RegDef := [
  ⟨0xC00000, [], [(F.FTL_MAP_CTRL_MISS_MAX, .RW)]⟩,
  ⟨0xC00004, [], [(F.FTL_MPC_CFG_WB_HIGH_PCT, .RW), (F.FTL_MPC_CFG_LOG2_PAGES, .RWL)]⟩,
  ⟨0xC00008, [], [(F.FTL_MPC_BASE_LO_BASE_LO, .RWL)]⟩,
  ⟨0xC00010, [], [(F.FTL_VOL_BASE_LO_BASE_LO, .RWL)]⟩,
  ⟨0xC00018, [], [(F.FTL_SBT_BASE_LO_BASE_LO, .RWL)]⟩,
  ⟨0xC0000C, [], [(F.FTL_MPC_BASE_HI_BASE_HI, .RWL)]⟩,
  ⟨0xC00014, [], [(F.FTL_VOL_BASE_HI_BASE_HI, .RWL)]⟩,
  ⟨0xC0001C, [], [(F.FTL_SBT_BASE_HI_BASE_HI, .RWL)]⟩,
  ⟨0xC00020, [], [(F.FTL_MPC_PINNED_PAGES, .RO)]⟩,
  ⟨0xC00024, [], [(F.FTL_MPC_DIRTY_PAGES, .RO)]⟩,
  ⟨0xC00028, [], [(F.FTL_MCMD_ADDR_LO_ADDR_LO, .RW)]⟩,
  ⟨0xC0002C, [], [(F.FTL_MCMD_ADDR_HI_ADDR_HI, .RW)]⟩]
def regRowsFtl1 : List RegDef := [
  ⟨0xC00030, [], [(F.FTL_MCMD_START, .W1P), (F.FTL_MCMD_BUSY, .RO), (F.FTL_MCMD_OP, .RW), (F.FTL_MCMD_INSTANCE, .RW), (F.FTL_MCMD_INDEX, .RW)]⟩,
  ⟨0xC00034, [], [(F.FTL_MCMD_RESULT_VALID, .RO), (F.FTL_MCMD_RESULT_SEEN, .RO), (F.FTL_MCMD_RESULT_SEQ, .RO), (F.FTL_MCMD_RESULT_CODE, .RO)]⟩,
  ⟨0xC00038, [], [(F.FTL_SPLIT_BASE_LO_ADDR, .RWL)]⟩,
  ⟨0xC0003C, [], [(F.FTL_SPLIT_BASE_HI_ADDR, .RWL)]⟩,
  ⟨0xC00040, [], [(F.FTL_SPLIT_CFG_LOG2_ENTRIES, .RWL)]⟩,
  ⟨0xC00044, [], [(F.FTL_SPLIT_TAIL_INDEX, .RO)]⟩,
  ⟨0xC00048, [], [(F.FTL_SPLIT_HEAD_INDEX, .RW)]⟩,
  ⟨0xC00060, [], [(F.FTL_TIER_CFG_FAST_SHARE, .RW), (F.FTL_TIER_CFG_SPARE_PERMILLE, .RWL)]⟩,
  ⟨0xC00064, [], [(F.FTL_FAST_MIN_COUNT, .RW)]⟩,
  ⟨0xC00068, [], [(F.FTL_FAST_MAX_COUNT, .RW)]⟩,
  ⟨0xC0006C, [], [(F.FTL_HU_RESERVE_COUNT, .RW)]⟩,
  ⟨0xC00070, [], [(F.FTL_SPACE_CFG_STOP_SB, .RW), (F.FTL_SPACE_CFG_WARN_SB, .RW)]⟩]
def regRowsFtl2 : List RegDef := [
  ⟨0xC00074, [], [(F.FTL_SBQ_PUSH_STREAM, .WO), (F.FTL_SBQ_PUSH_SB, .WO)]⟩,
  ⟨0xC00078, [], [(F.FTL_SBQ_STATUS_LAST_CODE, .RO), (F.FTL_SBQ_STATUS_LAST_SB, .RO)]⟩,
  ⟨0xC0007C, [], [(F.FTL_HOTMAP_CTRL_INVALIDATE, .W1P), (F.FTL_HOTMAP_CTRL_ENABLE, .RWL)]⟩,
  ⟨0xC00080, [], [(F.FTL_HOTMAP_HITS_LO_COUNT, .RO)]⟩,
  ⟨0xC00084, [], [(F.FTL_HOTMAP_HITS_HI_COUNT, .RO)]⟩,
  ⟨0xC00088, [], [(F.FTL_MPC_HITS_LO_COUNT, .RO)]⟩,
  ⟨0xC0008C, [], [(F.FTL_MPC_HITS_HI_COUNT, .RO)]⟩,
  ⟨0xC00090, [], [(F.FTL_MAP_FETCHES_LO_COUNT, .RO)]⟩,
  ⟨0xC00094, [], [(F.FTL_MAP_FETCHES_HI_COUNT, .RO)]⟩,
  ⟨0xC00098, [], [(F.FTL_MAP_WRAPS_FETCH_WRAPS, .RO), (F.FTL_MAP_WRAPS_MPC_WRAPS, .RO), (F.FTL_MAP_WRAPS_HOTMAP_WRAPS, .RO)]⟩,
  ⟨0xC0009C, [], [(F.FTL_MAP_ERRS_LME_CORRUPT, .RO), (F.FTL_MAP_ERRS_PTR_CORRUPT, .RO), (F.FTL_MAP_ERRS_PAGE_LOST, .RO)]⟩,
  ⟨0xC000F0, [], [(F.FTL_ISR_MCMD_DONE, .W1C), (F.FTL_ISR_SBQ_REFUSED, .W1C), (F.FTL_ISR_CID_EXHAUSTED, .W1C), (F.FTL_ISR_CID_RING_FULL, .W1C), (F.FTL_ISR_HU_SHORT, .W1C), (F.FTL_ISR_FAST_OVER, .W1C), (F.FTL_ISR_SPACE_STOP, .W1C), (F.FTL_ISR_SPACE_WARN, .W1C), (F.FTL_ISR_MAP_ERR, .W1C), (F.FTL_ISR_SPLIT_REQ, .W1C)]⟩]
def regRowsFtl3 : List RegDef := [
  ⟨0xC000F4, [], [(F.FTL_IER_MCMD_DONE, .RW), (F.FTL_IER_SBQ_REFUSED, .RW), (F.FTL_IER_CID_EXHAUSTED, .RW), (F.FTL_IER_CID_RING_FULL, .RW), (F.FTL_IER_HU_SHORT, .RW), (F.FTL_IER_FAST_OVER, .RW), (F.FTL_IER_SPACE_STOP, .RW), (F.FTL_IER_SPACE_WARN, .RW), (F.FTL_IER_MAP_ERR, .RW), (F.FTL_IER_SPLIT_REQ, .RW)]⟩,
  ⟨0xC000F8, [], [(F.FTL_ISR_SET_MCMD_DONE, .W1P), (F.FTL_ISR_SET_SBQ_REFUSED, .W1P), (F.FTL_ISR_SET_CID_EXHAUSTED, .W1P), (F.FTL_ISR_SET_CID_RING_FULL, .W1P), (F.FTL_ISR_SET_HU_SHORT, .W1P), (F.FTL_ISR_SET_FAST_OVER, .W1P), (F.FTL_ISR_SET_SPACE_STOP, .W1P), (F.FTL_ISR_SET_SPACE_WARN, .W1P), (F.FTL_ISR_SET_MAP_ERR, .W1P), (F.FTL_ISR_SET_SPLIT_REQ, .W1P)]⟩,
  ⟨0xC00100, [(0x100, 2)], [(F.FTL_CID_RING_BASE_LO_ADDR 0, .RWL)]⟩,
  ⟨0xC00104, [(0x100, 2)], [(F.FTL_CID_RING_BASE_HI_ADDR 0, .RWL)]⟩,
  ⟨0xC00108, [(0x100, 2)], [(F.FTL_CID_RING_CFG_LOG2_ENTRIES 0, .RWL)]⟩,
  ⟨0xC0010C, [(0x100, 2)], [(F.FTL_CID_RING_FILL_FILL 0, .RO)]⟩,
  ⟨0xC00110, [(0x100, 2)], [(F.FTL_CID_NEXT_LO_NEXT 0, .RO)]⟩,
  ⟨0xC00114, [], [(F.FTL_CID_NEXT_HI_NEXT 0, .RO)]⟩,
  ⟨0xC00214, [], [(F.FTL_CID_NEXT_HI_NEXT 1, .RO)]⟩,
  ⟨0xC00120, [(0x100, 2)], [(F.FTL_SB_COUNTS_TOTAL_COUNT 0, .RO)]⟩,
  ⟨0xC00124, [(0x100, 2)], [(F.FTL_SB_COUNTS_FREE_COUNT 0, .RO)]⟩,
  ⟨0xC00128, [(0x100, 2)], [(F.FTL_SB_COUNTS_HU_COUNT 0, .RO)]⟩]
def regRowsFtl4 : List RegDef := [
  ⟨0xC0012C, [(0x100, 2)], [(F.FTL_SB_COUNTS_FAST_COUNT 0, .RO)]⟩,
  ⟨0xC00130, [(0x100, 2)], [(F.FTL_SB_COUNTS_DENSE_COUNT 0, .RO)]⟩,
  ⟨0xC00134, [(0x100, 2)], [(F.FTL_SB_COUNTS_META_COUNT 0, .RO)]⟩,
  ⟨0xC00138, [(0x100, 2)], [(F.FTL_SB_COUNTS_TARGET_COUNT 0, .RO)]⟩,
  ⟨0xC0013C, [(0x100, 2)], [(F.FTL_SB_COUNTS_SPARE_COUNT 0, .RO)]⟩,
  ⟨0xC00140, [(0x100, 2)], [(F.FTL_MAPPED_LO_LEVEL 0, .RO)]⟩,
  ⟨0xC00144, [(0x100, 2)], [(F.FTL_MAPPED_HI_LEVEL 0, .RO)]⟩,
  ⟨0xC00148, [(0x100, 2)], [(F.FTL_VALID_SLOTS_LO_LEVEL 0, .RO)]⟩,
  ⟨0xC0014C, [(0x100, 2)], [(F.FTL_VALID_SLOTS_HI_LEVEL 0, .RO)]⟩,
  ⟨0xC00150, [(0x100, 2)], [(F.FTL_INVALID_SLOTS_LO_LEVEL 0, .RO)]⟩,
  ⟨0xC00154, [(0x100, 2)], [(F.FTL_INVALID_SLOTS_HI_LEVEL 0, .RO)]⟩,
  ⟨0xC00160, [(0x100, 2), (0x4, 5)], [(F.FTL_SBQ_LEVEL_QUEUED 0 0, .RO)]⟩]
def regRowsFtl5 : List RegDef := [
  ⟨0xC00400, [], [(F.FTL_JNL_CTRL_ACCEPT_GAP, .W1P), (F.FTL_JNL_CTRL_MAX_PAGES, .RW)]⟩,
  ⟨0xC00404, [], [(F.FTL_RCL_SHARE_BASE_SHARE, .RW), (F.FTL_RCL_SHARE_MAX_SHARE, .RW)]⟩,
  ⟨0xC00408, [], [(F.FTL_RCL_CMD_START, .W1P), (F.FTL_RCL_CMD_BUSY, .RO), (F.FTL_RCL_CMD_FORCE, .RW), (F.FTL_RCL_CMD_OP, .RW)]⟩,
  ⟨0xC0040C, [], [(F.FTL_RCL_SB_SB, .RW)]⟩,
  ⟨0xC00410, [], [(F.FTL_RCL_RESULT_VALID, .RO), (F.FTL_RCL_RESULT_SEEN, .RO), (F.FTL_RCL_RESULT_SEQ, .RO), (F.FTL_RCL_RESULT_POISONED, .RO), (F.FTL_RCL_RESULT_CODE, .RO)]⟩,
  ⟨0xC00418, [], [(F.FTL_SBS_BASE_LO_BASE_LO, .RWL)]⟩,
  ⟨0xC00420, [], [(F.FTL_WEAR_BASE_LO_BASE_LO, .RWL)]⟩,
  ⟨0xC00428, [], [(F.FTL_BBT_BASE_LO_BASE_LO, .RWL)]⟩,
  ⟨0xC0041C, [], [(F.FTL_SBS_BASE_HI_BASE_HI, .RWL)]⟩,
  ⟨0xC00424, [], [(F.FTL_WEAR_BASE_HI_BASE_HI, .RWL)]⟩,
  ⟨0xC0042C, [], [(F.FTL_BBT_BASE_HI_BASE_HI, .RWL)]⟩,
  ⟨0xC00430, [], [(F.FTL_WEAR_CFG_RETIRE_WU, .RW), (F.FTL_WEAR_CFG_SPREAD, .RW), (F.FTL_WEAR_CFG_PSLC_WEIGHT, .RW)]⟩]
def regRowsFtl6 : List RegDef := [
  ⟨0xC00434, [], [(F.FTL_REFRESH_CFG_RET_FAST, .RW), (F.FTL_REFRESH_CFG_RET_DENSE, .RW)]⟩,
  ⟨0xC00438, [], [(F.FTL_READ_LIMIT_FAST, .RW), (F.FTL_READ_LIMIT_DENSE, .RW)]⟩,
  ⟨0xC0043C, [], [(F.FTL_REFRESH_ERR_ERASE_CHECK_BITS, .RW), (F.FTL_REFRESH_ERR_SOFT_LIMIT, .RW)]⟩,
  ⟨0xC00440, [(0x4, 6)], [(F.FTL_BG_CREDIT_DEBT_CAP 0, .RW), (F.FTL_BG_CREDIT_CREDIT 0, .RW)]⟩,
  ⟨0xC00460, [], [(F.FTL_RCL_EVENTS_RELOC_DROPPED, .RO), (F.FTL_RCL_EVENTS_RETIRED, .RO)]⟩,
  ⟨0xC00464, [], [(F.FTL_RETIRE_LAST_REASON, .RO), (F.FTL_RETIRE_LAST_BLOCK, .RO)]⟩,
  ⟨0xC004F0, [], [(F.FTL_RCL_ISR_ANCHOR_FAIL, .W1C), (F.FTL_RCL_ISR_BAD_MEMBER, .W1C), (F.FTL_RCL_ISR_JNL_FULL, .W1C), (F.FTL_RCL_ISR_JNL_GAP, .W1C), (F.FTL_RCL_ISR_WEAR_SPREAD, .W1C), (F.FTL_RCL_ISR_PROG_FAIL, .W1C), (F.FTL_RCL_ISR_BLOCK_RETIRED, .W1C), (F.FTL_RCL_ISR_REFRESH, .W1C), (F.FTL_RCL_ISR_RCL_DONE, .W1C)]⟩,
  ⟨0xC004F4, [], [(F.FTL_RCL_IER_ANCHOR_FAIL, .RW), (F.FTL_RCL_IER_BAD_MEMBER, .RW), (F.FTL_RCL_IER_JNL_FULL, .RW), (F.FTL_RCL_IER_JNL_GAP, .RW), (F.FTL_RCL_IER_WEAR_SPREAD, .RW), (F.FTL_RCL_IER_PROG_FAIL, .RW), (F.FTL_RCL_IER_BLOCK_RETIRED, .RW), (F.FTL_RCL_IER_REFRESH, .RW), (F.FTL_RCL_IER_RCL_DONE, .RW)]⟩,
  ⟨0xC004F8, [], [(F.FTL_RCL_ISR_SET_ANCHOR_FAIL, .W1P), (F.FTL_RCL_ISR_SET_BAD_MEMBER, .W1P), (F.FTL_RCL_ISR_SET_JNL_FULL, .W1P), (F.FTL_RCL_ISR_SET_JNL_GAP, .W1P), (F.FTL_RCL_ISR_SET_WEAR_SPREAD, .W1P), (F.FTL_RCL_ISR_SET_PROG_FAIL, .W1P), (F.FTL_RCL_ISR_SET_BLOCK_RETIRED, .W1P), (F.FTL_RCL_ISR_SET_REFRESH, .W1P), (F.FTL_RCL_ISR_SET_RCL_DONE, .W1P)]⟩,
  ⟨0xC00180, [(0x100, 2)], [(F.FTL_JNL_HARDENED_LO_JSEQ 0, .RO)]⟩,
  ⟨0xC00184, [(0x100, 2)], [(F.FTL_JNL_HARDENED_HI_JSEQ 0, .RO)]⟩,
  ⟨0xC00188, [(0x100, 2)], [(F.FTL_JNL_TAIL_LO_JSEQ 0, .RO)]⟩]
def regRowsFtl7 : List RegDef := [
  ⟨0xC0018C, [(0x100, 2)], [(F.FTL_JNL_TAIL_HI_JSEQ 0, .RO)]⟩,
  ⟨0xC00190, [(0x100, 2)], [(F.FTL_JNL_FW_FLOOR_LO_JSEQ 0, .RW)]⟩,
  ⟨0xC00194, [(0x100, 2)], [(F.FTL_JNL_FW_FLOOR_HI_JSEQ 0, .RW)]⟩,
  ⟨0xC00198, [(0x100, 2)], [(F.FTL_RCL_CAND_VALID 0, .RO), (F.FTL_RCL_CAND_URGENT 0, .RO), (F.FTL_RCL_CAND_SB 0, .RO)]⟩,
  ⟨0xC0019C, [(0x100, 2)], [(F.FTL_WEAR_RANGE_MAX 0, .RO), (F.FTL_WEAR_RANGE_MIN 0, .RO)]⟩,
  ⟨0xC001A0, [(0x100, 2)], [(F.FTL_BG_STATUS_IN_DEBT 0, .RO), (F.FTL_BG_STATUS_SHARE 0, .RO)]⟩,
  ⟨0xC001A4, [(0x100, 2)], [(F.FTL_JNL_ANCHOR_0_FAILED 0, .RO), (F.FTL_JNL_ANCHOR_0_BLOCK 0, .RW)]⟩,
  ⟨0xC001A8, [(0x100, 2)], [(F.FTL_JNL_ANCHOR_1_FAILED 0, .RO), (F.FTL_JNL_ANCHOR_1_BLOCK 0, .RW)]⟩]
/-- The registers of block FTL (R476). -/
def regRowsFtl : List RegDef := regRowsFtl0 ++ regRowsFtl1 ++ regRowsFtl2 ++ regRowsFtl3 ++ regRowsFtl4 ++ regRowsFtl5 ++ regRowsFtl6 ++ regRowsFtl7

def regRowsMed0 : List RegDef := [
  ⟨0xD00000, [], [(F.MED_CTRL_LANE_THRESH, .RW), (F.MED_CTRL_DIE_DEPTH, .RWL)]⟩,
  ⟨0xD00004, [], [(F.MED_SUSPEND_CFG_MIN_RUN_US, .RWL), (F.MED_SUSPEND_CFG_GUARD_PCT, .RWL), (F.MED_SUSPEND_CFG_PROG_MAX, .RWL), (F.MED_SUSPEND_CFG_ERASE_MAX, .RWL)]⟩,
  ⟨0xD00010, [], [(F.MED_PARAM_CMD_START, .W1P), (F.MED_PARAM_CMD_BUSY, .RO), (F.MED_PARAM_CMD_PAGE, .RW), (F.MED_PARAM_CMD_DIE, .RW), (F.MED_PARAM_CMD_MODULE, .RW)]⟩,
  ⟨0xD00014, [], [(F.MED_PARAM_ADDR_LO_ADDR, .RW)]⟩,
  ⟨0xD00018, [], [(F.MED_PARAM_ADDR_HI_ADDR, .RW)]⟩,
  ⟨0xD0001C, [], [(F.MED_PARAM_RESULT_VALID, .RO), (F.MED_PARAM_RESULT_SEEN, .RO), (F.MED_PARAM_RESULT_SEQ, .RO), (F.MED_PARAM_RESULT_STATUS, .RO)]⟩,
  ⟨0xD00020, [], [(F.MED_ERR_COUNTS_REPLAYS, .RO), (F.MED_ERR_COUNTS_DISCARDS, .RO)]⟩,
  ⟨0xD00024, [], [(F.MED_SUSPENDS_ERASE, .RO), (F.MED_SUSPENDS_PROGRAM, .RO)]⟩,
  ⟨0xD00028, [], [(F.MED_ALERT_LAST_CODE, .RO), (F.MED_ALERT_LAST_MODULE, .RO), (F.MED_ALERT_LAST_DIE, .RO)]⟩,
  ⟨0xD0002C, [], [(F.MED_EVENTS_QUEUE_FULL, .RO), (F.MED_EVENTS_CLAIM_REFUSED, .RO), (F.MED_EVENTS_BAD_ALERTS, .RO)]⟩,
  ⟨0xD00030, [], [(F.MED_OPS_LO_COUNT, .RO)]⟩,
  ⟨0xD00034, [], [(F.MED_OPS_HI_COUNT, .RO)]⟩]
def regRowsMed1 : List RegDef := [
  ⟨0xD00038, [], [(F.MED_OPS_WRAPS_WRAPS, .RO)]⟩,
  ⟨0xD00070, [], [(F.MED_ISR_PARAM_DONE, .W1C), (F.MED_ISR_HOT, .W1C), (F.MED_ISR_ALERT, .W1C), (F.MED_ISR_LEASE_FAULT, .W1C), (F.MED_ISR_DEGRADED, .W1C), (F.MED_ISR_PORT_DOWN, .W1C), (F.MED_ISR_PORT_UP, .W1C)]⟩,
  ⟨0xD00074, [], [(F.MED_IER_PARAM_DONE, .RW), (F.MED_IER_HOT, .RW), (F.MED_IER_ALERT, .RW), (F.MED_IER_LEASE_FAULT, .RW), (F.MED_IER_DEGRADED, .RW), (F.MED_IER_PORT_DOWN, .RW), (F.MED_IER_PORT_UP, .RW)]⟩,
  ⟨0xD00078, [], [(F.MED_ISR_SET_PARAM_DONE, .W1P), (F.MED_ISR_SET_HOT, .W1P), (F.MED_ISR_SET_ALERT, .W1P), (F.MED_ISR_SET_LEASE_FAULT, .W1P), (F.MED_ISR_SET_DEGRADED, .W1P), (F.MED_ISR_SET_PORT_DOWN, .W1P), (F.MED_ISR_SET_PORT_UP, .W1P)]⟩,
  ⟨0xD01000, [(0x4, 64)], [(F.MED_PORT_STATUS_PRESENT 0, .RO), (F.MED_PORT_STATUS_UP 0, .RO), (F.MED_PORT_STATUS_RECOVERING 0, .RO), (F.MED_PORT_STATUS_PARAM_BAD 0, .RO), (F.MED_PORT_STATUS_POWER_WARN 0, .RO), (F.MED_PORT_STATUS_DEGRADED 0, .RO), (F.MED_PORT_STATUS_WIDTH 0, .RO)]⟩]
/-- The registers of block MED (R476). -/
def regRowsMed : List RegDef := regRowsMed0 ++ regRowsMed1

def regRowsLdc0 : List RegDef := [
  ⟨0xE00000, [], [(F.LDC_HARD_CFG_MAX_ITER, .RW)]⟩,
  ⟨0xE00004, [], [(F.LDC_SOFT_CFG_DELTA, .RW), (F.LDC_SOFT_CFG_FIVE_READS, .RW), (F.LDC_SOFT_CFG_MAX_ITER, .RW)]⟩,
  ⟨0xE00008, [], [(F.LDC_LLR_CFG_MIN_COUNT, .RW), (F.LDC_LLR_CFG_FREEZE, .RW)]⟩,
  ⟨0xE0000C, [], [(F.LDC_CAL_CFG_GAIN, .RW), (F.LDC_CAL_CFG_DEADBAND, .RW), (F.LDC_CAL_CFG_MIN_ERR, .RW), (F.LDC_CAL_CFG_PROBE, .RW)]⟩,
  ⟨0xE00010, [], [(F.LDC_CAL_CTRL_ENABLE, .RW), (F.LDC_CAL_CTRL_MAX_STEP, .RW), (F.LDC_CAL_CTRL_PERIOD_LOG2, .RW)]⟩,
  ⟨0xE00018, [], [(F.LDC_TABLE_BASE_LO_BASE_LO, .RWL)]⟩,
  ⟨0xE0001C, [], [(F.LDC_TABLE_BASE_HI_BASE_HI, .RWL)]⟩,
  ⟨0xE00040, [], [(F.LDC_HARD_OK_LO_COUNT, .RO)]⟩,
  ⟨0xE00044, [], [(F.LDC_HARD_OK_HI_COUNT, .RO)]⟩,
  ⟨0xE00048, [], [(F.LDC_SOFT_OK_LO_COUNT, .RO)]⟩,
  ⟨0xE0004C, [], [(F.LDC_SOFT_OK_HI_COUNT, .RO)]⟩,
  ⟨0xE00050, [], [(F.LDC_FAILED_LO_COUNT, .RO)]⟩]
def regRowsLdc1 : List RegDef := [
  ⟨0xE00054, [], [(F.LDC_FAILED_HI_COUNT, .RO)]⟩,
  ⟨0xE00058, [], [(F.LDC_DEC_WRAPS_FAILED_WRAPS, .RO), (F.LDC_DEC_WRAPS_SOFT_WRAPS, .RO), (F.LDC_DEC_WRAPS_HARD_WRAPS, .RO)]⟩,
  ⟨0xE00060, [], [(F.LDC_EVENTS_OFFSET_SAT, .RO), (F.LDC_EVENTS_CAL_ABORT, .RO), (F.LDC_EVENTS_MSG_SAT, .RO)]⟩,
  ⟨0xE00070, [], [(F.LDC_ISR_CAL_ABORT, .W1C), (F.LDC_ISR_CAL_FLAG, .W1C), (F.LDC_ISR_OFFSET_SAT, .W1C), (F.LDC_ISR_FAILED, .W1C)]⟩,
  ⟨0xE00074, [], [(F.LDC_IER_CAL_ABORT, .RW), (F.LDC_IER_CAL_FLAG, .RW), (F.LDC_IER_OFFSET_SAT, .RW), (F.LDC_IER_FAILED, .RW)]⟩,
  ⟨0xE00078, [], [(F.LDC_ISR_SET_CAL_ABORT, .W1P), (F.LDC_ISR_SET_CAL_FLAG, .W1P), (F.LDC_ISR_SET_OFFSET_SAT, .W1P), (F.LDC_ISR_SET_FAILED, .W1P)]⟩]
/-- The registers of block LDC (R476). -/
def regRowsLdc : List RegDef := regRowsLdc0 ++ regRowsLdc1

def regRowsStr0 : List RegDef := [
  ⟨0xF00000, [], [(F.STR_CTRL_AWAY_LIMIT, .RW), (F.STR_CTRL_HELD_LIMIT, .RW), (F.STR_CTRL_PAD_US, .RW)]⟩,
  ⟨0xF00008, [], [(F.STR_REGION_BASE_LO_ADDR, .RWL)]⟩,
  ⟨0xF0000C, [], [(F.STR_REGION_BASE_HI_ADDR, .RWL)]⟩,
  ⟨0xF00010, [], [(F.STR_RECON_LO_COUNT, .RO)]⟩,
  ⟨0xF00014, [], [(F.STR_RECON_HI_COUNT, .RO)]⟩,
  ⟨0xF00018, [], [(F.STR_RECON_WRAPS_WRAPS, .RO)]⟩,
  ⟨0xF0001C, [], [(F.STR_ERRS_UNRECOVERED, .RO), (F.STR_ERRS_SUBSTITUTED, .RO)]⟩,
  ⟨0xF00070, [], [(F.STR_ISR_SB_SKIPPED, .W1C), (F.STR_ISR_UNRECOVERED, .W1C), (F.STR_ISR_EXPOSED, .W1C), (F.STR_ISR_DIE_FAILED, .W1C), (F.STR_ISR_MOD_BACK, .W1C), (F.STR_ISR_MOD_LOST, .W1C), (F.STR_ISR_MOD_AWAY, .W1C)]⟩,
  ⟨0xF00074, [], [(F.STR_IER_SB_SKIPPED, .RW), (F.STR_IER_UNRECOVERED, .RW), (F.STR_IER_EXPOSED, .RW), (F.STR_IER_DIE_FAILED, .RW), (F.STR_IER_MOD_BACK, .RW), (F.STR_IER_MOD_LOST, .RW), (F.STR_IER_MOD_AWAY, .RW)]⟩,
  ⟨0xF00078, [], [(F.STR_ISR_SET_SB_SKIPPED, .W1P), (F.STR_ISR_SET_UNRECOVERED, .W1P), (F.STR_ISR_SET_EXPOSED, .W1P), (F.STR_ISR_SET_DIE_FAILED, .W1P), (F.STR_ISR_SET_MOD_BACK, .W1P), (F.STR_ISR_SET_MOD_LOST, .W1P), (F.STR_ISR_SET_MOD_AWAY, .W1P)]⟩,
  ⟨0xF00100, [(0x100, 2)], [(F.STR_REBUILD_CAND_VALID 0, .RO), (F.STR_REBUILD_CAND_UNAVAIL 0, .RO), (F.STR_REBUILD_CAND_SB 0, .RO)]⟩,
  ⟨0xF00104, [(0x100, 2)], [(F.STR_DEGRADED_COUNT 0, .RO)]⟩]
def regRowsStr1 : List RegDef := [
  ⟨0xF00108, [(0x100, 2)], [(F.STR_EXPOSED_BROKEN 0, .RO), (F.STR_EXPOSED_EXPOSED 0, .RO)]⟩,
  ⟨0xF01000, [(0x4, 64)], [(F.STR_MOD_AWAY_UNITS 0, .RO), (F.STR_MOD_STATE 0, .RO)]⟩]
/-- The registers of block STR (R476). -/
def regRowsStr : List RegDef := regRowsStr0 ++ regRowsStr1

def regRowsCmt0 : List RegDef := [
  ⟨0x1000000, [], [(F.CMT_CTRL_WB_RESUME_MIB, .RW), (F.CMT_CTRL_EGRESS_RESV, .RWL), (F.CMT_CTRL_SOLO_POLICY, .RW), (F.CMT_CTRL_FORCE_WT, .RW)]⟩,
  ⟨0x1000004, [], [(F.CMT_STATUS_WT_CAUSE, .RO), (F.CMT_STATUS_ADMIT_HELD, .RO), (F.CMT_STATUS_SOLO, .RO), (F.CMT_STATUS_MODE, .RO)]⟩,
  ⟨0x1000008, [], [(F.CMT_DIRTY_LIMIT_LO_LIMIT_LO, .RO)]⟩,
  ⟨0x100000C, [], [(F.CMT_DIRTY_LIMIT_HI_LIMIT_HI, .RO)]⟩,
  ⟨0x1000010, [], [(F.CMT_DIRTY_CAP_LO_CAP_LO, .RW)]⟩,
  ⟨0x1000014, [], [(F.CMT_DIRTY_CAP_HI_CAP_HI, .RW)]⟩,
  ⟨0x1000018, [], [(F.CMT_DIRTY_BYTES_LO_BYTES_LO, .RO)]⟩,
  ⟨0x100001C, [], [(F.CMT_DIRTY_BYTES_HI_BYTES_HI, .RO)]⟩,
  ⟨0x1000020, [], [(F.CMT_RING_STATUS_MIRROR_CREDITS, .RO), (F.CMT_RING_STATUS_OWN_FREE, .RO)]⟩,
  ⟨0x1000028, [], [(F.CMT_STG_BASE_LO_BASE_LO, .RWL)]⟩,
  ⟨0x100002C, [], [(F.CMT_STG_BASE_HI_BASE_HI, .RWL)]⟩,
  ⟨0x1000030, [], [(F.CMT_STG_OWN_SLOTS_SLOTS, .RWL)]⟩]
def regRowsCmt1 : List RegDef := [
  ⟨0x1000034, [], [(F.CMT_STG_MIRROR_SLOTS_SLOTS, .RWL)]⟩,
  ⟨0x1000038, [], [(F.CMT_LAT_OVER, .RO), (F.CMT_LAT_MAX_NS, .RO)]⟩,
  ⟨0x100003C, [], [(F.CMT_ERRS_GUARD_MISMATCH, .RO), (F.CMT_ERRS_STAGING_POISON, .RO)]⟩,
  ⟨0x1000040, [], [(F.CMT_ISR_LAT_OVER, .W1C), (F.CMT_ISR_HELD_LONG, .W1C), (F.CMT_ISR_GUARD, .W1C), (F.CMT_ISR_WT_EXIT, .W1C), (F.CMT_ISR_WT_ENTER, .W1C)]⟩,
  ⟨0x1000044, [], [(F.CMT_IER_LAT_OVER, .RW), (F.CMT_IER_HELD_LONG, .RW), (F.CMT_IER_GUARD, .RW), (F.CMT_IER_WT_EXIT, .RW), (F.CMT_IER_WT_ENTER, .RW)]⟩,
  ⟨0x1000048, [], [(F.CMT_ISR_SET_LAT_OVER, .W1P), (F.CMT_ISR_SET_HELD_LONG, .W1P), (F.CMT_ISR_SET_GUARD, .W1P), (F.CMT_ISR_SET_WT_EXIT, .W1P), (F.CMT_ISR_SET_WT_ENTER, .W1P)]⟩]
/-- The registers of block CMT (R476). -/
def regRowsCmt : List RegDef := regRowsCmt0 ++ regRowsCmt1

def regRowsEfm0 : List RegDef := [
  ⟨0x1100000, [], [(F.EFM_LINK_STATUS_ID_CLASH, .RO), (F.EFM_LINK_STATUS_RECOVERING, .RO), (F.EFM_LINK_STATUS_UP, .RO), (F.EFM_LINK_STATUS_RX_SPARES, .RO), (F.EFM_LINK_STATUS_TX_SPARES, .RO)]⟩,
  ⟨0x1100004, [], [(F.EFM_CTRL_SPARE_THRESH, .RW), (F.EFM_CTRL_RETRAIN, .W1P)]⟩,
  ⟨0x1100008, [], [(F.EFM_LANE_MAP_RX_ACTIVE, .RO)]⟩,
  ⟨0x110000C, [], [(F.EFM_ERR_COUNTS_REPLAYS, .RO), (F.EFM_ERR_COUNTS_DISCARDS, .RO)]⟩,
  ⟨0x11000F0, [], [(F.EFM_ISR_RECOVERY, .W1C), (F.EFM_ISR_SPARED, .W1C), (F.EFM_ISR_DOWN, .W1C), (F.EFM_ISR_UP, .W1C)]⟩,
  ⟨0x11000F4, [], [(F.EFM_IER_RECOVERY, .RW), (F.EFM_IER_SPARED, .RW), (F.EFM_IER_DOWN, .RW), (F.EFM_IER_UP, .RW)]⟩,
  ⟨0x11000F8, [], [(F.EFM_ISR_SET_RECOVERY, .W1P), (F.EFM_ISR_SET_SPARED, .W1P), (F.EFM_ISR_SET_DOWN, .W1P), (F.EFM_ISR_SET_UP, .W1P)]⟩]
/-- The registers of block EFM (R476). -/
def regRowsEfm : List RegDef := regRowsEfm0

def regRowsNvq0 : List RegDef := [
  ⟨0x1200000, [], [(F.NVQ_CTRL_PACE_START_PCT, .RW), (F.NVQ_CTRL_PACE_EN, .RW), (F.NVQ_CTRL_ENABLE, .RWL)]⟩,
  ⟨0x1200008, [], [(F.NVQ_REGION_BASE_LO_ADDR, .RWL)]⟩,
  ⟨0x120000C, [], [(F.NVQ_REGION_BASE_HI_ADDR, .RWL)]⟩,
  ⟨0x1200010, [], [(F.NVQ_PACE_MEDIA_MBPS, .RW)]⟩,
  ⟨0x1200014, [], [(F.NVQ_WT_MBPS_MBPS, .RW)]⟩,
  ⟨0x1200018, [], [(F.NVQ_RATE_W_MBPS, .RO)]⟩,
  ⟨0x120001C, [], [(F.NVQ_RATE_R_MBPS, .RO)]⟩,
  ⟨0x1200020, [], [(F.NVQ_TCP_CFG_LIMIT_PCT, .RW)]⟩,
  ⟨0x1200024, [], [(F.NVQ_THAW_START, .W1P), (F.NVQ_THAW_QUEUE, .RW)]⟩,
  ⟨0x1200028, [], [(F.NVQ_FROZEN_COUNT, .RO)]⟩,
  ⟨0x1200030, [], [(F.NVQ_CMDS_LO_COUNT, .RO)]⟩,
  ⟨0x1200034, [], [(F.NVQ_CMDS_HI_COUNT, .RO)]⟩]
def regRowsNvq1 : List RegDef := [
  ⟨0x1200038, [], [(F.NVQ_CMDS_WRAPS_WRAPS, .RO)]⟩,
  ⟨0x120003C, [], [(F.NVQ_EVENTS_FREEZES, .RO), (F.NVQ_EVENTS_DIGEST_FAIL, .RO), (F.NVQ_EVENTS_NS_MISMATCH, .RO)]⟩,
  ⟨0x1200040, [], [(F.NVQ_ADM_TAIL_INDEX, .RO)]⟩,
  ⟨0x1200044, [], [(F.NVQ_ADM_HEAD_INDEX, .RW)]⟩,
  ⟨0x1200070, [], [(F.NVQ_ISR_TCP_LIMIT, .W1C), (F.NVQ_ISR_PACING, .W1C), (F.NVQ_ISR_NS_MISMATCH, .W1C), (F.NVQ_ISR_ADMIN, .W1C), (F.NVQ_ISR_FROZEN, .W1C)]⟩,
  ⟨0x1200074, [], [(F.NVQ_IER_TCP_LIMIT, .RW), (F.NVQ_IER_PACING, .RW), (F.NVQ_IER_NS_MISMATCH, .RW), (F.NVQ_IER_ADMIN, .RW), (F.NVQ_IER_FROZEN, .RW)]⟩,
  ⟨0x1200078, [], [(F.NVQ_ISR_SET_TCP_LIMIT, .W1P), (F.NVQ_ISR_SET_PACING, .W1P), (F.NVQ_ISR_SET_NS_MISMATCH, .W1P), (F.NVQ_ISR_SET_ADMIN, .W1P), (F.NVQ_ISR_SET_FROZEN, .W1P)]⟩]
/-- The registers of block NVQ (R476). -/
def regRowsNvq : List RegDef := regRowsNvq0 ++ regRowsNvq1

def regRowsRdt0 : List RegDef := [
  ⟨0x1300000, [], [(F.RDT_CTRL_ACK_COALESCE, .RW), (F.RDT_CTRL_CC_EN, .RW), (F.RDT_CTRL_ENABLE, .RWL)]⟩,
  ⟨0x1300008, [], [(F.RDT_QPC_BASE_LO_BASE_LO, .RWL)]⟩,
  ⟨0x1300010, [], [(F.RDT_MR_BASE_LO_BASE_LO, .RWL)]⟩,
  ⟨0x1300018, [], [(F.RDT_EVQ_BASE_LO_BASE_LO, .RWL)]⟩,
  ⟨0x130000C, [], [(F.RDT_QPC_BASE_HI_BASE_HI, .RWL)]⟩,
  ⟨0x1300014, [], [(F.RDT_MR_BASE_HI_BASE_HI, .RWL)]⟩,
  ⟨0x130001C, [], [(F.RDT_EVQ_BASE_HI_BASE_HI, .RWL)]⟩,
  ⟨0x1300020, [], [(F.RDT_CMD_START, .W1P), (F.RDT_CMD_BUSY, .RO), (F.RDT_CMD_OP, .RW), (F.RDT_CMD_ARG, .RW)]⟩,
  ⟨0x1300024, [], [(F.RDT_CMD_ADDR_LO_ADDR, .RW)]⟩,
  ⟨0x1300028, [], [(F.RDT_CMD_ADDR_HI_ADDR, .RW)]⟩,
  ⟨0x130002C, [], [(F.RDT_CMD_RESULT_VALID, .RO), (F.RDT_CMD_RESULT_SEEN, .RO), (F.RDT_CMD_RESULT_SEQ, .RO), (F.RDT_CMD_RESULT_CODE, .RO)]⟩,
  ⟨0x1300030, [], [(F.RDT_CACHE_STATUS_PINNED, .RO), (F.RDT_CACHE_STATUS_CACHED, .RO)]⟩]
def regRowsRdt1 : List RegDef := [
  ⟨0x1300034, [], [(F.RDT_PARK_STATUS_PEAK, .RO), (F.RDT_PARK_STATUS_PARKED, .RO)]⟩,
  ⟨0x1300038, [], [(F.RDT_DROPS_PARK_DROP, .RO), (F.RDT_DROPS_NO_QP, .RO), (F.RDT_DROPS_CPL_LOST, .RO)]⟩,
  ⟨0x130003C, [], [(F.RDT_DUP_EVENTS_DUP_ACKED, .RO), (F.RDT_DUP_EVENTS_DUP_STALE, .RO)]⟩,
  ⟨0x1300040, [], [(F.RDT_QUAR_CFG_QUAR_TURNS, .RW)]⟩,
  ⟨0x1300044, [], [(F.RDT_QUAR_COUNT_BOBBINS, .RO)]⟩,
  ⟨0x1300048, [], [(F.RDT_TALLY_CFG_PENDING, .RO)]⟩,
  ⟨0x130004C, [], [(F.RDT_TALLY_TIMEOUT_TIMEOUT, .RW)]⟩,
  ⟨0x1300050, [], [(F.RDT_CC_CFG_G, .RW), (F.RDT_CC_CFG_CNP_GAP_US, .RW)]⟩,
  ⟨0x1300054, [], [(F.RDT_CC_TIMERS_INC_US, .RW), (F.RDT_CC_TIMERS_ALPHA_US, .RW)]⟩,
  ⟨0x1300058, [], [(F.RDT_CC_RATES_AI_MBPS, .RW), (F.RDT_CC_RATES_MIN_MBPS, .RW)]⟩,
  ⟨0x130005C, [], [(F.RDT_CNP_COUNTS_SENT, .RO), (F.RDT_CNP_COUNTS_RECEIVED, .RO)]⟩,
  ⟨0x1300060, [], [(F.RDT_EVQ_TAIL_INDEX, .RO)]⟩]
def regRowsRdt2 : List RegDef := [
  ⟨0x1300064, [], [(F.RDT_EVQ_HEAD_INDEX, .RW)]⟩,
  ⟨0x1300068, [], [(F.RDT_TENANT_ERRS_QP_ERRS, .RO), (F.RDT_TENANT_ERRS_DISABLED, .RO), (F.RDT_TENANT_ERRS_SYS_LOST, .RO)]⟩,
  ⟨0x13000F0, [], [(F.RDT_ISR_CMD_DONE, .W1C), (F.RDT_ISR_PARK_DROP, .W1C), (F.RDT_ISR_PIN_FULL, .W1C), (F.RDT_ISR_TENANT_ERR, .W1C), (F.RDT_ISR_SYS_QP_ERR, .W1C)]⟩,
  ⟨0x13000F4, [], [(F.RDT_IER_CMD_DONE, .RW), (F.RDT_IER_PARK_DROP, .RW), (F.RDT_IER_PIN_FULL, .RW), (F.RDT_IER_TENANT_ERR, .RW), (F.RDT_IER_SYS_QP_ERR, .RW)]⟩,
  ⟨0x13000F8, [], [(F.RDT_ISR_SET_CMD_DONE, .W1P), (F.RDT_ISR_SET_PARK_DROP, .W1P), (F.RDT_ISR_SET_PIN_FULL, .W1P), (F.RDT_ISR_SET_TENANT_ERR, .W1P), (F.RDT_ISR_SET_SYS_QP_ERR, .W1P)]⟩]
/-- The registers of block RDT (R476). -/
def regRowsRdt : List RegDef := regRowsRdt0 ++ regRowsRdt1 ++ regRowsRdt2

def regRowsEth0 : List RegDef := [
  ⟨0x1401000, [(0x40, 16)], [(F.ETH_PORT_CTRL_PFC_EN 0, .RW), (F.ETH_PORT_CTRL_PTP_EN 0, .RW), (F.ETH_PORT_CTRL_AN_EN 0, .RW), (F.ETH_PORT_CTRL_ENABLE 0, .RW)]⟩,
  ⟨0x1401004, [(0x40, 16)], [(F.ETH_PORT_STATUS_LANES 0, .RO), (F.ETH_PORT_STATUS_SPEED 0, .RO), (F.ETH_PORT_STATUS_AN_DONE 0, .RO), (F.ETH_PORT_STATUS_FEC_LOCK 0, .RO), (F.ETH_PORT_STATUS_UP 0, .RO)]⟩,
  ⟨0x1401008, [(0x40, 16)], [(F.ETH_FEC_UNCORR 0, .RO), (F.ETH_FEC_CORR 0, .RO)]⟩,
  ⟨0x140100C, [(0x40, 16)], [(F.ETH_PAUSE_TX 0, .RO), (F.ETH_PAUSE_RX 0, .RO)]⟩,
  ⟨0x1401010, [(0x40, 16)], [(F.ETH_ETS_LO_WEIGHTS 0, .RW)]⟩,
  ⟨0x1401014, [(0x40, 16)], [(F.ETH_ETS_HI_WEIGHTS 0, .RW)]⟩,
  ⟨0x1401020, [(0x40, 16)], [(F.ETH_RX_FRAMES_LO_COUNT 0, .RO)]⟩,
  ⟨0x1401024, [(0x40, 16)], [(F.ETH_RX_FRAMES_HI_COUNT 0, .RO)]⟩,
  ⟨0x1401028, [(0x40, 16)], [(F.ETH_TX_FRAMES_LO_COUNT 0, .RO)]⟩,
  ⟨0x140102C, [(0x40, 16)], [(F.ETH_TX_FRAMES_HI_COUNT 0, .RO)]⟩,
  ⟨0x1401030, [(0x40, 16)], [(F.ETH_FRAME_WRAPS_TX_WRAPS 0, .RO), (F.ETH_FRAME_WRAPS_RX_WRAPS 0, .RO)]⟩,
  ⟨0x1401034, [(0x40, 16)], [(F.ETH_DROPS_ICRC 0, .RO), (F.ETH_DROPS_FCS 0, .RO)]⟩]
def regRowsEth1 : List RegDef := [
  ⟨0x1400070, [], [(F.ETH_ISR_FEC_UNCORR, .W1C), (F.ETH_ISR_LINK_DOWN, .W1C), (F.ETH_ISR_LINK_UP, .W1C)]⟩,
  ⟨0x1400074, [], [(F.ETH_IER_FEC_UNCORR, .RW), (F.ETH_IER_LINK_DOWN, .RW), (F.ETH_IER_LINK_UP, .RW)]⟩,
  ⟨0x1400078, [], [(F.ETH_ISR_SET_FEC_UNCORR, .W1P), (F.ETH_ISR_SET_LINK_DOWN, .W1P), (F.ETH_ISR_SET_LINK_UP, .W1P)]⟩]
/-- The registers of block ETH (R476). -/
def regRowsEth : List RegDef := regRowsEth0 ++ regRowsEth1

def regRowsPci0 : List RegDef := [
  ⟨0x1500000, [(0x4, 4)], [(F.PCI_PORT_STATUS_VFS 0, .RO), (F.PCI_PORT_STATUS_ENDPOINT 0, .RO), (F.PCI_PORT_STATUS_LANES 0, .RO), (F.PCI_PORT_STATUS_SPEED 0, .RO), (F.PCI_PORT_STATUS_UP 0, .RO)]⟩,
  ⟨0x15000F0, [], [(F.PCI_ISR_LINK, .W1C)]⟩,
  ⟨0x15000F4, [], [(F.PCI_IER_LINK, .RW)]⟩,
  ⟨0x15000F8, [], [(F.PCI_ISR_SET_LINK, .W1P)]⟩]
/-- The registers of block PCI (R476). -/
def regRowsPci : List RegDef := regRowsPci0

def regRowsMtf0 : List RegDef := [
  ⟨0x1600008, [], [(F.MTF_REGION_BASE_LO_ADDR, .RWL)]⟩,
  ⟨0x160000C, [], [(F.MTF_REGION_BASE_HI_ADDR, .RWL)]⟩,
  ⟨0x1600010, [], [(F.MTF_CMD_START, .W1P), (F.MTF_CMD_BUSY, .RO), (F.MTF_CMD_OP, .RW), (F.MTF_CMD_MODE, .RW), (F.MTF_CMD_SLOT, .RW)]⟩,
  ⟨0x1600014, [], [(F.MTF_CMD_ARG_VOLUME, .RW)]⟩,
  ⟨0x1600018, [], [(F.MTF_CMD_ADDR_LO_ADDR, .RW)]⟩,
  ⟨0x160001C, [], [(F.MTF_CMD_ADDR_HI_ADDR, .RW)]⟩,
  ⟨0x1600020, [], [(F.MTF_CMD_RESULT_VALID, .RO), (F.MTF_CMD_RESULT_SEEN, .RO), (F.MTF_CMD_RESULT_SEQ, .RO), (F.MTF_CMD_RESULT_CODE, .RO)]⟩,
  ⟨0x1600100, [(0x20, 4), (0x4, 8)], [(F.MTF_OPKEY_HASH 0 0, .RWL)]⟩,
  ⟨0x1600070, [], [(F.MTF_ISR_FAULT, .W1C), (F.MTF_ISR_LOADED, .W1C), (F.MTF_ISR_CMD_DONE, .W1C)]⟩,
  ⟨0x1600074, [], [(F.MTF_IER_FAULT, .RW), (F.MTF_IER_LOADED, .RW), (F.MTF_IER_CMD_DONE, .RW)]⟩,
  ⟨0x1600078, [], [(F.MTF_ISR_SET_FAULT, .W1P), (F.MTF_ISR_SET_LOADED, .W1P), (F.MTF_ISR_SET_CMD_DONE, .W1P)]⟩,
  ⟨0x1601000, [(0x20, 8)], [(F.MTF_SLOT_STATUS_TENANT 0, .RO), (F.MTF_SLOT_STATUS_CAUSE 0, .RO), (F.MTF_SLOT_STATUS_GROUP 0, .RO), (F.MTF_SLOT_STATUS_LEADER 0, .RO), (F.MTF_SLOT_STATUS_STATE 0, .RO)]⟩]
def regRowsMtf1 : List RegDef := [
  ⟨0x1601004, [(0x20, 8)], [(F.MTF_SLOT_POWER_CAP_MW 0, .RW), (F.MTF_SLOT_POWER_NOW_MW 0, .RO)]⟩,
  ⟨0x1601008, [(0x20, 8)], [(F.MTF_SLOT_BINDS_BINDINGS 0, .RO)]⟩,
  ⟨0x160100C, [(0x20, 8)], [(F.MTF_SLOT_EVENTS_SKIPS 0, .RO), (F.MTF_SLOT_EVENTS_THROTTLES 0, .RO), (F.MTF_SLOT_EVENTS_VIOLATIONS 0, .RO)]⟩]
/-- The registers of block MTF (R476). -/
def regRowsMtf : List RegDef := regRowsMtf0 ++ regRowsMtf1

def regRowsUpd0 : List RegDef := [
  ⟨0x1700000, [], [(F.UPD_CTRL_PAUSE_US, .RW)]⟩,
  ⟨0x1700004, [], [(F.UPD_CONFIRM_TURNS_TURNS, .RW)]⟩,
  ⟨0x1700008, [], [(F.UPD_IMG_ADDR_LO_ADDR, .RW)]⟩,
  ⟨0x170000C, [], [(F.UPD_IMG_ADDR_HI_ADDR, .RW)]⟩,
  ⟨0x1700010, [], [(F.UPD_IMG_LEN_LENGTH, .RW)]⟩,
  ⟨0x1700014, [], [(F.UPD_CMD_START, .W1P), (F.UPD_CMD_BUSY, .RO), (F.UPD_CMD_OP, .RW), (F.UPD_CMD_CLASS, .RW), (F.UPD_CMD_ARG, .RW)]⟩,
  ⟨0x1700018, [], [(F.UPD_RESULT_VALID, .RO), (F.UPD_RESULT_SEEN, .RO), (F.UPD_RESULT_SEQ, .RO), (F.UPD_RESULT_CODE, .RO)]⟩,
  ⟨0x170001C, [], [(F.UPD_BIND_BOUND_ON, .W1P), (F.UPD_BIND_BOUND_OFF, .W1P)]⟩,
  ⟨0x1700020, [], [(F.UPD_STATUS_PHASE, .RO), (F.UPD_STATUS_CLASS, .RO), (F.UPD_STATUS_NEW_CLUSTERS, .RO), (F.UPD_STATUS_SUSPENDED, .RO), (F.UPD_STATUS_FROG_ADVISED, .RO), (F.UPD_STATUS_DIR_STALE, .RO), (F.UPD_STATUS_STEP_FAILS, .RO)]⟩,
  ⟨0x1700044, [(0x4, 7)], [(F.UPD_RUN_VERSION_VERSION 1, .RO)]⟩,
  ⟨0x1700060, [], [(F.UPD_LEVEL_PARTNER, .RO), (F.UPD_LEVEL_OWN, .RO)]⟩,
  ⟨0x1700064, [], [(F.UPD_PEER_MIN_PARTNER, .RO), (F.UPD_PEER_MIN_OWN, .RO)]⟩]
def regRowsUpd1 : List RegDef := [
  ⟨0x1700084, [(0x4, 7)], [(F.UPD_FLOOR_FLOOR 1, .RO)]⟩,
  ⟨0x17000A0, [], [(F.UPD_EPOCH_EPOCH, .RO)]⟩,
  ⟨0x17000A4, [], [(F.UPD_FUSE_ROWS_LEFT, .RO)]⟩,
  ⟨0x17000A8, [], [(F.UPD_FLOOR_CMD_START, .W1P), (F.UPD_FLOOR_CMD_BUSY, .RO), (F.UPD_FLOOR_CMD_CLASS, .RW)]⟩,
  ⟨0x17000AC, [], [(F.UPD_FLOOR_VALUE_VALUE, .RW)]⟩,
  ⟨0x17000B0, [], [(F.UPD_FLOOR_RESULT_VALID, .RO), (F.UPD_FLOOR_RESULT_SEEN, .RO), (F.UPD_FLOOR_RESULT_SEQ, .RO), (F.UPD_FLOOR_RESULT_CODE, .RO)]⟩,
  ⟨0x17000B4, [], [(F.UPD_PAUSE_STEPS, .RO), (F.UPD_PAUSE_MAX_NS, .RO)]⟩,
  ⟨0x17000F0, [], [(F.UPD_ISR_PEER_LEVEL, .W1C), (F.UPD_ISR_SUSPENDED, .W1C), (F.UPD_ISR_FROG_ADVISED, .W1C), (F.UPD_ISR_STEP_FAIL, .W1C), (F.UPD_ISR_FLOOR_DONE, .W1C), (F.UPD_ISR_CMD_DONE, .W1C)]⟩,
  ⟨0x17000F4, [], [(F.UPD_IER_PEER_LEVEL, .RW), (F.UPD_IER_SUSPENDED, .RW), (F.UPD_IER_FROG_ADVISED, .RW), (F.UPD_IER_STEP_FAIL, .RW), (F.UPD_IER_FLOOR_DONE, .RW), (F.UPD_IER_CMD_DONE, .RW)]⟩,
  ⟨0x17000F8, [], [(F.UPD_ISR_SET_PEER_LEVEL, .W1P), (F.UPD_ISR_SET_SUSPENDED, .W1P), (F.UPD_ISR_SET_FROG_ADVISED, .W1P), (F.UPD_ISR_SET_STEP_FAIL, .W1P), (F.UPD_ISR_SET_FLOOR_DONE, .W1P), (F.UPD_ISR_SET_CMD_DONE, .W1P)]⟩]
/-- The registers of block UPD (R476). -/
def regRowsUpd : List RegDef := regRowsUpd0 ++ regRowsUpd1

def regRowsRpj0 : List RegDef := [
  ⟨0x1800000, [], [(F.RPJ_CTRL_TYPE_MASK, .RW), (F.RPJ_CTRL_TRACE_CL, .RW), (F.RPJ_CTRL_TRACE, .RW), (F.RPJ_CTRL_REPLAY, .RW), (F.RPJ_CTRL_FREEZE, .RW)]⟩,
  ⟨0x1800008, [], [(F.RPJ_RING_BASE_LO_ADDR, .RWL)]⟩,
  ⟨0x180000C, [], [(F.RPJ_RING_BASE_HI_ADDR, .RWL)]⟩,
  ⟨0x1800010, [], [(F.RPJ_TRACE_BASE_LO_ADDR, .RWL)]⟩,
  ⟨0x1800014, [], [(F.RPJ_TRACE_BASE_HI_ADDR, .RWL)]⟩,
  ⟨0x1800018, [], [(F.RPJ_RING_CFG_CKPT_TURNS, .RW), (F.RPJ_RING_CFG_RING_LOG2, .RWL)]⟩,
  ⟨0x180001C, [], [(F.RPJ_RSEQ_COUNT, .RO)]⟩,
  ⟨0x1800020, [], [(F.RPJ_DROPS_COUNT, .RO)]⟩,
  ⟨0x1800024, [], [(F.RPJ_EXP_CMD_START, .W1P), (F.RPJ_EXP_CMD_BUSY, .RO), (F.RPJ_EXP_CMD_EXP_SLOT, .RW), (F.RPJ_EXP_CMD_SEGMENT, .RW)]⟩,
  ⟨0x180002C, [], [(F.RPJ_EXP_ADDR_LO_VALUE, .RW)]⟩,
  ⟨0x1800030, [], [(F.RPJ_EXP_ADDR_HI_VALUE, .RW)]⟩,
  ⟨0x1800028, [], [(F.RPJ_EXP_FIXED_VALUE, .RW)]⟩]
def regRowsRpj1 : List RegDef := [
  ⟨0x1800034, [], [(F.RPJ_EXP_RESULT_VALID, .RO), (F.RPJ_EXP_RESULT_SEEN, .RO), (F.RPJ_EXP_RESULT_SEQ, .RO), (F.RPJ_EXP_RESULT_CODE, .RO)]⟩,
  ⟨0x1800038, [], [(F.RPJ_REPLAY_STATUS_DIVERGED, .RO), (F.RPJ_REPLAY_STATUS_GAP_END, .RO), (F.RPJ_REPLAY_STATUS_RSEQ, .RO)]⟩,
  ⟨0x180003C, [], [(F.RPJ_DBG_LEVEL, .RO), (F.RPJ_DBG_EVENTS, .RO)]⟩,
  ⟨0x18000F0, [], [(F.RPJ_ISR_REPLAY_STOP, .W1C), (F.RPJ_ISR_DROP, .W1C), (F.RPJ_ISR_EXP_DONE, .W1C), (F.RPJ_ISR_CKPT, .W1C)]⟩,
  ⟨0x18000F4, [], [(F.RPJ_IER_REPLAY_STOP, .RW), (F.RPJ_IER_DROP, .RW), (F.RPJ_IER_EXP_DONE, .RW), (F.RPJ_IER_CKPT, .RW)]⟩,
  ⟨0x18000F8, [], [(F.RPJ_ISR_SET_REPLAY_STOP, .W1P), (F.RPJ_ISR_SET_DROP, .W1P), (F.RPJ_ISR_SET_EXP_DONE, .W1P), (F.RPJ_ISR_SET_CKPT, .W1P)]⟩]
/-- The registers of block RPJ (R476). -/
def regRowsRpj : List RegDef := regRowsRpj0 ++ regRowsRpj1

def regRowsTlm0 : List RegDef := [
  ⟨0x1900000, [], [(F.TLM_CTRL_REBUILD, .W1P)]⟩,
  ⟨0x1900004, [], [(F.TLM_GAUGE_SEQ_SEQ, .RO)]⟩,
  ⟨0x1900008, [], [(F.TLM_TJ_MAX, .RO), (F.TLM_TJ_NOW, .RO)]⟩,
  ⟨0x1900010, [], [(F.TLM_TJ_TURNS_LO_VALUE, .RWL)]⟩,
  ⟨0x1900014, [], [(F.TLM_TJ_TURNS_HI_VALUE, .RWL)]⟩,
  ⟨0x1900018, [], [(F.TLM_TJ_SUM_LO_VALUE, .RWL)]⟩,
  ⟨0x190001C, [], [(F.TLM_TJ_SUM_HI_VALUE, .RWL)]⟩,
  ⟨0x1900020, [], [(F.TLM_TJ_HOT_LO_VALUE, .RWL)]⟩,
  ⟨0x1900024, [], [(F.TLM_TJ_HOT_HI_VALUE, .RWL)]⟩,
  ⟨0x1900028, [], [(F.TLM_TJ_OVER_LO_VALUE, .RWL)]⟩,
  ⟨0x190002C, [], [(F.TLM_TJ_OVER_HI_VALUE, .RWL)]⟩,
  ⟨0x1900040, [(0x4, 16)], [(F.TLM_TJ_HIST_UNITS 0, .RWL)]⟩]
def regRowsTlm1 : List RegDef := [
  ⟨0x19000F0, [], [(F.TLM_ISR_REBUILT, .W1C), (F.TLM_ISR_OVER, .W1C), (F.TLM_ISR_PROFILE, .W1C), (F.TLM_ISR_GAUGE, .W1C)]⟩,
  ⟨0x19000F4, [], [(F.TLM_IER_REBUILT, .RW), (F.TLM_IER_OVER, .RW), (F.TLM_IER_PROFILE, .RW), (F.TLM_IER_GAUGE, .RW)]⟩,
  ⟨0x19000F8, [], [(F.TLM_ISR_SET_REBUILT, .W1P), (F.TLM_ISR_SET_OVER, .W1P), (F.TLM_ISR_SET_PROFILE, .W1P), (F.TLM_ISR_SET_GAUGE, .W1P)]⟩,
  ⟨0x1900100, [(0x100, 2)], [(F.TLM_SPARE_TOTAL_BLOCKS 0, .RW)]⟩,
  ⟨0x1900104, [(0x100, 2)], [(F.TLM_BAD_AT_CREATION_BLOCKS 0, .RW)]⟩,
  ⟨0x1900108, [(0x100, 2)], [(F.TLM_BAD_BLOCKS 0, .RO)]⟩,
  ⟨0x190010C, [(0x100, 2)], [(F.TLM_SPARE_PCT 0, .RO)]⟩,
  ⟨0x1901000, [(0x10, 64)], [(F.TLM_MOD_WEAR_MAX 0, .RO), (F.TLM_MOD_WEAR_AVG 0, .RO)]⟩,
  ⟨0x1901004, [(0x10, 64)], [(F.TLM_MOD_TEMP_MAX 0, .RO), (F.TLM_MOD_TEMP_NOW 0, .RO)]⟩,
  ⟨0x1901008, [(0x10, 64)], [(F.TLM_MOD_SOFT_COUNT 0, .RO)]⟩,
  ⟨0x190100C, [(0x10, 64)], [(F.TLM_MOD_ERRS_FAILED 0, .RO), (F.TLM_MOD_ERRS_RETIRED 0, .RO)]⟩]
/-- The registers of block TLM (R476). -/
def regRowsTlm : List RegDef := regRowsTlm0 ++ regRowsTlm1

def regRowsIrq0 : List RegDef := [
  ⟨0x1A00000, [], [(F.IRQ_PENDING_LINE, .RO)]⟩,
  ⟨0x1A00004, [], [(F.IRQ_ERR_CORR_BLOCKS, .W1C)]⟩,
  ⟨0x1A00008, [], [(F.IRQ_ERR_DEFER_BLOCKS, .W1C)]⟩,
  ⟨0x1A0000C, [], [(F.IRQ_ERR_FATAL_BLOCKS, .W1C)]⟩,
  ⟨0x1A00010, [], [(F.IRQ_FATAL_TIMER_RUNNING, .RO), (F.IRQ_FATAL_TIMER_LEFT_NS, .RO)]⟩,
  ⟨0x1A00014, [], [(F.IRQ_SWAP_HOLDING, .RO), (F.IRQ_SWAP_SWAP, .W1P)]⟩,
  ⟨0x1A00018, [], [(F.IRQ_ACCESS_ERR_COUNT, .RO), (F.IRQ_ACCESS_ERR_OFFSET, .RO)]⟩,
  ⟨0x1A000F0, [], [(F.IRQ_ISR_FATAL, .W1C), (F.IRQ_ISR_ACCESS_ERR, .W1C)]⟩,
  ⟨0x1A000F4, [], [(F.IRQ_IER_FATAL, .RW), (F.IRQ_IER_ACCESS_ERR, .RW)]⟩,
  ⟨0x1A000F8, [], [(F.IRQ_ISR_SET_FATAL, .W1P), (F.IRQ_ISR_SET_ACCESS_ERR, .W1P)]⟩,
  ⟨0x1A01000, [(0x4, 896)], [(F.IRQ_ROUTE_SHADOW 0, .RW), (F.IRQ_ROUTE_ACTIVE 0, .RW)]⟩]
/-- The registers of block IRQ (R476). -/
def regRowsIrq : List RegDef := regRowsIrq0

def regRowsSnp0 : List RegDef := [
  ⟨0x1B00000, [], [(F.SNP_CTRL_SEAL_LIMIT, .RW), (F.SNP_CTRL_GUARD_NS, .RW)]⟩,
  ⟨0x1B00008, [], [(F.SNP_REGION_BASE_LO_ADDR, .RWL)]⟩,
  ⟨0x1B0000C, [], [(F.SNP_REGION_BASE_HI_ADDR, .RWL)]⟩,
  ⟨0x1B00010, [], [(F.SNP_CMD_START, .W1P), (F.SNP_CMD_BUSY, .RO), (F.SNP_CMD_FROM_EMPTY, .RW), (F.SNP_CMD_OP, .RW), (F.SNP_CMD_COUNT, .RW)]⟩,
  ⟨0x1B00014, [], [(F.SNP_CMD_ADDR_LO_ADDR, .RW)]⟩,
  ⟨0x1B00018, [], [(F.SNP_CMD_ADDR_HI_ADDR, .RW)]⟩,
  ⟨0x1B0001C, [], [(F.SNP_CMD_ARG_ARG, .RW)]⟩,
  ⟨0x1B00020, [], [(F.SNP_CMD_ARG2_ARG2, .RW)]⟩,
  ⟨0x1B00024, [], [(F.SNP_CMD_VALUE_LO_VALUE, .RW)]⟩,
  ⟨0x1B00028, [], [(F.SNP_CMD_VALUE_HI_VALUE, .RW)]⟩,
  ⟨0x1B0002C, [], [(F.SNP_CMD_RESULT_VALID, .RO), (F.SNP_CMD_RESULT_SEEN, .RO), (F.SNP_CMD_RESULT_SEQ, .RO), (F.SNP_CMD_RESULT_CODE, .RO)]⟩,
  ⟨0x1B00030, [], [(F.SNP_DELTA_NEXT_LO_LBA, .RO)]⟩]
def regRowsSnp1 : List RegDef := [
  ⟨0x1B00034, [], [(F.SNP_DELTA_NEXT_HI_LBA, .RO)]⟩,
  ⟨0x1B00038, [], [(F.SNP_DELTA_WRITTEN_ENTRIES, .RO)]⟩,
  ⟨0x1B00040, [], [(F.SNP_CUT_RESULT_VALID, .RO), (F.SNP_CUT_RESULT_SEEN, .RO), (F.SNP_CUT_RESULT_CODE, .RO), (F.SNP_CUT_RESULT_SEQ, .RO), (F.SNP_CUT_RESULT_SET, .RO)]⟩,
  ⟨0x1B00044, [], [(F.SNP_CUT_SEQ_LO_S_CUT, .RO)]⟩,
  ⟨0x1B00048, [], [(F.SNP_CUT_SEQ_HI_S_CUT, .RO)]⟩,
  ⟨0x1B00050, [], [(F.SNP_LINK_EVENTS_AUTH_FAIL, .RO), (F.SNP_LINK_EVENTS_SEQ_REJECT, .RO)]⟩,
  ⟨0x1B00070, [], [(F.SNP_ISR_FRACTURED, .W1C), (F.SNP_ISR_AUTH_FAIL, .W1C), (F.SNP_ISR_RX_CUT, .W1C), (F.SNP_ISR_CUT_FAILED, .W1C), (F.SNP_ISR_CUT_DONE, .W1C), (F.SNP_ISR_CMD_DONE, .W1C)]⟩,
  ⟨0x1B00074, [], [(F.SNP_IER_FRACTURED, .RW), (F.SNP_IER_AUTH_FAIL, .RW), (F.SNP_IER_RX_CUT, .RW), (F.SNP_IER_CUT_FAILED, .RW), (F.SNP_IER_CUT_DONE, .RW), (F.SNP_IER_CMD_DONE, .RW)]⟩,
  ⟨0x1B00078, [], [(F.SNP_ISR_SET_FRACTURED, .W1P), (F.SNP_ISR_SET_AUTH_FAIL, .W1P), (F.SNP_ISR_SET_RX_CUT, .W1P), (F.SNP_ISR_SET_CUT_FAILED, .W1P), (F.SNP_ISR_SET_CUT_DONE, .W1P), (F.SNP_ISR_SET_CMD_DONE, .W1P)]⟩]
/-- The registers of block SNP (R476). -/
def regRowsSnp : List RegDef := regRowsSnp0 ++ regRowsSnp1

/-- The rows of block number b, bits [27:20] of the window offset (R465, R476). -/
def regRows (b : Nat) : List RegDef :=
  match b with
  | 0 => regRowsGlb
  | 1 => regRowsCrp
  | 2 => regRowsRpr
  | 3 => regRowsTrn
  | 4 => regRowsCtl
  | 5 => regRowsSec
  | 6 => regRowsScc
  | 7 => regRowsDmc
  | 8 => regRowsBbm
  | 9 => regRowsRow
  | 10 => regRowsDdp
  | 11 => regRowsCmp
  | 12 => regRowsFtl
  | 13 => regRowsMed
  | 14 => regRowsLdc
  | 15 => regRowsStr
  | 16 => regRowsCmt
  | 17 => regRowsEfm
  | 18 => regRowsNvq
  | 19 => regRowsRdt
  | 20 => regRowsEth
  | 21 => regRowsPci
  | 22 => regRowsMtf
  | 23 => regRowsUpd
  | 24 => regRowsRpj
  | 25 => regRowsTlm
  | 26 => regRowsIrq
  | 27 => regRowsSnp
  | _ => []

/-- Does the distance d from a row's first instance name one of its instances? -/
def dimsHit : List (Nat × Nat) → Nat → Bool
  | [], d => d == 0
  | (stride, count) :: r, d => decide (d / stride < count) && dimsHit r (d % stride)

/-- The register at a window offset, its fields moved to that offset; none where the offset is
unassigned (R465). -/
def regAt (off : Nat) : Option (List (Fld × Access)) :=
  ((regRows (off / 0x100000)).find? fun r => decide (r.off ≤ off) && dimsHit r.dims (off - r.off)).map
    fun r => r.fields.map fun p => (⟨off, p.1.lo, p.1.width, p.1.reset⟩, p.2)

/-- A row of a side table: the offset of its first register, its dimensions, and a list of numbers
(the offsets of a pair's companions, or the low bits of the fields that any write clears). -/
structure PairDef where
  off  : Nat
  dims : List (Nat × Nat)
  list : List Nat
  deriving DecidableEq, Repr

def pairRows0 : List PairDef := [
  ⟨0x30, [], []⟩,
  ⟨0x1000008, [], []⟩,
  ⟨0x1000010, [], []⟩,
  ⟨0x1000018, [], []⟩,
  ⟨0x1000028, [], []⟩,
  ⟨0x900040, [], []⟩,
  ⟨0x901048, [(0x100, 16)], [0x901050]⟩,
  ⟨0xA00008, [], []⟩,
  ⟨0xA00020, [], []⟩,
  ⟨0xA00040, [], [0xA00050]⟩,
  ⟨0xA00048, [], [0xA00050]⟩,
  ⟨0xA00058, [], []⟩,
  ⟨0xB00008, [], []⟩,
  ⟨0xB00040, [], [0xB00058]⟩,
  ⟨0xB00048, [], [0xB0005C]⟩,
  ⟨0xB00050, [], [0xB00058]⟩,
  ⟨0xB00100, [(0x8, 9)], [0xB00180]⟩,
  ⟨0xC00008, [], []⟩,
  ⟨0xC00010, [], []⟩,
  ⟨0xC00018, [], []⟩]
def pairRows1 : List PairDef := [
  ⟨0xC00028, [], []⟩,
  ⟨0xC00038, [], []⟩,
  ⟨0xC00080, [], [0xC00098]⟩,
  ⟨0xC00088, [], [0xC00098]⟩,
  ⟨0xC00090, [], [0xC00098]⟩,
  ⟨0xC00100, [(0x100, 2)], []⟩,
  ⟨0xC00110, [(0x100, 2)], []⟩,
  ⟨0xC00140, [(0x100, 2)], []⟩,
  ⟨0xC00148, [(0x100, 2)], []⟩,
  ⟨0xC00150, [(0x100, 2)], []⟩,
  ⟨0xC00418, [], []⟩,
  ⟨0xC00420, [], []⟩,
  ⟨0xC00428, [], []⟩,
  ⟨0xC00180, [(0x100, 2)], []⟩,
  ⟨0xC00188, [(0x100, 2)], []⟩,
  ⟨0xC00190, [(0x100, 2)], []⟩,
  ⟨0xD00014, [], []⟩,
  ⟨0xD00030, [], [0xD00038]⟩,
  ⟨0xE00018, [], []⟩,
  ⟨0xE00040, [], [0xE00058]⟩]
def pairRows2 : List PairDef := [
  ⟨0xE00048, [], [0xE00058]⟩,
  ⟨0xE00050, [], [0xE00058]⟩,
  ⟨0xF00008, [], []⟩,
  ⟨0xF00010, [], [0xF00018]⟩,
  ⟨0x1B00008, [], []⟩,
  ⟨0x1B00014, [], []⟩,
  ⟨0x1B00024, [], []⟩,
  ⟨0x1B00030, [], []⟩,
  ⟨0x1B00044, [], []⟩,
  ⟨0x1200008, [], []⟩,
  ⟨0x1200030, [], [0x1200038]⟩,
  ⟨0x1300008, [], []⟩,
  ⟨0x1300010, [], []⟩,
  ⟨0x1300018, [], []⟩,
  ⟨0x1300024, [], []⟩,
  ⟨0x1401010, [(0x40, 16)], []⟩,
  ⟨0x1401020, [(0x40, 16)], [0x1401030]⟩,
  ⟨0x1401028, [(0x40, 16)], [0x1401030]⟩,
  ⟨0x600040, [], []⟩,
  ⟨0x600048, [], []⟩]
def pairRows3 : List PairDef := [
  ⟨0x600064, [], []⟩,
  ⟨0x600080, [], [0x600090]⟩,
  ⟨0x600088, [], [0x600090]⟩,
  ⟨0x700018, [], []⟩,
  ⟨0x800008, [], []⟩,
  ⟨0x800014, [], []⟩,
  ⟨0x801000, [(0x20, 64)], []⟩,
  ⟨0x500018, [], []⟩,
  ⟨0x500028, [], []⟩,
  ⟨0x400044, [], []⟩,
  ⟨0x300010, [], []⟩,
  ⟨0x300018, [], []⟩,
  ⟨0x300020, [], []⟩,
  ⟨0x300028, [], [0x300020, 0x300024]⟩,
  ⟨0x300100, [(0x10, 16)], []⟩,
  ⟨0x1600008, [], []⟩,
  ⟨0x1600018, [], []⟩,
  ⟨0x1700008, [], []⟩,
  ⟨0x200018, [], []⟩,
  ⟨0x1900010, [], []⟩]
def pairRows4 : List PairDef := [
  ⟨0x1900018, [], []⟩,
  ⟨0x1900020, [], []⟩,
  ⟨0x1900028, [], []⟩,
  ⟨0x1800008, [], []⟩,
  ⟨0x1800010, [], []⟩,
  ⟨0x180002C, [], []⟩]
/-- The _LO registers, with the companions that a read of _LO latches beside _HI (R469): _HI lies 4 above. -/
def pairRows : List PairDef := pairRows0 ++ pairRows1 ++ pairRows2 ++ pairRows3 ++ pairRows4

def clearRows0 : List PairDef := [
  ⟨0x1000038, [], [16, 0]⟩,
  ⟨0x110000C, [], [16, 0]⟩,
  ⟨0x900064, [], [16, 0]⟩,
  ⟨0xA00060, [], [16, 0]⟩,
  ⟨0xA00064, [], [16, 0]⟩,
  ⟨0xA00068, [], [20, 8, 0]⟩,
  ⟨0xB00060, [], [24, 0]⟩,
  ⟨0xB00064, [], [0]⟩,
  ⟨0xC0009C, [], [16, 8, 0]⟩,
  ⟨0xC00460, [], [16, 0]⟩,
  ⟨0xD00020, [], [16, 0]⟩,
  ⟨0xD00024, [], [16, 0]⟩,
  ⟨0xD0002C, [], [16, 8, 0]⟩,
  ⟨0xE00060, [], [16, 8, 0]⟩,
  ⟨0xF0001C, [], [16, 0]⟩,
  ⟨0x1B00050, [], [16, 0]⟩,
  ⟨0x120003C, [], [16, 8, 0]⟩,
  ⟨0x1300034, [], [16]⟩,
  ⟨0x1300038, [], [16, 8, 0]⟩,
  ⟨0x130003C, [], [16, 0]⟩]
def clearRows1 : List PairDef := [
  ⟨0x130005C, [], [16, 0]⟩,
  ⟨0x1300068, [], [16, 8, 0]⟩,
  ⟨0x1401008, [(0x40, 16)], [16, 0]⟩,
  ⟨0x140100C, [(0x40, 16)], [16, 0]⟩,
  ⟨0x1401034, [(0x40, 16)], [16, 0]⟩,
  ⟨0x600060, [], [24, 16, 0]⟩,
  ⟨0x700100, [(0x4, 12)], [16, 0]⟩,
  ⟨0x800030, [], [16, 8, 0]⟩,
  ⟨0x50005C, [], [16, 0]⟩,
  ⟨0x500080, [], [16]⟩,
  ⟨0x4000A4, [], [16, 8, 0]⟩,
  ⟨0x400108, [(0x10, 4)], [16, 0]⟩,
  ⟨0x300038, [], [24, 16, 8, 0]⟩,
  ⟨0x160100C, [(0x20, 8)], [16, 8, 0]⟩,
  ⟨0x17000B4, [], [16, 0]⟩,
  ⟨0x1A00018, [], [26]⟩]
/-- The registers whose fields any write clears, by the low bits of those fields. -/
def clearRows : List PairDef := clearRows0 ++ clearRows1

/-- Is the window offset a _LO register? Its companions, moved to the same member of the row
(HIST_k, whose wrap counts step by 4 where the pair steps by 8, apart). -/
def pairAt (off : Nat) : Option (List Nat) :=
  (pairRows.find? fun r => decide (r.off ≤ off) && dimsHit r.dims (off - r.off)).map
    fun r => r.list.map fun c =>
      if r.off = 0xB00100 then 0xB00180 + (off - r.off) / 2 else c + (off - r.off)

/-- The low bits of the fields of a register that any write clears. -/
def clearsAt (off : Nat) : List Nat :=
  match clearRows.find? fun r => decide (r.off ≤ off) && dimsHit r.dims (off - r.off) with
  | some r => r.list
  | none => []

end Sys2Proof.Machine
end

