-- ==== Sys2Proof/Machine/Flags.lean ====
section
/-! DEFINITION. Register fields, counters, interrupt and error flags, the result-register convention,
the event log and the replay ring: the computations every command shares. -/
namespace Sys2Proof.Machine

/-! ### Whole registers -/

/-- The fields of a register, by the register table. -/
def regFields (off : Nat) : List (Fld × Access) := (regAt off).getD []

/-- What the access code lets a read see: WO and W1P fields read zero (R468). -/
def fieldRead (s : State) (p : Fld × Access) : Nat :=
  match p.2 with
  | .WO | .W1P => 0
  | _ => s.fld p.1 * 2 ^ p.1.lo

/-- The instance in whose bank a register lies: the banks of FTL, STR and TLM. The level of the
takeover reserve and the anchor blocks of FTL are not blanked (R492). -/
def bankOf (off : Nat) : Option Nat :=
  let b := off / 0x100000
  let r := off % 0x100000
  if (b = 0x0C ∨ b = 0x0F ∨ b = 0x19) ∧ 0x100 ≤ r ∧ r < 0x300 then
    if b = 0x0C ∧ (r % 0x100 = 0x70 ∨ r % 0x100 = 0xA4 ∨ r % 0x100 = 0xA8) then none else some (r / 0x100 - 1)
  else none

/-- Does the Pattern use a front-end port: ports of a group as its width has them (13)? A group's entry is the
number of its ports. -/
def portUsed (groups : List Nat) (p : Nat) : Bool :=
  match groups[p / 4]? with
  | some n => decide (1 ≤ n) && p % 4 % (4 / n) == 0
  | none => false

/-- Does a register read zero: the bank of an instance the head does not hold, a Motif slot that another slot leads, or a
front-end port that the Pattern does not use? -/
def State.bankBlank (s : State) (off : Nat) : Bool :=
  (match bankOf off with
   | some i => i != s.fld F.GLB_PAIR_STATUS_HEAD_ID && !s.flag F.GLB_PAIR_STATUS_SOLO
   | none => false) ||
  (decide (0x1601000 ≤ off) && decide (off < 0x1601100) &&
    (let k := (off - 0x1601000) / 0x20
     s.pattern.motif.any fun g => g.contains k && g.headD k != k)) ||
  (decide (0x1401000 ≤ off) && decide (off < 0x1401400) && !portUsed s.pattern.ethernet ((off - 0x1401000) / 0x40))

/-- The offset of a block's _ISR register. -/
def isrOff (b : Nat) : Nat :=
  b * 0x100000 +
    (match b with
     | 0x03 | 0x09 | 0x0A | 0x0B | 0x0D | 0x0E | 0x0F | 0x12 | 0x14 | 0x16 | 0x1B => 0x70
     | 0x10 => 0x40
     | _ => 0xF0)

/-- The _ISR registers of a block: FTL has one more, of the reclaim process. -/
def isrRegs (b : Nat) : List Nat := if b = 0x0C then [isrOff b, 0xC004F0] else [isrOff b]

/-- The bits of an _ISR that assert their sources: their _IER bits, 4 bytes above, are 1 (R472). -/
def State.assertedAt (s : State) (off : Nat) : List Nat :=
  ((regFields off).filter fun p => s.flag p.1 && s.flag { p.1 with off := p.1.off + 4 }).map fun p => p.1.lo

/-- Has a block an asserted source? -/
def State.blockAsserted (s : State) (b : Nat) : Bool := (isrRegs b).any fun o => !(s.assertedAt o).isEmpty

/-- The register as its fields stand; an unassigned offset and every reserved bit read zero, and so does
the bank of an instance the head does not hold. IRQ_PENDING.LINE shows the blocks with an asserted source. -/
def State.rawReg (s : State) (off : Nat) : Nat :=
  if s.bankBlank off then 0
  else if off = 0x1A00000 then ((List.range 28).map fun b => if s.blockAsserted b then 2 ^ b else 0).sum
  else ((regFields off).map (fieldRead s)).foldl (· + ·) 0

/-- The bits of a written word that fall on a field. -/
def wordField (f : Fld) (w : Nat) : Nat := w / 2 ^ f.lo % 2 ^ f.width

/-! ### Free values, messages sent -/

/-- Draw a free value of a width (log entry 3). -/
def State.free (s : State) (width : Nat) : Nat × State :=
  (Config.freeValue s.fresh % 2 ^ width, { s with fresh := s.fresh + 1 })

/-- Does a message leave the head over its ports, Efmo, Purl or the TURN bus? -/
def Sent.external : Sent → Bool
  | .regRead .. | .jtagChallenge .. | .turnRelease | .smbus .. | .memData .. | .bobbin .. | .cmPacket .. | .tenantEvent .. | .refereeText .. | .blkIn .. | .slotCqe .. => false
  | _ => true

/-- Does a message travel on a trained Efmo link? The parameter exchange itself does not need one. -/
def Sent.onEfmo : Sent → Bool
  | .efmoLaneSpare .. | .efmoNak .. | .efmoReplay .. | .efmoMarker .. | .efmoAck .. | .efmoBlock .. | .efmoForward .. | .efmoSlotReply ..
  | .efmoReadData .. | .efmoGroup .. | .efmoHorizon .. | .efmoFinalJseq .. | .efmoLastSeq .. | .efmoGapRequest .. | .efmoMissing .. | .efmoArm ..
  | .efmoCancelArm .. | .efmoState .. | .efmoReady | .efmoFlushed | .efmoRefetch .. | .efmoRefetchReply .. => true
  | _ => false

/-- Does a message leave by a front-end port or the PCIe port? -/
def Sent.onPorts : Sent → Bool
  | .cqe .. | .hostData .. | .tcpDigest .. | .hostRead .. | .anaChange .. | .table .. | .roce .. | .roceResponse .. | .roceAck .. | .roceNak .. | .roceRnr .. | .roceCnp .. | .replication .. | .ethTrain .. => true
  | _ => false

/-- Is a message's way out closed by hold-up: the ports are powered down (R394 step 4), and a head that is not seated
issues no Purl operation (R486)? -/
def State.shut (s : State) (m : Sent) : Bool :=
  (m.onPorts && decide (2 ≤ s.ctl.hold.phase)) ||
  (s.ctl.hold.unseated && (match m with | .purlOp .. | .purlData .. => true | _ => false))

/-- The head transmits nothing: it is OFF, in FORFEIT (R27), or replays on a lab head (R460). -/
def State.silent (s : State) : Bool :=
  !s.pins.powered || s.fld F.GLB_PAIR_STATUS_STATE == 5 || s.flag F.RPJ_CTRL_REPLAY

/-- Send something: the newest stands last. A silent head sends nothing, and a link that is down carries nothing. -/
def State.send (s : State) (m : Sent) : State :=
  if (m.external && s.silent) || s.shut m || (m.onEfmo && !s.flag F.GLB_PAIR_STATUS_EFMO_UP) then s else { s with sent := s.sent ++ [m] }

/-! ### Time -/

/-- The stamp now: turn count in bits [63:10], pip in bits [9:0]. -/
def State.stamp (s : State) : Nat := s.pair F.TRN_NOW_LO_VALUE F.TRN_NOW_HI_VALUE

/-- The turn count. -/
def State.turn (s : State) : Nat := s.stamp / 1024

/-! ### Event log and replay ring (R453-R457, R462) -/

/-- Write an event log entry: code, block, severity, detail (R462). -/
def State.logEvent (s : State) (code block severity detail : Nat) : State :=
  let n := s.rpj.events
  ({ s with rpj := { s.rpj with
      events := n + 1
      log := s.rpj.log.put (n % 256)
        { stamp := s.stamp, code := code, block := block, severity := severity, detail := detail % 2 ^ 32 } } }).setFld
    F.RPJ_DBG_EVENTS (n + 1)

/-- Ring size in records: RING_LOG2 taken to the nearer of 0x14 and 0x20 (RPJ_RING_CFG). -/
def State.ringRecords (s : State) : Nat :=
  2 ^ (max 0x14 (min 0x20 (s.fld F.RPJ_RING_CFG_RING_LOG2))) / 32

/-- The DRAM address of the replay record numbered n (R453). -/
def State.recordAddr (s : State) (n : Nat) : Nat :=
  s.base F.RPJ_RING_BASE_LO_ADDR F.RPJ_RING_BASE_HI_ADDR 20 + n % s.ringRecords * 32

/-- Stop a replay (R461). -/
def State.stopReplay (s : State) (f : Fld) : State :=
  (((s.setFld F.RPJ_CTRL_REPLAY 0).setFld f 1).setFld F.RPJ_REPLAY_STATUS_RSEQ (s.fld F.RPJ_RSEQ_COUNT)).setFld
    F.RPJ_ISR_REPLAY_STOP 1

/-- In replay: compare a record with the recorded one of the same number, and stop at the first
difference or at a GAP record (R461; log entry 14). -/
def State.compareRecord (s : State) (type inst payload : Nat) : State :=
  let a := s.recordAddr (s.fld F.RPJ_RSEQ_COUNT)
  if s.rdN (a + 8) 1 = 6 then s.stopReplay F.RPJ_REPLAY_STATUS_GAP_END
  else if s.rdN (a + 8) 1 = type ∧ s.rdN (a + 9) 1 = inst % 2 ∧ s.rdN (a + 16) 16 = payload % 2 ^ 128 then
    s.wrapInc F.RPJ_RSEQ_COUNT
  else s.stopReplay F.RPJ_REPLAY_STATUS_DIVERGED

/-- The lag at which the writer drops records: 4,096 of them, in quarters (R455). -/
def writerLag : Nat := 4 * 4096

def State.modRpj (s : State) (f : RpjSt → RpjSt) : State := { s with rpj := f s.rpj }

/-- RSEQ counts a record, written or not (R453). -/
def State.countRecord (s : State) : State :=
  if s.fld F.RPJ_RSEQ_COUNT = 2 ^ 32 - 1 then (s.wrapInc F.RPJ_RSEQ_COUNT).modRpj fun r => { r with wrapped := true } else s.wrapInc F.RPJ_RSEQ_COUNT

/-- A record is dropped and counted. -/
def State.dropRecord (s : State) : State := (s.inc F.RPJ_DROPS_COUNT).setFld F.RPJ_ISR_DROP 1

/-- The record numbered n is written. The nanoseconds since the pip began are a free value (log entry 10). -/
def State.putRecord (s : State) (n type inst payload : Nat) : State :=
  let (ns, t) := s.free 16
  t.wr (t.recordAddr n)
    (leBytes 8 t.stamp ++ leBytes 1 type ++ leBytes 1 (inst % 2) ++ leBytes 2 ns ++ leBytes 4 n ++ leBytes 16 payload)

/-- Write the replay record of a type (R453-R455): while FREEZE is set, or the writer is too far behind, it is dropped. -/
def State.record (s : State) (type inst : Nat) (payload : Nat) : State :=
  if s.fld F.RPJ_CTRL_TYPE_MASK / 2 ^ (type - 1) % 2 = 0 then s
  else if s.flag F.RPJ_CTRL_REPLAY then s.compareRecord type inst payload
  else
    let n := s.fld F.RPJ_RSEQ_COUNT
    if s.flag F.RPJ_CTRL_FREEZE then s.countRecord.dropRecord
    else if writerLag ≤ s.rpj.behind then
      (s.countRecord.modRpj fun r => { r with gap := some (match r.gap with | some g => (g.1, g.2 + 1) | none => (n, 1)) }).dropRecord
    else (s.countRecord.modRpj fun r => { r with behind := r.behind + 4 }).putRecord n type inst payload

/-- So many pips have passed: the writer writes 6 1/4 records in each, 64 M a second at the nominal turn; once it has caught up
it writes the GAP record (R455, log entry 194). -/
def State.writerOn (s : State) (pips : Nat) : State :=
  let n := s.rpj.behind - 25 * pips
  let s1 := s.modRpj fun r => { r with behind := n }
  match s.rpj.gap with
  | some g =>
    if n = 0 ∧ !s.flag F.RPJ_CTRL_FREEZE then (s1.modRpj fun r => { r with gap := none }).record 6 0 (g.1 + 2 ^ 32 * g.2) else s1
  | none => s1

/-! ### Interrupts and errors (R472-R475) -/

/-- The route fields of a source. -/
def routeActive (src : Nat) : Fld := F.IRQ_ROUTE_ACTIVE src

/-- Is a source held under R473? -/
def State.sourceHeld (s : State) (src : Nat) : Bool :=
  s.flag F.IRQ_SWAP_HOLDING && s.fld (F.IRQ_ROUTE_ACTIVE src) != s.fld (F.IRQ_ROUTE_SHADOW src)

/-- Set an _ISR bit: its event has occurred. Where that newly asserts the source and the source is not
held, the interrupt is delivered, which the replay journal records (R453 type 0x04, R472). The _IER
register lies 4 bytes above its _ISR. -/
def State.raise (s : State) (f : Fld) : State :=
  let s' := s.setFld f 1
  let b := f.off / 0x100000
  if !s.flag f && s.flag { f with off := f.off + 4 } && !s.sourceHeld (32 * b + f.lo) then
    s'.record 4 0 (b + 2 ^ 32 * s'.rawReg f.off)
  else s'

/-- A block reports a CORRECTED error (R474). -/
def State.errCorr (s : State) (b : Nat) : State :=
  s.setFld F.IRQ_ERR_CORR_BLOCKS (s.fld F.IRQ_ERR_CORR_BLOCKS ||| 2 ^ b)

/-- A block reports a DEFERRED error (R474), logged with the block's _ISR value (R462). -/
def State.errDefer (s : State) (b : Nat) : State :=
  (s.setFld F.IRQ_ERR_DEFER_BLOCKS (s.fld F.IRQ_ERR_DEFER_BLOCKS ||| 2 ^ b)).logEvent 3 b 2 (s.rawReg (isrOff b))

/-- A block reports a FATAL error (R474, R475): IRQ_ISR.FATAL, delivered whatever IRQ_IER and the routing hold, and the
50 us timer from the first one. -/
def State.errFatal (s : State) (b : Nat) : State :=
  let first := s.fld F.IRQ_ERR_FATAL_BLOCKS = 0
  let s1 := (s.setFld F.IRQ_ERR_FATAL_BLOCKS (s.fld F.IRQ_ERR_FATAL_BLOCKS ||| 2 ^ b)).logEvent 3 b 3 (s.rawReg (isrOff b))
  let s2 := if first then (let t := s1.setFld F.IRQ_ISR_FATAL 1; t.record 4 0 (0x1A + 2 ^ 32 * t.rawReg 0x1A000F0)) else s1
  if first && !s.flag F.IRQ_FATAL_TIMER_RUNNING then
    (s2.setFld F.IRQ_FATAL_TIMER_RUNNING 1).setFld F.IRQ_FATAL_TIMER_LEFT_NS 50000
  else s2

/-- A refused access: counted with its offset and raised (R465). -/
def State.refuseAccess (s : State) (off : Nat) : State :=
  ((s.inc F.IRQ_ACCESS_ERR_COUNT).setFld F.IRQ_ACCESS_ERR_OFFSET off).raise F.IRQ_ISR_ACCESS_ERR

/-! ### The result-register convention (R470) -/

/-- The VALID, SEEN and SEQ fields of a result register. -/
def resValid (off : Nat) : Fld := ⟨off, 31, 1, 0⟩
def resSeen (off : Nat) : Fld := ⟨off, 30, 1, 0⟩
def resSeq (off : Nat) : Fld := ⟨off, 16, 8, 0⟩

/-- An accepted START clears VALID and SEEN. -/
def State.resStart (s : State) (off : Nat) : State :=
  (s.setFld (resValid off) 0).setFld (resSeen off) 0

/-- Completion: the outcome fields, SEQ + 1, VALID set, SEEN cleared. -/
def State.resDone (s : State) (off : Nat) (outcome : List (Fld × Nat)) : State :=
  let s1 := outcome.foldl (fun t p => t.setFld p.1 p.2) s
  ((s1.setFld (resSeq off) (s.fld (resSeq off) + 1)).setFld (resValid off) 1).setFld (resSeen off) 0

end Sys2Proof.Machine
end

