-- ==== Sys2Proof/Machine/Ops.lean ====
section
/-! DEFINITION. The named operations over memory, register words and head-wide facts. -/
namespace Sys2Proof.Machine

/-! ### Changing one part of the state -/

def State.modMap (s : State) (f : MapSt → MapSt) : State := { s with map := f s.map }
def State.modFtl (s : State) (f : FtlSt → FtlSt) : State := { s with ftl := f s.ftl }
def State.modMedia (s : State) (f : MediaSt → MediaSt) : State := { s with media := f s.media }
def State.modCommit (s : State) (f : CommitSt → CommitSt) : State := { s with commit := f s.commit }
def State.modEfmo (s : State) (f : EfmoSt → EfmoSt) : State := { s with efmo := f s.efmo }
def State.modRows (s : State) (f : RowsSt → RowsSt) : State := { s with rows := f s.rows }
def State.modDdp (s : State) (f : DdpSt → DdpSt) : State := { s with ddp := f s.ddp }
def State.modTrn (s : State) (f : TrnSt → TrnSt) : State := { s with trn := f s.trn }
def State.modPair (s : State) (f : PairSt → PairSt) : State := { s with pairSt := f s.pairSt }
def State.modPins (s : State) (f : Pins → Pins) : State := { s with pins := f s.pins }
def State.modMtf (s : State) (f : MtfSt → MtfSt) : State := { s with mtf := f s.mtf }
def State.modCtl (s : State) (f : CtlSt → CtlSt) : State := { s with ctl := f s.ctl }
def State.modHold (s : State) (f : HoldSt → HoldSt) : State := { s with ctl := { s.ctl with hold := f s.ctl.hold } }
def State.modHealth (s : State) (f : HealthSt → HealthSt) : State := { s with health := f s.health }
def State.modScc (s : State) (f : SccSt → SccSt) : State := { s with scc := f s.scc }
def State.modBbm (s : State) (f : BbmSt → BbmSt) : State := { s with bbm := f s.bbm }
def State.modRdt (s : State) (f : RdtSt → RdtSt) : State := { s with rdt := f s.rdt }
def State.modSnp (s : State) (f : SnpSt → SnpSt) : State := { s with snp := f s.snp }
def State.modUpd (s : State) (f : UpdSt → UpdSt) : State := { s with upd := f s.upd }
def State.modBoot (s : State) (f : BootSt → BootSt) : State := { s with boot := f s.boot }

/-- A command's effect: a head that is OFF takes none (R23; log entry 24), and of all commands only those of the power
and reset lines change whether it is. -/
def State.live (s t : State) : State :=
  if s.pins.powered then { t with pins := { t.pins with powered := true } } else s

/-- What a meaning answers. -/
abbrev Result := Host.Outcome State Fault Refusal

/-- Run a register-START command: its argument fields are stored as RW fields are, and the command runs
unless the block is BUSY. -/
def State.startWith (s : State) (fields : List (Fld × Nat)) (busy : Bool) (run : State → State) : State :=
  let s1 := fields.foldl (fun t p => t.setFld p.1 p.2) s
  if busy then s1 else run s1

/-! ### Head-wide facts -/

/-- The head state codes of R25. -/
def stCastOn : Nat := 1
def stJoining : Nat := 2
def stPlaying : Nat := 3
def stHandover : Nat := 4
def stForfeit : Nat := 5

def State.headState (s : State) : Nat := s.fld F.GLB_PAIR_STATUS_STATE
def State.headId (s : State) : Nat := s.fld F.GLB_PAIR_STATUS_HEAD_ID
def State.solo (s : State) : Bool := s.flag F.GLB_PAIR_STATUS_SOLO
def State.efmoUp (s : State) : Bool := s.flag F.GLB_PAIR_STATUS_EFMO_UP
def State.playing (s : State) : Bool := s.headState == stPlaying
def State.inService (s : State) : Bool := s.headState == stPlaying || s.headState == stHandover

/-- Does this head hold an instance: its home instance, and both while it runs solo (R19, R35)? -/
def State.holds (s : State) (i : Nat) : Bool := i == s.headId || s.solo

/-- Does it serve an instance's volumes: not the partner's once a rejoin has passed it on (R37)? -/
def State.serves (s : State) (i : Nat) : Bool :=
  i == s.headId || (s.solo && !(s.pairSt.rejoin.any fun r => r.survivor && decide (5 ≤ r.step)))

/-- The epoch the head holds for a half (R22). -/
def State.epoch (s : State) (half : Nat) : Nat :=
  if half = 0 then s.fld F.GLB_LEASE_EPOCHS_HALF0 else s.fld F.GLB_LEASE_EPOCHS_HALF1

/-- Record the epoch of a half; LEASE_EPOCH follows the home half's (R22). -/
def State.setEpoch (s : State) (half e : Nat) : State :=
  let s' := s.setFld (if half = 0 then F.GLB_LEASE_EPOCHS_HALF0 else F.GLB_LEASE_EPOCHS_HALF1) e
  if half = s.headId then s'.setFld F.GLB_PAIR_STATUS_LEASE_EPOCH e else s'

/-- SOLO and its copy in CMT_STATUS. -/
def State.setSolo (s : State) (b : Bool) : State :=
  (s.setFlag F.GLB_PAIR_STATUS_SOLO b).setFlag F.CMT_STATUS_SOLO b

/-- Pick one of a pair of per-instance values. -/
def ofInst {α : Type} (p : α × α) (i : Nat) : α := if i = 0 then p.1 else p.2

/-- Replace one of a pair of per-instance values. -/
def putInst {α : Type} (p : α × α) (i : Nat) (v : α) : α × α := if i = 0 then (v, p.2) else (p.1, v)

/-! ### Register words (R468) -/

/-- May a requester's write reach a register at all? The registers that their chapters reserve to the
Referee cores ignore every other requester (R28, R349, R372, R467). -/
def refereeOnly (off : Nat) : Bool :=
  off == 0x14 || off / 0x100000 == 0x04 ||
  off == 0x500014 || off == 0x500048 ||
  (decide (0x500100 ≤ off) && decide (off < 0x500140)) ||
  (decide (0x1600100 ≤ off) && decide (off < 0x1600180)) ||
  off == 0x17000A8 || off == 0x17000AC || off == 0x1A0000C

/-- Apply a written word to one field by its access code; RWL takes it only in CAST_ON. -/
def writeField (locked : Bool) (w : Nat) (s : State) (p : Fld × Access) : State :=
  match p.2 with
  | .RW | .WO => s.setFld p.1 (wordField p.1 w)
  | .RWL => if locked then s else s.setFld p.1 (wordField p.1 w)
  | .W1C => s.setFld p.1 (s.fld p.1 - (s.fld p.1 &&& wordField p.1 w))
  | .RO | .W1P => s

/-- Would the word change a locked RWL field? -/
def changesLocked (s : State) (w : Nat) (p : Fld × Access) : Bool :=
  p.2 == .RWL && wordField p.1 w != s.fld p.1

/-- Clear the fields that any write clears. -/
def clearByWrite (s : State) (off : Nat) : State :=
  (clearsAt off).foldl (fun t lo =>
    match (regFields off).find? fun p => p.1.lo == lo with
    | some p => t.setFld p.1 0
    | none => t) s

/-- A word written to a register takes effect under its access codes (R468); a write that would change
a locked RWL field is counted as a refusal, its other fields take effect all the same. -/
def State.writeWord (s : State) (off w : Nat) : State :=
  let locked := s.headState != stCastOn
  let fs := regFields off
  let s1 := clearByWrite (fs.foldl (writeField locked w) s) off
  if locked && fs.any (changesLocked s w) then s1.refuseAccess off else s1

end Sys2Proof.Machine
end

