-- ==== Sys2Proof/Machine/CacheOps.lean ====
section
/-! DEFINITION. The system cache, the scratchpad and installed DRAM (14), as the operations that commands
share. The bytes of `dram` are the newest ones, whether a line is cached or not. -/
namespace Sys2Proof.Machine

/-! ### Addresses (R324, R328, R336) -/

def spadBase : Nat := 0xFE0000000000
def spadSize : Nat := 0x2000000

/-- Is an address in the scratchpad alias? -/
def inSpad (a : Nat) : Bool := decide (spadBase ≤ a) && decide (a < spadBase + spadSize)

/-- The highest physical DRAM address plus one. -/
def State.dramEnd (s : State) : Nat := 12 * s.fld F.DMC_INFO_CAP_GIB * 2 ^ 30 + 0x10000000

/-- Does an address name installed DRAM? -/
def State.installed (s : State) (a : Nat) : Bool :=
  s.fld F.DMC_INFO_CAP_GIB != 0 && (decide (a < 0xF0000000) || (decide (0x100000000 ≤ a) && decide (a < s.dramEnd)))

/-- Is it in the register window? -/
def inWindow (a : Nat) : Bool := decide (0xF0000000 ≤ a) && decide (a < 0xF4000000)

/-- The slice of an address. -/
def sliceOf (a : Nat) : Nat :=
  (List.range 8).foldl (fun x k => x ^^^ bits a (10 + 5 * k) (6 + 5 * k)) (bits a 47 46)

def setOf (a : Nat) : Nat := bits a 16 6
def setKey (line : Nat) : Nat := sliceOf (64 * line) * 2048 + setOf (64 * line)
def wayKey (line way : Nat) : Nat := setKey line * 16 + way

/-! ### Ways and replacement (R325, R327) -/

def State.spadWays (s : State) : Nat := s.fld F.SCC_STATUS_SPAD_WAYS

/-- The ways a class may allocate in. -/
def State.effMask (s : State) (cls : Nat) : List Nat :=
  (List.range 16).filter fun w => bit (s.fld (F.SCC_WAYMASK_MASK (cls % 8))) w && !bit s.spadWays w

/-- The way that holds a line. -/
def State.wayOf (s : State) (line : Nat) : Option Nat :=
  (List.range 16).find? fun w => (s.scc.lines.get? (wayKey line w)).any fun c => c.line == line

/-- Descend the tree: node n of 15, the ways below it from `lo`, `size` of them; a side with no way of the
mask is not entered. -/
def plruPick (tree : Nat) (mask : List Nat) : Nat → Nat → Nat → Nat → Nat
  | 0, _, lo, _ => lo
  | k + 1, n, lo, size =>
    let half := size / 2
    let has (l : Nat) : Bool := mask.any fun w => decide (l ≤ w) && decide (w < l + half)
    let right := (bit tree n && has (lo + half)) || !has lo
    if right then plruPick tree mask k (2 * n + 2) (lo + half) half else plruPick tree mask k (2 * n + 1) lo half

/-- Point the tree away from a way just used. -/
def plruTouch (way : Nat) : Nat → Nat → Nat → Nat → Nat → Nat
  | 0, _, _, _, tree => tree
  | k + 1, n, lo, size, tree =>
    let half := size / 2
    if lo + half ≤ way then plruTouch way k (2 * n + 2) (lo + half) half (setBits tree n n 0)
    else plruTouch way k (2 * n + 1) lo half (setBits tree n n 1)

def State.touch (s : State) (line way : Nat) : State :=
  let t := (s.scc.plru.get? (setKey line)).getD 0
  s.modScc fun c => { c with plru := c.plru.put (setKey line) (plruTouch way 4 0 0 16 t) }

/-- The way to allocate in: an invalid one of the mask before any valid one. -/
def State.pickWay (s : State) (line : Nat) (mask : List Nat) : Nat :=
  match mask.find? fun w => !s.scc.lines.has (wayKey line w) with
  | some w => w
  | none => plruPick ((s.scc.plru.get? (setKey line)).getD 0) mask 4 0 0 16

/-! ### Lines -/

def State.putLine (s : State) (line way : Nat) (c : CLine) : State :=
  (s.modScc fun x => { x with lines := x.lines.put (wayKey line way) c }).touch line way
def State.dropLine (s : State) (line way : Nat) : State := s.modScc fun x => { x with lines := x.lines.del (wayKey line way) }

def State.poisoned (s : State) (line : Nat) : Bool := s.scc.poison.contains line
def State.setPoison (s : State) (line : Nat) (b : Bool) : State :=
  s.modScc fun x => { x with poison := (x.poison.filter (· != line)) ++ (if b then [line] else []) }

/-- The victims of a slice. -/
def State.victimsOf (s : State) (line : Nat) : List Victim := s.scc.victims.filter fun v => sliceOf (64 * v.line) == sliceOf (64 * line)
def State.victim? (s : State) (line : Nat) : Option Victim := s.scc.victims.find? fun v => v.line == line
def State.dropVictim (s : State) (line : Nat) : State := s.modScc fun x => { x with victims := x.victims.filter fun v => v.line != line }

/-- Make room for a line in a way of a mask: a dirty line that stands there goes to the victim buffer; none
while that is full. -/
def State.makeRoom (s : State) (line : Nat) (mask : List Nat) : Option (Nat × State) :=
  let w := s.pickWay line mask
  match s.scc.lines.get? (wayKey line w) with
  | none => some (w, s)
  | some c =>
    if !c.dirty then some (w, s.dropLine line w)
    else if 16 ≤ (s.victimsOf line).length then none
    else some (w, (s.dropLine line w).modScc fun x => { x with victims := x.victims ++ [{ line := c.line, old := c.old }] })

/-- Apply the bytes of a request; a write of the whole line clears its poison (R337). -/
def State.applyReq (s : State) (r : MemReq) : State :=
  match r.data with
  | none => s.send (.memData r.cls r.addr (s.rd r.addr r.len) (s.poisoned (r.addr / 64)))
  | some d =>
    let s1 := s.wr r.addr d
    if r.addr % 64 = 0 ∧ d.length = 64 then s1.setPoison (r.addr / 64) false else s1

/-- Serve requests on a line that stands in a way; a write leaves it dirty. -/
def State.serve (s : State) (line way : Nat) (reqs : List MemReq) : State :=
  let old := s.rd (64 * line) 64
  let s1 := reqs.foldl State.applyReq s
  match s.scc.lines.get? (wayKey line way) with
  | none => s1
  | some c =>
    if reqs.any fun r => r.data.isSome then s1.putLine line way { c with dirty := true, old := if c.dirty then c.old else old }
    else s1.touch line way

/-- Count hits and misses. -/
def State.countHit (s : State) : State := s.count64 F.SCC_HITS_LO_COUNT F.SCC_HITS_HI_COUNT F.SCC_STAT_WRAPS_HIT_WRAPS
def State.countMiss (s : State) : State := s.count64 F.SCC_MISSES_LO_COUNT F.SCC_MISSES_HI_COUNT F.SCC_STAT_WRAPS_MISS_WRAPS

/-- Record a cache error's address. -/
def State.sccErrAt (s : State) (a : Nat) : State := (s.setPair F.SCC_ERR_ADDR_LO_ADDR F.SCC_ERR_ADDR_HI_ADDR a).raise F.SCC_ISR_ERR

/-- Discard dirty data: DRAM's bytes are the newest again. -/
def State.discard (s : State) (line : Nat) (old : Bytes) : State := s.wr (64 * line) old

/-- An error met at a cached line (R335); whether the line may still be used, and the state. The data of a dirty line
whose tag fails its parity cannot be written back, so that it is lost. -/
def State.cacheError (s : State) (line way : Nat) (c : CLine) (e : MemErr) : Bool × State :=
  match e with
  | .none => (true, s)
  | .tagParity =>
    let s1 := (s.inc F.SCC_ERRS_TAG_PARITY).raise F.SCC_ISR_ERR
    if c.dirty then (false, ((s1.discard line c.old).dropLine line way).errFatal 0x06) else (false, (s1.dropLine line way).errCorr 0x06)
  | .corrected => (true, ((s.inc F.SCC_ERRS_DATA_CORR).sccErrAt (64 * line)).errCorr 0x06)
  | .uncorrected =>
    let s1 := (s.inc F.SCC_ERRS_DATA_UNCORR).sccErrAt (64 * line)
    if c.dirty then (true, ((s1.setPoison line true).raise F.SCC_ISR_DATA_UNCORR).errDefer 0x06)
    else (false, ((s1.dropLine line way).raise F.SCC_ISR_DATA_UNCORR).errCorr 0x06)

/-- Does a request cover its whole line with a write? -/
def reqFull (r : MemReq) : Bool := r.addr % 64 == 0 && (r.data.map List.length) == some 64

/-- Install a line for its requests in the first request's class (R326, R334): a class with no way to
allocate in is served past the cache. None while the victim buffer is full. -/
def State.installLine (s : State) (line : Nat) (reqs : List MemReq) (dirtyOld : Option Bytes) : Option State :=
  let mask := s.effMask ((reqs.head?.map (·.cls)).getD 0)
  if mask.isEmpty then some (reqs.foldl State.applyReq s)
  else
    match s.makeRoom line mask with
    | none => none
    | some (w, s1) =>
      let c : CLine := { line := line, dirty := dirtyOld.isSome, old := dirtyOld.getD [] }
      some ((s1.putLine line w c).serve line w reqs)

/-- A request reaches its slice (R326, R334): one to a line with a request in the input queue waits behind it. Whether the
writeback of a victim has started when a write meets it is a free value. -/
def State.request (s : State) (r : MemReq) (e : MemErr) : State :=
  let line := r.addr / 64
  let wait (t : State) : State := t.modScc fun x => { x with waiting := x.waiting ++ [r] }
  if s.scc.waiting.any fun q => q.addr / 64 == line then wait s else
  match s.scc.misses.find? fun m => m.line == line with
  | some m =>
    if 8 ≤ m.reqs.length then wait s
    else (s.modScc fun x => { x with misses := x.misses.map fun n => if n.line == line then { n with reqs := n.reqs ++ [r] } else n }).countMiss
  | none =>
    let miss (t : State) : State :=
      match t.victim? line with
      | some v =>
        if r.data.isNone then (t.applyReq r).countHit
        else
          let (f, u) := t.free 1
          let old := if f = 1 then u.rd (64 * line) 64 else v.old
          (((u.dropVictim line).installLine line [r] (some old)).getD u).countHit
      | none =>
        if (t.effMask r.cls).isEmpty then (t.applyReq r).countMiss
        else if reqFull r then
          match t.installLine line [r] (some (t.rd (64 * line) 64)) with
          | some u => u.countMiss
          | none => wait t
        else if 64 ≤ (t.scc.misses.filter fun m => sliceOf (64 * m.line) == sliceOf r.addr).length then wait t
        else (t.modScc fun x => { x with misses := x.misses ++ [{ line := line, reqs := [r], filled := false }] }).countMiss
    match s.wayOf line with
    | some w =>
      match s.scc.lines.get? (wayKey line w) with
      | some c =>
        let (ok, s1) := s.cacheError line w c e
        if ok then (s1.serve line w [r]).countHit else miss s1
      | none => miss s
    | none => miss s

/-- Take the requests of a slice's input queue again, in order. -/
def State.retryWaiting (s : State) (slice : Nat) : State :=
  let mine := s.scc.waiting.filter fun r => sliceOf r.addr == slice
  let s1 := s.modScc fun x => { x with waiting := x.waiting.filter fun r => sliceOf r.addr != slice }
  mine.foldl (fun t r => t.request r .none) s1

/-- Install a line whose fill has come, where there is room, and take the slice's queue again. -/
def State.finishFill (s : State) (line : Nat) : State :=
  match s.scc.misses.find? fun m => m.line == line with
  | none => s
  | some m =>
    match (s.modScc fun x => { x with misses := x.misses.filter fun n => n.line != line }).installLine line m.reqs none with
    | some t => t.retryWaiting (sliceOf (64 * line))
    | none => s.modScc fun x => { x with misses := x.misses.map fun n => if n.line == line then { n with filled := true } else n }

/-! ### Scratchpad (R328) -/

/-- The place of an alias offset: way x 2^22 + offset within the way; none beyond the scratchpad ways. -/
def State.spadPlace (s : State) (o : Nat) : Option Nat :=
  ((((List.range 16).filter fun w => bit s.spadWays w))[o / 0x400000]?).map fun w => w * 0x400000 + o % 0x400000

/-- Read a byte by its physical address, alias included. -/
def State.physGet (s : State) (a : Nat) : Byte :=
  if inSpad a then match s.spadPlace (a - spadBase) with
    | some k => memGet s.scc.spad k
    | none => 0
  else memGet s.dram a

/-- Write a byte by its physical address; a write beyond the scratchpad ways is discarded. -/
def State.physSet (s : State) (a : Nat) (b : Byte) : State :=
  if inSpad a then match s.spadPlace (a - spadBase) with
    | some k => s.modScc fun x => { x with spad := memSet x.spad k b }
    | none => s.raise F.SCC_ISR_SPAD_RANGE
  else { s with dram := memSet s.dram a b }

def State.physRd (s : State) (a n : Nat) : Bytes := (List.range n).map fun k => s.physGet (a + k)
def State.physWr (s : State) (a : Nat) (d : Bytes) : State := (d.zipIdx).foldl (fun t p => t.physSet (a + p.2) p.1) s
def State.physRdN (s : State) (a n : Nat) : Nat := leNat (s.physRd a n)
def State.physWrN (s : State) (a n v : Nat) : State := s.physWr a (leBytes n v)

end Sys2Proof.Machine
end

