-- ==== Sys2Proof/Machine/BobbinOps.lean ====
section
/-! DEFINITION. Bobbin pools (14), as the operations that commands share. -/
namespace Sys2Proof.Machine

def noBobbin : Nat := 0xFFFFFFFF
def listEnd : Nat := 0x3FFFFFF

def handlePool (h : Nat) : Nat := h / 2 ^ 26 % 64
def handleIndex (h : Nat) : Nat := h % 2 ^ 26

/-! ### A pool's configuration (R340) -/

def State.poolLog2 (s : State) (p : Nat) : Nat := max 8 (min 0x15 (s.fld (F.BBM_POOL_CFG_SIZE_LOG2 p)))
def State.poolSize (s : State) (p : Nat) : Nat := 2 ^ s.poolLog2 p
def State.poolTenant (s : State) (p : Nat) : Nat := s.fld (F.BBM_POOL_CFG_TENANT p)
def State.poolCount (s : State) (p : Nat) : Nat := min 0x3FFFFFE (s.fld (F.BBM_POOL_COUNT_COUNT p))
def State.poolBase (s : State) (p : Nat) : Nat := s.base (F.BBM_POOL_BASE_LO_ADDR p) (F.BBM_POOL_BASE_HI_ADDR p) 8
def State.bobbinAddr (s : State) (h : Nat) : Nat := s.poolBase (handlePool h) + handleIndex h * s.poolSize (handlePool h)
def State.metaAddr (s : State) (p i : Nat) : Nat := s.poolBase p + s.poolCount p * s.poolSize p + 16 * i

/-! ### Meta entries (R341) -/

def State.refCount (s : State) (p i : Nat) : Nat := s.physRdN (s.metaAddr p i) 2
def State.owner (s : State) (p i : Nat) : Nat := s.physRdN (s.metaAddr p i + 2) 2
def State.bobState (s : State) (p i : Nat) : Nat := s.owner p i / 4096 % 4
def State.link (s : State) (p i : Nat) : Nat := s.physRdN (s.metaAddr p i + 4) 4 % 2 ^ 26
def State.marked (s : State) (p i : Nat) : Bool := bit (s.physRdN (s.metaAddr p i + 8) 4) 31

/-- Write a meta entry whole. -/
def State.putMeta (s : State) (p i ref own link mark turn : Nat) : State :=
  s.physWr (s.metaAddr p i) (leBytes 2 ref ++ leBytes 2 own ++ leBytes 4 link ++ leBytes 4 mark ++ leBytes 4 turn)

def State.setRef (s : State) (p i ref : Nat) : State := s.physWrN (s.metaAddr p i) 2 ref
def State.setOwner (s : State) (p i own : Nat) : State := s.physWrN (s.metaAddr p i + 2) 2 own

/-! ### Quotas (R343) -/

def State.quotaAddr (s : State) (t : Nat) : Nat := s.base F.BBM_QUOTA_BASE_LO_ADDR F.BBM_QUOTA_BASE_HI_ADDR 12 + 8 * t
def State.quotaLimit (s : State) (t : Nat) : Nat := s.rdN (s.quotaAddr t) 4
def State.quotaUsed (s : State) (t : Nat) : Nat := s.rdN (s.quotaAddr t + 4) 4
def State.setUsed (s : State) (t v : Nat) : State := s.wrN (s.quotaAddr t + 4) 4 v

/-- Units of 256 bytes of a bobbin of a pool. -/
def State.poolUnits (s : State) (p : Nat) : Nat := s.poolSize p / 256

/-! ### The free list (R345) -/

def State.freeCount (s : State) (p : Nat) : Nat := s.fld (F.BBM_POOL_STATUS_FREE_COUNT p)
def State.poolHead (s : State) (p : Nat) : Nat := (s.bbm.head.get? p).getD listEnd
def State.poolTail (s : State) (p : Nat) : Nat := (s.bbm.tail.get? p).getD listEnd

/-- The free list is corrupt: no more allocations from the pool, and a FATAL error. -/
def State.corruptPool (s : State) (p : Nat) : State :=
  ((s.setFld (F.BBM_POOL_STATUS_CORRUPT p) 1).raise F.BBM_ISR_CORRUPT).errFatal 0x08

/-- Append a bobbin at the tail of its free list. -/
def State.appendFree (s : State) (p i : Nat) : State :=
  let s1 := s.putMeta p i 0 0 listEnd 0 0
  let s2 := if s.freeCount p = 0 then s1.modBbm fun b => { b with head := b.head.put p i }
    else s1.physWrN (s1.metaAddr p (s.poolTail p) + 4) 4 i
  (s2.modBbm fun b => { b with tail := b.tail.put p i }).setFld (F.BBM_POOL_STATUS_FREE_COUNT p) (s.freeCount p + 1)

/-- A bobbin returns to the free list: its tenant's USED falls. -/
def State.returnBobbin (s : State) (p i : Nat) : State :=
  let t := s.poolTenant p
  let s1 := if t = 0 then s else s.setUsed t (s.quotaUsed t - s.poolUnits p)
  s1.appendFree p i

/-- What taking the head of a pool's list gives. -/
inductive Taken where
  | empty
  | corrupt (s : State)
  | quota (s : State)
  | got (handle : Nat) (s : State)
  deriving DecidableEq, Repr

/-- Take the head of a pool's free list for a tenant. -/
def State.takeBobbin (s : State) (p tenant : Nat) : Taken :=
  let t := s.poolTenant p
  if !s.flag (F.BBM_POOL_CTRL_ENABLE p) ∨ s.flag (F.BBM_POOL_STATUS_CORRUPT p) ∨ s.freeCount p = 0 then .empty
  else if t ≠ 0 ∧ s.quotaLimit t < s.quotaUsed t + s.poolUnits p then .quota (s.inc F.BBM_EVENTS_QUOTA)
  else
    let i := s.poolHead p
    if s.poolCount p ≤ i ∨ s.bobState p i ≠ 0 then .corrupt (s.corruptPool p)
    else
      let s1 := s.modBbm fun b => { b with head := b.head.put p (s.link p i) }
      let s2 := s1.putMeta p i 1 (tenant % 4096 + 4096) 0 0 0
      let s3 := s2.setFld (F.BBM_POOL_STATUS_FREE_COUNT p) (s.freeCount p - 1)
      .got (p * 2 ^ 26 + i) (if t = 0 then s3 else s3.setUsed t (s.quotaUsed t + s.poolUnits p))

/-- Is a pool's fallback one the head refuses (R342)? -/
def State.fbBad (s : State) (p : Nat) : Bool :=
  let q := s.fld (F.BBM_POOL_CFG_FALLBACK p)
  s.flag (F.BBM_POOL_CFG_FB_EN p) && (decide (s.poolLog2 q < s.poolLog2 p) || s.poolTenant q != s.poolTenant p)

/-- Allocate along the fallback chain: at most n more hops (R342). The answer is a code and a handle. -/
def State.allocChain : Nat → Nat → Nat → Bool → State → Nat × Nat × State
  | n, p, tenant, fell, s =>
    match s.takeBobbin p tenant with
    | .got h t => (0, h, if fell then t.inc F.BBM_EVENTS_FALLBACKS else t)
    | .quota t => (2, noBobbin, t)
    | .corrupt t =>
      match n with
      | 0 => (1, noBobbin, t)
      | k + 1 =>
        if fell && t.flag (F.BBM_POOL_CFG_FB_EN p) && !t.fbBad p then State.allocChain k (t.fld (F.BBM_POOL_CFG_FALLBACK p)) tenant true t
        else (if fell then 1 else 3, noBobbin, t)
    | .empty =>
      match n with
      | 0 => (1, noBobbin, s.raise F.BBM_ISR_EMPTY)
      | k + 1 =>
        if s.flag (F.BBM_POOL_CFG_FB_EN p) && !s.fbBad p then State.allocChain k (s.fld (F.BBM_POOL_CFG_FALLBACK p)) tenant true s
        else (1, noBobbin, s.raise F.BBM_ISR_EMPTY)

/-- Allocate a bobbin for a tenant, from a first pool. -/
def State.allocBobbin (s : State) (p tenant : Nat) : Nat × Nat × State :=
  if !s.flag (F.BBM_POOL_CTRL_ENABLE p) ∨ s.flag (F.BBM_POOL_STATUS_CORRUPT p) ∨ s.poolTenant p ≠ tenant then (3, noBobbin, s)
  else State.allocChain 3 p tenant false s

/-! ### References (R344) -/

/-- Refuse an operation. -/
def State.refuseBobbin (s : State) : State := (s.inc F.BBM_EVENTS_REFUSED).raise F.BBM_ISR_REFUSED

/-- May a tenant's agent (0: the system) act on a handle that is held? -/
def State.mayRef (s : State) (tenant h : Nat) : Bool :=
  let p := handlePool h
  let i := handleIndex h
  h != noBobbin && decide (i < s.poolCount p) && s.bobState p i == 1 && (s.poolTenant p == 0 || tenant == 0 || tenant == s.poolTenant p)

/-- Increment. -/
def State.incBobbin (s : State) (tenant h : Nat) : State :=
  let p := handlePool h
  let i := handleIndex h
  if s.mayRef tenant h && decide (s.refCount p i < 0xFFFF) then s.setRef p i (s.refCount p i + 1) else s.refuseBobbin

/-- Decrement: the last reference frees the bobbin, or quarantines it where a WRITE marked it. -/
def State.decBobbin (s : State) (tenant h : Nat) : State :=
  let p := handlePool h
  let i := handleIndex h
  if !s.mayRef tenant h then s.refuseBobbin
  else if 2 ≤ s.refCount p i then s.setRef p i (s.refCount p i - 1)
  else if s.marked p i then
    let s := ((s.wrapInc F.RDT_QUAR_COUNT_BOBBINS).setRef p i 0).setOwner p i (s.owner p i % 4096 + 2 * 4096)
    let s := s.modBbm fun b => { b with quar := b.quar.put p (((b.quar.get? p).getD []) ++ [i]) }
    s.setFld (F.BBM_POOL_QUAR_QUARANTINED p) (s.fld (F.BBM_POOL_QUAR_QUARANTINED p) + 1)
  else s.returnBobbin p i

end Sys2Proof.Machine
end

