-- ==== Sys2Proof/Machine/Bobbins.lean ====
section
/-! DEFINITION. The bobbin pools' commands (14). -/
namespace Sys2Proof.Machine

/-- BBM_ALLOC_CMD: firmware's allocation, charged to TENANT. -/
def execAllocCmd (pool tenant : Nat) (s : State) : Result :=
  .next (s.live (s.startWith [(F.BBM_ALLOC_CMD_POOL, pool), (F.BBM_ALLOC_CMD_TENANT, tenant)] (s.flag F.BBM_ALLOC_CMD_BUSY) fun t =>
    let (code, h, u) := (t.resStart 0x800014).allocBobbin (pool % 64) (tenant % 4096)
    (u.resDone 0x800014 [(F.BBM_ALLOC_RESULT_LO_CODE, code), (F.BBM_ALLOC_RESULT_HI_HANDLE, h)]).raise F.BBM_ISR_ALLOC_DONE))

/-- An agent's allocation request, answered with a code and a handle. -/
def execBobbinAllocate (cls tenant pool : Nat) (s : State) : Result :=
  .next (s.live (
    let (code, h, t) := s.allocBobbin (pool % 64) (tenant % 4096)
    t.send (.bobbin cls tenant h code)))

/-- A decrement by a tenant's agent, or by the system (tenant 0). -/
def execBobbinFree (tenant handle : Nat) (s : State) : Result := .next (s.live (s.decBobbin tenant handle))

/-- An increment. -/
def execBobbinIncrement (tenant handle : Nat) (s : State) : Result := .next (s.live (s.incBobbin tenant handle))

/-- BBM_POOL_CTRL.INIT (R346): no effect while ENABLE is 1. -/
def execPoolInit (pool : Nat) (s : State) : Result :=
  .next (s.live (
    let p := pool % 64
    if s.flag (F.BBM_POOL_CTRL_ENABLE p) then s
    else
      let n := s.poolCount p
      let s1 := (List.range n).foldl (fun t i => t.putMeta p i 0 0 (if i + 1 = n then listEnd else i + 1) 0 0) s
      ((((s1.modBbm fun b => { b with
        head := if n = 0 then b.head.del p else b.head.put p 0,
        tail := if n = 0 then b.tail.del p else b.tail.put p (n - 1), quar := b.quar.del p }).setFld
        (F.BBM_POOL_STATUS_CORRUPT p) 0).setFld (F.BBM_POOL_STATUS_FREE_COUNT p) n).setFld (F.BBM_POOL_QUAR_QUARANTINED p) 0).setFld
        F.RDT_QUAR_COUNT_BOBBINS (s.fld F.RDT_QUAR_COUNT_BOBBINS - s.fld (F.BBM_POOL_QUAR_QUARANTINED p))))

end Sys2Proof.Machine
end

