-- ==== Sys2Proof/Machine/Cache.lean ====
section
/-! DEFINITION. The system cache's commands and DRAM's (14). -/
namespace Sys2Proof.Machine

/-- A request reaches a slice. An address that names no DRAM reads poisoned data, and its writes are
discarded; the register window is not memory (R336). -/
def execCacheRequest (r : MemReq) (e : MemErr) (s : State) : Result :=
  .next (s.live (
    if inWindow r.addr ∨ inSpad r.addr then s
    else if !s.installed r.addr then
      let s1 := s.raise F.DMC_ISR_ADDR_ERR
      if r.data.isNone then s1.send (.memData r.cls r.addr (zeros r.len) true) else s1
    else s.request r e))

/-- Count a DRAM error on the channel of an address (R337). -/
def State.dramError (s : State) (a : Nat) (e : MemErr) : State :=
  let d := if a < 0xF0000000 then a else a - 0x10000000
  let ch := d / 256 % 12
  match e with
  | .corrected => ((s.inc (F.DMC_CH_ERRS_CORR ch)).raise F.DMC_ISR_CORR).errCorr 0x07
  | .uncorrected =>
    (((((s.inc (F.DMC_CH_ERRS_UNCORR ch)).setPair F.DMC_ERR_ADDR_LO_ADDR F.DMC_ERR_ADDR_HI_ADDR a).raise F.DMC_ISR_UNCORR).setPoison (a / 64) true)).errDefer 0x07
  | _ => s

/-- The fill of a miss register comes from DRAM. -/
def execLineFill (line : Nat) (e : MemErr) (s : State) : Result :=
  .next (s.live (if s.scc.misses.any fun m => m.line == line then (s.dramError (64 * line) e).finishFill line else s))

/-- Victims have left their buffers: fills that waited for room are installed, and the input queues taken again. -/
def State.resumeSlices (s : State) : State :=
  let s1 := ((s.scc.misses.filter fun m => m.filled).map (·.line)).foldl State.finishFill s
  (s1.scc.waiting.map fun r => sliceOf r.addr).eraseDups.foldl State.retryWaiting s1

/-- A victim's writeback completes: the buffer has room, and what waited goes on. -/
def execVictimWritebackDone (line : Nat) (s : State) : Result :=
  .next (s.live (match s.victim? line with
    | none => s
    | some _ =>
      let s1 := s.dropVictim line
      s1.resumeSlices))

/-- An access to the alias: bytes read, or written (R328); an uncorrectable error poisons its word until a
write covers all 8 bytes of it (R335). -/
def execScratchpadAccess (off len : Nat) (data : Option Bytes) (e : MemErr) (s : State) : Result :=
  .next (s.live (
    match s.spadPlace off with
    | none =>
      let s1 := s.raise F.SCC_ISR_SPAD_RANGE
      if data.isNone then s1.send (.memData 0 (spadBase + off) (zeros len) false) else s1
    | some k =>
      let a := spadBase + off
      let s1 := match e with
        | .corrected => ((s.inc F.SCC_ERRS_DATA_CORR).sccErrAt a).errCorr 0x06
        | .uncorrected =>
          ((((s.inc F.SCC_ERRS_DATA_UNCORR).sccErrAt a).raise F.SCC_ISR_DATA_UNCORR).modScc fun x =>
            { x with spadPoison := (x.spadPoison.filter (· != k / 8)) ++ [k / 8] }).errDefer 0x06
        | _ => s
      match data with
      | none => s1.send (.memData 0 a (s1.physRd a len) (s1.scc.spadPoison.any fun w => decide (k / 8 ≤ w) && decide (w * 8 < k + len)))
      | some d => (s1.physWr a d).modScc fun x =>
          { x with spadPoison := x.spadPoison.filter fun w => !(decide (k ≤ 8 * w) && decide (8 * w + 8 ≤ k + d.length)) }))

/-! ### Range operations (R330-R333) -/

/-- A range operation completes. -/
def State.rangeDone (s : State) (overlap : Bool) (code : Nat) : State :=
  (s.resDone 0x600054 [(F.SCC_RANGE_RESULT_SPAD_OVERLAP, if overlap then 1 else 0), (F.SCC_RANGE_RESULT_CODE, code)]).raise F.SCC_ISR_RANGE_DONE

/-- Act on every cached line and victim of the range; whether a victim's writeback has started is a free value. -/
def State.rangeLines (s : State) (op lo hi : Nat) : State :=
  let inRange (l : Nat) : Bool := decide (lo ≤ 64 * l) && decide (64 * l < hi)
  let s1 := s.scc.victims.foldl (fun t v =>
    if !inRange v.line then t
    else if op = 2 then
      let (f, u) := t.free 1
      (if f = 1 then u else u.discard v.line v.old).dropVictim v.line
    else t.dropVictim v.line) s
  s.scc.lines.foldl (fun t p =>
    if !inRange p.2.line then t
    else if op = 0 then t.modScc fun x => { x with lines := x.lines.put p.1 { p.2 with dirty := false, old := [] } }
    else
      let t1 := if op = 2 ∧ p.2.dirty then t.discard p.2.line p.2.old else t
      t1.modScc fun x => { x with lines := x.lines.del p.1 }) s1

/-- Start a range operation. -/
def State.rangeStart (s : State) (who : Requester) (op : Nat) : State :=
  s.startWith [(F.SCC_RANGE_CMD_OP, op)] (s.flag F.SCC_RANGE_CMD_BUSY) fun t =>
    let u := t.resStart 0x600054
    let a := u.pair F.SCC_RANGE_ADDR_LO_VALUE F.SCC_RANGE_ADDR_HI_VALUE / 64 * 64
    let n := u.pair F.SCC_RANGE_LEN_LO_VALUE F.SCC_RANGE_LEN_HI_VALUE / 64 * 64
    if op = 3 then u.rangeDone false 3
    else if op = 2 ∧ who ≠ .referee then u.rangeDone false 1
    else if n = 0 ∨ 2 ^ 40 < n then u.rangeDone false 2
    else ((u.rangeLines op a (a + n)).resumeSlices).rangeDone (decide (a < spadBase + spadSize) && decide (spadBase < a + n)) 0

/-- Clean. -/
def execRangeClean (who : Requester) (s : State) : Result := .next (s.live (s.rangeStart who 0))
/-- Clean and invalidate. -/
def execRangeCleanInvalidate (who : Requester) (s : State) : Result := .next (s.live (s.rangeStart who 1))
/-- Invalidate without clean: from the Referee cores alone. -/
def execRangeInvalidate (who : Requester) (s : State) : Result := .next (s.live (s.rangeStart who 2))
/-- OP 0x3 is reserved. -/
def execRangeReservedOp (who : Requester) (s : State) : Result := .next (s.live (s.rangeStart who 3))

/-! ### Patrol scrub and post-package repair (R338, R339) -/

/-- A patrol pass: the rows with corrected errors, and the addresses it could not correct. -/
def execPatrolScrub (rows : List RowErrs) (bad : List Nat) (s : State) : Result :=
  .next (s.live (
    if s.fld F.DMC_SCRUB_CFG_HOURS = 0 then s
    else
      let limit := max 1 (s.fld F.DMC_SCRUB_CFG_ROW_LIMIT)
      let s1 := rows.foldl (fun t r =>
        if r.count = 0 then t
        else
          let t1 := ((t.inc (F.DMC_CH_ERRS_CORR (r.row / 2 ^ 28 % 16)) r.count).raise F.DMC_ISR_CORR).errCorr 0x07
          if limit ≤ r.count then
            (((((t1.setFld F.DMC_PPR_ROW_CHANNEL (bits r.row 31 28)).setFld F.DMC_PPR_ROW_SUB (bits r.row 27 27)).setFld
              F.DMC_PPR_ROW_RANK_BG (bits r.row 26 24)).setFld F.DMC_PPR_ROW_BANK (bits r.row 23 18)).setFld
              F.DMC_PPR_ROW_ROW (bits r.row 17 0)).raise F.DMC_ISR_PPR_ADVISED
          else t1) s
      bad.foldl (fun t a => t.dramError a .uncorrected) s1))

/-- Repair the row in DMC_PPR_ROW; `spare` says that its bank has a spare row left. -/
def State.ppr (s : State) (hard spare : Bool) : State :=
  s.startWith [(F.DMC_PPR_CMD_HARD, if hard then 1 else 0)] (s.flag F.DMC_PPR_CMD_BUSY) fun t =>
    let u := t.resStart 0x700010
    let code := if 11 < u.fld F.DMC_PPR_ROW_CHANNEL then 3
      else if hard && (u.headState != stCastOn || decide (7 < u.fld F.GLB_CASTON_STATUS_STEP)) then 2
      else if !spare then 1 else 0
    (u.resDone 0x700010 [(F.DMC_PPR_RESULT_CODE, code)]).raise F.DMC_ISR_PPR_DONE

def execSoftRepair (spare : Bool) (s : State) : Result := .next (s.live (s.ppr false spare))
def execHardRepair (spare : Bool) (s : State) : Result := .next (s.live (s.ppr true spare))

end Sys2Proof.Machine
end

