-- ==== Sys2Proof/Machine/CommitOps.lean ====
section
/-! DEFINITION. The operations of commit, mirroring and admission that several commands share (03). -/
namespace Sys2Proof.Machine

/-! ### Dirty data, admission, write-through (R97-R100) -/

def State.dirtyLimit (s : State) : Nat := s.pair F.CMT_DIRTY_LIMIT_LO_LIMIT_LO F.CMT_DIRTY_LIMIT_HI_LIMIT_HI
def State.dirtyCap (s : State) : Nat := s.pair F.CMT_DIRTY_CAP_LO_CAP_LO F.CMT_DIRTY_CAP_HI_CAP_HI
def State.dirtyBytes (s : State) : Nat := s.pair F.CMT_DIRTY_BYTES_LO_BYTES_LO F.CMT_DIRTY_BYTES_HI_BYTES_HI
def State.setDirty (s : State) (v : Nat) : State := s.setPair F.CMT_DIRTY_BYTES_LO_BYTES_LO F.CMT_DIRTY_BYTES_HI_BYTES_HI v

/-- The effective dirty limit: the lesser of the ledger's limit and the firmware ceiling (R97). -/
def State.effLimit (s : State) : Nat := min s.dirtyLimit (s.dirtyCap / 4096 * 4096)

def State.writeThrough (s : State) : Bool := s.fld F.CMT_STATUS_MODE == 1

/-- The conditions of write-through that hold, as WT_CAUSE codes them (R99). -/
def State.wtCause (s : State) : Nat :=
  (if s.flag F.GLB_CASTON_STATUS_WRITE_THROUGH then 1 else 0) +
  (if s.flag F.CMT_CTRL_FORCE_WT then 2 else 0) +
  (if s.solo && s.flag F.CMT_CTRL_SOLO_POLICY then 4 else 0) +
  (if s.effLimit < 262144 then 8 else 0)

/-- Do the conditions to leave write-through hold now (R100)? -/
def State.wbGood (s : State) : Bool :=
  s.wtCause == 0 && decide (s.fld F.CMT_CTRL_WB_RESUME_MIB * 2 ^ 20 ≤ s.effLimit)

/-- Test the conditions of R99 and R100 at a change of any of their terms: entry to write-through takes
effect at once; a failed condition spoils the turn's count. -/
def State.testWriteThrough (s : State) : State :=
  let cause := s.wtCause
  let s1 := s.setFld F.CMT_STATUS_WT_CAUSE cause
  let s2 := if s.wbGood then s1 else { s1 with commit := { s1.commit with turnGood := false } }
  if cause != 0 && !s.writeThrough then
    ((s2.setFld F.CMT_STATUS_MODE 1).raise F.CMT_ISR_WT_ENTER).logEvent 6 0x10 0 cause
  else s2

/-- Count the turn just ended towards leaving write-through (R100). -/
def State.countGoodTurn (s : State) : State :=
  let good := s.commit.turnGood && s.wbGood
  { s with commit := { s.commit with
      goodTurns := if good then s.commit.goodTurns + 1 else 0, turnGood := s.wbGood } }

/-- Leave write-through at a turn boundary at which 1,024 good turns have been counted (R100). -/
def State.leaveThrough (s : State) : State :=
  if s.writeThrough && decide (1024 ≤ s.commit.goodTurns) && s.commit.turnGood && s.wbGood then
    ((((s.setFld F.CMT_STATUS_MODE 0).modCommit fun c => { c with goodTurns := 0 }).raise F.CMT_ISR_WT_EXIT).logEvent 6 0x10 0 (2 ^ 31 + s.wtCause))
  else s

/-- Free a number of dirty blocks (R98). -/
def State.releaseDirty (s : State) (blocks : Nat) : State := s.setDirty (s.dirtyBytes - 4096 * blocks)

/-- Free own-ring slots by the register. -/
def State.ownFree (s : State) : Nat := s.fld F.CMT_RING_STATUS_OWN_FREE
def State.credits (s : State) : Nat := s.fld F.CMT_RING_STATUS_MIRROR_CREDITS

/-- Are new writes mirrored: to the partner, or in a rejoin to the joiner (R34, R35, R37)? -/
def State.mirroring (s : State) : Bool :=
  (!s.solo && decide (s.pairSt.takeover < 2)) || s.pairSt.rejoin.any fun r => r.survivor && decide (2 ≤ r.step)

/-- Can a write of n blocks be admitted in write-back (R97)? -/
def State.admits (s : State) (n : Nat) : Bool :=
  decide (s.dirtyBytes + 4096 * n ≤ s.effLimit) && decide (n ≤ s.ownFree) && (!s.mirroring || decide (n ≤ s.credits))

/-- Can it be admitted in write-through: own slots and mirror credits only (R97)? -/
def State.admitsThrough (s : State) (n : Nat) : Bool :=
  decide (n ≤ s.ownFree) && (!s.mirroring || decide (n ≤ s.credits))

/-! ### Own-ring entries (R71) -/

/-- The entry with a commit sequence number. -/
def State.entry? (s : State) (inst seq : Nat) : Option Entry :=
  s.commit.own.find? fun e => e.inst == inst && e.seq == seq

/-- Change the entry with a commit sequence number. -/
def State.modEntry (s : State) (inst seq : Nat) (f : Entry → Entry) : State :=
  { s with commit := { s.commit with
      own := s.commit.own.map fun e => if e.inst == inst && e.seq == seq then f e else e } }

/-- The slots at the ring's tail that are free: the leading entries that are drained. -/
def freeRun : List Entry → Nat × List Entry
  | [] => (0, [])
  | e :: r => if e.drained then let p := freeRun r; (p.1 + e.count, p.2) else (0, e :: r)

/-- Free own-ring slots from the tail (R71): an entry that finished early keeps its slots until every
older entry has finished. -/
def State.freeTail (s : State) : State :=
  let p := freeRun s.commit.own
  ({ s with commit := { s.commit with own := p.2 } }).setFld F.CMT_RING_STATUS_OWN_FREE (s.ownFree + p.1)

/-- Remove a range of the interlock (R88). -/
def State.unlock (s : State) (inst seq : Nat) : State :=
  { s with commit := { s.commit with
      interlock := s.commit.interlock.filter fun r => !(r.inst == inst && r.seq == seq) } }

/-- XOR of the carry guards of an entry's blocks: the guard fold of its END marker (R79). -/
def guardFold (bs : List RBlock) : Nat := bs.foldl (fun g b => g ^^^ b.guard) 0

/-- The END marker of an entry. -/
def endMarkerOf (e : Entry) : Marker :=
  { seq := e.seq, firstSlot := e.mirrorFirst, count := e.count, fold := guardFold e.blocks, forwarded := false }

/-- Do two ranges of one volume overlap? -/
def overlaps (v1 l1 n1 v2 l2 n2 : Nat) : Bool :=
  v1 == v2 && decide (l1 < l2 + n2) && decide (l2 < l1 + n1)

/-- Is a block of a volume COMPLETE in a version numbered above seq: in the own ring or in staging (R98, R112)? -/
def State.newerComplete (s : State) (inst volume lba seq : Nat) : Bool :=
  (s.commit.own.any fun e => e.inst == inst && e.volume == volume && decide (seq < e.seq) &&
      e.st == .complete && decide (e.first ≤ lba) && decide (lba < e.first + e.count)) ||
  (s.commit.staging.vals.any fun g => g.inst == inst && g.volume == volume && g.lba == lba && decide (seq < g.seq))

/-- Release from the dirty set every older version of a block that a COMPLETE version numbered seq
supersedes: in the own ring and in staging (R98). -/
def State.supersede (s : State) (inst volume lba seq : Nat) : State :=
  let inRing := s.commit.own.foldl (fun n e =>
    if e.inst == inst && e.volume == volume && decide (e.seq < seq) && e.st == .complete then
      n + (e.blocks.filter fun b => b.lba == lba && b.dirty).length else n) 0
  let inStg := (s.commit.staging.vals.filter fun g =>
    g.inst == inst && g.volume == volume && g.lba == lba && decide (g.seq < seq) && g.dirty).length
  let own := s.commit.own.map fun e =>
    if e.inst == inst && e.volume == volume && decide (e.seq < seq) then
      { e with blocks := e.blocks.map fun b => if b.lba == lba then { b with dirty := b.dirty && e.st != .complete, superseded := true } else b }
    else e
  let stg : Tbl Stg := s.commit.staging.map fun p =>
    (p.1, if p.2.inst == inst && p.2.volume == volume && p.2.lba == lba && decide (p.2.seq < seq) then
        { p.2 with superseded := true, dirty := false, st := if p.2.st = .waiting ∧ p.2.mask ≠ 0xFF ∧ !p.2.mirror then .dropped else p.2.st } else p.2)
  ({ s with commit := { s.commit with own := own, staging := stg } }).releaseDirty (inRing + inStg)

/-- Is a COMPLETE version of a block numbered below seq not yet durable? -/
def State.unhardenedBelow (s : State) (inst volume lba seq : Nat) : Bool :=
  (s.commit.own.any fun e => e.inst == inst && e.volume == volume && decide (e.seq < seq) && e.st == .complete && !e.drained &&
    e.blocks.any fun b => b.lba == lba && !b.superseded) ||
  (s.commit.staging.vals.any fun g => g.inst == inst && g.volume == volume && g.lba == lba && decide (g.seq < seq) && !g.superseded &&
    g.st != .hardened)

/-- An entry becomes COMPLETE (R71): older versions of its blocks leave the dirty set, and its own blocks
do where a higher version is COMPLETE already (R98). -/
def State.completeEntry (s : State) (e : Entry) : State :=
  let covers := e.writeThrough && e.blocks.any fun b => s.unhardenedBelow e.inst e.volume b.lba e.seq
  let s1 := s.modEntry e.inst e.seq fun e => { e with st := .complete, covers := covers }
  let above (b : RBlock) : Bool := b.superseded || s.newerComplete e.inst e.volume b.lba e.seq
  let late := e.blocks.filter fun b => b.dirty && above b
  let s2 := s1.modEntry e.inst e.seq fun e' =>
    { e' with blocks := e'.blocks.map fun b => if above b then { b with dirty := false, superseded := true } else b }
  e.blocks.foldl (fun t b => t.supersede e.inst e.volume b.lba e.seq) (s2.releaseDirty late.length)

/-! ### The hardened horizon (R95) -/

/-- Commit sequence numbers of an instance that are not durable; a superseded version never becomes durable, and the
version above it stands for the block. -/
def State.undurable (s : State) (i : Nat) : List Nat :=
  ((s.commit.own.filter fun e => e.inst == i && e.st != .aborted && !e.drained).map (·.seq)) ++
  ((s.commit.staging.vals.filter fun g => g.inst == i && !g.mirror && g.st != .hardened && !g.zero && !g.superseded).map (·.seq))

/-- The hardened horizon of an instance. -/
def State.horizonOf (s : State) (i : Nat) : Nat :=
  match s.undurable i with
  | [] => ofInst s.commit.lastSeq i
  | x :: l => l.foldl min x - 1

/-- Report the horizon with the journal tail whenever it advances (R95, R193). -/
def State.reportHorizon (s : State) (i : Nat) : State :=
  let h := s.horizonOf i
  if h ≤ ofInst s.commit.horizon i then s
  else
    let s1 := s.modCommit fun c => { c with horizon := putInst c.horizon i h }
    if s.efmoUp then s1.send (.efmoHorizon i h (s.pair (F.FTL_JNL_TAIL_LO_JSEQ i) (F.FTL_JNL_TAIL_HI_JSEQ i))) else s1

/-! ### Aborted entries (R71) -/

/-- An aborted entry is over: its dirty bytes are released, its slots are free, its interlock entry goes. -/
def State.freeAborted (s : State) (inst seq : Nat) : State :=
  match s.entry? inst seq with
  | some e =>
    let s1 := s.modEntry inst seq fun e => { e with drained := true, blocks := e.blocks.map fun b => { b with dirty := false } }
    (((s1.releaseDirty (e.blocks.filter (·.dirty)).length).unlock inst seq).freeTail).reportHorizon inst
  | none => s

/-- An entry is ABORTED, as a FILLING one (log entry 168): the partner learns it, or with no partner it is over at once. -/
def State.abortEntry (s : State) (inst seq : Nat) : State :=
  match s.entry? inst seq with
  | some e =>
    let s1 := s.modEntry inst seq fun e => { e with st := .aborted }
    if !e.mirrored then s1.freeAborted inst seq
    else (s1.reportHorizon inst).send (.efmoMarker true { seq := seq, firstSlot := e.mirrorFirst, count := e.count, fold := 0, forwarded := false })
  | none => s

/-! ### Mirror-ring slots (R72, R73) -/

/-- Free mirror slots from the tail while the oldest one named is done; each is a credit owed. -/
def State.freeMirrorN : Nat → State → State
  | 0, s => s
  | k + 1, s =>
    match s.commit.mslots.get? s.commit.mtail with
    | some m =>
      if m.done then State.freeMirrorN k (s.modCommit fun c => { c with
        mslots := c.mslots.del c.mtail, mtail := (c.mtail + 1) % 8192, creditOwed := c.creditOwed + 1 })
      else s
    | none => s

/-- Slots of the mirror ring are drained or aborted, those included that no message has yet named. -/
def State.mirrorDone (s : State) (seq : Nat) (slots : List Nat) : State :=
  let above (m : Option MSlot) : MSlot := match m with
    | some m => { m with done := true }
    | none => { seq := seq, volume := 0, lba := 0, index := 0, mask := 0, data := [], guard := 0, good := false, done := true }
  State.freeMirrorN 8192 (s.modCommit fun c => { c with mslots := slots.foldl (fun t k => t.put k (above (t.get? k))) c.mslots })

/-- The slots a marker names. -/
def slotsFrom (first count : Nat) : List Nat := (List.range count).map fun k => (first + k) % 8192

/-- Answer a marker, returning the credits owed. -/
def State.ackMarker (s : State) (m : Marker) (status failing : Nat) : State :=
  (s.send (.efmoAck { seq := m.seq, firstSlot := m.firstSlot, count := m.count, status := status, failing := failing,
                      credit := s.commit.creditOwed, forwarded := m.forwarded })).modCommit fun c => { c with creditOwed := 0 }

/-! ### A write's completion (R71, R92, R99) -/

/-- Is any piece of a write not yet through: not COMPLETE, or in write-through not durable? -/
def State.piecesLeft (s : State) (o : Origin) : Bool :=
  (s.commit.own.any fun e => e.origin == o &&
    (e.st == .reserved || e.st == .filling || e.st == .localDone || (e.st == .complete && e.writeThrough && !e.drained))) ||
  (s.commit.wt.any fun w => w.origin == o) || (s.commit.pieces.any fun p => p.origin == o) ||
  (s.commit.waiting.any fun w => w.origin == o && (w.cmd.op == .deallocate || w.cmd.op == .writeZeroes))

/-- A piece is through: a forwarded write's acknowledgement falls due, or the command's completion does where it was
the last. -/
def State.pieceThrough (s : State) (d : Due) : State :=
  if (d.origin.forwarded && d.count != 0) || !s.piecesLeft d.origin then s.modCommit fun c => { c with due := c.due ++ [d] } else s

def dueOf (e : Entry) : Due := { inst := e.inst, seq := e.seq, volume := e.volume, origin := e.origin, ownFirst := e.ownFirst, count := e.count }

/-- The time a write-back commit took, in ns, is measured: a free value (CMT_LAT). -/
def State.commitLatency (s : State) : State :=
  let (ns, s1) := s.free 16
  let s2 := s1.setFld F.CMT_LAT_MAX_NS (max (s1.fld F.CMT_LAT_MAX_NS) ns)
  if 250 < ns then (s2.inc F.CMT_LAT_OVER).raise F.CMT_ISR_LAT_OVER else s2

/-- An entry becomes COMPLETE, and its completion falls due except in write-through. -/
def State.finishEntry (s : State) (e : Entry) : State :=
  let s1 := (s.completeEntry e).reportHorizon e.inst
  if e.writeThrough || e.completed then s1
  else (s1.commitLatency.modEntry e.inst e.seq fun e => { e with completed := true }).pieceThrough (dueOf e)

/-- Send an END marker on channel 0x1. -/
def State.sendEnd (s : State) (e : Entry) : State := s.send (.efmoMarker false (endMarkerOf e))

/-- The block messages of an entry, in block order (R78). -/
def blockMsgs (e : Entry) : List Sent :=
  (e.blocks.zipIdx).map fun p =>
    .efmoBlock { seq := e.seq, slot := (e.mirrorFirst + p.2) % 8192, mask := p.1.mask, volume := e.volume,
                 index := p.2, forwarded := false, lba := p.1.lba, data := p.1.data, guard := p.1.guard }

/-- Resend an entry from its own slots, then END again (R71). -/
def State.resendEntry (s : State) (e : Entry) : State :=
  ((blockMsgs e).foldl State.send s).sendEnd e

end Sys2Proof.Machine
end

