-- ==== Sys2Proof/Machine/Ldpc.lean ====
section
/-! DEFINITION. The LDPC code of a codeword (R235): its bit-flipping decoder (R236) and its layered min-sum decoder (R237-R239).
The base matrix and the parity are the ROM data the spec does not give (log entry 186). -/
namespace Sys2Proof.Machine

/-- The bits of a codeword, those of the information part first. -/
abbrev CwBits := List Bool

/-- Bits of a codeword: 4,608 bytes. -/
def cwLen : Nat := 36864

/-- The bits of a codeword's bytes: bit v is bit v mod 8 of byte v / 8. -/
def cwBits (b : Bytes) : CwBits := (List.range cwLen).map fun v => (b.getD (v / 8) 0).getLsbD (v % 8)

/-- The bytes of a codeword's bits. -/
def cwBytes (x : CwBits) : Bytes :=
  (List.range 4608).map fun k =>
    BitVec.ofNat 8 (((List.range 8).map fun i => if x.getD (8 * k + i) false then 2 ^ i else 0).foldl (· + ·) 0)

/-- The parity bytes 0x1080 to 0x11FF of a codeword's information part. -/
def ldpcParity (info : Bytes) : Bytes := leBytes 384 (Config.ldpcParity info).toNat

/-- The bits that check r of block row l covers: one of each circulant that the base matrix has in the row. -/
def checkBits (l r : Nat) : List Nat :=
  (List.range 144).filterMap fun j => (Config.ldpcShift l j).map fun x => 256 * j + (r + x.val) % 256

/-- The check of block row l that covers bit v. -/
def checkOf (l v : Nat) : Option Nat := (Config.ldpcShift l (v / 256)).map fun x => (v % 256 + 256 - x.val) % 256

/-- Is a check unsatisfied? -/
def unsatisfied (x : CwBits) (l r : Nat) : Bool := (checkBits l r).foldl (fun a v => a != x.getD v false) false

/-- Is every check satisfied: is the syndrome zero? -/
def syndromeZero (x : CwBits) : Bool := (List.range 12).all fun l => (List.range 256).all fun r => !unsatisfied x l r

/-! ### Bit flipping (R236) -/

/-- u(v): the unsatisfied checks among the checks of a bit. -/
def unsatisfiedOf (x : CwBits) (v : Nat) : Nat :=
  ((List.range 12).filter fun l => match checkOf l v with
    | some r => unsatisfied x l r
    | none => false).length

/-- The bits one pass flips at a threshold. -/
def flips (x : CwBits) (t : Nat) : List Nat := (List.range cwLen).filter fun v => decide (t ≤ unsatisfiedOf x v)

/-- Flip bits. -/
def flipBits (x : CwBits) (l : List Nat) : CwBits := x.zipIdx.map fun p => p.1 != l.contains p.2

/-- Passes of the bit-flipping decoder: the threshold is 3, and 2 after a pass that flipped nothing. -/
def hardPasses : Nat → Nat → CwBits → Option CwBits
  | 0, _, x => if syndromeZero x then some x else none
  | n + 1, t, x =>
    if syndromeZero x then some x
    else let l := flips x t
      hardPasses n (if l.isEmpty then 2 else 3) (flipBits x l)

/-- The LDH stage's decode. -/
def hardDecode (iters : Nat) (raw : Bytes) : Option CwBits := hardPasses iters 3 (cwBits raw)

/-! ### Soft decoding (R237, R239) -/

/-- The zone of a bit: how many reads returned 1. -/
def zoneOf (reads : List CwBits) (v : Nat) : Nat := (reads.filter fun x => x.getD v false).length

/-- Saturation at ±31. -/
def sat6 (x : Int) : Int := clampInt x (-31) 31

/-- The sign of a message; that of 0 is +1. -/
def sgn (x : Int) : Int := if x < 0 then -1 else 1

/-- The decoder's values: the posterior of every bit, its check messages by block row, and whether any posterior
reached ±31. -/
structure SoftVals where
  post  : List Int
  check : List (List Int)
  sat   : Bool

/-- The message of a check to a bit from those of the check's other bits. -/
def checkMessage (t : List Int) (l r v : Nat) : Int :=
  let others := ((checkBits l r).filter (· != v)).map fun u => t.getD u 0
  (others.map sgn).foldl (· * ·) 1 * max ((others.map fun x => (x.natAbs : Int)).foldl min 31 - 1) 0

/-- The update of one block row. -/
def softLayer (w : SoftVals) (l : Nat) : SoftVals :=
  let old := w.check.getD l []
  let t := w.post.zipIdx.map fun p => if (checkOf l p.2).isSome then sat6 (p.1 - old.getD p.2 0) else p.1
  let new := t.zipIdx.map fun p => match checkOf l p.2 with
    | some r => checkMessage t l r p.2
    | none => 0
  let post := (t.zip new).zipIdx.map fun p => if (checkOf l p.2).isSome then sat6 (p.1.1 + p.1.2) else p.1.1
  { post := post, check := w.check.set l new, sat := w.sat || post.any fun x => x.natAbs == 31 }

/-- The decision on every bit: a posterior of 0 leaves the centre read's. -/
def softBits (centre : CwBits) (post : List Int) : CwBits :=
  (centre.zip post).map fun p => if p.2 < 0 then true else if 0 < p.2 then false else p.1

/-- Iterations over the 12 block rows: the decoded bits, or none, and whether a posterior saturated. -/
def softIters : Nat → CwBits → SoftVals → Option CwBits × Bool
  | 0, _, w => (none, w.sat)
  | n + 1, centre, w =>
    let w1 := (List.range 12).foldl softLayer w
    let x := softBits centre w1.post
    if syndromeZero x then (some x, w1.sat) else softIters n centre w1

/-- One decode stage of LDS: the centre read, the extra reads, and the LLR of each zone. -/
def softDecode (iters : Nat) (centre : Bytes) (extra : List Bytes) (llr : Nat → Int) : Option CwBits × Bool :=
  let c := cwBits centre
  let reads := c :: extra.map cwBits
  softIters iters c { post := (List.range cwLen).map fun v => 2 * llr (zoneOf reads v), check := List.replicate 12 [], sat := false }

/-- For each zone of a read set, the bits of a decoded codeword that are 0 and that are 1 (R238). -/
def zoneCounts (centre : Bytes) (extra : List Bytes) (x : CwBits) : List (Nat × Nat) :=
  let reads := (centre :: extra).map cwBits
  let l := x.zipIdx.map fun p => (p.1, zoneOf reads p.2)
  (List.range (extra.length + 2)).map fun z => (l.countP fun p => !p.1 && p.2 == z, l.countP fun p => p.1 && p.2 == z)

/-- Bits in which two codewords differ. -/
def bitErrors (x y : CwBits) : Nat := (x.zip y).countP fun p => p.1 != p.2

/-- The outcome of a decode: the bits it corrected and the codeword, or failure. -/
inductive LdpcOut where
  | ok (fixed : Nat) (bytes : Bytes)
  | fail
  deriving DecidableEq, Repr

/-- The outcome of decoded bits against the read they come from. -/
def ldpcOut (raw : Bytes) : Option CwBits → LdpcOut
  | some x => .ok (bitErrors (cwBits raw) x) (cwBytes x)
  | none => .fail

end Sys2Proof.Machine
end

