-- ==== Sys2Proof/Machine/PostOps.lean ====
section
/-! DEFINITION. What leaves on an RDMA queue pair (13): packets under the pauses of their port's priorities, and the
messages the head itself posts. -/
namespace Sys2Proof.Machine

def State.qp? (s : State) (n : Nat) : Option Qp := s.rdt.qps.get? n
def State.setQp (s : State) (n : Nat) (q : Qp) : State := s.modRdt fun r => { r with qps := r.qps.put n q }
def State.modQp (s : State) (n : Nat) (f : Qp → Qp) : State := s.modRdt fun r => { r with qps := r.qps.modify n f }

/-! ### Egress (R322) -/

/-- Is a priority of a port paused? -/
def State.prioPaused (s : State) (port prio : Nat) : Bool := bit ((s.rdt.paused.get? port).getD 0) prio

/-- A packet of a queue pair goes out, or waits while its priority is paused. -/
def State.egressTo (s : State) (q : Qp) (m : Sent) : State :=
  if s.prioPaused q.port q.prio then { s with egress := s.egress ++ [(q.port, q.prio, m)] } else s.send m

/-! ### Requests on the wire (R308) -/

def pmtuBytes (q : Qp) : Nat := 512 * 2 ^ q.pmtu

/-- Cut bytes into runs of n. -/
def cutBytes (n : Nat) : Nat → Bytes → List Bytes
  | 0, _ => []
  | k + 1, b => if b.length ≤ n then [b] else b.take n :: cutBytes n k (b.drop n)

/-- A request packet with the fields that a message of a queue pair gives it. -/
def mkPkt (q : Qp) (psn : Nat) (op : RoceOp) (va rkey len : Nat) : RocePkt :=
  { qpn := q.dest, psn := psn % 2 ^ 24, op := op, first := true, last := true, imm := none, va := va, rkey := rkey, len := len, data := [],
    compare := 0, swap := 0, persist := false, ackReq := true, ecn := false, whole := true, fieldsOk := true, buffer := true,
    port := q.port, at_ := 0 }

/-- The packets of a SEND or WRITE message. -/
def dataPkts (q : Qp) (op : RoceOp) (imm : Option Nat) (va rkey : Nat) (data : Bytes) : List RocePkt :=
  let cs := cutBytes (pmtuBytes q) data.length data
  (cs.zipIdx).map fun c =>
    let l := c.2 + 1 == cs.length
    { mkPkt q (q.sqPsn + c.2) op va rkey data.length with
      first := c.2 == 0, last := l, imm := if l then imm else none, data := c.1, ackReq := l }

/-- Put a work request on the wire: its packets go, its PSNs are taken, and it is outstanding. While the queue pair waits
out an RNR timer its packets go with those sent again. -/
def State.launch (s : State) (n : Nat) (q : Qp) (w : OutWqe) (span : Nat) : State :=
  let q1 : Qp := { q with
    sqPsn := (q.sqPsn + span) % 2 ^ 24, retriesLeft := q.retry, rnrLeft := q.rnrRetry,
    out := q.out ++ [{ w with first := q.sqPsn, last := (q.sqPsn + span - 1) % 2 ^ 24 }] }
  let s1 := s.setQp n q1
  if q.rnrWait then s1 else w.pkts.foldl (fun t p => t.egressTo q (.roce p)) s1

/-- An outstanding work request that is a READ or an atomic. -/
def OutWqe.reads (w : OutWqe) : Bool := w.op == 5 || w.op == 6 || w.op == 7

/-! ### Messages of the head (R310, R312) -/

/-- A message of the head: a SEND (op 1) or a WRITE (op 3) of some bytes; for a host's command its queue and command. -/
def hostMsg (queue cid op va key : Nat) (b : Bytes) : OutWqe :=
  { index := 0, op := op, wrId := key, first := 0, last := 0, len := b.length, signaled := false, laddr := va, got := 0,
    host := some (queue, cid), bytes := b, pi := [], pkts := [] }

/-- Start a message of the head. -/
def State.startMsg (s : State) (n : Nat) (q : Qp) (w : OutWqe) : State :=
  let pkts := dataPkts q (if w.op = 1 then .send else .write) none w.laddr w.wrId w.bytes
  s.launch n q { w with bytes := [], pkts := pkts } pkts.length

/-- Post a message on a connected queue pair: it starts at once, or waits while its priority is paused, a write's
completion (`first`) ahead of every other message not started. -/
def State.post (s : State) (n : Nat) (first : Bool) (w : OutWqe) : State :=
  match s.qp? n with
  | none => s
  | some q =>
    if q.state ≠ 1 ∨ !s.flag F.RDT_CTRL_ENABLE then s
    else if s.prioPaused q.port q.prio then
      let (a, b) := q.sendQ.partition fun m => m.1
      s.setQp n { q with sendQ := if first then a ++ (first, w) :: b else q.sendQ ++ [(first, w)] }
    else s.startMsg n q w

/-- Post a host's read data as WRITEs of at most one path MTU each. -/
def State.postWrites (s : State) (n queue cid va key : Nat) (data : Bytes) : State :=
  let m := ((s.qp? n).map pmtuBytes).getD 4096
  ((cutBytes m data.length data).zipIdx).foldl (fun t c => t.post n false (hostMsg queue cid 3 (va + c.2 * m) key c.1)) s

/-- Post a message of the head that serves no host's command as a SEND. -/
def State.postSend (s : State) (n : Nat) (b : Bytes) : State := s.post n false (hostMsg 0 0 1 0 0 b)

/-- Start the messages that waited for a pause to end on a queue pair. -/
def State.startWaiting (s : State) (n : Nat) : State :=
  match s.qp? n with
  | some q => if s.prioPaused q.port q.prio then s else q.sendQ.foldl (fun t m => t.post n m.1 m.2) (s.setQp n { q with sendQ := [] })
  | none => s

/-- Priorities were released: what waited for them goes out. -/
def State.resumeEgress (s : State) : State :=
  let (keep, go) := s.egress.partition fun x => s.prioPaused x.1 x.2.1
  let s1 := go.foldl (fun t x => t.send x.2.2) { s with egress := keep }
  s1.rdt.qps.foldl (fun t p => if p.2.sendQ.isEmpty then t else t.startWaiting p.1) s1

/-! ### What a host receives (R283, R312) -/

/-- Logical blocks of 512 bytes? -/
def lbaf512 (f : Nat) : Bool := f == 0 || f == 1

/-- Protection information as it stands behind its logical block, big-endian. -/
def piWire (f : Nat) (p : PiIn) : Bytes :=
  if f = 4 then beBytes 8 p.guard ++ beBytes 2 p.app ++ beBytes 6 p.ref else beBytes 2 p.guard ++ beBytes 2 p.app ++ beBytes 4 p.ref

/-- Read data with the protection information behind each logical block. -/
def wireBytes (f : Nat) (d : Bytes) (pi : List PiIn) : Bytes :=
  if pi.isEmpty then d
  else
    let z := if lbaf512 f then 512 else 4096
    (pi.zipIdx).flatMap fun p => slice d (p.2 * z) z ++ piWire f p.1

/-- An NVMe completion queue entry: no result, the submission queue's head, command and status. -/
def nvmeCqe (sqhd cid status : Nat) : Bytes := zeros 8 ++ leBytes 2 sqhd ++ zeros 2 ++ leBytes 2 cid ++ leBytes 2 (2 * status)

end Sys2Proof.Machine
end

