-- ==== Sys2Proof/Machine/TurnOps.lean ====
section
/-! DEFINITION. The tracking divider, the TRN states, table messages and schedules (17), and the head
state change that table messages report. -/
namespace Sys2Proof.Machine

/-! ### TRN state codes (TRN_STATUS) -/

def trnOff : Nat := 0
def trnUnlocked : Nat := 1
def trnTracking : Nat := 2
def trnHoldover : Nat := 3
def trnFirst : Nat := 4

def State.trnState (s : State) : Nat := s.fld F.TRN_STATUS_STATE
def State.seat (s : State) : Nat := s.fld F.TRN_CTRL_SEAT

/-- PERIOD_US with the substitutions of TRN_PERIOD_CFG, in ns. -/
def State.periodNs (s : State) : Nat := 1000 * max 0x14 (min 0x3E8 (s.fld F.TRN_PERIOD_CFG_PERIOD_US))

/-- The period estimate P in Q4 ns. -/
def State.pEst (s : State) : Nat := s.fld F.TRN_PERIOD_EST_P

/-- Write the current stamp. -/
def State.setStamp (s : State) (v : Nat) : State := s.setPair F.TRN_NOW_LO_VALUE F.TRN_NOW_HI_VALUE v

/-! ### Table messages (R410) -/

/-- The 32 bytes of a table message. -/
def tableBytes (m : TableMsg) : Bytes :=
  leBytes 2 m.format ++ leBytes 1 m.type ++ leBytes 1 m.seat ++ leBytes 1 m.state ++ leBytes 1 m.flags ++ leBytes 1 m.epoch ++ zeros 1 ++
    leBytes 8 m.count ++ zeros 16

/-- Send a table message to a seat as a SEND on the queue pair of its TRN_PEER, where that is valid. -/
def State.sendTable (s : State) (seat : Nat) (m : TableMsg) : State :=
  let n := s.fld (F.TRN_PEER_QPN seat)
  if s.flag (F.TRN_PEER_VALID seat) then (s.send (.table n m)).postSend n (tableBytes m) else s

/-- A table message of a type with this head's seat, state, flags and epoch. -/
def State.tableMsg (s : State) (type count : Nat) : TableMsg :=
  { format := 1, type := type, seat := s.seat, state := s.headState,
    flags := s.fld F.TRN_CTRL_FP_ELIG + 2 * s.trnState, epoch := s.fld F.TRN_STATUS_EPOCH,
    reserved := 0, count := count % 2 ^ 64 }

/-- Send STATUS to every valid seat. -/
def State.sendStatus (s : State) : State :=
  (List.range 8).foldl (fun t k => t.sendTable k (t.tableMsg 1 t.turn)) s

/-- Send AHEAD carrying n to a seat. -/
def State.sendAhead (s : State) (seat n : Nat) : State := s.sendTable seat (s.tableMsg 2 n)

/-! ### The TURN frame (R399) -/

/-- The 96 bits of a frame: its CRC stands over the ten bytes of bits [79:0], the lowest first. -/
def frameBits (count seat epoch : Nat) : Nat :=
  let b := count % 2 ^ 64 + 2 ^ 64 * (seat % 8) + 2 ^ 72 * (epoch % 256)
  b + 2 ^ 80 * crc16 (leBytes 10 b)

/-- The fields of a received frame; none for one with a frame error: a CRC that fails or a reserved bit that is not zero. -/
def readFrame (w : Nat) : Option TurnFrame :=
  if bits w 95 80 = crc16 (leBytes 10 w) ∧ bits w 71 67 = 0 then
    some { count := bits w 63 0, fpSeat := bits w 66 64, epoch := bits w 79 72 }
  else none

/-! ### State changes -/

/-- A change of TRN state: its interrupt, and a STATUS message (R405, R410). -/
def State.setTrn (s : State) (st : Nat) : State :=
  if st = s.trnState then s
  else
    let s1 := s.setFld F.TRN_STATUS_STATE st
    let s2 :=
      if st = trnTracking then s1.raise F.TRN_ISR_LOCKED
      else if st = trnHoldover then s1.raise F.TRN_ISR_HOLDOVER
      else if st = trnFirst then s1.raise F.TRN_ISR_BECAME_FIRST
      else s1
    s2.sendStatus

/-- A change of head state: logged, raised, and reported to the table (R410, R462). -/
def State.setHead (s : State) (st : Nat) : State :=
  if st = s.headState then s
  else (((s.setFld F.GLB_PAIR_STATUS_STATE st).raise F.GLB_ISR_STATE).logEvent 1 0 0 st).sendStatus

/-- Count a glitch (R403). -/
def State.glitch (s : State) : State := s.inc F.TRN_EVENTS_GLITCH

/-- Count a rejected frame or a read-back failure. -/
def State.trnReject (s : State) : State := (s.inc F.TRN_EVENTS_REJECTS).raise F.TRN_ISR_REJECT

/-- Release the TURN bus. -/
def State.releaseTurn (s : State) : State :=
  if s.pins.turnDriven then { (s.send .turnRelease) with pins := { s.pins with turnDriven := false } } else s

/-- Enter HOLDOVER at time t. -/
def State.enterHoldover (s : State) (t : Nat) : State :=
  if s.trnState = trnHoldover then s
  else { (s.setTrn trnHoldover) with trn := { s.trn with holdAt := t } }

/-- Enter FIRST: EPOCH one above the last seen, and the count the first edge carries (R405). -/
def State.enterFirst (s : State) (claim : Nat) : State :=
  let s1 := s.setFld F.TRN_STATUS_EPOCH (s.fld F.TRN_STATUS_EPOCH + 1)
  let s2 := (s1.raise F.TRN_ISR_FP_CHANGE).setTrn trnFirst
  { s2 with trn := { s2.trn with claim := some claim } }

/-- Turn TRN off: the bus is released. -/
def State.trnStop (s : State) : State :=
  let s1 := s.releaseTurn.setTrn trnOff
  { s1 with trn := { s1.trn with awaiting := false, claim := none, ahead := none } }

/-! ### The divider (R402) -/

/-- The new estimate after an interval of m ns, lock_edges accepted edges after the start. -/
def newPeriod (lockEdges p m : Nat) : Nat :=
  if lockEdges < 2 then 16 * m % 2 ^ 32
  else (((p : Int) + roundEven (16 * (m : Int) - p) 8).toNat) % 2 ^ 32

/-- Take an edge as accepted: P follows where the edge before it was accepted too. -/
def State.acceptPeriod (s : State) (t : Nat) : State :=
  let s1 := if s.trn.accepted then
      s.setFld F.TRN_PERIOD_EST_P (newPeriod s.trn.lockEdges s.pEst (t - s.trn.lastEdge)) else s
  { s1 with trn := { s1.trn with lastEdge := t, realEdge := some t, accepted := true, lockEdges := s.trn.lockEdges + 1 } }

/-! ### Schedules (R411) -/

/-- Advances of a periodic slot's TARGET that bring it ahead of the stamp. -/
def schedAdvances (target period stamp : Nat) : Nat :=
  if target ≤ stamp then (stamp - target) / (period * 1024) + 1 else 0

def State.schedTarget (s : State) (n : Nat) : Nat :=
  s.pair (F.TRN_SCHED_TARGET_LO_STAMP n) (F.TRN_SCHED_TARGET_HI_STAMP n)

/-- Is a slot armed with its TARGET reached? -/
def State.schedDue (s : State) (n : Nat) : Bool :=
  s.flag (F.TRN_SCHED_CFG_EN n) && decide (s.schedTarget n ≤ s.stamp)

/-- Fire a slot. -/
def State.fireSlot (s : State) (n : Nat) : State :=
  let late := decide (s.schedTarget n < s.stamp)
  let period := s.fld (F.TRN_SCHED_CFG_PERIOD n)
  let s1 := (s.setFld F.TRN_SCHED_FIRED_FIRED (s.fld F.TRN_SCHED_FIRED_FIRED ||| 2 ^ n)).setFlag (F.TRN_SCHED_CFG_LATE n) late
  let s2 :=
    if period = 0 then s1.setFld (F.TRN_SCHED_CFG_EN n) 0
    else
      let k := schedAdvances (s.schedTarget n) period s.stamp
      (s1.setPair (F.TRN_SCHED_TARGET_LO_STAMP n) (F.TRN_SCHED_TARGET_HI_STAMP n)
        (s.schedTarget n + k * period * 1024)).inc (F.TRN_SCHED_CFG_MISSED n) (k - 1)
  s2.raise F.TRN_ISR_SCHED

/-- Fire every slot that is due, in ascending order. -/
def State.fireDue (s : State) : State :=
  (List.range 16).foldl (fun t n => if t.schedDue n then t.fireSlot n else t) s

/-! ### Periodic tasks (R407) -/

/-- Has the count reached or passed a multiple of a period since the task last ran? -/
def State.taskDue (s : State) (id period : Nat) : Bool :=
  decide (((s.trn.tasks.get? id).getD 0) / period < s.turn / period)

/-- Mark a task as run. -/
def State.taskRan (s : State) (id : Nat) : State :=
  { s with trn := { s.trn with tasks := s.trn.tasks.put id s.turn } }

/-- The tasks of R407, by number. -/
def taskRefresh : Nat := 0
def taskLlr : Nat := 1
def taskAdc : Nat := 2
def taskDrbg : Nat := 3
def taskMargin : Nat := 4
def taskGauge : Nat := 5
def taskCkpt : Nat := 6
/-- The probe of the bank (R388). -/
def taskProbe : Nat := 8
def taskStatus : Nat := 7

/-! ### Edges -/

/-- The TURN record of an edge (R453). -/
def State.turnRecord (s : State) (count : Nat) (local_ realign : Bool) : State :=
  s.record 2 0 (count % 2 ^ 64 + 2 ^ 64 * s.pEst + 2 ^ 96 * ((if local_ then 1 else 0) + (if realign then 2 else 0)))

/-- A turn begins with a count: the stamp's pip returns to 0, the PTP time of PTP_PORT and the count are latched, and
the edge is recorded (R411, R453). -/
def State.edgeLatch (s : State) (count ptp : Nat) (local_ : Bool) : State :=
  (((s.setStamp (count % 2 ^ 54 * 1024)).setPair F.TRN_EDGE_TURN_LO_VALUE F.TRN_EDGE_TURN_HI_VALUE (count % 2 ^ 54)).setPair
    F.TRN_EDGE_PTP_LO_VALUE F.TRN_EDGE_PTP_HI_VALUE (ptp % 2 ^ 64)).turnRecord count local_ false

/-- What a real edge is taken for (R403). -/
inductive EdgeKind where
  | accepted | realigned | glitch | unlocked | ignored
  deriving DecidableEq, Repr

/-- Classify a real edge at time t. Before two accepted edges have given P, no window applies (log entry 15). -/
def State.edgeKind (s : State) (t : Nat) : EdgeKind :=
  let p := s.pEst
  let d := t - s.trn.lastEdge
  if s.trnState = trnOff ∨ s.trnState = trnFirst then .ignored
  else if s.trn.realEdge.any fun r => decide (t < r + 20000) then .glitch
  else if s.trnState = trnUnlocked then .unlocked
  else if s.trnState = trnTracking then
    if s.trn.lockEdges < 2 then .accepted
    else if s.fld F.TRN_STATUS_LOCAL ≠ 0 ∧ d ≤ p / 128 then .realigned
    else if p / 16 ≤ d + p / 128 ∧ d ≤ p / 16 + p / 128 then .accepted
    else .glitch
  else if p / 32 ≤ d then .accepted
  else .realigned

end Sys2Proof.Machine
end

