-- ==== Sys2Proof/Machine/MediaOps.lean ====
section
/-! DEFINITION. Modules, leases, operations and the die arbiters (09), superblock entries, stripes and
placement (07, 10), as the operations that commands share. -/
namespace Sys2Proof.Machine

/-! ### Physical addresses (Content Record bits [41:0]) -/

def addrModule (a : Nat) : Nat := a / 2 ^ 36 % 64
def addrDie (a : Nat) : Nat := a / 2 ^ 28 % 256
def addrBlock (a : Nat) : Nat := a / 2 ^ 14 % 4096
def addrPage (a : Nat) : Nat := a / 4 % 4096
/-- The block of an address in the MEMBER layout of R180. -/
def addrMember (a : Nat) : Nat := a / 2 ^ 14 % 2 ^ 28
/-- The address of a codeword of a member block. -/
def memberAddr (m page cw : Nat) : Nat := m * 2 ^ 14 + page * 4 + cw
def memberModule (m : Nat) : Nat := m / 2 ^ 22 % 64
def memberDie (m : Nat) : Nat := m / 2 ^ 14 % 256

/-! ### Ports and modules -/

def State.port (s : State) (m : Nat) : PortSt := (s.media.ports.get? m).getD {}
def State.setPort (s : State) (m : Nat) (p : PortSt) : State :=
  { s with media := { s.media with ports := s.media.ports.put m p } }

/-- The STATE codes of STR_MOD_m (R252). -/
def modNone : Nat := 0
def modServing : Nat := 1
def modAway : Nat := 2
def modHeld : Nat := 3
def modLost : Nat := 4

def State.modState (s : State) (m : Nat) : Nat := s.fld (F.STR_MOD_STATE m)
def State.portUp (s : State) (m : Nat) : Bool := s.flag (F.MED_PORT_STATUS_UP m)
def State.modPresent (s : State) (m : Nat) : Bool := s.flag (F.MED_PORT_STATUS_PRESENT m)

/-- Modules served at the Pattern's Purl width (R216). -/
def State.modules (s : State) : Nat := if s.pattern.purlX2 then 32 else 64

/-- Present module bridges whose port is UP. -/
def State.presentMods (s : State) : List Nat :=
  (List.range s.modules).filter fun m => s.modPresent m && s.portUp m

/-- BLOCKS of a module's parameter page. -/
def State.modBlocks (s : State) (m : Nat) : Nat := ((s.port m).page.map (·.blocks)).getD 4096

/-- The half of a block of a module (R19). -/
def State.halfOf (s : State) (m block : Nat) : Nat := if 2 * block < s.modBlocks m then 0 else 1

/-- The half a member block lies in. -/
def State.memberHalf (s : State) (member : Nat) : Nat := s.halfOf (memberModule member) (member % 4096)

/-! ### The failed-die bitmap and the loss stamps (R255, STR region) -/

def State.strBase (s : State) : Nat := s.base F.STR_REGION_BASE_LO_ADDR F.STR_REGION_BASE_HI_ADDR 12
def State.dieFailed (s : State) (m d : Nat) : Bool := bit (s.rdN (s.strBase + (m * 256 + d) / 8) 1) (d % 8)
def State.failDie (s : State) (m d : Nat) : State :=
  let a := s.strBase + (m * 256 + d) / 8
  (s.wrN a 1 (s.rdN a 1 ||| 2 ^ (d % 8))).raise F.STR_ISR_DIE_FAILED
def State.lossStamp (s : State) (m : Nat) : Nat := s.rdN (s.strBase + 2048 + 8 * m) 8

/-! ### Superblock and statistics entries (R180, R199) -/

def State.sbtBase (s : State) : Nat := s.base F.FTL_SBT_BASE_LO_BASE_LO F.FTL_SBT_BASE_HI_BASE_HI 12
def State.sbAddr (s : State) (sb : Nat) : Nat := s.sbtBase + 256 * sb
def State.sbState (s : State) (sb : Nat) : Nat := s.rdN (s.sbAddr sb) 1
def State.sbMode (s : State) (sb : Nat) : Nat := s.rdN (s.sbAddr sb + 1) 1
def State.sbK (s : State) (sb : Nat) : Nat := s.rdN (s.sbAddr sb + 2) 1
def State.sbM (s : State) (sb : Nat) : Nat := s.rdN (s.sbAddr sb + 3) 1
def State.sbInst (s : State) (sb : Nat) : Nat := s.rdN (s.sbAddr sb + 4) 1 % 2
def State.sbOpenStamp (s : State) (sb : Nat) : Nat := s.rdN (s.sbAddr sb + 8) 8
def State.sbW (s : State) (sb : Nat) : Nat := s.sbK sb + s.sbM sb
def State.sbMember (s : State) (sb j : Nat) : Nat := s.rdN (s.sbAddr sb + 16 + 4 * j) 4 % 2 ^ 28
def State.sbMembers (s : State) (sb : Nat) : List Nat := (List.range (s.sbW sb)).map (s.sbMember sb)

/-- The STATE codes of a superblock (R180). -/
def sbFree : Nat := 0
def sbQueued : Nat := 1
def sbOpen : Nat := 2
def sbClosed : Nat := 3
def sbReclaiming : Nat := 4
def sbRetired : Nat := 5

/-- The superblocks the table holds: the entries whose K is not zero (log entry 16). -/
def State.allSbs (s : State) : List Nat :=
  s.dram.filterMap fun c =>
    if s.sbtBase ≤ c.1 ∧ c.1 < s.sbtBase + 2 ^ 36 ∧ (c.1 - s.sbtBase) % 256 = 2 then some ((c.1 - s.sbtBase) / 256) else none

def State.sbsAddr (s : State) (sb : Nat) : Nat :=
  s.base F.FTL_SBS_BASE_LO_BASE_LO F.FTL_SBS_BASE_HI_BASE_HI 12 + 128 * sb
def State.sbValid (s : State) (sb : Nat) : Nat := s.rdN (s.sbsAddr sb) 4
def State.sbInvalid (s : State) (sb : Nat) : Nat := s.rdN (s.sbsAddr sb + 4) 4
def State.sbCloseStamp (s : State) (sb : Nat) : Nat := s.rdN (s.sbsAddr sb + 8) 8
def State.sbSoft (s : State) (sb : Nat) : Nat := s.rdN (s.sbsAddr sb + 0x10) 2
def State.sbFlags (s : State) (sb : Nat) : Nat := s.rdN (s.sbsAddr sb + 0x12) 1
def State.sbRecon (s : State) (sb : Nat) : Nat := s.rdN (s.sbsAddr sb + 0x13) 1
def State.sbReads (s : State) (sb j : Nat) : Nat := s.rdN (s.sbsAddr sb + 0x20 + 2 * j) 2
/-- The best of a list under an order. -/
def bestBy (lt : Nat → Nat → Bool) : List Nat → Option Nat
  | [] => none
  | x :: r => match bestBy lt r with
    | none => some x
    | some y => some (if lt y x then y else x)

/-- The order of R201: is the first the better candidate? -/
def State.reclaimBefore (s : State) (a b : Nat) : Bool :=
  let u (sb : Nat) : Bool := s.sbFlags sb % 8 != 0 || bit (s.sbFlags sb) 4
  let frac (sb : Nat) : Nat :=
    if s.sbValid sb + s.sbInvalid sb = 0 then 65536 else s.sbInvalid sb * 65536 / (s.sbValid sb + s.sbInvalid sb)
  if bit (s.sbFlags a) 4 != bit (s.sbFlags b) 4 then bit (s.sbFlags a) 4
  else if u a != u b then u a
  else if u a then decide (s.sbCloseStamp a < s.sbCloseStamp b)
  else if frac a != frac b then decide (frac b < frac a)
  else decide (s.sbCloseStamp a < s.sbCloseStamp b)

/-- Keep the reclaim candidate of an instance (R201). -/
def State.recandidate (s : State) (i : Nat) : State :=
  let l := s.allSbs.filter fun sb => s.sbInst sb == i && s.sbState sb == sbClosed
  match bestBy s.reclaimBefore l with
  | some sb => ((s.setFld (F.FTL_RCL_CAND_VALID i) 1).setFlag (F.FTL_RCL_CAND_URGENT i) (s.sbFlags sb % 8 != 0)).setFld
      (F.FTL_RCL_CAND_SB i) sb
  | none => ((s.setFld (F.FTL_RCL_CAND_VALID i) 0).setFld (F.FTL_RCL_CAND_URGENT i) 0).setFld (F.FTL_RCL_CAND_SB i) 0

/-- A CLOSED superblock's counts or flags have changed: its instance's reclaim candidate is chosen again (R201). -/
def State.sbChanged (s : State) (sb : Nat) : State :=
  if s.sbState sb == sbClosed && s.holds (s.sbInst sb) then s.recandidate (s.sbInst sb) else s

def State.orFlags (s : State) (sb v : Nat) : State := (s.wrN (s.sbsAddr sb + 0x12) 1 (s.sbFlags sb ||| v)).sbChanged sb

/-- The superblock whose member a block is, among those of the table. -/
def State.sbOfMember (s : State) (member : Nat) : Option Nat :=
  s.allSbs.find? fun sb => (s.sbState sb != sbFree) && (s.sbState sb != sbRetired) && (s.sbMembers sb).contains member

/-- Add to a counter of a statistics entry, saturating. -/
def State.addStat (s : State) (sb off n : Nat) (d : Int) : State :=
  let v : Int := s.rdN (s.sbsAddr sb + off) n + d
  s.wrN (s.sbsAddr sb + off) n (min (2 ^ (8 * n) - 1) v.toNat)

/-- Change the capacity levels of an instance (R187). -/
def State.addValid (s : State) (i : Nat) (d : Int) : State :=
  s.setPair (F.FTL_VALID_SLOTS_LO_LEVEL i) (F.FTL_VALID_SLOTS_HI_LEVEL i)
    ((s.pair (F.FTL_VALID_SLOTS_LO_LEVEL i) (F.FTL_VALID_SLOTS_HI_LEVEL i) : Int) + d).toNat
def State.addInvalid (s : State) (i : Nat) (d : Int) : State :=
  s.setPair (F.FTL_INVALID_SLOTS_LO_LEVEL i) (F.FTL_INVALID_SLOTS_HI_LEVEL i)
    ((s.pair (F.FTL_INVALID_SLOTS_LO_LEVEL i) (F.FTL_INVALID_SLOTS_HI_LEVEL i) : Int) + d).toNat

/-- Slots of a superblock become valid, or invalid, in its entry and its instance's levels. -/
def State.slotsValid (s : State) (sb n : Nat) : State := ((s.addStat sb 0 4 n).addValid (s.sbInst sb) n).sbChanged sb
def State.slotsInvalid (s : State) (sb n : Nat) : State := ((s.addStat sb 4 4 n).addInvalid (s.sbInst sb) n).sbChanged sb
/-- Valid slots become invalid. -/
def State.slotsFreed (s : State) (sb n : Nat) : State :=
  ((s.addStat sb 0 4 (-(n : Int))).addValid (s.sbInst sb) (-(n : Int))).slotsInvalid sb n

/-! ### Availability and the rebuild counts (R253, R256) -/

/-- Was the superblock opened at or before the module's loss (R253)? -/
def State.lostBefore (s : State) (sb m : Nat) : Bool :=
  s.lossStamp m != 0 && decide (s.sbOpenStamp sb ≤ s.lossStamp m)

/-- Is a member of a superblock unavailable (R248, R253)? -/
def State.memberAway (s : State) (sb member : Nat) : Bool :=
  let m := memberModule member
  let st := s.modState m
  st == modAway || st == modHeld || st == modLost || s.dieFailed m (memberDie member) || s.lostBefore sb m

/-- Is a member gone for rebuild: on a LOST module, on a failed die, or older than its module's loss? -/
def State.memberGone (s : State) (sb member : Nat) : Bool :=
  let m := memberModule member
  s.modState m == modLost || s.dieFailed m (memberDie member) || s.lostBefore sb m

/-- u of a superblock. -/
def State.sbGone (s : State) (sb : Nat) : Nat := ((s.sbMembers sb).filter (s.memberGone sb)).length

/-- The CLOSED or RECLAIMING superblocks of an instance. -/
def State.rebuildable (s : State) (i : Nat) : List Nat :=
  s.allSbs.filter fun sb => s.sbInst sb == i && (s.sbState sb == sbClosed || s.sbState sb == sbReclaiming)

/-- Is the first candidate better than the second under the order of R256? -/
def State.rebuildBefore (s : State) (a b : Nat) : Bool :=
  let ua := s.sbGone a; let ub := s.sbGone b
  if ua != ub then decide (ub < ua)
  else
    let ma := s.sbMode a == 2; let mb := s.sbMode b == 2
    if ma != mb then ma else decide (s.sbCloseStamp a < s.sbCloseStamp b)

/-- Recount the degraded, exposed and broken superblocks of an instance and name the candidate (R256). -/
def State.recountRebuild (s : State) (i : Nat) : State :=
  if !s.holds i then s
  else
    let l := (s.rebuildable i).filter fun sb => decide (1 ≤ s.sbGone sb)
    let exposed := (l.filter fun sb => s.sbGone sb == s.sbM sb).length
    let broken := (l.filter fun sb => decide (s.sbM sb < s.sbGone sb)).length
    let worse := decide (s.fld (F.STR_EXPOSED_EXPOSED i) < exposed) || decide (s.fld (F.STR_EXPOSED_BROKEN i) < broken)
    let s1 := ((s.setFld (F.STR_DEGRADED_COUNT i) l.length).setFld (F.STR_EXPOSED_EXPOSED i) (min 0xFFFF exposed)).setFld
      (F.STR_EXPOSED_BROKEN i) (min 0xFFFF broken)
    let s2 := match bestBy s.rebuildBefore l with
      | some sb => ((s1.setFld (F.STR_REBUILD_CAND_VALID i) 1).setFld (F.STR_REBUILD_CAND_UNAVAIL i) (s.sbGone sb)).setFld
          (F.STR_REBUILD_CAND_SB i) sb
      | none => ((s1.setFld (F.STR_REBUILD_CAND_VALID i) 0).setFld (F.STR_REBUILD_CAND_UNAVAIL i) 0).setFld
          (F.STR_REBUILD_CAND_SB i) 0
    if worse then s2.raise F.STR_ISR_EXPOSED else s2

/-! ### Superblock counts, the fast target, the reclaim candidate (R181, R183, R184, R186, R188, R201) -/

def queueKey (i stream : Nat) : Nat := i * 8 + stream
def State.sbQueue (s : State) (i stream : Nat) : List Nat := (s.ftl.queues.get? (queueKey i stream)).getD []
def State.setQueue (s : State) (i stream : Nat) (q : List Nat) : State :=
  ({ s with ftl := { s.ftl with queues := if q.isEmpty then s.ftl.queues.del (queueKey i stream) else s.ftl.queues.put (queueKey i stream) q } }).setFld
    (F.FTL_SBQ_LEVEL_QUEUED stream i) q.length

/-- F of R183. -/
def fastTarget (total free fast permille share fmin fmax : Nat) : Nat :=
  let spare := ceilDiv (total * permille) 1000
  let f := (free + fast - spare) * share / 256
  max (if fmax = 0 then f else min f fmax) fmin

/-- How many superblocks of a list meet a test. -/
def countP (l : List Nat) (p : Nat → Bool) : Nat := (l.filter p).length

/-- SPARE_PERMILLE with its substitution. -/
def State.sparePermille (s : State) : Nat := max 0x0A (s.fld F.FTL_TIER_CFG_SPARE_PERMILLE)

/-- Recompute the counts of an instance, its fast target, and the alarms that follow from them, as at
every superblock state change. -/
def State.recountSbs (s : State) (i : Nat) : State :=
  if !s.holds i then s
  else
    let l := s.allSbs.filter fun sb => s.sbInst sb == i && s.sbState sb != sbRetired
    let hu := s.sbQueue i 4 ++ (s.ftl.opening.filter fun c => c.inst == i && c.stream == 4).map (·.sb)
    let live (sb : Nat) : Bool := s.sbState sb != sbFree && !hu.contains sb
    let free := countP l fun sb => s.sbState sb == sbFree
    let fast := countP l fun sb => live sb && s.sbMode sb == 0
    let dense := countP l fun sb => live sb && s.sbMode sb == 1
    let meta_ := countP l fun sb => live sb && s.sbMode sb == 2
    let huN := countP l fun sb => s.sbState sb != sbFree && hu.contains sb
    let f := fastTarget l.length free fast s.sparePermille (s.fld F.FTL_TIER_CFG_FAST_SHARE)
      (s.fld F.FTL_FAST_MIN_COUNT) (s.fld F.FTL_FAST_MAX_COUNT)
    let s1 := ((((((((s.setFld (F.FTL_SB_COUNTS_TOTAL_COUNT i) l.length).setFld (F.FTL_SB_COUNTS_FREE_COUNT i) free).setFld
      (F.FTL_SB_COUNTS_HU_COUNT i) huN).setFld (F.FTL_SB_COUNTS_FAST_COUNT i) fast).setFld (F.FTL_SB_COUNTS_DENSE_COUNT i) dense).setFld
      (F.FTL_SB_COUNTS_META_COUNT i) meta_).setFld (F.FTL_SB_COUNTS_TARGET_COUNT i) f).setFld
      (F.FTL_SB_COUNTS_SPARE_COUNT i) (ceilDiv (l.length * s.sparePermille) 1000))
    let s2 := if f < fast then s1.raise F.FTL_ISR_FAST_OVER else s1
    let s3 := if (s.sbQueue i 4).length < s.fld F.FTL_HU_RESERVE_COUNT then s2.raise F.FTL_ISR_HU_SHORT else s2
    let s4 := if free < s.fld F.FTL_SPACE_CFG_WARN_SB then s3.raise F.FTL_ISR_SPACE_WARN else s3
    let s5 := if free < s.fld F.FTL_SPACE_CFG_STOP_SB then s4.raise F.FTL_ISR_SPACE_STOP else s4
    (s5.recandidate i).recountRebuild i

/-- Is a superblock in a state in which its members hold what was programmed under its mode? -/
def sbInUse (st : Nat) : Bool := st == sbOpen || st == sbClosed || st == sbReclaiming

/-- Note of a superblock's members whether they were last programmed as QLC: those of mode 0x1 (R210). -/
def State.noteMode (s : State) (sb : Nat) : State :=
  let l := s.sbMembers sb
  let rest := s.ftl.qlc.filter fun b => !l.contains b
  { s with ftl := { s.ftl with qlc := if s.sbMode sb = 1 then rest ++ l else rest } }

/-- Write a superblock's STATE; a change recounts its instance. -/
def State.setSbState (s : State) (sb st : Nat) : State :=
  let s1 := if sbInUse st || sbInUse (s.sbState sb) then s.noteMode sb else s
  (s1.wrN (s.sbAddr sb) 1 st).recountSbs (s.sbInst sb)

/-- New writes to an instance's volumes fail (R188). -/
def State.spaceStop (s : State) (i : Nat) : Bool :=
  decide (s.fld (F.FTL_SB_COUNTS_FREE_COUNT i) < s.fld F.FTL_SPACE_CFG_STOP_SB)

/-! ### Bad blocks and wear (R207, R210, R211) -/

def State.bbtBase (s : State) : Nat := s.base F.FTL_BBT_BASE_LO_BASE_LO F.FTL_BBT_BASE_HI_BASE_HI 12
def State.wearBase (s : State) : Nat := s.base F.FTL_WEAR_BASE_LO_BASE_LO F.FTL_WEAR_BASE_HI_BASE_HI 12
def State.badBlock (s : State) (member : Nat) : Bool := bit (s.rdN (s.bbtBase + member / 8) 1) (member % 8)
def State.wear (s : State) (member : Nat) : Nat := s.rdN (s.wearBase + 2 * member) 2

/-- Blocks of a half over every module whose parameter page is known. -/
def State.halfBlocks (s : State) : Nat :=
  ((List.range 64).map fun m => ((s.port m).page.map fun p => p.dies * p.planes * p.blocks / 2).getD 0).foldl (· + ·) 0

/-- The blocks of an instance's halves that the erase-count table lists with wear, and are not retired. -/
def State.wornBlocks (s : State) (i : Nat) : List Nat :=
  (s.dram.filterMap fun c =>
    if s.wearBase ≤ c.1 ∧ c.1 < s.wearBase + 2 ^ 29 then some ((c.1 - s.wearBase) / 2) else none).eraseDups.filter
      fun b => s.memberHalf b == i && !s.badBlock b

/-- The blocks the bad-block bitmap names. -/
def State.badBlocks (s : State) : List Nat :=
  s.dram.flatMap fun c =>
    if s.bbtBase ≤ c.1 ∧ c.1 < s.bbtBase + 2 ^ 25 then
      ((List.range 8).filter fun k => bit c.2.toNat k).map fun k => 8 * (c.1 - s.bbtBase) + k
    else []

/-- Keep FTL_WEAR_RANGE of an instance and raise WEAR_SPREAD (R211). -/
def State.rewear (s : State) (i : Nat) : State :=
  let l := (s.wornBlocks i).map s.wear
  let bad := (s.badBlocks.filter fun b => s.memberHalf b == i).length
  let mx := l.foldl max 0
  let mn := if l.length + bad < s.halfBlocks then 0 else l.foldl min mx
  let s1 := (s.setFld (F.FTL_WEAR_RANGE_MAX i) mx).setFld (F.FTL_WEAR_RANGE_MIN i) mn
  if 16 * s.fld F.FTL_WEAR_CFG_SPREAD < mx - mn then s1.raise F.FTL_RCL_ISR_WEAR_SPREAD else s1

/-- Set a block's bit in the bad-block bitmap and report the retirement (R207). The RETIRE record is the
caller's. -/
def State.markBad (s : State) (member reason : Nat) : State :=
  let a := s.bbtBase + member / 8
  let m := memberModule member
  let (sum, n, mx) := (s.health.wear.get? m).getD (0, 0, 0)
  let i := s.memberHalf member
  let s0 := s.modHealth fun h => { h with
    wear := h.wear.put m (sum - s.wear member, n - 1, mx), retired := h.retired.put m ((h.retired.get? m).getD 0 + 1),
    bad := putInst h.bad i (ofInst h.bad i + 1) }
  (((((s0.wrN a 1 (s.rdN a 1 ||| 2 ^ (member % 8))).inc F.FTL_RCL_EVENTS_RETIRED).setFld F.FTL_RETIRE_LAST_REASON reason).setFld
    F.FTL_RETIRE_LAST_BLOCK member)).raise F.FTL_RCL_ISR_BLOCK_RETIRED |>.rewear i

/-- Wear units of one erase of a block: 16 where it was last programmed as QLC (R210). -/
def State.eraseUnits (s : State) (member : Nat) : Nat :=
  let inUse := match s.sbOfMember member with
    | some sb => sbInUse (s.sbState sb) && s.sbMode sb == 1
    | none => false
  if inUse || s.ftl.qlc.contains member then 16 else max 1 (s.fld F.FTL_WEAR_CFG_PSLC_WEIGHT)

/-- Count an erase of a block. -/
def State.addWear (s : State) (member : Nat) : State :=
  let w := min 0xFFFF (s.wear member + s.eraseUnits member)
  let m := memberModule member
  let (sum, n, mx) := (s.health.wear.get? m).getD (0, 0, 0)
  let s1 := s.modHealth fun h => { h with wear := h.wear.put m (sum + s.eraseUnits member, n, max mx w) }
  (s1.wrN (s.wearBase + 2 * member) 2 w).rewear (s.memberHalf member)

/-! ### Operations (R225, R233) -/

/-- The lowest tag at or after the port's next one that no outstanding operation of the port holds. -/
def State.freeTag (s : State) (port : Nat) : Nat :=
  let used := (s.media.out.filter fun p => p.port == port).map (·.op.tag)
  let n := (s.port port).nextTag
  (((List.range 4096).map fun k => (n + k) % 4096).find? fun t => !used.contains t).getD n

/-- Issue an operation on a port: it becomes outstanding under a fresh tag, and its program data follows
its descriptor, one message per page. -/
def State.issueOp (s : State) (p : PendOp) : State :=
  let t := s.freeTag p.port
  let op := { p.op with tag := t, epoch := if (p.op.opcode = 2 ∨ p.op.opcode = 3) ∧ !bit p.op.flags 4 then s.epoch (s.halfOf p.port (addrMember p.op.addr % 4096)) else p.op.epoch }
  let s1 := ({ s with media := { s.media with out := s.media.out ++ [{ p with op := op }] } }).setPort p.port
    { s.port p.port with nextTag := (t + 1) % 4096 }
  (p.data.zipIdx).foldl (fun u d => u.send (.purlData p.port t d.2 d.1)) (s1.send (.purlOp p.port op))

/-- Queue an operation at its die's arbiter: budget 0 to 5, or 6 for foreground. -/
def State.queueOp (s : State) (budget : Nat) (p : PendOp) : State :=
  { s with media := { s.media with queued := s.media.queued ++ [(budget, p)] } }

/-- A descriptor with the fields a plain operation needs. -/
def plainOp (opcode flags epoch mode addr : Nat) : PurlOp :=
  { opcode := opcode, flags := flags, tag := 0, epoch := epoch, cwMask := 0, mode := mode, addr := addr % 2 ^ 36,
    offsets := [], dataLen := 0 }

/-! ### Lease claims (R22, R230) -/

/-- The highest epoch known for a half: its own record, the partner's report, the bridges' reports (R22). -/
def State.highestEpoch (s : State) (half : Nat) : Nat :=
  let reported := (s.pairSt.reports.vals.flatMap fun l => l.filterMap fun r => if r.1 == half then some r.2.1 else none)
  reported.foldl epochMax (epochMax (epochMax (s.epoch half) (ofInst s.pairSt.claimed half)) (ofInst s.pairSt.partnerEpochs half))

/-- An address in a half of a module: block 0, or the first block of half 1. -/
def State.halfAddr (s : State) (m half : Nat) : Nat := (if half = 0 then 0 else s.modBlocks m / 2) * 2 ^ 14

/-- Send a claim to a module: with ALL_DIES for the half, or for one die. -/
def State.sendClaim (s : State) (half epoch : Nat) (die : Option Nat) (m : Nat) : State :=
  let op := plainOp 4 (if die.isNone then 8 else 0) epoch 0 (s.halfAddr m half + (die.getD 0) * 2 ^ 28)
  s.issueOp { port := m, op := op, purpose := .claim half epoch, data := [] }

/-- Claim a half at an epoch in every present bridge (R22, R230). The head holds the half from the first grant on; the
epoch of a half it holds already is raised at once. -/
def State.claimHalf (s : State) (half epoch round : Nat) (why : ClaimFor) : State :=
  let s0 := if s.epoch half = 0 then s else s.setEpoch half epoch
  let s1 : State := { s0 with pairSt := { s0.pairSt with claimed := putInst s0.pairSt.claimed half epoch } }
  let s2 := s.presentMods.foldl (fun t m => t.sendClaim half epoch none m) s1
  { s2 with pairSt := { s2.pairSt with
      claims := (s.pairSt.claims.filter fun c => c.half != half) ++
        [{ half := half, epoch := epoch, round := round, waiting := s.presentMods, highest := epoch, for_ := why, dies := [] }] } }

/-- Claim a half afresh: one above the highest epoch known for it (R22). -/
def State.claimNew (s : State) (half : Nat) (why : ClaimFor) : State :=
  s.claimHalf half (epochNext (s.highestEpoch half)) 1 why

/-! ### Stripe parity (R245) -/

/-- Multiplication in GF(2^8) with x^8 + x^4 + x^3 + x^2 + 1. -/
def gfMulN : Nat → Nat → Nat → Nat
  | 0, _, _ => 0
  | n + 1, a, b =>
    (if b % 2 = 1 then a else 0) ^^^ gfMulN n (if 128 ≤ a then ((a * 2) ^^^ 0x11D) % 256 else a * 2) (b / 2)
def gfMul (a b : Nat) : Nat := gfMulN 8 a b
def gfPow2 : Nat → Nat
  | 0 => 1
  | n + 1 => gfMul 2 (gfPow2 n)

/-- Multiply a polynomial, highest coefficient first, by (x - r). -/
def polyStep (p : List Nat) (r : Nat) : List Nat :=
  List.zipWith (· ^^^ ·) (p ++ [0]) (0 :: p.map (gfMul r))

/-- The generator with roots α^0 to α^(M-1), highest coefficient first, the leading 1 dropped. -/
def rsGen (m : Nat) : List Nat := (((List.range m).map gfPow2).foldl polyStep [1]).tail

/-- XOR of two codewords scaled by a coefficient. -/
def xorScaled (g : Nat) (f r : Bytes) : Bytes :=
  List.zipWith (fun x y => BitVec.ofNat 8 (gfMul g x.toNat) ^^^ y) f r

/-- Feed one data codeword through the remainder registers. -/
def rsStep (gen : List Nat) (regs : List Bytes) (d : Bytes) : List Bytes :=
  let f := List.zipWith (· ^^^ ·) d (regs.headD (zeros 4224))
  List.zipWith (fun g r => xorScaled g f r) gen (regs.tail ++ [zeros 4224])

/-- The M parity codewords of the K data codewords of a stripe, bytes 0 to 4,223. -/
def stripeParity (m : Nat) (data : List Bytes) : List Bytes :=
  data.foldl (rsStep (rsGen m)) (List.replicate m (zeros 4224))

/-! ### Placement (R182, R247) -/

/-- Slots a block of a slot class takes: n for class n, all eight for class 15. -/
def slotsOf (cls : Nat) : Nat := if 1 ≤ cls ∧ cls ≤ 8 then cls else 8

/-- Stripes of one program unit: a pseudo-SLC page, or a QLC wordline of four pages. -/
def unitStripes (mode : Nat) : Nat := if mode = 1 then 16 else 4

/-- The member that carries codeword c of stripe s (R182). -/
def memberOf (w c s : Nat) : Nat := (c + s) % w

/-- The codeword of stripe s that member j carries. -/
def codewordOf (w j s : Nat) : Nat := (j + w - s % w) % w

/-- The physical address of a slot's codeword. -/
def OpenSb.addr (o : OpenSb) (stripe cw : Nat) : Nat :=
  memberAddr (o.members.getD (memberOf (o.k + o.m) cw stripe) 0) (stripe / 4) (stripe % 4)

/-- The codeword under fill. -/
def OpenSb.cwBytes (o : OpenSb) (stripe c : Nat) : Bytes := (o.cws.get? (stripe * 32 + c)).getD (zeros 4224)

/-- Have all its stripes been filled? -/
def OpenSb.full (o : OpenSb) : Bool := decide (o.total * unitStripes o.mode ≤ o.stripe)

/-- The codewords of one member's program of a unit, without their LDPC parity. -/
def OpenSb.unitCws (o : OpenSb) (unit j : Nat) : List Bytes :=
  (List.range (unitStripes o.mode)).map fun k =>
    let st := unit * unitStripes o.mode + k
    o.cwBytes st (codewordOf (o.k + o.m) j st)

/-- Append LDPC parity to codewords and gather them into pages of four (R235). -/
def ldpcPages : List Bytes → List Bytes
  | a :: b :: c :: d :: r => ([a, b, c, d].flatMap fun x => x ++ ldpcParity x) :: ldpcPages r
  | _ => []

/-- Replace an open superblock. -/
def State.setOpen (s : State) (o : OpenSb) : State :=
  { s with ftl := { s.ftl with open_ := s.ftl.open_.map fun x => if x.sb == o.sb then o else x } }

def State.openSb? (s : State) (sb : Nat) : Option OpenSb := s.ftl.open_.find? fun o => o.sb == sb

/-- The superblock now taking items of a stream. -/
def State.openFor (s : State) (inst stream : Nat) : Option OpenSb :=
  s.ftl.open_.find? fun o => o.inst == inst && o.stream == stream && !o.full

/-- Queue the programs of a filled unit, one per member. -/
def State.programUnit (s : State) (o : OpenSb) (unit : Nat) : State :=
  let us := unitStripes o.mode
  let hu := s.rows.holdup
  let flags := (if hu then 2 else 0) + (if o.stream = 2 then 0 else 1)
  let s0 := if unit = 0 then s.wrN (s.sbAddr o.sb + 8) 8 s.stamp else s
  let s1 := ((List.range (o.k + o.m)).foldl (fun t j =>
    let pages := ldpcPages (o.unitCws unit j)
    let mem := o.members.getD j 0
    let op := { plainOp 2 flags (s.epoch o.inst) (if o.mode = 1 then 0 else 1)
        (memberAddr mem (if o.mode = 1 then 4 * unit else unit) 0) with dataLen := 18432 * pages.length }
    t.queueOp (if o.stream = 2 then 0 else 6)
      { port := memberModule mem, op := op, purpose := .program o.sb unit j, data := pages }) s0)
  let now := o.items.filter fun p => decide (p.stripe < us * (unit + 1))
  let later := o.items.filter fun p => decide (us * (unit + 1) ≤ p.stripe)
  s1.setOpen { o with
    items := later,
    units := o.units ++ [{ unit := unit, good := [], issued := List.range (o.k + o.m), items := now }] }

/-- Complete the data codewords of the stripe under fill: its parity is computed, the next stripe
begins, and a filled unit is programmed. -/
def State.endStripe (s : State) (o : OpenSb) : State :=
  let par := stripeParity o.m ((List.range o.k).map (o.cwBytes o.stripe))
  let cws := (par.zipIdx).foldl (fun (t : Tbl Bytes) p => t.put (o.stripe * 32 + o.k + p.2) p.1) o.cws
  let o' := { o with cws := cws, stripe := o.stripe + 1, cw := 0, slots := 0 }
  if (o.stripe + 1) % unitStripes o.mode = 0 then s.programUnit o' (o.stripe / unitStripes o.mode) else s.setOpen o'

/-- Leave the codeword under fill: its empty slots are counted invalid (R182). -/
def State.endCodeword (s : State) (o : OpenSb) : State :=
  let s1 := if o.slots < 8 then s.slotsInvalid o.sb (8 - o.slots) else s
  if o.cw + 1 = o.k then s1.endStripe o else s1.setOpen { o with cw := o.cw + 1, slots := 0 }

/-- Put an item into the codeword under fill. -/
def OpenSb.put (o : OpenSb) (x : ToPlace) : OpenSb :=
  let cw := o.cwBytes o.stripe o.cw
  let cw1 := splice (splice cw (512 * o.slots) x.payload) (4096 + 16 * o.slots) x.headers
  { o with cws := o.cws.put (o.stripe * 32 + o.cw) cw1, slots := o.slots + x.need,
           items := o.items ++ [{ stripe := o.stripe, cw := o.cw, slot := o.slots, what := x }] }

/-- Place an item in its stream's open superblock (R182); it waits where none is open. A codeword that is
full is left at once. -/
def State.place (s : State) (x : ToPlace) : State :=
  match s.openFor x.inst x.stream with
  | none => { s with ftl := { s.ftl with toPlace := s.ftl.toPlace ++ [x] } }
  | some o =>
    let s1 := if o.slots + x.need ≤ 8 then s else s.endCodeword o
    match s1.openFor x.inst x.stream with
    | none => { s1 with ftl := { s1.ftl with toPlace := s1.ftl.toPlace ++ [x] } }
    | some o1 =>
      let o2 := o1.put x
      let s2 := s1.setOpen o2
      if o2.slots = 8 then s2.endCodeword o2 else s2

/-- Complete the partly filled stripe of an open superblock with pad codewords (R247), and then whole pad
stripes to the end of the program unit, so that its data can be programmed (log entry 18). -/
def State.padN : Nat → Nat → State → State
  | 0, _, s => s
  | n + 1, sb, s =>
    match s.openSb? sb with
    | none => s
    | some o =>
      if o.slots = 0 ∧ o.cw = 0 ∧ o.stripe % unitStripes o.mode = 0 then s else State.padN n sb (s.endCodeword o)

/-- Pad an open superblock. -/
def State.padSb (s : State) (sb : Nat) : State :=
  match s.openSb? sb with
  | none => s
  | some o => State.padN (o.k * unitStripes o.mode) sb s

/-- Is a place durable: its own member and every parity member of its stripe programmed good (R192, R247)? -/
def unitDurable (k m : Nat) (good : List Nat) (stripe cw : Nat) : Bool :=
  good.contains (memberOf (k + m) cw stripe) &&
    (List.range m).all fun p => good.contains (memberOf (k + m) (k + p) stripe)

end Sys2Proof.Machine
end

