-- ==== Sys2Proof/Machine/ReconOps.lean ====
section
/-! DEFINITION. Codeword reads, and their reconstruction from the stripe (09, 10), as the operations that
commands share. -/
namespace Sys2Proof.Machine

/-! ### Erasure solving over GF(2^8) (R245, R248) -/

/-- The multiplicative inverse: the 254th power. -/
def gfInv (x : Nat) : Nat := ((List.range 254).foldl (fun a _ => gfMul a x) 1)

/-- The powers of α. -/
def gfExp (n : Nat) : Nat := gfPow2 (n % 255)

/-- Coefficients, lowest first, of the product of (x - f) over a list. -/
def polyRoots (l : List Nat) : List Nat :=
  l.foldl (fun p f => List.zipWith (· ^^^ ·) (0 :: p) ((p.map (gfMul f)) ++ [0])) [1]

/-- Value of a polynomial, lowest coefficient first. -/
def polyEval (p : List Nat) (x : Nat) : Nat := p.foldr (fun c a => c ^^^ gfMul a x) 0

/-- Add a scaled codeword to a sum. -/
def addScaled (g : Nat) (b sum : Bytes) : Bytes := xorScaled g b sum

/-- One missing codeword of a stripe of W codewords from the known ones: those not known are erased. -/
def solveCodeword (w m want : Nat) (known : Tbl Bytes) : Bytes :=
  let loc (c : Nat) : Nat := gfExp (w - 1 - c)
  let erased := (List.range w).filter fun c => !known.has c
  let others := (erased.filter fun c => c != want).map loc
  let num := polyRoots others
  let scale := gfInv (polyEval num (loc want))
  let coef (j : Nat) : Nat := gfMul scale (num.getD j 0)
  known.foldl (fun sum p =>
    let g := (List.range m).foldl (fun a j => a ^^^ gfMul (coef j) (gfExp (j * (w - 1 - p.1)))) 0
    addScaled g p.2 sum) (zeros 4224)

/-! ### Reading codewords -/

/-- MODE of a read or program in a superblock: 1 for pseudo-SLC. -/
def State.readMode (s : State) (sb : Nat) : Nat := if s.sbMode sb = 1 then 0 else 1

/-- Where a physical address lies: superblock, stripe, codeword of the stripe. -/
def State.placeOf (s : State) (loc : Nat) : Option (Nat × Nat × Nat) :=
  match s.sbOfMember (addrMember loc) with
  | none => none
  | some sb =>
    let st := addrPage loc * 4 + loc % 4
    some (sb, st, codewordOf (s.sbW sb) ((s.sbMembers sb).findIdx fun m => m == addrMember loc) st)

/-- The physical address of a codeword of a stripe. -/
def State.cwLoc (s : State) (sb stripe c : Nat) : Nat :=
  memberAddr (s.sbMember sb (memberOf (s.sbW sb) c stripe)) (stripe / 4) (stripe % 4)

/-- Queue the read of one codeword on a budget, 6 for foreground: foreground reads carry SUSPEND_OK. -/
def State.queueRead (s : State) (budget mode loc : Nat) (p : Purpose) : State :=
  s.queueOp budget
    { port := addrModule loc, op := { plainOp 1 (if budget = 6 then 5 else 0) 0 mode loc with cwMask := 2 ^ (loc % 4) },
      purpose := p, data := [] }

/-- An unrecoverable codeword is counted (R249). -/
def State.countUnrecovered (s : State) : State := (s.inc F.STR_ERRS_UNRECOVERED).raise F.STR_ISR_UNRECOVERED

/-- An unrecoverable codeword is counted, and what asked is told (R249). -/
def State.unrecoverable (s : State) (p : Purpose) : State :=
  s.countUnrecovered.modMedia fun m => { m with results := m.results ++ [(p, none)] }

/-- The codewords of a stripe that may serve a reconstruction of one: data first, parity after, lowest
first, those whose member is available. -/
def State.reconOrder (s : State) (sb stripe want : Nat) : List Nat :=
  (List.range (s.sbW sb)).filter fun c => c != want && !s.memberAway sb (s.sbMember sb (memberOf (s.sbW sb) c stripe))

/-- Start a reconstruction: K reads, or none where fewer than K codewords are available (R248, R249). -/
def State.startRecon (s : State) (sb stripe want budget : Nat) (p : Purpose) : State :=
  let ask := (s.reconOrder sb stripe want).take (s.sbK sb)
  if ask.length < s.sbK sb then s.unrecoverable p
  else
    let s1 := s.modMedia fun m => { m with recons := m.recons ++
      [{ sb := sb, stripe := stripe, want := want, budget := budget, asked := ask, bad := [], good := [], purpose := p }] }
    ask.foldl (fun t c => t.queueRead budget (s.readMode sb) (s.cwLoc sb stripe c) (.rebuildRead sb stripe want c)) s1

/-- Read the codeword at a physical address, directly or by reconstruction where its member is unavailable. -/
def State.readCodeword (s : State) (budget loc : Nat) (p : Purpose) : State :=
  match s.placeOf loc with
  | none => s.queueRead budget 1 loc p
  | some (sb, stripe, c) =>
    if s.memberAway sb (addrMember loc) then s.startRecon sb stripe c budget p
    else s.queueRead budget (s.readMode sb) loc p

/-- Reconstruct a codeword whose read ended in STATUS 0x05. -/
def State.reconAfterFailure (s : State) (budget loc : Nat) (p : Purpose) : State :=
  match s.placeOf loc with
  | none => s.unrecoverable p
  | some (sb, stripe, c) => s.startRecon sb stripe c budget p

end Sys2Proof.Machine
end

