-- ==== Sys2Proof/Machine/MapOps.lean ====
section
/-! DEFINITION. Logical Map Entries, map pointers, the map-page cache, walks, installs, Content Records and
reference counts (05, 07), as the operations that commands share. -/
namespace Sys2Proof.Machine

/-! ### Entries and pointers (R163-R166, R169) -/

def lmeKind (e : Nat) : Nat := e / 2 ^ 62 % 4
def lmeId (e : Nat) : Nat := bits e 51 8
def mkLme (kind gen id : Nat) : Nat :=
  let v := kind % 4 * 2 ^ 62 + gen % 256 * 2 ^ 52 + id % 2 ^ 44 * 2 ^ 8
  v + entryCrc v

/-- Is an entry corrupt (R166): its CRC, a reserved bit, or an ID field that breaks R164? -/
def lmeCorrupt (e : Nat) : Bool :=
  entryCrc e != e % 256 || bits e 61 60 != 0 ||
  (match lmeKind e with
   | 1 => false
   | 3 => bits e 51 40 != 0
   | _ => lmeId e != 0)

def ptrKind (p : Nat) : Nat := p / 2 ^ 62 % 4
def ptrGen (p : Nat) : Nat := bits p 61 54
def ptrAddr (p : Nat) : Nat := bits p 49 8
def mkPtr (kind gen addr : Nat) : Nat :=
  let v := kind % 4 * 2 ^ 62 + gen % 256 * 2 ^ 54 + addr % 2 ^ 42 * 2 ^ 8
  v + entryCrc v

/-- Is a pointer corrupt (R169)? -/
def ptrCorrupt (p : Nat) : Bool := entryCrc p != p % 256 || bits p 53 50 != 0 || ptrKind p == 3

/-! ### The volume table (R170) -/

def State.volAddr (s : State) (v : Nat) : Nat := s.base F.FTL_VOL_BASE_LO_BASE_LO F.FTL_VOL_BASE_HI_BASE_HI 12 + 32 * v
def State.volRoot (s : State) (v : Nat) : Nat := s.rdN (s.volAddr v) 8
def State.volSize (s : State) (v : Nat) : Nat := s.rdN (s.volAddr v + 8) 8
def State.volDomain (s : State) (v : Nat) : Nat := s.rdBits (s.volAddr v + 0x10) 11 0
def State.volDepth (s : State) (v : Nat) : Nat := s.rdN (s.volAddr v + 0x12) 1
def State.volFlags (s : State) (v : Nat) : Nat := s.rdN (s.volAddr v + 0x13) 1
/-- VALID, held 0 where the depth does not reach SIZE. -/
def State.volValid (s : State) (v : Nat) : Bool :=
  bit (s.volFlags v) 0 && decide (s.volDepth v ≤ 4) && decide (s.volSize v ≤ 512 ^ (s.volDepth v + 1))
def State.volHome (s : State) (v : Nat) : Nat := s.volFlags v / 2 % 2
def State.volReadOnly (s : State) (v : Nat) : Bool := bit (s.volFlags v) 2
def State.volGen (s : State) (v : Nat) : Nat := s.rdN (s.volAddr v + 0x14) 1
def State.volMapped (s : State) (v : Nat) : Nat := s.rdN (s.volAddr v + 0x18) 8

/-- Change MAPPED of a volume and FTL_MAPPED of its instance (R187). -/
def State.addMapped (s : State) (v : Nat) (d : Int) : State :=
  let i := s.volHome v
  (s.wrN (s.volAddr v + 0x18) 8 ((s.volMapped v : Int) + d).toNat).setPair (F.FTL_MAPPED_LO_LEVEL i) (F.FTL_MAPPED_HI_LEVEL i)
    ((s.pair (F.FTL_MAPPED_LO_LEVEL i) (F.FTL_MAPPED_HI_LEVEL i) : Int) + d).toNat

/-! ### Trees (R168) -/

/-- L of an instance's fingerprint index (DDP_INDEX_CFG). -/
def State.indexLog2 (s : State) (i : Nat) : Nat :=
  max 0x10 (min 0x22 (s.fld (if i = 0 then F.DDP_INDEX_CFG_LOG2_PAGES_A else F.DDP_INDEX_CFG_LOG2_PAGES_B)))

def State.treeDepth (s : State) (i tree vol : Nat) : Nat :=
  match tree with
  | 1 => s.volDepth vol
  | 2 => 4
  | 3 => ceilDiv (s.indexLog2 i) 9
  | _ => 2

def State.treeRoot (s : State) (i tree vol : Nat) : Nat :=
  if tree = 1 then s.volRoot vol else (s.map.roots.get? (i * 16 + tree)).getD 0

def State.setTreeRoot (s : State) (i tree vol p : Nat) : State :=
  if tree = 1 then s.wrN (s.volAddr vol) 8 p
  else { s with map := { s.map with roots := s.map.roots.put (i * 16 + tree) p } }

/-- IDENT of a page of a tree (R172). -/
def identOf (tree vol idx level : Nat) : Nat :=
  (if tree = 1 then vol * 2 ^ 34 else 0) + idx / 2 ^ (9 * level)

/-! ### The map-page cache (R176-R178) -/

def MapPage.word (p : MapPage) (k : Nat) : Nat := (p.words.get? k).getD 0
def MapPage.setWord (p : MapPage) (k v : Nat) : MapPage :=
  { p with words := if v = 0 then p.words.del k else p.words.put k v }

/-- Does it hold a kind 11 entry? -/
def MapPage.staged (p : MapPage) : Bool := p.tree == 1 && p.level == 0 && p.words.any fun w => lmeKind w.2 == 3

/-- Is it pinned (R177)? -/
def MapPage.pinned (p : MapPage) : Bool := decide (2 ≤ p.level) || p.staged

def MapPage.is (p : MapPage) (i tree level ident : Nat) : Bool :=
  p.inst == i && p.tree == tree && p.level == level && p.ident == ident

/-- The cached page a pointer names. -/
def State.findPage (s : State) (i tree level ident ptr : Nat) : Option MapPage :=
  s.map.pages.find? fun p => p.is i tree level ident && (ptrKind ptr == 2 || p.loc == ptrAddr ptr)

/-- Recount FTL_MPC_PINNED and FTL_MPC_DIRTY. -/
def State.recountMpc (s : State) : State :=
  (s.setFld F.FTL_MPC_PINNED_PAGES (s.map.pages.filter (·.pinned)).length).setFld F.FTL_MPC_DIRTY_PAGES
    (s.map.pages.filter (·.dirty)).length

/-- Capacity of the map-page cache in pages. -/
def State.mpcPages (s : State) : Nat := 2 ^ max 0x12 (min 0x1A (s.fld F.FTL_MPC_CFG_LOG2_PAGES))

/-- Do the pinned pages stop drain (R177)? -/
def State.pinStop (s : State) : Bool := decide (s.mpcPages - 4096 ≤ s.fld F.FTL_MPC_PINNED_PAGES)

/-- Drop a page with its hot-map lines (R176). -/
def State.dropPage (s : State) (p : MapPage) : State :=
  { s with map := { s.map with
      pages := s.map.pages.filter fun q => !(q.is p.inst p.tree p.level p.ident && q.loc == p.loc)
      hot := s.map.hot.filter fun l =>
        !(p.tree == 1 && p.level == 0 && l.1 == p.inst && l.2.1 == p.ident / 2 ^ 34 && l.2.2 / 64 == p.ident % 2 ^ 34) } }

/-- The least recently used page that may be evicted. -/
def State.victimPage (s : State) : Option MapPage :=
  s.map.pages.reverse.find? fun p => !p.pinned && p.wb == .none

/-- Put a page in another's place in the cache, at the same rank of use. -/
def State.replacePage (s : State) (old new : MapPage) : State :=
  ({ s with map := { s.map with pages := s.map.pages.map fun (q : MapPage) => if q.is old.inst old.tree old.level old.ident && q.loc == old.loc then new else q } }).recountMpc

/-- Beyond capacity the least recently used unpinned page goes; a dirty one is chosen, is written back first, and goes once
it is clean (R178; log entry 19). Pages whose write-back is chosen or in flight are counted as leaving. -/
def State.trimPages (s : State) : State :=
  if s.mpcPages < (s.map.pages.filter fun p => p.wb == .none).length then
    match s.victimPage with
    | some v => if v.dirty then s.replacePage v { v with wb := .chosen } else (s.dropPage v).recountMpc
    | none => s
  else s

/-- Put a page in the cache as the most recently used. -/
def State.putPage (s : State) (p : MapPage) : State :=
  ({ s with map := { s.map with
    pages := p :: s.map.pages.filter fun q => !(q.is p.inst p.tree p.level p.ident && q.loc == p.loc) } }).recountMpc.trimPages

/-- Mark a page changed by a record of a JSEQ. An eviction chosen and not started is cancelled; one in
flight will be written again (R178). -/
def MapPage.touch (p : MapPage) (jseq : Nat) : MapPage :=
  { p with dirty := true, dirtyJseq := if p.dirty then min p.dirtyJseq jseq else jseq,
           wb := if p.wb == .chosen then .none else p.wb, again := p.again || p.wb == .inFlight,
           againJseq := if p.again then min p.againJseq jseq else jseq }

/-- The JSEQ that the next group of an instance will carry. -/
def State.nextJseq (s : State) (i : Nat) : Nat := (ofInst s.ftl.jnl i).nextJseq

/-! ### Walks (R169) -/

/-- Where a walk ends. -/
inductive Walk where
  | leaf (p : MapPage)
  | absent
  | corrupt
  | lost
  | miss (level ident loc : Nat)
  | split (level page : Nat)
  deriving DecidableEq, Repr

/-- Walk from a pointer at a level to the leaf of an index, through cached pages. -/
def State.walkFrom (s : State) (i tree vol idx : Nat) : Nat → Nat → Walk
  | lvl, ptr =>
    if ptrCorrupt ptr then .corrupt
    else if ptrKind ptr = 0 then .absent
    else
      let ident := identOf tree vol idx lvl
      match s.findPage i tree lvl ident ptr with
      | none => if s.map.lost.contains (i, tree, lvl, ident) then .lost else .miss lvl ident (ptrAddr ptr)
      | some p =>
        match lvl with
        | 0 => .leaf p
        | l + 1 => s.walkFrom i tree vol idx l (p.word (idx / 2 ^ (9 * l) % 512))

/-- Walk a tree to the leaf of an index. -/
def State.walk (s : State) (i tree vol idx : Nat) : Walk :=
  s.walkFrom i tree vol idx (s.treeDepth i tree vol) (s.treeRoot i tree vol)

/-- A new page of zeros in the cache only. -/
def newPage (i tree level ident jseq : Nat) : MapPage :=
  { inst := i, tree := tree, ident := ident, level := level, loc := 0, words := [], dirty := true,
    dirtyJseq := jseq, wb := .none, again := false }

/-- Walk for a change (R171): the pages that are absent are made, and a pointer of another generation on
the path of a volume ends the walk at a split; it ends at level `stop`. `set` writes the pointer that names the page at `lvl`. -/
def State.descendTo (i tree vol idx jseq stop : Nat) : Nat → (State → Nat → State) → Nat → State → State × Walk
  | lvl, set, ptr, s =>
    let ident := identOf tree vol idx lvl
    if ptrCorrupt ptr then (s, .corrupt)
    else
      let gen := if tree = 1 then s.volGen vol else 0
      if ptrKind ptr ≠ 0 ∧ tree = 1 ∧ ptrGen ptr ≠ gen then (s, .split lvl (idx / 2 ^ (9 * lvl)))
      else
        let s1 := if ptrKind ptr = 0 then (set s (mkPtr 2 gen 0)).putPage (newPage i tree lvl ident jseq) else s
        let ptr1 := if ptrKind ptr = 0 then mkPtr 2 gen 0 else ptr
        match s1.findPage i tree lvl ident ptr1 with
        | none => (s1, if s1.map.lost.contains (i, tree, lvl, ident) then .lost else .miss lvl ident (ptrAddr ptr1))
        | some p =>
          match lvl with
          | 0 => (s1, .leaf p)
          | l + 1 =>
            if lvl = stop then (s1, .leaf p) else
            let k := idx / 2 ^ (9 * l) % 512
            State.descendTo i tree vol idx jseq stop l (fun t v => t.putPage ((p.setWord k v).touch jseq)) (p.word k) s1

/-- Reach the leaf of an index for a change. -/
def State.openLeaf (s : State) (i tree vol idx jseq : Nat) : State × Walk :=
  State.descendTo i tree vol idx jseq 0 (s.treeDepth i tree vol) (fun t v => t.setTreeRoot i tree vol v)
    (s.treeRoot i tree vol) s

/-- Reach the directory page of level 1 on the way to an index page (R128, R168). -/
def State.openIndexDir (s : State) (i idx jseq : Nat) : State × Walk :=
  State.descendTo i 3 0 idx jseq 1 (s.treeDepth i 3 0) (fun t v => t.setTreeRoot i 3 0 v) (s.treeRoot i 3 0) s

/-! ### Fetches (R178) -/

def State.missMax (s : State) : Nat := max 1 (s.fld F.FTL_MAP_CTRL_MISS_MAX)

/-- The cached page of a tree at a level, or the page on the way to it that is missing. -/
def State.reach (s : State) (i tree vol idx level : Nat) : Nat → Nat → Walk
  | lvl, ptr =>
    let ident := identOf tree vol idx (lvl - level)
    if ptrCorrupt ptr then .corrupt
    else if ptrKind ptr = 0 then .absent
    else match s.findPage i tree lvl ident ptr with
      | none => .miss lvl ident (ptrAddr ptr)
      | some p =>
        if lvl = level then .leaf p
        else match lvl with
          | 0 => .absent
          | l + 1 => s.reach i tree vol idx level l (p.word (idx / 2 ^ (9 * (l - level)) % 512))

/-- Where the pointer to a page of a tree stands. -/
inductive PtrAt where
  | root (ptr : Nat)
  | word (p : MapPage) (k ptr : Nat)
  | missing (level ident loc : Nat)
  | none
  deriving DecidableEq, Repr

/-- Find the pointer that names a page of a tree (R172). -/
def State.ptrAt (s : State) (i tree level ident : Nat) : PtrAt :=
  let vol := if tree = 1 then ident / 2 ^ 34 else 0
  let idx := if tree = 1 then ident % 2 ^ 34 else ident
  let depth := s.treeDepth i tree vol
  if level = depth then .root (s.treeRoot i tree vol)
  else match s.reach i tree vol (idx / 512) (level + 1) depth (s.treeRoot i tree vol) with
    | .leaf p => .word p (idx % 512) (p.word (idx % 512))
    | .miss lvl pid loc => .missing lvl pid loc
    | _ => .none

def PtrAt.ptr? : PtrAt → Option Nat
  | .root p | .word _ _ p => some p
  | _ => Option.none

/-- The page index at its level of a page of a volume's tree that its pointer's GEN shows another volume may have written
(R262); none where the whole of R173 applies. -/
def State.sharedIndex (s : State) (i tree level ident : Nat) : Option Nat :=
  if tree = 1 ∧ ((s.ptrAt i tree level ident).ptr?).any fun p => ptrGen p != s.volGen (ident / 2 ^ 34) then some (ident % 2 ^ 34) else none

/-- Start a page fetch, or queue it while MISS_MAX are outstanding. -/
def State.startFetch (s : State) (f : PageFetch) : State :=
  if s.map.fetches.length < s.missMax then
    ({ s with map := { s.map with fetches := s.map.fetches ++ [f] } }).readCodeword f.budget f.loc (.mapRead f.inst f.tree f.level f.ident)
  else { s with map := { s.map with misses := s.map.misses ++ [f] } }

def PageFetch.is (f : PageFetch) (i tree level ident : Nat) : Bool :=
  f.inst == i && f.tree == tree && f.level == level && f.ident == ident

/-- Wait on a page: merged with a fetch of it in flight or queued. -/
def State.waitFetch (s : State) (f : PageFetch) : State :=
  let same (g : PageFetch) : Bool := g.is f.inst f.tree f.level f.ident
  let join (l : List PageFetch) : List PageFetch := l.map fun g => if same g then { g with ops := g.ops ++ f.ops } else g
  if s.map.fetches.any same then { s with map := { s.map with fetches := join s.map.fetches } }
  else if s.map.misses.any same then { s with map := { s.map with misses := join s.map.misses } }
  else s.startFetch f

def State.waitPage (s : State) (i tree level ident loc : Nat) (ops : List PageOp) (asks : List Asker) : State :=
  s.waitFetch { inst := i, tree := tree, level := level, ident := ident, loc := loc, ops := ops ++ asks.map PageOp.look, rebuilt := false,
                index := s.sharedIndex i tree level ident }

/-! ### Errors of the map (R166, R169, R173) -/

def State.lmeError (s : State) : State := ((s.inc F.FTL_MAP_ERRS_LME_CORRUPT).raise F.FTL_ISR_MAP_ERR).errDefer 0x0C
def State.ptrError (s : State) : State := ((s.inc F.FTL_MAP_ERRS_PTR_CORRUPT).raise F.FTL_ISR_MAP_ERR).errDefer 0x0C

/-! ### Lookups (R176) -/

/-- What a lookup of a block gives. -/
inductive Look where
  | entry (e : Nat)
  | bad
  | wait
  deriving DecidableEq, Repr

/-- Keep at most twelve lines of a set, the most recently used, of a list in order of use. -/
def keepTwelve (set : Nat × Nat × Nat → Nat) (k : Nat) : Nat → List (Nat × Nat × Nat) → List (Nat × Nat × Nat)
  | _, [] => []
  | n, l :: r => if set l = k then (if 12 ≤ n then keepTwelve set k n r else l :: keepTwelve set k (n + 1) r) else l :: keepTwelve set k n r

/-- Touch a hot-map line: it becomes the most recently used of its set, which holds twelve. -/
def State.hotLine (s : State) (i vol line : Nat) : State :=
  let l := (i, vol, line) :: s.map.hot.filter fun l => l != (i, vol, line)
  let set (x : Nat × Nat × Nat) : Nat := Config.hotSet x.1 x.2.1 x.2.2 % 32768
  { s with map := { s.map with hot := if l.length ≤ 12 then l else keepTwelve set (set (i, vol, line)) 0 l } }

/-- The entry of a block that the hot-map cache holds: its line is listed while its leaf is cached. -/
def State.hotEntry (s : State) (i vol lba : Nat) : Option Nat :=
  if s.flag F.FTL_HOTMAP_CTRL_ENABLE && s.map.hot.contains (i, vol, lba / 8) then
    (s.map.pages.find? fun p => p.is i 1 0 (identOf 1 vol (lba / 512) 0)).map fun p => p.word (lba % 512)
  else none

/-- What a lookup gives for an entry. -/
def State.lookEntry (s : State) (e : Nat) : State × Look := if lmeCorrupt e then (s.lmeError, .bad) else (s, .entry e)

/-- Look up a block in a walk's outcome, waiting on a missing page. A hit of the map-page cache is counted, unless a page
was fetched for this lookup, and its line goes into the hot-map cache. -/
def State.lookWalk (s : State) (i vol lba : Nat) (ask : Asker) (fetched : Bool) : Walk → State × Look
  | .leaf p =>
    let s1 := if fetched then s else s.count64 F.FTL_MPC_HITS_LO_COUNT F.FTL_MPC_HITS_HI_COUNT F.FTL_MAP_WRAPS_MPC_WRAPS
    let s2 := if s.flag F.FTL_HOTMAP_CTRL_ENABLE then s1.hotLine i vol (lba / 8) else s1
    s2.lookEntry (p.word (lba % 512))
  | .absent => (s, .entry 0)
  | .corrupt => (s.ptrError, .bad)
  | .lost => (s.errDefer 0x0C, .bad)
  | .miss level ident loc => (s.waitPage i 1 level ident loc [] [ask], .wait)
  | .split _ _ => (s, .bad)

/-- Look up a block of a volume the head holds: in the hot-map cache, then in the map-page cache, then by a fetch. -/
def State.lookup (s : State) (vol lba : Nat) (ask : Asker) (fetched : Bool := false) : State × Look :=
  let i := s.volHome vol
  match s.hotEntry i vol lba with
  | some e =>
    ((s.count64 F.FTL_HOTMAP_HITS_LO_COUNT F.FTL_HOTMAP_HITS_HI_COUNT F.FTL_MAP_WRAPS_HOTMAP_WRAPS).hotLine i vol (lba / 8)).lookEntry e
  | none => s.lookWalk i vol lba ask fetched (s.walk i 1 vol (lba / 512))

/-! ### Split requests (R171) -/

/-- Entries of the split ring. -/
def State.splitRing (s : State) : Nat := 2 ^ (s.fld F.FTL_SPLIT_CFG_LOG2_ENTRIES + 4)

/-- Hold a change on the split of a page: a request is written to the ring for the first, unless the
ring is full, and the change waits in any case. -/
def State.holdSplit (s : State) (vol level page : Nat) (op : PageOp) : State :=
  let base := s.base F.FTL_SPLIT_BASE_LO_ADDR F.FTL_SPLIT_BASE_HI_ADDR 4
  match s.map.splits.find? fun r => r.volume == vol && r.level == level && r.page == page with
  | some r =>
    let n := min 255 (r.ops.length + 1)
    let s1 := s.modMap fun m => { m with splits := m.splits.map fun q => if q == r then { q with ops := q.ops ++ [op] } else q }
    if r.index < s.splitRing then s1.wrN (base + 16 * r.index + 3) 1 n else s1
  | none =>
    let t := s.fld F.FTL_SPLIT_TAIL_INDEX
    let next := (t + 1) % s.splitRing
    let add (k : Nat) (u : State) : State :=
      u.modMap fun m => { m with splits := m.splits ++ [{ index := k, volume := vol, level := level, page := page, ops := [op] }] }
    if next = s.fld F.FTL_SPLIT_HEAD_INDEX then add s.splitRing s
    else
      let s1 := s.wr (base + 16 * t) (leBytes 2 vol ++ leBytes 1 level ++ leBytes 1 1 ++ zeros 4 ++ leBytes 8 page)
      ((add t s1).setFld F.FTL_SPLIT_TAIL_INDEX next).raise F.FTL_ISR_SPLIT_REQ

/-! ### Installs (R167, R171, R178) -/

/-- Write an entry into a leaf: the page stays dirty under a JSEQ where the entry is held on flash; kind
11 never is (R175). MAPPED follows the kind (R170). Over a corrupt entry no block is installed: a deallocate alone clears
it (R166). -/
def State.writeLme (s : State) (p : MapPage) (vol lba lme jseq : Nat) : State :=
  let old := p.word (lba % 512)
  if lmeCorrupt old && lmeKind lme % 2 == 1 then s.lmeError
  else
    let was := lmeKind old % 2
    let now := lmeKind lme % 2
    let q := p.setWord (lba % 512) lme
    let s1 := s.putPage (if lmeKind lme = 3 then q else q.touch jseq)
    let s2 := if was = 0 ∧ now = 1 then s1.addMapped vol 1 else if was = 1 ∧ now = 0 then s1.addMapped vol (-1) else s1
    if s2.flag F.FTL_HOTMAP_CTRL_ENABLE && s2.map.hot.contains (p.inst, vol, lba / 8) then s2.hotLine p.inst vol (lba / 8) else s2

/-- Install an entry for a block: at once where the leaf is cached, else on the fetch or the split. Its pages become dirty
under the JSEQ of the group that holds it, the next one where none is named. -/
def State.install (s : State) (vol lba lme seq : Nat) (jseq? : Option Nat := none) : State :=
  let i := s.volHome vol
  let jseq := jseq?.getD (s.nextJseq i)
  let (s1, w) := s.openLeaf i 1 vol (lba / 512) jseq
  match w with
  | .leaf p => s1.writeLme p vol lba lme jseq
  | .miss level ident loc => s1.waitPage i 1 level ident loc [.entry vol lba lme seq jseq] []
  | .split level page => s1.holdSplit vol level page (.entry vol lba lme seq jseq)
  | .corrupt => s1.ptrError
  | _ => s1

/-- The entry a cached leaf holds for a block; unmapped where no page does. -/
def State.entryNow (s : State) (vol lba : Nat) : Nat :=
  match s.walk (s.volHome vol) 1 vol (lba / 512) with
  | .leaf p => p.word (lba % 512)
  | _ => 0

/-! ### Content Records (R124-R126) -/

/-- The layout of a Content Record. -/
structure Rec where
  phase  : Nat
  state  : Nat
  gen    : Nat
  fold   : Nat
  domain : Nat
  refs   : Nat
  dict   : Nat
  cls    : Nat
  slot   : Nat
  addr   : Nat
  deriving DecidableEq, Repr

def recOf (r : Nat) : Rec :=
  { phase := bits r 126 126, state := bits r 125 124, gen := bits r 123 116, fold := bits r 115 100,
    domain := bits r 99 88, refs := bits r 87 64, dict := bits r 58 49, cls := bits r 48 45,
    slot := bits r 44 42, addr := bits r 41 0 }

def Rec.toNat (r : Rec) : Nat :=
  r.phase % 2 * 2 ^ 126 + r.state % 4 * 2 ^ 124 + r.gen % 256 * 2 ^ 116 + r.fold % 2 ^ 16 * 2 ^ 100 +
  r.domain % 4096 * 2 ^ 88 + r.refs % 2 ^ 24 * 2 ^ 64 + r.dict % 1024 * 2 ^ 49 + r.cls % 16 * 2 ^ 45 +
  r.slot % 8 * 2 ^ 42 + r.addr % 2 ^ 42

/-- fold16 of a carry guard (R124). -/
def fold16 (g : Nat) : Nat := bits g 15 0 ^^^ bits g 31 16 ^^^ bits g 47 32 ^^^ bits g 63 48

/-- The reserved bits of a Content Record: 127 and 63 to 59. -/
def recReserved (r : Nat) : Bool := bits r 127 127 != 0 || bits r 63 59 != 0

def cidInst (cid : Nat) : Nat := cid / 2 ^ 43 % 2
def cidLeaf (cid : Nat) : Nat := bits cid 42 8

/-- The raw Content Record of an id: FREE where no page was made for it, none where its page is not cached. -/
def State.rawRec? (s : State) (cid : Nat) : Option Nat :=
  match s.walk (cidInst cid) 2 0 (cidLeaf cid) with
  | .leaf p => some (p.word (2 * (cid % 256)) + 2 ^ 64 * p.word (2 * (cid % 256) + 1))
  | .absent => some 0
  | _ => none

def State.rec? (s : State) (cid : Nat) : Option Rec := (s.rawRec? cid).map recOf

/-- The page of the content tree that must be fetched before an id's record is at hand. -/
def State.recMissing (s : State) (cid : Nat) : Option (Nat × Nat × Nat) :=
  match s.walk (cidInst cid) 2 0 (cidLeaf cid) with
  | .miss level ident loc => some (level, ident, loc)
  | _ => none

/-- FTL_CID_NEXT of an instance. -/
def State.cidNext (s : State) (i : Nat) : Nat := s.pair (F.FTL_CID_NEXT_LO_NEXT i) (F.FTL_CID_NEXT_HI_NEXT i)

/-- Is a record that a kind 01 entry of a volume names corrupt (R125)? -/
def State.recCorrupt (s : State) (cid raw home : Nat) : Bool :=
  let r := recOf raw
  r.state == 3 || (decide (9 ≤ r.cls) && decide (r.cls ≤ 14)) || (r.cls == 0 && r.state == 2) || recReserved raw ||
  r.state == 0 || cid == 0 || cid == 2 ^ 43 || decide (s.cidNext (cidInst cid) ≤ cid) || cidInst cid != home

/-- Count a corrupt record (R125). -/
def State.recError (s : State) : State :=
  ((s.inc F.DDP_EVENTS_C_CORRUPT_RECORD).raise F.DDP_ISR_CORRUPT).errDefer 0x0A

/-- Write a Content Record: on its page's fetch where the page is not cached. -/
def State.setRec (s : State) (cid raw : Nat) (jseq? : Option Nat := none) : State :=
  let i := cidInst cid
  let jseq := jseq?.getD (s.nextJseq i)
  let (s1, w) := s.openLeaf i 2 0 (cidLeaf cid) jseq
  match w with
  | .leaf p =>
    s1.putPage (((p.setWord (2 * (cid % 256)) (raw % 2 ^ 64)).setWord (2 * (cid % 256) + 1) (raw / 2 ^ 64)).touch jseq)
  | .miss level ident loc => s1.waitPage i 2 level ident loc [.setRecord cid raw jseq] []
  | _ => s1

/-! ### Domains (R123) -/

def State.ddpBase (s : State) : Nat := s.base F.DDP_REGION_BASE_LO_BASE_LO F.DDP_REGION_BASE_HI_BASE_HI 12
def State.domAddr (s : State) (d : Nat) : Nat := s.ddpBase + 64 * d
def State.domConfig (s : State) (d : Nat) : Nat := s.rdN (s.domAddr d) 1

/-- NO_DEDUP and VERIFY as the source of a Stitch sets them from its domain's CONFIG. -/
def State.dedupFlags (s : State) (d : Nat) : Nat := (if bit (s.domConfig d) 0 then 0 else 1) + (if bit (s.domConfig d) 1 then 4 else 0)

/-- Add to a 64-bit counter of a domain. -/
def State.domAdd (s : State) (d off : Nat) (n : Int) : State :=
  s.wrN (s.domAddr d + off) 8 (((s.rdN (s.domAddr d + off) 8 : Int) + n) % (2 ^ 64 : Int)).toNat

/-! ### The dictionary table (R157, R158) -/

def State.cmpBase (s : State) : Nat := s.base F.CMP_REGION_BASE_LO_BASE_LO F.CMP_REGION_BASE_HI_BASE_HI 12
def State.dictAddr (s : State) (d : Nat) : Nat := s.cmpBase + 0x2000 + 64 * d
/-- USES of a dictionary for an instance. -/
def State.dictUses (s : State) (d i : Nat) : Nat := s.rdN (s.dictAddr d + 0x20 + 8 * i) 8
/-- Change USES of a dictionary a Content Record of an instance names; 0 names none. -/
def State.addUses (s : State) (d i : Nat) (n : Int) : State :=
  if d = 0 then s else s.wrN (s.dictAddr d + 0x20 + 8 * i) 8 ((s.dictUses d i : Int) + n).toNat
/-- The DICT_USES record that goes with a Content Record. -/
def State.dictRecs (s : State) (d i : Nat) : List JRec := if d = 0 then [] else [.dictUses d (s.dictUses d i)]

/-! ### Reference counts (R137) -/

/-- What a reference change does to a LIVE record's count: the new count, or absorbed. -/
inductive RefRes where
  | tgt (n : Nat)
  | absorbed
  | rejected
  deriving DecidableEq, Repr

def refChange (dec : Bool) (c : Nat) : RefRes :=
  if c = 0xFFFFFF then .absorbed
  else if dec then (if c = 0 then .rejected else .tgt (c - 1))
  else .tgt (c + 1)

/-- The superblock of a record's block. -/
def State.sbOfAddr (s : State) (a : Nat) : Option Nat := s.sbOfMember (addrMember a)

/-- A record's slots become invalid. -/
def State.recSlotsFreed (s : State) (r : Rec) : State :=
  if r.cls = 0 then s
  else match s.sbOfAddr r.addr with
    | some sb => s.slotsFreed sb (slotsOf r.cls)
    | none => s

/-- Apply a reference change to a record whose page is cached; tells whether the change was rejected. A
record freed here enters the ring when its group hardens. -/
def State.refApply (s : State) (cid : Nat) (gen : Option Nat) (dec : Bool) (r : Rec) : State × Bool :=
  if r.state ≠ 2 ∨ gen.any (fun g => g != r.gen) then
    ((s.inc F.DDP_EVENTS_C_REF_REJECTS).raise F.DDP_ISR_REF_REJECT, true)
  else
    match refChange dec r.refs with
    | .rejected => ((s.inc F.DDP_EVENTS_C_REF_REJECTS).raise F.DDP_ISR_REF_REJECT, true)
    | .absorbed => (s.inc F.DDP_EVENTS_C_SAT_ABSORBED, false)
    | .tgt n =>
      let s1 := s.domAdd r.domain 0x20 (if dec then -1 else 1)
      if n = 0 then
        let s2 := (((s1.setRec cid { r with state := 0, refs := 0 }.toNat).recSlotsFreed r).domAdd r.domain 0x18 (-1)).addUses r.dict (cidInst cid) (-1)
        ({ s2 with map := { s2.map with freeing := s2.map.freeing ++ [(cid, r.gen, s.nextJseq (cidInst cid))] } }, false)
      else if n = 0xFFFFFF then
        (((((s1.setRec cid { r with refs := n }.toNat).incPair F.DDP_IMMORTAL_LO_COUNT F.DDP_IMMORTAL_HI_COUNT).domAdd
          r.domain 0x28 1)).raise F.DDP_ISR_IMMORTAL, false)
      else (s1.setRec cid { r with refs := n }.toNat, false)

/-- Drop a reference; where the content page is not cached the drop waits for it (log entry 20). Gives the
CONTENT record the change makes. -/
def State.refDrop (s : State) (cid : Nat) : State × List JRec :=
  match s.walk (cidInst cid) 2 0 (cidLeaf cid) with
  | .miss level ident loc => (s.waitPage (cidInst cid) 2 level ident loc [.dec cid] [], [])
  | _ =>
    match s.rec? cid with
    | some r =>
      let p := s.refApply cid none true r
      (p.1, if p.2 then [] else .content cid ((p.1.rawRec? cid).getD 0) :: (if r.refs = 1 then p.1.dictRecs r.dict (cidInst cid) else []))
    | none => (s, [])

/-! ### Content ids (R126, R127, R179) -/

/-- The free-id ring of an instance. -/
def State.cidRing (s : State) (i : Nat) : Nat := s.base (F.FTL_CID_RING_BASE_LO_ADDR i) (F.FTL_CID_RING_BASE_HI_ADDR i) 3
def State.cidRingSize (s : State) (i : Nat) : Nat := 2 ^ max 0x10 (min 0x1C (s.fld (F.FTL_CID_RING_CFG_LOG2_ENTRIES i)))
def State.cidFill (s : State) (i : Nat) : Nat := s.fld (F.FTL_CID_RING_FILL_FILL i)

/-- A freed id enters the ring, or stays FREE in its page where the ring is full (R179). -/
def State.pushCid (s : State) (i cid gen : Nat) : State :=
  if s.cidRingSize i ≤ s.cidFill i then s.raise F.FTL_ISR_CID_RING_FULL
  else
    let t := ofInst s.map.cidTail i
    let s1 := s.wrN (s.cidRing i + 8 * (t % s.cidRingSize i)) 8 (cid % 2 ^ 44 + gen % 256 * 2 ^ 44)
    ({ s1 with map := { s1.map with cidTail := putInst s1.map.cidTail i (t + 1) } }).setFld (F.FTL_CID_RING_FILL_FILL i) (s.cidFill i + 1)

/-- Take an id: the one freed earliest, else a never-used one; none at the end of the range. With it the
ID_GEN it last had. -/
def State.takeCid (s : State) (i : Nat) : Option (Nat × Nat × State) :=
  if s.cidFill i ≠ 0 then
    let h := ofInst s.map.cidHead i
    let e := s.rdN (s.cidRing i + 8 * (h % s.cidRingSize i)) 8
    some (bits e 43 0, bits e 51 44,
      ({ s with map := { s.map with cidHead := putInst s.map.cidHead i (h + 1) } }).setFld (F.FTL_CID_RING_FILL_FILL i) (s.cidFill i - 1))
  else if s.cidNext i < (i + 1) * 2 ^ 43 then
    some (s.cidNext i, 0, s.setPair (F.FTL_CID_NEXT_LO_NEXT i) (F.FTL_CID_NEXT_HI_NEXT i) (s.cidNext i + 1))
  else none

/-- A record as an allocation makes it. -/
def newRec (gen fold domain : Nat) : Rec :=
  { phase := 0, state := 1, gen := gen % 256, fold := fold, domain := domain, refs := 1, dict := 0, cls := 0, slot := 0, addr := 0 }

/-- Allocate a content id for a block of a domain (R126): PENDING with one reference. -/
def State.allocCid (s : State) (i domain guard : Nat) : Option (Nat × State) :=
  (s.takeCid i).map fun p =>
    (p.1, p.2.2.setRec p.1 (newRec (p.2.1 + 1) (fold16 guard) domain).toNat)

/-- The allocation state as the journal keeps it. -/
def State.allocRec (s : State) (i : Nat) : JRec :=
  .alloc (ofInst s.map.cidHead i % s.cidRingSize i) (ofInst s.map.cidTail i % s.cidRingSize i) (s.cidNext i)

/-- A PENDING record is given up: FREE, its placed slot invalid (R126); its id enters the ring when the group hardens that
holds the records given here (R179). Where its page is not cached this waits for it (log entry 20). -/
def State.dropRecs (s : State) (cid : Nat) : State × List JRec :=
  match s.recMissing cid with
  | some (level, ident, loc) => (s.waitPage (cidInst cid) 2 level ident loc [.unplace cid] [], [])
  | none =>
  match s.rec? cid with
  | some r =>
    if r.state = 1 then
      let s1 := (s.setRec cid { r with state := 0, refs := 0 }.toNat)
      let waits (x : ToPlace) : Bool := match x.item with
        | .drained c _ | .received c _ _ _ => c == cid
        | _ => false
      let s2 := if r.cls = 0 then s1
        else if s.ftl.toPlace.any waits then s1.modFtl fun t => { t with toPlace := t.toPlace.filter fun x => !waits x }
        else match s.sbOfAddr r.addr with
          | some sb => s1.slotsFreed sb (slotsOf r.cls)
          | none => s1
      let s3 := s2.addUses r.dict (cidInst cid) (-1)
      (s3.modMap fun m => { m with freeing := m.freeing ++ [(cid, r.gen, s.nextJseq (cidInst cid))] },
        .content cid ((s3.rawRec? cid).getD 0) :: s3.dictRecs r.dict (cidInst cid))
    else (s, [])
  | none => (s, [])

/-! ### Snapshots and generations (R260, R264, R265) -/

def State.snpBase (s : State) : Nat := s.base F.SNP_REGION_BASE_LO_ADDR F.SNP_REGION_BASE_HI_ADDR 12

/-- A snapshot table entry, and a generation table entry (R264, R260). -/
def State.snapAddr (s : State) (k : Nat) : Nat := s.snpBase + 32 * k
def State.genAddr (s : State) (v : Nat) : Nat := s.snpBase + 0x20000000 + 8 * v
def State.snapFlags (s : State) (k : Nat) : Nat := s.rdN (s.snapAddr k + 0x1A) 1
def State.genOf (s : State) (v : Nat) : Nat := s.rdN (s.genAddr v) 4
/-- SWEPT is bit 0, SYNC bit 1, SYNC_LINK bits [7:2], ARMED bit 8 of the entry's upper half. -/
def State.genBits (s : State) (v : Nat) : Nat := s.rdN (s.genAddr v + 4) 4
def State.setGenBits (s : State) (v x : Nat) : State := s.wrN (s.genAddr v + 4) 4 x

def State.armedVol (s : State) (v : Nat) : Bool := bit (s.genBits v) 8
def State.setArmed (s : State) (v : Nat) (b : Bool) : State := s.setGenBits v (setBits (s.genBits v) 8 8 (if b then 1 else 0))

/-- Set a volume's generation: GEN_TAG follows it and SWEPT is cleared (R265, R267). -/
def State.setGeneration (s : State) (v g : Nat) : State :=
  ((s.wrN (s.genAddr v) 4 g).setGenBits v (s.genBits v / 2 * 2)).wrN (s.volAddr v + 0x14) 1 (g % 256)

/-- Apply a POINTER record that names a snapshot's root (R265). -/
def State.snapshotRoot (s : State) (k ptr : Nat) : State :=
  let f := s.snapFlags k
  let s1 := s.wrN (s.snapAddr k) 8 ptr
  if bit f 2 then
    let v := s.rdN (s.snapAddr k + 0x18) 2
    let g := s.rdN (s.snapAddr k + 0x1C) 4 + 1
    let s2 := (s1.wrN (s.snapAddr k + 0x1A) 1 (f - 4 ||| 1)).setArmed v false
    if s.genOf v < g then s2.setGeneration v g else s2
  else if ptrKind ptr = 0 then s1.wrN (s.snapAddr k + 0x1A) 1 (f / 2 * 2)
  else s1

/-- Does a cut under way hold back the installs of a version (R267)? A received block's install, which has no
commit sequence number, counts as above S_cut. -/
def State.cutHolds (s : State) (i vol seq : Nat) : Bool :=
  s.snp.sets.any fun c => decide (1 ≤ c.phase) && (c.cuts.any fun k => k.1 == vol) && (seq == 0 || decide (ofInst c.sCut i < seq))

/-- Hold an install until the cut ends. -/
def State.holdInstall (s : State) (i jseq : Nat) (r : JRec) : State := s.modSnp fun x => { x with held := x.held ++ [(i, jseq, r)] }

end Sys2Proof.Machine
end

