-- ==== Sys2Proof/Machine/HostOps.lean ====
section
/-! DEFINITION. Statuses, queues, freezes, namespaces and protection information of the NVMe front end
(12), as the operations that commands share. -/
namespace Sys2Proof.Machine

/-! ### Statuses (R287) -/

/-- A status: its type, its code, DNR, and the bit of its freeze class in FREEZE_MASK, 0 for none. -/
structure HostStat where
  sct : Nat
  sc  : Nat
  dnr : Bool
  cls : Nat
  deriving DecidableEq, Repr

def hsSuccess : HostStat := ⟨0, 0x00, false, 0⟩
def hsOpcode : HostStat := ⟨0, 0x01, true, 0⟩
def hsField : HostStat := ⟨0, 0x02, true, 0⟩
def hsTransfer : HostStat := ⟨0, 0x04, false, 2⟩
def hsNamespace : HostStat := ⟨0, 0x0B, true, 0⟩
def hsSgl : HostStat := ⟨0, 0x11, true, 0⟩
def hsProtected : HostStat := ⟨0, 0x20, true, 4⟩
def hsDigest : HostStat := ⟨0, 0x22, false, 2⟩
def hsRange : HostStat := ⟨0, 0x80, true, 0⟩
def hsCapacity : HostStat := ⟨0, 0x81, false, 4⟩
def hsNotReady : HostStat := ⟨0, 0x82, false, 0⟩
def hsUnrecovered : HostStat := ⟨2, 0x81, true, 1⟩
def hsGuard : HostStat := ⟨2, 0x82, true, 1⟩
def hsAppTag : HostStat := ⟨2, 0x83, true, 1⟩
def hsRefTag : HostStat := ⟨2, 0x84, true, 1⟩
def hsCompare : HostStat := ⟨2, 0x85, true, 0⟩
def hsPath : HostStat := ⟨3, 0x00, true, 2⟩
def hsInaccessible : HostStat := ⟨3, 0x02, false, 0⟩

/-- The status field of a completion: SC, SCT and DNR. -/
def HostStat.field (t : HostStat) : Nat := t.sc + 256 * t.sct + (if t.dnr then 0x4000 else 0)

/-! ### The queue table (R284) -/

def State.nvqBase (s : State) : Nat := s.base F.NVQ_REGION_BASE_LO_ADDR F.NVQ_REGION_BASE_HI_ADDR 12
def State.qAddr (s : State) (q : Nat) : Nat := s.nvqBase + 0x100000 + 64 * q
def State.qCntl (s : State) (q : Nat) : Nat := s.rdN (s.qAddr q) 2
def State.qQpn (s : State) (q : Nat) : Nat := s.rdN (s.qAddr q + 4) 3
def State.qSize (s : State) (q : Nat) : Nat := s.rdN (s.qAddr q + 8) 2
/-- QUANTUM in 4 KiB blocks, substituted. -/
def State.qQuantum (s : State) (q : Nat) : Nat := max 1 (min 1024 (s.rdN (s.qAddr q + 0x0A) 2))
def State.qState (s : State) (q : Nat) : Nat := s.rdN (s.qAddr q + 0x0C) 1
def State.qMask (s : State) (q : Nat) : Nat := s.rdN (s.qAddr q + 0x0D) 1
def State.qTcp (s : State) (q : Nat) : Bool := bit (s.rdN (s.qAddr q + 0x0E) 1) 0
def State.qFetched (s : State) (q : Nat) : Nat := s.rdN (s.qAddr q + 0x10) 8
def State.qDeficit (s : State) (q : Nat) : Int := signed 32 (s.rdN (s.qAddr q + 0x18) 4)
def State.setDeficit (s : State) (q : Nat) (v : Int) : State := s.wrN (s.qAddr q + 0x18) 4 (unsigned 32 v)
def State.qHead (s : State) (q : Nat) : Nat := s.rdN (s.qAddr q + 0x1C) 2

/-- Keep NVQ_FROZEN: the queues now frozen (R293). -/
def State.countFrozen (s : State) : State :=
  let base := s.nvqBase + 0x100000
  s.setFld F.NVQ_FROZEN_COUNT (s.dram.filter fun c => decide (base ≤ c.1) && decide (c.1 < base + 2 ^ 22) && (c.1 - base) % 64 == 0x0C && c.2 == 2).length

/-- Freeze a live queue on a command's status; a queue already frozen counts it (R291, R292). -/
def State.freezeFor (s : State) (o : Origin) (st : HostStat) : State :=
  let a := s.qAddr o.queue
  if st.cls = 0 ∨ s.qMask o.queue &&& st.cls = 0 then s
  else if s.qState o.queue = 1 then
    let s1 := ((s.wrN (a + 0x0C) 1 2).wrN (a + 0x20) 2 o.cid).wrN (a + 0x22) 2 (2 * st.field)
    let s2 := ((s1.wrN (a + 0x24) 2 (s.qHead o.queue)).wrN (a + 0x26) 2 (s.qFetched o.queue - o.nth)).wrN (a + 0x28) 8 s.stamp
    ((s2.wrN (a + 0x30) 2 0).inc F.NVQ_EVENTS_FREEZES).countFrozen.raise F.NVQ_ISR_FROZEN
  else if s.qState o.queue = 2 then s.wrN (a + 0x30) 2 (min 0xFFFF (s.rdN (a + 0x30) 2 + 1))
  else s

/-! ### The queue pair a queue rides on (R284, R305, R315) -/

/-- Is a queue pair that of a replication link or a table message (R315)? -/
def State.qpReserved (s : State) (n : Nat) : Bool :=
  ((List.range 64).any fun l => s.rdN (s.snpBase + 0x20080000 + 64 * l) 1 != 0 && s.rdN (s.snpBase + 0x20080000 + 64 * l + 4) 3 == n) ||
  ((List.range 8).any fun k => s.flag (F.TRN_PEER_VALID k) && s.fld (F.TRN_PEER_QPN k) == n)

/-- Is a context pinned? -/
def State.qpPinned (s : State) (n : Nat) : Bool :=
  (s.qp? n).any fun q => !q.pins.isEmpty || q.tally.isSome || s.qpReserved n

/-- Refresh the count of contexts pinned. -/
def State.countPins (s : State) : State :=
  s.setFld F.RDT_CACHE_STATUS_PINNED (s.rdt.qps.filter fun p => s.qpPinned p.1).length

/-- Has a TCP queue's connection ended? -/
def State.tcpOver (s : State) (q : Nat) : Bool := s.commit.tcpEnded.contains q && s.qState q != 0

/-- Is the path to a queue's host gone: its queue pair is not connected, or its connection has ended? -/
def State.pathLost (s : State) (q : Nat) : Bool := if s.qTcp q then s.tcpOver q else !((s.qp? (s.qQpn q)).any fun p => p.state == 1)

/-- A write whose completion is sent no longer pins its context. -/
def State.unpin (s : State) (o : Origin) : State :=
  (s.modQp (s.qQpn o.queue) fun q => { q with pins := q.pins.filter fun p => p != (o.queue, o.cid) }).countPins

/-! ### NVMe/TCP (R300) -/

/-- TCP bytes of each direction in a turn: the share of 200 bytes per ns over a turn (log entry 52). -/
def State.tcpLimit (s : State) : Nat := min 0xA (s.fld F.NVQ_TCP_CFG_LIMIT_PCT) * 200 * s.periodNs / 100

/-- A message to a host goes out: read data on a TCP queue with its data digest; over RDMA as WRITEs of at most one path
MTU each, and a completion as a SEND behind them (R312). -/
def State.sendHost (s : State) : HostMsg → State
  | .data q cid lba f va key d pi =>
    let s1 := s.send (.hostData q cid lba d pi)
    if s.qTcp q then s1.send (.tcpDigest q cid (crc32c d)) else s1.postWrites (s.qQpn q) q cid va key (wireBytes f d pi)
  | .cqe q cid st first =>
    let s1 := s.send (.cqe q cid st (s.qHead q))
    if s.qTcp q then s1 else s1.post (s.qQpn q) first (hostMsg q cid 1 0 0 (nvmeCqe (s.qHead q) cid st))

/-- A message to a host on a TCP queue: while the turn's share lasts, in order. -/
def State.tcpSend (s : State) (n : Nat) (m : HostMsg) : State :=
  if s.commit.tcpHeld.isEmpty ∧ (n = 0 ∨ s.commit.tcpOut < s.tcpLimit) then (s.sendHost m).modCommit fun c => { c with tcpOut := c.tcpOut + n }
  else (s.raise F.NVQ_ISR_TCP_LIMIT).modCommit fun c => { c with tcpHeld := c.tcpHeld ++ [(n, m)] }

/-- A message to a host with n bytes of data. -/
def State.toHost (s : State) (q n : Nat) (m : HostMsg) : State := if s.qTcp q then s.tcpSend n m else s.sendHost m

/-- Complete a host command: a forwarded one goes back to the head that received it; a completion that can no
longer be sent is counted (R305). -/
def State.completeHost (s : State) (o : Origin) (st : HostStat) : State :=
  if o.forwarded then s.send (.efmoSlotReply o.queue o.cid 0 0 0 0 st.field)
  else
    let s1 := (s.freezeFor o st).unpin o
    if s1.pathLost o.queue then s1.inc F.RDT_DROPS_CPL_LOST
    else s1.toHost o.queue 0 (.cqe o.queue o.cid st.field ((s.qp? (s.qQpn o.queue)).any fun p => p.pins.contains (o.queue, o.cid)))

/-! ### Namespaces (R282, R283) -/

def State.nsAddr (s : State) (nsid : Nat) : Nat := s.nvqBase + 16 * (nsid - 1)
def State.nsVolume (s : State) (nsid : Nat) : Nat := s.rdN (s.nsAddr nsid) 2
def State.nsFlags (s : State) (nsid : Nat) : Nat := s.rdN (s.nsAddr nsid + 2) 1
def State.nsLbaf (s : State) (nsid : Nat) : Nat := s.rdN (s.nsAddr nsid + 3) 1
def State.nsPi (s : State) (nsid : Nat) : Nat := s.rdN (s.nsAddr nsid + 4) 1 % 4
def State.nsAppTag (s : State) (nsid : Nat) : Nat := s.rdN (s.nsAddr nsid + 6) 2

/-- Is a namespace active for a controller: VALID and attached? -/
def State.nsActive (s : State) (cntl nsid : Nat) : Bool :=
  decide (1 ≤ nsid) && decide (nsid ≤ 65536) && bit (s.nsFlags nsid) 0 && decide (s.nsLbaf nsid ≤ 4) &&
    bit (s.rdN (s.nvqBase + 0x500000 + 8192 * cntl + (nsid - 1) / 8) 1) ((nsid - 1) % 8)

/-- Does the format carry protection information? -/
def lbafPi (f : Nat) : Bool := f == 1 || f == 3 || f == 4
/-- Does PI suit LBAF? -/
def piSuits (f pi : Nat) : Bool := if lbafPi f then pi == 1 || pi == 2 else pi == 0

/-- The first 4 KiB block and the number of blocks that a run of logical blocks touches. -/
def blockRange (f slba nlb : Nat) : Nat × Nat :=
  if lbaf512 f then (slba / 8, if nlb = 0 then 0 else (slba + nlb - 1) / 8 - slba / 8 + 1) else (slba, nlb)

/-- The sectors of a 4 KiB block that a run of logical blocks covers, as SECTOR_MASK has them. -/
def sectorMask (f slba nlb blk : Nat) : Nat :=
  if lbaf512 f then
    ((List.range 8).map fun k => if slba ≤ 8 * blk + k ∧ 8 * blk + k < slba + nlb then 2 ^ k else 0).foldl (· + ·) 0
  else 0xFF

/-! ### Protection information (R285, R286) -/

/-- CRC-16 T10-DIF. -/
def crcDif (b : Bytes) : Nat := crcNorm 16 0x8BB7 0 b

/-- Bytes of a logical block. -/
def lbaSize (f : Nat) : Nat := if lbaf512 f then 512 else 4096

/-- The reference tag expected of the logical block k of a command. -/
def refTag (f pi slba init k : Nat) : Nat :=
  (if pi = 1 then slba + k else init + k) % (if f = 4 then 2 ^ 48 else 2 ^ 32)

/-- The check of one logical block that PRCHK selects: guard bit 2, application tag bit 1, reference tag
bit 0. -/
def piCheck (f pi app slba init prchk k : Nat) (data : Bytes) (p : PiIn) : HostStat :=
  if bit prchk 2 && p.guard != (if f = 4 then carryGuard data else crcDif data) then hsGuard
  else if bit prchk 1 && p.app != app then hsAppTag
  else if bit prchk 0 && p.ref != refTag f pi slba init k then hsRefTag
  else hsSuccess

/-- The protection information regenerated for a logical block (R286). -/
def piMake (f pi app slba init k : Nat) (data : Bytes) : PiIn :=
  { guard := if f = 4 then carryGuard data else crcDif data, app := app, ref := refTag f pi slba init k }

/-- The protection information of a run of logical blocks. -/
def piAll (f pi app slba init : Nat) (data : Bytes) : List PiIn :=
  if lbafPi f then
    (List.range (data.length / lbaSize f)).map fun k => piMake f pi app slba init k (slice data (k * lbaSize f) (lbaSize f))
  else []

end Sys2Proof.Machine
end

