-- ==== Sys2Proof/Machine/JournalOps.lean ====
section
/-! DEFINITION. Record groups, journal pages, hardening and its effects, the tail, the horizon (08, 03), as
the operations that commands share. -/
namespace Sys2Proof.Machine

/-! ### Records and groups (R190, R191) -/

/-- The bytes of a record. -/
def recBytes : JRec → Bytes
  | .mapEntry v lba lme seq =>
    leBytes 1 1 ++ zeros 3 ++ leBytes 2 v ++ zeros 2 ++ leBytes 8 lba ++ leBytes 8 lme ++ leBytes 8 seq
  | .content cid r => leBytes 1 2 ++ zeros 7 ++ leBytes 8 cid ++ leBytes 16 r
  | .pointer slot ident ptr => leBytes 1 3 ++ zeros 1 ++ leBytes 2 slot ++ zeros 4 ++ leBytes 8 ident ++ leBytes 8 ptr
  | .relocate cid idGen old new =>
    leBytes 1 4 ++ zeros 7 ++ leBytes 8 (cid % 2 ^ 44 + idGen % 256 * 2 ^ 44) ++ leBytes 8 old ++ leBytes 8 new
  | .sbState st ph sb stamp => leBytes 1 5 ++ zeros 1 ++ leBytes 1 st ++ leBytes 1 ph ++ leBytes 4 sb ++ leBytes 8 stamp
  | .alloc h t n => leBytes 1 6 ++ zeros 3 ++ leBytes 4 h ++ leBytes 4 t ++ zeros 4 ++ leBytes 8 n
  | .dictUses d n => leBytes 1 7 ++ zeros 1 ++ leBytes 2 d ++ zeros 4 ++ leBytes 8 n
  | .retire reason block wear => leBytes 1 8 ++ leBytes 1 reason ++ zeros 2 ++ leBytes 4 block ++ leBytes 2 wear ++ zeros 6

/-- The bytes of a group: the header with the CRC over the group, this field zero. -/
def groupBytes (jseq : Nat) (recs : List JRec) : Bytes :=
  let body := recs.flatMap recBytes
  let head (crc : Nat) : Bytes := leBytes 8 jseq ++ leBytes 2 (16 + body.length) ++ leBytes 2 recs.length ++ leBytes 4 crc
  head (crc32c (head 0 ++ body)) ++ body

/-- Are the bytes of a record at some offsets zero? -/
def zeroAt (b : Bytes) (off n : Nat) : Bool := (slice b off n).all fun x => x == 0

/-- Read the record at the start of some bytes, with its size: none for a reserved type, a reserved byte that is not zero, or
bytes that end within it. -/
def parseRec (b : Bytes) : Option (JRec × Nat) :=
  let n (off len : Nat) : Nat := leNat (slice b off len)
  let give (size : Nat) (ok : Bool) (r : JRec) : Option (JRec × Nat) := if decide (size ≤ b.length) && ok then some (r, size) else none
  match n 0 1 with
  | 1 => give 32 (zeroAt b 1 3 && zeroAt b 6 2) (.mapEntry (n 4 2) (n 8 8) (n 0x10 8) (n 0x18 8))
  | 2 => give 32 (zeroAt b 1 7) (.content (n 8 8 % 2 ^ 44) (n 0x10 16))
  | 3 => give 24 (zeroAt b 1 1 && zeroAt b 4 4) (.pointer (n 2 2) (n 8 8) (n 0x10 8))
  | 4 => give 32 (zeroAt b 1 7) (.relocate (n 8 8 % 2 ^ 44) (bits (n 8 8) 51 44) (n 0x10 8) (n 0x18 8))
  | 5 => give 16 (zeroAt b 1 1) (.sbState (n 2 1) (n 3 1) (n 4 4) (n 8 8))
  | 6 => give 24 (zeroAt b 1 3 && zeroAt b 0xC 4) (.alloc (n 4 4) (n 8 4) (n 0x10 8))
  | 7 => give 16 (zeroAt b 1 1 && zeroAt b 4 4) (.dictUses (n 2 2) (n 8 8))
  | 8 => give 16 (zeroAt b 2 2 && zeroAt b 0xA 6) (.retire (n 1 1) (n 4 4) (n 8 2))
  | _ => none

/-- Read a count of records that fill some bytes exactly. -/
def parseRecs : Nat → Bytes → Option (List JRec)
  | 0, b => if b.isEmpty then some [] else none
  | n + 1, b => match parseRec b with
    | some (r, size) => (parseRecs n (b.drop size)).map (r :: ·)
    | none => none

/-- What stands at the start of some group bytes: a good group with its JSEQ and its length, one that goes on beyond them,
or one that is corrupt. -/
inductive GroupAt where
  | good (jseq : Nat) (recs : List JRec) (len : Nat)
  | short
  | corrupt
  deriving DecidableEq, Repr

/-- Read the group at the start of some bytes (R190, R191). -/
def parseGroup (b : Bytes) : GroupAt :=
  let len := leNat (slice b 8 2)
  if b.length < 16 then .short
  else if len < 24 ∨ 16384 < len ∨ len % 8 ≠ 0 then .corrupt
  else if b.length < len then .short
  else
    let g := b.take len
    if crc32c (splice g 12 (zeros 4)) ≠ leNat (slice g 12 4) then .corrupt
    else match parseRecs (leNat (slice g 10 2)) (g.drop 16) with
      | some recs => .good (leNat (g.take 8)) recs len
      | none => .corrupt

/-- The bytes of a journal page. -/
def jpageBytes (jpage tail fill first : Nat) (data : Bytes) : Bytes :=
  let head (crc : Nat) : Bytes :=
    leBytes 8 jpage ++ leBytes 8 tail ++ leBytes 2 fill ++ leBytes 2 first ++ zeros 4 ++ leBytes 4 crc ++ zeros 4
  let body := data ++ zeros (4064 - data.length)
  head (crc32c (head 0 ++ body)) ++ body

/-- The eight metadata slot headers of a page (R172, R190). -/
def metaHeaders (format tree level ident : Nat) (page : Bytes) : Bytes :=
  (List.range 8).flatMap fun k =>
    leBytes 8 (if k = 0 then carryGuard page else 0) ++
      leBytes 8 (ident % 2 ^ 50 + level * 2 ^ 50 + tree * 2 ^ 53 + k * 2 ^ 57 + format * 2 ^ 60)

/-- The prior entry of a block whose change to kind 10 is journaled and not hardened. -/
def State.zeroPending (s : State) (vol lba : Nat) : Option Nat :=
  (s.commit.staging.vals.find? fun g => g.zero && g.volume == vol && g.lba == lba && g.st != .hardened && g.prior != 2 ^ 64).map (·.prior)

/-- The bytes of a cached page as it is written: each kind 11 entry, and each kind 10 entry that is not hardened, gives
way to its block's prior entry (R175). -/
def State.pageImage (s : State) (p : MapPage) : Bytes :=
  (List.range 512).flatMap fun k =>
    let w := p.word k
    if p.tree = 1 ∧ p.level = 0 ∧ lmeKind w = 3 then
      leBytes 8 (((s.commit.staging.get? (lmeId w)).map (·.prior)).getD 0)
    else if p.tree = 1 ∧ p.level = 0 ∧ lmeKind w = 2 then
      leBytes 8 ((s.zeroPending (p.ident / 2 ^ 34) (512 * (p.ident % 2 ^ 34) + k)).getD w)
    else leBytes 8 w

/-- The group that some bytes are, where they are one whole good group. -/
def groupOf? (i : Nat) (b : Bytes) : Option JGroup :=
  match parseGroup b with
  | .good jseq recs len => if len = b.length then some { inst := i, jseq := jseq, recs := recs } else none
  | _ => none

/-! ### The tail (R194) -/

def State.hardened (s : State) (i : Nat) : Nat := s.pair (F.FTL_JNL_HARDENED_LO_JSEQ i) (F.FTL_JNL_HARDENED_HI_JSEQ i)
def State.jnlTail (s : State) (i : Nat) : Nat := s.pair (F.FTL_JNL_TAIL_LO_JSEQ i) (F.FTL_JNL_TAIL_HI_JSEQ i)
def State.fwFloor (s : State) (i : Nat) : Nat := s.pair (F.FTL_JNL_FW_FLOOR_LO_JSEQ i) (F.FTL_JNL_FW_FLOOR_HI_JSEQ i)

/-- The JSEQ of a hardened change that waits for a page, for the split of one, or for a cut; an entry of kind 11 has none. -/
def PageOp.jseq? : PageOp → Option Nat
  | .entry _ _ lme _ j => if lmeKind lme = 3 then none else some j
  | .setRecord _ _ j | .pointer _ _ _ j | .own j _ | .foreign j _ => some j
  | .pageMoved m => some m.jseq
  | _ => none

/-- The JSEQs that dirtied pages still dirty, or that will once a change that waits is applied; index pages never hold the
tail (R129). -/
def State.dirtyJseqs (s : State) (i : Nat) : List Nat :=
  (s.map.pages.filter fun p => p.inst == i && p.dirty && (p.tree != 3 || p.level != 0)).map (·.dirtyJseq) ++
  ((s.map.fetches ++ s.map.misses).filter fun f => f.inst == i).flatMap (fun f => f.ops.filterMap PageOp.jseq?) ++
  (s.map.splits.filter fun r => s.volHome r.volume == i).flatMap (fun r => r.ops.filterMap PageOp.jseq?) ++
  (s.snp.held.filter fun h => h.1 == i && h.2.1 != 0).map (·.2.1)

/-- The journal tail of an instance. -/
def State.tailOf (s : State) (i : Nat) : Nat :=
  (s.dirtyJseqs i).foldl min (min (s.fwFloor i) (s.hardened i + 1))

def State.modJnl (s : State) (i : Nat) (f : JnlSt → JnlSt) : State :=
  s.modFtl fun t => { t with jnl := putInst t.jnl i (f (ofInst t.jnl i)) }
def State.jnl (s : State) (i : Nat) : JnlSt := ofInst s.ftl.jnl i

/-- MAX_PAGES with its substitution. -/
def State.jnlMax (s : State) : Nat := if s.fld F.FTL_JNL_CTRL_MAX_PAGES = 0 then 0x1000 else s.fld F.FTL_JNL_CTRL_MAX_PAGES

/-- Journal pages wholly below the tail count as invalid slots and are live no more. -/
def State.retireJpages (s : State) (i : Nat) : State :=
  let tail := s.jnlTail i
  let dead := (s.jnl i).pages.filter fun p => decide (p.2.1 < tail) && p.2.2 != 0
  let s1 := s.modJnl i fun j => { j with pages := j.pages.filter fun p => !(decide (p.2.1 < tail) && p.2.2 != 0) }
  dead.foldl (fun t p => match t.sbOfAddr p.2.2 with
    | some sb => t.slotsInvalid sb 8
    | none => t) s1

/-- Have the journal pages from the tail on reached MAX_PAGES? -/
def State.jnlFull (s : State) (i : Nat) : Bool := decide (s.jnlMax ≤ (s.jnl i).pages.length)

/-- Is it the firmware floor, or the last anchored tail, that holds the tail? -/
def State.floorHolds (s : State) (i : Nat) : Bool :=
  decide (s.fwFloor i ≤ s.hardened i) && (s.dirtyJseqs i).all fun q => decide (s.fwFloor i ≤ q)
def State.anchorHolds (s : State) (i : Nat) : Bool := (s.jnl i).anchorFull && decide ((s.jnl i).anchorTail < s.tailOf i)

/-- A journal that is full stops drain, where the firmware floor or a full anchor holds its tail (R194, R196). -/
def State.testJnlFull (s : State) : State :=
  let stop := (List.range 2).any fun i => s.holds i && s.jnlFull i && (s.floorHolds i || s.anchorHolds i)
  (if stop then s.raise F.FTL_RCL_ISR_JNL_FULL else s).modCommit fun c => { c with drainStop := stop }

/-- Recompute the tail of an instance; it does not pass the last anchored tail while no anchor page can
be written (R196). -/
def State.retail (s : State) (i : Nat) : State :=
  let t := if (s.jnl i).anchorFull then min (s.tailOf i) (s.jnl i).anchorTail else s.tailOf i
  let s1 := s.setPair (F.FTL_JNL_TAIL_LO_JSEQ i) (F.FTL_JNL_TAIL_HI_JSEQ i) (max t (s.jnlTail i))
  (s1.retireJpages i).testJnlFull

/-! ### Building a group (R189, R192) -/

/-- The highest JSEQ given in an instance. -/
def State.lastJseq (s : State) (i : Nat) : Nat := (s.jnl i).nextJseq - 1

/-- Place the journal page under fill, with so many bytes of it, in the instance's stream 3 (R189). -/
def State.placeJpage (s : State) (i n : Nat) : State :=
  let j := s.jnl i
  let bytes := jpageBytes j.nextPage (s.jnlTail i) n j.fillFirst (j.fill.take n)
  (s.modJnl i fun j => { j with nextPage := j.nextPage + 1, pages := j.pages ++ [(j.nextPage, s.lastJseq i, 0)],
                                fill := j.fill.drop n, fillFirst := 0xFFFF }).place
    { inst := i, stream := if s.rows.holdup && !s.holds i then 4 else 3, need := 8, item := .jpage i j.nextPage, payload := bytes,
      headers := metaHeaders 3 0 0 j.nextPage bytes }

/-- Place the journal pages that the bytes under fill make full. -/
def State.placeFull : Nat → Nat → State → State
  | 0, _, s => s
  | n + 1, i, s => if 4064 ≤ (s.jnl i).fill.length then State.placeFull n i (s.placeJpage i 4064) else s

/-- Close the journal page under fill: it is placed as it is (log entry 21). -/
def State.closeFill (s : State) (i : Nat) : State :=
  let n := (s.jnl i).fill.length
  if n = 0 then s else s.placeJpage i n

/-- Close the journal pages under fill of the instances held. -/
def State.closeFills (s : State) : State := (List.range 2).foldl (fun t i => if t.holds i then t.closeFill i else t) s

/-- Append a group's bytes to the journal: groups stand back to back (R190). Gives the page its last byte stands in. -/
def State.fillGroup (s : State) (i : Nat) (bytes : Bytes) : State × Nat :=
  let s1 := s.modJnl i fun j => { j with fill := j.fill ++ bytes, fillFirst := if j.fillFirst = 0xFFFF then 0x20 + j.fill.length else j.fillFirst }
  let s2 := State.placeFull 6 i s1
  (s2, if (s2.jnl i).fill.isEmpty then (s2.jnl i).nextPage - 1 else (s2.jnl i).nextPage)

/-- Build a record group of an instance: it takes the next JSEQ, goes whole to the partner, and is
programmed. An empty group is not built. -/
def State.buildGroup (s : State) (i : Nat) (recs : List JRec) : State :=
  if recs.isEmpty then s
  else
    let jseq := s.nextJseq i
    let s1 := if s.efmoUp then s.send (.efmoGroup { inst := i, jseq := jseq, recs := recs }) else s
    let s2 := s1.modJnl i fun j => { j with nextJseq := jseq + 1 }
    let (s3, last) := s2.fillGroup i (groupBytes jseq recs)
    s3.modJnl i fun j => { j with groups := j.groups ++ [{ jseq := jseq, recs := recs, last := last }] }

/-- Give up a PENDING record in a group of its own. -/
def State.dropPending (s : State) (cid : Nat) : State :=
  let p := s.dropRecs cid
  p.1.buildGroup (cidInst cid) p.2

/-- Journal a superblock's state (R191). -/
def State.journalSb (s : State) (sb st phase : Nat) : State :=
  s.buildGroup (s.sbInst sb) [.sbState st phase sb s.stamp]

/-- Retire a block with a reason and journal it; a reserved reason is recorded as 0x7 (R207). -/
def State.retireBlock (s : State) (member reason : Nat) : State :=
  if s.badBlock member then s
  else (s.markBad member (min 7 reason)).buildGroup (s.memberHalf member) [.retire (min 7 reason) member (s.wear member)]

/-! ### Commit entries become records (R167, R192) -/

/-- The prior entry of a version whose map page is being fetched. -/
def priorUnknown : Nat := 2 ^ 64

/-- The staged versions of an entry. -/
def State.stgOf (s : State) (i seq : Nat) : Tbl Stg :=
  s.commit.staging.filter fun p => p.2.inst == i && p.2.seq == seq && !p.2.mirror

def State.modStg (s : State) (k : Nat) (f : Stg → Stg) : State :=
  s.modCommit fun c => { c with staging := Tbl.modify c.staging k f }

/-- Is a command that waits a read that reaches a block it has not gathered? -/
def Waiting.reaches (w : Waiting) (inst volume lba : Nat) : Bool :=
  w.inst == inst && w.volume == volume && decide (w.lba ≤ lba) && decide (lba < w.lba + w.count) && !w.got.has (lba - w.lba) &&
    (w.cmd.op == .read || w.cmd.op == .compare || w.cmd.op == .verify || w.cmd.op == .write)

/-- Does a read in flight need a staged version: no COMPLETE versions between the two cover the block (R89, R91)? -/
def State.needs (s : State) (w : Waiting) (g : Stg) : Bool :=
  w.reaches g.inst g.volume g.lba && decide (g.seq < w.seq) &&
  ((s.commit.own.flatMap fun e =>
      if e.inst == g.inst && e.volume == g.volume && e.st == .complete && decide (g.seq < e.seq) && decide (e.seq < w.seq) then
        (e.blocks.filter fun b => b.lba == g.lba).map (·.mask) else []) ++
    ((s.commit.staging.vals.filter fun h => h.inst == g.inst && h.volume == g.volume && h.lba == g.lba && decide (g.seq < h.seq) &&
      decide (h.seq < w.seq)).map (·.mask))).foldl (· ||| ·) 0 != 0xFF

/-- Reads in flight that need a staged version, and Stitches of synchronous replication that read
its slot: its pins (R91, R278). -/
def State.pinsOf (s : State) (k : Nat) (g : Stg) : Nat :=
  (s.commit.waiting.filter fun w => s.needs w g).length
  + ((s.rows.stitches.vals ++ s.rows.waiting).filter fun t => bit t.flags 8 && t.staging == k).length

/-- May a staged version be freed: it is hardened, or superseded and its Stitch has ended (R95, R114)? -/
def Stg.done (g : Stg) : Bool :=
  match g.st with
  | .hardened => true
  | .dropped => g.superseded
  | _ => false

/-- Free a staging slot that is done and that nothing pins. -/
def State.freeStg (s : State) (k : Nat) : State :=
  match s.commit.staging.get? k with
  | some g => if g.done && s.pinsOf k g == 0 then s.modCommit fun c => { c with staging := c.staging.del k } else s
  | none => s

/-- Free every staging slot of a block range that is done and that nothing pins. -/
def State.sweepStg (s : State) (inst volume lba count : Nat) : State :=
  (s.commit.staging.filter fun p =>
    p.2.inst == inst && p.2.volume == volume && decide (lba ≤ p.2.lba) && decide (p.2.lba < lba + count)).foldl (fun t p => t.freeStg p.1) s

/-- Has the version's record group been built? -/
def Stg.built (g : Stg) : Bool :=
  match g.st with
  | .journaled _ | .hardened => true
  | _ => false

def Stg.settled (g : Stg) : Bool :=
  match g.st with
  | .durable _ | .duplicate _ | .dropped => true
  | _ => false

/-- The content a settled version names. -/
def Stg.cid? (g : Stg) : Option Nat :=
  match g.st with
  | .durable c | .duplicate c => some c
  | _ => none

/-- The entry of a block that the journal's newest record of it gives, hardened or not; else its durable entry. -/
def State.chained (s : State) (i vol lba durable : Nat) : Nat :=
  (((s.jnl i).groups.flatMap (·.recs)).filterMap fun r => match r with
    | .mapEntry v l lme _ => if v = vol ∧ l = lba then some lme else none
    | _ => none).getLast?.getD durable

/-- The content a version's group takes a reference from: that of the block's newest record. -/
def State.supplanted (s : State) (g : Stg) : Option Nat :=
  let e := s.chained g.inst g.volume g.lba g.prior
  if lmeKind e = 1 then some (lmeId e) else none

/-- The records of one staged version: its MAP_ENTRY, its CONTENT, and the decrement of the content its
block had before. A superseded version gives its content up instead (R114, R138). -/
def State.stgRecords (s : State) (g : Stg) : State × List JRec :=
  match g.cid? with
  | none => (s, [])
  | some cid =>
    if g.superseded then
      match g.st with
      | .duplicate c => s.refDrop c
      | _ => s.dropRecs cid
    else
      let lme := mkLme 1 (s.volGen g.volume) cid
      let raw := (s.rawRec? cid).getD 0
      let live := if (recOf raw).state = 1 then { recOf raw with state := 2 : Rec }.toNat else raw
      let p := match s.supplanted g with
        | some c => s.refDrop c
        | none => (s, [])
      (p.1, [.mapEntry g.volume g.lba lme g.seq, .content cid live] ++ p.1.dictRecs (recOf raw).dict (cidInst cid) ++ p.2)

/-- Is the install of a staged version held on the split of a page (R171)? -/
def State.splitHolds (s : State) (k : Nat) : Bool :=
  s.map.splits.any fun r => r.ops.any fun o => match o with
    | .entry _ _ lme _ _ => lmeKind lme == 3 && lmeId lme == k
    | _ => false

/-- Does a read numbered below a version still have the block to gather? In hold-up no read is served. -/
def State.readsBelow (s : State) (i vol lba seq : Nat) : Bool :=
  !s.rows.holdup && s.commit.waiting.any fun w => w.reaches i vol lba && decide (w.seq < seq)

/-- When every block of a drained entry is settled and no split holds one's install, journal the entry as one group
(R192); first the content pages it needs are fetched (log entry 162), and the reads numbered below it have gathered the
blocks it changes (R89; log entry 169). -/
def State.tryJournal (s : State) (i seq : Nat) : State :=
  let l := s.stgOf i seq
  if l.isEmpty || !(l.all fun p => p.2.settled &&
      (p.2.superseded || p.2.st == .dropped || (p.2.prior != priorUnknown && !s.splitHolds p.1))) || (s.jnl i).hold then s
  else if l.any fun p => s.readsBelow i p.2.volume p.2.lba seq then s
  else match (l.flatMap fun p => p.2.cid?.toList ++ (if p.2.superseded then [] else (s.supplanted p.2).toList)).findSome? fun c => (s.recMissing c).map fun m => (c, m) with
  | some (cid, level, ident, loc) => s.waitPage (cidInst cid) 2 level ident loc [] []
  | none =>
    let jseq := s.nextJseq i
    let r := l.foldl (fun (acc : State × List JRec) p =>
      let q := acc.1.stgRecords p.2
      (q.1, acc.2 ++ q.2)) (s, [])
    let recs := if r.2.isEmpty then [] else r.2 ++ [r.1.allocRec i]
    let s1 := r.1.buildGroup i recs
    l.foldl (fun t p => t.modStg p.1 fun g =>
      if g.poisoned && !g.superseded then g else { g with st := if r.2.isEmpty then .hardened else .journaled jseq }) s1

/-! ### Hardening (R192, R203) -/

/-- A PENDING record becomes LIVE (R126). -/
def State.goLive (s : State) (jseq cid raw : Nat) : State :=
  match s.recMissing cid with
  | some (level, ident, loc) => s.waitPage (cidInst cid) 2 level ident loc [.own jseq (.content cid raw)] []
  | none =>
  match s.rec? cid with
  | some r =>
    if r.state = 1 then
      ((s.setRec cid { r with state := 2 : Rec }.toNat (some jseq)).domAdd r.domain 0x18 1).domAdd r.domain 0x20 r.refs
    else s
  | none => s

/-- A block's entry has hardened: it is the prior entry of the versions above it (R167). -/
def State.setPriors (s : State) (i vol lba lme seq : Nat) : State :=
  s.modCommit fun c => { c with staging := c.staging.map fun q =>
    (q.1, if q.2.inst == i && q.2.volume == vol && q.2.lba == lba && !q.2.mirror && decide (seq < q.2.seq) then { q.2 with prior := lme } else q.2) }

/-- The staging slot of a version whose group hardened, with its index. -/
def State.journaledStg (s : State) (jseq vol lba seq : Nat) : Option (Nat × Stg) :=
  s.commit.staging.find? fun p => p.2.st == .journaled jseq && p.2.volume == vol && p.2.lba == lba && p.2.seq == seq

/-- Blocks of write-through entries that a hardened version covers are durable (R99); an entry with none
left completes its command. -/
def State.wtDurable (s : State) (i vol lba seq : Nat) : State :=
  let step (w : WtWait) : WtWait :=
    if w.inst == i && w.volume == vol && decide (w.seq ≤ seq) then { w with lbas := w.lbas.filter fun b => b != lba } else w
  let l := s.commit.wt.map step
  let done := l.filter fun w => w.lbas.isEmpty
  done.foldl (fun t w => t.pieceThrough
      { inst := w.inst, seq := w.seq, volume := w.volume, origin := w.origin, ownFirst := w.ownFirst, count := w.count })
    (s.modCommit fun c => { c with wt := l.filter fun w => !w.lbas.isEmpty })

/-- A received block whose group hardened is installed and marked (R276). -/
def State.rxInstall (s : State) (jseq vol lba lme : Nat) : State :=
  let mine (m : RxMsgSt) (k : Nat) (x : RxSt) : Bool := m.volume == vol && m.lba + k == lba && x == .placed jseq
  if s.snp.rx.any fun m => (m.st.zipIdx).any fun p => mine m p.2 p.1 then
    (s.install vol lba lme 0 (some jseq)).modSnp fun x => { x with
      rx := x.rx.map fun m => { m with st := (m.st.zipIdx).map fun p => if mine m p.2 p.1 then .hardened else p.1 } }
  else s

/-- Apply one record of a group of the head's own whose group hardened. -/
def State.applyOwn (s : State) (i jseq : Nat) : JRec → State
  | .mapEntry vol lba lme seq =>
    if lmeKind lme = 2 ∧ seq ≠ 0 then
      let s1 := match s.journaledStg jseq vol lba seq with
        | some (k, _) => (s.modStg k fun g => { g with st := .hardened }).freeStg k
        | none => s
      (s1.setPriors i vol lba lme seq).wtDurable i vol lba seq
    else if s.cutHolds i vol seq then s.holdInstall i jseq (.mapEntry vol lba lme seq)
    else match s.journaledStg jseq vol lba seq with
    | some (k, g) =>
      let e := s.entryNow vol lba
      let s1 := if lmeKind e = 3 ∧ lmeId e = k then s.install vol lba lme seq (some jseq) else s
      let s2 := if g.dirty then s1.releaseDirty 1 else s1
      (((s2.modStg k fun g => { g with st := .hardened, dirty := false }).freeStg k).setPriors i vol lba lme seq).wtDurable i vol lba seq
    | none => s.rxInstall jseq vol lba lme
  | .content cid raw => s.goLive jseq cid raw
  | .pointer slot ident ptr => if slot = 0xFFFE then s.snapshotRoot (ident % 2 ^ 24) ptr else s
  | .relocate cid idGen old new =>
    match s.recMissing cid with
    | some (level, ident, loc) => s.waitPage (cidInst cid) 2 level ident loc [.own jseq (.relocate cid idGen old new)] []
    | none =>
    let bad := s.ftl.poisoning.contains cid
    let s1 := s.modFtl fun t => { t with moving := t.moving.filter (fun m => m.2 != cid), poisoning := t.poisoning.filter (· != cid) }
    let srcSb := s.sbOfAddr (old % 2 ^ 42)
    let dstSb := s.sbOfAddr (new % 2 ^ 42)
    match s.rec? cid with
    | some r =>
      let n := slotsOf r.cls
      if r.gen = idGen ∧ r.addr = old % 2 ^ 42 ∧ r.slot = bits old 44 42 then
        let tgt : Rec := { r with addr := new % 2 ^ 42, slot := bits new 44 42, cls := if bad then 15 else r.cls }
        let s2 := s1.setRec cid tgt.toNat (some jseq)
        let s3 := match srcSb with | some sb => s2.slotsFreed sb n | none => s2
        match dstSb with | some sb => s3.slotsValid sb (slotsOf tgt.cls) | none => s3
      else
        let s2 := match dstSb with | some sb => s1.slotsInvalid sb (if bad then 8 else n) | none => s1
        s2.inc F.FTL_RCL_EVENTS_RELOC_DROPPED
    | none => s1
  | _ => s

/-- Ids whose freeing group hardened enter the ring (R179). -/
def State.freeHardened (s : State) (i jseq : Nat) : State :=
  let l := s.map.freeing.filter fun f => cidInst f.1 == i && decide (f.2.2 ≤ jseq)
  let s1 := s.modMap fun m => { m with freeing := m.freeing.filter fun f => !(cidInst f.1 == i && decide (f.2.2 ≤ jseq)) }
  l.foldl (fun t f => t.pushCid i f.1 f.2.1) s1

/-- Erase the good members of a superblock whose PHASE 0x01 group hardened; with one retired it ends RETIRED (R200). -/
def State.eraseMembers (s : State) (sb : Nat) : State :=
  let good := (s.sbMembers sb).filter fun m => !s.badBlock m
  good.foldl (fun t m => t.queueOp 0
    { port := memberModule m,
      op := plainOp 3 0 (s.epoch (s.sbInst sb)) (if s.sbMode sb = 1 then 0 else 1) (memberAddr m 0 0),
      purpose := .eraseMember sb m, data := [] })
    (s.modFtl fun t => { t with erasing := (t.erasing.filter fun e => e.1 != sb) ++ [(sb, good, decide (good.length < (s.sbMembers sb).length))] })

/-! ### Pages of trees that take a new address (R175, R203) -/

/-- The POINTER record of a page (R191). -/
def State.ptrRec (s : State) (i tree level ident ptr : Nat) : JRec :=
  let vol := if tree = 1 then ident / 2 ^ 34 else 0
  let idx := if tree = 1 then ident % 2 ^ 34 else ident
  if level = s.treeDepth i tree vol then (if tree = 1 then .pointer 0xFFFF vol ptr else .pointer 0xFFFD (tree * 2 ^ 53) ptr)
  else .pointer (idx % 512) (identOf tree vol (idx / 512) 0 % 2 ^ 50 + (level + 1) * 2 ^ 50 + tree * 2 ^ 53) ptr

/-- Write the pointer that names a page where it stands; the page that holds it becomes dirty under a JSEQ. -/
def State.setPtr (s : State) (i tree ident ptr jseq : Nat) : PtrAt → State
  | .root _ => s.setTreeRoot i tree (ident / 2 ^ 34) ptr
  | .word p k _ => s.replacePage p ((p.setWord k ptr).touch jseq)
  | _ => s

/-- The slots of a page's new image become valid, those of its old one invalid. -/
def State.imageMoved (s : State) (old new : Nat) : State :=
  let s1 := match s.sbOfAddr new with | some sb => s.slotsValid sb 8 | none => s
  if old = 0 then s1 else match s1.sbOfAddr old with | some sb => s1.slotsFreed sb 8 | none => s1

/-- A copy of a page that nothing names: invalid slots. -/
def State.imageWasted (s : State) (new : Nat) : State :=
  match s.sbOfAddr new with | some sb => s.slotsInvalid sb 8 | none => s

/-- A cached page, or a page of the index page cache, has its image elsewhere. -/
def State.relocatePage (s : State) (i tree level ident old new : Nat) : State :=
  if tree = 3 ∧ level = 0 then
    s.modDdp fun d => { d with lines := d.lines.map fun l => (l.1, if l.2.inst == i && l.2.page == ident && l.2.loc == old then { l.2 with loc := new } else l.2) }
  else match s.map.pages.find? fun p => p.is i tree level ident && p.loc == old with
    | some p => s.replacePage p { p with loc := new }
    | none => s

/-- The group of a page's copy has hardened: the pointer takes the new address if it still names the source, else the copy
is dropped (R203). -/
def State.pageMoved (s : State) (m : PageMove) : State :=
  let at_ := s.ptrAt m.inst m.tree m.level m.ident
  match at_ with
  | .missing lvl pid loc => s.waitPage m.inst m.tree lvl pid loc [.pageMoved m] []
  | _ =>
    match at_.ptr?.filter fun p => ptrKind p == 1 && ptrAddr p == m.old with
    | some p =>
      (((s.setPtr m.inst m.tree m.ident (mkPtr 1 (ptrGen p) m.new) m.jseq at_).relocatePage m.inst m.tree m.level m.ident m.old m.new).imageMoved m.old m.new)
    | none => (s.imageWasted m.new).inc F.FTL_RCL_EVENTS_RELOC_DROPPED

/-- A page's copy is programmed: its POINTER record is journaled, unless the pointer names the source no more. -/
def State.pageCopied (s : State) (i tree level ident old new : Nat) : State :=
  let at_ := s.ptrAt i tree level ident
  match at_ with
  | .missing lvl pid loc => s.waitPage i tree lvl pid loc [.pageCopied tree level ident old new] []
  | _ =>
    match at_.ptr?.filter fun p => ptrKind p == 1 && ptrAddr p == old with
    | some p =>
      let m : PageMove := { jseq := s.nextJseq i, inst := i, tree := tree, level := level, ident := ident, old := old, new := new }
      (s.modFtl fun t => { t with pageMoves := t.pageMoves ++ [m] }).buildGroup i [s.ptrRec i tree level ident (mkPtr 1 (ptrGen p) new)]
    | none => (s.imageWasted new).inc F.FTL_RCL_EVENTS_RELOC_DROPPED

/-- The pages copied by reclaim whose group has hardened. -/
def State.movesHardened (s : State) (i jseq : Nat) : State :=
  let mine (m : PageMove) : Bool := m.inst == i && decide (m.jseq ≤ jseq)
  (s.ftl.pageMoves.filter mine).foldl State.pageMoved (s.modFtl fun t => { t with pageMoves := t.pageMoves.filter fun m => !mine m })

/-- One group hardens. -/
def State.hardenGroup (s : State) (i : Nat) (g : GroupSt) : State :=
  let s1 := s.setPair (F.FTL_JNL_HARDENED_LO_JSEQ i) (F.FTL_JNL_HARDENED_HI_JSEQ i) g.jseq
  let s2 := g.recs.foldl (fun t r => t.applyOwn i g.jseq r) s1
  let s3 := g.recs.foldl (fun t r => match r with
    | .sbState _ 1 sb _ => t.eraseMembers sb
    | _ => t) s2
  (s3.movesHardened i g.jseq).freeHardened i g.jseq

/-! ### Hardening in order (R192) -/

/-- The unbroken run of good journal pages above a page number. -/
def goodRun : Nat → Nat → List Nat → Nat
  | 0, n, _ => n
  | k + 1, n, l => if l.contains (n + 1) then goodRun k (n + 1) l else n

/-- Harden every group whose journal pages, and every earlier one, are good. -/
def State.harden (s : State) (i : Nat) : State :=
  let j := s.jnl i
  let tgt := goodRun j.good.length j.goodTo j.good
  let s1 := s.modJnl i fun j => { j with goodTo := tgt, good := j.good.filter fun n => decide (tgt < n) }
  let ready := j.groups.takeWhile fun g => decide (g.last ≤ tgt)
  let s2 := s1.modJnl i fun j => { j with groups := j.groups.drop ready.length }
  ((ready.foldl (fun t g => t.hardenGroup i g) s2).retail i).reportHorizon i

/-! ### Applying groups that are not the head's own: mirrored, or replayed (R193, R197, R198) -/

/-- A cached page has a new flash image: a copy that was changed since keeps its words. -/
def State.movePage (s : State) (i tree level ident loc : Nat) : State :=
  match s.map.pages.find? fun p => p.is i tree level ident with
  | some p => (s.dropPage p).putPage { p with loc := loc }
  | none => s

/-- Apply a POINTER record: a root, a snapshot's root, or a word of a page, which is fetched where it is not cached.
The page the word names has a new flash image. -/
def State.applyPointer (s : State) (i slot ident ptr jseq : Nat) : State :=
  let tree := bits ident 56 53
  let level := bits ident 52 50
  let id := bits ident 49 0
  let vol := if tree = 1 then id / 2 ^ 34 else 0
  let idx := if tree = 1 then id % 2 ^ 34 else id
  if slot = 0xFFFF then (s.movePage i 1 (s.treeDepth i 1 id) (identOf 1 id 0 0) (ptrAddr ptr)).setTreeRoot i 1 id ptr
  else if slot = 0xFFFD then (s.movePage i tree (s.treeDepth i tree 0) 0 (ptrAddr ptr)).setTreeRoot i tree 0 ptr
  else if slot = 0xFFFE then s.snapshotRoot (id % 2 ^ 24) ptr
  else match s.reach i tree vol idx level (s.treeDepth i tree vol) (s.treeRoot i tree vol) with
    | .leaf p => (s.movePage i tree (level - 1) (identOf tree vol (idx * 512 + slot) 0) (ptrAddr ptr)).putPage ((p.setWord slot ptr).touch jseq)
    | .miss lvl pid loc => s.waitPage i tree lvl pid loc [.pointer slot ident ptr jseq] []
    | _ => s

/-- Apply a record that another head journaled, or that replay reads. -/
def State.applyForeign (s : State) (i jseq : Nat) : JRec → State
  | .mapEntry vol lba lme seq =>
    let s0 := s.modCommit fun c => { c with
      lastSeq := putInst c.lastSeq i (max (ofInst c.lastSeq i) seq),
      staging := c.staging.map fun q => (q.1, if q.2.inst == i && q.2.volume == vol && q.2.lba == lba && decide (q.2.seq < seq) then
        { q.2 with superseded := true } else q.2) }
    let e := s0.entryNow vol lba
    match (if lmeKind e = 3 then (s0.commit.staging.get? (lmeId e)) else none) with
    | some g => if seq < g.seq then s0.modStg (lmeId e) fun g => { g with prior := lme } else s0.install vol lba lme seq (some jseq)
    | none => s0.install vol lba lme seq (some jseq)
  | .content cid r => s.setRec cid r (some jseq)
  | .pointer slot ident ptr => s.applyPointer i slot ident ptr jseq
  | .relocate cid idGen old new =>
    match s.recMissing cid with
    | some (level, ident, loc) => s.waitPage (cidInst cid) 2 level ident loc [.foreign jseq (.relocate cid idGen old new)] []
    | none =>
    match s.rec? cid with
    | some r =>
      if r.gen = idGen ∧ r.addr = old % 2 ^ 42 ∧ r.slot = bits old 44 42 then
        let s1 := s.setRec cid { r with addr := new % 2 ^ 42, slot := bits new 44 42 : Rec }.toNat (some jseq)
        let s2 := match s.sbOfAddr (old % 2 ^ 42) with | some sb => s1.slotsFreed sb (slotsOf r.cls) | none => s1
        match s.sbOfAddr (new % 2 ^ 42) with | some sb => s2.slotsValid sb (slotsOf r.cls) | none => s2
      else s
    | none => s
  | .sbState st phase sb stamp =>
    let was := s.sbState sb
    let s1 := if (st = sbFree ∨ st = sbRetired) ∧ was ≠ st then (s.sbMembers sb).foldl (fun t m => t.addWear m) s else s
    let s2 := if st = sbOpen then s1.wrN (s.sbAddr sb + 8) 8 stamp else if st = sbClosed then s1.wrN (s.sbsAddr sb + 8) 8 stamp else s1
    (s2.modFtl fun t => { t with erasing :=
      (t.erasing.filter fun e => e.1 != sb) ++ (if phase = 1 then [(sb, s.sbMembers sb, false)] else []) }).setSbState sb st
  | .alloc h t n =>
    let fill := (t + s.cidRingSize i - h) % s.cidRingSize i
    ((s.modMap fun m => { m with cidHead := putInst m.cidHead i h, cidTail := putInst m.cidTail i (h + fill) }).setPair
      (F.FTL_CID_NEXT_LO_NEXT i) (F.FTL_CID_NEXT_HI_NEXT i) n).setFld (F.FTL_CID_RING_FILL_FILL i) fill
  | .dictUses d n => s.wrN (s.dictAddr d + 0x20 + 8 * i) 8 n
  | .retire reason block wear =>
    (if s.badBlock block then s else s.markBad block (min 7 reason)).wrN (s.wearBase + 2 * block) 2 (max wear (s.wear block))

/-- Apply a group if its JSEQ is one above the last applied. -/
def State.applyGroup (s : State) (g : JGroup) : State :=
  let j := s.jnl g.inst
  if g.jseq = j.lastApplied + 1 then
    (g.recs.foldl (fun t r => t.applyForeign g.inst g.jseq r) s).modJnl g.inst fun j =>
      { j with lastApplied := g.jseq, nextJseq := max j.nextJseq (g.jseq + 1), applied := if j.replay = 0 then [] else j.applied ++ g.recs }
  else s

/-- Apply the mirrored groups held whole, in JSEQ order, stopping at the first gap, and discard the rest
(R193). The first may follow the tail: where nothing was applied yet it sets the start. -/
def State.applyMirrored (s : State) (i : Nat) : State :=
  let l := sortBy (fun a b => decide (a.jseq ≤ b.jseq)) ((s.jnl i).mirrored.filter fun g => decide (1 ≤ g.jseq))
  let s1 := match l with
    | g :: _ => if (s.jnl i).lastApplied = 0 then s.modJnl i fun j => { j with lastApplied := g.jseq - 1 } else s
    | [] => s
  (l.foldl (fun t g => if decide (g.jseq ≤ (t.jnl i).lastApplied) then t else t.applyGroup g) s1).modJnl i fun j => { j with mirrored := [] }

/-! ### Write-back of tree pages (R175) -/

/-- Place a dirty page's image in the metadata superblock. -/
def State.writePage (s : State) (p : MapPage) : State :=
  if !p.dirty || p.wb == .inFlight then s
  else
    let img := s.pageImage p
    (s.replacePage p { p with wb := .inFlight, again := false }).place
      { inst := p.inst, stream := 3, need := 8, item := .page p.inst p.tree p.level p.ident p.loc, payload := img,
        headers := metaHeaders 2 p.tree p.level p.ident img }

/-- The pointer to a page takes its new address and is journaled, and the old image is counted invalid (R175); where the
page that holds the pointer is not cached it is written when that has come. -/
def State.repoint (s : State) (i tree level ident gen old new : Nat) : State :=
  let jseq := s.nextJseq i
  let ptr := mkPtr 1 gen new
  let r := s.ptrRec i tree level ident ptr
  let s1 := match s.ptrAt i tree level ident, r with
    | .missing lvl pid loc, .pointer slot name _ => s.waitPage i tree lvl pid loc [.pointer slot name ptr jseq] []
    | at_, _ => s.setPtr i tree ident ptr jseq at_
  (s1.imageMoved old new).buildGroup i [r]

/-- An index page's image is programmed (R128, R130). The directory pages on the way to it are made where they are absent;
index pages themselves are in the index page cache and not among the map pages. -/
def State.indexWritten (s : State) (i page old new : Nat) : State :=
  ((s.openIndexDir i page (s.nextJseq i)).1.relocatePage i 3 0 page old new).repoint i 3 0 page 0 old new

/-- A page's image is programmed: the cached page is clean, unless it has changed since. -/
def State.pageWritten (s : State) (i tree level ident old new : Nat) : State :=
  if tree = 3 ∧ level = 0 then s.indexWritten i ident old new
  else match s.map.pages.find? fun p => p.is i tree level ident && p.loc == old with
  | none => s.imageWasted new
  | some p =>
    ((s.replacePage p { p with loc := new, dirty := p.again, wb := .none, again := false, dirtyJseq := p.againJseq }).repoint i tree level ident
      (if tree = 1 then s.volGen (ident / 2 ^ 34) else 0) old new).trimPages

/-- A journal page is programmed good. -/
def State.jpageGood (s : State) (i jpage addr : Nat) : State :=
  let s1 := s.modJnl i fun j => { j with good := j.good ++ [jpage] }
  (s1.modJnl i fun j => { j with pages := j.pages.map fun p => if p.1 == jpage then (p.1, p.2.1, addr) else p }).harden i

end Sys2Proof.Machine
end

