-- ==== Sys2Proof/Machine/ReadOps.lean ====
section
/-! DEFINITION. How a read gathers its blocks and ends (03, 05, 07, 12), as the operations that commands share. -/
namespace Sys2Proof.Machine

/-! ### Versions of a block -/

/-- One version of a block in commit SRAM or staging. -/
structure Version where
  seq      : Nat
  mask     : Nat
  data     : Bytes
  poisoned : Bool
  /-- Its carry guard checks (R102). -/
  intact   : Bool := true
  deriving DecidableEq, Repr

/-- The COMPLETE own-ring versions of a block numbered below a sequence number. -/
def State.ringVersions (s : State) (inst vol lba below : Nat) : List Version :=
  s.commit.own.flatMap fun e =>
    if e.inst == inst && e.volume == vol && e.st == .complete && decide (e.seq < below) then
      (e.blocks.filter fun b => b.lba == lba).map fun b =>
        { seq := e.seq, mask := b.mask, data := b.data, poisoned := b.poisoned, intact := carryGuard b.data == b.guard }
    else []

/-- The staged versions of a block numbered below a sequence number. -/
def State.stagedVersions (s : State) (inst vol lba below : Nat) : List Version :=
  (s.commit.staging.vals.filter fun g =>
    g.inst == inst && g.volume == vol && g.lba == lba && decide (g.seq < below)).map fun g =>
      { seq := g.seq, mask := g.mask, data := g.data, poisoned := g.poisoned, intact := carryGuard g.data == g.guard }

/-- Sectors of the first where its mask has them, else of the second. -/
def mergeSectors (mask : Nat) (new old : Bytes) : Bytes :=
  (List.range 8).flatMap fun k => slice (if bit mask k then new else old) (512 * k) 512

/-- Lay versions, the newest first, over each other: the sectors covered, their bytes, and whether a
poisoned version was met before the block was covered. -/
def layVersions : List Version → Nat × Bytes × Bool → Nat × Bytes × Bool
  | [], acc => acc
  | v :: r, (m, d, p) =>
    if m = 0xFF then (m, d, p)
    else layVersions r (m ||| v.mask, mergeSectors m d v.data, p || v.poisoned)

/-- What the ring and staging hold of a block for a read (R89, R90). -/
def State.heldVersion (s : State) (inst vol lba below : Nat) : Nat × Bytes × Bool :=
  let l := sortBy (fun a b => decide (b.seq ≤ a.seq)) (s.ringVersions inst vol lba below ++ s.stagedVersions inst vol lba below)
  layVersions l (0, zeroBlock, false)

/-! ### Waiting reads -/

def State.waiting? (s : State) (inst seq : Nat) : Option Waiting :=
  s.commit.waiting.find? fun w => w.inst == inst && w.seq == seq

def State.modWaiting (s : State) (inst seq : Nat) (f : Waiting → Waiting) : State :=
  s.modCommit fun c => { c with waiting := c.waiting.map fun w => if w.inst == inst && w.seq == seq then f w else w }

/-- End a waiting command with a status; the versions it pinned may go. -/
def State.endWaiting (s : State) (w : Waiting) (st : HostStat) : State :=
  let s1 := s.modCommit fun c => { c with waiting := c.waiting.filter fun x => !(x.inst == w.inst && x.seq == w.seq) }
  (s1.sweepStg w.inst w.volume w.lba w.count).completeHost w.origin st

/-- A read fails whole with the unrecovered-read status (R287). Where what reads is a drain that merges a partial
block, the drain learns it. -/
def State.failRead (s : State) (inst seq : Nat) : State :=
  match s.waiting? inst seq with
  | some w =>
    if w.cmd.op == .write then s.modWaiting inst seq fun w => { w with hostBytes := some [] } else s.endWaiting w hsUnrecovered
  | none => s

/-- The blocks of a read in order. -/
def Waiting.bytes (w : Waiting) : Bytes := (List.range w.count).flatMap fun k => (w.got.get? k).getD zeroBlock

/-- Send a read's data: to the host, or block by block to the head that forwarded it (R16, R18). -/
def State.sendRead (s : State) (w : Waiting) : State :=
  if w.origin.forwarded then
    (List.range w.count).foldl (fun t k =>
      let d := (w.got.get? k).getD zeroBlock
      t.send (.efmoReadData w.origin.queue w.origin.cid (w.lba + k) d (carryGuard d))) s
  else
    let f := s.nsLbaf w.cmd.nsid
    let d := if lbaf512 f then slice w.bytes ((w.cmd.slba - 8 * w.lba) * 512) (w.cmd.nlb * 512) else w.bytes
    let pi := if w.cmd.pract then [] else piAll f (s.nsPi w.cmd.nsid) (s.nsAppTag w.cmd.nsid) w.cmd.slba w.cmd.initTag d
    s.toHost w.origin.queue d.length (.data w.origin.queue w.origin.cid w.lba f w.cmd.sglAddr w.cmd.sglKey d pi)

/-- When every block is at hand, end the command: a read sends its data, a Compare compares, a Verify
returns nothing. -/
def State.tryFinish (s : State) (inst seq : Nat) : State :=
  match s.waiting? inst seq with
  | none => s
  | some w =>
    if w.open_ && (List.range w.count).all fun k => w.got.has k then
      match w.cmd.op with
      | .read => (s.sendRead w).endWaiting w hsSuccess
      | .compare =>
        match w.hostBytes with
        | none => s
        | some b =>
          let f := s.nsLbaf w.cmd.nsid
          let d := if lbaf512 f then slice w.bytes ((w.cmd.slba - 8 * w.lba) * 512) (w.cmd.nlb * 512) else w.bytes
          s.endWaiting w (if d = b then hsSuccess else hsCompare)
      | _ => s.endWaiting w hsSuccess
    else s

/-- A block's bytes from below commit SRAM and staging arrive. -/
def State.deliver (s : State) (inst seq lba : Nat) (data : Bytes) : State :=
  match s.waiting? inst seq with
  | none => s
  | some w =>
    let k := lba - w.lba
    let d := match w.above.get? k with
      | some (m, o) => mergeSectors m o data
      | none => data
    (s.modWaiting inst seq fun w => { w with got := w.got.put k d }).tryFinish inst seq

/-- Build the class 0x1 Stitch of a block whose record is at hand. -/
def State.buildRead (s : State) (inst seq vol lba cid : Nat) (r : Rec) : State :=
  s.modRows fun t => { t with waiting := t.waiting ++
    [{ cls := 1, seq := seq, lba := lba, volume := vol, domain := r.domain, dict := r.dict, keySlot := 2 * r.domain + r.phase,
       stored := if r.cls = 15 then 4096 else 512 * r.cls, slotClass := r.cls, cid := cid, gen := r.gen, slot := r.slot,
       loc := r.addr, inst := inst, ready := false, asker := some (inst, seq) }] }

/-- Go on with a block of a released read from the map's entry for it. -/
def State.readEntry (s : State) (inst seq vol lba e : Nat) : State :=
  let lme := if lmeKind e = 3 then ((s.commit.staging.get? (lmeId e)).map (·.prior)).getD 0 else e
  if lmeKind lme ≠ 1 then s.deliver inst seq lba zeroBlock
  else
    let cid := lmeId lme
    match s.walk (cidInst cid) 2 0 (cidLeaf cid) with
    | .miss level ident loc => s.waitPage (cidInst cid) 2 level ident loc [] [.read inst seq lba]
    | .corrupt => s.ptrError.failRead inst seq
    | .lost => (s.errDefer 0x0C).failRead inst seq
    | _ =>
      match s.rawRec? cid with
      | some raw =>
        if s.recCorrupt cid raw (s.volHome vol) then s.recError.failRead inst seq
        else s.buildRead inst seq vol lba cid (recOf raw)
      | none => s.failRead inst seq

/-- Look a block of a released read up in the map. -/
def State.readMap (s : State) (inst seq vol lba : Nat) (fetched : Bool := false) : State :=
  match s.lookup vol lba (.read inst seq lba) fetched with
  | (s1, .entry e) => s1.readEntry inst seq vol lba e
  | (s1, .bad) => s1.failRead inst seq
  | (s1, .wait) => s1

/-- The versions a read takes a block from: the newest below it, and those beneath where it holds only some sectors. -/
def takenVersions : List Version → Nat → List Version
  | [], _ => []
  | v :: r, m => if m = 0xFF then [] else v :: takenVersions r (m ||| v.mask)

/-- Poison the versions of a block, in the ring and in staging, with given numbers. -/
def State.poisonVersions (s : State) (inst vol lba : Nat) (l : List Nat) : State :=
  s.modCommit fun c => { c with
    own := c.own.map fun e => if e.inst == inst && e.volume == vol && l.contains e.seq then
      { e with blocks := e.blocks.map fun b => if b.lba == lba then { b with poisoned := true } else b } else e
    staging := c.staging.map fun p => (p.1, if p.2.inst == inst && p.2.volume == vol && p.2.lba == lba && l.contains p.2.seq then
      { p.2 with poisoned := true } else p.2) }

/-- A carry guard does not check. -/
def State.countCarry (s : State) : State := (s.inc F.CMT_ERRS_GUARD_MISMATCH).raise F.CMT_ISR_GUARD

/-- Gather one block of a released read (R90). A version whose guard does not check, by its bytes or as the merge finds it
(`bad`), fails the read and is poisoned (R102). -/
def State.gatherBlock (s : State) (inst seq lba : Nat) (mismatch : Bool) : State :=
  match s.waiting? inst seq with
  | none => s
  | some w =>
    let k := lba - w.lba
    let (m, d, bad) := s.heldVersion inst w.volume lba seq
    let used := takenVersions (sortBy (fun a b => decide (b.seq ≤ a.seq)) (s.ringVersions inst w.volume lba seq ++ s.stagedVersions inst w.volume lba seq)) 0
    let broken := (if mismatch then used else used.filter fun v => !v.intact).map (·.seq)
    if !bad && !broken.isEmpty then (((s.countCarry).errDefer 0x10).poisonVersions inst w.volume lba broken).failRead inst seq
    else if bad then s.failRead inst seq
    else if m = 0xFF then (s.modWaiting inst seq fun w => { w with got := w.got.put k d }).tryFinish inst seq
    else
      let s1 := if m = 0 then s else s.modWaiting inst seq fun w => { w with above := w.above.put k (m, d) }
      s1.readMap inst seq w.volume lba

/-- Release a read: gather every block (R90); `bad` names those whose merge finds a bad guard. -/
def State.gather (s : State) (inst seq : Nat) (bad : List Nat) : State :=
  match s.waiting? inst seq with
  | none => s
  | some w =>
    let s1 := s.modWaiting inst seq fun w => { w with open_ := true }
    (List.range w.count).foldl (fun t k => t.gatherBlock inst seq (w.lba + k) (bad.contains k)) s1

/-- Has every lower-numbered overlapping write of a range settled (R90, R289)? -/
def State.settledBelow (s : State) (inst seq vol lba count : Nat) : Bool :=
  s.commit.interlock.all fun r =>
    !(r.inst == inst && decide (r.seq < seq) && overlaps r.volume r.lba r.count vol lba count) ||
      (match s.entry? r.inst r.seq with
       | some e => e.st == .complete || e.st == .aborted
       | none => !(s.commit.waiting.any fun w => w.inst == r.inst && w.seq == r.seq))

/-- A read that needs a superseded version which 65,535 reads before it pin waits (R91). -/
def State.pinsFull (s : State) (w : Waiting) : Bool :=
  s.commit.staging.any fun p =>
    p.2.superseded && s.needs w p.2 && decide (65535 ≤ (s.commit.waiting.filter fun x => s.needs x p.2 && (x.open_ || decide (x.seq < w.seq))).length)

end Sys2Proof.Machine
end

