-- ==== Sys2Proof/Machine/Crypto.lean ====
section
/-! DEFINITION. The ciphers and digests the spec names by their standards: AES-256 (FIPS 197), XTS (IEEE
1619), GCM (SP 800-38D), key wrap (SP 800-38F), SHA-256 and HMAC (FIPS 180-4, 198-1). Bytes are naturals
below 256 inside a computation. -/
namespace Sys2Proof.Machine

/-! ### AES-256 -/

/-- Multiplication modulo x^8 + x^4 + x^3 + x + 1. -/
def aesMulN : Nat → Nat → Nat → Nat
  | 0, _, _ => 0
  | n + 1, a, b =>
    (if b % 2 = 1 then a else 0) ^^^ aesMulN n (if 128 ≤ a then ((a * 2) ^^^ 0x11B) % 256 else a * 2) (b / 2)
def aesMul (a b : Nat) : Nat := aesMulN 8 a b

/-- The multiplicative inverse: x to the 254th. -/
def aesInv (x : Nat) : Nat :=
  let x2 := aesMul x x
  let x3 := aesMul x2 x
  let x6 := aesMul x3 x3
  let x12 := aesMul x6 x6
  let x15 := aesMul x12 x3
  let x30 := aesMul x15 x15
  let x60 := aesMul x30 x30
  let x120 := aesMul x60 x60
  let x126 := aesMul x120 x6
  let x127 := aesMul x126 x
  aesMul x127 x127

/-- Rotate a byte left. -/
def rotl8 (x n : Nat) : Nat := (x * 2 ^ n ||| x / 2 ^ (8 - n)) % 256

def aesSbox (x : Nat) : Nat :=
  let b := aesInv x
  b ^^^ rotl8 b 1 ^^^ rotl8 b 2 ^^^ rotl8 b 3 ^^^ rotl8 b 4 ^^^ 0x63
def aesSboxInv (y : Nat) : Nat := aesInv (rotl8 y 1 ^^^ rotl8 y 3 ^^^ rotl8 y 6 ^^^ 5)

def xorL (a b : List Nat) : List Nat := List.zipWith (· ^^^ ·) a b

/-- The key schedule, newest word first: n more words of the 60. -/
def aesExpand : Nat → Nat → List (List Nat) → List (List Nat)
  | 0, _, ws => ws
  | n + 1, i, ws =>
    let prev := ws.headD []
    let t :=
      if i % 8 = 0 then
        xorL ((prev.drop 1 ++ prev.take 1).map aesSbox) [2 ^ (i / 8 - 1), 0, 0, 0]
      else if i % 8 = 4 then prev.map aesSbox
      else prev
    aesExpand n (i + 1) (xorL (ws.getD 7 []) t :: ws)

/-- Cut a list into runs of n. -/
def chunks {α : Type} (n : Nat) : Nat → List α → List (List α)
  | 0, _ => []
  | k + 1, l => l.take n :: chunks n k (l.drop n)

/-- The fifteen round keys of a 32-byte key. -/
def aesRoundKeys (key : List Nat) : List (List Nat) :=
  let ws := (aesExpand 52 8 (chunks 4 8 key).reverse).reverse
  (chunks 4 15 ws).map List.flatten

/-- Row r of the state moves left by r. -/
def aesShiftRows (s : List Nat) : List Nat :=
  (List.range 16).map fun k => s.getD ((k + 4 * (k % 4)) % 16) 0
def aesShiftRowsInv (s : List Nat) : List Nat :=
  (List.range 16).map fun k => s.getD ((k + 16 - 4 * (k % 4)) % 16) 0

/-- One column times the circulant of c. -/
def aesMixCol (c : List Nat) (col : List Nat) : List Nat :=
  (List.range 4).map fun r =>
    (List.range 4).foldl (fun a k => a ^^^ aesMul (c.getD ((k + 4 - r) % 4) 0) (col.getD k 0)) 0
def aesMix (c s : List Nat) : List Nat := ((chunks 4 4 s).map (aesMixCol c)).flatten

/-- Encrypt one block under round keys. -/
def aesEncRk (rks : List (List Nat)) (b : List Nat) : List Nat :=
  let s0 := xorL b (rks.headD [])
  let s1 := ((rks.drop 1).take 13).foldl (fun s k => xorL (aesMix [2, 3, 1, 1] (aesShiftRows (s.map aesSbox))) k) s0
  xorL (aesShiftRows (s1.map aesSbox)) (rks.getD 14 [])

/-- Decrypt one block under round keys. -/
def aesDecRk (rks : List (List Nat)) (b : List Nat) : List Nat :=
  let s0 := xorL b (rks.getD 14 [])
  let s1 := ((rks.drop 1).take 13).reverse.foldl
    (fun s k => aesMix [14, 11, 13, 9] (xorL ((aesShiftRowsInv s).map aesSboxInv) k)) s0
  xorL ((aesShiftRowsInv s1).map aesSboxInv) (rks.headD [])

def natsOf (b : Bytes) : List Nat := b.map BitVec.toNat
def bytesOf (l : List Nat) : Bytes := l.map (BitVec.ofNat 8)

/-- Blocks of 16 bytes in a run of n. -/
def blocksOf (b : List Nat) : List (List Nat) := chunks 16 (ceilDiv b.length 16) b

/-- A number as n bytes, most significant first. -/
def beNats (n v : Nat) : List Nat := (natsOf (leBytes n v)).reverse
def beVal (l : List Nat) : Nat := l.foldl (fun a x => a * 256 + x) 0
def leNats (n v : Nat) : List Nat := natsOf (leBytes n v)
def leVal (l : List Nat) : Nat := l.foldr (fun x a => x + 256 * a) 0

/-! ### XTS (IEEE 1619) -/

/-- The tweak of the next block. -/
def xtsNext (t : Nat) : Nat := if 2 ^ 127 ≤ t then (t * 2 % 2 ^ 128) ^^^ 0x87 else t * 2

def xtsRun (f : List Nat → List Nat) : List (List Nat) → Nat → List Nat
  | [], _ => []
  | b :: r, t => xorL (f (xorL b (leNats 16 t))) (leNats 16 t) ++ xtsRun f r (xtsNext t)

/-- Encrypt a data unit of whole blocks under K1 then K2. -/
def xtsEnc (key : Bytes) (tweak : Nat) (d : Bytes) : Bytes :=
  let t := leVal (aesEncRk (aesRoundKeys (natsOf (key.drop 32))) (leNats 16 tweak))
  let rk := aesRoundKeys (natsOf (key.take 32))
  bytesOf (xtsRun (aesEncRk rk) (blocksOf (natsOf d)) t)

/-- Decrypt a data unit. -/
def xtsDec (key : Bytes) (tweak : Nat) (d : Bytes) : Bytes :=
  let t := leVal (aesEncRk (aesRoundKeys (natsOf (key.drop 32))) (leNats 16 tweak))
  let rk := aesRoundKeys (natsOf (key.take 32))
  bytesOf (xtsRun (aesDecRk rk) (blocksOf (natsOf d)) t)

/-- The tweak of a block (R353). -/
def xtsTweak (cid gen domain : Nat) : Nat := cid % 2 ^ 44 + gen % 256 * 2 ^ 44 + domain % 4096 * 2 ^ 52

/-- The guard mask of a block (R354). -/
def guardMask (key : Bytes) (tweak : Nat) : Nat :=
  leVal (aesEncRk (aesRoundKeys (natsOf (key.drop 32))) (leNats 16 (tweak + 2 ^ 127))) % 2 ^ 64

/-- The check value of a key (R351). -/
def keyCheck (key : Bytes) : Nat :=
  leVal ((aesEncRk (aesRoundKeys (natsOf (key.take 32))) (List.replicate 16 0)).take 2)

/-! ### GCM (SP 800-38D) -/

/-- Multiplication in GCM's field, blocks as big-endian numbers. -/
def ghashMulN : Nat → Nat → Nat → Nat
  | 0, _, _ => 0
  | n + 1, x, v =>
    (if 2 ^ 127 ≤ x % 2 ^ 128 then v else 0) ^^^
      ghashMulN n (x * 2 % 2 ^ 128) (if v % 2 = 1 then (v / 2) ^^^ (0xE1 * 2 ^ 120) else v / 2)
def ghashMul (x y : Nat) : Nat := ghashMulN 128 x y

/-- A block filled up with zeros. -/
def padBlock (b : List Nat) : List Nat := b ++ List.replicate (16 - b.length) 0

def ghash (h : Nat) (aad ct : List Nat) : Nat :=
  let bs := (blocksOf aad).map padBlock ++ (blocksOf ct).map padBlock ++ [beNats 8 (8 * aad.length) ++ beNats 8 (8 * ct.length)]
  bs.foldl (fun y b => ghashMul (y ^^^ beVal b) h) 0

/-- Counter-mode encryption from a counter block. -/
def gctr (rk : List (List Nat)) : List (List Nat) → Nat → List Nat
  | [], _ => []
  | b :: r, c => xorL b (aesEncRk rk (beNats 16 c)) ++ gctr rk r (c / 2 ^ 32 * 2 ^ 32 + (c + 1) % 2 ^ 32)

/-- The IV: the fixed field's four bytes as stored, then the invocation field (R356). -/
def gcmIv (fixed invocation : Nat) : Bytes := leBytes 4 fixed ++ leBytes 8 invocation

/-- Encrypt: the ciphertext and its 16-byte tag. -/
def gcmEnc (key iv aad pt : Bytes) : Bytes × Bytes :=
  let rk := aesRoundKeys (natsOf key)
  let j0 := beVal (natsOf iv) * 2 ^ 32 + 1
  let ct := gctr rk (blocksOf (natsOf pt)) (j0 + 1)
  let h := beVal (aesEncRk rk (List.replicate 16 0))
  (bytesOf ct, bytesOf (xorL (beNats 16 (ghash h (natsOf aad) ct)) (aesEncRk rk (beNats 16 j0))))

/-- Decrypt: the plaintext where the tag checks. -/
def gcmDec (key iv aad ct tag : Bytes) : Option Bytes :=
  let rk := aesRoundKeys (natsOf key)
  let j0 := beVal (natsOf iv) * 2 ^ 32 + 1
  let h := beVal (aesEncRk rk (List.replicate 16 0))
  let t := bytesOf (xorL (beNats 16 (ghash h (natsOf aad) (natsOf ct))) (aesEncRk rk (beNats 16 j0)))
  if t = tag then some (bytesOf (gctr rk (blocksOf (natsOf ct)) (j0 + 1))) else none

/-! ### Key wrap (KW, SP 800-38F) -/

/-- One pass over the semiblocks; t counts the steps. -/
def kwPass (rk : List (List Nat)) : List (List Nat) → Nat → List Nat → List Nat × List (List Nat)
  | [], _, a => (a, [])
  | r :: rs, t, a =>
    let b := aesEncRk rk (a ++ r)
    let (a', rs') := kwPass rk rs (t + 1) (xorL (b.take 8) (beNats 8 t))
    (a', b.drop 8 :: rs')

def kwRounds (rk : List (List Nat)) : Nat → Nat → List Nat × List (List Nat) → List Nat × List (List Nat)
  | 0, _, p => p
  | n + 1, j, p => kwRounds rk n (j + 1) (kwPass rk p.2 (p.2.length * j + 1) p.1)

/-- Wrap a key: the result is 8 bytes longer. -/
def keyWrap (kek key : Bytes) : Bytes :=
  let p := kwRounds (aesRoundKeys (natsOf kek)) 6 0 (List.replicate 8 0xA6, chunks 8 (key.length / 8) (natsOf key))
  bytesOf (p.1 ++ p.2.flatten)

/-- One pass backward, over the semiblocks in reverse order. -/
def kuPass (rk : List (List Nat)) : List (List Nat) → Nat → List Nat → List Nat × List (List Nat)
  | [], _, a => (a, [])
  | r :: rs, t, a =>
    let b := aesDecRk rk (xorL a (beNats 8 t) ++ r)
    let (a', rs') := kuPass rk rs (t - 1) (b.take 8)
    (a', b.drop 8 :: rs')

def kuRounds (rk : List (List Nat)) : Nat → List Nat × List (List Nat) → List Nat × List (List Nat)
  | 0, p => p
  | j + 1, p => kuRounds rk j (kuPass rk p.2 (p.2.length * (j + 1)) p.1)

/-- Unwrap: the key where the integrity check holds. -/
def keyUnwrap (kek wrapped : Bytes) : Option Bytes :=
  let w := natsOf wrapped
  let p := kuRounds (aesRoundKeys (natsOf kek)) 6 (w.take 8, (chunks 8 (w.length / 8 - 1) (w.drop 8)).reverse)
  if p.1 = List.replicate 8 0xA6 then some (bytesOf p.2.reverse.flatten) else none

/-! ### SHA-256 and HMAC -/

def shaK : List Nat :=
  [0x428a2f98, 0x71374491, 0xb5c0fbcf, 0xe9b5dba5, 0x3956c25b, 0x59f111f1, 0x923f82a4, 0xab1c5ed5] ++
  [0xd807aa98, 0x12835b01, 0x243185be, 0x550c7dc3, 0x72be5d74, 0x80deb1fe, 0x9bdc06a7, 0xc19bf174] ++
  [0xe49b69c1, 0xefbe4786, 0x0fc19dc6, 0x240ca1cc, 0x2de92c6f, 0x4a7484aa, 0x5cb0a9dc, 0x76f988da] ++
  [0x983e5152, 0xa831c66d, 0xb00327c8, 0xbf597fc7, 0xc6e00bf3, 0xd5a79147, 0x06ca6351, 0x14292967] ++
  [0x27b70a85, 0x2e1b2138, 0x4d2c6dfc, 0x53380d13, 0x650a7354, 0x766a0abb, 0x81c2c92e, 0x92722c85] ++
  [0xa2bfe8a1, 0xa81a664b, 0xc24b8b70, 0xc76c51a3, 0xd192e819, 0xd6990624, 0xf40e3585, 0x106aa070] ++
  [0x19a4c116, 0x1e376c08, 0x2748774c, 0x34b0bcb5, 0x391c0cb3, 0x4ed8aa4a, 0x5b9cca4f, 0x682e6ff3] ++
  [0x748f82ee, 0x78a5636f, 0x84c87814, 0x8cc70208, 0x90befffa, 0xa4506ceb, 0xbef9a3f7, 0xc67178f2]

def shaInit : List Nat :=
  [0x6a09e667, 0xbb67ae85, 0x3c6ef372, 0xa54ff53a, 0x510e527f, 0x9b05688c, 0x1f83d9ab, 0x5be0cd19]

def ror32 (x n : Nat) : Nat := x / 2 ^ n + x % 2 ^ n * 2 ^ (32 - n)

/-- The message schedule, newest word first. -/
def shaSchedule : Nat → List Nat → List Nat
  | 0, ws => ws
  | n + 1, ws =>
    let a := ws.getD 14 0
    let b := ws.getD 1 0
    let s0 := ror32 a 7 ^^^ ror32 a 18 ^^^ a / 8
    let s1 := ror32 b 17 ^^^ ror32 b 19 ^^^ b / 1024
    shaSchedule n ((ws.getD 15 0 + s0 + ws.getD 6 0 + s1) % 2 ^ 32 :: ws)

/-- One round on the eight working words. -/
def shaRound (v : List Nat) (kw : Nat × Nat) : List Nat :=
  match v with
  | [a, b, c, d, e, f, g, h] =>
    let s1 := ror32 e 6 ^^^ ror32 e 11 ^^^ ror32 e 25
    let ch := (e &&& f) ^^^ ((2 ^ 32 - 1 - e) &&& g)
    let t1 := h + s1 + ch + kw.1 + kw.2
    let s0 := ror32 a 2 ^^^ ror32 a 13 ^^^ ror32 a 22
    let maj := (a &&& b) ^^^ (a &&& c) ^^^ (b &&& c)
    [(t1 + s0 + maj) % 2 ^ 32, a, b, c, (d + t1) % 2 ^ 32, e, f, g]
  | v => v

def shaBlock (h : List Nat) (blk : List Nat) : List Nat :=
  let ws := (shaSchedule 48 ((chunks 4 16 blk).map beVal).reverse).reverse
  List.zipWith (fun x y => (x + y) % 2 ^ 32) h ((shaK.zip ws).foldl shaRound h)

/-- SHA-256. -/
def sha256 (m : Bytes) : Bytes :=
  let n := m.length
  let pad := natsOf m ++ [0x80] ++ List.replicate ((119 - n % 64) % 64) 0 ++ beNats 8 (8 * n)
  bytesOf (((chunks 64 (pad.length / 64) pad).foldl shaBlock shaInit).flatMap (beNats 4))

/-- HMAC-SHA-256 under a 32-byte key. -/
def hmacSha256 (key m : Bytes) : Bytes :=
  let k := natsOf key ++ List.replicate (64 - key.length) 0
  let inner := sha256 (bytesOf (k.map (· ^^^ 0x36)) ++ m)
  sha256 (bytesOf (k.map (· ^^^ 0x5C)) ++ inner)

end Sys2Proof.Machine
end

