-- ==== Sys2Proof/Machine/SecOps.lean ====
section
/-! DEFINITION. The key store and its usage limits (15), as the operations that commands share. -/
namespace Sys2Proof.Machine

def State.modSec (s : State) (f : SecSt → SecSt) : State := { s with sec := f s.sec }

/-- The kinds of key slot (R347). -/
inductive SlotKind where
  | xts | gcm | fingerprint | kek | none
  deriving DecidableEq, Repr

def slotKind (n : Nat) : SlotKind :=
  if n < 0x2000 then .xts
  else if n < 0x2400 then .gcm
  else if 0x3000 ≤ n ∧ n < 0x4000 then .fingerprint
  else if 0x4000 ≤ n ∧ n < 0x4010 then .kek
  else .none

/-- Key length of a kind. -/
def keyLen (n : Nat) : Nat := if slotKind n = .xts then 64 else 32

def State.slot? (s : State) (n : Nat) : Option KeySlot := s.sec.slots.get? n

/-- The state code of a slot: 0 EMPTY, 1 LOADED, 2 EXHAUSTED. -/
def State.slotState (s : State) (n : Nat) : Nat :=
  match s.slot? n with
  | none => 0
  | some k => if k.exhausted then 2 else 1

def State.loaded (s : State) (n : Nat) : Bool := s.slotState n == 1
def State.slotCount (s : State) (n : Nat) : Nat := (s.sec.counts.get? n).getD 0
def State.setCount (s : State) (n v : Nat) : State :=
  s.modSec fun k => { k with counts := if v = 0 then k.counts.del n else k.counts.put n v }
def State.encPhase (s : State) (d : Nat) : Nat := if s.sec.phases.contains d then 1 else 0
def State.setEncPhase (s : State) (d p : Nat) : State :=
  s.modSec fun k => { k with phases := (k.phases.filter fun x => x != d) ++ (if p = 1 then [d] else []) }
def State.setSlot (s : State) (n : Nat) (k : KeySlot) : State := s.modSec fun t => { t with slots := t.slots.put n k }

/-- The key of a slot, where one is loaded. -/
def State.keyOf (s : State) (n : Nat) : Option Bytes := (s.slot? n).map (·.key)

/-! ### Limits (R360, R361) -/

/-- The per-head limit of an XTS key: half the pair-wide one. -/
def State.xtsLimit (s : State) : Nat :=
  let n := s.fld F.SEC_CTRL_XTS_LIMIT_LOG2
  2 ^ ((if 0x20 ≤ n ∧ n ≤ 0x28 then n else 0x28) - 1)

/-- Record a limit event. -/
def State.limitEvent (s : State) (kind slot : Nat) (isr : Fld) : State :=
  (((s.setFld F.SEC_LIMIT_LAST_KIND kind).setFld F.SEC_LIMIT_LAST_SLOT slot)).raise isr

/-- Count one use of a slot against a limit: LIMIT_NEAR at 15/16 of it. -/
def State.countUse (s : State) (n limit : Nat) : State :=
  let c := s.slotCount n + 1
  let s1 := s.setCount n c
  if c = limit / 16 * 15 then s1.limitEvent 1 n F.SEC_ISR_LIMIT_NEAR else s1

def State.exhaust (s : State) (n : Nat) : State :=
  match s.slot? n with
  | some k => (s.setSlot n { k with exhausted := true }).limitEvent 2 n F.SEC_ISR_EXHAUSTED
  | none => s

/-- The XTS key slot a class 0x0 or 0x6 Stitch of a domain takes at admission (R361): none where the
domain has no usable one. -/
def State.takeXts (s : State) (d : Nat) : State × Option Nat :=
  let p := s.encPhase d
  let n := 2 * d + p
  let s1 := if s.xtsLimit - 2048 ≤ s.slotCount n ∧ s.slotState n = 1 then
      let t := s.exhaust n
      if t.loaded (2 * d + (1 - p)) then (t.setEncPhase d (1 - p)).raise F.SEC_ISR_PHASE_FLIP else t
    else s
  let n1 := 2 * d + s1.encPhase d
  if s1.loaded n1 then (s1.countUse n1 s.xtsLimit, some n1) else (s1.raise F.SEC_ISR_REKEY_NEEDED, none)

/-- The key slot of a class 0x8 Stitch: the domain's phase even where it is EXHAUSTED (R362). -/
def State.takeXtsHoldup (s : State) (d : Nat) : State × Nat :=
  let n := 2 * d + s.encPhase d
  let s1 := s.countUse n s.xtsLimit
  (if s.slotState n = 2 then (s1.setFld F.SEC_LIMIT_LAST_KIND 3).setFld F.SEC_LIMIT_LAST_SLOT n else s1, n)

/-- Count one invocation of a GCM slot, by its offset (R359, R360): EXHAUSTED at its limit. -/
def State.useGcm (s : State) (off : Nat) : State :=
  let n := 0x2000 + off
  match s.slot? n with
  | none => s
  | some k =>
    let limit := 2 ^ (if 0x20 ≤ k.limLog2 ∧ k.limLog2 ≤ 0x30 then k.limLog2 else 0x30)
    let s1 := s.countUse n limit
    if limit ≤ s1.slotCount n ∧ !k.exhausted then s1.exhaust n else s1

/-- Count a GCM authentication failure (R357, R358). -/
def State.authFail (s : State) : State := (s.inc F.SEC_AUTH_FAILS_GCM).raise F.SEC_ISR_AUTH_FAIL

/-! ### Dual compute (R369) -/

/-- The three pools that can run in dual compute: fingerprint 0, XTS 3, GCM 4 (R103). -/
def dualFld (pool : Nat) : Option Fld :=
  match pool with
  | 0 => some F.SEC_DUAL_FP_DUAL
  | 3 => some F.SEC_DUAL_XTS_DUAL
  | 4 => some F.SEC_DUAL_GCM_DUAL
  | _ => none

/-- An engine of a pool reported a corrected error or was retired: DUAL_TURNS of dual compute. -/
def State.startDual (s : State) (pool : Nat) : State :=
  match dualFld pool with
  | none => s
  | some f =>
    let until_ := s.turn + max 1 (s.fld F.SEC_CTRL_DUAL_TURNS)
    (s.modSec fun k => { k with dualUntil := k.dualUntil.put pool until_ }).setFld f 1

/-! ### Key command results (R350) -/

def keyRes : Nat := 0x500020

/-- Write SEC_KEY_RESULT. -/
def State.keyAnswer (s : State) (slot code : Nat) : State :=
  let ph := if slotKind slot = .xts then s.encPhase (slot / 2) else 0
  (s.resDone keyRes
    [(F.SEC_KEY_RESULT_STATE, s.slotState slot), (F.SEC_KEY_RESULT_PHASE, ph), (F.SEC_KEY_RESULT_CODE, code)]).raise F.SEC_ISR_KEY_DONE

/-- A key command completes: its result, the slot's usage, and SEC_KEY_WORD_n cleared. -/
def State.keyDone (s : State) (slot code : Nat) : State :=
  let s1 := (List.range 16).foldl (fun t n => t.setFld (F.SEC_KEY_WORD_KEY n) 0) s
  ((s1.setPair F.SEC_KEY_USAGE_LO_COUNT F.SEC_KEY_USAGE_HI_COUNT (s.slotCount slot)).setFld F.SEC_KEY_CMD_BUSY 0).keyAnswer slot code

/-! ### Zeroisation (R365) -/

/-- Overwrite every slot, SEC_KEY_WORD_n and the DRBG state; counts and phases stay. A CLEAR that waits ends
with code 0x8 (R366). -/
def State.zeroiseKeys (s : State) : State :=
  let s1 := s.modSec fun k => { k with slots := [], zeroised := true, clearing := none, generates := 0, sentInv := 0, gotInv := 0 }
  let s2 := (List.range 16).foldl (fun t n => t.setFld (F.SEC_KEY_WORD_KEY n) 0) s1
  match s.sec.clearing with
  | some slot => s2.keyDone slot 8
  | none => s2

end Sys2Proof.Machine
end

