-- ==== Sys2Proof/Machine/UnitOps.lean ====
section
/-! DEFINITION. Background debt and the choice of work for one slot of a unit, a Row stage's dispatcher or
a die arbiter (08). -/
namespace Sys2Proof.Machine

/-- The units by number: a Row stage, a die arbiter. -/
def unitStage (row type : Nat) : Nat := row * 16 + type
def unitDie (m die : Nat) : Nat := 0x1000 + m * 256 + die

/-- CREDIT and DEBT_CAP with their substitutions. -/
def State.credit (s : State) (b : Nat) : Int := min 0x7FFF (s.fld (F.FTL_BG_CREDIT_CREDIT b))
def State.debtCap (s : State) (b : Nat) : Int := min 0x7FFF (s.fld (F.FTL_BG_CREDIT_DEBT_CAP b))

def debtKey (b unit : Nat) : Nat := b * 2 ^ 20 + unit
def State.debt (s : State) (b unit : Nat) : Int := (s.ftl.debts.get? (debtKey b unit)).getD 0
def State.setDebt (s : State) (b unit : Nat) (v : Int) : State :=
  s.modFtl fun t => { t with debts := if v = 0 then t.debts.del (debtKey b unit) else t.debts.put (debtKey b unit) v }

/-- The debt arithmetic of a turn boundary (R213). -/
def debtAtTurn (debt credit cap : Int) (waiting : Bool) : Int :=
  if waiting then min (debt + credit) cap else min debt 0

/-- The debt after a slot is given (R213). -/
def debtAfterSlot (debt cap : Int) : Int := max (debt - 1) (-cap)

/-- SHARE in force at a unit: the greatest of the instances the head holds (log entry 23). -/
def State.shareNow (s : State) : Nat :=
  max (if s.holds 0 then s.fld (F.FTL_BG_STATUS_SHARE 0) else 0) (if s.holds 1 then s.fld (F.FTL_BG_STATUS_SHARE 1) else 0)

/-- What a slot serves. -/
inductive SlotFor where
  | holdup
  | foreground
  | budget (b : Nat)
  deriving DecidableEq, Repr

/-- The budget of greatest debt among those with work, the lower code on a tie. -/
def State.greatestDebt (s : State) (unit : Nat) : List Nat → Option Nat
  | [] => none
  | b :: r => match s.greatestDebt unit r with
    | none => some b
    | some c => some (if s.debt b unit < s.debt c unit then c else b)

/-- The choice of R215 for one slot: `bg` lists the budgets that have work, in rising order. -/
def State.slotChoice (s : State) (unit : Nat) (holdup fg : Bool) (bg : List Nat) : Option SlotFor :=
  let (w, r) := (s.ftl.windows.get? unit).getD (0, 0)
  if holdup then some .holdup
  else if bg.contains 0 && decide (r * 256 < s.shareNow * (w + 1)) then some (.budget 0)
  else if w % 16 == 15 && bg.any fun b => decide (0 < s.debt b unit) then
    (s.greatestDebt unit (bg.filter fun b => decide (0 < s.debt b unit))).map .budget
  else if fg then some .foreground
  else (s.greatestDebt unit bg).map .budget

/-- Account for a slot given: the window moves on, reclaim slots and the budget's debt are counted. Debts
are frozen during hold-up. -/
def State.slotGiven (s : State) (unit : Nat) (c : SlotFor) : State :=
  let (w, r) := (s.ftl.windows.get? unit).getD (0, 0)
  let r1 := if c = .budget 0 then r + 1 else r
  let s1 := s.modFtl fun t => { t with windows := t.windows.put unit (if w = 255 then (0, 0) else (w + 1, r1)) }
  match c with
  | .budget b => if s.rows.holdup then s1 else s1.setDebt b unit (debtAfterSlot (s.debt b unit) (s.debtCap b))
  | _ => s1

end Sys2Proof.Machine
end

