-- ==== Sys2Proof/Machine/RowsOps.lean ====
section
/-! DEFINITION. Rows, Stitches, dispatch, handoff, retirement and engine faults (04), as the operations
that commands share. -/
namespace Sys2Proof.Machine

/-! ### Stages and classes (R103, R105, R106) -/

def stGD : Nat := 0x1
def stLDH : Nat := 0x2
def stLDS : Nat := 0x3
def stXTD : Nat := 0x4
def stDC : Nat := 0x5
def stMT : Nat := 0x6
def stFP : Nat := 0x7
def stDX : Nat := 0x8
def stCP : Nat := 0x9
def stXTE : Nat := 0xA
def stGE : Nat := 0xB
def stRS : Nat := 0xC

/-- The pool that serves a stage type; DX and MT have none. -/
def stagePool (type : Nat) : Option Nat :=
  match type with
  | 0x1 | 0xB => some 4
  | 0x2 => some 6
  | 0x3 => some 7
  | 0x4 | 0xA => some 3
  | 0x5 => some 2
  | 0x7 => some 0
  | 0x9 => some 1
  | 0xC => some 5
  | _ => none

/-- The stages of a class, in order. -/
def classPath (c : Nat) : List Nat :=
  match c with
  | 0 => [stFP, stDX, stCP, stXTE, stRS]
  | 1 => [stLDH, stLDS, stXTD, stDC]
  | 2 | 3 => [stLDH, stLDS, stRS]
  | 4 => [stLDH, stLDS, stXTD, stDC, stFP, stDX]
  | 5 => [stLDH, stLDS, stXTD, stGE]
  | 6 => [stGD, stDC, stFP, stDX, stCP, stXTE, stRS]
  | 8 => [stCP, stXTE, stRS]
  | _ => []

/-- The stages a Row must have for a class: all but MT (R107). -/
def classNeeds (c : Nat) : List Nat := classPath c

def classValid (c : Nat) : Bool := decide (c ≤ 6) || c == 8
def isBackground (c : Nat) : Bool := c == 2 || c == 3 || c == 4
/-- Classes with a reserve of 1,024 buffers (R110). -/
def isReserved (c : Nat) : Bool := c == 0 || c == 1 || c == 8

/-- The stages a Stitch passes, LDS apart (R106, R108). -/
def State.pathOf (s : State) (t : Stitch) : List Nat :=
  let p := (classPath t.cls).filter fun k =>
    k != stLDS && !((k == stFP || k == stDX) && (bit t.flags 0 || !s.flag F.DDP_CTRL_ENABLE)) &&
    !((k == stLDH || k == stXTD) && bit t.flags 8)
  if t.mt.isSome then
    (p.filter fun k => decide (k < stMT)) ++ [stMT] ++ (p.filter fun k => decide (stMT < k))
  else p

/-- The stage after one of a Stitch's stages. A lookup that has ended is not made again when FP runs again (log entry 161). -/
def State.nextStage (s : State) (t : Stitch) (cur : Nat) : Option Nat :=
  (s.pathOf t).find? fun k => decide (cur < k) && !(k == stDX && bit t.done (stDX - 1))

/-! ### Rows -/

/-- Has a stage that works with engines none left (R117)? -/
def RowSt.lacksEngine (r : RowSt) : Bool := r.stages.any fun g => (stagePool g.type).isSome && g.active.isEmpty

def State.rowOf (s : State) (n : Nat) : Option RowSt := s.pattern.rows[n]?
def State.modRow (s : State) (n : Nat) (f : RowSt → RowSt) : State :=
  { s with pattern := { s.pattern with rows := s.pattern.rows.modify n f } }
def State.stageOf (s : State) (n type : Nat) : Option RowStage :=
  (s.rowOf n).bind fun r => r.stages.find? fun g => g.type == type
def State.modStage (s : State) (n type : Nat) (f : RowStage → RowStage) : State :=
  s.modRow n fun r => { r with stages := r.stages.map fun g => if g.type == type then f g else g }

/-- Write a Row's queue and engine counts into its registers. -/
def State.refreshRow (s : State) (n : Nat) : State :=
  match s.rowOf n with
  | none => s
  | some r =>
    let full := ((r.stages.zipIdx).map fun p => if 64 ≤ p.1.queue.length then 2 ^ p.2 else 0).foldl (· + ·) 0
    (r.stages.zipIdx).foldl (fun t p => t.setFld (F.ROW_N_STAGE_ACTIVE n p.2) p.1.active.length)
      (s.setFld (F.ROW_N_INFLIGHT_QUEUE_FULL n) full)

def State.stitch? (s : State) (sid : Nat) : Option Stitch := s.rows.stitches.get? sid
def State.putStitch (s : State) (sid : Nat) (t : Stitch) : State := s.modRows fun r => { r with stitches := r.stitches.put sid t }
def State.modStitch (s : State) (sid : Nat) (f : Stitch → Stitch) : State :=
  s.modRows fun r => { r with stitches := r.stitches.modify sid f }

/-! ### Dispatch (R113) -/

/-- The budget of a background class. -/
def classBudget (c : Nat) : Nat := c - 2

/-- The first ready Stitch of a queue that a choice serves. -/
def State.pickFor (s : State) (ready : List Nat) (c : SlotFor) : Option Nat :=
  let cls (sid : Nat) : Nat := ((s.stitch? sid).map (·.cls)).getD 0
  match c with
  | .holdup => ready.find? fun i => cls i == 8
  | .foreground => ready.find? fun i => !isBackground (cls i) && cls i != 8
  | .budget b => ready.find? fun i => isBackground (cls i) && classBudget (cls i) == b

/-- Does a stage type give its Stitches a unit of their own: an engine, or at DX the dedup index unit, which serves one
lookup of the stage at a time (log entry 174)? MT hands its blocks to the slot. -/
def stageServed (type : Nat) : Bool := (stagePool type).isSome || type == stDX

/-- The units of a stage. -/
def RowStage.units (g : RowStage) : List Nat := if g.type = stDX then [0] else g.active

/-- A stage's effective engines: half its ACTIVE ones, rounded down, in dual compute (R369). -/
def State.engineCount (s : State) (g : RowStage) : Nat :=
  if g.type = stDX then 1 else
  match (stagePool g.type).bind dualFld with
  | some f => if s.flag f then g.active.length / 2 else g.active.length
  | none => g.active.length

/-- May an engine take a Stitch: not one it is to avoid, unless every engine of the stage is? -/
def State.mayTake (s : State) (g : RowStage) (sid e : Nat) : Bool :=
  (s.stitch? sid).all fun t => !t.avoid.contains (g.type, e) || g.units.all fun x => t.avoid.contains (g.type, x)

/-- Can a queued Stitch be dispatched: its input is at hand, and a content id where it waits for one (R179)? -/
def State.canRun (s : State) (sid : Nat) : Bool :=
  (s.stitch? sid).any fun t => t.ready && (t.waitsCid.isNone || (s.takeCid t.inst).isSome)

/-- The dictionary that a domain maps to, and whether it is ACTIVE and of that domain (R149). -/
def State.mappedDict (s : State) (domain : Nat) : Nat × Bool :=
  let d := s.rdBits (s.cmpBase + 2 * domain) 9 0
  (d, d != 0 && s.rdN (s.dictAddr d) 1 == 1 && s.rdN (s.dictAddr d + 2) 2 % 4096 == domain)

/-- An engine takes a Stitch; CP's reads its domain map entry then. -/
def State.takeUp (s : State) (type e sid : Nat) : State :=
  s.modStitch sid fun t => { t with engine := some e, cpDict := if type = stCP then s.mappedDict t.domain else t.cpDict }

/-- Dispatch one Stitch to the engine idle longest, where a stage has both. -/
def State.dispatchOne (s : State) (n type : Nat) : Option State :=
  match s.stageOf n type with
  | none => none
  | some g =>
    if !stageServed type || decide (s.engineCount g ≤ g.busy.length) then none
    else
      let idle := g.units.filter fun e => !(g.busy.any fun b => b.1 == e)
      let ready := g.queue.filter fun i => s.canRun i && idle.any (s.mayTake g i)
      let cls := ready.map fun i => ((s.stitch? i).map (·.cls)).getD 0
      let unit := unitStage n type
      match s.slotChoice unit (cls.contains 8) (cls.any fun c => !isBackground c && c != 8)
          ((List.range 3).filter fun b => cls.contains (b + 2)) with
      | none => none
      | some c =>
        match s.pickFor ready c with
        | none => none
        | some sid =>
          let e := (idle.find? (s.mayTake g sid)).getD 0
          some (((s.slotGiven unit c).modStage n type fun g =>
            { g with queue := g.queue.erase sid, busy := g.busy ++ [(e, sid)] }).takeUp type e sid)

def State.dispatchN : Nat → Nat → Nat → State → State
  | 0, _, _, s => s
  | k + 1, n, type, s => match s.dispatchOne n type with
    | some t => State.dispatchN k n type t
    | none => s

/-- Dispatch a stage as far as it goes. -/
def State.dispatch (s : State) (n type : Nat) : State := State.dispatchN 64 n type s

/-! ### Content ids at a stage's entry (R126) -/

/-- Give a Stitch a new content id: PENDING with one reference. -/
def State.newContent (s : State) (sid : Nat) : State :=
  match s.stitch? sid with
  | none => s
  | some t =>
    match s.takeCid t.inst with
    | none => s
    | some (cid, gen, s1) =>
      (s1.setRec cid (newRec (gen + 1) (fold16 t.guard) t.domain).toNat).modStitch sid fun t =>
        { t with cid := cid, gen := (gen + 1) % 256 }

/-! ### Movement through a Row -/

/-- Enter the queue of a stage; a Stitch that bypassed DX takes its content id on entering the stage after. -/
def State.enterStage (s : State) (sid n type : Nat) (front : Bool) : State :=
  let s1 := (s.modStitch sid fun t => { t with stage := type, engine := none, held := false }).modStage n type fun g =>
    { g with queue := if front then sid :: g.queue else g.queue ++ [sid] }
  match s.stitch? sid with
  | some t =>
    if decide (stDX < type) && t.cid == 0 && (t.cls == 0 || t.cls == 6 || t.cls == 8) then s1.newContent sid else s1
  | none => s1

/-- Free a Stitch's engine: it becomes the one idle shortest. -/
def State.freeEngine (s : State) (sid : Nat) : State :=
  match s.stitch? sid with
  | none => s
  | some t =>
    (s.modStage t.row t.stage fun g =>
      match g.busy.find? fun b => b.2 == sid with
      | some b => { g with busy := g.busy.filter (fun x => x.2 != sid), active := (g.active.erase b.1) ++ (if g.active.contains b.1 then [b.1] else []) }
      | none => { g with queue := g.queue.erase sid }).modStitch sid fun t => { t with engine := none }

/-- Take a Stitch out of the Rows: its buffers are free, and its source learns its outcome. -/
def State.retire (s : State) (sid status errStage : Nat) : State :=
  match s.stitch? sid with
  | none => s
  | some t =>
    let n := t.row
    let s1 := s.freeEngine sid
    let s2 := s1.modRows fun r => { r with
      stitches := r.stitches.del sid, buffers := r.buffers + 2,
      retired := r.retired ++ [(sid, { t with status := status, errStage := errStage, engine := none })] }
    let s3 := s2.setFld (F.ROW_N_INFLIGHT_INFLIGHT n) (s.fld (F.ROW_N_INFLIGHT_INFLIGHT n) - 1)
    s3.count64 (F.ROW_N_RETIRED_LO_COUNT_LO n) (F.ROW_N_RETIRED_HI_COUNT_HI n) (F.ROW_N_RETIRED_WRAPS_WRAPS n)

/-- A Stitch ends poisoned (R115). -/
def State.poisonStitch (s : State) (sid : Nat) : State :=
  match s.stitch? sid with
  | none => s
  | some t => (s.modStitch sid fun t => { t with flags := t.flags ||| 0x20 }).retire sid 4 t.stage

/-- Would a Stitch take a content id on entering a stage, with none to be had (R126, R179)? -/
def State.lacksCid (s : State) (t : Stitch) (type : Nat) : Bool :=
  decide (stDX < type) && t.cid == 0 && (t.cls == 0 || t.cls == 6 || t.cls == 8) && (s.takeCid t.inst).isNone

/-- Hand a finished Stitch to the queue of a next stage, where it has room; else its engine holds it. -/
def State.handTo (s : State) (sid next : Nat) : State :=
  match s.stitch? sid with
  | none => s
  | some t =>
    match s.stageOf t.row next with
    | none => s.retire sid 1 0
    | some g =>
      if 64 ≤ g.queue.length then s.modStitch sid fun t => { t with held := true }
      else if s.lacksCid t next then (s.modStitch sid fun t => { t with held := true }).raise F.FTL_ISR_CID_EXHAUSTED
      else
        let prod := if t.stage = stDX then t.producer else t.engine.map fun e => (t.stage, e)
        let (b, s0) := s.free 12
        let s1 := (s0.freeEngine sid).modStitch sid fun t => { t with bufIn := t.bufOut, bufOut := b, producer := prod, tried := 0 }
        s1.enterStage sid t.row next false

/-- A stage of a Stitch's class has finished: DONE is set, and it goes on or retires with STATUS 0x01. -/
def State.finishStage (s : State) (sid : Nat) : State :=
  match s.stitch? sid with
  | none => s
  | some t =>
    let s1 := s.modStitch sid fun t => { t with done := t.done ||| 2 ^ (t.stage - 1) }
    match s.nextStage t t.stage with
    | some k => s1.handTo sid k
    | none => s1.retire sid 1 0

/-- Hand on the Stitches whose engines hold them, where the next queue has room now. -/
def State.advanceHeld (s : State) : State :=
  (s.rows.stitches.filter fun p => p.2.held).foldl (fun u p =>
    match u.stitch? p.1 with
    | some t => match (if t.stage == stLDH && t.softStage == 1 then some stLDS else u.nextStage t t.stage) with
      | some k => u.handTo p.1 k
      | none => u
    | none => u) s

/-- Dispatch every stage of every Row, and refresh the Rows' registers. -/
def State.dispatchAll (s : State) : State :=
  (List.range s.pattern.rows.length).foldl (fun t n =>
    match t.rowOf n with
    | some r => (r.stages.foldl (fun u g => u.dispatch n g.type) t).refreshRow n
    | none => t) s

/-- Let the Rows settle: what is held moves up as queues empty, stage by stage. -/
def State.settleRows (s : State) : State :=
  (List.range 12).foldl (fun t _ => t.advanceHeld.dispatchAll) s.dispatchAll

/-! ### The repair record (R442) -/

def State.addRepair (s : State) (kind source unit failed spare : Nat) : State :=
  let n := s.fld F.RPR_REC_COUNT_COUNT
  let a := s.base F.RPR_REC_BASE_LO_ADDR F.RPR_REC_BASE_HI_ADDR 14 + n % 1024 * 16
  ((s.wr a (leBytes 1 kind ++ leBytes 1 source ++ leBytes 2 unit ++ leBytes 2 failed ++ leBytes 2 spare ++ leBytes 8 s.stamp)).wrapInc
    F.RPR_REC_COUNT_COUNT).raise F.RPR_ISR_REPAIRED

/-! ### Engine faults and spares (R116, R117) -/

def State.engine (s : State) (pool e : Nat) : Engine :=
  (s.rows.engines.get? (pool * 256 + e)).getD { state := if e < poolActive pool then 0 else 1, faults := [] }
def State.setEngine (s : State) (pool e : Nat) (x : Engine) : State :=
  s.modRows fun r => { r with engines := r.engines.put (pool * 256 + e) x }

/-- The engine that works in an engine's place: itself while it is in service, none with no spare for it. -/
def State.standIn (s : State) (pool : Nat) : Nat → Nat → Option Nat
  | 0, _ => none
  | n + 1, e =>
    if (s.engine pool e).state = 0 then some e
    else match s.rows.subs.get? (pool * 256 + e) with
      | some x => s.standIn pool n x
      | none => none

def State.setSub (s : State) (pool e spare : Nat) : State := s.modRows fun r => { r with subs := r.subs.put (pool * 256 + e) spare }

/-- Does an engine stand in a stage, under its own name or another's? -/
def State.standsIn (s : State) (pool e : Nat) (g : RowStage) : Bool :=
  stagePool g.type == some pool && g.named.any fun x => s.standIn pool 16 x == some e

/-- The Row and the stage type in which an engine works. -/
def State.stageFor (s : State) (pool e : Nat) : Option (Nat × Nat) :=
  (List.range s.pattern.rows.length).findSome? fun n =>
    ((s.rowOf n).bind fun r => r.stages.find? (s.standsIn pool e)).map fun g => (n, g.type)

/-- FAULT_LIMIT with its substitution. -/
def State.faultLimit (s : State) : Nat := max 1 (s.fld F.ROW_CTRL_FAULT_LIMIT)

/-- The classes without a Row that admits them. -/
def State.lostClasses (s : State) : List Nat :=
  [0, 1, 2, 3, 4, 5, 6, 8].filter fun c => !(s.pattern.rows.any fun r => r.classes.contains c && !r.stalled)

/-- A stage runs below its named count; with no engine left its Row admits no more, and a class left with
no Row is a FATAL error. -/
def State.stageShort (s : State) (n type : Nat) : State :=
  let s1 := s.raise F.ROW_ISR_POOL_SHORT
  match s1.stageOf n type with
  | some g =>
    if g.active.isEmpty then
      let s2 := s1.modRow n fun r => { r with stalled := true }
      if s2.lostClasses.any fun c => !s1.lostClasses.contains c then (s2.raise F.ROW_ISR_CLASS_LOST).errFatal 0x09 else s2
    else s1
  | none => s1

/-- The lowest spare of a pool. -/
def State.spareOf (s : State) (pool : Nat) : Option Nat :=
  (List.range (poolActive pool + poolSpares pool)).find? fun e => decide (poolActive pool ≤ e) && (s.engine pool e).state == 1

/-- Bring a spare of a pool under test in an engine's place, the one named or the lowest, or run short; no repair starts
in hold-up (R444). -/
def State.callSpare (s : State) (pool failed n type source : Nat) (named : Option Nat) : State :=
  match (if s.rows.holdup then none else named.orElse fun _ => s.spareOf pool) with
  | some e =>
    let s1 := s.setEngine pool e { s.engine pool e with state := 2 }
    (s1.modRows fun r => { r with testing := r.testing ++ [{ pool := pool, engine := e, failed := failed, row := n, stage := type }] }).addRepair
      2 source pool failed e
  | none => s.stageShort n type

/-- Take back what a stage has done to a Stitch that its engine still holds: its input is the one retained. -/
def Stitch.backToInput (t : Stitch) : Stitch :=
  if t.held then { t with data := t.kept, headers := t.keptHeaders, engine := none, held := false } else { t with engine := none }

/-- Retire an engine: its Stitch goes back to the head of its stage's queue with its retained input (R116). `source` is
the SOURCE of the repair, and `named` the spare a repair names. -/
def State.retireEngine (s : State) (pool e n type source : Nat) (named : Option Nat) : State :=
  let held := ((s.stageOf n type).map fun g => (g.busy.filter fun b => b.1 == e).map (·.2)).getD []
  let s1 := s.setEngine pool e { s.engine pool e with state := 3 }
  let s2 := s1.modStage n type fun g =>
    { g with active := g.active.erase e, busy := g.busy.filter (fun b => b.1 != e), queue := held ++ g.queue }
  let s3 := held.foldl (fun t sid => t.modStitch sid Stitch.backToInput) s2
  let s4 := ((s3.setFld (F.ROW_POOL_ACTIVE pool) (s.fld (F.ROW_POOL_ACTIVE pool) - 1)).inc (F.ROW_POOL_RETIRED pool)).raise F.ROW_ISR_ENGINE_RETIRED
  (s4.startDual pool).callSpare pool e n type source named

/-- Count a fault of an engine: its last fault is recorded, and it is retired at the first uncorrectable
one or at FAULT_LIMIT within 1,024 turns; one already retired is not retired again. -/
def State.engineFault (s : State) (pool e n type kind : Nat) : State :=
  let x := s.engine pool e
  let l := (x.faults.filter fun t => decide (s.turn < t + 1024)) ++ [s.turn]
  let s1 := ((((s.setEngine pool e { x with faults := l }).setFld F.ROW_FAULT_LAST_KIND kind).setFld F.ROW_FAULT_LAST_POOL pool).setFld
    F.ROW_FAULT_LAST_ENGINE e).setFld F.ROW_FAULT_LAST_ROW n
  let s2 := if kind = 2 then s1.startDual pool else s1
  if x.state = 0 ∧ (kind = 3 ∨ s.faultLimit ≤ l.length) then s2.retireEngine pool e n type 3 none else s2

/-- A fault of the engine of a stage type of a Row. -/
def State.stageFault (s : State) (n type e kind : Nat) : State :=
  match stagePool type with
  | some p => s.engineFault p e n type kind
  | none => s

/-- Re-execute a Stitch's stage: it goes to the head of a stage's queue, RETRIES rises by the number of stages that run
again, and the engine it leaves does not take it again at its stage. -/
def State.rerun (s : State) (sid type stages : Nat) : State :=
  match s.stitch? sid with
  | none => s
  | some t =>
    ((s.freeEngine sid).modStitch sid fun t =>
      { t with retries := min 255 (t.retries + stages), tried := t.tried + 1,
               avoid := t.avoid ++ (t.engine.map fun e => (t.stage, e)).toList }).enterStage sid t.row type true

def State.reexecute (s : State) (sid type : Nat) : State := s.rerun sid type 1

/-! ### Guards between stages (R115) -/

def State.countGuard (s : State) : State := (s.inc F.ROW_ERRS_GUARD_MISMATCH).raise F.ROW_ISR_GUARD
def State.countHop (s : State) : State := (s.inc F.ROW_ERRS_HOP_MISMATCH).raise F.ROW_ISR_GUARD

/-- The producing stage runs again on another engine from its retained input; a second failure poisons. -/
def State.redoProducer (s : State) (sid : Nat) : State :=
  match s.stitch? sid with
  | none => s
  | some t =>
    match t.producer with
    | none => s.poisonStitch sid
    | some (type, e) =>
      if t.redone = t.stage then (s.stageFault t.row type e 1).poisonStitch sid
      else
        let s1 := s.stageFault t.row type e 1
        (s1.modStitch sid fun t => { t with data := t.kept, headers := t.keptHeaders, redone := t.stage, avoid := t.avoid ++ [(type, e)] }).reexecute sid type

/-- Ask the partner for a mirrored version over channel 0x8, while fewer than 64 requests are out (R80):
none where it cannot be asked. The token names what waits: the requests' own number. -/
def State.refetch (s : State) (seq lba vol block key : Nat) : Option State :=
  if s.solo || !s.efmoUp || decide (64 ≤ s.commit.refetch.length) then none
  else
    let tok := s.commit.token
    some ((s.modCommit fun c => { c with token := (tok + 1) % 0x10000, refetch := c.refetch.put tok (key, seq, lba) }).send
      (.efmoRefetch { seq := seq, lba := lba, volume := vol, block := block, status := 0, token := tok }))

/-- A Stitch's refetch key; ring blocks use even keys. -/
def refetchStitch (sid : Nat) : Nat := 2 * sid + 1

/-- The first plaintext stage of a class 0x0 or 0x8 Stitch found a bad carry guard: the staging slot is read
again, then the block is asked of the partner, then it is poisoned. -/
def State.rereadInput (s : State) (sid : Nat) : State :=
  match s.stitch? sid with
  | none => s
  | some t =>
    if t.rereads = 0 then
      let d := ((s.commit.staging.get? t.staging).map (·.data)).getD t.data
      (s.modStitch sid fun t => { t with data := d, rereads := 1 }).reexecute sid t.stage
    else if t.rereads = 1 then
      match s.refetch t.seq t.lba t.volume (((s.commit.staging.get? t.staging).map (·.index)).getD 0) (refetchStitch sid) with
      | some s1 => (s1.modStitch sid fun t => { t with ready := false, rereads := 2 }).reexecute sid t.stage
      | none => s.poisonStitch sid
    else s.poisonStitch sid

/-- Is a stage the first plaintext stage of a class 0x0 or 0x8 Stitch? -/
def State.firstPlain (s : State) (t : Stitch) : Bool :=
  (t.cls == 0 || t.cls == 8) && (s.pathOf t).head? == some t.stage

/-- A mismatch under dual compute (R369). -/
def State.dualMismatch (s : State) : State := (s.inc F.SEC_DUAL_MISMATCH).raise F.SEC_ISR_DUAL_MISMATCH

/-- Run a stage on a Stitch: what its engine found decides whether `work` makes its output. A
cryptographic stage after zeroisation ends the Stitch (R366). -/
def State.runStage (s : State) (sid type : Nat) (chk : StageCheck) (work : State → Stitch → State) : State :=
  match s.stitch? sid with
  | none => s
  | some t =>
    if t.stage ≠ type ∨ t.held ∨ !t.ready ∨ (stageServed type ∧ t.engine.isNone) then s
    else if s.sec.zeroised && [stGD, stXTD, stFP, stXTE, stGE].contains type then s.retire sid 4 type
    else
      let e := t.engine.getD 0
      match chk with
      | .good => work s t
      | .hopBad => s.countHop.redoProducer sid
      | .guardBad => if s.firstPlain t then s.countGuard.rereadInput sid else s.countGuard.redoProducer sid
      | .corrected => (s.stageFault t.row type e 2).reexecute sid type
      | .uncorrected => (s.stageFault t.row type e 3).reexecute sid type
      | .roundTripBad =>
        let s1 := s.countHop.stageFault t.row type e 1
        if 2 ≤ t.trips then s1.poisonStitch sid else (s1.modStitch sid fun t => { t with trips := t.trips + 1 }).reexecute sid type
      | .dualMajority odd => work (s.dualMismatch.stageFault t.row type odd 1) t
      | .dualNone => s.dualMismatch.retire sid 4 type

/-- Set a Stitch's output: the input is kept, and HOP_CRC covers the output. -/
def State.setOutput (s : State) (sid : Nat) (data headers : Bytes) : State :=
  s.modStitch sid fun t => { t with kept := t.data, keptHeaders := t.headers, data := data, headers := headers, hop := crc32c data }

end Sys2Proof.Machine
end

