-- ==== Sys2Proof/Machine/Ecdsa.lean ====
section
/-! DEFINITION. ECDSA verification on the curve P-384 (FIPS 186-5), which R48 names without laying it down (log entry 171). -/
namespace Sys2Proof.Machine

/-! ### The curve -/

def p384 : Nat := 0xfffffffffffffffffffffffffffffffffffffffffffffffffffffffffffffffeffffffff0000000000000000ffffffff
/-- The order of the base point. -/
def n384 : Nat := 0xffffffffffffffffffffffffffffffffffffffffffffffffc7634d81f4372ddf581a0db248b0a77aecec196accc52973
def b384 : Nat := 0xb3312fa7e23ee7e4988e056be3f82d19181d9c6efe8141120314088f5013875ac656398d8a2ed19d2a85c8edd3ec2aef
def gx384 : Nat := 0xaa87ca22be8b05378eb1c71ef320ad746e1d3b628ba79b9859f741e082542a385502f25dbf55296c3a545e3872760ab7
def gy384 : Nat := 0x3617de4a96262c6f5d9e98bf9292dc29f8f41dbd289a147ce9da3113b5f0b8c00a60b1ce1d7e819d7a431d7c90ea0e5f

/-- A power modulo m, over the lowest k bits of the exponent. -/
def powMod (m : Nat) : Nat → Nat → Nat → Nat → Nat
  | 0, _, _, acc => acc
  | k + 1, b, e, acc => powMod m k (b * b % m) (e / 2) (if e % 2 = 1 then acc * b % m else acc)

/-- The inverse modulo a prime of 384 bits. -/
def invMod (m x : Nat) : Nat := powMod m 384 (x % m) (m - 2) 1

/-- A point in Jacobian coordinates: x / z², y / z³; z = 0 at infinity. -/
abbrev JPoint := Nat × Nat × Nat

/-- The difference of two residues. -/
def subP (a b : Nat) : Nat := (a + p384 - b) % p384

def jacDouble (q : JPoint) : JPoint :=
  let d := q.2.2 * q.2.2 % p384
  let g := q.2.1 * q.2.1 % p384
  let bt := q.1 * g % p384
  let al := 3 * (subP q.1 d * (q.1 + d)) % p384
  let x := subP (al * al % p384) (8 * bt % p384)
  let y := subP (al * subP (4 * bt % p384) x % p384) (8 * (g * g) % p384)
  (x, y, 2 * (q.2.1 * q.2.2) % p384)

def jacAdd (q r : JPoint) : JPoint :=
  if q.2.2 = 0 then r
  else if r.2.2 = 0 then q
  else
    let zq := q.2.2 * q.2.2 % p384
    let zr := r.2.2 * r.2.2 % p384
    let u1 := q.1 * zr % p384
    let u2 := r.1 * zq % p384
    let s1 := q.2.1 * (r.2.2 * zr % p384) % p384
    let s2 := r.2.1 * (q.2.2 * zq % p384) % p384
    if u1 = u2 then (if s1 = s2 then jacDouble q else (1, 1, 0))
    else
      let h := subP u2 u1
      let w := subP s2 s1
      let hh := h * h % p384
      let h3 := hh * h % p384
      let v := u1 * hh % p384
      let x := subP (subP (w * w % p384) h3) (2 * v % p384)
      (x, subP (w * subP v x % p384) (s1 * h3 % p384), h * (q.2.2 * r.2.2 % p384) % p384)

/-- a·P + b·Q over the lowest k bits of both factors, with P + Q at hand. -/
def jacMul2 (a b : Nat) (p q pq : JPoint) : Nat → JPoint → JPoint
  | 0, acc => acc
  | k + 1, acc =>
    let d := jacDouble acc
    jacMul2 a b p q pq k (if a / 2 ^ k % 2 = 1 then (if b / 2 ^ k % 2 = 1 then jacAdd d pq else jacAdd d p)
      else if b / 2 ^ k % 2 = 1 then jacAdd d q else d)

/-- Does a signature (r, s) of a digest verify under the public key (x, y)? -/
def ecdsaOk (x y r s digest : Nat) : Bool :=
  decide (x < p384) && decide (y < p384) && decide (y * y % p384 = (x * x * x + (p384 - 3) * x + b384) % p384) &&
  decide (0 < r) && decide (r < n384) && decide (0 < s) && decide (s < n384) &&
  (let w := invMod n384 s
   let g : JPoint := (gx384, gy384, 1)
   let q : JPoint := (x, y, 1)
   let t := jacMul2 (digest * w % n384) (r * w % n384) g q (jacAdd g q) 384 (1, 1, 0)
   let iz := invMod p384 t.2.2
   t.2.2 != 0 && t.1 * (iz * iz % p384) % p384 % n384 == r)

/-- The number that bytes spell, highest byte first. -/
def beNat (b : Bytes) : Nat := b.foldl (fun a x => 256 * a + x.toNat) 0

end Sys2Proof.Machine
end

