-- ==== Sys2Proof/Machine/ImageBytes.lean ====
section
/-! DEFINITION. An image's header, section table, compatibility section and signature block as they lie in its bytes
(02, 19). -/
namespace Sys2Proof
open Machine

/-- A little-endian field of an image. -/
def Image.field (g : Image) (off n : Nat) : Nat := leNat (slice g.bytes off n)

/-! ### The header (R45) -/

def Image.magic (g : Image) : Nat := g.field 0x00 4
def Image.format (g : Image) : Nat := g.field 0x04 2
def Image.headerSize (g : Image) : Nat := g.field 0x06 2
def Image.part (g : Image) : Nat := g.field 0x08 2
def Image.stepping (g : Image) : Nat := g.field 0x0A 1
def Image.cls (g : Image) : Nat := g.field 0x0B 1
def Image.length (g : Image) : Nat := g.field 0x0C 4
def Image.version (g : Image) : Nat := g.field 0x10 4
def Image.secEpoch (g : Image) : Nat := g.field 0x14 2
def Image.sectionCount (g : Image) : Nat := g.field 0x16 2
def Image.dieId (g : Image) : Nat := g.field 0x18 8
def Image.baseVersion (g : Image) : Nat := g.field 0x20 4
def Image.flags (g : Image) : Nat := g.field 0x24 4

/-! ### The section table and the compatibility section (R47, R425) -/

/-- The compatibility section at an offset. -/
def Image.compatAt (g : Image) (off : Nat) : Compat :=
  let n (k : Nat) : Nat := g.field (off + k) 2
  { level := n 0x00, peerMin := n 0x02, bridgeMin := n 0x04, bridgeMax := n 0x06, stateFmt := n 0x08, stateReadMin := n 0x0A,
    metaFmt := n 0x0C, metaReadMin := n 0x0E, reserved := g.field (off + 0x10) 16 }

/-- An entry of the section table with what the head decodes of its body. -/
def Image.sectionAt (g : Image) (k : Nat) : ImageSection :=
  let a := 0x100 + 16 * k
  { type := g.field a 2, format := g.field (a + 2) 2, off := g.field (a + 4) 4, len := g.field (a + 8) 4, reserved := g.field (a + 0xC) 4,
    body := (g.bodies[k]?).getD .undecodable }

def Image.sections (g : Image) : List ImageSection := (List.range g.sectionCount).map g.sectionAt

/-- The compatibility section of an image. -/
def Machine.compatOf (g : Image) : Option Compat := (g.sections.find? fun c => c.type == 0x100).map fun c => g.compatAt c.off

/-! ### The signature block (R48) -/

/-- A field of the signature block, the last 208 bytes. -/
def Image.signed (g : Image) (off n : Nat) : Bytes := slice g.bytes (g.length - 208 + off) n

def Image.keyIndex (g : Image) : Nat := leNat (g.signed 0 1)
/-- The SHA-256 of the signer's public key. -/
def Image.keyHash (g : Image) : Bytes := sha256 (g.signed 0x10 96)
/-- Does the signature verify? The numbers stand highest byte first, and the digest is taken as one (log entry 171). -/
def Image.sigOk (g : Image) : Bool :=
  ecdsaOk (beNat (g.signed 0x10 48)) (beNat (g.signed 0x40 48)) (beNat (g.signed 0x70 48)) (beNat (g.signed 0xA0 48))
    (beNat (sha256 (g.bytes.take (g.length - 208))))

end Sys2Proof
end

