-- ==== Sys2Proof/Machine/UpdateOps.lean ====
section
/-! DEFINITION. Live update (19): the holds of a handover step, its results and its end; operations that commands share. -/
namespace Sys2Proof.Machine

/-! ### Interrupt routes (R472, R473) -/

/-- The sources whose route is not at its reset value. -/
def State.routedSources (s : State) : List Nat :=
  ((s.cells.filter fun p => decide (0x1A01000 * 8 ≤ p.1) && decide (p.1 < 0x1A01E00 * 8)).map fun p => p.1 / 32 - 0x1A01000 / 4).eraseDups

/-- Every SHADOW becomes its ACTIVE in one cycle. -/
def State.swapRoutes (s : State) : State :=
  s.routedSources.foldl (fun t k => t.setFld (F.IRQ_ROUTE_ACTIVE k) (s.fld (F.IRQ_ROUTE_SHADOW k))) s

/-- Do held sources of a block stand asserted? -/
def State.heldIn (s : State) (b : Nat) : List Nat := ((isrRegs b).flatMap s.assertedAt).filter fun k => s.sourceHeld (32 * b + k)

/-- The hold of R473 ends, with the swap or without: what was held is delivered. -/
def State.endIrqHold (s : State) (swap : Bool) : State :=
  if !s.flag F.IRQ_SWAP_HOLDING then s
  else
    let due := (List.range 28).flatMap fun b => (s.heldIn b).map fun _ => b
    let s1 := s.setFld F.IRQ_SWAP_HOLDING 0
    due.foldl (fun t b => t.record 4 0 (b + 2 ^ 32 * t.rawReg (isrOff b))) (if swap then s1.swapRoutes else s1)

/-! ### Fetch holds (R424, R428) -/

/-- Is command fetch held: a function move or a delta's section is under way? -/
def State.fetchHeld (s : State) : Bool := (s.upd.step.any fun x => x.cls == 4) || (s.repat.running && s.headState == stHandover)

/-- P of R428, in ns. -/
def State.pauseNs (s : State) : Nat := 1000 * max 4 (min 0x14 (s.fld F.UPD_CTRL_PAUSE_US))

/-- A step that held fetch for so many ns has ended. -/
def State.noteHold (s : State) (ns : Nat) : State :=
  (s.inc F.UPD_PAUSE_STEPS).setFld F.UPD_PAUSE_MAX_NS (min 0xFFFF (max ns (s.fld F.UPD_PAUSE_MAX_NS)))

/-! ### Commands and results -/

def updRes : Nat := 0x1700018

/-- The phases of an update. -/
def phIdle : Nat := 0
def phStaged : Nat := 1
def phUpdating : Nat := 2
def phUnconfirmed : Nat := 3
def phFrogging : Nat := 4
def phFrogged : Nat := 5

def State.phase (s : State) : Nat := s.fld F.UPD_STATUS_PHASE
def State.setPhase (s : State) (p : Nat) : State := s.setFld F.UPD_STATUS_PHASE p

/-- START of UPD_CMD. -/
def State.updStart (s : State) (op cls arg : Nat) (run : State → State) : State :=
  s.startWith [(F.UPD_CMD_OP, op), (F.UPD_CMD_CLASS, cls), (F.UPD_CMD_ARG, arg)] (s.flag F.UPD_CMD_BUSY) fun t =>
    run ((t.resStart updRes).setFld F.UPD_CMD_BUSY 1)

/-- A command of UPD_CMD completes. -/
def State.updDone (s : State) (code : Nat) : State :=
  ((s.resDone updRes [(F.UPD_RESULT_CODE, code)]).setFld F.UPD_CMD_BUSY 0).raise F.UPD_ISR_CMD_DONE

/-- A command completes with a code other than 0 that the spec does not state. -/
def State.updFails (s : State) : State :=
  let (v, t) := s.free 8
  t.updDone (1 + v % 10)

/-- Count a result 0x4: twice for one step and the frog is advised (R429). -/
def State.countFail (s : State) (x : UpdStep) : State :=
  let n := (s.upd.fails.get? (256 * x.cls + x.arg)).getD 0 + 1
  let s1 := ((s.inc F.UPD_STATUS_STEP_FAILS).raise F.UPD_ISR_STEP_FAIL).modUpd fun u => { u with fails := u.fails.put (256 * x.cls + x.arg) n }
  if 2 ≤ n ∧ !s1.flag F.UPD_STATUS_FROG_ADVISED then (s1.setFld F.UPD_STATUS_FROG_ADVISED 1).raise F.UPD_ISR_FROG_ADVISED else s1

/-- A step begins (R424): the head is in HANDOVER, for a function move sources are held (R473). -/
def State.stepBegin (s : State) (x : UpdStep) : State :=
  let s1 := ((s.modUpd fun u => { u with step := some x }).setFld F.UPD_STATUS_CLASS x.cls).setFlag F.IRQ_SWAP_HOLDING (x.cls == 4)
  let s2 := if s1.phase = phFrogging then s1 else s1.setPhase phUpdating
  if s2.playing then s2.setHead stHandover else s2

/-- A step ends with a code after `held` ns; `swap` says that its new routes stand (R428, R429). -/
def State.stepEnd (s : State) (x : UpdStep) (code held : Nat) (swap : Bool) : State :=
  let s1 := (s.endIrqHold swap).modUpd fun u => { u with step := none }
  let s2 := if x.cls = 4 then s1.noteHold held else s1
  let s3 := if x.cls = 5 then s2.modRow x.arg (fun r => { r with stalled := r.lacksEngine }) else s2
  let s4 := if s3.headState = stHandover then s3.setHead stPlaying else s3
  let s5 := if code = 4 then s4.countFail x else s4
  s5.updDone code

/-- The partner is gone, or hold-up is confirmed, in a step: it is abandoned within P (R430). -/
def State.stepAbandon (s : State) (suspend : Bool) : State :=
  match s.upd.step with
  | none => s
  | some x =>
    let (v, s1) := s.free 16
    let s2 := s1.stepEnd x 0xA (v % (s.pauseNs + 1)) false
    if suspend then (s2.setFld F.UPD_STATUS_SUSPENDED 1).raise F.UPD_ISR_SUSPENDED else s2

/-- The step ends with the head (R430). -/
def State.stepDies (s : State) : State :=
  match s.upd.step with
  | none => s
  | some _ => ((s.modUpd fun u => { u with step := none }).setFld F.UPD_CMD_BUSY 0).setFld F.IRQ_SWAP_HOLDING 0

/-! ### Classes changed and reversed (R424, R433, R436) -/

/-- The leaders of the slot groups. -/
def State.leaders (s : State) : List Nat :=
  (List.range 8).filter fun k => (s.pattern.motif.find? fun g => g.contains k).all fun g => g.headD k == k

/-- Clusters that run the new image. -/
def State.newClusters (s : State) : Nat := s.fld F.UPD_STATUS_NEW_CLUSTERS

/-- Has a class completed its steps? Classes 1 and 2 have none here; one bridge at least has a class 7 image. -/
def State.classDone (s : State) (c : Nat) : Bool :=
  if c = 3 then s.upd.referee
  else if c = 4 then s.newClusters == 15 && s.upd.away.isEmpty
  else if c = 5 then (List.range s.pattern.rows.length).all s.upd.rows.contains
  else if c = 6 then s.leaders.all s.upd.groups.contains
  else if c = 7 then !s.upd.mods.isEmpty
  else true

/-- Is no part of a class on the new image any more? -/
def State.classBack (s : State) (c : Nat) : Bool :=
  if c = 3 then !s.upd.referee
  else if c = 4 then s.newClusters == 0 && s.upd.away.isEmpty
  else if c = 5 then s.upd.rows.isEmpty
  else if c = 6 then s.upd.groups.isEmpty
  else if c = 7 then s.upd.mods.isEmpty
  else true

/-- The LEVEL and PEER_MIN of the head firmware that runs. -/
def State.ownLevel (s : State) : State :=
  let c := (s.boot.run.get? 4).bind compatOf
  (s.setFld F.UPD_LEVEL_OWN ((c.map (·.level)).getD 0)).setFld F.UPD_PEER_MIN_OWN ((c.map (·.peerMin)).getD 0)

/-- An image runs as a whole: its version, and for head firmware its level, are reported. -/
def State.nowRuns (s : State) (c : Nat) (g : Option Image) (version : Nat) : State :=
  let s1 := s.modBoot fun b => { b with run := match g with | some x => b.run.put c x | none => b.run.del c }
  let s2 := if c = 7 then s1 else s1.setFld (F.UPD_RUN_VERSION_VERSION c) version
  if c = 4 then s2.ownLevel else s2

/-- The phase after a step: every staged class complete, or every changed class back. -/
def State.settlePhase (s : State) (c : Nat) : State :=
  if s.phase = phFrogging then
    let s1 := if s.classBack c then s.nowRuns c (s.upd.old.get? c) ((s.upd.oldVer.get? c).getD 0) else s
    if s1.upd.oldVer.all fun p => s1.classBack p.1 then (s1.setPhase phFrogged).setFld F.UPD_STATUS_SUSPENDED 0 else s1
  else
    let s1 := match s.classDone c, s.upd.staged.get? c with
      | true, some g => s.nowRuns c (some g) g.version
      | _, _ => s
    s1.setPhase (if s1.upd.staged.all fun p => s1.classDone p.1 then phUnconfirmed else phUpdating)

/-- What a completed step has changed (R424, R428); in a frog it is reversed. -/
def State.stepEffect (s : State) (x : UpdStep) : State :=
  let frog := s.phase == phFrogging
  let mark (l : List Nat) (k : Nat) : List Nat := if frog then l.filter (fun y => y != k) else (k :: l).eraseDups
  let k := x.arg % 4
  if x.cls = 3 then s.modUpd fun u => { u with referee := !frog, bankKept := true }
  else if x.cls = 4 then
    if 128 ≤ x.arg then s.modUpd fun u => { u with away := u.away.filter fun y => y != k }
    else
      let n := s.newClusters - (if bit s.newClusters k then 2 ^ k else 0)
      (s.setFld F.UPD_STATUS_NEW_CLUSTERS (if frog then n else n + 2 ^ k)).modUpd fun u => { u with away := k :: u.away }
  else if x.cls = 5 then s.modUpd fun u => { u with rows := mark u.rows x.arg }
  else if x.cls = 6 then s.modUpd fun u => { u with groups := mark u.groups x.arg }
  else s.modUpd fun u => { u with mods := mark u.mods x.arg }

/-- A step completes with code 0. -/
def State.stepGood (s : State) (x : UpdStep) (held : Nat) : State :=
  let s1 := (s.stepEffect x).modUpd fun u => { u with lastStep := some s.turn }
  (s1.settlePhase x.cls).stepEnd x 0 held true

/-- A module is SERVING again: a bridge's restart that the head waits for has ended (R435). -/
def State.bridgeBack (s : State) (m : Nat) : State :=
  match s.upd.step with
  | some x =>
    if x.cls = 7 ∧ x.arg = m then
      let v := (s.port m).page.map (·.fwVersion)
      if v.isSome ∧ v = (s.upd.staged.get? 7).map (·.version) then s.stepGood x 0 else s.stepEnd x 4 0 false
    else s
  | none => s

/-- A Row's step ends once the Row has drained (R63, R424). -/
def State.updRowOn (s : State) : State :=
  match s.upd.step with
  | some x => if x.cls = 5 ∧ !(s.rows.stitches.vals.any fun t => t.row == x.arg) then s.stepGood x 0 else s
  | none => s

end Sys2Proof.Machine
end

