-- ==== Sys2Proof/Machine/PairOps.lean ====
section
/-! DEFINITION. FORFEIT, zeroisation and the security alarm (01, 15); operations that commands share. -/
namespace Sys2Proof.Machine

/-! ### Zeroisation and alarms (R364-R367) -/

/-- The stages whose engines work with keys. -/
def cryptoStages : List Nat := [stGD, stXTD, stFP, stXTE, stGE]

/-- End the Stitches in a cryptographic stage with STATUS 0x04 (R366). -/
def State.stopCrypto (s : State) : State :=
  (s.rows.stitches.filter fun p => cryptoStages.contains p.2.stage).foldl (fun t p => t.retire p.1 4 p.2.stage) s

/-- Zeroise the key store within the bounds of R365. -/
def State.zeroise (s : State) : State := ((s.stopCrypto.zeroiseKeys).raise F.SEC_ISR_ALARM).errFatal 0x05

/-- Bits of SEC_ALARM_MASK that always read 1. -/
def alarmAlways : Nat := 0xD8

/-- An alarm source fires (R364): where its mask bit is 1 it is latched and logged, and the head zeroises;
in hold-up the flush stops (R367). -/
def State.alarm (s : State) (b : Nat) : State :=
  if !bit (s.fld F.SEC_ALARM_MASK_SOURCES ||| alarmAlways) b then s
  else
    let st := s.fld F.SEC_ALARM_STATUS_SOURCES ||| 2 ^ b
    let s1 := (s.setFld F.SEC_ALARM_STATUS_SOURCES st).logEvent 4 0x05 0 st
    let s2 := if 2 ≤ s.ctl.hold.phase then s1.modHold fun h => { h with stopped := true } else s1
    s2.zeroise

/-! ### FORFEIT (R27-R29) -/

/-- The cause recorded for a forfeit (R29). -/
def forfeitCause (c : Nat) : Nat := if 0x09 ≤ c ∧ c ≤ 0x7F then 0x08 else c

/-- A port's link is down. -/
def State.linkDown (s : State) (p : Nat) : State :=
  let s1 := (((s.setFld (F.ETH_PORT_STATUS_UP p) 0).setFld (F.ETH_PORT_STATUS_FEC_LOCK p) 0).setFld (F.ETH_PORT_STATUS_AN_DONE p) 0).setFld
    (F.ETH_PORT_STATUS_SPEED p) 0
  if s.flag (F.ETH_PORT_STATUS_UP p) then s1.raise F.ETH_ISR_LINK_DOWN else s1

/-- Take the front-end links down. -/
def State.portsDown (s : State) : State :=
  (List.range 16).foldl State.linkDown { s with pins := { s.pins with portsOn := false } }

/-- Stop the fatal timer (R475). -/
def State.stopFatalTimer (s : State) : State := (s.setFld F.IRQ_FATAL_TIMER_RUNNING 0).setFld F.IRQ_FATAL_TIMER_LEFT_NS 0

/-- Enter FORFEIT with a cause (R27, R401, R456, R475): FORFEIT_N low, ports down, Purl and Efmo silent,
TURN released, the key store zeroised, the replay ring frozen, the fatal timer stopped. -/
def State.forfeit (s : State) (cause : Nat) : State :=
  if !s.pins.powered || s.headState == stForfeit then s
  else
    let s1 := (s.setFld F.GLB_FORFEIT_LAST_CAUSE (forfeitCause cause)).logEvent 2 0x00 0 (forfeitCause cause)
    let s2 := { (s1.setHead stForfeit).portsDown.trnStop with
      pins := { (s1.setHead stForfeit).portsDown.trnStop.pins with forfeitOut := false } }
    (s2.zeroise.stopFatalTimer.stepDies).setFld F.RPJ_CTRL_FREEZE 1

end Sys2Proof.Machine
end

