-- ==== Sys2Proof/Machine/SnpOps.lean ====
section
/-! DEFINITION. Cuts, sweeps, deltas and replication links (11), as the operations that commands share. -/
namespace Sys2Proof.Machine

/-! ### Cuts (R266-R270) -/

def snpCutRes : Nat := 0x1B00040
def snpCmdRes : Nat := 0x1B0002C

/-- The volumes of a set that this head cuts, with their snapshots. -/
def State.cutsHeld (s : State) (c : CutSet) : List (Nat × Nat) := c.cuts.filter fun k => s.holds (s.volHome k.1)

/-- Bits of a generation entry's upper half (R260). -/
def State.sweptVol (s : State) (v : Nat) : Bool := bit (s.genBits v) 0
def State.setSwept (s : State) (v : Nat) : State := s.setGenBits v (s.genBits v ||| 1)

/-- Write a snapshot entry as PENDING (R264, R266). -/
def State.pendSnapshot (s : State) (v k : Nat) : State :=
  let a := s.snapAddr k
  let s1 := ((s.wr a (zeros 24)).wrN (a + 0x18) 2 v).wrN (a + 0x1A) 1 (4 + 2 * s.volHome v)
  ((s1.wrN (a + 0x1B) 1 (s.volDepth v)).wrN (a + 0x1C) 4 (s.genOf v)).setArmed v true

/-- Free a snapshot entry that is PENDING. -/
def State.freeSnapshot (s : State) (k : Nat) : State :=
  if bit (s.snapFlags k) 2 then s.wrN (s.snapAddr k + 0x1A) 1 (s.snapFlags k &&& 2) else s

/-- Is an index free? -/
def State.snapFree (s : State) (k : Nat) : Bool := s.snapFlags k &&& 5 == 0

/-- Release the installs held for volumes, in the order they fell due (R267). -/
def State.releaseInstalls (s : State) (vols : List Nat) : State :=
  let mine (r : JRec) : Bool := match r with
    | .mapEntry v _ _ _ => vols.contains v
    | _ => false
  let l := s.snp.held.filter fun h => mine h.2.2
  let s1 := s.modSnp fun x => { x with held := x.held.filter fun h => !mine h.2.2 }
  l.foldl (fun t h => match h.2.2 with
    | .mapEntry v lba lme seq =>
      if lmeKind lme = 3 then
        (if (t.commit.staging.get? (lmeId lme)).any fun g => g.volume == v && g.lba == lba && g.seq == seq then t.install v lba lme seq else t)
      else t.applyOwn h.1 h.2.1 h.2.2
    | _ => t) s1

/-- Send the completions held under R268 for volumes. -/
def State.releaseGuarded (s : State) (vols : List Nat) : State :=
  let l := s.snp.guarded.filter fun d => vols.contains d.volume
  (s.modSnp fun x => { x with guarded := x.guarded.filter fun d => !vols.contains d.volume }).modCommit fun c => { c with due := c.due ++ l }

/-- Volumes of a set end their cut with a code: SNP_CUT_RESULT, their holds undone; the entries of a cut that failed are
freed. -/
def State.cutEnd (s : State) (c : CutSet) (vols : List (Nat × Nat)) (code : Nat) : State :=
  let s2 := vols.foldl (fun t k => (if code = 0 then t else t.freeSnapshot k.2).setArmed k.1 false) s
  let names := vols.map (·.1)
  let s3 := (s2.releaseInstalls names).releaseGuarded names
  let i := ((vols.head?).map fun k => s.volHome k.1).getD s.headId
  let s4 := (s3.setPair F.SNP_CUT_SEQ_LO_S_CUT F.SNP_CUT_SEQ_HI_S_CUT (ofInst c.sCut i)).resDone snpCutRes
    [(F.SNP_CUT_RESULT_CODE, code), (F.SNP_CUT_RESULT_SET, c.id)]
  s4.raise (if code = 0 then F.SNP_ISR_CUT_DONE else F.SNP_ISR_CUT_FAILED)

/-- A set is over at this head: none of its volumes is ARMED here. The entries of volumes it does not hold stay as they are:
their own head cuts them (log entry 187). -/
def State.dropSet (s : State) (c : CutSet) : State :=
  c.cuts.foldl (fun t k => t.setArmed k.1 false) (s.modSnp fun x => { x with sets := x.sets.filter fun d => d != c })

/-- A set ends with a code. -/
def State.cutDone (s : State) (c : CutSet) (vols : List (Nat × Nat)) (code : Nat) : State := (s.dropSet c).cutEnd c vols code

/-- Is every version at or below S_cut of a volume installed and hardened (R267 step 3)? -/
def State.cutSettled (s : State) (c : CutSet) (v : Nat) : Bool :=
  let i := s.volHome v
  let n := ofInst c.sCut i
  !(s.commit.own.any fun e => e.inst == i && e.volume == v && decide (e.seq ≤ n) && e.st != .aborted) &&
  !(s.commit.staging.vals.any fun g => g.inst == i && g.volume == v && decide (g.seq ≤ n) && g.st != .hardened) &&
  !(s.commit.interlock.any fun r => r.inst == i && r.volume == v && decide (r.seq ≤ n)) &&
  !((s.map.fetches ++ s.map.misses).any fun f => f.ops.any fun o => match o with
    | .entry w _ _ _ _ => w == v
    | _ => false) && !(s.map.splits.any fun r => r.volume == v && !r.ops.isEmpty)

/-- Is every page of a volume's tree on flash, its pointer change hardened (step 4)? -/
def State.cutWritten (s : State) (v : Nat) : Bool :=
  let i := s.volHome v
  !(s.map.pages.any fun p => p.inst == i && p.tree == 1 && p.ident / 2 ^ 34 == v && (p.dirty || p.wb != .none)) &&
  !((s.jnl i).groups.any fun g => g.recs.any fun r => match r with
    | .pointer 0xFFFF id _ => id == v
    | .pointer _ ident _ => bits ident 56 53 == 1 && bits ident 49 0 / 2 ^ 34 == v
    | _ => false) && ptrKind (s.volRoot v) != 2

/-- Journal the POINTER records of the snapshot roots of one instance (step 5). -/
def State.journalRoots (s : State) (c : CutSet) (i : Nat) : State × Nat :=
  let l := (s.cutsHeld c).filter fun k => s.volHome k.1 == i
  if l.isEmpty then (s, 0)
  else (s.buildGroup i (l.map fun k => .pointer 0xFFFE k.2 (s.volRoot k.1)), s.nextJseq i)

/-- Sets whose POINTER records have hardened end with code 0. -/
def State.sealFinish (s : State) : State :=
  (s.snp.sets.filter fun c => c.phase == 2 && decide (c.jseq.1 ≤ s.hardened 0) && decide (c.jseq.2 ≤ s.hardened 1)).foldl
    (fun t c => t.cutDone c (t.cutsHeld c) 0) s

/-- A head that takes its partner over ends the cuts of the partner's volumes past the edge whose step 5 no mirrored group
shows with code 0x4; its own volumes' cuts go on (R270). -/
def State.abandonCuts (s : State) (inst : Nat) : State :=
  (s.snp.sets.filter fun c => decide (1 ≤ c.phase)).foldl (fun t c =>
    let rest := c.cuts.filter fun k => t.volHome k.1 != inst
    let left := c.cuts.filter fun k => t.volHome k.1 == inst && bit (t.snapFlags k.2) 2
    let t1 := if rest.isEmpty then t.dropSet c
      else t.modSnp fun x => { x with sets := x.sets.map fun d => if d == c then { d with cuts := rest } else d }
    if left.isEmpty then t1 else t1.cutEnd c left 4) s

/-- The snapshot entries of an instance that are PENDING. -/
def State.pendingSnaps (s : State) (i : Nat) : List Nat :=
  (s.dram.filterMap fun c => if s.snpBase ≤ c.1 ∧ c.1 < s.snpBase + 2 ^ 29 ∧ (c.1 - s.snpBase) % 32 = 0x1A then some ((c.1 - s.snpBase) / 32) else none).filter
    fun k => bit (s.snapFlags k) 2 && s.snapFlags k / 2 % 2 == i

/-- After replay every entry of the instance still PENDING is freed (R265), its volume no more ARMED. -/
def State.freePending (s : State) (i : Nat) : State :=
  (s.pendingSnaps i).foldl (fun t k => (t.freeSnapshot k).setArmed (t.rdN (t.snapAddr k + 0x18) 2) false) s

/-- The guard hold of a completion: a set across instances, past its edge, whose hold has not ended (R268). -/
def State.guardHolds (s : State) (d : Due) : Bool :=
  s.snp.sets.any fun c => c.guard && (c.cuts.any fun k => k.1 == d.volume) && decide (ofInst c.sCut d.inst < d.seq)

/-- A snapshot or sweep command completes. -/
def State.snpDone (s : State) (code : Nat) : State :=
  ((s.setFld F.SNP_CMD_BUSY 0).resDone snpCmdRes [(F.SNP_CMD_RESULT_CODE, code)]).raise F.SNP_ISR_CMD_DONE

/-! ### Sweeps (R261) -/

/-- A split request of a sweep, with no install waiting: one that stands already serves. -/
def State.sweepSplit (s : State) (vol level page : Nat) : State :=
  let base := s.base F.FTL_SPLIT_BASE_LO_ADDR F.FTL_SPLIT_BASE_HI_ADDR 4
  match s.map.splits.find? fun r => r.volume == vol && r.level == level && r.page == page with
  | some r => s.modMap fun m => { m with splits := m.splits.map fun q => if q == r then { q with sweep := true } else q }
  | none =>
    let t := s.fld F.FTL_SPLIT_TAIL_INDEX
    let next := (t + 1) % s.splitRing
    let add (k : Nat) (u : State) : State :=
      u.modMap fun m => { m with splits := m.splits ++ [{ index := k, volume := vol, level := level, page := page, ops := [], sweep := true }] }
    if next = s.fld F.FTL_SPLIT_HEAD_INDEX then add s.splitRing s
    else
      ((add t (s.wr (base + 16 * t) (leBytes 2 vol ++ leBytes 1 level ++ leBytes 1 0 ++ zeros 4 ++ leBytes 8 page))).setFld
        F.FTL_SPLIT_TAIL_INDEX next).raise F.FTL_ISR_SPLIT_REQ

/-- Visit the pages a sweep has at hand: a pointer that carries the next tag gets a split request, a directory
page's pointers are visited in turn; a page not cached is fetched and waited for. -/
def State.sweepRun : Nat → State → State
  | 0, s => s
  | n + 1, s =>
    match s.snp.sweep with
    | none => s
    | some w =>
      match w.todo with
      | [] => (s.modSnp fun x => { x with sweep := none, swept := (x.swept.filter (· != w.volume)) ++ [w.volume] }).snpDone 0
      | (lvl, page, ptr) :: rest =>
        let i := s.volHome w.volume
        let go (t : State) (l : List (Nat × Nat × Nat)) : State :=
          State.sweepRun n (t.modSnp fun x => { x with sweep := some { w with todo := l } })
        if ptrCorrupt ptr then go s.ptrError rest
        else if ptrKind ptr = 0 then go s rest
        else
          let hit := ptrGen ptr == (s.volGen w.volume + 1) % 256
          let ident := w.volume * 2 ^ 34 + page
          match lvl with
          | 0 => go (if hit then s.sweepSplit w.volume 0 page else s) rest
          | k + 1 =>
            match s.findPage i 1 lvl ident ptr with
            | some p =>
              let kids := (p.words.map fun q => (k, page * 512 + q.1, q.2))
              go (if hit then s.sweepSplit w.volume lvl page else s) (kids ++ rest)
            | none =>
              if s.map.lost.contains (i, 1, lvl, ident) then go s rest
              else
                let f : PageFetch := { inst := i, tree := 1, level := lvl, ident := ident, loc := ptrAddr ptr, ops := [], rebuilt := false }
                s.waitFetch { f with index := s.sharedIndex i 1 lvl ident, budget := 3 }

/-- Carry a sweep on as far as the cached pages go. -/
def State.sweepOn (s : State) : State := State.sweepRun (512 * (s.map.pages.length + 1) + 2) s

/-- SWEPT is set when firmware has passed every request of a sweep. -/
def State.sweepPassed (s : State) : State :=
  let done := s.snp.swept.filter fun v => !(s.map.splits.any fun r => r.sweep && r.volume == v)
  done.foldl State.setSwept (s.modSnp fun x => { x with swept := x.swept.filter fun v => !done.contains v })

/-! ### Deltas (R273) -/

/-- A page reached from a snapshot root is cached under its physical address (R263): in tree 0, its address the
page index. -/
def State.snapPage (s : State) (loc : Nat) : Option MapPage := s.map.pages.find? fun p => p.tree == 0 && p.loc == loc

/-- What comparing two subtrees gives: the runs so far, newest first, as first LBA, blocks and kind; or the page
it lacks. -/
inductive DeltaRes where
  | runs (l : List (Nat × Nat × Nat))
  | need (level index loc : Nat)
  | corrupt
  deriving DecidableEq, Repr

/-- Add one block to the runs. -/
def addRun (l : List (Nat × Nat × Nat)) (lba kind : Nat) : List (Nat × Nat × Nat) :=
  match l with
  | (f, n, k) :: r => if f + n = lba ∧ k = kind ∧ n < 0xFFFFFFFF then (f, n + 1, k) :: r else (lba, 1, kind) :: l
  | [] => [(lba, 1, kind)]

/-- Kinds 00 and 10 read zeros. -/
def lmeZero (e : Nat) : Bool := lmeKind e % 2 == 0

/-- The run kind that the change from one entry to another makes, 0 for none. -/
def entryChange (fromEmpty : Bool) (o n : Nat) : Nat :=
  if lmeZero n then (if lmeZero o || fromEmpty then 0 else 2)
  else if lmeKind o = lmeKind n ∧ lmeId o = lmeId n then 0 else 1

/-- The words of the page a pointer names. -/
def State.snapWords (s : State) (ptr : Nat) : Option (Tbl Nat) :=
  if ptrKind ptr = 0 then some [] else (s.snapPage (ptrAddr ptr)).map (·.words)

/-- Do two pointers name the same subtree? -/
def samePtr (o n : Nat) : Bool := (ptrKind o == 0 && ptrKind n == 0) || (ptrKind o == ptrKind n && ptrAddr o == ptrAddr n)

/-- Compare the subtrees of two pointers at a level, from an LBA upward. -/
def State.deltaWalk (s : State) (fromEmpty : Bool) (start : Nat) : Nat → Nat → Nat → Nat → List (Nat × Nat × Nat) → DeltaRes
  | lvl, o, n, base, acc =>
    if ptrCorrupt o ∨ ptrCorrupt n then .corrupt
    else if samePtr o n ∨ base + 512 ^ (lvl + 1) ≤ start then .runs acc
    else
      match s.snapWords o, s.snapWords n with
      | none, _ => .need lvl (base / 512 ^ (lvl + 1)) (ptrAddr o)
      | _, none => .need lvl (base / 512 ^ (lvl + 1)) (ptrAddr n)
      | some wo, some wn =>
        let keys := (List.range 512).filter fun k => wo.has k || wn.has k
        match lvl with
        | 0 => .runs (keys.foldl (fun l k =>
            let c := entryChange fromEmpty ((wo.get? k).getD 0) ((wn.get? k).getD 0)
            if c = 0 ∨ base + k < start then l else addRun l (base + k) c) acc)
        | m + 1 => keys.foldl (fun r k => match r with
            | .runs l => s.deltaWalk fromEmpty start m ((wo.get? k).getD 0) ((wn.get? k).getD 0) (base + k * 512 ^ (m + 1)) l
            | x => x) (.runs acc)

/-- Reach down from the deeper of two trees to the level of the other: absent subtrees but for the first. -/
def State.deltaFrom (s : State) (fromEmpty : Bool) (start d o dO n dN : Nat) : Nat → DeltaRes
  | 0 => s.deltaWalk fromEmpty start d o n 0 []
  | k + 1 =>
    if dO = dN then s.deltaWalk fromEmpty start d o n 0 []
    else
      let deep := if dO < dN then n else o
      match s.snapWords deep with
      | none => .need d 0 (ptrAddr deep)
      | some w =>
        let first := (w.get? 0).getD 0
        let r := if dO < dN then s.deltaFrom fromEmpty start (d - 1) o dO first (dN - 1) k
          else s.deltaFrom fromEmpty start (d - 1) first (dO - 1) n dN k
        (w.filter fun q => q.1 != 0).foldl (fun r q => match r with
          | .runs l => if dO < dN then s.deltaWalk fromEmpty start (d - 1) 0 q.2 (q.1 * 512 ^ d) l
              else s.deltaWalk fromEmpty start (d - 1) q.2 0 (q.1 * 512 ^ d) l
          | x => x) r

/-- A delta entry's bytes. -/
def runBytes (r : Nat × Nat × Nat) : Bytes := leBytes 8 r.1 ++ leBytes 4 r.2.1 ++ leBytes 1 r.2.2 ++ zeros 3

/-- The delta ends with its output written. -/
def State.deltaDone (s : State) (runs : List (Nat × Nat × Nat)) : State :=
  let n := s.fld F.SNP_CMD_COUNT
  let out := s.base F.SNP_CMD_ADDR_LO_ADDR F.SNP_CMD_ADDR_HI_ADDR 4
  let s1 := ((s.wr out ((runs.take n).flatMap runBytes)).setFld F.SNP_DELTA_WRITTEN_ENTRIES (min n runs.length)).modSnp fun x => { x with delta := false }
  match runs[n]? with
  | some r => (s1.setPair F.SNP_DELTA_NEXT_LO_LBA F.SNP_DELTA_NEXT_HI_LBA r.1).snpDone 3
  | none => s1.snpDone 0

/-- Carry a delta on: it ends where every page it needs is cached, else the page it lacks is fetched on budget 3. -/
def State.deltaOn (s : State) : State :=
  if !s.snp.delta then s
  else
    let e := s.flag F.SNP_CMD_FROM_EMPTY
    let o := s.fld F.SNP_CMD_ARG_ARG
    let n := s.fld F.SNP_CMD_ARG2_ARG2
    let dN := s.rdN (s.snapAddr n + 0x1B) 1
    let dO := if e then dN else s.rdN (s.snapAddr o + 0x1B) 1
    let pO := if e then 0 else s.rdN (s.snapAddr o) 8
    let start := s.pair F.SNP_CMD_VALUE_LO_VALUE F.SNP_CMD_VALUE_HI_VALUE
    match s.deltaFrom e start (max dO dN) pO dO (s.rdN (s.snapAddr n) 8) dN 5 with
    | .runs l => s.deltaDone l.reverse
    | .corrupt => (s.ptrError).deltaDone []
    | .need level index loc =>
      s.waitFetch { inst := s.snapFlags n / 2 % 2, tree := 0, level := level, ident := loc, loc := loc, ops := [], rebuilt := false, index := some index, budget := 3 }

/-! ### Links (R274, R275) -/

def State.linkAddr (s : State) (l : Nat) : Nat := s.snpBase + 0x20080000 + 64 * l
/-- STATE; a reserved one is idle. -/
def State.linkState (s : State) (l : Nat) : Nat := let v := s.rdN (s.linkAddr l) 1; if 5 ≤ v then 0 else v
def State.linkConfig (s : State) (l : Nat) : Nat := s.rdN (s.linkAddr l + 1) 1
def State.linkKey (s : State) (l : Nat) : Nat := s.rdN (s.linkAddr l + 2) 2 % 1024
def State.linkQpn (s : State) (l : Nat) : Nat := s.rdN (s.linkAddr l + 4) 3
def State.linkFixed (s : State) (l : Nat) : Nat := s.rdN (s.linkAddr l + 8) 4
def State.linkTx (s : State) (l : Nat) : Nat := s.rdN (s.linkAddr l + 0x10) 8
def State.linkRx (s : State) (l : Nat) : Nat := s.rdN (s.linkAddr l + 0x18) 8
def State.linkAcked (s : State) (l : Nat) : Nat := s.rdN (s.linkAddr l + 0x20) 8
def State.linkTag (s : State) (l : Nat) : Nat := s.rdN (s.linkAddr l + 0x30) 4

/-- The link of a GCM key slot (R274). -/
def State.linkOfKey (s : State) (k : Nat) : Option Nat :=
  (List.range 64).find? fun l => s.linkState l != 0 && s.linkKey l == k

/-- The bytes of a message header. -/
def replHeader (type status tag seq lba count volume stamp : Nat) : Bytes :=
  leBytes 2 1 ++ leBytes 1 type ++ leBytes 1 status ++ leBytes 4 tag ++ leBytes 8 seq ++ leBytes 8 lba ++ leBytes 4 count ++
    leBytes 2 volume ++ zeros 2 ++ leBytes 8 stamp

/-- The header bytes of a received message. -/
def hdrBytes (h : ReplHdr) : Bytes :=
  leBytes 2 h.format ++ leBytes 1 h.type ++ leBytes 1 h.status ++ leBytes 4 h.linkTag ++ leBytes 8 h.seq ++ leBytes 8 h.lba ++
    leBytes 4 h.count ++ leBytes 2 h.volume ++ leBytes 2 h.reserved ++ leBytes 8 h.cutStamp

/-- Send a message on a link under its next MSG_SEQ, encrypted; with no usable key none goes. -/
def State.sendMessage (s : State) (l type status lba volume stamp : Nat) (frames : List Bytes) (count : Nat) : State :=
  match s.keyOf (0x2000 + s.linkKey l) with
  | none => s
  | some key =>
    if !s.loaded (0x2000 + s.linkKey l) then s
    else
      let seq := s.linkTx l
      let h := replHeader type status (s.linkTag l) seq lba count volume stamp
      let iv (k : Nat) : Bytes := gcmIv (s.linkFixed l) (seq * 64 + k)
      let body := (frames.zipIdx).map fun p => gcmEnc key (iv p.2) h p.1
      let tag := if frames.isEmpty then (gcmEnc key (iv 63) h []).2 else []
      let n := max 1 frames.length
      let s1 := (List.range n).foldl (fun t _ => t.useGcm (s.linkKey l)) s
      let s2 := (s1.wrN (s.linkAddr l + 0x10) 8 (seq + 1)).send (.replication l h body tag)
      s2.postSend (s.linkQpn l) (h ++ (body.flatMap fun f => f.1 ++ f.2) ++ tag)

/-- Acknowledge a message with a status. -/
def State.ackMessage (s : State) (l seq status : Nat) : State := s.sendMessage l 4 status seq 0 0 [] 0

/-! ### Sending DATA (R277, R278) -/

/-- Send a packed message and keep it until it is acknowledged. -/
def State.sendData (s : State) (m : DataMsg) : State :=
  let seq := s.linkTx m.link
  let s1 := s.sendMessage m.link 1 0 m.lba m.volume 0 m.frames m.frames.length
  if s1.linkTx m.link = seq then s1 else s1.modSnp fun x => { x with out := x.out ++ [{ m with seq := seq }] }

/-- Close the message a link is packing. -/
def State.closePacking (s : State) (l : Nat) : State :=
  match s.snp.packing.find? fun m => m.link == l with
  | some m => (s.modSnp fun x => { x with packing := x.packing.filter fun y => y.link != l }).sendData m
  | none => s

/-- Pack a frame, in submission order: a gap in LBA, another volume or 64 frames closes the message under way. -/
def State.packFrame (s : State) (l volume lba : Nat) (frame : Bytes) : State :=
  let fits (m : DataMsg) : Bool := m.volume == volume && m.lba + m.frames.length == lba
  let s1 := match s.snp.packing.find? fun m => m.link == l with
    | some m => if fits m then s else s.closePacking l
    | none => s
  let s2 := match s1.snp.packing.find? fun m => m.link == l with
    | some m => s1.modSnp fun x => { x with packing := x.packing.map fun (y : DataMsg) => if y.link == m.link then { y with frames := y.frames ++ [frame] } else y }
    | none =>
      let m : DataMsg := { link := l, seq := 0, volume := volume, lba := lba, frames := [frame] }
      s1.modSnp fun x => { x with packing := x.packing ++ [m] }
  if s2.snp.packing.any fun m => m.link == l && decide (64 ≤ m.frames.length) then s2.closePacking l else s2

/-- Close the messages of links with no further Stitch queued. -/
def State.closeIdle (s : State) : State :=
  let busy (l : Nat) : Bool := (s.rows.stitches.vals ++ s.rows.waiting ++ s.rows.retired.map (·.2)).any fun t =>
    t.cls == 5 && !bit t.flags 8 && s.linkOfKey t.gcmSlot == some l
  (s.snp.packing.filter fun m => !busy m.link).foldl (fun t m => t.closePacking m.link) s

/-! ### Synchronous replication (R278) -/

/-- The link a volume's writes replicate on synchronously: SYNC set and the link sending. -/
def State.syncLink (s : State) (v : Nat) : Option Nat :=
  let l := s.genBits v / 4 % 64
  if bit (s.genBits v) 1 && s.linkState l == 2 then some l else none

/-- Take an entry under synchronous replication. -/
def State.startSync (s : State) (inst seq volume first count : Nat) (o : Origin) : State :=
  match s.syncLink volume with
  | none => s
  | some l =>
    if s.snp.sync.any fun m => m.inst == inst && m.seq == seq then s
    else s.modSnp fun x => { x with sync := x.sync ++
      [{ link := l, inst := inst, seq := seq, volume := volume, first := first, count := count, frames := [], msg := none, origin := o }] }

/-- A raw frame of a block of a synchronous entry is ready; the last one sends the entry's message. -/
def State.syncFrame (s : State) (inst seq lba : Nat) (frame : Bytes) : State :=
  let s1 := s.modSnp fun x => { x with sync := x.sync.map fun m =>
    if m.inst == inst && m.seq == seq then { m with frames := m.frames.put (lba - m.first) frame } else m }
  match s1.snp.sync.find? fun m => m.inst == inst && m.seq == seq && m.msg.isNone && m.frames.length == m.count with
  | some m =>
    let n := s1.linkTx m.link
    let s2 := s1.sendMessage m.link 1 0 m.first m.volume 0 m.frames.vals m.count
    if s2.linkTx m.link = n then s2
    else s2.modSnp fun x => { x with sync := x.sync.map fun y => if y == m then { y with msg := some n } else y }
  | none => s1

/-- Completions whose messages are all acknowledged go on. -/
def State.releaseSync (s : State) : State :=
  let held (d : Due) : Bool := s.snp.sync.any fun m => m.inst == d.inst && m.origin == d.origin
  let l := s.snp.syncDue.filter fun d => !held d
  (s.modSnp fun x => { x with syncDue := x.syncDue.filter held, failing := x.failing.filter fun l => s.linkState l == 2 }).modCommit fun c =>
    { c with due := c.due ++ l }

/-- A synchronous link is fractured; what was held on it goes on. -/
def State.fracture (s : State) (l : Nat) : State :=
  ((((s.modSnp fun x => { x with sync := x.sync.filter fun m => m.link != l }).wrN (s.linkAddr l) 1 4).wrN (s.linkAddr l + 0x28) 8 s.stamp).raise
    F.SNP_ISR_FRACTURED).releaseSync

/-- The volumes of an instance under synchronous replication, with their links. -/
def State.syncVols (s : State) (i : Nat) : List (Nat × Nat) :=
  let base := s.snpBase + 0x20000000
  (s.dram.filterMap fun c => if base ≤ c.1 ∧ c.1 < base + 2 ^ 19 ∧ (c.1 - base) % 8 = 4 then some ((c.1 - base) / 8) else none).filterMap fun v =>
    if bit (s.genBits v) 1 && s.volHome v == i then some (v, s.genBits v / 4 % 64) else none

/-- At takeover every synchronous link of the adopted instance with messages unacknowledged is fractured (R279). -/
def State.fractureAdopted (s : State) (i : Nat) : State :=
  ((((s.syncVols i).map (·.2)).eraseDups).filter fun l => s.linkState l == 2 && decide (s.linkAcked l + 1 < s.linkTx l)).foldl State.fracture s

/-- A synchronous link fails: it is fractured and its held completions are sent, or each held write fails and
later ones will (R278). -/
def State.failLink (s : State) (l : Nat) : State :=
  let mine := s.snp.sync.filter fun m => m.link == l
  let held := s.snp.syncDue.filter fun d => mine.any fun m => m.inst == d.inst && m.origin == d.origin
  if bit (s.linkConfig l) 0 then
    let s2 := s.modSnp fun x => { x with
      sync := x.sync.filter (fun m => m.link != l), failing := (x.failing.filter (· != l)) ++ [l], syncDue := x.syncDue.filter fun d => !held.contains d }
    held.foldl (fun t d => t.completeHost d.origin hsPath) s2
  else s.fracture l

/-- A write whose completion is due meets its volume's synchronous link: it goes on, waits, or fails. -/
inductive SyncGate where
  | pass
  | wait
  | fail
  deriving DecidableEq, Repr

def State.syncGate (s : State) (d : Due) : SyncGate :=
  match s.syncLink d.volume with
  | none => .pass
  | some l =>
    if s.snp.failing.contains l then .fail
    else if s.snp.sync.any fun m => m.inst == d.inst && m.origin == d.origin then .wait else .pass

/-! ### Receiving (R276) -/

/-- Step 1 of R276: LINK_TAG, TYPE, FORMAT and MSG_SEQ. -/
def State.hdrRejected (s : State) (l : Nat) (h : ReplHdr) : Bool :=
  h.linkTag != s.linkTag l || h.format != 1 || h.type == 0 || decide (5 ≤ h.type) || decide (h.seq ≤ s.linkRx l)

def State.countReject (s : State) : State := s.inc F.SNP_LINK_EVENTS_SEQ_REJECT
def State.countAuth (s : State) : State := (s.inc F.SNP_LINK_EVENTS_AUTH_FAIL).raise F.SNP_ISR_AUTH_FAIL

/-- RX_SEQ rises. -/
def State.takeSeq (s : State) (l seq : Nat) : State := s.wrN (s.linkAddr l + 0x18) 8 (max seq (s.linkRx l))

/-- Does a header-only message authenticate? -/
def State.hdrAuthentic (s : State) (l : Nat) (h : ReplHdr) : Bool :=
  match s.keyOf (0x2000 + s.linkKey l) with
  | some key => (gcmDec key (gcmIv h.fixed (h.seq * 64 + 63)) (hdrBytes h) [] h.tag).isSome
  | none => false

/-- A header that fails its tag: counted as a failure of the cipher (R358) and of the link (R276). -/
def State.headerBad (s : State) : State := s.authFail.countAuth

/-- May a received block enter the Rows: no earlier block of the same link and place is on its way (R279)? -/
def State.rxClear (s : State) (m : RxMsgSt) (k : Nat) : Bool :=
  !(s.snp.rx.any fun y => y.link == m.link && y.volume == m.volume && decide (y.seq < m.seq) &&
    (y.st.zipIdx).any fun p => y.lba + p.2 == m.lba + k && (match p.1 with
      | .hardened | .authFail | .corrupt => false
      | _ => true))

/-- The ACTIVE dictionary of a domain is chosen at GD; the Stitch of a frame of a received message. -/
def State.rxStitch (s : State) (m : RxMsgSt) (k : Nat) : Stitch :=
  { cls := 6, lba := m.lba + k, volume := m.volume, domain := s.volDomain m.volume, inst := s.volHome m.volume,
    gcmSlot := s.linkKey m.link, level := s.linkConfig m.link / 2 % 16, flags := (if bit (s.linkConfig m.link) 5 then 2 else 0) + s.dedupFlags (s.volDomain m.volume),
    data := ((m.frames[k]?).map (·.1)).getD [], frame := some (m.link, m.seq, k) }

/-- Blocks of a link in the interlock: submitted, and not at their end (R279). -/
def State.rxInterlock (s : State) (l : Nat) : Nat :=
  ((s.snp.rx.filter fun m => m.link == l).flatMap fun m => m.st.filter fun x => match x with
    | .waiting | .hardened | .authFail | .corrupt => false
    | _ => true).length + (s.rows.waiting.filter fun w => w.frame.any fun f => f.1 == l).length

/-- Submit the frames that may enter the Rows, as far as the link's interlock of 4,096 blocks has room. -/
def State.rxSubmit (s : State) : State :=
  s.snp.rx.foldl (fun t m => (m.st.zipIdx).foldl (fun u p =>
    if p.1 == .waiting && u.rxClear m p.2 && decide (u.rxInterlock m.link < 4096) && !(u.rows.waiting.any fun w => w.frame == some (m.link, m.seq, p.2)) then
      u.modRows fun r => { r with waiting := r.waiting ++ [u.rxStitch m p.2] }
    else u) t) s

/-- Set where a received frame stands. -/
def State.setRx (s : State) (l seq k : Nat) (x : RxSt) : State :=
  s.modSnp fun y => { y with rx := y.rx.map fun m => if m.link == l && m.seq == seq then { m with st := m.st.set k x } else m }

/-- Is a received frame's fate known? -/
def RxSt.ended : RxSt → Bool
  | .hardened | .authFail | .corrupt => true
  | _ => false

/-- Journal one received block, programmed or read as zeros, where its leaf is at hand: its new entry, its content,
and the drop of the content it replaces. -/
def State.rxJournalOne (s : State) (m : RxMsgSt) (k : Nat) (cid? : Option Nat) : State :=
  let i := s.volHome m.volume
  let lba := m.lba + k
  let put (t : State) (old : Nat) : State :=
    let lme := match cid? with
      | some cid => mkLme 1 (t.volGen m.volume) cid
      | none => mkLme 2 (t.volGen m.volume) 0
    let own : List JRec := match cid? with
      | some cid =>
        let r := recOf ((t.rawRec? cid).getD 0)
        .content cid { r with state := 2 : Rec }.toNat :: t.dictRecs r.dict (cidInst cid)
      | none => []
    let p := if lmeKind old = 1 then t.refDrop (lmeId old) else (t, [])
    let jseq := p.1.nextJseq i
    (p.1.setRx m.link m.seq k (.placed jseq)).buildGroup i ([.mapEntry m.volume lba lme 0] ++ own ++ p.2 ++ [p.1.allocRec i])
  if !s.rxClear m k || (s.jnl i).hold then s
  else match cid?.bind fun c => (s.recMissing c).map fun x => (c, x) with
  | some (cid, level, ident, loc) => s.waitPage (cidInst cid) 2 level ident loc [] []
  | none =>
  match s.walk i 1 m.volume (lba / 512) with
    | .leaf p =>
      let old := p.word (lba % 512)
      match (if lmeKind old = 1 then s.recMissing (lmeId old) else none) with
      | some (level, ident, loc) => s.waitPage (cidInst (lmeId old)) 2 level ident loc [] []
      | none => put s old
    | .absent => put s 0
    | .miss level ident loc => s.waitPage i 1 level ident loc [] []
    | _ => put s 0

/-- Journal the received blocks that are ready. -/
def State.rxJournal (s : State) : State :=
  s.snp.rx.foldl (fun t m => (m.st.zipIdx).foldl (fun u p => match p.1 with
    | .programmed cid => u.rxJournalOne m p.2 (some cid)
    | .zero => u.rxJournalOne m p.2 none
    | _ => u) t) s

/-- Count a message of the set under way on a link (R277). -/
def State.countRx (s : State) (l : Nat) : State := s.modSnp fun x => { x with rxCount := x.rxCount.put l ((x.rxCount.get? l).getD 0 + 1) }

/-- Acknowledge the messages whose frames have all ended: 0x1 where one failed authentication, 0x2 where one was
corrupt, else 0x0 (R275, R276). -/
def State.rxAck (s : State) : State :=
  (s.snp.rx.filter fun m => m.st.all RxSt.ended).foldl (fun t m =>
    let t1 := t.modSnp fun x => { x with rx := x.rx.filter fun y => y != m }
    let code := if m.st.contains .authFail then 1 else if m.st.contains .corrupt then 2 else 0
    (if code = 0 then t1.countRx m.link else t1).ackMessage m.link m.seq code) s

end Sys2Proof.Machine
end

