-- ==== Sys2Proof/Machine/RdtOps.lean ====
section
/-! DEFINITION. Queue pairs, regions, completions, errors and the context cache of the RDMA transport (13), as the
operations that commands share. -/
namespace Sys2Proof.Machine

/-! ### Regions (R307) -/

def State.mrAddr (s : State) (i : Nat) : Nat := s.base F.RDT_MR_BASE_LO_BASE_LO F.RDT_MR_BASE_HI_BASE_HI 12 + 32 * i
def State.mrAccess (s : State) (i : Nat) : Nat := s.rdN (s.mrAddr i + 0x12) 1

/-- Does a key give a queue pair's class and tenant a range, with an access bit (none asked where it is 0)? -/
def State.mrAllows (s : State) (cls tenant key va len accessBit : Nat) : Bool :=
  let i := key / 256
  let base := s.rdN (s.mrAddr i) 8
  decide (i < 65536) && bit (s.mrAccess i) 0 && s.rdN (s.mrAddr i + 0x13) 1 == key % 256 &&
  s.mrAccess i / 32 % 2 == cls && s.rdN (s.mrAddr i + 0x10) 2 % 4096 == tenant &&
  (accessBit == 0 || bit (s.mrAccess i) accessBit) && decide (base ≤ va) && decide (va + len ≤ base + s.rdN (s.mrAddr i + 8) 8)

/-- Mark the held bobbins that a WRITE touched with its queue pair and PSN (R319). -/
def State.markBobbins (s : State) (key addr len qpn psn : Nat) : State :=
  let i := key / 256
  if !bit (s.mrAccess i) 4 || len == 0 then s
  else
    let p := s.rdN (s.mrAddr i + 0x14) 1 % 64
    let lo := (addr - s.poolBase p) / s.poolSize p
    let hi := (addr + len - 1 - s.poolBase p) / s.poolSize p
    (List.range (hi + 1 - lo)).foldl (fun t k =>
      let b := lo + k
      if b < t.poolCount p ∧ t.bobState p b = 1 then
        t.putMeta p b (t.refCount p b) (t.owner p b) qpn (psn + 2 ^ 31) (t.turn % 2 ^ 32)
      else t) s

/-- How far a PSN lies behind the expected one. -/
def psnBehind (expected psn : Nat) : Nat := (expected + 2 ^ 24 - psn % 2 ^ 24) % 2 ^ 24

/-- Is PSN a at or before b? -/
def psnLe (a b : Nat) : Bool := decide ((b + 2 ^ 24 - a % 2 ^ 24) % 2 ^ 24 < 2 ^ 23)

/-- May a quarantined bobbin go (R319)? -/
def State.quarOver (s : State) (p index : Nat) : Bool :=
  let mark := s.physRdN (s.metaAddr p index + 8) 4 % 2 ^ 24
  let aged := decide (max 1 (s.fld F.RDT_QUAR_CFG_QUAR_TURNS) ≤ (s.turn + 2 ^ 32 - s.physRdN (s.metaAddr p index + 12) 4) % 2 ^ 32)
  match s.qp? (s.link p index) with
  | none => aged
  | some x =>
    let d := psnBehind x.rqPsn mark
    (decide (1024 < d) && decide (d ≤ 2 ^ 23)) || (aged && (x.state == 2 || psnLe mark x.ackedPsn))

/-- A quarantined bobbin whose release condition holds returns to its free list (R344). -/
def State.releaseBobbin (s : State) (p index : Nat) : State :=
  let q := (s.bbm.quar.get? p).getD []
  if !q.contains index || !s.quarOver p index then s
  else
    let s1 := s.modBbm fun b => { b with quar := b.quar.put p (q.filter (· != index)) }
    let s2 := (s1.setFld (F.BBM_POOL_QUAR_QUARANTINED p) (s.fld (F.BBM_POOL_QUAR_QUARANTINED p) - 1)).setFld F.RDT_QUAR_COUNT_BOBBINS
      (s.fld F.RDT_QUAR_COUNT_BOBBINS - 1)
    s2.returnBobbin p index

/-- Release every bobbin that may leave quarantine. -/
def State.quarTurn (s : State) : State :=
  s.bbm.quar.foldl (fun t p => p.2.foldl (fun u i => u.releaseBobbin p.1 i) t) s

/-! ### Completions (R309) -/

def State.cq? (s : State) (c : Nat) : Option Cq := s.rdt.cqs.get? c

/-- The bytes of a CQE. -/
def cqeBytes (wrId qpn bytes imm op status index phase : Nat) : Bytes :=
  leBytes 8 wrId ++ leBytes 3 qpn ++ zeros 1 ++ leBytes 4 bytes ++ leBytes 4 imm ++ leBytes 1 op ++ leBytes 1 status ++
    leBytes 2 index ++ zeros 7 ++ leBytes 1 phase

/-- Write a CQE. Where the queue may hold as many unread entries as it has places, whether it is full is a free
value; a full one goes to error, with a FATAL error where it is the system's (R304). -/
def State.writeCqe (s : State) (c wrId qpn bytes imm op status index : Nat) : State :=
  match s.cq? c with
  | none => s
  | some q =>
    if q.bad then s
    else
      let (full, s1) := if q.size ≤ q.unread then (let (b, t) := s.free 1; (b == 1, t)) else (false, s)
      if full then
        let s2 := s1.modRdt fun r => { r with cqs := r.cqs.put c { q with bad := true } }
        if q.cls = 0 then s2.errFatal 0x13 else s2
      else
        let s2 := s1.wr (q.addr + 32 * q.index) (cqeBytes wrId qpn bytes imm op status index q.phase)
        let wrap := q.index + 1 = q.size
        s2.modRdt fun r => { r with cqs := r.cqs.put c { q with
          index := if wrap then 0 else q.index + 1, phase := if wrap then 1 - q.phase else q.phase,
          count := (q.count + 1) % 2 ^ 32, unread := min q.size (q.unread + 1) } }

/-- Complete a work request of a send queue: an error, or a signaled success, writes its CQE. -/
def State.sqDone (s : State) (n : Nat) (q : Qp) (w : OutWqe) (status : Nat) : State :=
  if w.signaled ∨ status ≠ 0 then s.writeCqe q.scq w.wrId n w.len 0 w.op status w.index else s

/-! ### Events and errors (R304, R305) -/

/-- Write a system event. -/
def State.systemEvent (s : State) (n code : Nat) : State :=
  let tail := s.fld F.RDT_EVQ_TAIL_INDEX
  if (tail + 1) % 4096 = s.fld F.RDT_EVQ_HEAD_INDEX then (s.inc F.RDT_TENANT_ERRS_SYS_LOST).raise F.RDT_ISR_TENANT_ERR
  else
    let a := s.base F.RDT_EVQ_BASE_LO_BASE_LO F.RDT_EVQ_BASE_HI_BASE_HI 12 + 16 * tail
    ((s.wr a (leBytes 4 (n % 2 ^ 24) ++ leBytes 1 code ++ zeros 3 ++ leBytes 8 s.stamp)).setFld F.RDT_EVQ_TAIL_INDEX (tail + 1)).raise
      F.RDT_ISR_SYS_QP_ERR

/-- Count a tenant's queue pair error; the sixteenth within 1,024 turns disables the tenant. -/
def State.tenantError (s : State) (tenant : Nat) : State :=
  let l := (((s.rdt.errTurns.get? tenant).getD []).filter fun t => decide (s.turn < t + 1024)) ++ [s.turn]
  let s1 := ((s.modRdt fun r => { r with errTurns := r.errTurns.put tenant l }).inc F.RDT_TENANT_ERRS_QP_ERRS).raise F.RDT_ISR_TENANT_ERR
  if 16 ≤ l.length ∧ !s.rdt.disabled.contains tenant then
    (s1.modRdt fun r => { r with disabled := r.disabled ++ [tenant] }).inc F.RDT_TENANT_ERRS_DISABLED
  else s1

/-- The queues that ride on a queue pair lose the writes whose data READ has not finished (R305). -/
def State.abortWrites (s : State) (n : Nat) : State :=
  let lost := s.commit.own.filter fun e =>
    (e.st == .reserved || e.st == .filling) && !e.origin.forwarded && s.qQpn e.origin.queue == n && !s.qTcp e.origin.queue
  let s1 := lost.foldl (fun t e => t.abortEntry e.inst e.seq) s
  (lost.map (·.origin)).eraseDups.foldl (fun t o => t.completeHost o hsTransfer) s1

/-- One queue pair enters error: its outstanding work requests complete with status 0x04, the first with the
status that took it there; `event` is the code of its event. -/
def State.failOne (s : State) (n : Nat) (status : Nat) (event : Option Nat) : State :=
  match s.qp? n with
  | none => s
  | some q =>
    if q.state = 2 then s
    else
      let s1 := s.setQp n { q with state := 2, out := [], readQ := [], sendQ := [], tally := none, rx := none, rnrWait := false }
      let s2 := if q.tally.isSome then s1.setFld F.RDT_TALLY_CFG_PENDING (s1.fld F.RDT_TALLY_CFG_PENDING - 1) else s1
      let s3 := (q.out.zipIdx).foldl (fun t p => if p.1.host.isSome then t else t.sqDone n q p.1 (if p.2 = 0 then status else 4)) s2
      if q.cls = 0 then
        let s4 := match event with | some c => s3.systemEvent n c | none => s3
        (s4.inc F.RDT_DROPS_CPL_LOST (q.sendQ.filter fun m => m.2.op == 1 && m.2.host.isSome).length).abortWrites n
      else
        let s4 := match event with | some c => s3.send (.tenantEvent q.tenant n c) | none => s3
        s4.tenantError q.tenant

/-- A queue pair that another's error takes with it: it uses a completion queue in error, or its tenant is disabled. -/
def State.dragged (s : State) (q : Qp) : Bool :=
  q.state != 2 && (((s.cq? q.scq).any (·.bad)) || ((s.cq? q.rcq).any (·.bad)) || (q.cls == 1 && s.rdt.disabled.contains q.tenant))

/-- Errors spread until no queue pair is left to take along; the code of their events is not stated. -/
def State.spread : Nat → State → State
  | 0, s => s
  | k + 1, s =>
    match s.rdt.qps.find? fun p => s.dragged p.2 with
    | none => s
    | some p => let (c, t) := s.free 8; State.spread k (t.failOne p.1 4 (some c))

/-- A queue pair enters error. -/
def State.failQp (s : State) (n status : Nat) (event : Option Nat) : State :=
  let s1 := s.failOne n status event
  (State.spread (s1.rdt.qps.length + 1) s1).countPins

/-- Completion queues may have gone to error as CQEs were written. -/
def State.settleQps (s : State) : State := (State.spread (s.rdt.qps.length + 1) s).countPins

/-- Retries are exhausted: a replication link times out (R278). -/
def State.exhaustQp (s : State) (n status : Nat) : State :=
  let s1 := s.failQp n status (some status)
  ((List.range 64).filter fun l => s.linkState l == 2 && s.linkQpn l == n).foldl State.failLink s1

/-! ### Responder (R304, R318) -/

/-- Send an acknowledgement of a PSN. -/
def State.sendAck (s : State) (n : Nat) (q : Qp) (psn : Nat) : State :=
  (s.setQp n { q with unacked := 0, ackedPsn := psn }).egressTo q (.roceAck q.dest psn)

/-- Acknowledge a duplicate again. -/
def State.ackAgain (s : State) (q : Qp) (psn : Nat) : State := s.egressTo q (.roceAck q.dest psn)

/-- Refuse a request: a NAK, and the queue pair to error, its event with the status code the NAK has at the sender. -/
def State.nakError (s : State) (n : Nat) (q : Qp) (psn : Nat) (k : NakKind) : State :=
  (s.egressTo q (.roceNak q.dest psn k)).failQp n 4 (some (match k with | .invalidRequest => 5 | .remoteAccess => 6 | _ => 7))

/-- Refuse for want of a receive buffer. -/
def State.nakRnr (s : State) (n : Nat) (q : Qp) (psn : Nat) : State :=
  (s.setQp n { q with nakSent := true }).egressTo q (.roceRnr q.dest psn q.rnrTimer)

/-- The next PSN is expected; the acknowledgement goes at once, or with the run of ACK_COALESCE. -/
def State.accepted (s : State) (n : Nat) (q : Qp) (psn : Nat) (now : Bool) : State :=
  let q1 : Qp := { q with rqPsn := (psn + 1) % 2 ^ 24, nakSent := false, unacked := q.unacked + 1 }
  if now ∨ max 1 (s.fld F.RDT_CTRL_ACK_COALESCE) ≤ q1.unacked then s.sendAck n q1 psn else s.setQp n q1

/-- The packets of a READ response from a PSN. -/
def State.answerRead (s : State) (q : Qp) (psn va len : Nat) : State :=
  (List.range (max 1 (ceilDiv len (pmtuBytes q)))).foldl (fun t k =>
    t.egressTo q (.roceResponse q.dest ((psn + k) % 2 ^ 24) (t.physRd (va + k * pmtuBytes q) (min (pmtuBytes q) (len - k * pmtuBytes q))))) s

/-- Take a receive WQE: its index and bytes' place, and the state. -/
def State.takeRecv (s : State) (n : Nat) (q : Qp) : Option (Nat × Nat × Nat × Nat) × State :=
  let wqe (a : Nat) : Nat × Nat × Nat := (s.rdN a 8, s.rdN (a + 8) 4, s.rdN (a + 12) 4)
  if q.srq ≠ 0 then
    match s.rdt.srqs.get? (q.srq - 1) with
    | some r =>
      let k := r.head % max 1 r.size
      let w := wqe (r.addr + 16 * k)
      (some (k, w), s.modRdt fun d => { d with srqs := d.srqs.put (q.srq - 1) { r with head := r.head + 1 } })
    | none => (none, s)
  else if q.rqSize ≠ 0 then
    let k := q.rqHead % q.rqSize
    (some (k, wqe (q.rqAddr + 16 * k)), s.setQp n { q with rqHead := q.rqHead + 1 })
  else (none, s)

/-- Does a queue pair take its receives from posted buffers? A queue pair with no receive queue hands its SENDs to
the fetch unit. -/
def hasRecv (q : Qp) : Bool := q.srq != 0 || q.rqSize != 0

/-- An incoming SEND. -/
def State.takeSend (s : State) (n : Nat) (q : Qp) (p : RocePkt) : State :=
  if !hasRecv q then s.accepted n q p.psn p.ackReq
  else if p.first && !p.buffer then s.nakRnr n q p.psn
  else
    let (m?, s1) : Option RxMsg × State :=
      if p.first then
        match s.takeRecv n q with
        | (some (k, a, len, key), t) => (some { op := .send, addr := a, left := len, total := 0, index := k, rkey := key }, t)
        | (none, t) => (none, t)
      else (q.rx, s)
    let q1 := (s1.qp? n).getD q
    match m? with
    | none => s1.nakError n q1 p.psn .invalidRequest
    | some m =>
      let fail (t : State) (st : Nat) (k : NakKind) : State :=
        (t.writeCqe q1.rcq m.index n m.total 0 1 st m.index).nakError n q1 p.psn k
      if m.left < p.data.length then fail s1 1 .invalidRequest
      else if !s1.mrAllows q1.cls q1.tenant m.rkey m.addr p.data.length 0 then fail s1 3 .remoteOperation
      else
        let m1 : RxMsg := { m with addr := m.addr + p.data.length, left := m.left - p.data.length, total := m.total + p.data.length }
        let s2 := s1.physWr m.addr p.data
        if p.last then
          let s3 := s2.writeCqe q1.rcq m.index n m1.total (p.imm.getD 0) (if p.imm.isSome then 2 else 1) 0 m.index
          (s3.accepted n { q1 with rx := none } p.psn p.ackReq).settleQps
        else s2.accepted n { q1 with rx := some m1 } p.psn p.ackReq

/-- An incoming WRITE: its bytes are placed; with immediate data it takes a receive WQE at its end. -/
def State.takeWrite (s : State) (n : Nat) (q : Qp) (p : RocePkt) : State :=
  let m? : Option RxMsg := if p.first then some { op := .write, addr := p.va, left := p.len, total := 0, index := 0, rkey := p.rkey } else q.rx
  match m? with
  | none => s.nakError n q p.psn .invalidRequest
  | some m =>
    if p.first && !s.mrAllows q.cls q.tenant p.rkey p.va p.len 2 then s.nakError n q p.psn .remoteAccess
    else if m.left < p.data.length ∨ (p.last ∧ m.left ≠ p.data.length) then s.nakError n q p.psn .invalidRequest
    else if p.last && p.imm.isSome && hasRecv q && !p.buffer then s.nakRnr n q p.psn
    else
      let s1 := (s.physWr m.addr p.data).markBobbins m.rkey m.addr p.data.length n p.psn
      let m1 : RxMsg := { m with addr := m.addr + p.data.length, left := m.left - p.data.length, total := m.total + p.data.length }
      if !p.last then s1.accepted n { q with rx := some m1 } p.psn p.ackReq
      else
        match p.imm with
        | none => s1.accepted n { q with rx := none } p.psn p.ackReq
        | some v =>
          let (w, s2) := s1.takeRecv n q
          let q1 := (s2.qp? n).getD q
          let k := (w.map (·.1)).getD 0
          ((s2.writeCqe q1.rcq k n m1.total v 4 0 k).accepted n { q1 with rx := none } p.psn p.ackReq).settleQps

/-- An incoming atomic: the old value goes back, and is kept with the last 16. -/
def State.takeAtomic (s : State) (n : Nat) (q : Qp) (p : RocePkt) : State :=
  if p.va % 8 ≠ 0 then s.nakError n q p.psn .invalidRequest
  else if !s.mrAllows q.cls q.tenant p.rkey p.va 8 3 then s.nakError n q p.psn .remoteAccess
  else
    let old := s.physRdN p.va 8
    let new := match p.op with
      | .compareSwap => if old = p.compare then p.swap else old
      | _ => (old + p.swap) % 2 ^ 64
    let kept := (q.atomics ++ [(p.psn, old)]).drop (q.atomics.length + 1 - 16)
    let q1 : Qp := { q with rqPsn := (p.psn + 1) % 2 ^ 24, nakSent := false, unacked := 0, ackedPsn := p.psn, atomics := kept }
    ((s.physWrN p.va 8 new).setQp n q1).egressTo q (.roceResponse q.dest p.psn (leBytes 8 old))

/-- An incoming READ. -/
def State.takeReadReq (s : State) (n : Nat) (q : Qp) (p : RocePkt) : State :=
  if !s.mrAllows q.cls q.tenant p.rkey p.va p.len 1 then s.nakError n q p.psn .remoteAccess
  else
    let span := max 1 (ceilDiv p.len (pmtuBytes q))
    let last := (p.psn + span - 1) % 2 ^ 24
    (s.setQp n { q with rqPsn := (last + 1) % 2 ^ 24, nakSent := false, unacked := 0, ackedPsn := last }).answerRead q p.psn p.va p.len

/-- Is a FLUSH one the head takes: no persistence, a region of its own class and tenant, its range within? -/
def State.flushOk (s : State) (q : Qp) (p : RocePkt) : Bool := s.mrAllows q.cls q.tenant p.rkey p.va p.len 0

/-- A request at the expected PSN. -/
def State.takeExpected (s : State) (n : Nat) (q : Qp) (p : RocePkt) : State :=
  if p.op == .unlisted || !p.fieldsOk || (p.op == .flush && p.persist) then s.nakError n q p.psn .invalidRequest
  else if p.first == q.rx.isSome || (!p.first && (q.rx.map (·.op)) != some p.op) then s.nakError n q p.psn .invalidRequest
  else match p.op with
    | .send => s.takeSend n q p
    | .write => s.takeWrite n q p
    | .read => s.takeReadReq n q p
    | .flush => if s.flushOk q p then s.accepted n q p.psn true else s.nakError n q p.psn .remoteAccess
    | _ => s.takeAtomic n q p

def State.countStale (s : State) : State := s.inc F.RDT_DUP_EVENTS_DUP_STALE

/-- A request behind the expected PSN (R318): d is how far. -/
def State.takeDuplicate (s : State) (n : Nat) (q : Qp) (p : RocePkt) (d : Nat) : State :=
  let prev := (q.rqPsn + 2 ^ 24 - 1) % 2 ^ 24
  let inside := decide (d ≤ 1024)
  match p.op with
  | .send | .write => if inside then (s.ackAgain q p.psn).inc F.RDT_DUP_EVENTS_DUP_ACKED else (s.sendAck n q prev).countStale
  | .read =>
    if !inside then s.countStale
    else if s.mrAllows q.cls q.tenant p.rkey p.va p.len 1 then s.answerRead q p.psn p.va p.len else s.nakError n q p.psn .remoteAccess
  | .compareSwap | .fetchAdd =>
    if !inside then s.countStale
    else match q.atomics.find? fun a => a.1 == p.psn with
      | some a => s.egressTo q (.roceResponse q.dest p.psn (leBytes 8 a.2))
      | none => s
  | .flush => if !inside then (s.sendAck n q prev).countStale else if s.flushOk q p then s.ackAgain q p.psn else s.nakError n q p.psn .remoteAccess
  | .unlisted => s.nakError n q p.psn .invalidRequest

/-- Congestion was experienced: a CNP, at most one per CNP_GAP_US (R320). -/
def State.answerEcn (s : State) (n at_ : Nat) : State :=
  match s.qp? n with
  | none => s
  | some q =>
    if q.cnpAt.any fun t => decide (at_ < t + 1000 * max 1 (s.fld F.RDT_CC_CFG_CNP_GAP_US)) then s
    else ((s.setQp n { q with cnpAt := some at_ }).egressTo q (.roceCnp q.dest)).inc F.RDT_CNP_COUNTS_SENT

/-- A request of a queue pair whose context is at hand. -/
def State.takeRequest (s : State) (n : Nat) (p : RocePkt) : State :=
  let s1 := if p.ecn then s.answerEcn n p.at_ else s
  match s1.qp? n with
  | none => s1
  | some q =>
    let d := psnBehind q.rqPsn p.psn
    if d = 0 then s1.takeExpected n q p
    else if d ≤ 2 ^ 23 then s1.takeDuplicate n q p d
    else if q.nakSent then s1
    else (s1.setQp n { q with nakSent := true }).egressTo q (.roceNak q.dest q.rqPsn .sequence)

/-! ### Requester (R308, R310) -/

/-- Complete the leading work requests that an acknowledgement up to a PSN covers; READs and atomics wait for their data. -/
def State.ackUpTo : Nat → Nat → Nat → State → State
  | 0, _, _, s => s
  | k + 1, n, psn, s =>
    match s.qp? n with
    | none => s
    | some q =>
      match q.out with
      | [] => s
      | w :: r =>
        if !w.reads && psnLe w.last psn then
          State.ackUpTo k n psn ((s.setQp n { q with out := r, retriesLeft := q.retry, rnrLeft := q.rnrRetry }).sqDone n q w 0)
        else s

/-- An acknowledgement of a PSN. -/
def State.takeAck (s : State) (n psn : Nat) : State :=
  let k := ((s.qp? n).map fun q => q.out.length).getD 0
  (State.ackUpTo k n psn s).settleQps

/-- Send the outstanding packets again from a PSN on. -/
def State.resend (s : State) (n psn : Nat) : State :=
  match s.qp? n with
  | none => s
  | some q => (q.out.flatMap (·.pkts)).foldl (fun t p => if psnLe psn p.psn then t.egressTo q (.roce p) else t) s

/-- Retransmit from a PSN, or give up where no retry is left. -/
def State.retry (s : State) (n psn : Nat) : State :=
  match s.qp? n with
  | none => s
  | some q =>
    if q.retriesLeft = 0 then s.exhaustQp n 8
    else (s.setQp n { q with retriesLeft := q.retriesLeft - 1 }).resend n psn

/-- A NAK for a PSN. -/
def State.takeNak (s : State) (n psn : Nat) (k : NakKind) : State :=
  let s1 := s.takeAck n ((psn + 2 ^ 24 - 1) % 2 ^ 24)
  match s1.qp? n with
  | none => s1
  | some q =>
    if q.out.isEmpty then s1
    else match k with
      | .sequence => s1.retry n psn
      | .rnr =>
        if q.rnrLeft = 0 then s1.exhaustQp n 9
        else s1.setQp n { q with rnrWait := true, rnrLeft := if q.rnrRetry = 7 then 7 else q.rnrLeft - 1 }
      | .invalidRequest => s1.failQp n 5 (some 5)
      | .remoteAccess => s1.failQp n 6 (some 6)
      | .remoteOperation => s1.failQp n 7 (some 7)

/-! ### Rate control (R321) -/

/-- The rate of a port in Mb/s by the Pattern: a group of one port has 400 Gbit/s. -/
def State.portRate (s : State) (p : Nat) : Nat := 400000 / max 1 ((s.pattern.ethernet[p / 4]?).getD 1)

/-- A CNP has arrived at time t. -/
def State.takeCnp (s : State) (n t : Nat) : State :=
  let s1 := s.inc F.RDT_CNP_COUNTS_RECEIVED
  match s1.qp? n with
  | none => s1
  | some q =>
    if !s1.flag F.RDT_CTRL_CC_EN ∨ q.cutAt.any (fun c => decide (t < c + 50000)) then s1
    else
      let g := s1.fld F.RDT_CC_CFG_G
      s1.setQp n { q with
        rt := q.rc, rc := max (q.rc * (65536 - q.alpha / 2) / 65536) (max 1 (s1.fld F.RDT_CC_RATES_MIN_MBPS)),
        alpha := ((65536 - g) * q.alpha + g * 65536) / 65536, steps := 0, cutAt := some t }

/-! ### The context cache and parking (R315-R317) -/

def pktQpn : RdtPkt → Nat
  | .request p => p.qpn
  | .response n _ _ _ _ _ | .ack n _ | .nak n _ _ | .cnp n _ => n

/-- Refresh the cache's and the parking space's registers. -/
def State.countCache (s : State) : State :=
  let k := s.rdt.parked.length
  ((s.setFld F.RDT_CACHE_STATUS_CACHED s.rdt.cache.length).setFld F.RDT_PARK_STATUS_PARKED k).setFld F.RDT_PARK_STATUS_PEAK
    (max k (s.fld F.RDT_PARK_STATUS_PEAK))

/-- The least recently used context that is not pinned and not chosen already. -/
def State.ctxVictim (s : State) : Option Nat :=
  s.rdt.cache.reverse.find? fun n => !s.qpPinned n && !(s.rdt.fetching.any fun f => f.2 == some n)

/-- Start the fetch of a context: beyond 16,384 a victim is chosen. -/
def State.fetchCtx (s : State) (n : Nat) : State :=
  let v := if s.rdt.cache.length + s.rdt.fetching.length < 16384 then none else s.ctxVictim
  s.modRdt fun r => { r with fetching := r.fetching ++ [(n, v)] }

/-- A packet for a context chosen for eviction cancels the choice: another is chosen. -/
def State.cancelVictim (s : State) (n : Nat) : State :=
  if s.rdt.fetching.any fun f => f.2 == some n then
    let v := s.rdt.cache.reverse.find? fun c => c != n && !s.qpPinned c && !(s.rdt.fetching.any fun f => f.2 == some c)
    s.modRdt fun r => { r with fetching := r.fetching.map fun f => if f.2 == some n then (f.1, v) else f }
  else s

/-- Touch a cached context. -/
def State.touchCtx (s : State) (n : Nat) : State := s.modRdt fun r => { r with cache := n :: r.cache.filter (· != n) }

/-- Is a queue pair of the tenant class? -/
def State.isTenantQp (s : State) (n : Nat) : Bool := (s.qp? n).any fun q => q.cls == 1

/-- Park a packet, or drop it at a limit. -/
def State.park (s : State) (p : RdtPkt) : State :=
  let n := pktQpn p
  let mine := (s.rdt.parked.filter fun x => pktQpn x == n).length
  let tenants := (s.rdt.parked.filter fun x => s.isTenantQp (pktQpn x)).length
  if 256 ≤ s.rdt.parked.length ∨ 8 ≤ mine ∨ (s.isTenantQp n ∧ 192 ≤ tenants) then
    (s.inc F.RDT_DROPS_PARK_DROP).raise F.RDT_ISR_PARK_DROP
  else
    let s1 := s.modRdt fun r => { r with parked := r.parked ++ [p] }
    let s2 := if s1.rdt.cache.contains n || s1.rdt.writing.contains n || s1.rdt.fetching.any fun f => f.1 == n then s1 else s1.fetchCtx n
    s2.countCache

/-- Is the queue pair connected? -/
def State.qpConnected (s : State) (n : Nat) : Bool := (s.qp? n).any fun q => q.state == 1

end Sys2Proof.Machine
end

