-- ==== Sys2Proof/Machine/WriteOps.lean ====
section
/-! DEFINITION. How a write's data moves from the host into the commit rings, and how it ends (03, 12), as the
operations that commands share. -/
namespace Sys2Proof.Machine

/-! ### Mapping blocks of a command's data (R285) -/

def State.xferLbaf (s : State) (x : Xfer) : Nat := s.nsLbaf x.cmd.nsid

/-- The first mapping block of a command and how many it touches. -/
def State.xferRange (s : State) (x : Xfer) : Nat × Nat := blockRange (s.xferLbaf x) x.cmd.slba x.cmd.nlb

/-- Where the bytes of mapping block j of a command begin in its data, how many there are, and their place in the
block. -/
def blockBytes (f slba nlb j : Nat) : Nat × Nat × Nat :=
  if lbaf512 f then
    let b := slba / 8 + j
    let lo := max slba (8 * b)
    let hi := min (slba + nlb) (8 * b + 8)
    ((lo - slba) * 512, (hi - lo) * 512, (lo - 8 * b) * 512)
  else (4096 * j, 4096, 0)

/-- The bytes of mapping block j, its sectors outside the mask zero, where all of them have come. -/
def State.xferBlock (s : State) (x : Xfer) (j : Nat) : Option Bytes :=
  let (off, n, at_) := blockBytes (s.xferLbaf x) x.cmd.slba x.cmd.nlb j
  if off + n ≤ x.bytes.length then some (splice zeroBlock at_ (slice x.bytes off n)) else none

/-- Check the protection information of the logical blocks that have come whole: the first that fails gives its
status, with the number of blocks that are good. -/
def State.xferCheck (s : State) (x : Xfer) : HostStat × Nat :=
  let f := s.xferLbaf x
  let n := x.bytes.length / lbaSize f
  if !lbafPi f || x.cmd.pract then (hsSuccess, n)
  else
    (List.range (min n x.pi.length - x.checked)).foldl (fun (a : HostStat × Nat) i =>
      let k := x.checked + i
      if a.1 != hsSuccess then a
      else
        let st := piCheck f (s.nsPi x.cmd.nsid) (s.nsAppTag x.cmd.nsid) x.cmd.slba x.cmd.initTag x.cmd.prchk k
          (slice x.bytes (k * lbaSize f) (lbaSize f)) ((x.pi[k]?).getD { guard := 0, app := 0, ref := 0 })
        if st == hsSuccess then (hsSuccess, k + 1) else (st, k)) (hsSuccess, x.checked)

/-! ### Own-ring placement (R71) -/

/-- The first bytes of an entry have come: it is FILLING. -/
def State.startFilling (s : State) (o : Origin) (upTo : Nat) : State :=
  (s.commit.own.filter fun e => e.origin == o && e.st == .reserved && decide (e.first < upTo)).foldl (fun t e =>
    t.modEntry e.inst e.seq fun e => { e with st := .filling }) s

/-- Place one block of an entry. -/
def placeIn (e : Entry) (lba : Nat) (data : Bytes) : Entry :=
  { e with
    st := if e.st == .reserved then .filling else e.st,
    blocks := e.blocks.map fun b => if b.lba == lba then { b with data := data, guard := carryGuard data, placed := true } else b }

/-- The last block of an entry is placed: END goes to the partner, or with none the entry is COMPLETE. -/
def State.localDone (s : State) (e : Entry) : State :=
  let s1 := s.modEntry e.inst e.seq fun e => { e with st := .localDone }
  if e.mirrored then s1.sendEnd e else if s.ctl.hold.unseated then s1 else (s1.startSync e.inst e.seq e.volume e.first e.count e.origin).finishEntry e

/-- Place a block of a command the head received for a volume it holds. -/
def State.placeOwn (s : State) (o : Origin) (lba : Nat) (data : Bytes) : State :=
  match s.commit.own.find? fun e => e.origin == o && decide (e.first ≤ lba) && decide (lba < e.first + e.count) && (e.st == .reserved || e.st == .filling) with
  | none => s
  | some e =>
    let e1 := placeIn e lba data
    let s1 := s.modEntry e.inst e.seq fun _ => e1
    let k := lba - e.first
    let s2 := if e.mirrored then s1.send (.efmoBlock
        { seq := e.seq, slot := (e.mirrorFirst + k) % 8192, mask := ((e1.blocks[k]?).map (·.mask)).getD 0xFF, volume := e.volume, index := k,
          forwarded := false, lba := lba, data := data, guard := carryGuard data }) else s1
    if e1.blocks.all (·.placed) then s2.localDone e1 else s2

/-! ### Forwarded writes at the receiving head (R17, R79) -/

/-- Place a block of a forwarded write in this head's mirror ring, and send it to the home head's own ring. -/
def State.placeForwarded (s : State) (o : Origin) (lba : Nat) (data : Bytes) : State :=
  match s.commit.fwd.find? fun f => f.origin == o && f.replied && decide (f.lba ≤ lba) && decide (lba < f.lba + f.count) with
  | none => s
  | some f =>
    let k := lba - f.lba
    let mask := sectorMask (s.nsLbaf f.cmd.nsid) f.cmd.slba f.cmd.nlb lba
    let b : RBlock := { lba := lba, mask := mask, data := data, guard := carryGuard data, placed := true, dirty := false, poisoned := false, refetched := false }
    let f1 : Fwd := { f with blocks := f.blocks ++ [b] }
    let m : MSlot := { seq := f.seq, volume := f.volume, lba := lba, index := k, mask := mask, data := data, guard := carryGuard data, good := true, done := false }
    let s1 := s.modCommit fun c => { c with
      fwd := c.fwd.map (fun g => if g == f then f1 else g), mslots := c.mslots.put ((f.mirrorFirst + k) % 8192) m }
    let s2 := s1.send (.efmoBlock { seq := f.seq, slot := (f.own + k) % 8192, mask := mask, volume := f.volume, index := k, forwarded := true,
                                    lba := lba, data := data, guard := carryGuard data })
    if f1.blocks.length = f.count then
      (s2.send (.efmoMarker false { seq := f.seq, firstSlot := f.own, count := f.count, fold := guardFold f1.blocks, forwarded := true })).modCommit
        fun c => { c with mentries := c.mentries ++ [{ seq := f.seq, volume := f.volume, slots := slotsFrom f.mirrorFirst f.count }] }
    else s2

/-! ### Transfers -/

def State.xfer? (s : State) (queue cid : Nat) : Option Xfer := s.commit.xfers.find? fun x => x.origin.queue == queue && x.origin.cid == cid
def State.dropXfer (s : State) (o : Origin) : State :=
  s.modCommit fun c => { c with xfers := c.xfers.filter (fun x => x.origin != o), pieces := c.pieces.filter fun p => p.origin != o }

/-- A transfer fails: the pieces that are not placed are ABORTED, and the command fails with a status. -/
def State.failXfer (s : State) (x : Xfer) (st : HostStat) : State :=
  let o := x.origin
  let mine := s.commit.own.filter fun e => e.origin == o
  let s1 := (mine.filter fun e => e.st == .reserved || e.st == .filling).foldl (fun t e => t.abortEntry e.inst e.seq) (s.dropXfer o)
  let s2 := mine.foldl (fun t e => t.modEntry e.inst e.seq fun e => { e with completed := true }) s1
  let fs := s.commit.fwd.filter fun f => f.origin == o
  let s3 := (fs.filter fun f => f.replied && decide (f.blocks.length < f.count)).foldl (fun t f =>
    (t.send (.efmoMarker true { seq := f.seq, firstSlot := f.own, count := f.count, fold := 0, forwarded := true })).mirrorDone f.seq
      (slotsFrom f.mirrorFirst f.count)) s2
  let s4 := s3.modCommit fun c => { c with fwd := c.fwd.filter (fun f => f.origin != o), waiting := c.waiting.filter fun w => w.origin != o }
  s4.completeHost o st

/-- Has a block of a transfer a place to go: an entry of the own ring, or a piece whose home head has named its slots? -/
def State.hasPlace (s : State) (o : Origin) (lba : Nat) : Bool :=
  (s.commit.own.any fun e => e.origin == o && decide (e.first ≤ lba) && decide (lba < e.first + e.count)) ||
  (s.commit.fwd.any fun f => f.origin == o && f.replied && decide (f.lba ≤ lba) && decide (lba < f.lba + f.count))

/-- Place the blocks of a transfer that are whole and checked, as far as their pieces have been admitted. -/
def State.placeReady : Nat → Origin → Nat → State → State
  | 0, _, _, s => s
  | k + 1, o, good, s =>
    match s.xfer? o.queue o.cid with
    | none => s
    | some x =>
      let (first, n) := s.xferRange x
      let (off, len, _) := blockBytes (s.xferLbaf x) x.cmd.slba x.cmd.nlb x.placed
      if n ≤ x.placed ∨ good * lbaSize (s.xferLbaf x) < off + len ∨ !s.hasPlace o (first + x.placed) then s
      else match s.xferBlock x x.placed with
        | none => s
        | some d =>
          let s1 := s.modCommit fun c => { c with xfers := c.xfers.map fun y => if y.origin == o then { y with placed := y.placed + 1 } else y }
          State.placeReady k o good (if s.commit.fwd.any fun f => f.origin == o then s1.placeForwarded o (first + x.placed) d else s1.placeOwn o (first + x.placed) d)

/-- A transfer whose blocks are all placed is over. -/
def State.endXfer (s : State) (o : Origin) : State :=
  match s.xfer? o.queue o.cid with
  | some x => if (s.xferRange x).2 ≤ x.placed then s.dropXfer o else s
  | none => s

/-- A piece of a write has been admitted: what has come of its data is placed. -/
def State.placeMore (s : State) (o : Origin) : State :=
  match s.xfer? o.queue o.cid with
  | some x =>
    let (first, n) := s.xferRange x
    let touched := first + ((List.range n).filter fun j => decide ((blockBytes (s.xferLbaf x) x.cmd.slba x.cmd.nlb j).1 < x.bytes.length)).length
    (State.placeReady (n + 1) o x.checked (s.startFilling o touched)).endXfer o
  | none => s

/-- A Compare has its host's data. -/
def State.compareReady (s : State) (x : Xfer) : State :=
  let s1 := s.modCommit fun c => { c with
    waiting := c.waiting.map (fun w => if w.origin == x.origin then { w with hostBytes := some x.bytes } else w),
    fwd := c.fwd.map (fun f => if f.origin == x.origin then { f with hostBytes := some x.bytes } else f) }
  match s1.commit.waiting.find? fun w => w.origin == x.origin with
  | some w => s1.tryFinish w.inst w.seq
  | none => s1

/-- Bytes of a command's data arrive, with the protection information of their logical blocks (R285). -/
def State.hostChunk (s : State) (queue cid : Nat) (data : Bytes) (pi : List PiIn) : State :=
  match s.xfer? queue cid with
  | none => s
  | some x0 =>
    let x : Xfer := { x0 with bytes := x0.bytes ++ data, pi := x0.pi ++ pi }
    let (st, good) := s.xferCheck x
    let x1 : Xfer := { x with checked := good }
    let s1 := s.modCommit fun c => { c with xfers := c.xfers.map fun y => if y.origin == x0.origin then x1 else y }
    let (first, n) := s1.xferRange x1
    let touched := first + ((List.range n).filter fun j => decide ((blockBytes (s.xferLbaf x) x.cmd.slba x.cmd.nlb j).1 < x.bytes.length)).length
    let s2 := if x.cmd.op == .write then State.placeReady (n + 1) x.origin good (s1.startFilling x.origin touched) else s1
    if st != hsSuccess then s2.failXfer x1 st
    else if x.cmd.op == .compare then (if x.cmd.nlb * lbaSize (s.xferLbaf x) ≤ x.bytes.length then (s2.compareReady x1).dropXfer x.origin else s2)
    else s2.endXfer x.origin

/-! ### The head's READs of hosts' data (R284, R285) -/

/-- Bytes of a logical block with its metadata. -/
def lbaWire (f : Nat) : Nat := lbaSize f + (if f = 4 then 16 else if lbafPi f then 8 else 0)

/-- Put the READs that wait on the wire while fewer than 16 are outstanding. -/
def State.pumpReads (s : State) (n : Nat) : State :=
  match s.qp? n with
  | none => s
  | some q =>
    if q.state ≠ 1 then s else
    let free := 16 - (q.out.filter OutWqe.reads).length
    (q.readQ.take free).foldl (fun t w =>
      match t.qp? n with
      | some r =>
        let p := mkPkt r r.sqPsn .read w.laddr w.wrId w.len
        t.launch n { r with readQ := r.readQ.tail } { w with pkts := [p] } (max 1 (ceilDiv w.len (pmtuBytes r)))
      | none => t) s

/-- Ask the host for a command's data: what came in the capsule is at hand at once; over RDMA a READ goes to the
host's keyed SGL; over TCP firmware asks. -/
def State.fetchData (s : State) (o : Origin) (c : HostCmd) : State :=
  if c.inCapsule then s.hostChunk o.queue o.cid c.data c.pi
  else
    let s1 := s.send (.hostRead o.queue o.cid)
    if s.qTcp o.queue then s1
    else
      let n := s.qQpn o.queue
      let w : OutWqe := { index := 0, op := 5, wrId := c.sglKey, first := 0, last := 0, len := c.nlb * lbaWire (s.nsLbaf c.nsid),
                          signaled := false, laddr := c.sglAddr, got := 0, host := some (o.queue, o.cid), bytes := [], pi := [], pkts := [] }
      (s1.modQp n fun q => { q with readQ := q.readQ ++ [w] }).pumpReads n

/-! ### Admission (R86-R88, R97) -/

/-- The next commit sequence number of an instance. -/
def State.nextSeq (s : State) (i : Nat) : Nat := ofInst s.commit.lastSeq i + 1

/-- Take a commit sequence number. -/
def State.takeSeqNo (s : State) (i : Nat) : State := s.modCommit fun c => { c with lastSeq := putInst c.lastSeq i (ofInst c.lastSeq i + 1) }

/-- Ranges of an instance in the commit interlock. -/
def State.interlockOf (s : State) (i : Nat) : Nat := (s.commit.interlock.filter fun r => r.inst == i).length

def State.lockRange (s : State) (i seq vol lba count : Nat) : State :=
  s.modCommit fun c => { c with interlock := c.interlock ++ [{ inst := i, seq := seq, volume := vol, lba := lba, count := count }] }

/-- The atomic pieces of a run of blocks: 64 from its first, the last the remainder (R92). -/
def piecesOf : Nat → Nat → Nat → List (Nat × Nat)
  | 0, _, _ => []
  | k + 1, lba, n => if n = 0 then [] else (lba, min 64 n) :: piecesOf k (lba + 64) (n - 64)

/-- Enter one piece of a write in the own ring: RESERVED, its sequence number and interlock entry given (R71). -/
def State.reserveEntry (s : State) (o : Origin) (i vol lba n : Nat) (mask : Nat → Nat) : State :=
  let seq := s.nextSeq i
  let m := s.mirroring
  let wt := s.writeThrough
  let b (k : Nat) : RBlock := { lba := lba + k, mask := mask (lba + k), data := zeroBlock, guard := 0, placed := false, dirty := !wt, poisoned := false, refetched := false }
  let e : Entry := { inst := i, seq := seq, volume := vol, first := lba, count := n, ownFirst := s.commit.ownHead, st := .reserved,
                     mirrorFirst := s.commit.mirrorHead, mirrored := m, resends := 0, writeThrough := wt, completed := false, drained := false, origin := o,
                     blocks := (List.range n).map b }
  let s1 := (s.takeSeqNo i).lockRange i seq vol lba n
  let s2 := s1.modCommit fun c => { c with
    own := c.own ++ [e], ownHead := (c.ownHead + n) % 8192, mirrorHead := if m then (c.mirrorHead + n) % 8192 else c.mirrorHead }
  let s3 := s2.setFld F.CMT_RING_STATUS_OWN_FREE (s.ownFree - n)
  let s4 := if m then s3.setFld F.CMT_RING_STATUS_MIRROR_CREDITS (s.credits - n) else s3
  if wt then s4 else s4.setDirty (s.dirtyBytes + 4096 * n)

/-- Can an entry of n blocks be admitted now? -/
def State.canAdmit (s : State) (n : Nat) : Bool := if s.writeThrough then s.admitsThrough n else s.admits n

/-- Admit the pieces of a write in order; from the first that finds no room on they wait (R92, R97). -/
def State.admitPieces (s : State) (o : Origin) (c : HostCmd) (i vol : Nat) : List (Nat × Nat) → State
  | [] => s
  | p :: r =>
    if s.canAdmit p.2 ∧ s.interlockOf i < 65536 then
      let seq := s.nextSeq i
      let own := s.commit.ownHead
      let mir := s.commit.mirrorHead
      let t := s.reserveEntry o i vol p.1 p.2 (sectorMask (s.nsLbaf c.nsid) c.slba c.nlb)
      (if o.forwarded then t.send (.efmoSlotReply o.queue o.cid seq own mir p.2 0) else t).admitPieces o c i vol r
    else s.modCommit fun x => { x with pieces := x.pieces ++
      [{ cmd := c, origin := o, volume := vol, lba := p.1, count := p.2 + (r.map (·.2)).foldl (· + ·) 0 }] }

/-- The pieces that wait are admitted as room comes, each write's in order. -/
def State.pumpPieces (s : State) : State :=
  s.commit.pieces.foldl (fun t p =>
    ((t.modCommit fun c => { c with pieces := c.pieces.erase p }).admitPieces p.origin p.cmd (t.volHome p.volume) p.volume
      (piecesOf (p.count + 1) p.lba p.count)).placeMore p.origin) s

/-! ### Reads, flushes and deallocates (R288, R289) -/

/-- Enter a command that waits: a read, a Flush, or one range of a deallocate. -/
def State.enterWaiting (s : State) (c : HostCmd) (o : Origin) (i vol lba n : Nat) : State :=
  let w : Waiting := { cmd := c, inst := i, seq := s.nextSeq i, volume := vol, lba := lba, count := n, origin := o, open_ := false, got := [], above := [], hostBytes := none }
  (s.takeSeqNo i).modCommit fun x => { x with waiting := x.waiting ++ [w] }

end Sys2Proof.Machine
end

