-- ==== Sys2Proof/Machine/DrainOps.lean ====
section
/-! DEFINITION. Drain to staging, mirror staging, refetch, deallocates, flushes and the placement protocol's ends
(03, 12), as the operations that commands share. -/
namespace Sys2Proof.Machine

/-! ### Staging slots (R95, R96) -/

def State.stgBase (s : State) : Nat := s.base F.CMT_STG_BASE_LO_BASE_LO F.CMT_STG_BASE_HI_BASE_HI 12
def State.ownSlots (s : State) : Nat := s.fld F.CMT_STG_OWN_SLOTS_SLOTS
def State.mirrorSlots (s : State) : Nat := s.fld F.CMT_STG_MIRROR_SLOTS_SLOTS

/-- The n lowest free slots of a pool: all of them, or as many as it has. -/
def State.stgFree (s : State) (mirror : Bool) (n : Nat) : List Nat :=
  let lo := if mirror then s.ownSlots else 0
  let hi := if mirror then s.ownSlots + s.mirrorSlots else s.ownSlots
  (((List.range (n + s.commit.staging.length)).map (lo + ·)).filter fun k => decide (k < hi) && !s.commit.staging.has k).take n

/-- The key of a version that reads zeros: it takes no slot. -/
def State.zeroKey (s : State) : Nat :=
  ((List.range (s.commit.staging.length + 1)).map (2 ^ 40 + ·)).find? (fun k => !s.commit.staging.has k) |>.getD (2 ^ 40)

/-- Put a version in a staging slot, in DRAM as well. -/
def State.putStg (s : State) (k : Nat) (g : Stg) : State :=
  (if g.zero then s else s.wr (s.stgBase + 4096 * k) g.data).modCommit fun c => { c with staging := c.staging.put k g }

/-! ### Carry guards at the drain (R102) -/

/-- A block is poisoned. -/
def State.countPoison (s : State) : State := ((s.inc F.CMT_ERRS_STAGING_POISON).raise F.CMT_ISR_GUARD).errDefer 0x10

def State.modBlock (s : State) (inst seq lba : Nat) (f : RBlock → RBlock) : State :=
  s.modEntry inst seq fun e => { e with blocks := e.blocks.map fun b => if b.lba == lba then f b else b }

/-- The refetch key of a ring block: even. -/
def refetchRing (inst : Nat) : Nat := 2 * inst

/-- A block of an own-ring entry failed its guard or its ECC: the partner's mirror copy is asked for, or the block is
poisoned. -/
def State.badBlockInRing (s : State) (e : Entry) (b : RBlock) : State :=
  match s.countCarry.refetch e.seq b.lba e.volume (b.lba - e.first) (refetchRing e.inst) with
  | some s1 => s1.modBlock e.inst e.seq b.lba fun b => { b with refetched := true }
  | none => s.countCarry.countPoison.modBlock e.inst e.seq b.lba fun b => { b with poisoned := true }

/-- A refetch fails, or brings a block: what asked goes on. -/
def State.refetchEnd (s : State) (key seq lba : Nat) (block : Option Bytes) : State :=
  if key % 2 = 0 then
    match block with
    | some d => s.modBlock (key / 2) seq lba fun b => { b with data := d, guard := carryGuard d, refetched := false }
    | none => s.countPoison.modBlock (key / 2) seq lba fun b => { b with poisoned := true, refetched := false }
  else
    match block with
    | some d => s.modStitch (key / 2) fun t => { t with data := d, ready := true }
    | none => s.countPoison.poisonStitch (key / 2)

/-! ### The merge of partial blocks (R101) -/

/-- What lies under a partial block: sectors of older versions, and whether more must be read from the map. -/
inductive Under where
  | whole (data : Bytes)
  | poisoned
  | needs (mask : Nat) (data : Bytes)
  deriving DecidableEq, Repr

/-- Merge a version over what is at hand beneath it. -/
def State.under (s : State) (inst vol lba seq mask : Nat) (data : Bytes) : Under :=
  if mask = 0xFF then .whole data
  else
    let (m, d, bad) := s.heldVersion inst vol lba seq
    if bad then .poisoned
    else if m ||| mask = 0xFF then .whole (mergeSectors mask data d)
    else .needs (m ||| mask) (mergeSectors mask data d)

/-- The read of what lies in the map beneath the partial blocks of a version: a waiting entry of the version's own
number, never released. -/
def State.baseRead (s : State) (inst seq vol first count : Nat) (lbas : List Nat) : State :=
  let c : HostCmd := { op := .write, cid := 0, nsid := 0, slba := 0, nlb := 0, prchk := 0, pract := true, initTag := 0, ranges := [],
                       fieldsOk := true, sglOk := true, inCapsule := false, sglAddr := 0, sglKey := 0, data := [], pi := [] }
  let w : Waiting := { cmd := c, inst := inst, seq := seq, volume := vol, lba := first, count := count, open_ := false, got := [], above := [],
                       hostBytes := none, origin := { queue := 0x10000, cid := 0, nth := 0, forwarded := false } }
  if (s.waiting? inst seq).isSome then s
  else lbas.foldl (fun t l => t.readMap inst seq vol l) (s.modCommit fun x => { x with waiting := x.waiting ++ [w] })

/-- A block merged: its bytes and whether it is poisoned; none while its base is being read. -/
def State.merged (s : State) (inst seq vol first lba mask : Nat) (data : Bytes) (poisoned : Bool) : Option (Bytes × Bool) :=
  if poisoned then some (data, true)
  else
    match s.under inst vol lba seq mask data with
    | .whole d => some (d, false)
    | .poisoned => some (data, true)
    | .needs m d =>
      match s.waiting? inst seq with
      | none => none
      | some w =>
        match w.got.get? (lba - first) with
        | some b => some (mergeSectors m d b, false)
        | none => if w.hostBytes.isSome then some (data, true) else none

/-- Does a block need the map to be merged? -/
def State.needsBase (s : State) (inst seq vol lba mask : Nat) (data : Bytes) (poisoned : Bool) : Bool :=
  !poisoned && (match s.under inst vol lba seq mask data with
    | .needs .. => true
    | _ => false)

/-! ### Drain of an own-ring entry (R95) -/

/-- The prior entry of a block (R167): the one kept with its staged versions, else the entry its leaf holds. -/
def State.priorOf (s : State) (vol lba : Nat) : Nat :=
  match s.commit.staging.vals.find? fun g => g.inst == s.volHome vol && g.volume == vol && g.lba == lba && !g.mirror && g.st != .hardened && g.prior != priorUnknown with
  | some g => g.prior
  | none =>
  match s.walk (s.volHome vol) 1 vol (lba / 512) with
  | .leaf p =>
    let e := p.word (lba % 512)
    if lmeKind e = 3 then ((s.commit.staging.get? (lmeId e)).map (·.prior)).getD 0 else e
  | .miss .. => priorUnknown
  | .split .. => priorUnknown
  | _ => 0

/-- LEVEL of a domain (R148). -/
def State.domLevel (s : State) (d : Nat) : Nat :=
  let l := s.rdBits (s.cmpBase + 2 * d) 13 10
  if l = 0 ∨ 0xA ≤ l then 3 else l

/-- The class 0x0 Stitch of a staged version (R108, R123, R148), in hold-up of class 0x8 (R395), which carries its domain's
NO_COMPRESS as class 0x0 does (DESIGN CHOICE, log entry 180). -/
def State.writeStitch (s : State) (k : Nat) (g : Stg) : Stitch :=
  let d := s.volDomain g.volume
  { cls := if s.rows.holdup then 8 else 0, seq := g.seq, lba := g.lba, guard := g.guard, staging := k, volume := g.volume, domain := d, level := (if s.rows.holdup then 1 else s.domLevel d), inst := g.inst,
    flags := s.dedupFlags d + (if bit (s.rdBits (s.cmpBase + 2 * d) 14 14) 0 then 2 else 0),
    data := g.data }

def State.submitWrite (s : State) (k : Nat) (g : Stg) : State :=
  s.modRows fun r => { r with waiting := r.waiting ++ [s.writeStitch k g] }

/-- The class 0x5 Stitch that makes a raw frame of a staged block for a synchronous link (R278). -/
def State.submitSync (s : State) (k : Nat) (g : Stg) : State :=
  match s.snp.sync.find? fun m => m.inst == g.inst && m.seq == g.seq with
  | none => s
  | some m => s.modRows fun r => { r with waiting := r.waiting ++
      [{ cls := 5, seq := g.seq, lba := g.lba, guard := g.guard, staging := k, volume := g.volume, domain := s.volDomain g.volume,
         flags := 0x100, inst := g.inst, gcmSlot := s.linkKey m.link, data := g.data }] }

/-- Install a staged version in the map as in-staging, unless a cut holds it (R91, R267). -/
def State.installStaged (s : State) (k : Nat) (g : Stg) : State :=
  let lme := mkLme 3 (s.volGen g.volume) k
  if s.cutHolds g.inst g.volume g.seq then s.holdInstall g.inst 0 (.mapEntry g.volume g.lba lme g.seq)
  else s.install g.volume g.lba lme g.seq

/-- Stage one block of an own-ring entry: installed and submitted to the Rows unless superseded or poisoned. -/
def State.stageBlock (s : State) (e : Entry) (k : Nat) (b : RBlock) (data : Bytes) (poisoned : Bool) : State :=
  let old := b.superseded || s.newerComplete e.inst e.volume b.lba e.seq
  let g : Stg := { inst := e.inst, seq := e.seq, volume := e.volume, lba := b.lba, data := data, guard := carryGuard data, mirror := false,
                   superseded := old, poisoned := poisoned, dirty := b.dirty && !old, zero := false, prior := s.priorOf e.volume b.lba, index := b.lba - e.first,
                   st := if old || poisoned then .dropped else .waiting }
  let s1 := s.putStg k g
  if old then s1.freeStg k
  else
    let s2 := s1.installStaged k g
    if poisoned then s2 else (s2.submitWrite k g).submitSync k g

/-- May entries drain now: the journal and the pinned pages leave room, and content ids are to be had (R177, R194, R179)?
In hold-up the pinned pages stop no drain; without a content id in one held instance the drain of every held one stops
(both DESIGN CHOICE, log entry 181). -/
def State.drains (s : State) : Bool :=
  (s.rows.holdup || (!s.commit.drainStop && !s.pinStop)) && (List.range 2).all fun i => !s.holds i || (s.takeCid i).isSome

/-- The entry is staged: its ring slots are free from the tail, its interlock range goes, and in write-through its
blocks are awaited. -/
def State.drainedEntry (s : State) (e : Entry) : State :=
  let s1 := (s.modEntry e.inst e.seq fun e => { e with drained := true, blocks := e.blocks.map fun b => { b with dirty := false } }).unlock e.inst e.seq
  let s2 := s1.modCommit fun c => { c with waiting := c.waiting.filter fun w => !(w.inst == e.inst && w.seq == e.seq) }
  let s3 := if e.writeThrough then s2.modCommit fun c => { c with wt := c.wt ++
      [{ inst := e.inst, seq := e.seq, volume := e.volume, lbas := e.blocks.map (·.lba), origin := e.origin, ownFirst := e.ownFirst, count := e.count,
         covers := e.covers }] }
    else s2
  s3.freeTail

/-- Drain a COMPLETE entry. `bad` names the blocks whose guard or ECC failed on the way. A partial block waits for
the writes below it, and for its base. -/
def State.drainEntry (s : State) (inst seq : Nat) (bad : List Nat) : State :=
  match s.entry? inst seq with
  | none => s
  | some e0 =>
    if !(e0.st == .complete || (s.rows.holdup && e0.st == .localDone)) || e0.drained || !s.drains then s
    else
      let s1 := (e0.blocks.filter fun b => bad.contains (b.lba - e0.first) && !b.refetched && !b.poisoned).foldl (fun t b => t.badBlockInRing e0 b) s
      match s1.entry? inst seq with
      | none => s1
      | some e =>
        let part := e.blocks.any fun b => b.mask != 0xFF && !b.poisoned
        if e.blocks.any (·.refetched) || (part && !s1.settledBelow inst seq e.volume e.first e.count) then s1
        else
          let need := (e.blocks.filter fun b => s1.needsBase inst seq e.volume b.lba b.mask b.data b.poisoned).map (·.lba)
          let s2 := if need.isEmpty then s1 else s1.baseRead inst seq e.volume e.first e.count need
          let done := e.blocks.filterMap fun b =>
            (s2.merged inst seq e.volume e.first b.lba b.mask b.data b.poisoned).map fun p => (b, p.1, p.2)
          let slots := s2.stgFree false e.count
          if done.length < e.count || slots.length < e.count then s2
          else
            let s3 := (done.zip slots).foldl (fun t p =>
              (if p.1.2.2 && !p.1.1.poisoned then t.countPoison else t).stageBlock e p.2 p.1.1 p.1.2.1 p.1.2.2) s2
            (s3.drainedEntry e).tryJournal inst seq

/-- Merge an adopted version that holds only some sectors, once its base is at hand. -/
def State.mergeAdopted (s : State) (inst seq : Nat) : State :=
  let l := s.commit.staging.filter fun p => p.2.inst == inst && p.2.seq == seq && !p.2.mirror && p.2.mask != 0xFF && !p.2.superseded && !p.2.poisoned
  match l with
  | [] => s
  | (_, g0) :: _ =>
    if !s.settledBelow inst seq g0.volume (l.foldl (fun m p => min m p.2.lba) g0.lba) 64 then s
    else
      let first := l.foldl (fun m p => min m p.2.lba) g0.lba
      let need := (l.filter fun p => s.needsBase inst seq p.2.volume p.2.lba p.2.mask p.2.data false).map (·.2.lba)
      let s1 := if need.isEmpty then s else s.baseRead inst seq g0.volume first 64 need
      let s2 := l.foldl (fun t p =>
        match t.merged inst seq p.2.volume first p.2.lba p.2.mask p.2.data false with
        | none => t
        | some (d, true) => t.countPoison.modStg p.1 fun g => { g with mask := 0xFF, data := d, poisoned := true, st := .dropped }
        | some (d, false) =>
          let g : Stg := { p.2 with mask := 0xFF, data := d, guard := carryGuard d }
          (t.putStg p.1 g).submitWrite p.1 g) s1
      if s2.commit.staging.any fun p => p.2.inst == inst && p.2.seq == seq && !p.2.mirror && p.2.mask != 0xFF && !p.2.superseded && !p.2.poisoned then s2
      else s2.modCommit fun c => { c with waiting := c.waiting.filter fun w => !(w.inst == inst && w.seq == seq) }

/-! ### Drain of a mirror entry (R72, R95) -/

/-- Drain a COMPLETE mirror entry to free staging slots. -/
def State.drainMirrorTo (s : State) (slots : List Nat) (seq volume : Nat) : State :=
  match s.commit.mentries.find? fun m => m.seq == seq && m.volume == volume with
  | none => s
  | some m =>
    if slots.length < m.slots.length then s
    else
      let s1 := (m.slots.zip slots).foldl (fun t p =>
        match s.commit.mslots.get? p.1 with
        | none => t
        | some x => t.putStg p.2 { inst := s.volHome x.volume, seq := x.seq, volume := x.volume, lba := x.lba, data := x.data, guard := x.guard, mirror := true,
                                   superseded := false, poisoned := false, dirty := false, zero := false, prior := 0, st := .waiting, mask := x.mask, index := x.index }) s
      (s1.modCommit fun c => { c with mentries := c.mentries.filter fun x => x != m }).mirrorDone seq m.slots

/-- Drain a COMPLETE mirror entry to the mirror pool. -/
def State.drainMirror (s : State) (seq volume : Nat) : State :=
  match s.commit.mentries.find? fun m => m.seq == seq && m.volume == volume with
  | none => s
  | some m => s.drainMirrorTo (s.stgFree true m.slots.length) seq volume

/-! ### Write Zeroes and deallocates (R289, R167) -/

/-- The whole 4 KiB blocks of a run of logical blocks (log entry 92: partial blocks are left as they are). -/
def wholeRange (f slba nlb : Nat) : Nat × Nat :=
  if lbaf512 f then
    let lo := (slba + 7) / 8
    let hi := (slba + nlb) / 8
    (lo, hi - lo)
  else (slba, nlb)

/-- Apply the change of one block to kind 10; gives the records of its group. -/
def State.zeroOne (s : State) (inst seq vol lba : Nat) : State × List JRec :=
  let lme := mkLme 2 (s.volGen vol) 0
  let jseq := s.nextJseq inst
  let prior := s.priorOf vol lba
  let old := s.chained inst vol lba prior
  let p := if lmeKind old = 1 then s.refDrop (lmeId old) else (s, [])
  let above := s.commit.staging.vals.any fun g => g.inst == inst && g.volume == vol && g.lba == lba && !g.mirror && decide (seq < g.seq) && !g.superseded
  let s2 := p.1.supersede inst vol lba seq
  let s3 := s2.putStg s2.zeroKey
    { inst := inst, seq := seq, volume := vol, lba := lba, data := zeroBlock, guard := carryGuard zeroBlock, mirror := false, superseded := above,
      poisoned := false, dirty := false, zero := true, prior := prior, st := .journaled jseq }
  (if above then s3 else s3.install vol lba lme seq, [.mapEntry vol lba lme seq] ++ p.2)

/-- The page that must be fetched before the change of a run of blocks can be journaled: a leaf of the map, or the content
page of a block it supplants. -/
def State.missingFor (s : State) (inst vol lba count : Nat) : Option (Nat × Nat × Nat × Nat) :=
  (List.range count).findSome? fun k =>
    match s.walk (s.volHome vol) 1 vol ((lba + k) / 512) with
    | .miss level ident loc => some (1, level, ident, loc)
    | _ =>
      let e := s.chained inst vol (lba + k) (s.priorOf vol (lba + k))
      if lmeKind e = 1 then (s.recMissing (lmeId e)).map fun m => (2, m) else none

/-- Change the blocks of a Write Zeroes or deallocate range, one group for each 128 of them, as far as their pages are at
hand. -/
def State.zeroRuns : Nat → Nat → Nat → State → State
  | 0, _, _, s => s
  | k + 1, inst, seq, s =>
    match s.waiting? inst seq with
    | none => s
    | some w =>
      if w.count = 0 then s
      else
        let m := min 128 w.count
        match s.missingFor inst w.volume w.lba m with
        | some (tree, level, ident, loc) => s.waitPage inst tree level ident loc [] []
        | none =>
          let (s1, recs) := (List.range m).foldl (fun (a : State × List JRec) j =>
            let q := a.1.zeroOne inst seq w.volume (w.lba + j)
            (q.1, a.2 ++ q.2)) (s, [])
          let s2 := s1.buildGroup inst (recs ++ [s1.allocRec inst])
          State.zeroRuns k inst seq ((s2.modWaiting inst seq fun x => { x with lba := w.lba + m, count := w.count - m }).modCommit fun c => { c with wt := c.wt ++
            [{ inst := inst, seq := seq, volume := w.volume, lbas := (List.range m).map (w.lba + ·), origin := w.origin, ownFirst := 0, count := 0 }] })

/-- Apply a Write Zeroes or deallocate range once every lower-numbered overlapping write has settled and every
lower-numbered overlapping read has gathered its blocks. -/
def State.applyZero (s : State) (inst seq : Nat) : State :=
  match s.waiting? inst seq with
  | none => s
  | some w =>
    if !(w.cmd.op == .deallocate || w.cmd.op == .writeZeroes) then s
    else if !s.settledBelow inst seq w.volume w.lba w.count || s.cutHolds inst w.volume seq || (s.jnl inst).hold ||
        (s.commit.waiting.any fun r => r.inst == inst && decide (r.seq < seq) && overlaps r.volume r.lba r.count w.volume w.lba w.count &&
          (List.range r.count).any fun k => decide (w.lba ≤ r.lba + k) && decide (r.lba + k < w.lba + w.count) && r.reaches inst w.volume (r.lba + k)) then s
    else
      let s1 := State.zeroRuns (w.count / 128 + 1) inst seq s
      match s1.waiting? inst seq with
      | some x =>
        if x.count ≠ 0 then s1
        else
          let s2 := (s1.modCommit fun c => { c with waiting := c.waiting.filter fun y => !(y.inst == inst && y.seq == seq) }).unlock inst seq
          if w.count = 0 then s2.pieceThrough { inst := inst, seq := seq, volume := w.volume, origin := w.origin, ownFirst := 0, count := 0 } else s2
      | none => s1

/-! ### Flush (R70) -/

/-- Is every write of a Flush's volume below it complete, in write-through durable? -/
def State.flushReady (s : State) (w : Waiting) : Bool :=
  !(s.commit.own.any fun e => e.inst == w.inst && e.volume == w.volume && decide (e.seq < w.seq) &&
      (e.st == .reserved || e.st == .filling || e.st == .localDone || (e.st == .complete && e.writeThrough && !e.drained))) &&
  !(s.commit.wt.any fun x => x.inst == w.inst && x.volume == w.volume && decide (x.seq < w.seq)) &&
  !(s.commit.waiting.any fun x => x.inst == w.inst && x.volume == w.volume && decide (x.seq < w.seq) && (x.cmd.op == .deallocate || x.cmd.op == .writeZeroes))

/-! ### Mirrored groups and the horizon (R95, R193, R37) -/

/-- Apply the mirrored groups that follow on the last applied one, in JSEQ order. -/
def State.applyHeldN : Nat → Nat → State → State
  | 0, _, s => s
  | k + 1, i, s =>
    match (s.jnl i).mirrored.find? fun g => g.jseq == (s.jnl i).lastApplied + 1 with
    | some g => State.applyHeldN k i (s.applyGroup g)
    | none => s

def State.applyHeld (s : State) (i : Nat) : State := State.applyHeldN (s.jnl i).mirrored.length i s

/-- A joiner applies the groups of its home instance as they come (R37 steps 3 and 6). -/
def State.joinerApplies (s : State) (i : Nat) : Bool := i == s.headId && s.pairSt.rejoin.any fun r => !r.survivor

/-- A record whose effect is not in a tree's pages: roots of the trees and what lies in DRAM tables. -/
def outsidePages : JRec → Bool
  | .pointer slot _ _ => decide (0xFFFD ≤ slot)
  | .mapEntry .. | .content .. | .relocate .. => false
  | _ => true

/-- The groups of the partner's that fall below its tail leave the head: what they did to pages is on flash, and the
rest is applied as they go (log entry 112). -/
def State.passTail (s : State) (i tail : Nat) : State :=
  if s.joinerApplies i then s
  else
    let l := sortBy (fun a b => decide (a.jseq ≤ b.jseq)) ((s.jnl i).mirrored.filter fun g => decide (g.jseq < tail))
    (l.foldl (fun t g => (g.recs.filter outsidePages).foldl (fun u r => u.applyForeign i g.jseq r) t) s).modJnl i fun j =>
      { j with lastApplied := max j.lastApplied (tail - 1) }

/-- The partner's horizon and tail: mirror staging at or below the one and groups below the other are freed. -/
def State.takeHorizon (s0 : State) (i horizon tail : Nat) : State :=
  let s := s0.passTail i tail
  let s1 := s.modCommit fun c => { c with staging := c.staging.filter fun p =>
    !(p.2.inst == i && decide (p.2.seq ≤ horizon) && (p.2.mirror || (s.joinerApplies i && p.2.st == .waiting && !p.2.dirty))) }
  s1.modJnl i fun j => { j with mirrored := j.mirrored.filter (fun g => decide (tail ≤ g.jseq)), partnerTail := tail }

/-! ### Entries that become COMPLETE (R71, R278) -/

/-- An entry is COMPLETE: synchronous replication takes it first. -/
def State.entryComplete (s : State) (e : Entry) : State :=
  (s.startSync e.inst e.seq e.volume e.first e.count e.origin).finishEntry e

end Sys2Proof.Machine
end

