-- ==== Sys2Proof/Machine/FetchOps.lean ====
section
/-! DEFINITION. The fetch unit, the ordering point of forwarded commands, and what a head does with a command of its
partner's volumes (12, 01), as the operations that commands share. -/
namespace Sys2Proof.Machine

/-! ### Hearing the partner -/

/-- Does the head take messages from the partner: the link is up and receive is not fenced (R32)? -/
def State.hearsPartner (s : State) : Bool := s.efmoUp && !s.efmo.fenced && !s.silent

/-! ### What a command covers (R297, R289) -/

/-- The NVMe opcode of a command. -/
def hostOpcode : HostOp → Nat
  | .flush => 0x00
  | .write => 0x01
  | .read => 0x02
  | .compare => 0x05
  | .writeZeroes => 0x08
  | .deallocate => 0x09
  | .verify => 0x0C
  | .other n => n

/-- Does a command draw on the write bucket? An opcode the head does not support counts by its direction bits (log
entry). -/
def drawsWrite : HostOp → Bool
  | .write | .writeZeroes | .deallocate | .flush => true
  | .other n => n % 4 == 1
  | _ => false

/-- Does it move data of at most MDTS? -/
def movesData : HostOp → Bool
  | .read | .write | .compare => true
  | _ => false

/-- The 4 KiB blocks a command covers. -/
def State.cmdBlocks (s : State) (c : HostCmd) : Nat :=
  let f := s.nsLbaf c.nsid
  match c.op with
  | .flush => 0
  | .deallocate => (c.ranges.map fun r => (blockRange f r.1 r.2).2).foldl (· + ·) 0
  | _ => (blockRange f c.slba c.nlb).2

/-- Does a run of logical blocks end beyond the volume? -/
def beyond (f size slba nlb : Nat) : Bool := decide ((if lbaf512 f then 8 * size else size) < slba + nlb)

/-- A namespace mismatch (R283). -/
def State.nsMismatch (s : State) (nsid : Nat) : Bool :=
  let v := s.nsVolume nsid
  bit (s.nsFlags nsid) 1 != (s.volHome v == 1) || !piSuits (s.nsLbaf nsid) (s.nsPi nsid) || !s.volValid v

/-- In-capsule data that is not that of a write of at most 16 KiB (R280; log entry 188). -/
def capsuleBad (c : HostCmd) : Bool := c.inCapsule && (c.op != .write || decide (16384 < c.data.length))

/-- The status with which a command ends at its fetch; success where it runs (R282, R283, R287, R13). -/
def State.fetchStatus (s : State) (q : Nat) (c : HostCmd) : HostStat :=
  let f := s.nsLbaf c.nsid
  let v := s.nsVolume c.nsid
  let far := match c.op with
    | .flush => false
    | .deallocate => c.ranges.any fun r => beyond f (s.volSize v) r.1 r.2
    | _ => beyond f (s.volSize v) c.slba c.nlb
  let known := match c.op with
    | .other _ => false
    | _ => true
  let changes := c.op == .write || c.op == .writeZeroes || c.op == .deallocate
  if s.headState = stJoining then hsInaccessible
  else if !known then hsOpcode
  else if !s.nsActive (s.qCntl q) c.nsid then hsNamespace
  else if s.nsMismatch c.nsid then hsNotReady
  else if !c.fieldsOk || (movesData c.op && decide (2 ^ 21 < c.nlb * lbaSize f)) || decide (256 < c.ranges.length) then hsField
  else if !c.sglOk || capsuleBad c then hsSgl
  else if changes && (bit (s.nsFlags c.nsid) 2 || s.volReadOnly v) then hsProtected
  else if far then hsRange
  else if c.op == .write && s.serves (s.volHome v) && s.spaceStop (s.volHome v) then hsCapacity
  else hsSuccess

/-- A command's bytes (R297). -/
def State.cmdBytes (s : State) (q : Nat) (c : HostCmd) : Nat :=
  if c.op == .flush || s.fetchStatus q c != hsSuccess then 4096 else 4096 * s.cmdBlocks c

/-! ### Pacing (R297) -/

/-- Is write fetch paced now? -/
def State.writePaced (s : State) : Bool :=
  s.flag F.NVQ_CTRL_PACE_EN &&
    (s.writeThrough || decide (min 0x64 (s.fld F.NVQ_CTRL_PACE_START_PCT) * s.effLimit ≤ 100 * s.dirtyBytes))

/-- Note whether write pacing has begun. -/
def State.testPacing (s : State) : State :=
  let now := s.writePaced
  let s1 := s.modCommit fun c => { c with pacing := now }
  if now && !s.commit.pacing then s1.raise F.NVQ_ISR_PACING else s1

/-- Does pacing let a command be fetched? -/
def State.bucketOpen (s : State) (op : HostOp) : Bool :=
  if drawsWrite op then !s.writePaced || decide (0 ≤ s.commit.bucketW)
  else !s.flag F.NVQ_CTRL_PACE_EN || decide (0 ≤ s.commit.bucketR)

/-- A fetched command takes its bytes from the bucket that paces it. -/
def State.drawBucket (s : State) (op : HostOp) (bytes : Nat) : State :=
  if drawsWrite op then (if s.writePaced then s.modCommit fun c => { c with bucketW := c.bucketW - bytes } else s)
  else if s.flag F.NVQ_CTRL_PACE_EN then s.modCommit fun c => { c with bucketR := c.bucketR - bytes } else s

/-! ### What holds a command (R15, R31, R37, R87, R88) -/

/-- Does a command of a volume need the partner, while it cannot be reached? -/
def State.partnerWait (s : State) (home : Nat) (op : HostOp) : Bool :=
  if s.serves home then op == .write && s.mirroring && !s.efmoUp
  else s.pairSt.groupHeld || !s.efmoUp

/-- Are new commands of a home group held (R32 step 2, R37 step 4)? -/
def State.homeHeld (s : State) (home : Nat) : Bool := s.pairSt.groupHeld && home != s.headId

/-- May a command of n blocks enter the interlock and the rings of its instance now? A long write goes in piece by piece,
its first piece now. -/
def State.roomFor (s : State) (i n : Nat) (c : HostCmd) : Bool :=
  match c.op with
  | .write => s.canAdmit (min 64 n) && decide (s.interlockOf i < 65536)
  | .writeZeroes => decide (s.interlockOf i < 65536)
  | .deallocate => decide (s.interlockOf i + c.ranges.length ≤ 65536)
  | _ => true

/-- A write waits at its ordering point, or goes on. -/
def State.setAdmitHeld (s : State) (b : Bool) : State :=
  (s.setFlag F.CMT_STATUS_ADMIT_HELD b).modCommit fun c => { c with heldTurn := b && c.heldTurn }

/-- Are all contexts that may be pinned pinned, and this queue's not among them (R315)? -/
def State.pinLimit (s : State) (q : Nat) : Bool :=
  !s.qTcp q && !s.qpPinned (s.qQpn q) && decide (12288 ≤ s.fld F.RDT_CACHE_STATUS_PINNED)

/-! ### The ordering point (R86, R288) -/

/-- The FETCH record (R453). -/
def State.fetchRecord (s : State) (i seq q : Nat) (c : HostCmd) (forwarded : Bool) : State :=
  s.record 1 i (seq % 2 ^ 64 + 2 ^ 64 * (q % 2 ^ 16) + 2 ^ 80 * (hostOpcode c.op % 256) + 2 ^ 88 * (if forwarded then 1 else 0) + 2 ^ 96 * (s.cmdBlocks c % 2 ^ 32))

/-- Enter a command of a volume this head holds: its sequence number, its ring slots, its place among those that wait. -/
def State.orderCmd (s : State) (o : Origin) (c : HostCmd) : State :=
  let f := s.nsLbaf c.nsid
  let v := s.nsVolume c.nsid
  let i := s.volHome v
  let (lba, n) := blockRange f c.slba c.nlb
  let s0 := s.fetchRecord i (s.nextSeq i) o.queue c o.forwarded
  match c.op with
  | .write => s0.admitPieces o c i v (piecesOf (n + 1) lba n)
  | .flush => s0.enterWaiting c o i v 0 0
  | .writeZeroes =>
    let (l, k) := wholeRange f c.slba c.nlb
    (s0.enterWaiting c o i v l k).lockRange i (s0.nextSeq i) v l k
  | .deallocate =>
    if c.ranges.isEmpty then s0.completeHost o hsSuccess
    else c.ranges.foldl (fun t r =>
      let (l, k) := wholeRange f r.1 r.2
      (t.enterWaiting c o i v l k).lockRange i (t.nextSeq i) v l k) s0
  | _ => s0.enterWaiting (if o.forwarded && c.op == .compare then { c with op := .read } else c) o i v lba n

/-- Ask for a command's data, where it brings any to this head. -/
def State.startData (s : State) (o : Origin) (c : HostCmd) : State :=
  let v := s.nsVolume c.nsid
  if c.op == .write || c.op == .compare then
    (s.modCommit fun x => { x with xfers := x.xfers ++
      [{ origin := o, cmd := c, volume := v, home := s.volHome v, bytes := [], pi := [], checked := 0, placed := 0 }] }).fetchData o c
  else s

/-! ### Forwarded commands (R16-R18) -/

/-- Send a command to its home head. -/
def State.forwardCmd (s : State) (o : Origin) (c : HostCmd) : State :=
  let f := s.nsLbaf c.nsid
  let (lba, n) := blockRange f c.slba c.nlb
  let w : Fwd := { cmd := c, origin := o, volume := s.nsVolume c.nsid, lba := lba, count := n, seq := 0, own := 0, mirrorFirst := 0, replied := false,
                   ended := false, blocks := [], got := [], hostBytes := none }
  let s1 := (s.modCommit fun x => { x with fwd := x.fwd ++ [w] }).send (.efmoForward o.queue c)
  if c.op == .compare then s1.startData o c else s1

/-- Take one forwarded command at its ordering point, where it can be admitted. -/
def State.admitForwarded (s : State) (q : Nat) (c : HostCmd) : Option State :=
  let o : Origin := { queue := q, cid := c.cid, nth := 0, forwarded := true }
  let v := s.nsVolume c.nsid
  let i := s.volHome v
  if !s.volValid v then some ((s.inc F.NVQ_EVENTS_NS_MISMATCH).raise F.NVQ_ISR_NS_MISMATCH |>.completeHost o hsNotReady)
  else if c.op == .write && s.spaceStop i then some (s.completeHost o hsCapacity)
  else if s.roomFor i (s.cmdBlocks c) c then some (s.orderCmd o c)
  else none

/-- Take the forwarded commands that can be admitted, in the order they arrived; one that cannot holds the later ones
of its queue (log entry 88). -/
def State.pumpForwarded (s : State) : State :=
  (s.commit.fwdIn.foldl (fun (a : State × List Nat) p =>
    if a.2.contains p.1 ∨ a.1.commit.pieces.any (fun x => x.origin.forwarded && x.origin.queue == p.1) then a
    else match a.1.admitForwarded p.1 p.2 with
      | some t => (t.modCommit fun c => { c with fwdIn := c.fwdIn.erase p }, a.2)
      | none => (if p.2.op == .write then a.1.setAdmitHeld true else a.1, a.2 ++ [p.1])) (s, [])).1

/-- A forwarded command is over at the head that received it. -/
def State.endFwd (s : State) (o : Origin) (st : HostStat) : State :=
  (s.modCommit fun c => { c with fwd := c.fwd.filter (fun f => f.origin != o), xfers := c.xfers.filter fun x => x.origin != o }).completeHost o st

/-- The status whose field a reply carries. -/
def statOf (f : Nat) : HostStat :=
  ([hsSuccess, hsOpcode, hsField, hsTransfer, hsNamespace, hsSgl, hsProtected, hsDigest, hsRange, hsCapacity, hsNotReady, hsUnrecovered, hsGuard,
    hsAppTag, hsRefTag, hsCompare, hsPath, hsInaccessible].find? fun t => t.field == f).getD hsTransfer

/-- When every block of a forwarded read or Compare has come back and the home head has ended it, answer the host. -/
def State.finishFwd (s : State) (f : Fwd) : State :=
  let all := (List.range f.count).all fun k => f.got.has k
  if !f.ended || !all then s
  else
    let b := (List.range f.count).flatMap fun k => (f.got.get? k).getD zeroBlock
    let lb := s.nsLbaf f.cmd.nsid
    let d := if lbaf512 lb then slice b ((f.cmd.slba - 8 * f.lba) * 512) (f.cmd.nlb * 512) else b
    match f.cmd.op with
    | .read =>
      let pi := if f.cmd.pract then [] else piAll lb (s.nsPi f.cmd.nsid) (s.nsAppTag f.cmd.nsid) f.cmd.slba f.cmd.initTag d
      (s.toHost f.origin.queue d.length (.data f.origin.queue f.cmd.cid f.lba lb f.cmd.sglAddr f.cmd.sglKey d pi)).endFwd f.origin hsSuccess
    | .compare => match f.hostBytes with
      | some h => s.endFwd f.origin (if d = h then hsSuccess else hsCompare)
      | none => s
    | _ => s

/-- Finish every forwarded command that can end. -/
def State.finishForwards (s : State) : State := s.commit.fwd.foldl State.finishFwd s

def State.fwd? (s : State) (queue cid : Nat) : Option Fwd :=
  s.commit.fwd.find? fun f => f.origin.queue == queue && f.cmd.cid == cid && !f.replied

/-- The home head names the slots of one piece of a forwarded write; with the first the host's data is asked for. -/
def State.slotsNamed (s : State) (f : Fwd) (seq own mirror n : Nat) : State :=
  let p : Fwd := { f with seq := seq, own := own, mirrorFirst := mirror, count := n, replied := true }
  let rest : List Fwd := if f.count ≤ n then [] else [{ f with lba := f.lba + n, count := f.count - n }]
  let s1 := s.modCommit fun c => { c with fwd := c.fwd.flatMap fun x => if x == f then p :: rest else [x] }
  if (s.xfer? f.origin.queue f.cmd.cid).isNone ∧ !s.commit.fwd.any (fun x => x.origin == f.origin && x.replied) then s1.startData f.origin f.cmd
  else s1.placeMore f.origin

/-! ### The fetch unit (R288, R298) -/

/-- A visit of the fetch unit adds a quantum to a queue's deficit. -/
def State.visitQueue (s : State) (q : Nat) : State :=
  let add : Int := (s.qQuantum q * 4096 : Nat)
  s.setDeficit q (min (s.qDeficit q + add) (2097152 + add))

/-- The head of a queue is taken: counts, SQHD, deficit and bucket. -/
def State.takeHead (s : State) (q bytes : Nat) (op : HostOp) : State :=
  let a := s.qAddr q
  let s1 := (s.wrN (a + 0x10) 8 (s.qFetched q + 1)).wrN (a + 0x1C) 2 (if s.qHead q + 1 < max 2 (s.qSize q) then s.qHead q + 1 else 0)
  ((s1.setDeficit q (s.qDeficit q - bytes)).drawBucket op bytes).count64 F.NVQ_CMDS_LO_COUNT F.NVQ_CMDS_HI_COUNT F.NVQ_CMDS_WRAPS_WRAPS

/-- A fetched command runs: it ends with its error, goes to its home head, or is ordered here. -/
def State.runFetched (s : State) (q : Nat) (c : HostCmd) : State :=
  let st := s.fetchStatus q c
  let o : Origin := { queue := q, cid := c.cid, nth := s.qFetched q, forwarded := false }
  let i := s.volHome (s.nsVolume c.nsid)
  if st == hsNotReady then ((s.inc F.NVQ_EVENTS_NS_MISMATCH).raise F.NVQ_ISR_NS_MISMATCH).completeHost o st
  else if st == hsInaccessible || st == hsOpcode || st == hsNamespace then s.completeHost o st
  else if st != hsSuccess then
    (if s.serves i then (s.fetchRecord i (s.nextSeq i) q c false).takeSeqNo i else s).completeHost o st
  else if s.serves i then (s.orderCmd o c).startData o c
  else s.forwardCmd o c

/-- Pin the queue pair's context until a write's completion is sent (R315). -/
def State.pinWrite (s : State) (q : Nat) (c : HostCmd) : State :=
  if c.op == .write && !s.qTcp q then (s.modQp (s.qQpn q) fun p => { p with pins := p.pins ++ [(q, c.cid)] }).countPins else s

/-- What keeps the command at the head of its queue. -/
def State.headHeld (s : State) (q : Nat) (c : HostCmd) : Bool :=
  let st := s.fetchStatus q c
  let i := s.volHome (s.nsVolume c.nsid)
  let held := st != hsInaccessible && st != hsNamespace && bit (s.nsFlags c.nsid) 3
  held || (s.commit.pieces.any fun p => !p.origin.forwarded && p.origin.queue == q) || (st == hsSuccess &&
    (s.partnerWait i c.op || s.homeHeld i || (c.op == .write && s.pinLimit q) || (s.serves i && !s.roomFor i (s.cmdBlocks c) c)))

/-- Is NVMe/TCP disabled, or the connection of this TCP queue over (R300)? -/
def State.tcpShut (s : State) (q : Nat) : Bool := s.qTcp q && (s.fld F.NVQ_TCP_CFG_LIMIT_PCT == 0 || s.tcpOver q)

/-- The fetch unit comes to a queue whose head is a command; `visit` marks the first look of a round, `more` whether the
queue holds another command after it. -/
def State.commandFetch (s : State) (q : Nat) (c : HostCmd) (visit more : Bool) : State :=
  if !s.flag F.NVQ_CTRL_ENABLE || s.qState q != 1 || !(s.inService || s.headState == stJoining) || s.fetchHeld || decide (2 ≤ s.ctl.hold.phase) || s.tcpShut q then s
  else if s.headHeld q c then
    let s1 := if c.op == .write && s.pinLimit q then s.raise F.RDT_ISR_PIN_FULL else s
    if c.op == .write && s.fetchStatus q c == hsSuccess then s1.setAdmitHeld true else s1
  else
    let s1 := (if visit then s.visitQueue q else s).testPacing
    let b := s1.cmdBytes q c
    if s1.qDeficit q < b || !s1.bucketOpen c.op then s1
    else
      let s2 := if c.op == .write then (s1.takeHead q b c.op).setAdmitHeld false else s1.takeHead q b c.op
      let s3 := if s2.fetchStatus q c == hsSuccess then s2.pinWrite q c else s2
      let s4 := s3.runFetched q c
      if more then s4 else s4.setDeficit q 0

/-! ### Completions that are due (R71, R79, R268, R278) -/

/-- A write is through: its completion meets the guard hold of a set and the volume's synchronous link, then goes to the
host; that of a piece forwarded to this head goes to the head that received it. -/
def State.sendDue (s : State) (d : Due) : State :=
  if s.guardHolds d then s.modSnp fun x => { x with guarded := x.guarded ++ [d] }
  else
    match s.syncGate d with
    | .wait => s.modSnp fun x => { x with syncDue := x.syncDue ++ [d] }
    | .fail => s.completeHost d.origin hsPath
    | .pass =>
      if d.origin.forwarded && d.count != 0 then
        s.ackMarker { seq := d.seq, firstSlot := d.ownFirst, count := d.count, fold := 0, forwarded := true } 0 0
      else s.completeHost d.origin hsSuccess

/-- Send every completion that is due. -/
def State.sendDues (s : State) : State := s.commit.due.foldl State.sendDue (s.modCommit fun c => { c with due := [] })

/-! ### Thaw (R293) -/

/-- A frozen queue returns to live. -/
def State.thaw (s : State) (q : Nat) : State :=
  if s.qState q = 2 then (s.wrN (s.qAddr q + 0x0C) 1 1).countFrozen else s

end Sys2Proof.Machine
end

