-- ==== Sys2Proof/Machine/Commit.lean ====
section
/-! DEFINITION. Write commit (03): the placement protocol, drain, refetch, and the commands that wait on order. -/
namespace Sys2Proof.Machine

/-! ### The mirror ring and forwarded blocks (R72, R78, R79) -/

/-- A block message for the mirror ring. -/
def State.placeMirror (s : State) (m : BlockMsg) : State :=
  let good := carryGuard m.data == m.guard
  let x : MSlot :=
    { seq := m.seq, volume := m.volume, lba := m.lba, index := m.index, mask := m.mask, data := m.data, guard := m.guard, good := good, done := false }
  (if good then s else s.countCarry).modCommit fun c => { c with mslots := c.mslots.put (m.slot % 8192) x }

/-- A block of a forwarded write for the home head's own ring. -/
def State.placeHome (s : State) (m : BlockMsg) : State :=
  let i := s.volHome m.volume
  let s1 := if carryGuard m.data == m.guard then s else s.countCarry
  match s1.entry? i m.seq with
  | none => s1
  | some e =>
    if !e.origin.forwarded || (e.ownFirst + m.index) % 8192 != m.slot % 8192 then s1
    else s1.modEntry i m.seq fun e => { e with
      st := if e.st == .reserved then .filling else e.st,
      blocks := e.blocks.map fun b => if b.lba == e.first + m.index then { b with data := m.data, mask := m.mask, guard := m.guard, placed := true } else b }

/-- BLOCK_MESSAGE. -/
def execBlockMessage (m : BlockMsg) (s : State) : Result :=
  .next (s.live (if !s.hearsPartner then s else if m.forwarded then s.placeHome m else s.placeMirror m))

/-- What an END marker's check finds in a list of blocks, each absent, bad or good with its guard: the answer's status
and failing index. -/
def endCheck (l : List (Option (Bool × Nat))) (fold : Nat) : Nat × Nat :=
  match l.findIdx? Option.isNone with
  | some k => (2, k)
  | none =>
    match l.findIdx? fun x => x.any fun p => !p.1 with
    | some k => (1, k)
    | none => if (l.foldl (fun g x => g ^^^ (x.map (·.2)).getD 0) 0) = fold then (0, 0) else (1, 0xFF)

/-- END of an entry in the mirror ring: COMPLETE where its blocks are all there and good. -/
def State.endMirror (s : State) (m : Marker) : State :=
  let slots := slotsFrom m.firstSlot m.count
  let at_ (k : Nat) : Option MSlot := (s.commit.mslots.get? k).filter fun x => x.seq == m.seq && !x.done
  let (st, idx) := endCheck (slots.map fun k => (at_ k).map fun x => (x.good, x.guard)) m.fold
  let vol := ((slots.head?.bind at_).map (·.volume)).getD 0
  let known := s.commit.mentries.any fun e => e.seq == m.seq && e.slots == slots
  let s1 := if st = 0 ∧ !known then s.modCommit fun c => { c with mentries := c.mentries ++ [{ seq := m.seq, volume := vol, slots := slots }] } else s
  s1.ackMarker m st idx

/-- END of a forwarded write at its home head: COMPLETE, both copies being placed (R17). -/
def State.endHome (s : State) (m : Marker) : State :=
  match s.commit.own.find? fun e => e.origin.forwarded && e.seq == m.seq && e.ownFirst == m.firstSlot && e.st != .complete with
  | none => s
  | some e =>
    let (st, idx) := endCheck (e.blocks.map fun b => if b.placed then some (carryGuard b.data == b.guard, b.guard) else none) m.fold
    if st = 0 then
      let e1 := { e with st := .localDone }
      ((s.modEntry e.inst e.seq fun _ => e1).entryComplete e1).sendDues
    else s.ackMarker m st idx

/-- A message with a reserved code is discarded and counted (R76, R79, R80). -/
def State.discardMsg (s : State) : State := s.inc F.EFM_ERR_COUNTS_DISCARDS

/-- END_MARKER. -/
def execEndMarker (m : Marker) (s : State) : Result :=
  .next (s.live (if !s.hearsPartner then s else if m.kind ≠ 1 then s.discardMsg else if m.forwarded then s.endHome m else s.endMirror m))

/-- ABORT_MARKER: the entry is free, and PLACED acknowledges it. -/
def execAbortMarker (m : Marker) (s : State) : Result :=
  .next (s.live (if !s.hearsPartner then s
    else if m.kind ≠ 2 then s.discardMsg
    else if m.forwarded then
      match s.commit.own.find? fun e => e.origin.forwarded && e.seq == m.seq && e.ownFirst == m.firstSlot with
      | some e => ((s.modEntry e.inst e.seq fun e => { e with st := .aborted }).freeAborted e.inst e.seq).ackMarker m 0 0
      | none => s.ackMarker m 0 0
    else (s.mirrorDone m.seq (slotsFrom m.firstSlot m.count)).ackMarker m 0 0))

/-! ### Placement acknowledgements (R71, R73) -/

/-- The acknowledgement of an entry of the own ring. -/
def State.ackOwn (s : State) (a : AckMsg) : State :=
  match s.commit.own.find? fun e => e.seq == a.seq && e.mirrored && e.mirrorFirst == a.firstSlot && (e.st == .localDone || e.st == .aborted) with
  | none => s
  | some e =>
    if e.st == .aborted then (if a.status = 0 then s.freeAborted e.inst e.seq else s)
    else if a.status = 0 then (s.entryComplete e).sendDues
    else if a.status = 1 ∨ a.status = 2 then
      let s1 := s.modEntry e.inst e.seq fun e => { e with resends := e.resends + 1 }
      if e.resends + 1 < 4 then s1.resendEntry e else s1.errFatal 0x10
    else s

/-- Send a forwarded piece again from this head's mirror ring. -/
def State.resendForwarded (s : State) (f : Fwd) : State :=
  let s1 := (f.blocks.zipIdx).foldl (fun t p => t.send (.efmoBlock
    { seq := f.seq, slot := (f.own + p.2) % 8192, mask := p.1.mask, volume := f.volume, index := p.2, forwarded := true, lba := p.1.lba,
      data := p.1.data, guard := p.1.guard })) s
  s1.send (.efmoMarker false { seq := f.seq, firstSlot := f.own, count := f.count, fold := guardFold f.blocks, forwarded := true })

/-- The home head's acknowledgement of a forwarded piece: the write is done once it has no piece left. -/
def State.ackForwarded (s : State) (a : AckMsg) : State :=
  match s.commit.fwd.find? fun f => f.replied && f.seq == a.seq && f.own == a.firstSlot with
  | none => s
  | some f =>
    if a.status = 0 then
      let s1 := s.modCommit fun c => { c with fwd := c.fwd.filter fun x => x != f }
      if s1.commit.fwd.any fun x => x.origin == f.origin then s1 else s1.completeHost f.origin hsSuccess
    else if a.status = 1 ∨ a.status = 2 then
      let s1 := s.modCommit fun c => { c with fwd := c.fwd.map fun x => if x == f then { x with resends := x.resends + 1 } else x }
      if f.resends + 1 < 4 then s1.resendForwarded f else s1.errFatal 0x10
    else s

/-- PLACEMENT_ACK: the credits it returns are taken in any case. -/
def execPlacementAck (a : AckMsg) (s : State) : Result :=
  .next (s.live (if !s.hearsPartner then s
    else if 2 < a.status then s.discardMsg
    else
      let s1 := s.setFld F.CMT_RING_STATUS_MIRROR_CREDITS (min 8192 (s.credits + a.credit))
      if a.forwarded then s1.ackForwarded a else s1.ackOwn a))

/-! ### Drain (R95, R102) -/

/-- DRAIN_TO_STAGING: of the head's own entry, of an adopted one, or of a mirror entry of a volume. `bad` names the
blocks whose guard or ECC fails on the way. -/
def execDrainToStaging (mirror : Bool) (inst seq volume : Nat) (bad : List Nat) (s : State) : Result :=
  .next (s.live (if mirror then s.drainMirror seq volume
    else if (s.entry? (inst % 2) seq).isSome then s.drainEntry (inst % 2) seq bad
    else s.mergeAdopted (inst % 2) seq))

/-- HARDENED_HORIZON. -/
def execHardenedHorizon (inst horizon tail : Nat) (s : State) : Result :=
  .next (s.live (if s.hearsPartner then s.takeHorizon (inst % 2) horizon tail else s))

/-- JOURNAL_GROUP: a group that did not arrive whole is not kept. -/
def execJournalGroup (inst : Nat) (bytes : Bytes) (s : State) : Result :=
  .next (s.live (match (if s.hearsPartner then groupOf? (inst % 2) bytes else none) with
    | none => s
    | some g =>
      let s1 := s.modJnl g.inst fun j => { j with mirrored := (j.mirrored.filter fun x => x.jseq != g.jseq) ++ [g] }
      if s.joinerApplies g.inst then
        (if (s1.jnl g.inst).lastApplied = 0 then s1.modJnl g.inst fun j => { j with lastApplied := g.jseq - 1 } else s1).applyHeld g.inst
      else s1))

/-! ### Refetch (R80) -/

/-- The version a refetch asks for, in the mirror ring or in mirror staging: its sectors, bytes and guard. -/
def State.mirrorCopy (s : State) (m : RefetchMsg) : Option (Nat × Bytes × Nat) :=
  match s.commit.mslots.vals.find? fun x => x.seq == m.seq && x.volume == m.volume && x.lba == m.lba && x.index == m.block && !x.done with
  | some x => some (x.mask, x.data, x.guard)
  | none => (s.commit.staging.vals.find? fun g => g.mirror && g.seq == m.seq && g.volume == m.volume && g.lba == m.lba && g.index == m.block).map fun g => (g.mask, g.data, g.guard)

/-- REFETCH_REQUEST. `intact` says that the held copy's guard checks. -/
def execRefetchRequest (m : RefetchMsg) (intact : Bool) (s : State) : Result :=
  .next (s.live (if !s.hearsPartner then s
    else if m.kind ≠ 1 then s.discardMsg
    else match s.mirrorCopy m with
      | none => s.send (.efmoRefetchReply { m with kind := 0x81, status := 1 } none)
      | some (mask, d, g) =>
        if intact && carryGuard d == g then
          s.send (.efmoRefetchReply { m with kind := 0x81, status := 0 } (some
            { seq := m.seq, slot := 0, mask := mask, volume := m.volume, index := m.block, forwarded := false, lba := m.lba, data := d, guard := g }))
        else s.countCarry.send (.efmoRefetchReply { m with kind := 0x81, status := 2 } none)))

/-- End the refetch of a token. -/
def State.endRefetch (s : State) (token : Nat) (block : Option Bytes) : State :=
  match s.commit.refetch.get? token with
  | none => s
  | some (key, seq, lba) => (s.modCommit fun c => { c with refetch := c.refetch.del token }).refetchEnd key seq lba block

/-- REFETCH_REPLY: a block whose guard does not check counts as not held. -/
def execRefetchReply (m : RefetchMsg) (block : Option BlockMsg) (s : State) : Result :=
  .next (s.live (if !s.hearsPartner then s
    else if m.kind ≠ 0x81 ∨ 2 < m.status then s.discardMsg
    else s.endRefetch m.token (if m.status = 0 then (block.filter fun b => carryGuard b.data == b.guard).map (·.data) else none)))

/-- REFETCH_TIMEOUT. -/
def execRefetchTimeout (token : Nat) (s : State) : Result := .next (s.live (s.endRefetch token none))

/-! ### Reads, deallocates, flushes (R70, R90, R289) -/

/-- READ_RELEASE: `bad` names the blocks whose merge finds a bad carry guard. -/
def execReadRelease (inst seq : Nat) (bad : List Nat) (s : State) : Result :=
  let i := inst % 2
  .next (s.live (match s.waiting? i seq with
    | none => s
    | some w =>
      if w.open_ || !(w.cmd.op == .read || w.cmd.op == .compare || w.cmd.op == .verify) || s.pinsFull w ||
          !s.settledBelow i seq w.volume w.lba w.count then s
      else s.gather i seq bad))

/-- DEALLOCATE_APPLY. -/
def execDeallocateApply (inst seq : Nat) (s : State) : Result := .next (s.live ((s.applyZero (inst % 2) seq).sendDues))

/-- FLUSH_COMPLETE. -/
def execFlushComplete (inst seq : Nat) (s : State) : Result :=
  .next (s.live (match s.waiting? (inst % 2) seq with
    | none => s
    | some w => if w.cmd.op == .flush && s.flushReady w then s.endWaiting w hsSuccess else s))

/-- WRITE_THROUGH_EXIT. -/
def execWriteThroughExit (s : State) : Result :=
  .next (s.live s.leaveThrough)

end Sys2Proof.Machine
end

