-- ==== Sys2Proof/Machine/AnchorOps.lean ====
section
/-! DEFINITION. Anchor pages and their blocks (08), as the operations that commands share. -/
namespace Sys2Proof.Machine

/-! ### Anchor blocks (R195, R196) -/

def anchorFailedFld (i which : Nat) : Fld := if which = 0 then F.FTL_JNL_ANCHOR_0_FAILED i else F.FTL_JNL_ANCHOR_1_FAILED i
def anchorBlockFld (i which : Nat) : Fld := if which = 0 then F.FTL_JNL_ANCHOR_0_BLOCK i else F.FTL_JNL_ANCHOR_1_BLOCK i
def State.anchorFailed (s : State) (i which : Nat) : Bool := s.flag (anchorFailedFld i which)
def State.anchorBlock (s : State) (i which : Nat) : Nat := s.fld (anchorBlockFld i which)

/-- Pseudo-SLC pages of a module's blocks. -/
def State.slcPages (s : State) (m : Nat) : Nat := ((s.port m).page.map (·.pagesSlc)).getD 1024

/-- The address of the journal page that holds a JSEQ, zero where none does. -/
def State.jpageOf (s : State) (i jseq : Nat) : Nat :=
  (((s.jnl i).pages.find? fun p => decide (jseq ≤ p.2.1)).map (·.2.2)).getD 0

/-- The number of the journal page that holds the tail. -/
def State.tailPage (s : State) (i : Nat) : Nat :=
  (((s.jnl i).pages.find? fun p => decide (s.jnlTail i ≤ p.2.1)).map (·.1)).getD (s.jnl i).nextPage

/-- The bytes of an anchor page: the fields in the order R195 lists them (log entry 113), closed by a CRC-32C. -/
def State.anchorBytes (s : State) (i : Nat) (holdup : Bytes) : Bytes :=
  let root (t : Nat) : Bytes := leBytes 8 (s.treeRoot i t 0)
  let b := leBytes 8 ((s.jnl i).anchorSeq + 1) ++ leBytes 8 (s.jnlTail i) ++ leBytes 8 (s.jpageOf i (s.jnlTail i)) ++
    root 2 ++ root 3 ++ root 4 ++ (holdup ++ zeros 32).take 32
  b ++ leBytes 4 (crc32c b)

/-- The JSEQ of the tail an anchor page names. -/
def anchorTailOf (b : Bytes) : Nat := leNat (slice b 8 8)

/-- The anchor page that some bytes hold, where their CRC checks: its sequence, its tail, the roots of the content, index and
object trees, and its hold-up record. -/
def anchorOf? (b : Bytes) : Option (Nat × Nat × (Nat × Nat × Nat) × Bytes) :=
  let n (off : Nat) : Nat := leNat (slice b off 8)
  if decide (84 ≤ b.length) && crc32c (b.take 80) == leNat (slice b 80 4) then some (n 0, n 8, (n 24, n 32, n 40), slice b 48 32) else none

/-- Program an anchor page into a page of an anchor block. -/
def State.programAnchor (s : State) (i which page : Nat) (bytes : Bytes) : State :=
  let member := s.anchorBlock i which
  let pages := ldpcPages [bytes ++ zeros (4224 - bytes.length), zeros 4224, zeros 4224, zeros 4224]
  (s.modJnl i fun j => { j with
      anchorCur := which, anchorNext := putInst j.anchorNext which (page + 1), anchorSeq := leNat (slice bytes 0 8), anchorTurn := s.turn,
      anchorPage := s.tailPage i, anchorOut := j.anchorOut ++ [(which, bytes)] }).queueOp 6
    { port := memberModule member, data := pages, purpose := .anchor i which,
      op := { plainOp 2 (if s.rows.holdup then 3 else 1) (s.epoch i) 1 (memberAddr member page 0) with dataLen := 18432 * pages.length } }

/-- Erase an anchor block; the anchor page with a hold-up record goes into it then. -/
def State.eraseAnchor (s : State) (i which : Nat) (holdup : Bytes) : State :=
  let member := s.anchorBlock i which
  (s.modJnl i fun j => { j with anchorWait := some (which, holdup) }).queueOp 6
    { port := memberModule member, data := [], purpose := .anchorErase i which, op := plainOp 3 1 (s.epoch i) 1 (memberAddr member 0 0) }

/-- Write an anchor page of an instance with a hold-up record: into the next free page of the current block, else
into the other one after erasing it; with the other failed no more are written (R195, R196). While that erase is out the
page waits for it. -/
def State.writeAnchor (s : State) (i : Nat) (holdup : Bytes) : State :=
  let j := s.jnl i
  let cur := if s.anchorFailed i j.anchorCur then 1 - j.anchorCur else j.anchorCur
  let next := ofInst j.anchorNext cur
  if s.anchorFailed i cur then s.modJnl i fun j => { j with anchorFull := true }
  else if next < s.slcPages (memberModule (s.anchorBlock i cur)) then s.programAnchor i cur next (s.anchorBytes i holdup)
  else match j.anchorWait with
    | some (w, h) => s.modJnl i fun j => { j with anchorWait := some (w, if holdup.all (· == 0) then h else holdup) }
    | none => if s.anchorFailed i (1 - cur) then s.modJnl i fun j => { j with anchorFull := true } else s.eraseAnchor i (1 - cur) holdup

/-- An anchor page is programmed: its tail is anchored. -/
def State.anchorGood (s : State) (i which : Nat) : State :=
  match (s.jnl i).anchorOut.find? fun p => p.1 == which with
  | none => s
  | some p => (s.modJnl i fun j => { j with anchorTail := anchorTailOf p.2, anchorOut := j.anchorOut.erase p }).retail i

/-- The hold-up record of the anchor page that is on its way to a block, or waits for its erase. -/
def State.anchorHoldup (s : State) (i which : Nat) : Bytes :=
  match (s.jnl i).anchorOut.find? fun p => p.1 == which with
  | some p => slice p.2 48 32
  | none => match (s.jnl i).anchorWait with
    | some (w, h) => if w = which then h else zeros 32
    | none => zeros 32

/-- What is on its way to an anchor block is forgotten. -/
def State.anchorDrop (s : State) (i which : Nat) : State :=
  s.modJnl i fun j => { j with anchorOut := j.anchorOut.filter (fun p => p.1 != which), anchorWait := j.anchorWait.filter fun w => w.1 != which }

/-- An anchor block failed: the page goes into the other one (R196). It is retired with a reason, or not at all where a
port went down or a die failed (R222). -/
def State.anchorFail (s : State) (i which : Nat) (reason : Option Nat) : State :=
  let s0 := match reason with
    | some r => s.retireBlock (s.anchorBlock i which) r
    | none => s
  ((((s0.setFld (anchorFailedFld i which) 1).raise F.FTL_RCL_ISR_ANCHOR_FAIL).anchorDrop i which).writeAnchor i (s.anchorHoldup i which)).retail i

/-- An anchor block is erased, FAILED is cleared: the page that waited is programmed into it. A block that the erase has worn
out is retired instead (R210), which counts as its failure (log entry 184). -/
def State.anchorErased (s : State) (i which : Nat) : State :=
  let s1 := s.addWear (s.anchorBlock i which)
  if s.fld F.FTL_WEAR_CFG_RETIRE_WU ≤ s1.wear (s.anchorBlock i which) then s1.anchorFail i which (some 3)
  else
    (((s1.setFld (anchorFailedFld i which) 0).anchorDrop i which).modJnl i fun j =>
      { j with anchorCur := which, anchorNext := putInst j.anchorNext which 0, anchorFull := false }).writeAnchor i (s.anchorHoldup i which)

end Sys2Proof.Machine
end

