-- ==== Sys2Proof/Machine/CtlOps.lean ====
section
/-! DEFINITION. The control engine (16): calibration, the loops, the bank's observer, the energy ledger,
capture; as the operations that commands share. -/
namespace Sys2Proof.Machine

/-! ### Fixed point (R377, R380) -/

/-- Clamp to the signed range of a width. -/
def satInt (w : Nat) (x : Int) : Int := clampInt x (-(2 ^ (w - 1))) (2 ^ (w - 1) - 1)

/-- A value and how many times sat32 or sat64 changed one on the way to it. -/
abbrev Sat := Int × Nat

def sat32 (x : Sat) : Sat := let y := satInt 32 x.1; (y, x.2 + if y = x.1 then 0 else 1)
def sat64 (x : Sat) : Sat := let y := satInt 64 x.1; (y, x.2 + if y = x.1 then 0 else 1)

/-- acc plus a product, through sat64. -/
def mac (acc : Sat) (a b : Int) : Sat := sat64 (acc.1 + a * b, acc.2)

/-- acc rounded to Q2.29, through sat32. -/
def narrow (acc : Sat) : Sat := sat32 (roundEven acc.1 (2 ^ 29), acc.2)

/-- The Q2.29 value of a quantity over its base. -/
def perUnit (x : Int) (base : Nat) : Int := (x * 2 ^ 29).fdiv base

/-- A Q2.29 value times its base, rounded down. -/
def fromUnit (x : Int) (base : Nat) : Int := (x * base).fdiv (2 ^ 29)

/-! ### Configuration with its substitutions -/

def State.mode (s : State) : Nat := s.fld F.CTL_STATUS_MODE
def State.vbankSet (s : State) : Nat := 10 * min 0x1388 (s.fld F.CTL_CONV_CFG_VBANK_SET)
def State.vbusHu (s : State) : Nat := s.fld F.CTL_CONV_CFG_VBUS_HU_SET
def State.detPct (s : State) : Nat := max 1 (s.fld F.CTL_CONV_CFG2_DET_PCT)
def State.vminMv (s : State) : Nat := max 0x4E20 (s.fld F.CTL_LEDGER_CFG_VMIN_MV)
def State.soloPct (s : State) : Nat := max 0x64 (s.fld F.CTL_LEDGER_CFG2_SOLO_PCT)
def State.reserveMj (s : State) : Nat := max 20000 (s.fld F.CTL_LEDGER_RESERVE_RESERVE_MJ)
def State.periodPwm (s : State) : Nat := max 0x3E8 (min 0x2710 (s.fld F.CTL_PWM_CFG_PERIOD_NS))

/-- The calibrated value of a channel (R377). -/
def State.adcVal (s : State) (n : Nat) : Int := if n < 18 then signed 32 (s.fld (F.CTL_ADC_VAL_VALUE n)) else 0

/-- Refuse a write to the control engine from a requester other than the Referee cores (R372). -/
def State.ctlRefuse (s : State) : State := (s.inc F.CTL_EVENTS_WRITE_REFUSED).raise F.CTL_ISR_WRITE_REFUSED

/-! ### The ledger (R391, R392) -/

def State.bankFailed (s : State) : Bool := s.flag F.CTL_STATUS_BANK_FAILED

/-- v squared less VMIN squared, for v above VMIN. -/
def State.dv2 (s : State) (v : Int) : Nat :=
  if (s.vminMv : Int) < v then v.toNat * v.toNat - s.vminMv * s.vminMv else 0

/-- The open-circuit lower bound of the bank, mV. -/
def State.ledgerV (s : State) (vt i : Int) : Int :=
  vt - s.fld F.CTL_LEDGER_CFG_VTOL_MV + min 0 (((s.fld F.CTL_BANK_ESR_HIGH_UO : Int) * i).fdiv 1000000)

/-- The extractable share of the stored energy, in 1/65,536. -/
def State.eta (s : State) : Nat :=
  65536 - min 65536 (ceilDiv (s.fld F.CTL_LEDGER_CFG2_P_HU_W * s.fld F.CTL_BANK_ESR_HIGH_UO * 65536) (s.vminMv * s.vminMv))

/-- Extractable energy at a voltage, µJ. -/
def State.extractable (s : State) (v : Int) : Nat := s.fld F.CTL_BANK_C_LOW_UF * s.dv2 v / 2000000 * s.eta / 65536

/-- Cost of a GiB, µJ. -/
def State.flushCost (s : State) : Nat :=
  ceilDiv (s.fld F.GLB_FLUSH_COST_ENERGY_MJ * 1000 * (if s.flag F.CTL_STATUS_SOLO_COST then s.soloPct else 100)) 100

/-- Compute the dirty limit (R391), from the means over the last turn. -/
def State.ledger (s : State) : State :=
  let v := s.ledgerV (s.fld F.CTL_BANK_V_VBANK_MV) s.ctl.meanI
  let use := s.extractable v - s.reserveMj * 1000
  let cost := s.flushCost
  let none_ := cost = 0 ∨ s.bankFailed ∨ s.fld F.CTL_BANK_SAMPLES_N = 0 ∨ s.fld F.CTL_BANK_SAMPLES_N_ESR = 0 ∨
    !s.flag F.CTL_CTRL_ENABLE
  let lim := if none_ then 0 else use * 2 ^ 30 / cost / 4096 * 4096
  (((s.setPair F.CTL_LEDGER_E_LO_UJ F.CTL_LEDGER_E_HI_UJ use).setFld F.CTL_ETA_ETA s.eta).setPair
    F.CMT_DIRTY_LIMIT_LO_LIMIT_LO F.CMT_DIRTY_LIMIT_HI_LIMIT_HI lim).testWriteThrough

/-- Keep SOLO_COST (R392); a change recomputes the limit at once. -/
def State.refreshCost (s : State) : State :=
  let c := s.solo || s.flag F.GLB_PAIR_STATUS_PARTNER_FORFEIT || s.pairSt.partnerBankFailed
  if c == s.flag F.CTL_STATUS_SOLO_COST then s.testWriteThrough else (s.setFlag F.CTL_STATUS_SOLO_COST c).ledger

/-- The mode that takes effect: with CTL_CTRL.ENABLE 0 the converter stays OFF, and with a failed bank it only rides and
holds up (R390). -/
def State.allowedMode (s : State) (m : Nat) : Nat := if s.flag F.CTL_CTRL_ENABLE && (!s.bankFailed || decide (5 ≤ m)) then m else 0

/-- A change of converter mode; a probe under way is abandoned. -/
def State.setMode (s : State) (m : Nat) : State := (s.setFld F.CTL_STATUS_MODE (s.allowedMode m)).modCtl fun c => { c with probe := none }

/-- The means over the turn just ended, and the dirty limit from them (R391). -/
def State.ledgerTurn (s : State) : State :=
  let l := s.ctl.turnSum
  let n : Nat := l.length
  let s1 := if n = 0 then s else
    let vb := l.foldl (fun a x => a + x.1) (0 : Int)
    let ib := l.foldl (fun a x => a + x.2.1) (0 : Int)
    let vu := l.foldl (fun a x => a + x.2.2) (0 : Int)
    ((s.modCtl fun c => { c with turnSum := [], meanI := ib.fdiv n }).setFld F.CTL_BANK_V_VBANK_MV (vb.fdiv n).toNat).setFld
      F.CTL_BANK_V_VBUS_MV (vu.fdiv n).toNat
  s1.ledger

/-! ### The bank's observer (R388-R390) -/

/-- BANK_FAILED with a cause: the first one stands; the converter goes to OFF unless it rides or holds up. -/
def State.failBank (s : State) (cause : Nat) : State :=
  if s.bankFailed then s
  else
    let s1 := ((s.setFld F.CTL_STATUS_BANK_FAILED 1).setFld F.CTL_STATUS_BANK_CAUSE cause).setFld F.CTL_INJ_CFG_EN 0
    let s2 := if s.mode = 5 ∨ s.mode = 6 then s1 else (s1.setFld F.CTL_STATUS_MODE 0).modCtl fun c => { c with probe := none }
    (s2.raise F.CTL_ISR_BANK_FAILED).ledger

/-- Integer square root rounded up. -/
def isqrtUp (n : Nat) : Nat := let r := Nat.sqrt n; if r * r = n then r else r + 1

/-- Mean and spread of the samples of a quantity; `div` is the fallback divisor below 8 samples. -/
def meanSig (l : List Nat) (div : Nat) : Nat × Nat :=
  let n := l.length
  let s1 := l.foldl (· + ·) 0
  let s2 := l.foldl (fun a x => a + x * x) 0
  let mean := s1 / n
  (mean, if n < 8 then ceilDiv mean div else isqrtUp ((n * s2 - s1 * s1) / (n * (n - 1) * n)))

/-- Recompute the bounds of R389 and the tests of R390. -/
def State.observe (s : State) : State :=
  let c := meanSig s.ctl.cSamples 16
  let r := meanSig s.ctl.esrSamples 4
  let nC := s.ctl.cSamples.length
  let nR := s.ctl.esrSamples.length
  let s1 := ((s.setFld F.CTL_BANK_SAMPLES_N nC).setFld F.CTL_BANK_SAMPLES_N_ESR nR)
  let s2 := if nC = 0 then s1 else (s1.setFld F.CTL_BANK_C_MEAN_UF c.1).setFld F.CTL_BANK_C_LOW_UF (c.1 - 3 * c.2)
  let s3 := if nR = 0 then s2 else (s2.setFld F.CTL_BANK_ESR_MEAN_UO (min 0xFFFF r.1)).setFld F.CTL_BANK_ESR_HIGH_UO (min 0xFFFF (r.1 + 3 * r.2))
  if nC ≠ 0 ∧ s3.fld F.CTL_BANK_C_LOW_UF < 1000 * s.fld F.CTL_BANK_LIMITS_C_FAIL then s3.failBank 1
  else if nR ≠ 0 ∧ s.fld F.CTL_BANK_LIMITS_ESR_FAIL < s3.fld F.CTL_BANK_ESR_HIGH_UO then s3.failBank 2
  else s3

/-- The latest 64 of a list with one more. -/
def keep64 (l : List Nat) (x : Nat) : List Nat := let r := l ++ [x]; r.drop (r.length - 64)

/-- Take a sample of each quantity. -/
def State.addSamples (s : State) (c esr : Nat) : State :=
  (s.modCtl fun t => { t with cSamples := keep64 t.cSamples c, esrSamples := keep64 t.esrSamples esr }).observe

/-- The capacitance sample of a discharge (R388); a fall of no volts gives a free value. -/
def State.capSample (s : State) (q dv : Nat) : Nat × State := if dv = 0 then s.free 32 else (q * 1000000 / dv, s)

/-- The ESR sample of two edges (ΔV in µV, ΔI in mA), rounded up; an edge of no current gives a free value. -/
def State.esrSample (s : State) (v1 i1 v2 i2 : Nat) : Nat × State :=
  if i1 * i2 = 0 then s.free 16 else (ceilDiv (1000 * (v1 * i2 + v2 * i1)) (2 * i1 * i2), s)

/-! ### Loops (R374, R380, R381) -/

/-- Coefficient word i of the active bank of a loop. -/
def State.coef (s : State) (n i : Nat) : Int :=
  signed 32 (s.fld (F.CTL_COEF_VALUE (n := n) (b := s.fld (F.CTL_LOOP_CTRL_ACTIVE_BANK n)) (w := i)))

/-- What a loop computed in one sample, for capture. -/
structure LoopOut where
  y0 : Int
  r  : Int
  e  : Int
  u0 : Int
  uo : Int
  /-- Clamps and saturations of this sample. -/
  sats : Nat := 0
  deriving DecidableEq, Repr

/-- The notch (R381): bypassed while B0 is zero. -/
def notchStep (b0 b1 b2 a1 a2 : Int) (taps : List Int) (ef : Int) (u0 : Sat) : Sat × List Int × Int :=
  if b0 = 0 then (u0, [0, 0, 0, 0], 0)
  else
    let u1 := taps.getD 0 0; let u2 := taps.getD 1 0; let w1 := taps.getD 2 0; let w2 := taps.getD 3 0
    let acc := sat64 (b0 * u0.1 + b1 * u1 + b2 * u2 - a1 * w1 - a2 * w2 + ef, u0.2)
    let r := roundEven acc.1 (2 ^ 29)
    let w := sat32 (r, acc.2)
    (w, [u0.1, u1, w.1, w1], if w.1 = r then acc.1 - w.1 * 2 ^ 29 else 0)

/-- One sample of one loop: reference r, injection inj (R380). -/
def State.loopStep (s : State) (n : Nat) (r inj : Int) : State × LoopOut :=
  let st := s.ctl.loops.getD n {}
  let k (i : Nat) : Int := s.coef n i
  let sel := s.fld (F.CTL_COEF_VALUE (n := n) (b := s.fld (F.CTL_LOOP_CTRL_ACTIVE_BANK n)) (w := 0x35))
  let y0 := s.adcVal (sel % 32)
  let y1 := s.adcVal (sel / 256 % 32)
  let xh (i : Nat) : Int := st.xh.getD i 0
  let e := sat32 (r - y0, 0)
  let a0 : Sat := (k 0x29 * r + k 0x28 * st.z, e.2)
  let acc := (List.range 4).foldl (fun a i => mac a (-(k (0x24 + i))) (xh i)) (sat64 a0)
  let u0 := narrow acc
  let (w, taps, ef) := notchStep (k 0x2B) (k 0x2C) (k 0x2D) (k 0x2E) (k 0x2F) st.taps st.ef u0
  let u := sat32 (w.1 + inj, w.2)
  let uo := clampInt u.1 (k 0x30) (k 0x31)
  let pinned := (uo = k 0x31 ∧ 0 < e.1) ∨ (uo = k 0x30 ∧ e.1 < 0)
  let zn : Sat := if pinned then (st.z, u.2) else
    let t := sat32 (st.z + roundEven (k 0x2A * e.1) (2 ^ 29), u.2)
    (clampInt t.1 (k 0x32) (k 0x33), t.2)
  let v (j : Nat) (y : Int) (c : Nat) : Sat :=
    let a := (List.range 4).foldl (fun a i => mac a (k (0x1C + 4 * j + i)) (xh i)) ((0, c) : Sat)
    sat32 (y - roundEven a.1 (2 ^ 29), a.2)
  let v0 := v 0 y0 zn.2
  let v1 := v 1 y1 v0.2
  let x := (List.range 4).foldl (fun (p : List Int × Nat) i =>
    let a := mac (mac (sat64 (k (0x10 + i) * uo, p.2)) (k (0x14 + 2 * i)) v0.1) (k (0x15 + 2 * i)) v1.1
    let a2 := (List.range 4).foldl (fun a m => mac a (k (4 * i + m)) (xh m)) a
    let xi := narrow a2
    (p.1 ++ [xi.1], xi.2)) (([], v1.2) : List Int × Nat)
  let clamped := if uo = u.1 then 0 else 1
  let s1 := s.modCtl fun c => { c with loops := c.loops.set n { st with xh := x.1, z := zn.1, taps := taps, ef := ef, out := uo } }
  let s2 := (s1.inc (F.CTL_LOOP_SAT_STATE_SAT n) x.2).inc (F.CTL_LOOP_SAT_OUT_SAT n) clamped
  (if x.2 + clamped = 0 then s2 else s2.raise F.CTL_ISR_SAT, { y0 := y0, r := r, e := e.1, u0 := u0.1, uo := uo, sats := x.2 + clamped })

/-- The reference of a loop (R374): loops 0 and 1 by the mode, loops 2 and 3 by Y_SEL. -/
def State.loopRef (s : State) (n : Nat) : Int :=
  match n with
  | 0 =>
    if s.mode = 4 then satInt 32 (s.adcVal 7 * 4 + perUnit 300 16000)
    else satInt 32 (perUnit s.vbusHu 16000 + (s.ctl.loops.getD 2 {}).out)
  | 1 =>
    if s.mode = 3 then perUnit (100 * max 1 (s.fld F.CTL_CONV_CFG2_I_PROBE)) 128000
    else
      let lim := perUnit (100 * s.fld F.CTL_CONV_CFG2_I_CHG) 128000
      let want := roundEven (s.coef 1 0x34 * (perUnit s.vbankSet 64000 - s.adcVal 0)) (2 ^ 29)
      min 0 (-(min lim want))
  | _ =>
    let c := s.fld (F.CTL_COEF_VALUE (n := n) (b := s.fld (F.CTL_LOOP_CTRL_ACTIVE_BANK n)) (w := 0x35)) / 65536 % 32
    if c = 0x1F then s.coef n 0x34 else s.adcVal c

/-- The test signal of this sample (R384): PRBS-15 from a free start, or a sine, whose value in Q2.29 is a
free value within ±AMP. -/
def State.testSignal (s : State) : Int × State :=
  let amp := clampInt (signed 32 (s.fld F.CTL_INJ_AMP_VALUE)) (-(signed 32 (s.fld F.CTL_INJ_MAX_VALUE))) (signed 32 (s.fld F.CTL_INJ_MAX_VALUE))
  if s.flag F.CTL_INJ_CFG_WAVE then
    let (v, s1) := s.free 32
    (clampInt (signed 32 v) (min amp (-amp)) (max amp (-amp)),
     s1.modCtl fun c => { c with phase := (c.phase + s.fld F.CTL_INJ_FREQ_VALUE) % 2 ^ 32 })
  else
    let (seed, s1) := if s.ctl.prbs = 0 then (let (v, t) := s.free 15; (max 1 v, t)) else (s.ctl.prbs, s)
    let b := (seed / 2 ^ 14 + seed / 2 ^ 13) % 2
    (if b = 1 then amp else -amp, s1.modCtl fun c => { c with prbs := (seed * 2 + b) % 2 ^ 15 })

/-- Run a loop with its reference and the injection that falls on it. -/
def State.runLoop (s : State) (n : Nat) : State × LoopOut :=
  let here := s.flag F.CTL_INJ_CFG_EN && s.fld F.CTL_INJ_CFG_LOOP == n && !s.bankFailed
  let (sig, s1) := if here then s.testSignal else (0, s)
  let r := s.loopRef n
  if s.flag F.CTL_INJ_CFG_POINT then s1.loopStep n r sig else s1.loopStep n (satInt 32 (r + sig)) 0

/-- Loop 0 takes the phases (R374): its integrator is preset to the duty of the hand-over, free where VBANK reads zero
or less, and its observer states to the latest measurements. -/
def State.takePhases (s : State) : State :=
  let vb := fromUnit (s.adcVal 0) 64000
  let (z, s1) : Int × State := if vb ≤ 0 then (let (v, t) := s.free 32; (signed 32 v, t)) else (satInt 32 (roundEven ((s.vbusHu : Int) * 2 ^ 29) vb.toNat), s)
  let sel := s.fld (F.CTL_COEF_VALUE (n := 0) (b := s.fld (F.CTL_LOOP_CTRL_ACTIVE_BANK 0)) (w := 0x35))
  s1.modCtl fun c => { c with loops := c.loops.modify 0 fun l =>
    { l with z := z, xh := [s.adcVal (sel % 32), s.adcVal (sel / 256 % 32), l.xh.getD 2 0, l.xh.getD 3 0] } }

/-! ### Bank swaps (R382, R383) -/

/-- A swap ends with a code. -/
def State.swapDone (s : State) (n code : Nat) : State :=
  ((s.modCtl fun c => { c with loops := c.loops.modify n fun l => { l with swap := false } }).resDone (0x400104 + 0x10 * n)
    [(F.CTL_LOOP_RESULT_CODE n, code)]).raise F.CTL_ISR_SWAP_DONE

/-- The swaps that wait take effect at the sample boundary. -/
def State.takeSwaps (s : State) : State :=
  (List.range 4).foldl (fun t n =>
    if (t.ctl.loops.getD n {}).swap then
      let t1 := t.setFld (F.CTL_LOOP_CTRL_ACTIVE_BANK n) (1 - t.fld (F.CTL_LOOP_CTRL_ACTIVE_BANK n))
      let t2 := if t.flag (F.CTL_LOOP_CTRL_RESET_STATES n) then t1.modCtl fun c => { c with loops := c.loops.set n { swap := true } } else t1
      t2.swapDone n 0
    else t) s

/-- Swaps that wait when the mode changes to RIDE are cancelled. -/
def State.cancelSwaps (s : State) : State :=
  (List.range 4).foldl (fun t n => if (t.ctl.loops.getD n {}).swap then t.swapDone n 1 else t) s

/-! ### Capture (R385) -/

/-- A capture ends. -/
def State.capDone (s : State) (code : Nat) : State :=
  let words := (s.ctl.cap.map (·.words)).getD []
  let s1 := s.modCtl fun c => { c with cap := none, captured := if words.isEmpty then c.captured else words }
  ((s1.setFld F.CTL_CAP_CFG_BUSY 0).resDone 0x400094 [(F.CTL_CAP_RESULT_CODE, code)]).raise F.CTL_ISR_CAP_DONE

/-- A signal by its select code. -/
def State.capSignal (s : State) (o : LoopOut) (c : Nat) : Nat :=
  let st := s.ctl.loops.getD (s.fld F.CTL_INJ_CFG_LOOP) {}
  unsigned 32 (
    if c < 0x10 then s.adcVal c
    else match c with
      | 0x10 => o.y0 | 0x11 => o.r | 0x12 => o.e | 0x13 => o.u0 | 0x14 => o.uo
      | 0x15 => st.xh.getD 0 0 | 0x16 => st.xh.getD 1 0 | 0x17 => st.xh.getD 2 0 | 0x18 => st.xh.getD 3 0
      | 0x19 => st.z
      | _ => 0)

/-- Record one sample of a running capture; it ends when its last one is in. -/
def State.capStep (s : State) (o : LoopOut) : State :=
  match s.ctl.cap with
  | none => s
  | some c =>
    if 0 < c.skip then s.modCtl fun t => { t with cap := some { c with skip := c.skip - 1 } }
    else
      let sel := s.fld F.CTL_CAP_CFG_SEL
      let w := (List.range 4).map fun k => s.capSignal o (sel / 2 ^ (5 * k) % 32)
      let ws := c.words ++ [w]
      let c1 : CapSt := { c with skip := s.fld F.CTL_CAP_CFG_DECIM, words := ws.drop (ws.length - 4096), left := c.left.map (· - 1) }
      let s1 := s.modCtl fun t => { t with cap := some c1 }
      if c1.left = some 0 then s1.capDone 0 else s1

/-- A word of the capture buffer is written: the words of signal k stand 0x4000 bytes apart from the next signal's. -/
def State.captureWrite (s : State) (off w : Nat) : State :=
  let k := (off - 0x408000) / 0x4000
  let i := (off - 0x408000) % 0x4000 / 4
  let l := s.ctl.captured ++ List.replicate (i + 1 - s.ctl.captured.length) [0, 0, 0, 0]
  s.modCtl fun c => { c with captured := l.modify i fun r => r.set k w }

/-- The trigger of an armed capture has come: 2,048 samples remain. -/
def State.capTrigger (s : State) (trig : Nat) : State :=
  match s.ctl.cap with
  | some c => if c.trig = trig ∧ c.left.isNone then s.modCtl fun t => { t with cap := some { c with left := some 2048 } } else s
  | none => s

end Sys2Proof.Machine
end

