-- ==== Sys2Proof/Machine/HealthOps.lean ====
section
/-! DEFINITION. Voltage adaptation, temperature history, wear and spare figures (20), as the operations that
commands share. -/
namespace Sys2Proof.Machine

/-! ### Voltage adaptation (R445) -/

/-- The domains a rail feeds. -/
def railDomains (r : Nat) : List Nat := if r = 0 then [0, 1, 2] else if r = 1 then [4] else [3]

/-- The least of a rail's margins under a reading of each domain's. -/
def railMargin (f : Nat → Nat) (r : Nat) : Nat := (railDomains r).foldl (fun a d => min a (f d)) 0xFF

/-- Send a rail's offset to its regulator. -/
def State.writeOffset (s : State) (r : Nat) : State :=
  (s.send (.smbus (s.fld (F.RPR_VADJ_RAIL_ADDR r)) (s.fld (F.RPR_VADJ_RAIL_CMD r)) (s.fld (F.RPR_VADJ_STEPS r)))).modHealth fun h =>
    { h with waitAck := (h.waitAck.filter (· != r)) ++ [r] }

/-- Set a rail's STEPS at a time and write it. -/
def State.setSteps (s : State) (r v t : Nat) : State :=
  let s1 := (s.setFld (F.RPR_VADJ_STEPS r) v).modHealth fun h => { h with changedAt := h.changedAt.put r t }
  s1.writeOffset r

/-- Raise a rail's STEPS by one. -/
def State.raiseRail (s : State) (r t : Nat) : State :=
  ((s.setSteps r (s.fld (F.RPR_VADJ_STEPS r) + 1) t).modHealth fun h => { h with raisedAt := h.raisedAt.put r s.turn }).raise F.RPR_ISR_VADJ_UP

/-- The margins of a pip: the registers, the window's least, and the rails that are critical. -/
def State.takeMargins (s : State) (t : Nat) (margins : List Nat) : State :=
  let s1 := ((margins.take 5).zipIdx).foldl (fun u p =>
    let v := min 0xFF p.1
    ((u.setFld (F.RPR_MARGIN_NOW p.2) v).setFld (F.RPR_MARGIN_MIN_LIFE p.2) (min v (u.fld (F.RPR_MARGIN_MIN_LIFE p.2)))).modHealth fun h =>
      { h with winMin := h.winMin.put p.2 (min v ((h.winMin.get? p.2).getD 0xFF)) }) s
  (List.range 3).foldl (fun u r =>
    if u.flag (F.RPR_VADJ_RAIL_EN r) && decide (railMargin (fun d => u.fld (F.RPR_MARGIN_NOW d)) r < u.fld F.RPR_MARGIN_CFG_CRIT) &&
        decide (u.fld (F.RPR_VADJ_STEPS r) < u.fld (F.RPR_VADJ_OFS_MAX r)) &&
        ((u.health.changedAt.get? r).all fun c => decide (c + 100000 ≤ t)) then u.raiseRail r t
    else u) s1

/-! ### Temperature history (R448) -/

/-- The highest junction temperature, rounded up to 1/16 °C. -/
def State.tjNow (s : State) : Int := -((-(s.adcVal 16) * 2048).fdiv (2 ^ 29))

/-- Add to a saturating 64-bit figure. -/
def State.addSat64 (s : State) (lo hi : Fld) (n : Nat) : State := s.setPair lo hi (min (2 ^ 64 - 1) (s.pair lo hi + n))

/-- The histogram bin of a temperature in 1/16 °C. -/
def tjBin (t : Int) : Nat := (clampInt ((t + 640).fdiv 160) 0 15).toNat

/-- Count one turn in its histogram bin. -/
def State.countBin (s : State) (k : Nat) : State :=
  let n := (s.health.histRem.get? k).getD 0 + 1
  if n = 65536 then (s.modHealth fun h => { h with histRem := h.histRem.del k }).inc (F.TLM_TJ_HIST_UNITS k)
  else s.modHealth fun h => { h with histRem := h.histRem.put k n }

/-- The temperature history of a turn. -/
def State.tjTurn (s : State) : State :=
  let t := s.tjNow
  let s1 := s.setFld F.TLM_TJ_NOW (unsigned 16 t)
  let s2 := if signed 16 (s.fld F.TLM_TJ_MAX) < t then s1.setFld F.TLM_TJ_MAX (unsigned 16 t) else s1
  let s3 := (s2.addSat64 F.TLM_TJ_SUM_LO_VALUE F.TLM_TJ_SUM_HI_VALUE (t + 1024).toNat).addSat64 F.TLM_TJ_TURNS_LO_VALUE F.TLM_TJ_TURNS_HI_VALUE 1
  let s4 := if 1520 < t then s3.addSat64 F.TLM_TJ_HOT_LO_VALUE F.TLM_TJ_HOT_HI_VALUE 1 else s3
  let s5 := if 2000 < t then s4.addSat64 F.TLM_TJ_OVER_LO_VALUE F.TLM_TJ_OVER_HI_VALUE 1 else s4
  s5.countBin (tjBin t)

/-! ### Flash wear and spare (R449, R450) -/

/-- The rated cycles of a module's QLC blocks. -/
def State.ratedQlc (s : State) (m : Nat) : Nat := ((s.port m).page.map (·.ratedQlc)).getD 0

/-- WEAR_MAX and WEAR_AVG of a module; a module with no unretired block, or no rating, reads 65,535. -/
def State.wearGauge (s : State) (m : Nat) : Nat × Nat :=
  let (sum, n, mx) := (s.health.wear.get? m).getD (0, 0, 0)
  let r := 16 * s.ratedQlc m
  if n = 0 ∨ r = 0 then (65535, 65535)
  else (min 65535 (ceilDiv (mx * 1000) r), min 65535 (ceilDiv (sum * 1000) (n * r)))

/-- SPARE_PCT. -/
def sparePct (total bad created : Nat) : Nat :=
  if total = 0 then 0
  else (clampInt ((100 * ((total : Int) - (bad - created))).fdiv total) 0 100).toNat

/-- The blocks of a module in the halves of the instances the head holds. -/
def State.heldBlocks (s : State) (m : Nat) : Nat :=
  ((s.port m).page.map fun p => p.dies * p.planes * p.blocks / 2 * ((if s.holds 0 then 1 else 0) + (if s.holds 1 then 1 else 0))).getD 0

/-- The members a sweep finds: those of the erase-count table, and those of the bad-block bitmap. -/
def State.wornMembers (s : State) : List Nat :=
  (s.dram.filterMap fun c =>
    if s.wearBase ≤ c.1 ∧ c.1 < s.wearBase + 2 ^ 29 then some ((c.1 - s.wearBase) / 2) else none).eraseDups.filter fun b => s.holds (s.memberHalf b)
def State.badMembers (s : State) : List Nat :=
  (s.dram.flatMap fun c =>
    if s.bbtBase ≤ c.1 ∧ c.1 < s.bbtBase + 2 ^ 25 then
      (List.range 8).filterMap fun k => if bit c.2.toNat k then some (8 * (c.1 - s.bbtBase) + k) else none
    else []).filter fun b => s.holds (s.memberHalf b)

/-- One sweep of the erase-count table and the bad-block bitmap (R449). -/
def State.sweepWear (s : State) : State :=
  let bad := s.badMembers
  let worn := s.wornMembers.filter fun b => !s.badBlock b
  let wear := (List.range s.modules).foldl (fun (t : Tbl (Nat × Nat × Nat)) m =>
    let l := (worn.filter fun b => memberModule b == m).map s.wear
    let n := s.heldBlocks m - (bad.filter fun b => memberModule b == m).length
    if n = 0 ∧ l = [] then t else t.put m (l.foldl (· + ·) 0, n, l.foldl max 0)) []
  let count (i : Nat) : Nat := (bad.filter fun b => s.memberHalf b == i).length
  s.modHealth fun h => { h with wear := wear, bad := (count 0, count 1) }

/-- Copy the live figures into the gauge registers, as one set (R447). -/
def State.copyGauges (s : State) : State :=
  let s1 := (List.range s.modules).foldl (fun t m =>
    let w := s.wearGauge m
    let now := (s.health.tempNow.get? m).getD 0
    let mx := (s.health.tempMax.get? m).getD (-128)
    (((((((t.setFld (F.TLM_MOD_WEAR_MAX m) w.1).setFld (F.TLM_MOD_WEAR_AVG m) w.2).setFld (F.TLM_MOD_TEMP_NOW m) (unsigned 8 now)).setFld
      (F.TLM_MOD_TEMP_MAX m) (unsigned 8 mx)).setFld (F.TLM_MOD_SOFT_COUNT m) (min 0xFFFFFFFF ((s.health.soft.get? m).getD 0))).setFld
      (F.TLM_MOD_ERRS_FAILED m) (min 0xFFFF ((s.health.failed.get? m).getD 0))).setFld
      (F.TLM_MOD_ERRS_RETIRED m) (min 0xFFFF ((s.health.retired.get? m).getD 0)))) s
  (List.range 2).foldl (fun t i =>
    if s.holds i then
      let bad := ofInst s.health.bad i
      (t.setFld (F.TLM_BAD_BLOCKS i) bad).setFld (F.TLM_SPARE_PCT i)
        (sparePct (s.fld (F.TLM_SPARE_TOTAL_BLOCKS i)) bad (s.fld (F.TLM_BAD_AT_CREATION_BLOCKS i)))
    else t) s1

end Sys2Proof.Machine
end

