-- ==== Sys2Proof/Machine/LinkOps.lean ====
section
/-! DEFINITION. The links of sequenced frames: the Reed-Solomon codes and the line code that the flits of Efmo (03) and the
frames of Purl (09) share, their layouts, how messages are packed into them, sent again, and received. -/
namespace Sys2Proof.Machine

/-! ### Reed-Solomon over GF(2^8) (R75, R218) -/


/-- One message byte through the remainder of a division by the generator. -/
def rsByte (gen regs : List Nat) (d : Nat) : List Nat :=
  let f := d ^^^ regs.headD 0
  List.zipWith (fun g r => gfMul g f ^^^ r) gen (regs.tail ++ [0])

/-- The parity of a message, its first byte the highest coefficient: the remainder of message times x^m by the generator
with roots α^0 to α^(m-1). -/
def rsParity (m : Nat) (msg : List Nat) : List Nat := msg.foldl (rsByte (rsGen m)) (List.replicate m 0)

/-- A codeword at a field element. -/
def gfEval (cw : List Nat) (x : Nat) : Nat := cw.foldl (fun a c => gfMul a x ^^^ c) 0

def syndromes (m : Nat) (cw : List Nat) : List Nat := (List.range m).map fun j => gfEval cw (gfPow2 j)

/-- Solve linear equations, each a row of coefficients with its right side last: reduce column by column. -/
def gfSolveN : Nat → Nat → List (List Nat) → List (List Nat) → Option (List Nat)
  | 0, _, done, _ => some (done.map fun r => r.getLastD 0)
  | n + 1, c, done, rest =>
    match rest.find? fun r => r.getD c 0 != 0 with
    | none => none
    | some p =>
      let q := p.map (gfMul (gfInv (p.getD c 0)))
      let clear (r : List Nat) : List Nat := List.zipWith (fun x y => x ^^^ gfMul (r.getD c 0) y) r q
      gfSolveN n (c + 1) (done.map clear ++ [q]) ((rest.erase p).map clear)
def gfSolve (n : Nat) (rows : List (List Nat)) : Option (List Nat) := gfSolveN n 0 [] rows

/-- Correct exactly e byte errors: the error locator from the syndromes, its roots among the places of the codeword, the
values from the syndromes again. Gives the codeword and the places corrected, where all syndromes then vanish. -/
def rsCorrectE (m : Nat) (cw : List Nat) (e : Nat) : Option (List Nat × List Nat) :=
  let n := cw.length
  let s := syndromes m cw
  let at_ (j : Nat) : Nat := s.getD j 0
  match gfSolve e ((List.range e).map fun j => ((List.range e).map fun k => at_ (j + e - 1 - k)) ++ [at_ (j + e)]) with
  | none => none
  | some loc =>
    let x (i : Nat) : Nat := gfPow2 (n - 1 - i)
    let places := (List.range n).filter fun i => gfEval (1 :: loc) (x i) == 0
    if places.length ≠ e then none
    else
      match gfSolve e ((List.range e).map fun j => (places.map fun i => gfPow2 (j * (n - 1 - i) % 255)) ++ [at_ j]) with
      | none => none
      | some vals =>
        let fixed := (places.zip vals).foldl (fun (c : List Nat) p => c.set p.1 (c.getD p.1 0 ^^^ p.2)) cw
        if (syndromes m fixed).all (· == 0) then some (fixed, places) else none

/-- Correct up to m / 2 byte errors of a codeword with m parity bytes; one beyond repair is left as it is. -/
def rsCorrect (m : Nat) (cw : List Nat) : List Nat × List Nat :=
  if (syndromes m cw).all (· == 0) then (cw, [])
  else ((List.range (m / 2)).findSome? fun e => rsCorrectE m cw (e + 1)).getD (cw, [])

/-! ### The line code (R74, R217) -/

/-- The PAM4 symbol of a bit pair, its bit sent first the lesser one: the Gray code of IEEE 802.3 (log entry 163). -/
def grayOf (pair : Nat) : Nat := [0, 3, 1, 2].getD (pair % 4) 0
def grayBack (symbol : Nat) : Nat := [0, 2, 3, 1].getD (symbol % 4) 0

/-- One bit of the additive scrambler x^58 + x^39 + 1: the key bit and the next state. -/
def scrambleBit (st : Nat) : Nat × Nat :=
  let k := (st / 2 ^ 57 + st / 2 ^ 38) % 2
  (k, (2 * st + k) % 2 ^ 58)

/-- The eight key bits of a byte, the least significant first, and the state after them. -/
def scrambleKey : Nat → Nat → Nat × Nat
  | 0, st => (0, st)
  | n + 1, st =>
    let (k, st1) := scrambleBit st
    let (r, st2) := scrambleKey n st1
    (k + 2 * r, st2)

/-- The symbols of a lane's bytes: scrambled, then sent least significant bit pair first. -/
def laneSymbols : Nat → Bytes → List Nat × Nat
  | st, [] => ([], st)
  | st, b :: r =>
    let (k, st1) := scrambleKey 8 st
    let v := b.toNat ^^^ k
    let (l, st2) := laneSymbols st1 r
    ([v % 4, v / 4 % 4, v / 16 % 4, v / 64 % 4].map grayOf ++ l, st2)

/-- The bytes that a lane's symbols carry under a scrambler state. -/
def laneBytes : Nat → List Nat → Bytes × Nat
  | st, a :: b :: c :: d :: r =>
    let (k, st1) := scrambleKey 8 st
    let v := (grayBack a + 4 * grayBack b + 16 * grayBack c + 64 * grayBack d) ^^^ k
    let (l, st2) := laneBytes st1 r
    (BitVec.ofNat 8 v :: l, st2)
  | st, _ => ([], st)

/-- The bytes of a frame that travel on a logical lane of n. -/
def laneOf (n lane : Nat) (b : Bytes) : Bytes := (b.zipIdx.filter fun p => p.2 % n == lane).map (·.1)

/-- Send a frame over lanes, logical to physical: each lane's symbols, and the scramblers after it. -/
def overLanes (lanes scramblers : List Nat) (b : Bytes) : List (Nat × List Nat) × List Nat :=
  lanes.zipIdx.foldl (fun (a : List (Nat × List Nat) × List Nat) p =>
    let r := laneSymbols (a.2.getD p.1 0) (laneOf lanes.length p.2 b)
    (a.1 ++ [(p.1, r.1)], a.2.set p.1 r.2)) ([], scramblers)

/-! ### Flits and frames (R74-R76, R217-R219) -/

/-- The two links. -/
inductive LinkKind where
  | efmo
  | purl
  deriving DecidableEq, Repr

/-- Payload bytes of a flit or frame. -/
def LinkKind.size : LinkKind → Nat
  | .efmo => 228
  | .purl => 256
/-- DATA frames kept for replay. -/
def LinkKind.depth : LinkKind → Nat
  | .efmo => 2048
  | .purl => 1024
/-- Channels or classes in the order they are served, and the share of slots the data channel keeps, percent. -/
def LinkKind.order : LinkKind → List Nat
  | .efmo => List.range 9
  | .purl => [1, 0, 2]
def LinkKind.share : LinkKind → Nat
  | .efmo => 80
  | .purl => 75
/-- Codewords of the FEC, and the parity bytes of each. -/
def LinkKind.words : LinkKind → Nat
  | .efmo => 4
  | .purl => 2
def LinkKind.parity : LinkKind → Nat
  | .efmo => 4
  | .purl => 6
/-- Bytes before the FEC parity: header, payload, CRC. -/
def LinkKind.body (k : LinkKind) : Nat := 12 + k.size

/-- The codeword that byte b of a frame belongs to; parity bytes of Purl stand codeword by codeword. -/
def LinkKind.wordOf (k : LinkKind) (b : Nat) : Nat :=
  match k with
  | .efmo => (b + b / 16) % 4
  | .purl => if b < 268 then b % 2 else (b - 268) / 6

/-- The places of a codeword's bytes, ascending. -/
def LinkKind.places (k : LinkKind) (w : Nat) : List Nat :=
  (List.range (k.body + k.words * k.parity)).filter fun b => k.wordOf b == w

/-- The header fields of a frame. -/
structure FrameHdr where
  type     : Nat
  channel  : Nat
  seq      : Nat
  ack      : Nat
  fill     : Nat
  creditCh : Nat
  credits  : Nat
  deriving DecidableEq, Repr

/-- The 64-bit header of a frame (R75, R218). -/
def LinkKind.header (k : LinkKind) (h : FrameHdr) : Nat :=
  match k with
  | .efmo => h.type % 16 + h.channel % 16 * 2 ^ 4 + h.seq % 4096 * 2 ^ 8 + h.ack % 4096 * 2 ^ 20 + h.fill % 256 * 2 ^ 32 +
      h.creditCh % 16 * 2 ^ 40 + h.credits % 65536 * 2 ^ 48
  | .purl => h.type % 16 + h.seq % 4096 * 2 ^ 4 + h.ack % 4096 * 2 ^ 16 + h.fill % 512 * 2 ^ 31 + h.channel % 16 * 2 ^ 40 +
      h.creditCh % 16 * 2 ^ 44 + h.credits % 65536 * 2 ^ 48

/-- The fields of a header. -/
def LinkKind.readHeader (k : LinkKind) (v : Nat) : FrameHdr :=
  match k with
  | .efmo => { type := bits v 3 0, channel := bits v 7 4, seq := bits v 19 8, ack := bits v 31 20, fill := bits v 39 32,
               creditCh := bits v 43 40, credits := bits v 63 48 }
  | .purl => { type := bits v 3 0, seq := bits v 15 4, ack := bits v 27 16, fill := bits v 39 31, channel := bits v 43 40,
               creditCh := bits v 47 44, credits := bits v 63 48 }

/-- A frame's FEC parity. -/
def LinkKind.fec (k : LinkKind) (body : Bytes) : Bytes :=
  let par := (List.range k.words).map fun w =>
    rsParity k.parity (((k.places w).filter fun b => decide (b < k.body)).map fun b => (body.getD b 0).toNat)
  (List.range (k.words * k.parity)).map fun j =>
    let w := k.wordOf (k.body + j)
    let nth := ((k.places w).filter fun b => decide (k.body ≤ b) && decide (b < k.body + j)).length
    BitVec.ofNat 8 ((par.getD w []).getD nth 0)

/-- Build a frame: header, payload filled up with zeros, CRC-32C, FEC parity. -/
def LinkKind.frame (k : LinkKind) (h : FrameHdr) (payload : Bytes) : Bytes :=
  let b := leBytes 8 (k.header h) ++ payload.take k.size ++ zeros (k.size - payload.length)
  let c := b ++ leBytes 4 (crc32c b)
  c ++ k.fec c

/-- Correct a frame as it was received: its bytes and the places corrected. -/
def LinkKind.corrected (k : LinkKind) (raw : Bytes) : Bytes × List Nat :=
  (List.range k.words).foldl (fun (a : Bytes × List Nat) w =>
    let ps := k.places w
    let (cw, fixed) := rsCorrect k.parity (ps.map fun b => (raw.getD b 0).toNat)
    ((ps.zip cw).foldl (fun (f : Bytes) p => f.set p.1 (BitVec.ofNat 8 p.2)) a.1, a.2 ++ fixed.map fun i => ps.getD i 0)) (raw, [])

/-- The CRC of a corrected frame. -/
def LinkKind.crcGood (k : LinkKind) (b : Bytes) : Bool :=
  b.length == k.body + k.words * k.parity && leNat (slice b (8 + k.size) 4) == crc32c (b.take (8 + k.size))

/-- Do TYPE, CHANNEL or CLASS and FILL stand within their codes (R76, R219)? ALERT frames are Purl's. -/
def LinkKind.fieldsGood (k : LinkKind) (h : FrameHdr) : Bool :=
  match k with
  | .efmo => decide (h.type ≤ 3) && decide (h.channel ≤ 8) && decide (h.fill ≤ 228)
  | .purl => decide (h.type ≤ 4) && decide (h.channel ≤ 2) && decide (h.fill ≤ 256)

/-! ### Packing and sending (R77, R81, R219, R220) -/

/-- The lane mapping of a transmitter: logical lane to physical. -/
abbrev Lanes := List Nat

/-- Add a message's bytes to its channel. -/
def LinkSt.enqueue (l : LinkSt) (ch : Nat) (b : Bytes) : LinkSt := { l with queues := l.queues.put ch (((l.queues.get? ch).getD []) ++ b) }

def LinkSt.queued (l : LinkSt) (ch : Nat) : Bytes := (l.queues.get? ch).getD []

/-- May a channel send: it has data, and credit at the other end? -/
def LinkSt.ready (l : LinkSt) (ch : Nat) : Bool := !(l.queued ch).isEmpty && decide (0 < (l.credits.get? ch).getD 0)

/-- The channel of the next DATA frame: the first ready one in order, but the data channel where it would fall below its
share of the slots. -/
def LinkKind.pick (k : LinkKind) (l : LinkSt) : Option Nat :=
  if l.ready 2 ∧ 100 * l.given < k.share * (l.busy + 1) then some 2 else k.order.find? l.ready

/-- The channel to which credits are returned next, and how many. -/
def LinkSt.giveBack (l : LinkSt) : Nat × Nat := (l.owed.find? fun p => p.2 != 0).getD (0, 0)

/-- A frame in its slot: its lanes' symbols; every 65,536th slot carries a SYNC frame first. -/
def LinkKind.slot (k : LinkKind) (lanes : Lanes) (l : LinkSt) (h : FrameHdr) (payload : Bytes) : LinkSt × List (List (Nat × List Nat)) :=
  let one (l : LinkSt) (h : FrameHdr) (p : Bytes) : LinkSt × List (Nat × List Nat) :=
    let (c, n) := l.giveBack
    let n := min n 65535
    let r := overLanes lanes l.scramblers (k.frame { h with ack := l.rxSeq, creditCh := c, credits := n } p)
    ({ l with scramblers := r.2, slots := l.slots + 1, owed := if n = 0 then l.owed else l.owed.put c (((l.owed.get? c).getD 0) - n) }, r.1)
  if l.slots % 65536 = 65535 then
    let (l1, a) := one l { type := 2, channel := 0, seq := (l.txSeq + 1) % 4096, ack := 0, fill := 0, creditCh := 0, credits := 0 } []
    let (l2, b) := one l1 h payload
    (l2, [a, b])
  else
    let (l1, a) := one l h payload
    (l1, [a])

/-- A frame that carries no data and takes no SEQ: a NAK. -/
def LinkKind.sendNak (k : LinkKind) (lanes : Lanes) (l : LinkSt) : LinkSt × List (List (Nat × List Nat)) :=
  k.slot lanes l { type := 3, channel := 0, seq := (l.txSeq + 1) % 4096, ack := l.rxSeq, fill := 0, creditCh := 0, credits := 0 } []

/-- Send one DATA frame of a channel, and keep it for replay. -/
def LinkKind.sendData (k : LinkKind) (lanes : Lanes) (l : LinkSt) (ch : Nat) : LinkSt × List (List (Nat × List Nat)) :=
  let q := l.queued ch
  let p := q.take k.size
  let seq := (l.txSeq + 1) % 4096
  let busy := !(l.queued 2).isEmpty
  let l1 : LinkSt := { l with
    txSeq := seq, queues := if q.length ≤ k.size then l.queues.del ch else l.queues.put ch (q.drop k.size),
    credits := l.credits.put ch (((l.credits.get? ch).getD 0) - 1),
    replay := (l.replay ++ [(seq, ch, p)]).drop (l.replay.length + 1 - k.depth),
    busy := if busy then l.busy + 1 else 0, given := if busy then l.given + (if ch = 2 then 1 else 0) else 0 }
  k.slot lanes l1 { type := 1, channel := ch, seq := seq, ack := 0, fill := p.length, creditCh := 0, credits := 0 } p

/-- Send again every DATA frame kept from one SEQ on. -/
def LinkKind.sendAgain (k : LinkKind) (lanes : Lanes) (l : LinkSt) (from_ : Nat) : LinkSt × List (List (Nat × List Nat)) :=
  (l.replay.dropWhile fun r => r.1 != from_).foldl (fun (a : LinkSt × List (List (Nat × List Nat))) r =>
    let (l1, f) := k.slot lanes a.1 { type := 1, channel := r.2.1, seq := r.1, ack := 0, fill := r.2.2.length, creditCh := 0, credits := 0 } r.2.2
    (l1, a.2 ++ f)) (l, [])

/-! ### Receiving (R76, R81, R83, R219-R221) -/

/-- What a received frame asks for: a NAK to send, with DISCARDS to count or not; a replay from the frame after an
acknowledged one; a DATA frame taken. -/
inductive Received where
  | nothing
  | nak (counted : Bool)
  | replay (ack : Nat)
  | data (seq channel : Nat)
  deriving DecidableEq, Repr

/-- Count corrected bytes by lane in the window of 2^20 frames. -/
def LinkSt.countCorrected (l : LinkSt) (lanes : Nat) (places : List Nat) : LinkSt :=
  let l1 : LinkSt := if 2 ^ 20 ≤ l.window then { l with window := 0, corrected := [] } else l
  places.foldl (fun (x : LinkSt) b => { x with corrected := x.corrected.put (b % lanes) (((x.corrected.get? (b % lanes)).getD 0) + 1) })
    { l1 with window := l1.window + 1 }

/-- A frame as its lanes deliver it: corrected, checked, and taken where it is good and in order. A frame that is
discarded asks for a replay once, and DATA frames after it are discarded until the replay. -/
def LinkKind.receive (k : LinkKind) (lanes : Nat) (l : LinkSt) (raw : Bytes) : LinkSt × Received :=
  let (b, fixed) := k.corrected raw
  let l1 := l.countCorrected lanes fixed
  let h := k.readHeader (leNat (b.take 8))
  if !k.crcGood b then ({ l1 with discarding := true }, if l.discarding then .nothing else .nak false)
  else if !k.fieldsGood h then ({ l1 with discarding := true }, .nak true)
  else
    let moved := h.ack != l1.ackSeq && decide (seqDist l1.ackSeq h.ack ≤ seqDist l1.ackSeq l1.txSeq)
    let l2 : LinkSt := { l1 with
      ackSeq := if moved then h.ack else l1.ackSeq, replayFails := if moved then 0 else l1.replayFails,
      credits := if h.credits = 0 then l1.credits else l1.credits.put h.creditCh (((l1.credits.get? h.creditCh).getD 0) + h.credits) }
    if h.type = 3 then (l2, .replay h.ack)
    else if h.type ≠ 1 then (l2, .nothing)
    else if h.seq = (l2.rxSeq + 1) % 4096 then
      ({ l2 with rxSeq := h.seq, discarding := false, owed := l2.owed.put h.channel (((l2.owed.get? h.channel).getD 0) + 1) }, .data h.seq h.channel)
    else if l2.discarding ∨ 2048 ≤ seqDist (l2.rxSeq + 1) h.seq then (l2, .nothing)
    else ({ l2 with discarding := true }, .nak false)

/-- The link starts afresh: numbers, queues, counts, and the credits the other end gives; scramblers seeded in training. -/
def freshLink (credits : List Nat) (scramblers : List Nat) : LinkSt :=
  { credits := (credits.zipIdx.filter fun p => p.1 != 0).map fun p => (p.2, p.1), scramblers := scramblers }

/-- Seeds of n scramblers, as training leaves them: free values. -/
def State.seeds (s : State) : Nat → List Nat × State
  | 0 => ([], s)
  | n + 1 =>
    let (v, s1) := s.free 58
    let (l, s2) := s1.seeds n
    (v :: l, s2)

/-! ### The messages of Efmo (R77-R80) -/

/-- A message of channels 0x0 and 0x3 to 0x8 has a 4-byte length before it. -/
def prefixed (b : Bytes) : Bytes := leBytes 4 b.length ++ b

/-- A block message (R78). -/
def blockBytes4K (m : BlockMsg) : Bytes :=
  leBytes 8 m.seq ++ leBytes 4 (m.slot % 8192 + m.mask % 256 * 2 ^ 16) ++ leBytes 2 m.volume ++ leBytes 1 m.index ++
    leBytes 1 (if m.forwarded then 1 else 0) ++ leBytes 8 m.lba ++ m.data ++ leBytes 8 m.guard

/-- The fields of a block message's 4,128 bytes. -/
def readBlock (b : Bytes) : BlockMsg :=
  let n (off len : Nat) : Nat := leNat (slice b off len)
  { seq := n 0 8, slot := n 8 4 % 8192, mask := n 0xA 1, volume := n 0xC 2, index := n 0xE 1, forwarded := bit (n 0xF 1) 0, lba := n 0x10 8,
    data := slice b 0x18 4096, guard := n 0x1018 8 }

/-- An END or ABORT marker (R79). -/
def markerBytes (abort : Bool) (m : Marker) : Bytes :=
  leBytes 8 m.seq ++ leBytes 4 m.firstSlot ++ leBytes 1 m.count ++ leBytes 1 (if abort then 2 else 1) ++ zeros 2 ++
    leBytes 8 (if abort then 0 else m.fold) ++ zeros 8

/-- An acknowledgement (R79). -/
def ackBytes (a : AckMsg) : Bytes :=
  leBytes 8 a.seq ++ leBytes 4 a.firstSlot ++ leBytes 1 a.count ++ leBytes 1 0x80 ++ zeros 2 ++
    leBytes 1 a.status ++ leBytes 1 a.failing ++ leBytes 2 a.credit ++ zeros 4 ++ zeros 8

/-- The fields of a marker's 32 bytes, and of an acknowledgement's; `forwarded` follows from whose slots it names. -/
def readMarker (forwarded : Bool) (b : Bytes) : Marker :=
  let n (off len : Nat) : Nat := leNat (slice b off len)
  { seq := n 0 8, firstSlot := n 8 4, count := n 0xC 1, kind := n 0xD 1, fold := n 0x10 8, forwarded := forwarded }
def readAck (forwarded : Bool) (b : Bytes) : AckMsg :=
  let n (off len : Nat) : Nat := leNat (slice b off len)
  { seq := n 0 8, firstSlot := n 8 4, count := n 0xC 1, status := n 0x10 1, failing := n 0x11 1, credit := n 0x12 2, forwarded := forwarded }

/-- A refetch message (R80). -/
def refetchBytes (m : RefetchMsg) : Bytes :=
  leBytes 8 m.seq ++ leBytes 8 m.lba ++ leBytes 2 m.volume ++ leBytes 1 m.block ++ leBytes 1 m.kind ++ leBytes 1 m.status ++ zeros 1 ++
    leBytes 2 m.token ++ zeros 8
def readRefetch (b : Bytes) : RefetchMsg :=
  let n (off len : Nat) : Nat := leNat (slice b off len)
  { seq := n 0 8, lba := n 8 8, volume := n 0x10 2, block := n 0x12 1, kind := n 0x13 1, status := n 0x14 1, token := n 0x16 2 }

/-- The channel and bytes of an Efmo message. Where the spec gives a message's fields and not their places, they follow in
the order of the message, eight bytes each, under the code of their kind (log entry 164). -/
def efmoMessage : Sent → Option (Nat × Bytes)
  | .efmoParam p => some (0, prefixed (leBytes 1 1 ++ ([p.headId, p.headState, p.epoch0, p.epoch1] ++ p.credits ++ p.floors).flatMap (leBytes 8)))
  | .efmoLaneSpare a b c => some (0, prefixed (leBytes 1 2 ++ [a, b, c].flatMap (leBytes 8)))
  | .efmoMarker abort m => some (1, markerBytes abort m)
  | .efmoAck a => some (1, ackBytes a)
  | .efmoBlock b => some (2, blockBytes4K b)
  | .efmoForward q c => some (3, prefixed (leBytes 1 1 ++ [q, c.cid, c.nsid, c.slba, c.nlb].flatMap (leBytes 8) ++ c.data))
  | .efmoSlotReply q c n o m k st => some (3, prefixed (leBytes 1 2 ++ [q, c, n, o, m, k, st].flatMap (leBytes 8)))
  | .efmoReadData q c l d g => some (4, prefixed ([q, c, l, g].flatMap (leBytes 8) ++ d))
  | .efmoGroup g => some (5, prefixed (leBytes 1 1 ++ groupBytes g.jseq g.recs))
  | .efmoHorizon i h t => some (5, prefixed (leBytes 1 2 ++ [i, h, t].flatMap (leBytes 8)))
  | .efmoFinalJseq j => some (5, prefixed (leBytes 1 3 ++ leBytes 8 j))
  | .efmoLastSeq q j => some (5, prefixed (leBytes 1 4 ++ [q, j].flatMap (leBytes 8)))
  | .efmoGapRequest i j => some (5, prefixed (leBytes 1 5 ++ [i, j].flatMap (leBytes 8)))
  | .efmoMissing i l => some (5, prefixed (leBytes 1 6 ++ leBytes 8 i ++ l.flatMap fun g => groupBytes g.jseq g.recs))
  | .efmoArm c t l => some (5, prefixed (leBytes 1 7 ++ [c, t].flatMap (leBytes 8) ++ l.flatMap fun k => leBytes 8 k.1 ++ leBytes 8 k.2))
  | .efmoCancelArm c => some (5, prefixed (leBytes 1 8 ++ leBytes 8 c))
  | .efmoState m => some (6, prefixed (leBytes 1 1 ++
      [m.headState, m.epoch0, m.epoch1, m.heartbeat, if m.bankFailed then 1 else 0, m.level, m.peerMin].flatMap (leBytes 8)))
  | .efmoReady => some (6, prefixed (leBytes 1 2))
  | .efmoFlushed => some (6, prefixed (leBytes 1 3))
  | .efmoRefetch m => some (8, prefixed (refetchBytes m))
  | .efmoRefetchReply m b => some (8, prefixed (refetchBytes m ++ (b.map blockBytes4K).getD []))
  | _ => none

/-! ### Efmo's transmitter -/

/-- The transmit lanes once the switches of a SEQ have been made (R83). -/
def EfmoSt.lanesAt (e : EfmoSt) (seq : Nat) : EfmoSt :=
  { e with txLanes := (e.txSwitch.filter fun w => w.1 == seq).foldl (fun l w => l.set w.2.1 w.2.2) e.txLanes,
           txSwitch := e.txSwitch.filter fun w => w.1 != seq }

def State.flits (s : State) (r : LinkSt × List (List (Nat × List Nat))) : State :=
  r.2.foldl (fun t f => t.send (.efmoFlit f)) { s with efmo := { s.efmo with link := r.1 } }

/-- Send DATA flits while a channel may. -/
def State.drainEfmo : Nat → State → State
  | 0, s => s
  | n + 1, s =>
    match LinkKind.efmo.pick s.efmo.link with
    | none => s
    | some ch =>
      let s1 := { s with efmo := s.efmo.lanesAt ((s.efmo.link.txSeq + 1) % 4096) }
      State.drainEfmo n (s1.flits (LinkKind.efmo.sendData s1.efmo.txLanes s1.efmo.link ch))

/-- Take what the head has sent since the last packing into the flits of its channels (R77): messages queue, a NAK and a
replay go out in their turn. -/
def State.packEfmo (s : State) : State :=
  let s1 := (if s.efmoUp then s.sent.drop s.efmo.packed else []).foldl (fun (t : State) x =>
    match efmoMessage x with
    | some (ch, b) => { t with efmo := { t.efmo with link := t.efmo.link.enqueue ch b } }
    | none => match x with
      | .efmoNak _ => t.flits (LinkKind.efmo.sendNak t.efmo.txLanes t.efmo.link)
      | .efmoReplay first _ => t.flits (LinkKind.efmo.sendAgain t.efmo.txLanes t.efmo.link first)
      | _ => t) s
  let n := (s1.efmo.link.queues.map fun q => q.2.length / 228 + 1).sum
  let s2 := if s1.efmoUp then State.drainEfmo n s1 else s1
  { s2 with efmo := { s2.efmo with packed := s2.sent.length } }

/-- Switches of the receive lanes at a SEQ, or all of them (R83). -/
def State.switchRx (s : State) (at_ : Nat × Nat × Nat → Bool) : State :=
  let l := s.efmo.rxSwitch.filter at_
  if l.isEmpty then s
  else
    let lanes := l.foldl (fun r w => r.set w.2.1 w.2.2) s.efmo.rxLanes
    ({ s with efmo := { s.efmo with rxLanes := lanes, rxSwitch := s.efmo.rxSwitch.filter fun w => !at_ w } }).setFld F.EFM_LANE_MAP_RX_ACTIVE
      ((lanes.map fun k => 2 ^ k).foldl (· + ·) 0)

/-! ### The messages of Purl (R219, R225) -/

/-- An operation descriptor (R225). -/
def opBytes32 (o : PurlOp) : Bytes :=
  leBytes 1 o.opcode ++ leBytes 1 o.flags ++ leBytes 2 o.tag ++ leBytes 2 o.epoch ++ leBytes 1 o.cwMask ++ leBytes 1 o.mode ++ leBytes 8 o.addr ++
    (o.offsets.take 8).map (BitVec.ofInt 8) ++ zeros (8 - o.offsets.length) ++ leBytes 4 o.dataLen ++ zeros 4

/-- A Purl message: its port, class and bytes; places the spec does not give are as for Efmo (log entry 164). -/
def purlMessage : Sent → Option (Nat × Nat × Bytes)
  | .purlOp m o => some (m, 1, opBytes32 o)
  | .purlData m tag page d => some (m, 2, leBytes 2 tag ++ leBytes 1 page ++ zeros 1 ++ leBytes 4 d.length ++ d)
  | .purlParam m h e p g r c => some (m, 0, prefixed (leBytes 2 1 ++ ([h, e, p, g, r] ++ c).flatMap (leBytes 8)))
  | .purlWidth m q => some (m, 0, prefixed (leBytes 2 2 ++ leBytes 8 q))
  | .fwChunk m o d => some (m, 0, prefixed (leBytes 2 0x100 ++ leBytes 4 o ++ d))
  | .fwCommit m n d => some (m, 0, prefixed (leBytes 2 0x101 ++ leBytes 4 n ++ d))
  | .fwActivate m => some (m, 0, prefixed (leBytes 2 0x102))
  | _ => none

def State.linkOf (s : State) (m : Nat) : LinkSt := (s.port m).link
def State.setLink (s : State) (m : Nat) (l : LinkSt) : State := s.setPort m { s.port m with link := l }

/-- The lanes that carry a port's frames. -/
def State.purlLanes (s : State) (m : Nat) : Lanes :=
  if s.fld (F.MED_PORT_STATUS_WIDTH m) = 2 ∨ (s.pattern.purlX2 ∧ (s.port m).badLane.isNone) then [0, 1]
  else match (s.port m).badLane with
    | some l => [1 - l]
    | none => [0]

def State.frames (s : State) (m : Nat) (r : LinkSt × List (List (Nat × List Nat))) : State :=
  r.2.foldl (fun t f => t.send (.purlFrame m f)) (s.setLink m r.1)

/-- The switch to x1, at the DATA frame whose SEQ the width message named (R221). -/
def State.narrowAt (s : State) (m seq : Nat) : State :=
  match (s.port m).narrow with
  | some (q, bad) =>
    if q = seq then
      (s.setPort m { s.port m with narrow := none, badLane := some bad }).setFld (F.MED_PORT_STATUS_WIDTH m) 1
    else s
  | none => s

/-- Send DATA frames on a port while a class may. -/
def State.drainPurl : Nat → Nat → State → State
  | 0, _, s => s
  | n + 1, m, s =>
    match LinkKind.purl.pick (s.linkOf m) with
    | none => s
    | some ch =>
      let s1 := s.narrowAt m (((s.linkOf m).txSeq + 1) % 4096)
      State.drainPurl n m (s1.frames m (LinkKind.purl.sendData (s1.purlLanes m) (s1.linkOf m) ch))

/-- May a port carry frames: it is up, or its training has reached the parameter exchange. -/
def State.linked (s : State) (m : Nat) : Bool := s.portUp m || (s.port m).training == 7

/-- Take what the head has sent on the module ports since the last packing into their frames (R219). -/
def State.packPurl (s : State) : State :=
  let fresh := s.sent.drop s.media.packed
  let s1 := fresh.foldl (fun (t : State) x =>
    match purlMessage x with
    | some (m, c, b) => if t.linked m then t.setLink m ((t.linkOf m).enqueue c b) else t
    | none => match x with
      | .purlNak m _ => t.frames m (LinkKind.purl.sendNak (t.purlLanes m) (t.linkOf m))
      | .purlReplay m first _ => t.frames m (LinkKind.purl.sendAgain (t.purlLanes m) (t.linkOf m) first)
      | _ => t) s
  let s2 := s1.media.ports.foldl (fun (t : State) p =>
    if p.2.link.queues.isEmpty || !t.linked p.1 then t
    else State.drainPurl ((p.2.link.queues.map fun q => q.2.length / 256 + 1).sum) p.1 t) s1
  s2.modMedia fun m => { m with packed := s2.sent.length }

end Sys2Proof.Machine
end

