-- ==== Sys2Proof/Machine/ModuleOps.lean ====
section
/-! DEFINITION. Programs and erases that end, open checks, reads that are served another way, and modules that
leave and return (08, 09, 10), as the operations that commands share. -/
namespace Sys2Proof.Machine

/-! ### Items whose place is durable (R192, R203, R247) -/

/-- The address of an operation in the layout of Content Record bits [41:0]. -/
def PendOp.loc (p : PendOp) : Nat := p.port * 2 ^ 36 + p.op.addr

/-- A location as a RELOCATE record holds it. -/
def locOf (addr slot : Nat) : Nat := addr % 2 ^ 42 + slot * 2 ^ 42

/-- A copy is programmed: its RELOCATE record is journaled. -/
def State.relocated (s : State) (i cid idGen old new : Nat) : State :=
  let s1 := match s.sbOfAddr (old % 2 ^ 42) with
    | some sb => s.modFtl fun t => { t with moving := t.moving ++ [(sb, cid)] }
    | none => s
  s1.buildGroup i [.relocate cid idGen old new]

/-- The Content Record of a placed block takes its address, its slots are valid; where its page is not cached, once it is
(log entry 162). -/
def State.recordPlaced (s : State) (sb cid addr slot n : Nat) : State :=
  match s.recMissing cid with
  | some (level, ident, loc) => s.waitPage (cidInst cid) 2 level ident loc [.placed sb cid addr slot n] []
  | none =>
  match s.rec? cid with
  | some r => (s.setRec cid { r with addr := addr, slot := slot : Rec }.toNat).slotsValid sb n
  | none => s.slotsInvalid sb n

/-- The new content that an item holds. -/
def Item.fresh? : Item → Option Nat
  | .drained cid _ | .received cid _ _ _ => some cid
  | _ => none

/-- Does an item still hold something? New content that has been given up has no PENDING record. -/
def State.itemLive (s : State) (x : Item) : Bool :=
  match x.fresh?.bind s.rec? with
  | some r => r.state == 1
  | none => true

/-- Where new content stands in an open superblock: superblock, address, slot. -/
def State.whereIs (s : State) (cid : Nat) : Option (Nat × Nat × Nat) :=
  s.ftl.open_.findSome? fun o =>
    ((o.items ++ o.units.flatMap (·.items)).find? fun p => p.what.item.fresh? == some cid).map fun p => (o.sb, o.addr p.stripe p.cw, p.slot)

/-- Place an item; the record of new content takes its place with it (R126), at the latest when a superblock opens for it. -/
def State.placeItem (s : State) (x : ToPlace) : State :=
  let s1 := s.place x
  match x.item.fresh? with
  | some cid => match s1.whereIs cid with
    | some (sb, addr, slot) => s1.recordPlaced sb cid addr slot x.need
    | none => s1
  | none => s1

/-- Place what waits, in order. -/
def State.placeWaiting (s : State) (inst stream : Nat) : State :=
  let mine := s.ftl.toPlace.filter fun x => x.inst == inst && x.stream == stream
  let s1 := { s with ftl := { s.ftl with toPlace := s.ftl.toPlace.filter fun x => !(x.inst == inst && x.stream == stream) } }
  mine.foldl State.placeItem s1

/-- One item is durable at its place. -/
def State.itemDurable (s : State) (o : OpenSb) (p : Placed) : State :=
  let addr := o.addr p.stripe p.cw
  if !s.itemLive p.what.item then s
  else match p.what.item with
  | .drained cid k =>
    match s.commit.staging.get? k with
    | some g => if g.mirror then s.dropPending cid else (s.modStg k fun g => { g with st := .durable cid, content := some cid }).tryJournal g.inst g.seq
    | none => s
  | .moved cid idGen old => s.relocated o.inst cid idGen old (locOf addr p.slot)
  | .poison cid idGen old => s.relocated o.inst cid idGen old (locOf addr p.slot)
  | .page inst tree level ident old => s.pageWritten inst tree level ident old addr
  | .movedPage inst tree level ident old => s.pageCopied inst tree level ident old addr
  | .jpage inst jpage => s.jpageGood inst jpage addr
  | .received cid link seq k => ((s.setRx link seq k (.programmed cid)).rxJournal.rxAck)

/-! ### Superblocks that close (R181, R200, R205) -/

/-- Data slots of a superblock. -/
def OpenSb.dataSlots (o : OpenSb) : Nat := o.total * unitStripes o.mode * o.k * 8

/-- Data slots filled or passed over so far. -/
def OpenSb.usedSlots (o : OpenSb) : Nat := (o.stripe * o.k + o.cw) * 8 + o.slots

/-- Close a superblock: stamped, journaled, and no longer open. -/
def State.closeSb (s : State) (o : OpenSb) : State :=
  let s1 := s.modFtl fun t => { t with open_ := t.open_.filter fun x => x.sb != o.sb }
  let wmax := o.members.foldl (fun m b => max m (s.wear b)) 0
  let s2 := (s1.wrN (s.sbsAddr o.sb + 8) 8 s.stamp).wrN (s.sbsAddr o.sb + 0x14) 2 wmax
  (s2.setSbState o.sb sbClosed).journalSb o.sb sbClosed 0

/-- Every block that is not durable is placed again, in hold-up in a stream 4 superblock; its first placement is invalid
slots, and so is what was never filled. Programs not yet issued are dropped. -/
def State.failOpen (s : State) (o : OpenSb) : State :=
  let again := (o.units.flatMap (·.items) ++ o.items).filter fun p => s.itemLive p.what.item
  let (fresh, rest) := again.partition fun p => p.what.item.fresh?.isSome
  let s1 := s.modMedia fun m => { m with queued := m.queued.filter fun q => match q.2.purpose with
    | .program sb _ _ => sb != o.sb
    | _ => true }
  let s2 := (s1.slotsInvalid o.sb ((rest.map (·.what.need)).foldl (· + ·) 0 + (o.dataSlots - o.usedSlots))).slotsFreed o.sb
    ((fresh.map (·.what.need)).foldl (· + ·) 0)
  again.foldl (fun t p => t.placeItem { p.what with stream := if s.rows.holdup then 4 else p.what.stream }) (s2.closeSb o)

/-- A program of a member failed (R205): the superblock closes, urgent for reclaim. The block is retired with a
reason, or not at all where a port went down (R222). -/
def State.programFailed (s : State) (sb member : Nat) (reason : Option Nat) : State :=
  match s.openSb? sb with
  | none => s
  | some o =>
    let s1 := match reason with
      | some r => (s.retireBlock (o.members.getD member 0) r).orFlags sb 0x18
      | none => s.orFlags sb 0x10
    (s1.raise F.FTL_RCL_ISR_PROG_FAIL).failOpen o

/-- A program of a member ended good: the items it makes durable are journaled, and a superblock whose last stripe
is programmed closes. -/
def State.programGood (s : State) (sb unit member : Nat) : State :=
  match s.openSb? sb with
  | none => s
  | some o =>
    match o.units.find? fun u => u.unit == unit with
    | none => s
    | some u =>
      let good := u.good ++ [member]
      let now := u.items.filter fun p => unitDurable o.k o.m good p.stripe p.cw
      let later := u.items.filter fun p => !unitDurable o.k o.m good p.stripe p.cw
      let above := u.issued.all good.contains
      let lo := unit * unitStripes o.mode * 32
      let o1 : OpenSb := { o with
        units := if above then o.units.filter (fun x => x.unit != unit)
          else o.units.map fun x => if x.unit == unit then { x with good := good, items := later } else x,
        cws := if above then o.cws.filter fun c => !(decide (lo ≤ c.1) && decide (c.1 < lo + unitStripes o.mode * 32)) else o.cws }
      let s1 := now.foldl (fun t p => t.itemDurable o p) (s.setOpen o1)
      if o1.full && o1.units.isEmpty then
        match s1.openSb? sb with
        | some o2 => s1.closeSb o2
        | none => s1
      else s1

/-! ### Erases (R200, R206, R210) -/

/-- Does an erase retire the block: its wear, or two codewords reconstructed since its last one? -/
def State.eraseRetires (s : State) (member : Nat) : Option Nat :=
  if s.fld F.FTL_WEAR_CFG_RETIRE_WU ≤ s.wear member then some 3
  else if 2 ≤ (s.media.reconsOf.get? member).getD 0 then some 4 else none

/-- Forget what was counted since a block's last erase. -/
def State.freshBlock (s : State) (member : Nat) : State :=
  s.modMedia fun m => { m with reads := m.reads.del member, reconsOf := m.reconsOf.del member }

/-- A superblock's erase is over: FREE, its statistics zeroed except WEAR_MAX, or RETIRED. -/
def State.eraseOver (s : State) (sb : Nat) (failed : Bool) : State :=
  let s1 := s.modFtl fun t => { t with erasing := t.erasing.filter fun e => e.1 != sb }
  let wmax := (s.sbMembers sb).foldl (fun m b => max m (s.wear b)) 0
  let s2 := (s1.addInvalid (s.sbInst sb) (-(s.sbInvalid sb : Int))).addValid (s.sbInst sb) (-(s.sbValid sb : Int))
  if failed || bit (s.sbFlags sb) 3 then (s2.setSbState sb sbRetired).journalSb sb sbRetired 0
  else
    let s3 := (s2.wr (s.sbsAddr sb) (zeros 128)).wrN (s.sbsAddr sb + 0x14) 2 wmax
    (s3.setSbState sb sbFree).journalSb sb sbFree 0

/-- Erases of superblocks none of whose members is left to erase are over. -/
def State.endErases (s : State) : State :=
  (s.ftl.erasing.filter fun e => e.2.1.isEmpty).foldl (fun t e => t.eraseOver e.1 e.2.2) s

/-- A member's erase in a FINISH is over. -/
def State.memberErased (s : State) (sb member : Nat) (failed : Bool) : State :=
  match s.ftl.erasing.find? fun e => e.1 == sb with
  | none => s
  | some (_, left, bad) =>
    let left1 := left.erase member
    let bad1 := bad || failed
    if left1.isEmpty then s.eraseOver sb bad1
    else s.modFtl fun t => { t with erasing := t.erasing.map fun e => if e.1 == sb then (sb, left1, bad1) else e }

/-- A member was erased good in a FINISH. -/
def State.eraseGood (s : State) (sb member : Nat) : State :=
  let s1 := s.addWear member
  match s1.eraseRetires member with
  | some r => ((s1.retireBlock member r).freshBlock member).memberErased sb member true
  | none => (s1.freshBlock member).memberErased sb member false

/-! ### Opening a superblock (R181, R200, R209, R253) -/

/-- Is a member ready to be written: its module SERVING, its die not failed? -/
def State.memberReady (s : State) (member : Nat) : Bool :=
  s.modState (memberModule member) == modServing && !s.dieFailed (memberModule member) (memberDie member)

def State.modOpening (s : State) (sb : Nat) (f : OpenCheck → OpenCheck) : State :=
  s.modFtl fun t => { t with opening := t.opening.map fun c => if c.sb == sb then f c else c }

/-- Program units per block of a superblock's members. -/
def State.unitsOf (s : State) (sb : Nat) : Nat :=
  let p := (s.port (memberModule (s.sbMember sb 0))).page
  if s.sbMode sb = 1 then (p.map (·.pagesQlc / 4)).getD 1024 else (p.map (·.pagesSlc)).getD 1024

/-- The first and the last page of a superblock's blocks. -/
def State.checkPage (s : State) (sb which : Nat) : Nat :=
  if which = 0 then 0 else if s.sbMode sb = 1 then 4 * s.unitsOf sb - 1 else s.unitsOf sb - 1

/-- Queue the reads of one member's check: codeword 0 of page 0 and codeword 3 of the last page. -/
def State.checkMember (s : State) (sb stream member : Nat) : State :=
  (List.range 2).foldl (fun t w =>
    t.queueRead (if stream = 2 then 0 else 6) (s.readMode sb) (memberAddr member (s.checkPage sb w) (if w = 0 then 0 else 3)) (.openCheck sb member w)) s

/-- A superblock has passed its checks: it is OPEN, and takes what waits for its stream. -/
def State.openNow (s : State) (c : OpenCheck) : State :=
  let o : OpenSb := {
    sb := c.sb, inst := c.inst, stream := c.stream, mode := s.sbMode c.sb, k := s.sbK c.sb, m := s.sbM c.sb, members := s.sbMembers c.sb,
    stripe := 0, cw := 0, slots := 0, items := [], cws := [], units := [], total := s.unitsOf c.sb }
  let s1 := s.modFtl fun t => { t with opening := t.opening.filter (fun x => x.sb != c.sb), open_ := t.open_ ++ [o] }
  let s2 := (s1.wrN (s.sbAddr c.sb + 8) 8 s.stamp).setSbState c.sb sbOpen
  (s2.journalSb c.sb sbOpen 0).placeWaiting c.inst c.stream

/-- A queued superblock is retired at open (R200). -/
def State.retireAtOpen (s : State) (sb : Nat) : State :=
  ((s.modFtl fun t => { t with opening := t.opening.filter fun c => c.sb != sb }).setSbState sb sbRetired).journalSb sb sbRetired 0
    |>.raise F.FTL_RCL_ISR_BAD_MEMBER

/-- Take the next queued superblock of a stream: members in the bad-block bitmap retire it; one with a member that is
not available is skipped and keeps its place. -/
def State.openNext : Nat → Nat → Nat → State → State
  | 0, _, _, s => s
  | n + 1, i, stream, s =>
    match (s.sbQueue i stream).find? fun sb => (s.sbMembers sb).all s.memberReady with
    | none => if (s.sbQueue i stream).isEmpty then s else s.raise F.STR_ISR_SB_SKIPPED
    | some sb =>
      let s0 := if (s.sbQueue i stream).head? = some sb then s else s.raise F.STR_ISR_SB_SKIPPED
      let s1 := s0.setQueue i stream ((s.sbQueue i stream).erase sb)
      if (s.sbMembers sb).any s.badBlock then State.openNext n i stream (s1.retireAtOpen sb)
      else
        let c : OpenCheck := { sb := sb, inst := i, stream := stream, left := (s.sbMembers sb).flatMap fun m => [(m, 0), (m, 1)], erased := [] }
        (s.sbMembers sb).foldl (fun t m => t.checkMember sb stream m) (s1.modFtl fun t => { t with opening := t.opening ++ [c] })

/-- Is FREE of an instance below its spare reserve, which host data never gets (R183, R188)? -/
def State.spareOnly (s : State) (i : Nat) : Bool := decide (s.fld (F.FTL_SB_COUNTS_FREE_COUNT i) < s.fld (F.FTL_SB_COUNTS_SPARE_COUNT i))

/-- Is a Stitch that moves blocks to the dense tier in flight? -/
def State.densifies (s : State) : Bool := (s.rows.stitches.vals ++ s.rows.waiting).any fun t => t.cls == 3

/-- May a stream's next superblock be opened (R184, R186, R188, R492)? DESIGN CHOICE (log entry 185): while only the spare
reserve is FREE, stream 0 opens none, and stream 1 opens one for moves from the fast tier only. -/
def State.mayOpen (s : State) (i stream : Nat) : Bool :=
  !(s.ftl.opening.any fun c => c.inst == i && c.stream == stream) && (s.openFor i stream).isNone &&
  (match stream with
   | 0 => decide (s.fld (F.FTL_SB_COUNTS_FAST_COUNT i) + 1 ≤ s.fld (F.FTL_SB_COUNTS_TARGET_COUNT i)) &&
      !decide ((s.sbQueue i 4).length < s.fld F.FTL_HU_RESERVE_COUNT) && !s.spareOnly i
   | 1 => !decide ((s.sbQueue i 4).length < s.fld F.FTL_HU_RESERVE_COUNT) && (!s.spareOnly i || s.densifies)
   | 4 => s.rows.holdup && (s.holds i || !(s.pairSt.claims.any fun c => c.half == i))
   | k => decide (k < 4))

/-- A check that can go no further puts its superblock back at the head of its queue. -/
def State.dropCheck (s : State) (sb : Nat) : State :=
  match s.ftl.opening.find? fun c => c.sb == sb with
  | none => s
  | some c => (s.modFtl fun t => { t with opening := t.opening.filter fun x => x.sb != sb }).setQueue c.inst c.stream (sb :: s.sbQueue c.inst c.stream)

/-- The outcome of one read of a check. -/
def State.checkRead (s : State) (sb member which : Nat) (pass : Bool) : State :=
  match s.ftl.opening.find? fun c => c.sb == sb with
  | none => s
  | some c =>
    if !c.left.contains (member, which) then s
    else if pass then
      let left := c.left.erase (member, which)
      if left.isEmpty then s.openNow c else s.modOpening sb fun c => { c with left := left }
    else if c.erased.contains member then
      State.openNext 64 c.inst c.stream ((s.retireBlock member 5).retireAtOpen sb)
    else
      (s.modOpening sb fun c => { c with left := (c.left.filter fun l => l.1 != member) ++ [(member, 2)], erased := member :: c.erased }).queueOp
        (if c.stream = 2 then 0 else 6)
        { port := memberModule member, data := [], purpose := .openErase sb member,
          op := plainOp 3 (if c.stream = 2 then 0 else 1) (s.epoch c.inst) (s.readMode sb) (memberAddr member 0 0) }

/-- The second erase of a member at open is over. -/
def State.checkErased (s : State) (sb member : Nat) (failed : Option Nat) : State :=
  match s.ftl.opening.find? fun c => c.sb == sb with
  | none => s
  | some c =>
    match failed with
    | some r => State.openNext 64 c.inst c.stream ((s.retireBlock member r).retireAtOpen sb)
    | none =>
      let s1 := s.addWear member
      match s1.eraseRetires member with
      | some r => State.openNext 64 c.inst c.stream (((s1.retireBlock member r).freshBlock member).retireAtOpen sb)
      | none =>
        ((s1.freshBlock member).modOpening sb fun c =>
          { c with left := (c.left.filter fun l => l.1 != member) ++ [(member, 0), (member, 1)] }).checkMember sb c.stream member

/-! ### Reconstruction: substitutes and solving (R248-R250) -/

def ReconSt.is (r : ReconSt) (sb stripe want : Nat) : Bool := r.sb == sb && r.stripe == stripe && r.want == want
def State.recon? (s : State) (sb stripe want : Nat) : Option ReconSt := s.media.recons.find? fun r => r.is sb stripe want
def State.modRecon (s : State) (sb stripe want : Nat) (f : ReconSt → ReconSt) : State :=
  s.modMedia fun m => { m with recons := m.recons.map fun r => if r.is sb stripe want then f r else r }
def State.endRecon (s : State) (sb stripe want : Nat) : State :=
  s.modMedia fun m => { m with recons := m.recons.filter fun r => !r.is sb stripe want }

/-- A codeword of a reconstruction became unavailable: the next unused one of the stripe takes its place, or the
codeword wanted is unrecoverable. -/
def State.substitute (s : State) (sb stripe want c : Nat) : State :=
  match s.recon? sb stripe want with
  | none => s
  | some r =>
    match (s.reconOrder sb stripe want).find? fun x => !r.asked.contains x with
    | some x =>
      ((s.modRecon sb stripe want fun r => { r with asked := r.asked ++ [x], bad := r.bad ++ [c], good := r.good.del c }).inc F.STR_ERRS_SUBSTITUTED).queueRead
        r.budget (s.readMode sb) (s.cwLoc sb stripe x) (.rebuildRead sb stripe want x)
    | none => (s.endRecon sb stripe want).unrecoverable r.purpose

/-- Has a superblock closed and not been erased since? -/
def State.sbSinceClose (s : State) (sb : Nat) : Bool := s.sbState sb == sbClosed || s.sbState sb == sbReclaiming

/-- A codeword of a superblock needed LDS since it closed: SOFT_DECODES (R199). -/
def State.countSoft (s : State) (sb : Option Nat) : State :=
  match sb with
  | some sb => if s.sbSinceClose sb then s.addStat sb 0x10 2 1 else s
  | none => s

/-- A codeword was decoded by LDH or LDS, or failed after LDS (R109, R236, R239); `soft` says that LDS decoded it. -/
def State.countDecode (s : State) (sb : Option Nat) (m die : Nat) (soft : Bool) (o : LdpcOut) : State :=
  match o with
  | .fail =>
    (((s.count64 F.LDC_FAILED_LO_COUNT F.LDC_FAILED_HI_COUNT F.LDC_DEC_WRAPS_FAILED_WRAPS).raise F.LDC_ISR_FAILED).modHealth fun h =>
      { h with failed := h.failed.put m ((h.failed.get? m).getD 0 + 1), soft := h.soft.put m ((h.soft.get? m).getD 0 + 1) }).countSoft sb
  | .ok fixed _ =>
    if soft then
      let s1 := (s.count64 F.LDC_SOFT_OK_LO_COUNT F.LDC_SOFT_OK_HI_COUNT F.LDC_DEC_WRAPS_SOFT_WRAPS).modHealth fun h =>
        { h with soft := h.soft.put m ((h.soft.get? m).getD 0 + 1) }
      s1.countSoft sb
    else
      (s.count64 F.LDC_HARD_OK_LO_COUNT F.LDC_HARD_OK_HI_COUNT F.LDC_DEC_WRAPS_HARD_WRAPS).modMedia fun x =>
        { x with tally := x.tally.put (m * 256 + die) ((x.tally.get? (m * 256 + die)).getD 0 + fixed) }

/-- RECON of a codeword reconstructed after STATUS 0x05 or a die fault, and its count towards retirement (R206). -/
def State.raiseRecon (s : State) (sb stripe c : Nat) : State :=
  let member := s.sbMember sb (memberOf (s.sbW sb) c stripe)
  (if s.sbSinceClose sb then s.addStat sb 0x13 1 1 else s).modMedia fun m => { m with reconsOf := m.reconsOf.put member ((m.reconsOf.get? member).getD 0 + 1) }

/-- Is a codeword unavailable only because its module is absent, or was lost? -/
def State.awayOnly (s : State) (sb stripe c : Nat) : Bool :=
  let m := memberModule (s.sbMember sb (memberOf (s.sbW sb) c stripe))
  let st := s.modState m
  st == modAway || st == modHeld || st == modLost || s.lostBefore sb m

/-- Solve a codeword from K good ones. -/
def State.solve (s : State) (r : ReconSt) (known : Tbl Bytes) : State :=
  let bytes := solveCodeword (s.sbW r.sb) (s.sbM r.sb) r.want known
  let s1 := s.count64 F.STR_RECON_LO_COUNT F.STR_RECON_HI_COUNT F.STR_RECON_WRAPS_WRAPS (1 + r.bad.length)
  let s2 := (r.bad ++ [r.want]).foldl (fun t c => if s.awayOnly r.sb r.stripe c then t else t.raiseRecon r.sb r.stripe c) s1
  (s2.endRecon r.sb r.stripe r.want).modMedia fun m => { m with results := m.results ++ [(r.purpose, some bytes)] }

/-! ### Reads that end without their data (R222, R226) -/

/-- The budget an operation drew on: 6 for foreground. -/
def State.opBudget (s : State) (p : PendOp) : Nat :=
  if p.op.flags % 2 = 1 then 6
  else match p.purpose with
    | .stitchRead sid => match (s.rows.stitches ++ s.rows.retired).find? fun q => q.1 == sid with
      | some q => if 2 ≤ q.2.cls ∧ q.2.cls ≤ 4 then q.2.cls - 2 else 6
      | none => 6
    | .rebuildRead sb stripe want _ => ((s.recon? sb stripe want).map (·.budget)).getD 0
    | .indexRead .. => 2
    | .scrub => 3
    | .calibration _ => 4
    | .paramRead | .telemetry => 5
    | _ => 0

/-- A read is served another way: from its stripe where its member is unavailable, else read again. -/
def State.readAgain (s : State) (p : PendOp) (faulted : Bool) : State :=
  let budget := s.opBudget p
  match p.purpose with
  | .rebuildRead sb stripe want c =>
    if faulted || s.memberAway sb (addrMember p.loc) then s.substitute sb stripe want c else s.queueOp budget p
  | .openCheck sb _ _ => s.dropCheck sb
  | .softRead sid => s.retire sid 5 stLDS
  | .rebuildSoft sb stripe want c => s.substitute sb stripe want c
  | .notice => s
  | .calibration _ | .selfTest | .scrub | .telemetry => if faulted then s else s.queueOp budget p
  | .paramRead => s.queueOp 5 p
  | q => if faulted then s.reconAfterFailure budget p.loc q else s.readCodeword budget p.loc q

/-! ### Ports and modules (R222, R252-R255) -/

/-- Is an operation a read, a program or an erase? -/
def PendOp.isRead (p : PendOp) : Bool := p.op.opcode == 1 || p.op.opcode == 5
def PendOp.isProgram (p : PendOp) : Bool := p.op.opcode == 2
def PendOp.isErase (p : PendOp) : Bool := p.op.opcode == 3

/-- Settle one operation of a port that can no longer answer (R222): reads are served another way, programs fail for
placement, erases count as not done and wait. -/
def State.settleOp (s : State) (p : PendOp) : State :=
  if p.isRead then s.readAgain p false
  else if p.isErase then s.queueOp (s.opBudget p) p
  else match p.purpose with
    | .program sb _ member => s.programFailed sb member none
    | .anchor i which => s.anchorFail i which none
    | _ => s

/-- Settle every operation of a port, outstanding or queued; queued erases stay. Every open superblock with a member
on the module closes as after a failed program, for no block is placed on an absent member (R222, R253). -/
def State.settlePort (s : State) (m : Nat) : State :=
  let out := s.media.out.filter fun p => p.port == m
  let queued := (s.media.queued.filter fun q => q.2.port == m && !q.2.isErase).map (·.2)
  let s1 := s.modMedia fun x => { x with out := x.out.filter (fun p => p.port != m), queued := x.queued.filter fun q => q.2.port != m || q.2.isErase }
  let s2 := (out ++ queued).foldl State.settleOp s1
  s2.ftl.open_.foldl (fun t o =>
    match o.members.findIdx? fun b => memberModule b == m with
    | some j => t.programFailed o.sb j none
    | none => t) s2

/-- Move a module to a state: its absence timer starts, its operations are settled. -/
def State.leave (s : State) (m st : Nat) : State :=
  let s1 := ((s.setFld (F.STR_MOD_STATE m) st).setFld (F.STR_MOD_AWAY_UNITS m) 0).setPort m { s.port m with awayAt := s.turn }
  ((s1.settlePort m).raise F.STR_ISR_MOD_AWAY).recountRebuild 0 |>.recountRebuild 1

/-- A module becomes AWAY. -/
def State.setAway (s : State) (m : Nat) : State :=
  let st := s.modState m
  if st == modServing || st == modHeld || st == modNone then s.leave m modAway else s

/-- A module becomes LOST: its loss stamp is written and the rebuild counts are computed (R252, R256). -/
def State.setLost (s : State) (m : Nat) : State :=
  if s.modState m == modAway then
    let s1 := ((s.setFld (F.STR_MOD_STATE m) modLost).setFld (F.STR_MOD_AWAY_UNITS m) 0).wrN (s.strBase + 2048 + 8 * m) 8 s.stamp
    ((s1.recountRebuild 0).recountRebuild 1).raise F.STR_ISR_MOD_LOST
  else s

/-- A module is SERVING. -/
def State.setServing (s : State) (m : Nat) : State :=
  let st := s.modState m
  if st == modServing then s
  else
    let s1 := (s.setFld (F.STR_MOD_STATE m) modServing).setFld (F.STR_MOD_AWAY_UNITS m) 0
    let s2 := if st == modNone then s1 else s1.raise F.STR_ISR_MOD_BACK
    (s2.recountRebuild 0).recountRebuild 1

/-- A port goes down: its operations are settled, its module is absent (R221, R222, R252). -/
def State.portDown (s : State) (m : Nat) : State :=
  if !s.portUp m then s
  else
    let s1 := ((((s.setFld (F.MED_PORT_STATUS_UP m) 0).setFld (F.MED_PORT_STATUS_RECOVERING m) 0).setFld (F.MED_PORT_STATUS_DEGRADED m) 0).setFld
      (F.MED_PORT_STATUS_WIDTH m) 0).raise F.MED_ISR_PORT_DOWN
    let s2 := s1.setPort m { s1.port m with link := {}, narrow := none, training := 0, badLane := none }
    if s2.modState m == modServing then s2.leave m modAway else s2.settlePort m

/-- A die fails: its bit is set, and its reads are served from their stripes as the statuses come (R255). -/
def State.dieFault (s : State) (m die : Nat) : State :=
  if s.dieFailed m die then s else ((s.failDie m die).recountRebuild 0).recountRebuild 1

/-! ### Training (R223, R224) -/

/-- Start training a port from its first step. -/
def State.trainPort (s : State) (m : Nat) : State :=
  (s.setPort m { s.port m with training := 1 }).send (.purlTrain m 1)

/-- Does a parameter page meet its table (R224)? -/
def pageFits (p : ParamPage) : Bool :=
  p.crcOk && p.format == 1 && decide (1 ≤ p.dies) && decide (p.dies ≤ 256) && decide (1 ≤ p.planes) && decide (p.planes ≤ 4) &&
  decide (2 ≤ p.blocks) && decide (p.blocks ≤ 4096) && p.blocks % 2 == 0 && p.pagesQlc % 4 == 0 && decide (p.pagesQlc ≤ 4096) &&
  p.pagesSlc == p.pagesQlc / 4 && p.pageBytes == 18432 && p.reserved == 0 && decide (0x0500 ≤ p.onfiRev) &&
  p.ptMask.length == 4 && p.ptMask.all (fun m => decide (m < 2 ^ 15) && decide (1 ≤ popCount 16 m) && decide (popCount 16 m ≤ 8)) &&
  (p.ptMask.foldl (· ||| ·) 0) == 0x7FFF && ((p.ptMask.map (popCount 16)).foldl (· + ·) 0) == 15

end Sys2Proof.Machine
end

