-- ==== Sys2Proof/Machine/ReplayOps.lean ====
section
/-! DEFINITION. Reading the journal back from its pages (08), as the operations that replay shares. -/
namespace Sys2Proof.Machine

/-- A journal page that reads good: JPAGE, FIRST, its group bytes and its address. -/
structure JPageIn where
  jpage : Nat
  first : Nat
  data  : Bytes
  addr  : Nat
  deriving DecidableEq, Repr

/-- The journal page that a codeword's information part holds, where it passes the checks of R173 with format 0x3 and its
CRC (R190). -/
def jpageOf? (addr : Nat) (b : Bytes) : Option JPageIn :=
  let n (off len : Nat) : Nat := leNat (slice b off len)
  let h (k : Nat) : Nat := n (4096 + 16 * k + 8) 8
  let page := b.take 4096
  if b.length == 4224 &&
      (List.range 8).all (fun k => bits (h k) 63 60 == 3 && bits (h k) 59 57 == k && h k % 2 ^ 57 == n 0 8 % 2 ^ 50) &&
      n 4096 8 == carryGuard page && n 0x18 4 == crc32c (splice page 0x18 (zeros 4)) && decide (n 0x10 2 ≤ 4064) then
    some { jpage := n 0 8, first := n 0x12 2, data := slice b 0x20 (n 0x10 2), addr := addr }
  else none

/-- What has been read of the journal so far: the groups in order, each with its records and the page its last byte stands in;
the pages, each with the highest JSEQ that has a part in it; and the bytes of a group that goes on beyond the last page. -/
structure JReader where
  prev   : Nat := 0
  part   : Bytes := []
  /-- The page the group under `part` begins in. -/
  start  : Nat := 0
  groups : List (Nat × List JRec × Nat) := []
  pages  : List (Nat × Nat × Nat) := []
  deriving DecidableEq, Repr

/-- Take the groups that stand whole at the start of some bytes: they, and the bytes after them, empty past a corrupt one. -/
def takeGroups : Nat → Bytes → List (Nat × List JRec) × Bytes
  | 0, _ => ([], [])
  | n + 1, b =>
    match parseGroup b with
    | .good jseq recs len => let r := takeGroups n (b.drop len); ((jseq, recs) :: r.1, r.2)
    | .short => ([], b)
    | .corrupt => ([], [])

/-- Read one page: a group begun on the page before goes on in it; else reading begins at its FIRST. -/
def JReader.page (r : JReader) (p : JPageIn) : JReader :=
  let on := !r.part.isEmpty && p.jpage == r.prev + 1
  let bytes := if on then r.part ++ p.data else if p.first = 0xFFFF then [] else p.data.drop (p.first - 0x20)
  let (gs, rest) := takeGroups 512 bytes
  let tag := if 8 ≤ rest.length then leNat (rest.take 8) else ((gs.getLast?).map (·.1)).getD (((r.pages.getLast?).map (·.2.1)).getD 0)
  { prev := p.jpage, part := rest, start := if on && gs.isEmpty then r.start else p.jpage,
    groups := r.groups ++ gs.map fun g => (g.1, g.2, p.jpage), pages := r.pages ++ [(p.jpage, tag, p.addr)] }

/-- Read journal pages in order. -/
def readJournal (l : List JPageIn) : JReader := l.foldl JReader.page {}

/-- Does a journal page read good past the stop after a group? The pages over which a last group goes on that is not whole are
the stop itself. -/
def JReader.beyond (r : JReader) (applied : Nat) : Bool :=
  let last := (r.groups.filter fun g => decide (g.1 ≤ applied)).foldl (fun m g => max m g.2.2) 0
  let stop := if !r.part.isEmpty && (r.start == last || r.start == last + 1 || (last == 0 && (r.pages.head?.map (·.1)) == some r.start)) then r.prev else last
  r.pages.any fun p => decide (stop < p.1)

end Sys2Proof.Machine
end

