-- ==== Sys2Proof/Machine/TakeOps.lean ====
section
/-! DEFINITION. Taking the partner over, rejoining it, starting alone or together, and replay (01, 08): the operations
that several commands share. -/
namespace Sys2Proof.Machine

/-! ### ANA groups (R13, R14) -/

/-- The ANA state of an instance's group changes: an event goes to every controller. -/
def State.setAna (s : State) (g st : Nat) : State :=
  if ofInst s.pairSt.ana g = st then s
  else (s.modPair fun p => { p with ana := putInst p.ana g st }).send (.anaChange (g + 1) st)

/-- The states of both groups: of the head's own home, and of the partner's. -/
def State.setAnas (s : State) (own partner : Nat) : State := (s.setAna s.headId own).setAna (1 - s.headId) partner

def State.partnerId (s : State) : Nat := 1 - s.headId

/-- The partner's state as last reported changes. -/
def State.setPartnerState (s : State) (st : Nat) : State :=
  if s.fld F.GLB_PAIR_STATUS_PARTNER_STATE = st then s else (s.setFld F.GLB_PAIR_STATUS_PARTNER_STATE st).raise F.GLB_ISR_PARTNER

/-! ### Efmo going down (R31, R82) -/

/-- EFMO_UP falls: what crosses the link is lost, and the partner's reports are forgotten. -/
def State.efmoDown (s : State) : State :=
  let s0 := (s.setFld F.EFM_LINK_STATUS_RECOVERING 0).modEfmo fun e => { e with training := 0 }
  if !s.efmoUp then s0
  else
    let s1 := (((s0.setFlag F.GLB_PAIR_STATUS_EFMO_UP false).setFlag F.EFM_LINK_STATUS_UP false).raise F.EFM_ISR_DOWN).raise F.GLB_ISR_PARTNER
    (((s1.setFld F.GLB_PAIR_STATUS_PARTNER_STATE 0).setFld F.UPD_LEVEL_PARTNER 0).setFld F.UPD_PEER_MIN_PARTNER 0).modEfmo fun e =>
      { e with link := {}, txSwitch := [], rxSwitch := [] }

/-! ### Solo commit (R34, R35, R71) -/

/-- An own-ring entry once there is no partner to mirror to. -/
def State.soloEntry (s : State) (e : Entry) : State :=
  match e.st with
  | .localDone =>
    let e1 := { e with mirrored := false, writeThrough := e.writeThrough || s.flag F.CMT_CTRL_SOLO_POLICY }
    (s.modEntry e.inst e.seq fun _ => e1).entryComplete e1
  | .aborted => s.freeAborted e.inst e.seq
  | .reserved | .filling =>
    if e.origin.forwarded then (s.modEntry e.inst e.seq fun e => { e with st := .aborted }).freeAborted e.inst e.seq
    else s.modEntry e.inst e.seq fun e => { e with mirrored := false }
  | .complete => s

/-- Mirroring stops: entries go on alone, and what was asked of the partner fails. -/
def State.stopMirroring (s : State) : State :=
  let s1 := s.commit.own.foldl State.soloEntry s
  (s1.commit.refetch.foldl (fun t p => t.endRefetch p.1 none) s1).sendDues

/-! ### Adopting mirror staging (R32 step 5, R33, R37 step 5, R40) -/

/-- The highest commit sequence number of an instance that the mirror ring holds. -/
def State.ringTop (s : State) (i : Nat) : Nat :=
  ((s.commit.mslots.vals.filter fun x => s.volHome x.volume == i).map (·.seq) ++
    (s.commit.mentries.filter fun m => s.volHome m.volume == i).map (·.seq)).foldl max 0

/-- Drain every COMPLETE mirror entry, to whichever pool has room, and discard the slots of those that are not. The
instances' sequences go on above every number held (R86). -/
def State.emptyMirror (s : State) : State :=
  let s0 := s.modCommit fun c => { c with lastSeq := (max c.lastSeq.1 (s.ringTop 0), max c.lastSeq.2 (s.ringTop 1)) }
  let s1 := s.commit.mentries.foldl (fun t m => t.drainMirrorTo (t.stgFree true m.slots.length ++ t.stgFree false m.slots.length) m.seq m.volume) s0
  let kept := s1.commit.mentries.flatMap (·.slots)
  s1.modCommit fun c => { c with mslots := c.mslots.filter fun p => kept.contains p.1 }

/-- One mirrored version becomes the head's own; one that a higher version supersedes is not drained. -/
def State.adoptOne (s : State) (submit : Bool) (k : Nat) (g : Stg) : State :=
  let above := s.commit.staging.any fun p => p.2.inst == g.inst && p.2.volume == g.volume && p.2.lba == g.lba && decide (g.seq < p.2.seq)
  let g1 : Stg := { g with mirror := false, superseded := above, dirty := submit && !above, prior := s.priorOf g.volume g.lba,
                           st := if above then .dropped else .waiting }
  let s1 := (if g1.dirty then s.setDirty (s.dirtyBytes + 4096) else s).modCommit fun c => { c with staging := c.staging.put k g1 }
  if above then s1.freeStg k
  else
    let s2 := s1.installStaged k g1
    if submit && g1.mask == 0xFF then s2.submitWrite k g1 else s2

/-- Adopt the mirror staging of an instance, in the order of its commit sequence numbers; the sequence goes on above
the highest number held (R86). -/
def State.adoptStaged (s : State) (i : Nat) (submit : Bool) : State :=
  let l := sortBy (fun a b => decide (a.2.seq ≤ b.2.seq)) (s.commit.staging.filter fun p => p.2.inst == i && p.2.mirror)
  let top := l.foldl (fun m p => max m p.2.seq) (ofInst s.commit.lastSeq i)
  l.foldl (fun t p => t.adoptOne submit p.1 p.2) (s.modCommit fun c => { c with lastSeq := putInst c.lastSeq i top })

/-- Submit the versions adopted without it. -/
def State.submitAdopted (s : State) (i : Nat) : State :=
  (s.commit.staging.filter fun p => p.2.inst == i && !p.2.mirror && p.2.st == .waiting && !p.2.dirty && !p.2.superseded).foldl (fun t p =>
    let g : Stg := { p.2 with dirty := true }
    let t1 := (t.setDirty (t.dirtyBytes + 4096)).modCommit fun c => { c with staging := c.staging.put p.1 g }
    if g.mask == 0xFF then t1.submitWrite p.1 g else t1) s

/-! ### Superblocks left open by a head that is gone (R198) -/

/-- What applied records say of a content's place: its address and slots; none once it is FREE. A class that no
record at hand gives is a free value. -/
def State.namePlaces (s : State) (recs : List JRec) : State × Tbl (Nat × Nat) :=
  recs.foldl (fun (a : State × Tbl (Nat × Nat)) r =>
    match r with
    | .content cid raw =>
      let c := recOf raw
      (a.1, if c.state = 0 ∨ c.cls = 0 then a.2.del cid else a.2.put cid (c.addr, slotsOf c.cls))
    | .relocate cid _ _ new =>
      match a.2.get? cid with
      | some p => (a.1, a.2.put cid (new % 2 ^ 42, p.2))
      | none => match a.1.rec? cid with
        | some c => (a.1, a.2.put cid (new % 2 ^ 42, slotsOf c.cls))
        | none => let (n, t) := a.1.free 3; (t, a.2.put cid (new % 2 ^ 42, n + 1))
    | _ => a) (s, [])

/-- Addresses of pages that applied POINTER records name last, by what names them. -/
def namedPages (recs : List JRec) : Tbl Nat :=
  recs.foldl (fun (t : Tbl Nat) r => match r with
    | .pointer slot ident ptr => if ptrKind ptr = 1 then t.put (ident * 2 ^ 16 + slot) (ptrAddr ptr) else t.del (ident * 2 ^ 16 + slot)
    | _ => t) []

/-- Slots of a superblock that applied records, or the journal's live pages, name. -/
def State.namedSlots (s : State) (i sb : Nat) (places : Tbl (Nat × Nat)) (pages : Tbl Nat) : Nat :=
  let at_ (a : Nat) : Bool := s.sbOfAddr a == some sb
  ((places.vals.filter fun p => at_ p.1).map (·.2)).foldl (· + ·) 0 + 8 * (pages.vals.filter at_).length +
    8 * ((s.jnl i).pages.filter fun p => p.2.2 != 0 && at_ p.2.2).length

/-- Close a superblock that was OPEN: every slot that nothing names is invalid. -/
def State.closeLeft (s : State) (i sb named : Nat) : State :=
  let total := s.unitsOf sb * unitStripes (s.sbMode sb) * s.sbK sb * 8
  let v := min named total
  let s1 := (s.addValid i ((v : Int) - s.sbValid sb)).addInvalid i (((total - v : Nat) : Int) - s.sbInvalid sb)
  let s2 := (s1.wrN (s.sbsAddr sb) 4 v).wrN (s.sbsAddr sb + 4) 4 (total - v)
  let wmax := (s.sbMembers sb).foldl (fun m b => max m (s.wear b)) 0
  let s3 := (s2.wrN (s.sbsAddr sb + 8) 8 s.stamp).wrN (s.sbsAddr sb + 0x14) 2 wmax
  (s3.setSbState sb sbClosed).journalSb sb sbClosed 0

/-- Close every superblock of an instance that the table shows OPEN and this head does not fill, and erase again
those whose erase was under way. -/
def State.closeLefts (s : State) (i : Nat) (recs : List JRec) : State :=
  let (s1, places) := s.namePlaces recs
  let pages := namedPages recs
  let l := s1.allSbs.filter fun sb => s1.sbInst sb == i && s1.sbState sb == sbOpen && (s1.openSb? sb).isNone
  let s2 := l.foldl (fun t sb => t.closeLeft i sb (s1.namedSlots i sb places pages)) s1
  (s2.ftl.erasing.filter fun e => s2.sbInst e.1 == i).foldl (fun t e => t.eraseMembers e.1) s2

/-! ### Replay (R197, R198, R396) -/

/-- Replay is over: what was open is closed, and the journal goes on above the last group applied. -/
def State.replayDone (s : State) (i : Nat) : State :=
  let j := s.jnl i
  let s1 := (s.modJnl i fun j => { j with replay := 4, rest := [], applied := [], nextJseq := j.lastApplied + 1 }).setPair
    (F.FTL_JNL_HARDENED_LO_JSEQ i) (F.FTL_JNL_HARDENED_HI_JSEQ i) j.lastApplied
  ((s1.closeLefts i j.applied).freePending i).retail i

/-- Apply groups in order as long as each is one above the last; gives those not reached. -/
def State.applyRun (s : State) : List JGroup → State × List JGroup
  | [] => (s, [])
  | g :: r => if g.jseq = (s.jnl g.inst).lastApplied + 1 then (s.applyGroup g).applyRun r else (s, g :: r)

/-- Replay has stopped: where a later journal page reads good past the stop, the partner is asked, or the instance is held. -/
def State.replayStop (s : State) (i : Nat) (rest : List JGroup) (later asked : Bool) : State :=
  let s1 := s.modJnl i fun j => { j with rest := rest }
  if !later && rest.isEmpty then s1.replayDone i
  else if s.efmoUp && !asked then (s1.modJnl i fun j => { j with replay := 2 }).send (.efmoGapRequest i ((s1.jnl i).lastApplied + 1))
  else (s1.modJnl i fun j => { j with replay := 3 }).raise F.FTL_RCL_ISR_JNL_GAP

/-- The page of an anchor block with the highest sequence whose CRC checks, with its block. -/
def bestAnchor (l : List (Nat × Nat × Option Bytes)) : Option (Nat × Nat × Nat × (Nat × Nat × Nat) × Bytes) :=
  l.foldl (fun best a => match a.2.2.bind anchorOf? with
    | none => best
    | some x => if best.all fun b => decide (b.2.1 < x.1) then some (a.1 % 2, x) else best) none

/-- Replay an instance from what its anchor blocks and journal pages hold. -/
def State.replay (s : State) (r : ReplayIn) : State :=
  let i := r.inst % 2
  let next (w : Nat) : Nat := (r.anchors.filter fun a => a.1 % 2 == w).foldl (fun m a => max m (a.2.1 + 1)) 0
  let (which, seq, tail, roots, holdup) := (bestAnchor r.anchors).getD (0, 0, 1, (0, 0, 0), zeros 32)
  let rd := readJournal (r.pages.filterMap fun p => p.2.bind (jpageOf? p.1))
  let n := rd.pages.foldl (fun m p => max m p.1) 0
  let s1 := s.modJnl i fun j => { j with
    anchorCur := which, anchorNext := (next 0, next 1), anchorSeq := seq, anchorTail := tail, replay := 1,
    lastApplied := tail - 1, nextPage := n + 1, goodTo := n, pages := rd.pages, rest := [], applied := [], fill := [], fillFirst := 0xFFFF }
  let s2 := if seq = 0 then s1
    else ((s1.setTreeRoot i 2 0 roots.1).setTreeRoot i 3 0 roots.2.1).setTreeRoot i 4 0 roots.2.2
  let s3 := s2.setPair (F.FTL_JNL_TAIL_LO_JSEQ i) (F.FTL_JNL_TAIL_HI_JSEQ i) tail
  let kind := leNat (slice holdup 0 1)
  let s4 := if i = s.headId then
      (s3.setFld F.CTL_HU_LAST_KIND (if kind < 3 then kind else 0)).setFld F.CTL_HU_LAST_MARGIN_J
        (if kind = 1 ∨ kind = 2 then leNat (slice holdup 2 2) else 0)
    else s3
  let groups := (rd.groups.map fun g => ({ inst := i, jseq := g.1, recs := g.2.1 } : JGroup)).dropWhile fun g => decide (g.jseq < tail)
  let (s5, rest) := s4.applyRun groups
  s5.replayStop i rest (rd.beyond (s5.jnl i).lastApplied) false

/-- Replay an instance from the operands that name it; one that nothing describes is empty. -/
def State.replayOf (s : State) (l : List ReplayIn) (i : Nat) : State :=
  s.replay ((l.find? fun r => r.inst == i).getD { inst := i, anchors := [], pages := [] })

/-! ### Entering PLAYING (R13, R40, R41) -/

def State.play (s : State) (own partner : Nat) : State :=
  ((s.setHead stPlaying).setFld F.GLB_CASTON_STATUS_STEP 0xE).setAnas own partner

/-- A cold pair start ends once both heads have sent READY. -/
def State.tryPair (s : State) : State :=
  if s.pairSt.starting = 1 ∧ s.pairSt.readySent ∧ s.pairSt.readyGot ∧ s.headState = stJoining then
    (s.modPair fun p => { p with starting := 0, readySent := false, readyGot := false }).play 1 2
  else s

/-- A solo start ends: what the head holds of both instances from mirroring is applied and adopted. -/
def State.soloUp (s : State) : State :=
  let s1 := (List.range 2).foldl (fun t i => (t.applyHeld i).modJnl i fun j => { j with mirrored := [] }) s.emptyMirror
  let s2 := (s1.modPair fun p => { p with starting := 0, rejoin := none }).setSolo true
  let s3 := (List.range 2).foldl (fun t i => t.adoptStaged i true) s2
  (s3.play 1 1).refreshCost

/-- Go on with a start once replays and claims are done; the home half of a cold pair start has been claimed before. -/
def State.startReady (s : State) : State :=
  let done (i : Nat) : Bool := (s.jnl i).replay == 4
  if s.headState ≠ stJoining then s
  else if !s.pairSt.coldClaimed then s
  else if s.pairSt.starting = 1 ∧ done s.headId ∧ !(s.pairSt.claims.any fun c => c.for_ == .cold) ∧ !s.pairSt.readySent then
    ((s.modPair fun p => { p with readySent := true }).send .efmoReady).tryPair
  else if s.pairSt.starting = 2 ∧ done 0 ∧ done 1 ∧ !(s.pairSt.claims.any fun c => c.for_ == .solo || c.for_ == .cold) then s.soloUp
  else s

/-- Go on with the journal of an instance another head wrote: the numbers of its pages are not known here, and go on
from a free one. -/
def State.takeJournal (s : State) (i : Nat) : State :=
  let (n, s1) := s.free 48
  let f := (s1.jnl i).lastApplied
  let s2 := s1.modJnl i fun j => { j with nextJseq := f + 1, nextPage := n + 1, goodTo := n, replay := 4, hold := false }
  (s2.setPair (F.FTL_JNL_HARDENED_LO_JSEQ i) (F.FTL_JNL_HARDENED_HI_JSEQ i) f).setPair
    (F.FTL_JNL_TAIL_LO_JSEQ i) (F.FTL_JNL_TAIL_HI_JSEQ i) (s2.jnl i).partnerTail

/-! ### Rejoin (R37) -/

/-- The joiner's last step: its claims are granted, and its journal goes on above the final JSEQ. -/
def State.joinerDone (s : State) : State :=
  match s.pairSt.rejoin with
  | some r =>
    let i := s.headId
    let f := r.finalJseq.getD (s.jnl i).lastApplied
    let s1 := (s.modPair fun p => { p with rejoin := none }).modJnl i fun j => { j with lastApplied := f, mirrored := [] }
    ((s1.takeJournal i).closeLefts i []).submitAdopted i
  | none => s

/-- Take back an instance that was to be passed on and that its joiner has not begun to serve: its versions are the
head's own again (R39). -/
def State.takeBack (s : State) : State :=
  (s.modPair fun p => { p with rejoin := none, groupHeld := false }).emptyMirror.adoptStaged s.partnerId true

/-- A rejoin ends without the joiner, which has forfeited before it served its instance: the survivor goes on alone (R39). -/
def State.stopRejoin (s : State) : State := s.takeBack.stopMirroring

/-- Efmo is lost in a rejoin: new writes are mirrored no more; entries held for the joiner wait for its forfeit (R31). -/
def State.pauseMirroring (s : State) : State :=
  match s.pairSt.rejoin with
  | some r => if r.survivor ∧ (s.pairSt.groupHeld ∨ r.step < 5) then s.takeBack else s
  | none => s

/-- Commands of the joiner's instance that the survivor has fetched and the pause waits for. -/
def State.pauseWaits (s : State) (i : Nat) : Bool :=
  (s.commit.own.any fun e => e.inst == i && (e.st == .reserved || e.st == .filling || e.st == .localDone)) ||
  (s.commit.waiting.any fun w => w.inst == i && (w.cmd.op == .deallocate || w.cmd.op == .writeZeroes))

/-- Make the survivor's staged versions of the joiner's instance mirror staging: every version of an entry that has a
block no Row has taken. -/
def State.reclassify (s : State) (i : Nat) : State :=
  let fresh := (s.commit.staging.vals.filter fun g => g.inst == i && !g.mirror && g.st == .waiting).map (·.seq)
  let mine (g : Stg) : Bool := g.inst == i && !g.mirror && fresh.contains g.seq
  let n := (s.commit.staging.vals.filter fun g => mine g && g.dirty).length
  let keys := (s.commit.staging.filter fun p => mine p.2).map (·.1)
  let s1 := (s.releaseDirty n).modCommit fun c => { c with staging := c.staging.map fun p =>
    (p.1, if mine p.2 then { p.2 with mirror := true, dirty := false } else p.2) }
  s1.modRows fun r => { r with waiting := r.waiting.filter fun t => !(t.cls == 0 && keys.contains t.staging) }

/-- The pause ends: the last numbers go to the joiner (R37 step 4). -/
def State.endPause (s : State) : State :=
  match s.pairSt.rejoin with
  | some r =>
    let i := s.partnerId
    if !r.survivor ∨ r.step ≠ 4 ∨ s.pauseWaits i then s
    else
      let drained := (s.commit.own.filter fun e => e.inst == i && e.st == .complete && !e.drained).foldl (fun t e => t.drainEntry i e.seq []) s
      if drained.commit.own.any fun e => e.inst == i && e.st == .complete && !e.drained then drained
      else
        ((drained.reclassify i).modPair fun p => { p with rejoin := some { r with step := 5 } }).send
          (.efmoLastSeq (ofInst drained.commit.lastSeq i) (drained.nextJseq i - 1))
  | none => s

/-- Stitches of an instance in the Rows or on their way, and versions not yet journaled. -/
def State.instBusy (s : State) (i : Nat) : Bool :=
  (s.rows.stitches.vals ++ s.rows.waiting).any (fun t => t.inst == i) || (s.rows.retired.any fun p => p.2.inst == i)

/-- Close the last metadata superblock of an instance that is passed on: its state is left for the joiner to journal. -/
def State.closeQuiet (s : State) (o : OpenSb) : State :=
  let s1 := s.modFtl fun t => { t with open_ := t.open_.filter fun x => x.sb != o.sb }
  (s1.slotsInvalid o.sb (o.dataSlots - o.usedSlots)).wrN (s.sbsAddr o.sb + 8) 8 s.stamp

/-- The survivor's groups of the joiner's instance are all hardened: the final JSEQ is reported, and no further
operation of that instance goes out (R37 step 6). -/
def State.tryFinal (s : State) : State :=
  match s.pairSt.rejoin with
  | some r =>
    let i := s.partnerId
    if !r.survivor ∨ r.step ≠ 6 ∨ s.pairSt.groupHeld ∨ (s.ftl.open_.any fun o => o.inst == i && o.stream != 3) then s
    else if !(s.jnl i).groups.isEmpty then (s.ftl.open_.filter fun o => o.inst == i).foldl (fun t o => t.padSb o.sb) s
    else
      let s0 := (s.ftl.open_.filter fun o => o.inst == i).foldl (fun t o => t.closeQuiet o) s
      let s1 := ((s0.modPair fun p => { p with rejoin := some { r with step := 7, finalJseq := some (s.hardened i) } }).send
        (.efmoFinalJseq (s.hardened i))).modJnl i fun j => { j with lastApplied := s.hardened i, mirrored := [] }
      s1.modMedia fun m => { m with queued := m.queued.filter fun q => match q.2.purpose with
        | .program sb _ _ | .eraseMember sb _ | .openErase sb _ => s.sbInst sb != i
        | .anchor j _ | .anchorErase j _ => j != i
        | _ => true }
  | none => s

/-- Close an open superblock after padding it: it ends at the units it has filled. -/
def State.shutSb (s : State) (sb : Nat) : State :=
  let s1 := s.padSb sb
  match s1.openSb? sb with
  | some o =>
    let total := o.stripe / unitStripes o.mode
    let s2 := (s1.slotsInvalid sb ((o.total - total) * unitStripes o.mode * o.k * 8)).setOpen { o with total := total }
    if o.units.isEmpty then s2.closeSb { o with total := total } else s2
  | none => s1

/-! ### Takeover (R32) -/

/-- The partner's mirror staging is adopted for the flush, and its groups applied (R492 step 1), where some bridge has
granted the half. -/
def State.adoptForFlush (s : State) : State :=
  let i := s.partnerId
  if !s.ctl.hold.partnerGone || s.ctl.hold.adopted || s.epoch i == 0 then s
  else
    let s1 := s.applyMirrored i
    let s2 := if (s.jnl i).groups.isEmpty then s1.takeJournal i else s1.modJnl i fun j => { j with replay := 4, hold := false }
    (s2.emptyMirror.adoptStaged i true).modHold fun h => { h with adopted := true }

/-- Claims are all granted, or their modules set AWAY. -/
def State.claimsOver (s : State) (c : ClaimSt) : State :=
  let s1 := s.modPair fun p => { p with claims := p.claims.filter fun x => x.half != c.half || x.for_ != c.for_ }
  match c.for_ with
  | .takeover => if s1.pairSt.takeover = 3 then s1.modPair fun p => { p with takeover := 4 } else s1
  | .rejoin => s1.joinerDone
  | .cold | .solo => s1.startReady
  | .holdup => s1.adoptForFlush
  | .reassert => s1

/-- Claims with no module left to wait for are over. -/
def State.settleClaims (s : State) : State :=
  (s.pairSt.claims.filter fun c => !(c.waiting.any s.portUp)).foldl (fun t c => if t.pairSt.claims.contains c then t.claimsOver c else t) s

/-- Claim a half afresh and see whether any bridge is there to ask. -/
def State.claimFor (s : State) (half : Nat) (why : ClaimFor) : State := (s.claimNew half why).settleClaims

/-- Go on with a start: the home half is claimed once its replay is done (R41 steps 1 and 2). -/
def State.startClaims (s : State) : State :=
  if s.headState = stJoining ∧ s.pairSt.starting ≠ 0 ∧ !s.pairSt.coldClaimed ∧ (s.jnl s.headId).replay = 4 then
    ((s.modPair fun p => { p with coldClaimed := true }).claimFor s.headId .cold).startReady
  else s.startReady

/-- Steps 1 to 3 of R32: receive fenced, the partner's group held, mirroring over, its half claimed. -/
def State.startTakeover (s : State) : State :=
  let s1 := (s.modPair fun p => { p with takeover := 3, groupHeld := true, rejoin := none }).modEfmo fun e => { e with fenced := true }
  ((s1.efmoDown.stopMirroring).setAnas 1 4).claimFor s.partnerId .takeover

/-- Commands forwarded to the partner that is gone: a write whose pieces the mirror held whole is done, the others
start again here. -/
def State.reissue (s : State) : State :=
  let os := (s.commit.fwd.map (·.origin)).eraseDups
  os.foldl (fun t o =>
    let l := t.commit.fwd.filter fun f => f.origin == o
    match l.head? with
    | none => t
    | some f =>
      let whole := f.cmd.op == .write && l.all fun f => f.replied && f.blocks.length == f.count
      let t1 := t.modCommit fun c => { c with fwd := c.fwd.filter (fun f => f.origin != o), xfers := c.xfers.filter fun x => x.origin != o }
      if whole then t1.completeHost o hsSuccess else (t1.orderCmd o f.cmd).startData o f.cmd) s

/-- Steps 5 to 8 of R32, once every COMPLETE mirror entry is in staging: the instance is adopted, its groups applied, its
volumes served. -/
def State.adoptPartner (s : State) : State :=
  let i := s.partnerId
  let s1 := s.applyMirrored i
  let recs := ((s.jnl i).mirrored.filter fun g => decide (g.jseq ≤ (s1.jnl i).lastApplied)).flatMap (·.recs)
  let s4 := if (s.jnl i).groups.isEmpty then s1.takeJournal i
    else s1.modJnl i fun j => { j with replay := 4, hold := false }
  let s5 := (s4.modPair fun p => { p with takeover := 0, groupHeld := false }).setSolo true
  let s6 := ((s5.closeLefts i recs).emptyMirror.adoptStaged i true).abandonCuts i |>.fractureAdopted i
  (((s6.setAnas 1 1).refreshCost).reissue).sendDues

/-- Take the partner over as soon as its COMPLETE mirror entries are all in staging; until then the takeover waits at
step 5. -/
def State.tryAdopt (s : State) : State :=
  let s1 := s.emptyMirror
  if s1.commit.mentries.isEmpty then s1.adoptPartner else s1.modPair fun p => { p with takeover := 5 }

end Sys2Proof.Machine
end

