-- ==== Sys2Proof/Machine/Efmo.lean ====
section
/-! DEFINITION. The Efmo link (03): training, retry, recovery, lane sparing, and the state and Referee channels. -/
namespace Sys2Proof.Machine

/-! ### Training (R84, R85) -/

/-- Start Efmo training, or take part in it: the training frames carry each physical lane's number and the lane map. -/
def State.efmoTrain (s : State) : State :=
  let map := if s.efmo.txLanes.isEmpty then List.range 16 else s.efmo.txLanes
  (List.range 18).foldl (fun t k => t.send (.efmoTrainFrame k map)) (s.modEfmo fun e => { e with training := 1, idRetryAt := none })

/-- ID_CLASH_RETRY: 1,000 turns after an ID clash. -/
def execIdClashRetry (s : State) : Result :=
  .next (s.live (match s.efmo.idRetryAt with
    | some t => if t ≤ s.turn ∧ !s.efmoUp then s.efmoTrain else s
    | none => s))

/-- Start link recovery (R81, R82, R83). -/
def State.efmoRecover (s : State) : State :=
  if s.flag F.EFM_LINK_STATUS_RECOVERING then s else (s.setFld F.EFM_LINK_STATUS_RECOVERING 1).raise F.EFM_ISR_RECOVERY

/-- EFM_RETRAIN: recovery of a link that is up, training of one that is not. -/
def execEfmRetrain (s : State) : Result :=
  .next (s.live (if s.efmoUp then s.efmoRecover else s.efmoTrain))

/-! ### Retry (R76, R81, R82) -/

/-- Replay from the flit after an acknowledged one; after eight replays of one SEQ link recovery starts. -/
def State.efmoReplayFrom (s : State) (ack : Nat) : State :=
  let l := s.efmo.link
  let fails := if ack = l.ackSeq then l.replayFails else 0
  if 8 ≤ fails then (s.modEfmo fun e => { e with link := { l with ackSeq := ack, replayFails := 0 } }).efmoRecover
  else ((s.modEfmo fun e => { e with link := { l with ackSeq := ack, replayFails := fails + 1 } }).inc F.EFM_ERR_COUNTS_REPLAYS).send
    (.efmoReplay ((ack + 1) % 4096) l.txSeq)

/-- A flit as its lanes deliver it: a discard for a reserved field is counted, replay is asked for, and a NAK is answered;
a DATA flit makes the lane switches of its SEQ. -/
def State.takeFlit (s : State) (raw : Bytes) : State :=
  let r := LinkKind.efmo.receive 16 s.efmo.link raw
  let s1 := s.modEfmo fun e => { e with link := r.1 }
  match r.2 with
  | .nothing => s1
  | .data seq _ => s1.switchRx fun w => w.1 == seq
  | .nak counted => (if counted then s1.inc F.EFM_ERR_COUNTS_DISCARDS else s1).send (.efmoNak r.1.rxSeq)
  | .replay ack => s1.efmoReplayFrom ack

/-- EFMO_FLIT_DISCARD: the flits received up to the one discarded, as they came in. -/
def execEfmoFlitDiscard (flits : List Bytes) (s : State) : Result :=
  .next (s.live (if s.efmoUp then flits.foldl State.takeFlit s else s))

/-- EFMO_NAK. -/
def execEfmoNak (flit : Bytes) (s : State) : Result := .next (s.live (if s.efmoUp then s.takeFlit flit else s))

/-- EFMO_REPLAY_TIMEOUT: with flits outstanding. -/
def execEfmoReplayTimeout (s : State) : Result :=
  .next (s.live (if s.efmoUp ∧ s.efmo.link.ackSeq ≠ s.efmo.link.txSeq then s.efmoReplayFrom s.efmo.link.ackSeq else s))

/-- EFMO_UP falls: between two heads in service everything that needs the partner is held for want of the link; a
rejoin stops; two heads that start together train again (R31, R39). -/
def State.efmoLost (s : State) : State :=
  let s1 := s.efmoDown
  if s.inService && s.solo then s1.pauseMirroring
  else if s.headState = stJoining ∧ s.pairSt.starting = 1 then s1.efmoTrain else s1

/-- Physical lanes of both directions that have not failed are enough for a link. -/
def State.lanesEnough (s : State) : Bool := decide (s.efmo.rxBad.length ≤ 2) && decide (s.efmo.txBad.length ≤ 2)

/-- EFMO_RECOVERY_DONE: the scramblers run in step again and flits lost to it are sent again from the replay buffer; or,
as always with fewer than 16 good lanes, it has failed and the link is down. -/
def execEfmoRecoveryDone (ok : Bool) (s : State) : Result :=
  .next (s.live (if !s.flag F.EFM_LINK_STATUS_RECOVERING then s
    else if ok && s.lanesEnough then
      let l := s.efmo.link
      let (seeds, s0) := s.seeds 18
      (((s0.setFld F.EFM_LINK_STATUS_RECOVERING 0).modEfmo fun e =>
        { e with link := { l with replayFails := 0, discarding := false, scramblers := seeds } }).inc F.EFM_ERR_COUNTS_REPLAYS).send
        (.efmoReplay ((l.ackSeq + 1) % 4096) l.txSeq)
    else s.efmoLost))

/-! ### Lane sparing (R83, R442) -/

/-- The lowest physical lane that carries none of a direction's lanes and has not failed. -/
def freeLane (lanes bad : List Nat) : Option Nat := (List.range 18).find? fun k => !lanes.contains k && !bad.contains k

/-- EFMO_LANE_FAILING: a logical receive lane, which has lost lock or whose corrected bytes have passed SPARE_THRESH, moves
to a spare at the switch SEQ that the partner is told; with none left link recovery starts. -/
def execEfmoLaneFailing (lane seq : Nat) (lostLock : Bool) (s : State) : Result :=
  .next (s.live (match s.efmoUp, s.efmo.rxLanes[lane]? with
    | true, some old =>
      if !lostLock ∧ ((s.efmo.link.corrected.get? lane).getD 0) ≤ s.fld F.EFM_CTRL_SPARE_THRESH then s
      else
        match freeLane (s.efmo.rxLanes ++ s.efmo.rxSwitch.map (·.2.2)) s.efmo.rxBad with
        | some k =>
          let s1 := s.modEfmo fun e => { e with
            rxSwitch := e.rxSwitch ++ [(seq % 4096, lane, k)], rxBad := e.rxBad ++ [old],
            link := { e.link with corrected := e.link.corrected.del lane } }
          (((s1.setFld F.EFM_LINK_STATUS_RX_SPARES (s1.fld F.EFM_LINK_STATUS_RX_SPARES - 1)).raise F.EFM_ISR_SPARED).addRepair 5 3 0 old k).send
            (.efmoLaneSpare lane k (seq % 4096))
        | none => (s.modEfmo fun e => { e with rxBad := if e.rxBad.contains old then e.rxBad else e.rxBad ++ [old] }).efmoRecover
    | _, _ => s))

/-- LANE_SPARE: the partner's receiver names the physical lane its logical lane moves to, and the SEQ of the switch. -/
def execLaneSpare (logical spare seq : Nat) (s : State) : Result :=
  .next (s.live (match s.efmoUp, s.efmo.txLanes[logical]? with
    | true, some old =>
      if spare < 18 ∧ !(s.efmo.txLanes ++ s.efmo.txSwitch.map (·.2.2)).contains spare then
        let s1 := s.modEfmo fun e => { e with txSwitch := e.txSwitch ++ [(seq % 4096, logical, spare)], txBad := e.txBad ++ [old] }
        ((s1.setFld F.EFM_LINK_STATUS_TX_SPARES (s1.fld F.EFM_LINK_STATUS_TX_SPARES - 1)).raise F.EFM_ISR_SPARED).addRepair 5 3 1 old spare
      else s
    | _, _ => s))

/-! ### Parameter exchange (R73, R84, R37, R41) -/

/-- The link is up: rings, pointers and credits start afresh. -/
def State.efmoUpNow (s : State) (m : ParamMsg) : State :=
  let (seeds, s0) := s.seeds 18
  let s1 := ((((s0.setFlag F.GLB_PAIR_STATUS_EFMO_UP true).setFlag F.EFM_LINK_STATUS_UP true).setFld F.EFM_LINK_STATUS_ID_CLASH 0).raise F.EFM_ISR_UP).raise
    F.GLB_ISR_PARTNER
  let s2 := (((s1.setFld F.EFM_LINK_STATUS_RX_SPARES 2).setFld F.EFM_LINK_STATUS_TX_SPARES 2).setFld F.EFM_LANE_MAP_RX_ACTIVE 0xFFFF).setFld
    F.CMT_RING_STATUS_MIRROR_CREDITS 8192
  let s3 := s2.modEfmo fun e => { e with
    link := freshLink m.credits seeds, packed := s.sent.length, floors := m.floors, training := 0, fenced := false, idRetryAt := none,
    txLanes := List.range 16, rxLanes := List.range 16, txBad := [], rxBad := [], txSwitch := [], rxSwitch := [] }
  let s4 := s3.modCommit fun c => { c with mslots := [], mentries := [], mtail := 0, mirrorHead := 0, creditOwed := 0, refetch := [] }
  (s4.setPartnerState m.headState).modPair fun p => { p with partnerEpochs := (m.epoch0, m.epoch1), absentSince := none }

/-- Free values of a width. -/
def State.frees (s : State) (width : Nat) : Nat → List Nat × State
  | 0 => ([], s)
  | n + 1 =>
    let (v, s1) := s.free width
    let (l, s2) := s1.frees width n
    (v :: l, s2)

/-- The head's side of the exchange: identity, state, epochs, the credits of its receive buffers by channel, which the
spec leaves open, and its version floors. -/
def State.sendExchange (s : State) : State :=
  let (credits, s1) := s.frees 16 9
  s1.send (.efmoParam { headId := s.headId, headState := s.headState, epoch0 := s.epoch 0, epoch1 := s.epoch 1, credits := credits,
                        floors := (List.range 8).map fun c => s.fld (F.UPD_FLOOR_FLOOR c) })

/-- Nothing mirrored from the partner is kept across a new exchange by the head that serves both instances. -/
def State.dropMirrored (s : State) : State :=
  (List.range 2).foldl (fun t i => t.modJnl i fun j => { j with mirrored := [] }) s

/-- What a completed exchange begins: a rejoin, as its survivor or its joiner, or a cold pair start. A start that is under
way goes on. -/
def State.beginTogether (s : State) (m : ParamMsg) (l : List ReplayIn) : State :=
  if s.inService then
    let r : RejoinSt :=
      { survivor := true, step := 2, joinA := s.commit.lastSeq.1 + 1, joinB := s.commit.lastSeq.2 + 1, lastSeq := 0, lastJseq := 0, finalJseq := none,
        jseqs := (s.nextJseq 0, s.nextJseq 1) }
    s.stopMirroring.dropMirrored.modPair fun p => { p with rejoin := some r }
  else if m.headState = stJoining then
    let s1 := s.modPair fun p => { p with starting := 1, readySent := false, readyGot := false }
    if s.pairSt.starting = 1 then s1.startClaims else (s1.replayOf l s.headId).startClaims
  else
    let r : RejoinSt := { survivor := false, step := 2, joinA := 0, joinB := 0, lastSeq := 0, lastJseq := 0, finalJseq := none }
    s.modPair fun p => { p with rejoin := some r }

/-- PARAMETER_EXCHANGE: with a head's own identity it clashes; with no head JOINING training stops; else the link is
up, and a rejoin or a cold pair start begins. A head that is taking its partner over trains on until it runs solo (log
entry 166). `l` is what replay of the home instance finds. -/
def execParameterExchange (m : ParamMsg) (l : List ReplayIn) (s : State) : Result :=
  .next (s.live (
    if s.efmoUp || s.silent || !(s.inService || s.headState == stJoining) then s
    else if m.headId = s.headId then
      (s.setFld F.EFM_LINK_STATUS_ID_CLASH 1).modEfmo fun e => { e with training := 0, idRetryAt := some (s.turn + 1000) }
    else if s.headState ≠ stJoining ∧ m.headState ≠ stJoining then s.modEfmo fun e => { e with training := 0 }
    else if s.inService ∧ !s.solo then s
    else (s.efmoUpNow m).sendExchange.beginTogether m l))

/-! ### The state channel (R22, R77, R37 step 7, R426) -/

/-- The epoch a state report gives for a half: that of a half the head holds, its claim granted by every bridge that is
asked (log entry 167). -/
def State.heldEpoch (s : State) (half : Nat) : Nat := if s.pairSt.claims.any fun c => c.half == half then 0 else s.epoch half

/-- STATE_HEARTBEAT. -/
def execStateHeartbeat (s : State) : Result :=
  .next (s.live (if !s.efmoUp then s
    else
      let s1 := s.modEfmo fun e => { e with heartbeat := e.heartbeat + 1 }
      s1.send (.efmoState { headState := s.headState, epoch0 := s.heldEpoch 0, epoch1 := s.heldEpoch 1, heartbeat := s1.efmo.heartbeat,
                            bankFailed := s.bankFailed, level := s.fld F.UPD_LEVEL_OWN, peerMin := s.fld F.UPD_PEER_MIN_OWN })))

/-- The instance has been passed on: nothing of it is held here any longer. -/
def State.handBack (s : State) : State :=
  let i := s.partnerId
  let s1 := ((s.modPair fun p => { p with rejoin := none, claimed := putInst p.claimed i 0 }).setSolo false).setEpoch i 0
  let s2 := s1.modMap fun m => { m with
    pages := m.pages.filter (fun p => p.inst != i), fetches := m.fetches.filter (fun f => f.inst != i),
    misses := m.misses.filter (fun f => f.inst != i), hot := m.hot.filter (fun h => h.1 != i), freeing := m.freeing.filter fun f => cidInst f.1 != i }
  let s3 := (List.range 4).foldl (fun t k => t.setQueue i k []) s2.recountMpc
  (s3.modFtl fun t => { t with toPlace := t.toPlace.filter (fun x => x.inst != i), opening := t.opening.filter (fun c => c.inst != i),
                               erasing := t.erasing.filter fun e => s.sbInst e.1 != i }).refreshCost

/-- What the partner's state means for a survivor in a rejoin: from step 5 the partner serves its own group; once it
holds its half, the pair is whole. -/
def State.rejoinHeard (s : State) (m : StateMsg) : State :=
  match s.pairSt.rejoin with
  | some r =>
    if !r.survivor ∨ r.step < 5 ∨ m.headState ≠ stPlaying then s
    else
      let i := s.partnerId
      let s1 := (s.modPair fun p => { p with groupHeld := false }).setAna i 2
      let e := if i = 0 then m.epoch0 else m.epoch1
      if r.step = 7 ∧ e ≠ 0 ∧ epochGreater e (s.epoch i) then s1.handBack else s1
  | none => s

/-- STATE_MESSAGE. -/
def execStateMessage (m : StateMsg) (s : State) : Result :=
  .next (s.live (if !s.hearsPartner then s
    else
      let s1 := (s.setPartnerState m.headState).modPair fun p => { p with partnerEpochs := (m.epoch0, m.epoch1), partnerBankFailed := m.bankFailed }
      let s2 := if s.fld F.UPD_LEVEL_PARTNER = m.level then s1 else (s1.setFld F.UPD_LEVEL_PARTNER m.level).raise F.UPD_ISR_PEER_LEVEL
      ((s2.setFld F.UPD_PEER_MIN_PARTNER m.peerMin).refreshCost).rejoinHeard m))

/-- FLUSHED: the partner has flushed its own data, and no mirror flush is owed for it (R394). -/
def execFlushed (s : State) : Result := .next (s.live (if s.hearsPartner then s.modHold fun h => { h with partnerFlushed := true } else s))

/-! ### The Referee channel (R357) -/

/-- The GCM slot that holds the Referee-channel key, by its offset among the GCM slots. -/
def refereeSlot : Nat := 0x3FF

/-- REFEREE_MESSAGE: `fixed` is the fixed field of the sender's direction. The AAD is the channel's length prefix. -/
def execRefereeMessage (fixed invocation : Nat) (ct tag : Bytes) (s : State) : Result :=
  .next (s.live (if !s.hearsPartner then s
    else match s.keyOf (0x2000 + refereeSlot) with
      | none => s.authFail
      | some k =>
        if invocation ≤ s.sec.gotInv then s.authFail
        else
          let s1 := s.useGcm refereeSlot
          match gcmDec k (gcmIv fixed invocation) (leBytes 4 (8 + ct.length + 16)) ct tag with
          | none => s1.authFail
          | some pt => (s1.modSec fun x => { x with gotInv := invocation }).send (.refereeText pt)))

end Sys2Proof.Machine
end

