-- ==== Sys2Proof/Machine/ImageOps.lean ====
section
/-! DEFINITION. Images and their checks, Patterns and their limits, repairs, and what applying a Pattern's sections
does (02, 04, 20); as the operations that commands share. -/
namespace Sys2Proof.Machine

/-! ### Verification (R44-R50, R61) -/

/-- The header of R45 and the class of R46; a Pattern must be a delta or must not be. FLAGS.DELTA on an image of another
class, of which the spec does not speak, is a header failure too (DESIGN CHOICE, log entry 173). -/
def State.headerOk (s : State) (cls : Nat) (delta : Bool) (g : Image) : Bool :=
  g.magic == 0x54504E4B && g.format == 1 && g.headerSize == 0x100 && g.part == 0x0A28 &&
  g.stepping / 16 % 16 == s.fld F.GLB_IDENTITY_STEP_MAJOR && g.cls == cls && decide (0 < g.version) &&
  decide (1 ≤ g.sectionCount) && decide (g.sectionCount ≤ 64) && g.bytes.length == g.length &&
  g.flags == (if delta then 1 else 0) && (delta || g.baseVersion == 0) && slice g.bytes 0x2C 212 == zeros 212

/-- Do two sections overlap? -/
def sectionsMeet (a b : ImageSection) : Bool := decide (a.off < b.off + b.len) && decide (b.off < a.off + a.len)

/-- Sections pairwise apart. -/
def sectionsApart : List ImageSection → Bool
  | [] => true
  | a :: r => (r.all fun b => !sectionsMeet a b) && sectionsApart r

/-- The section table of R47. -/
def tableOk (g : Image) : Bool :=
  let low := 0x100 + 16 * g.sectionCount
  decide (low + 208 ≤ g.length) && (g.sections.all fun c =>
    c.off % 64 == 0 && c.reserved == 0 && decide (low ≤ c.off) && decide (c.off + c.len + 208 ≤ g.length)) && sectionsApart g.sections

/-- The signature of R48: the key index is fused, its key not revoked, the signature verifies. -/
def State.signatureOk (s : State) (g : Image) : Bool :=
  match s.boot.fuses with
  | some f => decide (g.keyIndex < 4) && f.keyHashes[g.keyIndex]? == some g.keyHash && !(f.revoked.getD g.keyIndex false) && g.sigOk
  | none => false

/-- The die binding of R50. -/
def State.dieOk (s : State) (g : Image) : Bool := g.dieId == 0 || (s.boot.fuses.any fun f => f.dieId == g.dieId)

/-- The floors of R49, as they stand in UPD_FLOOR and UPD_EPOCH. -/
def State.floorsOk (s : State) (g : Image) : Bool :=
  decide (s.fld F.UPD_EPOCH_EPOCH ≤ g.secEpoch) && decide (s.fld (F.UPD_FLOOR_FLOOR g.cls) ≤ g.version)

/-- The first failure of an image in the order of R61: 1, 2 for the floors, 0 for none. -/
def State.checkImage (s : State) (cls : Nat) (delta : Bool) (g : Image) : Nat :=
  if !s.headerOk cls delta g || !tableOk g || !s.signatureOk g || !s.dieOk g then 1
  else if !s.floorsOk g then 2 else 0

/-! ### Pattern limits (R43, R44, R105, R107) -/

def ascending : List Nat → Bool
  | a :: b :: r => decide (a < b) && ascending (b :: r)
  | _ => true

def noRepeat (l : List Nat) : Bool := l.eraseDups.length == l.length

/-- Engines that Rows name: pool and index. -/
def rowEngines (l : List (List Nat × List (Nat × List Nat))) : List (Nat × Nat) :=
  l.flatMap fun r => r.2.flatMap fun g => match stagePool g.1 with
    | some p => g.2.map fun e => (p, e)
    | none => []

/-- One Row under R105 and R107. -/
def rowFits (r : List Nat × List (Nat × List Nat)) : Bool :=
  let types := r.2.map (·.1)
  decide (1 ≤ types.length) && decide (types.length ≤ 12) && ascending types && (types.all fun t => decide (1 ≤ t) && decide (t ≤ 0xC)) &&
  (r.1.all classValid) && noRepeat r.1 && (r.1.all fun c => (classNeeds c).all types.contains) && (!types.contains stLDH || types.contains stLDS) &&
  (r.2.all fun g => match stagePool g.1 with
    | some p => !g.2.isEmpty && g.2.all fun e => decide (e < poolActive p)
    | none => g.2.isEmpty)

/-- Every class is served by some Row. -/
def classesServed (l : List (List Nat)) : Bool := [0, 1, 2, 3, 4, 5, 6, 8].all fun c => l.any fun r => r.contains c

def rowsFit (l : List (List Nat × List (Nat × List Nat))) : Bool :=
  decide (1 ≤ l.length) && decide (l.length ≤ 16) && l.all rowFits && classesServed (l.map (·.1)) &&
  noRepeat ((rowEngines l).map fun p => p.1 * 256 + p.2)

/-- A slot group: single, an aligned pair or an aligned quad. -/
def groupFits (g : List Nat) : Bool :=
  let n := g.length
  (n == 1 || n == 2 || n == 4) && g == (List.range n).map (fun k => g.headD 0 + k) && g.headD 0 % n == 0 && decide (g.headD 0 + n ≤ 8)

/-- A section within the limits of R43, its type matching its body. -/
def State.sectionFits (s : State) (dieId : Nat) (c : ImageSection) : Bool :=
  match c.body with
  | .ethernet l => c.type == 1 && l.length == 4 && l.all fun n => n == 1 || n == 2 || n == 4
  | .purl _ => c.type == 2
  | .pcie l => c.type == 3 && (l.length == 1 || l.length == 2 || l.length == 4) &&
    (l.all fun p => p.1 == 16 / l.length && (p.2.1 || p.2.2 == 0)) && decide ((l.map fun p => p.2.2).foldl (· + ·) 0 ≤ 64)
  | .rows l => c.type == 4 && rowsFit l
  | .scratch w => c.type == 5 && decide (w < 0x10000) && decide (popCount 16 w ≤ 8)
  | .motif l => c.type == 6 && l.all groupFits && noRepeat l.flatten
  | .repairs l => c.type == 7 && dieId != 0 && noRepeat (l.map fun r => r.kind * 2 ^ 32 + r.unit * 2 ^ 16 + r.spare)
  | .bins a b d e => c.type == 8 && (match s.boot.fuses with
    | some f => decide (a ≤ f.bins.getD 0 2800) && decide (b ≤ f.bins.getD 1 1600) && decide (d ≤ f.bins.getD 2 2000) && decide (e ≤ f.bins.getD 3 600)
    | none => false)
  | _ => false

/-- A full Pattern under R43 and R44. -/
def State.patternFits (s : State) (g : Image) : Bool :=
  let types := g.sections.map (·.type)
  (g.sections.all (s.sectionFits g.dieId)) && noRepeat types && ([1, 2, 3, 4, 5, 6, 8].all types.contains)

/-! ### Repairs (R116, R439, R442) -/

/-- Put a spare in the place of an engine in whichever stage works with it. -/
def State.swapEngine (s : State) (pool e : Nat) (spare : Option Nat) : State :=
  let f (g : RowStage) : RowStage := if stagePool g.type == some pool && g.active.contains e
    then { g with active := g.active.filter (fun x => x != e) ++ spare.toList } else g
  let s1 := { s with pattern := { s.pattern with rows := s.pattern.rows.map fun r => { r with stages := r.stages.map f } } }
  (List.range s1.pattern.rows.length).foldl State.refreshRow s1

/-- Retire an engine outside service, and bring a spare into its place. -/
def State.replaceEngine (s : State) (pool e : Nat) (spare : Option Nat) (counted : Bool) : State :=
  let was := (s.engine pool e).state
  let s1 := s.setEngine pool e { s.engine pool e with state := 3 }
  let s2 := if counted then (s1.inc (F.ROW_POOL_RETIRED pool)).raise F.ROW_ISR_ENGINE_RETIRED else s1
  let s3 := if was = 1 then s2.setFld (F.ROW_POOL_SPARES_LEFT pool) (s.fld (F.ROW_POOL_SPARES_LEFT pool) - 1) else s2
  match spare with
  | some x =>
    let s4 := (s3.setEngine pool x { s3.engine pool x with state := 0 }).setSub pool e x
    ((s4.setFld (F.ROW_POOL_SPARES_LEFT pool) (s3.fld (F.ROW_POOL_SPARES_LEFT pool) - 1)).raise F.ROW_ISR_SPARE_IN).swapEngine pool e (some x)
  | none =>
    if was = 0 then (s3.setFld (F.ROW_POOL_ACTIVE pool) (s3.fld (F.ROW_POOL_ACTIVE pool) - 1)).swapEngine pool e none else s3

/-- Apply one repair of a source and record it. A spare that has failed is not put to work. -/
def State.applyRepair (s : State) (source : Nat) (r : Repair) : State :=
  let s1 :=
    if r.kind = 1 then
      (s.setFld F.RPR_SPARES_CORE_SPARE (s.fld F.RPR_SPARES_CORE_SPARE - s.fld F.RPR_SPARES_CORE_SPARE / 2 ^ r.unit % 2 * 2 ^ r.unit)).modHealth fun h =>
        { h with coreFor := h.coreFor.put r.unit r.failed }
    else if r.kind = 2 then (if (s.engine r.unit r.spare).state = 1 then s.replaceEngine r.unit r.failed (some r.spare) (source != 0) else s)
    else if r.kind = 3 then s.modHealth fun h => { h with
      remap := h.remap.put (r.unit * 65536 + r.failed) r.spare
      rowsUsed := h.rowsUsed.put r.unit (((h.rowsUsed.get? r.unit).getD []) ++ [r.spare]) }
    else s
  s1.addRepair r.kind source r.unit r.failed r.spare

/-- Apply a repair that a delta adds, in service (R63, R116, R440, R441): the named spare of an engine that works comes in
by the spare test, a core's spare takes its place held in reset. -/
def State.repairInService (s : State) (r : Repair) : State :=
  if r.kind = 2 then
    if (s.engine r.unit r.spare).state ≠ 1 then s.addRepair 2 1 r.unit r.failed r.spare
    else match s.stageFor r.unit r.failed with
      | some (n, type) => s.retireEngine r.unit r.failed n type 1 (some r.spare)
      | none => s.applyRepair 1 r
  else
    let s1 := s.applyRepair 1 r
    if r.kind = 1 then s1.modHealth fun h => { h with coreHeld := (h.coreHeld.filter (· != 8 * r.unit + r.failed)) ++ [8 * r.unit + r.failed] } else s1

/-! ### Applying sections (R43, R63) -/

/-- The stages of a Row as its section names them, with the engines that serve in the places of those named. -/
def State.buildRow (s : State) (r : List Nat × List (Nat × List Nat)) : RowSt :=
  let row : RowSt := {
    classes := r.1
    stages := r.2.map fun g =>
      let act := match stagePool g.1 with
        | some p => g.2.filterMap fun e => s.standIn p 16 e
        | none => []
      { type := g.1, named := g.2, active := act, queue := [], busy := [] }
    stalled := false }
  { row with stalled := row.lacksEngine }

/-- A Row's composition registers. -/
def State.rowRegs (s : State) (n : Nat) : State :=
  match s.rowOf n with
  | none =>
    (List.range 12).foldl (fun t k => ((t.setFld (F.ROW_N_STAGE_TYPE n k) 0).setFld (F.ROW_N_STAGE_NAMED n k) 0).setFld (F.ROW_N_STAGE_ACTIVE n k) 0)
      ((s.setFld (F.ROW_N_CFG_CLASSES n) 0).setFld (F.ROW_N_CFG_STAGES n) 0)
  | some r =>
    let s1 := (s.setFld (F.ROW_N_CFG_CLASSES n) ((r.classes.map fun c => 2 ^ c).foldl (· + ·) 0)).setFld (F.ROW_N_CFG_STAGES n) r.stages.length
    ((List.range 12).foldl (fun t k =>
      let g := r.stages[k]?
      ((t.setFld (F.ROW_N_STAGE_TYPE n k) ((g.map (·.type)).getD 0)).setFld (F.ROW_N_STAGE_NAMED n k) ((g.map (·.named.length)).getD 0)).setFld
        (F.ROW_N_STAGE_ACTIVE n k) ((g.map (·.active.length)).getD 0)) s1).refreshRow n

/-- The stages a Row section gives a Row, to compare with what it has. -/
def RowSt.asSection (r : RowSt) : List Nat × List (Nat × List Nat) := (r.classes, r.stages.map fun g => (g.type, g.named))

/-- Rows that a section changes. -/
def State.rowsChanged (s : State) (l : List (List Nat × List (Nat × List Nat))) : List Nat :=
  (List.range (max l.length s.pattern.rows.length)).filter fun n => (s.rowOf n).map RowSt.asSection != l[n]?

/-- Wire the Rows as a section names them; a Row that does not change keeps its queues. -/
def State.applyRows (s : State) (l : List (List Nat × List (Nat × List Nat))) : State :=
  let ch := s.rowsChanged l
  let rows := l.zipIdx.map fun p => match s.rowOf p.2 with
    | some r => if ch.contains p.2 then s.buildRow p.1 else r
    | none => s.buildRow p.1
  (List.range 16).foldl State.rowRegs { s with pattern := { s.pattern with rows := rows } }

/-- A way that becomes scratchpad is cleaned and invalidated, one that leaves it cleared to zero. -/
def State.applyWays (s : State) (w : Nat) : State :=
  let changed (k : Nat) : Bool := bit w k != bit s.spadWays k
  let s1 := s.modScc fun c => { c with
    lines := c.lines.filter (fun p => !(changed (p.1 % 16)))
    spad := c.spad.filter (fun p => !(changed (p.1 / 2 ^ 22)))
    spadPoison := c.spadPoison.filter (fun p => !(changed (p / 2 ^ 19))) }
  { s1.setFld F.SCC_STATUS_SPAD_WAYS w with pattern := { s1.pattern with scratch := w } }

/-- The group that a slot belongs to; a slot that no group names stands alone. -/
def slotGroup (l : List (List Nat)) (k : Nat) : List Nat := (l.find? fun g => g.contains k).getD [k]

/-- Merge slots as a section has them; the groups are read at their leaders. -/
def State.applyMotif (s : State) (l : List (List Nat)) : State :=
  (List.range 8).foldl (fun t k =>
    let g := slotGroup l k
    let lead := g.headD k == k
    (t.setFlag (F.MTF_SLOT_STATUS_LEADER k) lead).setFld (F.MTF_SLOT_STATUS_GROUP k) (if lead then ilog2 g.length else 0))
    { s with pattern := { s.pattern with motif := l } }

/-- A group of front-end lanes takes a new width: its links go down and train again. -/
def State.applyEthernet (s : State) (l : List Nat) : State :=
  let changed := (List.range 4).filter fun g => s.pattern.ethernet[g]? != l[g]?
  let ports := changed.flatMap fun g => (List.range 4).map fun k => 4 * g + k
  let s1 := ports.foldl State.linkDown { s with pattern := { s.pattern with ethernet := l } }
  if s.pins.portsOn then (ports.filter (portUsed l)).foldl (fun t p => t.send (.ethTrain p)) s1 else s1

/-- Apply one section. -/
def State.applySection (s : State) (c : ImageSection) : State :=
  match c.body with
  | .ethernet l => s.applyEthernet l
  | .purl x => { s with pattern := { s.pattern with purlX2 := x } }
  | .pcie l => (l.zipIdx).foldl (fun t p => t.setFlag (F.PCI_PORT_STATUS_ENDPOINT p.2) p.1.2.1) { s with pattern := { s.pattern with pcie := l } }
  | .rows l => s.applyRows l
  | .scratch w => s.applyWays w
  | .motif l => s.applyMotif l
  | .repairs l =>
    let new := l.filter fun r => !s.pattern.repairs.contains r && !(r.kind == 2 && s.rows.subs.get? (r.unit * 256 + r.failed) == some r.spare) &&
      !(r.kind == 3 && s.health.remap.get? (r.unit * 65536 + r.failed) == some r.spare) && !(r.kind == 1 && s.health.coreFor.get? r.unit == some r.failed)
    let s1 := (new.foldl (fun t r => if s.headState = stCastOn then t.applyRepair 1 r else t.repairInService r) s).setFld F.GLB_PATTERN_INFO_REPAIR 1
    { s1 with pattern := { s1.pattern with repairs := l } }
  | .bins a b d e => { s with pattern := { s.pattern with bins := [a, b, d, e] } }
  | _ => s

end Sys2Proof.Machine
end

