-- ==== Sys2Proof/Machine/CastOnOps.lean ====
section
/-! DEFINITION. OFF and cast-on (02, 23), as the operations that commands share. -/
namespace Sys2Proof.Machine

/-! ### OFF (R24, R52, R57, R364, R365, R462, R481) -/

/-- Register fields that a list of fields keeps. -/
def keepFields (old : State) (fs : List Fld) (s : State) : State := fs.foldl (fun t f => t.setFld f (old.fld f)) s

/-- What stands outside the head: the module and partner presence lines and the partner's FORFEIT_N. -/
def outsideFields : List Fld :=
  [F.GLB_PAIR_STATUS_PARTNER_PRESENT, F.GLB_PAIR_STATUS_PARTNER_FORFEIT] ++ (List.range 64).map fun m => F.MED_PORT_STATUS_PRESENT m

/-- What only power-on clears. -/
def retainedFields : List Fld :=
  [F.GLB_FORFEIT_LAST_CAUSE, F.GLB_CASTON_STATUS_FAILED, F.GLB_CASTON_STATUS_FAIL_CODE, F.GLB_CASTON_STATUS_FAIL_STEP,
   F.SEC_ALARM_STATUS_SOURCES, F.RPJ_DBG_EVENTS]

/-- The head in reset: every register at its reset value but what its own line retains. -/
def State.inReset (s : State) : State :=
  let base : State := { State.reset with pending := s.pending, sent := s.sent, fresh := s.fresh }
  let pins : Pins := { partnerLow := s.pins.partnerLow, partnerHere := s.pins.partnerHere, unseated := s.pins.unseated, inputGood := s.pins.inputGood }
  let sec : SecSt := { zeroised := s.sec.zeroised, counts := s.sec.counts, phases := s.sec.phases }
  let rpj : RpjSt := { events := s.rpj.events, log := s.rpj.log, exports := s.rpj.exports }
  keepFields s (outsideFields ++ retainedFields) { base with pins := pins, sec := sec, rpj := rpj }

/-- A head that has been without power keeps nothing. -/
def State.powerOn (s : State) : State :=
  keepFields s outsideFields { s.inReset with sec := {}, rpj := {}, cells := [] }

/-! ### Cast-on (R52, R56) -/

/-- From PWR_GOOD and RESET_N both high: the straps are latched, FORFEIT_N is low. -/
def State.castOn (s : State) (x : Straps) (power : Bool) : State :=
  let s1 := if power then s.powerOn else s.inReset
  let mode := x.bootMode % 4
  let debug := x.debugReq % 2 == 1
  let s2 : State := { s1 with
    pins := { s1.pins with powered := true }
    boot := { jtagHold := debug, imageHold := mode == 1, labHold := mode == 2 } }
  ((((((s2.setFld F.GLB_STRAPS_DEBUG_REQ x.debugReq).setFld F.GLB_STRAPS_XSPI_OCTAL x.xspiOctal).setFld F.GLB_STRAPS_BOOT_MODE mode).setFld
    F.GLB_STRAPS_HEAD_ID x.headId).setFld F.GLB_PAIR_STATUS_HEAD_ID x.headId).setFld F.GLB_CASTON_STATUS_STEP 1).logEvent 1 0 0 stCastOn

/-- The last step completed. -/
def State.castStep (s : State) : Nat := s.fld F.GLB_CASTON_STATUS_STEP

/-- Cast-on fails at a step with a code: a forfeit with cause 0x07. -/
def State.castFail (s : State) (step code : Nat) : State :=
  (((s.setFld F.GLB_CASTON_STATUS_FAILED 1).setFld F.GLB_CASTON_STATUS_FAIL_CODE code).setFld F.GLB_CASTON_STATUS_FAIL_STEP step).forfeit 7

/-- A step completes. -/
def State.stepIs (s : State) (n : Nat) : State := s.setFld F.GLB_CASTON_STATUS_STEP n

/-- The head runs write-through for want of a bank or of a flush cost (R57). -/
def State.castWriteThrough (s : State) : State :=
  ((((s.setFld F.GLB_CASTON_STATUS_WRITE_THROUGH 1).setFld F.GLB_FLUSH_COST_ENERGY_MJ 0).setFld F.GLB_FLUSH_COST_TIME_US 0).ledger).testWriteThrough

/-! ### The boot chain (R53-R55) -/

/-- Does a directory's CRC-32C check? -/
def dirChecks (d : Directory) : Bool := crc32c (leBytes 4 d.generation ++ d.content) == d.crc

/-- The directory in use: the copy that checks with the higher generation, the first of equals. In recovery the images
come through BAR2, with no directory to check. -/
def State.chooseDir (s : State) (copies : List Directory) : Option Directory :=
  if s.fld F.GLB_STRAPS_BOOT_MODE = 1 then copies.head?
  else match (copies.take 2).filter dirChecks with
    | [a, b] => if a.generation < b.generation then some b else some a
    | l => l.head?

/-- Verify images against the classes they stand for: the code and step of the first failure. -/
def State.chain (s : State) (l : List (Nat × Option Image)) : Option (Nat × Nat) :=
  l.findSome? fun p =>
    let step := if p.1 = 1 then 3 else if p.1 = 2 then 4 else 8
    match p.2 with
    | none => some (1, step)
    | some g => let c := s.checkImage p.1 false g; if c = 0 then none else some (c, step)

/-- The images as the classes expected, in order. -/
def asClasses (cs : List Nat) (l : List Image) : List (Nat × Option Image) := cs.zipIdx.map fun p => (p.1, l[p.2]?)

/-- Note the images that run. -/
def State.runImages (s : State) (l : List (Nat × Option Image)) : State :=
  l.foldl (fun t p => match p.2 with
    | some g => (t.modBoot fun b => { b with run := b.run.put p.1 g }).setFld (F.UPD_RUN_VERSION_VERSION p.1) g.version
    | none => t) s

/-- The step's images are verified, from the current set or, where one fails, from the lifeline set up to this step:
the state with them running, or the failure's code and step. -/
def State.bootImages (s : State) (now upto : List Nat) : State × Option (Nat × Nat) :=
  let current := ((s.boot.dir.map (·.current)).getD []).drop (now.headD 1 - 1)
  let lifeline := (s.boot.dir.map (·.lifeline)).getD []
  let l := asClasses upto lifeline
  let s0 := s.modBoot fun b => { b with lifeFw := ((lifeline[3]?).bind compatOf).orElse fun _ => b.lifeFw }
  if s.boot.lifeline then (s0.runImages (if (s.chain l).isNone then l else []), s.chain l)
  else
    let c := asClasses now current
    if (s.chain c).isNone then (s0.runImages c, none)
    else
      let s1 := (s0.modBoot fun b => { b with lifeline := true }).setFld F.GLB_CASTON_STATUS_LIFELINE 1
      (s1.runImages (if (s.chain l).isNone then l else []), s.chain l)

/-- Put a verified Pattern in force: sections in the order of their types (R43). -/
def State.applyPattern (s : State) (g : Image) : State :=
  let l := sortBy (fun a b => decide (a.type ≤ b.type)) g.sections
  let s1 := l.foldl State.applySection { s with pattern := {} }
  ((((s1.setFld F.GLB_PATTERN_VERSION_VERSION g.version).setFld (F.UPD_RUN_VERSION_VERSION 2) g.version).setFld F.GLB_PATTERN_INFO_SEC_EPOCH g.secEpoch).setFlag
    F.GLB_PATTERN_INFO_BOUND (g.dieId != 0)).setFlag F.GLB_PATTERN_INFO_REPAIR (g.sections.any fun c => c.type == 7)

/-- The Pattern among the images that run. -/
def State.runPattern (s : State) : Option Image := s.boot.run.get? 2

/-! ### What each step delivers (R56-R58) -/

/-- Step 2: the fuses. -/
def State.readFuses (s : State) (f : Fuses) : State :=
  let s1 := s.modBoot fun b => { b with fuses := some f }
  let s2 := (List.range 8).foldl (fun t c => if c = 0 then t else t.setFld (F.UPD_FLOOR_FLOOR c) (f.floors.getD c 0)) s1
  let s3 := (List.range 3).foldl (fun t r => t.setFld (F.RPR_VADJ_OFS_MAX r) (f.ofsMax.getD r 0)) s2
  let s4 := (s3.setFld F.UPD_EPOCH_EPOCH f.secEpoch).setFld F.UPD_FUSE_ROWS_LEFT f.rowsLeft
  if s4.boot.jtagHold then
    let (nonce, s5) := s4.free 256
    let c := leBytes 32 nonce ++ leBytes 8 f.dieId
    (s5.modBoot fun b => { b with challenge := c }).send (.jtagChallenge c)
  else s4

/-- Does the rail settings block pass its check: FORMAT 0x0001 and its CRC-32C? -/
def railBlockOk (b : Bytes) : Bool := b.length == 64 && leNat (b.take 2) == 1 && leNat (slice b 0x3C 4) == crc32c (b.take 0x3C)

/-- The loader reads the rail settings block after the Pattern; one that fails its check leaves every rail off (R446). -/
def State.loadRails (s : State) (b : Bytes) : State :=
  if !railBlockOk b then s
  else
    (List.range 3).foldl (fun t r =>
      let w := leNat (slice b (4 + 4 * r) 4)
      (((t.setFlag (F.RPR_VADJ_RAIL_EN r) (bit w 31)).setFld (F.RPR_VADJ_RAIL_ADDR r) (bits w 22 16)).setFld (F.RPR_VADJ_RAIL_CMD r) (bits w 15 8)).setFld
        (F.RPR_VADJ_STEPS r) (min (w % 256) (t.fld (F.RPR_VADJ_OFS_MAX r)))) s

/-- The repairs fused at test. -/
def State.fusedRepairs (s : State) : List Repair := (s.boot.fuses.map (·.repairs)).getD []

/-- Step 5: the Pattern, repairs and rails are in force, the ADC calibrated, the bank charges. -/
def State.castApply (s : State) (pairs : List (Int × Int)) (g : Image) : State :=
  let fused := s.fusedRepairs.foldl (fun t r => t.applyRepair 0 r) s
  let s1 := fused.applyPattern g
  let s2 := (List.range 3).foldl (fun t r => if t.flag (F.RPR_VADJ_RAIL_EN r) then t.writeOffset r else t) s1
  let s3 := (pairs.take 16).zipIdx.foldl (fun t p =>
    (((t.setFld (F.CTL_ADC_OFS_VALUE p.2) (unsigned 32 p.1.1)).setFld (F.CTL_ADC_GAIN_VALUE p.2) (unsigned 32 p.1.2)).setFld
      (F.CTL_ADC_OFS0_VALUE p.2) (unsigned 32 p.1.1)).setFld (F.CTL_ADC_GAIN0_VALUE p.2) (unsigned 32 p.1.2)) s2
  let s4 := s3.setFlag F.CTL_STATUS_INPUT_GOOD s3.pins.inputGood
  if s4.flag F.CTL_CTRL_ENABLE && s4.pins.inputGood then s4.setMode 1 else s4

/-- What a discarded Pattern had put in force is undone (R43, R55): its repairs, its endpoints; the fused repairs and those of
the cast-on tests are made again once the other Pattern stands. -/
def State.undoPattern (s : State) : State :=
  let pools := (List.range 8).flatMap fun p => [F.ROW_POOL_ACTIVE p, F.ROW_POOL_RETIRED p, F.ROW_POOL_SPARES_LEFT p]
  let s1 := keepFields State.reset (F.RPR_SPARES_CORE_SPARE :: pools ++ (List.range 4).map fun p => F.PCI_PORT_STATUS_ENDPOINT p) s
  (s1.modRows fun r => { r with engines := [], subs := [], testing := [] }).modHealth fun h => { h with coreFor := [], remap := [], rowsUsed := [] }

/-- Repairs that a cast-on test makes. -/
def State.testRepairs (s : State) (l : List Repair) : State :=
  (l.foldl (fun t r => t.applyRepair 2 r) s).modBoot fun b => { b with tested := b.tested ++ l }

/-- The lifeline's Pattern takes the place of the one in force (R55). -/
def State.castRepattern (s : State) (g : Image) : State :=
  let s1 := (s.fusedRepairs.foldl (fun t r => t.applyRepair 0 r) s.undoPattern).applyPattern g
  s.boot.tested.foldl (fun t r => t.applyRepair 2 r) s1

/-- Step 9: an engine that fails is retired and a spare that works takes its place (R58). -/
def State.castEngine (s : State) (failed : List (Nat × Nat)) (p : Nat × Nat) : State :=
  let spare := if (s.engine p.1 p.2).state = 0 then
      (List.range (poolActive p.1 + poolSpares p.1)).find? fun e => (s.engine p.1 e).state == 1 && !failed.contains (p.1, e)
    else none
  let s1 := s.replaceEngine p.1 p.2 spare true
  match spare with
  | some x => s1.addRepair 2 2 p.1 p.2 x
  | none => s1

/-- Has every pool as many working engines as the Rows name? -/
def State.enginesEnough (s : State) (failed : List (Nat × Nat)) : Bool :=
  (List.range 8).all fun p =>
    let named := ((s.pattern.rows.flatMap (·.stages)).filter fun g => stagePool g.type == some p).map (·.named.length)
    decide (named.foldl (· + ·) 0 ≤
      ((List.range (poolActive p + poolSpares p)).filter fun e => decide ((s.engine p e).state ≤ 1) && !failed.contains (p, e)).length)

/-- Step 13: JOINING. The lab head never leaves CAST_ON (R460, R463), nor one that is not seated (R486). -/
def State.enterJoining (s : State) : State :=
  if s.pins.unseated ∨ s.flag F.RPJ_CTRL_REPLAY ∨ s.fld F.RPJ_DBG_LEVEL = 2 then s
  else
    let s1 := ((s.stepIs 13).modPins fun p => { p with forfeitOut := true, portsOn := true }).setHead stJoining
    let s2 := s1.modPair fun p => { p with
      absentSince := if s.pins.partnerLow || !s.flag F.GLB_PAIR_STATUS_PARTNER_PRESENT then some s.turn else none }
    let s3 := ((List.range 16).filter (portUsed s.pattern.ethernet)).foldl (fun t p => t.send (.ethTrain p)) s2
    (s3.setAnas 3 3).efmoTrain

/-- SIZE_GIB with its substitutions. -/
def State.testGib (s : State) : Nat := max 1 (min 4 (s.fld F.GLB_SELF_FLUSH_CFG_SIZE_GIB))

/-- The present dies, each with the pages of its self-test block: module, die, pages (R227). -/
def State.testDies (s : State) : List (Nat × Nat × Nat) :=
  s.presentMods.flatMap fun m => match (s.port m).page with
    | some p => (List.range p.dies).map fun d => (m, d, p.pagesSlc)
    | none => []

/-- The n-th programs of the self-test blocks in turn: page k of each die that has one, of the first n in order of pages
and then of dies. -/
def testPages (dies : List (Nat × Nat × Nat)) (n : Nat) : List (Nat × Nat × Nat) :=
  let most := dies.foldl (fun m d => max m d.2.2) 0
  ((List.range most).flatMap fun k => (dies.filter fun d => decide (k < d.2.2)).map fun d => (d.1, d.2.1, k)).take n

/-- Queue the program of a page of a self-test block: pseudo-SLC, SELF_TEST and HOLDUP, of four test blocks in codewords
whose bytes are free (log entry 175). -/
def State.testProgram (s : State) (m d page : Nat) : State :=
  let (v, s1) := s.free (8 * 18432)
  s1.queueOp 6 { port := m, op := { plainOp 2 0x12 0 1 (d * 2 ^ 28 + page * 4) with dataLen := 18432 }, purpose := .selfTest, data := [leBytes 18432 v] }

/-- The self-flush test begins (R59): staging fills with test blocks, the bank takes the load, and the blocks flush into the
self-test blocks; where these are too small the test fails. -/
def State.startSelfFlush (s : State) : State :=
  if s.flag F.GLB_CASTON_STATUS_WRITE_THROUGH then s
  else
    let pages := 65536 * s.testGib
    let dies := s.testDies
    if (dies.map fun d => d.2.2).foldl (· + ·) 0 < pages then s.castWriteThrough
    else
      let s1 := ((s.setMode 4).takePhases).modBoot fun b => { b with testRunning := true, testBlocks := 4 * pages }
      (testPages dies pages).foldl (fun t p => t.testProgram p.1 p.2.1 p.2.2) s1

/-- Is a program of the self-flush test still under way? -/
def State.testFlushing (s : State) : Bool :=
  let is (p : PendOp) : Bool := p.purpose == .selfTest && p.op.opcode == 2
  s.media.out.any is || s.media.queued.any fun q => is q.2

/-- The test is over: the test blocks in staging are discarded, and what had not been programmed is not. -/
def State.dropTest (s : State) : State :=
  (s.modBoot fun b => { b with testRunning := false, testBlocks := 0 }).modMedia fun m =>
    { m with queued := m.queued.filter fun q => q.2.purpose != .selfTest }

/-- The self-test blocks that were programmed are erased, and the test blocks in staging discarded (R59 step 6). -/
def State.endSelfFlush (s : State) : State :=
  let used := ((testPages s.testDies (65536 * s.testGib)).map fun p => (p.1, p.2.1)).eraseDups
  used.foldl (fun t p => t.queueOp 6 { port := p.1, op := plainOp 3 0x10 0 1 (p.2 * 2 ^ 28), purpose := .selfTest, data := [] }) s.dropTest

end Sys2Proof.Machine
end

