-- ==== Sys2Proof/Machine/CastOn.lean ====
section
/-! DEFINITION. Cast-on, the straps' holds, the backplane's pins, re-patterning (02, 23). -/
namespace Sys2Proof.Machine

/-! ### Cast-on (R52-R61) -/

/-- CAST_ON_START: from OFF; `power` says that the head was without power before. -/
def execCastOnStart (x : Straps) (power : Bool) (s : State) : Result := .next (if s.pins.powered then s else s.castOn x power)

/-- Is step 3 held off until authentication, or until the host's images are in place (R52)? -/
def State.castWaits (s : State) : Bool := s.castStep == 2 && (s.boot.jtagHold || s.boot.imageHold)

/-- Is step 3 held off by a strap (R52)? The lab hold lasts until the lab lets step 3 run (log entry 25). -/
def State.castHeld (s : State) : Bool := s.castWaits || (s.castStep == 2 && s.boot.labHold)

/-- What the next step delivers takes effect. -/
def State.castNext (s : State) : StepOutcome → State
  | .identity ok => if ok then s else s.castFail (s.castStep + 1) 6
  | .fuses f ok => if s.castStep = 1 then (let t := s.readFuses f; if ok then t.stepIs 2 else t.castFail 2 4) else s
  | .images copies block =>
    if s.castStep = 2 then
      match s.chooseDir copies with
      | none => s.castFail 3 1
      | some d =>
        let r := (s.modBoot fun b => { b with dir := some d }).bootImages [1] [1]
        match r.2 with
        | some f => r.1.castFail f.2 f.1
        | none => r.1.stepIs 3
    else if s.castStep = 3 then
      let r := s.bootImages [2] [1, 2]
      match r.2 with
      | some f => r.1.castFail f.2 f.1
      | none =>
        if r.1.runPattern.all r.1.patternFits then (r.1.loadRails block).stepIs 4 else r.1.castFail 4 3
    else if s.castStep = 7 then
      let r := s.bootImages [3, 4] [1, 2, 3, 4]
      match r.2 with
      | some f => r.1.castFail f.2 f.1
      | none =>
        let fell := r.1.boot.lifeline && !s.boot.lifeline
        if fell && !(r.1.runPattern.all r.1.patternFits) then r.1.castFail 8 3
        else
          let s1 := match fell, r.1.runPattern with
            | true, some g => r.1.castRepattern g
            | _, _ => r.1
          (s1.ownLevel.modBoot fun b => { b with appCores := true }).stepIs 8
    else s
  | .applied pairs =>
    if s.castStep = 4 then
      match s.runPattern with
      | some g => (s.castApply pairs g).stepIs 5
      | none => s
    else s
  | .sram l exceed => if s.castStep = 5 then (if exceed then s.castFail 6 4 else (s.testRepairs l).stepIs 6) else s
  | .dram ok type cap mts =>
    if s.castStep = 6 then
      if ok then (((s.setFld F.DMC_INFO_TYPE type).setFld F.DMC_INFO_CAP_GIB cap).setFld F.DMC_INFO_MTS mts).stepIs 7 else s.castFail 7 5
    else s
  | .cores l exceed => if s.castStep = 7 then (if exceed then s.castFail 8 4 else s.testRepairs l) else s
  | .engines failed =>
    if s.castStep = 8 then
      let l := failed.eraseDups
      if s.enginesEnough l then
        let t := (l.foldl (fun u p => u.castEngine l p) s).stepIs 9
        ((List.range t.modules).filter fun m => t.modPresent m && !t.portUp m).foldl State.trainPort t
      else s.castFail 9 4
    else s
  | .done =>
    if s.castStep = 9 then s.stepIs 10
    else if s.castStep = 12 then s.enterJoining
    else s
  | .bank at48V =>
    if !at48V then s
    else if s.castStep = 10 then (s.stepIs 11).startSelfFlush
    else if s.castStep = 11 ∧ !s.boot.testRunning then s.stepIs 12
    else s

/-- CASTON_STEP_DONE. -/
def execCastonStepDone (o : StepOutcome) (s : State) : Result :=
  .next (s.live (if !s.pins.powered || s.headState != stCastOn || s.castWaits then s else s.castNext o))

/-- CASTON_STEP_TIMEOUT: the bound of the next step has passed. -/
def execCastonStepTimeout (s : State) : Result :=
  .next (s.live (
    if !s.pins.powered || s.headState != stCastOn || s.castHeld || s.castStep = 0 then s
    else
      let k := s.castStep + 1
      if k ≤ 10 then s.castFail k 7
      else if k = 11 then s.castWriteThrough.stepIs 12
      else if k = 12 then
        (if s.boot.testRunning then (s.castWriteThrough.endSelfFlush.setMode 1).stepIs 12 else s.stepIs 12)
      else s))

/-- SELF_FLUSH_MEASURED, after the last program's status: energy and time of the test, and what its whole discharge shows
the observer: the charge taken, the fall of VBANK at rest, the two edges. A test that loses its input ends at once. -/
def execSelfFlushMeasured (uj us charge dv v1 i1 v2 i2 : Nat) (inputLost : Bool) (s : State) : Result :=
  .next (s.live (
    if !s.boot.testRunning || s.headState != stCastOn || (!inputLost && s.testFlushing) then s
    else
      let n := s.testGib
      let mj := ceilDiv uj (1000 * n)
      let t := ceilDiv us n
      let s2 := s.endSelfFlush.setMode (if inputLost then 0 else 1)
      if inputLost || decide (65535 < mj) || decide (65535 < t) then s2.castWriteThrough
      else
        let (c, s3) := s2.capSample charge dv
        let (r, s4) := s3.esrSample v1 i1 v2 i2
        (((s4.addSamples c r).setFld F.GLB_FLUSH_COST_ENERGY_MJ mj).setFld F.GLB_FLUSH_COST_TIME_US t).ledger))

/-- RECOVERY_IMAGES_WRITTEN. -/
def execRecoveryImagesWritten (s : State) : Result := .next (s.live (s.modBoot fun b => { b with imageHold := false }))

/-! ### The backplane (R481, R486, R488) -/

/-- PARTNER_PRESENCE_CHANGE. -/
def execPartnerPresenceChange (present : Bool) (s : State) : Result :=
  .next (
    let s1 := s.modPins fun p => { p with partnerHere := present }
    if s.ctl.hold.unseated then s1
    else if !s.pins.powered then s1.setFlag F.GLB_PAIR_STATUS_PARTNER_PRESENT present
    else s1.live (
      let s2 := s1.setFlag F.GLB_PAIR_STATUS_PARTNER_PRESENT present
      s2.modPair fun p => { p with absentSince :=
        if s2.pins.partnerLow || !present then (if p.absentSince.isSome then p.absentSince else some s.turn) else none }))

/-- POWER_DOWN: every output is off, and the head is OFF. -/
def execPowerDown (s : State) : Result := .next (if s.pins.powered then s.inReset else s)

/-! ### Re-patterning (R62-R67) -/

/-- A re-pattern ends, or is refused. -/
def State.repatDone (s : State) (code n : Nat) : State :=
  (s.resDone 0x40 [(F.GLB_REPATTERN_RESULT_CODE, code), (F.GLB_REPATTERN_RESULT_SECTIONS, n)]).raise F.GLB_ISR_REPATTERN_DONE

/-- Section types that change live (R43). -/
def liveTypes : List Nat := [1, 4, 5, 6, 7]

/-- What R64 refuses of a section. -/
def State.sectionRefused (s : State) (c : ImageSection) : Bool :=
  match c.body with
  | .repairs l => s.pattern.repairs.any fun r => !l.contains r
  | .motif l => (List.range 8).any fun k => slotGroup s.pattern.motif k != slotGroup l k &&
      (slotGroup s.pattern.motif k).any fun j => s.fld (F.MTF_SLOT_STATUS_STATE j) != 0
  | .rows l =>
    let ch := s.rowsChanged l
    !ch.isEmpty && !classesServed ((s.pattern.rows.zipIdx.filter fun p => !ch.contains p.2 && !p.1.stalled).map (·.1.classes))
  | _ => false

/-- The drain of the section to come begins, as one handover step (R63). -/
def State.beginSection (s : State) : State :=
  match s.repat.left with
  | [] => s
  | c :: _ =>
    let s1 := s.setHead stHandover
    match c.body with
    | .rows l => (s.rowsChanged l).foldl (fun t n => t.modRow n fun r => { r with stalled := true }) s1
    | _ => s1

/-- A re-pattern is done in full. -/
def State.repatFull (s : State) : State :=
  let n := s.repat.applied.length - s.repat.before
  let s1 := (((s.setFld F.GLB_PATTERN_VERSION_VERSION s.repat.version).setFld (F.UPD_RUN_VERSION_VERSION 2) s.repat.version).setFld
    F.GLB_PATTERN_INFO_PARTIAL 0).setFld F.GLB_PATTERN_INFO_SEC_EPOCH s.repat.secEpoch
  let s2 := if s.repat.bound then s1.setFld F.GLB_PATTERN_INFO_BOUND 1 else s1
  ({ s2 with repat := {} }).repatDone 0 n

/-- REPATTERN_START, with the delta at GLB_REPATTERN_ADDR of GLB_REPATTERN_LEN bytes; `bodies` is what the head decodes of its
sections. Of several refusals that hold at once the codes 8, 6, 1, 2 and 3 are tried in that order, and a delta that meets only
the floors of R49 not answers 0x1: the spec settles neither (DESIGN CHOICE, log entry 173). -/
def execRepatternStart (bodies : List SectionBody) (s : State) : Result :=
  .next (s.live (
    if s.repat.running then s
    else
      let t := s.resStart 0x40
      let g : Image := { bytes := s.rd (s.base F.GLB_REPATTERN_ADDR_LO_ADDR_LO F.GLB_REPATTERN_ADDR_HI_ADDR_HI 6) (s.fld F.GLB_REPATTERN_LEN_LENGTH),
                         bodies := bodies }
      let part := s.flag F.GLB_PATTERN_INFO_PARTIAL
      let old := s.fld F.GLB_PATTERN_VERSION_VERSION
      let done := if part then s.repat.applied else []
      if !s.playing then t.repatDone 8 0
      else if s.fld F.GLB_PAIR_STATUS_PARTNER_STATE = stHandover then t.repatDone 6 0
      else if s.fld F.GLB_REPATTERN_LEN_LENGTH ≠ g.length ∨ s.checkImage 2 true g ≠ 0 then t.repatDone 1 0
      else if g.baseVersion ≠ old ∨ g.version ≤ g.baseVersion ∨ (part ∧ (g.version ≠ s.repat.version ∨ g.baseVersion ≠ s.repat.base)) then
        t.repatDone 2 0
      else if !(g.sections.all fun c => liveTypes.contains c.type && s.sectionFits g.dieId c && !s.sectionRefused c) ∨
          !noRepeat (g.sections.map (·.type)) then t.repatDone 3 0
      else
        let l := sortBy (fun a b => decide (a.type ≤ b.type)) (g.sections.filter fun c => !done.contains c.type)
        let r : RepatSt := { running := true, version := g.version, base := g.baseVersion, secEpoch := g.secEpoch, bound := g.dieId != 0,
                             left := l, applied := done, before := done.length }
        let u : State := { t with repat := r }
        if l.isEmpty then u.repatFull else u.beginSection))

/-- Is a command from a host under way that was fetched from a queue whose connection is on one of some ports? -/
def State.portsBusy (s : State) (ports : List Nat) : Bool :=
  let on (o : Origin) : Bool := !o.forwarded && (s.qp? (s.qQpn o.queue)).any fun q => ports.contains q.port
  (s.commit.own.any fun e => !e.completed && on e.origin) || (s.commit.waiting.any fun w => on w.origin) || (s.commit.wt.any fun w => on w.origin) ||
  (s.commit.fwd.any fun w => on w.origin) || (s.commit.due.any fun w => on w.origin) || (s.commit.xfers.any fun w => on w.origin) ||
  (s.commit.pieces.any fun w => on w.origin)

/-- The ports of the lane groups that a port map changes. -/
def State.portsChanged (s : State) (l : List Nat) : List Nat :=
  ((List.range 4).filter fun g => s.pattern.ethernet[g]? != l[g]?).flatMap fun g => (List.range 4).map fun k => 4 * g + k

/-- Has the section's drain ended? -/
def State.sectionDrained (s : State) (c : ImageSection) : Bool :=
  match c.body with
  | .ethernet l => !s.portsBusy (s.portsChanged l)
  | .rows l => !((s.rowsChanged l).any fun n => s.rows.stitches.vals.any fun t => t.row == n)
  | _ => true

/-- REPATTERN_SECTION. A partner's forfeit in the last section leaves nothing to abandon: the result is 0x0 (DESIGN CHOICE, log
entry 173). The section is applied after a fetch hold of `held` ns (R63, R424). -/
def execRepatternSection (held : Nat) (s : State) : Result :=
  .next (s.live (match s.repat.running, s.repat.left with
    | true, c :: rest =>
      if !s.sectionDrained c then s
      else
        let s1 := (s.applySection c).inc F.GLB_PATTERN_INFO_STEPS
        let r : RepatSt := { s1.repat with left := rest, applied := s1.repat.applied ++ [c.type] }
        let s2 := (({ s1 with repat := r }).setHead stPlaying).noteHold held
        if rest.isEmpty then s2.repatFull
        else if s2.repat.abandon then
          ({ s2 with repat := { s2.repat with running := false, abandon := false } }.setFld F.GLB_PATTERN_INFO_PARTIAL 1).repatDone 7 (s2.repat.applied.length - s2.repat.before)
        else s2.beginSection
    | _, _ => s))

end Sys2Proof.Machine
end

