-- ==== Sys2Proof/Machine/Control.lean ====
section
/-! DEFINITION. The control engine's commands (16): its sample, calibration, bank swaps, captures, probes and
the bank's failures. -/
namespace Sys2Proof.Machine

/-! ### The sample (R374-R385, R390) -/

/-- Convert the codes of one sample (R377) and note the virtual channels. -/
def State.convert (s : State) (codes : List Int) (tj temp17 : Int) : State :=
  let s1 := ((codes.take 16).zipIdx).foldl (fun t p =>
    let raw := signed 32 (unsigned 32 (signed 14 (unsigned 14 p.1) * 65536 - signed 32 (s.fld (F.CTL_ADC_OFS_VALUE p.2))))
    let v := satInt 32 (roundEven (raw * signed 32 (s.fld (F.CTL_ADC_GAIN_VALUE p.2))) (2 ^ 29))
    t.setFld (F.CTL_ADC_VAL_VALUE p.2) (unsigned 32 v)) s
  (s1.setFld (F.CTL_ADC_VAL_VALUE 16) (unsigned 32 tj)).setFld (F.CTL_ADC_VAL_VALUE 17) (unsigned 32 temp17)

/-- Keep the samples of the turn, and the runs of low bus and of high bank. -/
def State.noteSample (s : State) : State :=
  let vb := fromUnit (s.adcVal 0) 64000
  let vu := fromUnit (s.adcVal 2) 16000
  let low := decide (vu * 100 < s.vbusHu * (100 - s.detPct : Int))
  let high := decide ((s.vbankSet : Int) * 105 < vb * 100)
  let s1 := s.modCtl fun c => { c with
    vLast := (c.vLast ++ [(vb, fromUnit (s.adcVal 1) 128000)]).drop (c.vLast.length + 1 - 16),
    turnSum := c.turnSum ++ [(vb, fromUnit (s.adcVal 1) 128000, vu)],
    droop := if low then c.droop + 1 else 0, above := if high then c.above + 1 else 0 }
  let s2 := if s1.ctl.above = 8 then s1.failBank 4 else s1
  if s2.mode = 1 ∧ (s.vbankSet : Int) ≤ vb then s2.setMode 2 else s2

/-- The loop whose signals a capture takes. -/
def pickOut (s : State) (l : List (Nat × LoopOut)) : LoopOut :=
  ((l.find? fun p => p.1 == s.fld F.CTL_INJ_CFG_LOOP).map (·.2)).getD { y0 := 0, r := 0, e := 0, u0 := 0, uo := 0 }

/-- Run loop 3 where 1,000 µs have passed since its last sample; every fan takes its output (R387). -/
def State.runFans (s : State) : State × List (Nat × LoopOut) :=
  let t := s.ctl.fanTime + s.periodPwm
  if t < 1000000 then (s.modCtl fun c => { c with fanTime := t }, [])
  else
    let s1 := s.modCtl fun c => { c with fanTime := t - 1000000 }
    if s.flag (F.CTL_LOOP_CTRL_ENABLE 3) then
      let (s2, o) := s1.runLoop 3
      let d := max (s.fld F.CTL_FAN_CFG_MIN_DUTY) (min 1000 (fromUnit o.uo 1000).toNat)
      ((List.range 4).foldl (fun u f => u.setFld (F.CTL_FAN_DUTY f) d) s2, [(3, o)])
    else ((List.range 4).foldl (fun u f => u.setFld (F.CTL_FAN_DUTY f) 1000) s1, [])

/-- Run the phase loops of the mode. -/
def State.runPhases (s : State) : State × List (Nat × LoopOut) :=
  if s.mode = 4 ∨ s.mode = 5 ∨ s.mode = 6 then
    let (s1, o2) := if s.flag (F.CTL_LOOP_CTRL_ENABLE 2) then (let (t, o) := s.runLoop 2; (t, [(2, o)]))
      else (s.modCtl fun c => { c with loops := c.loops.modify 2 fun l => { l with out := 0 } }, [])
    let (s2, o0) := s1.runLoop 0
    (s2.modCtl fun c => { c with duty := o0.uo }, (0, o0) :: o2)
  else if s.mode = 1 ∨ s.mode = 2 ∨ s.mode = 3 then
    let (s1, o1) := s.runLoop 1
    (s1.modCtl fun c => { c with duty := o1.uo }, [(1, o1)])
  else (s.modCtl fun c => { c with duty := 0 }, [])

/-- One sample: the channels are converted, swaps take effect, the loops run, duties are latched, and a
capture takes its words. -/
def execControlSample (codes : List Int) (tj temp17 : Int) (tach : List Nat) (s : State) : Result :=
  .next (s.live (
    let s0 := (tach.take 4).zipIdx.foldl (fun t p => t.setFld (F.CTL_FAN_TACH_RPM p.2) p.1) s
    let s1 := (s0.convert codes tj temp17).noteSample.takeSwaps
    let (s2, a) := s1.runPhases
    let (s3, b) := s2.runFans
    let o := pickOut s3 (a ++ b)
    (if o.sats = 0 then s3 else s3.capTrigger 2).capStep o))

/-- Recalibration every 1,024 turns (R377): each channel's new pair is adopted, or refused with CAL_DRIFT. -/
def execAdcRecalibration (pairs : List (Int × Int)) (s : State) : Result :=
  .next (s.live (
    if !s.taskDue taskAdc 1024 ∨ s.mode = 4 ∨ s.mode = 5 ∨ s.mode = 6 then s
    else (pairs.take 16).zipIdx.foldl (fun t p =>
      let ofs0 := signed 32 (s.fld (F.CTL_ADC_OFS0_VALUE p.2))
      let gain0 := signed 32 (s.fld (F.CTL_ADC_GAIN0_VALUE p.2))
      if (p.1.1 - ofs0).natAbs ≤ 64 * 65536 ∧ 100 * (p.1.2 - gain0).natAbs ≤ gain0.natAbs then
        (t.setFld (F.CTL_ADC_OFS_VALUE p.2) (unsigned 32 p.1.1)).setFld (F.CTL_ADC_GAIN_VALUE p.2) (unsigned 32 p.1.2)
      else t.raise F.CTL_ISR_CAL_DRIFT) (s.taskRan taskAdc)))

/-- CTL_LOOP_CTRL_n.SWAP (R372, R382, R383). -/
def execLoopSwap (who : Requester) (n : Nat) (reset enable : Bool) (s : State) : Result :=
  .next (s.live (
    if who ≠ .referee then s.ctlRefuse
    else
      let l := n % 4
      let s1 := s.setFlag (F.CTL_LOOP_CTRL_RESET_STATES l) reset
      let s2 := if 2 ≤ l then s1.setFlag (F.CTL_LOOP_CTRL_ENABLE l) enable else s1
      if (s.ctl.loops.getD l {}).swap then s2
      else
        let s3 := s2.resStart (0x400104 + 0x10 * l)
        if (l = 0 ∨ l = 2) ∧ 4 ≤ s.mode then s3.swapDone l 1
        else s3.modCtl fun c => { c with loops := c.loops.modify l fun x => { x with swap := true } }))

/-- Start a capture: `left` samples are still to come where its trigger has come. -/
def State.capStart (s : State) (who : Requester) (trig decim sel : Nat) (left : Option Nat) : State :=
  if who ≠ .referee then s.ctlRefuse
  else s.startWith [(F.CTL_CAP_CFG_TRIG, trig), (F.CTL_CAP_CFG_DECIM, decim), (F.CTL_CAP_CFG_SEL, sel)] (s.flag F.CTL_CAP_CFG_BUSY) fun t =>
    let u := t.resStart 0x400094
    if trig = 3 then u.capDone 2
    else (u.setFld F.CTL_CAP_CFG_BUSY 1).modCtl fun c => { c with cap := some { trig := trig, skip := 0, words := [], left := left } }

/-- TRIG 0x0. -/
def execCaptureImmediate (who : Requester) (decim sel : Nat) (s : State) : Result := .next (s.live (s.capStart who 0 decim sel (some 4096)))
/-- TRIG 0x1. -/
def execCaptureHoldupArm (who : Requester) (decim sel : Nat) (s : State) : Result := .next (s.live (s.capStart who 1 decim sel none))
/-- TRIG 0x2. -/
def execCaptureSatArm (who : Requester) (decim sel : Nat) (s : State) : Result := .next (s.live (s.capStart who 2 decim sel none))
/-- TRIG 0x3. -/
def execCaptureReservedTrig (who : Requester) (decim sel : Nat) (s : State) : Result := .next (s.live (s.capStart who 3 decim sel none))

/-! ### Probes (R388) -/

/-- Have PROBE_TURNS turns passed since the last probe? -/
def State.probeDue (s : State) : Bool :=
  decide ((s.trn.tasks.get? taskProbe).getD 0 + max 1 (s.fld F.CTL_PROBE_CFG_PROBE_TURNS) ≤ s.turn)

/-- A probe begins in FLOAT: VBANK at rest, µV, and the discharge at I_PROBE. -/
def execProbe (vMean : Nat) (s : State) : Result :=
  .next (s.live (
    if s.mode = 2 ∧ s.flag F.CTL_CTRL_PROBE_EN ∧ s.flag F.CTL_CTRL_ENABLE ∧ s.probeDue then
      ((s.setMode 3).taskRan taskProbe).modCtl fun c => { c with probe := some { step := 1, vBefore := vMean, charge := 0, esr := 0 } }
    else s))

/-- PROBE_US has passed: back to FLOAT with the charge taken and the ESR sample of the two edges. -/
def execProbeDischargeEnd (charge v1 i1 v2 i2 : Nat) (s : State) : Result :=
  .next (s.live (match s.ctl.probe with
    | some p =>
      if s.mode = 3 ∧ p.step = 1 then
        let (r, s1) := s.esrSample v1 i1 v2 i2
        (s1.setMode 2).modCtl fun c => { c with probe := some { p with step := 2, charge := charge, esr := r } }
      else s
    | none => s))

/-- 1 ms later: VBANK at rest again, and the probe's two samples. -/
def execProbeRestEnd (vMean : Nat) (s : State) : Result :=
  .next (s.live (match s.ctl.probe with
    | some p =>
      if s.mode = 2 ∧ p.step = 2 then
        let (c, s1) := s.capSample p.charge (p.vBefore - vMean)
        ((s1.modCtl fun c => { c with probe := none }).inc F.CTL_BANK_SAMPLES_PROBES).addSamples c p.esr
      else s
    | none => s))

/-! ### Failures (R387, R390) -/

/-- CHARGE has not reached VBANK_SET within 60 s. -/
def execBankChargeTimeout (s : State) : Result := .next (s.live (if s.mode = 1 then s.failBank 3 else s))

/-- A tachometer reads below 10% of the highest for 2 s at a duty above 30%. -/
def execFanFail (fan : Nat) (s : State) : Result :=
  .next (s.live (
    let top := (List.range 4).foldl (fun a f => max a (s.fld (F.CTL_FAN_TACH_RPM f))) 0
    if 300 < s.fld (F.CTL_FAN_DUTY (fan % 4)) ∧ 10 * s.fld (F.CTL_FAN_TACH_RPM (fan % 4)) < top then s.raise F.CTL_ISR_FAN_FAIL else s))

end Sys2Proof.Machine
end

