-- ==== Sys2Proof/Machine/Health.lean ====
section
/-! DEFINITION. Spares, ageing and health reporting (20): row and core repairs, the margin window, regulator
retries, the gauges. -/
namespace Sys2Proof.Machine

/-! ### Repairs (R440-R444) -/

/-- A row of a macro reaches ROW_CE_LIMIT: it moves to the first spare row that passes verification, of
which `bad` fail before it; with none left the macro is out of spares. -/
def execSramRowRepair (mac row bad : Nat) (s : State) : Result :=
  .next (s.live (
    if !s.flag F.RPR_CTRL_AUTO_ROW ∨ 2 ≤ s.ctl.hold.phase then s
    else
      let used := (s.health.rowsUsed.get? mac).getD []
      let left := (List.range 4).filter fun k => !used.contains k
      let s1 := s.modHealth fun h => { h with rowsUsed := h.rowsUsed.put mac (used ++ left.take (bad + 1)) }
      match left[bad]? with
      | some k => (s1.modHealth fun h => { h with remap := h.remap.put (mac * 65536 + row) k }).addRepair 3 3 mac row k
      | none =>
        let s2 := s1.raise F.RPR_ISR_SPARES_OUT
        if s.health.macrosOut.contains mac then s2
        else (s2.inc F.RPR_SPARES_MACROS_OUT).modHealth fun h => { h with macrosOut := h.macrosOut ++ [mac] }))

/-- Does an interrupt routing name a core (R441)? -/
def State.coreRouted (s : State) (target : Nat) : Bool :=
  (List.range 896).any fun k => s.fld (F.IRQ_ROUTE_ACTIVE k) == target || s.fld (F.IRQ_ROUTE_SHADOW k) == target

/-- A repair command completes. -/
def State.rprDone (s : State) (code : Nat) : State := (s.resDone 0x200014 [(F.RPR_RESULT_CODE, code)]).raise F.RPR_ISR_CMD_DONE

/-- REPAIR_CORE: the cluster's spare takes the core's identity and is held in reset. -/
def execRepairCore (cluster core : Nat) (s : State) : Result :=
  .next (s.live (s.startWith [(F.RPR_CMD_OP, 0), (F.RPR_CMD_CLUSTER, cluster), (F.RPR_CMD_CORE, core)] (s.flag F.RPR_CMD_BUSY) fun t =>
    let u := t.resStart 0x200014
    let c := cluster % 4
    let target := 8 * c + core % 8
    if 2 ≤ u.ctl.hold.phase ∨ u.headState = stHandover then u.rprDone 3
    else if u.coreRouted target then u.rprDone 2
    else if !bit (u.fld F.RPR_SPARES_CORE_SPARE) c then u.rprDone 1
    else
      let u1 := (u.setFld F.RPR_SPARES_CORE_SPARE (u.fld F.RPR_SPARES_CORE_SPARE - 2 ^ c)).modHealth fun h =>
        { h with coreFor := h.coreFor.put c (core % 8), coreHeld := (h.coreHeld.filter (· != target)) ++ [target] }
      (u1.addRepair 1 3 c (core % 8) 8).rprDone 0))

/-- A reserved OP. -/
def execRprReservedOp (op : Nat) (s : State) : Result :=
  .next (s.live (s.startWith [(F.RPR_CMD_OP, max 1 (op % 16))] (s.flag F.RPR_CMD_BUSY) fun t => (t.resStart 0x200014).rprDone 4))

/-! ### Voltage adaptation (R445) -/

/-- HIGH with its substitution. -/
def State.marginHigh (s : State) : Nat :=
  if s.fld F.RPR_MARGIN_CFG_HIGH < s.fld F.RPR_MARGIN_CFG_LOW then s.fld F.RPR_MARGIN_CFG_LOW + 2 else s.fld F.RPR_MARGIN_CFG_HIGH

/-- One rail at the end of a window. -/
def State.windowRail (s : State) (t r : Nat) : State :=
  let m := railMargin (fun d => s.fld (F.RPR_MARGIN_MIN_WIN d)) r
  let steps := s.fld (F.RPR_VADJ_STEPS r)
  if !s.flag (F.RPR_VADJ_RAIL_EN r) then s
  else if m < s.fld F.RPR_MARGIN_CFG_LOW then
    if steps < s.fld (F.RPR_VADJ_OFS_MAX r) then s.raiseRail r t
    else (s.setFld (F.RPR_VADJ_AGE_LIMIT r) 1).raise F.RPR_ISR_AGE_LIMIT
  else if s.marginHigh < m ∧ (s.health.raisedAt.get? r).getD 0 + 2 ^ 20 ≤ s.turn ∧ 0 < steps then s.setSteps r (steps - 1) t
  else s

/-- At each multiple of 1,024 turns, at time t. -/
def execMarginWindow (t : Nat) (s : State) : Result :=
  .next (s.live (
    if !s.taskDue taskMargin 1024 then s
    else
      let s1 := (List.range 5).foldl (fun u d => u.setFld (F.RPR_MARGIN_MIN_WIN d) ((s.health.winMin.get? d).getD (s.fld (F.RPR_MARGIN_MIN_WIN d))))
        ((s.taskRan taskMargin).modHealth fun h => { h with winMin := [] })
      (List.range 3).foldl (fun u r => u.windowRail t r) s1))

/-- 100 µs after an offset write: acknowledged, or reported and written again. -/
def execRegulatorRetry (rail : Nat) (acked : Bool) (s : State) : Result :=
  .next (s.live (
    let r := rail % 3
    if !s.health.waitAck.contains r then s
    else if acked then s.modHealth fun h => { h with waitAck := h.waitAck.filter (· != r), acked := h.acked.put r (s.fld (F.RPR_VADJ_STEPS r)) }
    else (s.raise F.RPR_ISR_VADJ_FAIL).writeOffset r))

/-! ### Gauges (R447-R450) -/

/-- The tests of R448 after a refresh. -/
def State.testProfile (s : State) : State :=
  let turns := s.pair F.TLM_TJ_TURNS_LO_VALUE F.TLM_TJ_TURNS_HI_VALUE
  let above := s.pair F.TLM_TJ_OVER_LO_VALUE F.TLM_TJ_OVER_HI_VALUE
  let bad := decide (2 ^ 30 ≤ turns) &&
    (decide (2544 * turns < s.pair F.TLM_TJ_SUM_LO_VALUE F.TLM_TJ_SUM_HI_VALUE) ||
     decide (turns < 10 * s.pair F.TLM_TJ_HOT_LO_VALUE F.TLM_TJ_HOT_HI_VALUE))
  let s1 := if bad then s.raise F.TLM_ISR_PROFILE else s
  let s2 := if above ≠ s.health.overSeen then s1.raise F.TLM_ISR_OVER else s1
  s2.modHealth fun h => { h with overSeen := above }

/-- At each multiple of 1,024 turns the gauges are refreshed as one set. -/
def execGaugeRefresh (s : State) : Result :=
  .next (s.live (
    if !s.taskDue taskGauge 1024 then s
    else (((s.taskRan taskGauge).copyGauges.wrapInc F.TLM_GAUGE_SEQ_SEQ).raise F.TLM_ISR_GAUGE).testProfile))

/-- TLM_CTRL.REBUILD. -/
def execTlmRebuild (s : State) : Result := .next (s.live (s.sweepWear.raise F.TLM_ISR_REBUILT))

end Sys2Proof.Machine
end

