-- ==== Sys2Proof/Machine/OutcomeOps.lean ====
section
/-! DEFINITION. What a retired Stitch tells its source, and what a reconstructed codeword does for what asked for it
(04, 10, 11), as the operations that commands share. -/
namespace Sys2Proof.Machine

/-! ### The completion ring (R108, R110) -/

/-- Entries of the submission and the completion ring; 0 where they are disabled. -/
def State.ringEntries (s : State) : Nat :=
  let n := s.fld F.ROW_RING_CFG_LOG2_ENTRIES
  if n = 0 then 0 else 2 ^ max 6 n
def State.sqBase (s : State) : Nat := s.base F.ROW_RING_BASE_LO_BASE_LO F.ROW_RING_BASE_HI_BASE_HI 12
def State.cqBase (s : State) : Nat := s.sqBase + 128 * s.ringEntries

/-- The 128 bytes of a Stitch. -/
def stitchBytes (t : Stitch) (phase : Nat) : Bytes :=
  leBytes 8 t.seq ++ leBytes 8 t.lba ++ leBytes 8 t.guard ++ leBytes 4 t.staging ++ leBytes 2 t.volume ++ leBytes 2 t.domain ++
  leBytes 1 t.cls ++ leBytes 1 t.level ++ leBytes 2 t.flags ++ leBytes 2 t.dict ++ leBytes 2 t.done ++
  leBytes 2 t.bufIn ++ leBytes 2 t.bufOut ++ leBytes 2 t.keySlot ++ leBytes 2 t.stored ++
  leBytes 1 t.slotClass ++ leBytes 1 t.status ++ leBytes 1 t.errStage ++ leBytes 1 t.retries ++ leBytes 4 t.stripe ++
  leBytes 8 t.cid ++ (t.fp ++ zeros (32 - t.fp.length)) ++ leBytes 1 t.cw ++ leBytes 1 t.slot ++ leBytes 2 t.gcmSlot ++
  leBytes 4 t.hop ++ leBytes 8 t.stamp ++ zeros 15 ++ leBytes 1 phase

/-- Is the completion ring full? -/
def State.cqFull (s : State) : Bool :=
  s.ringEntries == 0 || (s.rows.cqIndex + 1) % s.ringEntries == s.fld F.ROW_CQ_HEAD_HEAD % s.ringEntries

/-- Write a retired firmware Stitch to the completion ring; its PHASE is inverted on each pass. -/
def State.cqPut (s : State) (t : Stitch) : State :=
  let k := s.rows.cqIndex
  let next := (k + 1) % s.ringEntries
  ((s.wr (s.cqBase + 128 * k) (stitchBytes t s.rows.phase)).modRows fun r =>
    { r with cqIndex := next, phase := if next = 0 then 1 - r.phase else r.phase }).raise F.ROW_ISR_CQ

/-! ### Codewords at LDH (R236, R153) -/

/-- Does a class read a codeword? -/
def readsFlash (t : Stitch) : Bool := decide (1 ≤ t.cls) && decide (t.cls ≤ 5) && !bit t.flags 8

/-- The budget that a class's reads draw on: 6 for foreground. -/
def readBudget (cls : Nat) : Nat := if isBackground cls then classBudget cls else 6

/-- What LDH or LDS hands on of a codeword's information part: the block's slots and headers, or for a class that moves
slots the whole payload with its headers. -/
def ldhOutput (t : Stitch) (b : Bytes) : Bytes × Bytes :=
  if t.cls = 2 ∨ t.cls = 3 then (b.take 4096, slice b 4096 128)
  else (slice b (512 * t.slot) t.stored, slice b (4096 + 16 * t.slot) (16 * slotsOf t.slotClass))

/-- A Stitch takes a decoded codeword. -/
def Stitch.takeCodeword (t : Stitch) (b : Bytes) : Stitch :=
  let o := ldhOutput t b
  { t with kept := t.data, keptHeaders := t.headers, data := o.1, headers := o.2, hop := crc32c o.1, ready := true }

/-! ### Giving up what a Stitch holds (R126, R138) -/

/-- The content a Stitch took: the reference of a hit is dropped, a new record is given up. -/
def State.releaseContent (s : State) (t : Stitch) : State :=
  if t.cid = 0 then s
  else if bit t.flags 3 then
    match (s.refDrop t.cid) with
    | (s1, recs) => s1.buildGroup (cidInst t.cid) recs
  else s.dropPending t.cid

/-- A staged version has settled: its entry is journaled where it was the last. -/
def State.settleStg (s : State) (t : Stitch) (x : StgSt) : State :=
  match s.commit.staging.get? t.staging with
  | some g =>
    if g.inst == t.inst && g.seq == t.seq && g.lba == t.lba then ((s.modStg t.staging fun g => { g with st := x, content := ({ g with st := x }).cid?.orElse fun _ => g.content }).tryJournal t.inst t.seq).freeStg t.staging else s
  | none => s

/-- A drained block ends without a place: cancelled, or poisoned. -/
def State.writeLost (s : State) (t : Stitch) (poisoned : Bool) : State :=
  let s1 := s.releaseContent t
  if poisoned then
    (s1.countPoison.modStg t.staging fun g => { g with poisoned := true }).settleStg t .dropped
  else if (s1.commit.staging.get? t.staging).any (·.superseded) then s1.settleStg t .dropped
  else s1.modStg t.staging fun g => { g with st := .waiting }

/-! ### Outcomes -/

/-- A retired read Stitch tells the read, or the verify slot, that waits for it. -/
def State.readEnded (s : State) (t : Stitch) : State :=
  match t.verifyFor with
  | some p => s.modStitch p fun x => { x with cand := some (if t.status = 1 then some t.data else none) }
  | none =>
    match t.asker with
    | none => s
    | some (inst, seq) =>
      if t.status = 1 then s.deliver inst seq t.lba t.data
      else if t.status = 5 then (s.errDefer 0x0F).failRead inst seq
      else s.failRead inst seq

/-- A received frame's Stitch has ended (R276). -/
def State.rxEnded (s : State) (t : Stitch) : State :=
  match t.frame with
  | none => s
  | some (l, seq, k) =>
    if t.status = 1 then s
    else if t.status = 2 then (s.setRx l seq k (.programmed t.cid)).rxJournal.rxAck
    else if t.status = 4 then ((s.releaseContent t).setRx l seq k (if t.errStage = stGD then .authFail else .corrupt)).rxAck
    else (s.releaseContent t).setRx l seq k .waiting

/-- Where a retired Stitch stands (a reconstructed codeword that failed its checks is unrecoverable, R249): over, or waiting still for its codeword or for room in the completion ring. -/
def State.takeOutcome (s0 : State) (sid : Nat) (t0 : Stitch) : State :=
  let lost := t0.status == 5 && readsFlash t0 && t0.rebuilt == 2
  let t := if lost then { t0 with rebuilt := 3 } else t0
  let s := if lost then s0.countUnrecovered else s0
  let keep (x : Stitch) (u : State) : State := u.modRows fun r => { r with retired := r.retired ++ [(sid, x)] }
  if t.status = 5 ∧ readsFlash t ∧ t.rebuilt = 0 ∧ t.verifyFor.isNone then
    (keep { t with rebuilt := 1 } s).reconAfterFailure (readBudget t.cls) t.loc (.stitchRead sid)
  else if t.status = 5 ∧ t.rebuilt = 1 then keep t s
  else if t.ring then
    let s1 := if t.cls = 5 ∧ t.status = 1 then
        match s.linkOfKey t.gcmSlot with
        | some l => s.modSnp fun x => { x with framed := x.framed.put sid (l, t.volume, t.lba, t.data) }
        | none => s
      else s
    if s.cqFull then keep t s else (if t.cls = 6 then s1.rxEnded t else s1).cqPut t
  else if t.cls = 1 then s.readEnded t
  else if t.cls = 5 then (if t.status = 1 then s.syncFrame t.inst t.seq t.lba t.data else s).freeStg t.staging
  else if t.cls = 6 then s.rxEnded t
  else if t.status = 2 then s.settleStg t (.duplicate t.cid)
  else if t.status = 4 then s.writeLost t true
  else if t.status = 3 then s.writeLost t false
  else s

/-- Tell every source what has retired. -/
def State.takeRetired (s : State) : State :=
  (s.rows.retired).foldl (fun u p => u.takeOutcome p.1 p.2) (s.modRows fun r => { r with retired := [] })

/-- Pack the frames of links in submission order: a frame waits while an earlier Stitch of its link is in the Rows. -/
def State.packFramed (s : State) : State :=
  s.snp.framed.foldl (fun u p =>
    let before := (u.rows.stitches ++ u.rows.retired).any fun q => decide (q.1 < p.1) && q.2.ring && q.2.cls == 5 && u.linkOfKey q.2.gcmSlot == some p.2.1
    let earlier := u.snp.framed.any fun q => decide (q.1 < p.1) && q.2.1 == p.2.1
    if before || earlier then u
    else (u.modSnp fun x => { x with framed := x.framed.del p.1 }).packFrame p.2.1 p.2.2.1 p.2.2.2.1 p.2.2.2.2) s

/-! ### Reconstructed codewords (R248, R249) -/

/-- A codeword that a Stitch waits for is at hand, or unrecoverable. -/
def State.stitchResult (s : State) (sid : Nat) (b : Option Bytes) : State :=
  match s.stitch? sid with
  | some _ =>
    match b with
    | some d => (s.modStitch sid fun t => { t.takeCodeword d with rebuilt := 2 }).finishStage sid
    | none => (s.modStitch sid fun t => { t with rebuilt := 3 }).retire sid 5 stLDH
  | none =>
    match s.rows.retired.find? fun p => p.1 == sid with
    | none => s
    | some (_, t) =>
      let s1 := s.modRows fun r => { r with retired := r.retired.filter fun p => p.1 != sid }
      match b with
      | some d => s1.modRows fun r => { r with waiting := r.waiting ++
          [{ t.takeCodeword d with rebuilt := 2, status := 0, errStage := 0, done := 2, tried := 0, redone := 0, rereads := 0 }] }
      | none => s1.modRows fun r => { r with retired := r.retired ++ [(sid, { t with rebuilt := 3 })] }

/-- Hand the results of reconstructions to what asked for them. A page of a tree, a journal or an index page comes with
the command that delivers it. -/
def State.takeResults (s : State) : State :=
  s.media.results.foldl (fun u p => match p.1 with
    | .stitchRead sid => u.stitchResult sid p.2
    | _ => u) (s.modMedia fun m => { m with results := [] })

end Sys2Proof.Machine
end

