-- ==== Sys2Proof/Machine/HoldOps.lean ====
section
/-! DEFINITION. Input loss and hold-up (16, with 03, 04, 08, 09, 23); as the operations that commands share. -/
namespace Sys2Proof.Machine

/-! ### Energy (R395) -/

/-- e_rem: the extractable energy at the mean of the latest samples, µJ. -/
def State.eRem (s : State) : Nat :=
  let l := s.ctl.vLast
  let n : Nat := l.length
  if n = 0 then s.extractable (s.ledgerV (s.fld F.CTL_BANK_V_VBANK_MV) s.ctl.meanI)
  else s.extractable (s.ledgerV ((l.foldl (fun a x => a + x.1) (0 : Int)).fdiv n) ((l.foldl (fun a x => a + x.2) (0 : Int)).fdiv n))

/-- Bytes of own dirty data not yet flushed. -/
def State.ownLeft (s : State) : Nat :=
  s.dirtyBytes - 4096 * (s.commit.staging.vals.filter fun g => !s.holds g.inst && g.dirty).length

def State.eOwn (s : State) : Nat := ceilDiv (s.ownLeft * s.flushCost) (2 ^ 30)
def State.eTail (s : State) : Nat := s.reserveMj * 1000

/-- Is there energy to start a mirror entry of n blocks? -/
def State.mirrorMayStart (s : State) (n : Nat) : Bool := decide (s.eTail + 2 * ceilDiv (4096 * n * s.flushCost) (2 ^ 30) ≤ s.eRem)

/-! ### The order of the flush (R395, R247) -/

/-- Is something of an instance still on its way to its superblocks: in the Rows, waiting for them, or in the own ring? -/
def State.flushing (s : State) (p : Nat → Bool) : Bool :=
  ((s.rows.stitches.vals ++ s.rows.waiting).any fun t => (t.cls == 0 || t.cls == 8) && p t.inst) ||
  (s.rows.retired.any fun r => (r.2.cls == 0 || r.2.cls == 8) && p r.2.inst) ||
  (s.commit.own.any fun e => p e.inst && !e.drained && (e.st == .complete || e.st == .localDone)) ||
  (s.ftl.toPlace.any fun x => p x.inst)

/-- Pad what the flush has partly filled, the journal page under fill first. -/
def State.padFlush (s : State) (p : Nat → Bool) : State :=
  let s1 := (List.range 2).foldl (fun t i => if p i then t.closeFill i else t) s
  (s1.ftl.open_.filter fun o => p o.inst && o.stream != 2).foldl (fun t o => t.padSb o.sb) s1

/-- Are all of an instance's blocks and record groups hardened? -/
def State.flushedAll (s : State) (p : Nat → Bool) : Bool :=
  !s.flushing p && !(s.commit.staging.vals.any fun g => p g.inst && !g.mirror && g.dirty) &&
  ((List.range 2).all fun i => !p i || (s.jnl i).groups.isEmpty)

/-- The own flush: once all is placed, what is partly filled is padded. -/
def State.ownFlushOn (s : State) : State :=
  if s.ctl.hold.phase ≠ 2 ∨ s.ctl.hold.stopped ∨ s.flushing s.holds then s else s.padFlush s.holds

/-! ### The hold-up record (R195) -/

/-- Mirror entries adopted and not flushed, by number. -/
def State.mirrorLeft (s : State) : List Nat :=
  sortBy (fun a b => decide (a ≤ b)) ((s.commit.staging.vals.filter fun g => !s.holds g.inst && !g.mirror && g.dirty).map (·.seq)).eraseDups

/-- Mirror entries owed: adopted ones, or those that the claims still keep from being adopted. -/
def State.owedCount (s : State) : Nat :=
  if !s.ctl.hold.partnerGone then 0
  else if s.ctl.hold.adopted then s.mirrorLeft.length + s.commit.mentries.length
  else s.commit.mentries.length +
    ((s.commit.staging.vals.filter fun g => g.mirror && g.inst == 1 - s.headId).map (·.seq)).eraseDups.length

/-- The record's bytes. -/
def State.holdRecord (s : State) (kind done left : Nat) : Bytes :=
  leBytes 1 kind ++ leBytes 1 0 ++ leBytes 2 (min 0xFFFF (s.eRem / 1000000)) ++ leBytes 4 done ++ leBytes 4 left ++ leBytes 4 0 ++
    leBytes 8 s.ctl.hold.stamp ++ leBytes 8 s.ctl.hold.dirty

/-! ### The mirror's flush (R94, R395, R492) -/

/-- Has the partner's instance a takeover reserve superblock, open or queued? -/
def State.hasReserve (s : State) : Bool :=
  let i := 1 - s.headId
  !(s.sbQueue i 4).isEmpty || (s.openFor i 4).isSome || (s.ftl.opening.any fun c => c.inst == i && c.stream == 4)

/-- The flush of mirror entries ends: what was flushed hardens, then the second anchor page is written. -/
def State.toTail (s : State) (cut : Bool) : State := s.modHold fun h => { h with phase := 4, cutShort := cut, anchorDue := h.adopted }

/-- Go on with the mirror entries: whole ones in rising order, one at a time, while energy allows. -/
def State.mirrorOn (s : State) : State :=
  let h := s.ctl.hold
  let other (i : Nat) : Bool := !s.holds i
  if h.phase ≠ 3 ∨ h.stopped ∨ !h.partnerGone then s
  else if !h.adopted then (if s.pairSt.claims.any fun c => c.for_ == .holdup then s else s.toTail true)
  else if (s.rows.stitches.vals.any fun t => other t.inst) || (s.rows.waiting.any fun t => other t.inst && h.started.contains t.seq) then s
  else
    match s.mirrorLeft.find? fun q => !h.started.contains q with
    | none => if s.flushedAll other ∧ s.commit.mentries.isEmpty then s.toTail false else s.padFlush other
    | some q =>
      let n := (s.commit.staging.vals.filter fun g => !s.holds g.inst && g.seq == q && !g.mirror).length
      if !s.hasReserve || !s.mirrorMayStart n then s.toTail true
      else s.modHold fun h => { h with started := h.started ++ [q] }

/-- In the tail: what was flushed of the mirror hardens, and the partner's anchor page is written. -/
def State.tailOn (s : State) : State :=
  let h := s.ctl.hold
  let i := 1 - s.headId
  if h.phase ≠ 4 ∨ h.stopped ∨ !h.anchorDue then s
  else
    let left := s.mirrorLeft
    let mine := (s.rows.waiting.any fun t => t.inst == i && h.started.contains t.seq) || (s.rows.stitches.vals.any fun t => t.inst == i)
    if mine then s
    else if !(s.jnl i).groups.isEmpty || (left.any h.started.contains) then s.padFlush fun k => k == i
    else
      let done := (h.started.filter fun q => !left.contains q).length
      let owed := left.length + s.commit.mentries.length
      (s.writeAnchor i (s.holdRecord (if owed = 0 then 1 else 2) done owed)).modHold fun h => { h with anchorDue := false }

/-- The schedule of R395, once per pip. -/
def State.holdSchedule (s : State) : State :=
  if s.ctl.hold.phase = 2 ∧ !s.ctl.hold.stopped then
    (if s.eRem < s.eOwn + s.eTail then s.setFld F.CTL_STATUS_SHORT_PREDICTED 1 else s).ownFlushOn
  else s.mirrorOn.tailOn

/-! ### Input loss (R394, R397, R59, R486) -/

/-- The mode without input loss; a failed bank keeps the converter OFF (R390). -/
def State.restMode (s : State) : Nat := if s.bankFailed then 0 else 1

/-- Input loss is detected. Before cast-on step 13 the converter stops; later it carries the bus. -/
def State.inputLost (s : State) : State :=
  let s1 := (s.setFld F.CTL_STATUS_INPUT_GOOD 0).raise F.CTL_ISR_RIDE
  if s.headState = stCastOn then (s1.setMode 0).dropTest
  else if s.headState = 0 ∨ 0 < s.ctl.hold.phase then s1
  else (((s1.setMode 5).cancelSwaps.takePhases).setFld F.CTL_INJ_CFG_EN 0).modHold fun h => { h with phase := 1 }

/-! ### Confirmation (R119, R231, R394) -/

/-- In-flight Stitches of other classes than 0x0 and 0x8 are cancelled. -/
def State.cancelStitches (s : State) : State :=
  (s.rows.stitches.filter fun p => p.2.cls != 0 && p.2.cls != 8).foldl (fun t p =>
    (t.modStitch p.1 fun x => { x with flags := x.flags ||| 0x80 }).retire p.1 3 p.2.stage) s

/-- What waits for the Rows waits as the flush: in commit order, as class 0x8. -/
def State.waitAsFlush (s : State) : State :=
  s.modRows fun r => { r with
    holdup := true
    waiting := (sortBy (fun a b => decide (a.seq ≤ b.seq)) (r.waiting.filter fun t => t.cls == 0)).map (fun t => { t with cls := 8, level := 1 }) ++
      r.waiting.filter fun t => t.cls != 0 }

/-- Queued programs of units that hold own data or records go on under HOLDUP. -/
def State.flagPrograms (s : State) : State :=
  s.modMedia fun m => { m with
    holdup := true
    queued := m.queued.map fun q => match q.2.purpose with
      | .program .. => if q.1 == 6 then (q.1, { q.2 with op := { q.2.op with flags := q.2.op.flags ||| 2 } }) else q
      | _ => q }

/-- The notice to every present module. -/
def State.holdNotice (s : State) : State :=
  s.presentMods.foldl (fun t m => t.issueOp { port := m, op := plainOp 6 0 0 0 0, purpose := .notice, data := [] }) s

/-- Ports, slots and idle cores lose power (R394 step 4); `idle` has a bit for each idle cluster. -/
def State.powerParts (s : State) (idle : Nat) : State :=
  let was := s.fld F.CRP_STATUS_CLUSTER
  let s1 := s.portsDown
  let s2 := (((s1.setFld F.CRP_STATUS_MOTIF 0).setFld F.CRP_STATUS_PCIE 0).setFld F.CRP_STATUS_FRONT_END 0).setFld F.CRP_STATUS_CLUSTER (was - (was &&& idle))
  s2.raise F.CRP_ISR_DOMAIN

/-- A staged version of a write that is discarded: the block's entry is again the one beneath it, and a Stitch of it that
is in the Rows brings nothing. -/
def State.dropStaged (s : State) (k : Nat) (g : Stg) : State :=
  let e := s.entryNow g.volume g.lba
  let s1 := if lmeKind e = 3 ∧ lmeId e = k ∧ g.prior ≠ priorUnknown then s.install g.volume g.lba g.prior 0 else s
  (s1.modRows fun r => { r with waiting := r.waiting.filter fun t => !(t.cls == 0 && t.staging == k) }).modStg k fun g =>
    { g with superseded := true, dirty := false, st := if g.st == .waiting && !(s.rows.stitches.vals.any fun t => t.cls == 0 && t.staging == k) then .dropped else g.st }

/-- Written-through writes whose record group is not built are discarded whole (R93), but for those that superseded data
which must survive (log entry 170); a group that is built goes on to its hardening. -/
def State.dropThrough (s : State) : State :=
  let s1 := (s.commit.own.filter fun e => e.writeThrough && !e.covers && !e.drained && (e.st == .complete || e.st == .localDone)).foldl
    (fun t e => t.abortEntry e.inst e.seq) s
  let lost (w : WtWait) : Bool := !w.covers && !((s1.stgOf w.inst w.seq).any fun p => p.2.built)
  let s2 := (s1.commit.wt.filter lost).foldl (fun t w => (t.stgOf w.inst w.seq).foldl (fun u p => u.dropStaged p.1 p.2) t) s1
  s2.modCommit fun c => { c with wt := c.wt.filter fun w => !lost w }

/-- Hold-up is confirmed. -/
def State.confirmHold (s : State) (idle : Nat) : State :=
  let nothing := s.ctl.hold.unseated || s.bankFailed || !s.inService
  let s0 := (((s.setMode 6).raise F.CTL_ISR_HU_CONFIRM).logEvent 5 0x04 0 (s.dirtyBytes / 4096)).setFld F.RPJ_CTRL_FREEZE 1
  let s1 := (s0.capTrigger 1).modHold fun h => { h with phase := if nothing then 4 else 2, stopped := nothing, stamp := s.stamp, dirty := s.dirtyBytes }
  let s2 := ({ s1 with repat := { s1.repat with running := false } }).stepAbandon false
  let s3 := if s2.headState = stHandover then s2.setHead stPlaying else s2
  let s4 := s3.cancelStitches.takeRetired.waitAsFlush.flagPrograms
  let s5 := (s4.commit.own.filter fun e => e.st == .reserved || e.st == .filling).foldl (fun t e => t.abortEntry e.inst e.seq) s4
  let s6 := s5.dropThrough.powerParts idle
  if s.ctl.hold.unseated then s6 else s6.holdNotice

/-- Is the own flush done (R394 steps 6 and 7)? -/
def State.ownFlushed (s : State) : Bool := s.ctl.hold.phase == 2 && !s.ctl.hold.stopped && s.flushedAll s.holds

/-- The anchor with the hold-up record, FLUSHED, and what follows. -/
def State.ownDone (s : State) : State :=
  let owed := s.owedCount
  let s1 := (List.range 2).foldl (fun t i => if t.holds i then t.writeAnchor i (s.holdRecord (if owed = 0 then 1 else 2) 0 owed) else t) s
  (s1.send .efmoFlushed).modHold fun h => { h with phase := if owed = 0 then 4 else 3 }

/-- May the head shut down: the flush has no program left that it waits for? -/
def State.mayShut (s : State) : Bool :=
  s.ctl.hold.phase == 4 && (s.ctl.hold.stopped || (!s.ctl.hold.anchorDue &&
    !(s.media.queued.any fun q => q.2.isProgram && bit q.2.op.flags 1) && !(s.media.out.any fun p => p.isProgram)))

/-- Step 10: keys zeroised, the converter OFF, the head in reset. -/
def State.shutDown (s : State) : State := (s.zeroise.inReset).modHold fun h => { h with phase := 5 }

end Sys2Proof.Machine
end

