-- ==== Sys2Proof/Machine/Holdup.lean ====
section
/-! DEFINITION. Hold-up's commands (16, 23). -/
namespace Sys2Proof.Machine

/-- SEATED_REMOVAL: SEATED_N has stayed high for 1 µs. -/
def execSeatedRemoval (s : State) : Result :=
  .next (
    let s1 := (s.modPins fun p => { p with unseated := true })
    if !s.pins.powered then s1
    else s1.live (
      let s2 := (s1.modHold fun h => { h with unseated := true }).inputLost
      if 2 ≤ s2.ctl.hold.phase ∧ s2.ctl.hold.phase < 5 then s2.modHold fun h => { h with phase := 4, stopped := true } else s2))

/-- INPUT_LOSS: INPUT_FAIL_N goes low, or with `droop` VBUS has been low for two samples. -/
def execInputLoss (droop : Bool) (s : State) : Result :=
  .next (
    if droop && decide (s.ctl.droop < 2) then s
    else
      let s1 := s.modPins fun p => { p with inputGood := false }
      if !s.pins.powered then s1 else s1.live (if s.flag F.CTL_STATUS_INPUT_GOOD then s1.inputLost else s1))

/-- INPUT_RETURN: a ride-through ends; a confirmed flush goes on. -/
def execInputReturn (s : State) : Result :=
  .next (
    let s1 := s.modPins fun p => { p with inputGood := true }
    if !s.pins.powered then s1
    else s1.live (if s.ctl.hold.unseated || s.flag F.CTL_STATUS_INPUT_GOOD then s1
    else
      let s2 := s1.setFld F.CTL_STATUS_INPUT_GOOD 1
      if s.ctl.hold.phase = 1 then
        ((s2.inc F.CTL_EVENTS_RIDES).setMode s2.restMode).modHold fun h => { h with phase := 0 }
      else if s.ctl.hold.phase = 0 ∧ s.headState = stCastOn ∧ 5 ≤ s.castStep then s2.setMode s2.restMode
      else s2))

/-- HOLDUP_CONFIRM: input loss has lasted RIDE_US; `idle` names the idle clusters. -/
def execHoldupConfirm (idle : Nat) (s : State) : Result := .next (s.live (if s.ctl.hold.phase = 1 then s.confirmHold (idle % 16) else s))

/-- HOLDUP_OWN_DONE. -/
def execHoldupOwnDone (s : State) : Result := .next (s.live (if s.ownFlushed then s.ownDone else s))

/-- HOLDUP_SHUTDOWN. -/
def execHoldupShutdown (s : State) : Result := .next (if s.pins.powered && s.mayShut then s.shutDown else s)

/-- HOLDUP_RESET_RELEASE: the head casts on from OFF, its straps latched afresh. -/
def execHoldupResetRelease (x : Straps) (s : State) : Result :=
  .next (if !s.pins.powered ∧ s.ctl.hold.phase = 5 ∧ s.pins.inputGood ∧ !s.pins.unseated then s.castOn x false else s)

/-- VMIN_REACHED: the converter stops at once; without input the keys go first (R367, R395). -/
def execVminReached (s : State) : Result :=
  .next (s.live (
    if s.mode ≠ 5 ∧ s.mode ≠ 6 then s
    else (if s.pins.inputGood then s else s.zeroise).setMode 0))

end Sys2Proof.Machine
end

