-- ==== Sys2Proof/Machine/Keys.lean ====
section
/-! DEFINITION. Keys and ciphers (15): the key commands, alarms, the DRBG, and the end of dual compute. -/
namespace Sys2Proof.Machine

/-! ### Key commands (R349, R350) -/

/-- Is a GCM slot named by a link whose STATE is not idle (R350)? -/
def State.linkUses (s : State) (slot : Nat) : Bool :=
  (List.range 64).any fun k =>
    let a := s.snpBase + 0x20080000 + 64 * k
    let st := s.rdN a 1
    decide (1 ≤ st) && decide (st ≤ 4) && s.rdN (a + 2) 2 % 1024 == slot - 0x2000

/-- Does a Stitch in flight name the slot? -/
def State.stitchUses (s : State) (slot : Nat) : Bool :=
  s.rows.stitches.any fun p =>
    (slotKind slot == .xts && p.2.keySlot == slot && [0, 1, 4, 5, 6, 8].contains p.2.cls) ||
    (slotKind slot == .gcm && p.2.gcmSlot == slot - 0x2000 && [5, 6].contains p.2.cls)

/-- Report the check value of a slot that holds a key (R351). -/
def State.reportCheck (s : State) (slot : Nat) : State :=
  match s.keyOf slot with
  | some k => s.setFld F.SEC_KEY_CHECK_KCV (keyCheck k)
  | none => s

/-- Start a key command with its OP and SLOT: refused from any requester but the Referee cores with code
0x1, after zeroisation with 0x8, for a slot of no kind with 0x2. -/
def State.keyStart (s : State) (who : Requester) (op slot : Nat) (run : State → State) : State :=
  s.startWith [(F.SEC_KEY_CMD_OP, op), (F.SEC_KEY_CMD_SLOT, slot)] (s.flag F.SEC_KEY_CMD_BUSY) fun t =>
    let u := t.resStart keyRes
    if who ≠ .referee then
      u.keyAnswer slot 1
    else if u.sec.zeroised then u.keyDone slot 8
    else if op ≤ 6 ∧ slotKind slot = .none then u.keyDone slot 2
    else run u

/-- Put a key into an EMPTY slot with the attributes of SEC_KEY_ATTR (LOAD). -/
def State.installKey (s : State) (slot : Nat) (key : Bytes) : State :=
  if slotKind slot = .xts ∧ key.take 32 = key.drop 32 then s.keyDone slot 9
  else
    let k : KeySlot :=
      { key := key, exhausted := false, version := s.fld F.SEC_KEY_ATTR_VERSION,
        exportable := s.flag F.SEC_KEY_ATTR_EXPORTABLE, counterIv := s.flag F.SEC_KEY_ATTR_COUNTER_IV,
        limLog2 := s.fld F.SEC_KEY_ATTR_GCM_LIMIT_LOG2 }
    let s1 := (s.setSlot slot k).setCount slot 0
    let s2 := if slot = 0x23FF then s1.modSec fun x => { x with sentInv := 0, gotInv := 0 } else s1
    (s2.reportCheck slot).keyDone slot 0

/-- The KEK that SEC_KEY_ATTR names. -/
def State.kekSlot (s : State) : Nat := 0x4000 + s.fld F.SEC_KEY_ATTR_KEK
def State.keyAddr (s : State) : Nat := s.base F.SEC_KEY_ADDR_LO_ADDR F.SEC_KEY_ADDR_HI_ADDR 3

/-- LOAD. -/
def execKeyLoad (who : Requester) (slot : Nat) (s : State) : Result :=
  .next (s.live (s.keyStart who 0 slot fun t =>
    if t.slotState slot ≠ 0 then t.keyDone slot 4
    else
      let n := keyLen slot / 4
      t.installKey slot ((List.range n).flatMap fun i => leBytes 4 (t.fld (F.SEC_KEY_WORD_KEY i)))))

/-- UNWRAP. -/
def execKeyUnwrap (who : Requester) (slot : Nat) (s : State) : Result :=
  .next (s.live (s.keyStart who 1 slot fun t =>
    if slotKind slot = .kek then t.keyDone slot 2
    else if t.slotState slot ≠ 0 then t.keyDone slot 4
    else match t.keyOf t.kekSlot with
      | none => t.keyDone slot 5
      | some kek => match keyUnwrap kek (t.rd t.keyAddr (keyLen slot + 8)) with
        | none => (t.inc F.SEC_AUTH_FAILS_UNWRAP).keyDone slot 3
        | some key => t.installKey slot key))

/-- GENERATE: the key is a draw of the DRBG, a free value. -/
def execKeyGenerate (who : Requester) (slot : Nat) (s : State) : Result :=
  .next (s.live (s.keyStart who 2 slot fun t =>
    if t.slotState slot ≠ 0 then t.keyDone slot 4
    else
      let (v, u) := t.free (8 * keyLen slot)
      (u.modSec fun k => { k with generates := k.generates + 1 }).installKey slot (leBytes (keyLen slot) v)))

/-- WRAP. -/
def execKeyWrap (who : Requester) (slot : Nat) (s : State) : Result :=
  .next (s.live (s.keyStart who 3 slot fun t =>
    if slotKind slot = .kek then t.keyDone slot 2
    else match t.slot? slot, t.keyOf t.kekSlot with
      | some k, some kek =>
        if k.exportable then (t.wr t.keyAddr (keyWrap kek k.key)).keyDone slot 0 else t.keyDone slot 5
      | _, _ => t.keyDone slot 5))

/-- Overwrite a slot: EMPTY, its count 0. -/
def State.clearSlot (s : State) (slot : Nat) : State :=
  ((s.modSec fun k => { k with slots := k.slots.del slot, clearing := none }).setCount slot 0).keyDone slot 0

/-- CLEAR: it waits, BUSY, for the Stitches that name the slot. -/
def execKeyClear (who : Requester) (slot : Nat) (s : State) : Result :=
  .next (s.live (s.keyStart who 4 slot fun t =>
    if slotKind slot = .xts ∧ slot % 2 = t.encPhase (slot / 2) then t.keyDone slot 0xA
    else if slotKind slot = .gcm ∧ t.linkUses slot then t.keyDone slot 0xA
    else if t.stitchUses slot then
      (t.modSec fun k => { k with clearing := some slot }).setFld F.SEC_KEY_CMD_BUSY 1
    else t.clearSlot slot))

/-- The CLEAR that waits completes once no Stitch in flight names its slot. -/
def execKeyClearRetired (s : State) : Result :=
  .next (s.live (match s.sec.clearing with
    | some slot => if s.stitchUses slot then s else s.clearSlot slot
    | none => s))

/-- QUERY. -/
def execKeyQuery (who : Requester) (slot : Nat) (s : State) : Result :=
  .next (s.live (s.keyStart who 5 slot fun t => (t.reportCheck slot).keyDone slot 0))

/-- SET_PHASE. -/
def execSetPhase (who : Requester) (slot : Nat) (s : State) : Result :=
  .next (s.live (s.keyStart who 6 slot fun t =>
    if slotKind slot ≠ .xts then t.keyDone slot 2
    else if !t.loaded slot then t.keyDone slot 6
    else (t.setEncPhase (slot / 2) (slot % 2)).keyDone slot 0))

/-- A reserved OP completes with code 0x7. -/
def execKeyReservedOp (who : Requester) (op slot : Nat) (s : State) : Result :=
  .next (s.live (s.keyStart who (max 7 op) slot fun t => t.keyDone slot 7))

/-! ### Alarms (R364-R366) -/

/-- An alarm source fires. -/
def execSecurityAlarm (source : Nat) (s : State) : Result := .next (s.live (s.alarm (source % 8)))

/-- SEC_ZEROISE.ZEROISE: from the Referee cores alone. -/
def execZeroiseRequest (who : Requester) (s : State) : Result :=
  .next (s.live (if who = .referee then s.alarm 6 else s))

/-! ### The DRBG (R370, R371) -/

def rngRes : Nat := 0x500054

/-- A request of the DRBG completes. -/
def State.rngDone (s : State) (out code : Nat) : State :=
  let s1 := (List.range 8).foldl (fun t n => t.setFld (F.SEC_RNG_OUT_DATA n) (out / 2 ^ (32 * n) % 2 ^ 32)) s
  (s1.resDone rngRes [(F.SEC_RNG_RESULT_CODE, code)]).raise F.SEC_ISR_RNG_DONE

/-- The DRBG reseeds. -/
def State.reseed (s : State) : State :=
  (s.modSec fun k => { k with generates := 0 }).inc F.SEC_RNG_HEALTH_RESEEDS

/-- Generate 256 bits, a free value; with `fails` a health test fails while the request runs. -/
def execRngGenerate (fails : Bool) (s : State) : Result :=
  .next (s.live (s.startWith [(F.SEC_RNG_CMD_OP, 0)] (s.flag F.SEC_RNG_CMD_BUSY) fun t =>
    let u := t.resStart rngRes
    if u.sec.zeroised then u.rngDone 0 2
    else if fails then u.rngDone 0 1
    else
      let (v, x) := u.free 256
      (x.modSec fun k => { k with generates := k.generates + 1 }).rngDone v 0))

/-- Reseed on request. -/
def execRngReseed (s : State) : Result :=
  .next (s.live (s.startWith [(F.SEC_RNG_CMD_OP, 1)] (s.flag F.SEC_RNG_CMD_BUSY) fun t =>
    let u := t.resStart rngRes
    if u.sec.zeroised then u.rngDone 0 2 else u.reseed.rngDone 0 0))

/-- A continuous health test fails: counted, the DRBG instantiated again; a second failure within 1,024
turns is alarm source 5. -/
def execDrbgHealthFailure (proportion : Bool) (s : State) : Result :=
  .next (s.live (
    let s1 := (s.inc (if proportion then F.SEC_RNG_HEALTH_APT_FAIL else F.SEC_RNG_HEALTH_RCT_FAIL)).raise F.SEC_ISR_RNG_HEALTH
    let again := s.sec.failedAt.any fun t => decide (s.turn < t + 1024)
    let s2 := s1.modSec fun k => { k with failedAt := some s.turn, generates := 0 }
    if again then s2.alarm 5 else s2))

/-- The DRBG reseeds after 2^20 requests, and when the count passes a multiple of 1,024 turns. -/
def execDrbgReseedDue (s : State) : Result :=
  .next (s.live (if 2 ^ 20 ≤ s.sec.generates ∨ s.taskDue taskDrbg 1024 then s.reseed.taskRan taskDrbg else s))

/-! ### Dual compute (R369) -/

/-- Does a pool run in dual compute now? -/
def State.dualNow (s : State) (pool : Nat) : Bool :=
  s.flag F.SEC_CTRL_DUAL_FORCE || decide (s.turn < (s.sec.dualUntil.get? pool).getD 0)

/-- The DUAL_TURNS of a pool have passed. -/
def execDualComputeEnd (pool : Nat) (s : State) : Result :=
  .next (s.live (match dualFld pool with
    | some f => s.setFlag f (s.dualNow pool)
    | none => s))

end Sys2Proof.Machine
end

