-- ==== Sys2Proof/Machine/CalOps.lean ====
section
/-! DEFINITION. Read references, their calibration, the LLR tables, and the die arbiters (09), as the operations that
commands share. -/
namespace Sys2Proof.Machine

/-! ### The calibration table (R240) -/

def State.ldcBase (s : State) : Nat := s.base F.LDC_TABLE_BASE_LO_BASE_LO F.LDC_TABLE_BASE_HI_BASE_HI 12
def State.calDie (s : State) (m d : Nat) : Nat := s.ldcBase + 512 * (m * 256 + d)
def State.calGroup (s : State) (m d g : Nat) : Nat := s.ldcBase + 8 * 2 ^ 20 + 128 * ((m * 256 + d) * 32 + g)

/-- A signed n-byte field. -/
def State.rdInt (s : State) (a n : Nat) : Int := signed (8 * n) (s.rdN a n)
def State.wrInt (s : State) (a n : Nat) (v : Int) : State := s.wrN a n (unsigned (8 * n) v)

/-- BASE of a reference, the pseudo-SLC one being reference 0, and its drift rate. -/
def State.calBaseAddr (s : State) (m d g k : Nat) : Nat := s.calGroup m d g + (if k = 0 then 0x1E else 2 * (k - 1))
def State.calRate (s : State) (m d k : Nat) : Nat := s.rdN (s.calDie m d + (if k = 0 then 0x011 else 0x002 + (k - 1))) 1

/-- FLAGS of a group entry: SAT, FLAGGED, NO_SAMPLE. -/
def State.calFlags (s : State) (m d g : Nat) : Nat := s.rdN (s.calGroup m d g + 0x22) 1
def State.setCalFlags (s : State) (m d g v : Nat) : State := s.wrN (s.calGroup m d g + 0x22) 1 v

/-! ### Offsets (R241) -/

/-- The latest TEMP of a die, where one came within 1,024 turns. -/
def State.freshTemp (s : State) (m d : Nat) : Option Int :=
  match (s.port m).temps.get? d with
  | some (t, at_) => if s.turn ≤ at_ + 1024 then some t else none
  | none => none

/-- The age term of a block: floor of log2 of 1 + age / 2^20. -/
def State.ageTerm (s : State) (member : Nat) : Option Nat :=
  (s.sbOfMember member).map fun sb => ilog2 (1 + (s.turn - s.sbOpenStamp sb / 1024) / 2 ^ 20)

/-- One OFFSETS byte before it is clamped. -/
def offsetOf (slope temp tCal : Int) (rate l lCal : Nat) (base : Int) : Int :=
  let t := roundEven (slope * (temp - tCal)) 256
  let r := -(rate : Int) * ((l : Int) - lCal)
  roundEven (base + t + r) 16

/-- The references of a read's page type, in ascending order. -/
def State.readRefs (s : State) (m mode page : Nat) : List Nat :=
  if mode = 1 then [0]
  else
    let mask := ((s.port m).page.map fun p => p.ptMask.getD (page % 4) 0).getD 0
    (List.range 15).filterMap fun k => if bit mask k then some (k + 1) else none

/-- The offsets of one read at a temperature and an age term, with those that clamped counted. -/
def State.offsetsAt (s : State) (m d g mode page : Nat) (temp : Int) (l : Nat) : List Int × State :=
  let raw := (s.readRefs m mode page).map fun k =>
    offsetOf (s.rdInt (s.calDie m d) 2) temp (s.rdInt (s.calGroup m d g + 0x20) 1) (s.calRate m d k) l (s.rdN (s.calGroup m d g + 0x21) 1)
      (s.rdInt (s.calBaseAddr m d g k) 2)
  let above := (raw.filter fun x => decide (x < -127) || decide (127 < x)).length
  let s1 := if above = 0 then s
    else (((s.setCalFlags m d g (s.calFlags m d g ||| 1)).inc F.LDC_EVENTS_OFFSET_SAT above).raise F.LDC_ISR_OFFSET_SAT)
  (raw.map fun x => clampInt x (-127) 127, s1)

/-- The offsets of a read by its address, a shift added. A block in no superblock has no age: the term is a free
value (log entry 3). -/
def State.readOffsets (s : State) (m mode addr : Nat) (temp shift : Int) : List Int × State :=
  let member := m * 2 ^ 22 + addr / 2 ^ 14 % 2 ^ 22
  let (l, s1) := match s.ageTerm member with
    | some l => (l, s)
    | none => s.free 6
  let p := s1.offsetsAt m (memberDie member) (member / 128 % 32) mode (addrPage addr) temp l
  (p.1.map fun x => clampInt (x + shift) (-127) 127, p.2)

/-! ### LLR tables (R238) -/

/-- floor(2 log2(hi / lo)), saturated at 7. -/
def llrMag (hi lo : Nat) : Nat := ((List.range 7).map (7 - ·)).find? (fun k => decide (lo * lo * 2 ^ k ≤ hi * hi)) |>.getD 0

def llrDefault (n z : Nat) : Int := (if n = 3 then [7, 2, -2, -7] else [7, 5, 1, -1, -5, -7]).getD z 0

/-- The LLR of a zone from its tallies. -/
def llrOf (n z n0 n1 minCount : Nat) : Int :=
  if n0 + n1 < minCount then llrDefault n z
  else if n1 ≤ n0 then (llrMag (n0 + 1) (n1 + 1) : Int) else -(llrMag (n1 + 1) (n0 + 1) : Int)

/-- The address of a zone's tallies in a die entry: zones 0 to 3 of n = 3, then 0 to 5 of n = 5. -/
def tallyAddr (die pt n z : Nat) : Nat := die + 0x060 + 80 * pt + 8 * (if n = 3 then z else 4 + z)
def llrAddr (die pt n z : Nat) : Nat := die + (if n = 3 then 0x020 + 4 * pt + z else 0x034 + 6 * pt + z)

/-- Recompute every LLR of a die. -/
def State.recomputeLlr (s : State) (m d : Nat) : State :=
  if s.flag F.LDC_LLR_CFG_FREEZE then s
  else
    let a := s.calDie m d
    (List.range 5).foldl (fun t pt =>
      ([(3, 0), (3, 1), (3, 2), (3, 3), (5, 0), (5, 1), (5, 2), (5, 3), (5, 4), (5, 5)] : List (Nat × Nat)).foldl (fun u p =>
        u.wrInt (llrAddr a pt p.1 p.2) 1
          (llrOf p.1 p.2 (s.rdN (tallyAddr a pt p.1 p.2) 4) (s.rdN (tallyAddr a pt p.1 p.2 + 4) 4) (s.fld F.LDC_LLR_CFG_MIN_COUNT))) t) s

/-- Add a soft decode's counts to a die's tallies, zone by zone (N0, N1); a table whose count reaches 2^24 is halved
and the LLRs are recomputed. -/
def State.addTally (s : State) (m d pt n : Nat) (counts : List (Nat × Nat)) : State :=
  let a := s.calDie m d
  let s1 := ((counts.take (n + 1)).zipIdx).foldl (fun t p =>
    (t.wrN (tallyAddr a pt n p.2) 4 (t.rdN (tallyAddr a pt n p.2) 4 + p.1.1)).wrN (tallyAddr a pt n p.2 + 4) 4
      (t.rdN (tallyAddr a pt n p.2 + 4) 4 + p.1.2)) s
  let above := (List.range (n + 1)).any fun z =>
    decide (2 ^ 24 ≤ s1.rdN (tallyAddr a pt n z) 4) || decide (2 ^ 24 ≤ s1.rdN (tallyAddr a pt n z + 4) 4)
  if above then
    ((List.range (n + 1)).foldl (fun t z =>
      (t.wrN (tallyAddr a pt n z) 4 (t.rdN (tallyAddr a pt n z) 4 / 2)).wrN (tallyAddr a pt n z + 4) 4
        (t.rdN (tallyAddr a pt n z + 4) 4 / 2)) s1).recomputeLlr m d
  else s1

/-! ### Decoding codewords (R236-R239) -/

/-- Bit-flip iterations with their substitution, and the hard decode of a read (R236). -/
def State.hardOut (s : State) (raw : Bytes) : LdpcOut := ldpcOut raw (hardDecode (max 1 (min 20 (s.fld F.LDC_HARD_CFG_MAX_ITER))) raw)

/-- A soft decode of a read and its extra reads with a die's table: its outcome, and whether a posterior saturated. -/
def State.softOut (s : State) (m d pt : Nat) (raw : Bytes) (extra : List Bytes) : LdpcOut × Bool :=
  let n := extra.length + 1
  let r := softDecode (max 1 (min 30 (s.fld F.LDC_SOFT_CFG_MAX_ITER))) raw extra fun z => s.rdInt (llrAddr (s.calDie m d) pt n z) 1
  (ldpcOut raw r.1, r.2)

/-- A soft decode is counted: saturated posteriors, and of a good one the zones of its bits (R238, R239). -/
def State.countSoftDecode (s : State) (m d pt : Nat) (raw : Bytes) (extra : List Bytes) (o : LdpcOut × Bool) : State :=
  let s1 := if o.2 then s.inc F.LDC_EVENTS_MSG_SAT else s
  match o.1 with
  | .ok _ b => s1.addTally m d pt (extra.length + 1) (zoneCounts raw extra (cwBits b))
  | .fail => s1

/-- SAMPLE of a page type. -/
def State.calSample (s : State) (m d g pt : Nat) : Nat := s.rdN (s.calGroup m d g + 0x30 + 8 * pt) 8

/-- The page type of a codeword's address in a superblock: 4 for pseudo-SLC. -/
def State.pageTypeIn (s : State) (sb : Option Nat) (loc : Nat) : Nat :=
  match sb with
  | some sb => if s.sbMode sb = 1 then addrPage loc % 4 else 4
  | none => 4

/-- A foreground read decoded a codeword: it is its group's sample for its page type (R240). -/
def State.noteCalSample (s : State) (pt loc : Nat) : State :=
  s.wrN (s.calGroup (addrModule loc) (addrDie loc) (addrBlock loc / 128 % 32) + 0x30 + 8 * pt) 8 (loc % 2 ^ 42)

/-- Δ with its substitution. -/
def State.softDelta (s : State) : Nat := max 1 (s.fld F.LDC_SOFT_CFG_DELTA)

/-- Issue the two reads of a codeword at a shift either way: foreground reads with SUSPEND_OK (R237). -/
def State.softPair (s : State) (loc : Nat) (p : Purpose) (shift : Int) : State :=
  let mode := match s.sbOfAddr loc with
    | some sb => s.readMode sb
    | none => 1
  [shift, -shift].foldl (fun u d =>
    u.queueOp 6 { port := addrModule loc, purpose := p, data := [], op := { plainOp 1 5 0 mode loc with cwMask := 2 ^ (loc % 4) }, shift := d }) s

/-- A codeword that a foreground reconstruction reads was decoded. -/
def State.reconSample (s : State) (sb stripe want loc : Nat) : State :=
  if (s.recon? sb stripe want).any fun r => r.budget == 6 then s.noteCalSample (s.pageTypeIn (some sb) loc) loc else s

/-- A codeword of a reconstruction came: LDH decodes it, or asks for the reads of LDS (R248 step 2). -/
def State.reconHard (s : State) (sb stripe want c : Nat) (raw : Bytes) : State :=
  let loc := s.cwLoc sb stripe c
  match s.hardOut raw with
  | .ok fixed b =>
    ((s.reconSample sb stripe want loc).countDecode (some sb) (addrModule loc) (addrDie loc) false (.ok fixed b)).modRecon sb stripe want fun r =>
      { r with good := r.good.put c (b.take 4224) }
  | .fail =>
    (s.softPair loc (.rebuildSoft sb stripe want c) s.softDelta).modRecon sb stripe want fun r => { r with soft := r.soft.put c [raw] }

/-- An extra read of such a codeword came: with the stage's reads at hand LDS decodes it, asks for two more, or gives it up. -/
def State.reconSoft (s : State) (sb stripe want c : Nat) (raw : Bytes) : State :=
  match (s.recon? sb stripe want).bind fun r => r.soft.get? c with
  | none => s
  | some l =>
    let l1 := l ++ [raw]
    let s1 := s.modRecon sb stripe want fun r => { r with soft := r.soft.put c l1 }
    if l1.length ≠ 3 ∧ l1.length ≠ 5 then s1
    else
      let loc := s.cwLoc sb stripe c
      let pt := s.pageTypeIn (some sb) loc
      let o := s1.softOut (addrModule loc) (addrDie loc) pt (l1.headD []) l1.tail
      let s2 := s1.countSoftDecode (addrModule loc) (addrDie loc) pt (l1.headD []) l1.tail o
      match o.1 with
      | .ok fixed b =>
        ((s2.reconSample sb stripe want loc).countDecode (some sb) (addrModule loc) (addrDie loc) true (.ok fixed b)).modRecon sb stripe want fun r =>
          { r with good := r.good.put c (b.take 4224), soft := r.soft.del c }
      | .fail =>
        if l1.length = 3 ∧ s.flag F.LDC_SOFT_CFG_FIVE_READS then s2.softPair loc (.rebuildSoft sb stripe want c) (2 * s.softDelta : Int)
        else
          ((s2.countDecode (some sb) (addrModule loc) (addrDie loc) true .fail).modRecon sb stripe want fun r => { r with soft := r.soft.del c }).substitute
            sb stripe want c

/-! ### Calibration (R242-R244) -/

/-- BASE after a probe. -/
def calStep (down up minErr deadband gain maxStep : Nat) (base : Int) : Int :=
  let d : Int := (up : Int) - down
  let n := up + down
  if n < minErr ∨ 16 * d.natAbs ≤ deadband * n then base
  else
    let mag := min (roundEven ((gain : Int) * d.natAbs) n) maxStep
    clampInt (base - d.sign * mag) (-2032) 2032

/-- The references of a page type, 4 being pseudo-SLC. -/
def State.typeRefs (s : State) (m pt : Nat) : List Nat := if pt = 4 then s.readRefs m 1 0 else s.readRefs m 0 pt

/-- Set FLAGGED of a group. -/
def State.flagGroup (s : State) (m d g : Nat) : State :=
  let f := s.calFlags m d g
  let s1 := s.setCalFlags m d g (f ||| 2)
  if bit f 1 then s1 else s1.raise F.LDC_ISR_CAL_FLAG

/-- Update the references of a page type from their probes. -/
def State.calUpdate (s : State) (m d g : Nat) (refs : List (Nat × Nat × Nat)) : State :=
  refs.foldl (fun t r =>
    t.wrInt (t.calBaseAddr m d g r.1) 2
      (calStep r.2.1 r.2.2 (t.fld F.LDC_CAL_CFG_MIN_ERR) (t.fld F.LDC_CAL_CFG_DEADBAND) (t.fld F.LDC_CAL_CFG_GAIN)
        (max 1 (t.fld F.LDC_CAL_CTRL_MAX_STEP)) (t.rdInt (t.calBaseAddr m d g r.1) 2))) s

/-- The bit errors of a reference's two reads against the decoded bits: with it moved down, and up. -/
def probeErrors (x : CwBits) (r : Nat × Bytes × Bytes) : Nat × Nat × Nat := (r.1, bitErrors (cwBits r.2.1) x, bitErrors (cwBits r.2.2) x)

/-- Go through the page types; the pass stops where LDH fails on a sample. -/
def State.calTypes (m d g : Nat) (probes : List CalProbe) : List Nat → State → State × Bool
  | [], s => (s, true)
  | pt :: rest, s =>
    if s.calSample m d g pt = 0 then State.calTypes m d g probes rest (s.setCalFlags m d g (s.calFlags m d g ||| 4))
    else
      match probes.find? fun p => p.ptype == pt with
      | none => (s, false)
      | some p =>
        match s.hardOut p.centre with
        | .fail => (s, false)
        | .ok fixed b =>
          let s1 := s.countDecode (s.sbOfMember (addrMember (s.calSample m d g pt))) m d false (.ok fixed b)
          State.calTypes m d g probes rest (s1.calUpdate m d g
            ((p.refs.filter fun x => (s.typeRefs m pt).contains x.1).map (probeErrors (cwBits b))))

/-- The age term of the oldest sample. -/
def State.oldestTerm (s : State) (m d g : Nat) : Nat :=
  ((List.range 5).filterMap fun pt =>
    if s.calSample m d g pt = 0 then none else s.ageTerm (addrMember (s.calSample m d g pt))).foldl max 0

/-- One calibration pass of a block group. -/
def State.calPass (s : State) (m d g : Nat) (probes : List CalProbe) : State :=
  let sat := bit (s.calFlags m d g) 0
  let s0 := s.setCalFlags m d g (s.calFlags m d g &&& 3)
  match State.calTypes m d g probes (List.range 5) s0 with
  | (s1, false) => ((s1.flagGroup m d g).inc F.LDC_EVENTS_CAL_ABORT).raise F.LDC_ISR_CAL_ABORT
  | (s1, true) =>
    let a := s1.calGroup m d g
    let s2 := match (s1.port m).temps.get? d with
      | some (t, _) => s1.wrInt (a + 0x20) 1 t
      | none => s1
    let s3 := ((s2.wrN (a + 0x21) 1 (s2.oldestTerm m d g)).wrN (a + 0x24) 4 (min (2 ^ 32 - 1) (s2.rdN (a + 0x24) 4 + 1))).wrN (a + 0x28) 8 s2.stamp
    let bound := (List.range 16).any fun k => (s3.rdInt (s3.calBaseAddr m d g k) 2).natAbs == 2032
    let s4 := if bound || sat then s3.flagGroup m d g else s3.setCalFlags m d g (s3.calFlags m d g &&& 0xFD)
    s4.setCalFlags m d g (s4.calFlags m d g &&& 0xFE)

/-! ### The die arbiter (R215, R233, R231, R254) -/

/-- DIE_DEPTH with its substitutions. -/
def State.dieDepth (s : State) : Nat := max 1 (min 4 (s.fld F.MED_CTRL_DIE_DEPTH))

/-- The die and the member block of an operation. -/
def PendOp.die (p : PendOp) : Nat := p.op.addr / 2 ^ 28 % 256
def PendOp.member (p : PendOp) : Nat := p.port * 2 ^ 22 + p.op.addr / 2 ^ 14 % 2 ^ 22
def PendOp.page (p : PendOp) : Nat := p.op.addr / 4 % 4096

/-- Does a program cover a page of a block? -/
def PendOp.programs (p : PendOp) (member page : Nat) : Bool :=
  p.isProgram && p.member == member && (if p.op.mode = 0 then p.page / 4 == page / 4 else p.page == page)

/-- Is a read one that the flush's programs need: the check of a superblock they open, a page or a journal page, the
codeword a block is compared or merged with (R231)? -/
def State.flushRead (s : State) (p : Purpose) : Bool :=
  let stitch (sid : Nat) : Bool := (s.rows.stitches ++ s.rows.retired).any fun q => q.1 == sid &&
    (q.2.verifyFor.isSome || q.2.asker.any fun a => s.commit.waiting.any fun w => w.inst == a.1 && w.seq == a.2 && w.cmd.op == .write)
  let one (p : Purpose) : Bool := match p with
    | .openCheck sb _ _ => s.ftl.opening.any fun c => c.sb == sb && (c.stream == 3 || c.stream == 4)
    | .mapRead .. | .indexRead .. | .journalRead .. => true
    | .stitchRead sid | .softRead sid => stitch sid
    | _ => false
  match p with
  | .rebuildRead sb stripe want _ => (s.recon? sb stripe want).any fun r => one r.purpose
  | q => one q

/-- May an operation start now: its port serves, hold-up lets it, no claim of its half is out, and the order of R233
holds? -/
def State.mayIssue (s : State) (p : PendOp) : Bool :=
  s.portUp p.port && s.modState p.port == modServing && !s.flag (F.MED_PORT_STATUS_POWER_WARN p.port) &&
  (!s.media.holdup || (p.isProgram && bit p.op.flags 1) || (p.op.opcode == 1 && s.flushRead p.purpose)) &&
  (!(p.isProgram || p.isErase) || !(s.pairSt.claims.any fun c => c.half == s.memberHalf p.member && c.waiting.contains p.port)) &&
  (if p.isErase then
    !((s.media.out.any fun q => q.op.opcode == 1 && q.member == p.member) || (s.media.queued.any fun q => q.2.op.opcode == 1 && q.2.member == p.member))
  else if p.op.opcode == 1 then
    !((s.media.out.any fun q => q.programs p.member p.page) || (s.media.queued.any fun q => q.2.programs p.member p.page))
  else true)

/-- The first of a list by kind: reads, then programs, then erases, each in arrival order. -/
def firstByKind (l : List PendOp) : Option PendOp :=
  match l.find? (·.isRead) with
  | some p => some p
  | none => match l.find? (·.isProgram) with
    | some p => some p
    | none => l.head?

/-- Issue an operation: a read gets its offsets; a program or erase the epoch its head now holds. -/
def State.startOp (s : State) (p : PendOp) (temp : Int) : State :=
  if p.op.opcode = 1 ∧ p.op.flags / 16 % 2 = 0 then
    let q := s.readOffsets p.port p.op.mode p.op.addr temp p.shift
    q.2.issueOp { p with op := { p.op with offsets := q.1 } }
  else if p.isProgram || p.isErase then
    s.issueOp { p with op := { p.op with epoch := if p.op.flags / 16 % 2 = 1 then 0 else s.epoch (s.memberHalf p.member) } }
  else s.issueOp p

/-- Remove one queued operation. -/
def State.unqueue (s : State) (b : Nat) (p : PendOp) : State := s.modMedia fun m => { m with queued := m.queued.erase (b, p) }

/-- One slot of a die arbiter. -/
def State.dieSlot (s : State) (m d : Nat) : State :=
  if s.dieDepth ≤ (s.media.out.filter fun p => p.port == m && p.die == d && p.op.opcode != 4).length then s
  else
    let l := s.media.queued.filter fun q => q.2.port == m && q.2.die == d && s.mayIssue q.2
    let stale := !s.media.holdup && (s.freshTemp m d).isNone
    if stale && l.any (fun q => q.2.op.opcode == 1) then
      if s.media.out.any fun p => p.port == m && p.die == d && p.op.opcode == 5 then s
      else
        (s.slotGiven (unitDie m d) (.budget 5)).issueOp
          { port := m, op := plainOp 5 0 0 0 (d * 2 ^ 28), purpose := .telemetry, data := [] }
    else
      let hu := l.filter fun q => bit q.2.op.flags 1
      let fg := l.filter fun q => q.1 == 6 && !bit q.2.op.flags 1
      match s.slotChoice (unitDie m d) (!hu.isEmpty) (!fg.isEmpty) ((List.range 6).filter fun b => l.any fun q => q.1 == b) with
      | none => s
      | some c =>
        let pool := match c with
          | .holdup => hu
          | .foreground => fg
          | .budget b => l.filter fun q => q.1 == b
        match firstByKind (pool.map (·.2)) with
        | none => s
        | some p =>
          match pool.find? fun q => q.2 == p with
          | none => s
          | some q => ((s.slotGiven (unitDie m d) c).unqueue q.1 p).startOp p ((s.freshTemp m d).getD 0)

end Sys2Proof.Machine
end

