-- ==== Sys2Proof/Machine/Codec.lean ====
section
/-! DEFINITION. The stream coder and decoder of slot-class compression, the slot class, the slot headers
and the frames (06). -/
namespace Sys2Proof.Machine

/-! ### The encoder (R147) -/

/-- The match search chain of a level (R104). -/
def chainOf (level : Nat) : Nat :=
  match level with
  | 1 => 4
  | 2 => 8
  | 3 => 16
  | 4 => 32
  | 5 => 64
  | 6 => 128
  | 7 => 256
  | 8 => 1024
  | _ => 4096

/-- The hash chains: an empty entry is 0xFFFF. -/
structure Chains where
  head : Array Nat
  prev : Array Nat

def Chains.empty : Chains := { head := Array.replicate 8192 0xFFFF, prev := Array.replicate 36864 0xFFFF }

/-- The 13-bit hash of the four bytes at q. -/
def chainHash (win : Array Nat) (q : Nat) : Nat :=
  let v := win.getD q 0 + 256 * win.getD (q + 1) 0 + 65536 * win.getD (q + 2) 0 + 16777216 * win.getD (q + 3) 0
  v * 0x9E3779B1 % 2 ^ 32 / 2 ^ 19

/-- Enter a position, where its four bytes lie before `stop`. -/
def Chains.insert (c : Chains) (win : Array Nat) (stop q : Nat) : Chains :=
  if q + 3 < stop then
    let h := chainHash win q
    { head := c.head.setIfInBounds h q, prev := c.prev.setIfInBounds q (c.head.getD h 0xFFFF) }
  else c

/-- Length of the common prefix at two positions, at most n. -/
def prefixLen (win : Array Nat) : Nat → Nat → Nat → Nat
  | 0, _, _ => 0
  | n + 1, a, b => if win.getD a 0 = win.getD b 0 then prefixLen win n (a + 1) (b + 1) + 1 else 0

/-- Walk a chain, keeping a candidate only if it is strictly longer: (length, distance). -/
def chainWalk (win prev : Array Nat) (p cap : Nat) : Nat → Nat → Nat × Nat → Nat × Nat
  | 0, _, best => best
  | n + 1, c, best =>
    if c = 0xFFFF then best
    else
      let l := prefixLen win cap c p
      chainWalk win prev p cap n (prev.getD c 0xFFFF) (if best.1 < l then (l, p - c) else best)

/-- The best match at p. -/
def Chains.best (c : Chains) (win : Array Nat) (stop level p : Nat) : Nat × Nat :=
  if stop ≤ p + 3 then (0, 0)
  else chainWalk win c.prev p (min 131 (stop - p)) (chainOf level) (c.head.getD (chainHash win p) 0xFFFF) (0, 0)

/-- Close the open literal run, newest byte first in `run`; `out` is newest first too. -/
def closeRun (run out : List Nat) : List Nat := if run.isEmpty then out else run ++ ((run.length - 1) :: out)

/-- The coding loop from position p. -/
def encodeLoop (win : Array Nat) (stop level : Nat) : Nat → Nat → Chains → List Nat → List Nat → List Nat
  | 0, _, _, run, out => closeRun run out
  | n + 1, p, c, run, out =>
    if stop ≤ p then closeRun run out
    else
      let m := c.best win stop level p
      let c1 := c.insert win stop p
      let len :=
        if 4 ≤ level ∧ 4 ≤ m.1 ∧ p + 1 < stop then (if m.1 < (c1.best win stop level (p + 1)).1 then 0 else m.1) else m.1
      if 4 ≤ len then
        let c2 := (List.range (len - 1)).foldl (fun c k => c.insert win stop (p + 1 + k)) c1
        encodeLoop win stop level n (p + len) c2 []
          ((m.2 - 1) / 256 :: (m.2 - 1) % 256 :: (0x80 + len - 4) :: closeRun run out)
      else
        let run1 := win.getD p 0 :: run
        if run1.length = 128 then encodeLoop win stop level n (p + 1) c1 [] (closeRun run1 out)
        else encodeLoop win stop level n (p + 1) c1 run1 out

/-- The chains of a dictionary: the chain image (R147). Its positions are those whose four bytes lie in
the dictionary (log entry 22). -/
def dictChains (dict : Bytes) : Chains :=
  let win := (dict.map BitVec.toNat).toArray
  (List.range dict.length).foldl (fun c q => c.insert win dict.length q) Chains.empty

/-- The bytes of a chain image: 8,192 head entries and 32,768 prev entries of two bytes (log entry 22). -/
def chainImage (dict : Bytes) : Bytes :=
  let c := dictChains dict
  c.head.toList.flatMap (leBytes 2) ++ (c.prev.toList.take 32768).flatMap (leBytes 2)

/-- The stream of a block under a dictionary and its TAG's low bits (R144, R147). -/
def encodeStream (level : Nat) (dict : Bytes) (check : Nat) (block : Bytes) : Bytes :=
  let win := ((dict ++ block).map BitVec.toNat).toArray
  let body := (encodeLoop win (dict.length + 4096) level 4096 dict.length (dictChains dict) [] []).reverse
  leBytes 2 (check % 4096 + 0x1000) ++ leBytes 2 (body.length + 4) ++ body.map (BitVec.ofNat 8)

/-! ### The decoder (R146, R161) -/

/-- Copy a match byte by byte. -/
def copyMatch : Nat → Nat → Array Byte → Array Byte
  | 0, _, win => win
  | n + 1, dist, win => copyMatch n dist (win.push (win.getD (win.size - dist) 0))

/-- Decode commands from pos to len: the error code, 0 for none, and the window. Of a command that breaks more than one of the
checks 0x05 to 0x07, the first in the order 0x07, 0x05, 0x06 is reported (DESIGN CHOICE, log entry 177). -/
def decodeCmds (s : Array Byte) (len dlen : Nat) : Nat → Nat → Array Byte → Nat × Array Byte
  | 0, _, win => (7, win)
  | n + 1, pos, win =>
    if pos = len then (if win.size = dlen + 4096 then 0 else 7, win)
    else
      let b := (s.getD pos 0).toNat
      if b < 0x80 then
        if len < pos + b + 2 then (7, win)
        else if dlen + 4096 < win.size + b + 1 then (6, win)
        else decodeCmds s len dlen n (pos + b + 2) ((List.range (b + 1)).foldl (fun w k => w.push (s.getD (pos + 1 + k) 0)) win)
      else if len < pos + 3 then (7, win)
      else
        let dist := (s.getD (pos + 1) 0).toNat + 256 * (s.getD (pos + 2) 0).toNat + 1
        let l := b - 0x80 + 4
        if win.size < dist then (5, win)
        else if dlen + 4096 < win.size + l then (6, win)
        else decodeCmds s len dlen n (pos + 3) (copyMatch l dist win)

/-- What the decoder knows of the dictionary a stored form names: unusable, or its bytes and its TAG. -/
inductive DictUse where
  | none
  | unusable
  | some (bytes : Bytes) (tag : Nat)
  deriving DecidableEq, Repr

def DictUse.bytes : DictUse → Bytes
  | .some b _ => b
  | _ => []

def DictUse.tag : DictUse → Nat
  | .some _ t => t
  | _ => 0

/-- Decode a stream in a stored form of n bytes: the code of R161 and the block. `frame` gives a frame's
STREAM_LEN and DICT_TAG. -/
def decodeStream (d : DictUse) (stored : Bytes) (frame : Option (Nat × Nat)) : Nat × Bytes :=
  let h := leNat (stored.take 2)
  let len := leNat (slice stored 2 2)
  let tag := d.tag
  if h / 4096 ≠ 1 then (1, [])
  else if d = .unusable then (3, [])
  else if h % 4096 ≠ tag % 4096 ∨ frame.any (fun f => f.2 != tag) then (2, [])
  else if len < 4 ∨ stored.length < len ∨ frame.any (fun f => f.1 != len) then (4, [])
  else
    let r := decodeCmds stored.toArray len d.bytes.length 4200 4 d.bytes.toArray
    if r.1 ≠ 0 then (r.1, [])
    else if (stored.drop len).any fun b => b != 0 then (8, [])
    else (0, (r.2.toList.drop d.bytes.length))

/-! ### Slot class and slot headers (R150, R152, R154) -/

/-- The class of a coded block. -/
def slotClassOf (maxClass len : Nat) : Nat :=
  let cls := (len + 511) / 512
  if 4096 < len ∨ maxClass < cls then 15 else cls

/-- The slot headers of a block: one for each slot, the guard in the first. -/
def slotHeaders (guardMasked cid gen cls : Nat) (slots : Nat) : Bytes :=
  (List.range slots).flatMap fun k =>
    leBytes 8 (if k = 0 then guardMasked else 0) ++
      leBytes 8 (cid % 2 ^ 44 + gen % 256 * 2 ^ 44 + cls % 16 * 2 ^ 52 + k * 2 ^ 56 + 2 ^ 60)

/-- Do the headers of a block's slots agree with its Content Record (R154)? Bit 59 is not among what the rule checks. -/
def headersOk (cid gen cls slots : Nat) (h : Bytes) : Bool :=
  (List.range slots).all fun k =>
    setBits (leNat (slice h (16 * k + 8) 8)) 59 59 0 == cid % 2 ^ 44 + gen % 256 * 2 ^ 44 + cls % 16 * 2 ^ 52 + k * 2 ^ 56 + 2 ^ 60

/-! ### Frames (R155) -/

/-- A frame: its header and the stream, or the block where it is raw. -/
def frameBytes (guard dict tag : Nat) (raw : Bool) (body : Bytes) : Bytes :=
  leBytes 8 guard ++ leBytes 2 body.length ++ leBytes 2 (if raw then 0x8000 + dict % 1024 else dict % 1024)
    ++ leBytes 4 tag ++ body

end Sys2Proof.Machine
end

