-- ==== Sys2Proof/Machine/DedupOps.lean ====
section
/-! DEFINITION. The fingerprint index, its page cache, lookups, the miss log and reference batches (05), as the
operations that commands share. -/
namespace Sys2Proof.Machine

/-! ### The index page cache (R128-R130) -/

/-- Pages of the cache, and its sets of eight. -/
def State.icachePages (s : State) : Nat := 2 ^ max 0x0C (min 0x18 (s.fld F.DDP_SIZES_ICACHE_LOG2))
def State.mlogEntries (s : State) : Nat := 2 ^ (s.fld F.DDP_SIZES_MLOG_LOG2 + 6)
def State.mlogBase (s : State) : Nat := s.ddpBase + 0x40000
def State.icacheAddr (s : State) (slot : Nat) : Nat := s.mlogBase + 64 * s.mlogEntries + 4096 * slot
def State.fetchMax (s : State) : Nat := max 1 (s.fld F.DDP_CTRL_FETCH_MAX)

/-- The index page of a fingerprint. -/
def State.indexPage (s : State) (i : Nat) (fp : Bytes) : Nat := leNat (fp.take 8) % 2 ^ s.indexLog2 i

/-- The cache slots of a page's set. -/
def State.icacheSet (s : State) (page : Nat) : List Nat := (List.range 8).map fun w => page % (s.icachePages / 8) * 8 + w

/-- The slot that holds a page. -/
def State.indexSlot (s : State) (i page : Nat) : Option Nat :=
  (s.icacheSet page).find? fun k => (s.ddp.lines.get? k).any fun l => l.inst == i && l.page == page

/-- A slot becomes the most recently used. -/
def State.touchIndex (s : State) (slot : Nat) : State :=
  s.modDdp fun d => { d with lru := slot :: d.lru.filter (· != slot) }
def State.dirtyIndex (s : State) (slot : Nat) : State :=
  s.modDdp fun d => { d with lines := d.lines.modify slot fun l => { l with dirty := true } }

/-- An empty index page. -/
def emptyIndexPage (i page : Nat) : Bytes := leBytes 8 (page % 2 ^ 63 + i % 2 * 2 ^ 63) ++ zeros 4088

/-- The CRC of an index page. -/
def indexCrc (b : Bytes) : Nat := crc32c (b.take 0x1C ++ b.drop 0x20)

/-- The page is written back through the metadata path (R130): the cached page is clean until it changes again. -/
def State.writeIndex (s : State) (slot : Nat) (l : IndexLine) : State :=
  let b := s.rd (s.icacheAddr slot) 4096
  let img := splice b 0x1C (leBytes 4 (indexCrc b))
  (s.modDdp fun d => { d with lines := d.lines.modify slot fun l => { l with dirty := false } }).place
    { inst := l.inst, stream := 3, need := 8, item := .page l.inst 3 0 l.page l.loc, payload := img, headers := metaHeaders 2 3 0 l.page img }

/-- Put a page in the cache: in an unused slot of its set, else in the place of the least recently used one, which
is written back where it has changed. -/
def State.installIndex (s : State) (i page loc : Nat) (b : Bytes) : State :=
  let set := s.icacheSet page
  let slot := match set.find? fun k => !s.ddp.lines.has k with
    | some k => k
    | none => (s.ddp.lru.reverse.find? fun k => set.contains k).getD (set.headD 0)
  let s1 := match s.ddp.lines.get? slot with
    | some l => if l.dirty then s.writeIndex slot l else s
    | none => s
  ((s1.wr (s.icacheAddr slot) b).modDdp fun d => { d with lines := d.lines.put slot { inst := i, page := page, dirty := false, loc := loc } }).touchIndex slot

/-! ### Fetches (R130) -/

/-- Issue the read of a queued fetch where the directory pages on its way are cached; a page with no image needs none. -/
def State.issueIndex (s : State) (f : IndexFetch) : State :=
  let set (t : State) (loc : Nat) : State :=
    t.modDdp fun d => { d with fetches := d.fetches.map fun g => if g == f then { g with issued := true, loc := loc } else g }
  if f.issued then s
  else match s.walk f.inst 3 0 f.page with
    | .miss 0 _ loc => (set s loc).readCodeword 2 loc (.indexRead f.inst f.page)
    | .miss level ident loc => s.waitPage f.inst 3 level ident loc [] []
    | _ => set s 0

/-- Issue the reads of the fetches that can go on. -/
def State.pumpIndex (s : State) : State := s.ddp.fetches.foldl State.issueIndex s

/-- Queue the fetch of a page, unless it is under way or FETCH_MAX are: then the request is dropped. -/
def State.fetchIndex (s : State) (i page : Nat) : State :=
  if s.ddp.fetches.any (fun f => f.inst == i && f.page == page) || decide (s.fetchMax ≤ s.ddp.fetches.length) then s
  else
    let f : IndexFetch := { inst := i, page := page, issued := false, loc := 0 }
    (s.modDdp fun d => { d with fetches := d.fetches ++ [f] }).issueIndex f

/-- An index page is bad: its entries are discarded (R129). -/
def State.indexCorrupt (s : State) : State := (s.inc F.DDP_EVENTS_C_CORRUPT_RECORD).raise F.DDP_ISR_CORRUPT

/-- The read of a page has ended: with its bytes, or with none where it has no image or could not be read. -/
def State.indexFetched (s : State) (i page : Nat) (b : Option Bytes) : State :=
  match s.ddp.fetches.find? fun f => f.inst == i && f.page == page with
  | none => s
  | some f =>
    let s1 := s.modDdp fun d => { d with fetches := d.fetches.filter fun g => !(g.inst == i && g.page == page) }
    match b with
    | some x =>
      if leNat (slice x 0x1C 4) = indexCrc x then s1.installIndex i page f.loc x
      else s1.indexCorrupt.installIndex i page f.loc (emptyIndexPage i page)
    | none => s1.installIndex i page f.loc (emptyIndexPage i page)

/-! ### Entries (R128, R129) -/

/-- An index entry as it lies in its page. -/
structure IndexEntry where
  k      : Nat
  cid    : Nat
  domain : Nat
  gen    : Nat
  deriving DecidableEq, Repr

def State.entryAddr (s : State) (slot k : Nat) : Nat := s.icacheAddr slot + 0x20 + 32 * k

/-- The entries of a page that a test of their fingerprint bytes and domain passes, in entry order; an entry of
zeros is empty. -/
def State.indexEntries (s : State) (slot : Nat) (p : Bytes → Nat → Bool) : List IndexEntry :=
  (List.range 127).filterMap fun k =>
    let b := s.rd (s.entryAddr slot k) 32
    let v := leNat (b.drop 24)
    if (b.any fun x => x != 0) && p (b.take 24) (bits v 55 44) then some { k := k, cid := bits v 43 0, domain := bits v 55 44, gen := bits v 63 56 }
    else none

/-- The entries of a fingerprint in a domain. -/
def State.matching (s : State) (slot : Nat) (fp : Bytes) (domain : Nat) : List IndexEntry :=
  s.indexEntries slot fun f d => f == fp.drop 8 && d == domain

/-- Remove an entry. -/
def State.removeEntry (s : State) (slot k : Nat) : State :=
  ((s.wr (s.entryAddr slot k) (zeros 32)).wrN (s.icacheAddr slot + 8) 1 (s.rdN (s.icacheAddr slot + 8) 1 - 1)).dirtyIndex slot

/-- Insert an entry at NEXT, over the oldest one where the page is full. -/
def State.insertEntry (s : State) (slot : Nat) (fp : Bytes) (domain cid gen : Nat) : State :=
  let a := s.icacheAddr slot
  let k := s.rdN (a + 9) 1 % 127
  let was := (s.rd (s.entryAddr slot k) 32).any fun x => x != 0
  let s1 := s.wr (s.entryAddr slot k) (fp.drop 8 ++ leBytes 8 (cid % 2 ^ 44 + domain % 4096 * 2 ^ 44 + gen % 256 * 2 ^ 56))
  ((s1.wrN (a + 8) 1 (if was then s.rdN (a + 8) 1 else s.rdN (a + 8) 1 + 1)).wrN (a + 9) 1 ((k + 1) % 127)).dirtyIndex slot

/-! ### The miss log (R132) -/

/-- Log a miss with its reason; a full ring drops the entry. -/
def State.logMiss (s : State) (t : Stitch) (reason : Nat) : State :=
  let n := s.mlogEntries
  let k := s.fld F.DDP_MLOG_TAIL_TAIL
  let next := (k + 1) % n
  if next = s.fld F.DDP_MLOG_HEAD_HEAD % n then (s.inc F.DDP_EVENTS_B_LOG_DROPS).raise F.DDP_ISR_MLOG_FULL
  else
    (s.wr (s.mlogBase + 64 * k) (t.fp ++ leBytes 8 (t.cid % 2 ^ 44 + t.gen % 256 * 2 ^ 44) ++ leBytes 8 t.lba ++ leBytes 2 t.volume ++
      leBytes 2 t.domain ++ leBytes 1 reason ++ zeros 3 ++ leBytes 8 s.stamp)).setFld F.DDP_MLOG_TAIL_TAIL next

/-! ### Lookups (R123, R131) -/

/-- Does the domain take part: DEDUP_EN set, and the key version of its entry that of the key store? -/
def State.dedupOn (s : State) (d : Nat) : Bool :=
  bit (s.domConfig d) 0 && (s.slot? (0x3000 + d)).any fun k => k.version == s.rdN (s.domAddr d + 1) 1

/-- What the search of a cached page gives. -/
inductive Found where
  | candidate (cid : Nat) (r : Rec)
  | twin
  | uncached (cid : Nat)
  | none
  deriving DecidableEq, Repr

/-- Search the entries of a fingerprint in order: stale ones are removed and counted, a twin's is kept. For class 4 a
PENDING record is no candidate and the search goes on. -/
def State.search (s : State) (t : Stitch) (slot : Nat) : List IndexEntry → State × Found
  | [] => (s, .none)
  | e :: rest =>
    let stale (u : State) : State × Found :=
      ((u.removeEntry slot e.k).inc F.DDP_EVENTS_B_STALE).search t slot rest
    match s.rawRec? e.cid with
    | none => (s, .uncached e.cid)
    | some raw =>
      let r := recOf raw
      let same := r.domain == t.domain && r.gen == e.gen && r.fold == fold16 t.guard
      if r.state = 3 ∨ (9 ≤ r.cls ∧ r.cls ≤ 14) ∨ (r.cls = 0 ∧ r.state = 2) ∨ recReserved raw then
        s.indexCorrupt.search t slot rest
      else if r.state = 0 ∨ !same then stale s
      else if r.state = 1 then (if t.cls = 4 then s.search t slot rest else (s, .twin))
      else (s, .candidate e.cid r)

/-- Remove the entries of a domain from a page. -/
def State.purgeDomain (s : State) (slot d : Nat) : State :=
  (s.indexEntries slot fun _ x => x == d).foldl (fun u e => u.removeEntry slot e.k) s

/-- Count a lookup of classes 0 and 6 (R143). -/
def State.countLookup (s : State) (t : Stitch) : State :=
  if t.cls = 4 then s
  else (s.count64 F.DDP_LOOKUPS_LO_COUNT F.DDP_LOOKUPS_HI_COUNT F.DDP_STAT_WRAPS_LOOKUPS_WRAPS).domAdd t.domain 0x08 1

def State.countDup (s : State) (t : Stitch) : State :=
  if t.cls = 4 then s
  else (s.count64 F.DDP_DUPS_LO_COUNT F.DDP_DUPS_HI_COUNT F.DDP_STAT_WRAPS_DUPS_WRAPS).domAdd t.domain 0x10 1

/-! ### Ends of a lookup (R132, R134, R135) -/

/-- Is a content id to be had for a Stitch? -/
def State.cidFor (s : State) (sid : Nat) : Bool := (s.stitch? sid).all fun t => (s.takeCid t.inst).isSome

/-- No id is left: the Stitch waits at the head of its DX queue (R179). -/
def State.noCid (s : State) (sid reason : Nat) : State :=
  (match s.stitch? sid with
   | some t => ((s.freeEngine sid).modStitch sid fun t => { t with parked := none, cand := none, waitsPage := false, waitsCid := some reason }).enterStage sid
       t.row t.stage true
   | none => s).raise F.FTL_ISR_CID_EXHAUSTED

/-- New content for an inline Stitch; it goes on to the stage after DX. `log` is the reason logged. -/
def State.newBlock (s : State) (sid : Nat) (log : Option Nat) : State :=
  if !s.cidFor sid then s.noCid sid (log.getD 0)
  else
  let s1 := (s.newContent sid).modStitch sid fun t => { t with parked := none, cand := none, waitsPage := false, waitsCid := none }
  let s2 := match log, s1.stitch? sid with
    | some r, some t => s1.logMiss t r
    | _, _ => s1
  s2.finishStage sid

/-- A class 4 lookup ends with no other content: status 1. -/
def State.backgroundDone (s : State) (sid : Nat) : State :=
  (s.modStitch sid fun t => { t with parked := none, cand := none, waitsPage := false, done := t.done ||| 2 ^ (stDX - 1) }).retire sid 1 0

/-- A hit: the reference is taken, the Stitch leaves with STATUS 0x02; a rejected increment makes new content. -/
def State.hit (s : State) (sid cid gen : Nat) : State :=
  match s.stitch? sid, s.rec? cid with
  | some t, some r =>
    match s.refApply cid (some gen) false r with
    | (s1, true) => if t.cls = 4 then s1.backgroundDone sid else s1.newBlock sid none
    | (s1, false) =>
      ((s1.countDup t).modStitch sid fun t =>
        { t with cid := cid, gen := gen, flags := t.flags ||| 8, done := t.done ||| 2 ^ (stDX - 1), parked := none, cand := none, waitsPage := false }).retire sid 2 0
  | some t, none => if t.cls = 4 then s.backgroundDone sid else s.newBlock sid none
  | none, _ => s

/-- Stitches parked in verify slots. -/
def State.verifying (s : State) : Nat := (s.rows.stitches.filter fun p => p.2.parked.isSome).length

/-- A Stitch leaves the index unit and waits beside the queue, for its candidate or for a page. -/
def State.leaveUnit (s : State) (sid : Nat) (f : Stitch → Stitch) : State := (s.freeEngine sid).modStitch sid f

/-- Park a Stitch on a candidate and read the candidate's plaintext: from staging where it is there, else by an
internal read (R134). -/
def State.parkVerify (s : State) (sid cid : Nat) (r : Rec) : State :=
  match s.stitch? sid with
  | none => s
  | some t =>
    match s.commit.staging.vals.find? fun g => g.content == some cid && !g.poisoned && g.mask == 0xFF with
    | some g => s.leaveUnit sid fun t => { t with parked := some cid, parkedGen := r.gen, cand := some (some g.data) }
    | none =>
      (s.leaveUnit sid fun t => { t with parked := some cid, parkedGen := r.gen, cand := none }).modRows fun x => { x with waiting := x.waiting ++
        [{ cls := 1, lba := t.lba, volume := t.volume, domain := r.domain, dict := r.dict, keySlot := 2 * r.domain + r.phase,
           stored := if r.cls = 15 then 4096 else 512 * r.cls, slotClass := r.cls, cid := cid, gen := r.gen, slot := r.slot,
           loc := r.addr, inst := t.inst, ready := false, verifyFor := some sid }] }

/-- A candidate is found: a hit, or with VERIFY set the compare comes first. -/
def State.candidateFound (s : State) (sid : Nat) (t : Stitch) (cid : Nat) (r : Rec) : State :=
  if !bit t.flags 2 then s.hit sid cid r.gen
  else if s.verifying < 256 then s.parkVerify sid cid r
  else if t.cls = 4 then s.backgroundDone sid
  else s.newBlock sid (some 4)

/-- New content whose entry goes into the cached page of its fingerprint. -/
def State.insertNew (s : State) (sid : Nat) (slot : Option Nat) : State :=
  if !s.cidFor sid then s.noCid sid 5
  else
    let s1 := (s.newContent sid).modStitch sid fun t => { t with waitsCid := none }
    match s1.stitch? sid, slot with
    | some t, some k => (s1.insertEntry k t.fp t.domain t.cid t.gen).finishStage sid
    | _, _ => s1.finishStage sid

/-- The inline lookup of classes 0 and 6 (R132). Where the domain takes no part and the page is not cached, the block is new
content with neither a fetch nor a miss-log entry (DESIGN CHOICE, log entry 179). -/
def State.inlineLookup (s : State) (sid : Nat) (t : Stitch) : State :=
  let s1 := s.countLookup t
  let page := s.indexPage t.inst t.fp
  match s1.indexSlot t.inst page with
  | none =>
    if s.dedupOn t.domain then (s1.fetchIndex t.inst page).newBlock sid (some 1) else s1.newBlock sid none
  | some slot =>
    let s2 := s1.touchIndex slot
    if !s.dedupOn t.domain then (s2.purgeDomain slot t.domain).newBlock sid none
    else
      match s2.search t slot (s2.matching slot t.fp t.domain) with
      | (s3, .candidate cid r) => s3.candidateFound sid t cid r
      | (s3, .twin) => (s3.inc F.DDP_EVENTS_A_TWINS).newBlock sid (some 3)
      | (s3, .uncached _) => s3.newBlock sid (some 2)
      | (s3, .none) => s3.insertNew sid (some slot)

/-- The lookup of class 4 waits for the pages it needs (R135). -/
def State.backgroundLookup (s : State) (sid : Nat) (t : Stitch) : State :=
  let page := s.indexPage t.inst t.fp
  let wait (u : State) : State := u.leaveUnit sid fun t => { t with waitsPage := true }
  let waitRec (u : State) (cid : Nat) : State :=
    match u.walk (cidInst cid) 2 0 (cidLeaf cid) with
    | .miss level ident loc => wait (u.waitPage (cidInst cid) 2 level ident loc [] [.stitch sid])
    | _ => u.backgroundDone sid
  match s.indexSlot t.inst page with
  | none => wait (s.fetchIndex t.inst page)
  | some slot =>
    let s1 := s.touchIndex slot
    if !s.dedupOn t.domain then (s1.purgeDomain slot t.domain).backgroundDone sid
    else
      match s1.search t slot (s1.matching slot t.fp t.domain) with
      | (s2, .uncached cid) => waitRec s2 cid
      | (s2, .candidate cid r) => if cid = t.cid then s2.backgroundDone sid else s2.candidateFound sid t cid r
      | (s2, _) =>
        match s2.rec? t.cid with
        | none => waitRec s2 t.cid
        | some r =>
          if r.state = 2 ∧ r.domain = t.domain then (s2.insertEntry slot t.fp t.domain t.cid r.gen).backgroundDone sid else s2.backgroundDone sid

/-- Look a Stitch up at DX. -/
def State.lookupDx (s : State) (sid : Nat) (t : Stitch) : State :=
  match t.waitsCid with
  | some 5 => s.insertNew sid (s.indexSlot t.inst (s.indexPage t.inst t.fp))
  | some r => s.newBlock sid (if r = 0 then none else some r)
  | none => if t.cls = 4 then s.backgroundLookup sid t else s.inlineLookup sid t

/-- The compare of a parked Stitch whose candidate's read has ended (R134). It stays parked while the page with its
candidate's record is fetched, where that has left the cache meanwhile. -/
def State.verifyEnd (s : State) (sid : Nat) : State :=
  match s.stitch? sid with
  | none => s
  | some t =>
    match t.parked, t.cand with
    | some cid, some d =>
      let fail (u : State) : State := if t.cls = 4 then u.backgroundDone sid else u.newBlock sid none
      match d with
      | none => fail s
      | some b =>
        if b = t.data then match s.recMissing cid with
          | some (level, ident, loc) => s.waitPage (cidInst cid) 2 level ident loc [] []
          | none => s.hit sid cid t.parkedGen
        else fail ((s.inc F.DDP_EVENTS_A_VERIFY_MISMATCH).raise F.DDP_ISR_VERIFY_MISMATCH)
    | _, _ => s

/-! ### Reference batches (R137, R140) -/

def refopRes : Nat := 0xA0002C

/-- A batch ends with its count of rejected descriptors. -/
def State.batchDone (s : State) (failed : Nat) : State :=
  (((s.modDdp fun d => { d with batch := none }).setFld F.DDP_REFOP_CTRL_BUSY 0).resDone refopRes
    [(F.DDP_REFOP_RESULT_FAILED, min 0xFFFF failed)]).raise F.DDP_ISR_REFOP_DONE

/-- Journal the changed Content Records of a batch, instance by instance. -/
def State.batchFlush (s : State) (recs : List (Nat × JRec)) : State :=
  let of (i : Nat) : List JRec := (recs.filter fun p => p.1 == i).map (·.2)
  (s.buildGroup 0 (of 0)).buildGroup 1 (of 1)

/-- Go on with a batch from a descriptor until a content page is missing or the last one is done; `recs` are the
records of the changes so far that no group has taken. -/
def State.batchRun (at_ count : Nat) : Nat → Nat → Nat → List (Nat × JRec) → State → State
  | 0, _, failed, recs, s => (s.batchFlush recs).batchDone failed
  | n + 1, k, failed, recs, s =>
    let a := at_ + 8 * k
    let d := s.rdN a 8
    let cid := bits d 43 0
    let i := cidInst cid
    let reject (t : State) : State := State.batchRun at_ count n (k + 1) (failed + 1) recs (t.wrN a 8 (d % 2 ^ 63 + 2 ^ 63))
    if bits d 53 52 ≥ 2 ∨ bits d 62 54 ≠ 0 then reject s
    else match s.walk i 2 0 (cidLeaf cid) with
      | .miss level ident loc =>
        ((s.batchFlush recs).waitPage i 2 level ident loc [] []).modDdp fun x => { x with batch := some { next := k, failed := failed, addr := at_, count := count } }
      | _ =>
        match s.rec? cid with
        | none => reject ((s.inc F.DDP_EVENTS_C_REF_REJECTS).raise F.DDP_ISR_REF_REJECT)
        | some r =>
          let dec := bits d 53 52 == 1
          let p := s.refApply cid (some (bits d 51 44)) dec r
          if p.2 then reject p.1
          else
            let now : List JRec := .content cid ((p.1.rawRec? cid).getD 0) :: (if dec && r.refs == 1 then p.1.dictRecs r.dict i else [])
            let all := recs ++ now.map fun x => (i, x)
            if 128 ≤ all.length then State.batchRun at_ count n (k + 1) failed [] (p.1.batchFlush all) else State.batchRun at_ count n (k + 1) failed all p.1

/-- Carry a batch on. -/
def State.batchOn (s : State) : State :=
  match s.ddp.batch with
  | some b => State.batchRun b.addr b.count (b.count - b.next) b.next b.failed [] s
  | none => s

end Sys2Proof.Machine
end

