-- ==== Sys2Proof/Machine/StageOps.lean ====
section
/-! DEFINITION. Admission and the work of each stage of a Row (04, 05, 06, 09, 13, 15), as the operations that commands
share. -/
namespace Sys2Proof.Machine

/-! ### The submission ring (R108-R110) -/

/-- A Stitch of the submission ring, its fields masked to their widths. -/
def stitchOf (b : Bytes) : Stitch :=
  let n (off len : Nat) : Nat := leNat (slice b off len)
  { cls := n 0x20 1 % 16, lba := n 0x08 8, guard := n 0x10 8, volume := n 0x1C 2, domain := n 0x1E 2 % 4096, level := n 0x21 1 % 16,
    flags := n 0x22 2, dict := n 0x24 2 % 1024, keySlot := n 0x2C 2 % 8192, stored := n 0x2E 2, slotClass := n 0x30 1 % 16,
    stripe := n 0x34 4, cid := n 0x38 8 % 2 ^ 44, cw := n 0x60 1, slot := n 0x61 1 % 8, gcmSlot := n 0x62 2 % 1024, ring := true }

/-- Does the head refuse a descriptor of the ring with STATUS 0x06? -/
def ringRefused (b : Bytes) : Bool :=
  let n (off len : Nat) : Nat := leNat (slice b off len)
  let t := stitchOf b
  !(decide (2 ≤ t.cls) && decide (t.cls ≤ 6)) || t.level == 0 || decide (10 ≤ t.level) ||
  n 0x1E 2 / 4096 != 0 || n 0x20 1 / 16 != 0 || n 0x21 1 / 16 != 0 || decide (0x100 ≤ t.flags) || n 0x24 2 / 1024 != 0 || n 0x26 2 / 4096 != 0 ||
  n 0x2C 2 / 8192 != 0 || n 0x30 1 / 16 != 0 || n 0x38 8 / 2 ^ 44 != 0 || n 0x61 1 / 8 != 0 || n 0x62 2 / 1024 != 0 ||
  ((slice b 0x70 15).any fun x => x != 0) || n 0x7F 1 / 2 != 0

/-! ### Admission (R110-R112, R359, R361, R362) -/

/-- The first stage a Stitch enters. -/
def State.firstStage (s : State) (t : Stitch) : Option Nat :=
  (s.pathOf t).find? fun k => !(k == stLDH && t.rebuilt == 2)

/-- The binding of a volume (R416): its group's leader and MODE. -/
def State.mtfBase (s : State) : Nat := s.base F.MTF_REGION_BASE_LO_ADDR F.MTF_REGION_BASE_HI_ADDR 20
def State.bindAddr (s : State) (vol : Nat) : Nat := s.mtfBase + 0x2000 + 4 * vol
def State.bindingOf (s : State) (vol : Nat) : Option (Nat × Nat) :=
  let w := s.rdN (s.bindAddr vol) 4
  if bit w 3 then some (w % 8, bits w 6 4) else none

/-- Does a Row of a Stitch's class have an MT stage? -/
def State.rowHasMt (s : State) (n : Nat) : Bool := (s.stageOf n stMT).isSome

/-- A Stitch takes its volume's binding at admission; where no Row of its class has an MT stage it takes none. -/
def State.withBinding (s : State) (t : Stitch) : Stitch :=
  if t.rebuilt = 2 ∨ !(t.cls = 0 ∨ t.cls = 1) ∨ t.verifyFor.isSome then t
  else
    let has := (List.range s.pattern.rows.length).any fun n => s.rowHasMt n && (s.rowOf n).any fun r => r.classes.contains t.cls
    { t with mt := if has then s.bindingOf t.volume else none }

/-- The Row that takes a Stitch: one that serves its class with a free entry in the first stage's queue, the fewest
Stitches in flight, the lowest number on a tie. -/
def State.rowFor (s : State) (t : Stitch) (first : Nat) : Option Nat :=
  bestBy (fun a b => let fa := s.fld (F.ROW_N_INFLIGHT_INFLIGHT a); let fb := s.fld (F.ROW_N_INFLIGHT_INFLIGHT b)
                     decide (fa < fb) || (fa == fb && decide (a < b)))
    ((List.range s.pattern.rows.length).filter fun n => match s.rowOf n with
      | some r => r.classes.contains t.cls && !r.stalled && (t.mt.isNone || s.rowHasMt n) && (r.stages.any fun g => g.type == first && decide (g.queue.length < 64))
      | none => false)

/-- Are buffers free for a class? -/
def State.buffersFor (s : State) (cls : Nat) : Bool :=
  decide (2 ≤ s.rows.buffers) && (isReserved cls || decide (1024 < s.rows.buffers))

/-- The key slot of a Stitch as its source sets it: none where a class 0x0 or 0x6 Stitch finds no usable slot. -/
def State.keySlotFor (s : State) (t : Stitch) : State × Option Nat :=
  if t.cls = 0 ∨ t.cls = 6 then s.takeXts t.domain
  else if t.cls = 8 then let p := s.takeXtsHoldup t.domain; (p.1, some p.2)
  else (s, some t.keySlot)

/-- Place a Stitch in a Row's first stage: two buffers are drawn, and a class that reads flash asks for its codeword. -/
def State.enterRow (s : State) (t : Stitch) (n first : Nat) : State :=
  let (bi, s1) := s.free 12
  let (bo, s2) := s1.free 12
  let sid := s.rows.nextSid
  let reads := readsFlash t && t.rebuilt != 2
  let u : Stitch := { t with bufIn := bi, bufOut := bo, stamp := s.stamp, row := n, ready := !reads, engine := none, held := false }
  let s3 := (s2.modRows fun r => { r with stitches := r.stitches.put sid u, nextSid := sid + 1, buffers := r.buffers - 2 }).setFld
    (F.ROW_N_INFLIGHT_INFLIGHT n) (s.fld (F.ROW_N_INFLIGHT_INFLIGHT n) + 1)
  let s4 := if t.cls = 0 ∨ t.cls = 8 then s3.modStg t.staging fun g => { g with st := .inRow sid }
    else match t.frame with
      | some (l, seq, k) => s3.setRx l seq k .inRow
      | none => s3
  let s5 := s4.enterStage sid n first false
  if reads then s5.readCodeword (readBudget t.cls) t.loc (.stitchRead sid) else s5

/-- A Stitch leaves its source without passing a stage. -/
def State.turnAway (s : State) (t : Stitch) (status flags : Nat) : State :=
  s.modRows fun r => { r with nextSid := r.nextSid + 1, retired := r.retired ++ [(r.nextSid, { t with status := status, flags := t.flags ||| flags })] }

/-- Is a Stitch's instance being passed on (R37): the survivor admits none after its pause, but for reads it has fetched;
the joiner places none until step 6 is done. -/
def State.withheld (s : State) (t : Stitch) : Bool :=
  (t.cls != 1 && t.cls != 8 && t.inst == 1 - s.headId && s.pairSt.rejoin.any fun r => r.survivor && decide (5 ≤ r.step)) ||
  ((t.cls == 0 || t.cls == 4 || t.cls == 6) && (s.jnl t.inst).hold)

/-- Has a version above a Stitch's own become COMPLETE while it was staged (R112)? -/
def State.supersededStg (s : State) (t : Stitch) : Bool :=
  (s.commit.staging.get? t.staging).any fun g => g.inst == t.inst && g.seq == t.seq && g.lba == t.lba && g.superseded

/-- Does a class 0x5 or 0x6 Stitch name an EXHAUSTED GCM slot (R361)? -/
def State.gcmSpent (s : State) (t : Stitch) : Bool := (t.cls == 5 || t.cls == 6) && s.slotState (0x2000 + t.gcmSlot) == 2

/-- Admit a Stitch that waits: none where it goes on waiting, and then only its key slot's state may have changed. -/
def State.admitStitch (s : State) (t0 : Stitch) : State × Bool :=
  let t := s.withBinding t0
  if (t.cls = 0 ∨ t.cls = 8) ∧ (s.supersededStg t ∨ s.newerComplete t.inst t.volume t.lba t.seq) then (s.turnAway t 3 0x80, true)
  else if s.gcmSpent t then (s.turnAway t 6 0, true)
  else if t.cls = 8 ∧ !s.holds t.inst ∧ !s.ctl.hold.started.contains t.seq then (s, false)
  else if (s.rows.holdup ∧ t.cls ≠ 8) ∨ s.withheld t ∨ !s.buffersFor t.cls then (s, false)
  else match s.firstStage t with
    | none => (s, false)
    | some first =>
      if s.lacksCid t first then (s.raise F.FTL_ISR_CID_EXHAUSTED, false)
      else match s.rowFor t first with
      | none => (s, false)
      | some n =>
        match s.keySlotFor t with
        | (s1, none) => if t.cls = 6 then (s1.turnAway t 6 0, true) else (s1, false)
        | (s1, some k) => (s1.enterRow { t with keySlot := k } n first, true)

/-- What a ring Stitch of class 4 or 5 reads: the place, form and key its Content Record names (R124, R141); DOMAIN stays
its own (R135). -/
def Stitch.ofRecord (t : Stitch) (r : Rec) : Stitch :=
  { t with loc := r.addr, slot := r.slot, slotClass := r.cls, stored := if r.cls = 15 then 4096 else 512 * r.cls, gen := r.gen,
           dict := r.dict, keySlot := 2 * r.domain + r.phase }

/-- The received frame that waits for a class 0x6 Stitch of the ring: one of the link of its GCM slot, for its block. -/
def State.frameFor (s : State) (t : Stitch) : Option (RxMsgSt × Nat) :=
  s.snp.rx.findSome? fun m =>
    if s.linkKey m.link = t.gcmSlot ∧ m.volume = t.volume ∧ m.lba ≤ t.lba ∧ m.st[t.lba - m.lba]? = some .waiting ∧ s.rxClear m (t.lba - m.lba) then
      some (m, t.lba - m.lba)
    else none

/-- A class 0x6 Stitch of the ring takes its frame, in the place of the Stitch the head has built for it. -/
def State.pairFrame (s : State) (t : Stitch) : State × Stitch :=
  match s.frameFor t with
  | some (m, k) =>
    let f := some (m.link, m.seq, k)
    (s.modRows fun r => { r with waiting := r.waiting.filter fun w => w.frame != f }, { t with frame := f, data := ((m.frames[k]?).map (·.1)).getD [] })
  | none => (s, t)

/-- The Stitch of a ring entry with what the head adds before admission; none while its content page is fetched. -/
def State.ringStitch (s : State) (t0 : Stitch) : State × Option Stitch :=
  let t := { t0 with inst := s.volHome t0.volume }
  if t.cls = 2 ∨ t.cls = 3 then (s, some { t with loc := t.lba % 2 ^ 42, inst := ((s.sbOfAddr (t.lba % 2 ^ 42)).map s.sbInst).getD t.inst })
  else if t.cls = 6 then let p := s.pairFrame t; (p.1, some p.2)
  else match s.walk (cidInst t.cid) 2 0 (cidLeaf t.cid) with
    | .miss level ident loc => (s.waitPage (cidInst t.cid) 2 level ident loc [] [], none)
    | _ =>
      match s.rawRec? t.cid with
      | some raw => if s.recCorrupt t.cid raw (s.volHome t.volume) then (s.recError, some { t with status := 4 }) else (s, some (t.ofRecord (recOf raw)))
      | none => (s, some { t with status := 4 })

/-- Take the next entry of the submission ring, where it can be admitted, refused or ended. -/
def State.admitRing (s : State) : State :=
  let n := s.ringEntries
  if n = 0 ∨ s.rows.sqIndex = s.fld F.ROW_SQ_TAIL_TAIL % n then s
  else
    let b := s.rd (s.sqBase + 128 * s.rows.sqIndex) 128
    let next (u : State) : State := u.modRows fun r => { r with sqIndex := (r.sqIndex + 1) % n }
    if ringRefused b then next (s.turnAway (stitchOf b) 6 0)
    else match s.ringStitch (stitchOf b) with
      | (s1, none) => s1
      | (s1, some t) =>
        if t.status = 4 then next (s1.turnAway { t with errStage := stLDH } 4 0x20)
        else match s1.admitStitch t with
          | (s2, true) => next s2
          | (s2, false) => s2

/-- Take the k-th of the Stitches the head has built. -/
def State.admitWaiting (s : State) (k : Nat) : State :=
  match s.rows.waiting[k]? with
  | none => s
  | some t =>
    match s.admitStitch t with
    | (s1, true) => s1.modRows fun r => { r with waiting := r.waiting.eraseIdx k }
    | (s1, false) => s1

/-- What follows a stage's end: sources learn their outcomes and the Rows move up. -/
def State.afterStage (s : State) : State := s.takeRetired.packFramed.settleRows

/-! ### GD (R276, R355-R358) -/

/-- A frame's tag fails: zeros go on nowhere, the Stitch ends with STATUS 0x04. -/
def State.frameBad (s : State) (sid len : Nat) : State :=
  ((s.authFail.countAuth.setOutput sid (zeros len) []).retire sid 4 stGD)

/-- The ACTIVE dictionary of a domain with a TAG; 0 where none has it. -/
def State.dictOfTag (s : State) (domain tag : Nat) : Nat :=
  ((List.range 1024).find? fun d => d != 0 && s.rdN (s.dictAddr d) 1 == 1 && s.rdN (s.dictAddr d + 2) 2 % 4096 == domain &&
    s.rdN (s.dictAddr d + 4) 4 == tag).getD 0

/-- The plaintext of a frame: its header's fields, and the stream or raw block. -/
def State.frameOpened (s : State) (sid : Nat) (t : Stitch) (p : Bytes) : State :=
  let raw := bit (leNat (slice p 0xA 2)) 15
  let tag := leNat (slice p 0xC 4)
  let s1 := s.setOutput sid (p.drop 16) []
  let dict := if t.ring then t.dict else if raw then 0 else s.dictOfTag t.domain tag
  (s1.modStitch sid fun t => { t with
    guard := leNat (p.take 8), dict := if raw then 0 else dict, frameHdr := some (leNat (p.take 8), raw, tag, leNat (slice p 8 2) % 8192) }).finishStage sid

/-- GD decrypts and verifies a frame. -/
def State.gdWork (s : State) (sid : Nat) (t : Stitch) : State :=
  match t.frame with
  | none => s.frameBad sid 0
  | some (l, seq, k) =>
    match s.snp.rx.find? fun m => m.link == l && m.seq == seq with
    | none => s.frameBad sid 0
    | some m =>
      match m.frames[k]?, s.keyOf (0x2000 + t.gcmSlot) with
      | some (ct, tag), some key =>
        let s1 := s.useGcm t.gcmSlot
        match gcmDec key (gcmIv m.fixed (seq * 64 + k)) m.header ct tag with
        | some p => (s1.takeSeq l seq).frameOpened sid t p
        | none => s1.frameBad sid ct.length
      | f, _ => s.frameBad sid ((f.map fun x => x.1.length).getD 0)

/-! ### LDH and LDS (R236-R239) -/

/-- The die of a Stitch's codeword, and its page type: 4 for pseudo-SLC. -/
def Stitch.die (t : Stitch) : Nat × Nat := (addrModule t.loc, addrDie t.loc)
def State.pageType (s : State) (t : Stitch) : Nat :=
  s.pageTypeIn (s.sbOfAddr t.loc) t.loc

/-- A foreground Stitch's codeword was decoded. -/
def State.stitchSample (s : State) (t : Stitch) : State := if isBackground t.cls then s else s.noteCalSample (s.pageType t) t.loc

/-- Issue the two reads of a soft stage of a Stitch. -/
def State.issueSoft (s : State) (sid : Nat) (t : Stitch) (shift : Int) : State := s.softPair t.loc (.softRead sid) shift

/-- LDH decodes the codeword read and hands it on; one it cannot decode goes to LDS. -/
def State.ldhWork (s : State) (sid : Nat) (t : Stitch) : State :=
  match s.hardOut t.data with
  | .ok fixed b =>
    let s1 := (s.stitchSample t).countDecode (s.sbOfAddr t.loc) t.die.1 t.die.2 false (.ok fixed b)
    (s1.modStitch sid fun t => t.takeCodeword b).finishStage sid
  | .fail =>
    let s1 := s.issueSoft sid t (s.softDelta : Int)
    (s1.modStitch sid fun t => { t with done := t.done ||| 2 ^ (stLDH - 1), softStage := 1, softReads := [], ready := false }).handTo sid stLDS

/-- LDS decodes with the reads at hand: three, then five where FIVE_READS allows them. -/
def State.ldsWork (s : State) (sid : Nat) (t : Stitch) : State :=
  let pt := s.pageType t
  let o := s.softOut t.die.1 t.die.2 pt t.data t.softReads
  let s0 := s.countSoftDecode t.die.1 t.die.2 pt t.data t.softReads o
  match o.1 with
  | .ok fixed b =>
    let s1 := (s0.stitchSample t).countDecode (s.sbOfAddr t.loc) t.die.1 t.die.2 true (.ok fixed b)
    (s1.modStitch sid fun t => { t.takeCodeword b with flags := t.flags ||| 0x40 }).finishStage sid
  | .fail =>
    if t.softStage = 1 ∧ s.flag F.LDC_SOFT_CFG_FIVE_READS then
      (s0.issueSoft sid t (2 * s.softDelta : Int)).modStitch sid fun t => { t with softStage := 2, ready := false }
    else
      ((s0.countDecode (s.sbOfAddr t.loc) t.die.1 t.die.2 true .fail).modStitch sid fun t =>
        { t with flags := t.flags ||| 0x40, done := t.done ||| 2 ^ (stLDS - 1) }).retire sid 5 stLDS

/-! ### XTD and DC (R141, R154, R161, R353-R355) -/

/-- A decompression error. -/
def State.countDc (s : State) (code : Nat) : State :=
  ((s.setFld F.CMP_DC_ERRS_LAST_CODE code).inc F.CMP_DC_ERRS_COUNT).raise F.CMP_ISR_DC_ERR

/-- A check of DC failed: XTD and DC run again on other engines, then the Stitch ends. -/
def State.dcFail (s : State) (sid : Nat) (t : Stitch) (code : Nat) : State :=
  let s1 := (s.countDc code).countGuard.stageFault t.row t.stage (t.engine.getD 0) 1
  if t.rereads ≠ 0 then s1.retire sid (if t.cls = 6 then 4 else 5) t.stage
  else if t.stage = stXTD ∨ t.cls = 6 then (s1.modStitch sid fun t => { t with rereads := 1 }).reexecute sid t.stage
  else
    let s2 := match t.producer with
      | some (type, e) => s1.stageFault t.row type e 1
      | none => s1
    (s2.modStitch sid fun t => { t with rereads := 1, data := t.kept, headers := t.keptHeaders, avoid := t.avoid ++ t.producer.toList }).rerun sid stXTD 2

/-- XTD decrypts the stored form, checks its slot headers and unmasks the guard. -/
def State.xtdWork (s : State) (sid : Nat) (t : Stitch) : State :=
  match s.keyOf t.keySlot with
  | none => (s.raise F.SEC_ISR_KEY_MISSING).retire sid 4 stXTD
  | some key =>
    if !headersOk t.cid t.gen t.slotClass (slotsOf t.slotClass) t.headers then s.dcFail sid t 9
    else
      let tweak := xtsTweak t.cid t.gen (t.keySlot / 2)
      let g := leNat (t.headers.take 8) ^^^ guardMask key tweak
      ((s.setOutput sid (xtsDec key tweak t.data) []).modStitch sid fun t => { t with guard := g }).finishStage sid

/-- What the decoder knows of a dictionary for a domain. -/
def State.dictFor (s : State) (d domain : Nat) : DictUse :=
  if d = 0 then .none
  else
    let a := s.dictAddr d
    if s.rdN a 1 = 0 ∨ s.rdN (a + 2) 2 % 4096 ≠ domain then .unusable
    else .some (s.rd (s.rdN (a + 8) 8) (s.rdN (a + 0x10) 2)) (s.rdN (a + 4) 4)

/-- DC decodes a stored form or a frame. -/
def State.dcWork (s : State) (sid : Nat) (t : Stitch) (glitch : Bool) : State :=
  let raw := match t.frameHdr with
    | some (_, r, _, _) => r
    | none => t.slotClass == 15
  let frame := t.frameHdr.map fun f => (f.2.2.2, f.2.2.1)
  let (code, block) := if raw then (0, t.data) else decodeStream (s.dictFor t.dict t.domain) t.data frame
  let code1 := if code ≠ 0 then code else if glitch ∨ block.length ≠ 4096 ∨ carryGuard block ≠ t.guard then 0xA else 0
  if code1 ≠ 0 then s.dcFail sid t code1 else (s.setOutput sid block []).finishStage sid

/-! ### FP (R121) -/

/-- The keyed fingerprint, the block itself handed on; without a key it is a free value, and DX treats the domain as off. -/
def State.fpWork (s : State) (sid : Nat) (t : Stitch) : State :=
  match s.keyOf (0x3000 + t.domain) with
  | some key => ((s.setOutput sid t.data []).modStitch sid fun t => { t with fp := hmacSha256 key t.data }).finishStage sid
  | none =>
    let (v, s1) := s.free 256
    ((s1.setOutput sid t.data []).modStitch sid fun t => { t with fp := leBytes 32 v }).finishStage sid

/-! ### CP (R148-R151, R162) -/

/-- MAX_CLASS with its substitution. -/
def State.maxClass (s : State) : Nat :=
  let m := s.fld F.CMP_CTRL_MAX_CLASS
  if 1 ≤ m ∧ m ≤ 8 then m else 7

/-- Count a block that CP completes (R162). -/
def State.countCp (s : State) (streamLen stored cls : Nat) : State :=
  let k := if cls = 15 then 8 else cls - 1
  (((s.count64 F.CMP_BYTES_IN_LO_COUNT F.CMP_BYTES_IN_HI_COUNT F.CMP_WRAPS_A_IN_WRAPS 4096).count64
    F.CMP_STREAM_BYTES_LO_COUNT F.CMP_STREAM_BYTES_HI_COUNT F.CMP_WRAPS_B_STREAM_WRAPS streamLen).count64
    F.CMP_STORED_BYTES_LO_COUNT F.CMP_STORED_BYTES_HI_COUNT F.CMP_WRAPS_A_STORED_WRAPS stored).count64
    (F.CMP_HIST_LO_COUNT k) (F.CMP_HIST_HI_COUNT k) (F.CMP_HIST_WRAPS_WRAPS k)

/-- The level a block is coded at. -/
def Stitch.cpLevel (t : Stitch) : Nat := if t.cls = 8 then 1 else if t.level = 0 ∨ 10 ≤ t.level then 3 else t.level

/-- CP codes a block under the dictionary found when its engine took the Stitch and chooses its slot class. A block stored
raw after two failed round trips is not coded, and raises no DICT_FALLBACK (DEDUCED, log entry 176). -/
def State.cpWork (s : State) (sid : Nat) (t : Stitch) : State :=
  let noCode := s.flag F.CMP_CTRL_FORCE_RAW || bit t.flags 1 || decide (2 ≤ t.trips)
  let (d, ok) := t.cpDict
  let use_ := if ok then s.dictFor d t.domain else .none
  let s1 := if !noCode && d != 0 && !ok then (s.inc F.CMP_EVENTS_DICT_FALLBACK).raise F.CMP_ISR_DICT_FALLBACK else s
  let stream := if noCode then [] else encodeStream t.cpLevel use_.bytes use_.tag t.data
  let cls := if noCode then 15 else slotClassOf s.maxClass stream.length
  let s2 := s1.modRows fun r => { r with levels := r.levels.put t.cpLevel ((r.levels.get? t.cpLevel).getD 0 + 1) }
  if cls = 15 then
    (((s2.countCp 4096 4096 15).setOutput sid t.data []).modStitch sid fun t =>
      { t with slotClass := 15, stored := 4096, dict := 0, flags := t.flags ||| 0x10 }).finishStage sid
  else
    (((s2.countCp stream.length (512 * cls) cls).setOutput sid (stream ++ zeros (512 * cls - stream.length)) []).modStitch sid fun t =>
      { t with slotClass := cls, stored := 512 * cls, dict := if ok then d else 0 }).finishStage sid

/-! ### XTE (R353, R354) -/

/-- XTE encrypts the stored form and masks the guard into the slot headers. -/
def State.xteWork (s : State) (sid : Nat) (t : Stitch) : State :=
  match s.keyOf t.keySlot with
  | none => (s.raise F.SEC_ISR_KEY_MISSING).retire sid 4 stXTE
  | some key =>
    let tweak := xtsTweak t.cid t.gen t.domain
    (s.setOutput sid (xtsEnc key tweak t.data)
      (slotHeaders (t.guard ^^^ guardMask key tweak) t.cid t.gen t.slotClass (slotsOf t.slotClass))).finishStage sid

/-! ### GE (R155, R278) -/

/-- GE builds a frame: raw for a block in staging or stored raw, else the stream without its padding. A stored form whose
Content Record names a FREE dictionary is corrupt (R160). -/
def State.geWork (s : State) (sid : Nat) (t : Stitch) : State :=
  let raw := bit t.flags 8 || t.slotClass == 15
  let tag := if raw || t.dict == 0 then 0 else s.rdN (s.dictAddr t.dict + 4) 4
  let body := if raw then t.data else t.data.take (leNat (slice t.data 2 2))
  if !raw && t.dict != 0 && s.rdN (s.dictAddr t.dict) 1 == 0 then (s.countDc 3).retire sid 5 stGE else
  (s.setOutput sid (frameBytes t.guard (if raw then 0 else t.dict) tag raw body) []).finishStage sid

/-! ### RS (R126, R158, R182-R186, R202, R492) -/

/-- The stream that takes a new block: in hold-up the open stream 0 superblock and then stream 4; else stream 0, or
dense-direct while the fast target lets no more be opened. -/
def State.writeStream (s : State) (t : Stitch) : Nat :=
  if t.cls = 8 ∨ (s.rows.holdup ∧ t.cls = 0) then (if s.holds t.inst && (s.openFor t.inst 0).isSome then 0 else 4)
  else if (s.openFor t.inst 0).isSome ∨ s.fld (F.FTL_SB_COUNTS_FAST_COUNT t.inst) + 1 ≤ s.fld (F.FTL_SB_COUNTS_TARGET_COUNT t.inst) then 0 else 1

/-- Where the next item of so many slots goes in an open superblock: stripe, codeword, slot. -/
def OpenSb.nextPlace (o : OpenSb) (need : Nat) : Nat × Nat × Nat :=
  if o.slots + need ≤ 8 then (o.stripe, o.cw, o.slots)
  else if o.cw + 1 = o.k then (o.stripe + 1, 0, 0) else (o.stripe, o.cw + 1, 0)

/-- Place an item and note its place in the Stitch. -/
def State.placeFor (s : State) (sid : Nat) (x : ToPlace) : State :=
  match s.openFor x.inst x.stream with
  | some o =>
    let p := o.nextPlace x.need
    (s.modStitch sid fun t => { t with stripe := p.1 % 2 ^ 32, cw := p.2.1, slot := p.2.2 }).placeItem x
  | none => s.placeItem x

/-- RS places a new block: its Content Record takes class, dictionary and key phase. -/
def State.rsWrite (s : State) (sid : Nat) (t : Stitch) : State :=
  let stream := s.writeStream t
  if (s.openFor t.inst stream).isNone then s
  else
    let r : Rec := { newRec t.gen (fold16 t.guard) t.domain with phase := t.keySlot % 2, dict := t.dict, cls := t.slotClass }
    let s1 := (s.setRec t.cid r.toNat).addUses t.dict (cidInst t.cid) 1
    let item : Item := match t.frame with
      | some (l, seq, k) => .received t.cid l seq k
      | none => .drained t.cid t.staging
    (s1.placeFor sid { inst := t.inst, stream := stream, need := slotsOf t.slotClass, item := item, payload := t.data, headers := t.headers }).finishStage sid

/-- One thing a codeword that is moved may hold: a block with its Content Record, a page of a tree; `wait` names a page
that must be fetched first. -/
inductive Moving where
  | block (k : Nat) (cid gen cls : Nat)
  | page (tree level ident : Nat)
  | wait (inst tree level ident loc : Nat)
  deriving DecidableEq, Repr

/-- Does the pointer on the way to a page of a tree name an address? A page of the way that is not cached is named. -/
def State.namesPage (s : State) (i tree level ident loc : Nat) : Option Moving :=
  match s.ptrAt i tree level ident with
  | .missing lvl pid l => some (.wait i tree lvl pid l)
  | at_ => if at_.ptr?.any fun p => ptrKind p == 1 && ptrAddr p == loc then some (.page tree level ident) else none

/-- What of a codeword is copied, in slot order (R202). -/
def State.movable (s : State) (t : Stitch) : List Moving :=
  (List.range 8).filterMap fun k =>
    let v := leNat (slice t.headers (16 * k + 8) 8)
    if bits v 63 60 = 1 ∧ bits v 58 56 = 0 then
      let cid := bits v 43 0
      match s.walk (cidInst cid) 2 0 (cidLeaf cid) with
      | .miss level ident loc => some (.wait (cidInst cid) 2 level ident loc)
      | _ =>
        match s.rec? cid with
        | some r => if (r.state = 1 ∨ r.state = 2) ∧ r.gen = bits v 51 44 ∧ r.addr = t.loc ∧ r.slot = k then some (.block k cid r.gen (bits v 55 52)) else none
        | none => none
    else if bits v 63 60 = 2 ∧ k = 0 then
      s.namesPage t.inst (bits v 56 53) (bits v 52 50) (bits v 49 0) t.loc
    else none

/-- The words of a page image. -/
def pageWords (b : Bytes) : Tbl Nat :=
  (List.range 512).filterMap fun k => let w := leNat (slice b (8 * k) 8); if w = 0 then none else some (k, w)

/-- Copy one thing into the target stream; where its superblock has filled meanwhile it waits for the next one. A page that is
dirty in its cache is written back instead (R178). -/
def State.copyOne (s : State) (sid stream : Nat) (t : Stitch) (m : Moving) : State :=
  match m with
  | .wait .. => s
  | .block k cid gen cls =>
    let n := slotsOf cls
    s.placeFor sid { inst := t.inst, stream := stream, need := n, item := .moved cid gen (locOf t.loc k),
                       payload := slice t.data (512 * k) (512 * n), headers := slice t.headers (16 * k) (16 * n) }
  | .page tree level ident =>
    let x : ToPlace := { inst := t.inst, stream := stream, need := 8, item := .movedPage t.inst tree level ident t.loc, payload := t.data, headers := t.headers }
    if tree = 3 ∧ level = 0 then
      match (s.indexSlot t.inst ident).bind fun slot => (s.ddp.lines.get? slot).map fun l => (slot, l) with
      | some (slot, l) => if l.dirty then s.writeIndex slot l else s.placeFor sid x
      | none => s.placeFor sid x
    else match s.map.pages.find? fun p => p.is t.inst tree level ident && p.loc == t.loc with
      | some p => if p.dirty then s.writePage p else s.placeFor sid x
      | none => s.placeFor sid x

/-- RS moves what a codeword still holds: stream 2, or 3 from a metadata superblock, for reclaim; stream 1 for folding. -/
def State.rsMove (s : State) (sid : Nat) (t : Stitch) : State :=
  let l := s.movable t
  let meta_ := (s.sbOfAddr t.loc).any fun sb => s.sbMode sb == 2
  let stream := if t.cls = 3 then 1 else if meta_ then 3 else 2
  match l.find? fun m => match m with
      | .wait .. => true
      | _ => false with
  | some (.wait i tree level ident loc) => s.waitPage i tree level ident loc [] []
  | _ =>
    if l.isEmpty then s.finishStage sid
    else if (s.openFor t.inst stream).isNone then s
    else (l.foldl (fun u m => u.copyOne sid stream t m) s).finishStage sid

/-- RS places slots. -/
def State.rsWork (s : State) (sid : Nat) (t : Stitch) : State :=
  if t.cls = 2 ∨ t.cls = 3 then s.rsMove sid t else s.rsWrite sid t

/-! ### Timeouts and spares (R115-R118) -/

/-- An engine gave no result in time. -/
def State.engineLate (s : State) (sid : Nat) : State :=
  match s.stitch? sid with
  | none => s
  | some t =>
    match t.engine with
    | none => s
    | some e =>
      if t.held ∨ !t.ready then s else (s.stageFault t.row t.stage e 4).reexecute sid t.stage

/-- Does a Row drain for a re-pattern or for an update's step (R63, R424)? -/
def State.rowDrains (s : State) (n : Nat) : Bool :=
  (s.upd.step.any fun x => x.cls == 5 && x.arg == n) ||
  (s.repat.running && s.repat.left.head?.any fun c => match c.body with
    | .rows l => (s.rowsChanged l).contains n
    | _ => false)

/-- An engine joins the stage that names it or an engine in whose place it stands, in the composition now in force (R118);
the Row admits again once no stage of it lacks engines and it does not drain. -/
def State.joinStage (s : State) (pool e : Nat) : State :=
  match s.stageFor pool e with
  | some (n, type) =>
    let drains := s.rowDrains n
    ((s.modStage n type fun g => if g.active.contains e then g else { g with active := g.active ++ [e] }).modRow n fun r =>
      { r with stalled := r.stalled && (drains || r.lacksEngine) }).refreshRow n
  | none => s

/-- The last engine that was brought into an engine's place. -/
def State.lastSub (s : State) (pool : Nat) : Nat → Nat → Nat
  | 0, e => e
  | n + 1, e => match s.rows.subs.get? (pool * 256 + e) with
    | some x => s.lastSub pool n x
    | none => e

/-- The Row and the stage type that lack an engine. -/
def State.stageLacking (s : State) (pool e : Nat) : Option (Nat × Nat) :=
  (List.range s.pattern.rows.length).findSome? fun n =>
    ((s.rowOf n).bind fun r => r.stages.find? fun g => stagePool g.type == some pool && g.named.any fun x => s.lastSub pool 16 x == e).map fun g => (n, g.type)

/-- A spare's known-answer test ends. -/
def State.spareTested (s : State) (pool e : Nat) (pass : Bool) : State :=
  match s.rows.testing.find? fun x => x.pool == pool && x.engine == e with
  | none => s
  | some x =>
    let s1 := (s.modRows fun r => { r with testing := r.testing.filter fun y => !(y.pool == pool && y.engine == e) }).setFld
      (F.ROW_POOL_SPARES_LEFT pool) (s.fld (F.ROW_POOL_SPARES_LEFT pool) - 1)
    if pass then
      let s2 := (s1.setEngine pool e { state := 0, faults := [] }).setSub pool x.failed e
      ((s2.setFld (F.ROW_POOL_ACTIVE pool) (s.fld (F.ROW_POOL_ACTIVE pool) + 1)).joinStage pool e).raise F.ROW_ISR_SPARE_IN
    else
      let s2 := s1.setEngine pool e { s.engine pool e with state := 3 }
      let s3 := (((s2.inc (F.ROW_POOL_RETIRED pool)).setFld F.ROW_FAULT_LAST_KIND 5).setFld F.ROW_FAULT_LAST_POOL pool).setFld F.ROW_FAULT_LAST_ENGINE e
      let (n, type) := (s.stageLacking pool x.failed).getD (x.row, x.stage)
      (((s3.setFld F.ROW_FAULT_LAST_ROW n).raise F.ROW_ISR_ENGINE_RETIRED).callSpare pool x.failed n type 3 none)

end Sys2Proof.Machine
end

