-- ==== Sys2Proof/Machine/PageOps.lean ====
section
/-! DEFINITION. Map pages that arrive, the split ring, metadata commands and the push of superblocks (07), as the
operations that commands share. -/
namespace Sys2Proof.Machine

/-! ### Pages that arrive (R172, R173, R178) -/

/-- Does the information part of a codeword hold the page a fetch expected (R173)? Of a page that another volume may have
written TREE, LEVEL and the page index alone are checked (R262). -/
def pageChecks (tree level ident : Nat) (index : Option Nat) (b : Bytes) : Bool :=
  let h (k : Nat) : Nat := leNat (slice b (4096 + 16 * k + 8) 8)
  b.length == 4224 &&
  (List.range 8).all (fun k => bits (h k) 63 60 == 2 && bits (h k) 59 57 == k && h k % 2 ^ 57 == h 0 % 2 ^ 57) &&
  (match index with
   | some k => bits (h 0) 56 53 == 1 && bits (h 0) 52 50 == level && bits (h 0) 33 0 == k
   | none => h 0 % 2 ^ 57 == ident % 2 ^ 50 + level * 2 ^ 50 + tree * 2 ^ 53) &&
  leNat (slice b 4096 8) == carryGuard (b.take 4096)

/-- The prior entry of staged versions that wait for it, where the block's leaf can be read now. -/
def State.learnPrior (s : State) (k vol lba : Nat) : State :=
  match s.commit.staging.get? k with
  | some g => if g.prior = priorUnknown then s.modStg k fun g => { g with prior := s.priorOf vol lba } else s
  | none => s

/-- The version an in-staging entry names may be journaled now. -/
def State.journalOf (s : State) (k : Nat) : State :=
  match s.commit.staging.get? k with
  | some g => s.tryJournal g.inst g.seq
  | none => s

/-- Write a poison block in the place of a block whose codeword cannot be read or reconstructed: class 15, zero data,
its guard the complement of the true one (R204). The page of its record is fetched first. -/
def State.poisonBlock (s : State) (sb cid : Nat) : State × Nat :=
  match s.recMissing cid with
  | some (level, ident, loc) => (s.waitPage (cidInst cid) 2 level ident loc [.poison sb cid] [], 0)
  | none =>
  match s.rec? cid with
  | some r =>
    if (r.state = 1 ∨ r.state = 2) ∧ r.cls ≠ 0 ∧ s.sbOfAddr r.addr = some sb then
      let guard := carryGuard zeroBlock ^^^ (2 ^ 64 - 1)
      ((s.modFtl fun t => { t with poisoning := t.poisoning ++ [cid] }).place
        { inst := s.sbInst sb, stream := 2, need := 8, item := .poison cid r.gen (locOf r.addr r.slot), payload := zeroBlock,
          headers := slotHeaders guard cid r.gen 15 8 }, 1)
    else (s, 0)
  | none => (s, 0)

/-- Apply one change that waited for a page or a split. Lookups are answered apart. -/
def State.applyPageOp (s : State) (i : Nat) : PageOp → State
  | .entry vol lba lme seq jseq =>
    if lmeKind lme = 3 then
      let s1 := s.learnPrior (lmeId lme) vol lba
      -- a version that has left staging is not installed
      if s1.commit.staging.has (lmeId lme) then (s1.install vol lba lme seq).journalOf (lmeId lme) else s1
    else s.install vol lba lme seq (some jseq)
  | .setRecord cid r jseq => s.setRec cid r (some jseq)
  | .dec cid =>
    match s.refDrop cid with
    | (s1, recs) => s1.buildGroup (cidInst cid) recs
  | .pointer slot ident ptr jseq => s.applyPointer i slot ident ptr jseq
  | .own jseq r => s.applyOwn i jseq r
  | .foreign jseq r => s.applyForeign i jseq r
  | .placed sb cid addr slot n => s.recordPlaced sb cid addr slot n
  | .unplace cid => s.dropPending cid
  | .poison sb cid =>
    match s.poisonBlock sb cid with
    | (s1, n) => s1.modFtl fun t => { t with forced := t.forced.map fun f => if f.1 = sb then (sb, f.2 + n) else f }
  | .pageMoved m => s.pageMoved m
  | .pageCopied tree level ident old new => s.pageCopied i tree level ident old new
  | .look _ => s

/-- Answer a lookup that waited for a page. -/
def State.answerLook (s : State) : PageOp → State
  | .look (.read inst seq lba) =>
    match s.waiting? inst seq with
    | some w => s.readMap inst seq w.volume lba true
    | none => s
  | _ => s

/-- Start the fetches that wait, as far as MISS_MAX goes. -/
def State.nextMiss : Nat → State → State
  | 0, s => s
  | n + 1, s =>
    match s.map.misses with
    | f :: r => if s.map.fetches.length < s.missMax then State.nextMiss n ((s.modMap fun m => { m with misses := r }).startFetch f) else s
    | [] => s

/-- A page is lost (R173): every lookup beneath it reads as corrupt. -/
def State.losePage (s : State) (f : PageFetch) : State :=
  let s1 := ((((s.modMap fun m => { m with lost := m.lost ++ [(f.inst, f.tree, f.level, f.ident)] }).inc F.FTL_MAP_ERRS_PAGE_LOST).raise
    F.FTL_ISR_MAP_ERR).errDefer 0x0C)
  let s2 := f.ops.foldl (fun t o => match o with
    | .pointer .. => t
    | .look (.read inst seq _) => t.failRead inst seq
    | _ => t.applyPageOp f.inst o) s1
  if f.tree = 0 && s2.snp.delta then s2.deltaDone [] else s2

/-! ### Metadata commands (FTL_MCMD) -/

def mcmdRes : Nat := 0xC00034

/-- A metadata command completes. -/
def State.mcmdDone (s : State) (code : Nat) : State :=
  (((s.modMap fun m => { m with mcmd := none }).setFld F.FTL_MCMD_BUSY 0).resDone mcmdRes [(F.FTL_MCMD_RESULT_CODE, code)]).raise F.FTL_ISR_MCMD_DONE

def State.mcmdAddr (s : State) : Nat := s.base F.FTL_MCMD_ADDR_LO_ADDR_LO F.FTL_MCMD_ADDR_HI_ADDR_HI 12

/-- Carry a metadata command on. -/
def State.mcmdOn (s : State) : State :=
  match s.map.mcmd with
  | none => s
  | some c =>
    if c.op = 0 then
      if s.map.pages.any fun p => s.holds p.inst && p.tree != 0 && p.dirty && decide (p.dirtyJseq < ofInst c.upTo p.inst) then s else s.mcmdDone 0
    else if c.op = 1 then
      match s.walk c.inst 4 0 c.index with
      | .leaf p => (s.wr s.mcmdAddr (s.pageImage p)).mcmdDone 0
      | .absent => (s.wr s.mcmdAddr (zeros 4096)).mcmdDone 0
      | .miss level ident loc => s.waitPage c.inst 4 level ident loc [] []
      | .corrupt => s.ptrError.mcmdDone 1
      | _ => s.mcmdDone 1
    else
      match s.openLeaf c.inst 4 0 c.index (s.nextJseq c.inst) with
      | (s1, .leaf p) => (s1.putPage (({ p with words := pageWords (s.rd s.mcmdAddr 4096) } : MapPage).touch (s.nextJseq c.inst))).mcmdDone 0
      | (s1, .miss level ident loc) => s1.waitPage c.inst 4 level ident loc [] []
      | (s1, .corrupt) => s1.ptrError.mcmdDone 1
      | (s1, _) => s1.mcmdDone 1

/-- Start a metadata command on an instance. -/
def State.mcmdStart (s : State) (op inst index : Nat) : State :=
  s.startWith [(F.FTL_MCMD_OP, op), (F.FTL_MCMD_INSTANCE, inst), (F.FTL_MCMD_INDEX, index)] (s.flag F.FTL_MCMD_BUSY) fun t =>
    let u := (t.resStart mcmdRes).setFld F.FTL_MCMD_BUSY 1
    if op = 3 then u.mcmdDone 3
    else if op ≠ 0 ∧ !s.holds (inst % 2) then u.mcmdDone 2
    else
      let v := u.modMap fun m => { m with mcmd := some { op := op, inst := inst % 2, index := index % 2 ^ 18, upTo := (u.nextJseq 0, u.nextJseq 1) } }
      let w := if op = 0 then (v.map.pages.filter fun p => v.holds p.inst && p.tree != 0 && p.dirty).foldl (fun x p => x.writePage p) v else v
      w.mcmdOn

/-! ### A fetch ends -/

/-- A fetched page is at hand: the changes that waited are applied in order, then the lookups are answered. -/
def State.pageArrived (s : State) (f : PageFetch) (b : Bytes) : State :=
  let s1 := (s.putPage { newPage f.inst f.tree f.level f.ident 0 with loc := f.loc, words := pageWords b, dirty := false }).count64
    F.FTL_MAP_FETCHES_LO_COUNT F.FTL_MAP_FETCHES_HI_COUNT F.FTL_MAP_WRAPS_FETCH_WRAPS
  f.ops.foldl State.answerLook (f.ops.foldl (fun t o => t.applyPageOp f.inst o) s1)

/-- Settled entries whose journaling was put off are journaled (R37 step 5, R193). -/
def State.journalRest (s : State) : State :=
  (s.commit.staging.map fun p => (p.2.inst, p.2.seq)).eraseDups.foldl (fun t q => if t.holds q.1 then t.tryJournal q.1 q.2 else t) s

/-- What waits for pages goes on. -/
def State.pageWaiters (s : State) : State := s.pumpIndex.batchOn.rxJournal.rxAck.journalRest.sweepOn.deltaOn.mcmdOn

/-- The read of a page has ended: the first failure rebuilds it from its stripe, the second loses it. -/
def State.pageFetched (s : State) (inst tree level ident : Nat) (data : Option Bytes) : State :=
  match s.map.fetches.find? fun f => f.is inst tree level ident with
  | none => s
  | some f =>
    let drop := s.modMap fun m => { m with fetches := m.fetches.filter fun g => !g.is inst tree level ident }
    match data.filter (pageChecks tree level ident f.index) with
    | some b => ((State.nextMiss 1 drop).pageArrived f b).pageWaiters
    | none =>
      if f.rebuilt then ((State.nextMiss 1 (if data.isSome then drop.countUnrecovered else drop)).losePage f).pageWaiters
      else (s.modMap fun m => { m with fetches := m.fetches.map fun g => if g.is inst tree level ident then { g with rebuilt := true } else g }).reconAfterFailure
        f.budget f.loc (.mapRead inst tree level ident)

/-! ### The split ring (R171) -/

/-- Write the requests that found the ring full, where it has room now. -/
def State.writeSplits : Nat → State → State
  | 0, s => s
  | k + 1, s =>
    let t := s.fld F.FTL_SPLIT_TAIL_INDEX
    let next := (t + 1) % s.splitRing
    match s.map.splits.find? fun r => r.index == s.splitRing with
    | none => s
    | some r =>
      if next = s.fld F.FTL_SPLIT_HEAD_INDEX then s
      else
        let base := s.base F.FTL_SPLIT_BASE_LO_ADDR F.FTL_SPLIT_BASE_HI_ADDR 4
        let s1 := s.wr (base + 16 * t) (leBytes 2 r.volume ++ leBytes 1 r.level ++ leBytes 1 (min 255 r.ops.length) ++ zeros 4 ++ leBytes 8 r.page)
        let s2 := s1.modMap fun m => { m with splits := m.splits.map fun q => if q == r then { q with index := t } else q }
        State.writeSplits k ((s2.setFld F.FTL_SPLIT_TAIL_INDEX next).raise F.FTL_ISR_SPLIT_REQ)

/-- Firmware has passed requests: every install held on them walks its path again. -/
def State.passSplits (s : State) (head : Nat) : State :=
  let n := s.splitRing
  let old := s.fld F.FTL_SPLIT_HEAD_INDEX % n
  let gone (r : SplitReq) : Bool := decide (r.index < n) && decide ((r.index + n - old) % n < (head % n + n - old) % n)
  let l := s.map.splits.filter gone
  let s1 := (s.setFld F.FTL_SPLIT_HEAD_INDEX head).modMap fun m => { m with splits := m.splits.filter fun r => !gone r }
  let s2 := l.foldl (fun t r => r.ops.foldl (fun u o => u.applyPageOp (u.volHome r.volume) o) t) s1
  (State.writeSplits n s2).sweepPassed

/-! ### Write-back (R175, R176) -/

/-- Is an image of a page on its way to flash? -/
def State.pageOut (s : State) (i tree level ident : Nat) : Bool :=
  let is (x : ToPlace) : Bool := match x.item with
    | .page a b c d _ => a == i && b == tree && c == level && d == ident
    | _ => false
  s.ftl.toPlace.any is || s.ftl.open_.any fun o => (o.items ++ o.units.flatMap (·.items)).any fun p => is p.what

/-- The head writes a page of a tree back: one of the map-page cache, or an index page. -/
def State.writeBackPage (s : State) (inst tree level ident : Nat) : State :=
  if tree = 3 ∧ level = 0 then
    match s.indexSlot inst ident with
    | some slot => match s.ddp.lines.get? slot with
      | some l => if l.dirty && !s.pageOut inst 3 0 ident then s.writeIndex slot l else s
      | none => s
    | none => s
  else match s.map.pages.find? fun p => p.is inst tree level ident && p.dirty with
    | some p => if s.holds inst && tree != 0 then s.writePage p else s
    | none => s

/-- What of a page is unpinned, dirty and not on its way. -/
def MapPage.mayWrite (p : MapPage) : Bool := p.dirty && p.wb == .none && p.tree != 0

/-- Dirty pages of the volumes whose cut has reached step 4 (R267). -/
def State.cutPages (s : State) : List MapPage :=
  s.map.pages.filter fun p => p.mayWrite && p.tree == 1 && s.snp.sets.any fun c => c.phase == 1 &&
    (s.cutsHeld c).any fun k => k.1 == p.ident / 2 ^ 34 && s.cutSettled c k.1

/-- Write back the pages chosen for eviction; in the background, the least recently used dirty ones while more than
WB_HIGH_PCT percent of the pages that are not pinned are dirty (R178; log entry 183); and those that hold the tail of a
journal that has reached MAX_PAGES (R194). -/
def State.writeBacks (s : State) : State :=
  let chosen := s.map.pages.filter fun p => p.wb == .chosen
  let loose := s.map.pages.reverse.filter fun p => p.mayWrite && !p.pinned
  let limit := min 0x64 (s.fld F.FTL_MPC_CFG_WB_HIGH_PCT) * (s.mpcPages - s.fld F.FTL_MPC_PINNED_PAGES) / 100
  let oldest := s.map.pages.filter fun p => p.mayWrite && s.holds p.inst && s.jnlFull p.inst && p.dirtyJseq == s.jnlTail p.inst
  if s.rows.holdup then s
  else (chosen ++ s.cutPages ++ loose.take (loose.length - limit) ++ oldest).foldl (fun t p => t.writePage p) s

/-- The pages at level 2 and above of a tree that are not cached and not lost, as far down as the cached ones show. -/
def State.pinMiss (s : State) (i tree vol : Nat) : Nat → Nat → Nat → List (Nat × Nat × Nat)
  | lvl, idx, ptr =>
    if lvl < 2 ∨ ptrCorrupt ptr ∨ ptrKind ptr = 0 then []
    else
      let ident := (if tree = 1 then vol * 2 ^ 34 else 0) + idx
      match s.findPage i tree lvl ident ptr with
      | none => if ptrKind ptr = 1 ∧ !s.map.lost.contains (i, tree, lvl, ident) then [(lvl, ident, ptrAddr ptr)] else []
      | some p => match lvl with
        | 0 => []
        | l + 1 => p.words.flatMap fun w => s.pinMiss i tree vol l (idx * 512 + w.1) w.2

/-- The volumes whose table entries are not all zeros. -/
def State.volsListed (s : State) : List Nat :=
  let a := s.volAddr 0
  (s.dram.filterMap fun c => if a ≤ c.1 ∧ c.1 < a + 32 * 65536 then some ((c.1 - a) / 32) else none).eraseDups

/-- Fetch the directory pages at level 2 and above of every tree the head holds (R177). -/
def State.loadPins (s : State) : State :=
  if s.rows.holdup || !s.inService then s
  else
    let load (i tree vol : Nat) (t : State) : State :=
      (t.pinMiss i tree vol (t.treeDepth i tree vol) 0 (t.treeRoot i tree vol)).foldl (fun u m => u.waitPage i tree m.1 m.2.1 m.2.2 [] []) t
    let trees := (List.range 2).foldl (fun t i => if t.holds i then load i 4 0 (load i 3 0 (load i 2 0 t)) else t) s
    s.volsListed.foldl (fun t v => if t.volValid v && t.holds (t.volHome v) then load (t.volHome v) 1 v t else t) trees

/-! ### Pushing superblocks (R181) -/

/-- MODEs that a stream takes. -/
def streamTakes (stream mode : Nat) : Bool :=
  match stream with
  | 0 | 4 => mode == 0
  | 1 => mode == 1
  | 2 => mode == 0 || mode == 1
  | 3 => mode == 2
  | _ => false

/-- Does the head hold the lease of a member's half-die: it holds the half, and what the bridge last reported of the die does
not name another holder? -/
def State.leaseOn (s : State) (i member : Nat) : Bool :=
  s.holds i && s.epoch i != 0 &&
  ((s.pairSt.reports.get? (memberModule member)).getD []).all fun r => !(r.1 == i && r.2.2.2 == memberDie member) || r.2.2.1 == s.headId

/-- Why a push is refused; 0 where it is not. -/
def State.pushCode (s : State) (stream sb : Nat) : Nat :=
  let k := s.sbK sb
  let m := s.sbM sb
  let i := s.sbInst sb
  let l := s.sbMembers sb
  let beyond := s.rd (s.sbAddr sb + 16 + 4 * (k + m)) (240 - 4 * (k + m))
  if (beyond.any fun x => x != 0) ∨ 60 < k + m then 1
  else if k < 4 ∨ 30 < k ∨ m < 2 ∨ 3 < m ∨ (s.sbMode sb = 2 ∧ m ≠ 3) ∨ !streamTakes stream (s.sbMode sb) then 2
  else if !(l.map memberModule).Nodup then 3
  else if (l.any fun b => s.memberHalf b != i) ∨ (!(stream == 4 && !s.holds i) && (l.any fun b => !s.leaseOn i b)) then 4
  else if s.sbState sb ≠ sbFree then 5
  else if 64 ≤ (s.sbQueue i stream).length then 6
  else 0

/-- Queue a FREE superblock on a stream, or refuse it. -/
def State.pushSb (s : State) (stream sb : Nat) : State :=
  let code := s.pushCode stream sb
  if code ≠ 0 then ((s.setFld F.FTL_SBQ_STATUS_LAST_CODE code).setFld F.FTL_SBQ_STATUS_LAST_SB sb).raise F.FTL_ISR_SBQ_REFUSED
  else
    let i := s.sbInst sb
    let s1 := (s.setQueue i stream (s.sbQueue i stream ++ [sb])).setSbState sb sbQueued
    if s.holds i then s1.journalSb sb sbQueued 0 else s1

end Sys2Proof.Machine
end

