-- ==== Sys2Proof/Machine/Map.lean ====
section
/-! DEFINITION. The map: the meanings of its commands (07). -/
namespace Sys2Proof.Machine

/-- A map page's read has ended, with the information part of its codeword or with none (R173, R178). -/
def execMapPageFetched (inst tree level ident : Nat) (data : Option Bytes) (s : State) : Result :=
  .next (s.live ((s.pageFetched (inst % 2) tree level ident data).takeRetired.settleRows))

/-- Firmware advances FTL_SPLIT_HEAD (R171). -/
def execSplitHeadAdvance (head : Nat) (s : State) : Result := .next (s.live (s.passSplits head))

/-- A dirty page is chosen for write-back and programmed into the metadata superblock (R175). -/
def execMapPageWriteback (inst tree level ident : Nat) (s : State) : Result := .next (s.live (s.writeBackPage (inst % 2) tree level ident))

/-- FTL_MCMD OP 0x0: write back every dirty page of the held instances. -/
def execWriteBackAll (s : State) : Result := .next (s.live (s.mcmdStart 0 0 0))

/-- FTL_MCMD OP 0x1: read an object page into DRAM. -/
def execObjectRead (inst index : Nat) (s : State) : Result := .next (s.live (s.mcmdStart 1 inst index))

/-- FTL_MCMD OP 0x2: write an object page from DRAM as a dirty page. -/
def execObjectWrite (inst index : Nat) (s : State) : Result := .next (s.live (s.mcmdStart 2 inst index))

/-- FTL_MCMD with the reserved OP. -/
def execMcmdReservedOp (inst index : Nat) (s : State) : Result := .next (s.live (s.mcmdStart 3 inst index))

/-- FTL_HOTMAP_CTRL.INVALIDATE: no hot-map line is valid (R176). -/
def execHotmapInvalidate (s : State) : Result := .next (s.live (s.modMap fun m => { m with hot := [] }))

/-- FTL_SBQ_PUSH: queue a FREE superblock on a stream, or refuse it with a code (R181). -/
def execSuperblockPush (stream sb : Nat) (s : State) : Result := .next (s.live (s.pushSb (stream % 8) (sb % 2 ^ 28)))

end Sys2Proof.Machine
end

