-- ==== Sys2Proof/Machine/ReclaimOps.lean ====
section
/-! DEFINITION. Reclaim commands, refresh flags, anchors on their schedule (08), as the operations that commands share. -/
namespace Sys2Proof.Machine

/-! ### Reclaim commands (R200, R204) -/

def rclRes : Nat := 0xC00410

/-- A reclaim command completes. -/
def State.rclDone (s : State) (code poisoned : Nat) : State :=
  (((s.modFtl fun t => { t with forced := none }).setFld F.FTL_RCL_CMD_BUSY 0).resDone rclRes
    [(F.FTL_RCL_RESULT_POISONED, min 255 poisoned), (F.FTL_RCL_RESULT_CODE, code)]).raise F.FTL_RCL_ISR_RCL_DONE

/-- Run a reclaim command on the superblock FTL_RCL_SB names. -/
def State.rclStart (s : State) (op : Nat) (force : Bool) (run : State → Nat → State) : State :=
  s.startWith [(F.FTL_RCL_CMD_OP, op), (F.FTL_RCL_CMD_FORCE, if force then 1 else 0)] (s.flag F.FTL_RCL_CMD_BUSY) fun t =>
    let u := (t.resStart rclRes).setFld F.FTL_RCL_CMD_BUSY 1
    let sb := u.fld F.FTL_RCL_SB_SB
    if op = 3 then u.rclDone 6 0
    else if !u.holds (u.sbInst sb) then u.rclDone 5 0
    else run u sb

/-- Does a superblock hold a journal page at or after the tail? -/
def State.jpageIn (s : State) (sb : Nat) : Bool :=
  (s.jnl (s.sbInst sb)).pages.any fun p => p.2.2 != 0 && s.sbOfAddr p.2.2 == some sb

/-- START: a CLOSED superblock becomes RECLAIMING. -/
def State.rclBegin (s : State) (sb : Nat) : State :=
  if s.sbState sb ≠ sbClosed then s.rclDone 1 0
  else if s.sbMode sb = 2 ∧ s.jpageIn sb then s.rclDone 4 0
  else ((s.setSbState sb sbReclaiming).journalSb sb sbReclaiming 0).rclDone 0 0

/-- Has the erase of a superblock begun: its PHASE 0x01 record is journaled? -/
def State.eraseBegun (s : State) (sb : Nat) : Bool :=
  (s.ftl.erasing.any fun e => e.1 == sb) || (s.jnl (s.sbInst sb)).groups.any fun g => g.recs.any fun r => match r with
    | .sbState _ 1 x _ => x == sb
    | _ => false

/-- Copies of a superblock's blocks that are placed and not hardened. -/
def State.copiesOut (s : State) (sb : Nat) : Bool :=
  let from_ (x : ToPlace) : Bool := match x.item with
    | .moved _ _ old | .poison _ _ old => s.sbOfAddr (old % 2 ^ 42) == some sb
    | .page _ _ _ _ old | .movedPage _ _ _ _ old => old != 0 && s.sbMode sb == 2 && s.sbOfAddr old == some sb
    | _ => false
  (s.ftl.moving.any fun m => m.1 == sb) || (s.ftl.pageMoves.any fun m => s.sbOfAddr m.old == some sb) || s.ftl.toPlace.any from_ ||
    ((s.map.fetches ++ s.map.misses).any fun f => f.ops.any fun o => match o with
      | .poison x _ => x == sb
      | .pageMoved m => s.sbOfAddr m.old == some sb
      | .pageCopied _ _ _ old _ => s.sbOfAddr old == some sb
      | _ => false) ||
    s.ftl.open_.any fun o => (o.items ++ o.units.flatMap (·.items)).any fun p => from_ p.what

/-- The head accepts FINISH: it journals the erase. -/
def State.rclErase (s : State) (sb poisoned : Nat) : State := (s.journalSb sb sbReclaiming 1).rclDone 0 poisoned

/-- May a superblock be erased, and if not, the code that says why. -/
def State.finishCode (s : State) (sb : Nat) : Nat :=
  if s.sbValid sb ≠ 0 ∨ s.copiesOut sb then 2 else if s.sbMode sb = 2 ∧ s.jpageIn sb then 4 else 0

/-- A forced FINISH goes on once its poison blocks have hardened. -/
def State.forceOn (s : State) : State :=
  match s.ftl.forced with
  | none => s
  | some (sb, n) =>
    if s.copiesOut sb then s
    else if s.finishCode sb = 0 then s.rclErase sb n
    else s.rclDone (s.finishCode sb) n

/-- FINISH. `lost` names the contents whose codewords could be neither read nor reconstructed. -/
def State.rclFinish (s : State) (sb : Nat) (force : Bool) (lost : List Nat) : State :=
  if s.sbState sb ≠ sbReclaiming ∨ s.eraseBegun sb then s.rclDone 1 0
  else if force then
    let (s1, n) := lost.foldl (fun (a : State × Nat) c => let q := a.1.poisonBlock sb c; (q.1, a.2 + q.2)) (s, 0)
    (s1.modFtl fun t => { t with forced := some (sb, n) }).forceOn
  else if s.finishCode sb ≠ 0 then s.rclDone (s.finishCode sb) 0
  else s.rclErase sb 0

/-- Is a Stitch that moves blocks out of a superblock in flight? -/
def State.movesFrom (s : State) (sb : Nat) : Bool :=
  (s.rows.stitches.vals ++ s.rows.waiting).any fun t => (t.cls == 2 || t.cls == 3) && s.sbOfAddr t.loc == some sb

/-- ABORT: a RECLAIMING superblock is CLOSED again; hardened relocations stand. -/
def State.rclAbort (s : State) (sb : Nat) : State :=
  if s.sbState sb ≠ sbReclaiming ∨ s.eraseBegun sb then s.rclDone 1 0
  else if s.movesFrom sb ∨ s.copiesOut sb then s.rclDone 3 0
  else ((s.setSbState sb sbClosed).journalSb sb sbClosed 0).rclDone 0 0

/-! ### Refresh (R212) -/

/-- Has a superblock a member in a FLAGGED calibration group (R244)? -/
def State.calFlagged (s : State) (sb : Nat) : Bool :=
  (s.sbMembers sb).any fun b => bit (s.calFlags (memberModule b) (memberDie b) (b / 128 % 32)) 1

/-- The refresh flags that a superblock's age, reads, soft decodes and calibration groups set (R212, R244). -/
def State.refreshFlags (s : State) (sb : Nat) : Nat :=
  let dense := s.sbMode sb = 1
  let age := s.turn - s.sbCloseStamp sb / 1024
  let ret := 2 ^ 26 * (if dense then s.fld F.FTL_REFRESH_CFG_RET_DENSE else s.fld F.FTL_REFRESH_CFG_RET_FAST)
  let lim := if dense then s.fld F.FTL_READ_LIMIT_DENSE else s.fld F.FTL_READ_LIMIT_FAST
  (if ret ≤ age then 1 else 0) + (if (List.range (s.sbW sb)).any fun j => decide (lim ≤ s.sbReads sb j) then 2 else 0) +
    (if s.fld F.FTL_REFRESH_ERR_SOFT_LIMIT ≤ s.sbSoft sb ∨ s.calFlagged sb = true then 4 else 0)

/-- Set the refresh flags of the CLOSED superblocks of an instance. -/
def State.refreshInst (s : State) (i : Nat) : State :=
  if !s.holds i then s
  else
    let l := s.allSbs.filter fun sb => s.sbInst sb == i && s.sbState sb == sbClosed
    let s1 := l.foldl (fun t sb => t.orFlags sb (s.refreshFlags sb)) s
    let new := l.any fun sb => s.refreshFlags sb != 0
    (if new then s1.raise F.FTL_RCL_ISR_REFRESH else s1).recandidate i

/-! ### Anchors (R195, R196) -/

/-- Is an anchor page due: the tail has advanced by 64 journal pages, or 1,024 turns have passed? -/
def State.anchorDue (s : State) (i : Nat) : Bool :=
  s.holds i && (decide ((s.jnl i).anchorPage + 64 ≤ s.tailPage i) || decide ((s.jnl i).anchorTurn + 1024 ≤ s.turn))

/-- Firmware names an anchor block: taken during cast-on, for an instance the head does not hold, or in place of a
failed one, which is erased before an anchor page goes into it. -/
def State.nameAnchor (s : State) (i n block : Nat) : State :=
  if s.anchorFailed i n then
    (s.setFld (anchorBlockFld i n) block).eraseAnchor i n (zeros 32)
  else if s.headState = stCastOn ∨ !s.holds i then s.setFld (anchorBlockFld i n) block
  else s.refuseAccess (anchorBlockFld i n).off

end Sys2Proof.Machine
end

