-- ==== Sys2Proof/Machine/StatusOps.lean ====
section
/-! DEFINITION. What the status of a media operation does (08, 09, 10), as the operations that commands share. -/
namespace Sys2Proof.Machine

/-! ### Lease claims (R22, R230, R254) -/

/-- A claim was granted: the module's report shows it, the head holds the half, and the claim waits for it no more. -/
def State.claimGranted (s : State) (p : PendOp) (half epoch : Nat) : State :=
  let all := bit p.op.flags 3
  let dies := if all then List.range (((s.port p.port).page.map (·.dies)).getD 0) else [p.die]
  let old := (s.pairSt.reports.get? p.port).getD []
  let report := (old.filter fun r => !(r.1 == half && dies.contains r.2.2.2)) ++ dies.map fun d => (half, epoch, s.headId, d)
  let less (c : ClaimSt) : ClaimSt :=
    if c.half = half ∧ c.epoch = epoch then
      let left := c.dies.filter fun d => d != (p.port, p.die)
      if all then { c with waiting := c.waiting.erase p.port }
      else { c with dies := left, waiting := if left.any fun d => d.1 == p.port then c.waiting else c.waiting.erase p.port }
    else c
  let s1 := if ofInst s.pairSt.claimed half = epoch then s.setEpoch half epoch else s
  (s1.modPair fun x => { x with reports := x.reports.put p.port report, claims := x.claims.map less }).settleClaims

/-- A claim was refused: the half is claimed again one above the highest epoch reported, in every present bridge; after
three rounds the module becomes AWAY. A refusal that answers an earlier round tells of its epoch alone. -/
def State.claimRefused (s : State) (p : PendOp) (half epoch reported : Nat) : State :=
  let s1 := (s.inc F.MED_EVENTS_CLAIM_REFUSED).raise F.MED_ISR_LEASE_FAULT
  match s1.pairSt.claims.find? fun c => c.half == half && c.epoch == epoch with
  | none => s1.modPair fun x => { x with claims := x.claims.map fun c => if c.half = half then { c with highest := epochMax c.highest reported } else c }
  | some c =>
    if c.round < 3 then
      (s1.claimHalf half (epochNext (epochMax (epochMax c.highest reported) (s1.highestEpoch half))) (c.round + 1) c.for_).settleClaims
    else
      ((s1.modPair fun x => { x with claims := x.claims.map fun d =>
        if d.half = half ∧ d.epoch = epoch then { d with waiting := d.waiting.erase p.port } else d }).setAway p.port).settleClaims

/-! ### Statuses (R226) -/

/-- An operation ended good. -/
def State.opGood (s : State) (p : PendOp) : State :=
  match p.purpose with
  | .program sb unit member => s.programGood sb unit member
  | .anchor i which => s.anchorGood i which
  | .anchorErase i which => s.anchorErased i which
  | .eraseMember sb member => s.eraseGood sb member
  | .openErase sb member => s.checkErased sb member none
  | .claim half epoch => s.claimGranted p half epoch
  | .paramRead => if s.flag F.MED_PARAM_CMD_BUSY then ((((s.modMedia fun m => { m with paramDest := none }).setFld F.MED_PARAM_CMD_BUSY 0).resDone
      0xD0001C [(F.MED_PARAM_RESULT_STATUS, 0)]).raise F.MED_ISR_PARAM_DONE) else s
  | _ => s

/-- A program or an erase failed: the block is retired with a reason, or not. A claim with such a status has not been
granted, and waits for its bound (R230). -/
def State.opFailed (s : State) (p : PendOp) (reason : Option Nat) : State :=
  match p.purpose with
  | .program sb _ member => s.programFailed sb member reason
  | .anchor i which => s.anchorFail i which reason
  | .anchorErase i which => s.anchorFail i which reason
  | .eraseMember sb member =>
    (match reason with
     | some r => s.retireBlock member r
     | none => s).memberErased sb member true
  | .openErase sb member => s.checkErased sb member (some (reason.getD 2))
  | _ => s

/-- PARAM_READ by firmware ends with a status. -/
def State.paramEnded (s : State) (p : PendOp) (status : Nat) : State :=
  if p.purpose == .paramRead && s.flag F.MED_PARAM_CMD_BUSY then
    (((s.modMedia fun m => { m with paramDest := none }).setFld F.MED_PARAM_CMD_BUSY 0).resDone 0xD0001C [(F.MED_PARAM_RESULT_STATUS, status)]).raise
      F.MED_ISR_PARAM_DONE
  else s

/-- The die faulted: its reads are served from their stripes, its programs and erases fail without retiring a block. -/
def State.opFaulted (s : State) (p : PendOp) : State :=
  let s1 := s.dieFault p.port p.die
  if p.purpose == .paramRead then s1.paramEnded p 7
  else if p.isRead then s1.readAgain p true else s1.opFailed p none

/-- A FATAL error of the media block. -/
def State.mediaFatal (s : State) (p : PendOp) (status : Nat) : State := (s.paramEnded p status).errFatal 0x0D

/-- What the head does on a status code. -/
def State.opStatus (s : State) (p : PendOp) (st : PurlStatus) : State :=
  match st.status with
  | 0x00 => s.opGood p
  | 0x01 => s.opFailed p (some 1)
  | 0x02 => s.opFailed p (some 2)
  | 0x03 => (s.raise F.MED_ISR_LEASE_FAULT).mediaFatal p 3
  | 0x04 => match p.purpose with
    | .claim half epoch => s.claimRefused p half epoch st.epoch
    | _ => (s.inc F.MED_EVENTS_CLAIM_REFUSED).raise F.MED_ISR_LEASE_FAULT
  | 0x06 =>
    if p.purpose == .paramRead then s.paramEnded p 6
    else if p.isRead then (s.retireBlock p.member 6).readAgain p true else s.opFailed p (some 6)
  | 0x07 => s.opFaulted p
  | 0x08 =>
    let s1 := s.inc F.MED_EVENTS_QUEUE_FULL
    if p.op.opcode = 4 ∨ p.op.opcode = 6 then s1.issueOp p else s1.queueOp (s.opBudget p) p
  | 0x09 => match p.purpose with
    | .program .. | .anchor .. => s.queueOp 6 { p with op := { p.op with flags := p.op.flags ||| 2 } }
    | .notice | .claim .. => s
    | _ => s.queueOp (s.opBudget p) p
  | c => s.mediaFatal p c

/-- Count a status and the temperature and suspends it reports; the replay journal records it (R241, R453). -/
def State.countStatus (s : State) (p : PendOp) (st : PurlStatus) : State :=
  let x := s.port p.port
  let s1 := (s.setPort p.port { x with temps := x.temps.put p.die (st.temp, s.turn) }).count64 F.MED_OPS_LO_COUNT F.MED_OPS_HI_COUNT F.MED_OPS_WRAPS_WRAPS
  let s2 := s1.modHealth fun h => { h with
    tempNow := h.tempNow.put p.port st.temp, tempMax := h.tempMax.put p.port (max st.temp ((h.tempMax.get? p.port).getD st.temp)) }
  let s3 := if st.suspends = 0 then s2
    else if p.isErase then s2.inc F.MED_SUSPENDS_ERASE st.suspends
    else if p.isProgram then s2.inc F.MED_SUSPENDS_PROGRAM st.suspends else s2
  let (fold, s4) := if p.op.opcode = 1 ∧ st.status = 0 then s3.free 32 else (0, s3)
  s4.record 3 (s.memberHalf p.member) (p.port + 2 ^ 8 * p.die + 2 ^ 16 * p.op.tag + 2 ^ 32 * (st.opcode % 256) + 2 ^ 40 * (st.status % 256) +
    2 ^ 48 * (st.suspends % 256) + 2 ^ 64 * (st.busyUs % 2 ^ 32) + 2 ^ 96 * fold)

/-- What a media operation's end may set going. -/
def State.mediaOn (s : State) : State := s.takeResults.takeRetired.packFramed.settleRows.startClaims.tryFinal.forceOn.mcmdOn

/-- A status arrives for an operation that is outstanding. -/
def State.statusArrives (s : State) (port : Nat) (st : PurlStatus) : State :=
  match s.media.out.find? fun p => p.port == port && p.op.tag == st.tag with
  | none => s
  | some p => (((s.modMedia fun m => { m with out := m.out.erase p }).countStatus p st).opStatus p st).mediaOn

/-- No status within 1 s while the port is UP: as status 0x07 of the die (R227). -/
def State.statusLate (s : State) (port tag : Nat) : State :=
  match s.media.out.find? fun p => p.port == port && p.op.tag == tag with
  | none => s
  | some p => if s.portUp port then ((s.modMedia fun m => { m with out := m.out.erase p }).opFaulted p).mediaOn else s

/-! ### Reconstruction (R236, R248, R250) -/

/-- The codewords a reconstruction solves from, where all of them are decoded. -/
def ReconSt.known (r : ReconSt) : Option (Tbl Bytes) :=
  let live := r.asked.filter fun c => !r.bad.contains c
  if live.all fun c => r.good.has c then some (r.good.filter fun p => live.contains p.1) else none

/-- May the reconstruct unit serve a source now: foreground first, and background at least one solve in four (R251)? -/
def State.solveTurn (s : State) (r : ReconSt) : Bool :=
  let waits (fg : Bool) : Bool := s.media.recons.any fun x => x.known.isSome && (x.budget == 6) == fg
  if r.budget = 6 then !(waits false) || decide (s.media.solves < 3) else !(waits true) || decide (3 ≤ s.media.solves)

/-- With K codewords of a reconstruction decoded, the wanted one is solved in its turn; solves of foreground sources are
counted while a background source waits. -/
def State.reconArrived (s : State) (sb stripe want : Nat) : State :=
  match s.recon? sb stripe want with
  | none => s
  | some r => match r.known with
    | none => s
    | some k => if s.solveTurn r then (s.solve r k).modMedia fun m => { m with solves := if r.budget = 6 then min 3 (m.solves + 1) else 0 } else s

end Sys2Proof.Machine
end

