-- ==== Sys2Proof/Machine/Media.lean ====
section
/-! DEFINITION. Ports, modules, the die arbiters, read data, calibration and superblocks at open: the meanings of
their commands (09, 10, 08). -/
namespace Sys2Proof.Machine

/-! ### Superblocks at open and partial stripes -/

/-- The head takes the next queued superblock of a stream and checks its members' erase state (R181, R209). -/
def execSuperblockOpen (inst stream : Nat) (s : State) : Result :=
  .next (s.live (if s.mayOpen inst stream then State.openNext 64 inst stream s else s))

/-- A stripe partly filled for PAD_US is completed with pad codewords (R247). -/
def execStripePad (sb : Nat) (s : State) : Result := .next (s.live (s.padSb sb))

/-! ### The die arbiters -/

/-- A die arbiter chooses the work of one slot and issues it (R215, R233). -/
def execDieArbiterSlot (module die : Nat) (s : State) : Result := .next (s.live (s.dieSlot module die))

/-! ### Training -/

/-- A port starts training: a module is present and the port is not UP, or its bridge has begun, after a restart or with
its link down, and the head trains the port with it (R223). -/
def execPurlTrainingStart (port : Nat) (s : State) : Result :=
  .next (s.live (if s.modPresent port && decide (port < s.modules) then (s.portDown port).trainPort port else s))

/-- A step's bound passed: training starts again from step 1 while presence shows a module (R223). -/
def execPurlTrainingTimeout (port : Nat) (s : State) : Result :=
  .next (s.live (
    if (s.port port).training = 0 ∨ s.portUp port then s
    else if s.modPresent port then s.trainPort port
    else s.setPort port { s.port port with training := 0 }))

/-- Copy a parameter page's masks into the die entries (R240). -/
def State.copyMasks (s : State) (m : Nat) (p : ParamPage) : State :=
  (List.range p.dies).foldl (fun t d => t.wr (s.calDie m d + 0x012) (p.ptMask.flatMap (leBytes 2))) s

/-- The head's side of the parameter exchange: HEAD_ID, the values of MED_SUSPEND_CFG within their limits (R234), and
the credits of its own receive buffers by class, which the spec leaves open: free values. -/
def State.sendParams (s : State) (port : Nat) : State :=
  let (a, s1) := s.free 16
  let (b, s2) := s1.free 16
  let (c, s3) := s2.free 16
  s3.send (.purlParam port s.headId (min (s.fld F.MED_SUSPEND_CFG_ERASE_MAX) 4) (min (s.fld F.MED_SUSPEND_CFG_PROG_MAX) 2)
    (max (s.fld F.MED_SUSPEND_CFG_GUARD_PCT) 10) (s.fld F.MED_SUSPEND_CFG_MIN_RUN_US) [a, b, c])

/-- A parameter page arrives at step 6 with the bridge's initial credits by class (R223, R224): accepted, the link starts
afresh and the head's own parameters go out; or refused. -/
def execParameterPage (port : Nat) (p : ParamPage) (credits : List Nat) (s : State) : Result :=
  .next (s.live (
    if (s.port port).training = 0 ∨ s.portUp port then s
    else if pageFits p then
      let (seeds, s0) := s.seeds 2
      let s1 := s0.setPort port { s.port port with page := some p, training := 7, link := freshLink credits seeds }
      (((s1.setFld (F.MED_PORT_STATUS_PARAM_BAD port) 0).copyMasks port p).send (.purlTrain port 6)).sendParams port
    else (s.setFld (F.MED_PORT_STATUS_PARAM_BAD port) 1).setPort port { s.port port with training := 0 }))

/-- Does this head hold a half by its own record: a half it has claimed, granted or not? -/
def State.ownHalf (s : State) (half : Nat) : Bool :=
  (s.holds half || s.pairSt.takeover != 0 || s.pairSt.starting == 2) && ofInst s.pairSt.claimed half != 0

/-- The half-dies the head holds that a report does not show it holding (R254). -/
def State.unshown (s : State) (port : Nat) (report : List (Nat × Nat × Nat × Nat)) (half : Nat) : List Nat :=
  if s.ownHalf half then
    (List.range (((s.port port).page.map (·.dies)).getD 0)).filter fun d => !report.contains (half, ofInst s.pairSt.claimed half, s.headId, d)
  else []

/-- Claim half-dies of one module, one by one (R254); a module that comes back while the half's own claim is out joins
that claim (R230). -/
def State.reassert (s : State) (port half : Nat) (dies : List Nat) : State :=
  match s.pairSt.claims.find? fun c => c.half == half && c.dies.isEmpty with
  | some c =>
    (s.sendClaim half c.epoch none port).modPair fun p => { p with claims := p.claims.map fun x =>
      if x.half = half ∧ x.dies.isEmpty then { x with waiting := x.waiting.erase port ++ [port] } else x }
  | none =>
    if dies.isEmpty then s
    else
      let e := ofInst s.pairSt.claimed half
      let s1 := dies.foldl (fun t d => t.sendClaim half e (some d) port) s
      s1.modPair fun p => { p with claims := p.claims ++
        [{ half := half, epoch := e, round := 1, waiting := [port], highest := e, for_ := .reassert, dies := dies.map fun d => (port, d) }] }

/-- The lease state report ends training: the port is UP, its module SERVING, and what the head holds is claimed
again where the report does not show it (R223 step 7, R252, R254). -/
def execLeaseStateReport (port : Nat) (report : List (Nat × Nat × Nat × Nat)) (s : State) : Result :=
  .next (s.live (
    if (s.port port).training ≠ 7 ∨ s.portUp port then s
    else
      let s1 := ((((s.setFld (F.MED_PORT_STATUS_UP port) 1).setFld (F.MED_PORT_STATUS_POWER_WARN port) 0).setFld (F.MED_PORT_STATUS_DEGRADED port) 0).setFld
        (F.MED_PORT_STATUS_WIDTH port) (if s.pattern.purlX2 then 2 else 1)).setPort port { s.port port with training := 0 }
      let s2 := ((s1.modPair fun p => { p with reports := p.reports.put port report }).raise F.MED_ISR_PORT_UP).setServing port
      ((s2.reassert port 0 (s2.unshown port report 0)).reassert port 1 (s2.unshown port report 1)).bridgeBack port))

/-! ### Frames, replay, recovery (R219-R221) -/

/-- Replay from the frame after an acknowledged one; after eight replays of one SEQ link recovery starts. -/
def State.purlReplayFrom (s : State) (port ack : Nat) : State :=
  let l := s.linkOf port
  let fails := if ack = l.ackSeq then l.replayFails else 0
  if 8 ≤ fails then (s.setLink port { l with ackSeq := ack, replayFails := 0 }).setFld (F.MED_PORT_STATUS_RECOVERING port) 1
  else ((s.setLink port { l with ackSeq := ack, replayFails := fails + 1 }).inc F.MED_ERR_COUNTS_REPLAYS).send
    (.purlReplay port ((ack + 1) % 4096) l.txSeq)

/-- A frame as the port's lanes deliver it: a discard with a reserved field is counted (R219), replay is asked for, and a
NAK is answered. -/
def State.takeFrame (s : State) (port : Nat) (raw : Bytes) : State :=
  let r := LinkKind.purl.receive (s.purlLanes port).length (s.linkOf port) raw
  let s1 := s.setLink port r.1
  match r.2 with
  | .nothing | .data _ _ => s1
  | .nak counted => (if counted then s1.inc F.MED_ERR_COUNTS_DISCARDS else s1).send (.purlNak port r.1.rxSeq)
  | .replay ack => s1.purlReplayFrom port ack

/-- PURL_FRAME_DISCARD: the frames received up to the one discarded, as they came in. -/
def execPurlFrameDiscard (port : Nat) (frames : List Bytes) (s : State) : Result :=
  .next (s.live (if s.linked port then frames.foldl (fun t f => t.takeFrame port f) s else s))

def execPurlNak (port : Nat) (frame : Bytes) (s : State) : Result :=
  .next (s.live (if s.linked port then s.takeFrame port frame else s))

def execPurlReplayTimeout (port : Nat) (s : State) : Result :=
  .next (s.live (if s.linked port ∧ (s.linkOf port).ackSeq ≠ (s.linkOf port).txSeq then s.purlReplayFrom port (s.linkOf port).ackSeq else s))

/-- Link recovery completes: frames lost to it are sent again; or it fails and the port goes down. -/
def execPurlRecoveryDone (port : Nat) (ok : Bool) (s : State) : Result :=
  .next (s.live (
    if !s.flag (F.MED_PORT_STATUS_RECOVERING port) then s
    else
      let s1 := s.setFld (F.MED_PORT_STATUS_RECOVERING port) 0
      if ok then
        let l := s1.linkOf port
        let (seeds, s2) := s1.seeds 2
        (s2.setLink port { l with replayFails := 0, discarding := false, scramblers := seeds }).send (.purlReplay port ((l.ackSeq + 1) % 4096) l.txSeq)
      else s1.portDown port))

/-- A lane of a x2 port fails, by loss of lock or by its corrected bytes: the port goes on at x1 from the SEQ its width
message names. -/
def execPurlLaneFailing (port lane seq : Nat) (lostLock : Bool) (s : State) : Result :=
  .next (s.live (
    if s.portUp port ∧ s.fld (F.MED_PORT_STATUS_WIDTH port) = 2 ∧ lane < 2 ∧ (s.port port).narrow.isNone ∧
        (lostLock ∨ s.fld F.MED_CTRL_LANE_THRESH < ((s.linkOf port).corrected.get? lane).getD 0) then
      (((s.setFld (F.MED_PORT_STATUS_DEGRADED port) 1).setPort port
        { s.port port with narrow := some (seq % 4096, lane) }).raise F.MED_ISR_DEGRADED).send (.purlWidth port (seq % 4096))
    else s))

/-! ### Alerts (R232) -/

/-- Record the latest alert. -/
def State.alertLast (s : State) (port code die : Nat) : State :=
  (((s.setFld F.MED_ALERT_LAST_CODE code).setFld F.MED_ALERT_LAST_MODULE port).setFld F.MED_ALERT_LAST_DIE die).raise F.MED_ISR_ALERT

def execAlertPowerWarning (port : Nat) (s : State) : Result :=
  .next (s.live (
    let s1 := (s.alertLast port 1 0).setFld (F.MED_PORT_STATUS_POWER_WARN port) 1
    if s1.modState port == modServing then s1.leave port modAway else s1))

def execAlertDieFault (port die : Nat) (s : State) : Result := .next (s.live ((s.alertLast port 2 die).dieFault port die))

def execAlertTemperature (port die : Nat) (s : State) : Result := .next (s.live ((s.alertLast port 3 die).raise F.MED_ISR_HOT))

def execAlertBridgeRestart (port : Nat) (s : State) : Result :=
  .next (s.live (
    let s1 := s.alertLast port 4 0
    if s1.modState port == modServing then s1.leave port modHeld else s1))

def execAlertReserved (port code die : Nat) (s : State) : Result := .next (s.live ((s.alertLast port code die).inc F.MED_EVENTS_BAD_ALERTS))

/-! ### Read data (R225) -/

/-- Zero bits of the bytes of a codeword. -/
def zeroBits (b : Bytes) : Nat := (b.map fun x => 8 - popCount 8 x.toNat).foldl (· + ·) 0

/-- Count one codeword read of a member block since its erase (R199). -/
def State.countRead (s : State) (member : Nat) : State :=
  let n := (s.media.reads.get? member).getD 0 + 1
  let s1 := s.modMedia fun m => { m with reads := m.reads.put member n }
  if n % 1024 = 0 then
    match s.sbOfMember member with
    | some sb => s1.addStat sb (0x20 + 2 * (s.sbMembers sb).findIdx (· == member)) 2 1
    | none => s1
  else s1

/-- One codeword, or a page of parameters, arrives for an outstanding read. -/
def execReadDataMessage (port tag cw : Nat) (data : Bytes) (s : State) : Result :=
  .next (s.live (
    match s.media.out.find? fun p => p.port == port && p.op.tag == tag && p.isRead with
    | none => s
    | some p =>
      let s1 := if p.op.opcode = 1 then s.countRead p.member else s
      match p.purpose with
      | .stitchRead sid => (s1.modStitch sid fun t => { t with data := data, ready := true }).settleRows
      | .softRead sid =>
        (s1.modStitch sid fun t =>
          { t with softReads := t.softReads ++ [data], ready := decide ((if t.softStage = 1 then 2 else 4) ≤ t.softReads.length + 1) }).settleRows
      | .rebuildRead sb stripe want c => s1.reconHard sb stripe want c data
      | .rebuildSoft sb stripe want c => (s1.reconSoft sb stripe want c data).mediaOn
      | .openCheck sb member which => s1.checkRead sb member which (decide (zeroBits data ≤ s.fld F.FTL_REFRESH_ERR_ERASE_CHECK_BITS))
      | .paramRead => match s.media.paramDest with
        | some a => s1.wr (a + 4608 * cw) data
        | none => s1
      | _ => s1))

/-! ### PARAM_READ by firmware -/

/-- MED_PARAM_RESULT is written. -/
def State.paramDone (s : State) (status : Nat) : State :=
  ((((s.modMedia fun m => { m with paramDest := none }).setFld F.MED_PARAM_CMD_BUSY 0).resDone 0xD0001C [(F.MED_PARAM_RESULT_STATUS, status)]).raise
    F.MED_ISR_PARAM_DONE)

/-- Firmware reads a parameter page or a bad-block bitmap: the operation draws on budget 5 of its die. -/
def execParamRead (_who : Requester) (page die module : Nat) (s : State) : Result :=
  .next (s.live (s.startWith [(F.MED_PARAM_CMD_PAGE, page), (F.MED_PARAM_CMD_DIE, die), (F.MED_PARAM_CMD_MODULE, module)] (s.flag F.MED_PARAM_CMD_BUSY) fun t =>
    let u := t.resStart 0xD0001C
    let m := u.fld F.MED_PARAM_CMD_MODULE
    if !u.portUp m then u.paramDone 5
    else
      ((u.setFld F.MED_PARAM_CMD_BUSY 1).modMedia fun x => { x with paramDest := some (u.base F.MED_PARAM_ADDR_LO_ADDR F.MED_PARAM_ADDR_HI_ADDR 6) }).queueOp 5
        { port := m, op := plainOp 5 0 0 0 (u.fld F.MED_PARAM_CMD_DIE * 2 ^ 28 + u.fld F.MED_PARAM_CMD_PAGE * 4), purpose := .paramRead, data := [] }))

/-! ### LLR tables and calibration -/

/-- The head recomputes a die's LLR tables from its tallies (R238). -/
def execLlrRecompute (module die : Nat) (s : State) : Result := .next (s.live (s.recomputeLlr module die))

/-- A calibration pass of a block group: its reads draw on budget 4 (R242, R243). -/
def execCalibrationPass (module die group : Nat) (probes : List CalProbe) (s : State) : Result :=
  .next (s.live (
    if s.flag F.LDC_CAL_CTRL_ENABLE then
      let reads := (probes.map fun p => 1 + 2 * p.refs.length).foldl (· + ·) 0
      ((List.range reads).foldl (fun t _ => t.slotGiven (unitDie module die) (.budget 4)) s).calPass module die group probes
    else s))

/-! ### Modules (R252) -/

/-- A module's presence line changes. -/
def execModulePresenceChange (port : Nat) (present : Bool) (s : State) : Result :=
  .next (
    let port := port % 64
    let s1 := s.setFld (F.MED_PORT_STATUS_PRESENT port) (if present then 1 else 0)
    if !s.pins.powered then s1
    else s1.live (
    if present then (if s.modPresent port ∨ s.portUp port ∨ s.modules ≤ port ∨ s.fld F.GLB_CASTON_STATUS_STEP < 9 then s1 else s1.trainPort port)
    else
      let s2 := s1.portDown port
      if s2.modState port == modServing then s2.leave port modAway else s2.setPort port { s2.port port with training := 0 }))

/-- HELD_LIMIT elapsed since alert 0x04. -/
def execHeldLimitExpiry (port : Nat) (s : State) : Result := .next (s.live (if s.modState port == modHeld then s.setAway port else s))

/-- AWAY_LIMIT elapsed. -/
def execAwayLimitExpiry (port : Nat) (s : State) : Result := .next (s.live (s.setLost port))

end Sys2Proof.Machine
end

