-- ==== Sys2Proof/Machine/MediaStatus.lean ====
section
/-! DEFINITION. Operation statuses and reconstruction: the meanings of their commands (09, 10). -/
namespace Sys2Proof.Machine

/-- A bridge's status for an operation arrives (R226). -/
def execOperationStatus (port : Nat) (st : PurlStatus) (s : State) : Result := .next (s.live (s.statusArrives port st))

/-- An operation's status has not come within 1 s (R227). -/
def execOpStatusTimeout (port tag : Nat) (s : State) : Result := .next (s.live (s.statusLate port tag))

/-- The codewords a reconstruction asked for are all decoded, and the wanted one is solved (R248). -/
def execReconstructSolve (sb stripe want : Nat) (s : State) : Result :=
  .next (s.live ((s.reconArrived sb stripe want).takeResults.takeRetired.settleRows))

end Sys2Proof.Machine
end

