-- ==== Sys2Proof/Machine/MotifOps.lean ====
section
/-! DEFINITION. Motif slots: their groups, bindings, loads, faults and ports (18), as the operations that commands share. -/
namespace Sys2Proof.Machine

/-! ### Groups (R412, R422) -/

/-- The STATE codes of a group. -/
def mtEmpty : Nat := 0
def mtLoading : Nat := 1
def mtReady : Nat := 2
def mtFaulted : Nat := 3

def State.mtState (s : State) (l : Nat) : Nat := s.fld (F.MTF_SLOT_STATUS_STATE l)
def State.mtTenant (s : State) (l : Nat) : Nat := s.fld (F.MTF_SLOT_STATUS_TENANT l)
def State.mtSize (s : State) (l : Nat) : Nat := (slotGroup s.pattern.motif l).length
def State.mtLeads (s : State) (l : Nat) : Bool := (slotGroup s.pattern.motif l).headD l == l
def State.mtGroup (s : State) (l : Nat) : MtGroup := (s.mtf.groups.get? l).getD {}
def State.modGroup (s : State) (l : Nat) (f : MtGroup → MtGroup) : State :=
  s.modMtf fun m => { m with groups := m.groups.modify l f }

/-- CAP_MW with its substitution. -/
def State.capMw (s : State) (l : Nat) : Nat := min (s.fld (F.MTF_SLOT_POWER_CAP_MW l)) (4000 * s.mtSize l)

/-! ### Commands -/

def mtfRes : Nat := 0x1600020

/-- A command completes. -/
def State.mtfDone (s : State) (code : Nat) : State :=
  ((s.setFld F.MTF_CMD_BUSY 0).resDone mtfRes [(F.MTF_CMD_RESULT_CODE, code)]).raise F.MTF_ISR_CMD_DONE

/-- Start a command on a slot; a slot that leads no group is refused. -/
def State.mtfStart (s : State) (op mode slot : Nat) (run : State → Nat → State) : State :=
  s.startWith [(F.MTF_CMD_OP, op), (F.MTF_CMD_MODE, mode), (F.MTF_CMD_SLOT, slot)] (s.flag F.MTF_CMD_BUSY) fun t =>
    let u := (t.resStart mtfRes).setFld F.MTF_CMD_BUSY 1
    if 4 ≤ u.fld F.MTF_CMD_OP then u.mtfDone 6
    else if !u.mtLeads (slot % 8) then u.mtfDone 3
    else run u (slot % 8)

/-! ### Loading (R419-R421) -/

def State.bitAddr (s : State) : Nat := s.base F.MTF_CMD_ADDR_LO_ADDR F.MTF_CMD_ADDR_HI_ADDR 6
/-- A field of the bitstream's header. -/
def State.bitFld (s : State) (off n : Nat) : Nat := s.rdN (s.bitAddr + off) n

/-- The staging area is zeroed. -/
def State.zeroStaging (s : State) : State :=
  let a := s.mtfBase + 0x100000
  { s with dram := s.dram.filter fun c => !(decide (a ≤ c.1) && decide (c.1 < a + 2 ^ 27)) }

/-- The signature of a bitstream (R48, R419): the SHA-256 of the signer's key is a key hash of MTF_OPKEY that is not zero,
and the signature over every earlier byte verifies. -/
def State.bitSigner (s : State) : Bool :=
  let n := 256 + s.bitFld 0x18 4 + 16
  let sig := s.bitAddr + n
  let k := s.rdN sig 1
  let own := (List.range 8).flatMap fun w => leBytes 4 (s.fld (F.MTF_OPKEY_HASH k w))
  let num (off : Nat) : Nat := beNat (s.rd (sig + off) 48)
  decide (k < 4) && (own.any fun x => x != 0) && sha256 (s.rd (sig + 0x10) 96) == own &&
    ecdsaOk (num 0x10) (num 0x40) (num 0x70) (num 0xA0) (beNat (sha256 (s.rd s.bitAddr n)))

/-- The version of the shell that a group's next LOAD gives it (R424). -/
def State.shellVersion (s : State) (l : Nat) : Nat :=
  if s.upd.groups.contains l && s.phase != phFrogged then (((s.upd.staged.get? 6).map (·.version)).getD 0)
  else if s.upd.oldVer.has 6 && !s.upd.groups.contains l then (s.upd.oldVer.get? 6).getD 0
  else s.fld (F.UPD_RUN_VERSION_VERSION 6)

/-- Why a bitstream's header is refused: 1 what it is, 2 what it asks for, 3 the wrong size; 0 where it is not. -/
def State.bitCode (s : State) (l : Nat) : Nat :=
  let f := s.bitFld
  if f 0 4 ≠ 0x4246544D ∨ f 4 2 ≠ 1 ∨ ((s.rd (s.bitAddr + 0x24) 220).any fun x => x != 0) then 1
  else if f 6 2 ≠ s.mtSize l then 3
  else if f 8 2 = 0 ∨ 4096 ≤ f 8 2 ∨ 1024 ≤ f 0xA 2 ∨ !s.loaded (0x2000 + f 0xA 2) ∨ 2 ^ 25 * s.mtSize l < f 0x18 4 ∨
      s.shellVersion l < f 0x1C 4 ∨ f 0x20 2 < 50 ∨ s.pattern.bins.getD 3 600 < f 0x20 2 ∨ s.capMw l < f 0x22 2 then 2
  else if !s.bitSigner then 1
  else 0

/-- The slots of a group gain or lose power (R476's CRP_STATUS, log entry 196). -/
def State.slotPower (s : State) (l : Nat) (on : Bool) : State :=
  let mask := (slotGroup s.pattern.motif l).foldl (fun a m => a ||| 2 ^ m) 0
  let was := s.fld F.CRP_STATUS_MOTIF
  let v := if on then was ||| mask else was - (was &&& mask)
  if v = was then s else (s.setFld F.CRP_STATUS_MOTIF v).raise F.CRP_ISR_DOMAIN

/-- LOAD: the header is checked and the signature verified; the load then runs. -/
def State.mtfLoad (s : State) (l : Nat) : State :=
  if s.mtState l ≠ mtEmpty then s.mtfDone 3
  else
    let code := s.bitCode l
    if code ≠ 0 then s.zeroStaging.mtfDone code
    else
      (((s.setFld (F.MTF_SLOT_STATUS_STATE l) mtLoading).setFld (F.MTF_SLOT_STATUS_TENANT l) (s.bitFld 8 2)).slotPower l true).modMtf fun m => { m with loading := some l }

/-- A group is EMPTY: zeroed, its clock stopped. -/
def State.emptyGroup (s : State) (l : Nat) : State :=
  ((((s.setFld (F.MTF_SLOT_STATUS_STATE l) mtEmpty).setFld (F.MTF_SLOT_STATUS_TENANT l) 0).setFld (F.MTF_SLOT_STATUS_CAUSE l) 0).slotPower l false).modMtf fun m =>
    { m with groups := m.groups.del l, loading := if m.loading = some l then none else m.loading }

/-- The load that runs ends: the ciphertext is decrypted and its tag checked, the configuration written, and the shell
checks itself. -/
def State.mtfLoaded (s : State) (selfOk : Bool) : State :=
  match s.mtf.loading with
  | none => s
  | some l =>
    let a := s.bitAddr
    let n := s.bitFld 0x18 4
    let slot := s.bitFld 0xA 2
    match s.keyOf (0x2000 + slot) with
    | none => ((s.emptyGroup l).zeroStaging).mtfDone 2
    | some key =>
      let s1 := s.useGcm slot
      match gcmDec key (gcmIv (s.bitFld 0xC 4) (s.bitFld 0x10 8)) (s.rd a 256) (s.rd (a + 256) n) (s.rd (a + 256 + n) 16) with
      | some p =>
        if selfOk then
          let s2 := (s1.setFld (F.MTF_SLOT_STATUS_STATE l) mtReady).modMtf fun m =>
            { m with loading := none, groups := m.groups.put l { config := p, freq := s.bitFld 0x20 2 } }
          ((s2.zeroStaging).raise F.MTF_ISR_LOADED).mtfDone 0
        else ((s1.emptyGroup l).zeroStaging).mtfDone 1
      | none => ((s1.authFail.emptyGroup l).zeroStaging).mtfDone 1

/-- UNLOAD: a READY or FAULTED group with no binding becomes EMPTY. -/
def State.mtfUnload (s : State) (l : Nat) : State :=
  if !(s.mtState l = mtReady ∨ s.mtState l = mtFaulted) then s.mtfDone 7
  else if s.fld (F.MTF_SLOT_BINDS_BINDINGS l) ≠ 0 then s.mtfDone 4
  else (s.emptyGroup l).mtfDone 0

/-! ### Binding (R416, R417) -/

/-- The tenant that owns a domain, 0 for none. -/
def State.domainTenant (s : State) (d : Nat) : Nat := s.rdN (s.mtfBase + 2 * d) 2 % 4096

/-- Has a namespace of a volume protection information? -/
def State.volHasPi (s : State) (vol : Nat) : Bool :=
  s.dram.any fun c => decide (s.nvqBase ≤ c.1) && decide (c.1 < s.nvqBase + 16 * 65536) && (c.1 - s.nvqBase) % 16 == 4 &&
    (let n := (c.1 - s.nvqBase) / 16 + 1
     bit (s.nsFlags n) 0 && s.nsVolume n == vol && s.nsPi n != 0)

/-- Does the head refuse a BIND (R416)? -/
def State.bindRefused (s : State) (l vol mode : Nat) : Bool :=
  !s.volValid vol || !s.holds (s.volHome vol) || s.domainTenant (s.volDomain vol) != s.mtTenant l || (s.bindingOf vol).isSome ||
  mode == 0 || (bit mode 1 && bit mode 2) || (bit mode 2 && s.volHasPi vol)

/-- BIND. -/
def State.mtfBind (s : State) (l : Nat) : State :=
  let vol := s.fld F.MTF_CMD_ARG_VOLUME
  let mode := s.fld F.MTF_CMD_MODE
  if s.mtState l ≠ mtReady then s.mtfDone 7
  else if s.bindRefused l vol mode then s.mtfDone 5
  else ((s.wrN (s.bindAddr vol) 4 (l + 8 + 16 * mode)).wrapInc (F.MTF_SLOT_BINDS_BINDINGS l)).mtfDone 0

/-- Stitches of a volume that are bound and in the MT stage. -/
def State.mtHolds (s : State) (vol : Nat) : Bool :=
  s.rows.stitches.any fun p => p.2.volume == vol && p.2.stage == stMT && p.2.mt.isSome

/-- An UNBIND completes once no Stitch of its volume is in the MT stage. -/
def State.unbindOn (s : State) : State :=
  match s.mtf.unbinding with
  | some v => if s.mtHolds v then s else (s.modMtf fun m => { m with unbinding := none }).mtfDone 0
  | none => s

/-- UNBIND: no Stitch admitted from now on is bound. A volume that is not bound to the group is out of range. -/
def State.mtfUnbind (s : State) (l : Nat) : State :=
  let vol := s.fld F.MTF_CMD_ARG_VOLUME
  if (s.bindingOf vol).map (·.1) ≠ some l then s.mtfDone 2
  else
    (((s.wrN (s.bindAddr vol) 4 0).setFld (F.MTF_SLOT_BINDS_BINDINGS l) (s.fld (F.MTF_SLOT_BINDS_BINDINGS l) - 1)).modMtf fun m =>
      { m with unbinding := some vol }).unbindOn

/-! ### The MT stage (R418, R422) -/

/-- Stitches in the MT stage that take a group's output. -/
def State.xformsOf (s : State) (l : Nat) : List Nat :=
  (s.rows.stitches.filter fun p => p.2.stage == stMT && p.2.cls == 1 && p.2.mt.any fun b => b.1 == l && bit b.2 2).map (·.1)

/-- A READY group faults: its ports are fenced, and every XFORM_READ Stitch in the MT stage ends. -/
def State.mtFault (s : State) (l cause : Nat) : State :=
  if s.mtState l ≠ mtReady then s
  else
    let s1 := (((s.setFld (F.MTF_SLOT_STATUS_STATE l) mtFaulted).setFld (F.MTF_SLOT_STATUS_CAUSE l) cause).raise F.MTF_ISR_FAULT).modGroup l fun g =>
      { g with queue := [], xform := [] }
    (s.xformsOf l).foldl (fun t sid => t.retire sid 4 stMT) s1

/-- The tenant's logic takes blocks from its queue, in order. -/
def State.deliverBlocks (s : State) (l n : Nat) : State :=
  let q := (s.mtGroup l).queue
  (q.take n).foldl (fun t b => t.send (.blkIn l b)) (s.modGroup l fun g => { g with queue := q.drop n })

/-- A tapped block skips the slot. -/
def State.skipBlock (s : State) (l : Nat) : State :=
  (s.modGroup l fun g => { g with skipped := g.skipped + 1 }).inc (F.MTF_SLOT_EVENTS_SKIPS l)

/-- Put a Stitch's block into the group's input queue. -/
def State.queueBlock (s : State) (l : Nat) (t : Stitch) (mode : Nat) : State :=
  s.modGroup l fun g =>
    { g with queue := g.queue ++ [{ lba := t.lba, volume := t.volume, mode := mode, dir := if t.cls = 0 then 0 else 1, skipped := g.skipped % 2 ^ 32, data := t.data }],
             skipped := 0 }

/-- MT's work on a Stitch: `taken` blocks have left the group's queue before. A tap never holds it; an XFORM_READ Stitch
waits for a queue entry, and then for the output. -/
def State.mtWork (s : State) (sid : Nat) (t : Stitch) (taken : Nat) : State :=
  match t.mt with
  | none => s.finishStage sid
  | some (l, mode) =>
    let s1 := s.deliverBlocks l taken
    let room := decide ((s1.mtGroup l).queue.length < 64)
    if t.cls = 1 ∧ bit mode 2 then
      if s.mtState l ≠ mtReady then s1.retire sid 4 stMT
      else if t.mtSent ∨ !room then s1
      else ((s1.queueBlock l t mode).modGroup l fun g => { g with xform := g.xform ++ [sid] }).modStitch sid fun t => { t with mtSent := true }
    else if (t.cls = 0 ∧ bit mode 0) ∨ (t.cls = 1 ∧ bit mode 1) then
      (if s.mtState l = mtReady ∧ room then s1.queueBlock l t mode else s1.skipBlock l).finishStage sid
    else s1.finishStage sid

/-- A block of output arrives for the oldest XFORM_READ Stitch that waits for one. -/
def State.takeBlkOut (s : State) (l : Nat) (data : Bytes) (guardOk : Bool) : State :=
  if s.mtState l ≠ mtReady then s
  else match (s.mtGroup l).xform with
    | [] => s
    | sid :: r =>
      let s1 := s.modGroup l fun g => { g with xform := r }
      if guardOk then ((s1.setOutput sid data []).modStitch sid fun t => { t with guard := carryGuard data }).finishStage sid
      else s1.mtFault l 3

/-! ### Power (R423) -/

/-- A measurement of a group's power, every 10 µs. -/
def State.powerSample (s : State) (l mw : Nat) : State :=
  let cap := s.capMw l
  let s1 := s.setFld (F.MTF_SLOT_POWER_NOW_MW l) mw
  if s.mtState l ≠ mtReady then s1
  else if 5 * cap < 4 * mw then s1.mtFault l 2
  else
    let g := s.mtGroup l
    let above := if cap < mw then g.above + 1 else 0
    let under := if 10 * mw < 9 * cap then g.under + 1 else 0
    if !g.halved ∧ 10 ≤ above then
      (s1.modGroup l fun g => { g with halved := true, above := 0, under := 0 }).inc (F.MTF_SLOT_EVENTS_THROTTLES l)
    else s1.modGroup l fun g => { g with above := above, under := under, halved := g.halved && decide (under < 100) }

/-! ### The shell's ports (R413-R415) -/

/-- A refused access: counted, and the group faults. -/
def State.violation (s : State) (l : Nat) : State := (s.inc (F.MTF_SLOT_EVENTS_VIOLATIONS l)).mtFault l 5

/-- A MEM access of 64 bytes at a handle and an offset. -/
def State.shellMem (s : State) (l handle off : Nat) (data : Option Bytes) (e : MemErr) : State :=
  let p := handlePool handle
  let ok := handle != noBobbin && decide (handleIndex handle < s.poolCount p) && s.bobState p (handleIndex handle) == 1 &&
    s.poolTenant p == s.mtTenant l && decide (off + 64 ≤ s.poolSize p)
  if ok then s.request { cls := 6, addr := s.bobbinAddr handle + off, len := 64, data := data.map fun d => (d ++ zeros 64).take 64 } e
  else (if data.isNone then s.send (.memData 6 (s.bobbinAddr handle + off) (zeros 64) false) else s).violation l

/-- A BOB operation on the tenant's pools. -/
def State.shellBob (s : State) (l : Nat) (op : BobOp) : State :=
  let t := s.mtTenant l
  match op with
  | .alloc pool =>
    if s.poolTenant (pool % 64) = t then
      match s.allocBobbin (pool % 64) t with
      | (code, h, s1) => s1.send (.bobbin 6 t h code)
    else (s.send (.bobbin 6 t 0 0)).violation l
  | .inc h => if s.poolTenant (handlePool h) = t then s.incBobbin t h else s.violation l
  | .free h => if s.poolTenant (handlePool h) = t then s.decBobbin t h else s.violation l

/-- A QP operation on the tenant's queues: a WQE posted, or a CQE read. -/
def State.shellQp (s : State) (l : Nat) (op : SlotQpOp) : State :=
  let t := s.mtTenant l
  let mine (cls tenant : Nat) : Bool := cls == 1 && tenant == t
  match op with
  | .postSend qpn k w => match (s.qp? qpn).filter fun q => mine q.cls q.tenant with
    | some q => if q.sqSize = 0 then s else s.wr (q.sqAddr + 64 * (k % q.sqSize)) ((w ++ zeros 64).take 64)
    | none => s.violation l
  | .postRecv qpn k w => match (s.qp? qpn).filter fun q => mine q.cls q.tenant with
    | some q => if q.rqSize = 0 then s else s.wr (q.rqAddr + 16 * (k % q.rqSize)) ((w ++ zeros 16).take 16)
    | none => s.violation l
  | .postShared srq k w => match (s.rdt.srqs.get? srq).filter fun q => mine q.cls q.tenant with
    | some q => if q.size = 0 then s else s.wr (q.addr + 16 * (k % q.size)) ((w ++ zeros 16).take 16)
    | none => s.violation l
  | .readCq cq k => match (s.cq? cq).filter fun c => mine c.cls c.tenant with
    | some c =>
      (s.send (.slotCqe l cq (s.rd (c.addr + 32 * (k % max 1 c.size)) 32))).modRdt fun r => { r with
        cqs := r.cqs.modify cq fun c => { c with unread := c.unread - 1 } }
    | none => (s.send (.slotCqe l cq (zeros 32))).violation l

/-- An EXPORT block: coded at level 1 with no dictionary, raw where its stream would not fit, and sent as a frame on a
queue pair of the tenant. A queue pair that is not connected sends nothing. -/
def State.shellSend (s : State) (l qpn : Nat) (block : Bytes) : State :=
  match (s.qp? qpn).filter fun q => q.cls == 1 && q.tenant == s.mtTenant l with
  | none => s.violation l
  | some q =>
    if q.state ≠ 1 then s
    else
      let b := (block ++ zeroBlock).take 4096
      let stream := encodeStream 1 [] 0 b
      let raw := slotClassOf 8 stream.length = 15
      let frame := frameBytes (carryGuard b) 0 0 raw (if raw then b else stream)
      let pkts := dataPkts q .send none 0 0 frame
      s.launch qpn q { index := 0, op := 1, wrId := 0, first := 0, last := 0, len := frame.length, signaled := false, laddr := 0, got := 0,
                       host := none, bytes := [], pi := [], pkts := pkts } pkts.length

/-- What a port of a slot does: nothing unless its group is READY. -/
def State.atPort (s : State) (l : Nat) (run : State → State) : State := if s.mtState l = mtReady then run s else s

end Sys2Proof.Machine
end

