-- ==== Sys2Proof/Machine/Motif.lean ====
section
/-! DEFINITION. Motif slots: the meanings of their commands (18). -/
namespace Sys2Proof.Machine

/-- The MT stage works on a Stitch (R418): `taken` blocks have left its group's queue since. -/
def execMtStage (sid : Nat) (chk : StageCheck) (taken : Nat) (s : State) : Result :=
  .next (s.live ((s.runStage sid stMT chk fun u t => u.mtWork sid t taken).afterStage))

/-- MTF_CMD LOAD (R419, R421). -/
def execSlotLoad (slot : Nat) (s : State) : Result := .next (s.live (s.mtfStart 0 0 slot fun t l => t.mtfLoad l))

/-- The load that runs ends (R421). -/
def execSlotLoadComplete (selfOk : Bool) (s : State) : Result := .next (s.live (s.mtfLoaded selfOk))

/-- MTF_CMD UNLOAD (R422). -/
def execSlotUnload (slot : Nat) (s : State) : Result := .next (s.live (s.mtfStart 1 0 slot fun t l => t.mtfUnload l))

/-- MTF_CMD BIND of the volume in MTF_CMD_ARG (R416). -/
def execBind (slot mode : Nat) (s : State) : Result := .next (s.live (s.mtfStart 2 mode slot fun t l => t.mtfBind l))

/-- MTF_CMD UNBIND (R416). -/
def execUnbind (slot mode : Nat) (s : State) : Result := .next (s.live (s.mtfStart 3 mode slot fun t l => t.mtfUnbind l))

/-- The Stitches of an unbinding volume have left the MT stage (R416). -/
def execUnbindDrained (s : State) : Result := .next (s.live s.unbindOn)

/-- MTF_CMD with a reserved OP. -/
def execMtfReservedOp (op slot : Nat) (s : State) : Result := .next (s.live (s.mtfStart (4 + op % 12) 0 slot fun t _ => t))

/-- No BLK_OUT beat for ENGINE_TIMEOUT_US while a Stitch waits for one (R422). -/
def execSlotOutputTimeout (slot : Nat) (s : State) : Result :=
  .next (s.live (if (s.mtGroup (slot % 8)).xform.isEmpty then s else (s.mtFault (slot % 8) 1).afterStage))

/-- The shell measures a group's power (R423). -/
def execSlotPowerSample (slot mw : Nat) (s : State) : Result := .next (s.live ((s.powerSample (slot % 8) mw).afterStage))

/-- The tenant's logic reports an error (R413). -/
def execSlotErr (slot : Nat) (s : State) : Result := .next (s.live ((s.mtFault (slot % 8) 4).afterStage))

/-- A BLK_OUT block arrives; `guardOk` says that its guard matches at the next check (R418). -/
def execBlkOut (slot : Nat) (data : Bytes) (guardOk : Bool) (s : State) : Result :=
  .next (s.live ((s.takeBlkOut (slot % 8) ((data ++ zeroBlock).take 4096) guardOk).afterStage))

/-- A MEM access (R415). -/
def execShellMemAccess (slot handle off : Nat) (data : Option Bytes) (e : MemErr) (s : State) : Result :=
  .next (s.live (s.atPort (slot % 8) fun t => (t.shellMem (slot % 8) (handle % 2 ^ 32) off data e).afterStage))

/-- A BOB operation (R415). -/
def execShellBobOp (slot : Nat) (op : BobOp) (s : State) : Result := .next (s.live (s.atPort (slot % 8) fun t => (t.shellBob (slot % 8) op).afterStage))

/-- A QP operation (R415). -/
def execShellQpOp (slot : Nat) (op : SlotQpOp) (s : State) : Result := .next (s.live (s.atPort (slot % 8) fun t => (t.shellQp (slot % 8) op).afterStage))

/-- An EXPORT block (R414). -/
def execShellExport (slot qpn : Nat) (block : Bytes) (s : State) : Result :=
  .next (s.live (s.atPort (slot % 8) fun t => (t.shellSend (slot % 8) qpn block).afterStage))

end Sys2Proof.Machine
end

