-- ==== Sys2Proof/Machine/Nvme.lean ====
section
/-! DEFINITION. The NVMe front end (12) and forwarding through the partner (01): fetch, forwarded commands, the admin
ring, thaw, NVMe/TCP. -/
namespace Sys2Proof.Machine

/-- COMMAND_FETCH. -/
def execCommandFetch (q : Nat) (c : HostCmd) (visit more : Bool) (s : State) : Result :=
  .next (s.live ((s.commandFetch (q % 65536) c visit more).sendDues))

/-- FORWARDED_COMMAND: it joins those that wait at their ordering point, which are taken in order. -/
def execForwardedCommand (q : Nat) (c : HostCmd) (s : State) : Result :=
  .next (s.live (if s.hearsPartner then (s.modCommit fun x => { x with fwdIn := x.fwdIn ++ [(q, c)] }).pumpForwarded else s))

/-- FORWARDED_SLOT_REPLY: slots for a piece of a write, or with count 0 the command's end. A read that succeeds ends
once its data has come. -/
def execForwardedSlotReply (q cid seq own mirror count status : Nat) (s : State) : Result :=
  .next (s.live (if !s.hearsPartner then s
    else match s.fwd? q cid with
      | none => s
      | some f =>
        if count ≠ 0 then s.slotsNamed f seq own mirror count
        else
          let st := statOf status
          if st == hsSuccess && (f.cmd.op == .read || f.cmd.op == .compare) then
            let f1 : Fwd := { f with ended := true }
            (s.modCommit fun c => { c with fwd := c.fwd.map fun x => if x == f then f1 else x }).finishFwd f1
          else s.endFwd f.origin st))

/-- FORWARDED_READ_DATA: a block whose carry guard does not check fails the command. -/
def execForwardedReadData (q cid lba : Nat) (data : Bytes) (guard : Nat) (s : State) : Result :=
  .next (s.live (if !s.hearsPartner then s
    else match s.fwd? q cid with
      | none => s
      | some f =>
        if carryGuard data != guard then
          ((s.inc F.CMT_ERRS_GUARD_MISMATCH).raise F.CMT_ISR_GUARD).endFwd f.origin hsUnrecovered
        else
          let f1 : Fwd := { f with got := f.got.put (lba - f.lba) data }
          (s.modCommit fun c => { c with fwd := c.fwd.map fun x => if x == f then f1 else x }).finishFwd f1))

/-- ADMIN_CAPSULE: held by the receiver while the ring is full (NVQ_ADM_HEAD). The place of the routing header in the
entry is the model's (log entry 94). -/
def execAdminCapsule (port qpn cntl : Nat) (capsule : Bytes) (s : State) : Result :=
  let t := s.fld F.NVQ_ADM_TAIL_INDEX
  .next (s.live (if (t + 1) % 4096 = s.fld F.NVQ_ADM_HEAD_INDEX then s
    else
      let a := s.nvqBase + 0x2500000 + 128 * t
      let entry := leBytes 4 port ++ leBytes 4 qpn ++ leBytes 4 cntl ++ zeros 4 ++ (capsule ++ zeros 112).take 112
      ((s.wr a entry).setFld F.NVQ_ADM_TAIL_INDEX (t + 1)).raise F.NVQ_ISR_ADMIN))

/-- QUEUE_THAW. -/
def execQueueThaw (q : Nat) (s : State) : Result := .next (s.live ((s.setFld F.NVQ_THAW_QUEUE q).thaw (q % 65536)))

/-! ### NVMe/TCP (R300) -/

/-- A header digest failure ends the connection: what still waits for its data fails, as on a queue pair that is lost. -/
def State.endTcp (s : State) (q : Nat) : State :=
  let s1 := (s.modCommit fun c => { c with tcpEnded := (c.tcpEnded.filter fun x => x != q && s.qState x != 0) ++ [q] }).send (.tcpEnd q)
  (s1.commit.xfers.filter fun x => x.origin.queue == q && !x.origin.forwarded).foldl (fun t x => t.failXfer x hsTransfer) s1

/-- TCP_RECEIVE_DATA: a PDU with a command's data on a TCP queue, its header, its data and the digests it carries. At its
share the head reads none. -/
def execTcpReceiveData (q cid : Nat) (header : Bytes) (hdgst : Nat) (data : Bytes) (ddgst : Nat) (pi : List PiIn) (s : State) : Result :=
  .next (s.live (if !s.qTcp (q % 65536) ∨ s.tcpShut (q % 65536) then s
    else if s.tcpLimit < s.commit.tcpIn + data.length then s.raise F.NVQ_ISR_TCP_LIMIT
    else
      let s1 := s.modCommit fun c => { c with tcpIn := c.tcpIn + data.length }
      if crc32c header ≠ hdgst then ((s1.inc F.NVQ_EVENTS_DIGEST_FAIL).endTcp (q % 65536)).sendDues
      else if crc32c data ≠ ddgst then
        let s2 := s1.inc F.NVQ_EVENTS_DIGEST_FAIL
        match s2.xfer? (q % 65536) cid with
        | some x => (s2.failXfer x hsDigest).sendDues
        | none => s2
      else (s1.hostChunk (q % 65536) cid data pi).sendDues))

end Sys2Proof.Machine
end

