-- ==== Sys2Proof/Machine/Pair.lean ====
section
/-! DEFINITION. The pair (01): takeover, rejoin, the starts from JOINING, forfeits and what the partner's line tells. -/
namespace Sys2Proof.Machine

/-! ### Replay that met a gap (R197) -/

/-- JOURNAL_GAP_REQUEST: the partner asks for groups it lost; those held whole from there on go out. -/
def execJournalGapRequest (inst fromJseq : Nat) (s : State) : Result :=
  let i := inst % 2
  let own := (s.jnl i).groups.map fun g => { inst := i, jseq := g.jseq, recs := g.recs : JGroup }
  .next (s.live (if !s.hearsPartner then s
    else s.send (.efmoMissing i (sortBy (fun a b => decide (a.jseq ≤ b.jseq)) (((s.jnl i).mirrored ++ own).filter fun g => decide (fromJseq ≤ g.jseq))))))

/-- MISSING_GROUPS_REPLY: replay goes on with those that are whole, or is held where the partner could not supply the ones
missing. -/
def execMissingGroupsReply (inst : Nat) (groups : List Bytes) (s : State) : Result :=
  let i := inst % 2
  .next (s.live (if !s.hearsPartner || (s.jnl i).replay != 2 then s
    else
      let j := s.jnl i
      let l := sortBy (fun a b => decide (a.jseq ≤ b.jseq)) (groups.filterMap (groupOf? i) ++ j.rest)
      let (s1, rest) := s.applyRun (l.filter fun g => decide (j.lastApplied < g.jseq))
      let left := rest.filter fun g => decide ((s1.jnl i).lastApplied < g.jseq)
      (s1.replayStop i left (decide ((s1.jnl i).lastApplied = j.lastApplied)) true).startClaims))

/-- ACCEPT_GAP: every instance held at a gap goes on from its last good group. -/
def execAcceptGap (s : State) : Result :=
  .next (s.live (((List.range 2).foldl (fun t i => if (t.jnl i).replay = 3 then t.replayDone i else t) s).startClaims))

/-! ### Starts (R40, R41) -/

/-- SOLO_START, which firmware permits after 100 turns without the partner. -/
def execSoloStart (l : List ReplayIn) (s : State) : Result :=
  .next (s.live (if s.headState ≠ stJoining ∨ s.pairSt.starting ≠ 0 ∨ !(s.pairSt.absentSince.any fun t => decide (t + 100 ≤ s.turn)) then s
    else
      let s1 := s.modPair fun p => { p with starting := 2, rejoin := none, coldClaimed := true }
      let s2 := (List.range 2).foldl (fun t i => t.replayOf l i) s1
      ((s2.claimNew 0 .solo).claimNew 1 .solo).settleClaims.startReady))

/-- READY. -/
def execReady (s : State) : Result :=
  .next (s.live (if !s.hearsPartner || s.headState != stJoining then s else (s.modPair fun p => { p with readyGot := true }).tryPair))

/-! ### Rejoin (R37) -/

/-- Is nothing older than the join points unhardened? -/
def State.joinHardened (s : State) (r : RejoinSt) : Bool :=
  (List.range 2).all fun i =>
    let j := if i = 0 then r.joinA else r.joinB
    ((s.undurable i).all fun q => decide (j ≤ q)) && ((s.jnl i).groups.all fun g => decide (ofInst r.jseqs i ≤ g.jseq)) &&
      (s.commit.staging.vals.all fun g => !(g.inst == i && g.zero && g.st != .hardened && decide (g.seq < j)))

/-- REJOIN_PAUSE. -/
def execRejoinPause (s : State) : Result :=
  .next (s.live (match s.pairSt.rejoin with
    | some r =>
      if r.survivor ∧ r.step = 2 ∧ s.joinHardened r then
        (s.modPair fun p => { p with rejoin := some { r with step := 4 }, groupHeld := true }).endPause
      else s.endPause
    | none => s))

/-- LAST_SEQUENCE: the joiner adopts its mirror staging and enters PLAYING. -/
def execLastSequence (seq jseq : Nat) (s : State) : Result :=
  .next (s.live (match s.pairSt.rejoin with
    | some r =>
      if !s.hearsPartner || r.survivor || s.headState != stJoining then s
      else
        let i := s.headId
        let s1 := (s.emptyMirror.adoptStaged i false).modCommit fun c => { c with lastSeq := putInst c.lastSeq i seq }
        let s2 := (s1.modPair fun p => { p with rejoin := some { r with step := 5, lastSeq := seq, lastJseq := jseq } }).modJnl i fun j => { j with hold := true }
        s2.play 1 2
    | none => s))

/-- SURVIVOR_HANDBACK: the Stitches of the instance have retired; its stripes are padded and its superblocks closed. -/
def execSurvivorHandback (s : State) : Result :=
  .next (s.live (match s.pairSt.rejoin with
    | some r =>
      let i := s.partnerId
      if !r.survivor ∨ r.step ≠ 5 ∨ s.instBusy i then s
      else
        let l := s.ftl.open_.filter fun o => o.inst == i
        let s1 := (l.filter fun o => o.stream != 3).foldl (fun t o => t.shutSb o.sb) (s.modPair fun p => { p with rejoin := some { r with step := 6 } })
        ((l.filter fun o => o.stream == 3).foldl (fun t o => t.padSb o.sb) s1).tryFinal
    | none => s))

/-- FINAL_JSEQ: the joiner applies the last groups and claims its half. -/
def execFinalJseq (jseq : Nat) (s : State) : Result :=
  .next (s.live (match s.pairSt.rejoin with
    | some r =>
      if !s.hearsPartner || r.survivor || r.step != 5 then s
      else ((s.applyHeld s.headId).modPair fun p => { p with rejoin := some { r with step := 6, finalJseq := some jseq } }).claimFor s.headId .rejoin
    | none => s))

/-! ### Forfeits (R28, R29) -/

/-- FORFEIT: a write of GLB_FORFEIT with FORFEIT = 1. -/
def execForfeit (who : Requester) (cause : Nat) (s : State) : Result :=
  .next (s.live (if who = .referee then (s.setFld F.GLB_FORFEIT_CAUSE cause).forfeit (cause % 256) else s))

/-- JUNCTION_OVERTEMP. -/
def execJunctionOvertemp (s : State) : Result := .next (s.live (s.forfeit 5))

/-- LOCKSTEP_MISMATCH. -/
def execLockstepMismatch (s : State) : Result := .next (s.live (s.forfeit 2))

/-! ### The partner's line (R26, R31, R32, R39, R41, R492) -/

/-- What the partner's forfeit means to a head in service. -/
def State.partnerGone (s : State) : State :=
  let s0 := if s.repat.running then { s with repat := { s.repat with abandon := true } } else s
  match s0.pairSt.rejoin with
  | some r =>
    if r.survivor then (if r.step < 5 ∨ s0.pairSt.groupHeld then s0.efmoDown.stopRejoin
      else
        let i := s0.partnerId
        (s0.modJnl i fun j => { j with lastApplied := max j.lastApplied (if r.step < 7 then j.nextJseq - 1 else 0), hold := true }).startTakeover)
    else (if r.step = 5 then (s0.applyHeld s0.headId).startTakeover.modPair (fun p => { p with rejoin := some { r with step := 6 } }) |>.claimFor s0.headId .rejoin
      else s0.startTakeover.modPair fun p => { p with rejoin := some r })
  | none => if s0.solo then s0.stopMirroring else if s0.pairSt.takeover ≠ 0 then s0 else s0.startTakeover

/-- What it means to a JOINING head: a cold pair start goes on alone. -/
def State.partnerGoneJoining (s : State) (l : List ReplayIn) : State :=
  let s1 := (s.efmoDown).modPair fun p => { p with absentSince := if p.absentSince.isSome then p.absentSince else some s.turn, rejoin := none }
  if s.pairSt.starting = 1 then
    (((s1.modPair fun p => { p with starting := 2 }).replayOf l s.partnerId).claimFor s.partnerId .solo).startClaims
  else s1

/-- PARTNER_FORFEIT_SAMPLED: `l` is what a replay of the partner's instance finds, where one starts. -/
def execPartnerForfeitSampled (l : List ReplayIn) (s : State) : Result :=
  .next (
    if s.ctl.hold.unseated then s
    else if !s.pins.powered then (s.modPins fun p => { p with partnerLow := true }).setFld F.GLB_PAIR_STATUS_PARTNER_FORFEIT 1
    else s.live (
      let s1 := (((s.modPins fun p => { p with partnerLow := true }).setFld F.GLB_PAIR_STATUS_PARTNER_FORFEIT 1).raise F.GLB_ISR_PARTNER).refreshCost
      if 2 ≤ s.ctl.hold.phase then
        if s.ctl.hold.partnerFlushed ∨ s.ctl.hold.phase = 5 ∨ s.solo ∨ s.ctl.hold.stopped ∨ !s.inService then s1
        else
          let s2 := (s1.modHold fun h => { h with partnerGone := true, phase := if h.phase = 4 then 3 else h.phase }).modEfmo fun e => { e with fenced := true }
          s2.stopMirroring.claimFor s.partnerId .holdup
      else if s.inService then (s1.stepAbandon true).partnerGone
      else if s.headState = stJoining then s1.partnerGoneJoining l
      else s1.modPair fun p => { p with absentSince := if p.absentSince.isSome then p.absentSince else some s.turn }))

/-- PARTNER_FORFEIT_RELEASE. -/
def execPartnerForfeitRelease (s : State) : Result :=
  .next (if s.ctl.hold.unseated then s
    else if !s.pins.powered then (s.modPins fun p => { p with partnerLow := false }).setFld F.GLB_PAIR_STATUS_PARTNER_FORFEIT 0
    else s.live (
      let s1 := (((s.modPins fun p => { p with partnerLow := false }).setFld F.GLB_PAIR_STATUS_PARTNER_FORFEIT 0).raise F.GLB_ISR_PARTNER).refreshCost
      if s1.flag F.GLB_PAIR_STATUS_PARTNER_PRESENT then s1.modPair fun p => { p with absentSince := none } else s1))

/-- TAKEOVER_ADOPT. -/
def execTakeoverAdopt (s : State) : Result := .next (s.live (if s.pairSt.takeover = 4 then s.tryAdopt else s))

/-- LEASE_CLAIM_TIMEOUT: the modules whose bridges have not granted a half become AWAY (R230, R254). -/
def execLeaseClaimTimeout (half : Nat) (s : State) : Result :=
  .next (s.live (
    let late := (s.pairSt.claims.filter fun c => c.half == half).flatMap (·.waiting)
    let s1 := s.modPair fun p => { p with claims := p.claims.map fun c => if c.half == half then { c with waiting := [] } else c }
    (late.foldl State.setAway s1).settleClaims))

end Sys2Proof.Machine
end

