-- ==== Sys2Proof/Machine/Rdma.lean ====
section
/-! DEFINITION. The RDMA transport's and the Ethernet ports' commands (13). -/
namespace Sys2Proof.Machine

/-! ### Packets -/

/-- A READ or atomic response: its data is placed, or goes to the host command it was fetched for. -/
def State.takeResponse (s : State) (n psn : Nat) (data : Bytes) (pi : List PiIn) : State :=
  let s1 := s.takeAck n ((psn + 2 ^ 24 - 1) % 2 ^ 24)
  match s1.qp? n with
  | none => s1
  | some q =>
    match q.out with
    | [] => s1
    | w :: r =>
      if !w.reads ∨ (w.first + w.got) % 2 ^ 24 ≠ psn % 2 ^ 24 then s1
      else
        let done := w.last = psn % 2 ^ 24
        let q1 : Qp := { q with out := if done then r else { w with got := w.got + 1 } :: r, retriesLeft := q.retry, rnrLeft := q.rnrRetry }
        let s2 := s1.setQp n q1
        match w.host with
        | some (queue, cid) =>
          let s3 := s2.hostChunk queue cid data pi
          if done then s3.pumpReads n else s3
        | none =>
          let s3 := s2.physWr (w.laddr + w.got * pmtuBytes q) data
          if done then ((s3.sqDone n q1 w 0).settleQps).pumpReads n else s3

/-- Process a packet whose context is at hand. -/
def State.takePacket (s : State) (p : RdtPkt) : State :=
  match p with
  | .request r => s.takeRequest r.qpn r
  | .response n psn data pi ecn t => (if ecn then s.answerEcn n t else s).takeResponse n psn data pi
  | .ack n psn => s.takeAck n psn
  | .nak n psn k => s.takeNak n psn k
  | .cnp n t => s.takeCnp n t

/-- A packet arrives for a queue pair: dropped where that is absent or unconnected, processed where its context is
cached and nothing of it is parked, else parked (R301, R315-R317). -/
def State.receivePacket (s : State) (p : RdtPkt) : State :=
  let n := pktQpn p
  if !s.flag F.RDT_CTRL_ENABLE then s
  else if !s.qpConnected n then s.inc F.RDT_DROPS_NO_QP
  else if s.rdt.cache.contains n && !(s.rdt.parked.any fun x => pktQpn x == n) then
    (((s.cancelVictim n).touchCtx n).takePacket p).countCache
  else s.park p

/-- An incoming request packet. -/
def execRoceRequest (p : RocePkt) (s : State) : Result :=
  .next (s.live (
    if !s.flag F.RDT_CTRL_ENABLE then s
    else if !p.whole then s.inc (F.ETH_DROPS_ICRC (p.port % 16))
    else if p.qpn = 1 then s.send (.cmPacket p.data)
    else s.receivePacket (.request p)))

/-- A READ or atomic response. -/
def execRoceResponse (qpn psn : Nat) (data : Bytes) (pi : List PiIn) (ecn : Bool) (t : Nat) (s : State) : Result :=
  .next (s.live ((s.receivePacket (.response qpn psn data pi ecn t)).sendDues))

/-- An acknowledgement. -/
def execRoceAck (qpn psn : Nat) (s : State) : Result := .next (s.live (s.receivePacket (.ack qpn psn)))

/-- A NAK. -/
def execRoceNak (qpn psn : Nat) (k : NakKind) (s : State) : Result := .next (s.live (s.receivePacket (.nak qpn psn k)))

/-- A CNP. -/
def execCnpReceive (qpn t : Nat) (s : State) : Result := .next (s.live (s.receivePacket (.cnp qpn t)))

/-! ### Timers (R304, R321) -/

/-- ALPHA_US with no CNP. -/
def execAlphaTimer (qpn : Nat) (s : State) : Result :=
  .next (s.live (
    if s.flag F.RDT_CTRL_CC_EN && s.qpConnected qpn then
      s.modQp qpn fun q => { q with alpha := (65536 - s.fld F.RDT_CC_CFG_G) * q.alpha / 65536 }
    else s))

/-- INC_US with no CNP. -/
def execIncreaseTimer (qpn : Nat) (s : State) : Result :=
  .next (s.live (
    if s.flag F.RDT_CTRL_CC_EN && s.qpConnected qpn then
      s.modQp qpn fun q =>
        let rt := if 5 ≤ q.steps then min (q.rt + s.fld F.RDT_CC_RATES_AI_MBPS) (s.portRate q.port) else q.rt
        { q with rt := rt, rc := (rt + q.rc) / 2, steps := min (q.steps + 1) 255 }
    else s))

/-- The local ACK timeout expires with a request outstanding. -/
def execAckTimeout (qpn : Nat) (s : State) : Result :=
  .next (s.live (match s.qp? qpn with
    | some q =>
      match q.out with
      | w :: _ => if q.state = 1 then s.retry qpn w.first else s
      | [] => s
    | none => s))

/-- The RNR timer expires. -/
def execRnrTimerExpiry (qpn : Nat) (s : State) : Result :=
  .next (s.live (match s.qp? qpn with
    | some q =>
      if q.state = 1 && q.rnrWait then
        (s.setQp qpn { q with rnrWait := false }).resend qpn ((q.out.head?.map (·.first)).getD q.sqPsn)
      else s
    | none => s))

/-! ### The context cache (R315-R317) -/

/-- A context is at hand: the parked packets of its queue pair are processed in arrival order. -/
def State.unparkQp (s : State) (n : Nat) : State :=
  let mine := s.rdt.parked.filter fun p => pktQpn p == n
  let s1 := (s.modRdt fun r => { r with parked := r.parked.filter fun p => pktQpn p != n }).touchCtx n
  (mine.foldl (fun t p => if t.qpConnected n then t.takePacket p else t.inc F.RDT_DROPS_NO_QP) s1).countCache

/-- A context fetch completes: a victim leaves for its write-back; a context read with an uncorrectable error takes
its queue pair to error. -/
def execQpContextFetched (qpn : Nat) (bad : Bool) (s : State) : Result :=
  .next (s.live (match s.rdt.fetching.find? fun f => f.1 == qpn with
    | none => s
    | some f =>
      let s1 := s.modRdt fun r => { r with
        fetching := r.fetching.filter (fun g => g.1 != qpn),
        cache := match f.2 with | some v => r.cache.filter (· != v) | none => r.cache,
        writing := match f.2 with | some v => r.writing ++ [v] | none => r.writing }
      if bad then
        let mine := s1.rdt.parked.filter fun p => pktQpn p == qpn
        let s2 := (s1.modRdt fun r => { r with parked := r.parked.filter fun p => pktQpn p != qpn }).inc F.RDT_DROPS_PARK_DROP mine.length
        let s3 := if mine.isEmpty then s2 else s2.raise F.RDT_ISR_PARK_DROP
        let s4 := if s3.isTenantQp qpn then s3.errCorr 0x13 else s3.errDefer 0x13
        let (c, s5) := s4.free 8
        (s5.failQp qpn 4 (some c)).countCache
      else s1.unparkQp qpn))

/-- The write-back of an evicted context completes: a queue pair with packets parked meanwhile takes its context
back. -/
def execQpContextWritebackDone (qpn : Nat) (s : State) : Result :=
  .next (s.live (
    if !s.rdt.writing.contains qpn then s
    else
      let s1 := s.modRdt fun r => { r with writing := r.writing.filter (· != qpn) }
      if s1.rdt.parked.any fun p => pktQpn p == qpn then
        if s1.rdt.cache.length + s1.rdt.fetching.length < 16384 then s1.unparkQp qpn
        else match s1.ctxVictim with
          | some v => (s1.modRdt fun r => { r with cache := r.cache.filter (· != v), writing := r.writing ++ [v] }).unparkQp qpn
          | none => s1.unparkQp qpn
      else s1))

/-! ### Send work (R308, R313) -/

/-- A send WQE as it lies in its queue. -/
structure Wqe where
  op     : Nat
  flags  : Nat
  res0   : Nat
  aux    : Nat
  wrId   : Nat
  local_ : Nat
  inline_ : Bytes
  len    : Nat
  lkey   : Nat
  remote : Nat
  rkey   : Nat
  res1   : Nat
  cmp    : Nat
  swap   : Nat
  deriving DecidableEq, Repr

def State.readWqe (s : State) (a : Nat) : Wqe :=
  { op := s.physRdN a 1, flags := s.physRdN (a + 1) 1, res0 := s.physRdN (a + 2) 2, aux := s.physRdN (a + 4) 4, wrId := s.physRdN (a + 8) 8,
    local_ := s.physRdN (a + 0x10) 8, inline_ := s.physRd (a + 0x10) 8, len := s.physRdN (a + 0x18) 4, lkey := s.physRdN (a + 0x1C) 4,
    remote := s.physRdN (a + 0x20) 8, rkey := s.physRdN (a + 0x28) 4, res1 := s.physRdN (a + 0x2C) 4, cmp := s.physRdN (a + 0x30) 8,
    swap := s.physRdN (a + 0x38) 8 }

/-- A reserved opcode, or a reserved field that is not zero. -/
def Wqe.reserved (w : Wqe) : Bool :=
  w.op == 0 || decide (10 ≤ w.op) || decide (16 ≤ w.flags) || w.res0 != 0 || w.res1 != 0 ||
  (match w.op with
   | 2 | 4 => false
   | 8 => decide (2 ≤ w.aux)
   | 9 => decide (2 ^ 14 ≤ w.aux)
   | _ => w.aux != 0)

def Wqe.signaled (w : Wqe) : Bool := bit w.flags 0
def Wqe.fence (w : Wqe) : Bool := bit w.flags 1
/-- INLINE counts for the requests that send data. -/
def Wqe.isInline (w : Wqe) : Bool := bit w.flags 2 && decide (1 ≤ w.op) && decide (w.op ≤ 4)

/-- The local error of a WQE: a length out of range, or a local range its key does not give. -/
def State.wqeError (s : State) (q : Qp) (w : Wqe) : Nat :=
  if w.op = 8 then 0
  else if w.len = 0 ∨ 2 ^ 31 < w.len ∨ (w.isInline ∧ 8 < w.len) ∨ ((w.op = 6 ∨ w.op = 7) ∧ w.len < 8) then 1
  else if w.isInline then 0
  else if s.mrAllows q.cls q.tenant w.lkey w.local_ w.len 0 then 0 else 3

/-- The outstanding record of a WQE. -/
def Wqe.out (w : Wqe) (k : Nat) (pkts : List RocePkt) : OutWqe :=
  { index := k, op := w.op, wrId := w.wrId, first := 0, last := 0, len := if w.op = 8 then 0 else w.len, signaled := w.signaled,
    laddr := w.local_, got := 0, host := none, bytes := [], pi := [], pkts := pkts }

/-- Put a WQE on the wire. -/
def State.runWqe (s : State) (n : Nat) (q : Qp) (k : Nat) (w : Wqe) : State :=
  let data := if w.isInline then w.inline_.take w.len else s.physRd w.local_ w.len
  let imm := if w.op = 2 ∨ w.op = 4 then some w.aux else none
  let one (op : RoceOp) (va len : Nat) : RocePkt := mkPkt q q.sqPsn op va w.rkey len
  let pkts : List RocePkt := match w.op with
    | 1 | 2 => dataPkts q .send imm 0 0 data
    | 3 | 4 => dataPkts q .write imm w.remote w.rkey data
    | 5 => [one .read w.remote w.len]
    | 6 => [{ one .compareSwap w.remote 8 with compare := w.cmp, swap := w.swap }]
    | 7 => [{ one .fetchAdd w.remote 8 with swap := w.cmp }]
    | _ => [one .flush w.remote (if bit w.aux 0 then w.len else 0)]
  let span := if w.op = 5 then max 1 (ceilDiv w.len (pmtuBytes q)) else pkts.length
  s.launch n q (w.out k pkts) span

/-- A WQE fails: the queue pair goes to error, and after the CQEs of the work requests before it, its own is written. -/
def State.wqeFails (s : State) (n : Nat) (q : Qp) (k : Nat) (w : Wqe) (status : Nat) : State :=
  ((s.failQp n 4 (some status)).sqDone n q { w.out k [] with signaled := true } status).settleQps

/-- The completion queue a tally wait names, where it may name it. -/
def State.tallyCq (s : State) (q : Qp) (w : Wqe) : Option Cq :=
  (s.cq? (w.aux % 2 ^ 14)).filter fun c => !c.bad && c.cls == q.cls && c.tenant == q.tenant

/-- Has COUNT reached the target, in wrapping 32-bit arithmetic? -/
def tallyMet (count target : Nat) : Bool := decide ((count + 2 ^ 32 - target % 2 ^ 32) % 2 ^ 32 < 2 ^ 31)

/-- Where the WQE at the head of a send queue lies. -/
def State.headWqe (s : State) (q : Qp) : Nat × Wqe :=
  let k := q.sqHead % max 1 q.sqSize
  (k, s.readWqe (q.sqAddr + 64 * k))

/-- The head WQE is done with: the next one stands at the head. -/
def State.popWqe (s : State) (n : Nat) : State := s.modQp n fun q => { q with sqHead := q.sqHead + 1 }

def State.countTally (s : State) : State :=
  (s.setFld F.RDT_TALLY_CFG_PENDING (s.rdt.qps.filter fun p => p.2.tally.isSome).length).countPins

/-- A WQE reaches the head of its send queue. -/
def execSendWqe (qpn : Nat) (s : State) : Result :=
  .next (s.live (match s.qp? qpn with
    | none => s
    | some q =>
      if q.sqSize = 0 ∨ q.state = 0 ∨ !s.flag F.RDT_CTRL_ENABLE ∨ q.tally.isSome ∨ q.rnrWait then s
      else
        let (k, w) := s.headWqe q
        if q.state = 2 then ((s.popWqe qpn).sqDone qpn q { w.out k [] with signaled := true } 4).settleQps
        else if w.reserved then (s.popWqe qpn).wqeFails qpn { q with sqHead := q.sqHead + 1 } k w 2
        else if w.op = 9 then
          match s.tallyCq q w with
          | none => (s.popWqe qpn).wqeFails qpn q k w 0xB
          | some c =>
            if tallyMet c.count w.remote then ((s.popWqe qpn).sqDone qpn q (w.out k []) 0).settleQps
            else if 4096 ≤ s.fld F.RDT_TALLY_CFG_PENDING then s
            else (s.setQp qpn { q with tally := some s.turn }).countTally
        else
          let reads := (q.out.filter OutWqe.reads).length
          if (w.fence ∧ 0 < reads) ∨ ((w.op = 5 ∨ w.op = 6 ∨ w.op = 7) ∧ 16 ≤ reads) then s
          else
            let e := s.wqeError q w
            if e ≠ 0 then (s.popWqe qpn).wqeFails qpn q k w e
            else (s.popWqe qpn).runWqe qpn { q with sqHead := q.sqHead + 1 } k w))

/-- A pending tally wait's condition holds, or its completion queue has gone. -/
def execTallyWaitRelease (qpn : Nat) (s : State) : Result :=
  .next (s.live (match s.qp? qpn with
    | none => s
    | some q =>
      let (k, w) := s.headWqe q
      if q.tally.isNone then s
      else
        let s1 := ((s.setQp qpn { q with tally := none, sqHead := q.sqHead + 1 })).countTally
        match s.tallyCq q w with
        | none => s1.wqeFails qpn q k w 0xB
        | some c => if tallyMet c.count w.remote then (s1.sqDone qpn q (w.out k []) 0).settleQps else s))

/-- TIMEOUT turns pass without it. -/
def execTallyWaitTimeout (qpn : Nat) (s : State) : Result :=
  .next (s.live (match s.qp? qpn with
    | none => s
    | some q =>
      let (k, w) := s.headWqe q
      match q.tally with
      | none => s
      | some since =>
        if since + max 1 (s.fld F.RDT_TALLY_TIMEOUT_TIMEOUT) ≤ s.turn then
          (((s.setQp qpn { q with tally := none, sqHead := q.sqHead + 1 })).countTally).wqeFails qpn q k w 0xA
        else s))

/-! ### RDT_CMD (R301, R306) -/

def rdtRes : Nat := 0x130002C

/-- An RDT_CMD completes. -/
def State.rdtDone (s : State) (code : Nat) : State := (s.resDone rdtRes [(F.RDT_CMD_RESULT_CODE, code)]).raise F.RDT_ISR_CMD_DONE

/-- Start an RDT_CMD. -/
def State.rdtStart (s : State) (op arg addr : Nat) (run : State → State) : State :=
  s.startWith [(F.RDT_CMD_OP, op), (F.RDT_CMD_ARG, arg), (F.RDT_CMD_ADDR_LO_ADDR, addr), (F.RDT_CMD_ADDR_HI_ADDR, addr / 2 ^ 32)]
    (s.flag F.RDT_CMD_BUSY) fun t => run (t.resStart rdtRes)

/-- A legal size of a send or receive queue. -/
def queueSizeOk (n : Nat) : Bool := n == 0 || (decide (16 ≤ n) && decide (n ≤ 4096) && 2 ^ ilog2 n == n)

/-- The context a creation block describes; none where a field is out of range (R306). -/
def State.qpBlock (s : State) (a : Nat) : Option (Nat × Qp) :=
  let g (o n : Nat) : Nat := s.rdN (a + o) n
  let ok := decide (2 ≤ g 0 4) && decide (g 0 4 ≤ 0x1FFFF) && decide (g 4 1 ≤ 1) && decide (g 5 1 ≤ 15) && decide (g 6 2 < 4096) &&
    (g 4 1 == 1 || g 6 2 == 0) && decide (g 8 4 < 2 ^ 24) && decide (g 0xC 4 < 2 ^ 24) && decide (g 0x10 4 < 2 ^ 24) &&
    decide (1 ≤ g 0x14 1) && decide (g 0x14 1 ≤ 3) && decide (g 0x15 1 < 64) && decide (1 ≤ g 0x16 1) && decide (g 0x16 1 ≤ 31) &&
    decide (g 0x17 1 ≤ 31) && g 0x30 1 / 64 == 2 && decide (g 0x31 1 < 8) && queueSizeOk (g 0x32 2) && queueSizeOk (g 0x34 2) &&
    (g 0x36 2 == 0 || g 0x34 2 == 0) && decide (g 0x36 2 ≤ 1024) && decide (g 0x38 2 < 16384) && decide (g 0x3A 2 < 16384) &&
    g 0x3C 4 == 0 && g 0x40 8 % 64 == 0 && g 0x48 8 % 64 == 0 && (s.rd (a + 0x50) 48).all (· == 0)
  if ok then some (g 0 4,
    { cls := g 4 1, tenant := g 6 2, port := g 5 1, dest := g 8 4, pmtu := g 0x14 1, retry := g 0x15 1 % 8, rnrRetry := g 0x15 1 / 8,
      sqSize := g 0x32 2, rqSize := g 0x34 2, srq := g 0x36 2, scq := g 0x38 2, rcq := g 0x3A 2, sqAddr := g 0x40 8, rqAddr := g 0x48 8,
      state := 0, sqPsn := g 0xC 4, rqPsn := g 0x10 4, retriesLeft := g 0x15 1 % 8, rnrLeft := g 0x15 1 / 8,
      ackedPsn := (g 0x10 4 + 2 ^ 24 - 1) % 2 ^ 24, ackTimeout := g 0x16 1, rnrTimer := g 0x17 1, destIp := s.rd (a + 0x18) 16,
      destMac := s.rd (a + 0x28) 6, sport := g 0x2E 2, dscp := g 0x30 1 % 64, prio := g 0x31 1 })
  else none

/-- Do the queues a context names match its class and tenant? -/
def State.queuesMatch (s : State) (q : Qp) : Bool :=
  let cq (c : Nat) : Bool := (s.cq? c).any fun x => x.cls == q.cls && x.tenant == q.tenant
  cq q.scq && cq q.rcq && (q.srq == 0 || (s.rdt.srqs.get? (q.srq - 1)).any fun x => x.cls == q.cls && x.tenant == q.tenant)

/-- CREATE_QP: the command block names the queue pair. -/
def execCreateQp (arg addr : Nat) (s : State) : Result :=
  .next (s.live (s.rdtStart 0 arg addr fun t =>
    match t.qpBlock (t.base F.RDT_CMD_ADDR_LO_ADDR F.RDT_CMD_ADDR_HI_ADDR 6) with
    | none => t.rdtDone 2
    | some (n, q) =>
      if (t.qp? n).isSome then t.rdtDone 1
      else if q.cls = 1 ∧ t.rdt.disabled.contains q.tenant then t.rdtDone 8
      else if !t.queuesMatch q then t.rdtDone 3
      else if q.cls = 1 ∧ 65536 ≤ (t.rdt.qps.filter fun p => p.2.cls == 1).length then t.rdtDone 6
      else (t.setQp n q).rdtDone 0))

/-- MODIFY_QP to connected. The code for a queue pair that is connected or in error is not stated. -/
def execModifyQpConnected (qpn : Nat) (s : State) : Result :=
  .next (s.live (s.rdtStart 1 qpn 0 fun t =>
    match t.qp? (qpn % 2 ^ 24) with
    | none => t.rdtDone 1
    | some q =>
      if q.cls = 1 ∧ t.rdt.disabled.contains q.tenant then t.rdtDone 8
      else if q.state ≠ 0 then (let (c, u) := t.free 4; u.rdtDone c)
      else
        let r := t.portRate q.port
        ((t.setQp (qpn % 2 ^ 24) { q with state := 1, rc := r, rt := r, alpha := 65536 }).countPins).rdtDone 0))

/-- MODIFY_QP to error. -/
def execModifyQpError (qpn : Nat) (s : State) : Result :=
  .next (s.live (s.rdtStart 2 qpn 0 fun t =>
    match t.qp? (qpn % 2 ^ 24) with
    | none => t.rdtDone 1
    | some q =>
      if q.cls = 1 ∧ t.rdt.disabled.contains q.tenant then t.rdtDone 8
      else (t.failQp (qpn % 2 ^ 24) 4 none).rdtDone 0))

/-- DESTROY_QP: the packets parked for it are dropped first. -/
def execDestroyQp (qpn : Nat) (s : State) : Result :=
  .next (s.live (s.rdtStart 3 qpn 0 fun t =>
    let n := qpn % 2 ^ 24
    if (t.qp? n).isNone then t.rdtDone 1
    else
      let k := (t.rdt.parked.filter fun p => pktQpn p == n).length
      let u := (t.inc F.RDT_DROPS_NO_QP k).modRdt fun r => { r with
        qps := r.qps.del n, parked := r.parked.filter (fun p => pktQpn p != n), cache := r.cache.filter (· != n),
        fetching := r.fetching.filter (fun f => f.1 != n), writing := r.writing.filter (· != n) }
      u.countTally.countCache.rdtDone 0))

/-- CREATE_CQ: the layout of its command block is not stated; its fields are the command's. -/
def execCreateCq (cq cls tenant addr size : Nat) (s : State) : Result :=
  .next (s.live (s.rdtStart 4 cq 0 fun t =>
    if 16384 ≤ cq ∨ 2 ≤ cls ∨ 4096 ≤ tenant ∨ (cls = 0 ∧ tenant ≠ 0) ∨ size = 0 then t.rdtDone 2
    else if (t.cq? cq).isSome then t.rdtDone 1
    else (t.modRdt fun r => { r with cqs := r.cqs.put cq { cls := cls, tenant := tenant, addr := addr, size := size } }).rdtDone 0))

/-- DESTROY_CQ. -/
def execDestroyCq (cq : Nat) (s : State) : Result :=
  .next (s.live (s.rdtStart 5 cq 0 fun t =>
    let c := cq % 2 ^ 24
    if (t.cq? c).isNone then t.rdtDone 1
    else if t.rdt.qps.any fun p => p.2.scq == c || p.2.rcq == c then t.rdtDone 5
    else (t.modRdt fun r => { r with cqs := r.cqs.del c }).rdtDone 0))

/-- CREATE_SRQ. -/
def execCreateSrq (srq cls tenant addr size : Nat) (s : State) : Result :=
  .next (s.live (s.rdtStart 6 srq 0 fun t =>
    if 1024 ≤ srq ∨ 2 ≤ cls ∨ 4096 ≤ tenant ∨ (cls = 0 ∧ tenant ≠ 0) ∨ size = 0 then t.rdtDone 2
    else if (t.rdt.srqs.get? srq).isSome then t.rdtDone 1
    else (t.modRdt fun r => { r with srqs := r.srqs.put srq { cls := cls, tenant := tenant, addr := addr, size := size } }).rdtDone 0))

/-- DESTROY_SRQ. -/
def execDestroySrq (srq : Nat) (s : State) : Result :=
  .next (s.live (s.rdtStart 7 srq 0 fun t =>
    let c := srq % 2 ^ 24
    if (t.rdt.srqs.get? c).isNone then t.rdtDone 1
    else if t.rdt.qps.any fun p => p.2.srq == c + 1 then t.rdtDone 5
    else (t.modRdt fun r => { r with srqs := r.srqs.del c }).rdtDone 0))

/-- Re-enable a tenant. -/
def execTenantReenable (tenant : Nat) (s : State) : Result :=
  .next (s.live (s.rdtStart 8 tenant 0 fun t =>
    let n := tenant % 2 ^ 24
    if 4096 ≤ n then t.rdtDone 2
    else (t.modRdt fun r => { r with disabled := r.disabled.filter (· != n), errTurns := r.errTurns.del n }).rdtDone 0))

/-- A reserved OP. -/
def execRdtReservedOp (op : Nat) (s : State) : Result := .next (s.live (s.rdtStart (max 9 (op % 16)) 0 0 fun t => t.rdtDone 7))

/-! ### Ethernet ports (R322) -/

/-- A port's link comes up at its Pattern width. -/
def execEthLinkUp (port : Nat) (s : State) : Result :=
  .next (s.live (
    let p := port % 16
    let n := (s.pattern.ethernet[p / 4]?).getD 0
    if !s.flag (F.ETH_PORT_CTRL_ENABLE p) ∨ !portUsed s.pattern.ethernet p ∨ !s.pins.portsOn then s
    else
      let s1 := ((s.setFld (F.ETH_PORT_STATUS_UP p) 1).setFld (F.ETH_PORT_STATUS_FEC_LOCK p) 1).setFld (F.ETH_PORT_STATUS_AN_DONE p)
        (s.fld (F.ETH_PORT_CTRL_AN_EN p))
      ((s1.setFld (F.ETH_PORT_STATUS_SPEED p) (if n = 1 then 3 else if n = 2 then 2 else 1)).setFld (F.ETH_PORT_STATUS_LANES p) (4 / n)).raise
        F.ETH_ISR_LINK_UP))

/-- A port's link goes down. -/
def execEthLinkDown (port : Nat) (s : State) : Result := .next (s.live (s.linkDown (port % 16)))

/-- A PFC frame: egress pauses on the priorities it names and the port honours, for a time in quanta of 512 bits; with no
time it goes on. -/
def execPfcFrameReceive (port mask pause : Nat) (s : State) : Result :=
  .next (s.live (
    let p := port % 16
    let m := mask % 256 &&& s.fld (F.ETH_PORT_CTRL_PFC_EN p)
    let was := (s.rdt.paused.get? p).getD 0
    let named := (List.range 8).filter fun j => bit m j
    let ends := s.turn + 1 + ceilDiv (pause % 65536 * 512000) (s.portRate p * s.periodNs)
    let s1 := (s.inc (F.ETH_PAUSE_RX p)).modRdt fun r => { r with
      paused := r.paused.put p (((was ||| mask % 256) - mask % 256) ||| (if pause % 65536 = 0 then 0 else m)),
      pauseEnd := named.foldl (fun e j => e.put (8 * p + j) ends) r.pauseEnd }
    s1.resumeEgress))

/-! ### Bobbin quarantine (R319) -/

/-- A quarantined bobbin's release condition holds: it returns to its free list. -/
def execQuarantineRelease (pool index : Nat) (s : State) : Result := .next (s.live (s.releaseBobbin (pool % 64) index))

end Sys2Proof.Machine
end

