-- ==== Sys2Proof/Machine/Reclaim.lean ====
section
/-! DEFINITION. Reclaim, refresh, anchors: the meanings of their commands (08). -/
namespace Sys2Proof.Machine

/-- The head programs an anchor page: the tail has advanced, or 1,024 turns have passed (R195). -/
def execAnchorPageWrite (inst : Nat) (s : State) : Result :=
  .next (s.live (if s.anchorDue (inst % 2) then s.writeAnchor (inst % 2) (zeros 32) else s))

/-- Firmware writes FTL_JNL_ANCHOR_n (R196, R492). -/
def execAnchorReplace (inst n block : Nat) (s : State) : Result := .next (s.live (s.nameAnchor (inst % 2) (n % 2) (block % 2 ^ 28)))

/-- FTL_RCL_CMD START (R200, R204). -/
def execReclaimStart (force : Bool) (s : State) : Result := .next (s.live (s.rclStart 0 force fun t sb => t.rclBegin sb))

/-- FTL_RCL_CMD FINISH (R204). -/
def execReclaimFinish (force : Bool) (lost : List Nat) (s : State) : Result := .next (s.live (s.rclStart 1 force fun t sb => t.rclFinish sb force lost))

/-- FTL_RCL_CMD ABORT (R200). -/
def execReclaimAbort (force : Bool) (s : State) : Result := .next (s.live (s.rclStart 2 force fun t sb => t.rclAbort sb))

/-- FTL_RCL_CMD with the reserved OP. -/
def execReclaimReservedOp (force : Bool) (s : State) : Result := .next (s.live (s.rclStart 3 force fun t _ => t))

/-- Once every 1,024 turns: the refresh flags of every CLOSED superblock (R212). -/
def execRefreshCheck (s : State) : Result := .next (s.live ((s.refreshInst 0).refreshInst 1))

end Sys2Proof.Machine
end

