-- ==== Sys2Proof/Machine/Replay.lean ====
section
/-! DEFINITION. The replay journal and field diagnosis (21): checkpoints, export, replay on a lab head, JTAG. -/
namespace Sys2Proof.Machine

/-! ### Checkpoints (R457) -/

/-- CKPT_TURNS with its substitution. -/
def State.ckptTurns (s : State) : Nat := max 1 (s.fld F.RPJ_RING_CFG_CKPT_TURNS)

/-- The CHECKPOINT record of an instance. -/
def State.checkpointOf (s : State) (i : Nat) : State :=
  let rseq := s.fld F.RPJ_RSEQ_COUNT
  (s.record 5 i (s.nextSeq i % 2 ^ 64 + 2 ^ 64 * s.fld (F.FTL_JNL_HARDENED_LO_JSEQ i) + 2 ^ 96 * ofInst s.rpj.lastCkpt i)).modRpj fun r =>
    { r with lastCkpt := putInst r.lastCkpt i rseq }

/-- The count has reached or passed a multiple of CKPT_TURNS. -/
def execCheckpoint (s : State) : Result :=
  .next (s.live (
    if !s.taskDue taskCkpt s.ckptTurns then s
    else
      let s1 := s.taskRan taskCkpt
      if !bit (s.fld F.RPJ_CTRL_TYPE_MASK) 4 then s1
      else ((List.range 2).foldl (fun t i => if t.holds i then t.checkpointOf i else t) s1).raise F.RPJ_ISR_CKPT))

/-! ### Export (R458, R459) -/

/-- Records of a segment. -/
def segRecords : Nat := 32768

/-- How far the first record of a segment lies behind the next RSEQ; none where the segment lies ahead of the newest
record. -/
def State.segBehind (s : State) (seg : Nat) : Option Nat :=
  let first := segRecords * seg
  let n := s.fld F.RPJ_RSEQ_COUNT
  if s.rpj.wrapped then
    let d := (n + 2 ^ 32 - first) % 2 ^ 32
    if d = 0 ∨ 2 ^ 31 < d then none else some d
  else if n ≤ first then none else some (n - first)

/-- The bytes of a segment. -/
def State.segment (s : State) (seg : Nat) : Bytes :=
  (List.range (1048576 / 4096)).flatMap fun k => s.rd (s.recordAddr (segRecords * seg + 128 * k)) 4096

def State.expDone (s : State) (code : Nat) : State := (s.resDone 0x1800034 [(F.RPJ_EXP_RESULT_CODE, code)]).raise F.RPJ_ISR_EXP_DONE

/-- RPJ_EXP_CMD.START: the export counter rises at each export, successful or not. -/
def execExportCmd (_who : Requester) (slot seg : Nat) (s : State) : Result :=
  .next (s.live (s.startWith [(F.RPJ_EXP_CMD_EXP_SLOT, slot), (F.RPJ_EXP_CMD_SEGMENT, seg)] (s.flag F.RPJ_EXP_CMD_BUSY) fun t =>
    let n := t.fld F.RPJ_EXP_CMD_SEGMENT
    let k := t.fld F.RPJ_EXP_CMD_EXP_SLOT
    let inv := t.rpj.exports
    let u := (t.resStart 0x1800034).modRpj fun r => { r with exports := inv + 1 }
    match u.loaded (0x2000 + k), u.keyOf (0x2000 + k), u.segBehind n with
    | true, some _, none => u.expDone 3
    | true, some key, some d =>
      if u.ringRecords < d then u.expDone 2
      else
        let head := leBytes 4 n ++ leBytes 4 ((u.boot.fuses.map (·.dieId)).getD 0) ++ leBytes 8 inv
        let (ct, tag) := gcmEnc key (gcmIv (u.fld F.RPJ_EXP_FIXED_VALUE) inv) head (u.segment n)
        ((u.useGcm k).wr (u.base F.RPJ_EXP_ADDR_LO_VALUE F.RPJ_EXP_ADDR_HI_VALUE 6) (head ++ ct ++ tag)).expDone 0
    | _, _, _ => u.expDone 1))

/-! ### RPJ_CTRL, replay and trace (R460, R464) -/

/-- May the head replay: a lab head in CAST_ON under JTAG level 2? -/
def State.mayReplay (s : State) : Bool :=
  s.fld F.GLB_STRAPS_BOOT_MODE == 2 && s.fld F.RPJ_DBG_LEVEL == 2 && s.headState == stCastOn

/-- A write of RPJ_CTRL: TRACE is held 0 below level 1, REPLAY unless its conditions hold. -/
def State.writeRpjCtrl (s : State) (w : Nat) : State :=
  let s1 := s.writeWord 0x1800000 w
  let s2 := if s.fld F.RPJ_DBG_LEVEL = 0 then s1.setFld F.RPJ_CTRL_TRACE 0 else s1
  if s.mayReplay then s2 else s2.setFld F.RPJ_CTRL_REPLAY 0

/-- RPJ_CTRL written with REPLAY 1. -/
def execReplay (_who : Requester) (w : Nat) (s : State) : Result := .next (s.live (s.writeRpjCtrl (setBits w 16 16 1)))

/-! ### JTAG (R463) -/

/-- Is a response good: its signature of the challenge and the level verifies under a key whose hash is fused in a debug key
slot (R463; log entry 195)? -/
def State.debugSigned (s : State) (level : Nat) (key sig : Bytes) : Bool :=
  ((s.boot.fuses.map (·.debugKeys)).getD []).contains (sha256 key) &&
  ecdsaOk (beNat (key.take 48)) (beNat (key.drop 48)) (beNat (sig.take 48)) (beNat (sig.drop 48)) (beNat (sha256 (s.boot.challenge ++ leBytes 1 level)))

/-- A response to the challenge asks for a level: authentication ends, and the hold at step 2 with it. -/
def execJtagAuth (level : Nat) (key sig : Bytes) (s : State) : Result :=
  .next (s.live (
    if !s.pins.powered || !s.boot.jtagHold || s.headState != stCastOn then s
    else
      let s1 := s.modBoot fun b => { b with jtagHold := false }
      if s.debugSigned level key sig && (level == 1 || (level == 2 && s.fld F.GLB_STRAPS_BOOT_MODE == 2)) then
        (s1.setFld F.RPJ_DBG_LEVEL level).logEvent 8 0x18 0 level
      else s1))

end Sys2Proof.Machine
end

