-- ==== Sys2Proof/Machine/TurnWork.lean ====
section
/-! DEFINITION. What the head does at each turn boundary and at each pip: the ledger, the count towards write-back, the
reclaim share, the budgets' debts, the paced rates and their buckets (03, 08, 12, 16, 20). -/
namespace Sys2Proof.Machine

/-! ### The reclaim share (R214, R258) -/

/-- SHARE by R214: B, X, FREE, WARN_SB and STOP_SB. -/
def shareOf (b x free warn stop : Nat) : Nat :=
  if warn ≤ free then b else if free ≤ stop then x else b + ceilDiv ((x - b) * (warn - free)) (warn - stop)

/-- SHARE of an instance: the greatest while it has an exposed or broken superblock. -/
def State.shareFor (s : State) (i : Nat) : Nat :=
  let b := s.fld F.FTL_RCL_SHARE_BASE_SHARE
  let x := max (s.fld F.FTL_RCL_SHARE_MAX_SHARE) b
  if s.fld (F.STR_EXPOSED_EXPOSED i) ≠ 0 ∨ s.fld (F.STR_EXPOSED_BROKEN i) ≠ 0 then x
  else shareOf b x (s.fld (F.FTL_SB_COUNTS_FREE_COUNT i)) (s.fld F.FTL_SPACE_CFG_WARN_SB) (s.fld F.FTL_SPACE_CFG_STOP_SB)

def State.shareTurn (s : State) : State :=
  (List.range 2).foldl (fun t i => if t.holds i then t.setFld (F.FTL_BG_STATUS_SHARE i) (t.shareFor i) else t) s

/-! ### Debts (R213) -/

/-- Budgets with work waiting at a unit, by their debt keys: background Stitches queued at a Row stage, operations
queued at a die arbiter. -/
def State.waitingWork (s : State) : List Nat :=
  let stages := (s.pattern.rows.zipIdx).flatMap fun r => r.1.stages.flatMap fun g => g.queue.filterMap fun sid =>
    match s.stitch? sid with
    | some t => if isBackground t.cls then some (debtKey (classBudget t.cls) (unitStage r.2 g.type)) else none
    | none => none
  let dies := s.media.queued.filterMap fun q => if q.1 < 6 then some (debtKey q.1 (unitDie q.2.port q.2.die)) else none
  (stages ++ dies).eraseDups

/-- Every debt at a turn boundary; hold-up freezes them. -/
def State.debtTurn (s : State) : State :=
  if s.media.holdup || s.rows.holdup then s
  else
    let work := s.waitingWork
    let keys := (work ++ s.ftl.debts.map (·.1)).eraseDups
    let s1 := keys.foldl (fun t k =>
      let b := k / 2 ^ 20
      t.setDebt b (k % 2 ^ 20) (debtAtTurn (t.debt b (k % 2 ^ 20)) (t.credit b) (t.debtCap b) (work.contains k))) s
    let in_ := ((List.range 6).map fun b => if work.any fun k => k / 2 ^ 20 == b && decide (0 < s1.debt b (k % 2 ^ 20)) then 2 ^ b else 0).sum
    (List.range 2).foldl (fun t i => if t.holds i then t.setFld (F.FTL_BG_STATUS_IN_DEBT i) in_ else t) s1

/-! ### The paced rates (R296) -/

/-- Compression rate of a level, MB/s (R104). -/
def cpRate (l : Nat) : Nat := [0, 4000, 3500, 3000, 2400, 1900, 1500, 1200, 850, 600].getD l 600

/-- A multiple of every compression rate. -/
def cpUnit : Nat := 27132000

/-- r_cp over the blocks of the window by level, rounded down; level 3 with none. -/
def cpMean (levels : Tbl Nat) : Nat :=
  let n := (levels.map (·.2)).sum
  if n = 0 then cpRate 3 else n * cpUnit / (levels.map fun p => p.2 * (cpUnit / cpRate p.1)).sum

/-- The counts now. -/
def State.sampleNow (s : State) : RateSample :=
  { turn := s.turn, lookups := s.pair F.DDP_LOOKUPS_LO_COUNT F.DDP_LOOKUPS_HI_COUNT, dups := s.pair F.DDP_DUPS_LO_COUNT F.DDP_DUPS_HI_COUNT,
    bytesIn := s.pair F.CMP_BYTES_IN_LO_COUNT F.CMP_BYTES_IN_HI_COUNT, stored := s.pair F.CMP_STORED_BYTES_LO_COUNT F.CMP_STORED_BYTES_HI_COUNT,
    levels := s.rows.levels }

/-- Drop the samples that the window of 1,024 turns has left behind, all but the newest of them. -/
def trimSamples (turn : Nat) : List RateSample → List RateSample
  | a :: b :: r => if b.turn + 1024 ≤ turn then trimSamples turn (b :: r) else a :: b :: r
  | l => l

/-- The differences of the counts over the last 1,024 turns, or since reset in the first of them. -/
def State.rateWindow (s : State) : RateSample :=
  let now := s.sampleNow
  let then_ : RateSample := match s.commit.samples with
    | a :: _ => if a.turn + 1024 ≤ s.turn then a else {}
    | [] => {}
  { turn := now.turn, lookups := (now.lookups + 2 ^ 64 - then_.lookups) % 2 ^ 64, dups := (now.dups + 2 ^ 64 - then_.dups) % 2 ^ 64,
    bytesIn := (now.bytesIn + 2 ^ 64 - then_.bytesIn) % 2 ^ 64, stored := (now.stored + 2 ^ 64 - then_.stored) % 2 ^ 64,
    levels := now.levels.map fun p => (p.1, p.2 - (then_.levels.get? p.1).getD 0) }

/-- Engines of a Row's stage, none where it has no such stage. -/
def State.enginesOf (s : State) (r : RowSt) (type : Nat) : Option Nat := (r.stages.find? fun g => g.type == type).map s.engineCount

/-- DX stages that have queued Stitches share the index unit; one at least is counted. -/
def State.dxShare (s : State) : Nat :=
  max 1 ((s.pattern.rows.flatMap fun r => r.stages.filter fun g => g.type == stDX && !g.queue.isEmpty).length)

/-- The least of some rates, without those that do not apply. -/
def leastOf (l : List (Option Nat)) : Option Nat :=
  l.foldl (fun a x => match a, x with | some p, some q => some (min p q) | some p, none => some p | none, y => y) none

/-- A rate at the fused bins, at the Pattern's: the lesser of the ratios of the Row engine and the network clock (R44). A
Pattern with no bins section, before cast-on, leaves the fused ones. -/
def State.atBins (s : State) (r : Nat) : Nat := min (r * s.pattern.bins.getD 1 1600 / 1600) (r * s.pattern.bins.getD 2 2000 / 2000)

/-- What bounds a Row for class 0x0 whatever the data: FP and the index unit, MB/s. -/
def State.rowCap (s : State) (r : RowSt) : Nat :=
  s.atBins ((leastOf [(s.enginesOf r stFP).map (· * 4000), if (s.enginesOf r stDX).isSome then some (393216 / s.dxShare) else none]).getD 0)

/-- The rate of a Row for class 0x0, MB/s: each quotient is rounded down. -/
def State.rowRate (s : State) (w : RateSample) (r : RowSt) : Nat :=
  let kept := w.lookups - w.dups
  min (s.rowCap r) (s.atBins ((leastOf [(s.enginesOf r stCP).map fun e => e * cpMean w.levels * w.lookups / kept,
    (s.enginesOf r stXTE).map fun e => e * 8000 * w.lookups * w.bytesIn / (kept * w.stored),
    (s.enginesOf r stRS).map fun e => e * 40000 * w.lookups * w.bytesIn / (kept * w.stored)]).getD 0))

/-- The open superblock whose code the rates take: stream 0 of the home instance, else stream 1. -/
def State.rateSb (s : State) : Option OpenSb :=
  match s.openFor s.headId 0 with
  | some o => some o
  | none => s.openFor s.headId 1

def State.serving (s : State) (c : Nat) : List RowSt := s.pattern.rows.filter fun r => r.classes.contains c

/-- RW before the cap of write-through: where a fraction has a zero divisor, or no superblock of streams 0 and 1 is
open, the spec states no rate and a free one within the bounds that stand is taken. -/
def State.rateW (s : State) : Nat × State :=
  let w := s.rateWindow
  let rows := s.serving 0
  let cap := (rows.map s.rowCap).sum
  match s.rateSb with
  | some o =>
    if w.dups < w.lookups ∧ 0 < w.bytesIn ∧ 0 < w.stored then
      let p := if s.fld F.NVQ_PACE_MEDIA_MBPS = 0 then 1000 else s.fld F.NVQ_PACE_MEDIA_MBPS
      let media := p * (256 - s.shareNow) / 256 * o.k / (o.k + o.m) * w.lookups * w.bytesIn / ((w.lookups - w.dups) * w.stored)
      (min ((rows.map (s.rowRate w)).sum) media, s)
    else let (v, t) := s.free 32; (min cap v, t)
  | none => let (v, t) := s.free 32; (min cap v, t)

/-- What bounds a Row for class 0x1 whatever the data: LDH and DC (R103). -/
def State.readCap (s : State) (r : RowSt) : Nat :=
  s.atBins ((leastOf [(s.enginesOf r stLDH).map (· * 8000), (s.enginesOf r stDC).map (· * 6000)]).getD 0)

/-- The rate of a Row for class 0x1, MB/s: its least stage capacity, by bytes of its blocks; XTD carries stored bytes. -/
def State.readRate (s : State) (w : RateSample) (r : RowSt) : Nat :=
  match s.enginesOf r stXTD with
  | some e => min (s.readCap r) (s.atBins (e * 8000 * w.bytesIn / w.stored))
  | none => s.readCap r

/-- RR: the rates of the Rows that serve class 0x1, within 200,000 MB/s; where no block was stored in the window f is not
stated, and a free rate within the bounds that stand is taken. -/
def State.rateR (s : State) : Nat × State :=
  let w := s.rateWindow
  let rows := s.serving 1
  let cap := (rows.map s.readCap).sum
  if rows.isEmpty then (0, s)
  else if 0 < w.bytesIn ∧ 0 < w.stored then (min 200000 ((rows.map (s.readRate w)).sum), s)
  else let (v, t) := s.free 32; (min 200000 (min cap v), t)

/-- RW and RR of a turn boundary. -/
def State.rateTurn (s : State) : State :=
  let (w, s1) := s.rateW
  let (r, s2) := s1.rateR
  let rw := if s.writeThrough then min w (s.fld F.NVQ_WT_MBPS_MBPS) else w
  ((s2.setFld F.NVQ_RATE_W_MBPS (min rw (2 ^ 32 - 1))).setFld F.NVQ_RATE_R_MBPS r).modCommit fun c =>
    { c with samples := trimSamples s.turn (c.samples ++ [s.sampleNow]) }

/-- One pip's refill of the buckets (R297): the rate times the pip length, capped at 16 pips of refill. -/
def State.refillBuckets (s : State) : State :=
  let p := if s.pEst = 0 then 16 * s.periodNs else s.pEst
  let add (f : Fld) : Int := (s.fld f * p / 16384000 : Nat)
  let w := add F.NVQ_RATE_W_MBPS
  let r := add F.NVQ_RATE_R_MBPS
  s.modCommit fun c => { c with bucketW := min (c.bucketW + w) (16 * w), bucketR := min (c.bucketR + r) (16 * r) }

/-! ### Turn boundary and pip -/

/-- A write held for a whole turn (CMT_ISR.HELD_LONG). -/
def State.heldTurn (s : State) : State :=
  let held := s.flag F.CMT_STATUS_ADMIT_HELD
  (if s.commit.heldTurn then s.raise F.CMT_ISR_HELD_LONG else s).modCommit fun c => { c with heldTurn := held }

/-- The TCP bytes of a new turn: what the last one sent above its share counts in this one, and what waited goes out. -/
def State.tcpTurn (s : State) : State :=
  let s1 := s.modCommit fun c => { c with tcpIn := 0, tcpOut := c.tcpOut - s.tcpLimit, tcpHeld := [] }
  s.commit.tcpHeld.foldl (fun t x => t.tcpSend x.1 x.2) s1

/-- The pauses whose time has run out end (R322). -/
def State.pauseTurn (s : State) : State :=
  let out := s.rdt.pauseEnd.filter fun p => decide (p.2 ≤ s.turn)
  if out.isEmpty then s
  else
    (s.modRdt fun r => { r with
      paused := out.foldl (fun m p => m.modify (p.1 / 8) fun v => setBits v (p.1 % 8) (p.1 % 8) 0) r.paused,
      pauseEnd := r.pauseEnd.filter fun p => !decide (p.2 ≤ s.turn) }).resumeEgress

/-- AWAY_UNITS of the modules in AWAY. -/
def State.awayTurn (s : State) : State :=
  (List.range 64).foldl (fun t m =>
    if t.modState m = modAway then t.setFld (F.STR_MOD_AWAY_UNITS m) (min 0xFF ((t.turn - (t.port m).awayAt) / 1024)) else t) s

/-- What the head does at each turn boundary, the count raised. -/
def State.turnWork (s : State) : State :=
  (s.ledgerTurn.countGoodTurn.leaveThrough.heldTurn.shareTurn.debtTurn.rateTurn.tjTurn.awayTurn.switchRx fun _ => true).tcpTurn.pauseTurn.quarTurn.refillBuckets

/-- Begin a turn: the refills and events of skipped pips fire at the edge before those of pip 0 (R402). -/
def State.beginTurn (s : State) (count ptp : Nat) (local_ : Bool) : State :=
  let skipped := if s.trnState = trnUnlocked then 0 else 1023 - s.stamp % 1024
  let s1 := (List.range (min 16 skipped)).foldl (fun t _ => t.refillBuckets) s
  let s2 := s1.edgeLatch count ptp local_
  ((s2.writerOn (s2.stamp - s.stamp)).fireDue).turnWork

/-- A pip begins: the stamp, the schedules due, the buckets, the margins and the hold-up schedule. -/
def State.beginPip (s : State) (t : Nat) (margins : List Nat) : State :=
  ((((s.setStamp (s.stamp + 1)).writerOn 1).fireDue.refillBuckets).takeMargins t margins).holdSchedule

end Sys2Proof.Machine
end

