-- ==== Sys2Proof/Machine/Turns.lean ====
section
/-! DEFINITION. Turns and the table (17): edges and frames of the TURN line, the First Player, table messages and the
schedule slots. Times are on the head's 1 GHz timebase. -/
namespace Sys2Proof.Machine

/-! ### Edges and frames (R402-R405) -/

/-- A real edge of the TURN line at time t, with the PTP time then. -/
def execTurnEdge (t ptp : Nat) (s : State) : Result :=
  .next (s.live (match s.edgeKind t with
    | .ignored => s
    | .glitch => s.glitch
    | .unlocked => s.modTrn fun r => { r with lastEdge := t, realEdge := some t, awaiting := true, edgePtp := ptp }
    | .realigned =>
      ((s.modTrn fun r => { r with lastEdge := t, realEdge := some t, accepted := false, awaiting := true }).setFld F.TRN_STATUS_LOCAL 0).turnRecord
        s.turn false true
    | .accepted =>
      let s1 := ((s.acceptPeriod t).setFld F.TRN_STATUS_LOCAL 0).modTrn fun r => { r with awaiting := true, holdAt := if s.trnState = trnHoldover then t else r.holdAt }
      s1.beginTurn (s.turn + 1) ptp false))

/-- FP_SEAT and EPOCH of a good frame. -/
def State.frameFrom (s : State) (f : TurnFrame) : State :=
  let s1 := s.setFld F.TRN_STATUS_FP_SEAT f.fpSeat
  if f.epoch = s.fld F.TRN_STATUS_EPOCH then s1 else (s1.setFld F.TRN_STATUS_EPOCH f.epoch).raise F.TRN_ISR_FP_CHANGE

/-- The count floor (R409). -/
def State.trnFloor (s : State) : Nat := s.pair F.TRN_FLOOR_LO_VALUE F.TRN_FLOOR_HI_VALUE

/-- A rejected frame: AHEAD carries the count this head needs to the First Player. -/
def State.rejectFrame (s : State) (need : Nat) : State := s.trnReject.sendAhead (s.fld F.TRN_STATUS_FP_SEAT) need

/-- Adopt a greater count: the pip stands, and what the jump passes fires at once. -/
def State.jumpTo (s : State) (count : Nat) : State :=
  (((s.setStamp (count % 2 ^ 54 * 1024 + s.stamp % 1024)).inc F.TRN_EVENTS_JUMPS).raise F.TRN_ISR_JUMP).fireDue

/-- The frame that follows a real edge; the marker ends 3,880 ns after its edge (R399). -/
def execTurnFrame (w : Nat) (s : State) : Result :=
  .next (s.live (
    if !s.trn.awaiting then s
    else
      let s0 := s.modTrn fun r => { r with awaiting := false }
      match readFrame w with
      | none => s0.inc F.TRN_EVENTS_FRAME_ERR
      | some f =>
        let s1 := s0.frameFrom f
        let count := f.count
        if s.trnState = trnUnlocked then
          if count < s.trnFloor then s1.rejectFrame s.trnFloor
          else ((s1.modTrn fun r => { r with accepted := true, lockEdges := 1 }).setFld F.TRN_STATUS_LOCAL 0 |>.beginTurn count s.trn.edgePtp false).setTrn trnTracking
        else if s.trnState = trnTracking ∨ s.trnState = trnHoldover then
          if count < s.turn then (s1.rejectFrame (s.turn + 1)).enterHoldover (s.trn.realEdge.getD 0 + 3880)
          else (if s.turn < count then s1.jumpTo count else s1).setTrn trnTracking
        else s1))

/-- When the next edge is expected. -/
def State.edgeDue (s : State) : Nat := s.trn.lastEdge + (if s.pEst = 0 then s.periodNs else s.pEst / 16)

/-- No real edge has come by the expected time: the head makes a local edge, and the third in a row enters HOLDOVER. -/
def execLocalEdge (t ptp : Nat) (s : State) : Result :=
  .next (s.live (
    if !(s.trnState == trnTracking || s.trnState == trnHoldover) || decide (t < s.edgeDue) then s
    else
      let s1 := (s.inc F.TRN_STATUS_LOCAL).modTrn fun r => { r with lastEdge := t, accepted := false, awaiting := false }
      let s2 := s1.beginTurn (s.turn + 1) ptp true
      if s.trnState = trnTracking ∧ 3 ≤ s1.fld F.TRN_STATUS_LOCAL then s2.enterHoldover t else s2))

/-- The next pip of the turn begins, with the margins of the delay monitors. -/
def execPipBoundary (t : Nat) (margins : List Nat) (s : State) : Result :=
  .next (s.live (
    if (s.trnState == trnTracking || s.trnState == trnHoldover || s.trnState == trnFirst) && decide (s.stamp % 1024 < 1023) then s.beginPip t margins
    else s))

/-! ### The First Player (R405, R408) -/

def State.skipTurns (s : State) : Nat := s.fld F.TRN_CTRL_SKIP_TURNS

/-- The seat's wait since ENABLE has passed with no accepted edge. -/
def execUnlockedTimeout (t : Nat) (s : State) : Result :=
  .next (s.live (
    if s.trnState = trnUnlocked ∧ s.flag F.TRN_CTRL_FP_ELIG = true ∧ s.trn.enabledAt + (s.seat + 4) * s.periodNs ≤ t then
      s.enterFirst (max s.turn s.trnFloor + 1 + s.skipTurns)
    else s))

/-- SEAT + 1 turns of HOLDOVER have passed with no accepted edge: the next local edge is driven. -/
def execHoldoverTimeout (t : Nat) (s : State) : Result :=
  .next (s.live (
    if s.trnState = trnHoldover ∧ s.flag F.TRN_CTRL_FP_ELIG = true ∧ s.trn.holdAt + (s.seat + 1) * (if s.pEst = 0 then s.periodNs else s.pEst / 16) ≤ t then
      s.enterFirst (s.turn + 1 + s.skipTurns)
    else s))

/-- The count the next driven edge carries. -/
def State.nextCount (s : State) : Nat := max (s.trn.claim.getD (s.turn + 1)) (s.trn.ahead.getD 0)

/-- PERIOD_US has passed in FIRST: the head drives an edge and its frame, and checks what it reads back. -/
def execFirstPlayerEdge (t ptp readBack : Nat) (s : State) : Result :=
  .next (s.live (
    if s.trnState ≠ trnFirst then s
    else
      let c := s.nextCount
      let w := frameBits c s.seat (s.fld F.TRN_STATUS_EPOCH)
      let s1 := (s.send (.turnFrame w)).modPins fun p => { p with turnDriven := true }
      let s2 := ((s1.acceptPeriod t).setFld F.TRN_STATUS_LOCAL 0).modTrn fun r => { r with claim := none, ahead := none, awaiting := false }
      let s3 := s2.beginTurn c ptp false
      if readBack = w then s3.setFld F.TRN_STATUS_FP_SEAT s.seat
      else (s3.releaseTurn.trnReject).enterHoldover t))

/-- TRN leaves OFF: count 0, pip 0, the divider anew. -/
def State.trnStart (s : State) (t : Nat) : State :=
  ((s.setStamp 0).modTrn fun r => { r with
    enabledAt := t, lockEdges := 0, accepted := false, realEdge := none, awaiting := false, claim := none, ahead := none, tasks := [] }).setTrn trnUnlocked

/-- A write of TRN_CTRL at time t: ENABLE starts or stops TRN, and YIELD in FIRST gives the role up. -/
def State.writeTrnCtrl (s : State) (w t : Nat) : State :=
  let s1 := s.writeWord 0x300000 w
  if bit w 0 ∧ s.trnState = trnOff then s1.trnStart t
  else if !bit w 0 ∧ s.trnState ≠ trnOff then s1.trnStop
  else if bit w 2 ∧ s.trnState = trnFirst then s1.releaseTurn.enterHoldover t
  else s1

/-- TRN_CTRL written with ENABLE 1. -/
def execTrnEnable (_who : Requester) (w t : Nat) (s : State) : Result := .next (s.live (s.writeTrnCtrl (setBits w 0 0 1) t))

/-- TRN_CTRL written with ENABLE 0. -/
def execTrnDisable (_who : Requester) (w t : Nat) (s : State) : Result := .next (s.live (s.writeTrnCtrl (setBits w 0 0 0) t))

/-- TRN_CTRL written with YIELD 1. -/
def execYield (_who : Requester) (w t : Nat) (s : State) : Result := .next (s.live (s.writeTrnCtrl (setBits w 2 2 1) t))

/-! ### Table messages (R410) -/

/-- A table message arrives: one with a reserved TYPE or a reserved byte that is not zero is discarded and counted;
AHEAD raises the First Player's count at its next edge; STATUS changes nothing here. -/
def State.takeTable (s : State) (m : TableMsg) : State :=
  if (m.type ≠ 1 ∧ m.type ≠ 2) ∨ m.reserved ≠ 0 then s.inc F.TRN_EVENTS_FRAME_ERR
  else if m.type = 2 ∧ s.trnState = trnFirst then
    s.modTrn fun r => { r with ahead := some (max (r.ahead.getD 0) (m.count + s.skipTurns)) }
  else s

/-- TABLE_STATUS. -/
def execTableStatus (m : TableMsg) (s : State) : Result := .next (s.live (s.takeTable m))

/-- AHEAD. -/
def execAhead (m : TableMsg) (s : State) : Result := .next (s.live (s.takeTable m))

/-- STATUS is due once the count has reached or passed a multiple of 1,024 turns. -/
def execTableStatusSend (s : State) : Result :=
  .next (s.live (if s.taskDue taskStatus 1024 then s.sendStatus.taskRan taskStatus else s))

/-! ### Schedules (R411) -/

/-- A schedule slot's TARGET is reached or passed. -/
def execScheduleSlotFire (n : Nat) (s : State) : Result := .next (s.live (if s.schedDue (n % 16) then s.fireSlot (n % 16) else s))

/-- A write of TRN_SCHED_CFG_n: EN is written and LATE cleared; a slot armed with its TARGET already passed fires at
once, late. -/
def State.writeSched (s : State) (k w : Nat) : State :=
  let s1 := (s.writeWord (0x300108 + 0x10 * k) w).setFld (F.TRN_SCHED_CFG_LATE k) 0
  if s1.schedDue k then (s1.fireSlot k).setFld (F.TRN_SCHED_CFG_LATE k) 1 else s1

/-- TRN_SCHED_CFG_n written with EN 1. -/
def execSchedArm (_who : Requester) (n w : Nat) (s : State) : Result := .next (s.live (s.writeSched (n % 16) (setBits w 31 31 1)))

end Sys2Proof.Machine
end

