-- ==== Sys2Proof/Machine/RegisterOps.lean ====
section
/-! DEFINITION. The register window (22): who may reach it, the latches of 64-bit pairs, and what a written register
changes at once, as the operations that commands share. -/
namespace Sys2Proof.Machine

/-! ### Requesters (R463, R465-R467) -/

/-- The number of a requester's latch. -/
def latchOf : Requester → Nat
  | .hart n => n % 36
  | .referee => 36
  | .pcie => 37
  | .jtag => 38

/-- Does a PCIe port run as an endpoint? Before the Pattern splits the port, it is one. -/
def State.pcieEndpoint (s : State) : Bool := s.pattern.pcie.isEmpty || s.pattern.pcie.any fun p => p.2.1

/-- May a requester read the window? -/
def State.mayRead (s : State) : Requester → Bool
  | .pcie => s.pcieEndpoint
  | .jtag => decide (1 ≤ s.fld F.RPJ_DBG_LEVEL)
  | _ => true

/-- May a requester write to the window at all? -/
def State.mayWrite (s : State) : Requester → Bool
  | .pcie => s.pcieEndpoint
  | .jtag => s.fld F.RPJ_DBG_LEVEL == 2
  | _ => true

/-- The form of an access that is performed (R465): its block exists, and it is 4 bytes aligned, or 8 bytes aligned at a
_LO register. -/
def accessOk (off size : Nat) : Bool :=
  decide (off < 0x1C00000) && ((size == 4 && off % 4 == 0) || (size == 8 && off % 8 == 0 && (pairAt off).isSome))

/-! ### What a written register changes at once -/

/-- The banks of the coefficient RAM: loop and bank of an offset (R380). -/
def coefBank (off : Nat) : Option (Nat × Nat) :=
  if 0x404000 ≤ off ∧ off < 0x404800 then some ((off - 0x404000) / 0x200, (off - 0x404000) / 0x100 % 2) else none

/-- Does the register take no write now: the active bank of coefficients (R382), a pool's base while it is enabled, a
route during a hold (R473)? The last is refused. -/
def State.writeBlocked (s : State) (off : Nat) : Option State :=
  match coefBank off with
  | some (n, b) => if b = s.fld (F.CTL_LOOP_CTRL_ACTIVE_BANK n) then some (s.inc F.CTL_EVENTS_ACTIVE_WRITE) else none
  | none =>
    if 0x801000 ≤ off ∧ off < 0x801800 ∧ off % 0x20 < 8 ∧ s.flag (F.BBM_POOL_CTRL_ENABLE ((off - 0x801000) / 0x20)) = true then some s
    else if 0x1A01000 ≤ off ∧ off < 0x1A01E00 ∧ s.flag F.IRQ_SWAP_HOLDING = true then some (s.refuseAccess off)
    else none

/-- The bits of IRQ_ERR_FATAL that a mask names are cleared; with none left the fatal timer stops (R475). -/
def State.clearFatal (s : State) (mask : Nat) : State :=
  let v := s.fld F.IRQ_ERR_FATAL_BLOCKS - (s.fld F.IRQ_ERR_FATAL_BLOCKS &&& mask)
  let s1 := s.setFld F.IRQ_ERR_FATAL_BLOCKS v
  if v = 0 then s1.stopFatalTimer else s1

/-- Interrupts that an enabled _IER newly asserts are delivered (R453, R472). -/
def State.deliverNew (s0 s : State) (isr : Nat) : State :=
  let b := isr / 0x100000
  ((s.assertedAt isr).filter fun k => !(s0.assertedAt isr).contains k && !s.sourceHeld (32 * b + k)).foldl (fun t _ => t.record 4 0 (b + 2 ^ 32 * t.rawReg isr)) s

/-- Keep FB_BAD of every pool (R342). -/
def State.refreshFallbacks (s : State) : State := (List.range 64).foldl (fun t p => t.setFlag (F.BBM_POOL_CFG_FB_BAD p) (t.fbBad p)) s

/-- Keep the dual compute flags (R369). -/
def State.refreshDual (s : State) : State :=
  [0, 3, 4].foldl (fun t p => match dualFld p with | some f => t.setFlag f (t.dualNow p) | none => t) s

/-- What follows at once from a register's new word: limits and flags that are kept from it. -/
def State.afterWrite (s0 s : State) (off : Nat) : State :=
  if off = 0x1000000 ∨ off = 0x1000010 ∨ off = 0x1000014 then
    ((s.setFld F.CMT_DIRTY_CAP_LO_CAP_LO (s.fld F.CMT_DIRTY_CAP_LO_CAP_LO / 4096 * 4096)).testWriteThrough).testPacing
  else if off = 0x1200000 then s.testPacing
  else if off = 0x500000 then s.refreshDual
  else if off = 0x500044 then s.setFld F.SEC_ALARM_MASK_SOURCES (s.fld F.SEC_ALARM_MASK_SOURCES ||| alarmAlways)
  else if off = 0x400000 then
    (if !s.flag F.CTL_CTRL_ENABLE then (if s.mode = 0 then s else s.setMode 0)
     else if !s0.flag F.CTL_CTRL_ENABLE && s.pins.inputGood && s.headState != 0 then s.setMode 1 else s)
  else if off = 0x40001C then s.observe
  else if off = 0x400080 then (if s.bankFailed then s.setFld F.CTL_INJ_CFG_EN 0 else s)
  else if off = 0x400100 ∨ off = 0x400110 then s.setFld (F.CTL_LOOP_CTRL_ENABLE ((off - 0x400100) / 0x10)) 1
  else if 0x801000 ≤ off ∧ off < 0x801800 then s.refreshFallbacks
  else if 0x200040 ≤ off ∧ off < 0x20004C then
    (let r := (off - 0x200040) / 4
     if s.flag (F.RPR_VADJ_RAIL_EN r) ∧ s.headState = stCastOn then s.writeOffset r else s)
  else if 0xC00060 ≤ off ∧ off < 0xC00074 then (if s.inService then (s.recountSbs 0).recountSbs 1 else s)
  else if off = 0xC00190 ∨ off = 0xC00194 then (if s.holds 0 then s.retail 0 else s)
  else if off = 0xC00290 ∨ off = 0xC00294 then (if s.holds 1 then s.retail 1 else s)
  else if off = 0xC00430 then (if s.inService then (s.rewear 0).rewear 1 else s)
  else if (isrRegs (off / 0x100000)).contains (off - 4) then State.deliverNew s0 s (off - 4)
  else s

/-- A word reaches one register at time t: registers with an operation of their own take it, the others by their access
codes. -/
def State.writeReg (s : State) (off w t : Nat) : State :=
  match s.writeBlocked off with
  | some u => u
  | none =>
    if off = 0x300000 then s.writeTrnCtrl w t
    else if 0x300108 ≤ off ∧ off < 0x300200 ∧ off % 0x10 = 8 then s.writeSched ((off - 0x300108) / 0x10) w
    else if off = 0x1800000 then s.writeRpjCtrl w
    else if off = 0x1A0000C then s.clearFatal w
    else if 0x408000 ≤ off ∧ off < 0x418000 then s.captureWrite off w
    else if (off = 0xC001A4 ∨ off = 0xC001A8 ∨ off = 0xC002A4 ∨ off = 0xC002A8) then
      s.nameAnchor ((off - 0xC00100) / 0x100) ((off % 0x100 - 0xA4) / 4) (w % 2 ^ 28)
    else State.afterWrite s (s.writeWord off w) off

/-! ### 64-bit pairs (R469) -/

/-- Is the offset the _HI register of a pair that takes writes? -/
def heldHi (off : Nat) : Bool :=
  decide (4 ≤ off) && (pairAt (off - 4)).isSome && (regFields off).any fun p => p.2 == .RW || p.2 == .RWL

/-- A requester's latched reads and held writes. -/
def State.latched (s : State) (who : Requester) : Tbl Nat := (s.latches.get? (2 * latchOf who)).getD []
def State.heldBy (s : State) (who : Requester) : Tbl Nat := (s.latches.get? (2 * latchOf who + 1)).getD []
def State.setLatch (s : State) (k : Nat) (l : Tbl Nat) : State :=
  { s with latches := if l.isEmpty then s.latches.del k else s.latches.put k l }

/-- A 32-bit write by a requester: a register its chapter keeps for the Referee cores ignores the others (a refused write
of the control engine is counted, R372), a _HI is held, a _LO takes its held _HI with it. -/
def State.write32 (s : State) (who : Requester) (off w t : Nat) : State :=
  if refereeOnly off && who != .referee then (if off / 0x100000 = 4 then s.ctlRefuse else s)
  else if heldHi off then s.setLatch (2 * latchOf who + 1) ((s.heldBy who).put off (w % 2 ^ 32))
  else if (pairAt off).isSome then
    match (s.heldBy who).get? (off + 4) with
    | some h =>
      let s1 := s.setLatch (2 * latchOf who + 1) ((s.heldBy who).del (off + 4))
      if (s1.writeBlocked (off + 4)).isSome then s1.writeReg off (w % 2 ^ 32) t else (s1.writeWord (off + 4) h).writeReg off (w % 2 ^ 32) t
    | none => s.writeReg off (w % 2 ^ 32) t
  else s.writeReg off (w % 2 ^ 32) t

/-- The result registers (R470). -/
def resultRegs : List Nat :=
  [0x40, 0x200014, 0x400094, 0x400104, 0x400114, 0x400124, 0x400134, 0x500020, 0x500054, 0x600054, 0x700010, 0x800014, 0xA0002C,
   0xB00014, 0xC00034, 0xC00410, 0xD0001C, 0x130002C, 0x1600020, 0x1700018, 0x17000B0, 0x1800034, 0x1B0002C, 0x1B00040]

/-- A read of a result register that returned VALID = 1 sets SEEN, unless JTAG reads (R470). -/
def State.markSeen (s : State) (who : Requester) (off : Nat) : State :=
  if resultRegs.contains off && s.flag (resValid off) && who != .jtag then s.setFld (resSeen off) 1 else s

/-- The field of a wrap-count register that a _LO register latches, where counters share the register: its lowest bit and
its width (R143, R469). -/
def wrapPart (off : Nat) : Option (Nat × Nat) :=
  match off with
  | 0xA00040 | 0x600080 | 0xB00040 => some (0, 16)
  | 0xA00048 | 0x600088 | 0xB00050 => some (16, 16)
  | 0xC00080 | 0xE00040 => some (0, 10)
  | 0xC00088 | 0xE00048 => some (10, 10)
  | 0xC00090 | 0xE00050 => some (20, 10)
  | _ =>
    if off / 0x400 ≠ 0x1401000 / 0x400 then none
    else if off % 0x40 = 0x20 then some (0, 16) else if off % 0x40 = 0x28 then some (16, 16) else none

/-- What a read of a _LO register latches of a companion: all of it, or of a shared wrap-count register its own field beside
those latched before. -/
def State.latchValue (s : State) (who : Requester) (off o : Nat) : Nat :=
  match wrapPart off with
  | some (lo, w) =>
    let now := s.rawReg o
    let old := ((s.latched who).get? o).getD now
    if o = off + 4 then now else old - old / 2 ^ lo % 2 ^ w * 2 ^ lo + now / 2 ^ lo % 2 ^ w * 2 ^ lo
  | none => s.rawReg o

/-- A read of a _LO register: its _HI and companions are latched for the requester. -/
def State.readLo (s : State) (who : Requester) (off : Nat) : State :=
  match (s.latched who).get? off with
  | some v => s.send (.regRead (latchOf who) off v)
  | none =>
    let comp := (off + 4) :: (pairAt off).getD []
    let l := comp.foldl (fun (t : Tbl Nat) o => t.put o (s.latchValue who off o)) (s.latched who)
    ((s.setLatch (2 * latchOf who) l).send (.regRead (latchOf who) off (s.rawReg off))).markSeen who off

end Sys2Proof.Machine
end

