-- ==== Sys2Proof/Machine/Registers.lean ====
section
/-! DEFINITION. Register accesses, pairs and results, interrupts and the fatal timer (22). -/
namespace Sys2Proof.Machine

/-- A write of `size` bytes at a window offset, at time t. -/
def execRegisterWrite (who : Requester) (off size value t : Nat) (s : State) : Result :=
  .next (s.live (
    if !s.mayWrite who then s
    else if !accessOk off size then s.refuseAccess (off % 2 ^ 26)
    else if size = 8 then (s.write32 who (off + 4) (value / 2 ^ 32 % 2 ^ 32) t).write32 who off (value % 2 ^ 32) t
    else s.write32 who off (value % 2 ^ 32) t))

/-- A read of a _LO register. -/
def execPairLoRead (who : Requester) (off : Nat) (s : State) : Result :=
  .next (s.live (if s.mayRead who && (pairAt off).isSome then s.readLo who off else s))

/-- A write of an RW _HI register is held. -/
def execPairHiWrite (who : Requester) (off value : Nat) (s : State) : Result :=
  .next (s.live (if s.mayWrite who && heldHi off then s.write32 who off value 0 else s))

/-- A write of a _LO register commits it with the held _HI. -/
def execPairLoWrite (who : Requester) (off value : Nat) (s : State) : Result :=
  .next (s.live (if s.mayWrite who && (pairAt off).isSome then s.write32 who off value 0 else s))

/-- A read of a result register. -/
def execResultRegisterRead (who : Requester) (off : Nat) (s : State) : Result :=
  .next (s.live (
    if !s.mayRead who || !resultRegs.contains off then s
    else if (pairAt off).isSome then s.readLo who off
    else (s.send (.regRead (latchOf who) off (s.rawReg off))).markSeen who off))

/-- A write of an _ISR_SET register, 8 bytes above its _ISR: each 1 sets its _ISR bit as its event would. -/
def execInterruptSet (who : Requester) (off value : Nat) (s : State) : Result :=
  .next (s.live (
    if !s.mayWrite who || !(isrRegs (off / 0x100000)).contains (off - 8) then s
    else if refereeOnly off && who != .referee then s.ctlRefuse
    else (regFields off).foldl (fun t p => if wordField p.1 value = 1 then t.raise { p.1 with off := off - 8 } else t) s))

/-- IRQ_SWAP.SWAP: no effect while sources are held. -/
def execIrqSwap (who : Requester) (s : State) : Result :=
  .next (s.live (if s.mayWrite who && !s.flag F.IRQ_SWAP_HOLDING then s.swapRoutes else s))

/-- IRQ_ERR_FATAL: only the Referee cores clear its bits. -/
def execErrFatalClear (who : Requester) (mask : Nat) (s : State) : Result :=
  .next (s.live (if who = .referee then s.clearFatal mask else s))

/-- The fatal timer expires. -/
def execFatalTimerExpiry (s : State) : Result := .next (s.live (if s.flag F.IRQ_FATAL_TIMER_RUNNING then s.forfeit 1 else s))

end Sys2Proof.Machine
end

