-- ==== Sys2Proof/Machine/Rows.lean ====
section
/-! DEFINITION. Rows, Stitches and engines: the meanings of their commands (04, 05, 06). -/
namespace Sys2Proof.Machine

/-- Firmware writes ROW_SQ_TAIL past new entries of the submission ring (R110). -/
def execStitchSubmit (tail : Nat) (s : State) : Result := .next (s.live (s.setFld F.ROW_SQ_TAIL_TAIL tail))

/-- The next ring entry, or the k-th Stitch the head has built, is admitted, refused, cancelled, or waits on
(R110-R112). -/
def execStitchAdmit (fromRing : Bool) (k : Nat) (s : State) : Result :=
  .next (s.live ((if fromRing then s.admitRing else s.admitWaiting k).afterStage))

/-- A GCM engine finishes a received frame (R358). -/
def execGdStage (sid : Nat) (chk : StageCheck) (s : State) : Result :=
  .next (s.live ((s.runStage sid stGD chk fun u t => u.gdWork sid t).afterStage))

/-- An LDPC hard engine finishes a codeword (R236). -/
def execLdhStage (sid : Nat) (chk : StageCheck) (s : State) : Result :=
  .next (s.live ((s.runStage sid stLDH chk fun u t => u.ldhWork sid t).afterStage))

/-- An LDPC soft engine finishes a decode stage (R237-R239). -/
def execLdsStage (sid : Nat) (chk : StageCheck) (s : State) : Result :=
  .next (s.live ((s.runStage sid stLDS chk fun u t => u.ldsWork sid t).afterStage))

/-- An XTS engine finishes decrypting a stored slot (R353-R355). -/
def execXtdStage (sid : Nat) (chk : StageCheck) (s : State) : Result :=
  .next (s.live ((s.runStage sid stXTD chk fun u t => u.xtdWork sid t).afterStage))

/-- A decompression engine finishes a stored form or a frame (R161); a bad carry guard at its output is its own check. -/
def execDcStage (sid : Nat) (chk : StageCheck) (s : State) : Result :=
  .next (s.live ((s.runStage sid stDC (if chk = .guardBad then .good else chk) fun u t => u.dcWork sid t (chk == .guardBad)).afterStage))

/-- A fingerprint engine finishes (R121). -/
def execFpStage (sid : Nat) (chk : StageCheck) (s : State) : Result :=
  .next (s.live ((s.runStage sid stFP chk fun u t => u.fpWork sid t).afterStage))

/-- The dedup index unit ends a lookup (R131-R135). -/
def execDxStage (sid : Nat) (chk : StageCheck) (s : State) : Result :=
  .next (s.live ((s.runStage sid stDX chk fun u t => if t.parked.isSome || t.waitsPage then u else u.lookupDx sid t).afterStage))

/-- A compression engine finishes a block (R147-R151). -/
def execCpStage (sid : Nat) (chk : StageCheck) (s : State) : Result :=
  .next (s.live ((s.runStage sid stCP chk fun u t => u.cpWork sid t).afterStage))

/-- An XTS engine encrypts the stored form and masks the guard (R353, R354). -/
def execXteStage (sid : Nat) (chk : StageCheck) (s : State) : Result :=
  .next (s.live ((s.runStage sid stXTE chk fun u t => u.xteWork sid t).afterStage))

/-- A GCM engine builds a frame (R155). -/
def execGeStage (sid : Nat) (chk : StageCheck) (s : State) : Result :=
  .next (s.live ((s.runStage sid stGE chk fun u t => u.geWork sid t).afterStage))

/-- The RS stage places slots (R182, R202). -/
def execRsStage (sid : Nat) (chk : StageCheck) (s : State) : Result :=
  .next (s.live ((s.runStage sid stRS chk fun u t => u.rsWork sid t).afterStage))

/-- No result within the engine's timeout (R115). -/
def execEngineTimeout (sid : Nat) (s : State) : Result := .next (s.live ((s.engineLate sid).afterStage))

/-- A spare's known-answer test ends (R116, R117). -/
def execSpareKatDone (pool engine : Nat) (pass : Bool) (s : State) : Result := .next (s.live ((s.spareTested pool engine pass).afterStage))

/-- An index page arrives, or its read found no image or no readable one (R129, R130). -/
def execIndexPageFetched (inst page : Nat) (data : Option Bytes) (s : State) : Result := .next (s.live (s.indexFetched (inst % 2) page data))

/-- A parked Stitch is compared with its candidate (R134). -/
def execVerifyCompare (sid : Nat) (s : State) : Result := .next (s.live ((s.takeRetired.verifyEnd sid).afterStage))

/-- A class 4 lookup goes on with the pages it waited for (R135). -/
def execBackgroundDedupResume (sid : Nat) (s : State) : Result :=
  .next (s.live (
    match s.stitch? sid with
    | some t => if t.waitsPage then ((s.modStitch sid fun t => { t with waitsPage := false }).lookupDx sid { t with waitsPage := false }).afterStage else s
    | none => s))

/-- A reference batch of COUNT descriptors (R140). -/
def execReferenceBatch (count : Nat) (s : State) : Result :=
  .next (s.live (s.startWith [(F.DDP_REFOP_CTRL_COUNT, count)] (s.flag F.DDP_REFOP_CTRL_BUSY) fun t =>
    let b : RefBatch :=
      { next := 0, failed := 0, addr := s.base F.DDP_REFOP_ADDR_LO_ADDR_LO F.DDP_REFOP_ADDR_HI_ADDR_HI 3, count := t.fld F.DDP_REFOP_CTRL_COUNT }
    (((t.resStart refopRes).setFld F.DDP_REFOP_CTRL_BUSY 1).modDdp fun d => { d with batch := some b }).batchOn))

/-! ### Dictionaries (R157-R159) -/

def dictRes : Nat := 0xB00014
def State.dictState (s : State) (d : Nat) : Nat := s.rdN (s.dictAddr d) 1

/-- Count the dictionaries by state. -/
def State.recountDicts (s : State) : State :=
  let n (k : Nat) : Nat := ((List.range 1024).filter fun d => d != 0 && s.dictState d == k).length
  (s.setFld F.CMP_DICT_COUNTS_ACTIVE (n 1)).setFld F.CMP_DICT_COUNTS_RETIRING (n 2)

/-- A dictionary command completes. -/
def State.dictDone (s : State) (d code : Nat) : State :=
  ((s.recountDicts.setFld F.CMP_DICT_CMD_BUSY 0).resDone dictRes [(F.CMP_DICT_RESULT_DICT_ID, d), (F.CMP_DICT_RESULT_CODE, code)]).raise F.CMP_ISR_DICT_DONE

/-- Run a dictionary command on the dictionary it names; dictionary 0 is out of range, unless OP is reserved. -/
def State.dictCmd (s : State) (op dict : Nat) (run : State → Nat → State) : Result :=
  .next (s.live (s.startWith [(F.CMP_DICT_CMD_OP, op), (F.CMP_DICT_CMD_DICT_ID, dict)] (s.flag F.CMP_DICT_CMD_BUSY) fun t =>
    let u := t.resStart dictRes
    let d := u.fld F.CMP_DICT_CMD_DICT_ID
    if d = 0 ∧ op ≠ 3 then u.dictDone d 2 else run u d))

/-- The fields of an entry are in range. A reserved byte or bit that is not zero counts as a field out of range
(DESIGN CHOICE, log entry 178). -/
def State.dictFits (s : State) (d : Nat) : Bool :=
  let a := s.dictAddr d
  let n (off len : Nat) : Nat := s.rdN (a + off) len
  n 1 1 == 0 && decide (n 2 2 < 4096) && n 8 8 % 64 == 0 && decide (4096 ≤ n 0x10 2) && decide (n 0x10 2 ≤ 32768) && n 0x10 2 % 4096 == 0 &&
  decide (1 ≤ n 0x12 2) && n 0x14 4 == 0 && n 0x18 8 % 4096 == 0 && n 0x38 8 == 0

/-- INSTALL (R159): the TAG is taken, the chain image is built, USES start at 0. Of an INSTALL that fails more than one
condition, the fields are reported before the TAG, and the TAG before the VERSION (DESIGN CHOICE, log entry 178). -/
def execDictInstall (dict : Nat) (s : State) : Result :=
  s.dictCmd 0 dict fun u d =>
    let a := u.dictAddr d
    if u.dictState d ≠ 0 then u.dictDone d 1
    else if !u.dictFits d then u.dictDone d 2
    else
      let bytes := u.rd (u.rdN (a + 8) 8) (u.rdN (a + 0x10) 2)
      let tag := leNat ((sha256 bytes).take 4)
      let domain := u.rdN (a + 2) 2
      let newer := (List.range 1024).all fun e => e == 0 || u.dictState e == 0 || u.rdN (u.dictAddr e + 2) 2 % 4096 != domain ||
        decide (u.rdN (u.dictAddr e + 0x12) 2 < u.rdN (a + 0x12) 2)
      if tag % 4096 = 0 then u.dictDone d 3
      else if !newer then u.dictDone d 4
      else
        ((((u.wrN (a + 4) 4 tag).wr (u.rdN (a + 0x18) 8) (chainImage bytes)).wr (a + 0x20) (zeros 16 ++ leBytes 8 u.stamp)).wrN a 1 1).dictDone d 0

/-- RETIRE (R159): refused while a domain maps to the dictionary. -/
def execDictRetire (dict : Nat) (s : State) : Result :=
  s.dictCmd 1 dict fun u d =>
    if u.dictState d ≠ 1 then u.dictDone d 1
    else if (List.range 4096).any fun k => u.rdBits (u.cmpBase + 2 * k) 9 0 == d then u.dictDone d 5
    else (u.wrN (u.dictAddr d) 1 2).dictDone d 0

/-- FREE (R159): refused while a Content Record or a Stitch in flight holds the dictionary. -/
def execDictFree (dict : Nat) (s : State) : Result :=
  s.dictCmd 2 dict fun u d =>
    if u.dictState d ≠ 2 then u.dictDone d 1
    else if u.dictUses d 0 != 0 || u.dictUses d 1 != 0 || (u.rows.stitches.vals ++ u.rows.waiting).any fun t => t.dict == d || (t.cpDict == (d, true) && !bit t.done (stCP - 1)) then u.dictDone d 6
    else ((u.wrN (u.dictAddr d + 4) 4 0).wrN (u.dictAddr d) 1 0).dictDone d 0

/-- A reserved OP (R159). -/
def execDictReservedOp (dict : Nat) (s : State) : Result := s.dictCmd 3 dict fun u d => u.dictDone d 7

end Sys2Proof.Machine
end

