-- ==== Sys2Proof/Machine/Snapshots.lean ====
section
/-! DEFINITION. Snapshots, consistency sets and replication: their commands (11). -/
namespace Sys2Proof.Machine

/-! ### SNP_CMD -/

/-- Start an SNP_CMD operation with its argument fields. -/
def State.snpStart (s : State) (op count addr arg arg2 value : Nat) (fromEmpty : Bool) (run : State → State) : State :=
  s.startWith [(F.SNP_CMD_OP, op), (F.SNP_CMD_COUNT, count), (F.SNP_CMD_FROM_EMPTY, if fromEmpty then 1 else 0),
    (F.SNP_CMD_ADDR_LO_ADDR, addr), (F.SNP_CMD_ADDR_HI_ADDR, addr / 2 ^ 32), (F.SNP_CMD_ARG_ARG, arg), (F.SNP_CMD_ARG2_ARG2, arg2),
    (F.SNP_CMD_VALUE_LO_VALUE, value), (F.SNP_CMD_VALUE_HI_VALUE, value / 2 ^ 32)] (s.flag F.SNP_CMD_BUSY) fun t => run (t.resStart snpCmdRes)

/-- The cut list in DRAM. -/
def State.cutList (s : State) (addr n : Nat) : List Nat := (List.range n).map fun k => s.rdN (addr + 8 * k) 8

/-- Is a cut list refused (R266)? -/
def State.cutListBad (s : State) (l : List Nat) : Bool :=
  let vols := l.map fun e => e % 2 ^ 16
  let idx := l.map fun e => bits e 39 16
  decide (4096 < l.length) || (l.any fun e => bits e 63 40 != 0) || decide (vols.eraseDups.length ≠ vols.length) ||
  decide (idx.eraseDups.length ≠ idx.length) ||
  (vols.any fun v => !s.volValid v || s.armedVol v || s.snp.sets.any fun c => c.cuts.any fun k => k.1 == v) || (idx.any fun k => !s.snapFree k)

/-- ARM. -/
def execSnapshotArm (addr set edge count : Nat) (s : State) : Result :=
  .next (s.live (s.snpStart 0 count addr set 0 edge false fun t =>
    let l := t.cutList (t.base F.SNP_CMD_ADDR_LO_ADDR F.SNP_CMD_ADDR_HI_ADDR 4) (t.fld F.SNP_CMD_COUNT)
    let e := edge % 2 ^ 64
    if e < t.turn + 16 then t.snpDone 1
    else if t.cutListBad l then t.snpDone 2
    else if 16 ≤ t.snp.sets.length then t.snpDone 5
    else
      let cuts := l.map fun e => (e % 2 ^ 16, bits e 39 16)
      let t1 := cuts.foldl (fun u k => u.pendSnapshot k.1 k.2) t
      let c : CutSet := { id := set % 2 ^ 16, edge := e, cuts := cuts, mirrored := false }
      let t2 := t1.modSnp fun x => { x with sets := x.sets ++ [c] }
      (if t2.efmoUp then t2.send (.efmoArm c.id e cuts) else t2).snpDone 0))

/-- CANCEL. -/
def execSnapshotCancel (set : Nat) (s : State) : Result :=
  .next (s.live (s.snpStart 1 0 0 set 0 0 false fun t =>
    match t.snp.sets.find? fun c => c.id == set % 2 ^ 16 && c.phase == 0 && decide (t.turn < c.edge) with
    | none => t.snpDone 6
    | some c =>
      let t1 := t.cutDone c c.cuts 5
      (if t1.efmoUp then t1.send (.efmoCancelArm c.id) else t1).snpDone 0))

/-- SWEEP: the walk draws on what is cached, and on fetches. -/
def execSweep (volume : Nat) (s : State) : Result :=
  .next (s.live (s.snpStart 2 0 0 volume 0 0 false fun t =>
    let v := volume % 2 ^ 16
    if !t.volValid v then t.snpDone 2
    else ((t.setFld F.SNP_CMD_BUSY 1).modSnp fun x => { x with sweep := some { volume := v, todo := [(t.volDepth v, 0, t.volRoot v)] } }).sweepOn.sweepPassed))

/-- DELTA. -/
def execDelta (fromEmpty : Bool) (older newer count addr start : Nat) (s : State) : Result :=
  .next (s.live (s.snpStart 3 count addr older newer start fromEmpty fun t =>
    let o := t.fld F.SNP_CMD_ARG_ARG
    let n := t.fld F.SNP_CMD_ARG2_ARG2
    let entry (k off len : Nat) : Nat := t.rdN (t.snapAddr k + off) len
    if !bit (t.snapFlags n) 0 || (!fromEmpty && !bit (t.snapFlags o) 0) then t.snpDone 2
    else if !fromEmpty && (entry o 0x18 2 != entry n 0x18 2 || decide (entry n 0x10 8 < entry o 0x10 8)) then t.snpDone 4
    else ((t.setFld F.SNP_CMD_BUSY 1).modSnp fun x => { x with delta := true }).deltaOn))

/-- A reserved OP. -/
def execSnpReservedOp (op : Nat) (s : State) : Result :=
  .next (s.live (s.snpStart (max 4 (op % 16)) 0 0 0 0 0 false fun t => t.snpDone 7))

/-! ### Cuts -/

/-- An arm, or a cancel, from the partner on channel 0x5: the entries are PENDING here too, for this head cuts the volumes
it holds, or comes to hold. -/
def execMirroredArm (set edge : Nat) (cuts : List (Nat × Nat)) (cancel : Bool) (s : State) : Result :=
  .next (s.live (
    if cancel then
      match s.snp.sets.find? fun c => c.id == set && c.mirrored && c.phase == 0 with
      | some c => c.cuts.foldl (fun t k => t.freeSnapshot k.2) (s.dropSet c)
      | none => s
    else
      let c : CutSet := { id := set, edge := edge, cuts := cuts, mirrored := true }
      (cuts.foldl (fun u k => u.pendSnapshot k.1 k.2) s).modSnp fun x => { x with sets := x.sets ++ [c] }))

/-- The turn count reaches the armed turn. -/
def execCutEdge (set : Nat) (s : State) : Result :=
  .next (s.live (match s.snp.sets.find? fun c => c.id == set && c.phase == 0 && decide (c.edge ≤ s.turn) with
    | none => s
    | some c =>
      let mine := s.cutsHeld c
      let insts := (c.cuts.map fun k => s.volHome k.1).eraseDups
      let c1 : CutSet := { c with phase := 1, sCut := s.commit.lastSeq, guard := decide (1 < insts.length) }
      let s1 := s.modSnp fun x => { x with sets := x.sets.map fun d => if d == c then c1 else d }
      let s2 := mine.foldl (fun t k =>
        t.wr (t.snapAddr k.2 + 8) (leBytes 8 (c.edge * 1024) ++ leBytes 8 (ofInst c1.sCut (s.volHome k.1)))) s1
      if mine.any fun k => !s.volValid k.1 then s2.cutDone c1 mine 3
      else if mine.any fun k => !s.sweptVol k.1 then s2.cutDone c1 mine 1
      else s2))

/-- GUARD_NS after the edge. -/
def execCutGuardEnd (set : Nat) (s : State) : Result :=
  .next (s.live (match s.snp.sets.find? fun c => c.id == set && c.guard with
    | none => s
    | some c =>
      (s.modSnp fun x => { x with sets := x.sets.map fun d => if d == c then { d with guard := false } else d }).releaseGuarded (c.cuts.map (·.1))))

/-- Steps 3 and 4 are done for every volume held: the roots are journaled, and the cut ends when they harden. -/
def execCutSeal (set : Nat) (s : State) : Result :=
  .next (s.live (match s.snp.sets.find? fun c => c.id == set && c.phase == 1 with
    | none => s
    | some c =>
      let mine := s.cutsHeld c
      if mine.isEmpty || !(mine.all fun k => s.cutSettled c k.1 && s.cutWritten k.1) then s
      else
        let (s1, a) := s.journalRoots c 0
        let (s2, b) := s1.journalRoots c 1
        (s2.modSnp fun x => { x with sets := x.sets.map fun d => if d == c then { d with phase := 2, jseq := (a, b) } else d }).sealFinish))

/-- SEAL_LIMIT turns pass before step 5. -/
def execSealLimitExpiry (set : Nat) (s : State) : Result :=
  .next (s.live (match s.snp.sets.find? fun c => c.id == set && decide (1 ≤ c.phase) && decide (c.edge + max 1 (s.fld F.SNP_CTRL_SEAL_LIMIT) ≤ s.turn) with
    | none => s
    | some c =>
      let mine := s.cutsHeld c
      if mine.isEmpty then s.dropSet c
      else s.cutDone c mine 2))

/-! ### Replication -/

/-- Step 1 of R276 for a message of a receive link, and the check of its volume: what follows runs where both hold. -/
def State.rxStart (s : State) (l : Nat) (h : ReplHdr) (type : Nat) (run : State → State) : State :=
  if s.linkState l = 0 then s
  else if s.hdrRejected l h || h.type != type then s.countReject.ackMessage l h.seq 3
  else if s.linkState l ≠ 3 ∨ (type ≠ 3 ∧ (!s.volValid h.volume ∨ !s.holds (s.volHome h.volume))) then s.ackMessage l h.seq 4
  else run s

/-- A DATA message: a Stitch for each of its frames. Frames out of count with the header make it corrupt. -/
def execReplicationData (link : Nat) (h : ReplHdr) (frames : List (Bytes × Bytes)) (s : State) : Result :=
  .next (s.live (let l := link % 64
    s.rxStart l h 1 fun t =>
      if frames.length ≠ h.count ∨ h.count = 0 ∨ 64 < h.count then t.ackMessage l h.seq 2
      else
        let m : RxMsgSt := { link := l, seq := h.seq, volume := h.volume, lba := h.lba, header := hdrBytes h, fixed := h.fixed,
                             frames := frames, st := List.replicate frames.length .waiting }
        (t.modSnp fun x => { x with rx := x.rx ++ [m] }).rxSubmit))

/-- A ZERO message: its range reads zeros. -/
def execReplicationZero (link : Nat) (h : ReplHdr) (s : State) : Result :=
  .next (s.live (let l := link % 64
    s.rxStart l h 2 fun r =>
      let t := r.useGcm (r.linkKey l)
      if !r.hdrAuthentic l h then t.headerBad.ackMessage l h.seq 1
      else
        let m : RxMsgSt := { link := l, seq := h.seq, volume := h.volume, lba := h.lba, header := hdrBytes h, fixed := h.fixed,
                             frames := [], st := List.replicate h.count .zero }
        ((t.takeSeq l h.seq).modSnp fun x => { x with rx := x.rx ++ [m] }).rxJournal.rxAck))

/-- A CUT message: the whole set is here, or it is not. -/
def execReplicationCut (link : Nat) (h : ReplHdr) (s : State) : Result :=
  .next (s.live (let l := link % 64
    s.rxStart l h 3 fun r =>
      let t := r.useGcm (r.linkKey l)
      if !r.hdrAuthentic l h then t.headerBad.ackMessage l h.seq 1
      else
        let n := (t.snp.rxCount.get? l).getD 0
        let t1 := (t.takeSeq l h.seq).modSnp fun x => { x with rxCount := x.rxCount.del l }
        if n = h.count then (t1.ackMessage l h.seq 0).raise F.SNP_ISR_RX_CUT else t1.ackMessage l h.seq 5))

/-- An ACK at the sender: it names its message in LBA. -/
def execReplicationAck (link : Nat) (h : ReplHdr) (s : State) : Result :=
  .next (s.live (
    let l := link % 64
    if s.linkState l = 0 then s
    else if s.hdrRejected l h || h.type != 4 then s.countReject
    else if !s.hdrAuthentic l h then (s.useGcm (s.linkKey l)).headerBad
    else
      let s1 := (s.useGcm (s.linkKey l)).takeSeq l h.seq
      let isOut (m : DataMsg) : Bool := m.link == l && m.seq == h.lba
      let isSync (m : SyncOut) : Bool := m.link == l && m.msg == some h.lba
      if h.status = 0 then
        let s2 := s1.wrN (s1.linkAddr l + 0x20) 8 (max h.lba (s1.linkAcked l))
        (s2.modSnp fun x => { x with out := x.out.filter fun m => !isOut m, sync := x.sync.filter fun m => !isSync m }).releaseSync
      else if s1.snp.sync.any isSync then s1.failLink l
      else
        let again := s1.snp.out.filter isOut
        again.foldl State.sendData (s1.modSnp fun x => { x with out := x.out.filter fun m => !isOut m })))

/-- TIMEOUT_US passes with a synchronous message unacknowledged. -/
def execSyncTimeout (link : Nat) (s : State) : Result :=
  .next (s.live (if s.snp.sync.any fun m => m.link == link % 64 then s.failLink (link % 64) else s))

end Sys2Proof.Machine
end

