-- ==== Sys2Proof/Machine/Update.lean ====
section
/-! DEFINITION. Live update, the lifeline and the floors (19): LOAD, steps, bridges, frogging, confirmation. -/
namespace Sys2Proof.Machine

/-! ### LOAD (R425) -/

/-- Classes 3 to 7: one compatibility section, its reserved bytes zero, and no section of another type than Larelm's. -/
def compatFits (g : Image) : Bool :=
  (g.sections.all fun c => decide (c.type ≤ 0xFF) || c.type == 0x100) &&
  (match g.sections.filter fun c => c.type == 0x100 with
   | [c] => c.len == 32 && (g.compatAt c.off).reserved == 0
   | _ => false)

/-- Where UPD_IMG_ADDR points. -/
def State.updImage (s : State) : Nat := s.base F.UPD_IMG_ADDR_LO_ADDR F.UPD_IMG_ADDR_HI_ADDR 6

/-- What an earlier image of the class had reached no longer counts. -/
def UpdSt.unstage (u : UpdSt) (c : Nat) : UpdSt :=
  { u with
    checked := u.checked.filter fun x => x != c
    rows := if c = 5 then [] else u.rows
    groups := if c = 6 then [] else u.groups
    mods := if c = 7 then [] else u.mods
    referee := u.referee && c != 3
    fails := [] }

/-- A verified image is held as its class's staged image; the first after an update has ended begins another. -/
def State.stageImage (s : State) (g : Image) : State :=
  let ph := s.phase
  let s1 := if ph = phIdle ∨ ph = phFrogged then
      (((s.modUpd fun u => { staged := u.staged, addr := u.addr, bankKept := u.bankKept }).setFld F.UPD_STATUS_NEW_CLUSTERS 0).setFld
        F.UPD_STATUS_FROG_ADVISED 0).setFld F.UPD_STATUS_SUSPENDED 0
    else s
  let s2 := s1.modUpd fun u => { (u.unstage g.cls) with staged := u.staged.put g.cls g, addr := u.addr.put g.cls s.updImage }
  let s3 := if g.cls = 4 then s2.setFld F.UPD_STATUS_NEW_CLUSTERS 0 else if g.cls = 7 then s2.setFld (F.UPD_RUN_VERSION_VERSION 7) g.version else s2
  (s3.setFld F.UPD_STATUS_STEP_FAILS 0).setPhase
    (if ph = phIdle ∨ ph = phFrogged then phStaged else if ph = phUnconfirmed then phUpdating else ph)

/-- UPD_CMD LOAD of the image at UPD_IMG_ADDR, of UPD_IMG_LEN bytes; `bodies` is what the head decodes of its sections. -/
def execUpdateLoad (bodies : List SectionBody) (s : State) : Result :=
  .next (s.live (s.updStart 0 (s.fld F.UPD_CMD_CLASS) (s.fld F.UPD_CMD_ARG) fun t =>
    let g : Image := { bytes := t.rd t.updImage (t.fld F.UPD_IMG_LEN_LENGTH), bodies := bodies }
    if t.fld F.UPD_IMG_LEN_LENGTH ≠ g.length ∨ g.cls = 0 ∨ 8 ≤ g.cls ∨ t.checkImage g.cls false g ≠ 0 ∨ (3 ≤ g.cls ∧ !compatFits g) then t.updDone 1
    else if g.version < t.fld (F.UPD_RUN_VERSION_VERSION g.cls) ∧ t.phase ≠ phFrogging then t.updDone 2
    else (t.stageImage g).updDone 0))

/-! ### The checks of a STEP (R426, R427) -/

def within (x lo hi : Nat) : Bool := decide (lo ≤ x) && decide (x ≤ hi)

/-- COMPAT of every SERVING module within a range. -/
def State.bridgesWithin (s : State) (lo hi : Nat) : Bool :=
  (List.range s.modules).all fun m => s.modState m != modServing || ((s.port m).page.any fun p => within p.compat lo hi)

/-- The compatibility of the head firmware in the lifeline: what ran before the update's first step, else the lifeline
set's. -/
def State.lifelineFw (s : State) : Option Compat := ((s.upd.old.get? 4).bind compatOf).orElse fun _ => s.boot.lifeFw

/-- Does a staged image fit what runs (R426)? -/
def State.updFits (s : State) (g : Image) : Bool :=
  match compatOf g with
  | none => false
  | some n =>
    let old := (s.boot.run.get? g.cls).bind compatOf
    if g.cls = 4 then
      (match old with
       | none => false
       | some o => decide (n.stateReadMin ≤ o.stateFmt) && decide (o.stateFmt ≤ n.stateFmt) && decide (n.metaReadMin ≤ o.metaFmt)) &&
      decide (n.peerMin ≤ s.fld F.UPD_LEVEL_PARTNER) && decide (s.fld F.UPD_PEER_MIN_PARTNER ≤ n.level) && s.bridgesWithin n.bridgeMin n.bridgeMax
    else if g.cls = 7 then
      ([(s.boot.run.get? 4).bind compatOf, s.lifelineFw].all fun c => c.any fun o => within n.level o.bridgeMin o.bridgeMax)
    else if g.cls = 3 then true
    else decide ((old.map (·.level)).getD 0 ≤ n.level)

/-- At the first STEP of a class: what runs is noted as its lifeline. -/
def State.noteOld (s : State) (c : Nat) : State :=
  s.modUpd fun u => { u with
    checked := (c :: u.checked).eraseDups
    old := if u.oldVer.has c then u.old else (match s.boot.run.get? c with | some g => u.old.put c g | none => u.old)
    oldVer := if u.oldVer.has c then u.oldVer else u.oldVer.put c (s.fld (F.UPD_RUN_VERSION_VERSION c)) }

/-! ### STEP (R424, R428, R429) -/

/-- Is the part that a step names already where the step would bring it? -/
def State.stepMoot (s : State) (c arg : Nat) : Bool :=
  let frog := s.phase == phFrogging
  let new (l : List Nat) (k : Nat) : Bool := l.contains k != frog
  if c = 3 then s.upd.referee != frog
  else if c = 4 then (if 128 ≤ arg then !s.upd.away.contains (arg % 4) else bit s.newClusters (arg % 4) != frog)
  else if c = 5 then new s.upd.rows arg
  else if c = 6 then new s.upd.groups arg
  else true

/-- Is a Row the only one that serves one of its classes? -/
def State.onlyRow (s : State) (n : Nat) : Bool :=
  !classesServed ((s.pattern.rows.zipIdx.filter fun p => p.2 != n && !p.1.stalled).map (·.1.classes))

/-- The step of a class begins; one that neither binds nor drains completes at once. -/
def State.stepRun (s : State) (c arg : Nat) : State :=
  let x : UpdStep := { cls := c, arg := arg }
  if c = 3 ∨ c = 4 then s.stepBegin x
  else if c = 5 then ((s.stepBegin x).modRow arg fun r => { r with stalled := true }).updRowOn
  else (s.stepBegin x).stepGood x 0

/-- UPD_CMD STEP. -/
def execUpdateStep (cls arg : Nat) (s : State) : Result :=
  .next (s.live (s.updStart 1 cls arg fun t =>
    let c := cls % 16
    let a := if c = 4 then arg % 256 / 128 * 128 + arg % 4 else if c = 5 then arg % 16 else if c = 6 then arg % 8 else 0
    let frog := t.phase == phFrogging
    if c < 3 ∨ 7 < c then t.updDone 9
    else if t.fld F.GLB_PAIR_STATUS_PARTNER_STATE = stHandover then t.updDone 6
    else if c ≤ 4 ∧ (!t.playing ∨ t.solo) then t.updDone 7
    else
      match t.upd.staged.get? c with
      | none => if frog && t.upd.oldVer.has c then (if t.stepMoot c a then t.updDone 0 else t.stepRun c a) else t.updFails
      | some g =>
        if !frog ∧ !t.upd.checked.contains c ∧ !t.updFits g then t.updDone 3
        else
          let u := if frog then t else t.noteOld c
          if c = 5 ∧ (u.rowOf a).isNone then u.updFails
          else if c = 6 ∧ !u.leaders.contains a then u.updFails
          else if u.stepMoot c a then u.updDone 0
          else if c = 5 ∧ u.onlyRow a then u.updDone 5
          else (u.setFld F.UPD_STATUS_SUSPENDED 0).stepRun c a))

/-- UPD_BIND.BOUND_OFF. -/
def execBoundOff (s : State) : Result := .next (s.live (s.modUpd fun u => { u with step := u.step.map fun x => { x with off := x.off || x.cls == 3 || x.cls == 4 } }))

/-- UPD_BIND.BOUND_ON: the move is done, or the new Referee firmware has taken over. -/
def execBoundOn (held : Nat) (s : State) : Result :=
  .next (s.live (match s.upd.step with
    | some x => if x.cls = 3 ∨ x.cls = 4 then s.stepGood x held else s
    | none => s))

/-- BOUND_ON has not come in a function move. -/
def execStepBindTimeout (held : Nat) (s : State) : Result :=
  .next (s.live (match s.upd.step with
    | some x => if x.cls = 4 then s.stepEnd x 4 held false else s
    | none => s))

/-- BOUND_ON has not come in the Referee's step: the pair restarts from the old bank. -/
def execRefereeBindTimeout (s : State) : Result :=
  .next (s.live (match s.upd.step with
    | some x => if x.cls = 3 then s.stepEnd x 4 0 false else s
    | none => s))

/-! ### Module bridges (R259, R434, R435) -/

/-- UPD_CMD BRIDGE_SEND: the staged image in chunks and its commit. -/
def execBridgeSend (arg : Nat) (s : State) : Result :=
  .next (s.live (s.updStart 2 (s.fld F.UPD_CMD_CLASS) arg fun t =>
    let m := arg % 64
    match t.upd.staged.get? 7, t.upd.addr.get? 7 with
    | some g, some a =>
      if !t.portUp m then t.updFails
      else
        let n := (g.length + 4095) / 4096
        let u := (List.range n).foldl (fun v k => v.send (.fwChunk m (4096 * k) (t.rd (a + 4096 * k) (min 4096 (g.length - 4096 * k))))) t
        (u.send (.fwCommit m g.length (sha256 (t.rd a g.length)))).modUpd fun x => { x with sending := some m }
    | _, _ => t.updFails))

/-- FW_STATUS. -/
def execFwStatus (port code : Nat) (s : State) : Result :=
  .next (s.live (
    if s.upd.sending ≠ some port then s
    else
      let t := s.modUpd fun x => { x with sending := none }
      if code = 0 then t.updDone 0 else t.updFails))

/-- R259 in this head's view: every module SERVING, no superblock degraded. -/
def State.bridgeMayGo (s : State) (m : Nat) : Bool :=
  s.modState m == modServing &&
  ((List.range s.modules).all fun k => !s.modPresent k || s.modState k == modServing) &&
  ([0, 1].all fun i => !s.holds i || s.fld (F.STR_DEGRADED_COUNT i) == 0)

/-- UPD_CMD BRIDGE_ACTIVATE. -/
def execBridgeActivate (arg : Nat) (s : State) : Result :=
  .next (s.live (s.updStart 3 (s.fld F.UPD_CMD_CLASS) arg fun t =>
    let m := arg % 64
    match t.upd.staged.get? 7 with
    | none => t.updFails
    | some g =>
      if t.phase ≠ phFrogging ∧ !t.upd.checked.contains 7 ∧ !t.updFits g then t.updDone 3
      else if !t.bridgeMayGo m then t.updDone 5
      else ((if t.phase = phFrogging then t else t.noteOld 7).stepBegin { cls := 7, arg := m }).send (.fwActivate m)))

/-! ### Frogging and confirmation (R433, R436) -/

/-- UPD_CMD FROG: the lifeline images of the classes changed are the staged ones. -/
def execFrog (s : State) : Result :=
  .next (s.live (s.updStart 4 (s.fld F.UPD_CMD_CLASS) (s.fld F.UPD_CMD_ARG) fun t =>
    let u := (t.modUpd fun x => { x with frogged := true, staged := x.old, addr := [] }).setFld F.UPD_STATUS_DIR_STALE 1
    let back := u.upd.oldVer.all fun p => u.classBack p.1
    (u.setPhase (if back then phFrogged else phFrogging)).updDone 0))

/-- May the update be confirmed? -/
def State.mayConfirm (s : State) : Bool :=
  (s.upd.staged.all fun p => s.classDone p.1) && !s.upd.frogged &&
  (s.upd.lastStep.all fun t => decide (t + s.fld F.UPD_CONFIRM_TURNS_TURNS ≤ s.turn))

/-- UPD_CMD CONFIRM. -/
def execConfirm (s : State) : Result :=
  .next (s.live (s.updStart 5 (s.fld F.UPD_CMD_CLASS) (s.fld F.UPD_CMD_ARG) fun t =>
    if !t.mayConfirm then t.updDone 8
    else
      let u := (((t.setPhase phIdle).setFld F.UPD_STATUS_NEW_CLUSTERS 0).setFld F.UPD_STATUS_SUSPENDED 0).setFld (F.UPD_RUN_VERSION_VERSION 7) 0
      ({ u with upd := {} }.modBoot fun b => { b with lifeFw := ((b.run.get? 4).bind compatOf).orElse fun _ => b.lifeFw }).updDone 0))

/-- UPD_CMD DIR_DONE. -/
def execDirDone (s : State) : Result :=
  .next (s.live (s.updStart 6 (s.fld F.UPD_CMD_CLASS) (s.fld F.UPD_CMD_ARG) fun t => (t.setFld F.UPD_STATUS_DIR_STALE 0).updDone 0))

/-- UPD_CMD with a reserved OP. -/
def execUpdReservedOp (op : Nat) (s : State) : Result :=
  .next (s.live (s.updStart (7 + op % 9) (s.fld F.UPD_CMD_CLASS) (s.fld F.UPD_CMD_ARG) fun t => t.updDone 9))

/-! ### Floors (R437) -/

/-- The rows left for a class. -/
def State.rowsLeft (s : State) (c : Nat) : Nat := s.fld F.UPD_FUSE_ROWS_LEFT / 2 ^ (4 * (c - 1)) % 16

/-- UPD_FLOOR_CMD completes. -/
def State.floorDone (s : State) (code : Nat) : State :=
  (s.resDone 0x17000B0 [(F.UPD_FLOOR_RESULT_CODE, code)]).raise F.UPD_ISR_FLOOR_DONE

/-- Why a floor is not raised, in the order of R437; `flash` are the VERSIONs of the class's images in both sets of the
boot flash, for the epoch the SEC_EPOCHs of all their images. -/
def State.floorCode (s : State) (c v : Nat) (flash : List Nat) : Nat :=
  if 8 ≤ c ∨ (flash.any fun x => decide (x < v)) then 2
  else if 0 < c ∧ s.fld (F.UPD_RUN_VERSION_VERSION c) < v then 2
  else if v ≤ (if c = 0 then s.fld F.UPD_EPOCH_EPOCH else s.fld (F.UPD_FLOOR_FLOOR c)) then 3
  else if (if c = 0 then decide (64 < v) else s.rowsLeft c == 0) then 4
  else if s.phase ≠ phIdle ∨ 2 ≤ s.ctl.hold.phase then 5
  else 0

/-- The fuses of a floor or of the epoch are programmed. -/
def State.programFloor (s : State) (c v : Nat) : State :=
  if c = 0 then
    (s.setFld F.UPD_EPOCH_EPOCH v).modBoot fun b => { b with fuses := b.fuses.map fun f => { f with secEpoch := v } }
  else
    let left := s.fld F.UPD_FUSE_ROWS_LEFT - 2 ^ (4 * (c - 1))
    ((s.setFld (F.UPD_FLOOR_FLOOR c) v).setFld F.UPD_FUSE_ROWS_LEFT left).modBoot fun b =>
      { b with fuses := b.fuses.map fun f => { f with floors := f.floors.set c v, rowsLeft := left } }

/-- UPD_FLOOR_CMD with CLASS, and VALUE as it stands in UPD_FLOOR_VALUE. -/
def execFloorRaise (who : Requester) (cls : Nat) (flash : List Nat) (s : State) : Result :=
  .next (s.live (
    let c := cls % 16
    let v := s.fld F.UPD_FLOOR_VALUE_VALUE % (if c = 0 then 128 else 2 ^ 32)
    let t := (s.setFld F.UPD_FLOOR_CMD_CLASS c).resStart 0x17000B0
    if who ≠ .referee then t.floorDone 1
    else
      let code := t.floorCode c v flash
      (if code = 0 then t.programFloor c v else t).floorDone code))

end Sys2Proof.Machine
end

