-- ==== Sys2Proof/Machine/Dispatch.lean ====
section
/-! DEFINITION. One arm per command of the opcode table: the command's meaning, called directly. -/
namespace Sys2Proof.Machine

def exec (i : Instr) (s : State) : Host.Outcome State Fault Refusal :=
  match i with
  | .castOnStart x power => Sys2Proof.Machine.execCastOnStart x power s
  | .castonStepDone o => Sys2Proof.Machine.execCastonStepDone o s
  | .castonStepTimeout => Sys2Proof.Machine.execCastonStepTimeout s
  | .selfFlushMeasured uj us charge dv v1 i1 v2 i2 inputLost => Sys2Proof.Machine.execSelfFlushMeasured uj us charge dv v1 i1 v2 i2 inputLost s
  | .journalGapRequest inst fromJseq => Sys2Proof.Machine.execJournalGapRequest inst fromJseq s
  | .missingGroupsReply inst groups => Sys2Proof.Machine.execMissingGroupsReply inst groups s
  | .acceptGap => Sys2Proof.Machine.execAcceptGap s
  | .soloStart found => Sys2Proof.Machine.execSoloStart found s
  | .ready => Sys2Proof.Machine.execReady s
  | .rejoinPause => Sys2Proof.Machine.execRejoinPause s
  | .lastSequence seq jseq => Sys2Proof.Machine.execLastSequence seq jseq s
  | .survivorHandback => Sys2Proof.Machine.execSurvivorHandback s
  | .finalJseq jseq => Sys2Proof.Machine.execFinalJseq jseq s
  | .forfeit who cause => Sys2Proof.Machine.execForfeit who cause s
  | .junctionOvertemp => Sys2Proof.Machine.execJunctionOvertemp s
  | .lockstepMismatch => Sys2Proof.Machine.execLockstepMismatch s
  | .partnerForfeitSampled found => Sys2Proof.Machine.execPartnerForfeitSampled found s
  | .takeoverAdopt => Sys2Proof.Machine.execTakeoverAdopt s
  | .leaseClaimTimeout half => Sys2Proof.Machine.execLeaseClaimTimeout half s
  | .parameterExchange m found => Sys2Proof.Machine.execParameterExchange m found s
  | .idClashRetry => Sys2Proof.Machine.execIdClashRetry s
  | .efmRetrain => Sys2Proof.Machine.execEfmRetrain s
  | .efmoFlitDiscard flits => Sys2Proof.Machine.execEfmoFlitDiscard flits s
  | .efmoNak flit => Sys2Proof.Machine.execEfmoNak flit s
  | .efmoReplayTimeout => Sys2Proof.Machine.execEfmoReplayTimeout s
  | .efmoRecoveryDone ok => Sys2Proof.Machine.execEfmoRecoveryDone ok s
  | .efmoLaneFailing lane seq lostLock => Sys2Proof.Machine.execEfmoLaneFailing lane seq lostLock s
  | .laneSpare logical spare seq => Sys2Proof.Machine.execLaneSpare logical spare seq s
  | .stateHeartbeat => Sys2Proof.Machine.execStateHeartbeat s
  | .stateMessage m => Sys2Proof.Machine.execStateMessage m s
  | .flushed => Sys2Proof.Machine.execFlushed s
  | .refereeMessage fixed invocation ct tag => Sys2Proof.Machine.execRefereeMessage fixed invocation ct tag s
  | .forwardedCommand q c => Sys2Proof.Machine.execForwardedCommand q c s
  | .forwardedSlotReply q cid seq own mirror count status => Sys2Proof.Machine.execForwardedSlotReply q cid seq own mirror count status s
  | .forwardedReadData q cid lba data guard => Sys2Proof.Machine.execForwardedReadData q cid lba data guard s
  | .commandFetch q c visit more => Sys2Proof.Machine.execCommandFetch q c visit more s
  | .adminCapsule port qpn cntl capsule => Sys2Proof.Machine.execAdminCapsule port qpn cntl capsule s
  | .blockMessage m => Sys2Proof.Machine.execBlockMessage m s
  | .endMarker m => Sys2Proof.Machine.execEndMarker m s
  | .abortMarker m => Sys2Proof.Machine.execAbortMarker m s
  | .placementAck a => Sys2Proof.Machine.execPlacementAck a s
  | .drainToStaging mirror inst seq volume bad => Sys2Proof.Machine.execDrainToStaging mirror inst seq volume bad s
  | .hardenedHorizon inst horizon tail => Sys2Proof.Machine.execHardenedHorizon inst horizon tail s
  | .journalGroup inst bytes => Sys2Proof.Machine.execJournalGroup inst bytes s
  | .refetchRequest m intact => Sys2Proof.Machine.execRefetchRequest m intact s
  | .refetchReply m block => Sys2Proof.Machine.execRefetchReply m block s
  | .refetchTimeout token => Sys2Proof.Machine.execRefetchTimeout token s
  | .readRelease inst seq bad => Sys2Proof.Machine.execReadRelease inst seq bad s
  | .deallocateApply inst seq => Sys2Proof.Machine.execDeallocateApply inst seq s
  | .flushComplete inst seq => Sys2Proof.Machine.execFlushComplete inst seq s
  | .writeThroughExit => Sys2Proof.Machine.execWriteThroughExit s
  | .queueThaw q => Sys2Proof.Machine.execQueueThaw q s
  | .stitchSubmit tail => Sys2Proof.Machine.execStitchSubmit tail s
  | .stitchAdmit fromRing k => Sys2Proof.Machine.execStitchAdmit fromRing k s
  | .gdStage sid chk => Sys2Proof.Machine.execGdStage sid chk s
  | .ldhStage sid chk => Sys2Proof.Machine.execLdhStage sid chk s
  | .ldsStage sid chk => Sys2Proof.Machine.execLdsStage sid chk s
  | .xtdStage sid chk => Sys2Proof.Machine.execXtdStage sid chk s
  | .dcStage sid chk => Sys2Proof.Machine.execDcStage sid chk s
  | .mtStage sid chk taken => Sys2Proof.Machine.execMtStage sid chk taken s
  | .fpStage sid chk => Sys2Proof.Machine.execFpStage sid chk s
  | .dxStage sid chk => Sys2Proof.Machine.execDxStage sid chk s
  | .cpStage sid chk => Sys2Proof.Machine.execCpStage sid chk s
  | .xteStage sid chk => Sys2Proof.Machine.execXteStage sid chk s
  | .geStage sid chk => Sys2Proof.Machine.execGeStage sid chk s
  | .rsStage sid chk => Sys2Proof.Machine.execRsStage sid chk s
  | .engineTimeout sid => Sys2Proof.Machine.execEngineTimeout sid s
  | .spareKatDone pool engine pass => Sys2Proof.Machine.execSpareKatDone pool engine pass s
  | .indexPageFetched inst page data => Sys2Proof.Machine.execIndexPageFetched inst page data s
  | .verifyCompare sid => Sys2Proof.Machine.execVerifyCompare sid s
  | .backgroundDedupResume sid => Sys2Proof.Machine.execBackgroundDedupResume sid s
  | .referenceBatch count => Sys2Proof.Machine.execReferenceBatch count s
  | .dictInstall dict => Sys2Proof.Machine.execDictInstall dict s
  | .dictRetire dict => Sys2Proof.Machine.execDictRetire dict s
  | .dictFree dict => Sys2Proof.Machine.execDictFree dict s
  | .dictReservedOp dict => Sys2Proof.Machine.execDictReservedOp dict s
  | .mapPageFetched inst tree level ident data => Sys2Proof.Machine.execMapPageFetched inst tree level ident data s
  | .splitHeadAdvance head => Sys2Proof.Machine.execSplitHeadAdvance head s
  | .mapPageWriteback inst tree level ident => Sys2Proof.Machine.execMapPageWriteback inst tree level ident s
  | .writeBackAll => Sys2Proof.Machine.execWriteBackAll s
  | .objectRead inst index => Sys2Proof.Machine.execObjectRead inst index s
  | .objectWrite inst index => Sys2Proof.Machine.execObjectWrite inst index s
  | .mcmdReservedOp inst index => Sys2Proof.Machine.execMcmdReservedOp inst index s
  | .hotmapInvalidate => Sys2Proof.Machine.execHotmapInvalidate s
  | .superblockPush stream sb => Sys2Proof.Machine.execSuperblockPush stream sb s
  | .superblockOpen inst stream => Sys2Proof.Machine.execSuperblockOpen inst stream s
  | .stripePad sb => Sys2Proof.Machine.execStripePad sb s
  | .operationStatus port st => Sys2Proof.Machine.execOperationStatus port st s
  | .readDataMessage port tag cw data => Sys2Proof.Machine.execReadDataMessage port tag cw data s
  | .anchorPageWrite inst => Sys2Proof.Machine.execAnchorPageWrite inst s
  | .anchorReplace inst n block => Sys2Proof.Machine.execAnchorReplace inst n block s
  | .reclaimStart force => Sys2Proof.Machine.execReclaimStart force s
  | .reclaimFinish force lost => Sys2Proof.Machine.execReclaimFinish force lost s
  | .reclaimAbort force => Sys2Proof.Machine.execReclaimAbort force s
  | .reclaimReservedOp force => Sys2Proof.Machine.execReclaimReservedOp force s
  | .refreshCheck => Sys2Proof.Machine.execRefreshCheck s
  | .dieArbiterSlot module die => Sys2Proof.Machine.execDieArbiterSlot module die s
  | .purlTrainingStart port => Sys2Proof.Machine.execPurlTrainingStart port s
  | .purlTrainingTimeout port => Sys2Proof.Machine.execPurlTrainingTimeout port s
  | .parameterPage port p credits => Sys2Proof.Machine.execParameterPage port p credits s
  | .leaseStateReport port report => Sys2Proof.Machine.execLeaseStateReport port report s
  | .purlFrameDiscard port frames => Sys2Proof.Machine.execPurlFrameDiscard port frames s
  | .purlNak port frame => Sys2Proof.Machine.execPurlNak port frame s
  | .purlReplayTimeout port => Sys2Proof.Machine.execPurlReplayTimeout port s
  | .purlRecoveryDone port ok => Sys2Proof.Machine.execPurlRecoveryDone port ok s
  | .purlLaneFailing port lane seq lostLock => Sys2Proof.Machine.execPurlLaneFailing port lane seq lostLock s
  | .opStatusTimeout port tag => Sys2Proof.Machine.execOpStatusTimeout port tag s
  | .alertPowerWarning port => Sys2Proof.Machine.execAlertPowerWarning port s
  | .alertDieFault port die => Sys2Proof.Machine.execAlertDieFault port die s
  | .alertTemperature port die => Sys2Proof.Machine.execAlertTemperature port die s
  | .alertBridgeRestart port => Sys2Proof.Machine.execAlertBridgeRestart port s
  | .alertReserved port code die => Sys2Proof.Machine.execAlertReserved port code die s
  | .paramRead who page die module => Sys2Proof.Machine.execParamRead who page die module s
  | .llrRecompute module die => Sys2Proof.Machine.execLlrRecompute module die s
  | .calibrationPass module die group probes => Sys2Proof.Machine.execCalibrationPass module die group probes s
  | .reconstructSolve sb stripe want => Sys2Proof.Machine.execReconstructSolve sb stripe want s
  | .modulePresenceChange port present => Sys2Proof.Machine.execModulePresenceChange port present s
  | .heldLimitExpiry port => Sys2Proof.Machine.execHeldLimitExpiry port s
  | .awayLimitExpiry port => Sys2Proof.Machine.execAwayLimitExpiry port s
  | .snapshotArm addr set edge count => Sys2Proof.Machine.execSnapshotArm addr set edge count s
  | .snapshotCancel set => Sys2Proof.Machine.execSnapshotCancel set s
  | .sweep volume => Sys2Proof.Machine.execSweep volume s
  | .delta fromEmpty older newer count addr start => Sys2Proof.Machine.execDelta fromEmpty older newer count addr start s
  | .snpReservedOp op => Sys2Proof.Machine.execSnpReservedOp op s
  | .mirroredArm set edge cuts cancel => Sys2Proof.Machine.execMirroredArm set edge cuts cancel s
  | .cutEdge set => Sys2Proof.Machine.execCutEdge set s
  | .cutGuardEnd set => Sys2Proof.Machine.execCutGuardEnd set s
  | .cutSeal set => Sys2Proof.Machine.execCutSeal set s
  | .sealLimitExpiry set => Sys2Proof.Machine.execSealLimitExpiry set s
  | .replicationData link h frames => Sys2Proof.Machine.execReplicationData link h frames s
  | .replicationZero link h => Sys2Proof.Machine.execReplicationZero link h s
  | .replicationCut link h => Sys2Proof.Machine.execReplicationCut link h s
  | .replicationAck link h => Sys2Proof.Machine.execReplicationAck link h s
  | .syncTimeout link => Sys2Proof.Machine.execSyncTimeout link s
  | .roceRequest p => Sys2Proof.Machine.execRoceRequest p s
  | .roceResponse qpn psn data pi ecn t => Sys2Proof.Machine.execRoceResponse qpn psn data pi ecn t s
  | .roceAck qpn psn => Sys2Proof.Machine.execRoceAck qpn psn s
  | .roceNak qpn psn k => Sys2Proof.Machine.execRoceNak qpn psn k s
  | .cnpReceive qpn t => Sys2Proof.Machine.execCnpReceive qpn t s
  | .alphaTimer qpn => Sys2Proof.Machine.execAlphaTimer qpn s
  | .increaseTimer qpn => Sys2Proof.Machine.execIncreaseTimer qpn s
  | .ackTimeout qpn => Sys2Proof.Machine.execAckTimeout qpn s
  | .rnrTimerExpiry qpn => Sys2Proof.Machine.execRnrTimerExpiry qpn s
  | .qpContextFetched qpn bad => Sys2Proof.Machine.execQpContextFetched qpn bad s
  | .sendWqe qpn => Sys2Proof.Machine.execSendWqe qpn s
  | .tallyWaitRelease qpn => Sys2Proof.Machine.execTallyWaitRelease qpn s
  | .tallyWaitTimeout qpn => Sys2Proof.Machine.execTallyWaitTimeout qpn s
  | .createQp arg addr => Sys2Proof.Machine.execCreateQp arg addr s
  | .modifyQpConnected qpn => Sys2Proof.Machine.execModifyQpConnected qpn s
  | .modifyQpError qpn => Sys2Proof.Machine.execModifyQpError qpn s
  | .destroyQp qpn => Sys2Proof.Machine.execDestroyQp qpn s
  | .createCq cq cls tenant addr size => Sys2Proof.Machine.execCreateCq cq cls tenant addr size s
  | .destroyCq cq => Sys2Proof.Machine.execDestroyCq cq s
  | .createSrq srq cls tenant addr size => Sys2Proof.Machine.execCreateSrq srq cls tenant addr size s
  | .destroySrq srq => Sys2Proof.Machine.execDestroySrq srq s
  | .tenantReenable tenant => Sys2Proof.Machine.execTenantReenable tenant s
  | .rdtReservedOp op => Sys2Proof.Machine.execRdtReservedOp op s
  | .ethLinkUp port => Sys2Proof.Machine.execEthLinkUp port s
  | .ethLinkDown port => Sys2Proof.Machine.execEthLinkDown port s
  | .quarantineRelease pool index => Sys2Proof.Machine.execQuarantineRelease pool index s
  | .cacheRequest r e => Sys2Proof.Machine.execCacheRequest r e s
  | .lineFill line e => Sys2Proof.Machine.execLineFill line e s
  | .victimWritebackDone line => Sys2Proof.Machine.execVictimWritebackDone line s
  | .scratchpadAccess off len data e => Sys2Proof.Machine.execScratchpadAccess off len data e s
  | .rangeClean who => Sys2Proof.Machine.execRangeClean who s
  | .rangeCleanInvalidate who => Sys2Proof.Machine.execRangeCleanInvalidate who s
  | .rangeInvalidate who => Sys2Proof.Machine.execRangeInvalidate who s
  | .rangeReservedOp who => Sys2Proof.Machine.execRangeReservedOp who s
  | .patrolScrub rows bad => Sys2Proof.Machine.execPatrolScrub rows bad s
  | .softRepair spare => Sys2Proof.Machine.execSoftRepair spare s
  | .hardRepair spare => Sys2Proof.Machine.execHardRepair spare s
  | .allocCmd pool tenant => Sys2Proof.Machine.execAllocCmd pool tenant s
  | .bobbinAllocate cls tenant pool => Sys2Proof.Machine.execBobbinAllocate cls tenant pool s
  | .bobbinFree tenant handle => Sys2Proof.Machine.execBobbinFree tenant handle s
  | .bobbinIncrement tenant handle => Sys2Proof.Machine.execBobbinIncrement tenant handle s
  | .poolInit pool => Sys2Proof.Machine.execPoolInit pool s
  | .keyLoad who slot => Sys2Proof.Machine.execKeyLoad who slot s
  | .keyUnwrap who slot => Sys2Proof.Machine.execKeyUnwrap who slot s
  | .keyGenerate who slot => Sys2Proof.Machine.execKeyGenerate who slot s
  | .keyWrap who slot => Sys2Proof.Machine.execKeyWrap who slot s
  | .keyClear who slot => Sys2Proof.Machine.execKeyClear who slot s
  | .keyClearRetired => Sys2Proof.Machine.execKeyClearRetired s
  | .keyQuery who slot => Sys2Proof.Machine.execKeyQuery who slot s
  | .setPhase who slot => Sys2Proof.Machine.execSetPhase who slot s
  | .keyReservedOp who op slot => Sys2Proof.Machine.execKeyReservedOp who op slot s
  | .securityAlarm source => Sys2Proof.Machine.execSecurityAlarm source s
  | .zeroiseRequest who => Sys2Proof.Machine.execZeroiseRequest who s
  | .rngGenerate fails => Sys2Proof.Machine.execRngGenerate fails s
  | .rngReseed => Sys2Proof.Machine.execRngReseed s
  | .drbgHealthFailure proportion => Sys2Proof.Machine.execDrbgHealthFailure proportion s
  | .drbgReseedDue => Sys2Proof.Machine.execDrbgReseedDue s
  | .dualComputeEnd pool => Sys2Proof.Machine.execDualComputeEnd pool s
  | .controlSample codes tj temp17 tach => Sys2Proof.Machine.execControlSample codes tj temp17 tach s
  | .adcRecalibration pairs => Sys2Proof.Machine.execAdcRecalibration pairs s
  | .loopSwap who n reset enable => Sys2Proof.Machine.execLoopSwap who n reset enable s
  | .captureImmediate who decim sel => Sys2Proof.Machine.execCaptureImmediate who decim sel s
  | .captureHoldupArm who decim sel => Sys2Proof.Machine.execCaptureHoldupArm who decim sel s
  | .captureSatArm who decim sel => Sys2Proof.Machine.execCaptureSatArm who decim sel s
  | .captureReservedTrig who decim sel => Sys2Proof.Machine.execCaptureReservedTrig who decim sel s
  | .probe vMean => Sys2Proof.Machine.execProbe vMean s
  | .probeDischargeEnd charge v1 i1 v2 i2 => Sys2Proof.Machine.execProbeDischargeEnd charge v1 i1 v2 i2 s
  | .probeRestEnd vMean => Sys2Proof.Machine.execProbeRestEnd vMean s
  | .bankChargeTimeout => Sys2Proof.Machine.execBankChargeTimeout s
  | .fanFail fan => Sys2Proof.Machine.execFanFail fan s
  | .inputLoss droop => Sys2Proof.Machine.execInputLoss droop s
  | .inputReturn => Sys2Proof.Machine.execInputReturn s
  | .holdupConfirm idle => Sys2Proof.Machine.execHoldupConfirm idle s
  | .holdupOwnDone => Sys2Proof.Machine.execHoldupOwnDone s
  | .holdupShutdown => Sys2Proof.Machine.execHoldupShutdown s
  | .holdupResetRelease straps => Sys2Proof.Machine.execHoldupResetRelease straps s
  | .vminReached => Sys2Proof.Machine.execVminReached s
  | .turnEdge t ptp => Sys2Proof.Machine.execTurnEdge t ptp s
  | .turnFrame w => Sys2Proof.Machine.execTurnFrame w s
  | .localEdge t ptp => Sys2Proof.Machine.execLocalEdge t ptp s
  | .pipBoundary t margins => Sys2Proof.Machine.execPipBoundary t margins s
  | .unlockedTimeout t => Sys2Proof.Machine.execUnlockedTimeout t s
  | .holdoverTimeout t => Sys2Proof.Machine.execHoldoverTimeout t s
  | .firstPlayerEdge t ptp readBack => Sys2Proof.Machine.execFirstPlayerEdge t ptp readBack s
  | .trnEnable who w t => Sys2Proof.Machine.execTrnEnable who w t s
  | .trnDisable who w t => Sys2Proof.Machine.execTrnDisable who w t s
  | .yield who w t => Sys2Proof.Machine.execYield who w t s
  | .tableStatus m => Sys2Proof.Machine.execTableStatus m s
  | .ahead m => Sys2Proof.Machine.execAhead m s
  | .tableStatusSend => Sys2Proof.Machine.execTableStatusSend s
  | .scheduleSlotFire n => Sys2Proof.Machine.execScheduleSlotFire n s
  | .schedArm who n w => Sys2Proof.Machine.execSchedArm who n w s
  | .slotLoad slot => Sys2Proof.Machine.execSlotLoad slot s
  | .slotLoadComplete selfOk => Sys2Proof.Machine.execSlotLoadComplete selfOk s
  | .slotUnload slot => Sys2Proof.Machine.execSlotUnload slot s
  | .bind slot mode => Sys2Proof.Machine.execBind slot mode s
  | .unbind slot mode => Sys2Proof.Machine.execUnbind slot mode s
  | .unbindDrained => Sys2Proof.Machine.execUnbindDrained s
  | .mtfReservedOp op slot => Sys2Proof.Machine.execMtfReservedOp op slot s
  | .slotOutputTimeout slot => Sys2Proof.Machine.execSlotOutputTimeout slot s
  | .slotPowerSample slot mw => Sys2Proof.Machine.execSlotPowerSample slot mw s
  | .slotErr slot => Sys2Proof.Machine.execSlotErr slot s
  | .blkOut slot data guardOk => Sys2Proof.Machine.execBlkOut slot data guardOk s
  | .shellMemAccess slot handle off data e => Sys2Proof.Machine.execShellMemAccess slot handle off data e s
  | .shellBobOp slot op => Sys2Proof.Machine.execShellBobOp slot op s
  | .shellQpOp slot op => Sys2Proof.Machine.execShellQpOp slot op s
  | .shellExport slot qpn block => Sys2Proof.Machine.execShellExport slot qpn block s
  | .updateLoad bodies => Sys2Proof.Machine.execUpdateLoad bodies s
  | .updateStep cls arg => Sys2Proof.Machine.execUpdateStep cls arg s
  | .boundOff => Sys2Proof.Machine.execBoundOff s
  | .boundOn held => Sys2Proof.Machine.execBoundOn held s
  | .stepBindTimeout held => Sys2Proof.Machine.execStepBindTimeout held s
  | .refereeBindTimeout => Sys2Proof.Machine.execRefereeBindTimeout s
  | .bridgeSend arg => Sys2Proof.Machine.execBridgeSend arg s
  | .fwStatus port code => Sys2Proof.Machine.execFwStatus port code s
  | .bridgeActivate arg => Sys2Proof.Machine.execBridgeActivate arg s
  | .frog => Sys2Proof.Machine.execFrog s
  | .confirm => Sys2Proof.Machine.execConfirm s
  | .dirDone => Sys2Proof.Machine.execDirDone s
  | .updReservedOp op => Sys2Proof.Machine.execUpdReservedOp op s
  | .floorRaise who cls flash => Sys2Proof.Machine.execFloorRaise who cls flash s
  | .sramRowRepair mac row bad => Sys2Proof.Machine.execSramRowRepair mac row bad s
  | .repairCore cluster core => Sys2Proof.Machine.execRepairCore cluster core s
  | .rprReservedOp op => Sys2Proof.Machine.execRprReservedOp op s
  | .marginWindow t => Sys2Proof.Machine.execMarginWindow t s
  | .regulatorRetry rail acked => Sys2Proof.Machine.execRegulatorRetry rail acked s
  | .gaugeRefresh => Sys2Proof.Machine.execGaugeRefresh s
  | .tlmRebuild => Sys2Proof.Machine.execTlmRebuild s
  | .checkpoint => Sys2Proof.Machine.execCheckpoint s
  | .exportCmd who slot seg => Sys2Proof.Machine.execExportCmd who slot seg s
  | .replay who w => Sys2Proof.Machine.execReplay who w s
  | .jtagAuth level key sig => Sys2Proof.Machine.execJtagAuth level key sig s
  | .registerWrite who off size value t => Sys2Proof.Machine.execRegisterWrite who off size value t s
  | .pairLoRead who off => Sys2Proof.Machine.execPairLoRead who off s
  | .pairHiWrite who off value => Sys2Proof.Machine.execPairHiWrite who off value s
  | .pairLoWrite who off value => Sys2Proof.Machine.execPairLoWrite who off value s
  | .resultRegisterRead who off => Sys2Proof.Machine.execResultRegisterRead who off s
  | .interruptSet who off value => Sys2Proof.Machine.execInterruptSet who off value s
  | .irqSwap who => Sys2Proof.Machine.execIrqSwap who s
  | .errFatalClear who mask => Sys2Proof.Machine.execErrFatalClear who mask s
  | .fatalTimerExpiry => Sys2Proof.Machine.execFatalTimerExpiry s
  | .seatedRemoval => Sys2Proof.Machine.execSeatedRemoval s
  | .partnerPresenceChange present => Sys2Proof.Machine.execPartnerPresenceChange present s
  | .powerDown => Sys2Proof.Machine.execPowerDown s
  | .repatternStart bodies => Sys2Proof.Machine.execRepatternStart bodies s
  | .repatternSection held => Sys2Proof.Machine.execRepatternSection held s
  | .partnerForfeitRelease => Sys2Proof.Machine.execPartnerForfeitRelease s
  | .qpContextWritebackDone qpn => Sys2Proof.Machine.execQpContextWritebackDone qpn s
  | .tcpReceiveData q cid header hdgst data ddgst pi => Sys2Proof.Machine.execTcpReceiveData q cid header hdgst data ddgst pi s
  | .pfcFrameReceive port mask pause => Sys2Proof.Machine.execPfcFrameReceive port mask pause s
  | .recoveryImagesWritten => Sys2Proof.Machine.execRecoveryImagesWritten s

end Sys2Proof.Machine
end

