-- ==== Sys2Proof/Machine/SettleOps.lean ====
section
/-! DEFINITION. What goes on by itself between commands (log entry 1): everything that waits on a condition inside the
head and whose condition has come true goes on at the latest while no command waits. -/
namespace Sys2Proof.Machine

/-- Mirror entries and staging of an instance this head now holds that could not be adopted before. -/
def State.adoptRest (s : State) : State :=
  if s.pairSt.takeover = 5 then s.tryAdopt
  else if (s.solo && s.pairSt.rejoin.isNone && s.pairSt.takeover == 0) || s.ctl.hold.adopted then s.emptyMirror.adoptStaged s.partnerId true else s

/-- What the data path and the metadata units have ready. -/
def State.settleData (s : State) : State :=
  (((s.takeRetired.packFramed.takeResults.pumpIndex.batchOn.releaseSync.rxSubmit.rxJournal.rxAck.closeIdle).sealFinish.sweepOn.deltaOn).mcmdOn.forceOn).unbindOn.loadPins.writeBacks.countFrozen

/-- What the pair has ready. -/
def State.settlePair (s : State) : State :=
  s.pumpPieces.pumpForwarded.finishForwards.settleClaims.startClaims.tryPair.endPause.tryFinal.adoptRest

/-- The head goes on with all that its state lets it do. -/
def State.settle (s : State) : State :=
  (((s.settleData.settlePair.journalRest).settleRows.sendDues).updRowOn.ownFlushOn.mirrorOn).tailOn.endErases.closeFills.packEfmo.packPurl

end Sys2Proof.Machine
end

