-- ==== Sys2Proof/Machine/Step.lean ====
section
/-! DEFINITION. One step of the block: the command at the front of the queue, on the queue's rest. -/
namespace Sys2Proof.Machine

/-- Take the command at the front of the queue and run it on the state that keeps the queue's rest;
with an empty queue the head goes on with what its own state
lets it do (log entry 1). -/
def step (s : State) : Host.Outcome State Fault Refusal :=
  match s.pending with
  | [] => .next (s.live s.settle)
  | c :: r => exec c { s with pending := r }

/-- Put the command that a word spells at the front of the queue; no row of the table gives bits, so
no word spells one and the state is unchanged. -/
def State.withFetchWord (s : State) (nbits w : Nat) : State :=
  match Sys2Proof.decodeTableWord nbits w with
  | some c => { s with pending := c :: s.pending }
  | none => s

end Sys2Proof.Machine
end

