-- ==== Sys2Proof/Safety.lean ====
section
/-! DEFINITION. The terms that claims about the head are stated in: what recording may touch, which commands an OFF head
takes, what an OFF head holds. -/
namespace Sys2Proof.Machine

/-- The block of a field's register (R476). -/
def Fld.blk (f : Fld) : Nat := f.key / 2 ^ 23

/-! ### The replay ring's region -/

/-- Where the replay ring begins. -/
def State.ringBase (s : State) : Nat := s.base F.RPJ_RING_BASE_LO_ADDR F.RPJ_RING_BASE_HI_ADDR 20

/-- Does an address lie in the replay ring? -/
def State.inRing (s : State) (a : Nat) : Prop := s.ringBase ≤ a ∧ a < s.ringBase + 32 * s.ringRecords

/-- t is s but for what recording writes: the registers of RPJ other than the ring's place, the ring's bytes, the draws
of free values, and the record and log counters. -/
structure State.JournalFrame (s t : State) : Prop where
  fld     : ∀ g : Fld, g.blk ≠ 0x18 → t.fld g = s.fld g
  mem     : ∀ a, ¬ s.inRing a → memGet t.dram a = memGet s.dram a
  ring    : t.ringBase = s.ringBase ∧ t.ringRecords = s.ringRecords
  wf      : Memory.wf s.dram = true → Memory.wf t.dram = true
  cells   : s.cells.wf = true → t.cells.wf = true
  latches : t.latches = s.latches
  sent    : t.sent = s.sent
  pins    : t.pins = s.pins
  pattern : t.pattern = s.pattern
  boot    : t.boot = s.boot
  repat   : t.repat = s.repat
  upd     : t.upd = s.upd
  pairSt  : t.pairSt = s.pairSt
  commit  : t.commit = s.commit
  efmo    : t.efmo = s.efmo
  rows    : t.rows = s.rows
  ddp     : t.ddp = s.ddp
  sec     : t.sec = s.sec
  mtf     : t.mtf = s.mtf
  scc     : t.scc = s.scc
  bbm     : t.bbm = s.bbm
  rdt     : t.rdt = s.rdt
  snp     : t.snp = s.snp
  ctl     : t.ctl = s.ctl
  health  : t.health = s.health
  map     : t.map = s.map
  ftl     : t.ftl = s.ftl
  media   : t.media = s.media
  trn     : t.trn = s.trn
  pending : t.pending = s.pending
  egress  : t.egress = s.egress

/-! ### The register window (R465, R468) -/

/-- Registers with an operation of their own, or whose new word moves limits and flags that are kept from it. -/
def hookedRegs : List Nat :=
  [0x300000, 0x1800000, 0x1A0000C, 0xC001A4, 0xC001A8, 0xC002A4, 0xC002A8, 0x1000000, 0x1000010, 0x1000014, 0x1200000, 0x500000,
   0x500044, 0xC00430, 0xC00190, 0xC00194, 0xC00290, 0xC00294, 0x400000, 0x40001C, 0x400080, 0x400100, 0x400110]

/-- An offset whose register does nothing with a written word but take it under its access codes. -/
def plainReg (off : Nat) : Bool :=
  decide (off < 0x1C00000) && off % 4 == 0 && !refereeOnly off && (coefBank off).isNone && !hookedRegs.contains off &&
  !(decide (0x801000 ≤ off) && decide (off < 0x801800)) && !(decide (0x1A01000 ≤ off) && decide (off < 0x1A01E00)) &&
  !(decide (0x300108 ≤ off) && decide (off < 0x300200) && off % 0x10 == 8) && !(decide (0x200040 ≤ off) && decide (off < 0x20004C)) &&
  !(decide (0xC00060 ≤ off) && decide (off < 0xC00074)) && !(isrRegs (off / 0x100000)).contains (off - 4)

/-- What a field holds after a word is written to its register (R468). -/
def fieldAfter (s : State) (off w : Nat) (p : Fld × Access) : Nat :=
  if p.1.lo ∈ clearsAt off then 0
  else match p.2 with
    | .RW | .WO => wordField p.1 w
    | .RWL => if s.headState = stCastOn then wordField p.1 w else s.fld p.1
    | .W1C => (s.fld p.1 - (s.fld p.1 &&& wordField p.1 w)) % 2 ^ p.1.width
    | .RO | .W1P => s.fld p.1

/-- t is s but for register fields. -/
def State.RegsOnly (s t : State) : Prop := ∃ c : Tbl Nat, t = { s with cells := c }

/-- t is s but for the fields of the register at an offset. -/
def State.SameBut (s t : State) (off : Nat) : Prop :=
  s.RegsOnly t ∧ ∀ f : Fld, (∀ p ∈ regFields off, p.1.key ≠ f.key) → t.fld f = s.fld f

/-- From s to t the result register at an offset has delivered an outcome (R470): VALID set, SEEN clear, SEQ one more, the
outcome fields as listed. -/
abbrev State.Answered (s t : State) (off : Nat) (outcome : List (Fld × Nat)) : Prop :=
  t.fld (resValid off) = 1 ∧ t.fld (resSeen off) = 0 ∧ t.fld (resSeq off) = (s.fld (resSeq off) + 1) % 256 ∧
    ∀ p ∈ outcome, t.fld p.1 = p.2

/-- The key slot that a key goes into with the attributes of SEC_KEY_ATTR (R350). -/
def asLoaded (s : State) (key : Bytes) : KeySlot :=
  ⟨key, false, s.fld F.SEC_KEY_ATTR_VERSION, s.flag F.SEC_KEY_ATTR_EXPORTABLE, s.flag F.SEC_KEY_ATTR_COUNTER_IV,
    s.fld F.SEC_KEY_ATTR_GCM_LIMIT_LOG2⟩

/-! ### Modules (R222, R253) -/

/-- No operation of a module is outstanding or queued, and no open superblock has a member on it. -/
def State.portIdle (s : State) (m : Nat) : Bool :=
  (s.media.out.all fun p => p.port != m) && (s.media.queued.all fun q => q.2.port != m) &&
    s.ftl.open_.all fun o => o.members.all fun b => memberModule b != m

/-! ### Stitches in a Row (R103, R113, R115) -/

/-- A Stitch is in a stage whose engine may finish it. -/
abbrev State.AtStage (s : State) (sid type : Nat) (x : Stitch) : Prop :=
  s.stitch? sid = some x ∧ x.stage = type ∧ x.held = false ∧ x.ready = true ∧
    (stageServed type = false ∨ x.engine.isSome = true) ∧ s.sec.zeroised = false

/-- A Stitch in flight, or as it last retired. -/
def State.stitchAfter (s : State) (sid : Nat) : Option Stitch :=
  match s.stitch? sid with
  | some x => some x
  | none => (s.rows.retired.reverse.find? fun p => p.1 == sid).map (·.2)

/-! ### Queue pairs (R301, R315) -/

/-- A connected queue pair's context is cached, with no packet of it parked. -/
abbrev State.atHand (s : State) (n : Nat) : Prop :=
  s.flag F.RDT_CTRL_ENABLE = true ∧ s.qpConnected n = true ∧ s.rdt.cache.contains n = true ∧
    (s.rdt.parked.any fun p => pktQpn p == n) = false ∧ (s.rdt.fetching.any fun f => f.2 == some n) = false

/-- The head may send on its front-end ports. -/
abbrev State.portsOpen (s : State) : Prop := s.silent = false ∧ s.ctl.hold.phase < 2

/-- No queue pair is about to be taken to error by another's. -/
def State.undragged (s : State) : Bool := s.rdt.qps.all fun p => !s.dragged p.2

/-! ### OFF (R23, R24, R365, R481) -/

/-- The commands an OFF head takes: those of the power and reset lines, the supply and the presence and FORFEIT_N lines. -/
def takenWhenOff : Instr → Bool
  | .castOnStart .. | .holdupResetRelease .. | .seatedRemoval | .inputLoss .. | .inputReturn | .partnerPresenceChange ..
  | .partnerForfeitSampled .. | .partnerForfeitRelease | .modulePresenceChange .. => true
  | _ => false

/-- The register fields that an OFF head still holds: what stands outside the head, and what only power-on clears. -/
def offKeys : List Nat := (outsideFields ++ retainedFields).map Fld.key

/-- An OFF head drives none of its lines; it holds no key, no DRAM content, no latch and no work of any unit; of its
registers only what its own chapters retain differs from reset. -/
structure State.OffClean (s : State) : Prop where
  forfeitOut : s.pins.forfeitOut = false
  turnDriven : s.pins.turnDriven = false
  portsOn    : s.pins.portsOn = false
  keys       : s.sec = { zeroised := s.sec.zeroised, counts := s.sec.counts, phases := s.sec.phases }
  journal    : s.rpj = { events := s.rpj.events, log := s.rpj.log, exports := s.rpj.exports }
  control    : s.ctl = { hold := { phase := s.ctl.hold.phase } }
  registers  : ∀ f : Fld, f.key ∉ offKeys → s.fld f = f.reset
  memory     : s.dram = []
  latches    : s.latches = []
  cast       : s.pattern = {} ∧ s.boot = {} ∧ s.repat = {} ∧ s.upd = {}
  pairSt     : s.pairSt = {} ∧ s.commit = {} ∧ s.efmo = {}
  work       : s.rows = {} ∧ s.ddp = {} ∧ s.mtf = {} ∧ s.scc = {} ∧ s.bbm = {} ∧ s.rdt = {} ∧ s.snp = {} ∧ s.health = {} ∧ s.egress = []
  flash      : s.map = {} ∧ s.ftl = {} ∧ s.media = {} ∧ s.trn = {}

/-- While the head is OFF it is clean. -/
def State.offInv (s : State) : Prop := s.pins.powered = false → s.OffClean

end Sys2Proof.Machine
end

