-- ==== Sys2Proof/Certificates/Slice0/Obligations.lean ====
section
/-! DEFINITION. The statements about the model, for the provers: each follows the chapters of the spec that its entry of
OBLIGATIONS.json cites. -/
open Sys2Proof Sys2Proof.Machine

/-- A step runs the front command on the queue's rest, and an idle step lets the head's own work go on
(22_register_space.md, How the window is reached; 95_what_each_step_holds.md). -/
def Obligations.StepRunsFrontCommand : Prop :=
  (∀ (c : Instr) (r : List Instr) (s : State), step { s with pending := c :: r } = exec c { s with pending := r }) ∧
  (∀ s : State, s.pending = [] → step s = .next (s.live s.settle)) ∧
  (∀ s : State, s.pending = [] → s.pins.powered = false → step s = .next s)

/-- At reset every register field reads its reset value, nothing is held anywhere, and the head is OFF and clean
(22_register_space.md, The result-register convention; 02_patterns_and_cast_on.md, Cast-on, step by step;
01_two_heads_one_array.md, Head states; 15_keys_and_ciphers.md, Key slots; 16_control_engine_and_hold_up.md, CTL
registers). -/
def Obligations.ResetLeavesResetValues : Prop :=
  (∀ f : Fld, State.reset.fld f = f.reset) ∧ State.reset.headState = stCastOn ∧ State.reset.fld F.GLB_FORFEIT_LAST_CAUSE = 0 ∧
    State.reset.trnState = 0 ∧ State.reset.fld F.CTL_BANK_ESR_HIGH_UO = 0xFFFF ∧ State.reset.pins.powered = false ∧ State.reset.dram = [] ∧
    State.reset.sec.slots = [] ∧ State.reset.pending = [] ∧ State.reset.offInv

/-- A head that is OFF takes no command but those of its power, reset, presence and FORFEIT_N lines
(01_two_heads_one_array.md, Head states; 02_patterns_and_cast_on.md, Cast-on, step by step;
16_control_engine_and_hold_up.md, Hold-up). -/
def Obligations.OffHeadTakesNoCommand : Prop :=
  ∀ (c : Instr) (s : State), s.pins.powered = false → takenWhenOff c = false → exec c s = .next s

/-- No step leaves an OFF head that drives a line, holds a key, or keeps more than its chapters retain
(01_two_heads_one_array.md, Forfeit; 01_two_heads_one_array.md, Head states; 02_patterns_and_cast_on.md, Cast-on,
step by step; 02_patterns_and_cast_on.md, Cast-on status; 15_keys_and_ciphers.md, Alarms and zeroisation;
16_control_engine_and_hold_up.md, Hold-up; 23_balls_rails_live_backplane.md, The live backplane). -/
def Obligations.OffStaysClean : Prop :=
  ∀ s t : State, s.offInv → step s = .next t → t.offInv

/-- The Referee cores forfeit the head through GLB_FORFEIT; no other requester's write of it has an effect (R28). -/
def Obligations.RefereeForfeitRegister : Prop :=
  (regFields 0x14 = [(F.GLB_FORFEIT_FORFEIT, .W1P), (F.GLB_FORFEIT_LAST_CAUSE, .RO), (F.GLB_FORFEIT_CAUSE, .RW)] ∧
    F.GLB_FORFEIT_FORFEIT = ⟨0x14, 31, 1, 0⟩ ∧ F.GLB_FORFEIT_LAST_CAUSE = ⟨0x14, 8, 8, 0⟩ ∧ F.GLB_FORFEIT_CAUSE = ⟨0x14, 0, 8, 0⟩) ∧
  (∀ (cause : Nat) (s : State), s.pins.powered = true →
    ∃ t, exec (.forfeit .referee cause) s = .next t ∧ t.headState = stForfeit ∧ t.fld F.GLB_FORFEIT_CAUSE = cause % 256 ∧
      t.fld F.GLB_FORFEIT_LAST_CAUSE = if s.headState = stForfeit then s.fld F.GLB_FORFEIT_LAST_CAUSE else forfeitCause (cause % 256)) ∧
  (∀ (who : Requester) (cause : Nat) (s : State), who ≠ .referee → exec (.forfeit who cause) s = .next s) ∧
  (∀ (who : Requester) (w time : Nat) (s : State), who ≠ .referee → exec (.registerWrite who 0x14 4 w time) s = .next s) ∧
  (∀ s : State, s.pins.powered = true → s.fld F.GLB_FORFEIT_LAST_CAUSE < 256 →
    ∃ t, exec .powerDown s = .next t ∧ t.pins.powered = false ∧ t.fld F.GLB_FORFEIT_LAST_CAUSE = s.fld F.GLB_FORFEIT_LAST_CAUSE) ∧
  (∀ (x : Straps) (s : State), s.pins.powered = false → s.fld F.GLB_FORFEIT_LAST_CAUSE < 256 →
    (∃ t, exec (.castOnStart x false) s = .next t ∧ t.pins.powered = true ∧ t.fld F.GLB_FORFEIT_LAST_CAUSE = s.fld F.GLB_FORFEIT_LAST_CAUSE) ∧
    (∃ t, exec (.castOnStart x true) s = .next t ∧ t.pins.powered = true ∧ t.fld F.GLB_FORFEIT_LAST_CAUSE = 0))

/-- The bounds of the bank's capacitance and ESR after a probe are those of its latest 64 samples of each (R389). -/
def Obligations.BankBoundsFollowTheSamples : Prop :=
  (∀ (vMean : Nat) (p : ProbeSt) (s : State), s.pins.powered = true → s.ctl.probe = some p → s.mode = 2 → p.step = 2 → vMean < p.vBefore →
    ∃ t, exec (.probeRestEnd vMean) s = .next t ∧
      (let c := t.ctl.cSamples; let r := t.ctl.esrSamples
       let c1 := s.ctl.cSamples ++ [p.charge * 1000000 / (p.vBefore - vMean)]; let r1 := s.ctl.esrSamples ++ [p.esr]
       let sums := fun l : List Nat => (l.foldl (· + ·) 0, l.foldl (fun a x => a + x * x) 0)
       let sig := fun (l : List Nat) (d : Nat) =>
         if l.length < 8 then ((sums l).1 / l.length + (d - 1)) / d
         else isqrtUp ((l.length * (sums l).2 - (sums l).1 * (sums l).1) / (l.length * (l.length - 1) * l.length))
       c = c1.drop (c1.length - 64) ∧ r = r1.drop (r1.length - 64) ∧
       t.fld F.CTL_BANK_SAMPLES_N = c.length % 128 ∧ t.fld F.CTL_BANK_SAMPLES_N_ESR = r.length % 128 ∧ c.length ≤ 64 ∧ r.length ≤ 64 ∧
       t.fld F.CTL_BANK_C_LOW_UF = ((sums c).1 / c.length - 3 * sig c 16) % 2 ^ 32 ∧
       t.fld F.CTL_BANK_ESR_HIGH_UO = min 0xFFFF ((sums r).1 / r.length + 3 * sig r 4))) ∧
  (∀ n : Nat, n ≤ isqrtUp n * isqrtUp n ∧ ∀ k, n ≤ k * k → isqrtUp n ≤ k) ∧
  State.reset.ctl.cSamples = [] ∧ State.reset.ctl.esrSamples = [] ∧ State.reset.fld F.CTL_BANK_C_LOW_UF = 0 ∧
    State.reset.fld F.CTL_BANK_ESR_HIGH_UO = 0xFFFF

/-- After a rebuild, each held instance's SPARE_PCT follows the blocks set in the bad-block bitmap (R450). -/
def Obligations.SpareFollowsTheBitmap : Prop :=
  (∀ i < 2, regFields (F.TLM_SPARE_TOTAL_BLOCKS i).off = [(F.TLM_SPARE_TOTAL_BLOCKS i, .RW)] ∧
    regFields (F.TLM_BAD_AT_CREATION_BLOCKS i).off = [(F.TLM_BAD_AT_CREATION_BLOCKS i, .RW)]) ∧
  (∀ s : State, s.pins.powered = true → s.taskDue 5 1024 = true →
    ∃ t u, exec .tlmRebuild s = .next t ∧ exec .gaugeRefresh t = .next u ∧
      ∀ i < 2, s.holds i = true →
        (let total := s.fld (F.TLM_SPARE_TOTAL_BLOCKS i); let made := s.fld (F.TLM_BAD_AT_CREATION_BLOCKS i)
         let bad := (s.badMembers.filter fun b => s.memberHalf b == i).length
         u.fld (F.TLM_BAD_BLOCKS i) = bad % 2 ^ 32 ∧
         u.fld (F.TLM_SPARE_PCT i) = if total = 0 then 0
           else (max 0 (min 100 ((100 * ((total : Int) - ((bad : Int) - (made : Int)))).fdiv total))).toNat)) ∧
  (∀ s : State, Memory.wf s.dram = true → s.badMembers.Nodup ∧
    ∀ b < 2 ^ 28, (b ∈ s.badMembers ↔ s.badBlock b = true ∧ s.holds (s.memberHalf b) = true))

/-- Every way into FORFEIT drops FORFEIT_N, empties the key store and records its cause (01_two_heads_one_array.md,
Forfeit; 22_register_space.md, Error severities; 15_keys_and_ciphers.md, Alarms and zeroisation). -/
def Obligations.ForfeitSilencesTheHead : Prop :=
  ∀ s : State, s.pins.powered = true →
    (s.headState ≠ stForfeit → ∀ p ∈ [(Instr.forfeit .referee 0x80, 0x80), (.forfeit .referee 0x20, 0x08), (.junctionOvertemp, 0x05), (.lockstepMismatch, 0x02)],
      ∃ t, exec p.1 s = .next t ∧ t.headState = stForfeit ∧ t.fld F.GLB_FORFEIT_LAST_CAUSE = p.2 ∧ t.pins.forfeitOut = false ∧
        t.pins.portsOn = false ∧ t.sec.slots = [] ∧ t.fld F.RPJ_CTRL_FREEZE = 1) ∧
    (s.headState ≠ stForfeit → s.flag F.IRQ_FATAL_TIMER_RUNNING = true →
      ∃ t, exec .fatalTimerExpiry s = .next t ∧ t.headState = stForfeit ∧ t.fld F.GLB_FORFEIT_LAST_CAUSE = 0x01 ∧ t.pins.forfeitOut = false ∧
        t.sec.slots = []) ∧
    (s.flag F.IRQ_FATAL_TIMER_RUNNING = false → exec .fatalTimerExpiry s = .next s) ∧
    (∀ who cause, who ≠ .referee → exec (.forfeit who cause) s = .next s)

/-- The partner's FORFEIT_N, its presence, and what a head in service does when the partner is gone
(01_two_heads_one_array.md, Takeover; 01_two_heads_one_array.md, Head states; 23_balls_rails_live_backplane.md, The
live backplane). -/
def Obligations.PartnerLineIsFollowed : Prop :=
  (∀ (s : State),
    s.pins.powered = true → s.ctl.hold.unseated = false → s.ctl.hold.phase < 2 → s.inService = true → s.solo = false →
    s.pairSt.takeover = 0 → s.pairSt.rejoin = none →
    ∃ t, exec (.partnerForfeitSampled []) s = .next t ∧
      t.pins.partnerLow = true ∧ t.fld F.GLB_PAIR_STATUS_PARTNER_FORFEIT = 1 ∧ t.efmo.fenced = true ∧ t.efmoUp = false ∧
      t.pairSt.groupHeld = true) ∧
  (∀ (s : State),
    s.pins.powered = true → s.ctl.hold.unseated = false →
    ∃ t, exec (.partnerForfeitRelease) s = .next t ∧
      t.pins.partnerLow = false ∧ t.fld F.GLB_PAIR_STATUS_PARTNER_FORFEIT = 0 ∧
      (s.flag F.GLB_PAIR_STATUS_PARTNER_PRESENT = true → t.pairSt.absentSince = none)) ∧
  (∀ (present : Bool) (s : State),
    s.pins.powered = true → s.ctl.hold.unseated = false →
    ∃ t, exec (.partnerPresenceChange present) s = .next t ∧
      t.pins.partnerHere = present ∧ t.flag F.GLB_PAIR_STATUS_PARTNER_PRESENT = present ∧
      t = { s with cells := t.cells, pins := t.pins, pairSt := t.pairSt }) ∧
  (∀ (s : State),
    s.pins.powered = true → s.pairSt.takeover = 4 →
    ∃ t, exec (.takeoverAdopt) s = .next t ∧
      t.solo = true ∧ t.pairSt.takeover = 0 ∧ t.pairSt.groupHeld = false ∧ t.pairSt.ana = (1, 1)) ∧
  (∀ (half : Nat) (m : Nat) (s : State),
    s.pins.powered = true → m < 64 → s.modState m = modServing → (∃ c ∈ s.pairSt.claims, c.half = half ∧ m ∈ c.waiting) →
    (∀ c ∈ s.pairSt.claims, ∀ k ∈ c.waiting, k < 64) →
    ∃ t, exec (.leaseClaimTimeout half) s = .next t ∧
      t.modState m = modAway)

/-- A head starts alone or as one of a pair; replay that met a gap goes on (01_two_heads_one_array.md, Rejoin and
handback; 08_reclaim_wear_power_loss.md, The map journal). -/
def Obligations.StartsFromJoiningTakeEffect : Prop :=
  (∀ (since : Nat) (s : State),
    s.pins.powered = true → s.headState = stJoining → s.pairSt.starting = 0 → s.pairSt.absentSince = some since →
    since + 100 ≤ s.turn → s.pairSt.claims = [] → (∀ m < 64, s.portUp m = false) →
    ∃ t, exec (.soloStart []) s = .next t ∧
      t.headState = stPlaying ∧ t.solo = true ∧ t.pairSt.rejoin = none) ∧
  (∀ (s : State),
    s.pins.powered = true → s.hearsPartner = true → s.headState = stJoining → s.pairSt.starting = 1 → s.pairSt.readySent = true →
    ∃ t, exec (.ready) s = .next t ∧
      t.headState = stPlaying ∧ t.pairSt.starting = 0 ∧ (t.pairSt.ana = if s.headId = 0 then (1, 2) else (2, 1))) ∧
  (∀ (seq jseq : Nat) (r : RejoinSt) (s : State),
    s.pins.powered = true → s.hearsPartner = true → s.headState = stJoining → s.pairSt.rejoin = some r → r.survivor = false →
    ∃ t, exec (.lastSequence seq jseq) s = .next t ∧
      t.headState = stPlaying ∧ t.pairSt.rejoin = some { r with step := 5, lastSeq := seq, lastJseq := jseq }) ∧
  (∀ (inst fromJseq : Nat) (s : State),
    s.pins.powered = true → s.hearsPartner = true →
    ∃ t l, exec (.journalGapRequest inst fromJseq) s = .next t ∧
      t = { s with sent := s.sent ++ [Sent.efmoMissing (inst % 2) l] } ∧ (∀ g ∈ l, fromJseq ≤ g.jseq) ∧
      (∀ g ∈ (s.jnl (inst % 2)).mirrored, fromJseq ≤ g.jseq → g ∈ l)) ∧
  (∀ (inst : Nat) (g : JGroup) (s : State),
    s.pins.powered = true → inst < 2 → g.inst = inst → s.hearsPartner = true → (s.jnl inst).replay = 2 → (s.jnl inst).rest = [] →
    g.jseq = (s.jnl inst).lastApplied + 1 → groupOf? inst (groupBytes g.jseq g.recs) = some g →
    ∃ t, exec (.missingGroupsReply inst [groupBytes g.jseq g.recs]) s = .next t ∧
      (t.jnl inst).replay = 4 ∧ (t.jnl inst).lastApplied = g.jseq) ∧
  (∀ (inst : Nat) (s : State),
    s.pins.powered = true → inst < 2 → s.hearsPartner = true → (s.jnl inst).replay = 2 →
    ∃ t, exec (.missingGroupsReply inst []) s = .next t ∧
      ((s.jnl inst).rest = [] → (t.jnl inst).replay = 3 ∧ t.fld F.FTL_RCL_ISR_JNL_GAP = 1)) ∧
  (∀ (inst : Nat) (s : State),
    s.pins.powered = true → inst < 2 → (s.jnl inst).replay = 3 →
    ∃ t, exec (.acceptGap) s = .next t ∧
      (t.jnl inst).replay = 4)

/-- Pause, handback and the final number of a rejoin (01_two_heads_one_array.md, Rejoin and handback). -/
def Obligations.RejoinGoesOnInSteps : Prop :=
  (∀ (r : RejoinSt) (s : State),
    s.pins.powered = true → s.pairSt.rejoin = some r → r.survivor = true → r.step = 2 → s.joinHardened r = true →
    ∃ t, exec (.rejoinPause) s = .next t ∧
      t.pairSt.groupHeld = true ∧ t.pairSt.rejoin.any (fun x => x.survivor && decide (4 ≤ x.step)) = true) ∧
  (∀ (r : RejoinSt) (s : State),
    s.pins.powered = true → s.pairSt.rejoin = some r → r.survivor = true → r.step = 5 → s.instBusy s.partnerId = false →
    ∃ t, exec (.survivorHandback) s = .next t ∧
      t.pairSt.rejoin.any (fun x => x.survivor && decide (6 ≤ x.step)) = true) ∧
  (∀ (jseq : Nat) (r : RejoinSt) (s : State),
    s.pins.powered = true → s.hearsPartner = true → s.pairSt.rejoin = some r → r.survivor = false → r.step = 5 →
    s.pairSt.claims = [] →
    ∃ t, exec (.finalJseq jseq) s = .next t ∧
      (t.pairSt.rejoin = none ∨ t.pairSt.rejoin = some { r with step := 6, finalJseq := some jseq }) ∧
      (t.pairSt.rejoin = none → (t.jnl s.headId).lastApplied = jseq) ∧
      (t.pairSt.rejoin ≠ none → t.pairSt.claims.any (fun c => c.half == s.headId && c.for_ == ClaimFor.rejoin) = true))

/-- CAST_ON_START takes the straps on an OFF head that holds nothing; POWER_DOWN makes one (02_patterns_and_cast_on.md,
Cast-on, step by step; 23_balls_rails_live_backplane.md, The live backplane). -/
def Obligations.CastOnStartsFromOff : Prop :=
  (∀ (x : Straps) (power : Bool) (s : State),
    s.pins.powered = false →
    ∃ t, exec (.castOnStart x power) s = .next t ∧
      t.pins.powered = true ∧ t.pins.forfeitOut = false ∧ t.fld F.GLB_CASTON_STATUS_STEP = 1 ∧
      t.fld F.GLB_PAIR_STATUS_HEAD_ID = x.headId % 2 ∧ t.fld F.GLB_STRAPS_BOOT_MODE = x.bootMode % 4 ∧ t.sec.slots = [] ∧
      t.dram = [] ∧ t.pending = s.pending ∧ t.boot.labHold = decide (x.bootMode % 4 = 2)) ∧
  (∀ (x : Straps) (power : Bool) (s : State),
    s.pins.powered = true →
    ∃ t, exec (.castOnStart x power) s = .next t ∧
      t = s) ∧
  (∀ (s : State),
    s.pins.powered = true →
    ∃ t, exec (.powerDown) s = .next t ∧
      t.pins.powered = false ∧ t.OffClean ∧ t.pending = s.pending ∧ t.sent = s.sent ∧
      (∀ f ∈ outsideFields ++ retainedFields, s.fld f < 2 ^ f.width → t.fld f = s.fld f)) ∧
  (∀ (s : State),
    s.pins.powered = true →
    ∃ t, exec (.recoveryImagesWritten) s = .next t ∧
      t = { s with boot := { s.boot with imageHold := false } })

/-- Each cast-on step that completes is the next one; a step that passes its bound fails with code 0x7
(02_patterns_and_cast_on.md, Cast-on, step by step; 02_patterns_and_cast_on.md, The self-flush test). -/
def Obligations.CastOnStepsFollowInOrder : Prop :=
  (∀ (f : Fuses) (s : State),
    s.pins.powered = true → s.headState = stCastOn → s.castStep = 1 →
    ∃ t, exec (.castonStepDone (.fuses f true)) s = .next t ∧
      t.fld F.GLB_CASTON_STATUS_STEP = 2 ∧ t.boot.fuses = some f) ∧
  (∀ (type cap mts : Nat) (s : State),
    s.pins.powered = true → s.headState = stCastOn → s.castStep = 6 → type < 2 ^ F.DMC_INFO_TYPE.width →
    cap < 2 ^ F.DMC_INFO_CAP_GIB.width → mts < 2 ^ F.DMC_INFO_MTS.width →
    ∃ t, exec (.castonStepDone (.dram true type cap mts)) s = .next t ∧
      t.fld F.GLB_CASTON_STATUS_STEP = 7 ∧ t.fld F.DMC_INFO_TYPE = type ∧ t.fld F.DMC_INFO_CAP_GIB = cap ∧
      t.fld F.DMC_INFO_MTS = mts) ∧
  (∀ (s : State),
    s.pins.powered = true → s.headState = stCastOn → s.castStep = 9 →
    ∃ t, exec (.castonStepDone .done) s = .next t ∧
      t = s.setFld F.GLB_CASTON_STATUS_STEP 10) ∧
  (∀ (s : State),
    s.pins.powered = true → s.headState = stCastOn → s.castStep = 12 → s.pins.unseated = false → s.flag F.RPJ_CTRL_REPLAY = false →
    s.fld F.RPJ_DBG_LEVEL ≠ 2 →
    ∃ t, exec (.castonStepDone .done) s = .next t ∧
      t.pins.forfeitOut = true ∧ t.pins.portsOn = true ∧ t.efmo.training = 1 ∧ t.fld F.GLB_CASTON_STATUS_STEP = 13 ∧
      t.headState = stJoining) ∧
  (∀ (s : State),
    s.pins.powered = true → s.headState = stCastOn → s.castHeld = false → 1 ≤ s.castStep → s.castStep ≤ 9 →
    ∃ t, exec (.castonStepTimeout) s = .next t ∧
      t.fld F.GLB_CASTON_STATUS_FAILED = 1 ∧ t.fld F.GLB_CASTON_STATUS_FAIL_CODE = 7 ∧
      t.fld F.GLB_CASTON_STATUS_FAIL_STEP = s.castStep + 1 ∧ t.headState = stForfeit ∧ t.fld F.RPJ_CTRL_FREEZE = 1) ∧
  (∀ (uj us charge dv v1 i1 v2 i2 : Nat) (s : State),
    s.pins.powered = true → s.boot.testRunning = true → s.headState = stCastOn →
    ∃ t, exec (.selfFlushMeasured uj us charge dv v1 i1 v2 i2 true) s = .next t ∧
      t.fld F.GLB_CASTON_STATUS_WRITE_THROUGH = 1 ∧ t.fld F.GLB_FLUSH_COST_ENERGY_MJ = 0 ∧ t.fld F.GLB_FLUSH_COST_TIME_US = 0 ∧
      t.boot.testRunning = false ∧ t.mode = 0) ∧
  (∀ (uj us charge dv v1 i1 v2 i2 : Nat) (s : State),
    s.pins.powered = true → s.boot.testRunning = true → s.testFlushing = false → s.headState = stCastOn →
    ceilDiv uj (1000 * s.testGib) ≤ 65535 → ceilDiv us s.testGib ≤ 65535 →
    ∃ t, exec (.selfFlushMeasured uj us charge dv v1 i1 v2 i2 false) s = .next t ∧
      t.fld F.GLB_CASTON_STATUS_WRITE_THROUGH = s.fld F.GLB_CASTON_STATUS_WRITE_THROUGH ∧
      t.fld F.GLB_FLUSH_COST_ENERGY_MJ = ceilDiv uj (1000 * s.testGib) ∧ t.fld F.GLB_FLUSH_COST_TIME_US = ceilDiv us s.testGib ∧
      t.boot.testRunning = false)

/-- A re-pattern begins with its sections in order, or is refused; a drained last section completes it
(02_patterns_and_cast_on.md, Re-patterning in service). -/
def Obligations.RepatterningAppliesSectionsInOrder : Prop :=
  (∀ (bodies : List SectionBody) (s : State),
    s.pins.powered = true → s.repat.running = false → s.playing = false →
    ∃ t, exec (.repatternStart bodies) s = .next t ∧
      t.repat = s.repat ∧ t.pattern = s.pattern ∧
      s.Answered t 0x40 [(F.GLB_REPATTERN_RESULT_CODE, 8), (F.GLB_REPATTERN_RESULT_SECTIONS, 0)] ∧
      t.fld F.GLB_ISR_REPATTERN_DONE = 1) ∧
  (∀ (bodies : List SectionBody) (s : State),
    let g : Image := ⟨s.rd (s.base F.GLB_REPATTERN_ADDR_LO_ADDR_LO F.GLB_REPATTERN_ADDR_HI_ADDR_HI 6) (s.fld F.GLB_REPATTERN_LEN_LENGTH), bodies⟩
    s.pins.powered = true → s.repat.running = false → s.playing = true → s.fld F.GLB_PAIR_STATUS_PARTNER_STATE ≠ stHandover →
    s.fld F.GLB_REPATTERN_LEN_LENGTH ≠ g.length →
    ∃ t, exec (.repatternStart bodies) s = .next t ∧
      t.repat = s.repat ∧ t.pattern = s.pattern ∧ s.Answered t 0x40 [(F.GLB_REPATTERN_RESULT_CODE, 1)]) ∧
  (∀ (bodies : List SectionBody) (s : State),
    let g : Image := ⟨s.rd (s.base F.GLB_REPATTERN_ADDR_LO_ADDR_LO F.GLB_REPATTERN_ADDR_HI_ADDR_HI 6) (s.fld F.GLB_REPATTERN_LEN_LENGTH), bodies⟩
    s.pins.powered = true → s.repat.running = false → s.playing = true → s.fld F.GLB_PAIR_STATUS_PARTNER_STATE ≠ stHandover →
    s.fld F.GLB_REPATTERN_LEN_LENGTH = g.length → s.checkImage 2 true g = 0 → s.flag F.GLB_PATTERN_INFO_PARTIAL = false →
    g.baseVersion = s.fld F.GLB_PATTERN_VERSION_VERSION → g.baseVersion < g.version →
    g.sections ≠ [] ∧ noRepeat (g.sections.map (·.type)) = true →
    (g.sections.all fun c => liveTypes.contains c.type && s.sectionFits g.dieId c && !s.sectionRefused c) = true →
    ∃ t, exec (.repatternStart bodies) s = .next t ∧
      t.repat.running = true ∧ t.repat.version = g.version ∧
      t.repat.left = sortBy (fun a b => decide (a.type ≤ b.type)) g.sections ∧ t.headState = stHandover ∧ t.fld (resValid 0x40) = 0) ∧
  (∀ (held : Nat) (c : ImageSection) (s : State),
    s.pins.powered = true → s.repat.running = true → s.repat.left = [c] → s.sectionDrained c = true →
    s.repat.before ≤ s.repat.applied.length → s.repat.applied.length < s.repat.before + 15 →
    ∃ t, exec (.repatternSection held) s = .next t ∧
      t.repat = {} ∧ t.fld F.GLB_PATTERN_VERSION_VERSION = s.repat.version % 2 ^ 32 ∧ t.fld F.GLB_REPATTERN_RESULT_CODE = 0 ∧
      t.fld F.GLB_REPATTERN_RESULT_SECTIONS = s.repat.applied.length + 1 - s.repat.before ∧ t.fld F.GLB_ISR_REPATTERN_DONE = 1)

/-- Efmo training, discard, replay, recovery and lane sparing (03_write_commit.md, The Efmo link; 03_write_commit.md,
EFM registers). -/
def Obligations.LinkTrainingAndRetryTakeEffect : Prop :=
  (∀ (t0 : Nat) (s : State),
    s.pins.powered = true → s.efmo.idRetryAt = some t0 → t0 ≤ s.turn → s.efmoUp = false → s.silent = false →
    ∃ t, exec (.idClashRetry) s = .next t ∧
      t = { s with efmo := { s.efmo with training := 1, idRetryAt := none }, sent := t.sent } ∧
      t.sent = s.sent ++ (List.range 18).map (fun k => Sent.efmoTrainFrame k (if s.efmo.txLanes.isEmpty then List.range 16 else s.efmo.txLanes))) ∧
  (∀ (s : State),
    s.pins.powered = true → s.efmoUp = false → s.silent = false →
    ∃ t, exec (.efmRetrain) s = .next t ∧
      t = { s with efmo := { s.efmo with training := 1, idRetryAt := none }, sent := t.sent } ∧
      t.sent = s.sent ++ (List.range 18).map (fun k => Sent.efmoTrainFrame k (if s.efmo.txLanes.isEmpty then List.range 16 else s.efmo.txLanes))) ∧
  (∀ (s : State),
    s.pins.powered = true → s.efmoUp = true → s.flag F.EFM_LINK_STATUS_RECOVERING = false →
    ∃ t, exec (.efmRetrain) s = .next t ∧
      ((s.setFld F.EFM_LINK_STATUS_RECOVERING 1).setFld F.EFM_ISR_RECOVERY 1).JournalFrame t ∧
      t.fld F.EFM_LINK_STATUS_RECOVERING = 1) ∧
  (∀ (flit : Bytes) (counted : Bool) (s : State),
    let r : LinkSt × Received := LinkKind.efmo.receive 16 s.efmo.link flit
    s.pins.powered = true → s.efmoUp = true → s.silent = false → r.2 = .nak counted →
    ∃ t, exec (.efmoFlitDiscard [flit]) s = .next t ∧
      t.sent = s.sent ++ [Sent.efmoNak r.1.rxSeq] ∧
      t.fld F.EFM_ERR_COUNTS_DISCARDS = min (s.fld F.EFM_ERR_COUNTS_DISCARDS + if counted then 1 else 0) (2 ^ F.EFM_ERR_COUNTS_DISCARDS.width - 1) ∧
      t = { s with cells := t.cells, sent := t.sent, efmo := { s.efmo with link := r.1 } }) ∧
  (∀ (flit : Bytes) (ack : Nat) (s : State),
    let r : LinkSt × Received := LinkKind.efmo.receive 16 s.efmo.link flit
    let fails : Nat := if ack = r.1.ackSeq then r.1.replayFails else 0
    s.pins.powered = true → s.efmoUp = true → s.silent = false → r.2 = .replay ack → fails < 8 →
    ∃ t, exec (.efmoNak flit) s = .next t ∧
      t.efmo.link = { r.1 with ackSeq := ack, replayFails := fails + 1 } ∧
      t.fld F.EFM_ERR_COUNTS_REPLAYS = min (s.fld F.EFM_ERR_COUNTS_REPLAYS + 1) (2 ^ F.EFM_ERR_COUNTS_REPLAYS.width - 1) ∧
      t.sent = s.sent ++ [Sent.efmoReplay ((ack + 1) % 4096) r.1.txSeq]) ∧
  (∀ (s : State),
    s.pins.powered = true → s.efmoUp = true → s.silent = false → s.efmo.link.ackSeq ≠ s.efmo.link.txSeq →
    s.efmo.link.replayFails < 8 →
    ∃ t, exec (.efmoReplayTimeout) s = .next t ∧
      t.efmo.link = { s.efmo.link with replayFails := s.efmo.link.replayFails + 1 } ∧
      t.sent = s.sent ++ [Sent.efmoReplay ((s.efmo.link.ackSeq + 1) % 4096) s.efmo.link.txSeq]) ∧
  (∀ (s : State),
    s.pins.powered = true → s.efmoUp = true → s.flag F.EFM_LINK_STATUS_RECOVERING = false →
    s.efmo.link.ackSeq ≠ s.efmo.link.txSeq → 8 ≤ s.efmo.link.replayFails →
    ∃ t, exec (.efmoReplayTimeout) s = .next t ∧
      t.fld F.EFM_LINK_STATUS_RECOVERING = 1 ∧ t.fld F.EFM_ISR_RECOVERY = 1 ∧ t.efmo.link.replayFails = 0 ∧ t.sent = s.sent) ∧
  (∀ (s : State),
    s.pins.powered = true → s.flag F.EFM_LINK_STATUS_RECOVERING = true → s.efmoUp = true → s.silent = false →
    s.efmo.rxBad.length ≤ 2 → s.efmo.txBad.length ≤ 2 →
    ∃ t, exec (.efmoRecoveryDone true) s = .next t ∧
      t.fld F.EFM_LINK_STATUS_RECOVERING = 0 ∧ t.efmo.link.replayFails = 0 ∧ t.efmo.link.discarding = false ∧
      t.sent = s.sent ++ [Sent.efmoReplay ((s.efmo.link.ackSeq + 1) % 4096) s.efmo.link.txSeq]) ∧
  (∀ (ok : Bool) (s : State),
    s.pins.powered = true → s.flag F.EFM_LINK_STATUS_RECOVERING = true → s.efmoUp = true → ok = false ∨ 2 < s.efmo.rxBad.length →
    s.inService = true → s.solo = false →
    ∃ t, exec (.efmoRecoveryDone ok) s = .next t ∧
      t.efmoUp = false ∧ t.fld F.EFM_LINK_STATUS_RECOVERING = 0 ∧ t.fld F.EFM_ISR_DOWN = 1 ∧ t.fld F.GLB_ISR_PARTNER = 1 ∧
      t.fld F.GLB_PAIR_STATUS_PARTNER_STATE = 0 ∧ t.sent = s.sent) ∧
  (∀ (lane seq old k : Nat) (s : State),
    s.pins.powered = true → s.efmoUp = true → s.silent = false → s.efmo.rxLanes[lane]? = some old →
    freeLane (s.efmo.rxLanes ++ s.efmo.rxSwitch.map (·.2.2)) s.efmo.rxBad = some k →
    ∃ t, exec (.efmoLaneFailing lane seq true) s = .next t ∧
      t.efmo.rxSwitch = s.efmo.rxSwitch ++ [(seq % 4096, lane, k)] ∧ t.efmo.rxBad = s.efmo.rxBad ++ [old] ∧
      t.efmo.rxLanes = s.efmo.rxLanes ∧ t.fld F.EFM_LINK_STATUS_RX_SPARES = s.fld F.EFM_LINK_STATUS_RX_SPARES - 1 ∧
      t.fld F.EFM_ISR_SPARED = 1 ∧ t.sent = s.sent ++ [Sent.efmoLaneSpare lane k (seq % 4096)]) ∧
  (∀ (lane spare seq old : Nat) (s : State),
    s.pins.powered = true → s.efmoUp = true → s.efmo.txLanes[lane]? = some old → spare < 18 →
    spare ∉ s.efmo.txLanes ++ s.efmo.txSwitch.map (·.2.2) →
    ∃ t, exec (.laneSpare lane spare seq) s = .next t ∧
      t.efmo = { s.efmo with txSwitch := s.efmo.txSwitch ++ [(seq % 4096, lane, spare)], txBad := s.efmo.txBad ++ [old] } ∧
      t.fld F.EFM_LINK_STATUS_TX_SPARES = s.fld F.EFM_LINK_STATUS_TX_SPARES - 1 ∧ t.fld F.EFM_ISR_SPARED = 1)

/-- Parameter exchange, state messages, FLUSHED and Referee messages between heads (01_two_heads_one_array.md, Head
states; 01_two_heads_one_array.md, Rejoin and handback; 03_write_commit.md, The Efmo link; 15_keys_and_ciphers.md,
GCM and its IVs). -/
def Obligations.PartnerMessagesTakeEffect : Prop :=
  (∀ (m : ParamMsg) (l : List ReplayIn) (s : State),
    s.pins.powered = true → s.efmoUp = false → s.silent = false → s.inService = true ∨ s.headState = stJoining →
    m.headId = s.headId →
    ∃ t, exec (.parameterExchange m l) s = .next t ∧
      t = { s.setFld F.EFM_LINK_STATUS_ID_CLASH 1 with efmo := { s.efmo with training := 0, idRetryAt := some (s.turn + 1000) } }) ∧
  (∀ (m : ParamMsg) (l : List ReplayIn) (s : State),
    s.pins.powered = true → s.efmoUp = false → s.silent = false → s.inService = true → s.solo = true → m.headId ≠ s.headId →
    m.headState = stJoining →
    ∃ t, exec (.parameterExchange m l) s = .next t ∧
      t.efmoUp = true ∧ t.credits = 8192 ∧
      t.pairSt.rejoin = some ⟨true, 2, s.commit.lastSeq.1 + 1, s.commit.lastSeq.2 + 1, 0, 0, none, (s.nextJseq 0, s.nextJseq 1)⟩ ∧
      t.pairSt.partnerEpochs = (m.epoch0, m.epoch1) ∧ t.efmo.rxLanes = List.range 16 ∧ t.efmo.txLanes = List.range 16) ∧
  (∀ (s : State),
    s.pins.powered = true → s.efmoUp = true → s.silent = false →
    ∃ t, exec (.stateHeartbeat) s = .next t ∧
      t.efmo = { s.efmo with heartbeat := s.efmo.heartbeat + 1 } ∧
      t.sent = s.sent ++ [Sent.efmoState ⟨s.headState, s.heldEpoch 0, s.heldEpoch 1, s.efmo.heartbeat + 1, s.bankFailed, s.fld F.UPD_LEVEL_OWN, s.fld F.UPD_PEER_MIN_OWN⟩] ∧
      t = { s with efmo := t.efmo, sent := t.sent }) ∧
  (∀ (m : StateMsg) (s : State),
    s.pins.powered = true → s.hearsPartner = true → s.pairSt.rejoin = none →
    ∃ t, exec (.stateMessage m) s = .next t ∧
      t.pairSt = { s.pairSt with partnerEpochs := (m.epoch0, m.epoch1), partnerBankFailed := m.bankFailed } ∧
      t.fld F.GLB_PAIR_STATUS_PARTNER_STATE = m.headState % 2 ^ F.GLB_PAIR_STATUS_PARTNER_STATE.width ∧
      t.fld F.UPD_PEER_MIN_PARTNER = m.peerMin % 2 ^ F.UPD_PEER_MIN_PARTNER.width ∧
      t.fld F.UPD_LEVEL_PARTNER = m.level % 2 ^ F.UPD_LEVEL_PARTNER.width) ∧
  (∀ (s : State),
    s.pins.powered = true → s.hearsPartner = true →
    ∃ t, exec (.flushed) s = .next t ∧
      t = s.modHold (fun h => { h with partnerFlushed := true })) ∧
  (∀ (fixed invocation : Nat) (ct tag key : Bytes) (s : State),
    s.pins.powered = true → s.hearsPartner = true → s.keyOf 0x23FF = some key → s.sec.gotInv < invocation →
    ∃ t, exec (.refereeMessage fixed invocation ct tag) s = .next t ∧
      (∀ text, gcmDec key (gcmIv fixed invocation) (leBytes 4 (8 + ct.length + 16)) ct tag = some text → t.sent = s.sent ++ [Sent.refereeText text] ∧ t.sec.gotInv = invocation) ∧
      (gcmDec key (gcmIv fixed invocation) (leBytes 4 (8 + ct.length + 16)) ct tag = none → t.sent = s.sent ∧ t.sec.gotInv = s.sec.gotInv ∧ t.fld F.SEC_ISR_AUTH_FAIL = 1))

/-- Blocks, END, ABORT, acknowledgements, drain, the horizon, groups and refetch between heads (03_write_commit.md, The
ordering point; 03_write_commit.md, The Efmo link; 03_write_commit.md, Drain to staging; 03_write_commit.md, CMT
registers). -/
def Obligations.PlacementIsAnsweredBlockByBlock : Prop :=
  (∀ (m : BlockMsg) (s : State),
    let slot : MSlot := ⟨m.seq, m.volume, m.lba, m.index, m.mask, m.data, m.guard, carryGuard m.data == m.guard, false⟩
    s.pins.powered = true → s.hearsPartner = true → m.forwarded = false →
    ∃ t, exec (.blockMessage m) s = .next t ∧
      t.commit = { s.commit with mslots := s.commit.mslots.put (m.slot % 8192) slot } ∧
      (carryGuard m.data = m.guard → t = { s with commit := t.commit }) ∧
      (carryGuard m.data ≠ m.guard → t.fld F.CMT_ISR_GUARD = 1) ∧ t.sent = s.sent) ∧
  (∀ (m : Marker) (s : State),
    let found : List (Option (Bool × Nat)) := (slotsFrom m.firstSlot m.count).map fun k => ((s.commit.mslots.get? k).filter fun x => x.seq == m.seq && !x.done).map fun x => (x.good, x.guard)
    s.pins.powered = true → s.hearsPartner = true → m.forwarded = false → m.kind = 1 →
    ∃ t, exec (.endMarker m) s = .next t ∧
      t.sent = s.sent ++ [Sent.efmoAck ⟨m.seq, m.firstSlot, m.count, (endCheck found m.fold).1, (endCheck found m.fold).2, s.commit.creditOwed, false⟩] ∧
      t.commit.creditOwed = 0 ∧ ((endCheck found m.fold).1 ≠ 0 → t.commit.mentries = s.commit.mentries) ∧
      ((endCheck found m.fold).1 = 0 → t.commit.mentries.any (fun e => e.seq == m.seq && e.slots == slotsFrom m.firstSlot m.count) = true)) ∧
  (∀ (m : Marker) (s : State),
    s.pins.powered = true → s.hearsPartner = true → m.forwarded = false → m.kind = 2 →
    ∃ t c, exec (.abortMarker m) s = .next t ∧
      t.sent = s.sent ++ [Sent.efmoAck ⟨m.seq, m.firstSlot, m.count, 0, 0, c, false⟩] ∧ s.commit.creditOwed ≤ c ∧
      t.commit.creditOwed = 0 ∧ t = { s with commit := t.commit, sent := t.sent }) ∧
  (∀ (a : AckMsg) (e : Entry) (s : State),
    s.pins.powered = true → s.hearsPartner = true → a.forwarded = false → a.status = 0 →
    s.commit.own.find? (fun e => e.seq == a.seq && e.mirrored && e.mirrorFirst == a.firstSlot && (e.st == .localDone || e.st == .aborted)) = some e →
    e.st = .localDone →
    ∃ t, exec (.placementAck a) s = .next t ∧
      t.credits = min 8192 (s.credits + a.credit) ∧
      t.commit.own.any (fun x => x.inst == e.inst && x.seq == e.seq && x.st == .complete) = true) ∧
  (∀ (inst seq volume : Nat) (bad : List Nat) (m : MEntry) (s : State),
    s.pins.powered = true → s.commit.mentries.find? (fun m => m.seq == seq && m.volume == volume) = some m →
    (s.stgFree true m.slots.length).length = m.slots.length →
    ∃ t, exec (.drainToStaging true inst seq volume bad) s = .next t ∧
      t.commit.mentries = s.commit.mentries.filter (fun x => x != m) ∧ t.sent = s.sent ∧ t.commit.own = s.commit.own) ∧
  (∀ (inst horizon tail : Nat) (s : State),
    s.pins.powered = true → inst < 2 → s.hearsPartner = true → s.joinerApplies inst = false →
    (∀ g ∈ (s.jnl inst).mirrored, tail ≤ g.jseq) →
    ∃ t, exec (.hardenedHorizon inst horizon tail) s = .next t ∧
      t.commit.staging = s.commit.staging.filter (fun p => !(p.2.inst == inst && decide (p.2.seq ≤ horizon) && p.2.mirror)) ∧
      (t.jnl inst).mirrored = (s.jnl inst).mirrored ∧ (t.jnl inst).partnerTail = tail ∧ t.dram = s.dram ∧ t.sent = s.sent) ∧
  (∀ (g : JGroup) (s : State),
    s.pins.powered = true → g.inst < 2 → s.hearsPartner = true → s.joinerApplies g.inst = false →
    groupOf? g.inst (groupBytes g.jseq g.recs) = some g →
    ∃ t, exec (.journalGroup g.inst (groupBytes g.jseq g.recs)) s = .next t ∧
      (t.jnl g.inst).mirrored = (s.jnl g.inst).mirrored.filter (fun x => x.jseq != g.jseq) ++ [g] ∧ t = { s with ftl := t.ftl }) ∧
  (∀ (m : RefetchMsg) (intact : Bool) (s : State),
    s.pins.powered = true → s.hearsPartner = true → m.kind = 1 → s.mirrorCopy m = none →
    ∃ t, exec (.refetchRequest m intact) s = .next t ∧
      t = { s with sent := s.sent ++ [Sent.efmoRefetchReply { m with kind := 0x81, status := 1 } none] }) ∧
  (∀ (m : RefetchMsg) (mask : Nat) (d : Bytes) (g : Nat) (s : State),
    s.pins.powered = true → s.hearsPartner = true → m.kind = 1 → s.mirrorCopy m = some (mask, d, g) → carryGuard d = g →
    ∃ t, exec (.refetchRequest m true) s = .next t ∧
      t = { s with sent := s.sent ++ [Sent.efmoRefetchReply { m with kind := 0x81, status := 0 } (some ⟨m.seq, 0, mask, m.volume, m.block, false, m.lba, d, g⟩)] }) ∧
  (∀ (m : RefetchMsg) (b : BlockMsg) (key seq lba : Nat) (s : State),
    s.pins.powered = true → s.hearsPartner = true → m.kind = 0x81 → m.status = 0 → carryGuard b.data = b.guard →
    s.commit.refetch.get? m.token = some (key, seq, lba) →
    ∃ t, exec (.refetchReply m (some b)) s = .next t ∧
      t.commit.refetch = s.commit.refetch.del m.token ∧ t.fld F.CMT_ERRS_STAGING_POISON = s.fld F.CMT_ERRS_STAGING_POISON ∧
      (key % 2 = 0 → t = (s.modCommit fun c => { c with refetch := c.refetch.del m.token }).modBlock (key / 2) seq lba (fun x => { x with data := b.data, guard := carryGuard b.data, refetched := false }))) ∧
  (∀ (token key seq lba : Nat) (s : State),
    s.pins.powered = true → s.commit.refetch.get? token = some (key, seq, lba) → key % 2 = 0 →
    ∃ t, exec (.refetchTimeout token) s = .next t ∧
      t.commit.refetch = s.commit.refetch.del token ∧
      t.fld F.CMT_ERRS_STAGING_POISON = min (s.fld F.CMT_ERRS_STAGING_POISON + 1) (2 ^ F.CMT_ERRS_STAGING_POISON.width - 1) ∧
      t.fld F.CMT_ISR_GUARD = 1 ∧ t.sent = s.sent)

/-- What GD, LDH, LDS, XTD and DC make of a Stitch, and its DONE bit (04_rows_and_stitches.md, Stages and the classes
they serve; 09_purl_nand_decoder.md, Hard decoding; 09_purl_nand_decoder.md, Soft decoding; 15_keys_and_ciphers.md,
XTS for data at rest; 06_slot_class_compression.md, Decompression and corrupt streams;
11_snapshots_and_replication.md, Asynchronous replication). -/
def Obligations.ReadStagesMakeTheirOutput : Prop :=
  (∀ (sid l seq k : Nat) (x : Stitch) (m : RxMsgSt) (ct tag key : Bytes) (s : State),
    let u : State := s.gdWork sid x
    let p : Option Bytes := gcmDec key (gcmIv m.fixed (seq * 64 + k)) m.header ct tag
    s.pins.powered = true → s.AtStage sid stGD x → x.frame = some (l, seq, k) →
    s.snp.rx.find? (fun m => m.link == l && m.seq == seq) = some m → m.frames[k]? = some (ct, tag) →
    s.keyOf (0x2000 + x.gcmSlot) = some key →
    ∃ t, exec (.gdStage sid .good) s = .next t ∧
      t = s.live u.afterStage ∧
      (∀ b, p = some b → (u.stitchAfter sid).any (fun y => y.data == b.drop 16 && y.guard == leNat (b.take 8) && bit y.done (stGD - 1)) = true) ∧
      (p = none → (u.stitchAfter sid).any (fun y => y.status == 4) = true ∧ u.fld F.SEC_ISR_AUTH_FAIL = 1)) ∧
  (∀ (sid : Nat) (x : Stitch) (fixed : Nat) (b : Bytes) (s : State),
    let u : State := s.ldhWork sid x
    s.pins.powered = true → s.AtStage sid stLDH x → s.hardOut x.data = .ok fixed b →
    ∃ t, exec (.ldhStage sid .good) s = .next t ∧
      t = s.live u.afterStage ∧
      (u.stitchAfter sid).any (fun y => y.data == (ldhOutput x b).1 && y.headers == (ldhOutput x b).2 && bit y.done (stLDH - 1)) = true) ∧
  (∀ (sid : Nat) (x : Stitch) (fixed : Nat) (b : Bytes) (s : State),
    let u : State := s.ldsWork sid x
    s.pins.powered = true → s.AtStage sid stLDS x → (s.softOut x.die.1 x.die.2 (s.pageType x) x.data x.softReads).1 = .ok fixed b →
    ∃ t, exec (.ldsStage sid .good) s = .next t ∧
      t = s.live u.afterStage ∧
      (u.stitchAfter sid).any (fun y => y.data == (ldhOutput x b).1 && bit y.flags 6 && bit y.done (stLDS - 1)) = true) ∧
  (∀ (sid : Nat) (x : Stitch) (key : Bytes) (s : State),
    let u : State := s.xtdWork sid x
    s.pins.powered = true → s.AtStage sid stXTD x → s.keyOf x.keySlot = some key →
    headersOk x.cid x.gen x.slotClass (slotsOf x.slotClass) x.headers = true →
    ∃ t, exec (.xtdStage sid .good) s = .next t ∧
      t = s.live u.afterStage ∧
      (u.stitchAfter sid).any (fun y => y.data == xtsDec key (xtsTweak x.cid x.gen (x.keySlot / 2)) x.data && y.guard == leNat (x.headers.take 8) ^^^ guardMask key (xtsTweak x.cid x.gen (x.keySlot / 2)) && bit y.done (stXTD - 1)) = true) ∧
  (∀ (sid : Nat) (x : Stitch) (s : State),
    let u : State := s.dcWork sid x false
    let d : Nat × Bytes := if x.slotClass = 15 then (0, x.data) else decodeStream (s.dictFor x.dict x.domain) x.data none
    s.pins.powered = true → s.AtStage sid stDC x → x.frameHdr = none →
    ∃ t, exec (.dcStage sid .good) s = .next t ∧
      t = s.live u.afterStage ∧
      (d.1 = 0 → d.2.length = 4096 → carryGuard d.2 = x.guard → (u.stitchAfter sid).any (fun y => y.data == d.2 && bit y.done (stDC - 1)) = true) ∧
      (d.1 ≠ 0 → u.fld F.CMP_DC_ERRS_LAST_CODE = d.1 % 256 ∧ u.fld F.CMP_ISR_DC_ERR = 1))

/-- What FP, DX, CP, XTE, GE and RS make of a Stitch, and its DONE bit (04_rows_and_stitches.md, Stages and the classes
they serve; 05_duplicate_finding.md, Domains and keyed fingerprints; 05_duplicate_finding.md, Inline lookup;
06_slot_class_compression.md, Level, dictionary and class; 06_slot_class_compression.md, Frames off the head;
15_keys_and_ciphers.md, XTS for data at rest; 07_map_and_tiers.md, Superblocks and placement). -/
def Obligations.WriteStagesMakeTheirOutput : Prop :=
  (∀ (sid : Nat) (x : Stitch) (key : Bytes) (s : State),
    let u : State := s.fpWork sid x
    s.pins.powered = true → s.AtStage sid stFP x → s.keyOf (0x3000 + x.domain) = some key →
    ∃ t, exec (.fpStage sid .good) s = .next t ∧
      t = s.live u.afterStage ∧
      (u.stitchAfter sid).any (fun y => y.fp == hmacSha256 key x.data && y.data == x.data && bit y.done (stFP - 1)) = true) ∧
  (∀ (sid cid gen : Nat) (x : Stitch) (w : State) (s : State),
    let u : State := s.lookupDx sid x
    s.pins.powered = true → s.AtStage sid stDX x → x.parked = none → x.waitsPage = false → x.waitsCid = none → x.cls ≠ 4 →
    s.indexSlot x.inst (s.indexPage x.inst x.fp) = none → s.dedupOn x.domain = false → (s.countLookup x).dedupOn x.domain = false →
    (s.countLookup x).takeCid x.inst = some (cid, gen, w) →
    ∃ t, exec (.dxStage sid .good) s = .next t ∧
      t = s.live u.afterStage ∧
      (u.stitchAfter sid).any (fun y => y.cid == cid && y.gen == (gen + 1) % 256 && bit y.done (stDX - 1)) = true) ∧
  (∀ (sid : Nat) (x : Stitch) (s : State),
    let u : State := s.cpWork sid x
    s.pins.powered = true → s.AtStage sid stCP x → bit x.flags 1 = true →
    ∃ t, exec (.cpStage sid .good) s = .next t ∧
      t = s.live u.afterStage ∧
      (u.stitchAfter sid).any (fun y => y.data == x.data && y.slotClass == 15 && y.stored == 4096 && bit y.flags 4 && bit y.done (stCP - 1)) = true) ∧
  (∀ (sid : Nat) (x : Stitch) (key : Bytes) (s : State),
    let u : State := s.xteWork sid x
    let w : Nat := x.guard ^^^ guardMask key (xtsTweak x.cid x.gen x.domain)
    s.pins.powered = true → s.AtStage sid stXTE x → s.keyOf x.keySlot = some key →
    ∃ t, exec (.xteStage sid .good) s = .next t ∧
      t = s.live u.afterStage ∧
      (u.stitchAfter sid).any (fun y => y.data == xtsEnc key (xtsTweak x.cid x.gen x.domain) x.data && y.headers == slotHeaders w x.cid x.gen x.slotClass (slotsOf x.slotClass) && bit y.done (stXTE - 1)) = true) ∧
  (∀ (sid : Nat) (x : Stitch) (s : State),
    let u : State := s.geWork sid x
    s.pins.powered = true → s.AtStage sid stGE x → bit x.flags 8 = true →
    ∃ t, exec (.geStage sid .good) s = .next t ∧
      t = s.live u.afterStage ∧
      (u.stitchAfter sid).any (fun y => y.data == frameBytes x.guard 0 0 true x.data && bit y.done (stGE - 1)) = true) ∧
  (∀ (sid : Nat) (x : Stitch) (o : OpenSb) (s : State),
    let u : State := s.rsWork sid x
    s.pins.powered = true → s.AtStage sid stRS x → x.cls ≠ 2 → x.cls ≠ 3 → s.openFor x.inst (s.writeStream x) = some o →
    ∃ t, exec (.rsStage sid .good) s = .next t ∧
      t = s.live u.afterStage ∧
      (u.stitchAfter sid).any (fun y => y.stripe == (o.nextPlace (slotsOf x.slotClass)).1 % 2 ^ 32 && y.slot == (o.nextPlace (slotsOf x.slotClass)).2.2 && bit y.done (stRS - 1)) = true)

/-- Submission, admission, timeouts, spares, verify, index pages and reference batches (04_rows_and_stitches.md,
Admission and the firmware ring; 04_rows_and_stitches.md, The Row scheduler; 04_rows_and_stitches.md, Engine faults
and spare substitution; 05_duplicate_finding.md, Verify mode; 05_duplicate_finding.md, The fingerprint index;
05_duplicate_finding.md, Reference counts). -/
def Obligations.RowsAdmitRepairAndTest : Prop :=
  (∀ (tail : Nat) (s : State),
    s.pins.powered = true →
    ∃ t, exec (.stitchSubmit tail) s = .next t ∧
      t = s.setFld F.ROW_SQ_TAIL_TAIL tail) ∧
  (∀ (k : Nat) (x : Stitch) (s : State),
    let u : State := (s.admitStitch x).1.modRows (fun r => { r with waiting := r.waiting.eraseIdx k })
    s.pins.powered = true → s.rows.waiting[k]? = some x → (s.admitStitch x).2 = true →
    ∃ t, exec (.stitchAdmit false k) s = .next t ∧
      t = s.live u.afterStage ∧ u.rows.waiting = s.rows.waiting.eraseIdx k ∧ u.rows.nextSid = s.rows.nextSid + 1 ∧
      (u.stitchAfter s.rows.nextSid).any (fun y => y.lba == x.lba && y.cls == x.cls) = true) ∧
  (∀ (sid e : Nat) (x : Stitch) (s : State),
    let u : State := s.engineLate sid
    s.pins.powered = true → s.AtStage sid x.stage x → x.engine = some e →
    ∃ t, exec (.engineTimeout sid) s = .next t ∧
      t = s.live u.afterStage ∧
      (u.stitch? sid).any (fun y => y.engine.isNone && y.retries == min 255 (x.retries + 1) && y.stage == x.stage && y.data == x.data) = true) ∧
  (∀ (pool engine : Nat) (x : SpareTest) (s : State),
    let u : State := s.spareTested pool engine true
    s.pins.powered = true → pool < 8 → s.rows.testing.find? (fun x => x.pool == pool && x.engine == engine) = some x →
    ∃ t, exec (.spareKatDone pool engine true) s = .next t ∧
      t = s.live u.afterStage ∧ u.engine pool engine = ⟨0, []⟩ ∧
      u.fld (F.ROW_POOL_ACTIVE pool) = (s.fld (F.ROW_POOL_ACTIVE pool) + 1) % 2 ^ (F.ROW_POOL_ACTIVE pool).width ∧
      u.fld F.ROW_ISR_SPARE_IN = 1) ∧
  (∀ (sid cid : Nat) (x : Stitch) (b : Bytes) (s : State),
    let u : State := s.verifyEnd sid
    s.pins.powered = true → s.rows.retired = [] → s.stitch? sid = some x → x.cls = 4 → x.parked = some cid →
    x.cand = some (some b) → b ≠ x.data →
    ∃ t, exec (.verifyCompare sid) s = .next t ∧
      t = s.live u.afterStage ∧ u.fld F.DDP_ISR_VERIFY_MISMATCH = 1 ∧
      u.fld F.DDP_EVENTS_A_VERIFY_MISMATCH = min (s.fld F.DDP_EVENTS_A_VERIFY_MISMATCH + 1) (2 ^ F.DDP_EVENTS_A_VERIFY_MISMATCH.width - 1) ∧
      (u.stitchAfter sid).any (fun y => y.status == 1 && bit y.done (stDX - 1)) = true) ∧
  (∀ (sid slot : Nat) (x : Stitch) (s : State),
    let v : State := s.modStitch sid (fun y => { y with waitsPage := false })
    let u : State := v.lookupDx sid { x with waitsPage := false }
    s.pins.powered = true → s.stitch? sid = some x → x.waitsPage = true → x.waitsCid = none → x.cls = 4 →
    s.indexSlot x.inst (s.indexPage x.inst x.fp) = some slot → s.dedupOn x.domain = false →
    ∃ t, exec (.backgroundDedupResume sid) s = .next t ∧
      t = s.live u.afterStage ∧ (u.stitchAfter sid).any (fun y => y.status == 1 && bit y.done (stDX - 1)) = true) ∧
  (∀ (inst page : Nat) (f : IndexFetch) (s : State),
    s.pins.powered = true → s.ddp.fetches.find? (fun f => f.inst == inst % 2 && f.page == page) = some f →
    ∃ t slot, exec (.indexPageFetched inst page none) s = .next t ∧
      slot ∈ s.icacheSet page ∧ t.ddp.lines.get? slot = some ⟨inst % 2, page, false, f.loc⟩ ∧
      t.ddp.fetches = s.ddp.fetches.filter (fun g => !(g.inst == inst % 2 && g.page == page))) ∧
  (∀ (s : State),
    let a : Nat := s.base F.DDP_REFOP_ADDR_LO_ADDR_LO F.DDP_REFOP_ADDR_HI_ADDR_HI 3
    s.pins.powered = true → s.flag F.DDP_REFOP_CTRL_BUSY = false → 2 ≤ bits (s.rdN a 8) 53 52 →
    ∃ t, exec (.referenceBatch 1) s = .next t ∧
      s.Answered t 0xA0002C [(F.DDP_REFOP_RESULT_FAILED, 1)] ∧ t.fld F.DDP_REFOP_CTRL_BUSY = 0 ∧ t.fld F.DDP_ISR_REFOP_DONE = 1 ∧
      ((∀ k < 8, ¬ s.inRing (a + k)) → bit (t.rdN a 8) 63 = true) ∧ t.ddp.batch = none) ∧
  (∀ (r : Rec) (s : State),
    let a : Nat := s.base F.DDP_REFOP_ADDR_LO_ADDR_LO F.DDP_REFOP_ADDR_HI_ADDR_HI 3
    let d : Nat := s.rdN a 8
    let cid : Nat := bits d 43 0
    let u : State := ((((s.setFld F.DDP_REFOP_CTRL_COUNT 1).resStart 0xA0002C).setFld F.DDP_REFOP_CTRL_BUSY 1).modDdp fun x => { x with batch := some ⟨0, 0, a, 1⟩ })
    let w : State := (u.refApply cid (some (bits d 51 44)) false r).1
    s.pins.powered = true → s.flag F.DDP_REFOP_CTRL_BUSY = false → bits d 62 52 = 0 → s.recMissing cid = none →
    s.rec? cid = some r → r.state = 2 ∧ r.gen = bits d 51 44 ∧ r.refs + 1 < 0xFFFFFF →
    ∃ t, exec (.referenceBatch 1) s = .next t ∧
      t = s.live ((w.batchFlush [(cidInst cid, .content cid ((w.rawRec? cid).getD 0))]).batchDone 0) ∧
      w.rec? cid = some { r with refs := r.refs + 1 } ∧ t.fld F.DDP_REFOP_RESULT_FAILED = 0 ∧ t.fld (resValid 0xA0002C) = 1 ∧
      t.fld F.DDP_REFOP_CTRL_BUSY = 0 ∧ t.fld F.DDP_ISR_REFOP_DONE = 1 ∧ t.ddp.batch = none)

/-- INSTALL, RETIRE, FREE and the reserved operation of dictionaries give their code and state
(06_slot_class_compression.md, Trained dictionaries; 22_register_space.md, The result-register convention). -/
def Obligations.DictionaryCommandsAnswer : Prop :=
  (∀ (d : Nat) (s : State),
    let a : Nat := s.dictAddr d
    let tag : Nat := leNat ((sha256 (s.rd (s.rdN (a + 8) 8) (s.rdN (a + 0x10) 2))).take 4)
    let newer : Bool := (List.range 1024).all fun e => e == 0 || s.dictState e == 0 || s.rdN (s.dictAddr e + 2) 2 % 4096 != s.rdN (a + 2) 2 || decide (s.rdN (s.dictAddr e + 0x12) 2 < s.rdN (a + 0x12) 2)
    s.pins.powered = true → 0 < d → d < 1024 → s.flag F.CMP_DICT_CMD_BUSY = false → s.dictState d = 0 → s.dictFits d = true →
    ∃ t, exec (.dictInstall d) s = .next t ∧
      s.Answered t 0xB00014 [(F.CMP_DICT_RESULT_CODE, if tag % 4096 = 0 then 3 else if newer = false then 4 else 0), (F.CMP_DICT_RESULT_DICT_ID, d)] ∧
      t.fld F.CMP_ISR_DICT_DONE = 1 ∧ (tag % 4096 ≠ 0 → newer = true → ¬ s.inRing a → t.dictState d = 1)) ∧
  (∀ (d : Nat) (s : State),
    let used : Bool := (List.range 4096).any fun k => s.rdBits (s.cmpBase + 2 * k) 9 0 == d
    s.pins.powered = true → 0 < d → d < 1024 → s.flag F.CMP_DICT_CMD_BUSY = false → s.dictState d = 1 →
    ∃ t, exec (.dictRetire d) s = .next t ∧
      s.Answered t 0xB00014 [(F.CMP_DICT_RESULT_CODE, if used = true then 5 else 0), (F.CMP_DICT_RESULT_DICT_ID, d)] ∧
      t.fld F.CMP_ISR_DICT_DONE = 1 ∧ (used = false → ¬ s.inRing (s.dictAddr d) → t.dictState d = 2) ∧
      (∀ b, ¬ s.inRing b → b ≠ s.dictAddr d → memGet t.dram b = memGet s.dram b)) ∧
  (∀ (d : Nat) (s : State),
    let used : Bool := s.dictUses d 0 != 0 || s.dictUses d 1 != 0 || (s.rows.stitches.vals ++ s.rows.waiting).any fun x => x.dict == d
    s.pins.powered = true → 0 < d → d < 1024 → s.flag F.CMP_DICT_CMD_BUSY = false → s.dictState d = 2 →
    ∃ t, exec (.dictFree d) s = .next t ∧
      s.Answered t 0xB00014 [(F.CMP_DICT_RESULT_CODE, if used = true then 6 else 0), (F.CMP_DICT_RESULT_DICT_ID, d)] ∧
      t.fld F.CMP_ISR_DICT_DONE = 1 ∧ (used = false → ¬ s.inRing (s.dictAddr d) → t.dictState d = 0)) ∧
  (∀ (d : Nat) (s : State),
    s.pins.powered = true → d < 1024 → s.flag F.CMP_DICT_CMD_BUSY = false →
    ∃ t, exec (.dictReservedOp d) s = .next t ∧
      s.Answered t 0xB00014 [(F.CMP_DICT_RESULT_CODE, 7), (F.CMP_DICT_RESULT_DICT_ID, d)] ∧ t.fld F.CMP_ISR_DICT_DONE = 1 ∧
      (∀ b, ¬ s.inRing b → memGet t.dram b = memGet s.dram b))

/-- Fetched pages, passed splits, write-back and the metadata commands (07_map_and_tiers.md, The hot-map cache and the
map-page cache; 07_map_and_tiers.md, Trees, pointers and pages; 07_map_and_tiers.md, Metadata pages on flash;
08_reclaim_wear_power_loss.md, The map journal; 07_map_and_tiers.md, FTL map registers). -/
def Obligations.MapCommandsTakeEffect : Prop :=
  (∀ (inst tree level ident : Nat) (b : Bytes) (f : PageFetch) (s : State),
    let w : State := s.modMap (fun m => { m with fetches := m.fetches.filter fun g => !g.is (inst % 2) tree level ident })
    let u : State := w.pageArrived f b
    s.pins.powered = true → pageChecks tree level ident f.index b = true →
    s.map.fetches.find? (fun f => f.is (inst % 2) tree level ident) = some f → f.ops = [] → s.map.misses = [] →
    ∃ t, exec (.mapPageFetched inst tree level ident (some b)) s = .next t ∧
      t = s.live ((u.pageWaiters.takeRetired).settleRows) ∧
      u.map.fetches = s.map.fetches.filter (fun g => !g.is (inst % 2) tree level ident) ∧
      u.map.pages.any (fun p => p.is f.inst f.tree f.level f.ident && p.loc == f.loc && p.words == pageWords b && !p.dirty) = true) ∧
  (∀ (head : Nat) (s : State),
    let n : Nat := s.splitRing
    let old : Nat := s.fld F.FTL_SPLIT_HEAD_INDEX % n
    let gone : SplitReq → Bool := fun r => decide (r.index < n) && decide ((r.index + n - old) % n < (head % n + n - old) % n)
    s.pins.powered = true → (∀ r ∈ s.map.splits, r.index < n ∧ r.ops = []) → s.snp.swept = [] →
    ∃ t, exec (.splitHeadAdvance head) s = .next t ∧
      t.fld F.FTL_SPLIT_HEAD_INDEX = head % 2 ^ F.FTL_SPLIT_HEAD_INDEX.width ∧
      t.map.splits = s.map.splits.filter (fun r => !gone r) ∧ t.dram = s.dram ∧ t.sent = s.sent) ∧
  (∀ (inst tree level ident : Nat) (p : MapPage) (s : State),
    s.pins.powered = true → tree ≠ 0 → tree ≠ 3 → s.holds (inst % 2) = true →
    s.map.pages.find? (fun p => p.is (inst % 2) tree level ident && p.dirty) = some p → s.map.pages.length ≤ s.mpcPages →
    p.wb = WbSt.none →
    ∃ t, exec (.mapPageWriteback inst tree level ident) s = .next t ∧
      t.map.pages.any (fun q => q.is p.inst p.tree p.level p.ident && q.wb == .inFlight && q.words == p.words) = true ∧
      (s.openFor p.inst 3 = none → t.ftl.toPlace.any (fun x => x.inst == p.inst && x.stream == 3 && x.payload == s.pageImage p) = true)) ∧
  (∀ (s : State),
    s.pins.powered = true → s.flag F.FTL_MCMD_BUSY = false → (∀ p ∈ s.map.pages, p.dirty = false) →
    ∃ t, exec (.writeBackAll) s = .next t ∧
      s.Answered t 0xC00034 [(F.FTL_MCMD_RESULT_CODE, 0)] ∧ t.fld F.FTL_MCMD_BUSY = 0 ∧ t.map.mcmd = none ∧
      t.map.pages = s.map.pages) ∧
  (∀ (inst index : Nat) (s : State),
    let v : State := (((([(F.FTL_MCMD_OP, 1), (F.FTL_MCMD_INSTANCE, inst), (F.FTL_MCMD_INDEX, index)].foldl (fun t p => t.setFld p.1 p.2) s).resStart 0xC00034).setFld F.FTL_MCMD_BUSY 1).modMap fun m => { m with mcmd := some ⟨1, inst % 2, index % 2 ^ 18, (s.nextJseq 0, s.nextJseq 1)⟩ })
    s.pins.powered = true → s.flag F.FTL_MCMD_BUSY = false → s.holds (inst % 2) = true →
    v.walk (inst % 2) 4 0 (index % 2 ^ 18) = .absent →
    ∃ t, exec (.objectRead inst index) s = .next t ∧
      s.Answered t 0xC00034 [(F.FTL_MCMD_RESULT_CODE, 0)] ∧ t.fld F.FTL_ISR_MCMD_DONE = 1 ∧
      (∀ k < 4096, ¬ s.inRing (s.mcmdAddr + k) → memGet t.dram (s.mcmdAddr + k) = 0)) ∧
  (∀ (inst index : Nat) (w : State) (p : MapPage) (s : State),
    let v : State := (((([(F.FTL_MCMD_OP, 2), (F.FTL_MCMD_INSTANCE, inst), (F.FTL_MCMD_INDEX, index)].foldl (fun t p => t.setFld p.1 p.2) s).resStart 0xC00034).setFld F.FTL_MCMD_BUSY 1).modMap fun m => { m with mcmd := some ⟨2, inst % 2, index % 2 ^ 18, (s.nextJseq 0, s.nextJseq 1)⟩ })
    s.pins.powered = true → s.flag F.FTL_MCMD_BUSY = false → s.holds (inst % 2) = true →
    v.openLeaf (inst % 2) 4 0 (index % 2 ^ 18) (v.nextJseq (inst % 2)) = (w, .leaf p) → w.map.pages.length ≤ w.mpcPages →
    ∃ t, exec (.objectWrite inst index) s = .next t ∧
      t.fld F.FTL_MCMD_RESULT_CODE = 0 ∧ t.fld (resValid 0xC00034) = 1 ∧ t.fld F.FTL_MCMD_BUSY = 0 ∧
      t.fld F.FTL_ISR_MCMD_DONE = 1 ∧
      t.map.pages.any (fun q => q.is p.inst p.tree p.level p.ident && q.dirty && q.words == pageWords (w.rd w.mcmdAddr 4096)) = true) ∧
  (∀ (inst index : Nat) (s : State),
    s.pins.powered = true → s.flag F.FTL_MCMD_BUSY = false →
    ∃ t, exec (.mcmdReservedOp inst index) s = .next t ∧
      s.Answered t 0xC00034 [(F.FTL_MCMD_RESULT_CODE, 3)] ∧ t.fld F.FTL_ISR_MCMD_DONE = 1 ∧
      (∀ b, ¬ s.inRing b → memGet t.dram b = memGet s.dram b) ∧ t.sent = s.sent) ∧
  (∀ (s : State),
    s.pins.powered = true →
    ∃ t, exec (.hotmapInvalidate) s = .next t ∧
      t = s.modMap (fun m => { m with hot := [] }))

/-- Push, open, padding, reclaim, refresh and anchors (07_map_and_tiers.md, Superblocks and placement;
08_reclaim_wear_power_loss.md, Choosing and copying; 08_reclaim_wear_power_loss.md, Refresh;
08_reclaim_wear_power_loss.md, The map journal; 10_stripes_and_rebuild.md, The stripe code). -/
def Obligations.SuperblocksMoveThroughTheirStates : Prop :=
  (∀ (stream sb : Nat) (s : State),
    s.pins.powered = true → s.pushCode (stream % 8) (sb % 2 ^ 28) = 0 → s.holds (s.sbInst (sb % 2 ^ 28)) = false →
    ∃ t, exec (.superblockPush stream sb) s = .next t ∧
      t.sbQueue (s.sbInst (sb % 2 ^ 28)) (stream % 8) = s.sbQueue (s.sbInst (sb % 2 ^ 28)) (stream % 8) ++ [sb % 2 ^ 28] ∧
      t.sbState (sb % 2 ^ 28) = sbQueued ∧ (∀ a, a ≠ s.sbAddr (sb % 2 ^ 28) → memGet t.dram a = memGet s.dram a) ∧ t.sent = s.sent) ∧
  (∀ (stream sb : Nat) (s : State),
    s.pins.powered = true → s.pushCode (stream % 8) (sb % 2 ^ 28) ≠ 0 →
    ∃ t, exec (.superblockPush stream sb) s = .next t ∧
      t.fld F.FTL_SBQ_STATUS_LAST_CODE = s.pushCode (stream % 8) (sb % 2 ^ 28) % 2 ^ F.FTL_SBQ_STATUS_LAST_CODE.width ∧
      t.fld F.FTL_SBQ_STATUS_LAST_SB = sb % 2 ^ 28 ∧ t.fld F.FTL_ISR_SBQ_REFUSED = 1 ∧ t.ftl = s.ftl ∧ t.sent = s.sent) ∧
  (∀ (inst stream sb : Nat) (s : State),
    s.pins.powered = true → inst < 2 → stream < 8 → s.mayOpen inst stream = true →
    (s.sbQueue inst stream).find? (fun b => (s.sbMembers b).all s.memberReady) = some sb → (s.sbMembers sb).any s.badBlock = false →
    ∃ t, exec (.superblockOpen inst stream) s = .next t ∧
      t.ftl.opening = s.ftl.opening ++ [⟨sb, inst, stream, (s.sbMembers sb).flatMap (fun m => [(m, 0), (m, 1)]), []⟩] ∧
      t.sbQueue inst stream = (s.sbQueue inst stream).erase sb ∧
      t.media.queued.length = s.media.queued.length + 2 * (s.sbMembers sb).length ∧ t.sent = s.sent) ∧
  (∀ (sb : Nat) (o : OpenSb) (s : State),
    s.pins.powered = true → s.openSb? sb = some o → o.cw < o.k →
    ∃ t p, exec (.stripePad sb) s = .next t ∧
      t.openSb? sb = some p ∧ p.slots = 0 ∧ p.cw = 0 ∧ p.stripe % unitStripes p.mode = 0 ∧ o.stripe ≤ p.stripe ∧
      p.members = o.members ∧ t.sent = s.sent) ∧
  (∀ (force : Bool) (s : State),
    let u : State := ((([(F.FTL_RCL_CMD_OP, 0), (F.FTL_RCL_CMD_FORCE, if force = true then 1 else 0)].foldl (fun t p => t.setFld p.1 p.2) s).resStart 0xC00410).setFld F.FTL_RCL_CMD_BUSY 1)
    let sb : Nat := s.fld F.FTL_RCL_SB_SB
    s.pins.powered = true → s.flag F.FTL_RCL_CMD_BUSY = false → s.holds (s.sbInst sb) = true → s.sbState sb = sbClosed →
    s.sbMode sb ≠ 2 →
    ∃ t, exec (.reclaimStart force) s = .next t ∧
      t = s.live (((u.setSbState sb sbReclaiming).journalSb sb sbReclaiming 0).rclDone 0 0) ∧ t.fld F.FTL_RCL_RESULT_CODE = 0 ∧
      t.fld (resValid 0xC00410) = 1 ∧ t.fld F.FTL_RCL_CMD_BUSY = 0 ∧ t.fld F.FTL_RCL_ISR_RCL_DONE = 1) ∧
  (∀ (lost : List Nat) (s : State),
    let u : State := ((([(F.FTL_RCL_CMD_OP, 1), (F.FTL_RCL_CMD_FORCE, 0)].foldl (fun t p => t.setFld p.1 p.2) s).resStart 0xC00410).setFld F.FTL_RCL_CMD_BUSY 1)
    let sb : Nat := s.fld F.FTL_RCL_SB_SB
    s.pins.powered = true → s.flag F.FTL_RCL_CMD_BUSY = false → s.holds (s.sbInst sb) = true → s.sbState sb = sbReclaiming →
    s.eraseBegun sb = false → s.finishCode sb = 0 →
    ∃ t, exec (.reclaimFinish false lost) s = .next t ∧
      t = s.live ((u.journalSb sb sbReclaiming 1).rclDone 0 0) ∧ t.fld F.FTL_RCL_RESULT_CODE = 0 ∧ t.fld (resValid 0xC00410) = 1 ∧
      t.fld F.FTL_RCL_CMD_BUSY = 0 ∧ t.fld F.FTL_RCL_ISR_RCL_DONE = 1) ∧
  (∀ (force : Bool) (s : State),
    let u : State := ((([(F.FTL_RCL_CMD_OP, 2), (F.FTL_RCL_CMD_FORCE, if force = true then 1 else 0)].foldl (fun t p => t.setFld p.1 p.2) s).resStart 0xC00410).setFld F.FTL_RCL_CMD_BUSY 1)
    let sb : Nat := s.fld F.FTL_RCL_SB_SB
    s.pins.powered = true → s.flag F.FTL_RCL_CMD_BUSY = false → s.holds (s.sbInst sb) = true → s.sbState sb = sbReclaiming →
    s.eraseBegun sb = false → s.movesFrom sb = false → s.copiesOut sb = false →
    ∃ t, exec (.reclaimAbort force) s = .next t ∧
      t = s.live (((u.setSbState sb sbClosed).journalSb sb sbClosed 0).rclDone 0 0) ∧ t.fld F.FTL_RCL_RESULT_CODE = 0 ∧
      t.fld (resValid 0xC00410) = 1 ∧ t.fld F.FTL_RCL_CMD_BUSY = 0) ∧
  (∀ (force : Bool) (s : State),
    s.pins.powered = true → s.flag F.FTL_RCL_CMD_BUSY = false →
    ∃ t, exec (.reclaimReservedOp force) s = .next t ∧
      s.Answered t 0xC00410 [(F.FTL_RCL_RESULT_CODE, 6), (F.FTL_RCL_RESULT_POISONED, 0)] ∧ t.fld F.FTL_RCL_CMD_BUSY = 0 ∧
      t.fld F.FTL_RCL_ISR_RCL_DONE = 1 ∧ t.ftl = { s.ftl with forced := none }) ∧
  (∀ (sb : Nat) (s : State),
    s.pins.powered = true → s.solo = false → s.headId < 2 → sb ∈ s.allSbs → s.sbInst sb = s.headId → s.sbState sb = sbClosed →
    ∃ t, exec (.refreshCheck) s = .next t ∧
      (¬ s.inRing (s.sbsAddr sb + 0x12) → t.sbFlags sb = (s.sbFlags sb ||| s.refreshFlags sb) % 256) ∧ t.ftl = s.ftl ∧
      t.sent = s.sent) ∧
  (∀ (inst : Nat) (s : State),
    let i : Nat := inst % 2
    let j : JnlSt := s.jnl i
    s.pins.powered = true → s.anchorDue i = true → j.anchorCur < 2 → s.anchorFailed i j.anchorCur = false →
    ofInst j.anchorNext j.anchorCur < s.slcPages (memberModule (s.anchorBlock i j.anchorCur)) →
    ∃ t, exec (.anchorPageWrite inst) s = .next t ∧
      ofInst (t.jnl i).anchorNext j.anchorCur = ofInst j.anchorNext j.anchorCur + 1 ∧
      ofInst (t.jnl i).anchorNext (1 - j.anchorCur) = ofInst j.anchorNext (1 - j.anchorCur) ∧ (t.jnl i).anchorTurn = s.turn ∧
      (t.jnl i).anchorOut = j.anchorOut ++ [(j.anchorCur, s.anchorBytes i (zeros 32))] ∧
      t.media.queued.length = s.media.queued.length + 1 ∧ t.cells = s.cells) ∧
  (∀ (inst n block : Nat) (s : State),
    s.pins.powered = true → s.headState = stCastOn → s.anchorFailed (inst % 2) (n % 2) = false →
    ∃ t, exec (.anchorReplace inst n block) s = .next t ∧
      t = s.setFld (anchorBlockFld (inst % 2) (n % 2)) (block % 2 ^ 28))

/-- Training, frame discard, replay, recovery and lane loss of a module port (09_purl_nand_decoder.md, Lanes and frames;
09_purl_nand_decoder.md, Training; 09_purl_nand_decoder.md, MED registers). -/
def Obligations.PortsTrainReplayAndRecover : Prop :=
  (∀ (port : Nat) (s : State),
    s.pins.powered = true → port < 64 → port < s.modules → s.modPresent port = true → s.portUp port = false → s.silent = false →
    ∃ t, exec (.purlTrainingStart port) s = .next t ∧
      t = { s with media := t.media, sent := s.sent ++ [Sent.purlTrain port 1] } ∧ (t.port port).training = 1) ∧
  (∀ (port : Nat) (s : State),
    s.pins.powered = true → port < 64 → s.modPresent port = true → s.portUp port = false → (s.port port).training ≠ 0 →
    s.silent = false →
    ∃ t, exec (.purlTrainingTimeout port) s = .next t ∧
      t = { s with media := t.media, sent := s.sent ++ [Sent.purlTrain port 1] } ∧ t.port port = { s.port port with training := 1 }) ∧
  (∀ (port : Nat) (p : ParamPage) (credits : List Nat) (s : State),
    s.pins.powered = true → port < 64 → s.portUp port = false → (s.port port).training ≠ 0 → s.silent = false → pageFits p = true →
    ∃ t c seeds, exec (.parameterPage port p credits) s = .next t ∧
      t.port port = { s.port port with page := some p, training := 7, link := freshLink credits seeds } ∧
      t.sent = s.sent ++ [Sent.purlTrain port 6, Sent.purlParam port s.headId (min (s.fld F.MED_SUSPEND_CFG_ERASE_MAX) 4) (min (s.fld F.MED_SUSPEND_CFG_PROG_MAX) 2) (max (s.fld F.MED_SUSPEND_CFG_GUARD_PCT) 10) (s.fld F.MED_SUSPEND_CFG_MIN_RUN_US) c] ∧
      t.fld (F.MED_PORT_STATUS_PARAM_BAD port) = 0 ∧
      t = { s with cells := t.cells, dram := t.dram, media := t.media, sent := t.sent, fresh := t.fresh }) ∧
  (∀ (port : Nat) (report : List (Nat × Nat × Nat × Nat)) (s : State),
    s.pins.powered = true → port < 64 → s.portUp port = false → (s.port port).training = 7 → s.epoch 0 = 0 → s.epoch 1 = 0 →
    s.upd.step = none →
    ∃ t, exec (.leaseStateReport port report) s = .next t ∧
      t.portUp port = true ∧ t.modState port = modServing ∧ (t.port port).training = 0 ∧ t.pairSt.reports.get? port = some report ∧
      t.fld F.MED_ISR_PORT_UP = 1) ∧
  (∀ (port : Nat) (frame : Bytes) (counted : Bool) (s : State),
    let r : LinkSt × Received := LinkKind.purl.receive (s.purlLanes port).length (s.linkOf port) frame
    s.pins.powered = true → port < 64 → s.linked port = true → s.silent = false → r.2 = .nak counted →
    ∃ t, exec (.purlFrameDiscard port [frame]) s = .next t ∧
      t.port port = { s.port port with link := r.1 } ∧
      t = { s with cells := t.cells, media := t.media, sent := s.sent ++ [Sent.purlNak port r.1.rxSeq] } ∧
      t.fld F.MED_ERR_COUNTS_DISCARDS = min (s.fld F.MED_ERR_COUNTS_DISCARDS + if counted then 1 else 0) (2 ^ F.MED_ERR_COUNTS_DISCARDS.width - 1)) ∧
  (∀ (port ack : Nat) (frame : Bytes) (s : State),
    let r : LinkSt × Received := LinkKind.purl.receive (s.purlLanes port).length (s.linkOf port) frame
    let fails : Nat := if ack = r.1.ackSeq then r.1.replayFails else 0
    s.pins.powered = true → port < 64 → s.linked port = true → s.silent = false → r.2 = .replay ack → fails < 8 →
    ∃ t, exec (.purlNak port frame) s = .next t ∧
      t.port port = { s.port port with link := { r.1 with ackSeq := ack, replayFails := fails + 1 } } ∧
      t.fld F.MED_ERR_COUNTS_REPLAYS = min (s.fld F.MED_ERR_COUNTS_REPLAYS + 1) (2 ^ F.MED_ERR_COUNTS_REPLAYS.width - 1) ∧
      t = { s with cells := t.cells, media := t.media, sent := s.sent ++ [Sent.purlReplay port ((ack + 1) % 4096) r.1.txSeq] }) ∧
  (∀ (port : Nat) (s : State),
    let l : LinkSt := s.linkOf port
    s.pins.powered = true → port < 64 → s.linked port = true → s.silent = false → l.ackSeq ≠ l.txSeq → l.replayFails < 8 →
    ∃ t, exec (.purlReplayTimeout port) s = .next t ∧
      t.port port = { s.port port with link := { l with replayFails := l.replayFails + 1 } } ∧
      t.fld F.MED_ERR_COUNTS_REPLAYS = min (s.fld F.MED_ERR_COUNTS_REPLAYS + 1) (2 ^ F.MED_ERR_COUNTS_REPLAYS.width - 1) ∧
      t = { s with cells := t.cells, media := t.media, sent := s.sent ++ [Sent.purlReplay port ((l.ackSeq + 1) % 4096) l.txSeq] }) ∧
  (∀ (port : Nat) (s : State),
    let l : LinkSt := s.linkOf port
    s.pins.powered = true → port < 64 → s.linked port = true → l.ackSeq ≠ l.txSeq → 8 ≤ l.replayFails →
    ∃ t, exec (.purlReplayTimeout port) s = .next t ∧
      t.fld (F.MED_PORT_STATUS_RECOVERING port) = 1 ∧ t.port port = { s.port port with link := { l with replayFails := 0 } } ∧
      t.sent = s.sent) ∧
  (∀ (port : Nat) (s : State),
    s.pins.powered = true → port < 64 → s.flag (F.MED_PORT_STATUS_RECOVERING port) = true → s.silent = false →
    ∃ t seeds, exec (.purlRecoveryDone port true) s = .next t ∧
      t.port port = { s.port port with link := { s.linkOf port with replayFails := 0, discarding := false, scramblers := seeds } } ∧
      t.fld (F.MED_PORT_STATUS_RECOVERING port) = 0 ∧
      t.sent = s.sent ++ [Sent.purlReplay port (((s.linkOf port).ackSeq + 1) % 4096) (s.linkOf port).txSeq] ∧ t.dram = s.dram) ∧
  (∀ (port lane seq : Nat) (s : State),
    s.pins.powered = true → port < 64 → s.portUp port = true → s.fld (F.MED_PORT_STATUS_WIDTH port) = 2 → lane < 2 →
    (s.port port).narrow = none → s.silent = false →
    ∃ t, exec (.purlLaneFailing port lane seq true) s = .next t ∧
      t.fld (F.MED_PORT_STATUS_DEGRADED port) = 1 ∧ t.fld F.MED_ISR_DEGRADED = 1 ∧
      t.port port = { s.port port with narrow := some (seq % 4096, lane) } ∧
      t.sent = s.sent ++ [Sent.purlWidth port (seq % 4096)] ∧ t.fld (F.MED_PORT_STATUS_WIDTH port) = 2)

/-- Alerts, presence and the limits of absence of a module (09_purl_nand_decoder.md, Hold-up and alerts;
10_stripes_and_rebuild.md, Modules leaving and returning; 10_stripes_and_rebuild.md, Rebuild;
10_stripes_and_rebuild.md, STR registers). -/
def Obligations.AlertsAndAbsenceMoveModules : Prop :=
  (∀ (port : Nat) (s : State),
    s.pins.powered = true → port < 64 → s.modState port ≠ modServing →
    ∃ t, exec (.alertPowerWarning port) s = .next t ∧
      t.fld F.MED_ALERT_LAST_CODE = 1 ∧ t.fld F.MED_ALERT_LAST_MODULE = port ∧ t.fld F.MED_ISR_ALERT = 1 ∧
      t.fld (F.MED_PORT_STATUS_POWER_WARN port) = 1 ∧ t.media = s.media ∧ t.sent = s.sent) ∧
  (∀ (port die : Nat) (s : State),
    s.pins.powered = true → port < 64 → die < 256 → s.dieFailed port die = false →
    ∃ t, exec (.alertDieFault port die) s = .next t ∧
      t.fld F.MED_ALERT_LAST_CODE = 2 ∧ t.fld F.MED_ALERT_LAST_DIE = die ∧ t.fld F.STR_ISR_DIE_FAILED = 1 ∧
      (¬ s.inRing (s.strBase + (port * 256 + die) / 8) → t.dieFailed port die = true) ∧ t.media = s.media ∧ t.sent = s.sent) ∧
  (∀ (port die : Nat) (s : State),
    s.pins.powered = true → port < 64 → die < 256 →
    ∃ t, exec (.alertTemperature port die) s = .next t ∧
      (((((s.setFld F.MED_ALERT_LAST_CODE 3).setFld F.MED_ALERT_LAST_MODULE port).setFld F.MED_ALERT_LAST_DIE die).setFld F.MED_ISR_ALERT 1).setFld F.MED_ISR_HOT 1).JournalFrame t ∧
      t.fld F.MED_ISR_HOT = 1) ∧
  (∀ (port : Nat) (s : State),
    s.pins.powered = true → port < 64 → s.modState port = modServing → s.portIdle port = true →
    ∃ t, exec (.alertBridgeRestart port) s = .next t ∧
      t.modState port = modHeld ∧ t.fld F.MED_ALERT_LAST_CODE = 4 ∧ t.fld F.STR_ISR_MOD_AWAY = 1 ∧ (t.port port).awayAt = s.turn ∧
      t.sent = s.sent) ∧
  (∀ (port code die : Nat) (s : State),
    s.pins.powered = true → port < 64 → die < 256 → code < 256 →
    ∃ t, exec (.alertReserved port code die) s = .next t ∧
      t.fld F.MED_ALERT_LAST_CODE = code % 2 ^ F.MED_ALERT_LAST_CODE.width ∧ t.fld F.MED_ISR_ALERT = 1 ∧
      t.fld F.MED_EVENTS_BAD_ALERTS = min (s.fld F.MED_EVENTS_BAD_ALERTS + 1) (2 ^ F.MED_EVENTS_BAD_ALERTS.width - 1) ∧
      t.media = s.media) ∧
  (∀ (port : Nat) (s : State),
    s.pins.powered = true → port < 64 → s.modPresent port = false → s.portUp port = false → port < s.modules →
    9 ≤ s.fld F.GLB_CASTON_STATUS_STEP → s.silent = false →
    ∃ t, exec (.modulePresenceChange port true) s = .next t ∧
      t.modPresent port = true ∧ t.port port = { s.port port with training := 1 } ∧
      t = { s with cells := t.cells, media := t.media, sent := s.sent ++ [Sent.purlTrain port 1] }) ∧
  (∀ (port : Nat) (s : State),
    s.pins.powered = true → port < 64 → s.modState port = modHeld → s.portIdle port = true →
    ∃ t, exec (.heldLimitExpiry port) s = .next t ∧
      t.modState port = modAway ∧ t.fld F.STR_ISR_MOD_AWAY = 1 ∧ t.sent = s.sent) ∧
  (∀ (port : Nat) (s : State),
    s.pins.powered = true → port < 64 → s.modState port = modAway →
    ∃ t, exec (.awayLimitExpiry port) s = .next t ∧
      t.modState port = modLost ∧ t.fld F.STR_ISR_MOD_LOST = 1 ∧
      ((∀ k < 8, ¬ s.inRing (s.strBase + 2048 + 8 * port + k)) → t.lossStamp port = s.stamp % 2 ^ 64) ∧ t.media = s.media ∧
      t.sent = s.sent)

/-- The die arbiter issues, statuses end operations, data returns, tables are recomputed (09_purl_nand_decoder.md,
Operations and statuses; 09_purl_nand_decoder.md, The die arbiter; 09_purl_nand_decoder.md, Read references and
their calibration; 09_purl_nand_decoder.md, Soft reads and the LLR table; 10_stripes_and_rebuild.md, Reconstruct
reads). -/
def Obligations.OperationsEndAndReadsReturn : Prop :=
  (∀ (port : Nat) (st : PurlStatus) (p : PendOp) (s : State),
    let u : State := ((s.modMedia fun m => { m with out := m.out.erase p }).countStatus p st).opStatus p st
    s.pins.powered = true → s.media.out.find? (fun p => p.port == port && p.op.tag == st.tag) = some p → p.purpose = .selfTest →
    st.status = 0 →
    ∃ t, exec (.operationStatus port st) s = .next t ∧
      t = s.live u.mediaOn ∧ u.media.out = s.media.out.erase p ∧ (u.port p.port).temps.get? p.die = some (st.temp, s.turn) ∧
      u.pair F.MED_OPS_LO_COUNT F.MED_OPS_HI_COUNT = (s.pair F.MED_OPS_LO_COUNT F.MED_OPS_HI_COUNT + 1) % 2 ^ 64) ∧
  (∀ (port tag : Nat) (p : PendOp) (s : State),
    let u : State := (s.modMedia fun m => { m with out := m.out.erase p }).opFaulted p
    s.pins.powered = true → port < 64 → s.media.out.find? (fun p => p.port == port && p.op.tag == tag) = some p →
    s.portUp port = true → p.purpose = .selfTest → p.isRead = true → s.dieFailed p.port p.die = false →
    ∃ t, exec (.opStatusTimeout port tag) s = .next t ∧
      t = s.live u.mediaOn ∧ u.media.out = s.media.out.erase p ∧ u.fld F.STR_ISR_DIE_FAILED = 1) ∧
  (∀ (port tag cw a : Nat) (data : Bytes) (p : PendOp) (s : State),
    s.pins.powered = true → s.media.out.find? (fun p => p.port == port && p.op.tag == tag && p.isRead) = some p →
    p.purpose = .paramRead → p.op.opcode ≠ 1 → s.media.paramDest = some a →
    ∃ t, exec (.readDataMessage port tag cw data) s = .next t ∧
      t = s.wr (a + 4608 * cw) data) ∧
  (∀ (port tag cw sid : Nat) (data : Bytes) (p : PendOp) (x : Stitch) (s : State),
    let u : State := (s.countRead p.member).modStitch sid (fun x => { x with data := data, ready := true })
    s.pins.powered = true → s.media.out.find? (fun p => p.port == port && p.op.tag == tag && p.isRead) = some p →
    p.purpose = .stitchRead sid → p.op.opcode = 1 → s.stitch? sid = some x →
    ∃ t, exec (.readDataMessage port tag cw data) s = .next t ∧
      t = s.live u.settleRows ∧ u.stitch? sid = some { x with data := data, ready := true } ∧ u.sent = s.sent) ∧
  (∀ (sb stripe want : Nat) (r : ReconSt) (k : Tbl Bytes) (s : State),
    let u : State := s.reconArrived sb stripe want
    s.pins.powered = true → s.recon? sb stripe want = some r → r.known = some k → s.solveTurn r = true →
    ∃ t, exec (.reconstructSolve sb stripe want) s = .next t ∧
      t = s.live ((u.takeResults.takeRetired).settleRows) ∧ u.recon? sb stripe want = none ∧
      u.media.results.length = s.media.results.length + 1 ∧
      u.pair F.STR_RECON_LO_COUNT F.STR_RECON_HI_COUNT = (s.pair F.STR_RECON_LO_COUNT F.STR_RECON_HI_COUNT + 1) % 2 ^ 64) ∧
  (∀ (module die : Nat) (p : PendOp) (s : State),
    s.pins.powered = true →
    (s.media.out.filter (fun p => p.port == module && p.die == die && p.op.opcode != 4)).length < s.dieDepth →
    s.media.queued.filter (fun q => q.2.port == module && q.2.die == die && s.mayIssue q.2) = [(6, p)] → p.port = module →
    p.op.opcode = 3 → p.op.flags = 0 → p.data = [] → s.silent = false → s.ctl.hold.unseated = false →
    ∃ t op, exec (.dieArbiterSlot module die) s = .next t ∧
      t.media.queued = s.media.queued.erase (6, p) ∧ t.media.out = s.media.out ++ [{ p with op := op }] ∧
      t.sent = s.sent ++ [Sent.purlOp module op] ∧ op = { p.op with tag := op.tag, epoch := s.epoch (s.memberHalf p.member) } ∧
      t.cells = s.cells) ∧
  (∀ (who : Requester) (page die module : Nat) (s : State),
    let p : PendOp := ⟨module, plainOp 5 0 0 0 (die * 2 ^ 28 + page * 4), Purpose.paramRead, [], 0⟩
    s.pins.powered = true → module < 64 → die < 256 → page < 2 → s.flag F.MED_PARAM_CMD_BUSY = false → s.portUp module = true →
    ∃ t, exec (.paramRead who page die module) s = .next t ∧
      t.media.queued = s.media.queued ++ [(5, p)] ∧ t.fld F.MED_PARAM_CMD_BUSY = 1 ∧ t.fld (resValid 0xD0001C) = 0 ∧
      t = { s with cells := t.cells, media := t.media }) ∧
  (∀ (module die : Nat) (s : State),
    let a : Nat := s.calDie module die
    s.pins.powered = true → s.flag F.LDC_LLR_CFG_FREEZE = false →
    ∃ t, exec (.llrRecompute module die) s = .next t ∧
      (∀ pt < 5, ∀ z < 4, t.rdN (llrAddr a pt 3 z) 1 = unsigned 8 (llrOf 3 z (s.rdN (tallyAddr a pt 3 z) 4) (s.rdN (tallyAddr a pt 3 z + 4) 4) (s.fld F.LDC_LLR_CFG_MIN_COUNT))) ∧
      (∀ pt < 5, ∀ z < 6, t.rdN (llrAddr a pt 5 z) 1 = unsigned 8 (llrOf 5 z (s.rdN (tallyAddr a pt 5 z) 4) (s.rdN (tallyAddr a pt 5 z + 4) 4) (s.fld F.LDC_LLR_CFG_MIN_COUNT))) ∧
      (∀ b, (b < a + 0x20 ∨ a + 0x52 ≤ b) → memGet t.dram b = memGet s.dram b) ∧ t = { s with dram := t.dram }) ∧
  (∀ (module die group : Nat) (probes : List CalProbe) (s : State),
    let reads : Nat := (probes.map fun p => 1 + 2 * p.refs.length).foldl (· + ·) 0
    let v : State := (List.range reads).foldl (fun t _ => t.slotGiven (unitDie module die) (.budget 4)) s
    s.pins.powered = true → s.flag F.LDC_CAL_CTRL_ENABLE = true →
    (State.calTypes module die group probes (List.range 5) (v.setCalFlags module die group (v.calFlags module die group &&& 3))).2 = true →
    ∃ t, exec (.calibrationPass module die group probes) s = .next t ∧
      t.calFlags module die group % 2 = 0 ∧ t.fld F.LDC_EVENTS_CAL_ABORT = s.fld F.LDC_EVENTS_CAL_ABORT ∧ t.sent = s.sent)

/-- The snapshot commands start where BUSY is clear and answer in SNP_CMD_RESULT (11_snapshots_and_replication.md, Cuts;
11_snapshots_and_replication.md, The snapshot table; 11_snapshots_and_replication.md, Presenting, cloning and
deleting; 11_snapshots_and_replication.md, Delta sets; 11_snapshots_and_replication.md, SNP registers). -/
def Obligations.SnapshotCommandsAnswer : Prop :=
  (∀ (addr set edge count : Nat) (s : State),
    s.pins.powered = true → s.flag F.SNP_CMD_BUSY = false → edge % 2 ^ 64 < s.turn + 16 →
    ∃ t, exec (.snapshotArm addr set edge count) s = .next t ∧
      s.Answered t 0x1B0002C [(F.SNP_CMD_RESULT_CODE, 1)] ∧ t.fld F.SNP_ISR_CMD_DONE = 1 ∧ t.fld F.SNP_CMD_BUSY = 0 ∧
      t.snp = s.snp ∧ t.sent = s.sent ∧ (∀ b, ¬ s.inRing b → memGet t.dram b = memGet s.dram b)) ∧
  (∀ (addr set edge count : Nat) (s : State),
    let u : State := s.snpStart 0 count addr set 0 edge false id
    let l : List Nat := u.cutList (u.base F.SNP_CMD_ADDR_LO_ADDR F.SNP_CMD_ADDR_HI_ADDR 4) (count % 2 ^ 16)
    let cuts : List (Nat × Nat) := l.map fun e => (e % 2 ^ 16, bits e 39 16)
    s.pins.powered = true → s.flag F.SNP_CMD_BUSY = false → s.turn + 16 ≤ edge % 2 ^ 64 → u.cutListBad l = false →
    s.snp.sets.length < 16 →
    ∃ t, exec (.snapshotArm addr set edge count) s = .next t ∧
      s.Answered t 0x1B0002C [(F.SNP_CMD_RESULT_CODE, 0)] ∧ t.fld F.SNP_ISR_CMD_DONE = 1 ∧
      t.snp = { s.snp with sets := s.snp.sets ++ [⟨set % 2 ^ 16, edge % 2 ^ 64, cuts, false, 0, (0, 0), false, (0, 0)⟩] } ∧
      ((s.efmoUp = true ∧ s.silent = false) → t.sent = s.sent ++ [Sent.efmoArm (set % 2 ^ 16) (edge % 2 ^ 64) cuts]) ∧
      (s.efmoUp = false → t.sent = s.sent) ∧
      (∀ v k, cuts = [(v, k)] → ¬ s.inRing (s.snapAddr k + 0x1A) → t.snapFlags k = 4 + 2 * s.volHome v) ∧
      (∀ b, ¬ s.inRing b → (∀ k ∈ cuts, (b < s.snapAddr k.2 ∨ s.snapAddr k.2 + 32 ≤ b) ∧ (b < s.genAddr k.1 + 4 ∨ s.genAddr k.1 + 8 ≤ b)) → memGet t.dram b = memGet s.dram b)) ∧
  (∀ (set : Nat) (c : CutSet) (s : State),
    s.pins.powered = true → s.flag F.SNP_CMD_BUSY = false →
    s.snp.sets.find? (fun c => c.id == set % 2 ^ 16 && c.phase == 0 && decide (s.turn < c.edge)) = some c → s.snp.held = [] →
    ∃ t, exec (.snapshotCancel set) s = .next t ∧
      s.Answered t 0x1B0002C [(F.SNP_CMD_RESULT_CODE, 0)] ∧
      s.Answered t 0x1B00040 [(F.SNP_CUT_RESULT_CODE, 5), (F.SNP_CUT_RESULT_SET, set % 2 ^ 16)] ∧ t.fld F.SNP_ISR_CUT_FAILED = 1 ∧
      t.snp.sets = s.snp.sets.filter (fun d => d != c) ∧
      ((s.efmoUp = true ∧ s.silent = false) → t.sent = s.sent ++ [Sent.efmoCancelArm (set % 2 ^ 16)])) ∧
  (∀ (set : Nat) (s : State),
    s.pins.powered = true → s.flag F.SNP_CMD_BUSY = false →
    s.snp.sets.all (fun c => c.id != set % 2 ^ 16 || c.phase != 0 || decide (c.edge ≤ s.turn)) = true →
    ∃ t, exec (.snapshotCancel set) s = .next t ∧
      s.Answered t 0x1B0002C [(F.SNP_CMD_RESULT_CODE, 6)] ∧ t.fld F.SNP_ISR_CMD_DONE = 1 ∧ t.snp = s.snp) ∧
  (∀ (volume : Nat) (s : State),
    s.pins.powered = true → s.flag F.SNP_CMD_BUSY = false → s.volValid (volume % 2 ^ 16) = false →
    ∃ t, exec (.sweep volume) s = .next t ∧
      s.Answered t 0x1B0002C [(F.SNP_CMD_RESULT_CODE, 2)] ∧ t.fld F.SNP_ISR_CMD_DONE = 1 ∧ t.snp = s.snp ∧ t.map = s.map) ∧
  (∀ (volume : Nat) (s : State),
    let v : Nat := volume % 2 ^ 16
    s.pins.powered = true → s.flag F.SNP_CMD_BUSY = false → s.volValid v = true → ptrCorrupt (s.volRoot v) = false →
    ptrKind (s.volRoot v) = 0 → s.map.splits = [] → s.snp.swept = [] →
    ∃ t, exec (.sweep volume) s = .next t ∧
      s.Answered t 0x1B0002C [(F.SNP_CMD_RESULT_CODE, 0)] ∧ t.fld F.SNP_CMD_BUSY = 0 ∧ t.fld F.SNP_ISR_CMD_DONE = 1 ∧
      t.snp = { s.snp with sweep := none } ∧ (¬ s.inRing (s.genAddr v + 4) → (memGet t.dram (s.genAddr v + 4)).toNat % 2 = 1) ∧
      (∀ b, ¬ s.inRing b → (b < s.genAddr v + 4 ∨ s.genAddr v + 8 ≤ b) → memGet t.dram b = memGet s.dram b)) ∧
  (∀ (fromEmpty : Bool) (older newer count addr start : Nat) (s : State),
    let n : Nat := newer % 2 ^ 24
    s.pins.powered = true → s.flag F.SNP_CMD_BUSY = false → bit (s.snapFlags n) 0 = false →
    ∃ t, exec (.delta fromEmpty older newer count addr start) s = .next t ∧
      s.Answered t 0x1B0002C [(F.SNP_CMD_RESULT_CODE, 2)] ∧ t.fld F.SNP_ISR_CMD_DONE = 1 ∧ t.snp = s.snp ∧
      (∀ b, ¬ s.inRing b → memGet t.dram b = memGet s.dram b)) ∧
  (∀ (older newer count addr start : Nat) (s : State),
    let o : Nat := s.snapAddr (older % 2 ^ 24)
    let n : Nat := s.snapAddr (newer % 2 ^ 24)
    s.pins.powered = true → s.flag F.SNP_CMD_BUSY = false → bit (s.snapFlags (older % 2 ^ 24)) 0 = true →
    bit (s.snapFlags (newer % 2 ^ 24)) 0 = true → s.rdN (o + 0x18) 2 = s.rdN (n + 0x18) 2 →
    s.rdN (o + 0x10) 8 ≤ s.rdN (n + 0x10) 8 → s.rdN (o + 0x1B) 1 = s.rdN (n + 0x1B) 1 → s.rdN o 8 = s.rdN n 8 →
    ptrCorrupt (s.rdN n 8) = false →
    ∃ t, exec (.delta false older newer count addr start) s = .next t ∧
      s.Answered t 0x1B0002C [(F.SNP_CMD_RESULT_CODE, 0)] ∧ t.fld F.SNP_DELTA_WRITTEN_ENTRIES = 0 ∧ t.fld F.SNP_CMD_BUSY = 0 ∧
      t.snp = { s.snp with delta := false } ∧ t.map = s.map ∧ (∀ b, ¬ s.inRing b → memGet t.dram b = memGet s.dram b)) ∧
  (∀ (op : Nat) (s : State),
    s.pins.powered = true → s.flag F.SNP_CMD_BUSY = false →
    ∃ t, exec (.snpReservedOp op) s = .next t ∧
      s.Answered t 0x1B0002C [(F.SNP_CMD_RESULT_CODE, 7)] ∧ t.fld F.SNP_ISR_CMD_DONE = 1 ∧ t.snp = s.snp ∧ t.map = s.map ∧
      (∀ b, ¬ s.inRing b → memGet t.dram b = memGet s.dram b))

/-- Mirrored arms, the steps of a cut, replication messages and the synchronous timeout
(11_snapshots_and_replication.md, Cuts; 11_snapshots_and_replication.md, Replication links and messages;
11_snapshots_and_replication.md, Asynchronous replication; 11_snapshots_and_replication.md, Synchronous replication;
11_snapshots_and_replication.md, SNP registers). -/
def Obligations.CutsAndReplicationMessagesTakeEffect : Prop :=
  (∀ (set edge : Nat) (cuts : List (Nat × Nat)) (s : State),
    s.pins.powered = true →
    ∃ t, exec (.mirroredArm set edge cuts false) s = .next t ∧
      t.snp = { s.snp with sets := s.snp.sets ++ [⟨set, edge, cuts, true, 0, (0, 0), false, (0, 0)⟩] } ∧
      t = { cuts.foldl (fun u k => u.pendSnapshot k.1 k.2) s with snp := t.snp } ∧
      (∀ v k, cuts = [(v, k)] → bit (t.snapFlags k) 2 = true)) ∧
  (∀ (set edge : Nat) (cuts : List (Nat × Nat)) (c : CutSet) (s : State),
    s.pins.powered = true → s.snp.sets.find? (fun c => c.id == set && c.mirrored && c.phase == 0) = some c →
    ∃ t, exec (.mirroredArm set edge cuts true) s = .next t ∧
      t.snp = { s.snp with sets := s.snp.sets.filter fun d => d != c } ∧ t = { s with dram := t.dram, snp := t.snp } ∧
      (c.cuts = [] → t.dram = s.dram)) ∧
  (∀ (set : Nat) (c : CutSet) (s : State),
    let d : CutSet := { c with phase := 1, sCut := s.commit.lastSeq, guard := decide (1 < (c.cuts.map fun k => s.volHome k.1).eraseDups.length) }
    let w : State := (s.cutsHeld c).foldl (fun t k => t.wr (t.snapAddr k.2 + 8) (leBytes 8 (c.edge * 1024) ++ leBytes 8 (ofInst s.commit.lastSeq (s.volHome k.1)))) s
    s.pins.powered = true → s.snp.sets.find? (fun c => c.id == set && c.phase == 0 && decide (c.edge ≤ s.turn)) = some c →
    c.mirrored = false → (c.cuts.all fun k => w.volHome k.1 == s.volHome k.1) = true →
    ((s.cutsHeld c).all fun k => w.volValid k.1 && w.sweptVol k.1) = true →
    ∃ t, exec (.cutEdge set) s = .next t ∧
      t.snp = { s.snp with sets := s.snp.sets.map fun e => if e == c then d else e } ∧
      (((s.cutsHeld c).length = 1) → t = { w with snp := t.snp })) ∧
  (∀ (set : Nat) (c : CutSet) (s : State),
    s.pins.powered = true → s.snp.sets.find? (fun c => c.id == set && c.guard) = some c →
    ∃ t, exec (.cutGuardEnd set) s = .next t ∧
      t = { s with snp := { s.snp with sets := s.snp.sets.map (fun d => if d == c then { d with guard := false } else d), guarded := s.snp.guarded.filter fun d => !(c.cuts.map (·.1)).contains d.volume }, commit := { s.commit with due := s.commit.due ++ s.snp.guarded.filter fun d => (c.cuts.map (·.1)).contains d.volume } }) ∧
  (∀ (set : Nat) (c : CutSet) (s : State),
    let a : State × Nat := s.journalRoots c 0
    let b : State × Nat := a.1.journalRoots c 1
    let u : State := { b.1 with snp := { b.1.snp with sets := b.1.snp.sets.map fun d => if d == c then { d with phase := 2, jseq := (a.2, b.2) } else d } }
    s.pins.powered = true → s.snp.sets.find? (fun c => c.id == set && c.phase == 1) = some c → s.cutsHeld c ≠ [] →
    ((s.cutsHeld c).all fun k => s.cutSettled c k.1 && s.cutWritten k.1) = true →
    ∃ t, exec (.cutSeal set) s = .next t ∧
      t = s.live u.sealFinish ∧
      (((s.cutsHeld c).all fun k => s.volHome k.1 == 0) = true → a.2 = s.nextJseq 0 ∧ b.2 = 0 ∧ (s.jnl 0).groups.length < (u.jnl 0).groups.length ∧ (u.jnl 0).groups.any (fun g => g.jseq == s.nextJseq 0 && g.recs == (s.cutsHeld c).map (fun k => JRec.pointer 0xFFFE k.2 (s.volRoot k.1))) = true)) ∧
  (∀ (set : Nat) (c : CutSet) (s : State),
    s.pins.powered = true →
    s.snp.sets.find? (fun c => c.id == set && decide (1 ≤ c.phase) && decide (c.edge + max 1 (s.fld F.SNP_CTRL_SEAL_LIMIT) ≤ s.turn)) = some c →
    s.cutsHeld c ≠ [] → s.snp.held = [] →
    ∃ t, exec (.sealLimitExpiry set) s = .next t ∧
      s.Answered t 0x1B00040 [(F.SNP_CUT_RESULT_CODE, 2)] ∧ t.fld F.SNP_CUT_RESULT_SET = c.id % 2 ^ 16 ∧
      t.fld F.SNP_ISR_CUT_FAILED = 1 ∧ t.snp.sets = s.snp.sets.filter (fun d => d != c) ∧ t.sent = s.sent) ∧
  (∀ (link : Nat) (h : ReplHdr) (frames : List (Bytes × Bytes)) (s : State),
    s.pins.powered = true → s.linkState (link % 64) = 0 →
    ∃ t, exec (.replicationData link h frames) s = .next t ∧
      t = s) ∧
  (∀ (link : Nat) (h : ReplHdr) (frames : List (Bytes × Bytes)) (s : State),
    let l : Nat := link % 64
    let m : RxMsgSt := { link := l, seq := h.seq, volume := h.volume, lba := h.lba, header := hdrBytes h, fixed := h.fixed, frames := frames, st := List.replicate h.count .waiting }
    s.pins.powered = true → s.linkState l = 3 → s.hdrRejected l h = false → h.type = 1 → s.volValid h.volume = true →
    s.holds (s.volHome h.volume) = true → frames.length = h.count → 0 < h.count → h.count ≤ 64 →
    ∃ t, exec (.replicationData link h frames) s = .next t ∧
      t = { s with snp := { s.snp with rx := s.snp.rx ++ [m] }, rows := { s.rows with waiting := t.rows.waiting } } ∧
      ((s.snp.rx = [] ∧ s.rows.waiting = []) → t.rows.waiting = (List.range h.count).map fun k => s.rxStitch m k)) ∧
  (∀ (link : Nat) (h : ReplHdr) (s : State),
    let l : Nat := link % 64
    let m : RxMsgSt := { link := l, seq := h.seq, volume := h.volume, lba := h.lba, header := hdrBytes h, fixed := h.fixed, frames := [], st := List.replicate h.count .zero }
    let u : State := (s.useGcm (s.linkKey l)).takeSeq l h.seq
    s.pins.powered = true → s.linkState l = 3 → s.hdrRejected l h = false → h.type = 2 → s.volValid h.volume = true →
    s.holds (s.volHome h.volume) = true →
    ∃ t, exec (.replicationZero link h) s = .next t ∧
      (s.hdrAuthentic l h = true → t = s.live (({ u with snp := { u.snp with rx := u.snp.rx ++ [m] } } : State).rxJournal.rxAck) ∧ u.linkRx l = max h.seq (s.linkRx l) % 2 ^ 64) ∧
      (s.hdrAuthentic l h = false → t.fld F.SNP_ISR_AUTH_FAIL = 1 ∧ t.fld F.SEC_AUTH_FAILS_GCM = min (s.fld F.SEC_AUTH_FAILS_GCM + 1) 0xFFFF ∧ t.fld F.SNP_LINK_EVENTS_AUTH_FAIL = min (s.fld F.SNP_LINK_EVENTS_AUTH_FAIL + 1) 0xFFFF ∧ t.snp = s.snp)) ∧
  (∀ (link : Nat) (h : ReplHdr) (s : State),
    let l : Nat := link % 64
    s.pins.powered = true → s.linkState l = 3 → s.hdrRejected l h = false → h.type = 3 →
    ∃ t, exec (.replicationCut link h) s = .next t ∧
      ((s.hdrAuthentic l h = true ∧ (s.snp.rxCount.get? l).getD 0 = h.count) → t.fld F.SNP_ISR_RX_CUT = 1) ∧
      (s.hdrAuthentic l h = true → t.snp = { s.snp with rxCount := s.snp.rxCount.del l }) ∧
      (s.hdrAuthentic l h = false → t.fld F.SNP_ISR_AUTH_FAIL = 1 ∧ t.fld F.SEC_AUTH_FAILS_GCM = min (s.fld F.SEC_AUTH_FAILS_GCM + 1) 0xFFFF ∧ t.fld F.SNP_LINK_EVENTS_AUTH_FAIL = min (s.fld F.SNP_LINK_EVENTS_AUTH_FAIL + 1) 0xFFFF ∧ t.snp = s.snp)) ∧
  (∀ (link : Nat) (h : ReplHdr) (s : State),
    let l : Nat := link % 64
    s.pins.powered = true → s.linkState l ≠ 0 → s.hdrRejected l h = false → h.type = 4 → h.status = 0 → h.seq < 2 ^ 64 →
    h.lba < 2 ^ 64 →
    ∃ t, exec (.replicationAck link h) s = .next t ∧
      (s.hdrAuthentic l h = true → t.linkRx l = max h.seq (s.linkRx l) ∧ t.linkAcked l = max h.lba (s.linkAcked l)) ∧
      (s.hdrAuthentic l h = true → t.snp.out = s.snp.out.filter (fun m => !(m.link == l && m.seq == h.lba)) ∧ t.snp.sync = s.snp.sync.filter (fun m => !(m.link == l && m.msg == some h.lba))) ∧
      (s.hdrAuthentic l h = false → t.fld F.SNP_ISR_AUTH_FAIL = 1 ∧ t.fld F.SEC_AUTH_FAILS_GCM = min (s.fld F.SEC_AUTH_FAILS_GCM + 1) 0xFFFF ∧ t.snp = s.snp)) ∧
  (∀ (link : Nat) (s : State),
    let l : Nat := link % 64
    s.pins.powered = true → (s.snp.sync.any fun m => m.link == l) = true → bit (s.linkConfig l) 0 = false →
    ∃ t, exec (.syncTimeout link) s = .next t ∧
      t.fld F.SNP_ISR_FRACTURED = 1 ∧ t.snp.sync = s.snp.sync.filter (fun m => m.link != l) ∧ t.snp.failing = s.snp.failing ∧
      (¬ s.inRing (s.linkAddr l) → memGet t.dram (s.linkAddr l) = 4)) ∧
  (∀ (link : Nat) (s : State),
    let l : Nat := link % 64
    s.pins.powered = true → (s.snp.sync.any fun m => m.link == l) = true → bit (s.linkConfig l) 0 = true →
    ∃ t, exec (.syncTimeout link) s = .next t ∧
      (s.snp.syncDue = [] → t = { s with snp := { s.snp with sync := s.snp.sync.filter (fun m => m.link != l), failing := s.snp.failing.filter (fun k => k != l) ++ [l] } }) ∧
      t.snp.failing = s.snp.failing.filter (fun k => k != l) ++ [l] ∧ t.snp.sync = s.snp.sync.filter (fun m => m.link != l))

/-- A fetched Flush or read takes its number and waits; reads, Flushes and deallocates end in order (03_write_commit.md,
The ordering point; 12_nvme_front_end.md, Pacing and weighted fairness; 12_nvme_front_end.md, What the head
supports; 03_write_commit.md, Write-through). -/
def Obligations.HostCommandsAreTakenAndEnd : Prop :=
  (∀ (q : Nat) (c : HostCmd) (s : State),
    let u : State := s.testPacing
    let v : State := (u.takeHead q (u.cmdBytes q c) c.op).setAdmitHeld false
    let i : Nat := v.volHome (v.nsVolume c.nsid)
    s.pins.powered = true → q < 65536 → c.op = .flush ∨ c.op = .read → s.flag F.NVQ_CTRL_ENABLE = true → s.qState q = 1 →
    s.inService = true → s.fetchHeld = false → s.ctl.hold.phase < 2 → s.headHeld q c = false → u.cmdBytes q c ≤ u.qDeficit q →
    u.bucketOpen c.op = true → v.fetchStatus q c = hsSuccess → v.serves i = true →
    ∃ t, exec (.commandFetch q c false true) s = .next t ∧
      t.nextSeq i = s.nextSeq i + 1 ∧ t.commit.waiting.length = s.commit.waiting.length + 1 ∧
      t.commit.waiting.any (fun w => w.cmd == c && w.inst == i && w.seq == s.nextSeq i && w.origin.queue == q && !w.open_) = true) ∧
  (∀ (inst seq : Nat) (w : Waiting) (data : Bytes) (s : State),
    let used : List Version := takenVersions (sortBy (fun a b => decide (b.seq ≤ a.seq)) (s.ringVersions (inst % 2) w.volume w.lba seq ++ s.stagedVersions (inst % 2) w.volume w.lba seq)) 0
    s.pins.powered = true → s.waiting? (inst % 2) seq = some w → w.open_ = false → w.cmd.op = .read → w.cmd.pract = true →
    w.count = 1 → w.origin.forwarded = false → lbaf512 (s.nsLbaf w.cmd.nsid) = false → s.pinsFull w = false →
    s.commit.tcpHeld = [] → s.qTcp w.origin.queue = false ∨ s.commit.tcpOut < s.tcpLimit →
    s.settledBelow (inst % 2) seq w.volume w.lba 1 = true → s.heldVersion (inst % 2) w.volume w.lba seq = (0xFF, data, false) →
    used.all (fun v => v.intact) = true → s.silent = false → s.ctl.hold.phase < 2 →
    ∃ t, exec (.readRelease inst seq []) s = .next t ∧
      t.waiting? (inst % 2) seq = none ∧ Sent.hostData w.origin.queue w.cmd.cid w.lba data [] ∈ t.sent ∧
      t.commit.own = s.commit.own) ∧
  (∀ (inst seq : Nat) (w : Waiting) (s : State),
    s.pins.powered = true → s.waiting? (inst % 2) seq = some w → w.cmd.op = .deallocate ∨ w.cmd.op = .writeZeroes →
    s.settledBelow (inst % 2) seq w.volume w.lba w.count = true → s.cutHolds (inst % 2) w.volume seq = false →
    (s.jnl (inst % 2)).hold = false →
    s.commit.waiting.any (fun r => r.inst == inst % 2 && decide (r.seq < seq) && overlaps r.volume r.lba r.count w.volume w.lba w.count) = false →
    w.count ≤ 128 → s.missingFor (inst % 2) w.volume w.lba w.count = none →
    ∃ t, exec (.deallocateApply inst seq) s = .next t ∧
      t.waiting? (inst % 2) seq = none ∧ t.commit.interlock.any (fun r => r.inst == inst % 2 && r.seq == seq) = false ∧
      (w.count ≠ 0 → t.commit.wt.any (fun x => x.inst == inst % 2 && x.seq == seq && x.volume == w.volume && x.lbas == (List.range w.count).map (w.lba + ·)) = true)) ∧
  (∀ (inst seq : Nat) (w : Waiting) (s : State),
    s.pins.powered = true → s.waiting? (inst % 2) seq = some w → w.cmd.op = .flush → s.flushReady w = true →
    w.origin.forwarded = false → s.pathLost w.origin.queue = false → s.commit.tcpHeld = [] → s.silent = false →
    s.ctl.hold.phase < 2 →
    ∃ t, exec (.flushComplete inst seq) s = .next t ∧
      t.waiting? (inst % 2) seq = none ∧ Sent.cqe w.origin.queue w.origin.cid 0 (s.qHead w.origin.queue) ∈ t.sent ∧
      t.commit.own = s.commit.own) ∧
  (∀ (s : State),
    s.pins.powered = true → s.writeThrough = true → 1024 ≤ s.commit.goodTurns → s.commit.turnGood = true → s.wbGood = true →
    ∃ t, exec (.writeThroughExit) s = .next t ∧
      ((s.setFld F.CMT_STATUS_MODE 0).modCommit (fun c => { c with goodTurns := 0 }) |>.setFld F.CMT_ISR_WT_EXIT 1).JournalFrame t ∧
      t.writeThrough = false ∧ t.fld F.CMT_ISR_WT_EXIT = 1 ∧ t.commit.goodTurns = 0) ∧
  (∀ (q : Nat) (s : State),
    s.pins.powered = true → q < 65536 → s.qState q = 2 →
    ∃ t, exec (.queueThaw q) s = .next t ∧
      t.qState q = 1 ∧ t.fld F.NVQ_THAW_QUEUE = q ∧
      t.fld F.NVQ_FROZEN_COUNT = (t.dram.filter fun c => decide (s.nvqBase + 0x100000 ≤ c.1) && decide (c.1 < s.nvqBase + 0x100000 + 2 ^ 22) && (c.1 - (s.nvqBase + 0x100000)) % 64 == 0x0C && c.2 == 2).length % 2 ^ 17 ∧
      (∀ a, a ≠ s.qAddr q + 0x0C → memGet t.dram a = memGet s.dram a) ∧ t = { s with cells := t.cells, dram := t.dram }) ∧
  (∀ (port qpn cntl : Nat) (capsule : Bytes) (s : State),
    let i : Nat := s.fld F.NVQ_ADM_TAIL_INDEX
    let a : Nat := s.nvqBase + 0x2500000 + 128 * i
    let entry : Bytes := leBytes 4 port ++ leBytes 4 qpn ++ leBytes 4 cntl ++ zeros 4 ++ (capsule ++ zeros 112).take 112
    s.pins.powered = true → (i + 1) % 4096 ≠ s.fld F.NVQ_ADM_HEAD_INDEX →
    ∃ t, exec (.adminCapsule port qpn cntl capsule) s = .next t ∧
      t.fld F.NVQ_ADM_TAIL_INDEX = (i + 1) % 2 ^ F.NVQ_ADM_TAIL_INDEX.width ∧ t.fld F.NVQ_ISR_ADMIN = 1 ∧
      (∀ k < 128, ¬ s.inRing (a + k) → some (memGet t.dram (a + k)) = entry[k]?) ∧
      (∀ b, ¬ s.inRing b → (b < a ∨ a + 128 ≤ b) → memGet t.dram b = memGet s.dram b) ∧ t.sent = s.sent) ∧
  (∀ (q cid : Nat) (header data : Bytes) (x : Xfer) (s : State),
    s.pins.powered = true → s.fld F.NVQ_TCP_CFG_LIMIT_PCT ≠ 0 → s.qTcp (q % 65536) = true → s.tcpShut (q % 65536) = false →
    s.commit.tcpIn + data.length ≤ s.tcpLimit → s.xfer? (q % 65536) cid = some x → x.cmd.op = .compare → x.cmd.pract = true →
    x.bytes.length + data.length < x.cmd.nlb * lbaSize (s.xferLbaf x) → s.commit.due = [] →
    ∃ t, exec (.tcpReceiveData q cid header (crc32c header) data (crc32c data) []) s = .next t ∧
      t.commit.tcpIn = s.commit.tcpIn + data.length ∧ (t.xfer? (q % 65536) cid).map (·.bytes) = some (x.bytes ++ data) ∧
      t = { s with commit := t.commit })

/-- A forwarded command is ordered at its home head, and its pieces and data are noted at the receiver
(01_two_heads_one_array.md, Forwarding through the partner; 03_write_commit.md, The ordering point). -/
def Obligations.ForwardedCommandsMoveOn : Prop :=
  (∀ (q : Nat) (c : HostCmd) (s : State),
    let i : Nat := s.volHome (s.nsVolume c.nsid)
    let w : Waiting := ⟨c, i, s.nextSeq i, s.nsVolume c.nsid, 0, 0, ⟨q, c.cid, 0, true⟩, false, [], [], none⟩
    s.pins.powered = true → s.hearsPartner = true → s.commit.fwdIn = [] → c.op = .flush → s.volValid (s.nsVolume c.nsid) = true →
    ∃ t, exec (.forwardedCommand q c) s = .next t ∧
      t.commit = { s.commit with waiting := s.commit.waiting ++ [w], lastSeq := putInst s.commit.lastSeq i (s.nextSeq i) } ∧
      s.JournalFrame { t with commit := s.commit }) ∧
  (∀ (q cid seq own mirror count status : Nat) (f : Fwd) (s : State),
    s.pins.powered = true → s.hearsPartner = true → s.fwd? q cid = some f → count ≠ 0 → count < f.count →
    ∃ t, exec (.forwardedSlotReply q cid seq own mirror count status) s = .next t ∧
      t = { s with commit := t.commit, sent := t.sent, rdt := t.rdt, cells := t.cells, fresh := t.fresh, rpj := t.rpj, dram := t.dram, egress := t.egress } ∧
      t.commit.fwd = s.commit.fwd.flatMap (fun x => if x == f then [{ f with seq := seq, own := own, mirrorFirst := mirror, count := count, replied := true }, { f with lba := f.lba + count, count := f.count - count }] else [x])) ∧
  (∀ (q cid seq own mirror status : Nat) (f : Fwd) (s : State),
    s.pins.powered = true → s.hearsPartner = true → s.fwd? q cid = some f → f.cmd.op = .flush →
    ∃ t, exec (.forwardedSlotReply q cid seq own mirror 0 status) s = .next t ∧
      t.commit.fwd = s.commit.fwd.filter (fun g => g.origin != f.origin) ∧
      t.commit.xfers = s.commit.xfers.filter (fun x => x.origin != f.origin) ∧ t.commit.lastSeq = s.commit.lastSeq) ∧
  (∀ (q cid lba : Nat) (data : Bytes) (f : Fwd) (s : State),
    s.pins.powered = true → s.hearsPartner = true → s.fwd? q cid = some f → f.ended = false →
    ∃ t, exec (.forwardedReadData q cid lba data (carryGuard data)) s = .next t ∧
      t = { s with commit := t.commit } ∧
      t.commit.fwd = s.commit.fwd.map (fun x => if x == f then { f with got := f.got.put (lba - f.lba) data } else x))

/-- What a request packet does: responses, acknowledgements, NAKs, drops and parking (13_rdma_transport.md, Protocol
coverage; 13_rdma_transport.md, The context cache and parking; 13_rdma_transport.md, Duplicates and bobbin
quarantine). -/
def Obligations.RequestPacketsAreTaken : Prop :=
  (∀ (p : RocePkt) (s : State),
    s.pins.powered = true → s.flag F.RDT_CTRL_ENABLE = true → p.whole = true → p.qpn = 1 →
    ∃ t, exec (.roceRequest p) s = .next t ∧
      t = { s with sent := s.sent ++ [Sent.cmPacket p.data] }) ∧
  (∀ (p : RocePkt) (s : State),
    s.pins.powered = true → s.flag F.RDT_CTRL_ENABLE = true → p.whole = false →
    ∃ t, exec (.roceRequest p) s = .next t ∧
      t = { s with cells := t.cells } ∧
      t.fld (F.ETH_DROPS_ICRC (p.port % 16)) = min (s.fld (F.ETH_DROPS_ICRC (p.port % 16)) + 1) (2 ^ (F.ETH_DROPS_ICRC (p.port % 16)).width - 1)) ∧
  (∀ (p : RocePkt) (s : State),
    s.pins.powered = true → s.flag F.RDT_CTRL_ENABLE = true → p.whole = true → p.qpn ≠ 1 → s.qpConnected p.qpn = false →
    ∃ t, exec (.roceRequest p) s = .next t ∧
      t = { s with cells := t.cells } ∧
      t.fld F.RDT_DROPS_NO_QP = min (s.fld F.RDT_DROPS_NO_QP + 1) (2 ^ F.RDT_DROPS_NO_QP.width - 1)) ∧
  (∀ (p : RocePkt) (q : Qp) (s : State),
    let q1 : Qp := { q with rqPsn := (p.psn + 1) % 2 ^ 24, nakSent := false, unacked := 0, ackedPsn := p.psn }
    s.pins.powered = true → s.atHand p.qpn → s.portsOpen → s.prioPaused q.port q.prio = false → p.whole = true → p.qpn ≠ 1 →
    p.ecn = false → s.qp? p.qpn = some q → psnBehind q.rqPsn p.psn = 0 → p.op = .send → p.fieldsOk = true → p.first = q.rx.isNone →
    q.rx.all (fun m => m.op == .send) = true → hasRecv q = false → p.ackReq = true →
    ∃ t, exec (.roceRequest p) s = .next t ∧
      t.qp? p.qpn = some q1 ∧ t.sent = s.sent ++ [Sent.roceAck q.dest p.psn] ∧
      t = { s with cells := t.cells, rdt := { (s.touchCtx p.qpn).rdt with qps := s.rdt.qps.put p.qpn q1 }, sent := t.sent }) ∧
  (∀ (p : RocePkt) (q : Qp) (s : State),
    let q1 : Qp := { q with rqPsn := (p.psn + 1) % 2 ^ 24, nakSent := false, unacked := 0, ackedPsn := p.psn }
    let w : State := s.physWr p.va p.data
    s.pins.powered = true → s.atHand p.qpn → s.portsOpen → s.prioPaused q.port q.prio = false → p.whole = true → p.qpn ≠ 1 →
    p.ecn = false → s.qp? p.qpn = some q → psnBehind q.rqPsn p.psn = 0 → p.op = .write → p.fieldsOk = true → p.first = true →
    p.last = true → p.imm = none → q.rx = none → p.ackReq = true → s.mrAllows q.cls q.tenant p.rkey p.va p.len 2 = true →
    p.data.length = p.len → bit (w.mrAccess (p.rkey / 256)) 4 = false →
    ∃ t, exec (.roceRequest p) s = .next t ∧
      t.sent = w.sent ++ [Sent.roceAck q.dest p.psn] ∧
      t = { w with cells := t.cells, rdt := { (s.touchCtx p.qpn).rdt with qps := s.rdt.qps.put p.qpn q1 }, sent := t.sent }) ∧
  (∀ (p : RocePkt) (q : Qp) (s : State),
    let n : Nat := max 1 (ceilDiv p.len (pmtuBytes q))
    let last : Nat := (p.psn + n - 1) % 2 ^ 24
    let q1 : Qp := { q with rqPsn := (last + 1) % 2 ^ 24, nakSent := false, unacked := 0, ackedPsn := last }
    s.pins.powered = true → s.atHand p.qpn → s.portsOpen → s.prioPaused q.port q.prio = false → p.whole = true → p.qpn ≠ 1 →
    p.ecn = false → s.qp? p.qpn = some q → psnBehind q.rqPsn p.psn = 0 → p.op = .read → p.fieldsOk = true → p.first = true →
    q.rx = none → s.mrAllows q.cls q.tenant p.rkey p.va p.len 1 = true →
    ∃ t, exec (.roceRequest p) s = .next t ∧
      t.sent = s.sent ++ (List.range n).map (fun k => Sent.roceResponse q.dest ((p.psn + k) % 2 ^ 24) (s.physRd (p.va + k * pmtuBytes q) (min (pmtuBytes q) (p.len - k * pmtuBytes q)))) ∧
      t = { s with cells := t.cells, rdt := { (s.touchCtx p.qpn).rdt with qps := s.rdt.qps.put p.qpn q1 }, sent := t.sent }) ∧
  (∀ (p : RocePkt) (q : Qp) (s : State),
    let old : Nat := s.physRdN p.va 8
    let w : State := s.physWrN p.va 8 ((old + p.swap) % 2 ^ 64)
    let q1 : Qp := { q with rqPsn := (p.psn + 1) % 2 ^ 24, nakSent := false, unacked := 0, ackedPsn := p.psn, atomics := (q.atomics ++ [(p.psn, old)]).drop (q.atomics.length + 1 - 16) }
    s.pins.powered = true → s.atHand p.qpn → s.portsOpen → s.prioPaused q.port q.prio = false → p.whole = true → p.qpn ≠ 1 →
    p.ecn = false → s.qp? p.qpn = some q → psnBehind q.rqPsn p.psn = 0 → p.op = .fetchAdd → p.fieldsOk = true → p.first = true →
    q.rx = none → p.va % 8 = 0 → s.mrAllows q.cls q.tenant p.rkey p.va 8 3 = true →
    ∃ t, exec (.roceRequest p) s = .next t ∧
      t.sent = w.sent ++ [Sent.roceResponse q.dest p.psn (leBytes 8 old)] ∧
      t = { w with cells := t.cells, rdt := { (s.touchCtx p.qpn).rdt with qps := s.rdt.qps.put p.qpn q1 }, sent := t.sent }) ∧
  (∀ (p : RocePkt) (q : Qp) (s : State),
    s.pins.powered = true → s.atHand p.qpn → s.portsOpen → s.prioPaused q.port q.prio = false → p.whole = true → p.qpn ≠ 1 →
    p.ecn = false → s.qp? p.qpn = some q → 2 ^ 23 < psnBehind q.rqPsn p.psn →
    ∃ t, exec (.roceRequest p) s = .next t ∧
      (q.nakSent = false → t.sent = s.sent ++ [Sent.roceNak q.dest q.rqPsn .sequence]) ∧ (q.nakSent = true → t.sent = s.sent) ∧
      t = { s with cells := t.cells, rdt := { (s.touchCtx p.qpn).rdt with qps := if q.nakSent then s.rdt.qps else s.rdt.qps.put p.qpn { q with nakSent := true } }, sent := t.sent }) ∧
  (∀ (p : RocePkt) (q : Qp) (s : State),
    s.pins.powered = true → s.atHand p.qpn → s.portsOpen → s.prioPaused q.port q.prio = false → p.whole = true → p.qpn ≠ 1 →
    p.ecn = false → s.qp? p.qpn = some q → psnBehind q.rqPsn p.psn ≠ 0 → psnBehind q.rqPsn p.psn ≤ 1024 →
    p.op = .send ∨ p.op = .write →
    ∃ t, exec (.roceRequest p) s = .next t ∧
      t.sent = s.sent ++ [Sent.roceAck q.dest p.psn] ∧
      t.fld F.RDT_DUP_EVENTS_DUP_ACKED = min (s.fld F.RDT_DUP_EVENTS_DUP_ACKED + 1) (2 ^ F.RDT_DUP_EVENTS_DUP_ACKED.width - 1) ∧
      t = { s with cells := t.cells, rdt := (s.touchCtx p.qpn).rdt, sent := t.sent }) ∧
  (∀ (p : RocePkt) (s : State),
    s.pins.powered = true → s.flag F.RDT_CTRL_ENABLE = true → p.whole = true → p.qpn ≠ 1 → s.qpConnected p.qpn = true →
    s.rdt.cache = [] → s.rdt.parked = [] → s.rdt.writing = [] → s.rdt.fetching = [] →
    ∃ t, exec (.roceRequest p) s = .next t ∧
      t.rdt = { s.rdt with parked := [.request p], fetching := [(p.qpn, none)] } ∧ t.fld F.RDT_PARK_STATUS_PARKED = 1 ∧
      t = { s with cells := t.cells, rdt := t.rdt })

/-- Responses, acknowledgements, NAKs, CNPs, the timers of a queue pair and context fetches (13_rdma_transport.md, Work
requests and completions; 13_rdma_transport.md, The context cache and parking; 13_rdma_transport.md, Congestion
control; 13_rdma_transport.md, RDT registers). -/
def Obligations.AnswersTimersAndContextsTakeEffect : Prop :=
  (∀ (qpn psn : Nat) (data : Bytes) (pi : List PiIn) (at_ : Nat) (q : Qp) (w : OutWqe) (s : State),
    let v : State := s.physWr (w.laddr + w.got * pmtuBytes q) data
    let q1 : Qp := { q with out := [], retriesLeft := q.retry, rnrLeft := q.rnrRetry }
    s.pins.powered = true → s.atHand qpn → s.qp? qpn = some q → s.undragged = true → q.out = [w] → q.readQ = [] → w.reads = true →
    w.host = none → w.signaled = false → (w.first + w.got) % 2 ^ 24 = psn % 2 ^ 24 → w.last = psn % 2 ^ 24 → s.commit.due = [] →
    ∃ t, exec (.roceResponse qpn psn data pi false at_) s = .next t ∧
      t.qp? qpn = some q1 ∧ t = { v with cells := t.cells, rdt := { (s.touchCtx qpn).rdt with qps := s.rdt.qps.put qpn q1 } }) ∧
  (∀ (qpn psn : Nat) (q : Qp) (w : OutWqe) (c : Cq) (s : State),
    let q1 : Qp := { q with out := [], retriesLeft := q.retry, rnrLeft := q.rnrRetry }
    s.pins.powered = true → s.atHand qpn → s.qp? qpn = some q → s.undragged = true → q.out = [w] → w.reads = false →
    psnLe w.last psn = true → s.cq? q.scq = some c → c.bad = false → c.unread < c.size →
    ∃ t, exec (.roceAck qpn psn) s = .next t ∧
      t.qp? qpn = some q1 ∧
      (w.signaled = true → t.rd (c.addr + 32 * c.index) 32 = cqeBytes w.wrId qpn w.len 0 w.op 0 w.index c.phase) ∧
      (w.signaled = false → t.dram = s.dram) ∧ t = { s with cells := t.cells, rdt := t.rdt, dram := t.dram }) ∧
  (∀ (qpn psn : Nat) (q : Qp) (w : OutWqe) (s : State),
    s.pins.powered = true → s.atHand qpn → s.portsOpen → s.prioPaused q.port q.prio = false → s.qp? qpn = some q →
    s.undragged = true → q.out = [w] → (w.reads || !psnLe w.last ((psn + 2 ^ 24 - 1) % 2 ^ 24)) = true → 0 < q.retriesLeft →
    ∃ t, exec (.roceNak qpn psn .sequence) s = .next t ∧
      t.qp? qpn = some { q with retriesLeft := q.retriesLeft - 1 } ∧
      t.sent = s.sent ++ (w.pkts.filter fun p => psnLe psn p.psn).map Sent.roce ∧
      t = { s with cells := t.cells, rdt := t.rdt, sent := t.sent }) ∧
  (∀ (qpn at_ : Nat) (q : Qp) (s : State),
    let g : Nat := s.fld F.RDT_CC_CFG_G
    s.pins.powered = true → s.atHand qpn → s.qp? qpn = some q → s.flag F.RDT_CTRL_CC_EN = true →
    q.cutAt.all (fun c => decide (c + 50000 ≤ at_)) = true →
    ∃ t, exec (.cnpReceive qpn at_) s = .next t ∧
      t.qp? qpn = some { q with rt := q.rc, rc := max (q.rc * (65536 - q.alpha / 2) / 65536) (max 1 (s.fld F.RDT_CC_RATES_MIN_MBPS)), alpha := ((65536 - g) * q.alpha + g * 65536) / 65536, steps := 0, cutAt := some at_ } ∧
      t.fld F.RDT_CNP_COUNTS_RECEIVED = min (s.fld F.RDT_CNP_COUNTS_RECEIVED + 1) (2 ^ F.RDT_CNP_COUNTS_RECEIVED.width - 1) ∧
      t = { s with cells := t.cells, rdt := t.rdt }) ∧
  (∀ (qpn : Nat) (q : Qp) (s : State),
    s.pins.powered = true → s.flag F.RDT_CTRL_CC_EN = true → s.qp? qpn = some q → q.state = 1 →
    ∃ t, exec (.alphaTimer qpn) s = .next t ∧
      t.qp? qpn = some { q with alpha := (65536 - s.fld F.RDT_CC_CFG_G) * q.alpha / 65536 } ∧
      t = { s with rdt := { s.rdt with qps := t.rdt.qps } } ∧ (∀ m, m ≠ qpn → t.qp? m = s.qp? m)) ∧
  (∀ (qpn : Nat) (q : Qp) (s : State),
    let rt : Nat := if 5 ≤ q.steps then min (q.rt + s.fld F.RDT_CC_RATES_AI_MBPS) (s.portRate q.port) else q.rt
    s.pins.powered = true → s.flag F.RDT_CTRL_CC_EN = true → s.qp? qpn = some q → q.state = 1 →
    ∃ t, exec (.increaseTimer qpn) s = .next t ∧
      t.qp? qpn = some { q with rt := rt, rc := (rt + q.rc) / 2, steps := min (q.steps + 1) 255 } ∧
      t = { s with rdt := { s.rdt with qps := t.rdt.qps } } ∧ (∀ m, m ≠ qpn → t.qp? m = s.qp? m)) ∧
  (∀ (qpn : Nat) (q : Qp) (w : OutWqe) (r : List OutWqe) (s : State),
    s.pins.powered = true → s.qp? qpn = some q → s.portsOpen → s.prioPaused q.port q.prio = false → q.out = w :: r → q.state = 1 →
    0 < q.retriesLeft →
    ∃ t, exec (.ackTimeout qpn) s = .next t ∧
      t.qp? qpn = some { q with retriesLeft := q.retriesLeft - 1 } ∧
      t.sent = s.sent ++ (((w :: r).flatMap (·.pkts)).filter fun p => psnLe w.first p.psn).map Sent.roce ∧
      t = { s with rdt := { s.rdt with qps := t.rdt.qps }, sent := t.sent }) ∧
  (∀ (qpn : Nat) (q : Qp) (s : State),
    s.pins.powered = true → s.qp? qpn = some q → s.portsOpen → s.prioPaused q.port q.prio = false → q.state = 1 → q.rnrWait = true →
    ∃ t, exec (.rnrTimerExpiry qpn) s = .next t ∧
      t.qp? qpn = some { q with rnrWait := false } ∧
      t.sent = s.sent ++ ((q.out.flatMap (·.pkts)).filter fun p => psnLe ((q.out.head?.map (·.first)).getD q.sqPsn) p.psn).map Sent.roce ∧
      t = { s with rdt := { s.rdt with qps := t.rdt.qps }, sent := t.sent }) ∧
  (∀ (qpn : Nat) (v : Option Nat) (s : State),
    s.pins.powered = true → s.rdt.fetching.find? (fun f => f.1 == qpn) = some (qpn, v) →
    (s.rdt.parked.any fun p => pktQpn p == qpn) = false →
    ∃ t, exec (.qpContextFetched qpn false) s = .next t ∧
      t.rdt.cache = qpn :: (s.rdt.cache.filter fun c => some c != v).filter (fun c => c != qpn) ∧
      t.rdt.fetching = s.rdt.fetching.filter (fun g => g.1 != qpn) ∧ t.rdt.writing = s.rdt.writing ++ v.toList ∧
      t.fld F.RDT_CACHE_STATUS_CACHED = t.rdt.cache.length % 2 ^ F.RDT_CACHE_STATUS_CACHED.width ∧
      t = { s with cells := t.cells, rdt := { s.rdt with cache := t.rdt.cache, fetching := t.rdt.fetching, writing := t.rdt.writing } }) ∧
  (∀ (qpn : Nat) (s : State),
    s.pins.powered = true → s.rdt.writing.contains qpn = true → (s.rdt.parked.any fun p => pktQpn p == qpn) = false →
    ∃ t, exec (.qpContextWritebackDone qpn) s = .next t ∧
      t = { s with rdt := { s.rdt with writing := s.rdt.writing.filter (fun n => n != qpn) } })

/-- Send work requests, tally waits and the RDT_CMD operations (13_rdma_transport.md, Queue pair classes;
13_rdma_transport.md, Creating queues and regions; 13_rdma_transport.md, Work requests and completions;
13_rdma_transport.md, Tally waits; 13_rdma_transport.md, RDT registers). -/
def Obligations.QueuePairsAndWorkTakeEffect : Prop :=
  (∀ (qpn : Nat) (q : Qp) (s : State),
    let k : Nat := q.sqHead % q.sqSize
    let w : Wqe := s.readWqe (q.sqAddr + 64 * k)
    let q1 : Qp := { q with sqHead := q.sqHead + 1 }
    let data : Bytes := if w.isInline then w.inline_.take w.len else s.physRd w.local_ w.len
    let pkts : List RocePkt := dataPkts q1 .send (if w.op = 2 then some w.aux else none) 0 0 data
    s.pins.powered = true → s.qp? qpn = some q → s.portsOpen → s.prioPaused q.port q.prio = false →
    s.flag F.RDT_CTRL_ENABLE = true → q.sqSize ≠ 0 → q.state = 1 → q.tally = none → q.rnrWait = false → w.reserved = false →
    w.op = 1 ∨ w.op = 2 → w.fence = false → s.wqeError q w = 0 →
    ∃ t, exec (.sendWqe qpn) s = .next t ∧
      t.qp? qpn = some { q1 with sqPsn := (q.sqPsn + pkts.length) % 2 ^ 24, retriesLeft := q.retry, rnrLeft := q.rnrRetry, out := q.out ++ [{ w.out k pkts with first := q.sqPsn, last := (q.sqPsn + pkts.length - 1) % 2 ^ 24 }] } ∧
      t.sent = s.sent ++ pkts.map Sent.roce ∧ t = { s with rdt := { s.rdt with qps := t.rdt.qps }, sent := t.sent } ∧
      (∀ m, m ≠ qpn → t.qp? m = s.qp? m)) ∧
  (∀ (qpn : Nat) (q : Qp) (s : State),
    let k : Nat := q.sqHead % q.sqSize
    let w : Wqe := s.readWqe (q.sqAddr + 64 * k)
    let q1 : Qp := { q with sqHead := q.sqHead + 1 }
    let p : RocePkt := mkPkt q1 q.sqPsn .read w.remote w.rkey w.len
    let n : Nat := max 1 (ceilDiv w.len (pmtuBytes q))
    s.pins.powered = true → s.qp? qpn = some q → s.portsOpen → s.prioPaused q.port q.prio = false →
    s.flag F.RDT_CTRL_ENABLE = true → q.sqSize ≠ 0 → q.state = 1 → q.tally = none → q.rnrWait = false → w.reserved = false →
    w.op = 5 → (q.out.filter OutWqe.reads).length < 16 → w.fence = false → s.wqeError q w = 0 →
    ∃ t, exec (.sendWqe qpn) s = .next t ∧
      t.qp? qpn = some { q1 with sqPsn := (q.sqPsn + n) % 2 ^ 24, retriesLeft := q.retry, rnrLeft := q.rnrRetry, out := q.out ++ [{ w.out k [p] with first := q.sqPsn, last := (q.sqPsn + n - 1) % 2 ^ 24 }] } ∧
      t.sent = s.sent ++ [Sent.roce p] ∧ t = { s with rdt := { s.rdt with qps := t.rdt.qps }, sent := t.sent }) ∧
  (∀ (qpn : Nat) (q : Qp) (c : Cq) (s : State),
    let k : Nat := q.sqHead % q.sqSize
    let w : Wqe := s.readWqe (q.sqAddr + 64 * k)
    s.pins.powered = true → s.qp? qpn = some q → s.flag F.RDT_CTRL_ENABLE = true → q.sqSize ≠ 0 → q.state = 1 → q.tally = none →
    q.rnrWait = false → w.reserved = false → w.op = 9 → s.tallyCq q w = some c → s.undragged = true →
    ∃ t, exec (.sendWqe qpn) s = .next t ∧
      ((tallyMet c.count w.remote = true ∧ w.signaled = false) → t.qp? qpn = some { q with sqHead := q.sqHead + 1 } ∧ t.dram = s.dram) ∧
      ((tallyMet c.count w.remote = false ∧ s.fld F.RDT_TALLY_CFG_PENDING < 4096) → t.qp? qpn = some { q with tally := some s.turn } ∧ t.dram = s.dram) ∧
      t.sent = s.sent) ∧
  (∀ (qpn since : Nat) (q : Qp) (c : Cq) (s : State),
    let w : Wqe := (s.headWqe q).2
    s.pins.powered = true → s.qp? qpn = some q → q.tally = some since → s.tallyCq q w = some c → tallyMet c.count w.remote = true →
    w.signaled = false → s.undragged = true →
    ∃ t, exec (.tallyWaitRelease qpn) s = .next t ∧
      t.qp? qpn = some { q with tally := none, sqHead := q.sqHead + 1 } ∧ t = { s with cells := t.cells, rdt := t.rdt }) ∧
  (∀ (qpn since : Nat) (q : Qp) (s : State),
    s.pins.powered = true → s.qp? qpn = some q → q.tally = some since → q.state = 1 →
    since + max 1 (s.fld F.RDT_TALLY_TIMEOUT_TIMEOUT) ≤ s.turn →
    ∃ t, exec (.tallyWaitTimeout qpn) s = .next t ∧
      (t.qp? qpn).any (fun r => r.state == 2 && r.tally.isNone && r.out.isEmpty && r.sqHead == q.sqHead + 1) = true) ∧
  (∀ (arg addr n : Nat) (q : Qp) (s : State),
    let u : State := s.rdtStart 0 arg addr id
    s.pins.powered = true → s.flag F.RDT_CMD_BUSY = false →
    u.qpBlock (u.base F.RDT_CMD_ADDR_LO_ADDR F.RDT_CMD_ADDR_HI_ADDR 6) = some (n, q) → s.qp? n = none →
    q.cls = 0 ∨ s.rdt.disabled.contains q.tenant = false → s.queuesMatch q = true →
    (s.rdt.qps.filter fun p => p.2.cls == 1).length < 65536 →
    ∃ t, exec (.createQp arg addr) s = .next t ∧
      s.Answered t 0x130002C [(F.RDT_CMD_RESULT_CODE, 0)] ∧ t.fld F.RDT_ISR_CMD_DONE = 1 ∧
      t.rdt = { s.rdt with qps := s.rdt.qps.put n q } ∧ t.sent = s.sent ∧ (∀ b, ¬ s.inRing b → memGet t.dram b = memGet s.dram b)) ∧
  (∀ (qpn : Nat) (q : Qp) (s : State),
    let n : Nat := qpn % 2 ^ 24
    let r : Nat := s.portRate q.port
    s.pins.powered = true → s.flag F.RDT_CMD_BUSY = false → s.qp? n = some q →
    q.cls = 0 ∨ s.rdt.disabled.contains q.tenant = false → q.state = 0 →
    ∃ t, exec (.modifyQpConnected qpn) s = .next t ∧
      s.Answered t 0x130002C [(F.RDT_CMD_RESULT_CODE, 0)] ∧ t.fld F.RDT_ISR_CMD_DONE = 1 ∧
      t.rdt = { s.rdt with qps := s.rdt.qps.put n { q with state := 1, rc := r, rt := r, alpha := 65536 } }) ∧
  (∀ (qpn : Nat) (q : Qp) (s : State),
    s.pins.powered = true → s.flag F.RDT_CMD_BUSY = false → s.qp? (qpn % 2 ^ 24) = some q →
    q.cls = 0 ∨ s.rdt.disabled.contains q.tenant = false → s.commit.own = [] →
    ∃ t, exec (.modifyQpError qpn) s = .next t ∧
      s.Answered t 0x130002C [(F.RDT_CMD_RESULT_CODE, 0)] ∧ t.fld F.RDT_ISR_CMD_DONE = 1 ∧
      (t.qp? (qpn % 2 ^ 24)).any (fun r => r.state == 2) = true) ∧
  (∀ (qpn : Nat) (s : State),
    let n : Nat := qpn % 2 ^ 24
    let k : Nat := (s.rdt.parked.filter fun p => pktQpn p == n).length
    s.pins.powered = true → s.flag F.RDT_CMD_BUSY = false → (s.qp? n).isSome = true →
    ∃ t, exec (.destroyQp qpn) s = .next t ∧
      s.Answered t 0x130002C [(F.RDT_CMD_RESULT_CODE, 0)] ∧ t.fld F.RDT_ISR_CMD_DONE = 1 ∧ t.qp? n = none ∧
      t.rdt = { s.rdt with qps := s.rdt.qps.del n, parked := s.rdt.parked.filter (fun p => pktQpn p != n), cache := s.rdt.cache.filter (fun m => m != n), fetching := s.rdt.fetching.filter (fun f => f.1 != n), writing := s.rdt.writing.filter (fun m => m != n) } ∧
      t.fld F.RDT_DROPS_NO_QP = min (s.fld F.RDT_DROPS_NO_QP + k) (2 ^ F.RDT_DROPS_NO_QP.width - 1)) ∧
  (∀ (cq cls tenant addr size : Nat) (s : State),
    s.pins.powered = true → s.flag F.RDT_CMD_BUSY = false → cq < 16384 → cls < 2 → tenant < 4096 → cls = 1 ∨ tenant = 0 →
    0 < size → s.cq? cq = none →
    ∃ t, exec (.createCq cq cls tenant addr size) s = .next t ∧
      s.Answered t 0x130002C [(F.RDT_CMD_RESULT_CODE, 0)] ∧ t.fld F.RDT_ISR_CMD_DONE = 1 ∧
      t.rdt = { s.rdt with cqs := s.rdt.cqs.put cq ⟨cls, tenant, addr, size, 0, 1, 0, 0, false⟩ }) ∧
  (∀ (cq : Nat) (s : State),
    let c : Nat := cq % 2 ^ 24
    s.pins.powered = true → s.flag F.RDT_CMD_BUSY = false → (s.cq? c).isSome = true →
    (s.rdt.qps.any fun p => p.2.scq == c || p.2.rcq == c) = false →
    ∃ t, exec (.destroyCq cq) s = .next t ∧
      s.Answered t 0x130002C [(F.RDT_CMD_RESULT_CODE, 0)] ∧ t.fld F.RDT_ISR_CMD_DONE = 1 ∧
      t.rdt = { s.rdt with cqs := s.rdt.cqs.del c }) ∧
  (∀ (srq cls tenant addr size : Nat) (s : State),
    s.pins.powered = true → s.flag F.RDT_CMD_BUSY = false → srq < 1024 → cls < 2 → tenant < 4096 → cls = 1 ∨ tenant = 0 →
    0 < size → s.rdt.srqs.get? srq = none →
    ∃ t, exec (.createSrq srq cls tenant addr size) s = .next t ∧
      s.Answered t 0x130002C [(F.RDT_CMD_RESULT_CODE, 0)] ∧ t.fld F.RDT_ISR_CMD_DONE = 1 ∧
      t.rdt = { s.rdt with srqs := s.rdt.srqs.put srq { cls := cls, tenant := tenant, addr := addr, size := size } }) ∧
  (∀ (srq : Nat) (s : State),
    let c : Nat := srq % 2 ^ 24
    s.pins.powered = true → s.flag F.RDT_CMD_BUSY = false → (s.rdt.srqs.get? c).isSome = true →
    (s.rdt.qps.any fun p => p.2.srq == c + 1) = false →
    ∃ t, exec (.destroySrq srq) s = .next t ∧
      s.Answered t 0x130002C [(F.RDT_CMD_RESULT_CODE, 0)] ∧ t.fld F.RDT_ISR_CMD_DONE = 1 ∧
      t.rdt = { s.rdt with srqs := s.rdt.srqs.del c }) ∧
  (∀ (tenant : Nat) (s : State),
    let n : Nat := tenant % 2 ^ 24
    s.pins.powered = true → s.flag F.RDT_CMD_BUSY = false →
    ∃ t, exec (.tenantReenable tenant) s = .next t ∧
      (n < 4096 → s.Answered t 0x130002C [(F.RDT_CMD_RESULT_CODE, 0)] ∧ t.rdt = { s.rdt with disabled := s.rdt.disabled.filter (fun m => m != n), errTurns := s.rdt.errTurns.del n }) ∧
      (4096 ≤ n → s.Answered t 0x130002C [(F.RDT_CMD_RESULT_CODE, 2)] ∧ t.rdt = s.rdt) ∧ t.fld F.RDT_ISR_CMD_DONE = 1) ∧
  (∀ (op : Nat) (s : State),
    s.pins.powered = true → s.flag F.RDT_CMD_BUSY = false →
    ∃ t, exec (.rdtReservedOp op) s = .next t ∧
      s.Answered t 0x130002C [(F.RDT_CMD_RESULT_CODE, 7)] ∧ t.fld F.RDT_ISR_CMD_DONE = 1 ∧ t.rdt = s.rdt ∧ t.sent = s.sent ∧
      (∀ b, ¬ s.inRing b → memGet t.dram b = memGet s.dram b))

/-- Ethernet links, PFC frames and the release of a quarantined bobbin (13_rdma_transport.md, Ethernet ports;
13_rdma_transport.md, ETH registers; 13_rdma_transport.md, Duplicates and bobbin quarantine). -/
def Obligations.EthernetPortsAndQuarantineTakeEffect : Prop :=
  (∀ (port : Nat) (s : State),
    let p : Nat := port % 16
    let n : Nat := (s.pattern.ethernet[p / 4]?).getD 0
    s.pins.powered = true → s.flag (F.ETH_PORT_CTRL_ENABLE p) = true → portUsed s.pattern.ethernet p = true → s.pins.portsOn = true →
    ∃ t, exec (.ethLinkUp port) s = .next t ∧
      t.fld (F.ETH_PORT_STATUS_UP p) = 1 ∧ t.fld (F.ETH_PORT_STATUS_FEC_LOCK p) = 1 ∧
      t.fld (F.ETH_PORT_STATUS_AN_DONE p) = s.fld (F.ETH_PORT_CTRL_AN_EN p) ∧
      t.fld (F.ETH_PORT_STATUS_SPEED p) = (if n = 1 then 3 else if n = 2 then 2 else 1) ∧
      t.fld (F.ETH_PORT_STATUS_LANES p) = 4 / n % 2 ^ (F.ETH_PORT_STATUS_LANES p).width ∧ t.fld F.ETH_ISR_LINK_UP = 1 ∧
      t.sent = s.sent ∧ (∀ b, ¬ s.inRing b → memGet t.dram b = memGet s.dram b)) ∧
  (∀ (port : Nat) (s : State),
    let p : Nat := port % 16
    s.pins.powered = true →
    ∃ t, exec (.ethLinkDown port) s = .next t ∧
      t.fld (F.ETH_PORT_STATUS_UP p) = 0 ∧ t.fld (F.ETH_PORT_STATUS_FEC_LOCK p) = 0 ∧ t.fld (F.ETH_PORT_STATUS_AN_DONE p) = 0 ∧
      t.fld (F.ETH_PORT_STATUS_SPEED p) = 0 ∧
      t.fld F.ETH_ISR_LINK_DOWN = (if s.flag (F.ETH_PORT_STATUS_UP p) then 1 else s.fld F.ETH_ISR_LINK_DOWN) ∧ t.sent = s.sent ∧
      (∀ b, ¬ s.inRing b → memGet t.dram b = memGet s.dram b)) ∧
  (∀ (port mask pause : Nat) (s : State),
    let p : Nat := port % 16
    let was : Nat := (s.rdt.paused.get? p).getD 0
    s.pins.powered = true → s.egress = [] → (s.rdt.qps.all fun x => x.2.sendQ.isEmpty) = true →
    ∃ t, exec (.pfcFrameReceive port mask pause) s = .next t ∧
      t.fld (F.ETH_PAUSE_RX p) = min (s.fld (F.ETH_PAUSE_RX p) + 1) (2 ^ (F.ETH_PAUSE_RX p).width - 1) ∧
      (∀ j, j < 8 → bit ((t.rdt.paused.get? p).getD 0) j = if bit mask j then decide (pause % 65536 ≠ 0) && bit (s.fld (F.ETH_PORT_CTRL_PFC_EN p)) j else bit was j) ∧
      (∀ j, j < 8 → bit (mask &&& s.fld (F.ETH_PORT_CTRL_PFC_EN p)) j = true → t.rdt.pauseEnd.get? (8 * p + j) = some (s.turn + 1 + ceilDiv (pause % 65536 * 512000) (s.portRate p * s.periodNs))) ∧
      t = { s with cells := t.cells, rdt := { s.rdt with paused := t.rdt.paused, pauseEnd := t.rdt.pauseEnd } }) ∧
  (∀ (pool index : Nat) (s : State),
    let p : Nat := pool % 64
    let q : List Nat := (s.bbm.quar.get? p).getD []
    let aged : Bool := decide (max 1 (s.fld F.RDT_QUAR_CFG_QUAR_TURNS) ≤ (s.turn + 2 ^ 32 - s.physRdN (s.metaAddr p index + 12) 4) % 2 ^ 32)
    s.pins.powered = true → q.contains index = true → s.qp? (s.link p index) = none →
    ∃ t, exec (.quarantineRelease pool index) s = .next t ∧
      (aged = false → t = s) ∧ (aged = true → t.bbm.quar.get? p = some (q.filter fun k => k != index)) ∧
      (aged = true → t.rdt = s.rdt ∧ t.sent = s.sent))

/-- Cache requests, fills and writebacks (14_cache_and_bobbins.md, Geometry and coherence; 14_cache_and_bobbins.md,
Evictions and the victim buffer; 14_cache_and_bobbins.md, DRAM controllers). -/
def Obligations.CacheRequestsSeeTheNewestBytes : Prop :=
  (∀ (r : MemReq) (w : Nat) (c : CLine) (s : State),
    s.pins.powered = true → inWindow r.addr = false → inSpad r.addr = false → s.installed r.addr = true →
    (s.scc.misses.any fun m => m.line == r.addr / 64) = false → s.wayOf (r.addr / 64) = some w →
    s.scc.lines.get? (wayKey (r.addr / 64) w) = some c → r.data = none →
    ∃ t, exec (.cacheRequest r MemErr.none) s = .next t ∧
      t.sent = s.sent ++ [Sent.memData r.cls r.addr (s.rd r.addr r.len) (s.poisoned (r.addr / 64))] ∧ t.dram = s.dram ∧
      t.scc.lines = s.scc.lines) ∧
  (∀ (r : MemReq) (w : Nat) (c : CLine) (d : Bytes) (s : State),
    s.pins.powered = true → inWindow r.addr = false → inSpad r.addr = false → s.installed r.addr = true →
    (s.scc.misses.any fun m => m.line == r.addr / 64) = false → s.wayOf (r.addr / 64) = some w →
    s.scc.lines.get? (wayKey (r.addr / 64) w) = some c → r.data = some d →
    ∃ t, exec (.cacheRequest r MemErr.none) s = .next t ∧
      t.dram = memWrite s.dram r.addr d ∧
      (t.scc.lines.get? (wayKey (r.addr / 64) w)).map (fun l => (l.line, l.dirty)) = some (c.line, true) ∧ t.sent = s.sent) ∧
  (∀ (r : MemReq) (e : MemErr) (s : State),
    s.pins.powered = true → inWindow r.addr = false → inSpad r.addr = false → s.installed r.addr = false →
    ∃ t, exec (.cacheRequest r e) s = .next t ∧
      t.fld F.DMC_ISR_ADDR_ERR = 1 ∧ (r.data = none → t.sent = s.sent ++ [Sent.memData r.cls r.addr (zeros r.len) true]) ∧
      (r.data ≠ none → t.sent = s.sent) ∧ (∀ a, ¬ s.inRing a → memGet t.dram a = memGet s.dram a)) ∧
  (∀ (line : Nat) (r : MemReq) (way : Nat) (s : State),
    s.pins.powered = true → s.scc.misses = [{ line := line, reqs := [r], filled := false }] → s.scc.waiting = [] → r.data = none →
    s.effMask r.cls ≠ [] → s.pickWay line (s.effMask r.cls) = way → s.scc.lines.get? (wayKey line way) = none →
    ∃ t, exec (.lineFill line MemErr.none) s = .next t ∧
      t.scc.misses = [] ∧ t.scc.lines.get? (wayKey line way) = some { line := line, dirty := false, old := [] } ∧
      t.sent = s.sent ++ [Sent.memData r.cls r.addr (s.rd r.addr r.len) (s.poisoned (r.addr / 64))] ∧ t.dram = s.dram) ∧
  (∀ (line : Nat) (v : Victim) (s : State),
    s.pins.powered = true → s.victim? line = some v → s.scc.misses = [] → s.scc.waiting = [] →
    ∃ t, exec (.victimWritebackDone line) s = .next t ∧
      t = s.dropVictim line)

/-- Range operations act on every cached line of the range; scratchpad accesses stay in the scratchpad
(14_cache_and_bobbins.md, Range operations; 14_cache_and_bobbins.md, Scratchpad ways). -/
def Obligations.RangeOperationsAndScratchpad : Prop :=
  (∀ (who : Requester) (s : State),
    let a : Nat := s.pair F.SCC_RANGE_ADDR_LO_VALUE F.SCC_RANGE_ADDR_HI_VALUE / 64 * 64
    let n : Nat := s.pair F.SCC_RANGE_LEN_LO_VALUE F.SCC_RANGE_LEN_HI_VALUE / 64 * 64
    s.pins.powered = true → s.flag F.SCC_RANGE_CMD_BUSY = false → n ≠ 0 → n ≤ 2 ^ 40 →
    ∃ t, exec (.rangeClean who) s = .next t ∧
      (∀ p ∈ s.scc.lines, a ≤ 64 * p.2.line → 64 * p.2.line < a + n → ∃ c, t.scc.lines.get? p.1 = some c ∧ c.dirty = false) ∧
      (∀ x, ¬ s.inRing x → memGet t.dram x = memGet s.dram x) ∧ t.fld F.SCC_ISR_RANGE_DONE = 1 ∧
      s.Answered t 0x600054 [(F.SCC_RANGE_RESULT_CODE, 0)]) ∧
  (∀ (who : Requester) (s : State),
    let a : Nat := s.pair F.SCC_RANGE_ADDR_LO_VALUE F.SCC_RANGE_ADDR_HI_VALUE / 64 * 64
    let n : Nat := s.pair F.SCC_RANGE_LEN_LO_VALUE F.SCC_RANGE_LEN_HI_VALUE / 64 * 64
    s.pins.powered = true → s.flag F.SCC_RANGE_CMD_BUSY = false → n ≠ 0 → n ≤ 2 ^ 40 →
    ∃ t, exec (.rangeCleanInvalidate who) s = .next t ∧
      (∀ p ∈ s.scc.lines, a ≤ 64 * p.2.line → 64 * p.2.line < a + n → t.scc.lines.get? p.1 = none) ∧
      (∀ x, ¬ s.inRing x → memGet t.dram x = memGet s.dram x) ∧ s.Answered t 0x600054 [(F.SCC_RANGE_RESULT_CODE, 0)]) ∧
  (∀ (s : State),
    let a : Nat := s.pair F.SCC_RANGE_ADDR_LO_VALUE F.SCC_RANGE_ADDR_HI_VALUE / 64 * 64
    let n : Nat := s.pair F.SCC_RANGE_LEN_LO_VALUE F.SCC_RANGE_LEN_HI_VALUE / 64 * 64
    s.pins.powered = true → s.flag F.SCC_RANGE_CMD_BUSY = false → n ≠ 0 → n ≤ 2 ^ 40 →
    ∃ t, exec (.rangeInvalidate .referee) s = .next t ∧
      (∀ p ∈ s.scc.lines, a ≤ 64 * p.2.line → 64 * p.2.line < a + n → t.scc.lines.get? p.1 = none) ∧
      s.Answered t 0x600054 [(F.SCC_RANGE_RESULT_CODE, 0)]) ∧
  (∀ (who : Requester) (s : State),
    s.pins.powered = true → who ≠ Requester.referee → s.flag F.SCC_RANGE_CMD_BUSY = false →
    ∃ t, exec (.rangeInvalidate who) s = .next t ∧
      t.scc = s.scc ∧ s.Answered t 0x600054 [(F.SCC_RANGE_RESULT_CODE, 1)]) ∧
  (∀ (who : Requester) (s : State),
    s.pins.powered = true → s.flag F.SCC_RANGE_CMD_BUSY = false →
    ∃ t, exec (.rangeReservedOp who) s = .next t ∧
      t.scc = s.scc ∧ s.Answered t 0x600054 [(F.SCC_RANGE_RESULT_CODE, 3)]) ∧
  (∀ (off len k : Nat) (data : Option Bytes) (s : State),
    s.pins.powered = true → s.spadPlace off = some k → off + (data.getD []).length ≤ spadSize →
    ∃ t, exec (.scratchpadAccess off len data MemErr.none) s = .next t ∧
      (∀ a, ¬ s.inRing a → memGet t.dram a = memGet s.dram a) ∧
      (data = none → t.scc.spad = s.scc.spad ∧ t.sent = s.sent ++ [Sent.memData 0 (spadBase + off) (s.physRd (spadBase + off) len)
      (s.scc.spadPoison.any fun w => decide (k / 8 ≤ w) && decide (w * 8 < k + len))]) ∧
      (∀ d, data = some d → t.scc.spad = (s.physWr (spadBase + off) d).scc.spad ∧ t.sent = s.sent)) ∧
  (∀ (off len : Nat) (data : Option Bytes) (e : MemErr) (s : State),
    s.pins.powered = true → s.spadPlace off = none →
    ∃ t, exec (.scratchpadAccess off len data e) s = .next t ∧
      t.fld F.SCC_ISR_SPAD_RANGE = 1 ∧ t.scc = s.scc ∧
      (data = none → t.sent = s.sent ++ [Sent.memData 0 (spadBase + off) (zeros len) false]))

/-- Patrol scrub and post-package repair (14_cache_and_bobbins.md, DRAM controllers). -/
def Obligations.MemoryUpkeepTakesEffect : Prop :=
  (∀ (rows : List RowErrs) (bad : List Nat) (s : State),
    s.pins.powered = true → s.fld F.DMC_SCRUB_CFG_HOURS ≠ 0 →
    ∃ t, exec (.patrolScrub rows bad) s = .next t ∧
      (∀ a ∈ bad, a / 64 ∈ t.scc.poison) ∧ ((∃ r ∈ rows, r.count ≠ 0) → t.fld F.DMC_ISR_CORR = 1) ∧
      ((∃ r ∈ rows, r.count ≠ 0 ∧ s.fld F.DMC_SCRUB_CFG_ROW_LIMIT ≤ r.count) → t.fld F.DMC_ISR_PPR_ADVISED = 1) ∧
      (bad ≠ [] → t.fld F.DMC_ISR_UNCORR = 1)) ∧
  (∀ (spare : Bool) (s : State),
    s.pins.powered = true → s.flag F.DMC_PPR_CMD_BUSY = false →
    ∃ t, exec (.softRepair spare) s = .next t ∧
      t.fld F.DMC_ISR_PPR_DONE = 1 ∧
      s.Answered t 0x700010 [(F.DMC_PPR_RESULT_CODE, if 11 < s.fld F.DMC_PPR_ROW_CHANNEL then 3 else if spare = true then 0 else 1)]) ∧
  (∀ (spare : Bool) (s : State),
    s.pins.powered = true → s.flag F.DMC_PPR_CMD_BUSY = false →
    ∃ t, exec (.hardRepair spare) s = .next t ∧
      t.fld F.DMC_ISR_PPR_DONE = 1 ∧
      (s.Answered t 0x700010 [(F.DMC_PPR_RESULT_CODE, if 11 < s.fld F.DMC_PPR_ROW_CHANNEL then 3
      else if s.headState ≠ stCastOn ∨ 7 < s.fld F.GLB_CASTON_STATUS_STEP then 2 else if spare = true then 0 else 1)]))

/-- Allocation takes the head of a pool's free list; references rise and fall by one; INIT frees the whole pool
(14_cache_and_bobbins.md, Bobbin pools). -/
def Obligations.BobbinOperationsKeepCounts : Prop :=
  (∀ (cls tenant pool : Nat) (s : State),
    s.pins.powered = true → pool < 64 → tenant < 4096 → s.flag (F.BBM_POOL_CTRL_ENABLE pool) = true →
    s.flag (F.BBM_POOL_STATUS_CORRUPT pool) = false → s.poolTenant pool = tenant → s.freeCount pool ≠ 0 →
    tenant = 0 ∨ s.quotaUsed tenant + s.poolUnits pool ≤ s.quotaLimit tenant → s.poolHead pool < s.poolCount pool →
    s.bobState pool (s.poolHead pool) = 0 →
    ∃ t, exec (.bobbinAllocate cls tenant pool) s = .next t ∧
      t.sent = s.sent ++ [Sent.bobbin cls tenant (pool * 2 ^ 26 + s.poolHead pool) 0] ∧
      t.poolHead pool = s.link pool (s.poolHead pool) ∧ t.fld (F.BBM_POOL_STATUS_FREE_COUNT pool) = (s.freeCount pool - 1) % 2 ^ 26) ∧
  (∀ (tenant pool : Nat) (s : State),
    s.pins.powered = true → pool < 64 → tenant < 4096 → s.flag F.BBM_ALLOC_CMD_BUSY = false →
    s.flag (F.BBM_POOL_CTRL_ENABLE pool) = true → s.flag (F.BBM_POOL_STATUS_CORRUPT pool) = false → s.poolTenant pool = tenant →
    s.freeCount pool ≠ 0 → tenant = 0 ∨ s.quotaUsed tenant + s.poolUnits pool ≤ s.quotaLimit tenant →
    s.poolHead pool < s.poolCount pool → s.bobState pool (s.poolHead pool) = 0 →
    ∃ t, exec (.allocCmd pool tenant) s = .next t ∧
      s.Answered t 0x800014 [(F.BBM_ALLOC_RESULT_LO_CODE, 0), (F.BBM_ALLOC_RESULT_HI_HANDLE, pool * 2 ^ 26 + s.poolHead pool)] ∧
      t.poolHead pool = s.link pool (s.poolHead pool) ∧ t.fld F.BBM_ISR_ALLOC_DONE = 1) ∧
  (∀ (tenant handle : Nat) (s : State),
    s.pins.powered = true → s.mayRef tenant handle = true → s.refCount (handlePool handle) (handleIndex handle) < 0xFFFF →
    ∃ t, exec (.bobbinIncrement tenant handle) s = .next t ∧
      t = s.setRef (handlePool handle) (handleIndex handle) (s.refCount (handlePool handle) (handleIndex handle) + 1)) ∧
  (∀ (tenant handle : Nat) (s : State),
    s.pins.powered = true → s.mayRef tenant handle = true → 2 ≤ s.refCount (handlePool handle) (handleIndex handle) →
    ∃ t, exec (.bobbinFree tenant handle) s = .next t ∧
      t = s.setRef (handlePool handle) (handleIndex handle) (s.refCount (handlePool handle) (handleIndex handle) - 1)) ∧
  (∀ (tenant handle : Nat) (s : State),
    s.pins.powered = true → s.mayRef tenant handle = false →
    ∃ t, exec (.bobbinFree tenant handle) s = .next t ∧
      ((s.setFld F.BBM_EVENTS_REFUSED (min (s.fld F.BBM_EVENTS_REFUSED + 1) (2 ^ F.BBM_EVENTS_REFUSED.width - 1))).setFld F.BBM_ISR_REFUSED 1).JournalFrame t) ∧
  (∀ (pool : Nat) (s : State),
    s.pins.powered = true → pool < 64 → s.flag (F.BBM_POOL_CTRL_ENABLE pool) = false → s.poolCount pool ≠ 0 →
    ∃ t, exec (.poolInit pool) s = .next t ∧
      t.fld (F.BBM_POOL_STATUS_FREE_COUNT pool) = s.poolCount pool ∧ t.fld (F.BBM_POOL_STATUS_CORRUPT pool) = 0 ∧
      t.poolHead pool = 0 ∧ t.poolTail pool = s.poolCount pool - 1 ∧
      (∀ a, (a < s.metaAddr pool 0 ∨ s.metaAddr pool (s.poolCount pool) ≤ a) → ¬ s.inRing a → memGet t.dram a = memGet s.dram a))

/-- A key command of another requester than the Referee cores changes no slot and answers code 0x1
(15_keys_and_ciphers.md, Key slots). -/
def Obligations.OnlyTheRefereeCoresRunKeyCommands : Prop :=
  ∀ (who : Requester) (op slot : Nat) (s : State), s.pins.powered = true → who ≠ Requester.referee → s.flag F.SEC_KEY_CMD_BUSY = false →
    ∀ c ∈ [Instr.keyLoad who slot, .keyUnwrap who slot, .keyGenerate who slot, .keyWrap who slot, .keyClear who slot, .keyQuery who slot,
      .setPhase who slot, .keyReservedOp who op slot],
    ∃ t, exec c s = .next t ∧ t.sec = s.sec ∧ s.Answered t keyRes [(F.SEC_KEY_RESULT_CODE, 1)] ∧ t.fld F.SEC_ISR_KEY_DONE = 1

/-- LOAD, UNWRAP and GENERATE put one key into one EMPTY slot (15_keys_and_ciphers.md, Key slots). -/
def Obligations.KeysAreInstalledAsLoaded : Prop :=
  (∀ (slot : Nat) (s : State),
    let words : Bytes := (List.range (keyLen slot / 4)).flatMap fun i => leBytes 4 (s.fld (F.SEC_KEY_WORD_KEY i))
    s.pins.powered = true → slot < 2 ^ 15 → s.flag F.SEC_KEY_CMD_BUSY = false → s.sec.zeroised = false →
    slotKind slot ≠ SlotKind.none → s.slotState slot = 0 → ¬ (slotKind slot = SlotKind.xts ∧ words.take 32 = words.drop 32) →
    ∃ t, exec (.keyLoad .referee slot) s = .next t ∧
      t.slot? slot = some (asLoaded s words) ∧ t.slotCount slot = 0 ∧ (∀ n, n ≠ slot → t.slot? n = s.slot? n) ∧
      (∀ i < 16, t.fld (F.SEC_KEY_WORD_KEY i) = 0) ∧ s.Answered t keyRes [(F.SEC_KEY_RESULT_CODE, 0)]) ∧
  (∀ (slot : Nat) (kek : Bytes) (s : State),
    s.pins.powered = true → slot < 2 ^ 15 → s.flag F.SEC_KEY_CMD_BUSY = false → s.sec.zeroised = false →
    slotKind slot ≠ SlotKind.none → slotKind slot ≠ SlotKind.kek → s.slotState slot = 0 → s.keyOf s.kekSlot = some kek →
    ∃ t, exec (.keyUnwrap .referee slot) s = .next t ∧
      (∀ n, n ≠ slot → t.slot? n = s.slot? n) ∧
      (match keyUnwrap kek (s.rd s.keyAddr (keyLen slot + 8)) with
      | none => t.slot? slot = none ∧ s.Answered t keyRes [(F.SEC_KEY_RESULT_CODE, 3)]
      | some key => ¬ (slotKind slot = SlotKind.xts ∧ key.take 32 = key.drop 32) → t.slotCount slot = 0 ∧ s.Answered t keyRes [(F.SEC_KEY_RESULT_CODE, 0)] ∧
      t.slot? slot = some (asLoaded s key))) ∧
  (∀ (slot : Nat) (s : State),
    s.pins.powered = true → slot < 2 ^ 15 → s.flag F.SEC_KEY_CMD_BUSY = false → s.sec.zeroised = false →
    slotKind slot ≠ SlotKind.none → s.slotState slot = 0 →
    ∃ t key, exec (.keyGenerate .referee slot) s = .next t ∧
      key.length = keyLen slot ∧
      (¬ (slotKind slot = SlotKind.xts ∧ key.take 32 = key.drop 32) → t.slotCount slot = 0 ∧ s.Answered t keyRes [(F.SEC_KEY_RESULT_CODE, 0)] ∧
      t.slot? slot = some (asLoaded s key)) ∧
      (∀ n, n ≠ slot → t.slot? n = s.slot? n)) ∧
  (∀ (slot : Nat) (s : State),
    let words : Bytes := (List.range (keyLen slot / 4)).flatMap fun i => leBytes 4 (s.fld (F.SEC_KEY_WORD_KEY i))
    s.pins.powered = true → slot < 2 ^ 15 → s.flag F.SEC_KEY_CMD_BUSY = false → s.sec.zeroised = false →
    slotKind slot = SlotKind.xts → s.slotState slot = 0 → words.take 32 = words.drop 32 →
    ∃ t, exec (.keyLoad .referee slot) s = .next t ∧
      t.sec = s.sec ∧ s.Answered t keyRes [(F.SEC_KEY_RESULT_CODE, 9)]) ∧
  (∀ (slot : Nat) (s : State),
    s.pins.powered = true → slot < 2 ^ 15 → s.flag F.SEC_KEY_CMD_BUSY = false → s.sec.zeroised = false →
    slotKind slot ≠ SlotKind.none → s.slotState slot ≠ 0 →
    ∃ t, exec (.keyLoad .referee slot) s = .next t ∧
      t.sec = s.sec ∧ s.Answered t keyRes [(F.SEC_KEY_RESULT_CODE, 4)])

/-- WRAP, CLEAR, QUERY, SET_PHASE and the reserved OPs (15_keys_and_ciphers.md, Key slots). -/
def Obligations.KeysAreWrappedClearedAndPhased : Prop :=
  (∀ (slot : Nat) (k : KeySlot) (kek : Bytes) (s : State),
    s.pins.powered = true → slot < 2 ^ 15 → s.flag F.SEC_KEY_CMD_BUSY = false → s.sec.zeroised = false →
    slotKind slot ≠ SlotKind.none → slotKind slot ≠ SlotKind.kek → s.slot? slot = some k → s.keyOf s.kekSlot = some kek →
    k.exportable = true →
    ∃ t, exec (.keyWrap .referee slot) s = .next t ∧
      t.sec = s.sec ∧ s.Answered t keyRes [(F.SEC_KEY_RESULT_CODE, 0)] ∧
      (∀ a, ¬ s.inRing a → memGet t.dram a = memGet (s.wr s.keyAddr (keyWrap kek k.key)).dram a)) ∧
  (∀ (slot : Nat) (s : State),
    s.pins.powered = true → slot < 2 ^ 15 → s.flag F.SEC_KEY_CMD_BUSY = false → s.sec.zeroised = false →
    slotKind slot ≠ SlotKind.none → ¬ (slotKind slot = SlotKind.xts ∧ slot % 2 = s.encPhase (slot / 2)) →
    ¬ (slotKind slot = SlotKind.gcm ∧ s.linkUses slot = true) →
    ∃ t, exec (.keyClear .referee slot) s = .next t ∧
      (∀ n, n ≠ slot → t.slot? n = s.slot? n) ∧
      (s.stitchUses slot = false → t.slot? slot = none ∧ t.slotCount slot = 0 ∧ s.Answered t keyRes [(F.SEC_KEY_RESULT_CODE, 0)]) ∧
      (s.stitchUses slot = true → t.sec.clearing = some slot ∧ t.fld F.SEC_KEY_CMD_BUSY = 1 ∧ t.slot? slot = s.slot? slot)) ∧
  (∀ (slot : Nat) (s : State),
    s.pins.powered = true → s.sec.clearing = some slot → s.stitchUses slot = false →
    ∃ t, exec (.keyClearRetired) s = .next t ∧
      t.slot? slot = none ∧ t.sec.clearing = none ∧ s.Answered t keyRes [(F.SEC_KEY_RESULT_CODE, 0)]) ∧
  (∀ (slot : Nat) (s : State),
    s.pins.powered = true → slot < 2 ^ 15 → s.flag F.SEC_KEY_CMD_BUSY = false → s.sec.zeroised = false →
    slotKind slot ≠ SlotKind.none →
    ∃ t, exec (.keyQuery .referee slot) s = .next t ∧
      t.sec = s.sec ∧ s.Answered t keyRes [(F.SEC_KEY_RESULT_CODE, 0), (F.SEC_KEY_RESULT_STATE, s.slotState slot)]) ∧
  (∀ (slot : Nat) (s : State),
    s.pins.powered = true → slot < 2 ^ 15 → s.flag F.SEC_KEY_CMD_BUSY = false → s.sec.zeroised = false →
    slotKind slot = SlotKind.xts → s.loaded slot = true →
    ∃ t, exec (.setPhase .referee slot) s = .next t ∧
      t.encPhase (slot / 2) = slot % 2 ∧ t.sec.slots = s.sec.slots ∧ s.Answered t keyRes [(F.SEC_KEY_RESULT_CODE, 0)]) ∧
  (∀ (op slot : Nat) (s : State),
    s.pins.powered = true → s.flag F.SEC_KEY_CMD_BUSY = false → s.sec.zeroised = false →
    ∃ t, exec (.keyReservedOp .referee op slot) s = .next t ∧
      t.sec = s.sec ∧ s.Answered t keyRes [(F.SEC_KEY_RESULT_CODE, 7)])

/-- An unmasked alarm empties every key slot; the random generator, its tests and dual compute (15_keys_and_ciphers.md,
Alarms and zeroisation; 15_keys_and_ciphers.md, The DRBG). -/
def Obligations.AlarmsAndRandomnessTakeEffect : Prop :=
  (∀ (b : Nat) (s : State),
    s.pins.powered = true → b < 8 → bit (s.fld F.SEC_ALARM_MASK_SOURCES ||| 0xD8) b = true →
    ∃ t, exec (.securityAlarm b) s = .next t ∧
      t.sec.slots = [] ∧ t.sec.zeroised = true ∧ t.sec.counts = s.sec.counts ∧
      t.fld F.SEC_ALARM_STATUS_SOURCES = (s.fld F.SEC_ALARM_STATUS_SOURCES ||| 2 ^ b) % 256 ∧ t.fld F.SEC_ISR_ALARM = 1) ∧
  (∀ (s : State),
    s.pins.powered = true →
    ∃ t, exec (.zeroiseRequest .referee) s = .next t ∧
      t.sec.slots = [] ∧ t.sec.zeroised = true) ∧
  (∀ (who : Requester) (s : State),
    s.pins.powered = true → who ≠ Requester.referee →
    ∃ t, exec (.zeroiseRequest who) s = .next t ∧
      t = s) ∧
  (∀ (fails : Bool) (s : State),
    s.pins.powered = true → s.flag F.SEC_RNG_CMD_BUSY = false →
    ∃ t, exec (.rngGenerate fails) s = .next t ∧
      t.sec.slots = s.sec.slots ∧ t.fld F.SEC_ISR_RNG_DONE = 1 ∧
      s.Answered t rngRes [(F.SEC_RNG_RESULT_CODE, if s.sec.zeroised = true then 2 else if fails = true then 1 else 0)]) ∧
  (∀ (s : State),
    s.pins.powered = true → s.flag F.SEC_RNG_CMD_BUSY = false → s.sec.zeroised = false →
    ∃ t, exec (.rngReseed) s = .next t ∧
      t.sec.generates = 0 ∧ s.Answered t rngRes [(F.SEC_RNG_RESULT_CODE, 0)]) ∧
  (∀ (proportion : Bool) (s : State),
    s.pins.powered = true → s.sec.failedAt = none →
    ∃ t, exec (.drbgHealthFailure proportion) s = .next t ∧
      t.sec.failedAt = some s.turn ∧ t.sec.slots = s.sec.slots ∧ t.fld F.SEC_ISR_RNG_HEALTH = 1 ∧
      (t.fld F.SEC_RNG_HEALTH_APT_FAIL = if proportion = true then min (s.fld F.SEC_RNG_HEALTH_APT_FAIL + 1) 255 else s.fld F.SEC_RNG_HEALTH_APT_FAIL)) ∧
  (∀ (s : State),
    s.pins.powered = true → 2 ^ 20 ≤ s.sec.generates ∨ s.taskDue taskDrbg 1024 = true →
    ∃ t, exec (.drbgReseedDue) s = .next t ∧
      t.sec.generates = 0 ∧ t.sec.slots = s.sec.slots ∧
      t.fld F.SEC_RNG_HEALTH_RESEEDS = min (s.fld F.SEC_RNG_HEALTH_RESEEDS + 1) 65535) ∧
  (∀ (pool : Nat) (f : Fld) (s : State),
    s.pins.powered = true → dualFld pool = some f →
    ∃ t, exec (.dualComputeEnd pool) s = .next t ∧
      t = s.setFlag f (s.flag F.SEC_CTRL_DUAL_FORCE || decide (s.turn < (s.sec.dualUntil.get? pool).getD 0)))

/-- What a read of the window returns and changes does not depend on the keys held (15_keys_and_ciphers.md, Key slots). -/
def Obligations.WindowReadsShowNoKey : Prop :=
  ∀ (who : Requester) (off : Nat) (s : State) (k : Tbl KeySlot),
    ∀ c ∈ [Instr.pairLoRead who off, .resultRegisterRead who off],
    ∃ t, exec c s = .next t ∧ exec c { s with sec := { s.sec with slots := k } } = .next { t with sec := { t.sec with slots := k } }

/-- The control sample, recalibration, bank swaps, captures, probes and the failures of bank and fans
(16_control_engine_and_hold_up.md, The analogue front end; 16_control_engine_and_hold_up.md, Coefficient banks and
swapping; 16_control_engine_and_hold_up.md, Injection and capture; 16_control_engine_and_hold_up.md, SHARE and fans;
16_control_engine_and_hold_up.md, The observer of the bank; 16_control_engine_and_hold_up.md, CTL registers). -/
def Obligations.ControlEngineCommandsTakeEffect : Prop :=
  (∀ (codes : List Int) (tj temp17 : Int) (tach : List Nat) (s : State),
    let word : Nat → Int → Int := fun n c => satInt 32 (roundEven (signed 32 (unsigned 32 (signed 14 (unsigned 14 c) * 65536 - signed 32 (s.fld (F.CTL_ADC_OFS_VALUE n)))) * signed 32 (s.fld (F.CTL_ADC_GAIN_VALUE n))) (2 ^ 29))
    s.pins.powered = true →
    ∃ t, exec (.controlSample codes tj temp17 tach) s = .next t ∧
      (∀ n c, n < 16 → codes[n]? = some c → t.fld (F.CTL_ADC_VAL_VALUE n) = unsigned 32 (word n c)) ∧
      t.fld (F.CTL_ADC_VAL_VALUE 16) = unsigned 32 tj ∧ t.fld (F.CTL_ADC_VAL_VALUE 17) = unsigned 32 temp17 ∧
      (∀ n v, n < 4 → tach[n]? = some v → t.fld (F.CTL_FAN_TACH_RPM n) = v % 2 ^ (F.CTL_FAN_TACH_RPM n).width) ∧
      (s.mode = 0 → t.ctl.duty = 0) ∧
      ((s.ctl.loops.length = 4 ∧ (s.mode = 5 ∨ s.mode = 6)) → t.ctl.duty = (t.ctl.loops.getD 0 {}).out) ∧
      (s.ctl.fanTime + s.periodPwm < 1000000 → t.ctl.fanTime = s.ctl.fanTime + s.periodPwm) ∧ t.sent = s.sent ∧ t.pins = s.pins) ∧
  (∀ (pairs : List (Int × Int)) (s : State),
    let fits : Nat → Int × Int → Bool := fun n p => decide ((p.1 - signed 32 (s.fld (F.CTL_ADC_OFS0_VALUE n))).natAbs ≤ 64 * 65536 ∧ 100 * (p.2 - signed 32 (s.fld (F.CTL_ADC_GAIN0_VALUE n))).natAbs ≤ (signed 32 (s.fld (F.CTL_ADC_GAIN0_VALUE n))).natAbs)
    s.pins.powered = true → s.taskDue 2 1024 = true → s.mode < 4 →
    ∃ t, exec (.adcRecalibration pairs) s = .next t ∧
      (∀ n p, n < 16 → pairs[n]? = some p → fits n p = true → t.fld (F.CTL_ADC_OFS_VALUE n) = unsigned 32 p.1 ∧ t.fld (F.CTL_ADC_GAIN_VALUE n) = unsigned 32 p.2) ∧
      (∀ n p, n < 16 → pairs[n]? = some p → fits n p = false → t.fld (F.CTL_ADC_OFS_VALUE n) = s.fld (F.CTL_ADC_OFS_VALUE n) ∧ t.fld (F.CTL_ADC_GAIN_VALUE n) = s.fld (F.CTL_ADC_GAIN_VALUE n) ∧ t.fld F.CTL_ISR_CAL_DRIFT = 1) ∧
      t.ctl = s.ctl ∧ t.sent = s.sent) ∧
  (∀ (who : Requester) (n : Nat) (reset enable : Bool) (s : State),
    s.pins.powered = true → who ≠ .referee →
    ∃ t, exec (.loopSwap who n reset enable) s = .next t ∧
      t.fld F.CTL_EVENTS_WRITE_REFUSED = min (s.fld F.CTL_EVENTS_WRITE_REFUSED + 1) (2 ^ F.CTL_EVENTS_WRITE_REFUSED.width - 1) ∧
      t.fld F.CTL_ISR_WRITE_REFUSED = 1 ∧ t.ctl = s.ctl ∧ (∀ f : Fld, f.blk ≠ 4 → f.blk ≠ 0x18 → t.fld f = s.fld f)) ∧
  (∀ (n : Nat) (reset enable : Bool) (s : State),
    let l : Nat := n % 4
    s.pins.powered = true → (s.ctl.loops.getD l {}).swap = false → s.mode < 4 →
    ∃ t, exec (.loopSwap .referee n reset enable) s = .next t ∧
      t = { s with cells := t.cells, ctl := { s.ctl with loops := s.ctl.loops.modify l fun x => { x with swap := true } } } ∧
      (t.fld (F.CTL_LOOP_CTRL_RESET_STATES l) = if reset then 1 else 0) ∧ t.fld (resValid (0x400104 + 0x10 * l)) = 0) ∧
  (∀ (n : Nat) (reset enable : Bool) (s : State),
    let l : Nat := n % 4
    s.pins.powered = true → (s.ctl.loops.getD l {}).swap = false → l % 2 = 0 → 4 ≤ s.mode →
    ∃ t, exec (.loopSwap .referee n reset enable) s = .next t ∧
      s.Answered t (0x400104 + 0x10 * l) [(F.CTL_LOOP_RESULT_CODE l, 1)] ∧ t.fld F.CTL_ISR_SWAP_DONE = 1 ∧
      t.fld (F.CTL_LOOP_CTRL_ACTIVE_BANK l) = s.fld (F.CTL_LOOP_CTRL_ACTIVE_BANK l)) ∧
  (∀ (decim sel : Nat) (s : State),
    s.pins.powered = true → s.flag F.CTL_CAP_CFG_BUSY = false →
    ∃ t, exec (.captureImmediate .referee decim sel) s = .next t ∧
      t = { s with cells := t.cells, ctl := { s.ctl with cap := some ⟨0, 0, [], some 4096⟩ } } ∧ t.fld F.CTL_CAP_CFG_BUSY = 1) ∧
  (∀ (decim sel : Nat) (s : State),
    s.pins.powered = true → s.flag F.CTL_CAP_CFG_BUSY = false →
    ∃ t, exec (.captureHoldupArm .referee decim sel) s = .next t ∧
      t = { s with cells := t.cells, ctl := { s.ctl with cap := some ⟨1, 0, [], none⟩ } } ∧ t.fld F.CTL_CAP_CFG_BUSY = 1) ∧
  (∀ (decim sel : Nat) (s : State),
    s.pins.powered = true → s.flag F.CTL_CAP_CFG_BUSY = false →
    ∃ t, exec (.captureSatArm .referee decim sel) s = .next t ∧
      t = { s with cells := t.cells, ctl := { s.ctl with cap := some ⟨2, 0, [], none⟩ } } ∧ t.fld F.CTL_CAP_CFG_BUSY = 1) ∧
  (∀ (decim sel : Nat) (s : State),
    s.pins.powered = true → s.flag F.CTL_CAP_CFG_BUSY = false →
    ∃ t, exec (.captureReservedTrig .referee decim sel) s = .next t ∧
      s.Answered t 0x400094 [(F.CTL_CAP_RESULT_CODE, 2)] ∧ t.fld F.CTL_CAP_CFG_BUSY = 0 ∧ t.fld F.CTL_ISR_CAP_DONE = 1 ∧
      t.ctl.cap = none ∧ t.ctl.loops = s.ctl.loops) ∧
  (∀ (vMean : Nat) (s : State),
    s.pins.powered = true → s.mode = 2 → s.flag F.CTL_CTRL_PROBE_EN = true → s.flag F.CTL_CTRL_ENABLE = true → s.probeDue = true →
    ∃ t, exec (.probe vMean) s = .next t ∧
      t = { s with cells := t.cells, trn := t.trn, ctl := { s.ctl with probe := some ⟨1, vMean, 0, 0⟩ } } ∧ t.mode = 3) ∧
  (∀ (charge v1 i1 v2 i2 : Nat) (p : ProbeSt) (s : State),
    s.pins.powered = true → s.ctl.probe = some p → s.mode = 3 → p.step = 1 → i1 * i2 ≠ 0 →
    ∃ t, exec (.probeDischargeEnd charge v1 i1 v2 i2) s = .next t ∧
      t = { s with cells := t.cells, ctl := { s.ctl with probe := some ⟨2, p.vBefore, charge, ceilDiv (1000 * (v1 * i2 + v2 * i1)) (2 * i1 * i2)⟩ } } ∧
      (t.mode = if s.flag F.CTL_CTRL_ENABLE then 2 else 0)) ∧
  (∀ (vMean : Nat) (p : ProbeSt) (s : State),
    s.pins.powered = true → s.ctl.probe = some p → s.mode = 2 → p.step = 2 → vMean < p.vBefore →
    ∃ t, exec (.probeRestEnd vMean) s = .next t ∧
      t.ctl.probe = none ∧ t.ctl.cSamples = keep64 s.ctl.cSamples (p.charge * 1000000 / (p.vBefore - vMean)) ∧
      t.ctl.esrSamples = keep64 s.ctl.esrSamples p.esr ∧
      t.fld F.CTL_BANK_SAMPLES_PROBES = min (s.fld F.CTL_BANK_SAMPLES_PROBES + 1) (2 ^ F.CTL_BANK_SAMPLES_PROBES.width - 1) ∧
      t.fld F.CTL_BANK_SAMPLES_N = t.ctl.cSamples.length % 2 ^ F.CTL_BANK_SAMPLES_N.width ∧ t.sent = s.sent) ∧
  (∀ (s : State),
    s.pins.powered = true → s.mode = 1 → s.bankFailed = false →
    ∃ t, exec (.bankChargeTimeout) s = .next t ∧
      t.fld F.CTL_STATUS_BANK_FAILED = 1 ∧ t.fld F.CTL_STATUS_BANK_CAUSE = 3 ∧ t.mode = 0 ∧ t.fld F.CTL_INJ_CFG_EN = 0 ∧
      t.fld F.CTL_ISR_BANK_FAILED = 1 ∧ t.pair F.CMT_DIRTY_LIMIT_LO_LIMIT_LO F.CMT_DIRTY_LIMIT_HI_LIMIT_HI = 0 ∧
      t.ctl = { s.ctl with probe := none }) ∧
  (∀ (fan : Nat) (s : State),
    s.pins.powered = true → 300 < s.fld (F.CTL_FAN_DUTY (fan % 4)) →
    10 * s.fld (F.CTL_FAN_TACH_RPM (fan % 4)) < max (max (s.fld (F.CTL_FAN_TACH_RPM 0)) (s.fld (F.CTL_FAN_TACH_RPM 1))) (max (s.fld (F.CTL_FAN_TACH_RPM 2)) (s.fld (F.CTL_FAN_TACH_RPM 3))) →
    ∃ t, exec (.fanFail fan) s = .next t ∧
      t.fld F.CTL_ISR_FAN_FAIL = 1 ∧ (s.setFld F.CTL_ISR_FAN_FAIL 1).JournalFrame t)

/-- Input loss and return, the confirmation and the steps of hold-up, VMIN and the removal of the head
(16_control_engine_and_hold_up.md, Hold-up; 16_control_engine_and_hold_up.md, CTL registers). -/
def Obligations.HoldupCommandsTakeEffect : Prop :=
  (∀ (droop : Bool) (s : State),
    s.pins.powered = true → droop = false ∨ 2 ≤ s.ctl.droop → s.flag F.CTL_STATUS_INPUT_GOOD = true → s.headState ≠ 0 →
    s.headState ≠ stCastOn → s.ctl.hold.phase = 0 →
    ∃ t, exec (.inputLoss droop) s = .next t ∧
      t.pins = { s.pins with inputGood := false } ∧ t.fld F.CTL_STATUS_INPUT_GOOD = 0 ∧ t.fld F.CTL_ISR_RIDE = 1 ∧
      t.fld F.CTL_INJ_CFG_EN = 0 ∧ (t.mode = if s.flag F.CTL_CTRL_ENABLE then 5 else 0) ∧
      t.ctl.hold = { s.ctl.hold with phase := 1 } ∧ t.sent = s.sent) ∧
  (∀ (droop : Bool) (s : State),
    s.pins.powered = false → droop = false →
    ∃ t, exec (.inputLoss droop) s = .next t ∧
      t = { s with pins := { s.pins with inputGood := false } }) ∧
  (∀ (s : State),
    s.pins.powered = true → s.ctl.hold.phase = 1 → s.ctl.hold.unseated = false → s.flag F.CTL_STATUS_INPUT_GOOD = false →
    ∃ t, exec (.inputReturn) s = .next t ∧
      t.pins = { s.pins with inputGood := true } ∧ t.fld F.CTL_STATUS_INPUT_GOOD = 1 ∧
      t.fld F.CTL_EVENTS_RIDES = min (s.fld F.CTL_EVENTS_RIDES + 1) (2 ^ F.CTL_EVENTS_RIDES.width - 1) ∧
      (t.mode = if s.flag F.CTL_CTRL_ENABLE && !s.bankFailed then 1 else 0) ∧
      t = { s with cells := t.cells, pins := t.pins, ctl := { s.ctl with probe := none, hold := { s.ctl.hold with phase := 0 } } }) ∧
  (∀ (s : State),
    s.pins.powered = false →
    ∃ t, exec (.inputReturn) s = .next t ∧
      t = { s with pins := { s.pins with inputGood := true } }) ∧
  (∀ (idle : Nat) (s : State),
    s.pins.powered = true → s.ctl.hold.phase = 1 → s.ctl.hold.unseated = false → s.bankFailed = false → s.headState = stPlaying →
    s.rows.stitches = [] → s.rows.retired = [] → s.commit.own = [] → s.upd.step = none →
    ∃ t, exec (.holdupConfirm idle) s = .next t ∧
      t.ctl.hold = { s.ctl.hold with phase := 2, stopped := false, stamp := s.stamp, dirty := s.dirtyBytes } ∧
      t.fld F.CTL_ISR_HU_CONFIRM = 1 ∧ (t.mode = if s.flag F.CTL_CTRL_ENABLE then 6 else 0) ∧ t.pins.portsOn = false ∧
      t.rows.holdup = true ∧ t.media.holdup = true) ∧
  (∀ (s : State),
    s.pins.powered = true → s.ownFlushed = true →
    ∃ t, exec (.holdupOwnDone) s = .next t ∧
      t.ctl.hold = { s.ctl.hold with phase := if s.owedCount = 0 then 4 else 3 } ∧ t.commit = s.commit ∧ t.rows = s.rows) ∧
  (∀ (s : State),
    s.pins.powered = true → s.mayShut = true →
    ∃ t, exec (.holdupShutdown) s = .next t ∧
      t.pins.powered = false ∧ t.ctl = { hold := { phase := 5 } } ∧ t.sec.slots = [] ∧ t.sec.zeroised = true ∧ t.OffClean ∧
      t.sent = s.zeroise.sent ∧ t.pending = s.pending) ∧
  (∀ (straps : Straps) (s : State),
    s.pins.powered = false → s.ctl.hold.phase = 5 → s.pins.inputGood = true → s.pins.unseated = false →
    ∃ t, exec (.holdupResetRelease straps) s = .next t ∧
      t.pins.powered = true ∧ t.fld F.GLB_CASTON_STATUS_STEP = 1 ∧ t.fld F.GLB_PAIR_STATUS_HEAD_ID = straps.headId % 2 ∧
      t.fld F.GLB_STRAPS_BOOT_MODE = straps.bootMode % 4 ∧
      t.sec = { zeroised := s.sec.zeroised, counts := s.sec.counts, phases := s.sec.phases } ∧ t.dram = [] ∧ t.sent = s.sent ∧
      t.pending = s.pending) ∧
  (∀ (s : State),
    s.pins.powered = true → s.mode = 5 ∨ s.mode = 6 → s.pins.inputGood = true →
    ∃ t, exec (.vminReached) s = .next t ∧
      t = { s with cells := t.cells, ctl := { s.ctl with probe := none } } ∧ t.mode = 0) ∧
  (∀ (s : State),
    s.pins.powered = true → s.mode = 5 ∨ s.mode = 6 → s.pins.inputGood = false →
    ∃ t, exec (.vminReached) s = .next t ∧
      t.mode = 0 ∧ t.sec.zeroised = true ∧ t.sec.slots.all (fun p => p.2.key.all (fun b => b == 0)) = true ∧
      t.fld F.SEC_ISR_ALARM = 1) ∧
  (∀ (s : State),
    s.pins.powered = true → s.flag F.CTL_STATUS_INPUT_GOOD = true → s.headState ≠ 0 → s.headState ≠ stCastOn → s.ctl.hold.phase = 0 →
    ∃ t, exec (.seatedRemoval) s = .next t ∧
      t.pins = { s.pins with unseated := true } ∧ t.ctl.hold = { s.ctl.hold with unseated := true, phase := 1 } ∧
      t.fld F.CTL_STATUS_INPUT_GOOD = 0 ∧ t.fld F.CTL_ISR_RIDE = 1 ∧ (t.mode = if s.flag F.CTL_CTRL_ENABLE then 5 else 0) ∧
      t.sent = s.sent) ∧
  (∀ (s : State),
    s.pins.powered = false →
    ∃ t, exec (.seatedRemoval) s = .next t ∧
      t = { s with pins := { s.pins with unseated := true } })

/-- Edges, frames and pips: what begins a turn, what locks, and what is refused (17_turns_and_the_table.md, The TURN
line; 17_turns_and_the_table.md, The tracking divider; 17_turns_and_the_table.md, Seats, the First Player and the
table; 17_turns_and_the_table.md, TRN registers). -/
def Obligations.EdgesAndFramesMoveTheCount : Prop :=
  (∀ (e ptp : Nat) (s : State),
    s.pins.powered = true → s.trnState = 0 ∨ s.trnState = 4 →
    ∃ t, exec (.turnEdge e ptp) s = .next t ∧
      t = s) ∧
  (∀ (e ptp : Nat) (s : State),
    s.pins.powered = true → s.edgeKind e = .glitch →
    ∃ t, exec (.turnEdge e ptp) s = .next t ∧
      t = { s with cells := t.cells } ∧ t.fld F.TRN_EVENTS_GLITCH = min (s.fld F.TRN_EVENTS_GLITCH + 1) 0xFF ∧ t.stamp = s.stamp) ∧
  (∀ (e ptp : Nat) (s : State),
    s.pins.powered = true → s.edgeKind e = .unlocked →
    ∃ t, exec (.turnEdge e ptp) s = .next t ∧
      t = { s with trn := { s.trn with lastEdge := e, realEdge := some e, awaiting := true, edgePtp := ptp } }) ∧
  (∀ (e ptp : Nat) (s : State),
    s.pins.powered = true → s.edgeKind e = .accepted → s.turn + 1 < 2 ^ 54 →
    ∃ t, exec (.turnEdge e ptp) s = .next t ∧
      t.stamp = (s.turn + 1) * 1024 ∧ t.pair F.TRN_EDGE_TURN_LO_VALUE F.TRN_EDGE_TURN_HI_VALUE = s.turn + 1 ∧
      t.pair F.TRN_EDGE_PTP_LO_VALUE F.TRN_EDGE_PTP_HI_VALUE = ptp % 2 ^ 64 ∧ t.fld F.TRN_STATUS_LOCAL = 0 ∧
      t.trnState = s.trnState ∧
      (t.pEst = if s.trn.accepted then newPeriod s.trn.lockEdges s.pEst (e - s.trn.lastEdge) else s.pEst) ∧
      t.trn = { s.trn with lastEdge := e, realEdge := some e, accepted := true, lockEdges := s.trn.lockEdges + 1, awaiting := true, holdAt := if s.trnState = 3 then e else s.trn.holdAt } ∧
      t.pins = s.pins) ∧
  (∀ (e ptp : Nat) (s : State),
    s.pins.powered = true → s.edgeKind e = .realigned →
    ∃ t, exec (.turnEdge e ptp) s = .next t ∧
      t.stamp = s.stamp ∧ t.fld F.TRN_STATUS_LOCAL = 0 ∧
      t.trn = { s.trn with lastEdge := e, realEdge := some e, accepted := false, awaiting := true } ∧
      ((s.setFld F.TRN_STATUS_LOCAL 0).modTrn fun r => { r with lastEdge := e, realEdge := some e, accepted := false, awaiting := true }).JournalFrame t) ∧
  (∀ (w : Nat) (s : State),
    s.pins.powered = true → s.trn.awaiting = true → readFrame w = none →
    ∃ t, exec (.turnFrame w) s = .next t ∧
      t = { s with cells := t.cells, trn := { s.trn with awaiting := false } } ∧
      t.fld F.TRN_EVENTS_FRAME_ERR = min (s.fld F.TRN_EVENTS_FRAME_ERR + 1) 0xFF) ∧
  (∀ (w : Nat) (f : TurnFrame) (s : State),
    s.pins.powered = true → s.trn.awaiting = true → readFrame w = some f → s.trnState = 2 → f.epoch = s.fld F.TRN_STATUS_EPOCH →
    f.count = s.turn →
    ∃ t, exec (.turnFrame w) s = .next t ∧
      t = { s with cells := t.cells, trn := { s.trn with awaiting := false } } ∧ t.fld F.TRN_STATUS_FP_SEAT = f.fpSeat ∧
      t.stamp = s.stamp) ∧
  (∀ (w : Nat) (f : TurnFrame) (s : State),
    s.pins.powered = true → s.trn.awaiting = true → readFrame w = some f → s.trnState = 2 → f.count < s.turn →
    ∃ t, exec (.turnFrame w) s = .next t ∧
      t.trnState = 3 ∧ t.fld F.TRN_EVENTS_REJECTS = min (s.fld F.TRN_EVENTS_REJECTS + 1) 0xFF ∧ t.fld F.TRN_ISR_REJECT = 1 ∧
      t.fld F.TRN_ISR_HOLDOVER = 1 ∧ t.stamp = s.stamp ∧
      t.trn = { s.trn with awaiting := false, holdAt := s.trn.realEdge.getD 0 + 3880 }) ∧
  (∀ (w : Nat) (f : TurnFrame) (s : State),
    s.pins.powered = true → s.trn.awaiting = true → readFrame w = some f → s.trnState = 1 → s.trnFloor ≤ f.count → f.count < 2 ^ 54 →
    ∃ t, exec (.turnFrame w) s = .next t ∧
      t.stamp = f.count * 1024 ∧ t.trnState = 2 ∧ t.fld F.TRN_ISR_LOCKED = 1 ∧ t.fld F.TRN_STATUS_FP_SEAT = f.fpSeat ∧
      t.fld F.TRN_STATUS_EPOCH = f.epoch ∧ t.trn = { s.trn with awaiting := false, accepted := true, lockEdges := 1 }) ∧
  (∀ (e ptp : Nat) (s : State),
    s.pins.powered = true → s.trnState = 2 ∨ s.trnState = 3 → s.edgeDue ≤ e → s.turn + 1 < 2 ^ 54 →
    ∃ t, exec (.localEdge e ptp) s = .next t ∧
      t.stamp = (s.turn + 1) * 1024 ∧ t.fld F.TRN_STATUS_LOCAL = min (s.fld F.TRN_STATUS_LOCAL + 1) 15 ∧
      (t.trnState = if s.trnState = 2 ∧ s.fld F.TRN_STATUS_LOCAL < 2 then 2 else 3) ∧ t.pEst = s.pEst ∧ t.trn.lastEdge = e ∧
      t.trn.accepted = false ∧ t.trn.realEdge = s.trn.realEdge) ∧
  (∀ (e : Nat) (margins : List Nat) (s : State),
    s.pins.powered = true → s.trnState = 2 ∨ s.trnState = 3 ∨ s.trnState = 4 → s.stamp % 1024 < 1023 → s.ctl.hold.phase < 2 →
    ∃ t, exec (.pipBoundary e margins) s = .next t ∧
      t.stamp = s.stamp + 1 ∧ t.trn = s.trn ∧ t.trnState = s.trnState ∧ t.ctl.hold = s.ctl.hold)

/-- The claims of the First Player, its edge, ENABLE and YIELD, table messages and schedule slots
(17_turns_and_the_table.md, Seats, the First Player and the table; 17_turns_and_the_table.md, Schedules and
wall-clock time; 17_turns_and_the_table.md, TRN registers). -/
def Obligations.FirstPlayerAndSchedulesTakeEffect : Prop :=
  (∀ (e : Nat) (s : State),
    s.pins.powered = true → s.trnState = 1 → s.flag F.TRN_CTRL_FP_ELIG = true → s.trn.enabledAt + (s.seat + 4) * s.periodNs ≤ e →
    ∃ t, exec (.unlockedTimeout e) s = .next t ∧
      t.trnState = 4 ∧ t.fld F.TRN_STATUS_EPOCH = (s.fld F.TRN_STATUS_EPOCH + 1) % 256 ∧ t.fld F.TRN_ISR_FP_CHANGE = 1 ∧
      t.fld F.TRN_ISR_BECAME_FIRST = 1 ∧ t.trn = { s.trn with claim := some (max s.turn s.trnFloor + 1 + s.skipTurns) } ∧
      t.stamp = s.stamp) ∧
  (∀ (e : Nat) (s : State),
    s.pins.powered = true → s.trnState = 3 → s.flag F.TRN_CTRL_FP_ELIG = true →
    s.trn.holdAt + (s.seat + 1) * (if s.pEst = 0 then s.periodNs else s.pEst / 16) ≤ e →
    ∃ t, exec (.holdoverTimeout e) s = .next t ∧
      t.trnState = 4 ∧ t.fld F.TRN_STATUS_EPOCH = (s.fld F.TRN_STATUS_EPOCH + 1) % 256 ∧ t.fld F.TRN_ISR_BECAME_FIRST = 1 ∧
      t.trn = { s.trn with claim := some (s.turn + 1 + s.skipTurns) } ∧ t.stamp = s.stamp) ∧
  (∀ (e ptp : Nat) (s : State),
    let w : Nat := frameBits s.nextCount s.seat (s.fld F.TRN_STATUS_EPOCH)
    s.pins.powered = true → s.trnState = 4 → s.silent = false → s.nextCount < 2 ^ 54 →
    ∃ t, exec (.firstPlayerEdge e ptp w) s = .next t ∧
      t.stamp = s.nextCount * 1024 ∧ t.pins = { s.pins with turnDriven := true } ∧ t.fld F.TRN_STATUS_FP_SEAT = s.seat ∧
      t.fld F.TRN_STATUS_LOCAL = 0 ∧ t.trnState = 4 ∧ t.trn.claim = none ∧ t.trn.ahead = none ∧ t.trn.lastEdge = e ∧
      t.sent[s.sent.length]? = some (.turnFrame w)) ∧
  (∀ (e ptp back : Nat) (s : State),
    s.pins.powered = true → s.trnState = 4 → s.nextCount < 2 ^ 54 → back ≠ frameBits s.nextCount s.seat (s.fld F.TRN_STATUS_EPOCH) →
    ∃ t, exec (.firstPlayerEdge e ptp back) s = .next t ∧
      t.stamp = s.nextCount * 1024 ∧ t.pins.turnDriven = false ∧ t.trnState = 3 ∧
      t.fld F.TRN_EVENTS_REJECTS = min (s.fld F.TRN_EVENTS_REJECTS + 1) 0xFF ∧ t.trn.holdAt = e) ∧
  (∀ (who : Requester) (w e : Nat) (s : State),
    s.pins.powered = true → s.trnState = 0 →
    ∃ t, exec (.trnEnable who w e) s = .next t ∧
      t.trnState = 1 ∧ t.flag F.TRN_CTRL_ENABLE = true ∧ (s.headState = stCastOn → t.seat = bits w 8 6) ∧ t.stamp = 0 ∧
      t.trn = { s.trn with enabledAt := e, lockEdges := 0, accepted := false, realEdge := none, awaiting := false, claim := none, ahead := none, tasks := [] } ∧
      t.pins = s.pins) ∧
  (∀ (who : Requester) (w e : Nat) (s : State),
    s.pins.powered = true → s.trnState ≠ 0 →
    ∃ t, exec (.trnDisable who w e) s = .next t ∧
      t.trnState = 0 ∧ t.flag F.TRN_CTRL_ENABLE = false ∧ t.pins.turnDriven = false ∧ t.stamp = s.stamp ∧
      t.trn = { s.trn with awaiting := false, claim := none, ahead := none }) ∧
  (∀ (who : Requester) (w e : Nat) (s : State),
    s.pins.powered = true → s.trnState = 4 → bit w 0 = true →
    ∃ t, exec (.yield who w e) s = .next t ∧
      t.trnState = 3 ∧ t.pins.turnDriven = false ∧ t.fld F.TRN_ISR_HOLDOVER = 1 ∧ t.trn = { s.trn with holdAt := e } ∧
      t.stamp = s.stamp) ∧
  (∀ (m : TableMsg) (s : State),
    s.pins.powered = true →
    ∃ t, exec (.tableStatus m) s = .next t ∧
      ((m.type = 1 ∧ m.reserved = 0) → t = s) ∧
      (((m.type ≠ 1 ∧ m.type ≠ 2) ∨ m.reserved ≠ 0) → t = { s with cells := t.cells } ∧ t.fld F.TRN_EVENTS_FRAME_ERR = min (s.fld F.TRN_EVENTS_FRAME_ERR + 1) 0xFF)) ∧
  (∀ (m : TableMsg) (s : State),
    s.pins.powered = true → s.trnState = 4 → m.type = 2 → m.reserved = 0 →
    ∃ t, exec (.ahead m) s = .next t ∧
      t = { s with trn := { s.trn with ahead := some (max (s.trn.ahead.getD 0) (m.count + s.skipTurns)) } }) ∧
  (∀ (s : State),
    s.pins.powered = true → s.taskDue 7 1024 = true → s.portsOpen →
    ∃ t, exec (.tableStatusSend) s = .next t ∧
      t.sent = s.sent ++ ((List.range 8).filter fun k => s.flag (F.TRN_PEER_VALID k)).map (fun k => Sent.table (s.fld (F.TRN_PEER_QPN k)) ⟨1, 1, s.seat, s.headState, s.fld F.TRN_CTRL_FP_ELIG + 2 * s.trnState, s.fld F.TRN_STATUS_EPOCH, 0, s.turn % 2 ^ 64⟩) ∧
      t = { s with sent := t.sent, trn := { s.trn with tasks := s.trn.tasks.put 7 s.turn } }) ∧
  (∀ (n : Nat) (s : State),
    let k : Nat := n % 16
    s.pins.powered = true → s.schedDue k = true →
    ∃ t, exec (.scheduleSlotFire n) s = .next t ∧
      t.fld F.TRN_SCHED_FIRED_FIRED = s.fld F.TRN_SCHED_FIRED_FIRED ||| 2 ^ k ∧ t.fld F.TRN_ISR_SCHED = 1 ∧
      t.flag (F.TRN_SCHED_CFG_LATE k) = decide (s.schedTarget k < s.stamp) ∧
      (s.fld (F.TRN_SCHED_CFG_PERIOD k) = 0 → t.flag (F.TRN_SCHED_CFG_EN k) = false ∧ t.schedTarget k = s.schedTarget k) ∧
      ((s.fld (F.TRN_SCHED_CFG_PERIOD k) ≠ 0 ∧ s.stamp + 2 ^ 26 < 2 ^ 64) → s.stamp < t.schedTarget k ∧ t.schedTarget k ≤ s.stamp + 1024 * s.fld (F.TRN_SCHED_CFG_PERIOD k) ∧ (t.schedTarget k - s.schedTarget k) % (1024 * s.fld (F.TRN_SCHED_CFG_PERIOD k)) = 0 ∧ t.flag (F.TRN_SCHED_CFG_EN k) = true) ∧
      t.stamp = s.stamp ∧ t.trn = s.trn ∧ t.sent = s.sent) ∧
  (∀ (who : Requester) (n w : Nat) (s : State),
    let k : Nat := n % 16
    s.pins.powered = true → s.stamp < s.schedTarget k →
    ∃ t, exec (.schedArm who n w) s = .next t ∧
      t = { s with cells := t.cells } ∧ t.flag (F.TRN_SCHED_CFG_EN k) = true ∧ t.flag (F.TRN_SCHED_CFG_LATE k) = false ∧
      t.fld (F.TRN_SCHED_CFG_PERIOD k) = w % 2 ^ 16 ∧ t.schedTarget k = s.schedTarget k ∧
      t.fld F.TRN_SCHED_FIRED_FIRED = s.fld F.TRN_SCHED_FIRED_FIRED)

/-- Loading and unloading a slot group, binding and unbinding a volume (18_motif_slots.md, Binding volumes;
18_motif_slots.md, Bitstreams; 18_motif_slots.md, Loading and the slot states; 18_motif_slots.md, MTF registers). -/
def Obligations.SlotCommandsTakeEffect : Prop :=
  (∀ (slot : Nat) (s : State),
    let l : Nat := slot % 8
    let u : State := s.mtfStart 0 0 slot (fun t _ => t)
    s.pins.powered = true → s.flag F.MTF_CMD_BUSY = false → s.mtLeads l = true → s.mtState l = 0 →
    ∃ t, exec (.slotLoad slot) s = .next t ∧
      (u.bitCode l = 0 → t.mtState l = 1 ∧ t.mtTenant l = u.bitFld 8 2 % 2 ^ (F.MTF_SLOT_STATUS_TENANT l).width ∧ t.mtf = { s.mtf with loading := some l } ∧ t.fld F.MTF_CMD_BUSY = 1) ∧
      (u.bitCode l ≠ 0 → s.Answered t 0x1600020 [(F.MTF_CMD_RESULT_CODE, u.bitCode l)] ∧ t.mtState l = 0 ∧ t.mtf = s.mtf ∧ t.fld F.MTF_CMD_BUSY = 0) ∧
      t.sent = s.sent) ∧
  (∀ (slot : Nat) (s : State),
    let l : Nat := slot % 8
    let u : State := s.mtfStart 0 0 slot (fun t _ => t)
    s.pins.powered = true → s.flag F.MTF_CMD_BUSY = false → s.mtLeads l = true → s.mtState l = 0 → u.bitCode l = 0 →
    ∃ t, exec (.slotLoad slot) s = .next t ∧
      t.mtState l = 1 ∧ t.mtTenant l = u.bitFld 8 2 % 2 ^ (F.MTF_SLOT_STATUS_TENANT l).width ∧
      t.mtf = { s.mtf with loading := some l } ∧ t.fld F.MTF_CMD_BUSY = 1) ∧
  (∀ (selfOk : Bool) (l : Nat) (key : Bytes) (s : State),
    let a : Nat := s.bitAddr
    let n : Nat := s.bitFld 0x18 4
    let p : Option Bytes := gcmDec key (gcmIv (s.bitFld 0xC 4) (s.bitFld 0x10 8)) (s.rd a 256) (s.rd (a + 256) n) (s.rd (a + 256 + n) 16)
    s.pins.powered = true → s.mtf.loading = some l → l < 8 → s.keyOf (0x2000 + s.bitFld 0xA 2) = some key →
    ∃ t, exec (.slotLoadComplete selfOk) s = .next t ∧
      ((p.isSome = true ∧ selfOk = true) → t.mtState l = 2 ∧ t.fld F.MTF_ISR_LOADED = 1 ∧ t.fld F.MTF_CMD_RESULT_CODE = 0) ∧
      ((p.isNone = true ∨ selfOk = false) → t.mtState l = 0 ∧ t.mtTenant l = 0 ∧ t.mtf.groups.get? l = none ∧ t.fld F.MTF_CMD_RESULT_CODE = 1) ∧
      t.mtf.loading = none ∧ t.fld F.MTF_CMD_BUSY = 0) ∧
  (∀ (slot : Nat) (s : State),
    let l : Nat := slot % 8
    s.pins.powered = true → s.flag F.MTF_CMD_BUSY = false → s.mtLeads l = true → s.mtState l = 2 ∨ s.mtState l = 3 →
    s.fld (F.MTF_SLOT_BINDS_BINDINGS l) = 0 →
    ∃ t, exec (.slotUnload slot) s = .next t ∧
      s.Answered t 0x1600020 [(F.MTF_CMD_RESULT_CODE, 0)] ∧ t.mtState l = 0 ∧ t.mtTenant l = 0 ∧
      t.mtf.groups = s.mtf.groups.del l ∧ t.fld F.MTF_ISR_CMD_DONE = 1 ∧ t.fld F.MTF_CMD_BUSY = 0) ∧
  (∀ (slot mode : Nat) (s : State),
    let l : Nat := slot % 8
    let vol : Nat := s.fld F.MTF_CMD_ARG_VOLUME
    let m : Nat := mode % 2 ^ F.MTF_CMD_MODE.width
    s.pins.powered = true → s.flag F.MTF_CMD_BUSY = false → s.mtLeads l = true → s.mtState l = 2 → s.bindRefused l vol m = false →
    ∃ t, exec (.bind slot mode) s = .next t ∧
      s.Answered t 0x1600020 [(F.MTF_CMD_RESULT_CODE, 0)] ∧
      t.fld (F.MTF_SLOT_BINDS_BINDINGS l) = (s.fld (F.MTF_SLOT_BINDS_BINDINGS l) + 1) % 2 ^ (F.MTF_SLOT_BINDS_BINDINGS l).width ∧
      ((∀ j < 4, ¬ s.inRing (s.bindAddr vol + j)) → t.rdN (s.bindAddr vol) 4 = l + 8 + 16 * m) ∧
      (∀ b, ¬ s.inRing b → (b < s.bindAddr vol ∨ s.bindAddr vol + 4 ≤ b) → memGet t.dram b = memGet s.dram b) ∧ t.mtf = s.mtf) ∧
  (∀ (slot mode : Nat) (s : State),
    let l : Nat := slot % 8
    let vol : Nat := s.fld F.MTF_CMD_ARG_VOLUME
    s.pins.powered = true → s.flag F.MTF_CMD_BUSY = false → s.mtLeads l = true → (s.bindingOf vol).map (·.1) = some l →
    ∃ t, exec (.unbind slot mode) s = .next t ∧
      (s.mtHolds vol = false → s.Answered t 0x1600020 [(F.MTF_CMD_RESULT_CODE, 0)] ∧ t.mtf = { s.mtf with unbinding := none } ∧ t.fld F.MTF_CMD_BUSY = 0) ∧
      (s.mtHolds vol = true → t.mtf = { s.mtf with unbinding := some vol } ∧ t.fld F.MTF_CMD_BUSY = 1) ∧
      t.fld (F.MTF_SLOT_BINDS_BINDINGS l) = s.fld (F.MTF_SLOT_BINDS_BINDINGS l) - 1 ∧
      ((∀ j < 4, ¬ s.inRing (s.bindAddr vol + j)) → t.bindingOf vol = none) ∧
      (∀ b, ¬ s.inRing b → (b < s.bindAddr vol ∨ s.bindAddr vol + 4 ≤ b) → memGet t.dram b = memGet s.dram b)) ∧
  (∀ (v : Nat) (s : State),
    s.pins.powered = true → s.mtf.unbinding = some v → s.mtHolds v = false →
    ∃ t, exec (.unbindDrained) s = .next t ∧
      s.Answered t 0x1600020 [(F.MTF_CMD_RESULT_CODE, 0)] ∧ t.mtf = { s.mtf with unbinding := none } ∧ t.fld F.MTF_CMD_BUSY = 0 ∧
      t.fld F.MTF_ISR_CMD_DONE = 1) ∧
  (∀ (op slot : Nat) (s : State),
    s.pins.powered = true → s.flag F.MTF_CMD_BUSY = false →
    ∃ t, exec (.mtfReservedOp op slot) s = .next t ∧
      s.Answered t 0x1600020 [(F.MTF_CMD_RESULT_CODE, 6)] ∧ t.fld F.MTF_CMD_BUSY = 0 ∧ t.fld F.MTF_ISR_CMD_DONE = 1 ∧
      t.mtf = s.mtf ∧ (∀ b, ¬ s.inRing b → memGet t.dram b = memGet s.dram b))

/-- The MT stage, faults of a slot, its output and the shell's ports (18_motif_slots.md, The shell; 18_motif_slots.md,
Binding volumes; 18_motif_slots.md, Loading and the slot states; 18_motif_slots.md, MTF registers). -/
def Obligations.SlotFaultsAndPortsTakeEffect : Prop :=
  (∀ (sid taken : Nat) (x : Stitch) (s : State),
    let u : State := s.mtWork sid x taken
    s.pins.powered = true → s.AtStage sid stMT x → x.mt = none →
    ∃ t, exec (.mtStage sid .good taken) s = .next t ∧
      t = s.live u.afterStage ∧ (u.stitchAfter sid).any (fun y => y.data == x.data && bit y.done (stMT - 1)) = true ∧ u.mtf = s.mtf) ∧
  (∀ (sid taken l mode : Nat) (x : Stitch) (s : State),
    let u : State := s.mtWork sid x taken
    let g : MtGroup := s.mtGroup l
    s.pins.powered = true → s.AtStage sid stMT x → x.mt = some (l, mode) → (s.mtf.groups.get? l).isSome = true → x.cls = 0 →
    bit mode 0 = true →
    ∃ t, exec (.mtStage sid .good taken) s = .next t ∧
      t = s.live u.afterStage ∧ (u.stitchAfter sid).any (fun y => y.data == x.data && bit y.done (stMT - 1)) = true ∧
      ((s.mtState l = 2 ∧ (g.queue.drop taken).length < 64) → (u.mtGroup l).queue = g.queue.drop taken ++ [⟨x.lba, x.volume, mode, 0, g.skipped % 2 ^ 32, x.data⟩] ∧ (u.mtGroup l).skipped = 0) ∧
      ((s.mtState l ≠ 2 ∨ 64 ≤ (g.queue.drop taken).length) → (u.mtGroup l).queue = g.queue.drop taken ∧ (u.mtGroup l).skipped = g.skipped + 1)) ∧
  (∀ (slot : Nat) (s : State),
    let l : Nat := slot % 8
    let u : State := s.mtFault l 1
    s.pins.powered = true → s.mtState l = 2 → (s.mtGroup l).xform ≠ [] →
    ∃ t, exec (.slotOutputTimeout slot) s = .next t ∧
      t = s.live u.afterStage ∧ u.mtState l = 3 ∧ u.fld (F.MTF_SLOT_STATUS_CAUSE l) = 1 ∧ u.fld F.MTF_ISR_FAULT = 1 ∧
      (u.mtGroup l).queue = [] ∧ (u.mtGroup l).xform = []) ∧
  (∀ (slot mw : Nat) (s : State),
    let l : Nat := slot % 8
    let u : State := s.powerSample l mw
    s.pins.powered = true → s.mtState l = 2 → 5 * s.capMw l < 4 * mw →
    ∃ t, exec (.slotPowerSample slot mw) s = .next t ∧
      t = s.live u.afterStage ∧ u.mtState l = 3 ∧ u.fld (F.MTF_SLOT_STATUS_CAUSE l) = 2 ∧ u.fld F.MTF_ISR_FAULT = 1 ∧
      u.fld (F.MTF_SLOT_POWER_NOW_MW l) = mw % 2 ^ (F.MTF_SLOT_POWER_NOW_MW l).width) ∧
  (∀ (slot mw : Nat) (s : State),
    let l : Nat := slot % 8
    let u : State := s.powerSample l mw
    s.pins.powered = true → s.mtState l = 2 → 9 * s.capMw l ≤ 10 * mw → mw ≤ s.capMw l →
    ∃ t, exec (.slotPowerSample slot mw) s = .next t ∧
      t = s.live u.afterStage ∧ u.mtState l = 2 ∧ u.fld (F.MTF_SLOT_POWER_NOW_MW l) = mw % 2 ^ (F.MTF_SLOT_POWER_NOW_MW l).width ∧
      u.mtf = { s.mtf with groups := s.mtf.groups.modify l fun g => { g with above := 0, under := 0 } }) ∧
  (∀ (slot : Nat) (s : State),
    let l : Nat := slot % 8
    let u : State := s.mtFault l 4
    s.pins.powered = true → s.mtState l = 2 →
    ∃ t, exec (.slotErr slot) s = .next t ∧
      t = s.live u.afterStage ∧ u.mtState l = 3 ∧ u.fld (F.MTF_SLOT_STATUS_CAUSE l) = 4 ∧ u.fld F.MTF_ISR_FAULT = 1) ∧
  (∀ (slot sid : Nat) (data : Bytes) (r : List Nat) (x : Stitch) (s : State),
    let l : Nat := slot % 8
    let b : Bytes := (data ++ zeroBlock).take 4096
    let u : State := s.takeBlkOut l b true
    s.pins.powered = true → s.mtState l = 2 → (s.mtf.groups.get? l).isSome = true → (s.mtGroup l).xform = sid :: r →
    s.stitch? sid = some x → x.stage = stMT →
    ∃ t, exec (.blkOut slot data true) s = .next t ∧
      t = s.live u.afterStage ∧ (u.mtGroup l).xform = r ∧
      (u.stitchAfter sid).any (fun y => y.data == b && y.guard == carryGuard b && bit y.done (stMT - 1)) = true) ∧
  (∀ (slot handle off : Nat) (data : Option Bytes) (e : MemErr) (s : State),
    let l : Nat := slot % 8
    let h : Nat := handle % 2 ^ 32
    let p : Nat := handlePool h
    let ok : Bool := h != noBobbin && decide (handleIndex h < s.poolCount p) && s.bobState p (handleIndex h) == 1 && s.poolTenant p == s.mtTenant l && decide (off + 64 ≤ s.poolSize p)
    let u : State := s.shellMem l h off data e
    s.pins.powered = true → s.mtState l = 2 →
    ∃ t, exec (.shellMemAccess slot handle off data e) s = .next t ∧
      t = s.live u.afterStage ∧
      (ok = true → u = s.request { cls := 6, addr := s.bobbinAddr h + off, len := 64, data := data.map fun d => (d ++ zeros 64).take 64 } e) ∧
      (ok = false → u.mtState l = 3 ∧ u.fld (F.MTF_SLOT_STATUS_CAUSE l) = 5 ∧ u.fld (F.MTF_SLOT_EVENTS_VIOLATIONS l) = min (s.fld (F.MTF_SLOT_EVENTS_VIOLATIONS l) + 1) (2 ^ (F.MTF_SLOT_EVENTS_VIOLATIONS l).width - 1) ∧ u.dram = s.dram)) ∧
  (∀ (slot pool : Nat) (s : State),
    let l : Nat := slot % 8
    let g : Nat × Nat × State := s.allocBobbin (pool % 64) (s.mtTenant l)
    let u : State := s.shellBob l (.alloc pool)
    s.pins.powered = true → s.mtState l = 2 →
    ∃ t, exec (.shellBobOp slot (.alloc pool)) s = .next t ∧
      t = s.live u.afterStage ∧ (s.poolTenant (pool % 64) = s.mtTenant l → u = g.2.2.send (.bobbin 6 (s.mtTenant l) g.2.1 g.1)) ∧
      (s.poolTenant (pool % 64) ≠ s.mtTenant l → u.mtState l = 3 ∧ u.fld (F.MTF_SLOT_STATUS_CAUSE l) = 5)) ∧
  (∀ (slot qpn k : Nat) (w : Bytes) (q : Qp) (s : State),
    let l : Nat := slot % 8
    let u : State := s.wr (q.sqAddr + 64 * (k % q.sqSize)) ((w ++ zeros 64).take 64)
    s.pins.powered = true → s.mtState l = 2 → s.qp? qpn = some q → q.cls = 1 → q.tenant = s.mtTenant l → q.sqSize ≠ 0 →
    ∃ t, exec (.shellQpOp slot (.postSend qpn k w)) s = .next t ∧
      t = s.live u.afterStage ∧ u.rd (q.sqAddr + 64 * (k % q.sqSize)) 64 = (w ++ zeros 64).take 64 ∧
      (∀ b, b < q.sqAddr + 64 * (k % q.sqSize) ∨ q.sqAddr + 64 * (k % q.sqSize) + 64 ≤ b → memGet u.dram b = memGet s.dram b)) ∧
  (∀ (slot qpn : Nat) (block : Bytes) (q : Qp) (s : State),
    let l : Nat := slot % 8
    let b : Bytes := (block ++ zeroBlock).take 4096
    let stream : Bytes := encodeStream 1 [] 0 b
    let raw : Bool := slotClassOf 8 stream.length == 15
    let frame : Bytes := frameBytes (carryGuard b) 0 0 raw (if raw then b else stream)
    let pkts : List RocePkt := dataPkts q .send none 0 0 frame
    let u : State := s.shellSend l qpn block
    s.pins.powered = true → s.mtState l = 2 → s.portsOpen → s.qp? qpn = some q → q.cls = 1 → q.tenant = s.mtTenant l → q.state = 1 →
    ∃ t, exec (.shellExport slot qpn block) s = .next t ∧
      t = s.live u.afterStage ∧ u.sent = s.sent ++ pkts.map Sent.roce ∧
      u.qp? qpn = some { q with sqPsn := (q.sqPsn + pkts.length) % 2 ^ 24, retriesLeft := q.retry, rnrLeft := q.rnrRetry, out := q.out ++ [⟨0, 1, 0, q.sqPsn, (q.sqPsn + pkts.length - 1) % 2 ^ 24, frame.length, false, 0, 0, none, [], [], pkts⟩] })

/-- LOAD of an image, the steps of an update and how they end (19_live_update_and_lifeline.md, What each class changes
and how; 19_live_update_and_lifeline.md, Compatibility and the order of an update; 19_live_update_and_lifeline.md,
Moving head firmware, cluster by cluster; 19_live_update_and_lifeline.md, UPD registers). -/
def Obligations.UpdateStepsTakeEffect : Prop :=
  (∀ (bodies : List SectionBody) (s : State),
    let u : State := s.updStart 0 (s.fld F.UPD_CMD_CLASS) (s.fld F.UPD_CMD_ARG) id
    let img : Image := ⟨u.rd u.updImage (u.fld F.UPD_IMG_LEN_LENGTH), bodies⟩
    let bad : Bool := u.fld F.UPD_IMG_LEN_LENGTH != img.length || img.cls == 0 || decide (8 ≤ img.cls) || u.checkImage img.cls false img != 0 || (decide (3 ≤ img.cls) && !compatFits img)
    let older : Bool := decide (img.version < s.fld (F.UPD_RUN_VERSION_VERSION img.cls)) && s.phase != 4
    s.pins.powered = true → s.flag F.UPD_CMD_BUSY = false →
    ∃ t, exec (.updateLoad bodies) s = .next t ∧
      (bad = true → s.Answered t 0x1700018 [(F.UPD_RESULT_CODE, 1)] ∧ t.upd = s.upd) ∧
      ((bad = false ∧ older = true) → s.Answered t 0x1700018 [(F.UPD_RESULT_CODE, 2)] ∧ t.upd = s.upd) ∧
      ((bad = false ∧ older = false) → s.Answered t 0x1700018 [(F.UPD_RESULT_CODE, 0)] ∧ t.upd.staged = s.upd.staged.put img.cls img) ∧
      t.fld F.UPD_CMD_BUSY = 0 ∧ t.fld F.UPD_ISR_CMD_DONE = 1 ∧ t.boot = s.boot) ∧
  (∀ (bodies : List SectionBody) (s : State),
    let u : State := s.updStart 0 (s.fld F.UPD_CMD_CLASS) (s.fld F.UPD_CMD_ARG) id
    let img : Image := ⟨u.rd u.updImage (u.fld F.UPD_IMG_LEN_LENGTH), bodies⟩
    s.pins.powered = true → s.flag F.UPD_CMD_BUSY = false → u.fld F.UPD_IMG_LEN_LENGTH = img.length → 0 < img.cls ∧ img.cls < 8 →
    u.checkImage img.cls false img = 0 → img.cls < 3 ∨ compatFits img = true →
    s.fld (F.UPD_RUN_VERSION_VERSION img.cls) ≤ img.version ∨ s.phase = 4 →
    ∃ t, exec (.updateLoad bodies) s = .next t ∧
      s.Answered t 0x1700018 [(F.UPD_RESULT_CODE, 0)] ∧ t.upd.staged = s.upd.staged.put img.cls img ∧ t.fld F.UPD_CMD_BUSY = 0) ∧
  (∀ (cls arg : Nat) (s : State),
    s.pins.powered = true → s.flag F.UPD_CMD_BUSY = false → cls % 16 < 3 ∨ 7 < cls % 16 →
    ∃ t, exec (.updateStep cls arg) s = .next t ∧
      s.Answered t 0x1700018 [(F.UPD_RESULT_CODE, 9)] ∧ t.upd = s.upd ∧ t.fld F.UPD_CMD_BUSY = 0) ∧
  (∀ (cls arg : Nat) (s : State),
    s.pins.powered = true → s.flag F.UPD_CMD_BUSY = false → 3 ≤ cls % 16 → cls % 16 ≤ 7 → s.fld F.GLB_PAIR_STATUS_PARTNER_STATE = 4 →
    ∃ t, exec (.updateStep cls arg) s = .next t ∧
      s.Answered t 0x1700018 [(F.UPD_RESULT_CODE, 6)] ∧ t.upd = s.upd ∧ t.headState = s.headState) ∧
  (∀ (arg : Nat) (g : Image) (s : State),
    let a : Nat := arg % 256 / 128 * 128 + arg % 4
    s.pins.powered = true → s.flag F.UPD_CMD_BUSY = false → s.fld F.GLB_PAIR_STATUS_PARTNER_STATE ≠ 4 → s.playing = true →
    s.solo = false → s.phase ≠ 4 → s.upd.staged.get? 4 = some g → s.upd.checked.contains 4 = true → s.stepMoot 4 a = false →
    ∃ t, exec (.updateStep 4 arg) s = .next t ∧
      t.upd.step = some ⟨4, a, false⟩ ∧ t.headState = 4 ∧ t.flag F.IRQ_SWAP_HOLDING = true ∧ t.phase = 2 ∧
      t.fld F.UPD_STATUS_CLASS = 4 ∧ t.fld F.UPD_STATUS_SUSPENDED = 0 ∧ t.fld F.UPD_CMD_BUSY = 1 ∧ t.upd.staged = s.upd.staged ∧
      t.newClusters = s.newClusters) ∧
  (∀ (s : State),
    s.pins.powered = true →
    ∃ t, exec (.boundOff) s = .next t ∧
      t = { s with upd := { s.upd with step := s.upd.step.map fun x => { x with off := x.off || x.cls == 3 || x.cls == 4 } } }) ∧
  (∀ (held : Nat) (x : UpdStep) (s : State),
    let k : Nat := x.arg % 4
    s.pins.powered = true → s.upd.step = some x → x.cls = 4 → x.arg < 128 → s.phase ≠ 4 → s.headState = 4 →
    ∃ t, exec (.boundOn held) s = .next t ∧
      t.upd.step = none ∧ t.fld F.UPD_RESULT_CODE = 0 ∧ t.fld F.UPD_CMD_BUSY = 0 ∧
      (∀ j, j < 4 → bit t.newClusters j = (bit s.newClusters j || decide (j = k))) ∧ t.upd.away = k :: s.upd.away ∧
      t.upd.lastStep = some s.turn ∧ t.headState = 3 ∧ t.flag F.IRQ_SWAP_HOLDING = false ∧
      t.fld F.UPD_PAUSE_STEPS = min (s.fld F.UPD_PAUSE_STEPS + 1) 0xFFFF ∧
      t.fld F.UPD_PAUSE_MAX_NS = min 0xFFFF (max held (s.fld F.UPD_PAUSE_MAX_NS)) ∧
      (s.fld F.UPD_STATUS_STEP_FAILS) = t.fld F.UPD_STATUS_STEP_FAILS) ∧
  (∀ (held : Nat) (x : UpdStep) (s : State),
    s.pins.powered = true → s.upd.step = some x → x.cls = 4 → s.headState = 4 →
    ∃ t, exec (.stepBindTimeout held) s = .next t ∧
      t.upd.step = none ∧ t.fld F.UPD_RESULT_CODE = 4 ∧ t.fld F.UPD_CMD_BUSY = 0 ∧ t.newClusters = s.newClusters ∧
      t.upd.away = s.upd.away ∧ t.headState = 3 ∧ t.flag F.IRQ_SWAP_HOLDING = false ∧
      t.fld F.UPD_STATUS_STEP_FAILS = min (s.fld F.UPD_STATUS_STEP_FAILS + 1) 0xFF ∧ t.fld F.UPD_ISR_STEP_FAIL = 1 ∧
      ((s.upd.fails.get? (256 * x.cls + x.arg)).getD 0 ≠ 0 → t.flag F.UPD_STATUS_FROG_ADVISED = true)) ∧
  (∀ (x : UpdStep) (s : State),
    s.pins.powered = true → s.upd.step = some x → x.cls = 3 → s.headState = 4 →
    ∃ t, exec (.refereeBindTimeout) s = .next t ∧
      t.upd.step = none ∧ t.fld F.UPD_RESULT_CODE = 4 ∧ t.fld F.UPD_CMD_BUSY = 0 ∧ t.upd.referee = s.upd.referee ∧
      t.headState = 3 ∧ t.fld F.UPD_STATUS_STEP_FAILS = min (s.fld F.UPD_STATUS_STEP_FAILS + 1) 0xFF ∧
      t.fld F.UPD_ISR_STEP_FAIL = 1)

/-- Module bridges, frogging, confirmation, the directory and the floors (19_live_update_and_lifeline.md, Module
bridges; 19_live_update_and_lifeline.md, Confirmation and the floors; 19_live_update_and_lifeline.md, UPD
registers). -/
def Obligations.BridgesFrogAndFloorsTakeEffect : Prop :=
  (∀ (arg a : Nat) (g : Image) (s : State),
    let m : Nat := arg % 64
    let n : Nat := (g.length + 4095) / 4096
    s.pins.powered = true → s.flag F.UPD_CMD_BUSY = false → s.upd.staged.get? 7 = some g → s.upd.addr.get? 7 = some a →
    s.portUp m = true → s.silent = false →
    ∃ t, exec (.bridgeSend arg) s = .next t ∧
      t.upd = { s.upd with sending := some m } ∧ t.fld F.UPD_CMD_BUSY = 1 ∧
      t.sent = s.sent ++ (List.range n).map (fun k => Sent.fwChunk m (4096 * k) (s.rd (a + 4096 * k) (min 4096 (g.length - 4096 * k)))) ++ [Sent.fwCommit m g.length (sha256 (s.rd a g.length))] ∧
      t.dram = s.dram) ∧
  (∀ (port code : Nat) (s : State),
    s.pins.powered = true → s.upd.sending = some port →
    ∃ t, exec (.fwStatus port code) s = .next t ∧
      t.upd = { s.upd with sending := none } ∧ t.fld F.UPD_CMD_BUSY = 0 ∧ t.fld F.UPD_ISR_CMD_DONE = 1 ∧
      (code = 0 → s.Answered t 0x1700018 [(F.UPD_RESULT_CODE, 0)]) ∧ (code ≠ 0 → t.fld F.UPD_RESULT_CODE ≠ 0) ∧ t.sent = s.sent) ∧
  (∀ (arg : Nat) (g : Image) (s : State),
    let m : Nat := arg % 64
    s.pins.powered = true → s.flag F.UPD_CMD_BUSY = false → s.upd.staged.get? 7 = some g → s.phase ≠ 4 →
    s.upd.checked.contains 7 = true → s.bridgeMayGo m = true → s.silent = false →
    ∃ t, exec (.bridgeActivate arg) s = .next t ∧
      t.upd.step = some ⟨7, m, false⟩ ∧ t.sent.getLast? = some (.fwActivate m) ∧ t.phase = 2 ∧
      (s.playing = true → t.headState = 4) ∧ t.flag F.IRQ_SWAP_HOLDING = false ∧ t.fld F.UPD_CMD_BUSY = 1) ∧
  (∀ (s : State),
    s.pins.powered = true → s.flag F.UPD_CMD_BUSY = false →
    ∃ t, exec (.frog) s = .next t ∧
      s.Answered t 0x1700018 [(F.UPD_RESULT_CODE, 0)] ∧ t.upd = { s.upd with frogged := true, staged := s.upd.old, addr := [] } ∧
      t.fld F.UPD_STATUS_DIR_STALE = 1 ∧ (s.upd.oldVer = [] → t.phase = 5) ∧
      ((s.upd.oldVer.any fun p => !s.classBack p.1) = true → t.phase = 4) ∧ t.fld F.UPD_CMD_BUSY = 0) ∧
  (∀ (s : State),
    s.pins.powered = true → s.flag F.UPD_CMD_BUSY = false → s.mayConfirm = true →
    ∃ t, exec (.confirm) s = .next t ∧
      s.Answered t 0x1700018 [(F.UPD_RESULT_CODE, 0)] ∧ t.upd = {} ∧ t.phase = 0 ∧ t.newClusters = 0 ∧
      t.fld F.UPD_STATUS_SUSPENDED = 0 ∧ t.fld F.UPD_CMD_BUSY = 0 ∧ t.boot.run = s.boot.run) ∧
  (∀ (s : State),
    s.pins.powered = true → s.flag F.UPD_CMD_BUSY = false → s.mayConfirm = false →
    ∃ t, exec (.confirm) s = .next t ∧
      s.Answered t 0x1700018 [(F.UPD_RESULT_CODE, 8)] ∧ t.upd = s.upd ∧ t.phase = s.phase ∧ t.boot = s.boot) ∧
  (∀ (s : State),
    s.pins.powered = true → s.flag F.UPD_CMD_BUSY = false →
    ∃ t, exec (.dirDone) s = .next t ∧
      s.Answered t 0x1700018 [(F.UPD_RESULT_CODE, 0)] ∧ t.fld F.UPD_STATUS_DIR_STALE = 0 ∧ t.upd = s.upd ∧ t.phase = s.phase) ∧
  (∀ (op : Nat) (s : State),
    s.pins.powered = true → s.flag F.UPD_CMD_BUSY = false →
    ∃ t, exec (.updReservedOp op) s = .next t ∧
      s.Answered t 0x1700018 [(F.UPD_RESULT_CODE, 9)] ∧ t.upd = s.upd ∧ t.fld F.UPD_CMD_BUSY = 0 ∧ t.sent = s.sent) ∧
  (∀ (who : Requester) (cls : Nat) (flash : List Nat) (s : State),
    s.pins.powered = true → who ≠ .referee →
    ∃ t, exec (.floorRaise who cls flash) s = .next t ∧
      s.Answered t 0x17000B0 [(F.UPD_FLOOR_RESULT_CODE, 1)] ∧
      (∀ c, c < 8 → t.fld (F.UPD_FLOOR_FLOOR c) = s.fld (F.UPD_FLOOR_FLOOR c)) ∧
      t.fld F.UPD_EPOCH_EPOCH = s.fld F.UPD_EPOCH_EPOCH ∧ t.boot = s.boot) ∧
  (∀ (cls : Nat) (flash : List Nat) (s : State),
    let c : Nat := cls % 16
    let v : Nat := s.fld F.UPD_FLOOR_VALUE_VALUE
    s.pins.powered = true → 0 < c → s.floorCode c v flash = 0 →
    ∃ t, exec (.floorRaise .referee cls flash) s = .next t ∧
      s.Answered t 0x17000B0 [(F.UPD_FLOOR_RESULT_CODE, 0)] ∧ t.fld (F.UPD_FLOOR_FLOOR c) = v ∧ t.rowsLeft c = s.rowsLeft c - 1 ∧
      t.fld F.UPD_EPOCH_EPOCH = s.fld F.UPD_EPOCH_EPOCH ∧
      (∀ d, d < 8 → d ≠ c → t.fld (F.UPD_FLOOR_FLOOR d) = s.fld (F.UPD_FLOOR_FLOOR d)) ∧
      (∀ d, 0 < d → d < 8 → d ≠ c → t.rowsLeft d = s.rowsLeft d)) ∧
  (∀ (cls : Nat) (flash : List Nat) (s : State),
    let c : Nat := cls % 16
    let v : Nat := s.fld F.UPD_FLOOR_VALUE_VALUE % (if c = 0 then 128 else 2 ^ 32)
    s.pins.powered = true → s.floorCode c v flash ≠ 0 →
    ∃ t, exec (.floorRaise .referee cls flash) s = .next t ∧
      s.Answered t 0x17000B0 [(F.UPD_FLOOR_RESULT_CODE, s.floorCode c v flash)] ∧
      (∀ d, d < 8 → t.fld (F.UPD_FLOOR_FLOOR d) = s.fld (F.UPD_FLOOR_FLOOR d)) ∧
      t.fld F.UPD_FUSE_ROWS_LEFT = s.fld F.UPD_FUSE_ROWS_LEFT ∧ t.fld F.UPD_EPOCH_EPOCH = s.fld F.UPD_EPOCH_EPOCH ∧ t.boot = s.boot)

/-- Row and core repairs, the margin window, regulator retries and the gauges (20_spares_ageing_health.md, Spare tiles
and lanes; 20_spares_ageing_health.md, Ageing and voltage adaptation; 20_spares_ageing_health.md, Gauges;
20_spares_ageing_health.md, RPR registers; 20_spares_ageing_health.md, TLM registers). -/
def Obligations.SparesMarginsAndGaugesTakeEffect : Prop :=
  (∀ (mac row bad : Nat) (s : State),
    let used : List Nat := (s.health.rowsUsed.get? mac).getD []
    let left : List Nat := (List.range 4).filter fun k => !used.contains k
    s.pins.powered = true → s.flag F.RPR_CTRL_AUTO_ROW = true → s.ctl.hold.phase < 2 →
    ∃ t, exec (.sramRowRepair mac row bad) s = .next t ∧
      t.health.rowsUsed.get? mac = some (used ++ left.take (bad + 1)) ∧
      (∀ k, left[bad]? = some k → t.health.remap.get? (mac * 65536 + row) = some k ∧ t.fld F.RPR_ISR_REPAIRED = 1) ∧
      (left[bad]? = none → t.fld F.RPR_ISR_SPARES_OUT = 1 ∧ t.health.remap = s.health.remap ∧ t.health.macrosOut.contains mac = true) ∧
      ((left[bad]? = none ∧ s.health.macrosOut.contains mac = false) → t.fld F.RPR_SPARES_MACROS_OUT = min (s.fld F.RPR_SPARES_MACROS_OUT + 1) 0xFF) ∧
      t.sent = s.sent) ∧
  (∀ (cluster core : Nat) (s : State),
    let c : Nat := cluster % 4
    let target : Nat := 8 * c + core % 8
    s.pins.powered = true → s.flag F.RPR_CMD_BUSY = false →
    ∃ t, exec (.repairCore cluster core) s = .next t ∧
      ((2 ≤ s.ctl.hold.phase ∨ s.headState = 4) → s.Answered t 0x200014 [(F.RPR_RESULT_CODE, 3)] ∧ t.health = s.health) ∧
      ((s.ctl.hold.phase < 2 ∧ s.headState ≠ 4 ∧ s.coreRouted target = true) → s.Answered t 0x200014 [(F.RPR_RESULT_CODE, 2)] ∧ t.health = s.health) ∧
      ((s.ctl.hold.phase < 2 ∧ s.headState ≠ 4 ∧ s.coreRouted target = false ∧ bit (s.fld F.RPR_SPARES_CORE_SPARE) c = false) → s.Answered t 0x200014 [(F.RPR_RESULT_CODE, 1)] ∧ t.health = s.health) ∧
      ((s.ctl.hold.phase < 2 ∧ s.headState ≠ 4 ∧ s.coreRouted target = false ∧ bit (s.fld F.RPR_SPARES_CORE_SPARE) c = true) → s.Answered t 0x200014 [(F.RPR_RESULT_CODE, 0)] ∧ t.health = { s.health with coreFor := s.health.coreFor.put c (core % 8), coreHeld := s.health.coreHeld.filter (fun k => k != target) ++ [target] } ∧ t.fld F.RPR_SPARES_CORE_SPARE = s.fld F.RPR_SPARES_CORE_SPARE - 2 ^ c) ∧
      t.fld F.RPR_ISR_CMD_DONE = 1 ∧ t.sent = s.sent) ∧
  (∀ (op : Nat) (s : State),
    s.pins.powered = true → s.flag F.RPR_CMD_BUSY = false →
    ∃ t, exec (.rprReservedOp op) s = .next t ∧
      s.Answered t 0x200014 [(F.RPR_RESULT_CODE, 4)] ∧ t.fld F.RPR_ISR_CMD_DONE = 1 ∧ t.health = s.health ∧ t.sent = s.sent) ∧
  (∀ (e : Nat) (s : State),
    s.pins.powered = true → s.taskDue 4 1024 = true →
    ∃ t, exec (.marginWindow e) s = .next t ∧
      (∀ d, d < 5 → t.fld (F.RPR_MARGIN_MIN_WIN d) = (s.health.winMin.get? d).getD (s.fld (F.RPR_MARGIN_MIN_WIN d)) % 2 ^ 8) ∧
      (∀ r, r < 3 → s.flag (F.RPR_VADJ_RAIL_EN r) = false → t.fld (F.RPR_VADJ_STEPS r) = s.fld (F.RPR_VADJ_STEPS r)) ∧
      (∀ r, r < 3 → s.flag (F.RPR_VADJ_RAIL_EN r) = true → railMargin (fun d => t.fld (F.RPR_MARGIN_MIN_WIN d)) r < s.fld F.RPR_MARGIN_CFG_LOW → s.fld (F.RPR_VADJ_STEPS r) < s.fld (F.RPR_VADJ_OFS_MAX r) → t.fld (F.RPR_VADJ_STEPS r) = s.fld (F.RPR_VADJ_STEPS r) + 1 ∧ t.health.raisedAt.get? r = some s.turn ∧ t.fld F.RPR_ISR_VADJ_UP = 1) ∧
      (∀ r, r < 3 → s.flag (F.RPR_VADJ_RAIL_EN r) = true → railMargin (fun d => t.fld (F.RPR_MARGIN_MIN_WIN d)) r < s.fld F.RPR_MARGIN_CFG_LOW → s.fld (F.RPR_VADJ_OFS_MAX r) ≤ s.fld (F.RPR_VADJ_STEPS r) → t.fld (F.RPR_VADJ_STEPS r) = s.fld (F.RPR_VADJ_STEPS r) ∧ t.fld (F.RPR_VADJ_AGE_LIMIT r) = 1) ∧
      t.health.winMin = [] ∧ t.trn = { s.trn with tasks := s.trn.tasks.put 4 s.turn } ∧
      (t.dram = s.dram ∨ s.fld F.RPR_IER_VADJ_UP = 1 ∨ s.fld F.RPR_IER_AGE_LIMIT = 1)) ∧
  (∀ (rail : Nat) (acked : Bool) (s : State),
    let r : Nat := rail % 3
    s.pins.powered = true → s.health.waitAck.contains r = true →
    ∃ t, exec (.regulatorRetry rail acked) s = .next t ∧
      (acked = true → t = { s with health := { s.health with waitAck := s.health.waitAck.filter (fun k => k != r), acked := s.health.acked.put r (s.fld (F.RPR_VADJ_STEPS r)) } }) ∧
      (acked = false → t.fld F.RPR_ISR_VADJ_FAIL = 1 ∧ t.sent = s.sent ++ [Sent.smbus (s.fld (F.RPR_VADJ_RAIL_ADDR r)) (s.fld (F.RPR_VADJ_RAIL_CMD r)) (s.fld (F.RPR_VADJ_STEPS r))] ∧ t.health = { s.health with waitAck := s.health.waitAck.filter (fun k => k != r) ++ [r] })) ∧
  (∀ (s : State),
    s.pins.powered = true → s.taskDue 5 1024 = true →
    ∃ t, exec (.gaugeRefresh) s = .next t ∧
      t.fld F.TLM_GAUGE_SEQ_SEQ = (s.fld F.TLM_GAUGE_SEQ_SEQ + 1) % 2 ^ 32 ∧ t.fld F.TLM_ISR_GAUGE = 1 ∧
      t.health = { s.health with overSeen := s.pair F.TLM_TJ_OVER_LO_VALUE F.TLM_TJ_OVER_HI_VALUE } ∧
      t.trn = { s.trn with tasks := s.trn.tasks.put 5 s.turn } ∧
      (∀ m, m < s.modules → m < 64 → t.fld (F.TLM_MOD_TEMP_NOW m) = unsigned 8 ((s.health.tempNow.get? m).getD 0) ∧ t.fld (F.TLM_MOD_WEAR_MAX m) = (s.wearGauge m).1 % 2 ^ 16) ∧
      t.sent = s.sent) ∧
  (∀ (s : State),
    s.pins.powered = true →
    ∃ t, exec (.tlmRebuild) s = .next t ∧
      t.fld F.TLM_ISR_REBUILT = 1 ∧
      t.health.bad = ((s.badMembers.filter fun b => s.memberHalf b == 0).length, (s.badMembers.filter fun b => s.memberHalf b == 1).length) ∧
      t.health = { s.health with wear := t.health.wear, bad := t.health.bad } ∧
      (∀ b, ¬ s.inRing b → memGet t.dram b = memGet s.dram b) ∧ t.sent = s.sent)

/-- Checkpoints, export, replay and JTAG authentication (21_replay_and_diagnosis.md, Records;
21_replay_and_diagnosis.md, Export; 21_replay_and_diagnosis.md, Replay on a lab head; 21_replay_and_diagnosis.md,
JTAG and trace). -/
def Obligations.JournalCommandsTakeEffect : Prop :=
  (∀ (s : State),
    s.pins.powered = true → s.taskDue taskCkpt s.ckptTurns = true → bit (s.fld F.RPJ_CTRL_TYPE_MASK) 4 = true → s.holds 0 = true →
    ∃ t, exec (.checkpoint) s = .next t ∧
      (s.taskRan taskCkpt).JournalFrame t ∧ t.fld F.RPJ_ISR_CKPT = 1 ∧ t.rpj.lastCkpt.1 = s.fld F.RPJ_RSEQ_COUNT) ∧
  (∀ (who : Requester) (slot seg : Nat) (s : State),
    s.pins.powered = true → slot < 0x400 → seg < 2 ^ 18 → s.flag F.RPJ_EXP_CMD_BUSY = false →
    ∃ t, exec (.exportCmd who slot seg) s = .next t ∧
      t.rpj.exports = s.rpj.exports + 1 ∧ t.fld F.RPJ_ISR_EXP_DONE = 1 ∧
      s.Answered t 0x1800034 [(F.RPJ_EXP_RESULT_CODE, if s.loaded (0x2000 + slot) = false then 1
      else match s.segBehind seg with | none => 3 | some d => if s.ringRecords < d then 2 else 0)]) ∧
  (∀ (who : Requester) (w : Nat) (s : State),
    s.pins.powered = true →
    ∃ t, exec (.replay who w) s = .next t ∧
      s.SameBut t 0x1800000 ∧ (t.fld F.RPJ_CTRL_REPLAY = if s.mayReplay = true then 1 else 0)) ∧
  (∀ (level : Nat) (key sig : Bytes) (s : State),
    s.pins.powered = true → s.boot.jtagHold = true → s.headState = stCastOn → s.debugSigned level key sig = true →
    level = 1 ∨ level = 2 ∧ s.fld F.GLB_STRAPS_BOOT_MODE = 2 →
    ∃ t, exec (.jtagAuth level key sig) s = .next t ∧
      t.fld F.RPJ_DBG_LEVEL = level ∧ t.boot.jtagHold = false ∧ t.dram = s.dram ∧ t.sec = s.sec)

/-- A refused write is discarded, counted and raised (22_register_space.md, How the window is reached). -/
def Obligations.RefusedAccessCountsAndRaises : Prop :=
  ∀ (who : Requester) (off size value time : Nat) (s : State),
    s.pins.powered = true → s.mayWrite who = true → accessOk off size = false →
    ∃ t, exec (.registerWrite who off size value time) s = .next t ∧
      (((s.setFld F.IRQ_ACCESS_ERR_COUNT (min (s.fld F.IRQ_ACCESS_ERR_COUNT + 1) 63)).setFld F.IRQ_ACCESS_ERR_OFFSET (off % 2 ^ 26)).setFld
        F.IRQ_ISR_ACCESS_ERR 1).JournalFrame t

/-- No two fields of a register of the window share a bit (22_register_space.md, Access codes). -/
def Obligations.RegisterFieldsLieApart : Prop :=
  ∀ off : Nat, (∀ p ∈ regFields off, p.1.off = off ∧ 0 < p.1.width ∧ p.1.lo + p.1.width ≤ 32) ∧
    (regFields off).Pairwise fun p q => p.1.lo + p.1.width ≤ q.1.lo ∨ q.1.lo + q.1.width ≤ p.1.lo

/-- A 32-bit write changes exactly its register's fields, each by its access code (22_register_space.md, Access codes). -/
def Obligations.WrittenWordFollowsAccessCodes : Prop :=
  ∀ (who : Requester) (off w time : Nat) (s : State),
    s.pins.powered = true → s.mayWrite who = true → plainReg off = true → pairAt off = none → heldHi off = false →
    (s.headState = stCastOn ∨ ∀ p ∈ regFields off, changesLocked s (w % 2 ^ 32) p = false) →
    ∃ t, exec (.registerWrite who off 4 w time) s = .next t ∧
      (∀ p ∈ regFields off, t.fld p.1 = fieldAfter s off (w % 2 ^ 32) p) ∧ s.SameBut t off

/-- A write that would change a locked field leaves it and is counted (22_register_space.md, Access codes). -/
def Obligations.LockedChangeIsRefused : Prop :=
  ∀ (who : Requester) (off w time : Nat) (s : State),
    s.pins.powered = true → s.mayWrite who = true → plainReg off = true → pairAt off = none → heldHi off = false →
    off / 0x100000 ≠ 0x18 → off / 0x100000 ≠ 0x1A →
    s.headState ≠ stCastOn → (∃ p ∈ regFields off, changesLocked s (w % 2 ^ 32) p = true) →
    ∃ t, exec (.registerWrite who off 4 w time) s = .next t ∧
      (∀ p ∈ regFields off, t.fld p.1 = fieldAfter s off (w % 2 ^ 32) p) ∧
      t.fld F.IRQ_ACCESS_ERR_COUNT = min (s.fld F.IRQ_ACCESS_ERR_COUNT + 1) 63 ∧
      t.fld F.IRQ_ACCESS_ERR_OFFSET = off ∧ t.fld F.IRQ_ISR_ACCESS_ERR = 1

/-- A _LO read latches _HI for its requester; a _HI write waits for the _LO write (22_register_space.md, 64-bit pairs). -/
def Obligations.PairReadsAndWritesUseTheRequestersLatch : Prop :=
  (∀ (who : Requester) (off : Nat) (s : State), s.pins.powered = true → s.mayRead who = true → (pairAt off).isSome = true →
      (s.latched who).get? off = none →
      ∃ t, exec (.pairLoRead who off) s = .next t ∧ t.sent = s.sent ++ [.regRead (latchOf who) off (s.rawReg off)] ∧
        (t.latched who).get? (off + 4) = some (s.rawReg (off + 4)) ∧
        (∀ other, latchOf other ≠ latchOf who → t.latched other = s.latched other ∧ t.heldBy other = s.heldBy other) ∧
        (∀ f : Fld, f.key ≠ (resSeen off).key → t.fld f = s.fld f) ∧ t.dram = s.dram ∧ t.pins = s.pins) ∧
    (∀ (who : Requester) (off v : Nat) (s : State), s.pins.powered = true → s.mayWrite who = true → heldHi off = true → refereeOnly off = false →
      ∃ t, exec (.pairHiWrite who off v) s = .next t ∧ (t.heldBy who).get? off = some (v % 2 ^ 32) ∧ t = { s with latches := t.latches }) ∧
    (∀ (who : Requester) (off v h : Nat) (s : State), s.pins.powered = true → s.mayWrite who = true → (pairAt off).isSome = true →
      heldHi off = false → plainReg off = true → plainReg (off + 4) = true → (s.heldBy who).get? (off + 4) = some h → s.headState = stCastOn →
      ∃ t, exec (.pairLoWrite who off v) s = .next t ∧ (t.heldBy who).get? (off + 4) = none ∧
        (∀ p ∈ regFields (off + 4), t.fld p.1 = fieldAfter s (off + 4) h p) ∧ (∀ p ∈ regFields off, t.fld p.1 = fieldAfter s off (v % 2 ^ 32) p) ∧
        t.dram = s.dram ∧ t.pins = s.pins ∧ t.sent = s.sent)

/-- A read of a result register returns it and then sets SEEN where VALID is 1 (22_register_space.md, The
result-register convention). -/
def Obligations.ReadingAResultSetsSeen : Prop :=
  ∀ (who : Requester) (off : Nat) (s : State), s.pins.powered = true → s.mayRead who = true → off ∈ resultRegs → pairAt off = none →
    ∃ t, exec (.resultRegisterRead who off) s = .next t ∧ t.sent = s.sent ++ [.regRead (latchOf who) off (s.rawReg off)] ∧
      t.fld (resSeen off) = (if s.flag (resValid off) = true ∧ who ≠ .jtag then 1 else s.fld (resSeen off)) ∧
      (∀ f : Fld, f.key ≠ (resSeen off).key → t.fld f = s.fld f) ∧ t = { s with cells := t.cells, sent := t.sent }

/-- _ISR_SET, IRQ_SWAP, clearing IRQ_ERR_FATAL and the end of the fatal timer (22_register_space.md, Interrupts;
22_register_space.md, Error severities). -/
def Obligations.InterruptRegistersTakeEffect : Prop :=
  (∀ (who : Requester) (off v : Nat) (s : State), s.pins.powered = true → s.mayWrite who = true → off - 8 ∈ isrRegs (off / 0x100000) →
      (refereeOnly off = true → who = .referee) → off / 0x100000 ≠ 0x18 →
      ∃ t, exec (.interruptSet who off v) s = .next t ∧
        (∀ p ∈ regFields off, t.fld { p.1 with off := off - 8 } = if wordField p.1 v = 1 then 1 else s.fld { p.1 with off := off - 8 }) ∧
        (∀ f : Fld, f.blk ≠ 0x18 → (∀ p ∈ regFields off, Fld.key { p.1 with off := off - 8 } ≠ f.key) → t.fld f = s.fld f)) ∧
    (∀ (who : Requester) (s : State), s.pins.powered = true → s.mayWrite who = true →
      ∃ t, exec (.irqSwap who) s = .next t ∧
        (s.flag F.IRQ_SWAP_HOLDING = true → t = s) ∧
        (s.flag F.IRQ_SWAP_HOLDING = false → s.RegsOnly t ∧ ∀ k < 896, t.fld (F.IRQ_ROUTE_ACTIVE k) = s.fld (F.IRQ_ROUTE_SHADOW k) % 256 ∧
          t.fld (F.IRQ_ROUTE_SHADOW k) = s.fld (F.IRQ_ROUTE_SHADOW k))) ∧
    (∀ (who : Requester) (mask : Nat) (s : State), s.pins.powered = true →
      ∃ t, exec (.errFatalClear who mask) s = .next t ∧ s.RegsOnly t ∧
        (who ≠ .referee → t = s) ∧
        (who = .referee →
          t.fld F.IRQ_ERR_FATAL_BLOCKS = (s.fld F.IRQ_ERR_FATAL_BLOCKS - (s.fld F.IRQ_ERR_FATAL_BLOCKS &&& mask)) % 2 ^ 28 ∧
          (s.fld F.IRQ_ERR_FATAL_BLOCKS - (s.fld F.IRQ_ERR_FATAL_BLOCKS &&& mask) = 0 → t.fld F.IRQ_FATAL_TIMER_RUNNING = 0)))
end

