-- ==== Sys2Proof/Laws/Store.lean ====
section
/-! SUPPORT. Keyed tables and memory: what a write changes, and that every write keeps the canonical form. -/
namespace Sys2Proof.Machine

variable {α : Type}

/-! ### Tables -/

@[simp] theorem Tbl.get?_nil (k : Nat) : Tbl.get? ([] : Tbl α) k = none := rfl

/-- A read after a write to the same key. -/
@[simp] theorem Tbl.get?_put_same (t : Tbl α) (k : Nat) (v : α) : (Tbl.put t k v).get? k = some v := by
  induction t with
  | nil => simp [Tbl.put, Tbl.get?]
  | cons p r ih =>
    obtain ⟨k', w⟩ := p
    unfold Tbl.put
    split
    · simp [Tbl.get?]
    · split
      · simp [Tbl.get?]
      · rename_i h _; simp [Tbl.get?, h, ih]

/-- A write leaves every other key alone. -/
theorem Tbl.get?_put_ne (t : Tbl α) {k j : Nat} (v : α) (h : j ≠ k) : (Tbl.put t k v).get? j = t.get? j := by
  induction t with
  | nil => simp [Tbl.put, Tbl.get?, h]
  | cons p r ih =>
    obtain ⟨k', w⟩ := p
    unfold Tbl.put
    split
    · rename_i e; subst e; simp [Tbl.get?, h]
    · split
      · simp [Tbl.get?, h]
      · simp only [Tbl.get?]; split <;> simp_all

@[simp] theorem Tbl.get?_del_same (t : Tbl α) (k : Nat) : (Tbl.del t k).get? k = none := by
  induction t with
  | nil => rfl
  | cons p r ih =>
    obtain ⟨k', w⟩ := p
    by_cases e : k' = k
    · subst e; simpa [Tbl.del] using ih
    · have : Tbl.del ((k', w) :: r) k = (k', w) :: Tbl.del r k := by simp [Tbl.del, e]
      rw [this]; simp [Tbl.get?, Ne.symm e, ih]

theorem Tbl.get?_del_ne (t : Tbl α) {k j : Nat} (h : j ≠ k) : (Tbl.del t k).get? j = t.get? j := by
  induction t with
  | nil => rfl
  | cons p r ih =>
    obtain ⟨k', w⟩ := p
    by_cases e : k' = k
    · subst e
      have : Tbl.del ((k', w) :: r) k' = Tbl.del r k' := by simp [Tbl.del]
      rw [this, ih]; simp [Tbl.get?, h]
    · have : Tbl.del ((k', w) :: r) k = (k', w) :: Tbl.del r k := by simp [Tbl.del, e]
      rw [this]; simp only [Tbl.get?]; split <;> simp_all

/-- Every key of a table lies above a bound, and the keys rise. -/
def Tbl.above (b : Nat) : Tbl α → Prop
  | [] => True
  | (k, _) :: r => b < k ∧ Tbl.above k r

theorem Tbl.wf_cons (k : Nat) (v : α) (r : Tbl α) : Tbl.wf ((k, v) :: r) = true ↔ Tbl.above k r := by
  induction r generalizing k v with
  | nil => simp [Tbl.wf, Tbl.above]
  | cons p r ih => obtain ⟨k', w⟩ := p; simp [Tbl.wf, Tbl.above, ih k' w]

theorem Tbl.above_mono {b c : Nat} (h : b ≤ c) {t : Tbl α} (ht : t.above c) : t.above b := by
  cases t with
  | nil => trivial
  | cons p r => exact ⟨Nat.lt_of_le_of_lt h ht.1, ht.2⟩

theorem Tbl.wf_of_above {b : Nat} {t : Tbl α} (h : t.above b) : t.wf = true := by
  cases t with
  | nil => rfl
  | cons p r => exact (Tbl.wf_cons p.1 p.2 r).2 h.2

theorem Tbl.above_put {b k : Nat} (hb : b < k) (v : α) {t : Tbl α} (h : t.above b) : (Tbl.put t k v).above b := by
  induction t generalizing b with
  | nil => exact ⟨hb, trivial⟩
  | cons p r ih =>
    obtain ⟨k', w⟩ := p
    unfold Tbl.put
    split
    · rename_i e; subst e; exact ⟨hb, h.2⟩
    · split
      · rename_i _ l; exact ⟨hb, l, h.2⟩
      · exact ⟨h.1, ih (by omega) h.2⟩

/-- Writing keeps the canonical form. -/
theorem Tbl.wf_put (t : Tbl α) (k : Nat) (v : α) (h : t.wf = true) : (Tbl.put t k v).wf = true := by
  cases t with
  | nil => rfl
  | cons p r =>
    obtain ⟨k', w⟩ := p
    have hr := (Tbl.wf_cons k' w r).1 h
    unfold Tbl.put
    split
    · rename_i e; subst e; exact (Tbl.wf_cons k v r).2 hr
    · split
      · rename_i _ l; exact (Tbl.wf_cons k v _).2 ⟨l, hr⟩
      · exact (Tbl.wf_cons k' w _).2 (Tbl.above_put (by omega) v hr)

theorem Tbl.above_del {b : Nat} (k : Nat) {t : Tbl α} (h : t.above b) : (Tbl.del t k).above b := by
  induction t generalizing b with
  | nil => trivial
  | cons p r ih =>
    obtain ⟨k', w⟩ := p
    by_cases e : k' = k
    · subst e
      have : Tbl.del ((k', w) :: r) k' = Tbl.del r k' := by simp [Tbl.del]
      rw [this]; exact ih (Tbl.above_mono (Nat.le_of_lt h.1) h.2)
    · have : Tbl.del ((k', w) :: r) k = (k', w) :: Tbl.del r k := by simp [Tbl.del, e]
      rw [this]; exact ⟨h.1, ih h.2⟩

/-- Removing keeps the canonical form. -/
theorem Tbl.wf_del (t : Tbl α) (k : Nat) (h : t.wf = true) : (Tbl.del t k).wf = true := by
  cases t with
  | nil => rfl
  | cons p r =>
    obtain ⟨k', w⟩ := p
    have hr := (Tbl.wf_cons k' w r).1 h
    by_cases e : k' = k
    · subst e
      have : Tbl.del ((k', w) :: r) k' = Tbl.del r k' := by simp [Tbl.del]
      rw [this]; exact Tbl.wf_of_above (Tbl.above_del k' hr)
    · have : Tbl.del ((k', w) :: r) k = (k', w) :: Tbl.del r k := by simp [Tbl.del, e]
      rw [this]; exact (Tbl.wf_cons k' w _).2 (Tbl.above_del k hr)

/-! ### Memory -/

/-- A byte read after it was written. -/
@[simp] theorem memGet_memSet_same (m : List Host.Cell) (a : Nat) (b : Byte) : memGet (memSet m a b) a = b := by
  unfold memSet; split
  · rename_i e; subst e; simp [memGet]
  · simp [memGet]

/-- A byte written leaves every other byte alone. -/
theorem memGet_memSet_ne (m : List Host.Cell) {a c : Nat} (b : Byte) (h : c ≠ a) : memGet (memSet m a b) c = memGet m c := by
  unfold memSet; split
  · simp [memGet, Tbl.get?_del_ne _ h]
  · simp [memGet, Tbl.get?_put_ne _ _ h]

/-- A write leaves every byte outside it alone. -/
theorem memGet_memWrite_out (m : List Host.Cell) (a : Nat) (l : Bytes) (c : Nat) (h : c < a ∨ a + l.length ≤ c) :
    memGet (memWrite m a l) c = memGet m c := by
  induction l generalizing m a with
  | nil => rfl
  | cons b r ih =>
    simp only [memWrite, List.length_cons] at *
    rw [ih _ _ (by omega), memGet_memSet_ne _ _ (by omega)]

/-- A byte of a write reads back. -/
theorem memGet_memWrite_in (m : List Host.Cell) (a : Nat) (l : Bytes) (i : Nat) (h : i < l.length) :
    memGet (memWrite m a l) (a + i) = l[i] := by
  induction l generalizing m a i with
  | nil => simp at h
  | cons b r ih =>
    simp only [memWrite]
    cases i with
    | zero => rw [memGet_memWrite_out _ _ _ _ (by omega)]; simp
    | succ j =>
      have := ih (memSet m a b) (a + 1) j (by simpa using h)
      simpa [Nat.add_assoc, Nat.add_comm 1 j] using this

/-- What was written reads back. -/
theorem memRead_memWrite (m : List Host.Cell) (a : Nat) (l : Bytes) : memRead (memWrite m a l) a l.length = l := by
  have gen : ∀ (m : List Host.Cell) (a : Nat) (l r : Bytes), (∀ i (h : i < r.length), memGet m (a + i) = r[i]) → memRead m a r.length = r := by
    intro m a l r
    induction r generalizing a with
    | nil => intro _; rfl
    | cons b r ih =>
      intro h
      have h0 := h 0 (by simp)
      simp only [List.length_cons, memRead]
      rw [ih (a + 1) (fun i hi => by have := h (i + 1) (by simpa using hi); simpa [Nat.add_assoc, Nat.add_comm 1 i] using this)]
      simp at h0; simp [h0]
  exact gen _ a l l fun i h => memGet_memWrite_in m a l i h

theorem all_put (m : List Host.Cell) (a : Nat) (b : Byte) (hb : b ≠ 0) (h : m.all (fun p => decide (p.2 ≠ 0)) = true) :
    (Tbl.put m a b).all (fun p => decide (p.2 ≠ 0)) = true := by
  induction m with
  | nil => simpa [Tbl.put] using hb
  | cons p r ih =>
    obtain ⟨k', w⟩ := p
    simp only [List.all_cons, Bool.and_eq_true] at h
    unfold Tbl.put
    split
    · simp only [List.all_cons, Bool.and_eq_true]; exact ⟨by simpa using hb, h.2⟩
    · split
      · simp only [List.all_cons, Bool.and_eq_true]; exact ⟨by simpa using hb, h.1, h.2⟩
      · simp only [List.all_cons, Bool.and_eq_true]; exact ⟨h.1, ih h.2⟩

/-- Writing a byte keeps memory's canonical form. -/
theorem Memory.wf_memSet (m : List Host.Cell) (a : Nat) (b : Byte) (h : Memory.wf m = true) : Memory.wf (memSet m a b) = true := by
  unfold Memory.wf at *
  simp only [Bool.and_eq_true] at h ⊢
  unfold memSet; split
  · exact ⟨Tbl.wf_del m a h.1, List.all_eq_true.2 fun p hp => List.all_eq_true.1 h.2 p (List.mem_filter.1 hp).1⟩
  · rename_i hb; exact ⟨Tbl.wf_put m a b h.1, all_put m a b hb h.2⟩

/-- Writing bytes keeps memory's canonical form. -/
theorem Memory.wf_memWrite (m : List Host.Cell) (a : Nat) (l : Bytes) (h : Memory.wf m = true) : Memory.wf (memWrite m a l) = true := by
  induction l generalizing m a with
  | nil => exact h
  | cons b r ih => exact ih _ _ (Memory.wf_memSet m a b h)

end Sys2Proof.Machine
end

