-- ==== Sys2Proof/Laws/State.lean ====
section
/-! SUPPORT. One lemma per field per update of the state, so that no proof unfolds a record update. -/
namespace Sys2Proof.Machine

/-! ### modMap -/

@[simp] theorem State.modMap_map (s : State) (f : MapSt → MapSt) : (s.modMap f).map = f s.map := rfl
@[simp] theorem State.modMap_cells (s : State) (f : MapSt → MapSt) : (s.modMap f).cells = s.cells := rfl
@[simp] theorem State.modMap_dram (s : State) (f : MapSt → MapSt) : (s.modMap f).dram = s.dram := rfl
@[simp] theorem State.modMap_latches (s : State) (f : MapSt → MapSt) : (s.modMap f).latches = s.latches := rfl
@[simp] theorem State.modMap_fresh (s : State) (f : MapSt → MapSt) : (s.modMap f).fresh = s.fresh := rfl
@[simp] theorem State.modMap_sent (s : State) (f : MapSt → MapSt) : (s.modMap f).sent = s.sent := rfl
@[simp] theorem State.modMap_pins (s : State) (f : MapSt → MapSt) : (s.modMap f).pins = s.pins := rfl
@[simp] theorem State.modMap_pattern (s : State) (f : MapSt → MapSt) : (s.modMap f).pattern = s.pattern := rfl
@[simp] theorem State.modMap_boot (s : State) (f : MapSt → MapSt) : (s.modMap f).boot = s.boot := rfl
@[simp] theorem State.modMap_repat (s : State) (f : MapSt → MapSt) : (s.modMap f).repat = s.repat := rfl
@[simp] theorem State.modMap_upd (s : State) (f : MapSt → MapSt) : (s.modMap f).upd = s.upd := rfl
@[simp] theorem State.modMap_pairSt (s : State) (f : MapSt → MapSt) : (s.modMap f).pairSt = s.pairSt := rfl
@[simp] theorem State.modMap_commit (s : State) (f : MapSt → MapSt) : (s.modMap f).commit = s.commit := rfl
@[simp] theorem State.modMap_efmo (s : State) (f : MapSt → MapSt) : (s.modMap f).efmo = s.efmo := rfl
@[simp] theorem State.modMap_rows (s : State) (f : MapSt → MapSt) : (s.modMap f).rows = s.rows := rfl
@[simp] theorem State.modMap_ddp (s : State) (f : MapSt → MapSt) : (s.modMap f).ddp = s.ddp := rfl
@[simp] theorem State.modMap_sec (s : State) (f : MapSt → MapSt) : (s.modMap f).sec = s.sec := rfl
@[simp] theorem State.modMap_mtf (s : State) (f : MapSt → MapSt) : (s.modMap f).mtf = s.mtf := rfl
@[simp] theorem State.modMap_scc (s : State) (f : MapSt → MapSt) : (s.modMap f).scc = s.scc := rfl
@[simp] theorem State.modMap_bbm (s : State) (f : MapSt → MapSt) : (s.modMap f).bbm = s.bbm := rfl
@[simp] theorem State.modMap_rdt (s : State) (f : MapSt → MapSt) : (s.modMap f).rdt = s.rdt := rfl
@[simp] theorem State.modMap_snp (s : State) (f : MapSt → MapSt) : (s.modMap f).snp = s.snp := rfl
@[simp] theorem State.modMap_ctl (s : State) (f : MapSt → MapSt) : (s.modMap f).ctl = s.ctl := rfl
@[simp] theorem State.modMap_health (s : State) (f : MapSt → MapSt) : (s.modMap f).health = s.health := rfl
@[simp] theorem State.modMap_ftl (s : State) (f : MapSt → MapSt) : (s.modMap f).ftl = s.ftl := rfl
@[simp] theorem State.modMap_media (s : State) (f : MapSt → MapSt) : (s.modMap f).media = s.media := rfl
@[simp] theorem State.modMap_trn (s : State) (f : MapSt → MapSt) : (s.modMap f).trn = s.trn := rfl
@[simp] theorem State.modMap_rpj (s : State) (f : MapSt → MapSt) : (s.modMap f).rpj = s.rpj := rfl
@[simp] theorem State.modMap_egress (s : State) (f : MapSt → MapSt) : (s.modMap f).egress = s.egress := rfl
@[simp] theorem State.modMap_pending (s : State) (f : MapSt → MapSt) : (s.modMap f).pending = s.pending := rfl
@[simp] theorem State.modMap_fld (s : State) (f : MapSt → MapSt) (g : Fld) : (s.modMap f).fld g = s.fld g := rfl
@[simp] theorem State.modMap_flag (s : State) (f : MapSt → MapSt) (g : Fld) : (s.modMap f).flag g = s.flag g := rfl

/-! ### modFtl -/

@[simp] theorem State.modFtl_ftl (s : State) (f : FtlSt → FtlSt) : (s.modFtl f).ftl = f s.ftl := rfl
@[simp] theorem State.modFtl_cells (s : State) (f : FtlSt → FtlSt) : (s.modFtl f).cells = s.cells := rfl
@[simp] theorem State.modFtl_dram (s : State) (f : FtlSt → FtlSt) : (s.modFtl f).dram = s.dram := rfl
@[simp] theorem State.modFtl_latches (s : State) (f : FtlSt → FtlSt) : (s.modFtl f).latches = s.latches := rfl
@[simp] theorem State.modFtl_fresh (s : State) (f : FtlSt → FtlSt) : (s.modFtl f).fresh = s.fresh := rfl
@[simp] theorem State.modFtl_sent (s : State) (f : FtlSt → FtlSt) : (s.modFtl f).sent = s.sent := rfl
@[simp] theorem State.modFtl_pins (s : State) (f : FtlSt → FtlSt) : (s.modFtl f).pins = s.pins := rfl
@[simp] theorem State.modFtl_pattern (s : State) (f : FtlSt → FtlSt) : (s.modFtl f).pattern = s.pattern := rfl
@[simp] theorem State.modFtl_boot (s : State) (f : FtlSt → FtlSt) : (s.modFtl f).boot = s.boot := rfl
@[simp] theorem State.modFtl_repat (s : State) (f : FtlSt → FtlSt) : (s.modFtl f).repat = s.repat := rfl
@[simp] theorem State.modFtl_upd (s : State) (f : FtlSt → FtlSt) : (s.modFtl f).upd = s.upd := rfl
@[simp] theorem State.modFtl_pairSt (s : State) (f : FtlSt → FtlSt) : (s.modFtl f).pairSt = s.pairSt := rfl
@[simp] theorem State.modFtl_commit (s : State) (f : FtlSt → FtlSt) : (s.modFtl f).commit = s.commit := rfl
@[simp] theorem State.modFtl_efmo (s : State) (f : FtlSt → FtlSt) : (s.modFtl f).efmo = s.efmo := rfl
@[simp] theorem State.modFtl_rows (s : State) (f : FtlSt → FtlSt) : (s.modFtl f).rows = s.rows := rfl
@[simp] theorem State.modFtl_ddp (s : State) (f : FtlSt → FtlSt) : (s.modFtl f).ddp = s.ddp := rfl
@[simp] theorem State.modFtl_sec (s : State) (f : FtlSt → FtlSt) : (s.modFtl f).sec = s.sec := rfl
@[simp] theorem State.modFtl_mtf (s : State) (f : FtlSt → FtlSt) : (s.modFtl f).mtf = s.mtf := rfl
@[simp] theorem State.modFtl_scc (s : State) (f : FtlSt → FtlSt) : (s.modFtl f).scc = s.scc := rfl
@[simp] theorem State.modFtl_bbm (s : State) (f : FtlSt → FtlSt) : (s.modFtl f).bbm = s.bbm := rfl
@[simp] theorem State.modFtl_rdt (s : State) (f : FtlSt → FtlSt) : (s.modFtl f).rdt = s.rdt := rfl
@[simp] theorem State.modFtl_snp (s : State) (f : FtlSt → FtlSt) : (s.modFtl f).snp = s.snp := rfl
@[simp] theorem State.modFtl_ctl (s : State) (f : FtlSt → FtlSt) : (s.modFtl f).ctl = s.ctl := rfl
@[simp] theorem State.modFtl_health (s : State) (f : FtlSt → FtlSt) : (s.modFtl f).health = s.health := rfl
@[simp] theorem State.modFtl_map (s : State) (f : FtlSt → FtlSt) : (s.modFtl f).map = s.map := rfl
@[simp] theorem State.modFtl_media (s : State) (f : FtlSt → FtlSt) : (s.modFtl f).media = s.media := rfl
@[simp] theorem State.modFtl_trn (s : State) (f : FtlSt → FtlSt) : (s.modFtl f).trn = s.trn := rfl
@[simp] theorem State.modFtl_rpj (s : State) (f : FtlSt → FtlSt) : (s.modFtl f).rpj = s.rpj := rfl
@[simp] theorem State.modFtl_egress (s : State) (f : FtlSt → FtlSt) : (s.modFtl f).egress = s.egress := rfl
@[simp] theorem State.modFtl_pending (s : State) (f : FtlSt → FtlSt) : (s.modFtl f).pending = s.pending := rfl
@[simp] theorem State.modFtl_fld (s : State) (f : FtlSt → FtlSt) (g : Fld) : (s.modFtl f).fld g = s.fld g := rfl
@[simp] theorem State.modFtl_flag (s : State) (f : FtlSt → FtlSt) (g : Fld) : (s.modFtl f).flag g = s.flag g := rfl

/-! ### modMedia -/

@[simp] theorem State.modMedia_media (s : State) (f : MediaSt → MediaSt) : (s.modMedia f).media = f s.media := rfl
@[simp] theorem State.modMedia_cells (s : State) (f : MediaSt → MediaSt) : (s.modMedia f).cells = s.cells := rfl
@[simp] theorem State.modMedia_dram (s : State) (f : MediaSt → MediaSt) : (s.modMedia f).dram = s.dram := rfl
@[simp] theorem State.modMedia_latches (s : State) (f : MediaSt → MediaSt) : (s.modMedia f).latches = s.latches := rfl
@[simp] theorem State.modMedia_fresh (s : State) (f : MediaSt → MediaSt) : (s.modMedia f).fresh = s.fresh := rfl
@[simp] theorem State.modMedia_sent (s : State) (f : MediaSt → MediaSt) : (s.modMedia f).sent = s.sent := rfl
@[simp] theorem State.modMedia_pins (s : State) (f : MediaSt → MediaSt) : (s.modMedia f).pins = s.pins := rfl
@[simp] theorem State.modMedia_pattern (s : State) (f : MediaSt → MediaSt) : (s.modMedia f).pattern = s.pattern := rfl
@[simp] theorem State.modMedia_boot (s : State) (f : MediaSt → MediaSt) : (s.modMedia f).boot = s.boot := rfl
@[simp] theorem State.modMedia_repat (s : State) (f : MediaSt → MediaSt) : (s.modMedia f).repat = s.repat := rfl
@[simp] theorem State.modMedia_upd (s : State) (f : MediaSt → MediaSt) : (s.modMedia f).upd = s.upd := rfl
@[simp] theorem State.modMedia_pairSt (s : State) (f : MediaSt → MediaSt) : (s.modMedia f).pairSt = s.pairSt := rfl
@[simp] theorem State.modMedia_commit (s : State) (f : MediaSt → MediaSt) : (s.modMedia f).commit = s.commit := rfl
@[simp] theorem State.modMedia_efmo (s : State) (f : MediaSt → MediaSt) : (s.modMedia f).efmo = s.efmo := rfl
@[simp] theorem State.modMedia_rows (s : State) (f : MediaSt → MediaSt) : (s.modMedia f).rows = s.rows := rfl
@[simp] theorem State.modMedia_ddp (s : State) (f : MediaSt → MediaSt) : (s.modMedia f).ddp = s.ddp := rfl
@[simp] theorem State.modMedia_sec (s : State) (f : MediaSt → MediaSt) : (s.modMedia f).sec = s.sec := rfl
@[simp] theorem State.modMedia_mtf (s : State) (f : MediaSt → MediaSt) : (s.modMedia f).mtf = s.mtf := rfl
@[simp] theorem State.modMedia_scc (s : State) (f : MediaSt → MediaSt) : (s.modMedia f).scc = s.scc := rfl
@[simp] theorem State.modMedia_bbm (s : State) (f : MediaSt → MediaSt) : (s.modMedia f).bbm = s.bbm := rfl
@[simp] theorem State.modMedia_rdt (s : State) (f : MediaSt → MediaSt) : (s.modMedia f).rdt = s.rdt := rfl
@[simp] theorem State.modMedia_snp (s : State) (f : MediaSt → MediaSt) : (s.modMedia f).snp = s.snp := rfl
@[simp] theorem State.modMedia_ctl (s : State) (f : MediaSt → MediaSt) : (s.modMedia f).ctl = s.ctl := rfl
@[simp] theorem State.modMedia_health (s : State) (f : MediaSt → MediaSt) : (s.modMedia f).health = s.health := rfl
@[simp] theorem State.modMedia_map (s : State) (f : MediaSt → MediaSt) : (s.modMedia f).map = s.map := rfl
@[simp] theorem State.modMedia_ftl (s : State) (f : MediaSt → MediaSt) : (s.modMedia f).ftl = s.ftl := rfl
@[simp] theorem State.modMedia_trn (s : State) (f : MediaSt → MediaSt) : (s.modMedia f).trn = s.trn := rfl
@[simp] theorem State.modMedia_rpj (s : State) (f : MediaSt → MediaSt) : (s.modMedia f).rpj = s.rpj := rfl
@[simp] theorem State.modMedia_egress (s : State) (f : MediaSt → MediaSt) : (s.modMedia f).egress = s.egress := rfl
@[simp] theorem State.modMedia_pending (s : State) (f : MediaSt → MediaSt) : (s.modMedia f).pending = s.pending := rfl
@[simp] theorem State.modMedia_fld (s : State) (f : MediaSt → MediaSt) (g : Fld) : (s.modMedia f).fld g = s.fld g := rfl
@[simp] theorem State.modMedia_flag (s : State) (f : MediaSt → MediaSt) (g : Fld) : (s.modMedia f).flag g = s.flag g := rfl

/-! ### modCommit -/

@[simp] theorem State.modCommit_commit (s : State) (f : CommitSt → CommitSt) : (s.modCommit f).commit = f s.commit := rfl
@[simp] theorem State.modCommit_cells (s : State) (f : CommitSt → CommitSt) : (s.modCommit f).cells = s.cells := rfl
@[simp] theorem State.modCommit_dram (s : State) (f : CommitSt → CommitSt) : (s.modCommit f).dram = s.dram := rfl
@[simp] theorem State.modCommit_latches (s : State) (f : CommitSt → CommitSt) : (s.modCommit f).latches = s.latches := rfl
@[simp] theorem State.modCommit_fresh (s : State) (f : CommitSt → CommitSt) : (s.modCommit f).fresh = s.fresh := rfl
@[simp] theorem State.modCommit_sent (s : State) (f : CommitSt → CommitSt) : (s.modCommit f).sent = s.sent := rfl
@[simp] theorem State.modCommit_pins (s : State) (f : CommitSt → CommitSt) : (s.modCommit f).pins = s.pins := rfl
@[simp] theorem State.modCommit_pattern (s : State) (f : CommitSt → CommitSt) : (s.modCommit f).pattern = s.pattern := rfl
@[simp] theorem State.modCommit_boot (s : State) (f : CommitSt → CommitSt) : (s.modCommit f).boot = s.boot := rfl
@[simp] theorem State.modCommit_repat (s : State) (f : CommitSt → CommitSt) : (s.modCommit f).repat = s.repat := rfl
@[simp] theorem State.modCommit_upd (s : State) (f : CommitSt → CommitSt) : (s.modCommit f).upd = s.upd := rfl
@[simp] theorem State.modCommit_pairSt (s : State) (f : CommitSt → CommitSt) : (s.modCommit f).pairSt = s.pairSt := rfl
@[simp] theorem State.modCommit_efmo (s : State) (f : CommitSt → CommitSt) : (s.modCommit f).efmo = s.efmo := rfl
@[simp] theorem State.modCommit_rows (s : State) (f : CommitSt → CommitSt) : (s.modCommit f).rows = s.rows := rfl
@[simp] theorem State.modCommit_ddp (s : State) (f : CommitSt → CommitSt) : (s.modCommit f).ddp = s.ddp := rfl
@[simp] theorem State.modCommit_sec (s : State) (f : CommitSt → CommitSt) : (s.modCommit f).sec = s.sec := rfl
@[simp] theorem State.modCommit_mtf (s : State) (f : CommitSt → CommitSt) : (s.modCommit f).mtf = s.mtf := rfl
@[simp] theorem State.modCommit_scc (s : State) (f : CommitSt → CommitSt) : (s.modCommit f).scc = s.scc := rfl
@[simp] theorem State.modCommit_bbm (s : State) (f : CommitSt → CommitSt) : (s.modCommit f).bbm = s.bbm := rfl
@[simp] theorem State.modCommit_rdt (s : State) (f : CommitSt → CommitSt) : (s.modCommit f).rdt = s.rdt := rfl
@[simp] theorem State.modCommit_snp (s : State) (f : CommitSt → CommitSt) : (s.modCommit f).snp = s.snp := rfl
@[simp] theorem State.modCommit_ctl (s : State) (f : CommitSt → CommitSt) : (s.modCommit f).ctl = s.ctl := rfl
@[simp] theorem State.modCommit_health (s : State) (f : CommitSt → CommitSt) : (s.modCommit f).health = s.health := rfl
@[simp] theorem State.modCommit_map (s : State) (f : CommitSt → CommitSt) : (s.modCommit f).map = s.map := rfl
@[simp] theorem State.modCommit_ftl (s : State) (f : CommitSt → CommitSt) : (s.modCommit f).ftl = s.ftl := rfl
@[simp] theorem State.modCommit_media (s : State) (f : CommitSt → CommitSt) : (s.modCommit f).media = s.media := rfl
@[simp] theorem State.modCommit_trn (s : State) (f : CommitSt → CommitSt) : (s.modCommit f).trn = s.trn := rfl
@[simp] theorem State.modCommit_rpj (s : State) (f : CommitSt → CommitSt) : (s.modCommit f).rpj = s.rpj := rfl
@[simp] theorem State.modCommit_egress (s : State) (f : CommitSt → CommitSt) : (s.modCommit f).egress = s.egress := rfl
@[simp] theorem State.modCommit_pending (s : State) (f : CommitSt → CommitSt) : (s.modCommit f).pending = s.pending := rfl
@[simp] theorem State.modCommit_fld (s : State) (f : CommitSt → CommitSt) (g : Fld) : (s.modCommit f).fld g = s.fld g := rfl
@[simp] theorem State.modCommit_flag (s : State) (f : CommitSt → CommitSt) (g : Fld) : (s.modCommit f).flag g = s.flag g := rfl

/-! ### modEfmo -/

@[simp] theorem State.modEfmo_efmo (s : State) (f : EfmoSt → EfmoSt) : (s.modEfmo f).efmo = f s.efmo := rfl
@[simp] theorem State.modEfmo_cells (s : State) (f : EfmoSt → EfmoSt) : (s.modEfmo f).cells = s.cells := rfl
@[simp] theorem State.modEfmo_dram (s : State) (f : EfmoSt → EfmoSt) : (s.modEfmo f).dram = s.dram := rfl
@[simp] theorem State.modEfmo_latches (s : State) (f : EfmoSt → EfmoSt) : (s.modEfmo f).latches = s.latches := rfl
@[simp] theorem State.modEfmo_fresh (s : State) (f : EfmoSt → EfmoSt) : (s.modEfmo f).fresh = s.fresh := rfl
@[simp] theorem State.modEfmo_sent (s : State) (f : EfmoSt → EfmoSt) : (s.modEfmo f).sent = s.sent := rfl
@[simp] theorem State.modEfmo_pins (s : State) (f : EfmoSt → EfmoSt) : (s.modEfmo f).pins = s.pins := rfl
@[simp] theorem State.modEfmo_pattern (s : State) (f : EfmoSt → EfmoSt) : (s.modEfmo f).pattern = s.pattern := rfl
@[simp] theorem State.modEfmo_boot (s : State) (f : EfmoSt → EfmoSt) : (s.modEfmo f).boot = s.boot := rfl
@[simp] theorem State.modEfmo_repat (s : State) (f : EfmoSt → EfmoSt) : (s.modEfmo f).repat = s.repat := rfl
@[simp] theorem State.modEfmo_upd (s : State) (f : EfmoSt → EfmoSt) : (s.modEfmo f).upd = s.upd := rfl
@[simp] theorem State.modEfmo_pairSt (s : State) (f : EfmoSt → EfmoSt) : (s.modEfmo f).pairSt = s.pairSt := rfl
@[simp] theorem State.modEfmo_commit (s : State) (f : EfmoSt → EfmoSt) : (s.modEfmo f).commit = s.commit := rfl
@[simp] theorem State.modEfmo_rows (s : State) (f : EfmoSt → EfmoSt) : (s.modEfmo f).rows = s.rows := rfl
@[simp] theorem State.modEfmo_ddp (s : State) (f : EfmoSt → EfmoSt) : (s.modEfmo f).ddp = s.ddp := rfl
@[simp] theorem State.modEfmo_sec (s : State) (f : EfmoSt → EfmoSt) : (s.modEfmo f).sec = s.sec := rfl
@[simp] theorem State.modEfmo_mtf (s : State) (f : EfmoSt → EfmoSt) : (s.modEfmo f).mtf = s.mtf := rfl
@[simp] theorem State.modEfmo_scc (s : State) (f : EfmoSt → EfmoSt) : (s.modEfmo f).scc = s.scc := rfl
@[simp] theorem State.modEfmo_bbm (s : State) (f : EfmoSt → EfmoSt) : (s.modEfmo f).bbm = s.bbm := rfl
@[simp] theorem State.modEfmo_rdt (s : State) (f : EfmoSt → EfmoSt) : (s.modEfmo f).rdt = s.rdt := rfl
@[simp] theorem State.modEfmo_snp (s : State) (f : EfmoSt → EfmoSt) : (s.modEfmo f).snp = s.snp := rfl
@[simp] theorem State.modEfmo_ctl (s : State) (f : EfmoSt → EfmoSt) : (s.modEfmo f).ctl = s.ctl := rfl
@[simp] theorem State.modEfmo_health (s : State) (f : EfmoSt → EfmoSt) : (s.modEfmo f).health = s.health := rfl
@[simp] theorem State.modEfmo_map (s : State) (f : EfmoSt → EfmoSt) : (s.modEfmo f).map = s.map := rfl
@[simp] theorem State.modEfmo_ftl (s : State) (f : EfmoSt → EfmoSt) : (s.modEfmo f).ftl = s.ftl := rfl
@[simp] theorem State.modEfmo_media (s : State) (f : EfmoSt → EfmoSt) : (s.modEfmo f).media = s.media := rfl
@[simp] theorem State.modEfmo_trn (s : State) (f : EfmoSt → EfmoSt) : (s.modEfmo f).trn = s.trn := rfl
@[simp] theorem State.modEfmo_rpj (s : State) (f : EfmoSt → EfmoSt) : (s.modEfmo f).rpj = s.rpj := rfl
@[simp] theorem State.modEfmo_egress (s : State) (f : EfmoSt → EfmoSt) : (s.modEfmo f).egress = s.egress := rfl
@[simp] theorem State.modEfmo_pending (s : State) (f : EfmoSt → EfmoSt) : (s.modEfmo f).pending = s.pending := rfl
@[simp] theorem State.modEfmo_fld (s : State) (f : EfmoSt → EfmoSt) (g : Fld) : (s.modEfmo f).fld g = s.fld g := rfl
@[simp] theorem State.modEfmo_flag (s : State) (f : EfmoSt → EfmoSt) (g : Fld) : (s.modEfmo f).flag g = s.flag g := rfl

/-! ### modRows -/

@[simp] theorem State.modRows_rows (s : State) (f : RowsSt → RowsSt) : (s.modRows f).rows = f s.rows := rfl
@[simp] theorem State.modRows_cells (s : State) (f : RowsSt → RowsSt) : (s.modRows f).cells = s.cells := rfl
@[simp] theorem State.modRows_dram (s : State) (f : RowsSt → RowsSt) : (s.modRows f).dram = s.dram := rfl
@[simp] theorem State.modRows_latches (s : State) (f : RowsSt → RowsSt) : (s.modRows f).latches = s.latches := rfl
@[simp] theorem State.modRows_fresh (s : State) (f : RowsSt → RowsSt) : (s.modRows f).fresh = s.fresh := rfl
@[simp] theorem State.modRows_sent (s : State) (f : RowsSt → RowsSt) : (s.modRows f).sent = s.sent := rfl
@[simp] theorem State.modRows_pins (s : State) (f : RowsSt → RowsSt) : (s.modRows f).pins = s.pins := rfl
@[simp] theorem State.modRows_pattern (s : State) (f : RowsSt → RowsSt) : (s.modRows f).pattern = s.pattern := rfl
@[simp] theorem State.modRows_boot (s : State) (f : RowsSt → RowsSt) : (s.modRows f).boot = s.boot := rfl
@[simp] theorem State.modRows_repat (s : State) (f : RowsSt → RowsSt) : (s.modRows f).repat = s.repat := rfl
@[simp] theorem State.modRows_upd (s : State) (f : RowsSt → RowsSt) : (s.modRows f).upd = s.upd := rfl
@[simp] theorem State.modRows_pairSt (s : State) (f : RowsSt → RowsSt) : (s.modRows f).pairSt = s.pairSt := rfl
@[simp] theorem State.modRows_commit (s : State) (f : RowsSt → RowsSt) : (s.modRows f).commit = s.commit := rfl
@[simp] theorem State.modRows_efmo (s : State) (f : RowsSt → RowsSt) : (s.modRows f).efmo = s.efmo := rfl
@[simp] theorem State.modRows_ddp (s : State) (f : RowsSt → RowsSt) : (s.modRows f).ddp = s.ddp := rfl
@[simp] theorem State.modRows_sec (s : State) (f : RowsSt → RowsSt) : (s.modRows f).sec = s.sec := rfl
@[simp] theorem State.modRows_mtf (s : State) (f : RowsSt → RowsSt) : (s.modRows f).mtf = s.mtf := rfl
@[simp] theorem State.modRows_scc (s : State) (f : RowsSt → RowsSt) : (s.modRows f).scc = s.scc := rfl
@[simp] theorem State.modRows_bbm (s : State) (f : RowsSt → RowsSt) : (s.modRows f).bbm = s.bbm := rfl
@[simp] theorem State.modRows_rdt (s : State) (f : RowsSt → RowsSt) : (s.modRows f).rdt = s.rdt := rfl
@[simp] theorem State.modRows_snp (s : State) (f : RowsSt → RowsSt) : (s.modRows f).snp = s.snp := rfl
@[simp] theorem State.modRows_ctl (s : State) (f : RowsSt → RowsSt) : (s.modRows f).ctl = s.ctl := rfl
@[simp] theorem State.modRows_health (s : State) (f : RowsSt → RowsSt) : (s.modRows f).health = s.health := rfl
@[simp] theorem State.modRows_map (s : State) (f : RowsSt → RowsSt) : (s.modRows f).map = s.map := rfl
@[simp] theorem State.modRows_ftl (s : State) (f : RowsSt → RowsSt) : (s.modRows f).ftl = s.ftl := rfl
@[simp] theorem State.modRows_media (s : State) (f : RowsSt → RowsSt) : (s.modRows f).media = s.media := rfl
@[simp] theorem State.modRows_trn (s : State) (f : RowsSt → RowsSt) : (s.modRows f).trn = s.trn := rfl
@[simp] theorem State.modRows_rpj (s : State) (f : RowsSt → RowsSt) : (s.modRows f).rpj = s.rpj := rfl
@[simp] theorem State.modRows_egress (s : State) (f : RowsSt → RowsSt) : (s.modRows f).egress = s.egress := rfl
@[simp] theorem State.modRows_pending (s : State) (f : RowsSt → RowsSt) : (s.modRows f).pending = s.pending := rfl
@[simp] theorem State.modRows_fld (s : State) (f : RowsSt → RowsSt) (g : Fld) : (s.modRows f).fld g = s.fld g := rfl
@[simp] theorem State.modRows_flag (s : State) (f : RowsSt → RowsSt) (g : Fld) : (s.modRows f).flag g = s.flag g := rfl

/-! ### modDdp -/

@[simp] theorem State.modDdp_ddp (s : State) (f : DdpSt → DdpSt) : (s.modDdp f).ddp = f s.ddp := rfl
@[simp] theorem State.modDdp_cells (s : State) (f : DdpSt → DdpSt) : (s.modDdp f).cells = s.cells := rfl
@[simp] theorem State.modDdp_dram (s : State) (f : DdpSt → DdpSt) : (s.modDdp f).dram = s.dram := rfl
@[simp] theorem State.modDdp_latches (s : State) (f : DdpSt → DdpSt) : (s.modDdp f).latches = s.latches := rfl
@[simp] theorem State.modDdp_fresh (s : State) (f : DdpSt → DdpSt) : (s.modDdp f).fresh = s.fresh := rfl
@[simp] theorem State.modDdp_sent (s : State) (f : DdpSt → DdpSt) : (s.modDdp f).sent = s.sent := rfl
@[simp] theorem State.modDdp_pins (s : State) (f : DdpSt → DdpSt) : (s.modDdp f).pins = s.pins := rfl
@[simp] theorem State.modDdp_pattern (s : State) (f : DdpSt → DdpSt) : (s.modDdp f).pattern = s.pattern := rfl
@[simp] theorem State.modDdp_boot (s : State) (f : DdpSt → DdpSt) : (s.modDdp f).boot = s.boot := rfl
@[simp] theorem State.modDdp_repat (s : State) (f : DdpSt → DdpSt) : (s.modDdp f).repat = s.repat := rfl
@[simp] theorem State.modDdp_upd (s : State) (f : DdpSt → DdpSt) : (s.modDdp f).upd = s.upd := rfl
@[simp] theorem State.modDdp_pairSt (s : State) (f : DdpSt → DdpSt) : (s.modDdp f).pairSt = s.pairSt := rfl
@[simp] theorem State.modDdp_commit (s : State) (f : DdpSt → DdpSt) : (s.modDdp f).commit = s.commit := rfl
@[simp] theorem State.modDdp_efmo (s : State) (f : DdpSt → DdpSt) : (s.modDdp f).efmo = s.efmo := rfl
@[simp] theorem State.modDdp_rows (s : State) (f : DdpSt → DdpSt) : (s.modDdp f).rows = s.rows := rfl
@[simp] theorem State.modDdp_sec (s : State) (f : DdpSt → DdpSt) : (s.modDdp f).sec = s.sec := rfl
@[simp] theorem State.modDdp_mtf (s : State) (f : DdpSt → DdpSt) : (s.modDdp f).mtf = s.mtf := rfl
@[simp] theorem State.modDdp_scc (s : State) (f : DdpSt → DdpSt) : (s.modDdp f).scc = s.scc := rfl
@[simp] theorem State.modDdp_bbm (s : State) (f : DdpSt → DdpSt) : (s.modDdp f).bbm = s.bbm := rfl
@[simp] theorem State.modDdp_rdt (s : State) (f : DdpSt → DdpSt) : (s.modDdp f).rdt = s.rdt := rfl
@[simp] theorem State.modDdp_snp (s : State) (f : DdpSt → DdpSt) : (s.modDdp f).snp = s.snp := rfl
@[simp] theorem State.modDdp_ctl (s : State) (f : DdpSt → DdpSt) : (s.modDdp f).ctl = s.ctl := rfl
@[simp] theorem State.modDdp_health (s : State) (f : DdpSt → DdpSt) : (s.modDdp f).health = s.health := rfl
@[simp] theorem State.modDdp_map (s : State) (f : DdpSt → DdpSt) : (s.modDdp f).map = s.map := rfl
@[simp] theorem State.modDdp_ftl (s : State) (f : DdpSt → DdpSt) : (s.modDdp f).ftl = s.ftl := rfl
@[simp] theorem State.modDdp_media (s : State) (f : DdpSt → DdpSt) : (s.modDdp f).media = s.media := rfl
@[simp] theorem State.modDdp_trn (s : State) (f : DdpSt → DdpSt) : (s.modDdp f).trn = s.trn := rfl
@[simp] theorem State.modDdp_rpj (s : State) (f : DdpSt → DdpSt) : (s.modDdp f).rpj = s.rpj := rfl
@[simp] theorem State.modDdp_egress (s : State) (f : DdpSt → DdpSt) : (s.modDdp f).egress = s.egress := rfl
@[simp] theorem State.modDdp_pending (s : State) (f : DdpSt → DdpSt) : (s.modDdp f).pending = s.pending := rfl
@[simp] theorem State.modDdp_fld (s : State) (f : DdpSt → DdpSt) (g : Fld) : (s.modDdp f).fld g = s.fld g := rfl
@[simp] theorem State.modDdp_flag (s : State) (f : DdpSt → DdpSt) (g : Fld) : (s.modDdp f).flag g = s.flag g := rfl

/-! ### modTrn -/

@[simp] theorem State.modTrn_trn (s : State) (f : TrnSt → TrnSt) : (s.modTrn f).trn = f s.trn := rfl
@[simp] theorem State.modTrn_cells (s : State) (f : TrnSt → TrnSt) : (s.modTrn f).cells = s.cells := rfl
@[simp] theorem State.modTrn_dram (s : State) (f : TrnSt → TrnSt) : (s.modTrn f).dram = s.dram := rfl
@[simp] theorem State.modTrn_latches (s : State) (f : TrnSt → TrnSt) : (s.modTrn f).latches = s.latches := rfl
@[simp] theorem State.modTrn_fresh (s : State) (f : TrnSt → TrnSt) : (s.modTrn f).fresh = s.fresh := rfl
@[simp] theorem State.modTrn_sent (s : State) (f : TrnSt → TrnSt) : (s.modTrn f).sent = s.sent := rfl
@[simp] theorem State.modTrn_pins (s : State) (f : TrnSt → TrnSt) : (s.modTrn f).pins = s.pins := rfl
@[simp] theorem State.modTrn_pattern (s : State) (f : TrnSt → TrnSt) : (s.modTrn f).pattern = s.pattern := rfl
@[simp] theorem State.modTrn_boot (s : State) (f : TrnSt → TrnSt) : (s.modTrn f).boot = s.boot := rfl
@[simp] theorem State.modTrn_repat (s : State) (f : TrnSt → TrnSt) : (s.modTrn f).repat = s.repat := rfl
@[simp] theorem State.modTrn_upd (s : State) (f : TrnSt → TrnSt) : (s.modTrn f).upd = s.upd := rfl
@[simp] theorem State.modTrn_pairSt (s : State) (f : TrnSt → TrnSt) : (s.modTrn f).pairSt = s.pairSt := rfl
@[simp] theorem State.modTrn_commit (s : State) (f : TrnSt → TrnSt) : (s.modTrn f).commit = s.commit := rfl
@[simp] theorem State.modTrn_efmo (s : State) (f : TrnSt → TrnSt) : (s.modTrn f).efmo = s.efmo := rfl
@[simp] theorem State.modTrn_rows (s : State) (f : TrnSt → TrnSt) : (s.modTrn f).rows = s.rows := rfl
@[simp] theorem State.modTrn_ddp (s : State) (f : TrnSt → TrnSt) : (s.modTrn f).ddp = s.ddp := rfl
@[simp] theorem State.modTrn_sec (s : State) (f : TrnSt → TrnSt) : (s.modTrn f).sec = s.sec := rfl
@[simp] theorem State.modTrn_mtf (s : State) (f : TrnSt → TrnSt) : (s.modTrn f).mtf = s.mtf := rfl
@[simp] theorem State.modTrn_scc (s : State) (f : TrnSt → TrnSt) : (s.modTrn f).scc = s.scc := rfl
@[simp] theorem State.modTrn_bbm (s : State) (f : TrnSt → TrnSt) : (s.modTrn f).bbm = s.bbm := rfl
@[simp] theorem State.modTrn_rdt (s : State) (f : TrnSt → TrnSt) : (s.modTrn f).rdt = s.rdt := rfl
@[simp] theorem State.modTrn_snp (s : State) (f : TrnSt → TrnSt) : (s.modTrn f).snp = s.snp := rfl
@[simp] theorem State.modTrn_ctl (s : State) (f : TrnSt → TrnSt) : (s.modTrn f).ctl = s.ctl := rfl
@[simp] theorem State.modTrn_health (s : State) (f : TrnSt → TrnSt) : (s.modTrn f).health = s.health := rfl
@[simp] theorem State.modTrn_map (s : State) (f : TrnSt → TrnSt) : (s.modTrn f).map = s.map := rfl
@[simp] theorem State.modTrn_ftl (s : State) (f : TrnSt → TrnSt) : (s.modTrn f).ftl = s.ftl := rfl
@[simp] theorem State.modTrn_media (s : State) (f : TrnSt → TrnSt) : (s.modTrn f).media = s.media := rfl
@[simp] theorem State.modTrn_rpj (s : State) (f : TrnSt → TrnSt) : (s.modTrn f).rpj = s.rpj := rfl
@[simp] theorem State.modTrn_egress (s : State) (f : TrnSt → TrnSt) : (s.modTrn f).egress = s.egress := rfl
@[simp] theorem State.modTrn_pending (s : State) (f : TrnSt → TrnSt) : (s.modTrn f).pending = s.pending := rfl
@[simp] theorem State.modTrn_fld (s : State) (f : TrnSt → TrnSt) (g : Fld) : (s.modTrn f).fld g = s.fld g := rfl
@[simp] theorem State.modTrn_flag (s : State) (f : TrnSt → TrnSt) (g : Fld) : (s.modTrn f).flag g = s.flag g := rfl

/-! ### modRpj -/

@[simp] theorem State.modRpj_rpj (s : State) (f : RpjSt → RpjSt) : (s.modRpj f).rpj = f s.rpj := rfl
@[simp] theorem State.modRpj_cells (s : State) (f : RpjSt → RpjSt) : (s.modRpj f).cells = s.cells := rfl
@[simp] theorem State.modRpj_dram (s : State) (f : RpjSt → RpjSt) : (s.modRpj f).dram = s.dram := rfl
@[simp] theorem State.modRpj_latches (s : State) (f : RpjSt → RpjSt) : (s.modRpj f).latches = s.latches := rfl
@[simp] theorem State.modRpj_fresh (s : State) (f : RpjSt → RpjSt) : (s.modRpj f).fresh = s.fresh := rfl
@[simp] theorem State.modRpj_sent (s : State) (f : RpjSt → RpjSt) : (s.modRpj f).sent = s.sent := rfl
@[simp] theorem State.modRpj_pins (s : State) (f : RpjSt → RpjSt) : (s.modRpj f).pins = s.pins := rfl
@[simp] theorem State.modRpj_pattern (s : State) (f : RpjSt → RpjSt) : (s.modRpj f).pattern = s.pattern := rfl
@[simp] theorem State.modRpj_boot (s : State) (f : RpjSt → RpjSt) : (s.modRpj f).boot = s.boot := rfl
@[simp] theorem State.modRpj_repat (s : State) (f : RpjSt → RpjSt) : (s.modRpj f).repat = s.repat := rfl
@[simp] theorem State.modRpj_upd (s : State) (f : RpjSt → RpjSt) : (s.modRpj f).upd = s.upd := rfl
@[simp] theorem State.modRpj_pairSt (s : State) (f : RpjSt → RpjSt) : (s.modRpj f).pairSt = s.pairSt := rfl
@[simp] theorem State.modRpj_commit (s : State) (f : RpjSt → RpjSt) : (s.modRpj f).commit = s.commit := rfl
@[simp] theorem State.modRpj_efmo (s : State) (f : RpjSt → RpjSt) : (s.modRpj f).efmo = s.efmo := rfl
@[simp] theorem State.modRpj_rows (s : State) (f : RpjSt → RpjSt) : (s.modRpj f).rows = s.rows := rfl
@[simp] theorem State.modRpj_ddp (s : State) (f : RpjSt → RpjSt) : (s.modRpj f).ddp = s.ddp := rfl
@[simp] theorem State.modRpj_sec (s : State) (f : RpjSt → RpjSt) : (s.modRpj f).sec = s.sec := rfl
@[simp] theorem State.modRpj_mtf (s : State) (f : RpjSt → RpjSt) : (s.modRpj f).mtf = s.mtf := rfl
@[simp] theorem State.modRpj_scc (s : State) (f : RpjSt → RpjSt) : (s.modRpj f).scc = s.scc := rfl
@[simp] theorem State.modRpj_bbm (s : State) (f : RpjSt → RpjSt) : (s.modRpj f).bbm = s.bbm := rfl
@[simp] theorem State.modRpj_rdt (s : State) (f : RpjSt → RpjSt) : (s.modRpj f).rdt = s.rdt := rfl
@[simp] theorem State.modRpj_snp (s : State) (f : RpjSt → RpjSt) : (s.modRpj f).snp = s.snp := rfl
@[simp] theorem State.modRpj_ctl (s : State) (f : RpjSt → RpjSt) : (s.modRpj f).ctl = s.ctl := rfl
@[simp] theorem State.modRpj_health (s : State) (f : RpjSt → RpjSt) : (s.modRpj f).health = s.health := rfl
@[simp] theorem State.modRpj_map (s : State) (f : RpjSt → RpjSt) : (s.modRpj f).map = s.map := rfl
@[simp] theorem State.modRpj_ftl (s : State) (f : RpjSt → RpjSt) : (s.modRpj f).ftl = s.ftl := rfl
@[simp] theorem State.modRpj_media (s : State) (f : RpjSt → RpjSt) : (s.modRpj f).media = s.media := rfl
@[simp] theorem State.modRpj_trn (s : State) (f : RpjSt → RpjSt) : (s.modRpj f).trn = s.trn := rfl
@[simp] theorem State.modRpj_egress (s : State) (f : RpjSt → RpjSt) : (s.modRpj f).egress = s.egress := rfl
@[simp] theorem State.modRpj_pending (s : State) (f : RpjSt → RpjSt) : (s.modRpj f).pending = s.pending := rfl
@[simp] theorem State.modRpj_fld (s : State) (f : RpjSt → RpjSt) (g : Fld) : (s.modRpj f).fld g = s.fld g := rfl
@[simp] theorem State.modRpj_flag (s : State) (f : RpjSt → RpjSt) (g : Fld) : (s.modRpj f).flag g = s.flag g := rfl

/-! ### modPair -/

@[simp] theorem State.modPair_pairSt (s : State) (f : PairSt → PairSt) : (s.modPair f).pairSt = f s.pairSt := rfl
@[simp] theorem State.modPair_cells (s : State) (f : PairSt → PairSt) : (s.modPair f).cells = s.cells := rfl
@[simp] theorem State.modPair_dram (s : State) (f : PairSt → PairSt) : (s.modPair f).dram = s.dram := rfl
@[simp] theorem State.modPair_latches (s : State) (f : PairSt → PairSt) : (s.modPair f).latches = s.latches := rfl
@[simp] theorem State.modPair_fresh (s : State) (f : PairSt → PairSt) : (s.modPair f).fresh = s.fresh := rfl
@[simp] theorem State.modPair_sent (s : State) (f : PairSt → PairSt) : (s.modPair f).sent = s.sent := rfl
@[simp] theorem State.modPair_pins (s : State) (f : PairSt → PairSt) : (s.modPair f).pins = s.pins := rfl
@[simp] theorem State.modPair_pattern (s : State) (f : PairSt → PairSt) : (s.modPair f).pattern = s.pattern := rfl
@[simp] theorem State.modPair_boot (s : State) (f : PairSt → PairSt) : (s.modPair f).boot = s.boot := rfl
@[simp] theorem State.modPair_repat (s : State) (f : PairSt → PairSt) : (s.modPair f).repat = s.repat := rfl
@[simp] theorem State.modPair_upd (s : State) (f : PairSt → PairSt) : (s.modPair f).upd = s.upd := rfl
@[simp] theorem State.modPair_commit (s : State) (f : PairSt → PairSt) : (s.modPair f).commit = s.commit := rfl
@[simp] theorem State.modPair_efmo (s : State) (f : PairSt → PairSt) : (s.modPair f).efmo = s.efmo := rfl
@[simp] theorem State.modPair_rows (s : State) (f : PairSt → PairSt) : (s.modPair f).rows = s.rows := rfl
@[simp] theorem State.modPair_ddp (s : State) (f : PairSt → PairSt) : (s.modPair f).ddp = s.ddp := rfl
@[simp] theorem State.modPair_sec (s : State) (f : PairSt → PairSt) : (s.modPair f).sec = s.sec := rfl
@[simp] theorem State.modPair_mtf (s : State) (f : PairSt → PairSt) : (s.modPair f).mtf = s.mtf := rfl
@[simp] theorem State.modPair_scc (s : State) (f : PairSt → PairSt) : (s.modPair f).scc = s.scc := rfl
@[simp] theorem State.modPair_bbm (s : State) (f : PairSt → PairSt) : (s.modPair f).bbm = s.bbm := rfl
@[simp] theorem State.modPair_rdt (s : State) (f : PairSt → PairSt) : (s.modPair f).rdt = s.rdt := rfl
@[simp] theorem State.modPair_snp (s : State) (f : PairSt → PairSt) : (s.modPair f).snp = s.snp := rfl
@[simp] theorem State.modPair_ctl (s : State) (f : PairSt → PairSt) : (s.modPair f).ctl = s.ctl := rfl
@[simp] theorem State.modPair_health (s : State) (f : PairSt → PairSt) : (s.modPair f).health = s.health := rfl
@[simp] theorem State.modPair_map (s : State) (f : PairSt → PairSt) : (s.modPair f).map = s.map := rfl
@[simp] theorem State.modPair_ftl (s : State) (f : PairSt → PairSt) : (s.modPair f).ftl = s.ftl := rfl
@[simp] theorem State.modPair_media (s : State) (f : PairSt → PairSt) : (s.modPair f).media = s.media := rfl
@[simp] theorem State.modPair_trn (s : State) (f : PairSt → PairSt) : (s.modPair f).trn = s.trn := rfl
@[simp] theorem State.modPair_rpj (s : State) (f : PairSt → PairSt) : (s.modPair f).rpj = s.rpj := rfl
@[simp] theorem State.modPair_egress (s : State) (f : PairSt → PairSt) : (s.modPair f).egress = s.egress := rfl
@[simp] theorem State.modPair_pending (s : State) (f : PairSt → PairSt) : (s.modPair f).pending = s.pending := rfl
@[simp] theorem State.modPair_fld (s : State) (f : PairSt → PairSt) (g : Fld) : (s.modPair f).fld g = s.fld g := rfl
@[simp] theorem State.modPair_flag (s : State) (f : PairSt → PairSt) (g : Fld) : (s.modPair f).flag g = s.flag g := rfl

/-! ### modPins -/

@[simp] theorem State.modPins_pins (s : State) (f : Pins → Pins) : (s.modPins f).pins = f s.pins := rfl
@[simp] theorem State.modPins_cells (s : State) (f : Pins → Pins) : (s.modPins f).cells = s.cells := rfl
@[simp] theorem State.modPins_dram (s : State) (f : Pins → Pins) : (s.modPins f).dram = s.dram := rfl
@[simp] theorem State.modPins_latches (s : State) (f : Pins → Pins) : (s.modPins f).latches = s.latches := rfl
@[simp] theorem State.modPins_fresh (s : State) (f : Pins → Pins) : (s.modPins f).fresh = s.fresh := rfl
@[simp] theorem State.modPins_sent (s : State) (f : Pins → Pins) : (s.modPins f).sent = s.sent := rfl
@[simp] theorem State.modPins_pattern (s : State) (f : Pins → Pins) : (s.modPins f).pattern = s.pattern := rfl
@[simp] theorem State.modPins_boot (s : State) (f : Pins → Pins) : (s.modPins f).boot = s.boot := rfl
@[simp] theorem State.modPins_repat (s : State) (f : Pins → Pins) : (s.modPins f).repat = s.repat := rfl
@[simp] theorem State.modPins_upd (s : State) (f : Pins → Pins) : (s.modPins f).upd = s.upd := rfl
@[simp] theorem State.modPins_pairSt (s : State) (f : Pins → Pins) : (s.modPins f).pairSt = s.pairSt := rfl
@[simp] theorem State.modPins_commit (s : State) (f : Pins → Pins) : (s.modPins f).commit = s.commit := rfl
@[simp] theorem State.modPins_efmo (s : State) (f : Pins → Pins) : (s.modPins f).efmo = s.efmo := rfl
@[simp] theorem State.modPins_rows (s : State) (f : Pins → Pins) : (s.modPins f).rows = s.rows := rfl
@[simp] theorem State.modPins_ddp (s : State) (f : Pins → Pins) : (s.modPins f).ddp = s.ddp := rfl
@[simp] theorem State.modPins_sec (s : State) (f : Pins → Pins) : (s.modPins f).sec = s.sec := rfl
@[simp] theorem State.modPins_mtf (s : State) (f : Pins → Pins) : (s.modPins f).mtf = s.mtf := rfl
@[simp] theorem State.modPins_scc (s : State) (f : Pins → Pins) : (s.modPins f).scc = s.scc := rfl
@[simp] theorem State.modPins_bbm (s : State) (f : Pins → Pins) : (s.modPins f).bbm = s.bbm := rfl
@[simp] theorem State.modPins_rdt (s : State) (f : Pins → Pins) : (s.modPins f).rdt = s.rdt := rfl
@[simp] theorem State.modPins_snp (s : State) (f : Pins → Pins) : (s.modPins f).snp = s.snp := rfl
@[simp] theorem State.modPins_ctl (s : State) (f : Pins → Pins) : (s.modPins f).ctl = s.ctl := rfl
@[simp] theorem State.modPins_health (s : State) (f : Pins → Pins) : (s.modPins f).health = s.health := rfl
@[simp] theorem State.modPins_map (s : State) (f : Pins → Pins) : (s.modPins f).map = s.map := rfl
@[simp] theorem State.modPins_ftl (s : State) (f : Pins → Pins) : (s.modPins f).ftl = s.ftl := rfl
@[simp] theorem State.modPins_media (s : State) (f : Pins → Pins) : (s.modPins f).media = s.media := rfl
@[simp] theorem State.modPins_trn (s : State) (f : Pins → Pins) : (s.modPins f).trn = s.trn := rfl
@[simp] theorem State.modPins_rpj (s : State) (f : Pins → Pins) : (s.modPins f).rpj = s.rpj := rfl
@[simp] theorem State.modPins_egress (s : State) (f : Pins → Pins) : (s.modPins f).egress = s.egress := rfl
@[simp] theorem State.modPins_pending (s : State) (f : Pins → Pins) : (s.modPins f).pending = s.pending := rfl
@[simp] theorem State.modPins_fld (s : State) (f : Pins → Pins) (g : Fld) : (s.modPins f).fld g = s.fld g := rfl
@[simp] theorem State.modPins_flag (s : State) (f : Pins → Pins) (g : Fld) : (s.modPins f).flag g = s.flag g := rfl

/-! ### modMtf -/

@[simp] theorem State.modMtf_mtf (s : State) (f : MtfSt → MtfSt) : (s.modMtf f).mtf = f s.mtf := rfl
@[simp] theorem State.modMtf_cells (s : State) (f : MtfSt → MtfSt) : (s.modMtf f).cells = s.cells := rfl
@[simp] theorem State.modMtf_dram (s : State) (f : MtfSt → MtfSt) : (s.modMtf f).dram = s.dram := rfl
@[simp] theorem State.modMtf_latches (s : State) (f : MtfSt → MtfSt) : (s.modMtf f).latches = s.latches := rfl
@[simp] theorem State.modMtf_fresh (s : State) (f : MtfSt → MtfSt) : (s.modMtf f).fresh = s.fresh := rfl
@[simp] theorem State.modMtf_sent (s : State) (f : MtfSt → MtfSt) : (s.modMtf f).sent = s.sent := rfl
@[simp] theorem State.modMtf_pins (s : State) (f : MtfSt → MtfSt) : (s.modMtf f).pins = s.pins := rfl
@[simp] theorem State.modMtf_pattern (s : State) (f : MtfSt → MtfSt) : (s.modMtf f).pattern = s.pattern := rfl
@[simp] theorem State.modMtf_boot (s : State) (f : MtfSt → MtfSt) : (s.modMtf f).boot = s.boot := rfl
@[simp] theorem State.modMtf_repat (s : State) (f : MtfSt → MtfSt) : (s.modMtf f).repat = s.repat := rfl
@[simp] theorem State.modMtf_upd (s : State) (f : MtfSt → MtfSt) : (s.modMtf f).upd = s.upd := rfl
@[simp] theorem State.modMtf_pairSt (s : State) (f : MtfSt → MtfSt) : (s.modMtf f).pairSt = s.pairSt := rfl
@[simp] theorem State.modMtf_commit (s : State) (f : MtfSt → MtfSt) : (s.modMtf f).commit = s.commit := rfl
@[simp] theorem State.modMtf_efmo (s : State) (f : MtfSt → MtfSt) : (s.modMtf f).efmo = s.efmo := rfl
@[simp] theorem State.modMtf_rows (s : State) (f : MtfSt → MtfSt) : (s.modMtf f).rows = s.rows := rfl
@[simp] theorem State.modMtf_ddp (s : State) (f : MtfSt → MtfSt) : (s.modMtf f).ddp = s.ddp := rfl
@[simp] theorem State.modMtf_sec (s : State) (f : MtfSt → MtfSt) : (s.modMtf f).sec = s.sec := rfl
@[simp] theorem State.modMtf_scc (s : State) (f : MtfSt → MtfSt) : (s.modMtf f).scc = s.scc := rfl
@[simp] theorem State.modMtf_bbm (s : State) (f : MtfSt → MtfSt) : (s.modMtf f).bbm = s.bbm := rfl
@[simp] theorem State.modMtf_rdt (s : State) (f : MtfSt → MtfSt) : (s.modMtf f).rdt = s.rdt := rfl
@[simp] theorem State.modMtf_snp (s : State) (f : MtfSt → MtfSt) : (s.modMtf f).snp = s.snp := rfl
@[simp] theorem State.modMtf_ctl (s : State) (f : MtfSt → MtfSt) : (s.modMtf f).ctl = s.ctl := rfl
@[simp] theorem State.modMtf_health (s : State) (f : MtfSt → MtfSt) : (s.modMtf f).health = s.health := rfl
@[simp] theorem State.modMtf_map (s : State) (f : MtfSt → MtfSt) : (s.modMtf f).map = s.map := rfl
@[simp] theorem State.modMtf_ftl (s : State) (f : MtfSt → MtfSt) : (s.modMtf f).ftl = s.ftl := rfl
@[simp] theorem State.modMtf_media (s : State) (f : MtfSt → MtfSt) : (s.modMtf f).media = s.media := rfl
@[simp] theorem State.modMtf_trn (s : State) (f : MtfSt → MtfSt) : (s.modMtf f).trn = s.trn := rfl
@[simp] theorem State.modMtf_rpj (s : State) (f : MtfSt → MtfSt) : (s.modMtf f).rpj = s.rpj := rfl
@[simp] theorem State.modMtf_egress (s : State) (f : MtfSt → MtfSt) : (s.modMtf f).egress = s.egress := rfl
@[simp] theorem State.modMtf_pending (s : State) (f : MtfSt → MtfSt) : (s.modMtf f).pending = s.pending := rfl
@[simp] theorem State.modMtf_fld (s : State) (f : MtfSt → MtfSt) (g : Fld) : (s.modMtf f).fld g = s.fld g := rfl
@[simp] theorem State.modMtf_flag (s : State) (f : MtfSt → MtfSt) (g : Fld) : (s.modMtf f).flag g = s.flag g := rfl

/-! ### modCtl -/

@[simp] theorem State.modCtl_ctl (s : State) (f : CtlSt → CtlSt) : (s.modCtl f).ctl = f s.ctl := rfl
@[simp] theorem State.modCtl_cells (s : State) (f : CtlSt → CtlSt) : (s.modCtl f).cells = s.cells := rfl
@[simp] theorem State.modCtl_dram (s : State) (f : CtlSt → CtlSt) : (s.modCtl f).dram = s.dram := rfl
@[simp] theorem State.modCtl_latches (s : State) (f : CtlSt → CtlSt) : (s.modCtl f).latches = s.latches := rfl
@[simp] theorem State.modCtl_fresh (s : State) (f : CtlSt → CtlSt) : (s.modCtl f).fresh = s.fresh := rfl
@[simp] theorem State.modCtl_sent (s : State) (f : CtlSt → CtlSt) : (s.modCtl f).sent = s.sent := rfl
@[simp] theorem State.modCtl_pins (s : State) (f : CtlSt → CtlSt) : (s.modCtl f).pins = s.pins := rfl
@[simp] theorem State.modCtl_pattern (s : State) (f : CtlSt → CtlSt) : (s.modCtl f).pattern = s.pattern := rfl
@[simp] theorem State.modCtl_boot (s : State) (f : CtlSt → CtlSt) : (s.modCtl f).boot = s.boot := rfl
@[simp] theorem State.modCtl_repat (s : State) (f : CtlSt → CtlSt) : (s.modCtl f).repat = s.repat := rfl
@[simp] theorem State.modCtl_upd (s : State) (f : CtlSt → CtlSt) : (s.modCtl f).upd = s.upd := rfl
@[simp] theorem State.modCtl_pairSt (s : State) (f : CtlSt → CtlSt) : (s.modCtl f).pairSt = s.pairSt := rfl
@[simp] theorem State.modCtl_commit (s : State) (f : CtlSt → CtlSt) : (s.modCtl f).commit = s.commit := rfl
@[simp] theorem State.modCtl_efmo (s : State) (f : CtlSt → CtlSt) : (s.modCtl f).efmo = s.efmo := rfl
@[simp] theorem State.modCtl_rows (s : State) (f : CtlSt → CtlSt) : (s.modCtl f).rows = s.rows := rfl
@[simp] theorem State.modCtl_ddp (s : State) (f : CtlSt → CtlSt) : (s.modCtl f).ddp = s.ddp := rfl
@[simp] theorem State.modCtl_sec (s : State) (f : CtlSt → CtlSt) : (s.modCtl f).sec = s.sec := rfl
@[simp] theorem State.modCtl_mtf (s : State) (f : CtlSt → CtlSt) : (s.modCtl f).mtf = s.mtf := rfl
@[simp] theorem State.modCtl_scc (s : State) (f : CtlSt → CtlSt) : (s.modCtl f).scc = s.scc := rfl
@[simp] theorem State.modCtl_bbm (s : State) (f : CtlSt → CtlSt) : (s.modCtl f).bbm = s.bbm := rfl
@[simp] theorem State.modCtl_rdt (s : State) (f : CtlSt → CtlSt) : (s.modCtl f).rdt = s.rdt := rfl
@[simp] theorem State.modCtl_snp (s : State) (f : CtlSt → CtlSt) : (s.modCtl f).snp = s.snp := rfl
@[simp] theorem State.modCtl_health (s : State) (f : CtlSt → CtlSt) : (s.modCtl f).health = s.health := rfl
@[simp] theorem State.modCtl_map (s : State) (f : CtlSt → CtlSt) : (s.modCtl f).map = s.map := rfl
@[simp] theorem State.modCtl_ftl (s : State) (f : CtlSt → CtlSt) : (s.modCtl f).ftl = s.ftl := rfl
@[simp] theorem State.modCtl_media (s : State) (f : CtlSt → CtlSt) : (s.modCtl f).media = s.media := rfl
@[simp] theorem State.modCtl_trn (s : State) (f : CtlSt → CtlSt) : (s.modCtl f).trn = s.trn := rfl
@[simp] theorem State.modCtl_rpj (s : State) (f : CtlSt → CtlSt) : (s.modCtl f).rpj = s.rpj := rfl
@[simp] theorem State.modCtl_egress (s : State) (f : CtlSt → CtlSt) : (s.modCtl f).egress = s.egress := rfl
@[simp] theorem State.modCtl_pending (s : State) (f : CtlSt → CtlSt) : (s.modCtl f).pending = s.pending := rfl
@[simp] theorem State.modCtl_fld (s : State) (f : CtlSt → CtlSt) (g : Fld) : (s.modCtl f).fld g = s.fld g := rfl
@[simp] theorem State.modCtl_flag (s : State) (f : CtlSt → CtlSt) (g : Fld) : (s.modCtl f).flag g = s.flag g := rfl

/-! ### modHealth -/

@[simp] theorem State.modHealth_health (s : State) (f : HealthSt → HealthSt) : (s.modHealth f).health = f s.health := rfl
@[simp] theorem State.modHealth_cells (s : State) (f : HealthSt → HealthSt) : (s.modHealth f).cells = s.cells := rfl
@[simp] theorem State.modHealth_dram (s : State) (f : HealthSt → HealthSt) : (s.modHealth f).dram = s.dram := rfl
@[simp] theorem State.modHealth_latches (s : State) (f : HealthSt → HealthSt) : (s.modHealth f).latches = s.latches := rfl
@[simp] theorem State.modHealth_fresh (s : State) (f : HealthSt → HealthSt) : (s.modHealth f).fresh = s.fresh := rfl
@[simp] theorem State.modHealth_sent (s : State) (f : HealthSt → HealthSt) : (s.modHealth f).sent = s.sent := rfl
@[simp] theorem State.modHealth_pins (s : State) (f : HealthSt → HealthSt) : (s.modHealth f).pins = s.pins := rfl
@[simp] theorem State.modHealth_pattern (s : State) (f : HealthSt → HealthSt) : (s.modHealth f).pattern = s.pattern := rfl
@[simp] theorem State.modHealth_boot (s : State) (f : HealthSt → HealthSt) : (s.modHealth f).boot = s.boot := rfl
@[simp] theorem State.modHealth_repat (s : State) (f : HealthSt → HealthSt) : (s.modHealth f).repat = s.repat := rfl
@[simp] theorem State.modHealth_upd (s : State) (f : HealthSt → HealthSt) : (s.modHealth f).upd = s.upd := rfl
@[simp] theorem State.modHealth_pairSt (s : State) (f : HealthSt → HealthSt) : (s.modHealth f).pairSt = s.pairSt := rfl
@[simp] theorem State.modHealth_commit (s : State) (f : HealthSt → HealthSt) : (s.modHealth f).commit = s.commit := rfl
@[simp] theorem State.modHealth_efmo (s : State) (f : HealthSt → HealthSt) : (s.modHealth f).efmo = s.efmo := rfl
@[simp] theorem State.modHealth_rows (s : State) (f : HealthSt → HealthSt) : (s.modHealth f).rows = s.rows := rfl
@[simp] theorem State.modHealth_ddp (s : State) (f : HealthSt → HealthSt) : (s.modHealth f).ddp = s.ddp := rfl
@[simp] theorem State.modHealth_sec (s : State) (f : HealthSt → HealthSt) : (s.modHealth f).sec = s.sec := rfl
@[simp] theorem State.modHealth_mtf (s : State) (f : HealthSt → HealthSt) : (s.modHealth f).mtf = s.mtf := rfl
@[simp] theorem State.modHealth_scc (s : State) (f : HealthSt → HealthSt) : (s.modHealth f).scc = s.scc := rfl
@[simp] theorem State.modHealth_bbm (s : State) (f : HealthSt → HealthSt) : (s.modHealth f).bbm = s.bbm := rfl
@[simp] theorem State.modHealth_rdt (s : State) (f : HealthSt → HealthSt) : (s.modHealth f).rdt = s.rdt := rfl
@[simp] theorem State.modHealth_snp (s : State) (f : HealthSt → HealthSt) : (s.modHealth f).snp = s.snp := rfl
@[simp] theorem State.modHealth_ctl (s : State) (f : HealthSt → HealthSt) : (s.modHealth f).ctl = s.ctl := rfl
@[simp] theorem State.modHealth_map (s : State) (f : HealthSt → HealthSt) : (s.modHealth f).map = s.map := rfl
@[simp] theorem State.modHealth_ftl (s : State) (f : HealthSt → HealthSt) : (s.modHealth f).ftl = s.ftl := rfl
@[simp] theorem State.modHealth_media (s : State) (f : HealthSt → HealthSt) : (s.modHealth f).media = s.media := rfl
@[simp] theorem State.modHealth_trn (s : State) (f : HealthSt → HealthSt) : (s.modHealth f).trn = s.trn := rfl
@[simp] theorem State.modHealth_rpj (s : State) (f : HealthSt → HealthSt) : (s.modHealth f).rpj = s.rpj := rfl
@[simp] theorem State.modHealth_egress (s : State) (f : HealthSt → HealthSt) : (s.modHealth f).egress = s.egress := rfl
@[simp] theorem State.modHealth_pending (s : State) (f : HealthSt → HealthSt) : (s.modHealth f).pending = s.pending := rfl
@[simp] theorem State.modHealth_fld (s : State) (f : HealthSt → HealthSt) (g : Fld) : (s.modHealth f).fld g = s.fld g := rfl
@[simp] theorem State.modHealth_flag (s : State) (f : HealthSt → HealthSt) (g : Fld) : (s.modHealth f).flag g = s.flag g := rfl

/-! ### modScc -/

@[simp] theorem State.modScc_scc (s : State) (f : SccSt → SccSt) : (s.modScc f).scc = f s.scc := rfl
@[simp] theorem State.modScc_cells (s : State) (f : SccSt → SccSt) : (s.modScc f).cells = s.cells := rfl
@[simp] theorem State.modScc_dram (s : State) (f : SccSt → SccSt) : (s.modScc f).dram = s.dram := rfl
@[simp] theorem State.modScc_latches (s : State) (f : SccSt → SccSt) : (s.modScc f).latches = s.latches := rfl
@[simp] theorem State.modScc_fresh (s : State) (f : SccSt → SccSt) : (s.modScc f).fresh = s.fresh := rfl
@[simp] theorem State.modScc_sent (s : State) (f : SccSt → SccSt) : (s.modScc f).sent = s.sent := rfl
@[simp] theorem State.modScc_pins (s : State) (f : SccSt → SccSt) : (s.modScc f).pins = s.pins := rfl
@[simp] theorem State.modScc_pattern (s : State) (f : SccSt → SccSt) : (s.modScc f).pattern = s.pattern := rfl
@[simp] theorem State.modScc_boot (s : State) (f : SccSt → SccSt) : (s.modScc f).boot = s.boot := rfl
@[simp] theorem State.modScc_repat (s : State) (f : SccSt → SccSt) : (s.modScc f).repat = s.repat := rfl
@[simp] theorem State.modScc_upd (s : State) (f : SccSt → SccSt) : (s.modScc f).upd = s.upd := rfl
@[simp] theorem State.modScc_pairSt (s : State) (f : SccSt → SccSt) : (s.modScc f).pairSt = s.pairSt := rfl
@[simp] theorem State.modScc_commit (s : State) (f : SccSt → SccSt) : (s.modScc f).commit = s.commit := rfl
@[simp] theorem State.modScc_efmo (s : State) (f : SccSt → SccSt) : (s.modScc f).efmo = s.efmo := rfl
@[simp] theorem State.modScc_rows (s : State) (f : SccSt → SccSt) : (s.modScc f).rows = s.rows := rfl
@[simp] theorem State.modScc_ddp (s : State) (f : SccSt → SccSt) : (s.modScc f).ddp = s.ddp := rfl
@[simp] theorem State.modScc_sec (s : State) (f : SccSt → SccSt) : (s.modScc f).sec = s.sec := rfl
@[simp] theorem State.modScc_mtf (s : State) (f : SccSt → SccSt) : (s.modScc f).mtf = s.mtf := rfl
@[simp] theorem State.modScc_bbm (s : State) (f : SccSt → SccSt) : (s.modScc f).bbm = s.bbm := rfl
@[simp] theorem State.modScc_rdt (s : State) (f : SccSt → SccSt) : (s.modScc f).rdt = s.rdt := rfl
@[simp] theorem State.modScc_snp (s : State) (f : SccSt → SccSt) : (s.modScc f).snp = s.snp := rfl
@[simp] theorem State.modScc_ctl (s : State) (f : SccSt → SccSt) : (s.modScc f).ctl = s.ctl := rfl
@[simp] theorem State.modScc_health (s : State) (f : SccSt → SccSt) : (s.modScc f).health = s.health := rfl
@[simp] theorem State.modScc_map (s : State) (f : SccSt → SccSt) : (s.modScc f).map = s.map := rfl
@[simp] theorem State.modScc_ftl (s : State) (f : SccSt → SccSt) : (s.modScc f).ftl = s.ftl := rfl
@[simp] theorem State.modScc_media (s : State) (f : SccSt → SccSt) : (s.modScc f).media = s.media := rfl
@[simp] theorem State.modScc_trn (s : State) (f : SccSt → SccSt) : (s.modScc f).trn = s.trn := rfl
@[simp] theorem State.modScc_rpj (s : State) (f : SccSt → SccSt) : (s.modScc f).rpj = s.rpj := rfl
@[simp] theorem State.modScc_egress (s : State) (f : SccSt → SccSt) : (s.modScc f).egress = s.egress := rfl
@[simp] theorem State.modScc_pending (s : State) (f : SccSt → SccSt) : (s.modScc f).pending = s.pending := rfl
@[simp] theorem State.modScc_fld (s : State) (f : SccSt → SccSt) (g : Fld) : (s.modScc f).fld g = s.fld g := rfl
@[simp] theorem State.modScc_flag (s : State) (f : SccSt → SccSt) (g : Fld) : (s.modScc f).flag g = s.flag g := rfl

/-! ### modBbm -/

@[simp] theorem State.modBbm_bbm (s : State) (f : BbmSt → BbmSt) : (s.modBbm f).bbm = f s.bbm := rfl
@[simp] theorem State.modBbm_cells (s : State) (f : BbmSt → BbmSt) : (s.modBbm f).cells = s.cells := rfl
@[simp] theorem State.modBbm_dram (s : State) (f : BbmSt → BbmSt) : (s.modBbm f).dram = s.dram := rfl
@[simp] theorem State.modBbm_latches (s : State) (f : BbmSt → BbmSt) : (s.modBbm f).latches = s.latches := rfl
@[simp] theorem State.modBbm_fresh (s : State) (f : BbmSt → BbmSt) : (s.modBbm f).fresh = s.fresh := rfl
@[simp] theorem State.modBbm_sent (s : State) (f : BbmSt → BbmSt) : (s.modBbm f).sent = s.sent := rfl
@[simp] theorem State.modBbm_pins (s : State) (f : BbmSt → BbmSt) : (s.modBbm f).pins = s.pins := rfl
@[simp] theorem State.modBbm_pattern (s : State) (f : BbmSt → BbmSt) : (s.modBbm f).pattern = s.pattern := rfl
@[simp] theorem State.modBbm_boot (s : State) (f : BbmSt → BbmSt) : (s.modBbm f).boot = s.boot := rfl
@[simp] theorem State.modBbm_repat (s : State) (f : BbmSt → BbmSt) : (s.modBbm f).repat = s.repat := rfl
@[simp] theorem State.modBbm_upd (s : State) (f : BbmSt → BbmSt) : (s.modBbm f).upd = s.upd := rfl
@[simp] theorem State.modBbm_pairSt (s : State) (f : BbmSt → BbmSt) : (s.modBbm f).pairSt = s.pairSt := rfl
@[simp] theorem State.modBbm_commit (s : State) (f : BbmSt → BbmSt) : (s.modBbm f).commit = s.commit := rfl
@[simp] theorem State.modBbm_efmo (s : State) (f : BbmSt → BbmSt) : (s.modBbm f).efmo = s.efmo := rfl
@[simp] theorem State.modBbm_rows (s : State) (f : BbmSt → BbmSt) : (s.modBbm f).rows = s.rows := rfl
@[simp] theorem State.modBbm_ddp (s : State) (f : BbmSt → BbmSt) : (s.modBbm f).ddp = s.ddp := rfl
@[simp] theorem State.modBbm_sec (s : State) (f : BbmSt → BbmSt) : (s.modBbm f).sec = s.sec := rfl
@[simp] theorem State.modBbm_mtf (s : State) (f : BbmSt → BbmSt) : (s.modBbm f).mtf = s.mtf := rfl
@[simp] theorem State.modBbm_scc (s : State) (f : BbmSt → BbmSt) : (s.modBbm f).scc = s.scc := rfl
@[simp] theorem State.modBbm_rdt (s : State) (f : BbmSt → BbmSt) : (s.modBbm f).rdt = s.rdt := rfl
@[simp] theorem State.modBbm_snp (s : State) (f : BbmSt → BbmSt) : (s.modBbm f).snp = s.snp := rfl
@[simp] theorem State.modBbm_ctl (s : State) (f : BbmSt → BbmSt) : (s.modBbm f).ctl = s.ctl := rfl
@[simp] theorem State.modBbm_health (s : State) (f : BbmSt → BbmSt) : (s.modBbm f).health = s.health := rfl
@[simp] theorem State.modBbm_map (s : State) (f : BbmSt → BbmSt) : (s.modBbm f).map = s.map := rfl
@[simp] theorem State.modBbm_ftl (s : State) (f : BbmSt → BbmSt) : (s.modBbm f).ftl = s.ftl := rfl
@[simp] theorem State.modBbm_media (s : State) (f : BbmSt → BbmSt) : (s.modBbm f).media = s.media := rfl
@[simp] theorem State.modBbm_trn (s : State) (f : BbmSt → BbmSt) : (s.modBbm f).trn = s.trn := rfl
@[simp] theorem State.modBbm_rpj (s : State) (f : BbmSt → BbmSt) : (s.modBbm f).rpj = s.rpj := rfl
@[simp] theorem State.modBbm_egress (s : State) (f : BbmSt → BbmSt) : (s.modBbm f).egress = s.egress := rfl
@[simp] theorem State.modBbm_pending (s : State) (f : BbmSt → BbmSt) : (s.modBbm f).pending = s.pending := rfl
@[simp] theorem State.modBbm_fld (s : State) (f : BbmSt → BbmSt) (g : Fld) : (s.modBbm f).fld g = s.fld g := rfl
@[simp] theorem State.modBbm_flag (s : State) (f : BbmSt → BbmSt) (g : Fld) : (s.modBbm f).flag g = s.flag g := rfl

/-! ### modRdt -/

@[simp] theorem State.modRdt_rdt (s : State) (f : RdtSt → RdtSt) : (s.modRdt f).rdt = f s.rdt := rfl
@[simp] theorem State.modRdt_cells (s : State) (f : RdtSt → RdtSt) : (s.modRdt f).cells = s.cells := rfl
@[simp] theorem State.modRdt_dram (s : State) (f : RdtSt → RdtSt) : (s.modRdt f).dram = s.dram := rfl
@[simp] theorem State.modRdt_latches (s : State) (f : RdtSt → RdtSt) : (s.modRdt f).latches = s.latches := rfl
@[simp] theorem State.modRdt_fresh (s : State) (f : RdtSt → RdtSt) : (s.modRdt f).fresh = s.fresh := rfl
@[simp] theorem State.modRdt_sent (s : State) (f : RdtSt → RdtSt) : (s.modRdt f).sent = s.sent := rfl
@[simp] theorem State.modRdt_pins (s : State) (f : RdtSt → RdtSt) : (s.modRdt f).pins = s.pins := rfl
@[simp] theorem State.modRdt_pattern (s : State) (f : RdtSt → RdtSt) : (s.modRdt f).pattern = s.pattern := rfl
@[simp] theorem State.modRdt_boot (s : State) (f : RdtSt → RdtSt) : (s.modRdt f).boot = s.boot := rfl
@[simp] theorem State.modRdt_repat (s : State) (f : RdtSt → RdtSt) : (s.modRdt f).repat = s.repat := rfl
@[simp] theorem State.modRdt_upd (s : State) (f : RdtSt → RdtSt) : (s.modRdt f).upd = s.upd := rfl
@[simp] theorem State.modRdt_pairSt (s : State) (f : RdtSt → RdtSt) : (s.modRdt f).pairSt = s.pairSt := rfl
@[simp] theorem State.modRdt_commit (s : State) (f : RdtSt → RdtSt) : (s.modRdt f).commit = s.commit := rfl
@[simp] theorem State.modRdt_efmo (s : State) (f : RdtSt → RdtSt) : (s.modRdt f).efmo = s.efmo := rfl
@[simp] theorem State.modRdt_rows (s : State) (f : RdtSt → RdtSt) : (s.modRdt f).rows = s.rows := rfl
@[simp] theorem State.modRdt_ddp (s : State) (f : RdtSt → RdtSt) : (s.modRdt f).ddp = s.ddp := rfl
@[simp] theorem State.modRdt_sec (s : State) (f : RdtSt → RdtSt) : (s.modRdt f).sec = s.sec := rfl
@[simp] theorem State.modRdt_mtf (s : State) (f : RdtSt → RdtSt) : (s.modRdt f).mtf = s.mtf := rfl
@[simp] theorem State.modRdt_scc (s : State) (f : RdtSt → RdtSt) : (s.modRdt f).scc = s.scc := rfl
@[simp] theorem State.modRdt_bbm (s : State) (f : RdtSt → RdtSt) : (s.modRdt f).bbm = s.bbm := rfl
@[simp] theorem State.modRdt_snp (s : State) (f : RdtSt → RdtSt) : (s.modRdt f).snp = s.snp := rfl
@[simp] theorem State.modRdt_ctl (s : State) (f : RdtSt → RdtSt) : (s.modRdt f).ctl = s.ctl := rfl
@[simp] theorem State.modRdt_health (s : State) (f : RdtSt → RdtSt) : (s.modRdt f).health = s.health := rfl
@[simp] theorem State.modRdt_map (s : State) (f : RdtSt → RdtSt) : (s.modRdt f).map = s.map := rfl
@[simp] theorem State.modRdt_ftl (s : State) (f : RdtSt → RdtSt) : (s.modRdt f).ftl = s.ftl := rfl
@[simp] theorem State.modRdt_media (s : State) (f : RdtSt → RdtSt) : (s.modRdt f).media = s.media := rfl
@[simp] theorem State.modRdt_trn (s : State) (f : RdtSt → RdtSt) : (s.modRdt f).trn = s.trn := rfl
@[simp] theorem State.modRdt_rpj (s : State) (f : RdtSt → RdtSt) : (s.modRdt f).rpj = s.rpj := rfl
@[simp] theorem State.modRdt_egress (s : State) (f : RdtSt → RdtSt) : (s.modRdt f).egress = s.egress := rfl
@[simp] theorem State.modRdt_pending (s : State) (f : RdtSt → RdtSt) : (s.modRdt f).pending = s.pending := rfl
@[simp] theorem State.modRdt_fld (s : State) (f : RdtSt → RdtSt) (g : Fld) : (s.modRdt f).fld g = s.fld g := rfl
@[simp] theorem State.modRdt_flag (s : State) (f : RdtSt → RdtSt) (g : Fld) : (s.modRdt f).flag g = s.flag g := rfl

/-! ### modSnp -/

@[simp] theorem State.modSnp_snp (s : State) (f : SnpSt → SnpSt) : (s.modSnp f).snp = f s.snp := rfl
@[simp] theorem State.modSnp_cells (s : State) (f : SnpSt → SnpSt) : (s.modSnp f).cells = s.cells := rfl
@[simp] theorem State.modSnp_dram (s : State) (f : SnpSt → SnpSt) : (s.modSnp f).dram = s.dram := rfl
@[simp] theorem State.modSnp_latches (s : State) (f : SnpSt → SnpSt) : (s.modSnp f).latches = s.latches := rfl
@[simp] theorem State.modSnp_fresh (s : State) (f : SnpSt → SnpSt) : (s.modSnp f).fresh = s.fresh := rfl
@[simp] theorem State.modSnp_sent (s : State) (f : SnpSt → SnpSt) : (s.modSnp f).sent = s.sent := rfl
@[simp] theorem State.modSnp_pins (s : State) (f : SnpSt → SnpSt) : (s.modSnp f).pins = s.pins := rfl
@[simp] theorem State.modSnp_pattern (s : State) (f : SnpSt → SnpSt) : (s.modSnp f).pattern = s.pattern := rfl
@[simp] theorem State.modSnp_boot (s : State) (f : SnpSt → SnpSt) : (s.modSnp f).boot = s.boot := rfl
@[simp] theorem State.modSnp_repat (s : State) (f : SnpSt → SnpSt) : (s.modSnp f).repat = s.repat := rfl
@[simp] theorem State.modSnp_upd (s : State) (f : SnpSt → SnpSt) : (s.modSnp f).upd = s.upd := rfl
@[simp] theorem State.modSnp_pairSt (s : State) (f : SnpSt → SnpSt) : (s.modSnp f).pairSt = s.pairSt := rfl
@[simp] theorem State.modSnp_commit (s : State) (f : SnpSt → SnpSt) : (s.modSnp f).commit = s.commit := rfl
@[simp] theorem State.modSnp_efmo (s : State) (f : SnpSt → SnpSt) : (s.modSnp f).efmo = s.efmo := rfl
@[simp] theorem State.modSnp_rows (s : State) (f : SnpSt → SnpSt) : (s.modSnp f).rows = s.rows := rfl
@[simp] theorem State.modSnp_ddp (s : State) (f : SnpSt → SnpSt) : (s.modSnp f).ddp = s.ddp := rfl
@[simp] theorem State.modSnp_sec (s : State) (f : SnpSt → SnpSt) : (s.modSnp f).sec = s.sec := rfl
@[simp] theorem State.modSnp_mtf (s : State) (f : SnpSt → SnpSt) : (s.modSnp f).mtf = s.mtf := rfl
@[simp] theorem State.modSnp_scc (s : State) (f : SnpSt → SnpSt) : (s.modSnp f).scc = s.scc := rfl
@[simp] theorem State.modSnp_bbm (s : State) (f : SnpSt → SnpSt) : (s.modSnp f).bbm = s.bbm := rfl
@[simp] theorem State.modSnp_rdt (s : State) (f : SnpSt → SnpSt) : (s.modSnp f).rdt = s.rdt := rfl
@[simp] theorem State.modSnp_ctl (s : State) (f : SnpSt → SnpSt) : (s.modSnp f).ctl = s.ctl := rfl
@[simp] theorem State.modSnp_health (s : State) (f : SnpSt → SnpSt) : (s.modSnp f).health = s.health := rfl
@[simp] theorem State.modSnp_map (s : State) (f : SnpSt → SnpSt) : (s.modSnp f).map = s.map := rfl
@[simp] theorem State.modSnp_ftl (s : State) (f : SnpSt → SnpSt) : (s.modSnp f).ftl = s.ftl := rfl
@[simp] theorem State.modSnp_media (s : State) (f : SnpSt → SnpSt) : (s.modSnp f).media = s.media := rfl
@[simp] theorem State.modSnp_trn (s : State) (f : SnpSt → SnpSt) : (s.modSnp f).trn = s.trn := rfl
@[simp] theorem State.modSnp_rpj (s : State) (f : SnpSt → SnpSt) : (s.modSnp f).rpj = s.rpj := rfl
@[simp] theorem State.modSnp_egress (s : State) (f : SnpSt → SnpSt) : (s.modSnp f).egress = s.egress := rfl
@[simp] theorem State.modSnp_pending (s : State) (f : SnpSt → SnpSt) : (s.modSnp f).pending = s.pending := rfl
@[simp] theorem State.modSnp_fld (s : State) (f : SnpSt → SnpSt) (g : Fld) : (s.modSnp f).fld g = s.fld g := rfl
@[simp] theorem State.modSnp_flag (s : State) (f : SnpSt → SnpSt) (g : Fld) : (s.modSnp f).flag g = s.flag g := rfl

/-! ### modUpd -/

@[simp] theorem State.modUpd_upd (s : State) (f : UpdSt → UpdSt) : (s.modUpd f).upd = f s.upd := rfl
@[simp] theorem State.modUpd_cells (s : State) (f : UpdSt → UpdSt) : (s.modUpd f).cells = s.cells := rfl
@[simp] theorem State.modUpd_dram (s : State) (f : UpdSt → UpdSt) : (s.modUpd f).dram = s.dram := rfl
@[simp] theorem State.modUpd_latches (s : State) (f : UpdSt → UpdSt) : (s.modUpd f).latches = s.latches := rfl
@[simp] theorem State.modUpd_fresh (s : State) (f : UpdSt → UpdSt) : (s.modUpd f).fresh = s.fresh := rfl
@[simp] theorem State.modUpd_sent (s : State) (f : UpdSt → UpdSt) : (s.modUpd f).sent = s.sent := rfl
@[simp] theorem State.modUpd_pins (s : State) (f : UpdSt → UpdSt) : (s.modUpd f).pins = s.pins := rfl
@[simp] theorem State.modUpd_pattern (s : State) (f : UpdSt → UpdSt) : (s.modUpd f).pattern = s.pattern := rfl
@[simp] theorem State.modUpd_boot (s : State) (f : UpdSt → UpdSt) : (s.modUpd f).boot = s.boot := rfl
@[simp] theorem State.modUpd_repat (s : State) (f : UpdSt → UpdSt) : (s.modUpd f).repat = s.repat := rfl
@[simp] theorem State.modUpd_pairSt (s : State) (f : UpdSt → UpdSt) : (s.modUpd f).pairSt = s.pairSt := rfl
@[simp] theorem State.modUpd_commit (s : State) (f : UpdSt → UpdSt) : (s.modUpd f).commit = s.commit := rfl
@[simp] theorem State.modUpd_efmo (s : State) (f : UpdSt → UpdSt) : (s.modUpd f).efmo = s.efmo := rfl
@[simp] theorem State.modUpd_rows (s : State) (f : UpdSt → UpdSt) : (s.modUpd f).rows = s.rows := rfl
@[simp] theorem State.modUpd_ddp (s : State) (f : UpdSt → UpdSt) : (s.modUpd f).ddp = s.ddp := rfl
@[simp] theorem State.modUpd_sec (s : State) (f : UpdSt → UpdSt) : (s.modUpd f).sec = s.sec := rfl
@[simp] theorem State.modUpd_mtf (s : State) (f : UpdSt → UpdSt) : (s.modUpd f).mtf = s.mtf := rfl
@[simp] theorem State.modUpd_scc (s : State) (f : UpdSt → UpdSt) : (s.modUpd f).scc = s.scc := rfl
@[simp] theorem State.modUpd_bbm (s : State) (f : UpdSt → UpdSt) : (s.modUpd f).bbm = s.bbm := rfl
@[simp] theorem State.modUpd_rdt (s : State) (f : UpdSt → UpdSt) : (s.modUpd f).rdt = s.rdt := rfl
@[simp] theorem State.modUpd_snp (s : State) (f : UpdSt → UpdSt) : (s.modUpd f).snp = s.snp := rfl
@[simp] theorem State.modUpd_ctl (s : State) (f : UpdSt → UpdSt) : (s.modUpd f).ctl = s.ctl := rfl
@[simp] theorem State.modUpd_health (s : State) (f : UpdSt → UpdSt) : (s.modUpd f).health = s.health := rfl
@[simp] theorem State.modUpd_map (s : State) (f : UpdSt → UpdSt) : (s.modUpd f).map = s.map := rfl
@[simp] theorem State.modUpd_ftl (s : State) (f : UpdSt → UpdSt) : (s.modUpd f).ftl = s.ftl := rfl
@[simp] theorem State.modUpd_media (s : State) (f : UpdSt → UpdSt) : (s.modUpd f).media = s.media := rfl
@[simp] theorem State.modUpd_trn (s : State) (f : UpdSt → UpdSt) : (s.modUpd f).trn = s.trn := rfl
@[simp] theorem State.modUpd_rpj (s : State) (f : UpdSt → UpdSt) : (s.modUpd f).rpj = s.rpj := rfl
@[simp] theorem State.modUpd_egress (s : State) (f : UpdSt → UpdSt) : (s.modUpd f).egress = s.egress := rfl
@[simp] theorem State.modUpd_pending (s : State) (f : UpdSt → UpdSt) : (s.modUpd f).pending = s.pending := rfl
@[simp] theorem State.modUpd_fld (s : State) (f : UpdSt → UpdSt) (g : Fld) : (s.modUpd f).fld g = s.fld g := rfl
@[simp] theorem State.modUpd_flag (s : State) (f : UpdSt → UpdSt) (g : Fld) : (s.modUpd f).flag g = s.flag g := rfl

/-! ### modBoot -/

@[simp] theorem State.modBoot_boot (s : State) (f : BootSt → BootSt) : (s.modBoot f).boot = f s.boot := rfl
@[simp] theorem State.modBoot_cells (s : State) (f : BootSt → BootSt) : (s.modBoot f).cells = s.cells := rfl
@[simp] theorem State.modBoot_dram (s : State) (f : BootSt → BootSt) : (s.modBoot f).dram = s.dram := rfl
@[simp] theorem State.modBoot_latches (s : State) (f : BootSt → BootSt) : (s.modBoot f).latches = s.latches := rfl
@[simp] theorem State.modBoot_fresh (s : State) (f : BootSt → BootSt) : (s.modBoot f).fresh = s.fresh := rfl
@[simp] theorem State.modBoot_sent (s : State) (f : BootSt → BootSt) : (s.modBoot f).sent = s.sent := rfl
@[simp] theorem State.modBoot_pins (s : State) (f : BootSt → BootSt) : (s.modBoot f).pins = s.pins := rfl
@[simp] theorem State.modBoot_pattern (s : State) (f : BootSt → BootSt) : (s.modBoot f).pattern = s.pattern := rfl
@[simp] theorem State.modBoot_repat (s : State) (f : BootSt → BootSt) : (s.modBoot f).repat = s.repat := rfl
@[simp] theorem State.modBoot_upd (s : State) (f : BootSt → BootSt) : (s.modBoot f).upd = s.upd := rfl
@[simp] theorem State.modBoot_pairSt (s : State) (f : BootSt → BootSt) : (s.modBoot f).pairSt = s.pairSt := rfl
@[simp] theorem State.modBoot_commit (s : State) (f : BootSt → BootSt) : (s.modBoot f).commit = s.commit := rfl
@[simp] theorem State.modBoot_efmo (s : State) (f : BootSt → BootSt) : (s.modBoot f).efmo = s.efmo := rfl
@[simp] theorem State.modBoot_rows (s : State) (f : BootSt → BootSt) : (s.modBoot f).rows = s.rows := rfl
@[simp] theorem State.modBoot_ddp (s : State) (f : BootSt → BootSt) : (s.modBoot f).ddp = s.ddp := rfl
@[simp] theorem State.modBoot_sec (s : State) (f : BootSt → BootSt) : (s.modBoot f).sec = s.sec := rfl
@[simp] theorem State.modBoot_mtf (s : State) (f : BootSt → BootSt) : (s.modBoot f).mtf = s.mtf := rfl
@[simp] theorem State.modBoot_scc (s : State) (f : BootSt → BootSt) : (s.modBoot f).scc = s.scc := rfl
@[simp] theorem State.modBoot_bbm (s : State) (f : BootSt → BootSt) : (s.modBoot f).bbm = s.bbm := rfl
@[simp] theorem State.modBoot_rdt (s : State) (f : BootSt → BootSt) : (s.modBoot f).rdt = s.rdt := rfl
@[simp] theorem State.modBoot_snp (s : State) (f : BootSt → BootSt) : (s.modBoot f).snp = s.snp := rfl
@[simp] theorem State.modBoot_ctl (s : State) (f : BootSt → BootSt) : (s.modBoot f).ctl = s.ctl := rfl
@[simp] theorem State.modBoot_health (s : State) (f : BootSt → BootSt) : (s.modBoot f).health = s.health := rfl
@[simp] theorem State.modBoot_map (s : State) (f : BootSt → BootSt) : (s.modBoot f).map = s.map := rfl
@[simp] theorem State.modBoot_ftl (s : State) (f : BootSt → BootSt) : (s.modBoot f).ftl = s.ftl := rfl
@[simp] theorem State.modBoot_media (s : State) (f : BootSt → BootSt) : (s.modBoot f).media = s.media := rfl
@[simp] theorem State.modBoot_trn (s : State) (f : BootSt → BootSt) : (s.modBoot f).trn = s.trn := rfl
@[simp] theorem State.modBoot_rpj (s : State) (f : BootSt → BootSt) : (s.modBoot f).rpj = s.rpj := rfl
@[simp] theorem State.modBoot_egress (s : State) (f : BootSt → BootSt) : (s.modBoot f).egress = s.egress := rfl
@[simp] theorem State.modBoot_pending (s : State) (f : BootSt → BootSt) : (s.modBoot f).pending = s.pending := rfl
@[simp] theorem State.modBoot_fld (s : State) (f : BootSt → BootSt) (g : Fld) : (s.modBoot f).fld g = s.fld g := rfl
@[simp] theorem State.modBoot_flag (s : State) (f : BootSt → BootSt) (g : Fld) : (s.modBoot f).flag g = s.flag g := rfl

/-! ### modSec -/

@[simp] theorem State.modSec_sec (s : State) (f : SecSt → SecSt) : (s.modSec f).sec = f s.sec := rfl
@[simp] theorem State.modSec_cells (s : State) (f : SecSt → SecSt) : (s.modSec f).cells = s.cells := rfl
@[simp] theorem State.modSec_dram (s : State) (f : SecSt → SecSt) : (s.modSec f).dram = s.dram := rfl
@[simp] theorem State.modSec_latches (s : State) (f : SecSt → SecSt) : (s.modSec f).latches = s.latches := rfl
@[simp] theorem State.modSec_fresh (s : State) (f : SecSt → SecSt) : (s.modSec f).fresh = s.fresh := rfl
@[simp] theorem State.modSec_sent (s : State) (f : SecSt → SecSt) : (s.modSec f).sent = s.sent := rfl
@[simp] theorem State.modSec_pins (s : State) (f : SecSt → SecSt) : (s.modSec f).pins = s.pins := rfl
@[simp] theorem State.modSec_pattern (s : State) (f : SecSt → SecSt) : (s.modSec f).pattern = s.pattern := rfl
@[simp] theorem State.modSec_boot (s : State) (f : SecSt → SecSt) : (s.modSec f).boot = s.boot := rfl
@[simp] theorem State.modSec_repat (s : State) (f : SecSt → SecSt) : (s.modSec f).repat = s.repat := rfl
@[simp] theorem State.modSec_upd (s : State) (f : SecSt → SecSt) : (s.modSec f).upd = s.upd := rfl
@[simp] theorem State.modSec_pairSt (s : State) (f : SecSt → SecSt) : (s.modSec f).pairSt = s.pairSt := rfl
@[simp] theorem State.modSec_commit (s : State) (f : SecSt → SecSt) : (s.modSec f).commit = s.commit := rfl
@[simp] theorem State.modSec_efmo (s : State) (f : SecSt → SecSt) : (s.modSec f).efmo = s.efmo := rfl
@[simp] theorem State.modSec_rows (s : State) (f : SecSt → SecSt) : (s.modSec f).rows = s.rows := rfl
@[simp] theorem State.modSec_ddp (s : State) (f : SecSt → SecSt) : (s.modSec f).ddp = s.ddp := rfl
@[simp] theorem State.modSec_mtf (s : State) (f : SecSt → SecSt) : (s.modSec f).mtf = s.mtf := rfl
@[simp] theorem State.modSec_scc (s : State) (f : SecSt → SecSt) : (s.modSec f).scc = s.scc := rfl
@[simp] theorem State.modSec_bbm (s : State) (f : SecSt → SecSt) : (s.modSec f).bbm = s.bbm := rfl
@[simp] theorem State.modSec_rdt (s : State) (f : SecSt → SecSt) : (s.modSec f).rdt = s.rdt := rfl
@[simp] theorem State.modSec_snp (s : State) (f : SecSt → SecSt) : (s.modSec f).snp = s.snp := rfl
@[simp] theorem State.modSec_ctl (s : State) (f : SecSt → SecSt) : (s.modSec f).ctl = s.ctl := rfl
@[simp] theorem State.modSec_health (s : State) (f : SecSt → SecSt) : (s.modSec f).health = s.health := rfl
@[simp] theorem State.modSec_map (s : State) (f : SecSt → SecSt) : (s.modSec f).map = s.map := rfl
@[simp] theorem State.modSec_ftl (s : State) (f : SecSt → SecSt) : (s.modSec f).ftl = s.ftl := rfl
@[simp] theorem State.modSec_media (s : State) (f : SecSt → SecSt) : (s.modSec f).media = s.media := rfl
@[simp] theorem State.modSec_trn (s : State) (f : SecSt → SecSt) : (s.modSec f).trn = s.trn := rfl
@[simp] theorem State.modSec_rpj (s : State) (f : SecSt → SecSt) : (s.modSec f).rpj = s.rpj := rfl
@[simp] theorem State.modSec_egress (s : State) (f : SecSt → SecSt) : (s.modSec f).egress = s.egress := rfl
@[simp] theorem State.modSec_pending (s : State) (f : SecSt → SecSt) : (s.modSec f).pending = s.pending := rfl
@[simp] theorem State.modSec_fld (s : State) (f : SecSt → SecSt) (g : Fld) : (s.modSec f).fld g = s.fld g := rfl
@[simp] theorem State.modSec_flag (s : State) (f : SecSt → SecSt) (g : Fld) : (s.modSec f).flag g = s.flag g := rfl

/-! ### modHold -/

@[simp] theorem State.modHold_ctl (s : State) (f : HoldSt → HoldSt) : (s.modHold f).ctl = { s.ctl with hold := f s.ctl.hold } := rfl
@[simp] theorem State.modHold_cells (s : State) (f : HoldSt → HoldSt) : (s.modHold f).cells = s.cells := rfl
@[simp] theorem State.modHold_dram (s : State) (f : HoldSt → HoldSt) : (s.modHold f).dram = s.dram := rfl
@[simp] theorem State.modHold_latches (s : State) (f : HoldSt → HoldSt) : (s.modHold f).latches = s.latches := rfl
@[simp] theorem State.modHold_fresh (s : State) (f : HoldSt → HoldSt) : (s.modHold f).fresh = s.fresh := rfl
@[simp] theorem State.modHold_sent (s : State) (f : HoldSt → HoldSt) : (s.modHold f).sent = s.sent := rfl
@[simp] theorem State.modHold_pins (s : State) (f : HoldSt → HoldSt) : (s.modHold f).pins = s.pins := rfl
@[simp] theorem State.modHold_pattern (s : State) (f : HoldSt → HoldSt) : (s.modHold f).pattern = s.pattern := rfl
@[simp] theorem State.modHold_boot (s : State) (f : HoldSt → HoldSt) : (s.modHold f).boot = s.boot := rfl
@[simp] theorem State.modHold_repat (s : State) (f : HoldSt → HoldSt) : (s.modHold f).repat = s.repat := rfl
@[simp] theorem State.modHold_upd (s : State) (f : HoldSt → HoldSt) : (s.modHold f).upd = s.upd := rfl
@[simp] theorem State.modHold_pairSt (s : State) (f : HoldSt → HoldSt) : (s.modHold f).pairSt = s.pairSt := rfl
@[simp] theorem State.modHold_commit (s : State) (f : HoldSt → HoldSt) : (s.modHold f).commit = s.commit := rfl
@[simp] theorem State.modHold_efmo (s : State) (f : HoldSt → HoldSt) : (s.modHold f).efmo = s.efmo := rfl
@[simp] theorem State.modHold_rows (s : State) (f : HoldSt → HoldSt) : (s.modHold f).rows = s.rows := rfl
@[simp] theorem State.modHold_ddp (s : State) (f : HoldSt → HoldSt) : (s.modHold f).ddp = s.ddp := rfl
@[simp] theorem State.modHold_sec (s : State) (f : HoldSt → HoldSt) : (s.modHold f).sec = s.sec := rfl
@[simp] theorem State.modHold_mtf (s : State) (f : HoldSt → HoldSt) : (s.modHold f).mtf = s.mtf := rfl
@[simp] theorem State.modHold_scc (s : State) (f : HoldSt → HoldSt) : (s.modHold f).scc = s.scc := rfl
@[simp] theorem State.modHold_bbm (s : State) (f : HoldSt → HoldSt) : (s.modHold f).bbm = s.bbm := rfl
@[simp] theorem State.modHold_rdt (s : State) (f : HoldSt → HoldSt) : (s.modHold f).rdt = s.rdt := rfl
@[simp] theorem State.modHold_snp (s : State) (f : HoldSt → HoldSt) : (s.modHold f).snp = s.snp := rfl
@[simp] theorem State.modHold_health (s : State) (f : HoldSt → HoldSt) : (s.modHold f).health = s.health := rfl
@[simp] theorem State.modHold_map (s : State) (f : HoldSt → HoldSt) : (s.modHold f).map = s.map := rfl
@[simp] theorem State.modHold_ftl (s : State) (f : HoldSt → HoldSt) : (s.modHold f).ftl = s.ftl := rfl
@[simp] theorem State.modHold_media (s : State) (f : HoldSt → HoldSt) : (s.modHold f).media = s.media := rfl
@[simp] theorem State.modHold_trn (s : State) (f : HoldSt → HoldSt) : (s.modHold f).trn = s.trn := rfl
@[simp] theorem State.modHold_rpj (s : State) (f : HoldSt → HoldSt) : (s.modHold f).rpj = s.rpj := rfl
@[simp] theorem State.modHold_egress (s : State) (f : HoldSt → HoldSt) : (s.modHold f).egress = s.egress := rfl
@[simp] theorem State.modHold_pending (s : State) (f : HoldSt → HoldSt) : (s.modHold f).pending = s.pending := rfl
@[simp] theorem State.modHold_fld (s : State) (f : HoldSt → HoldSt) (g : Fld) : (s.modHold f).fld g = s.fld g := rfl
@[simp] theorem State.modHold_flag (s : State) (f : HoldSt → HoldSt) (g : Fld) : (s.modHold f).flag g = s.flag g := rfl

/-! ### setFld -/

@[simp] theorem State.setFld_dram (s : State) (g : Fld) (v : Nat) : (s.setFld g v).dram = s.dram := rfl
@[simp] theorem State.setFld_latches (s : State) (g : Fld) (v : Nat) : (s.setFld g v).latches = s.latches := rfl
@[simp] theorem State.setFld_fresh (s : State) (g : Fld) (v : Nat) : (s.setFld g v).fresh = s.fresh := rfl
@[simp] theorem State.setFld_sent (s : State) (g : Fld) (v : Nat) : (s.setFld g v).sent = s.sent := rfl
@[simp] theorem State.setFld_pins (s : State) (g : Fld) (v : Nat) : (s.setFld g v).pins = s.pins := rfl
@[simp] theorem State.setFld_pattern (s : State) (g : Fld) (v : Nat) : (s.setFld g v).pattern = s.pattern := rfl
@[simp] theorem State.setFld_boot (s : State) (g : Fld) (v : Nat) : (s.setFld g v).boot = s.boot := rfl
@[simp] theorem State.setFld_repat (s : State) (g : Fld) (v : Nat) : (s.setFld g v).repat = s.repat := rfl
@[simp] theorem State.setFld_upd (s : State) (g : Fld) (v : Nat) : (s.setFld g v).upd = s.upd := rfl
@[simp] theorem State.setFld_pairSt (s : State) (g : Fld) (v : Nat) : (s.setFld g v).pairSt = s.pairSt := rfl
@[simp] theorem State.setFld_commit (s : State) (g : Fld) (v : Nat) : (s.setFld g v).commit = s.commit := rfl
@[simp] theorem State.setFld_efmo (s : State) (g : Fld) (v : Nat) : (s.setFld g v).efmo = s.efmo := rfl
@[simp] theorem State.setFld_rows (s : State) (g : Fld) (v : Nat) : (s.setFld g v).rows = s.rows := rfl
@[simp] theorem State.setFld_ddp (s : State) (g : Fld) (v : Nat) : (s.setFld g v).ddp = s.ddp := rfl
@[simp] theorem State.setFld_sec (s : State) (g : Fld) (v : Nat) : (s.setFld g v).sec = s.sec := rfl
@[simp] theorem State.setFld_mtf (s : State) (g : Fld) (v : Nat) : (s.setFld g v).mtf = s.mtf := rfl
@[simp] theorem State.setFld_scc (s : State) (g : Fld) (v : Nat) : (s.setFld g v).scc = s.scc := rfl
@[simp] theorem State.setFld_bbm (s : State) (g : Fld) (v : Nat) : (s.setFld g v).bbm = s.bbm := rfl
@[simp] theorem State.setFld_rdt (s : State) (g : Fld) (v : Nat) : (s.setFld g v).rdt = s.rdt := rfl
@[simp] theorem State.setFld_snp (s : State) (g : Fld) (v : Nat) : (s.setFld g v).snp = s.snp := rfl
@[simp] theorem State.setFld_ctl (s : State) (g : Fld) (v : Nat) : (s.setFld g v).ctl = s.ctl := rfl
@[simp] theorem State.setFld_health (s : State) (g : Fld) (v : Nat) : (s.setFld g v).health = s.health := rfl
@[simp] theorem State.setFld_map (s : State) (g : Fld) (v : Nat) : (s.setFld g v).map = s.map := rfl
@[simp] theorem State.setFld_ftl (s : State) (g : Fld) (v : Nat) : (s.setFld g v).ftl = s.ftl := rfl
@[simp] theorem State.setFld_media (s : State) (g : Fld) (v : Nat) : (s.setFld g v).media = s.media := rfl
@[simp] theorem State.setFld_trn (s : State) (g : Fld) (v : Nat) : (s.setFld g v).trn = s.trn := rfl
@[simp] theorem State.setFld_rpj (s : State) (g : Fld) (v : Nat) : (s.setFld g v).rpj = s.rpj := rfl
@[simp] theorem State.setFld_egress (s : State) (g : Fld) (v : Nat) : (s.setFld g v).egress = s.egress := rfl
@[simp] theorem State.setFld_pending (s : State) (g : Fld) (v : Nat) : (s.setFld g v).pending = s.pending := rfl
@[simp] theorem State.setFld_rd (s : State) (g : Fld) (v : Nat) (x y : Nat) : (s.setFld g v).rd x y = s.rd x y := rfl

/-! ### setFlag -/

@[simp] theorem State.setFlag_dram (s : State) (g : Fld) (b : Bool) : (s.setFlag g b).dram = s.dram := rfl
@[simp] theorem State.setFlag_latches (s : State) (g : Fld) (b : Bool) : (s.setFlag g b).latches = s.latches := rfl
@[simp] theorem State.setFlag_fresh (s : State) (g : Fld) (b : Bool) : (s.setFlag g b).fresh = s.fresh := rfl
@[simp] theorem State.setFlag_sent (s : State) (g : Fld) (b : Bool) : (s.setFlag g b).sent = s.sent := rfl
@[simp] theorem State.setFlag_pins (s : State) (g : Fld) (b : Bool) : (s.setFlag g b).pins = s.pins := rfl
@[simp] theorem State.setFlag_pattern (s : State) (g : Fld) (b : Bool) : (s.setFlag g b).pattern = s.pattern := rfl
@[simp] theorem State.setFlag_boot (s : State) (g : Fld) (b : Bool) : (s.setFlag g b).boot = s.boot := rfl
@[simp] theorem State.setFlag_repat (s : State) (g : Fld) (b : Bool) : (s.setFlag g b).repat = s.repat := rfl
@[simp] theorem State.setFlag_upd (s : State) (g : Fld) (b : Bool) : (s.setFlag g b).upd = s.upd := rfl
@[simp] theorem State.setFlag_pairSt (s : State) (g : Fld) (b : Bool) : (s.setFlag g b).pairSt = s.pairSt := rfl
@[simp] theorem State.setFlag_commit (s : State) (g : Fld) (b : Bool) : (s.setFlag g b).commit = s.commit := rfl
@[simp] theorem State.setFlag_efmo (s : State) (g : Fld) (b : Bool) : (s.setFlag g b).efmo = s.efmo := rfl
@[simp] theorem State.setFlag_rows (s : State) (g : Fld) (b : Bool) : (s.setFlag g b).rows = s.rows := rfl
@[simp] theorem State.setFlag_ddp (s : State) (g : Fld) (b : Bool) : (s.setFlag g b).ddp = s.ddp := rfl
@[simp] theorem State.setFlag_sec (s : State) (g : Fld) (b : Bool) : (s.setFlag g b).sec = s.sec := rfl
@[simp] theorem State.setFlag_mtf (s : State) (g : Fld) (b : Bool) : (s.setFlag g b).mtf = s.mtf := rfl
@[simp] theorem State.setFlag_scc (s : State) (g : Fld) (b : Bool) : (s.setFlag g b).scc = s.scc := rfl
@[simp] theorem State.setFlag_bbm (s : State) (g : Fld) (b : Bool) : (s.setFlag g b).bbm = s.bbm := rfl
@[simp] theorem State.setFlag_rdt (s : State) (g : Fld) (b : Bool) : (s.setFlag g b).rdt = s.rdt := rfl
@[simp] theorem State.setFlag_snp (s : State) (g : Fld) (b : Bool) : (s.setFlag g b).snp = s.snp := rfl
@[simp] theorem State.setFlag_ctl (s : State) (g : Fld) (b : Bool) : (s.setFlag g b).ctl = s.ctl := rfl
@[simp] theorem State.setFlag_health (s : State) (g : Fld) (b : Bool) : (s.setFlag g b).health = s.health := rfl
@[simp] theorem State.setFlag_map (s : State) (g : Fld) (b : Bool) : (s.setFlag g b).map = s.map := rfl
@[simp] theorem State.setFlag_ftl (s : State) (g : Fld) (b : Bool) : (s.setFlag g b).ftl = s.ftl := rfl
@[simp] theorem State.setFlag_media (s : State) (g : Fld) (b : Bool) : (s.setFlag g b).media = s.media := rfl
@[simp] theorem State.setFlag_trn (s : State) (g : Fld) (b : Bool) : (s.setFlag g b).trn = s.trn := rfl
@[simp] theorem State.setFlag_rpj (s : State) (g : Fld) (b : Bool) : (s.setFlag g b).rpj = s.rpj := rfl
@[simp] theorem State.setFlag_egress (s : State) (g : Fld) (b : Bool) : (s.setFlag g b).egress = s.egress := rfl
@[simp] theorem State.setFlag_pending (s : State) (g : Fld) (b : Bool) : (s.setFlag g b).pending = s.pending := rfl
@[simp] theorem State.setFlag_rd (s : State) (g : Fld) (b : Bool) (x y : Nat) : (s.setFlag g b).rd x y = s.rd x y := rfl

/-! ### inc -/

@[simp] theorem State.inc_dram (s : State) (g : Fld) (n : Nat) : (s.inc g n).dram = s.dram := rfl
@[simp] theorem State.inc_latches (s : State) (g : Fld) (n : Nat) : (s.inc g n).latches = s.latches := rfl
@[simp] theorem State.inc_fresh (s : State) (g : Fld) (n : Nat) : (s.inc g n).fresh = s.fresh := rfl
@[simp] theorem State.inc_sent (s : State) (g : Fld) (n : Nat) : (s.inc g n).sent = s.sent := rfl
@[simp] theorem State.inc_pins (s : State) (g : Fld) (n : Nat) : (s.inc g n).pins = s.pins := rfl
@[simp] theorem State.inc_pattern (s : State) (g : Fld) (n : Nat) : (s.inc g n).pattern = s.pattern := rfl
@[simp] theorem State.inc_boot (s : State) (g : Fld) (n : Nat) : (s.inc g n).boot = s.boot := rfl
@[simp] theorem State.inc_repat (s : State) (g : Fld) (n : Nat) : (s.inc g n).repat = s.repat := rfl
@[simp] theorem State.inc_upd (s : State) (g : Fld) (n : Nat) : (s.inc g n).upd = s.upd := rfl
@[simp] theorem State.inc_pairSt (s : State) (g : Fld) (n : Nat) : (s.inc g n).pairSt = s.pairSt := rfl
@[simp] theorem State.inc_commit (s : State) (g : Fld) (n : Nat) : (s.inc g n).commit = s.commit := rfl
@[simp] theorem State.inc_efmo (s : State) (g : Fld) (n : Nat) : (s.inc g n).efmo = s.efmo := rfl
@[simp] theorem State.inc_rows (s : State) (g : Fld) (n : Nat) : (s.inc g n).rows = s.rows := rfl
@[simp] theorem State.inc_ddp (s : State) (g : Fld) (n : Nat) : (s.inc g n).ddp = s.ddp := rfl
@[simp] theorem State.inc_sec (s : State) (g : Fld) (n : Nat) : (s.inc g n).sec = s.sec := rfl
@[simp] theorem State.inc_mtf (s : State) (g : Fld) (n : Nat) : (s.inc g n).mtf = s.mtf := rfl
@[simp] theorem State.inc_scc (s : State) (g : Fld) (n : Nat) : (s.inc g n).scc = s.scc := rfl
@[simp] theorem State.inc_bbm (s : State) (g : Fld) (n : Nat) : (s.inc g n).bbm = s.bbm := rfl
@[simp] theorem State.inc_rdt (s : State) (g : Fld) (n : Nat) : (s.inc g n).rdt = s.rdt := rfl
@[simp] theorem State.inc_snp (s : State) (g : Fld) (n : Nat) : (s.inc g n).snp = s.snp := rfl
@[simp] theorem State.inc_ctl (s : State) (g : Fld) (n : Nat) : (s.inc g n).ctl = s.ctl := rfl
@[simp] theorem State.inc_health (s : State) (g : Fld) (n : Nat) : (s.inc g n).health = s.health := rfl
@[simp] theorem State.inc_map (s : State) (g : Fld) (n : Nat) : (s.inc g n).map = s.map := rfl
@[simp] theorem State.inc_ftl (s : State) (g : Fld) (n : Nat) : (s.inc g n).ftl = s.ftl := rfl
@[simp] theorem State.inc_media (s : State) (g : Fld) (n : Nat) : (s.inc g n).media = s.media := rfl
@[simp] theorem State.inc_trn (s : State) (g : Fld) (n : Nat) : (s.inc g n).trn = s.trn := rfl
@[simp] theorem State.inc_rpj (s : State) (g : Fld) (n : Nat) : (s.inc g n).rpj = s.rpj := rfl
@[simp] theorem State.inc_egress (s : State) (g : Fld) (n : Nat) : (s.inc g n).egress = s.egress := rfl
@[simp] theorem State.inc_pending (s : State) (g : Fld) (n : Nat) : (s.inc g n).pending = s.pending := rfl
@[simp] theorem State.inc_rd (s : State) (g : Fld) (n : Nat) (x y : Nat) : (s.inc g n).rd x y = s.rd x y := rfl

/-! ### wrapInc -/

@[simp] theorem State.wrapInc_dram (s : State) (g : Fld) (n : Nat) : (s.wrapInc g n).dram = s.dram := rfl
@[simp] theorem State.wrapInc_latches (s : State) (g : Fld) (n : Nat) : (s.wrapInc g n).latches = s.latches := rfl
@[simp] theorem State.wrapInc_fresh (s : State) (g : Fld) (n : Nat) : (s.wrapInc g n).fresh = s.fresh := rfl
@[simp] theorem State.wrapInc_sent (s : State) (g : Fld) (n : Nat) : (s.wrapInc g n).sent = s.sent := rfl
@[simp] theorem State.wrapInc_pins (s : State) (g : Fld) (n : Nat) : (s.wrapInc g n).pins = s.pins := rfl
@[simp] theorem State.wrapInc_pattern (s : State) (g : Fld) (n : Nat) : (s.wrapInc g n).pattern = s.pattern := rfl
@[simp] theorem State.wrapInc_boot (s : State) (g : Fld) (n : Nat) : (s.wrapInc g n).boot = s.boot := rfl
@[simp] theorem State.wrapInc_repat (s : State) (g : Fld) (n : Nat) : (s.wrapInc g n).repat = s.repat := rfl
@[simp] theorem State.wrapInc_upd (s : State) (g : Fld) (n : Nat) : (s.wrapInc g n).upd = s.upd := rfl
@[simp] theorem State.wrapInc_pairSt (s : State) (g : Fld) (n : Nat) : (s.wrapInc g n).pairSt = s.pairSt := rfl
@[simp] theorem State.wrapInc_commit (s : State) (g : Fld) (n : Nat) : (s.wrapInc g n).commit = s.commit := rfl
@[simp] theorem State.wrapInc_efmo (s : State) (g : Fld) (n : Nat) : (s.wrapInc g n).efmo = s.efmo := rfl
@[simp] theorem State.wrapInc_rows (s : State) (g : Fld) (n : Nat) : (s.wrapInc g n).rows = s.rows := rfl
@[simp] theorem State.wrapInc_ddp (s : State) (g : Fld) (n : Nat) : (s.wrapInc g n).ddp = s.ddp := rfl
@[simp] theorem State.wrapInc_sec (s : State) (g : Fld) (n : Nat) : (s.wrapInc g n).sec = s.sec := rfl
@[simp] theorem State.wrapInc_mtf (s : State) (g : Fld) (n : Nat) : (s.wrapInc g n).mtf = s.mtf := rfl
@[simp] theorem State.wrapInc_scc (s : State) (g : Fld) (n : Nat) : (s.wrapInc g n).scc = s.scc := rfl
@[simp] theorem State.wrapInc_bbm (s : State) (g : Fld) (n : Nat) : (s.wrapInc g n).bbm = s.bbm := rfl
@[simp] theorem State.wrapInc_rdt (s : State) (g : Fld) (n : Nat) : (s.wrapInc g n).rdt = s.rdt := rfl
@[simp] theorem State.wrapInc_snp (s : State) (g : Fld) (n : Nat) : (s.wrapInc g n).snp = s.snp := rfl
@[simp] theorem State.wrapInc_ctl (s : State) (g : Fld) (n : Nat) : (s.wrapInc g n).ctl = s.ctl := rfl
@[simp] theorem State.wrapInc_health (s : State) (g : Fld) (n : Nat) : (s.wrapInc g n).health = s.health := rfl
@[simp] theorem State.wrapInc_map (s : State) (g : Fld) (n : Nat) : (s.wrapInc g n).map = s.map := rfl
@[simp] theorem State.wrapInc_ftl (s : State) (g : Fld) (n : Nat) : (s.wrapInc g n).ftl = s.ftl := rfl
@[simp] theorem State.wrapInc_media (s : State) (g : Fld) (n : Nat) : (s.wrapInc g n).media = s.media := rfl
@[simp] theorem State.wrapInc_trn (s : State) (g : Fld) (n : Nat) : (s.wrapInc g n).trn = s.trn := rfl
@[simp] theorem State.wrapInc_rpj (s : State) (g : Fld) (n : Nat) : (s.wrapInc g n).rpj = s.rpj := rfl
@[simp] theorem State.wrapInc_egress (s : State) (g : Fld) (n : Nat) : (s.wrapInc g n).egress = s.egress := rfl
@[simp] theorem State.wrapInc_pending (s : State) (g : Fld) (n : Nat) : (s.wrapInc g n).pending = s.pending := rfl
@[simp] theorem State.wrapInc_rd (s : State) (g : Fld) (n : Nat) (x y : Nat) : (s.wrapInc g n).rd x y = s.rd x y := rfl

/-! ### setPair -/

@[simp] theorem State.setPair_dram (s : State) (lo hi : Fld) (v : Nat) : (s.setPair lo hi v).dram = s.dram := rfl
@[simp] theorem State.setPair_latches (s : State) (lo hi : Fld) (v : Nat) : (s.setPair lo hi v).latches = s.latches := rfl
@[simp] theorem State.setPair_fresh (s : State) (lo hi : Fld) (v : Nat) : (s.setPair lo hi v).fresh = s.fresh := rfl
@[simp] theorem State.setPair_sent (s : State) (lo hi : Fld) (v : Nat) : (s.setPair lo hi v).sent = s.sent := rfl
@[simp] theorem State.setPair_pins (s : State) (lo hi : Fld) (v : Nat) : (s.setPair lo hi v).pins = s.pins := rfl
@[simp] theorem State.setPair_pattern (s : State) (lo hi : Fld) (v : Nat) : (s.setPair lo hi v).pattern = s.pattern := rfl
@[simp] theorem State.setPair_boot (s : State) (lo hi : Fld) (v : Nat) : (s.setPair lo hi v).boot = s.boot := rfl
@[simp] theorem State.setPair_repat (s : State) (lo hi : Fld) (v : Nat) : (s.setPair lo hi v).repat = s.repat := rfl
@[simp] theorem State.setPair_upd (s : State) (lo hi : Fld) (v : Nat) : (s.setPair lo hi v).upd = s.upd := rfl
@[simp] theorem State.setPair_pairSt (s : State) (lo hi : Fld) (v : Nat) : (s.setPair lo hi v).pairSt = s.pairSt := rfl
@[simp] theorem State.setPair_commit (s : State) (lo hi : Fld) (v : Nat) : (s.setPair lo hi v).commit = s.commit := rfl
@[simp] theorem State.setPair_efmo (s : State) (lo hi : Fld) (v : Nat) : (s.setPair lo hi v).efmo = s.efmo := rfl
@[simp] theorem State.setPair_rows (s : State) (lo hi : Fld) (v : Nat) : (s.setPair lo hi v).rows = s.rows := rfl
@[simp] theorem State.setPair_ddp (s : State) (lo hi : Fld) (v : Nat) : (s.setPair lo hi v).ddp = s.ddp := rfl
@[simp] theorem State.setPair_sec (s : State) (lo hi : Fld) (v : Nat) : (s.setPair lo hi v).sec = s.sec := rfl
@[simp] theorem State.setPair_mtf (s : State) (lo hi : Fld) (v : Nat) : (s.setPair lo hi v).mtf = s.mtf := rfl
@[simp] theorem State.setPair_scc (s : State) (lo hi : Fld) (v : Nat) : (s.setPair lo hi v).scc = s.scc := rfl
@[simp] theorem State.setPair_bbm (s : State) (lo hi : Fld) (v : Nat) : (s.setPair lo hi v).bbm = s.bbm := rfl
@[simp] theorem State.setPair_rdt (s : State) (lo hi : Fld) (v : Nat) : (s.setPair lo hi v).rdt = s.rdt := rfl
@[simp] theorem State.setPair_snp (s : State) (lo hi : Fld) (v : Nat) : (s.setPair lo hi v).snp = s.snp := rfl
@[simp] theorem State.setPair_ctl (s : State) (lo hi : Fld) (v : Nat) : (s.setPair lo hi v).ctl = s.ctl := rfl
@[simp] theorem State.setPair_health (s : State) (lo hi : Fld) (v : Nat) : (s.setPair lo hi v).health = s.health := rfl
@[simp] theorem State.setPair_map (s : State) (lo hi : Fld) (v : Nat) : (s.setPair lo hi v).map = s.map := rfl
@[simp] theorem State.setPair_ftl (s : State) (lo hi : Fld) (v : Nat) : (s.setPair lo hi v).ftl = s.ftl := rfl
@[simp] theorem State.setPair_media (s : State) (lo hi : Fld) (v : Nat) : (s.setPair lo hi v).media = s.media := rfl
@[simp] theorem State.setPair_trn (s : State) (lo hi : Fld) (v : Nat) : (s.setPair lo hi v).trn = s.trn := rfl
@[simp] theorem State.setPair_rpj (s : State) (lo hi : Fld) (v : Nat) : (s.setPair lo hi v).rpj = s.rpj := rfl
@[simp] theorem State.setPair_egress (s : State) (lo hi : Fld) (v : Nat) : (s.setPair lo hi v).egress = s.egress := rfl
@[simp] theorem State.setPair_pending (s : State) (lo hi : Fld) (v : Nat) : (s.setPair lo hi v).pending = s.pending := rfl
@[simp] theorem State.setPair_rd (s : State) (lo hi : Fld) (v : Nat) (x y : Nat) : (s.setPair lo hi v).rd x y = s.rd x y := rfl

/-! ### incPair -/

@[simp] theorem State.incPair_dram (s : State) (lo hi : Fld) (n : Nat) : (s.incPair lo hi n).dram = s.dram := rfl
@[simp] theorem State.incPair_latches (s : State) (lo hi : Fld) (n : Nat) : (s.incPair lo hi n).latches = s.latches := rfl
@[simp] theorem State.incPair_fresh (s : State) (lo hi : Fld) (n : Nat) : (s.incPair lo hi n).fresh = s.fresh := rfl
@[simp] theorem State.incPair_sent (s : State) (lo hi : Fld) (n : Nat) : (s.incPair lo hi n).sent = s.sent := rfl
@[simp] theorem State.incPair_pins (s : State) (lo hi : Fld) (n : Nat) : (s.incPair lo hi n).pins = s.pins := rfl
@[simp] theorem State.incPair_pattern (s : State) (lo hi : Fld) (n : Nat) : (s.incPair lo hi n).pattern = s.pattern := rfl
@[simp] theorem State.incPair_boot (s : State) (lo hi : Fld) (n : Nat) : (s.incPair lo hi n).boot = s.boot := rfl
@[simp] theorem State.incPair_repat (s : State) (lo hi : Fld) (n : Nat) : (s.incPair lo hi n).repat = s.repat := rfl
@[simp] theorem State.incPair_upd (s : State) (lo hi : Fld) (n : Nat) : (s.incPair lo hi n).upd = s.upd := rfl
@[simp] theorem State.incPair_pairSt (s : State) (lo hi : Fld) (n : Nat) : (s.incPair lo hi n).pairSt = s.pairSt := rfl
@[simp] theorem State.incPair_commit (s : State) (lo hi : Fld) (n : Nat) : (s.incPair lo hi n).commit = s.commit := rfl
@[simp] theorem State.incPair_efmo (s : State) (lo hi : Fld) (n : Nat) : (s.incPair lo hi n).efmo = s.efmo := rfl
@[simp] theorem State.incPair_rows (s : State) (lo hi : Fld) (n : Nat) : (s.incPair lo hi n).rows = s.rows := rfl
@[simp] theorem State.incPair_ddp (s : State) (lo hi : Fld) (n : Nat) : (s.incPair lo hi n).ddp = s.ddp := rfl
@[simp] theorem State.incPair_sec (s : State) (lo hi : Fld) (n : Nat) : (s.incPair lo hi n).sec = s.sec := rfl
@[simp] theorem State.incPair_mtf (s : State) (lo hi : Fld) (n : Nat) : (s.incPair lo hi n).mtf = s.mtf := rfl
@[simp] theorem State.incPair_scc (s : State) (lo hi : Fld) (n : Nat) : (s.incPair lo hi n).scc = s.scc := rfl
@[simp] theorem State.incPair_bbm (s : State) (lo hi : Fld) (n : Nat) : (s.incPair lo hi n).bbm = s.bbm := rfl
@[simp] theorem State.incPair_rdt (s : State) (lo hi : Fld) (n : Nat) : (s.incPair lo hi n).rdt = s.rdt := rfl
@[simp] theorem State.incPair_snp (s : State) (lo hi : Fld) (n : Nat) : (s.incPair lo hi n).snp = s.snp := rfl
@[simp] theorem State.incPair_ctl (s : State) (lo hi : Fld) (n : Nat) : (s.incPair lo hi n).ctl = s.ctl := rfl
@[simp] theorem State.incPair_health (s : State) (lo hi : Fld) (n : Nat) : (s.incPair lo hi n).health = s.health := rfl
@[simp] theorem State.incPair_map (s : State) (lo hi : Fld) (n : Nat) : (s.incPair lo hi n).map = s.map := rfl
@[simp] theorem State.incPair_ftl (s : State) (lo hi : Fld) (n : Nat) : (s.incPair lo hi n).ftl = s.ftl := rfl
@[simp] theorem State.incPair_media (s : State) (lo hi : Fld) (n : Nat) : (s.incPair lo hi n).media = s.media := rfl
@[simp] theorem State.incPair_trn (s : State) (lo hi : Fld) (n : Nat) : (s.incPair lo hi n).trn = s.trn := rfl
@[simp] theorem State.incPair_rpj (s : State) (lo hi : Fld) (n : Nat) : (s.incPair lo hi n).rpj = s.rpj := rfl
@[simp] theorem State.incPair_egress (s : State) (lo hi : Fld) (n : Nat) : (s.incPair lo hi n).egress = s.egress := rfl
@[simp] theorem State.incPair_pending (s : State) (lo hi : Fld) (n : Nat) : (s.incPair lo hi n).pending = s.pending := rfl
@[simp] theorem State.incPair_rd (s : State) (lo hi : Fld) (n : Nat) (x y : Nat) : (s.incPair lo hi n).rd x y = s.rd x y := rfl

/-! ### count64 -/

@[simp] theorem State.count64_dram (s : State) (lo hi w : Fld) (n : Nat) : (s.count64 lo hi w n).dram = s.dram := rfl
@[simp] theorem State.count64_latches (s : State) (lo hi w : Fld) (n : Nat) : (s.count64 lo hi w n).latches = s.latches := rfl
@[simp] theorem State.count64_fresh (s : State) (lo hi w : Fld) (n : Nat) : (s.count64 lo hi w n).fresh = s.fresh := rfl
@[simp] theorem State.count64_sent (s : State) (lo hi w : Fld) (n : Nat) : (s.count64 lo hi w n).sent = s.sent := rfl
@[simp] theorem State.count64_pins (s : State) (lo hi w : Fld) (n : Nat) : (s.count64 lo hi w n).pins = s.pins := rfl
@[simp] theorem State.count64_pattern (s : State) (lo hi w : Fld) (n : Nat) : (s.count64 lo hi w n).pattern = s.pattern := rfl
@[simp] theorem State.count64_boot (s : State) (lo hi w : Fld) (n : Nat) : (s.count64 lo hi w n).boot = s.boot := rfl
@[simp] theorem State.count64_repat (s : State) (lo hi w : Fld) (n : Nat) : (s.count64 lo hi w n).repat = s.repat := rfl
@[simp] theorem State.count64_upd (s : State) (lo hi w : Fld) (n : Nat) : (s.count64 lo hi w n).upd = s.upd := rfl
@[simp] theorem State.count64_pairSt (s : State) (lo hi w : Fld) (n : Nat) : (s.count64 lo hi w n).pairSt = s.pairSt := rfl
@[simp] theorem State.count64_commit (s : State) (lo hi w : Fld) (n : Nat) : (s.count64 lo hi w n).commit = s.commit := rfl
@[simp] theorem State.count64_efmo (s : State) (lo hi w : Fld) (n : Nat) : (s.count64 lo hi w n).efmo = s.efmo := rfl
@[simp] theorem State.count64_rows (s : State) (lo hi w : Fld) (n : Nat) : (s.count64 lo hi w n).rows = s.rows := rfl
@[simp] theorem State.count64_ddp (s : State) (lo hi w : Fld) (n : Nat) : (s.count64 lo hi w n).ddp = s.ddp := rfl
@[simp] theorem State.count64_sec (s : State) (lo hi w : Fld) (n : Nat) : (s.count64 lo hi w n).sec = s.sec := rfl
@[simp] theorem State.count64_mtf (s : State) (lo hi w : Fld) (n : Nat) : (s.count64 lo hi w n).mtf = s.mtf := rfl
@[simp] theorem State.count64_scc (s : State) (lo hi w : Fld) (n : Nat) : (s.count64 lo hi w n).scc = s.scc := rfl
@[simp] theorem State.count64_bbm (s : State) (lo hi w : Fld) (n : Nat) : (s.count64 lo hi w n).bbm = s.bbm := rfl
@[simp] theorem State.count64_rdt (s : State) (lo hi w : Fld) (n : Nat) : (s.count64 lo hi w n).rdt = s.rdt := rfl
@[simp] theorem State.count64_snp (s : State) (lo hi w : Fld) (n : Nat) : (s.count64 lo hi w n).snp = s.snp := rfl
@[simp] theorem State.count64_ctl (s : State) (lo hi w : Fld) (n : Nat) : (s.count64 lo hi w n).ctl = s.ctl := rfl
@[simp] theorem State.count64_health (s : State) (lo hi w : Fld) (n : Nat) : (s.count64 lo hi w n).health = s.health := rfl
@[simp] theorem State.count64_map (s : State) (lo hi w : Fld) (n : Nat) : (s.count64 lo hi w n).map = s.map := rfl
@[simp] theorem State.count64_ftl (s : State) (lo hi w : Fld) (n : Nat) : (s.count64 lo hi w n).ftl = s.ftl := rfl
@[simp] theorem State.count64_media (s : State) (lo hi w : Fld) (n : Nat) : (s.count64 lo hi w n).media = s.media := rfl
@[simp] theorem State.count64_trn (s : State) (lo hi w : Fld) (n : Nat) : (s.count64 lo hi w n).trn = s.trn := rfl
@[simp] theorem State.count64_rpj (s : State) (lo hi w : Fld) (n : Nat) : (s.count64 lo hi w n).rpj = s.rpj := rfl
@[simp] theorem State.count64_egress (s : State) (lo hi w : Fld) (n : Nat) : (s.count64 lo hi w n).egress = s.egress := rfl
@[simp] theorem State.count64_pending (s : State) (lo hi w : Fld) (n : Nat) : (s.count64 lo hi w n).pending = s.pending := rfl
@[simp] theorem State.count64_rd (s : State) (lo hi w : Fld) (n : Nat) (x y : Nat) : (s.count64 lo hi w n).rd x y = s.rd x y := rfl

/-! ### wr -/

@[simp] theorem State.wr_cells (s : State) (a : Nat) (b : Bytes) : (s.wr a b).cells = s.cells := rfl
@[simp] theorem State.wr_latches (s : State) (a : Nat) (b : Bytes) : (s.wr a b).latches = s.latches := rfl
@[simp] theorem State.wr_fresh (s : State) (a : Nat) (b : Bytes) : (s.wr a b).fresh = s.fresh := rfl
@[simp] theorem State.wr_sent (s : State) (a : Nat) (b : Bytes) : (s.wr a b).sent = s.sent := rfl
@[simp] theorem State.wr_pins (s : State) (a : Nat) (b : Bytes) : (s.wr a b).pins = s.pins := rfl
@[simp] theorem State.wr_pattern (s : State) (a : Nat) (b : Bytes) : (s.wr a b).pattern = s.pattern := rfl
@[simp] theorem State.wr_boot (s : State) (a : Nat) (b : Bytes) : (s.wr a b).boot = s.boot := rfl
@[simp] theorem State.wr_repat (s : State) (a : Nat) (b : Bytes) : (s.wr a b).repat = s.repat := rfl
@[simp] theorem State.wr_upd (s : State) (a : Nat) (b : Bytes) : (s.wr a b).upd = s.upd := rfl
@[simp] theorem State.wr_pairSt (s : State) (a : Nat) (b : Bytes) : (s.wr a b).pairSt = s.pairSt := rfl
@[simp] theorem State.wr_commit (s : State) (a : Nat) (b : Bytes) : (s.wr a b).commit = s.commit := rfl
@[simp] theorem State.wr_efmo (s : State) (a : Nat) (b : Bytes) : (s.wr a b).efmo = s.efmo := rfl
@[simp] theorem State.wr_rows (s : State) (a : Nat) (b : Bytes) : (s.wr a b).rows = s.rows := rfl
@[simp] theorem State.wr_ddp (s : State) (a : Nat) (b : Bytes) : (s.wr a b).ddp = s.ddp := rfl
@[simp] theorem State.wr_sec (s : State) (a : Nat) (b : Bytes) : (s.wr a b).sec = s.sec := rfl
@[simp] theorem State.wr_mtf (s : State) (a : Nat) (b : Bytes) : (s.wr a b).mtf = s.mtf := rfl
@[simp] theorem State.wr_scc (s : State) (a : Nat) (b : Bytes) : (s.wr a b).scc = s.scc := rfl
@[simp] theorem State.wr_bbm (s : State) (a : Nat) (b : Bytes) : (s.wr a b).bbm = s.bbm := rfl
@[simp] theorem State.wr_rdt (s : State) (a : Nat) (b : Bytes) : (s.wr a b).rdt = s.rdt := rfl
@[simp] theorem State.wr_snp (s : State) (a : Nat) (b : Bytes) : (s.wr a b).snp = s.snp := rfl
@[simp] theorem State.wr_ctl (s : State) (a : Nat) (b : Bytes) : (s.wr a b).ctl = s.ctl := rfl
@[simp] theorem State.wr_health (s : State) (a : Nat) (b : Bytes) : (s.wr a b).health = s.health := rfl
@[simp] theorem State.wr_map (s : State) (a : Nat) (b : Bytes) : (s.wr a b).map = s.map := rfl
@[simp] theorem State.wr_ftl (s : State) (a : Nat) (b : Bytes) : (s.wr a b).ftl = s.ftl := rfl
@[simp] theorem State.wr_media (s : State) (a : Nat) (b : Bytes) : (s.wr a b).media = s.media := rfl
@[simp] theorem State.wr_trn (s : State) (a : Nat) (b : Bytes) : (s.wr a b).trn = s.trn := rfl
@[simp] theorem State.wr_rpj (s : State) (a : Nat) (b : Bytes) : (s.wr a b).rpj = s.rpj := rfl
@[simp] theorem State.wr_egress (s : State) (a : Nat) (b : Bytes) : (s.wr a b).egress = s.egress := rfl
@[simp] theorem State.wr_pending (s : State) (a : Nat) (b : Bytes) : (s.wr a b).pending = s.pending := rfl
@[simp] theorem State.wr_fld (s : State) (a : Nat) (b : Bytes) (g : Fld) : (s.wr a b).fld g = s.fld g := rfl
@[simp] theorem State.wr_flag (s : State) (a : Nat) (b : Bytes) (g : Fld) : (s.wr a b).flag g = s.flag g := rfl

/-! ### wrN -/

@[simp] theorem State.wrN_cells (s : State) (a n v : Nat) : (s.wrN a n v).cells = s.cells := rfl
@[simp] theorem State.wrN_latches (s : State) (a n v : Nat) : (s.wrN a n v).latches = s.latches := rfl
@[simp] theorem State.wrN_fresh (s : State) (a n v : Nat) : (s.wrN a n v).fresh = s.fresh := rfl
@[simp] theorem State.wrN_sent (s : State) (a n v : Nat) : (s.wrN a n v).sent = s.sent := rfl
@[simp] theorem State.wrN_pins (s : State) (a n v : Nat) : (s.wrN a n v).pins = s.pins := rfl
@[simp] theorem State.wrN_pattern (s : State) (a n v : Nat) : (s.wrN a n v).pattern = s.pattern := rfl
@[simp] theorem State.wrN_boot (s : State) (a n v : Nat) : (s.wrN a n v).boot = s.boot := rfl
@[simp] theorem State.wrN_repat (s : State) (a n v : Nat) : (s.wrN a n v).repat = s.repat := rfl
@[simp] theorem State.wrN_upd (s : State) (a n v : Nat) : (s.wrN a n v).upd = s.upd := rfl
@[simp] theorem State.wrN_pairSt (s : State) (a n v : Nat) : (s.wrN a n v).pairSt = s.pairSt := rfl
@[simp] theorem State.wrN_commit (s : State) (a n v : Nat) : (s.wrN a n v).commit = s.commit := rfl
@[simp] theorem State.wrN_efmo (s : State) (a n v : Nat) : (s.wrN a n v).efmo = s.efmo := rfl
@[simp] theorem State.wrN_rows (s : State) (a n v : Nat) : (s.wrN a n v).rows = s.rows := rfl
@[simp] theorem State.wrN_ddp (s : State) (a n v : Nat) : (s.wrN a n v).ddp = s.ddp := rfl
@[simp] theorem State.wrN_sec (s : State) (a n v : Nat) : (s.wrN a n v).sec = s.sec := rfl
@[simp] theorem State.wrN_mtf (s : State) (a n v : Nat) : (s.wrN a n v).mtf = s.mtf := rfl
@[simp] theorem State.wrN_scc (s : State) (a n v : Nat) : (s.wrN a n v).scc = s.scc := rfl
@[simp] theorem State.wrN_bbm (s : State) (a n v : Nat) : (s.wrN a n v).bbm = s.bbm := rfl
@[simp] theorem State.wrN_rdt (s : State) (a n v : Nat) : (s.wrN a n v).rdt = s.rdt := rfl
@[simp] theorem State.wrN_snp (s : State) (a n v : Nat) : (s.wrN a n v).snp = s.snp := rfl
@[simp] theorem State.wrN_ctl (s : State) (a n v : Nat) : (s.wrN a n v).ctl = s.ctl := rfl
@[simp] theorem State.wrN_health (s : State) (a n v : Nat) : (s.wrN a n v).health = s.health := rfl
@[simp] theorem State.wrN_map (s : State) (a n v : Nat) : (s.wrN a n v).map = s.map := rfl
@[simp] theorem State.wrN_ftl (s : State) (a n v : Nat) : (s.wrN a n v).ftl = s.ftl := rfl
@[simp] theorem State.wrN_media (s : State) (a n v : Nat) : (s.wrN a n v).media = s.media := rfl
@[simp] theorem State.wrN_trn (s : State) (a n v : Nat) : (s.wrN a n v).trn = s.trn := rfl
@[simp] theorem State.wrN_rpj (s : State) (a n v : Nat) : (s.wrN a n v).rpj = s.rpj := rfl
@[simp] theorem State.wrN_egress (s : State) (a n v : Nat) : (s.wrN a n v).egress = s.egress := rfl
@[simp] theorem State.wrN_pending (s : State) (a n v : Nat) : (s.wrN a n v).pending = s.pending := rfl
@[simp] theorem State.wrN_fld (s : State) (a n v : Nat) (g : Fld) : (s.wrN a n v).fld g = s.fld g := rfl
@[simp] theorem State.wrN_flag (s : State) (a n v : Nat) (g : Fld) : (s.wrN a n v).flag g = s.flag g := rfl

/-! ### wrBits -/

@[simp] theorem State.wrBits_cells (s : State) (a hi lo v : Nat) : (s.wrBits a hi lo v).cells = s.cells := rfl
@[simp] theorem State.wrBits_latches (s : State) (a hi lo v : Nat) : (s.wrBits a hi lo v).latches = s.latches := rfl
@[simp] theorem State.wrBits_fresh (s : State) (a hi lo v : Nat) : (s.wrBits a hi lo v).fresh = s.fresh := rfl
@[simp] theorem State.wrBits_sent (s : State) (a hi lo v : Nat) : (s.wrBits a hi lo v).sent = s.sent := rfl
@[simp] theorem State.wrBits_pins (s : State) (a hi lo v : Nat) : (s.wrBits a hi lo v).pins = s.pins := rfl
@[simp] theorem State.wrBits_pattern (s : State) (a hi lo v : Nat) : (s.wrBits a hi lo v).pattern = s.pattern := rfl
@[simp] theorem State.wrBits_boot (s : State) (a hi lo v : Nat) : (s.wrBits a hi lo v).boot = s.boot := rfl
@[simp] theorem State.wrBits_repat (s : State) (a hi lo v : Nat) : (s.wrBits a hi lo v).repat = s.repat := rfl
@[simp] theorem State.wrBits_upd (s : State) (a hi lo v : Nat) : (s.wrBits a hi lo v).upd = s.upd := rfl
@[simp] theorem State.wrBits_pairSt (s : State) (a hi lo v : Nat) : (s.wrBits a hi lo v).pairSt = s.pairSt := rfl
@[simp] theorem State.wrBits_commit (s : State) (a hi lo v : Nat) : (s.wrBits a hi lo v).commit = s.commit := rfl
@[simp] theorem State.wrBits_efmo (s : State) (a hi lo v : Nat) : (s.wrBits a hi lo v).efmo = s.efmo := rfl
@[simp] theorem State.wrBits_rows (s : State) (a hi lo v : Nat) : (s.wrBits a hi lo v).rows = s.rows := rfl
@[simp] theorem State.wrBits_ddp (s : State) (a hi lo v : Nat) : (s.wrBits a hi lo v).ddp = s.ddp := rfl
@[simp] theorem State.wrBits_sec (s : State) (a hi lo v : Nat) : (s.wrBits a hi lo v).sec = s.sec := rfl
@[simp] theorem State.wrBits_mtf (s : State) (a hi lo v : Nat) : (s.wrBits a hi lo v).mtf = s.mtf := rfl
@[simp] theorem State.wrBits_scc (s : State) (a hi lo v : Nat) : (s.wrBits a hi lo v).scc = s.scc := rfl
@[simp] theorem State.wrBits_bbm (s : State) (a hi lo v : Nat) : (s.wrBits a hi lo v).bbm = s.bbm := rfl
@[simp] theorem State.wrBits_rdt (s : State) (a hi lo v : Nat) : (s.wrBits a hi lo v).rdt = s.rdt := rfl
@[simp] theorem State.wrBits_snp (s : State) (a hi lo v : Nat) : (s.wrBits a hi lo v).snp = s.snp := rfl
@[simp] theorem State.wrBits_ctl (s : State) (a hi lo v : Nat) : (s.wrBits a hi lo v).ctl = s.ctl := rfl
@[simp] theorem State.wrBits_health (s : State) (a hi lo v : Nat) : (s.wrBits a hi lo v).health = s.health := rfl
@[simp] theorem State.wrBits_map (s : State) (a hi lo v : Nat) : (s.wrBits a hi lo v).map = s.map := rfl
@[simp] theorem State.wrBits_ftl (s : State) (a hi lo v : Nat) : (s.wrBits a hi lo v).ftl = s.ftl := rfl
@[simp] theorem State.wrBits_media (s : State) (a hi lo v : Nat) : (s.wrBits a hi lo v).media = s.media := rfl
@[simp] theorem State.wrBits_trn (s : State) (a hi lo v : Nat) : (s.wrBits a hi lo v).trn = s.trn := rfl
@[simp] theorem State.wrBits_rpj (s : State) (a hi lo v : Nat) : (s.wrBits a hi lo v).rpj = s.rpj := rfl
@[simp] theorem State.wrBits_egress (s : State) (a hi lo v : Nat) : (s.wrBits a hi lo v).egress = s.egress := rfl
@[simp] theorem State.wrBits_pending (s : State) (a hi lo v : Nat) : (s.wrBits a hi lo v).pending = s.pending := rfl
@[simp] theorem State.wrBits_fld (s : State) (a hi lo v : Nat) (g : Fld) : (s.wrBits a hi lo v).fld g = s.fld g := rfl
@[simp] theorem State.wrBits_flag (s : State) (a hi lo v : Nat) (g : Fld) : (s.wrBits a hi lo v).flag g = s.flag g := rfl

@[simp] theorem State.wr_dram (s : State) (a : Nat) (b : Bytes) : (s.wr a b).dram = memWrite s.dram a b := rfl

end Sys2Proof.Machine
end

