-- ==== Sys2Proof/Laws/Fields.lean ====
section
/-! SUPPORT. What the shared operations over register fields do: each said once, to be cited in place of the
definition. -/
namespace Sys2Proof.Machine

/-! ### One field -/

theorem Fld.key_ne_of_blk {f g : Fld} (h : f.blk ≠ g.blk) : f.key ≠ g.key := fun e => h (by unfold Fld.blk; rw [e])

/-- A field written reads back, cut to its width. -/
theorem State.fld_setFld_same (s : State) (f : Fld) (v : Nat) : (s.setFld f v).fld f = v % 2 ^ f.width := by
  simp only [State.setFld, State.fld, cellPut]
  split
  · rename_i e; simp [e]
  · simp

/-- A field written leaves every other field alone. -/
theorem State.fld_setFld_ne (s : State) {f g : Fld} (v : Nat) (h : g.key ≠ f.key) : (s.setFld f v).fld g = s.fld g := by
  simp only [State.setFld, State.fld, cellPut]
  split
  · rw [Tbl.get?_del_ne _ h]
  · rw [Tbl.get?_put_ne _ _ h]

theorem State.flag_setFld_ne (s : State) {f g : Fld} (v : Nat) (h : g.key ≠ f.key) : (s.setFld f v).flag g = s.flag g := by
  simp [State.flag, State.fld_setFld_ne s v h]

theorem State.fld_setFlag_same (s : State) (f : Fld) (b : Bool) (h : 0 < f.width) : (s.setFlag f b).fld f = if b then 1 else 0 := by
  have h2 : 1 < 2 ^ f.width := Nat.one_lt_two_pow (by omega)
  simp only [State.setFlag, State.fld_setFld_same]
  cases b <;> simp [Nat.mod_eq_of_lt h2]

theorem State.fld_setFlag_ne (s : State) {f g : Fld} (b : Bool) (h : g.key ≠ f.key) : (s.setFlag f b).fld g = s.fld g :=
  State.fld_setFld_ne s _ h

theorem State.flag_setFlag_ne (s : State) {f g : Fld} (b : Bool) (h : g.key ≠ f.key) : (s.setFlag f b).flag g = s.flag g :=
  State.flag_setFld_ne s _ h

/-- A saturating count rises by n, or stands at its top. -/
theorem State.fld_inc_same (s : State) (f : Fld) (n : Nat) : (s.inc f n).fld f = min (s.fld f + n) (2 ^ f.width - 1) := by
  have : 0 < 2 ^ f.width := Nat.two_pow_pos _
  rw [State.inc, State.fld_setFld_same, Nat.mod_eq_of_lt (by omega)]

theorem State.fld_inc_ne (s : State) {f g : Fld} (n : Nat) (h : g.key ≠ f.key) : (s.inc f n).fld g = s.fld g :=
  State.fld_setFld_ne s _ h

theorem State.flag_inc_ne (s : State) {f g : Fld} (n : Nat) (h : g.key ≠ f.key) : (s.inc f n).flag g = s.flag g :=
  State.flag_setFld_ne s _ h

theorem State.fld_wrapInc_same (s : State) (f : Fld) (n : Nat) : (s.wrapInc f n).fld f = (s.fld f + n) % 2 ^ f.width := by
  rw [State.wrapInc, State.fld_setFld_same]

theorem State.fld_wrapInc_ne (s : State) {f g : Fld} (n : Nat) (h : g.key ≠ f.key) : (s.wrapInc f n).fld g = s.fld g :=
  State.fld_setFld_ne s _ h

/-- Register cells stay in their canonical form under every field write. -/
theorem State.wf_setFld (s : State) (f : Fld) (v : Nat) (h : s.cells.wf = true) : (s.setFld f v).cells.wf = true := by
  simp only [State.setFld, cellPut]
  split
  · exact Tbl.wf_del _ _ h
  · exact Tbl.wf_put _ _ _ h

/-! ### 64-bit pairs -/

/-- A pair written reads back modulo 2^64. -/
theorem State.pair_setPair (s : State) {lo hi : Fld} (v : Nat) (hk : lo.key ≠ hi.key) (hl : lo.width = 32) (hh : hi.width = 32) :
    (s.setPair lo hi v).pair lo hi = v % 2 ^ 64 := by
  simp only [State.pair, State.setPair, State.fld_setFld_same, State.fld_setFld_ne _ _ hk, hl, hh]
  omega

theorem State.fld_setPair_ne (s : State) {lo hi g : Fld} (v : Nat) (h1 : g.key ≠ lo.key) (h2 : g.key ≠ hi.key) :
    (s.setPair lo hi v).fld g = s.fld g := by
  simp only [State.setPair, State.fld_setFld_ne _ _ h1, State.fld_setFld_ne _ _ h2]

/-! ### Sending -/

theorem State.send_eq (s : State) (m : Sent) : s.send m = s ∨ s.send m = { s with sent := s.sent ++ [m] } := by
  unfold State.send; split
  · exact .inl rfl
  · exact .inr rfl

/-- A message the head may send stands last among those sent. -/
theorem State.sent_send (s : State) (m : Sent) (h : (m.external && s.silent) = false) (h1 : s.shut m = false)
    (h2 : (m.onEfmo && !s.flag F.GLB_PAIR_STATUS_EFMO_UP) = false) : (s.send m).sent = s.sent ++ [m] := by
  simp [State.send, h, h1, h2]

/-- A property that no send touches. -/
theorem State.send_prop {P : State → Prop} (hP : ∀ t l, P t → P { t with sent := l }) (s : State) (m : Sent) (h : P s) : P (s.send m) := by
  rcases s.send_eq m with e | e <;> rw [e]
  · exact h
  · exact hP _ _ h

@[simp] theorem State.send_cells (s : State) (m : Sent) : (s.send m).cells = s.cells := by rcases s.send_eq m with e | e <;> rw [e]
@[simp] theorem State.send_dram (s : State) (m : Sent) : (s.send m).dram = s.dram := by rcases s.send_eq m with e | e <;> rw [e]
@[simp] theorem State.send_pins (s : State) (m : Sent) : (s.send m).pins = s.pins := by rcases s.send_eq m with e | e <;> rw [e]
@[simp] theorem State.send_commit (s : State) (m : Sent) : (s.send m).commit = s.commit := by rcases s.send_eq m with e | e <;> rw [e]
@[simp] theorem State.send_trn (s : State) (m : Sent) : (s.send m).trn = s.trn := by rcases s.send_eq m with e | e <;> rw [e]
@[simp] theorem State.send_rpj (s : State) (m : Sent) : (s.send m).rpj = s.rpj := by rcases s.send_eq m with e | e <;> rw [e]
@[simp] theorem State.send_rows (s : State) (m : Sent) : (s.send m).rows = s.rows := by rcases s.send_eq m with e | e <;> rw [e]
@[simp] theorem State.send_sec (s : State) (m : Sent) : (s.send m).sec = s.sec := by rcases s.send_eq m with e | e <;> rw [e]
@[simp] theorem State.send_snp (s : State) (m : Sent) : (s.send m).snp = s.snp := by rcases s.send_eq m with e | e <;> rw [e]
@[simp] theorem State.send_ftl (s : State) (m : Sent) : (s.send m).ftl = s.ftl := by rcases s.send_eq m with e | e <;> rw [e]
@[simp] theorem State.send_map (s : State) (m : Sent) : (s.send m).map = s.map := by rcases s.send_eq m with e | e <;> rw [e]
@[simp] theorem State.send_media (s : State) (m : Sent) : (s.send m).media = s.media := by rcases s.send_eq m with e | e <;> rw [e]
@[simp] theorem State.send_rdt (s : State) (m : Sent) : (s.send m).rdt = s.rdt := by rcases s.send_eq m with e | e <;> rw [e]
@[simp] theorem State.send_scc (s : State) (m : Sent) : (s.send m).scc = s.scc := by rcases s.send_eq m with e | e <;> rw [e]
@[simp] theorem State.send_bbm (s : State) (m : Sent) : (s.send m).bbm = s.bbm := by rcases s.send_eq m with e | e <;> rw [e]
@[simp] theorem State.send_upd (s : State) (m : Sent) : (s.send m).upd = s.upd := by rcases s.send_eq m with e | e <;> rw [e]
@[simp] theorem State.send_mtf (s : State) (m : Sent) : (s.send m).mtf = s.mtf := by rcases s.send_eq m with e | e <;> rw [e]
@[simp] theorem State.send_ctl (s : State) (m : Sent) : (s.send m).ctl = s.ctl := by rcases s.send_eq m with e | e <;> rw [e]
@[simp] theorem State.send_health (s : State) (m : Sent) : (s.send m).health = s.health := by rcases s.send_eq m with e | e <;> rw [e]
@[simp] theorem State.send_efmo (s : State) (m : Sent) : (s.send m).efmo = s.efmo := by rcases s.send_eq m with e | e <;> rw [e]
@[simp] theorem State.send_pairSt (s : State) (m : Sent) : (s.send m).pairSt = s.pairSt := by rcases s.send_eq m with e | e <;> rw [e]
@[simp] theorem State.send_boot (s : State) (m : Sent) : (s.send m).boot = s.boot := by rcases s.send_eq m with e | e <;> rw [e]
@[simp] theorem State.send_pending (s : State) (m : Sent) : (s.send m).pending = s.pending := by rcases s.send_eq m with e | e <;> rw [e]
@[simp] theorem State.send_latches (s : State) (m : Sent) : (s.send m).latches = s.latches := by rcases s.send_eq m with e | e <;> rw [e]
@[simp] theorem State.send_fld (s : State) (m : Sent) (g : Fld) : (s.send m).fld g = s.fld g := by simp [State.fld]
@[simp] theorem State.send_flag (s : State) (m : Sent) (g : Fld) : (s.send m).flag g = s.flag g := by simp [State.flag]

end Sys2Proof.Machine
end

