-- ==== Sys2Proof/Laws/Ldpc.lean ====
section
/-! SUPPORT. Words the decoders of R236 and R237 leave as they are: a codeword to the hard decoder, and to both the word of zeros,
which satisfies every check whatever the base matrix. -/
namespace Sys2Proof.Laws
open Sys2Proof.Machine

theorem hardDecode_codeword (n : Nat) (raw : Bytes) (h : syndromeZero (cwBits raw) = true) : hardDecode n raw = some (cwBits raw) := by
  unfold hardDecode
  cases n <;> simp [hardPasses, h]

theorem foldl_bne_false (l : List Nat) (x : CwBits) (h : ∀ v, x.getD v false = false) :
    l.foldl (fun a v => a != x.getD v false) false = false := by
  induction l with
  | nil => rfl
  | cons v l ih => rw [List.foldl_cons, h v]; exact ih

theorem syndromeZero_of_zeros (x : CwBits) (h : ∀ v, x.getD v false = false) : syndromeZero x = true := by
  simp only [syndromeZero, unsatisfied, foldl_bne_false _ x h]
  simp

theorem cwBits_zeros (n v : Nat) : (cwBits (List.replicate n 0)).getD v false = false := by
  simp only [cwBits, List.getD_eq_getElem?_getD, List.getElem?_map]
  cases h : (List.range cwLen)[v]? with
  | none => rfl
  | some a =>
    simp only [Option.map_some, Option.getD_some]
    cases h2 : (List.replicate n (0 : BitVec 8))[a / 8]? with
    | none => simp
    | some b =>
      have := List.mem_of_getElem? h2
      simp_all

theorem hardDecode_zeros (n k : Nat) : hardDecode n (List.replicate k 0) = some (cwBits (List.replicate k 0)) :=
  hardDecode_codeword _ _ (syndromeZero_of_zeros _ (cwBits_zeros k))

/-- Values of a decoder in which no posterior speaks for a 1 and whose block rows from l on have sent no message. -/
def quiet (w : SoftVals) (l : Nat) : Prop := (∀ p ∈ w.post, 0 ≤ p) ∧ ∀ k, l ≤ k → w.check.getD k [] = []

theorem sgn_of_nonneg {x : Int} (h : 0 ≤ x) : sgn x = 1 := by simp [sgn, Int.not_lt.mpr h]

theorem foldl_sgn (l : List Int) (h : ∀ x ∈ l, 0 ≤ x) : (l.map sgn).foldl (· * ·) 1 = 1 := by
  induction l with
  | nil => rfl
  | cons x l ih =>
    rw [List.map_cons, List.foldl_cons, sgn_of_nonneg (h x (by simp))]
    exact ih fun y hy => h y (by simp [hy])

theorem getD_nonneg (l : List Int) (h : ∀ p ∈ l, 0 ≤ p) (u : Nat) : 0 ≤ l.getD u 0 := by
  rw [List.getD_eq_getElem?_getD]
  cases hu : l[u]? with
  | none => simp
  | some a => exact h a (List.mem_of_getElem? hu)

theorem checkMessage_nonneg (t : List Int) (h : ∀ p ∈ t, 0 ≤ p) (l r v : Nat) : 0 ≤ checkMessage t l r v := by
  have hs : ∀ x ∈ (((checkBits l r).filter (· != v)).map fun u => t.getD u 0), 0 ≤ x := by
    intro x hx
    obtain ⟨u, -, rfl⟩ := List.mem_map.mp hx
    exact getD_nonneg t h u
  simp only [checkMessage]
  rw [foldl_sgn _ hs]
  omega

theorem sat6_nonneg {x : Int} (h : 0 ≤ x) : 0 ≤ sat6 x := by simp only [sat6, clampInt]; omega

theorem softLayer_quiet (w : SoftVals) (l : Nat) (h : quiet w l) : quiet (softLayer w l) (l + 1) := by
  have ho : w.check.getD l [] = [] := h.2 l (Nat.le_refl l)
  have ht : ∀ p ∈ (w.post.zipIdx.map fun p => if (checkOf l p.2).isSome then sat6 (p.1 - (w.check.getD l []).getD p.2 0) else p.1), 0 ≤ p := by
    intro p hp
    obtain ⟨a, ha, rfl⟩ := List.mem_map.mp hp
    have ha0 := h.1 _ (List.fst_mem_of_mem_zipIdx ha)
    rw [ho]
    split
    · exact sat6_nonneg (by simpa using ha0)
    · exact ha0
  refine ⟨?_, fun k hk => ?_⟩
  · intro p hp
    obtain ⟨a, ha, rfl⟩ := List.mem_map.mp hp
    obtain ⟨h1, h2⟩ := List.of_mem_zip (List.fst_mem_of_mem_zipIdx ha)
    have h10 := ht _ h1
    obtain ⟨b, -, hb⟩ := List.mem_map.mp h2
    have h20 : 0 ≤ a.1.2 := by
      rw [← hb]
      split
      · exact checkMessage_nonneg _ ht _ _ _
      · exact Int.le_refl 0
    split
    · exact sat6_nonneg (Int.add_nonneg h10 h20)
    · exact h10
  · have hne : l ≠ k := by omega
    have := h.2 k (by omega)
    simpa [softLayer, List.getD_eq_getElem?_getD, List.getElem?_set_ne hne] using this

theorem foldl_softLayer_quiet (n l : Nat) (w : SoftVals) (h : quiet w l) : quiet ((List.range' l n).foldl softLayer w) (l + n) := by
  induction n generalizing l w with
  | zero => simpa using h
  | succ n ih =>
    have := ih (l + 1) (softLayer w l) (softLayer_quiet w l h)
    rw [List.range'_succ, List.foldl_cons]
    rwa [Nat.add_assoc, Nat.add_comm 1] at this

theorem softBits_zeros (c : CwBits) (post : List Int) (hc : ∀ v, c.getD v false = false) (hp : ∀ p ∈ post, 0 ≤ p) (v : Nat) :
    (softBits c post).getD v false = false := by
  rw [List.getD_eq_getElem?_getD]
  cases hv : (softBits c post)[v]? with
  | none => rfl
  | some b =>
    obtain ⟨a, ha, rfl⟩ := List.mem_map.mp (List.mem_of_getElem? hv)
    obtain ⟨h1, h2⟩ := List.of_mem_zip ha
    obtain ⟨i, hi⟩ := List.mem_iff_getElem?.mp h1
    have hci := hc i
    rw [List.getD_eq_getElem?_getD, hi] at hci
    have := hp _ h2
    dsimp only [Option.getD_some]
    rw [if_neg (by omega)]
    split
    · rfl
    · simpa using hci

/-- With LLRs that speak for no 1, LDS decodes the word of zeros in its first iteration. -/
theorem softDecode_zeros (n k : Nat) (extra : List Bytes) (llr : Nat → Int) (h : ∀ z, 0 ≤ llr z) :
    ∃ x, (softDecode (n + 1) (List.replicate k 0) extra llr).1 = some x := by
  have q : ∀ w, quiet w 0 → quiet ((List.range 12).foldl softLayer w) 12 := by
    intro w hw
    simpa [List.range_eq_range'] using foldl_softLayer_quiet 12 0 w hw
  simp only [softDecode, softIters]
  rw [if_pos]
  · exact ⟨_, rfl⟩
  · refine syndromeZero_of_zeros _ (softBits_zeros _ _ (cwBits_zeros k) (q _ ⟨?_, ?_⟩).1)
    · intro p hp
      simp only [List.mem_map] at hp
      obtain ⟨v, -, hv⟩ := hp
      rw [← hv]
      have := h (zoneOf (cwBits (List.replicate k 0) :: extra.map cwBits) v)
      omega
    · intro j _
      simp only [List.getD_eq_getElem?_getD, List.getElem?_replicate]
      split <;> rfl

/-- Where memory holds nothing, every LLR is 0 and the soft decode of a read of zeros succeeds. -/
theorem softOut_zeros (s : State) (m d pt : Nat) (h : s.dram = []) : ∃ f b, (s.softOut m d pt [] []).1 = .ok f b := by
  obtain ⟨n, hn⟩ : ∃ n, max 1 (min 30 (s.fld F.LDC_SOFT_CFG_MAX_ITER)) = n + 1 := ⟨max 1 (min 30 (s.fld F.LDC_SOFT_CFG_MAX_ITER)) - 1, by omega⟩
  obtain ⟨x, hx⟩ := softDecode_zeros n 0 [] (fun z => s.rdInt (llrAddr (s.calDie m d) pt 1 z) 1) (fun z => by
    simp only [State.rdInt, State.rdN, State.rd, h]
    exact (by decide : (0 : Int) ≤ signed 8 (leNat [0])))
  have hd : softDecode (n + 1) [] [] (fun z => s.rdInt (llrAddr (s.calDie m d) pt 1 z) 1) = softDecode (n + 1) (List.replicate 0 0) [] (fun z => s.rdInt (llrAddr (s.calDie m d) pt 1 z) 1) := rfl
  refine ⟨bitErrors (cwBits []) x, cwBytes x, ?_⟩
  simp only [State.softOut, List.length_nil, Nat.zero_add, hn, hd, hx, ldpcOut]

end Sys2Proof.Laws
end

