-- ==== Sys2Proof/Laws/Records.lean ====
section
/-! SUPPORT. What the replay ring, the event log, interrupts and result registers may change: everything else of the
state stands (R453, R462, R470, R472). -/
namespace Sys2Proof.Machine

theorem State.ringRecords_pos (s : State) : 0 < s.ringRecords := by
  unfold State.ringRecords
  have h : 2 ^ 5 ≤ 2 ^ (max 0x14 (min 0x20 (s.fld F.RPJ_RING_CFG_RING_LOG2))) := Nat.pow_le_pow_right (by decide) (by omega)
  omega

theorem State.recordAddr_inRing (s : State) (n k : Nat) (hk : k < 32) : s.inRing (s.recordAddr n + k) := by
  have h := Nat.mod_lt n s.ringRecords_pos
  unfold State.inRing State.ringBase State.recordAddr
  omega

theorem State.JournalFrame.refl (s : State) : s.JournalFrame s where
  fld _ _ := rfl
  mem _ _ := rfl
  ring := ⟨rfl, rfl⟩
  wf h := h
  cells h := h
  latches := rfl
  sent := rfl
  pins := rfl
  pattern := rfl
  boot := rfl
  repat := rfl
  upd := rfl
  pairSt := rfl
  commit := rfl
  efmo := rfl
  rows := rfl
  ddp := rfl
  sec := rfl
  mtf := rfl
  scc := rfl
  bbm := rfl
  rdt := rfl
  snp := rfl
  ctl := rfl
  health := rfl
  map := rfl
  ftl := rfl
  media := rfl
  trn := rfl
  pending := rfl
  egress := rfl

theorem State.JournalFrame.trans {s t u : State} (h : s.JournalFrame t) (k : t.JournalFrame u) : s.JournalFrame u where
  fld g hg := (k.fld g hg).trans (h.fld g hg)
  mem a ha := (k.mem a (by unfold State.inRing at *; rw [h.ring.1, h.ring.2]; exact ha)).trans (h.mem a ha)
  ring := ⟨k.ring.1.trans h.ring.1, k.ring.2.trans h.ring.2⟩
  wf hs := k.wf (h.wf hs)
  cells hs := k.cells (h.cells hs)
  latches := k.latches.trans h.latches
  sent := k.sent.trans h.sent
  pins := k.pins.trans h.pins
  pattern := k.pattern.trans h.pattern
  boot := k.boot.trans h.boot
  repat := k.repat.trans h.repat
  upd := k.upd.trans h.upd
  pairSt := k.pairSt.trans h.pairSt
  commit := k.commit.trans h.commit
  efmo := k.efmo.trans h.efmo
  rows := k.rows.trans h.rows
  ddp := k.ddp.trans h.ddp
  sec := k.sec.trans h.sec
  mtf := k.mtf.trans h.mtf
  scc := k.scc.trans h.scc
  bbm := k.bbm.trans h.bbm
  rdt := k.rdt.trans h.rdt
  snp := k.snp.trans h.snp
  ctl := k.ctl.trans h.ctl
  health := k.health.trans h.health
  map := k.map.trans h.map
  ftl := k.ftl.trans h.ftl
  media := k.media.trans h.media
  trn := k.trn.trans h.trn
  pending := k.pending.trans h.pending
  egress := k.egress.trans h.egress

/-- A field of RPJ other than the ring's place is written. -/
theorem State.logs_setFld (s : State) (f : Fld) (v : Nat) (hb : f.blk = 0x18)
    (h1 : F.RPJ_RING_BASE_LO_ADDR.key ≠ f.key) (h2 : F.RPJ_RING_BASE_HI_ADDR.key ≠ f.key) (h3 : F.RPJ_RING_CFG_RING_LOG2.key ≠ f.key) :
    s.JournalFrame (s.setFld f v) :=
  { State.JournalFrame.refl s with
    fld := fun g hg => s.fld_setFld_ne v (Fld.key_ne_of_blk (by rw [hb]; exact hg))
    ring := by
      unfold State.ringBase State.ringRecords State.base
      rw [s.fld_setFld_ne v h1, s.fld_setFld_ne v h2, s.fld_setFld_ne v h3]; exact ⟨rfl, rfl⟩
    cells := fun h => s.wf_setFld f v h
    wf := fun h => h }

/-- Bytes are written in the ring. -/
theorem State.logs_wr (s : State) (a : Nat) (l : Bytes) (h : ∀ k < l.length, s.inRing (a + k)) : s.JournalFrame (s.wr a l) :=
  { State.JournalFrame.refl s with
    mem := fun c hc => memGet_memWrite_out _ _ _ _ (by
      refine Decidable.byContradiction fun hn => ?_
      exact hc (by have := h (c - a) (by omega); rwa [Nat.add_sub_cancel' (by omega)] at this))
    wf := fun h => Memory.wf_memWrite _ _ _ h }

theorem State.logs_rpj (s : State) (r : RpjSt) : s.JournalFrame { s with rpj := r } := { State.JournalFrame.refl s with }
theorem State.logs_fresh (s : State) (n : Nat) : s.JournalFrame { s with fresh := n } := { State.JournalFrame.refl s with }

theorem leBytes_length (n v : Nat) : (leBytes n v).length = n := by
  induction n generalizing v with
  | zero => rfl
  | succ n ih => simp [leBytes, ih]

theorem State.logs_stopReplay (s : State) (f : Fld) (hb : f = F.RPJ_REPLAY_STATUS_GAP_END ∨ f = F.RPJ_REPLAY_STATUS_DIVERGED) :
    s.JournalFrame (s.stopReplay f) := by
  unfold State.stopReplay
  have e : ∀ (t : State) (g : Fld) (v : Nat), (g = F.RPJ_CTRL_REPLAY ∨ g = F.RPJ_REPLAY_STATUS_RSEQ ∨ g = F.RPJ_ISR_REPLAY_STOP ∨
      g = F.RPJ_REPLAY_STATUS_GAP_END ∨ g = F.RPJ_REPLAY_STATUS_DIVERGED) → t.JournalFrame (t.setFld g v) := by
    rintro t g v (rfl | rfl | rfl | rfl | rfl) <;> exact t.logs_setFld _ _ (by decide) (by decide) (by decide) (by decide)
  exact (((e _ _ _ (by simp)).trans (e _ f _ (by rcases hb with rfl | rfl <;> simp))).trans (e _ _ _ (by simp))).trans (e _ _ _ (by simp))

theorem State.logs_countRecord (s : State) : s.JournalFrame s.countRecord := by
  have h : s.JournalFrame (s.wrapInc F.RPJ_RSEQ_COUNT) := State.logs_setFld _ F.RPJ_RSEQ_COUNT _ (by decide) (by decide) (by decide) (by decide)
  unfold State.countRecord
  split
  · exact h.trans (State.logs_rpj _ _)
  · exact h

theorem State.logs_dropRecord (s : State) : s.JournalFrame s.dropRecord :=
  (State.logs_setFld _ _ _ (by decide) (by decide) (by decide) (by decide)).trans
    (State.logs_setFld _ _ _ (by decide) (by decide) (by decide) (by decide))

theorem State.logs_putRecord (s : State) (n type inst payload : Nat) : s.JournalFrame (s.putRecord n type inst payload) :=
  (State.logs_fresh s _).trans (State.logs_wr _ _ _ fun k hk => State.recordAddr_inRing _ _ _ (by simpa [leBytes_length] using hk))

/-- Recording an event changes nothing but the journal's own state (R453-R455). -/
theorem State.logs_record (s : State) (type inst payload : Nat) : s.JournalFrame (s.record type inst payload) := by
  unfold State.record
  split
  · exact .refl s
  · split
    · unfold State.compareRecord
      dsimp only
      split
      · exact s.logs_stopReplay _ (.inl rfl)
      · split
        · exact State.logs_setFld _ F.RPJ_RSEQ_COUNT _ (by decide) (by decide) (by decide) (by decide)
        · exact s.logs_stopReplay _ (.inr rfl)
    · dsimp only
      split
      · exact s.logs_countRecord.trans (State.logs_dropRecord _)
      · split
        · exact (s.logs_countRecord.trans (State.logs_rpj _ _)).trans (State.logs_dropRecord _)
        · exact (s.logs_countRecord.trans (State.logs_rpj _ _)).trans (State.logs_putRecord _ _ _ _ _)

/-- An event log entry changes only the log. -/
theorem State.logs_logEvent (s : State) (code block severity detail : Nat) : s.JournalFrame (s.logEvent code block severity detail) :=
  (State.logs_rpj _ _).trans (State.logs_setFld _ _ _ (by decide) (by decide) (by decide) (by decide))

/-- Raising an interrupt sets its bit; what else changes is recording's. -/
theorem State.logs_raise (s : State) (f : Fld) : (s.setFld f 1).JournalFrame (s.raise f) := by
  unfold State.raise
  simp only
  split
  · exact State.logs_record _ _ _ _
  · exact .refl _

/-- A raised bit reads 1 (R472), wherever its register is not RPJ's. -/
theorem State.fld_raise_same (s : State) (f : Fld) (hw : f.width = 1) (hb : f.blk ≠ 0x18) : (s.raise f).fld f = 1 := by
  have e : 1 % 2 ^ f.width = 1 := by simp [hw]
  rw [(s.logs_raise f).fld f hb, State.fld_setFld_same, e]

theorem State.fld_raise_ne (s : State) {f g : Fld} (h : g.key ≠ f.key) (hb : g.blk ≠ 0x18) : (s.raise f).fld g = s.fld g := by
  rw [(s.logs_raise f).fld g hb, State.fld_setFld_ne _ _ h]

theorem State.flag_raise_ne (s : State) {f g : Fld} (h : g.key ≠ f.key) (hb : g.blk ≠ 0x18) : (s.raise f).flag g = s.flag g := by
  simp [State.flag, s.fld_raise_ne h hb]

theorem State.fld_record (s : State) (type inst payload : Nat) {g : Fld} (hb : g.blk ≠ 0x18) : (s.record type inst payload).fld g = s.fld g :=
  (s.logs_record type inst payload).fld g hb

theorem State.fld_logEvent (s : State) (code block severity detail : Nat) {g : Fld} (hb : g.blk ≠ 0x18) :
    (s.logEvent code block severity detail).fld g = s.fld g := (s.logs_logEvent code block severity detail).fld g hb

/-- A CORRECTED error sets its block's bit. -/
theorem State.fld_errCorr_ne (s : State) (b : Nat) {g : Fld} (h : g.key ≠ F.IRQ_ERR_CORR_BLOCKS.key) : (s.errCorr b).fld g = s.fld g :=
  s.fld_setFld_ne _ h

theorem State.fld_errDefer_ne (s : State) (b : Nat) {g : Fld} (h : g.key ≠ F.IRQ_ERR_DEFER_BLOCKS.key) (hb : g.blk ≠ 0x18) :
    (s.errDefer b).fld g = s.fld g := by
  rw [State.errDefer, State.fld_logEvent _ _ _ _ _ hb, State.fld_setFld_ne _ _ h]

/-- A FATAL error changes only IRQ's error, interrupt and timer fields. -/
theorem State.fld_errFatal_ne (s : State) (b : Nat) {g : Fld} (h : g.blk ≠ 0x1A) (hb : g.blk ≠ 0x18) : (s.errFatal b).fld g = s.fld g := by
  have e1 : ∀ (t : State) (f : Fld) (v : Nat), f.blk = 0x1A → (t.setFld f v).fld g = t.fld g := fun t f v hf =>
    t.fld_setFld_ne v (Fld.key_ne_of_blk (by rw [hf]; exact h))
  unfold State.errFatal
  simp only
  split <;> (try rw [e1 _ _ _ (by decide), e1 _ _ _ (by decide)]) <;> split <;>
    simp only [State.fld_record _ _ _ _ hb, State.fld_logEvent _ _ _ _ _ hb, e1 _ F.IRQ_ISR_FATAL _ (by decide), e1 _ F.IRQ_ERR_FATAL_BLOCKS _ (by decide)]

/-! ### Result registers (R470) -/

/-- An outcome field of a completed operation reads what was written, and VALID is 1. -/
theorem State.fld_resDone_ne (s : State) (off : Nat) {g : Fld} (h1 : g.key ≠ (resValid off).key) (h2 : g.key ≠ (resSeen off).key)
    (h3 : g.key ≠ (resSeq off).key) (l : List (Fld × Nat)) :
    (s.resDone off l).fld g = (l.foldl (fun t p => t.setFld p.1 p.2) s).fld g := by
  unfold State.resDone
  rw [State.fld_setFld_ne _ _ h2, State.fld_setFld_ne _ _ h1, State.fld_setFld_ne _ _ h3]

theorem State.fld_resDone_valid (s : State) (off : Nat) (l : List (Fld × Nat)) : (s.resDone off l).fld (resValid off) = 1 := by
  unfold State.resDone
  rw [State.fld_setFld_ne _ _ (by simp [Fld.key, resValid, resSeen]), State.fld_setFld_same]; rfl

theorem State.fld_resDone_seen (s : State) (off : Nat) (l : List (Fld × Nat)) : (s.resDone off l).fld (resSeen off) = 0 := by
  unfold State.resDone
  rw [State.fld_setFld_same]; rfl

theorem State.fld_resDone_seq (s : State) (off : Nat) (l : List (Fld × Nat)) : (s.resDone off l).fld (resSeq off) = (s.fld (resSeq off) + 1) % 256 := by
  unfold State.resDone
  rw [State.fld_setFld_ne _ _ (by simp [Fld.key, resSeq, resSeen]), State.fld_setFld_ne _ _ (by simp [Fld.key, resSeq, resValid]), State.fld_setFld_same]
  rfl

/-! ### Commands on a head that is powered -/

/-- A powered head takes a command's effect. -/
theorem State.live_on {s : State} (h : s.pins.powered = true) (t : State) : s.live t = { t with pins := { t.pins with powered := true } } := by
  simp [State.live, h]

/-- A head that is OFF takes none. -/
theorem State.live_off {s : State} (h : s.pins.powered = false) (t : State) : s.live t = s := by simp [State.live, h]

/-- The effect as it stands, where it leaves the pins alone. -/
theorem State.live_eq {s t : State} (h : s.pins.powered = true) (hp : t.pins = s.pins) : s.live t = t := by
  rw [State.live_on h]
  have : ({ t.pins with powered := true } : Pins) = t.pins := by rw [hp]; cases hq : s.pins; simp_all
  rw [this]

theorem State.live_self (s : State) : s.live s = s := by
  unfold State.live
  split
  · rename_i h; exact (State.live_on h s).symm.trans (State.live_eq h rfl)
  · rfl

theorem State.live_powered (s t : State) : (s.live t).pins.powered = s.pins.powered := by
  unfold State.live; split <;> simp_all

theorem State.live_fld {s : State} (h : s.pins.powered = true) (t : State) (g : Fld) : (s.live t).fld g = t.fld g := by
  rw [State.live_on h]; rfl

end Sys2Proof.Machine
end

