-- ==== Sys2Proof/Laws/Window.lean ====
section
/-! SUPPORT. A word written to a register (R468): what every field of the register holds afterwards, and that nothing else
changes. -/
namespace Sys2Proof.Machine

/-- Fields of positive width in a word of 32 bits, none above another. -/
def apart : List (Fld × Access) → Bool
  | [] => true
  | p :: r =>
    decide (0 < p.1.width) && decide (p.1.lo + p.1.width ≤ 32) &&
      r.all (fun q => decide (p.1.lo + p.1.width ≤ q.1.lo) || decide (q.1.lo + q.1.width ≤ p.1.lo)) && apart r

theorem regRows_apart (b : Nat) : (regRows b).all (fun r => apart r.fields) = true := by
  unfold regRows
  repeat' split
  all_goals decide

theorem apart_move (off : Nat) (l : List (Fld × Access)) :
    apart (l.map fun p => ((⟨off, p.1.lo, p.1.width, p.1.reset⟩ : Fld), p.2)) = apart l := by
  induction l with
  | nil => rfl
  | cons p r ih => simp [apart, ih, List.all_map, Function.comp_def]

/-- Every register's fields lie apart. -/
theorem regFields_apart (off : Nat) : apart (regFields off) = true := by
  unfold regFields regAt
  cases h : (regRows (off / 0x100000)).find? _ with
  | none => rfl
  | some r =>
    have hm := List.mem_of_find?_eq_some h
    have := List.all_eq_true.mp (regRows_apart (off / 0x100000)) r hm
    simpa [apart_move] using this

theorem regFields_off (off : Nat) : ∀ p ∈ regFields off, p.1.off = off := by
  unfold regFields regAt
  cases h : (regRows (off / 0x100000)).find? _ with
  | none => simp
  | some r => intro p hp; simp at hp; obtain ⟨a, b, _, rfl⟩ := hp; rfl

theorem apart_lo {l : List (Fld × Access)} (h : apart l = true) : l.Pairwise fun p q => p.1.lo ≠ q.1.lo := by
  induction l with
  | nil => exact .nil
  | cons p r ih =>
    simp only [apart, Bool.and_eq_true, List.all_eq_true, Bool.or_eq_true, decide_eq_true_eq] at h
    refine List.pairwise_cons.mpr ⟨fun q hq => ?_, ih h.2⟩
    have hr : ∀ q ∈ r, 0 < q.1.width := by
      have h2 := h.2
      clear ih h hq
      induction r with
      | nil => simp
      | cons a r ih =>
        simp only [apart, Bool.and_eq_true, decide_eq_true_eq] at h2
        intro q hq; rcases List.mem_cons.mp hq with rfl | hq
        · exact h2.1.1.1
        · exact ih h2.2 q hq
    have := h.1.2 q hq; have := hr q hq; have := h.1.1.1
    omega

theorem State.RegsOnly.refl (s : State) : s.RegsOnly s := ⟨s.cells, rfl⟩
theorem State.RegsOnly.trans {s t u : State} (h : s.RegsOnly t) (k : t.RegsOnly u) : s.RegsOnly u := by
  obtain ⟨c, rfl⟩ := h; obtain ⟨d, rfl⟩ := k; exact ⟨d, rfl⟩
theorem State.regsOnly_setFld (s : State) (f : Fld) (v : Nat) : s.RegsOnly (s.setFld f v) := ⟨_, rfl⟩

/-- What a field holds after its access code took the word, by what it held before. -/
def valueAfter (lk : Bool) (w v : Nat) (p : Fld × Access) : Nat :=
  match p.2 with
  | .RW | .WO => wordField p.1 w
  | .RWL => if lk then v else wordField p.1 w
  | .W1C => (v - (v &&& wordField p.1 w)) % 2 ^ p.1.width
  | .RO | .W1P => v

theorem State.fld_lt_mod (s : State) (f : Fld) (v : Nat) : (s.setFld f (wordField f v)).fld f = wordField f v := by
  rw [State.fld_setFld_same, wordField, Nat.mod_mod]

/-- One field takes a word; nothing else changes. -/
theorem writeField_spec (lk : Bool) (w : Nat) (s : State) (p : Fld × Access) :
    (writeField lk w s p).fld p.1 = valueAfter lk w (s.fld p.1) p := by
  unfold writeField valueAfter
  split
  · simp_all [State.fld_lt_mod]
  · simp_all [State.fld_lt_mod]
  · split <;> simp_all [State.fld_lt_mod]
  · simp_all [State.fld_setFld_same]
  · simp_all
  · simp_all

theorem writeField_ne (lk : Bool) (w : Nat) (s : State) (p : Fld × Access) (f : Fld) (hf : p.1.key ≠ f.key) :
    (writeField lk w s p).fld f = s.fld f := by
  unfold writeField
  split <;> (try split) <;> first | rfl | exact s.fld_setFld_ne _ (Ne.symm hf)

theorem writeField_regs (lk : Bool) (w : Nat) (s : State) (p : Fld × Access) : s.RegsOnly (writeField lk w s p) := by
  unfold writeField
  split <;> (try split) <;> first | exact .refl s | exact s.regsOnly_setFld _ _

/-- Writing through a run of fields of one register. -/
theorem writeFields_spec (lk : Bool) (w : Nat) (l : List (Fld × Access)) (s : State) (hp : l.Pairwise fun p q => p.1.key ≠ q.1.key) :
    (∀ p ∈ l, (l.foldl (writeField lk w) s).fld p.1 = valueAfter lk w (s.fld p.1) p) ∧
    (∀ f : Fld, (∀ p ∈ l, p.1.key ≠ f.key) → (l.foldl (writeField lk w) s).fld f = s.fld f) ∧
    s.RegsOnly (l.foldl (writeField lk w) s) := by
  induction l generalizing s with
  | nil => exact ⟨by simp, fun _ _ => rfl, .refl s⟩
  | cons p r ih =>
    obtain ⟨h1, h2⟩ := List.pairwise_cons.mp hp
    have e : ∀ q ∈ r, (writeField lk w s p).fld q.1 = s.fld q.1 := fun q hq => writeField_ne lk w s p q.1 (h1 q hq)
    obtain ⟨i1, i2, i3⟩ := ih (writeField lk w s p) h2
    refine ⟨fun q hq => ?_, fun f hf => ?_, (writeField_regs lk w s p).trans i3⟩
    · rcases List.mem_cons.mp hq with rfl | hq
      · rw [List.foldl_cons, i2 _ fun a ha => Ne.symm (h1 a ha)]
        exact writeField_spec lk w s q
      · rw [List.foldl_cons, i1 q hq, e q hq]
    · rw [List.foldl_cons, i2 f fun q hq => hf q (List.mem_cons_of_mem _ hq)]
      exact writeField_ne lk w s p f (hf p List.mem_cons_self)

/-- A register's fields have different keys. -/
theorem regFields_keys (off : Nat) : (regFields off).Pairwise fun p q => p.1.key ≠ q.1.key := by
  have h := apart_lo (regFields_apart off)
  refine h.imp_of_mem fun ha hb hn => ?_
  have := regFields_off off _ ha; have := regFields_off off _ hb
  unfold Fld.key; omega

theorem eq_of_key {l : List (Fld × Access)} (h : l.Pairwise fun p q => p.1.key ≠ q.1.key) {p q : Fld × Access} (hp : p ∈ l) (hq : q ∈ l)
    (e : p.1.key = q.1.key) : p = q := by
  induction l with
  | nil => cases hp
  | cons a r ih =>
    obtain ⟨h1, h2⟩ := List.pairwise_cons.mp h
    rcases List.mem_cons.mp hp with rfl | hp' <;> rcases List.mem_cons.mp hq with rfl | hq'
    · rfl
    · exact absurd e (h1 q hq')
    · exact absurd e.symm (h1 p hp')
    · exact ih h2 hp' hq'

/-- Clearing the fields that any write clears. -/
theorem clearByWrite_spec (s : State) (off : Nat) :
    (∀ p ∈ regFields off, (clearByWrite s off).fld p.1 = if p.1.lo ∈ clearsAt off then 0 else s.fld p.1) ∧
    (∀ f : Fld, (∀ p ∈ regFields off, p.1.key ≠ f.key) → (clearByWrite s off).fld f = s.fld f) ∧ s.RegsOnly (clearByWrite s off) := by
  unfold clearByWrite
  generalize clearsAt off = l
  induction l generalizing s with
  | nil => exact ⟨by simp, fun _ _ => rfl, .refl s⟩
  | cons k r ih =>
    rw [List.foldl_cons]
    have hk := regFields_keys off
    cases h : (regFields off).find? (fun p => p.1.lo == k) with
    | none =>
      obtain ⟨i1, i2, i3⟩ := ih s
      refine ⟨fun p hp => ?_, i2, i3⟩
      have := List.find?_eq_none.mp h p hp
      rw [i1 p hp]; simp_all
    | some q =>
      obtain ⟨i1, i2, i3⟩ := ih (s.setFld q.1 0)
      have hq := List.mem_of_find?_eq_some h
      have hl : q.1.lo = k := by simpa using List.find?_some h
      refine ⟨fun p hp => ?_, fun f hf => ?_, (s.regsOnly_setFld _ _).trans i3⟩
      · rw [i1 p hp]
        by_cases e : p.1.lo = k
        · have : p.1.key = q.1.key := by
            have := regFields_off off p hp; have := regFields_off off q hq; unfold Fld.key; omega
          have e1 : p = q := eq_of_key hk hp hq this
          have e2 : (s.setFld q.1 0).fld p.1 = 0 := by rw [e1, State.fld_setFld_same, Nat.zero_mod]
          simp [e, e2]
        · have : p.1.key ≠ q.1.key := by
            have := regFields_off off p hp; have := regFields_off off q hq; unfold Fld.key; omega
          simp [e, s.fld_setFld_ne 0 this]
      · rw [i2 f hf, s.fld_setFld_ne 0 (Ne.symm (hf q hq))]

/-- A word that no locked field refuses: every field of the register holds what its access code makes of it, and nothing
else changes. -/
theorem State.writeWord_spec (s : State) (off w : Nat) (h : s.headState = stCastOn ∨ ∀ p ∈ regFields off, changesLocked s w p = false) :
    (∀ p ∈ regFields off, (s.writeWord off w).fld p.1 = fieldAfter s off w p) ∧ s.SameBut (s.writeWord off w) off := by
  obtain ⟨a1, a2, a3⟩ := writeFields_spec (s.headState != stCastOn) w (regFields off) s (regFields_keys off)
  obtain ⟨c1, c2, c3⟩ := clearByWrite_spec ((regFields off).foldl (writeField (s.headState != stCastOn) w) s) off
  have e : s.writeWord off w = clearByWrite ((regFields off).foldl (writeField (s.headState != stCastOn) w) s) off := by
    unfold State.writeWord
    rw [if_neg]
    rcases h with h | h
    · simp [h]
    · simp only [Bool.and_eq_true, List.any_eq_true, not_and, not_exists]; intro _ p hp hc; simp [h p hp] at hc
  rw [e]
  refine ⟨fun p hp => ?_, a3.trans c3, fun f hf => by rw [c2 f hf, a2 f hf]⟩
  rw [c1 p hp, a1 p hp]
  unfold fieldAfter valueAfter
  split
  · rfl
  · cases p.2 <;> simp [bne]

end Sys2Proof.Machine
end

