-- ==== Sys2Proof/Laws/Results.lean ====
section
/-! SUPPORT. Result registers (R470) and the commands that answer in one: what a START stores, what a completion delivers. -/
namespace Sys2Proof.Machine

/-- The outcome fields of a result register: apart from VALID, SEEN and SEQ and from one another, each value in its
field's width. -/
def outcomeOk (off : Nat) : List (Fld × Nat) → Bool
  | [] => true
  | p :: r =>
    decide (p.1.key ≠ (resValid off).key) && decide (p.1.key ≠ (resSeen off).key) && decide (p.1.key ≠ (resSeq off).key) &&
      decide (p.2 < 2 ^ p.1.width) && r.all (fun q => decide (q.1.key ≠ p.1.key)) && outcomeOk off r

/-- Fields written in turn hold their values; the others stand. -/
theorem State.fld_setAll (l : List (Fld × Nat)) (off : Nat) (s : State) (h : outcomeOk off l = true) :
    (∀ p ∈ l, (l.foldl (fun t p => t.setFld p.1 p.2) s).fld p.1 = p.2) ∧
    (∀ f : Fld, (∀ p ∈ l, f.key ≠ p.1.key) → (l.foldl (fun t p => t.setFld p.1 p.2) s).fld f = s.fld f) ∧
    s.RegsOnly (l.foldl (fun t p => t.setFld p.1 p.2) s) := by
  induction l generalizing s with
  | nil => exact ⟨by simp, fun _ _ => rfl, .refl s⟩
  | cons p r ih =>
    simp only [outcomeOk, Bool.and_eq_true, decide_eq_true_eq, List.all_eq_true] at h
    obtain ⟨i1, i2, i3⟩ := ih (s.setFld p.1 p.2) h.2
    refine ⟨fun q hq => ?_, fun f hf => ?_, (s.regsOnly_setFld _ _).trans i3⟩
    · rcases List.mem_cons.mp hq with rfl | hq
      · rw [List.foldl_cons, i2 _ fun x hx => Ne.symm (h.1.2 x hx), State.fld_setFld_same, Nat.mod_eq_of_lt h.1.1.2]
      · exact i1 q hq
    · rw [List.foldl_cons, i2 f fun x hx => hf x (List.mem_cons_of_mem _ hx), s.fld_setFld_ne _ (hf p List.mem_cons_self)]

theorem State.regsOnly_resDone (s : State) (off : Nat) (l : List (Fld × Nat)) : s.RegsOnly (s.resDone off l) := by
  unfold State.resDone
  have : s.RegsOnly (l.foldl (fun t p => t.setFld p.1 p.2) s) := by
    induction l generalizing s with
    | nil => exact .refl s
    | cons p r ih => exact (s.regsOnly_setFld _ _).trans (ih _)
  exact ((this.trans (State.regsOnly_setFld _ _ _)).trans (State.regsOnly_setFld _ _ _)).trans (State.regsOnly_setFld _ _ _)

/-- A completion answers. -/
theorem State.answered_resDone (s : State) (off : Nat) (l : List (Fld × Nat)) (h : outcomeOk off l = true) : s.Answered (s.resDone off l) off l := by
  refine ⟨s.fld_resDone_valid off l, s.fld_resDone_seen off l, s.fld_resDone_seq off l, fun p hp => ?_⟩
  obtain ⟨a, -, -⟩ := State.fld_setAll l off s h
  have hk : ∀ q ∈ l, q.1.key ≠ (resValid off).key ∧ q.1.key ≠ (resSeen off).key ∧ q.1.key ≠ (resSeq off).key := by
    clear a hp
    induction l with
    | nil => simp
    | cons q r ih =>
      simp only [outcomeOk, Bool.and_eq_true, decide_eq_true_eq] at h
      intro x hx; rcases List.mem_cons.mp hx with rfl | hx
      · exact ⟨h.1.1.1.1.1, h.1.1.1.1.2, h.1.1.1.2⟩
      · exact ih h.2 x hx
  obtain ⟨k1, k2, k3⟩ := hk p hp
  rw [s.fld_resDone_ne off k1 k2 k3]
  exact a p hp

/-- An answer stands where the result register's fields do. -/
theorem State.Answered.mono {s t u : State} {off : Nat} {l : List (Fld × Nat)} (h : s.Answered t off l)
    (e1 : u.fld (resValid off) = t.fld (resValid off)) (e2 : u.fld (resSeen off) = t.fld (resSeen off)) (e3 : u.fld (resSeq off) = t.fld (resSeq off))
    (e4 : ∀ p ∈ l, u.fld p.1 = t.fld p.1) : s.Answered u off l :=
  ⟨e1.trans h.1, e2.trans h.2.1, e3.trans h.2.2.1, fun p hp => (e4 p hp).trans (h.2.2.2 p hp)⟩

theorem State.Answered.of_seq {s s' t : State} {off : Nat} {l : List (Fld × Nat)} (h : s'.Answered t off l)
    (e : s'.fld (resSeq off) = s.fld (resSeq off)) : s.Answered t off l :=
  ⟨h.1, h.2.1, by rw [h.2.2.1, e], h.2.2.2⟩

/-- Raising an interrupt of another register leaves an answer alone. -/
theorem State.Answered.raise {s t : State} {off : Nat} {l : List (Fld × Nat)} (h : s.Answered t off l) (f : Fld) (hb : off / 0x100000 ≠ 0x18)
    (hl : ∀ p ∈ l, p.1.off = off ∧ p.1.lo < 32) (ho : off ≠ f.off) (hf : f.lo < 32) (hm : f.off % 4 = 0) (hn : off % 4 = 0) : s.Answered (t.raise f) off l := by
  have key : ∀ g : Fld, g.off = off → g.lo < 32 → (t.raise f).fld g = t.fld g := fun g hg hgl =>
    t.fld_raise_ne (by unfold Fld.key; omega) (by unfold Fld.blk Fld.key; omega)
  exact h.mono (key _ rfl (by simp [resValid])) (key _ rfl (by simp [resSeen])) (key _ rfl (by simp [resSeq])) fun p hp => key _ (hl p hp).1 (hl p hp).2

theorem State.regsOnly_resStart (s : State) (off : Nat) : s.RegsOnly (s.resStart off) :=
  (s.regsOnly_setFld _ _).trans (State.regsOnly_setFld _ _ _)

theorem State.fld_resStart_ne (s : State) (off : Nat) {g : Fld} (h1 : g.key ≠ (resValid off).key) (h2 : g.key ≠ (resSeen off).key) :
    (s.resStart off).fld g = s.fld g := by
  unfold State.resStart
  rw [State.fld_setFld_ne _ _ h2, State.fld_setFld_ne _ _ h1]

end Sys2Proof.Machine
end

