-- ==== Sys2Proof/WellFormed.lean ====
section
/-! DEFINITION. Well-formed commands: every operand fits the field or the message it comes in. The commands' meanings are
total, and take an operand that does not fit as its low bits. -/
namespace Sys2Proof

/-- A number that fits a field of w bits. -/
def fits (w n : Nat) : Bool := decide (n < 2 ^ w)

/-- A 4 KiB block. -/
def isBlock (b : Bytes) : Bool := b.length == 4096

/-- A page as its decode gives it, where it could be read. -/
def isPage : Option Bytes → Bool
  | none => true
  | some b => b.length == 4096

def Requester.wf : Requester → Bool
  | .hart n => fits 5 n
  | .referee => true
  | .pcie => true
  | .jtag => true

def Straps.wf (x : Straps) : Bool := fits 1 x.headId && fits 2 x.bootMode && fits 1 x.xspiOctal && fits 1 x.debugReq

/-- The opcode of any other command is a byte. -/
def HostOp.wf : HostOp → Bool
  | .other n => fits 8 n
  | .read | .write | .flush | .writeZeroes | .deallocate | .compare | .verify => true

def PiIn.wf (p : PiIn) : Bool := fits 64 p.guard && fits 16 p.app && fits 64 p.ref

def HostCmd.wf (c : HostCmd) : Bool :=
  c.op.wf && fits 16 c.cid && fits 32 c.nsid && fits 64 c.slba && decide (c.nlb ≤ 65536) && fits 3 c.prchk && fits 64 c.initTag &&
  decide (c.ranges.length ≤ 256) && fits 64 c.sglAddr && fits 32 c.sglKey && c.pi.all PiIn.wf

def BlockMsg.wf (m : BlockMsg) : Bool :=
  fits 64 m.seq && fits 13 m.slot && fits 8 m.mask && fits 16 m.volume && fits 8 m.index && fits 48 m.lba && isBlock m.data && fits 64 m.guard

def Marker.wf (m : Marker) : Bool := fits 64 m.seq && fits 13 m.firstSlot && decide (m.count ≤ 64) && fits 64 m.fold

def AckMsg.wf (m : AckMsg) : Bool :=
  fits 64 m.seq && fits 13 m.firstSlot && decide (m.count ≤ 64) && fits 8 m.status && fits 8 m.failing && fits 16 m.credit

def RefetchMsg.wf (m : RefetchMsg) : Bool :=
  fits 64 m.seq && fits 48 m.lba && fits 16 m.volume && fits 8 m.block && fits 8 m.status && fits 16 m.token

def StateMsg.wf (m : StateMsg) : Bool :=
  fits 3 m.headState && fits 16 m.epoch0 && fits 16 m.epoch1 && fits 32 m.level && fits 32 m.peerMin

def ParamMsg.wf (m : ParamMsg) : Bool := fits 1 m.headId && fits 3 m.headState && fits 16 m.epoch0 && fits 16 m.epoch1

def PurlStatus.wf (p : PurlStatus) : Bool :=
  fits 8 p.opcode && fits 8 p.status && fits 12 p.tag && fits 8 p.suspends && fits 16 p.epoch && fits 32 p.busyUs && fits 32 p.dataLen

def TableMsg.wf (m : TableMsg) : Bool :=
  fits 16 m.format && fits 8 m.type && fits 8 m.seat && fits 8 m.state && fits 8 m.flags && fits 8 m.epoch && fits 64 m.count

/-- A request stays in one 64-byte line; a write brings the bytes it says. -/
def MemReq.wf (r : MemReq) : Bool :=
  fits 3 r.cls && fits 48 r.addr && decide (r.addr % 64 + r.len ≤ 64) && (match r.data with | none => true | some b => b.length == r.len)

def RocePkt.wf (p : RocePkt) : Bool :=
  fits 24 p.qpn && fits 24 p.psn && fits 64 p.va && fits 32 p.rkey && fits 32 p.len && fits 64 p.compare && fits 64 p.swap && fits 4 p.port

def ReplHdr.wf (h : ReplHdr) : Bool :=
  fits 16 h.format && fits 8 h.type && fits 8 h.status && fits 32 h.linkTag && fits 64 h.seq && fits 48 h.lba && fits 16 h.volume &&
  fits 64 h.cutStamp && fits 32 h.fixed

/-- Every operand of a command fits. -/
def Instr.wf : Instr → Bool
  | .castOnStart x _ => x.wf
  | .castonStepDone _ => true
  | .castonStepTimeout => true
  | .selfFlushMeasured _ _ _ _ _ _ _ _ _ => true
  | .journalGapRequest inst fromJseq => fits 1 inst && fits 64 fromJseq
  | .missingGroupsReply inst groups => fits 1 inst && groups.all fun g => decide (g.length ≤ 16384)
  | .acceptGap => true
  | .soloStart _ => true
  | .ready => true
  | .rejoinPause => true
  | .lastSequence seq jseq => fits 64 seq && fits 64 jseq
  | .survivorHandback => true
  | .finalJseq jseq => fits 64 jseq
  | .forfeit who cause => who.wf && fits 8 cause
  | .junctionOvertemp => true
  | .lockstepMismatch => true
  | .partnerForfeitSampled _ => true
  | .takeoverAdopt => true
  | .leaseClaimTimeout half => fits 1 half
  | .parameterExchange m _ => m.wf
  | .idClashRetry => true
  | .efmRetrain => true
  | .efmoFlitDiscard flits => flits.all fun f => f.length == 256
  | .efmoNak flit => decide (flit.length = 256)
  | .efmoReplayTimeout => true
  | .efmoRecoveryDone _ => true
  | .efmoLaneFailing _ seq _ => fits 12 seq
  | .laneSpare _ _ seq => fits 12 seq
  | .stateHeartbeat => true
  | .stateMessage m => m.wf
  | .flushed => true
  | .refereeMessage fixed invocation _ tag => fits 32 fixed && fits 64 invocation && decide (tag.length = 16)
  | .forwardedCommand q c => fits 16 q && c.wf
  | .forwardedSlotReply q cid seq own mirror count status => fits 16 q && fits 16 cid && fits 64 seq && fits 13 own && fits 13 mirror && fits 8 count && fits 16 status
  | .forwardedReadData q cid lba data guard => fits 16 q && fits 16 cid && fits 48 lba && isBlock data && fits 64 guard
  | .commandFetch q c _ _ => fits 16 q && c.wf
  | .adminCapsule port qpn _ _ => fits 4 port && fits 24 qpn
  | .blockMessage m => m.wf
  | .endMarker m => m.wf
  | .abortMarker m => m.wf
  | .placementAck a => a.wf
  | .drainToStaging _ inst seq volume _ => fits 1 inst && fits 64 seq && fits 16 volume
  | .hardenedHorizon inst horizon tail => fits 1 inst && fits 64 horizon && fits 64 tail
  | .journalGroup inst bytes => fits 1 inst && decide (bytes.length ≤ 16384)
  | .refetchRequest m _ => m.wf
  | .refetchReply m _ => m.wf
  | .refetchTimeout token => fits 16 token
  | .readRelease inst seq _ => fits 1 inst && fits 64 seq
  | .deallocateApply inst seq => fits 1 inst && fits 64 seq
  | .flushComplete inst seq => fits 1 inst && fits 64 seq
  | .writeThroughExit => true
  | .queueThaw q => fits 16 q
  | .stitchSubmit tail => fits 15 tail
  | .stitchAdmit _ _ => true
  | .gdStage _ _ => true
  | .ldhStage _ _ => true
  | .ldsStage _ _ => true
  | .xtdStage _ _ => true
  | .dcStage _ _ => true
  | .mtStage _ _ _ => true
  | .fpStage _ _ => true
  | .dxStage _ _ => true
  | .cpStage _ _ => true
  | .xteStage _ _ => true
  | .geStage _ _ => true
  | .rsStage _ _ => true
  | .engineTimeout _ => true
  | .spareKatDone pool engine _ => fits 3 pool && fits 7 engine
  | .indexPageFetched inst page data => fits 1 inst && fits 34 page && isPage data
  | .verifyCompare _ => true
  | .backgroundDedupResume _ => true
  | .referenceBatch count => fits 16 count
  | .dictInstall dict => fits 10 dict
  | .dictRetire dict => fits 10 dict
  | .dictFree dict => fits 10 dict
  | .dictReservedOp dict => fits 10 dict
  | .mapPageFetched inst tree level ident data => fits 1 inst && fits 3 tree && fits 3 level && fits 64 ident && isPage data
  | .splitHeadAdvance head => fits 19 head
  | .mapPageWriteback inst tree level ident => fits 1 inst && fits 3 tree && fits 3 level && fits 64 ident
  | .writeBackAll => true
  | .objectRead inst index => fits 1 inst && fits 18 index
  | .objectWrite inst index => fits 1 inst && fits 18 index
  | .mcmdReservedOp inst index => fits 1 inst && fits 18 index
  | .hotmapInvalidate => true
  | .superblockPush stream sb => fits 3 stream && fits 28 sb
  | .superblockOpen inst stream => fits 1 inst && fits 3 stream
  | .stripePad sb => fits 28 sb
  | .operationStatus port st => fits 6 port && st.wf
  | .readDataMessage port tag cw _ => fits 6 port && fits 12 tag && decide (cw < 4)
  | .anchorPageWrite inst => fits 1 inst
  | .anchorReplace inst n block => fits 1 inst && fits 1 n && fits 28 block
  | .reclaimStart _ => true
  | .reclaimFinish _ _ => true
  | .reclaimAbort _ => true
  | .reclaimReservedOp _ => true
  | .refreshCheck => true
  | .dieArbiterSlot module die => fits 6 module && fits 8 die
  | .purlTrainingStart port => fits 6 port
  | .purlTrainingTimeout port => fits 6 port
  | .parameterPage port _ _ => fits 6 port
  | .leaseStateReport port _ => fits 6 port
  | .purlFrameDiscard port frames => fits 6 port && frames.all fun f => f.length == 280
  | .purlNak port frame => fits 6 port && decide (frame.length = 280)
  | .purlReplayTimeout port => fits 6 port
  | .purlRecoveryDone port _ => fits 6 port
  | .purlLaneFailing port _ seq _ => fits 6 port && fits 12 seq
  | .opStatusTimeout port tag => fits 6 port && fits 12 tag
  | .alertPowerWarning port => fits 6 port
  | .alertDieFault port die => fits 6 port && fits 8 die
  | .alertTemperature port die => fits 6 port && fits 8 die
  | .alertBridgeRestart port => fits 6 port
  | .alertReserved port code die => fits 6 port && fits 8 code && fits 8 die
  | .paramRead who page die module => who.wf && fits 1 page && fits 8 die && fits 6 module
  | .llrRecompute module die => fits 6 module && fits 8 die
  | .calibrationPass module die group p => fits 6 module && fits 8 die && fits 5 group && (List.range 5).all fun pt => p.any fun x => x.ptype == pt
  | .reconstructSolve sb _ _ => fits 28 sb
  | .modulePresenceChange port _ => fits 6 port
  | .heldLimitExpiry port => fits 6 port
  | .awayLimitExpiry port => fits 6 port
  | .snapshotArm addr set edge count => fits 48 addr && fits 24 set && fits 64 edge && fits 16 count
  | .snapshotCancel set => fits 24 set
  | .sweep volume => fits 16 volume
  | .delta _ older newer count addr start => fits 24 older && fits 24 newer && fits 16 count && fits 48 addr && fits 64 start
  | .snpReservedOp op => fits 4 op
  | .mirroredArm set edge _ _ => fits 24 set && fits 64 edge
  | .cutEdge set => fits 24 set
  | .cutGuardEnd set => fits 24 set
  | .cutSeal set => fits 24 set
  | .sealLimitExpiry set => fits 24 set
  | .replicationData link h _ => fits 6 link && h.wf
  | .replicationZero link h => fits 6 link && h.wf
  | .replicationCut link h => fits 6 link && h.wf
  | .replicationAck link h => fits 6 link && h.wf
  | .syncTimeout link => fits 6 link
  | .roceRequest p => p.wf
  | .roceResponse qpn psn _ _ _ t => fits 24 qpn && fits 24 psn && fits 64 t
  | .roceAck qpn psn => fits 24 qpn && fits 24 psn
  | .roceNak qpn psn _ => fits 24 qpn && fits 24 psn
  | .cnpReceive qpn t => fits 24 qpn && fits 64 t
  | .alphaTimer qpn => fits 24 qpn
  | .increaseTimer qpn => fits 24 qpn
  | .ackTimeout qpn => fits 24 qpn
  | .rnrTimerExpiry qpn => fits 24 qpn
  | .qpContextFetched qpn _ => fits 24 qpn
  | .sendWqe qpn => fits 24 qpn
  | .tallyWaitRelease qpn => fits 24 qpn
  | .tallyWaitTimeout qpn => fits 24 qpn
  | .createQp arg addr => fits 24 arg && fits 48 addr
  | .modifyQpConnected qpn => fits 24 qpn
  | .modifyQpError qpn => fits 24 qpn
  | .destroyQp qpn => fits 24 qpn
  | .createCq cq cls tenant addr _ => fits 16 cq && fits 2 cls && fits 12 tenant && fits 48 addr
  | .destroyCq cq => fits 16 cq
  | .createSrq srq cls tenant addr _ => fits 16 srq && fits 2 cls && fits 12 tenant && fits 48 addr
  | .destroySrq srq => fits 16 srq
  | .tenantReenable tenant => fits 12 tenant
  | .rdtReservedOp op => fits 4 op
  | .ethLinkUp port => fits 4 port
  | .ethLinkDown port => fits 4 port
  | .quarantineRelease pool index => fits 6 pool && fits 26 index
  | .cacheRequest r _ => r.wf
  | .lineFill _ _ => true
  | .victimWritebackDone _ => true
  | .scratchpadAccess off _ _ _ => fits 48 off
  | .rangeClean who => who.wf
  | .rangeCleanInvalidate who => who.wf
  | .rangeInvalidate who => who.wf
  | .rangeReservedOp who => who.wf
  | .patrolScrub _ _ => true
  | .softRepair _ => true
  | .hardRepair _ => true
  | .allocCmd pool tenant => fits 6 pool && fits 12 tenant
  | .bobbinAllocate cls tenant pool => fits 3 cls && fits 12 tenant && fits 6 pool
  | .bobbinFree tenant handle => fits 12 tenant && fits 32 handle
  | .bobbinIncrement tenant handle => fits 12 tenant && fits 32 handle
  | .poolInit pool => fits 6 pool
  | .keyLoad who slot => who.wf && fits 16 slot
  | .keyUnwrap who slot => who.wf && fits 16 slot
  | .keyGenerate who slot => who.wf && fits 16 slot
  | .keyWrap who slot => who.wf && fits 16 slot
  | .keyClear who slot => who.wf && fits 16 slot
  | .keyClearRetired => true
  | .keyQuery who slot => who.wf && fits 16 slot
  | .setPhase who slot => who.wf && fits 16 slot
  | .keyReservedOp who op slot => who.wf && fits 4 op && fits 16 slot
  | .securityAlarm source => fits 3 source
  | .zeroiseRequest who => who.wf
  | .rngGenerate _ => true
  | .rngReseed => true
  | .drbgHealthFailure _ => true
  | .drbgReseedDue => true
  | .dualComputeEnd pool => fits 3 pool
  | .controlSample _ _ _ _ => true
  | .adcRecalibration _ => true
  | .loopSwap who n _ _ => who.wf && fits 2 n
  | .captureImmediate who decim sel => who.wf && fits 8 decim && fits 20 sel
  | .captureHoldupArm who decim sel => who.wf && fits 8 decim && fits 20 sel
  | .captureSatArm who decim sel => who.wf && fits 8 decim && fits 20 sel
  | .captureReservedTrig who decim sel => who.wf && fits 8 decim && fits 20 sel
  | .probe _ => true
  | .probeDischargeEnd _ _ _ _ _ => true
  | .probeRestEnd _ => true
  | .bankChargeTimeout => true
  | .fanFail fan => fits 2 fan
  | .inputLoss _ => true
  | .inputReturn => true
  | .holdupConfirm idle => fits 4 idle
  | .holdupOwnDone => true
  | .holdupShutdown => true
  | .holdupResetRelease straps => straps.wf
  | .vminReached => true
  | .turnEdge t ptp => fits 64 t && fits 64 ptp
  | .turnFrame w => fits 96 w
  | .localEdge t ptp => fits 64 t && fits 64 ptp
  | .pipBoundary t _ => fits 64 t
  | .unlockedTimeout t => fits 64 t
  | .holdoverTimeout t => fits 64 t
  | .firstPlayerEdge t ptp readBack => fits 64 t && fits 64 ptp && fits 96 readBack
  | .trnEnable who w t => who.wf && fits 32 w && fits 64 t
  | .trnDisable who w t => who.wf && fits 32 w && fits 64 t
  | .yield who w t => who.wf && fits 32 w && fits 64 t
  | .tableStatus m => m.wf
  | .ahead m => m.wf
  | .tableStatusSend => true
  | .scheduleSlotFire n => fits 4 n
  | .schedArm who n w => who.wf && fits 4 n && fits 32 w
  | .slotLoad slot => fits 3 slot
  | .slotLoadComplete _ => true
  | .slotUnload slot => fits 3 slot
  | .bind slot mode => fits 3 slot && fits 3 mode
  | .unbind slot mode => fits 3 slot && fits 3 mode
  | .unbindDrained => true
  | .mtfReservedOp op slot => fits 4 op && fits 3 slot
  | .slotOutputTimeout slot => fits 3 slot
  | .slotPowerSample slot _ => fits 3 slot
  | .slotErr slot => fits 3 slot
  | .blkOut slot data _ => fits 3 slot && isBlock data
  | .shellMemAccess slot handle off _ _ => fits 3 slot && fits 32 handle && fits 26 off
  | .shellBobOp slot _ => fits 3 slot
  | .shellQpOp slot _ => fits 3 slot
  | .shellExport slot qpn block => fits 3 slot && fits 24 qpn && isBlock block
  | .updateLoad _ => true
  | .updateStep cls arg => fits 4 cls && fits 8 arg
  | .boundOff => true
  | .boundOn _ => true
  | .stepBindTimeout _ => true
  | .refereeBindTimeout => true
  | .bridgeSend arg => fits 8 arg
  | .fwStatus port code => fits 6 port && fits 8 code
  | .bridgeActivate arg => fits 8 arg
  | .frog => true
  | .confirm => true
  | .dirDone => true
  | .updReservedOp op => fits 4 op
  | .floorRaise who cls _ => who.wf && fits 4 cls
  | .sramRowRepair _ _ _ => true
  | .repairCore cluster core => fits 2 cluster && fits 3 core
  | .rprReservedOp op => fits 4 op
  | .marginWindow t => fits 64 t
  | .regulatorRetry rail _ => decide (rail < 3)
  | .gaugeRefresh => true
  | .tlmRebuild => true
  | .checkpoint => true
  | .exportCmd who slot seg => who.wf && fits 10 slot && fits 17 seg
  | .replay who w => who.wf && fits 32 w
  | .jtagAuth level key sig => decide (level < 256) && key.length == 96 && sig.length == 96
  | .registerWrite who off size value t => who.wf && fits 26 off && decide (size = 4 ∨ size = 8) && fits 64 value && fits 64 t
  | .pairLoRead who off => who.wf && fits 26 off
  | .pairHiWrite who off value => who.wf && fits 26 off && fits 32 value
  | .pairLoWrite who off value => who.wf && fits 26 off && fits 32 value
  | .resultRegisterRead who off => who.wf && fits 26 off
  | .interruptSet who off value => who.wf && fits 26 off && fits 32 value
  | .irqSwap who => who.wf
  | .errFatalClear who mask => who.wf && fits 28 mask
  | .fatalTimerExpiry => true
  | .seatedRemoval => true
  | .partnerPresenceChange _ => true
  | .powerDown => true
  | .repatternStart _ => true
  | .repatternSection _ => true
  | .partnerForfeitRelease => true
  | .qpContextWritebackDone qpn => fits 24 qpn
  | .tcpReceiveData q cid _ hdgst _ ddgst _ => fits 16 q && fits 16 cid && fits 32 hdgst && fits 32 ddgst
  | .pfcFrameReceive port mask pause => fits 4 port && fits 8 mask && fits 16 pause
  | .recoveryImagesWritten => true

end Sys2Proof
end

