-- ==== Sys2Proof/Tests/Slice0.lean ====
section
/-! SUPPORT. The model's own tests: ill-formed commands that well-formedness refuses, worked cases and check values of the
spec, and for each statement a state and operands that meet its hypotheses. -/
set_option Elab.async false
set_option linter.unusedVariables false
namespace Sys2Proof.Tests
set_option maxRecDepth 20000
open Sys2Proof Sys2Proof.Machine

/-- A powered head at reset. -/
def onHead : State := { State.reset with pins := { powered := true } }
/-- The same with register fields set. -/
def onWith (l : List (Fld × Nat)) : State := l.foldl (fun t p => t.setFld p.1 p.2) onHead
/-- An image with nothing in it. -/
def emptyImage : Image := ⟨[], []⟩
/-- A section with no repair. -/
def emptySection : ImageSection := ⟨1, 1, 0, 0, 0, .repairs []⟩
/-- Fuses of a part with nothing blown. -/
def blankFuses : Fuses := ⟨[], [], 0, [], 7, [], 0, [], [], []⟩
/-- A host's command on namespace 1. -/
def aCmd (op : HostOp) : HostCmd := ⟨op, 5, 1, 0, 1, 0, true, 0, [], true, true, false, 0, 0, [], []⟩
/-- A head in service with its link up, register fields and DRAM bytes set. -/
def inPair (l : List (Fld × Nat)) (m : List Host.Cell) : State :=
  { onWith ([(F.GLB_PAIR_STATUS_EFMO_UP, 1), (F.GLB_PAIR_STATUS_STATE, 3)] ++ l) with dram := m }
/-- Tables that give queue 1 to namespace 1 of volume 0: live, with 4,096 bytes of deficit. -/
def hostTables : List Host.Cell :=
  [(2, 1), (3, 2), (8, 1), (0x13, 1), (0x10004C, 1), (0x100059, 0x10), (0x500000, 1)]
/-- A Stitch of a class in a stage, with engine 0. -/
def aStitch (cls stage : Nat) : Stitch := { cls := cls, stage := stage, engine := some 0 }
/-- A head in service with that Stitch in flight as number 1. -/
def inRow (x : Stitch) (l : List (Fld × Nat)) (slots : Tbl KeySlot) : State :=
  { inPair l [] with rows := { stitches := [(1, x)], nextSid := 2 }, sec := { slots := slots } }
/-- A loaded key slot. -/
def aSlot : KeySlot := ⟨zeros 32, false, 0, false, false, 0⟩
/-- Superblock 0 open for stream 0 of instance 0, with nothing in it. -/
def anOpen : OpenSb := ⟨0, 0, 0, 0, 24, 4, [], 0, 0, 0, [], [], [], 8⟩
/-- A parameter page that fits. -/
def aPage : ParamPage :=
  { format := 1, dies := 2, planes := 2, blocks := 1024, pagesQlc := 4096, pagesSlc := 1024, pageBytes := 18432, ptMask := [0xF, 0xF0, 0xF00, 0x7000],
    tReadQlc := 0, tReadSlc := 0, tProgQlc := 0, tProgSlc := 0, tBers := 0, ratedQlc := 0, ratedSlc := 0, onfiRev := 0x500, compat := 0, fwVersion := 0,
    tempMax := 0, reserved := 0, crcOk := true }
/-- An operation of port 3, die 1. -/
def anOp (opcode : Nat) (p : Purpose) : PendOp := ⟨3, ⟨opcode, 0, 7, 0, 0, 0, 2 ^ 28, [], 0⟩, p, [], 0⟩
/-- A head in service whose port 3 is UP with a module that serves. -/
def withPort (l : List (Fld × Nat)) (x : PortSt) (md : MediaSt) : State :=
  { inPair ([(F.MED_PORT_STATUS_UP 3, 1), (F.MED_PORT_STATUS_PRESENT 3, 1), (F.STR_MOD_STATE 3, 1)] ++ l) [] with media := { md with ports := [(3, x)] } }
/-- An object page's leaf, reached by an object write on that head. -/
def aWalked : State × Walk :=
  let v := (((([(F.FTL_MCMD_OP, 2), (F.FTL_MCMD_INSTANCE, 0), (F.FTL_MCMD_INDEX, 4)].foldl (fun t p => t.setFld p.1 p.2) (inPair [] [(5, 7)])).resStart
    0xC00034).setFld F.FTL_MCMD_BUSY 1).modMap fun m => { m with mcmd := some ⟨2, 0, 4, (1, 1)⟩ })
  v.openLeaf 0 4 0 4 (v.nextJseq 0)
/-- A head that holds an epoch of its half, with superblock tables in DRAM at 0 and their statistics above. -/
def withSb (half : Nat) (m : List Host.Cell) : State :=
  inPair [(F.GLB_LEASE_EPOCHS_HALF0, if half = 0 then 1 else 0), (F.FTL_SBS_BASE_LO_BASE_LO, 0x100), (F.FTL_BBT_BASE_LO_BASE_LO, 0x200)] m
/-- A head in service with the snapshot region at 2^32 and volume 0 valid, empty and swept. -/
def snpHead (l : List (Fld × Nat)) (m : List Host.Cell) : State :=
  inPair ([(F.SNP_REGION_BASE_HI_ADDR, 1)] ++ l) ([(8, 1), (0x13, 1)] ++ m)
/-- A set that cuts volume 0 into snapshot 5. -/
def aSet (edge phase : Nat) : CutSet := { id := 7, edge := edge, cuts := [(0, 5)], mirrored := false, phase := phase, guard := decide (phase = 1) }
/-- A message header of link 0. -/
def aHdr (type seq count : Nat) : ReplHdr := ⟨1, type, 0, 0, seq, 0, count, 0, 0, 0, 0, zeros 16⟩
/-- A connected queue pair of the system class. -/
def aQp : Qp := { cls := 0, tenant := 0, port := 0, dest := 77, pmtu := 1, retry := 3, rnrRetry := 3, sqSize := 16, rqSize := 0, srq := 0, scq := 1, rcq := 1,
                  sqAddr := 0x4000, rqAddr := 0, state := 1, sqPsn := 100, rqPsn := 200, retriesLeft := 2, rnrLeft := 1, rc := 1000, rt := 2000, alpha := 65536 }
/-- An unsignaled request that is outstanding with one packet. -/
def aWork (op first last : Nat) : OutWqe := ⟨0, op, 9, first, last, 8, false, 0x8000, 0, none, [], [], []⟩
/-- A head in service with that queue pair 5, its context cached, and completion queue 1. Region 0 of the system class may be read, written
and used for atomics up to address 65,535. -/
def rdtHead (l : List (Fld × Nat)) (m : List Host.Cell) (q : Qp) : State :=
  { inPair ([(F.RDT_CTRL_ENABLE, 1), (F.RDT_MR_BASE_HI_BASE_HI, 1)] ++ l) (m ++ [(2 ^ 32 + 0xA, 1), (2 ^ 32 + 0x12, 0xF)]) with
    rdt := { qps := [(5, q)], cqs := [(1, { cls := 0, tenant := 0, addr := 0x6000, size := 16 })], cache := [5] } }
/-- A request packet of queue pair 5. -/
def aPkt (op : RoceOp) (psn va len : Nat) (data : Bytes) : RocePkt :=
  { qpn := 5, psn := psn, op := op, first := true, last := true, imm := none, va := va, rkey := 0, len := len, data := data, compare := 0, swap := 3,
    persist := false, ackReq := true, ecn := false, whole := true, fieldsOk := true, buffer := false, port := 0, at_ := 0 }
/-- A head in service with slots 0 and 1 as one group of tenant 9 in a state, and the Motif tables at 2^32. -/
def mtfHead (st : Nat) (l : List (Fld × Nat)) (m : List Host.Cell) : State :=
  { inPair ([(F.MTF_REGION_BASE_HI_ADDR, 1), (F.MTF_SLOT_STATUS_STATE 0, st), (F.MTF_SLOT_STATUS_TENANT 0, 9)] ++ l) m with
    pattern := { motif := [[0, 1]] }, mtf := { groups := [(0, {})] } }
/-- The public key that signs the images and responses here, and its signature of something as numbers. -/
def aKey : Bytes := (leBytes 48 0x85e8d781c5058007697ebdb68fdc97606352a04c2650a6144afb14ab7c770447d916fc9f33898a3b426bf4ddc00c61f0).reverse ++ (leBytes 48
  0xd3b3fb883b896b11f493d8e4c144c863a7c2bd12700424d5b045a6ce443bf511db521dcc3831bb0de6c780e6a881886c).reverse
def sigBytes (r s : Nat) : Bytes := (leBytes 48 r).reverse ++ (leBytes 48 s).reverse
/-- An image's header and section table (type, offset, length) for stepping 2.1, and what follows. -/
def imageBytes (cls version base length flags : Nat) (secs : List (Nat × Nat × Nat)) (rest : Bytes) : Bytes :=
  leBytes 4 0x54504E4B ++ leBytes 2 1 ++ leBytes 2 0x100 ++ leBytes 2 0x0A28 ++ [0x21] ++ leBytes 1 cls ++ leBytes 4 length ++ leBytes 4 version ++
    leBytes 2 0 ++ leBytes 2 secs.length ++ zeros 8 ++ leBytes 4 base ++ leBytes 4 flags ++ zeros 216 ++
    secs.flatMap (fun c => leBytes 2 c.1 ++ leBytes 2 1 ++ leBytes 4 c.2.1 ++ leBytes 4 c.2.2 ++ zeros 4) ++ rest
/-- A signed delta Pattern of version 2 for version 1, with the scratch section alone. -/
def aDelta : Bytes := imageBytes 2 2 1 0x210 1 [(5, 0x140, 0)] (zeros 0x30) ++ zeros 16 ++ aKey ++ sigBytes
  0xc7a6d2e47d57cad9435de68f2a860df16b7b58ee6ce0c8f091f0fee98484504325409633ad5d5232eb1bc70715212aa0
  0xbca20aac7d4fb5160d06e3bfd92a85d1269adcf1bf8a00210707b42597be7e9bed70d6a1a85417a36a282d5b4753e184
/-- A signed image of class 1, version 9. -/
def aSigned : Bytes := imageBytes 1 9 0 0x230 0 [(0x100, 0x140, 32)] (zeros 0x50) ++ zeros 16 ++ aKey ++ sigBytes
  0x326729f2291371bd9f6b0c5ffac493fe7a032bb9840385c2488052f5e44fc5bbcf9b89cfdfc4039ce7a33ef144654f57
  0x40c89a4296bca27d02cfa901ee4048a73ecaf924a5f25b56f93510abdc290e1a571e7462b8d01025a82bb49685e154e4
/-- The response of that key to the challenge 0, 1, ... 63 for level 1. -/
def aResponse : Bytes := sigBytes
  0x6821e64e9c5a9235fb1c7a4a2b187a2b149ea3bdcc3464a74fc45b212fb8f6ae9f064e6add6634b57280abbbbbd8e8b
  0xaebc8c7b2580abaecd20f74efa402c8b420e5aa13279415fdebf37fe6eaeced8da7a97b426782236b98091770fd496a8
/-- A signed bitstream of two slots for tenant 9, key slot 0, 16 bytes of ciphertext. -/
def aBitstream : Bytes := leBytes 4 0x4246544D ++ leBytes 2 1 ++ leBytes 2 2 ++ leBytes 2 9 ++ zeros 14 ++ leBytes 4 16 ++ zeros 4 ++ leBytes 2 50 ++ zeros 222 ++
  zeros 32 ++ zeros 16 ++ aKey ++ sigBytes
  0x3e5402ae757f520a546bb609212f7398998fdb8bdd3d46f38b49fe6ec826813b6ee137909e618c2ca576edd03f074ce1
  0xc32958be0ad85310c7279190826a1c60445a36fa1a6faf0f26172da919841edf52c8494a764aa8cf31b9dbcb8efc4154
/-- Bytes in memory from an address on. -/
def cellsAt (a : Nat) (b : Bytes) : List Host.Cell := (b.zipIdx.filter fun p => p.1 != 0).map fun p => (a + p.2, p.1)
/-- Fuses that name that key for images and for debug. -/
def keyFuses : Fuses := { blankFuses with keyHashes := [sha256 aKey], debugKeys := [sha256 aKey] }
/-- The hash of that key as a register file's fields. -/
def keyWords (f : Nat → Fld) : List (Fld × Nat) := (List.range 8).map fun w => (f w, leNat (slice (sha256 aKey) (4 * w) 4))
/-- An image of a class with a compatibility section. -/
def anUpdate (cls version : Nat) : Image := ⟨imageBytes cls version 0 5000 0 [(0x100, 0x140, 32)] (zeros 0x50), []⟩
/-- A head in service with that image staged and checked, in a step or in none. -/
def updHead (cls : Nat) (x : Option UpdStep) (l : List (Fld × Nat)) : State :=
  { inPair ([(F.UPD_STATUS_PHASE, 2)] ++ l) [] with
    upd := { staged := [(cls, anUpdate cls 9)], addr := [(cls, 0x1000)], checked := [cls], step := x } }
/-- A fetch of the leaf page 4 of tree 2 of instance 0 with nothing waiting on it. -/
def aFetch : PageFetch := { inst := 0, tree := 2, level := 0, ident := 4, loc := 0x500, ops := [], rebuilt := false }

/-! ### Well-formed commands: for each check an ill-formed term, refused -/

def okParamPage : ParamPage := ⟨0, 0, 0, 0, 0, 0, 0, [], 0, 0, 0, 0, 0, 0, 0, 0, 0, 0, 0, 0, false⟩
def okStraps : Straps := ⟨0, 0, 0, 0⟩
def okPiIn : PiIn := ⟨0, 0, 0⟩
def okHostCmd : HostCmd := ⟨.read, 0, 0, 0, 0, 0, false, 0, [], false, false, false, 0, 0, [], []⟩
def okBlockMsg : BlockMsg := ⟨0, 0, 0, 0, 0, false, 0, zeros 4096, 0⟩
def okMarker : Marker := ⟨0, 0, 0, 0, 0, false⟩
def okAckMsg : AckMsg := ⟨0, 0, 0, 0, 0, 0, false⟩
def okRefetchMsg : RefetchMsg := ⟨0, 0, 0, 0, 0, 0, 0⟩
def okStateMsg : StateMsg := ⟨0, 0, 0, 0, false, 0, 0⟩
def okParamMsg : ParamMsg := ⟨0, 0, 0, 0, [], []⟩
def okPurlStatus : PurlStatus := ⟨0, 0, 0, 0, 0, 0, 0, 0⟩
def okTableMsg : TableMsg := ⟨0, 0, 0, 0, 0, 0, 0, 0⟩
def okMemReq : MemReq := ⟨0, 0, 0, none⟩
def okRocePkt : RocePkt := ⟨0, 0, .send, false, false, none, 0, 0, 0, [], 0, 0, false, false, false, false, false, false, 0, 0⟩
def okReplHdr : ReplHdr := ⟨0, 0, 0, 0, 0, 0, 0, 0, 0, 0, 0, []⟩
def okProbes : List CalProbe := (List.range 5).map fun k => ⟨k, [], []⟩

theorem test_wf_Straps : okStraps.wf = true ∧ ([
    { okStraps with headId := 2 }, { okStraps with bootMode := 4 }, { okStraps with xspiOctal := 2 }, { okStraps with debugReq := 2 }].all fun x : Straps => !x.wf) = true := by decide +kernel

theorem test_wf_PiIn : okPiIn.wf = true ∧ ([
    { okPiIn with guard := (2 ^ 64) }, { okPiIn with app := 65536 }, { okPiIn with ref := (2 ^ 64) }].all fun x : PiIn => !x.wf) = true := by decide +kernel

theorem test_wf_HostCmd : okHostCmd.wf = true ∧ ([
    { okHostCmd with op := .other 256 }, { okHostCmd with cid := 65536 }, { okHostCmd with nsid := (2 ^ 32) },
    { okHostCmd with slba := (2 ^ 64) }, { okHostCmd with nlb := 65537 }, { okHostCmd with prchk := 8 },
    { okHostCmd with initTag := (2 ^ 64) }, { okHostCmd with ranges := (List.replicate 257 (0, 0)) },
    { okHostCmd with sglAddr := (2 ^ 64) }, { okHostCmd with sglKey := (2 ^ 32) }, { okHostCmd with pi := [⟨2 ^ 64, 0, 0⟩] }].all fun x : HostCmd => !x.wf) = true := by decide +kernel

theorem test_wf_BlockMsg : okBlockMsg.wf = true ∧ ([
    { okBlockMsg with seq := (2 ^ 64) }, { okBlockMsg with slot := 8192 }, { okBlockMsg with mask := 256 },
    { okBlockMsg with volume := 65536 }, { okBlockMsg with index := 256 }, { okBlockMsg with lba := (2 ^ 48) },
    { okBlockMsg with data := [] }, { okBlockMsg with guard := (2 ^ 64) }].all fun x : BlockMsg => !x.wf) = true := by decide +kernel

theorem test_wf_Marker : okMarker.wf = true ∧ ([
    { okMarker with seq := (2 ^ 64) }, { okMarker with firstSlot := 8192 }, { okMarker with count := 65 },
    { okMarker with fold := (2 ^ 64) }].all fun x : Marker => !x.wf) = true := by decide +kernel

theorem test_wf_AckMsg : okAckMsg.wf = true ∧ ([
    { okAckMsg with seq := (2 ^ 64) }, { okAckMsg with firstSlot := 8192 }, { okAckMsg with count := 65 },
    { okAckMsg with status := 256 }, { okAckMsg with failing := 256 }, { okAckMsg with credit := 65536 }].all fun x : AckMsg => !x.wf) = true := by decide +kernel

theorem test_wf_RefetchMsg : okRefetchMsg.wf = true ∧ ([
    { okRefetchMsg with seq := (2 ^ 64) }, { okRefetchMsg with lba := (2 ^ 48) }, { okRefetchMsg with volume := 65536 },
    { okRefetchMsg with block := 256 }, { okRefetchMsg with status := 256 }, { okRefetchMsg with token := 65536 }].all fun x : RefetchMsg => !x.wf) = true := by decide +kernel

theorem test_wf_StateMsg : okStateMsg.wf = true ∧ ([
    { okStateMsg with headState := 8 }, { okStateMsg with epoch0 := 65536 }, { okStateMsg with epoch1 := 65536 },
    { okStateMsg with level := (2 ^ 32) }, { okStateMsg with peerMin := (2 ^ 32) }].all fun x : StateMsg => !x.wf) = true := by decide +kernel

theorem test_wf_ParamMsg : okParamMsg.wf = true ∧ ([
    { okParamMsg with headId := 2 }, { okParamMsg with headState := 8 }, { okParamMsg with epoch0 := 65536 },
    { okParamMsg with epoch1 := 65536 }].all fun x : ParamMsg => !x.wf) = true := by decide +kernel

theorem test_wf_PurlStatus : okPurlStatus.wf = true ∧ ([
    { okPurlStatus with opcode := 256 }, { okPurlStatus with status := 256 }, { okPurlStatus with tag := 4096 },
    { okPurlStatus with suspends := 256 }, { okPurlStatus with epoch := 65536 }, { okPurlStatus with busyUs := (2 ^ 32) },
    { okPurlStatus with dataLen := (2 ^ 32) }].all fun x : PurlStatus => !x.wf) = true := by decide +kernel

theorem test_wf_TableMsg : okTableMsg.wf = true ∧ ([
    { okTableMsg with format := 65536 }, { okTableMsg with type := 256 }, { okTableMsg with seat := 256 },
    { okTableMsg with state := 256 }, { okTableMsg with flags := 256 }, { okTableMsg with epoch := 256 },
    { okTableMsg with count := (2 ^ 64) }].all fun x : TableMsg => !x.wf) = true := by decide +kernel

theorem test_wf_MemReq : okMemReq.wf = true ∧ ([
    { okMemReq with cls := 8 }, { okMemReq with addr := (2 ^ 48) }, { okMemReq with len := 65 }, { okMemReq with data := some [0] }].all fun x : MemReq => !x.wf) = true := by decide +kernel

theorem test_wf_RocePkt : okRocePkt.wf = true ∧ ([
    { okRocePkt with qpn := (2 ^ 24) }, { okRocePkt with psn := (2 ^ 24) }, { okRocePkt with va := (2 ^ 64) },
    { okRocePkt with rkey := (2 ^ 32) }, { okRocePkt with len := (2 ^ 32) }, { okRocePkt with compare := (2 ^ 64) },
    { okRocePkt with swap := (2 ^ 64) }, { okRocePkt with port := 16 }].all fun x : RocePkt => !x.wf) = true := by decide +kernel

theorem test_wf_ReplHdr : okReplHdr.wf = true ∧ ([
    { okReplHdr with format := 65536 }, { okReplHdr with type := 256 }, { okReplHdr with status := 256 },
    { okReplHdr with linkTag := (2 ^ 32) }, { okReplHdr with seq := (2 ^ 64) }, { okReplHdr with lba := (2 ^ 48) },
    { okReplHdr with volume := 65536 }, { okReplHdr with cutStamp := (2 ^ 64) }, { okReplHdr with fixed := (2 ^ 32) }].all fun x : ReplHdr => !x.wf) = true := by decide +kernel

theorem test_wf_Requester : (Requester.hart 32).wf = false ∧ (HostOp.other 256).wf = false := by decide

theorem test_wf_refuses_1 : ([
    .castOnStart ({ okStraps with headId := 2 }) false, .journalGapRequest 2 0, .journalGapRequest 0 (2 ^ 64),
    .missingGroupsReply 2 [], .missingGroupsReply 0 [zeros 16385], .lastSequence (2 ^ 64) 0, .lastSequence 0 (2 ^ 64),
    .finalJseq (2 ^ 64), .forfeit (.hart 32) 0, .forfeit .referee 256, .leaseClaimTimeout 2,
    .parameterExchange ({ okParamMsg with headId := 2 }) [], .efmoFlitDiscard [[]], .efmoNak [], .efmoLaneFailing 0 4096 false,
    .laneSpare 0 0 4096, .stateMessage ({ okStateMsg with headState := 8 }), .refereeMessage (2 ^ 32) 0 [] (zeros 16),
    .refereeMessage 0 (2 ^ 64) [] (zeros 16), .refereeMessage 0 0 [] [], .forwardedCommand 65536 okHostCmd,
    .forwardedCommand 0 ({ okHostCmd with op := .other 256 }), .forwardedSlotReply 65536 0 0 0 0 0 0,
    .forwardedSlotReply 0 65536 0 0 0 0 0, .forwardedSlotReply 0 0 (2 ^ 64) 0 0 0 0, .forwardedSlotReply 0 0 0 8192 0 0 0,
    .forwardedSlotReply 0 0 0 0 8192 0 0, .forwardedSlotReply 0 0 0 0 0 256 0, .forwardedSlotReply 0 0 0 0 0 0 65536,
    .forwardedReadData 65536 0 0 (zeros 4096) 0, .forwardedReadData 0 65536 0 (zeros 4096) 0,
    .forwardedReadData 0 0 (2 ^ 48) (zeros 4096) 0, .forwardedReadData 0 0 0 [] 0, .forwardedReadData 0 0 0 (zeros 4096) (2 ^ 64),
    .commandFetch 65536 okHostCmd false false, .commandFetch 0 ({ okHostCmd with op := .other 256 }) false false,
    .adminCapsule 16 0 0 [], .adminCapsule 0 (2 ^ 24) 0 [], .blockMessage ({ okBlockMsg with seq := (2 ^ 64) }),
    .endMarker ({ okMarker with seq := (2 ^ 64) }), .abortMarker ({ okMarker with seq := (2 ^ 64) }),
    .placementAck ({ okAckMsg with seq := (2 ^ 64) }), .drainToStaging false 2 0 0 [], .drainToStaging false 0 (2 ^ 64) 0 [],
    .drainToStaging false 0 0 65536 [], .hardenedHorizon 2 0 0, .hardenedHorizon 0 (2 ^ 64) 0, .hardenedHorizon 0 0 (2 ^ 64),
    .journalGroup 2 [], .journalGroup 0 (zeros 16385), .refetchRequest ({ okRefetchMsg with seq := (2 ^ 64) }) false,
    .refetchReply ({ okRefetchMsg with seq := (2 ^ 64) }) none, .refetchTimeout 65536, .readRelease 2 0 [], .readRelease 0 (2 ^ 64) [],
    .deallocateApply 2 0, .deallocateApply 0 (2 ^ 64), .flushComplete 2 0, .flushComplete 0 (2 ^ 64), .queueThaw 65536].all fun c : Instr => !c.wf) = true := by decide +kernel

theorem test_wf_refuses_2 : ([
    .stitchSubmit 32768, .spareKatDone 8 0 false, .spareKatDone 0 128 false, .indexPageFetched 2 0 none,
    .indexPageFetched 0 (2 ^ 34) none, .indexPageFetched 0 0 (some []), .referenceBatch 65536, .dictInstall 1024, .dictRetire 1024,
    .dictFree 1024, .dictReservedOp 1024, .mapPageFetched 2 0 0 0 none, .mapPageFetched 0 8 0 0 none, .mapPageFetched 0 0 8 0 none,
    .mapPageFetched 0 0 0 (2 ^ 64) none, .mapPageFetched 0 0 0 0 (some []), .splitHeadAdvance (2 ^ 19), .mapPageWriteback 2 0 0 0,
    .mapPageWriteback 0 8 0 0, .mapPageWriteback 0 0 8 0, .mapPageWriteback 0 0 0 (2 ^ 64), .objectRead 2 0, .objectRead 0 (2 ^ 18),
    .objectWrite 2 0, .objectWrite 0 (2 ^ 18), .mcmdReservedOp 2 0, .mcmdReservedOp 0 (2 ^ 18), .superblockPush 8 0,
    .superblockPush 0 (2 ^ 28), .superblockOpen 2 0, .superblockOpen 0 8, .stripePad (2 ^ 28), .operationStatus 64 okPurlStatus,
    .operationStatus 0 ({ okPurlStatus with opcode := 256 }), .readDataMessage 64 0 0 [], .readDataMessage 0 4096 0 [],
    .readDataMessage 0 0 4 [], .anchorPageWrite 2, .anchorReplace 2 0 0, .anchorReplace 0 2 0, .anchorReplace 0 0 (2 ^ 28),
    .dieArbiterSlot 64 0, .dieArbiterSlot 0 256, .purlTrainingStart 64, .purlTrainingTimeout 64, .parameterPage 64 okParamPage [],
    .leaseStateReport 64 [], .purlFrameDiscard 64 [], .purlFrameDiscard 0 [[]], .purlNak 64 (zeros 280), .purlNak 0 [],
    .purlReplayTimeout 64, .purlRecoveryDone 64 false, .purlLaneFailing 64 0 0 false, .purlLaneFailing 0 0 4096 false,
    .opStatusTimeout 64 0, .opStatusTimeout 0 4096, .alertPowerWarning 64, .alertDieFault 64 0, .alertDieFault 0 256].all fun c : Instr => !c.wf) = true := by decide +kernel

theorem test_wf_refuses_3 : ([
    .alertTemperature 64 0, .alertTemperature 0 256, .alertBridgeRestart 64, .alertReserved 64 0 0, .alertReserved 0 256 0,
    .alertReserved 0 0 256, .paramRead (.hart 32) 0 0 0, .paramRead .referee 2 0 0, .paramRead .referee 0 256 0,
    .paramRead .referee 0 0 64, .llrRecompute 64 0, .llrRecompute 0 256, .calibrationPass 64 0 0 okProbes,
    .calibrationPass 0 256 0 okProbes, .calibrationPass 0 0 32 okProbes, .calibrationPass 0 0 0 [], .reconstructSolve (2 ^ 28) 0 0,
    .modulePresenceChange 64 false, .heldLimitExpiry 64, .awayLimitExpiry 64, .snapshotArm (2 ^ 48) 0 0 0, .snapshotArm 0 (2 ^ 24) 0 0,
    .snapshotArm 0 0 (2 ^ 64) 0, .snapshotArm 0 0 0 65536, .snapshotCancel (2 ^ 24), .sweep 65536, .delta false (2 ^ 24) 0 0 0 0,
    .delta false 0 (2 ^ 24) 0 0 0, .delta false 0 0 65536 0 0, .delta false 0 0 0 (2 ^ 48) 0, .delta false 0 0 0 0 (2 ^ 64),
    .snpReservedOp 16, .mirroredArm (2 ^ 24) 0 [] false, .mirroredArm 0 (2 ^ 64) [] false, .cutEdge (2 ^ 24), .cutGuardEnd (2 ^ 24),
    .cutSeal (2 ^ 24), .sealLimitExpiry (2 ^ 24), .replicationData 64 okReplHdr [],
    .replicationData 0 ({ okReplHdr with format := 65536 }) [], .replicationZero 64 okReplHdr,
    .replicationZero 0 ({ okReplHdr with format := 65536 }), .replicationCut 64 okReplHdr,
    .replicationCut 0 ({ okReplHdr with format := 65536 }), .replicationAck 64 okReplHdr,
    .replicationAck 0 ({ okReplHdr with format := 65536 }), .syncTimeout 64, .roceRequest ({ okRocePkt with qpn := (2 ^ 24) }),
    .roceResponse (2 ^ 24) 0 [] [] false 0, .roceResponse 0 (2 ^ 24) [] [] false 0, .roceResponse 0 0 [] [] false (2 ^ 64),
    .roceAck (2 ^ 24) 0, .roceAck 0 (2 ^ 24), .roceNak (2 ^ 24) 0 .rnr, .roceNak 0 (2 ^ 24) .rnr, .cnpReceive (2 ^ 24) 0,
    .cnpReceive 0 (2 ^ 64), .alphaTimer (2 ^ 24), .increaseTimer (2 ^ 24), .ackTimeout (2 ^ 24)].all fun c : Instr => !c.wf) = true := by decide +kernel

theorem test_wf_refuses_4 : ([
    .rnrTimerExpiry (2 ^ 24), .qpContextFetched (2 ^ 24) false, .sendWqe (2 ^ 24), .tallyWaitRelease (2 ^ 24),
    .tallyWaitTimeout (2 ^ 24), .createQp (2 ^ 24) 0, .createQp 0 (2 ^ 48), .modifyQpConnected (2 ^ 24), .modifyQpError (2 ^ 24),
    .destroyQp (2 ^ 24), .createCq 65536 0 0 0 0, .createCq 0 4 0 0 0, .createCq 0 0 4096 0 0, .createCq 0 0 0 (2 ^ 48) 0,
    .destroyCq 65536, .createSrq 65536 0 0 0 0, .createSrq 0 4 0 0 0, .createSrq 0 0 4096 0 0, .createSrq 0 0 0 (2 ^ 48) 0,
    .destroySrq 65536, .tenantReenable 4096, .rdtReservedOp 16, .ethLinkUp 16, .ethLinkDown 16, .quarantineRelease 64 0,
    .quarantineRelease 0 (2 ^ 26), .cacheRequest ({ okMemReq with cls := 8 }) .none, .scratchpadAccess (2 ^ 48) 0 none .none,
    .rangeClean (.hart 32), .rangeCleanInvalidate (.hart 32), .rangeInvalidate (.hart 32), .rangeReservedOp (.hart 32), .allocCmd 64 0,
    .allocCmd 0 4096, .bobbinAllocate 8 0 0, .bobbinAllocate 0 4096 0, .bobbinAllocate 0 0 64, .bobbinFree 4096 0,
    .bobbinFree 0 (2 ^ 32), .bobbinIncrement 4096 0, .bobbinIncrement 0 (2 ^ 32), .poolInit 64, .keyLoad (.hart 32) 0,
    .keyLoad .referee 65536, .keyUnwrap (.hart 32) 0, .keyUnwrap .referee 65536, .keyGenerate (.hart 32) 0,
    .keyGenerate .referee 65536, .keyWrap (.hart 32) 0, .keyWrap .referee 65536, .keyClear (.hart 32) 0, .keyClear .referee 65536,
    .keyQuery (.hart 32) 0, .keyQuery .referee 65536, .setPhase (.hart 32) 0, .setPhase .referee 65536, .keyReservedOp (.hart 32) 0 0,
    .keyReservedOp .referee 16 0, .keyReservedOp .referee 0 65536, .securityAlarm 8].all fun c : Instr => !c.wf) = true := by decide +kernel

theorem test_wf_refuses_5 : ([
    .zeroiseRequest (.hart 32), .dualComputeEnd 8, .loopSwap (.hart 32) 0 false false, .loopSwap .referee 4 false false,
    .captureImmediate (.hart 32) 0 0, .captureImmediate .referee 256 0, .captureImmediate .referee 0 (2 ^ 20),
    .captureHoldupArm (.hart 32) 0 0, .captureHoldupArm .referee 256 0, .captureHoldupArm .referee 0 (2 ^ 20),
    .captureSatArm (.hart 32) 0 0, .captureSatArm .referee 256 0, .captureSatArm .referee 0 (2 ^ 20),
    .captureReservedTrig (.hart 32) 0 0, .captureReservedTrig .referee 256 0, .captureReservedTrig .referee 0 (2 ^ 20), .fanFail 4,
    .holdupConfirm 16, .holdupResetRelease ({ okStraps with headId := 2 }), .turnEdge (2 ^ 64) 0, .turnEdge 0 (2 ^ 64),
    .turnFrame (2 ^ 96), .localEdge (2 ^ 64) 0, .localEdge 0 (2 ^ 64), .pipBoundary (2 ^ 64) [], .unlockedTimeout (2 ^ 64),
    .holdoverTimeout (2 ^ 64), .firstPlayerEdge (2 ^ 64) 0 0, .firstPlayerEdge 0 (2 ^ 64) 0, .firstPlayerEdge 0 0 (2 ^ 96),
    .trnEnable (.hart 32) 0 0, .trnEnable .referee (2 ^ 32) 0, .trnEnable .referee 0 (2 ^ 64), .trnDisable (.hart 32) 0 0,
    .trnDisable .referee (2 ^ 32) 0, .trnDisable .referee 0 (2 ^ 64), .yield (.hart 32) 0 0, .yield .referee (2 ^ 32) 0,
    .yield .referee 0 (2 ^ 64), .tableStatus ({ okTableMsg with format := 65536 }), .ahead ({ okTableMsg with format := 65536 }),
    .scheduleSlotFire 16, .schedArm (.hart 32) 0 0, .schedArm .referee 16 0, .schedArm .referee 0 (2 ^ 32), .slotLoad 8, .slotUnload 8,
    .bind 8 0, .bind 0 8, .unbind 8 0, .unbind 0 8, .mtfReservedOp 16 0, .mtfReservedOp 0 8, .slotOutputTimeout 8,
    .slotPowerSample 8 0, .slotErr 8, .blkOut 8 (zeros 4096) false, .blkOut 0 [] false, .shellMemAccess 8 0 0 none .none,
    .shellMemAccess 0 (2 ^ 32) 0 none .none].all fun c : Instr => !c.wf) = true := by decide +kernel

theorem test_wf_refuses_6 : ([
    .shellMemAccess 0 0 (2 ^ 26) none .none, .shellBobOp 8 (.alloc 0), .shellQpOp 8 (.readCq 0 0), .shellExport 8 0 (zeros 4096),
    .shellExport 0 (2 ^ 24) (zeros 4096), .shellExport 0 0 [], .updateStep 16 0, .updateStep 0 256, .bridgeSend 256, .fwStatus 64 0,
    .fwStatus 0 256, .bridgeActivate 256, .updReservedOp 16, .floorRaise (.hart 32) 0 [], .floorRaise .referee 16 [], .repairCore 4 0,
    .repairCore 0 8, .rprReservedOp 16, .marginWindow (2 ^ 64), .regulatorRetry 3 false, .exportCmd (.hart 32) 0 0,
    .exportCmd .referee 1024 0, .exportCmd .referee 0 (2 ^ 17), .replay (.hart 32) 0, .replay .referee (2 ^ 32),
    .jtagAuth 256 (zeros 96) (zeros 96), .jtagAuth 0 [] (zeros 96), .jtagAuth 0 (zeros 96) [], .registerWrite (.hart 32) 0 4 0 0,
    .registerWrite .referee (2 ^ 26) 4 0 0, .registerWrite .referee 0 5 0 0, .registerWrite .referee 0 4 (2 ^ 64) 0,
    .registerWrite .referee 0 4 0 (2 ^ 64), .pairLoRead (.hart 32) 0, .pairLoRead .referee (2 ^ 26), .pairHiWrite (.hart 32) 0 0,
    .pairHiWrite .referee (2 ^ 26) 0, .pairHiWrite .referee 0 (2 ^ 32), .pairLoWrite (.hart 32) 0 0, .pairLoWrite .referee (2 ^ 26) 0,
    .pairLoWrite .referee 0 (2 ^ 32), .resultRegisterRead (.hart 32) 0, .resultRegisterRead .referee (2 ^ 26),
    .interruptSet (.hart 32) 0 0, .interruptSet .referee (2 ^ 26) 0, .interruptSet .referee 0 (2 ^ 32), .irqSwap (.hart 32),
    .errFatalClear (.hart 32) 0, .errFatalClear .referee (2 ^ 28), .qpContextWritebackDone (2 ^ 24),
    .tcpReceiveData 65536 0 [] 0 [] 0 [], .tcpReceiveData 0 65536 [] 0 [] 0 [], .tcpReceiveData 0 0 [] (2 ^ 32) [] 0 [],
    .tcpReceiveData 0 0 [] 0 [] (2 ^ 32) [], .pfcFrameReceive 16 0 0, .pfcFrameReceive 0 256 0, .pfcFrameReceive 0 0 65536].all fun c : Instr => !c.wf) = true := by decide +kernel

theorem test_wf_takes_1 : ([
    .castOnStart okStraps false, .journalGapRequest 0 0, .missingGroupsReply 0 [], .lastSequence 0 0, .finalJseq 0,
    .forfeit .referee 0, .leaseClaimTimeout 0, .parameterExchange okParamMsg [], .efmoFlitDiscard [], .efmoNak (zeros 256),
    .efmoLaneFailing 0 0 false, .laneSpare 0 0 0, .stateMessage okStateMsg, .refereeMessage 0 0 [] (zeros 16),
    .forwardedCommand 0 okHostCmd, .forwardedSlotReply 0 0 0 0 0 0 0, .forwardedReadData 0 0 0 (zeros 4096) 0,
    .commandFetch 0 okHostCmd false false, .adminCapsule 0 0 0 [], .blockMessage okBlockMsg, .endMarker okMarker,
    .abortMarker okMarker, .placementAck okAckMsg, .drainToStaging false 0 0 0 [], .hardenedHorizon 0 0 0, .journalGroup 0 [],
    .refetchRequest okRefetchMsg false, .refetchReply okRefetchMsg none, .refetchTimeout 0, .readRelease 0 0 [], .deallocateApply 0 0,
    .flushComplete 0 0, .queueThaw 0, .stitchSubmit 0, .spareKatDone 0 0 false, .indexPageFetched 0 0 none, .referenceBatch 0,
    .dictInstall 0, .dictRetire 0, .dictFree 0, .dictReservedOp 0, .mapPageFetched 0 0 0 0 none, .splitHeadAdvance 0,
    .mapPageWriteback 0 0 0 0, .objectRead 0 0, .objectWrite 0 0, .mcmdReservedOp 0 0, .superblockPush 0 0, .superblockOpen 0 0,
    .stripePad 0, .operationStatus 0 okPurlStatus, .readDataMessage 0 0 0 [], .anchorPageWrite 0, .anchorReplace 0 0 0,
    .dieArbiterSlot 0 0, .purlTrainingStart 0, .purlTrainingTimeout 0, .parameterPage 0 okParamPage [], .leaseStateReport 0 [],
    .purlFrameDiscard 0 [], .purlNak 0 (zeros 280), .purlReplayTimeout 0, .purlRecoveryDone 0 false, .purlLaneFailing 0 0 0 false,
    .opStatusTimeout 0 0, .alertPowerWarning 0, .alertDieFault 0 0, .alertTemperature 0 0, .alertBridgeRestart 0, .alertReserved 0 0 0].all fun c : Instr => c.wf) = true := by decide +kernel

theorem test_wf_takes_2 : ([
    .paramRead .referee 0 0 0, .llrRecompute 0 0, .calibrationPass 0 0 0 okProbes, .reconstructSolve 0 0 0,
    .modulePresenceChange 0 false, .heldLimitExpiry 0, .awayLimitExpiry 0, .snapshotArm 0 0 0 0, .snapshotCancel 0, .sweep 0,
    .delta false 0 0 0 0 0, .snpReservedOp 0, .mirroredArm 0 0 [] false, .cutEdge 0, .cutGuardEnd 0, .cutSeal 0, .sealLimitExpiry 0,
    .replicationData 0 okReplHdr [], .replicationZero 0 okReplHdr, .replicationCut 0 okReplHdr, .replicationAck 0 okReplHdr,
    .syncTimeout 0, .roceRequest okRocePkt, .roceResponse 0 0 [] [] false 0, .roceAck 0 0, .roceNak 0 0 .rnr, .cnpReceive 0 0,
    .alphaTimer 0, .increaseTimer 0, .ackTimeout 0, .rnrTimerExpiry 0, .qpContextFetched 0 false, .sendWqe 0, .tallyWaitRelease 0,
    .tallyWaitTimeout 0, .createQp 0 0, .modifyQpConnected 0, .modifyQpError 0, .destroyQp 0, .createCq 0 0 0 0 0, .destroyCq 0,
    .createSrq 0 0 0 0 0, .destroySrq 0, .tenantReenable 0, .rdtReservedOp 0, .ethLinkUp 0, .ethLinkDown 0, .quarantineRelease 0 0,
    .cacheRequest okMemReq .none, .scratchpadAccess 0 0 none .none, .rangeClean .referee, .rangeCleanInvalidate .referee,
    .rangeInvalidate .referee, .rangeReservedOp .referee, .allocCmd 0 0, .bobbinAllocate 0 0 0, .bobbinFree 0 0, .bobbinIncrement 0 0,
    .poolInit 0, .keyLoad .referee 0, .keyUnwrap .referee 0, .keyGenerate .referee 0, .keyWrap .referee 0, .keyClear .referee 0,
    .keyQuery .referee 0, .setPhase .referee 0, .keyReservedOp .referee 0 0, .securityAlarm 0, .zeroiseRequest .referee,
    .dualComputeEnd 0].all fun c : Instr => c.wf) = true := by decide +kernel

theorem test_wf_takes_3 : ([
    .loopSwap .referee 0 false false, .captureImmediate .referee 0 0, .captureHoldupArm .referee 0 0, .captureSatArm .referee 0 0,
    .captureReservedTrig .referee 0 0, .fanFail 0, .holdupConfirm 0, .holdupResetRelease okStraps, .turnEdge 0 0, .turnFrame 0,
    .localEdge 0 0, .pipBoundary 0 [], .unlockedTimeout 0, .holdoverTimeout 0, .firstPlayerEdge 0 0 0, .trnEnable .referee 0 0,
    .trnDisable .referee 0 0, .yield .referee 0 0, .tableStatus okTableMsg, .ahead okTableMsg, .scheduleSlotFire 0,
    .schedArm .referee 0 0, .slotLoad 0, .slotUnload 0, .bind 0 0, .unbind 0 0, .mtfReservedOp 0 0, .slotOutputTimeout 0,
    .slotPowerSample 0 0, .slotErr 0, .blkOut 0 (zeros 4096) false, .shellMemAccess 0 0 0 none .none, .shellBobOp 0 (.alloc 0),
    .shellQpOp 0 (.readCq 0 0), .shellExport 0 0 (zeros 4096), .updateStep 0 0, .bridgeSend 0, .fwStatus 0 0, .bridgeActivate 0,
    .updReservedOp 0, .floorRaise .referee 0 [], .repairCore 0 0, .rprReservedOp 0, .marginWindow 0, .regulatorRetry 0 false,
    .exportCmd .referee 0 0, .replay .referee 0, .jtagAuth 0 (zeros 96) (zeros 96), .registerWrite .referee 0 4 0 0,
    .pairLoRead .referee 0, .pairHiWrite .referee 0 0, .pairLoWrite .referee 0 0, .resultRegisterRead .referee 0,
    .interruptSet .referee 0 0, .irqSwap .referee, .errFatalClear .referee 0, .qpContextWritebackDone 0,
    .tcpReceiveData 0 0 [] 0 [] 0 [], .pfcFrameReceive 0 0 0].all fun c : Instr => c.wf) = true := by decide +kernel

/-! ### Worked cases of the spec, and its check values -/

def ascii9 : Bytes := [0x31, 0x32, 0x33, 0x34, 0x35, 0x36, 0x37, 0x38, 0x39]

/-- The check values that R101 and R165 give. -/
theorem test_crc_check_values : carryGuard ascii9 = 0xAE8B14860A799888 ∧ crc8 ascii9 = 0xF4 := by decide +kernel

/-- The IV worked in 15. -/
theorem test_gcm_iv : gcmIv 0x0A0B0C0D (5 * 64 + 3) = [0x0D, 0x0C, 0x0B, 0x0A, 0x43, 1, 0, 0, 0, 0, 0, 0] := by decide +kernel

/-- Two cases of the worked table of 06: lengths 1,203 and 3,601 under MAX_CLASS 7, the second raw. -/
theorem test_slot_class : slotClassOf 7 1203 = 3 ∧ slotClassOf 7 3601 = 15 ∧ slotClassOf 8 3601 = 8 ∧ slotClassOf 7 4132 = 15 := by decide

/-- The stripe of the worked case of 07: K 16, M 2, s 5. -/
theorem test_stripe_rotation : memberOf 18 12 5 = 17 ∧ memberOf 18 13 5 = 0 ∧ memberOf 18 16 5 = 3 ∧ memberOf 18 17 6 = 5 := by decide

/-- The fast target at the three stages of the worked case of 07, and where it settles. -/
theorem test_fast_target : fastTarget 100000 99229 0 50 0x40 1000 20000 = 20000 ∧ fastTarget 100000 31229 8000 50 0x40 1000 20000 = 8557 ∧
    fastTarget 100000 8229 6000 50 0x40 1000 20000 = 2307 ∧ fastTarget 100000 11183 2061 50 0x40 1000 20000 = 2061 := by decide

/-- The share of the worked case of 08. -/
theorem test_reclaim_share : shareOf 32 128 700 1024 256 = 73 ∧ shareOf 32 128 1024 1024 256 = 32 := by decide

/-- The LLR of the worked case of 09, and its calibration and read offset. -/
theorem test_llr_and_offset : llrOf 3 1 3000 700 0 = 4 ∧ calStep 412 596 8 2 32 32 (-88) = -94 ∧ offsetOf (-410) 70 45 12 10 6 (-94) = -11 := by
  decide +kernel

/-- The ledger of the worked case of 16 at year 20: the use, and the limit that a change of the cost leaves. -/
def year20 : State := onWith [(F.CTL_BANK_C_LOW_UF, 372400), (F.CTL_BANK_ESR_HIGH_UO, 24000), (F.CTL_BANK_V_VBANK_MV, 48000),
  (F.CTL_BANK_SAMPLES_N, 1), (F.CTL_BANK_SAMPLES_N_ESR, 1), (F.CTL_CTRL_ENABLE, 1), (F.GLB_FLUSH_COST_ENERGY_MJ, 8907)]
theorem test_ledger : year20.eta = 60817 ∧ year20.extractable 47900 = 327339727 ∧
    year20.ledger.pair F.CMT_DIRTY_LIMIT_LO_LIMIT_LO F.CMT_DIRTY_LIMIT_HI_LIMIT_HI = 32227893248 := by decide +kernel

/-- The measured flush of the worked case of 02. -/
theorem test_flush_cost : ceilDiv 17813402 (1000 * 2) = 8907 ∧ ceilDiv 14611 2 = 7306 := by decide

/-- Published answers: AES-256 of the zero block under the zero key begins DC 95 (R351), SHA-256 of "abc" BA 78 16 BF. -/
theorem test_known_answers : keyCheck (zeros 32) = 0x95DC ∧ (sha256 [0x61, 0x62, 0x63]).take 4 = [0xBA, 0x78, 0x16, 0xBF] := by decide +kernel

/-- A published ECDSA answer: P-384 with SHA-256 of "sample" (RFC 6979, A.2.6) verifies, and not of another message. -/
theorem test_ecdsa : (["sample", "Sample"].map fun m => ecdsaOk
    0xEC3A4E415B4E19A4568618029F427FA5DA9A8BC4AE92E02E06AAE5286B300C64DEF8F0EA9055866064A254515480BC13
    0x8015D9B72D7D57244EA8EF9AC0C621896708A59367F9DFB9F54CA84B3F1C9DB1288B231C3AE0D4FE7344FD2533264720
    0x21B13D1E013C7FA1392D03C5F99AF8B30C570C6F98D4EA8E354B63A21D3DAA33BDE1E888E63355D92FA2B3C36D8FB2CD
    0xF3AA443FB107745BF4BD77CB3891674632068A10CA67E3D45DB2266FA7D1FEEBEFDC63ECCD1AC42EC0CB8668A4FA0AB0
    (beNat (sha256 (m.toList.map fun c => BitVec.ofNat 8 c.toNat)))) = [true, false] := by decide +kernel

/-- A TURN frame and a block message are read back as they were sent; a frame with a bit of its CRC wrong is none. -/
theorem test_frames_round_trip : readFrame (frameBits 0xABCDEF0123 5 200) = some ⟨0xABCDEF0123, 5, 200⟩ ∧
    readFrame (frameBits 0xABCDEF0123 5 200 + 2 ^ 80) = none ∧ readFrame (frameBits 0xABCDEF0123 5 200 + 2 ^ 95) = none ∧
    { readBlock (blockBytes4K ⟨2 ^ 64 - 1, 8191, 0xA5, 65535, 63, true, 2 ^ 48 - 1, zeros 4096, 7⟩) with data := [] } =
      ⟨2 ^ 64 - 1, 8191, 0xA5, 65535, 63, true, 2 ^ 48 - 1, [], 7⟩ := by
  decide +kernel

/-- What a meaning answers, for the tests below. -/
def after : Result → State
  | .next t => t
  | _ => .reset

/-- The worked case of 22: a core's latch holds LOOKUPS_HI through the wrap, and PCIe's read does not disturb it. -/
def wrapped : State :=
  let s := onWith [(F.DDP_LOOKUPS_LO_COUNT, 0xFF000000), (F.DDP_LOOKUPS_HI_COUNT, 0xFFFFFFFF)]
  let t := after (execPairLoRead (.hart 0) 0xA00040 s)
  after (execPairLoRead .pcie 0xA00040 ((t.setFld F.DDP_LOOKUPS_LO_COUNT 0).setFld F.DDP_LOOKUPS_HI_COUNT 0))
theorem test_latch_holds : (wrapped.latched (.hart 0)).get? 0xA00044 = some 0xFFFFFFFF := by decide +kernel

/-- The worked case of 22: the first read of CMP_DICT_RESULT returns it unseen and sets SEEN, a second returns it seen. -/
def doneDict : State := onWith [(resValid 0xB00014, 1), (resSeq 0xB00014, 0x2B), (F.CMP_DICT_RESULT_DICT_ID, 37)]
theorem test_result_read : doneDict.rawReg 0xB00014 = 0x802B0250 ∧
    (after (execResultRegisterRead (.hart 0) 0xB00014 doneDict)).rawReg 0xB00014 = 0xC02B0250 ∧
    (after (execResultRegisterRead .jtag 0xB00014 (doneDict.setFld F.RPJ_DBG_LEVEL 1))).rawReg 0xB00014 = 0x802B0250 := by decide +kernel

/-- One step takes the front command and leaves the rest; no word spells a command. -/
theorem test_step_front : after (step { onHead with pending := [.bridgeSend 0, .frog] }) = after (exec (.bridgeSend 0) { onHead with pending := [.frog] }) ∧
    decodeTableWord 32 5 = none ∧ State.withFetchWord onHead 32 5 = onHead := ⟨rfl, rfl, rfl⟩

/-- A head at reset that idles stays as it is; cast-on brings it to CAST_ON with FORFEIT_N low. -/
theorem test_reset_idles : after (step State.reset) = State.reset ∧
    (after (execCastOnStart ⟨1, 0, 0, 0⟩ true State.reset)).headState = stCastOn ∧
    (after (execCastOnStart ⟨1, 0, 0, 0⟩ true State.reset)).headId = 1 ∧
    (after (execCastOnStart ⟨1, 0, 0, 0⟩ true State.reset)).pins.forfeitOut = false := by decide +kernel

/-! ### Witnesses: each statement's hypotheses are met, clause by clause -/

theorem witness_StepRunsFrontCommand :
    (∃ s : State, s.pending = []) ∧ (∃ s : State, s.pending = [] ∧ s.pins.powered = false) :=
  ⟨⟨onHead, by decide⟩, ⟨State.reset, by decide⟩⟩

theorem witness_OffHeadTakesNoCommand :
    ∃ (c : Instr) (s : State), s.pins.powered = false ∧ takenWhenOff c = false :=
  ⟨.junctionOvertemp, State.reset, by decide⟩

theorem witness_OffStaysClean :
    ∃ s t : State, s.offInv ∧ step s = .next t ∧ t.pins.powered = false ∧ s.pins.powered = true ∧ t.fld F.GLB_FORFEIT_LAST_CAUSE = 5 :=
  ⟨{ onWith [(F.GLB_FORFEIT_LAST_CAUSE, 5), (F.ROW_CTRL_FAULT_LIMIT, 3)] with pending := [.powerDown] },
   ({ onWith [(F.GLB_FORFEIT_LAST_CAUSE, 5), (F.ROW_CTRL_FAULT_LIMIT, 3)] with pending := [] } : State).inReset,
   by intro h; exact absurd h (by decide), rfl, by decide +kernel⟩

theorem witness_RefereeForfeitRegister :
    (∃ (_cause : Nat) (s : State), s.pins.powered = true ∧ s.headState ≠ stForfeit) ∧
    (∃ (_cause : Nat) (s : State), s.pins.powered = true ∧ s.headState = stForfeit) ∧
    (∃ (who : Requester) (_s : State), who ≠ .referee) ∧
    (∃ s : State, s.pins.powered = true ∧ s.fld F.GLB_FORFEIT_LAST_CAUSE < 256) ∧
    (∃ (_x : Straps) (s : State), s.pins.powered = false ∧ s.fld F.GLB_FORFEIT_LAST_CAUSE < 256) :=
  ⟨⟨0xFF, onHead, by decide⟩, ⟨0, onWith [(F.GLB_PAIR_STATUS_STATE, 5)], by decide⟩, ⟨.hart 3, onHead, by decide⟩,
   ⟨onWith [(F.GLB_FORFEIT_LAST_CAUSE, 255)], by decide⟩, ⟨⟨0, 0, 0, 0⟩, State.reset.setFld F.GLB_FORFEIT_LAST_CAUSE 255, by decide⟩⟩

theorem witness_BankBoundsFollowTheSamples :
    (∃ (vMean : Nat) (p : ProbeSt) (s : State), s.pins.powered = true ∧ s.ctl.probe = some p ∧ s.mode = 2 ∧ p.step = 2 ∧ vMean < p.vBefore) ∧
    (∃ n k : Nat, n ≤ k * k) :=
  ⟨⟨47000000, ⟨2, 48000000, 50000, 900⟩, { inPair [(F.CTL_STATUS_MODE, 2)] [] with ctl := { probe := some ⟨2, 48000000, 50000, 900⟩ } }, by decide⟩,
   ⟨17, 5, by decide⟩⟩

theorem witness_SpareFollowsTheBitmap :
    (∃ (s : State) (i : Nat), s.pins.powered = true ∧ s.taskDue 5 1024 = true ∧ i < 2 ∧ s.holds i = true ∧ s.fld (F.TLM_SPARE_TOTAL_BLOCKS i) = 0) ∧
    (∃ (s : State) (i : Nat), s.pins.powered = true ∧ s.taskDue 5 1024 = true ∧ i < 2 ∧ s.holds i = true ∧ s.fld (F.TLM_SPARE_TOTAL_BLOCKS i) ≠ 0) ∧
    (∃ (s : State) (b : Nat), Memory.wf s.dram = true ∧ b < 2 ^ 28 ∧ b ∈ s.badMembers) :=
  ⟨⟨inPair [(F.TRN_NOW_HI_VALUE, 1)] [], 0, by decide⟩, ⟨inPair [(F.TRN_NOW_HI_VALUE, 1), (F.TLM_SPARE_TOTAL_BLOCKS 0, 9)] [], 0, by decide⟩,
   ⟨inPair [] [(3, 2)], 25, by decide⟩⟩

theorem witness_ForfeitSilencesTheHead :
    (∃ s : State, s.pins.powered = true ∧ s.headState ≠ stForfeit ∧ s.flag F.IRQ_FATAL_TIMER_RUNNING = true) ∧
    (∃ s : State, s.pins.powered = true ∧ s.flag F.IRQ_FATAL_TIMER_RUNNING = false) :=
  ⟨⟨onWith [(F.IRQ_FATAL_TIMER_RUNNING, 1)], by decide⟩, ⟨onHead, by decide⟩⟩

theorem witness_PartnerLineIsFollowed :
    (∃ (s : State), s.pins.powered = true ∧ s.ctl.hold.unseated = false ∧ s.ctl.hold.phase < 2 ∧ s.inService = true ∧ s.solo = false ∧
      s.pairSt.takeover = 0 ∧ s.pairSt.rejoin = none) ∧
    (∃ (s : State), s.pins.powered = true ∧ s.ctl.hold.unseated = false) ∧
    (∃ (present : Bool) (s : State), s.pins.powered = true ∧ s.ctl.hold.unseated = false) ∧
    (∃ (s : State), s.pins.powered = true ∧ s.pairSt.takeover = 4) ∧
    (∃ (half : Nat) (m : Nat) (s : State), s.pins.powered = true ∧ m < 64 ∧ s.modState m = modServing ∧ (∃ c ∈ s.pairSt.claims, c.half = half ∧ m ∈ c.waiting) ∧
      (∀ c ∈ s.pairSt.claims, ∀ k ∈ c.waiting, k < 64)) :=
  ⟨⟨(onWith [(F.GLB_PAIR_STATUS_STATE, 3), (F.GLB_PAIR_STATUS_EFMO_UP, 1), (F.GLB_PAIR_STATUS_PARTNER_STATE, 3)]), by decide +kernel⟩,
   ⟨({ onWith [(F.GLB_PAIR_STATUS_PARTNER_PRESENT, 1), (F.GLB_PAIR_STATUS_PARTNER_FORFEIT, 1)] with pairSt := { absentSince := some 5 } }), by decide +kernel⟩,
   ⟨(true), (onHead), by decide +kernel⟩,
   ⟨({ onWith [(F.GLB_PAIR_STATUS_STATE, 3)] with pairSt := { takeover := 4, groupHeld := true } }), by decide +kernel⟩,
   ⟨(1), (3), ({ onWith [(F.GLB_PAIR_STATUS_STATE, 3), (F.STR_MOD_STATE 3, modServing)] with pairSt := { takeover := 3, claims := [⟨1, 2, 1, [3], 1, .takeover, []⟩] } }), by decide +kernel⟩⟩

theorem witness_StartsFromJoiningTakeEffect :
    (∃ (since : Nat) (s : State), s.pins.powered = true ∧ s.headState = stJoining ∧ s.pairSt.starting = 0 ∧ s.pairSt.absentSince = some since ∧
      since + 100 ≤ s.turn ∧ s.pairSt.claims = [] ∧ (∀ m < 64, s.portUp m = false)) ∧
    (∃ (s : State), s.pins.powered = true ∧ s.hearsPartner = true ∧ s.headState = stJoining ∧ s.pairSt.starting = 1 ∧ s.pairSt.readySent = true) ∧
    (∃ (seq jseq : Nat) (r : RejoinSt) (s : State), s.pins.powered = true ∧ s.hearsPartner = true ∧ s.headState = stJoining ∧ s.pairSt.rejoin = some r ∧ r.survivor = false) ∧
    (∃ (inst fromJseq : Nat) (s : State), s.pins.powered = true ∧ s.hearsPartner = true) ∧
    (∃ (inst : Nat) (g : JGroup) (s : State), s.pins.powered = true ∧ inst < 2 ∧ g.inst = inst ∧ s.hearsPartner = true ∧ (s.jnl inst).replay = 2 ∧ (s.jnl inst).rest = [] ∧
      g.jseq = (s.jnl inst).lastApplied + 1 ∧ groupOf? inst (groupBytes g.jseq g.recs) = some g) ∧
    (∃ (inst : Nat) (s : State), s.pins.powered = true ∧ inst < 2 ∧ s.hearsPartner = true ∧ (s.jnl inst).replay = 2) ∧
    (∃ (inst : Nat) (s : State), s.pins.powered = true ∧ inst < 2 ∧ (s.jnl inst).replay = 3) :=
  ⟨⟨(0), ({ onWith [(F.GLB_PAIR_STATUS_STATE, 2), (F.TRN_NOW_LO_VALUE, 1024 * 200)] with pairSt := { absentSince := some 0 } }), by decide +kernel⟩,
   ⟨({ onWith [(F.GLB_PAIR_STATUS_STATE, 2), (F.GLB_PAIR_STATUS_EFMO_UP, 1)] with pairSt := { starting := 1, readySent := true } }), by decide +kernel⟩,
   ⟨(9), (4), (⟨false, 2, 0, 0, 0, 0, none, (0, 0)⟩), ({ onWith [(F.GLB_PAIR_STATUS_STATE, 2), (F.GLB_PAIR_STATUS_EFMO_UP, 1)] with pairSt := { rejoin := some ⟨false, 2, 0, 0, 0, 0, none, (0, 0)⟩ } }), by decide +kernel⟩,
   ⟨(1), (4), (onWith [(F.GLB_PAIR_STATUS_STATE, 3), (F.GLB_PAIR_STATUS_EFMO_UP, 1)]), by decide +kernel⟩,
   ⟨(1), (⟨1, 1, [.retire 2 3 7]⟩), (({ onWith [(F.GLB_PAIR_STATUS_STATE, 3), (F.GLB_PAIR_STATUS_EFMO_UP, 1)] with pending := [] } : State).modJnl 1 fun j => { j with replay := 2 }), by decide +kernel⟩,
   ⟨(1), (({ onWith [(F.GLB_PAIR_STATUS_STATE, 3), (F.GLB_PAIR_STATUS_EFMO_UP, 1)] with pending := [] } : State).modJnl 1 fun j => { j with replay := 2 }), by decide +kernel⟩,
   ⟨(1), (({ onWith [(F.GLB_PAIR_STATUS_STATE, 3), (F.GLB_PAIR_STATUS_EFMO_UP, 1)] with pending := [] } : State).modJnl 1 fun j => { j with replay := 3 }), by decide +kernel⟩⟩

theorem witness_RejoinGoesOnInSteps :
    (∃ (r : RejoinSt) (s : State), s.pins.powered = true ∧ s.pairSt.rejoin = some r ∧ r.survivor = true ∧ r.step = 2 ∧ s.joinHardened r = true) ∧
    (∃ (r : RejoinSt) (s : State), s.pins.powered = true ∧ s.pairSt.rejoin = some r ∧ r.survivor = true ∧ r.step = 5 ∧ s.instBusy s.partnerId = false) ∧
    (∃ (jseq : Nat) (r : RejoinSt) (s : State), s.pins.powered = true ∧ s.hearsPartner = true ∧ s.pairSt.rejoin = some r ∧ r.survivor = false ∧ r.step = 5 ∧
      s.pairSt.claims = []) :=
  ⟨⟨(⟨true, 2, 0, 0, 0, 0, none, (0, 0)⟩), ({ onWith [(F.GLB_PAIR_STATUS_STATE, 3), (F.GLB_PAIR_STATUS_EFMO_UP, 1), (F.GLB_PAIR_STATUS_SOLO, 1)] with pairSt := { rejoin := some ⟨true, 2, 0, 0, 0, 0, none, (0, 0)⟩ } }), by decide +kernel⟩,
   ⟨(⟨true, 5, 0, 0, 0, 0, none, (0, 0)⟩), ({ onWith [(F.GLB_PAIR_STATUS_STATE, 3), (F.GLB_PAIR_STATUS_EFMO_UP, 1), (F.GLB_PAIR_STATUS_SOLO, 1)] with pairSt := { rejoin := some ⟨true, 5, 0, 0, 0, 0, none, (0, 0)⟩ } }), by decide +kernel⟩,
   ⟨(7), (⟨false, 5, 0, 0, 0, 0, none, (0, 0)⟩), ({ onWith [(F.GLB_PAIR_STATUS_STATE, 3), (F.GLB_PAIR_STATUS_EFMO_UP, 1)] with pairSt := { rejoin := some ⟨false, 5, 0, 0, 0, 0, none, (0, 0)⟩ } }), by decide +kernel⟩⟩

theorem witness_CastOnStartsFromOff :
    (∃ (x : Straps) (power : Bool) (s : State), s.pins.powered = false) ∧
    (∃ (x : Straps) (power : Bool) (s : State), s.pins.powered = true) ∧
    (∃ (s : State), s.pins.powered = true) ∧
    (∃ (s : State), s.pins.powered = true) :=
  ⟨⟨({ headId := 1, bootMode := 2, xspiOctal := 0, debugReq := 0 }), (true), (State.reset), by decide +kernel⟩,
   ⟨({ headId := 1, bootMode := 2, xspiOctal := 0, debugReq := 0 }), (true), (onHead), by decide +kernel⟩,
   ⟨(onWith [(F.GLB_PAIR_STATUS_STATE, 3), (F.GLB_FORFEIT_LAST_CAUSE, 2)]), by decide +kernel⟩,
   ⟨({ onHead with boot := { imageHold := true } }), by decide +kernel⟩⟩

theorem witness_CastOnStepsFollowInOrder :
    (∃ (f : Fuses) (s : State), s.pins.powered = true ∧ s.headState = stCastOn ∧ s.castStep = 1) ∧
    (∃ (type cap mts : Nat) (s : State), s.pins.powered = true ∧ s.headState = stCastOn ∧ s.castStep = 6 ∧ type < 2 ^ F.DMC_INFO_TYPE.width ∧
      cap < 2 ^ F.DMC_INFO_CAP_GIB.width ∧ mts < 2 ^ F.DMC_INFO_MTS.width) ∧
    (∃ (s : State), s.pins.powered = true ∧ s.headState = stCastOn ∧ s.castStep = 9) ∧
    (∃ (s : State), s.pins.powered = true ∧ s.headState = stCastOn ∧ s.castStep = 12 ∧ s.pins.unseated = false ∧
      s.flag F.RPJ_CTRL_REPLAY = false ∧ s.fld F.RPJ_DBG_LEVEL ≠ 2) ∧
    (∃ (s : State), s.pins.powered = true ∧ s.headState = stCastOn ∧ s.castHeld = false ∧ 1 ≤ s.castStep ∧ s.castStep ≤ 9) ∧
    (∃ (uj us charge dv v1 i1 v2 i2 : Nat) (s : State), s.pins.powered = true ∧ s.boot.testRunning = true ∧ s.headState = stCastOn) ∧
    (∃ (uj us charge dv v1 i1 v2 i2 : Nat) (s : State), s.pins.powered = true ∧ s.boot.testRunning = true ∧ s.testFlushing = false ∧ s.headState = stCastOn ∧
      ceilDiv uj (1000 * s.testGib) ≤ 65535 ∧ ceilDiv us s.testGib ≤ 65535) :=
  ⟨⟨(blankFuses), (onWith [(F.GLB_PAIR_STATUS_STATE, 1), (F.GLB_CASTON_STATUS_STEP, 1)]), by decide +kernel⟩,
   ⟨(1), (64), (6400), (onWith [(F.GLB_PAIR_STATUS_STATE, 1), (F.GLB_CASTON_STATUS_STEP, 6)]), by decide +kernel⟩,
   ⟨(onWith [(F.GLB_PAIR_STATUS_STATE, 1), (F.GLB_CASTON_STATUS_STEP, 9)]), by decide +kernel⟩,
   ⟨(onWith [(F.GLB_PAIR_STATUS_STATE, 1), (F.GLB_CASTON_STATUS_STEP, 12)]), by decide +kernel⟩,
   ⟨(onWith [(F.GLB_PAIR_STATUS_STATE, 1), (F.GLB_CASTON_STATUS_STEP, 3)]), by decide +kernel⟩,
   ⟨(0), (0), (0), (0), (0), (0), (0), (0), ({ onWith [(F.GLB_PAIR_STATUS_STATE, 1), (F.GLB_CASTON_STATUS_STEP, 11)] with boot := { testRunning := true } }), by decide +kernel⟩,
   ⟨(9000000), (60000), (5), (9), (9), (8), (8), (9), ({ onWith [(F.GLB_PAIR_STATUS_STATE, 1), (F.GLB_CASTON_STATUS_STEP, 11)] with boot := { testRunning := true } }), by decide +kernel⟩⟩

theorem witness_RepatterningAppliesSectionsInOrder :
    (∃ (bodies : List SectionBody) (s : State), s.pins.powered = true ∧ s.repat.running = false ∧ s.playing = false) ∧
    (∃ (bodies : List SectionBody) (s : State), let g : Image := ⟨s.rd (s.base F.GLB_REPATTERN_ADDR_LO_ADDR_LO F.GLB_REPATTERN_ADDR_HI_ADDR_HI 6) (s.fld F.GLB_REPATTERN_LEN_LENGTH), bodies⟩; s.pins.powered = true ∧ s.repat.running = false ∧ s.playing = true ∧ s.fld F.GLB_PAIR_STATUS_PARTNER_STATE ≠ stHandover ∧
      s.fld F.GLB_REPATTERN_LEN_LENGTH ≠ g.length) ∧
    (∃ (bodies : List SectionBody) (s : State), let g : Image := ⟨s.rd (s.base F.GLB_REPATTERN_ADDR_LO_ADDR_LO F.GLB_REPATTERN_ADDR_HI_ADDR_HI 6) (s.fld F.GLB_REPATTERN_LEN_LENGTH), bodies⟩; s.pins.powered = true ∧ s.repat.running = false ∧ s.playing = true ∧ s.fld F.GLB_PAIR_STATUS_PARTNER_STATE ≠ stHandover ∧
      s.fld F.GLB_REPATTERN_LEN_LENGTH = g.length ∧ s.checkImage 2 true g = 0 ∧ s.flag F.GLB_PATTERN_INFO_PARTIAL = false ∧
      g.baseVersion = s.fld F.GLB_PATTERN_VERSION_VERSION ∧ g.baseVersion < g.version ∧
      g.sections ≠ [] ∧ noRepeat (g.sections.map (·.type)) = true ∧
      (g.sections.all fun c => liveTypes.contains c.type && s.sectionFits g.dieId c && !s.sectionRefused c) = true) ∧
    (∃ (held : Nat) (c : ImageSection) (s : State), s.pins.powered = true ∧ s.repat.running = true ∧ s.repat.left = [c] ∧ s.sectionDrained c = true ∧
      s.repat.before ≤ s.repat.applied.length ∧ s.repat.applied.length < s.repat.before + 15) :=
  ⟨⟨([]), (onHead), by decide +kernel⟩,
   ⟨([]), (onWith [(F.GLB_PAIR_STATUS_STATE, 3), (F.GLB_REPATTERN_LEN_LENGTH, 99)]), by decide +kernel⟩,
   ⟨([.scratch 0]), ({ onWith [(F.GLB_PAIR_STATUS_STATE, 3), (F.GLB_REPATTERN_LEN_LENGTH, 0x210), (F.GLB_REPATTERN_ADDR_LO_ADDR_LO, 0x200), (F.GLB_PATTERN_VERSION_VERSION, 1)] with boot := { fuses := some keyFuses }, dram := cellsAt 0x8000 aDelta }), by decide +kernel⟩,
   ⟨(5), (emptySection), ({ onWith [(F.GLB_PAIR_STATUS_STATE, 4)] with repat := { running := true, version := 5, left := [emptySection] } }), by decide +kernel⟩⟩

theorem witness_LinkTrainingAndRetryTakeEffect :
    (∃ (t0 : Nat) (s : State), s.pins.powered = true ∧ s.efmo.idRetryAt = some t0 ∧ t0 ≤ s.turn ∧ s.efmoUp = false ∧ s.silent = false) ∧
    (∃ (s : State), s.pins.powered = true ∧ s.efmoUp = false ∧ s.silent = false) ∧
    (∃ (s : State), s.pins.powered = true ∧ s.efmoUp = true ∧ s.flag F.EFM_LINK_STATUS_RECOVERING = false) ∧
    (∃ (flit : Bytes) (counted : Bool) (s : State), let r : LinkSt × Received := LinkKind.efmo.receive 16 s.efmo.link flit; s.pins.powered = true ∧ s.efmoUp = true ∧ s.silent = false ∧ r.2 = .nak counted) ∧
    (∃ (flit : Bytes) (ack : Nat) (s : State), let r : LinkSt × Received := LinkKind.efmo.receive 16 s.efmo.link flit; let fails : Nat := if ack = r.1.ackSeq then r.1.replayFails else 0; s.pins.powered = true ∧ s.efmoUp = true ∧ s.silent = false ∧ r.2 = .replay ack ∧ fails < 8) ∧
    (∃ (s : State), s.pins.powered = true ∧ s.efmoUp = true ∧ s.silent = false ∧ s.efmo.link.ackSeq ≠ s.efmo.link.txSeq ∧
      s.efmo.link.replayFails < 8) ∧
    (∃ (s : State), s.pins.powered = true ∧ s.efmoUp = true ∧ s.flag F.EFM_LINK_STATUS_RECOVERING = false ∧
      s.efmo.link.ackSeq ≠ s.efmo.link.txSeq ∧ 8 ≤ s.efmo.link.replayFails) ∧
    (∃ (s : State), s.pins.powered = true ∧ s.flag F.EFM_LINK_STATUS_RECOVERING = true ∧ s.efmoUp = true ∧ s.silent = false ∧
      s.efmo.rxBad.length ≤ 2 ∧ s.efmo.txBad.length ≤ 2) ∧
    (∃ (ok : Bool) (s : State), s.pins.powered = true ∧ s.flag F.EFM_LINK_STATUS_RECOVERING = true ∧ s.efmoUp = true ∧
      (ok = false ∨ 2 < s.efmo.rxBad.length) ∧ s.inService = true ∧ s.solo = false) ∧
    (∃ (lane seq old k : Nat) (s : State), s.pins.powered = true ∧ s.efmoUp = true ∧ s.silent = false ∧ s.efmo.rxLanes[lane]? = some old ∧
      freeLane (s.efmo.rxLanes ++ s.efmo.rxSwitch.map (·.2.2)) s.efmo.rxBad = some k) ∧
    (∃ (lane spare seq old : Nat) (s : State), s.pins.powered = true ∧ s.efmoUp = true ∧ s.efmo.txLanes[lane]? = some old ∧ spare < 18 ∧
      spare ∉ s.efmo.txLanes ++ s.efmo.txSwitch.map (·.2.2)) :=
  ⟨⟨(0), ({ onHead with efmo := { idRetryAt := some 0 } }), by decide +kernel⟩,
   ⟨({ onHead with efmo := { txLanes := (List.range 16).map (· + 1) } }), by decide +kernel⟩,
   ⟨(onWith [(F.GLB_PAIR_STATUS_EFMO_UP, 1), (F.GLB_PAIR_STATUS_STATE, 3)]), by decide +kernel⟩,
   ⟨(LinkKind.efmo.frame ⟨7, 0, 1, 0, 0, 0, 0⟩ []), (true), (onWith [(F.GLB_PAIR_STATUS_EFMO_UP, 1), (F.GLB_PAIR_STATUS_STATE, 3)]), by decide +kernel⟩,
   ⟨(LinkKind.efmo.frame ⟨3, 0, 1, 4095, 0, 0, 0⟩ []), (4095), ({ onWith [(F.GLB_PAIR_STATUS_EFMO_UP, 1), (F.GLB_PAIR_STATUS_STATE, 3)] with efmo := { link := { ackSeq := 4095, txSeq := 2, replayFails := 7 } } }), by decide +kernel⟩,
   ⟨({ onWith [(F.GLB_PAIR_STATUS_EFMO_UP, 1), (F.GLB_PAIR_STATUS_STATE, 3)] with efmo := { link := { ackSeq := 5, txSeq := 9 } } }), by decide +kernel⟩,
   ⟨({ onWith [(F.GLB_PAIR_STATUS_EFMO_UP, 1), (F.GLB_PAIR_STATUS_STATE, 3)] with efmo := { link := { ackSeq := 5, txSeq := 9, replayFails := 8 } } }), by decide +kernel⟩,
   ⟨(onWith [(F.GLB_PAIR_STATUS_EFMO_UP, 1), (F.GLB_PAIR_STATUS_STATE, 3), (F.EFM_LINK_STATUS_RECOVERING, 1)]), by decide +kernel⟩,
   ⟨(true), ({ onWith [(F.GLB_PAIR_STATUS_EFMO_UP, 1), (F.GLB_PAIR_STATUS_STATE, 3), (F.EFM_LINK_STATUS_RECOVERING, 1), (F.GLB_PAIR_STATUS_PARTNER_STATE, 3)] with efmo := { rxBad := [0, 1, 2] } }), by decide +kernel⟩,
   ⟨(3), (100), (3), (16), ({ onWith [(F.GLB_PAIR_STATUS_EFMO_UP, 1), (F.GLB_PAIR_STATUS_STATE, 3), (F.EFM_LINK_STATUS_RX_SPARES, 2)] with efmo := { rxLanes := List.range 16 } }), by decide +kernel⟩,
   ⟨(0), (17), (100), (0), ({ onWith [(F.GLB_PAIR_STATUS_EFMO_UP, 1), (F.GLB_PAIR_STATUS_STATE, 3), (F.EFM_LINK_STATUS_TX_SPARES, 2)] with efmo := { txLanes := List.range 16 } }), by decide +kernel⟩⟩

theorem witness_PartnerMessagesTakeEffect :
    (∃ (m : ParamMsg) (l : List ReplayIn) (s : State), s.pins.powered = true ∧ s.efmoUp = false ∧ s.silent = false ∧ (s.inService = true ∨ s.headState = stJoining) ∧
      m.headId = s.headId) ∧
    (∃ (m : ParamMsg) (l : List ReplayIn) (s : State), s.pins.powered = true ∧ s.efmoUp = false ∧ s.silent = false ∧ s.inService = true ∧ s.solo = true ∧ m.headId ≠ s.headId ∧
      m.headState = stJoining) ∧
    (∃ (s : State), s.pins.powered = true ∧ s.efmoUp = true ∧ s.silent = false) ∧
    (∃ (m : StateMsg) (s : State), s.pins.powered = true ∧ s.hearsPartner = true ∧ s.pairSt.rejoin = none) ∧
    (∃ (s : State), s.pins.powered = true ∧ s.hearsPartner = true) ∧
    (∃ (fixed invocation : Nat) (ct tag key : Bytes) (s : State), s.pins.powered = true ∧ s.hearsPartner = true ∧ s.keyOf 0x23FF = some key ∧ s.sec.gotInv < invocation) :=
  ⟨⟨(⟨0, 2, 0, 0, [], []⟩), ([]), (onWith [(F.GLB_PAIR_STATUS_STATE, 2)]), by decide +kernel⟩,
   ⟨(⟨1, 2, 0, 4, [], []⟩), ([]), ({ onWith [(F.GLB_PAIR_STATUS_STATE, 3), (F.GLB_PAIR_STATUS_SOLO, 1)] with commit := { lastSeq := (8, 3) } }), by decide +kernel⟩,
   ⟨(onWith [(F.GLB_PAIR_STATUS_EFMO_UP, 1), (F.GLB_PAIR_STATUS_STATE, 3), (F.GLB_LEASE_EPOCHS_HALF1, 7)]), by decide +kernel⟩,
   ⟨(⟨2, 0, 5, 1, true, 3, 2⟩), (onWith [(F.GLB_PAIR_STATUS_EFMO_UP, 1), (F.GLB_PAIR_STATUS_STATE, 3), (F.GLB_PAIR_STATUS_PARTNER_STATE, 3)]), by decide +kernel⟩,
   ⟨(onWith [(F.GLB_PAIR_STATUS_EFMO_UP, 1), (F.GLB_PAIR_STATUS_STATE, 3)]), by decide +kernel⟩,
   ⟨(7), (1), ([]), ([]), (zeros 32), ({ onWith [(F.GLB_PAIR_STATUS_EFMO_UP, 1), (F.GLB_PAIR_STATUS_STATE, 3)] with sec := { slots := [(0x23FF, ⟨zeros 32, false, 0, false, false, 0⟩)] } }), by decide +kernel⟩⟩

theorem witness_PlacementIsAnsweredBlockByBlock :
    (∃ (m : BlockMsg) (s : State), let slot : MSlot := ⟨m.seq, m.volume, m.lba, m.index, m.mask, m.data, m.guard, carryGuard m.data == m.guard, false⟩; s.pins.powered = true ∧ s.hearsPartner = true ∧ m.forwarded = false) ∧
    (∃ (m : Marker) (s : State), let found : List (Option (Bool × Nat)) := (slotsFrom m.firstSlot m.count).map fun k => ((s.commit.mslots.get? k).filter fun x => x.seq == m.seq && !x.done).map fun x => (x.good, x.guard); s.pins.powered = true ∧ s.hearsPartner = true ∧ m.forwarded = false ∧ m.kind = 1) ∧
    (∃ (m : Marker) (s : State), s.pins.powered = true ∧ s.hearsPartner = true ∧ m.forwarded = false ∧ m.kind = 2) ∧
    (∃ (a : AckMsg) (e : Entry) (s : State), s.pins.powered = true ∧ s.hearsPartner = true ∧ a.forwarded = false ∧ a.status = 0 ∧
      s.commit.own.find? (fun e => e.seq == a.seq && e.mirrored && e.mirrorFirst == a.firstSlot && (e.st == .localDone || e.st == .aborted)) = some e ∧
      e.st = .localDone) ∧
    (∃ (inst seq volume : Nat) (bad : List Nat) (m : MEntry) (s : State), s.pins.powered = true ∧ s.commit.mentries.find? (fun m => m.seq == seq && m.volume == volume) = some m ∧
      (s.stgFree true m.slots.length).length = m.slots.length) ∧
    (∃ (inst horizon tail : Nat) (s : State), s.pins.powered = true ∧ inst < 2 ∧ s.hearsPartner = true ∧ s.joinerApplies inst = false ∧
      (∀ g ∈ (s.jnl inst).mirrored, tail ≤ g.jseq)) ∧
    (∃ (g : JGroup) (s : State), s.pins.powered = true ∧ g.inst < 2 ∧ s.hearsPartner = true ∧ s.joinerApplies g.inst = false ∧
      groupOf? g.inst (groupBytes g.jseq g.recs) = some g) ∧
    (∃ (m : RefetchMsg) (intact : Bool) (s : State), s.pins.powered = true ∧ s.hearsPartner = true ∧ m.kind = 1 ∧ s.mirrorCopy m = none) ∧
    (∃ (m : RefetchMsg) (mask : Nat) (d : Bytes) (g : Nat) (s : State), s.pins.powered = true ∧ s.hearsPartner = true ∧ m.kind = 1 ∧ s.mirrorCopy m = some (mask, d, g) ∧ carryGuard d = g) ∧
    (∃ (m : RefetchMsg) (b : BlockMsg) (key seq lba : Nat) (s : State), s.pins.powered = true ∧ s.hearsPartner = true ∧ m.kind = 0x81 ∧ m.status = 0 ∧ carryGuard b.data = b.guard ∧
      s.commit.refetch.get? m.token = some (key, seq, lba)) ∧
    (∃ (token key seq lba : Nat) (s : State), s.pins.powered = true ∧ s.commit.refetch.get? token = some (key, seq, lba) ∧ key % 2 = 0) :=
  ⟨⟨(⟨4, 9000, 0xFF, 1, 0, false, 77, [1], 5⟩), (onWith [(F.GLB_PAIR_STATUS_EFMO_UP, 1), (F.GLB_PAIR_STATUS_STATE, 3)]), by decide +kernel⟩,
   ⟨(⟨4, 8191, 1, 1, 5, false⟩), ({ onWith [(F.GLB_PAIR_STATUS_EFMO_UP, 1), (F.GLB_PAIR_STATUS_STATE, 3)] with commit := { mslots := [(8191, ⟨4, 1, 7, 0, 0xFF, [], 5, true, false⟩)], creditOwed := 3 } }), by decide +kernel⟩,
   ⟨(⟨4, 0, 2, 2, 0, false⟩), ({ onWith [(F.GLB_PAIR_STATUS_EFMO_UP, 1), (F.GLB_PAIR_STATUS_STATE, 3)] with commit := { mslots := [(0, ⟨4, 1, 7, 0, 0xFF, [], 5, true, false⟩)] } }), by decide +kernel⟩,
   ⟨(⟨4, 0, 1, 0, 0, 3, false⟩), (⟨0, 4, 1, 0, 1, 0, .localDone, 0, true, 0, false, false, true, false, ⟨1, 2, 0, false⟩, []⟩), ({ onWith [(F.GLB_PAIR_STATUS_EFMO_UP, 1), (F.GLB_PAIR_STATUS_STATE, 3), (F.CMT_RING_STATUS_MIRROR_CREDITS, 8191)] with commit := { own := [⟨0, 4, 1, 0, 1, 0, .localDone, 0, true, 0, false, false, true, false, ⟨1, 2, 0, false⟩, []⟩] } }), by decide +kernel⟩,
   ⟨(0), (4), (1), ([]), (⟨4, 1, [0]⟩), ({ onWith [(F.GLB_PAIR_STATUS_EFMO_UP, 1), (F.GLB_PAIR_STATUS_STATE, 3), (F.CMT_STG_MIRROR_SLOTS_SLOTS, 8)] with commit := { mentries := [⟨4, 1, [0]⟩], mslots := [(0, ⟨4, 1, 7, 0, 0xFF, zeros 16, 5, true, false⟩)] } }), by decide +kernel⟩,
   ⟨(1), (9), (3), (onWith [(F.GLB_PAIR_STATUS_EFMO_UP, 1), (F.GLB_PAIR_STATUS_STATE, 3)]), by decide +kernel⟩,
   ⟨(⟨1, 5, [.retire 2 3 7]⟩), (onWith [(F.GLB_PAIR_STATUS_EFMO_UP, 1), (F.GLB_PAIR_STATUS_STATE, 3)]), by decide +kernel⟩,
   ⟨(⟨4, 5, 1, 0, 1, 0, 9⟩), (true), (onWith [(F.GLB_PAIR_STATUS_EFMO_UP, 1), (F.GLB_PAIR_STATUS_STATE, 3)]), by decide +kernel⟩,
   ⟨(⟨4, 7, 1, 0, 1, 0, 9⟩), (0xFF), (zeros 64), (carryGuard (zeros 64)), ({ onWith [(F.GLB_PAIR_STATUS_EFMO_UP, 1), (F.GLB_PAIR_STATUS_STATE, 3)] with commit := { mslots := [(0, ⟨4, 1, 7, 0, 0xFF, zeros 64, carryGuard (zeros 64), true, false⟩)] } }), by decide +kernel⟩,
   ⟨(⟨4, 5, 1, 0, 0x81, 0, 9⟩), (⟨4, 0, 0xFF, 1, 0, false, 7, [], 0⟩), (0), (4), (5), ({ onWith [(F.GLB_PAIR_STATUS_EFMO_UP, 1), (F.GLB_PAIR_STATUS_STATE, 3)] with commit := { refetch := [(9, (0, 4, 5))] } }), by decide +kernel⟩,
   ⟨(9), (0), (4), (5), ({ onHead with commit := { refetch := [(9, (0, 4, 5))] } }), by decide +kernel⟩⟩

theorem witness_ReadStagesMakeTheirOutput :
    (∃ (sid l seq k : Nat) (x : Stitch) (m : RxMsgSt) (ct tag key : Bytes) (s : State), let u : State := s.gdWork sid x; let p : Option Bytes := gcmDec key (gcmIv m.fixed (seq * 64 + k)) m.header ct tag; s.pins.powered = true ∧ s.AtStage sid stGD x ∧ x.frame = some (l, seq, k) ∧
      s.snp.rx.find? (fun m => m.link == l && m.seq == seq) = some m ∧ m.frames[k]? = some (ct, tag) ∧
      s.keyOf (0x2000 + x.gcmSlot) = some key) ∧
    (∃ (sid : Nat) (x : Stitch) (fixed : Nat) (b : Bytes) (s : State), let u : State := s.ldhWork sid x; s.pins.powered = true ∧ s.AtStage sid stLDH x ∧ s.hardOut x.data = .ok fixed b) ∧
    (∃ (sid : Nat) (x : Stitch) (fixed : Nat) (b : Bytes) (s : State), let u : State := s.ldsWork sid x; s.pins.powered = true ∧ s.AtStage sid stLDS x ∧ (s.softOut x.die.1 x.die.2 (s.pageType x) x.data x.softReads).1 = .ok fixed b) ∧
    (∃ (sid : Nat) (x : Stitch) (key : Bytes) (s : State), let u : State := s.xtdWork sid x; s.pins.powered = true ∧ s.AtStage sid stXTD x ∧ s.keyOf x.keySlot = some key ∧
      headersOk x.cid x.gen x.slotClass (slotsOf x.slotClass) x.headers = true) ∧
    (∃ (sid : Nat) (x : Stitch) (s : State), let u : State := s.dcWork sid x false; let d : Nat × Bytes := if x.slotClass = 15 then (0, x.data) else decodeStream (s.dictFor x.dict x.domain) x.data none; s.pins.powered = true ∧ s.AtStage sid stDC x ∧ x.frameHdr = none) :=
  ⟨⟨(1), (0), (3), (0), ({ aStitch 6 stGD with frame := some (0, 3, 0) }), (⟨0, 3, 7, 0, [], 0, [([], [])], []⟩), ([]), ([]), (zeros 32), ({ inRow { aStitch 6 stGD with frame := some (0, 3, 0) } [] [(0x2000, aSlot)] with snp := { rx := [⟨0, 3, 7, 0, [], 0, [([], [])], []⟩] } }), by decide +kernel⟩,
   ⟨(1), (aStitch 1 stLDH), (bitErrors (cwBits []) (cwBits [])), (cwBytes (cwBits [])), (inRow (aStitch 1 stLDH) [] []), by decide +kernel, by decide +kernel, by simp only [State.hardOut]; exact congrArg (ldpcOut []) (Laws.hardDecode_zeros _ 0)⟩,
   (by obtain ⟨f, b, h⟩ := Laws.softOut_zeros (inRow (aStitch 1 stLDS) [] []) 0 0 ((inRow (aStitch 1 stLDS) [] []).pageType (aStitch 1 stLDS)) rfl; exact ⟨1, aStitch 1 stLDS, f, b, inRow (aStitch 1 stLDS) [] [], by decide +kernel, by decide +kernel, h⟩),
   ⟨(1), ({ aStitch 1 stXTD with slotClass := 1, headers := slotHeaders 0 0 0 1 1 }), (zeros 32), (inRow { aStitch 1 stXTD with slotClass := 1, headers := slotHeaders 0 0 0 1 1 } [] [(0, aSlot)]), by decide +kernel⟩,
   ⟨(1), ({ aStitch 1 stDC with slotClass := 2, data := [0, 0] }), (inRow { aStitch 1 stDC with slotClass := 2, data := [0, 0] } [] []), by decide +kernel⟩⟩

theorem witness_WriteStagesMakeTheirOutput :
    (∃ (sid : Nat) (x : Stitch) (key : Bytes) (s : State), let u : State := s.fpWork sid x; s.pins.powered = true ∧ s.AtStage sid stFP x ∧ s.keyOf (0x3000 + x.domain) = some key) ∧
    (∃ (sid cid gen : Nat) (x : Stitch) (w : State) (s : State), let u : State := s.lookupDx sid x; s.pins.powered = true ∧ s.AtStage sid stDX x ∧ x.parked = none ∧ x.waitsPage = false ∧ x.waitsCid = none ∧ x.cls ≠ 4 ∧
      s.indexSlot x.inst (s.indexPage x.inst x.fp) = none ∧ s.dedupOn x.domain = false ∧
      (s.countLookup x).dedupOn x.domain = false ∧ (s.countLookup x).takeCid x.inst = some (cid, gen, w)) ∧
    (∃ (sid : Nat) (x : Stitch) (s : State), let u : State := s.cpWork sid x; s.pins.powered = true ∧ s.AtStage sid stCP x ∧ bit x.flags 1 = true) ∧
    (∃ (sid : Nat) (x : Stitch) (key : Bytes) (s : State), let u : State := s.xteWork sid x; let w : Nat := x.guard ^^^ guardMask key (xtsTweak x.cid x.gen x.domain); s.pins.powered = true ∧ s.AtStage sid stXTE x ∧ s.keyOf x.keySlot = some key) ∧
    (∃ (sid : Nat) (x : Stitch) (s : State), let u : State := s.geWork sid x; s.pins.powered = true ∧ s.AtStage sid stGE x ∧ bit x.flags 8 = true) ∧
    (∃ (sid : Nat) (x : Stitch) (o : OpenSb) (s : State), let u : State := s.rsWork sid x; s.pins.powered = true ∧ s.AtStage sid stRS x ∧ x.cls ≠ 2 ∧ x.cls ≠ 3 ∧ s.openFor x.inst (s.writeStream x) = some o) :=
  ⟨⟨(1), (aStitch 0 stFP), (zeros 32), (inRow (aStitch 0 stFP) [] [(0x3000, aSlot)]), by decide +kernel⟩,
   ⟨(1), (9), (0), (aStitch 0 stDX), (((inRow (aStitch 0 stDX) [(F.FTL_CID_NEXT_LO_NEXT 0, 9)] []).countLookup (aStitch 0 stDX)).setPair (F.FTL_CID_NEXT_LO_NEXT 0) (F.FTL_CID_NEXT_HI_NEXT 0) 10), (inRow (aStitch 0 stDX) [(F.FTL_CID_NEXT_LO_NEXT 0, 9)] []), by decide +kernel⟩,
   ⟨(1), ({ aStitch 0 stCP with flags := 2 }), (inRow { aStitch 0 stCP with flags := 2 } [] []), by decide +kernel⟩,
   ⟨(1), ({ aStitch 0 stXTE with slotClass := 1, data := zeros 32 }), (zeros 32), (inRow { aStitch 0 stXTE with slotClass := 1, data := zeros 32 } [] [(0, aSlot)]), by decide +kernel⟩,
   ⟨(1), ({ aStitch 5 stGE with flags := 0x100, data := [3] }), (inRow { aStitch 5 stGE with flags := 0x100, data := [3] } [] []), by decide +kernel⟩,
   ⟨(1), ({ aStitch 0 stRS with slotClass := 1 }), (anOpen), ({ inRow { aStitch 0 stRS with slotClass := 1 } [] [] with ftl := { open_ := [anOpen] } }), by decide +kernel⟩⟩

theorem witness_RowsAdmitRepairAndTest :
    (∃ (tail : Nat) (s : State), s.pins.powered = true) ∧
    (∃ (k : Nat) (x : Stitch) (s : State), let u : State := (s.admitStitch x).1.modRows (fun r => { r with waiting := r.waiting.eraseIdx k }); s.pins.powered = true ∧ s.rows.waiting[k]? = some x ∧ (s.admitStitch x).2 = true) ∧
    (∃ (sid e : Nat) (x : Stitch) (s : State), let u : State := s.engineLate sid; s.pins.powered = true ∧ s.AtStage sid x.stage x ∧ x.engine = some e) ∧
    (∃ (pool engine : Nat) (x : SpareTest) (s : State), let u : State := s.spareTested pool engine true; s.pins.powered = true ∧ pool < 8 ∧ s.rows.testing.find? (fun x => x.pool == pool && x.engine == engine) = some x) ∧
    (∃ (sid cid : Nat) (x : Stitch) (b : Bytes) (s : State), let u : State := s.verifyEnd sid; s.pins.powered = true ∧ s.rows.retired = [] ∧ s.stitch? sid = some x ∧ x.cls = 4 ∧ x.parked = some cid ∧
      x.cand = some (some b) ∧ b ≠ x.data) ∧
    (∃ (sid slot : Nat) (x : Stitch) (s : State), let v : State := s.modStitch sid (fun y => { y with waitsPage := false }); let u : State := v.lookupDx sid { x with waitsPage := false }; s.pins.powered = true ∧ s.stitch? sid = some x ∧ x.waitsPage = true ∧ x.waitsCid = none ∧ x.cls = 4 ∧
      s.indexSlot x.inst (s.indexPage x.inst x.fp) = some slot ∧ s.dedupOn x.domain = false) ∧
    (∃ (inst page : Nat) (f : IndexFetch) (s : State), s.pins.powered = true ∧ s.ddp.fetches.find? (fun f => f.inst == inst % 2 && f.page == page) = some f) ∧
    (∃ (s : State), let a : Nat := s.base F.DDP_REFOP_ADDR_LO_ADDR_LO F.DDP_REFOP_ADDR_HI_ADDR_HI 3; s.pins.powered = true ∧ s.flag F.DDP_REFOP_CTRL_BUSY = false ∧ 2 ≤ bits (s.rdN a 8) 53 52) ∧
    (∃ (r : Rec) (s : State), let a : Nat := s.base F.DDP_REFOP_ADDR_LO_ADDR_LO F.DDP_REFOP_ADDR_HI_ADDR_HI 3; let d : Nat := s.rdN a 8; let cid : Nat := bits d 43 0; let u : State := ((((s.setFld F.DDP_REFOP_CTRL_COUNT 1).resStart 0xA0002C).setFld F.DDP_REFOP_CTRL_BUSY 1).modDdp fun x => { x with batch := some ⟨0, 0, a, 1⟩ }); let w : State := (u.refApply cid (some (bits d 51 44)) false r).1; s.pins.powered = true ∧ s.flag F.DDP_REFOP_CTRL_BUSY = false ∧ bits d 62 52 = 0 ∧ s.recMissing cid = none ∧
      s.rec? cid = some r ∧ r.state = 2 ∧ r.gen = bits d 51 44 ∧ r.refs + 1 < 0xFFFFFF) :=
  ⟨⟨(7), (onHead), by decide +kernel⟩,
   ⟨(0), ({ cls := 2 }), ({ inPair [] [] with rows := { waiting := [{ cls := 2 }] }, pattern := { rows := [{ stages := [⟨stLDH, [0], [0], [], []⟩, ⟨stRS, [0], [0], [], []⟩], classes := [2], stalled := false }] } }), by decide +kernel⟩,
   ⟨(1), (0), (aStitch 0 stFP), (inRow (aStitch 0 stFP) [] []), by decide +kernel⟩,
   ⟨(3), (9), (⟨3, 9, 1, 0, stXTD⟩), ({ inPair [] [] with rows := { testing := [⟨3, 9, 1, 0, stXTD⟩] } }), by decide +kernel⟩,
   ⟨(1), (9), ({ aStitch 4 stDX with parked := some 9, cand := some (some [1]) }), ([1]), (inRow { aStitch 4 stDX with parked := some 9, cand := some (some [1]) } [] []), by decide +kernel⟩,
   ⟨(1), (0), ({ aStitch 4 stDX with waitsPage := true }), ({ inRow { aStitch 4 stDX with waitsPage := true } [] [] with ddp := { lines := [(0, ⟨0, 0, false, 0⟩)] } }), by decide +kernel⟩,
   ⟨(1), (5), (⟨1, 5, true, 0⟩), ({ inPair [] [] with ddp := { fetches := [⟨1, 5, true, 0⟩] } }), by decide +kernel⟩,
   ⟨(inPair [] [(6, 0x20)]), by decide +kernel⟩,
   ⟨(recOf ((2 + 2 ^ 2 * 0) * 2 ^ 124 + 3 * 2 ^ 64)), ((inPair [] [(0, 5)]).setRec 5 (2 * 2 ^ 124 + 3 * 2 ^ 64)), by decide +kernel⟩⟩

theorem witness_DictionaryCommandsAnswer :
    (∃ (d : Nat) (s : State), let a : Nat := s.dictAddr d; let tag : Nat := leNat ((sha256 (s.rd (s.rdN (a + 8) 8) (s.rdN (a + 0x10) 2))).take 4); let newer : Bool := (List.range 1024).all fun e => e == 0 || s.dictState e == 0 || s.rdN (s.dictAddr e + 2) 2 % 4096 != s.rdN (a + 2) 2 || decide (s.rdN (s.dictAddr e + 0x12) 2 < s.rdN (a + 0x12) 2); s.pins.powered = true ∧ 0 < d ∧ d < 1024 ∧ s.flag F.CMP_DICT_CMD_BUSY = false ∧ s.dictState d = 0 ∧ s.dictFits d = true) ∧
    (∃ (d : Nat) (s : State), let used : Bool := (List.range 4096).any fun k => s.rdBits (s.cmpBase + 2 * k) 9 0 == d; s.pins.powered = true ∧ 0 < d ∧ d < 1024 ∧ s.flag F.CMP_DICT_CMD_BUSY = false ∧ s.dictState d = 1) ∧
    (∃ (d : Nat) (s : State), let used : Bool := s.dictUses d 0 != 0 || s.dictUses d 1 != 0 || (s.rows.stitches.vals ++ s.rows.waiting).any fun x => x.dict == d; s.pins.powered = true ∧ 0 < d ∧ d < 1024 ∧ s.flag F.CMP_DICT_CMD_BUSY = false ∧ s.dictState d = 2) ∧
    (∃ (d : Nat) (s : State), s.pins.powered = true ∧ d < 1024 ∧ s.flag F.CMP_DICT_CMD_BUSY = false) :=
  ⟨⟨(3), (inPair [] [(0x20C9, 0x10), (0x20D1, 0x10), (0x20D2, 1)]), by decide +kernel⟩,
   ⟨(3), (inPair [] [(0x20C0, 1)]), by decide +kernel⟩,
   ⟨(3), (inPair [] [(0x20C0, 2)]), by decide +kernel⟩,
   ⟨(3), (inPair [] []), by decide +kernel⟩⟩

theorem witness_MapCommandsTakeEffect :
    (∃ (inst tree level ident : Nat) (b : Bytes) (f : PageFetch) (s : State), let w : State := s.modMap (fun m => { m with fetches := m.fetches.filter fun g => !g.is (inst % 2) tree level ident }); let u : State := w.pageArrived f b; s.pins.powered = true ∧ pageChecks tree level ident f.index b = true ∧
      s.map.fetches.find? (fun f => f.is (inst % 2) tree level ident) = some f ∧ f.ops = [] ∧ s.map.misses = []) ∧
    (∃ (head : Nat) (s : State), let n : Nat := s.splitRing; let old : Nat := s.fld F.FTL_SPLIT_HEAD_INDEX % n; let gone : SplitReq → Bool := fun r => decide (r.index < n) && decide ((r.index + n - old) % n < (head % n + n - old) % n); s.pins.powered = true ∧ (∀ r ∈ s.map.splits, r.index < n ∧ r.ops = []) ∧ s.snp.swept = []) ∧
    (∃ (inst tree level ident : Nat) (p : MapPage) (s : State), s.pins.powered = true ∧ tree ≠ 0 ∧ tree ≠ 3 ∧ s.holds (inst % 2) = true ∧
      s.map.pages.find? (fun p => p.is (inst % 2) tree level ident && p.dirty) = some p ∧ s.map.pages.length ≤ s.mpcPages ∧
      p.wb = WbSt.none) ∧
    (∃ (s : State), s.pins.powered = true ∧ s.flag F.FTL_MCMD_BUSY = false ∧ (∀ p ∈ s.map.pages, p.dirty = false)) ∧
    (∃ (inst index : Nat) (s : State), let v : State := (((([(F.FTL_MCMD_OP, 1), (F.FTL_MCMD_INSTANCE, inst), (F.FTL_MCMD_INDEX, index)].foldl (fun t p => t.setFld p.1 p.2) s).resStart 0xC00034).setFld F.FTL_MCMD_BUSY 1).modMap fun m => { m with mcmd := some ⟨1, inst % 2, index % 2 ^ 18, (s.nextJseq 0, s.nextJseq 1)⟩ }); s.pins.powered = true ∧ s.flag F.FTL_MCMD_BUSY = false ∧ s.holds (inst % 2) = true ∧
      v.walk (inst % 2) 4 0 (index % 2 ^ 18) = .absent) ∧
    (∃ (inst index : Nat) (w : State) (p : MapPage) (s : State), let v : State := (((([(F.FTL_MCMD_OP, 2), (F.FTL_MCMD_INSTANCE, inst), (F.FTL_MCMD_INDEX, index)].foldl (fun t p => t.setFld p.1 p.2) s).resStart 0xC00034).setFld F.FTL_MCMD_BUSY 1).modMap fun m => { m with mcmd := some ⟨2, inst % 2, index % 2 ^ 18, (s.nextJseq 0, s.nextJseq 1)⟩ }); s.pins.powered = true ∧ s.flag F.FTL_MCMD_BUSY = false ∧ s.holds (inst % 2) = true ∧
      v.openLeaf (inst % 2) 4 0 (index % 2 ^ 18) (v.nextJseq (inst % 2)) = (w, .leaf p) ∧ w.map.pages.length ≤ w.mpcPages) ∧
    (∃ (inst index : Nat) (s : State), s.pins.powered = true ∧ s.flag F.FTL_MCMD_BUSY = false) ∧
    (∃ (s : State), s.pins.powered = true) :=
  ⟨⟨(0), (2), (0), (4), (zeros 4096 ++ metaHeaders 2 2 0 4 (zeros 4096)), (aFetch), ({ inPair [] [] with map := { fetches := [aFetch] } }), by decide +kernel⟩,
   ⟨(1), ({ inPair [] [] with map := { splits := [⟨5, 0, 1, 0, [], false⟩] } }), by decide +kernel⟩,
   ⟨(0), (1), (0), (4), (⟨0, 1, 4, 0, 0, [(1, 7)], true, 3, .none, false, 0⟩), ({ inPair [] [] with map := { pages := [⟨0, 1, 4, 0, 0, [(1, 7)], true, 3, .none, false, 0⟩] } }), by decide +kernel⟩,
   ⟨({ inPair [] [] with map := { pages := [⟨0, 1, 4, 0, 0, [(1, 7)], false, 3, .none, false, 0⟩] } }), by decide +kernel⟩,
   ⟨(0), (4), (inPair [] [(5, 7)]), by decide +kernel⟩,
   ⟨(0), (4), (aWalked.1), ((match aWalked.2 with | .leaf p => p | _ => newPage 0 0 0 0 0)), (inPair [] [(5, 7)]), by decide +kernel⟩,
   ⟨(1), (4), (inPair [] []), by decide +kernel⟩,
   ⟨({ inPair [] [] with map := { hot := [(0, 1, 2)] } }), by decide +kernel⟩⟩

theorem witness_SuperblocksMoveThroughTheirStates :
    (∃ (stream sb : Nat) (s : State), s.pins.powered = true ∧ s.pushCode (stream % 8) (sb % 2 ^ 28) = 0 ∧ s.holds (s.sbInst (sb % 2 ^ 28)) = false) ∧
    (∃ (stream sb : Nat) (s : State), s.pins.powered = true ∧ s.pushCode (stream % 8) (sb % 2 ^ 28) ≠ 0) ∧
    (∃ (inst stream sb : Nat) (s : State), s.pins.powered = true ∧ inst < 2 ∧ stream < 8 ∧ s.mayOpen inst stream = true ∧
      (s.sbQueue inst stream).find? (fun b => (s.sbMembers b).all s.memberReady) = some sb ∧
      (s.sbMembers sb).any s.badBlock = false) ∧
    (∃ (sb : Nat) (o : OpenSb) (s : State), s.pins.powered = true ∧ s.openSb? sb = some o ∧ o.cw < o.k) ∧
    (∃ (force : Bool) (s : State), let u : State := ((([(F.FTL_RCL_CMD_OP, 0), (F.FTL_RCL_CMD_FORCE, if force = true then 1 else 0)].foldl (fun t p => t.setFld p.1 p.2) s).resStart 0xC00410).setFld F.FTL_RCL_CMD_BUSY 1); let sb : Nat := s.fld F.FTL_RCL_SB_SB; s.pins.powered = true ∧ s.flag F.FTL_RCL_CMD_BUSY = false ∧ s.holds (s.sbInst sb) = true ∧ s.sbState sb = sbClosed ∧
      s.sbMode sb ≠ 2) ∧
    (∃ (lost : List Nat) (s : State), let u : State := ((([(F.FTL_RCL_CMD_OP, 1), (F.FTL_RCL_CMD_FORCE, 0)].foldl (fun t p => t.setFld p.1 p.2) s).resStart 0xC00410).setFld F.FTL_RCL_CMD_BUSY 1); let sb : Nat := s.fld F.FTL_RCL_SB_SB; s.pins.powered = true ∧ s.flag F.FTL_RCL_CMD_BUSY = false ∧ s.holds (s.sbInst sb) = true ∧ s.sbState sb = sbReclaiming ∧
      s.eraseBegun sb = false ∧ s.finishCode sb = 0) ∧
    (∃ (force : Bool) (s : State), let u : State := ((([(F.FTL_RCL_CMD_OP, 2), (F.FTL_RCL_CMD_FORCE, if force = true then 1 else 0)].foldl (fun t p => t.setFld p.1 p.2) s).resStart 0xC00410).setFld F.FTL_RCL_CMD_BUSY 1); let sb : Nat := s.fld F.FTL_RCL_SB_SB; s.pins.powered = true ∧ s.flag F.FTL_RCL_CMD_BUSY = false ∧ s.holds (s.sbInst sb) = true ∧ s.sbState sb = sbReclaiming ∧
      s.eraseBegun sb = false ∧ s.movesFrom sb = false ∧ s.copiesOut sb = false) ∧
    (∃ (force : Bool) (s : State), s.pins.powered = true ∧ s.flag F.FTL_RCL_CMD_BUSY = false) ∧
    (∃ (sb : Nat) (s : State), s.pins.powered = true ∧ s.solo = false ∧ s.headId < 2 ∧ sb ∈ s.allSbs ∧ s.sbInst sb = s.headId ∧ s.sbState sb = sbClosed) ∧
    (∃ (inst : Nat) (s : State), let i : Nat := inst % 2; let j : JnlSt := s.jnl i; s.pins.powered = true ∧ s.anchorDue i = true ∧ j.anchorCur < 2 ∧ s.anchorFailed i j.anchorCur = false ∧
      ofInst j.anchorNext j.anchorCur < s.slcPages (memberModule (s.anchorBlock i j.anchorCur))) ∧
    (∃ (inst n block : Nat) (s : State), s.pins.powered = true ∧ s.headState = stCastOn ∧ s.anchorFailed (inst % 2) (n % 2) = false) :=
  ⟨⟨(4), (3), (withSb 1 [(0x302, 4), (0x303, 2), (0x304, 1), (0x311, 8), (0x315, 8), (0x316, 0x40), (0x319, 8), (0x31A, 0x80), (0x31D, 8), (0x31E, 0xC0), (0x321, 8), (0x323, 1), (0x325, 8), (0x326, 0x40), (0x327, 1)]), by decide +kernel⟩,
   ⟨(4), (3), (withSb 1 []), by decide +kernel⟩,
   ⟨(0), (3), (3), ({ withSb 0 [] with ftl := { queues := [(3, [3])] } }), by decide +kernel⟩,
   ⟨(0), ({ anOpen with slots := 3 }), ({ inPair [] [] with ftl := { open_ := [{ anOpen with slots := 3 }] } }), by decide +kernel⟩,
   ⟨(false), (withSb 0 [(0, 3)]), by decide +kernel⟩,
   ⟨([]), (withSb 0 [(0, 4)]), by decide +kernel⟩,
   ⟨(false), (withSb 0 [(0, 4)]), by decide +kernel⟩,
   ⟨(true), (onHead), by decide +kernel⟩,
   ⟨(0), (withSb 0 [(0, 3), (2, 4)]), by decide +kernel⟩,
   ⟨(0), ({ inPair [(F.TRN_NOW_LO_VALUE, 2 ^ 21)] [] with media := { ports := [(0, { page := some aPage })] } }), by decide +kernel⟩,
   ⟨(1), (1), (7), (onWith [(F.GLB_PAIR_STATUS_STATE, 1)]), by decide +kernel⟩⟩

theorem witness_PortsTrainReplayAndRecover :
    (∃ (port : Nat) (s : State), s.pins.powered = true ∧ port < 64 ∧ port < s.modules ∧ s.modPresent port = true ∧ s.portUp port = false ∧ s.silent = false) ∧
    (∃ (port : Nat) (s : State), s.pins.powered = true ∧ port < 64 ∧ s.modPresent port = true ∧ s.portUp port = false ∧ (s.port port).training ≠ 0 ∧
      s.silent = false) ∧
    (∃ (port : Nat) (p : ParamPage) (credits : List Nat) (s : State), s.pins.powered = true ∧ port < 64 ∧ s.portUp port = false ∧ (s.port port).training ≠ 0 ∧ s.silent = false ∧ pageFits p = true) ∧
    (∃ (port : Nat) (report : List (Nat × Nat × Nat × Nat)) (s : State), s.pins.powered = true ∧ port < 64 ∧ s.portUp port = false ∧ (s.port port).training = 7 ∧ s.epoch 0 = 0 ∧ s.epoch 1 = 0 ∧
      s.upd.step = none) ∧
    (∃ (port : Nat) (frame : Bytes) (counted : Bool) (s : State), let r : LinkSt × Received := LinkKind.purl.receive (s.purlLanes port).length (s.linkOf port) frame; s.pins.powered = true ∧ port < 64 ∧ s.linked port = true ∧ s.silent = false ∧ r.2 = .nak counted) ∧
    (∃ (port ack : Nat) (frame : Bytes) (s : State), let r : LinkSt × Received := LinkKind.purl.receive (s.purlLanes port).length (s.linkOf port) frame; let fails : Nat := if ack = r.1.ackSeq then r.1.replayFails else 0; s.pins.powered = true ∧ port < 64 ∧ s.linked port = true ∧ s.silent = false ∧ r.2 = .replay ack ∧ fails < 8) ∧
    (∃ (port : Nat) (s : State), let l : LinkSt := s.linkOf port; s.pins.powered = true ∧ port < 64 ∧ s.linked port = true ∧ s.silent = false ∧ l.ackSeq ≠ l.txSeq ∧ l.replayFails < 8) ∧
    (∃ (port : Nat) (s : State), let l : LinkSt := s.linkOf port; s.pins.powered = true ∧ port < 64 ∧ s.linked port = true ∧ l.ackSeq ≠ l.txSeq ∧ 8 ≤ l.replayFails) ∧
    (∃ (port : Nat) (s : State), s.pins.powered = true ∧ port < 64 ∧ s.flag (F.MED_PORT_STATUS_RECOVERING port) = true ∧ s.silent = false) ∧
    (∃ (port lane seq : Nat) (s : State), s.pins.powered = true ∧ port < 64 ∧ s.portUp port = true ∧ s.fld (F.MED_PORT_STATUS_WIDTH port) = 2 ∧ lane < 2 ∧
      (s.port port).narrow = none ∧ s.silent = false) :=
  ⟨⟨(3), (inPair [(F.MED_PORT_STATUS_PRESENT 3, 1)] []), by decide +kernel⟩,
   ⟨(3), ({ inPair [(F.MED_PORT_STATUS_PRESENT 3, 1)] [] with media := { ports := [(3, { training := 5 })] } }), by decide +kernel⟩,
   ⟨(3), (aPage), ([8, 8, 8]), ({ inPair [(F.MED_PORT_STATUS_PRESENT 3, 1)] [] with media := { ports := [(3, { training := 5 })] } }), by decide +kernel⟩,
   ⟨(3), ([(0, 5, 1, 0)]), ({ inPair [(F.MED_PORT_STATUS_PRESENT 3, 1)] [] with media := { ports := [(3, { training := 7 })] } }), by decide +kernel⟩,
   ⟨(3), ([]), (false), (withPort [] { link := { rxSeq := 9 } } {}), by decide +kernel⟩,
   ⟨(3), (4095), (LinkKind.purl.frame ⟨3, 0, 1, 4095, 0, 0, 0⟩ []), (withPort [] { link := { ackSeq := 4095, txSeq := 2, replayFails := 7 } } {}), by decide +kernel⟩,
   ⟨(3), (withPort [] { link := { ackSeq := 9, txSeq := 12, replayFails := 7 } } {}), by decide +kernel⟩,
   ⟨(3), (withPort [] { link := { ackSeq := 9, txSeq := 12, replayFails := 8 } } {}), by decide +kernel⟩,
   ⟨(3), (withPort [(F.MED_PORT_STATUS_RECOVERING 3, 1)] { link := { ackSeq := 9, txSeq := 12, replayFails := 7 } } {}), by decide +kernel⟩,
   ⟨(3), (1), (40), (withPort [(F.MED_PORT_STATUS_WIDTH 3, 2)] {} {}), by decide +kernel⟩⟩

theorem witness_AlertsAndAbsenceMoveModules :
    (∃ (port : Nat) (s : State), s.pins.powered = true ∧ port < 64 ∧ s.modState port ≠ modServing) ∧
    (∃ (port die : Nat) (s : State), s.pins.powered = true ∧ port < 64 ∧ die < 256 ∧ s.dieFailed port die = false) ∧
    (∃ (port die : Nat) (s : State), s.pins.powered = true ∧ port < 64 ∧ die < 256) ∧
    (∃ (port : Nat) (s : State), s.pins.powered = true ∧ port < 64 ∧ s.modState port = modServing ∧ s.portIdle port = true) ∧
    (∃ (port code die : Nat) (s : State), s.pins.powered = true ∧ port < 64 ∧ die < 256 ∧ code < 256) ∧
    (∃ (port : Nat) (s : State), s.pins.powered = true ∧ port < 64 ∧ s.modPresent port = false ∧ s.portUp port = false ∧ port < s.modules ∧
      9 ≤ s.fld F.GLB_CASTON_STATUS_STEP ∧ s.silent = false) ∧
    (∃ (port : Nat) (s : State), s.pins.powered = true ∧ port < 64 ∧ s.modState port = modHeld ∧ s.portIdle port = true) ∧
    (∃ (port : Nat) (s : State), s.pins.powered = true ∧ port < 64 ∧ s.modState port = modAway) :=
  ⟨⟨(5), (withPort [] {} {}), by decide +kernel⟩,
   ⟨(3), (1), (withPort [] {} {}), by decide +kernel⟩,
   ⟨(3), (1), (withPort [] {} {}), by decide +kernel⟩,
   ⟨(3), (withPort [] {} {}), by decide +kernel⟩,
   ⟨(3), (9), (1), (withPort [] {} {}), by decide +kernel⟩,
   ⟨(5), (inPair [(F.GLB_CASTON_STATUS_STEP, 9)] []), by decide +kernel⟩,
   ⟨(3), (withPort [(F.STR_MOD_STATE 3, 3)] {} {}), by decide +kernel⟩,
   ⟨(3), (withPort [(F.STR_MOD_STATE 3, 2)] {} {}), by decide +kernel⟩⟩

theorem witness_OperationsEndAndReadsReturn :
    (∃ (port : Nat) (st : PurlStatus) (p : PendOp) (s : State), let u : State := ((s.modMedia fun m => { m with out := m.out.erase p }).countStatus p st).opStatus p st; s.pins.powered = true ∧ s.media.out.find? (fun p => p.port == port && p.op.tag == st.tag) = some p ∧ p.purpose = .selfTest ∧
      st.status = 0) ∧
    (∃ (port tag : Nat) (p : PendOp) (s : State), let u : State := (s.modMedia fun m => { m with out := m.out.erase p }).opFaulted p; s.pins.powered = true ∧ port < 64 ∧ s.media.out.find? (fun p => p.port == port && p.op.tag == tag) = some p ∧
      s.portUp port = true ∧ p.purpose = .selfTest ∧ p.isRead = true ∧ s.dieFailed p.port p.die = false) ∧
    (∃ (port tag cw a : Nat) (data : Bytes) (p : PendOp) (s : State), s.pins.powered = true ∧ s.media.out.find? (fun p => p.port == port && p.op.tag == tag && p.isRead) = some p ∧
      p.purpose = .paramRead ∧ p.op.opcode ≠ 1 ∧ s.media.paramDest = some a) ∧
    (∃ (port tag cw sid : Nat) (data : Bytes) (p : PendOp) (x : Stitch) (s : State), let u : State := (s.countRead p.member).modStitch sid (fun x => { x with data := data, ready := true }); s.pins.powered = true ∧ s.media.out.find? (fun p => p.port == port && p.op.tag == tag && p.isRead) = some p ∧
      p.purpose = .stitchRead sid ∧ p.op.opcode = 1 ∧ s.stitch? sid = some x) ∧
    (∃ (sb stripe want : Nat) (r : ReconSt) (k : Tbl Bytes) (s : State), let u : State := s.reconArrived sb stripe want; s.pins.powered = true ∧ s.recon? sb stripe want = some r ∧ r.known = some k ∧ s.solveTurn r = true) ∧
    (∃ (module die : Nat) (p : PendOp) (s : State), s.pins.powered = true ∧
      (s.media.out.filter (fun p => p.port == module && p.die == die && p.op.opcode != 4)).length < s.dieDepth ∧
      s.media.queued.filter (fun q => q.2.port == module && q.2.die == die && s.mayIssue q.2) = [(6, p)] ∧ p.port = module ∧
      p.op.opcode = 3 ∧ p.op.flags = 0 ∧ p.data = [] ∧ s.silent = false ∧ s.ctl.hold.unseated = false) ∧
    (∃ (who : Requester) (page die module : Nat) (s : State), let p : PendOp := ⟨module, plainOp 5 0 0 0 (die * 2 ^ 28 + page * 4), Purpose.paramRead, [], 0⟩; s.pins.powered = true ∧ module < 64 ∧ die < 256 ∧ page < 2 ∧ s.flag F.MED_PARAM_CMD_BUSY = false ∧ s.portUp module = true) ∧
    (∃ (module die : Nat) (s : State), let a : Nat := s.calDie module die; s.pins.powered = true ∧ s.flag F.LDC_LLR_CFG_FREEZE = false) ∧
    (∃ (module die group : Nat) (probes : List CalProbe) (s : State), let reads : Nat := (probes.map fun p => 1 + 2 * p.refs.length).foldl (· + ·) 0; let v : State := (List.range reads).foldl (fun t _ => t.slotGiven (unitDie module die) (.budget 4)) s; s.pins.powered = true ∧ s.flag F.LDC_CAL_CTRL_ENABLE = true ∧
      (State.calTypes module die group probes (List.range 5) (v.setCalFlags module die group (v.calFlags module die group &&& 3))).2 = true) :=
  ⟨⟨(3), (⟨1, 0, 7, 40, 0, 0, 0, 0⟩), (anOp 1 .selfTest), (withPort [] {} { out := [anOp 1 .selfTest] }), by decide +kernel⟩,
   ⟨(3), (7), (anOp 1 .selfTest), (withPort [] {} { out := [anOp 1 .selfTest] }), by decide +kernel⟩,
   ⟨(3), (7), (1), (0x100), ([7]), (anOp 5 .paramRead), (withPort [] {} { out := [anOp 5 .paramRead], paramDest := some 0x100 }), by decide +kernel⟩,
   ⟨(3), (7), (0), (1), ([7]), (anOp 1 (.stitchRead 1)), (aStitch 5 stLDH), ({ withPort [] {} { out := [anOp 1 (.stitchRead 1)] } with rows := { stitches := [(1, aStitch 5 stLDH)], nextSid := 2 } }), by decide +kernel⟩,
   ⟨(2), (1), (4), (⟨2, 1, 4, 6, [0], [], [(0, [7])], [], .selfTest⟩), ([(0, [7])]), (withPort [] {} { recons := [⟨2, 1, 4, 6, [0], [], [(0, [7])], [], .selfTest⟩] }), by decide +kernel⟩,
   ⟨(3), (1), (anOp 3 (.eraseMember 2 0)), (withPort [] {} { queued := [(6, anOp 3 (.eraseMember 2 0))] }), by decide +kernel⟩,
   ⟨(.hart 0), (1), (1), (3), (withPort [] {} {}), by decide +kernel⟩,
   ⟨(3), (1), (withPort [] {} {}), by decide +kernel⟩,
   ⟨(3), (1), (2), ([]), (withPort [(F.LDC_CAL_CTRL_ENABLE, 1)] {} {}), by decide +kernel⟩⟩

theorem witness_SnapshotCommandsAnswer :
    (∃ (addr set edge count : Nat) (s : State), s.pins.powered = true ∧ s.flag F.SNP_CMD_BUSY = false ∧ edge % 2 ^ 64 < s.turn + 16) ∧
    (∃ (addr set edge count : Nat) (s : State), let u : State := s.snpStart 0 count addr set 0 edge false id; let l : List Nat := u.cutList (u.base F.SNP_CMD_ADDR_LO_ADDR F.SNP_CMD_ADDR_HI_ADDR 4) (count % 2 ^ 16); let cuts : List (Nat × Nat) := l.map fun e => (e % 2 ^ 16, bits e 39 16); s.pins.powered = true ∧ s.flag F.SNP_CMD_BUSY = false ∧ s.turn + 16 ≤ edge % 2 ^ 64 ∧ u.cutListBad l = false ∧
      s.snp.sets.length < 16) ∧
    (∃ (set : Nat) (c : CutSet) (s : State), s.pins.powered = true ∧ s.flag F.SNP_CMD_BUSY = false ∧
      s.snp.sets.find? (fun c => c.id == set % 2 ^ 16 && c.phase == 0 && decide (s.turn < c.edge)) = some c ∧ s.snp.held = []) ∧
    (∃ (set : Nat) (s : State), s.pins.powered = true ∧ s.flag F.SNP_CMD_BUSY = false ∧
      s.snp.sets.all (fun c => c.id != set % 2 ^ 16 || c.phase != 0 || decide (c.edge ≤ s.turn)) = true) ∧
    (∃ (volume : Nat) (s : State), s.pins.powered = true ∧ s.flag F.SNP_CMD_BUSY = false ∧ s.volValid (volume % 2 ^ 16) = false) ∧
    (∃ (volume : Nat) (s : State), let v : Nat := volume % 2 ^ 16; s.pins.powered = true ∧ s.flag F.SNP_CMD_BUSY = false ∧ s.volValid v = true ∧ ptrCorrupt (s.volRoot v) = false ∧
      ptrKind (s.volRoot v) = 0 ∧ s.map.splits = [] ∧ s.snp.swept = []) ∧
    (∃ (fromEmpty : Bool) (older newer count addr start : Nat) (s : State), let n : Nat := newer % 2 ^ 24; s.pins.powered = true ∧ s.flag F.SNP_CMD_BUSY = false ∧ bit (s.snapFlags n) 0 = false) ∧
    (∃ (older newer count addr start : Nat) (s : State), let o : Nat := s.snapAddr (older % 2 ^ 24); let n : Nat := s.snapAddr (newer % 2 ^ 24); s.pins.powered = true ∧ s.flag F.SNP_CMD_BUSY = false ∧ bit (s.snapFlags (older % 2 ^ 24)) 0 = true ∧
      bit (s.snapFlags (newer % 2 ^ 24)) 0 = true ∧ s.rdN (o + 0x18) 2 = s.rdN (n + 0x18) 2 ∧
      s.rdN (o + 0x10) 8 ≤ s.rdN (n + 0x10) 8 ∧ s.rdN (o + 0x1B) 1 = s.rdN (n + 0x1B) 1 ∧ s.rdN o 8 = s.rdN n 8 ∧
      ptrCorrupt (s.rdN n 8) = false) ∧
    (∃ (op : Nat) (s : State), s.pins.powered = true ∧ s.flag F.SNP_CMD_BUSY = false) :=
  ⟨⟨(0), (0), (15), (0), (snpHead [] []), by decide +kernel⟩,
   ⟨(0x100), (7), (16), (1), (snpHead [] [(0x1002, 5)]), by decide +kernel⟩,
   ⟨(7), (aSet 20 0), ({ snpHead [] [(2 ^ 32 + 0xBA, 4)] with snp := { sets := [aSet 20 0] } }), by decide +kernel⟩,
   ⟨(7), ({ snpHead [] [] with snp := { sets := [aSet 20 1] } }), by decide +kernel⟩,
   ⟨(3), (snpHead [] []), by decide +kernel⟩,
   ⟨(0), (snpHead [] []), by decide +kernel⟩,
   ⟨(false), (0), (5), (0), (0), (0), (snpHead [] []), by decide +kernel⟩,
   ⟨(5), (6), (4), (0), (0), (snpHead [] [(2 ^ 32 + 0xBA, 1), (2 ^ 32 + 0xDA, 1)]), by decide +kernel⟩,
   ⟨(4), (snpHead [] []), by decide +kernel⟩⟩

theorem witness_CutsAndReplicationMessagesTakeEffect :
    (∃ (set edge : Nat) (cuts : List (Nat × Nat)) (s : State), s.pins.powered = true) ∧
    (∃ (set edge : Nat) (cuts : List (Nat × Nat)) (c : CutSet) (s : State), s.pins.powered = true ∧ s.snp.sets.find? (fun c => c.id == set && c.mirrored && c.phase == 0) = some c) ∧
    (∃ (set : Nat) (c : CutSet) (s : State), let d : CutSet := { c with phase := 1, sCut := s.commit.lastSeq, guard := decide (1 < (c.cuts.map fun k => s.volHome k.1).eraseDups.length) }; let w : State := (s.cutsHeld c).foldl (fun t k => t.wr (t.snapAddr k.2 + 8) (leBytes 8 (c.edge * 1024) ++ leBytes 8 (ofInst s.commit.lastSeq (s.volHome k.1)))) s; s.pins.powered = true ∧ s.snp.sets.find? (fun c => c.id == set && c.phase == 0 && decide (c.edge ≤ s.turn)) = some c ∧
      c.mirrored = false ∧ (c.cuts.all fun k => w.volHome k.1 == s.volHome k.1) = true ∧
      ((s.cutsHeld c).all fun k => w.volValid k.1 && w.sweptVol k.1) = true) ∧
    (∃ (set : Nat) (c : CutSet) (s : State), s.pins.powered = true ∧ s.snp.sets.find? (fun c => c.id == set && c.guard) = some c) ∧
    (∃ (set : Nat) (c : CutSet) (s : State), let a : State × Nat := s.journalRoots c 0; let b : State × Nat := a.1.journalRoots c 1; let u : State := { b.1 with snp := { b.1.snp with sets := b.1.snp.sets.map fun d => if d == c then { d with phase := 2, jseq := (a.2, b.2) } else d } }; s.pins.powered = true ∧ s.snp.sets.find? (fun c => c.id == set && c.phase == 1) = some c ∧ s.cutsHeld c ≠ [] ∧
      ((s.cutsHeld c).all fun k => s.cutSettled c k.1 && s.cutWritten k.1) = true) ∧
    (∃ (set : Nat) (c : CutSet) (s : State), s.pins.powered = true ∧
      s.snp.sets.find? (fun c => c.id == set && decide (1 ≤ c.phase) && decide (c.edge + max 1 (s.fld F.SNP_CTRL_SEAL_LIMIT) ≤ s.turn)) = some c ∧
      s.cutsHeld c ≠ [] ∧ s.snp.held = []) ∧
    (∃ (link : Nat) (h : ReplHdr) (frames : List (Bytes × Bytes)) (s : State), s.pins.powered = true ∧ s.linkState (link % 64) = 0) ∧
    (∃ (link : Nat) (h : ReplHdr) (frames : List (Bytes × Bytes)) (s : State), let l : Nat := link % 64; let m : RxMsgSt := { link := l, seq := h.seq, volume := h.volume, lba := h.lba, header := hdrBytes h, fixed := h.fixed, frames := frames, st := List.replicate h.count .waiting }; s.pins.powered = true ∧ s.linkState l = 3 ∧ s.hdrRejected l h = false ∧ h.type = 1 ∧ s.volValid h.volume = true ∧
      s.holds (s.volHome h.volume) = true ∧ frames.length = h.count ∧ 0 < h.count ∧ h.count ≤ 64) ∧
    (∃ (link : Nat) (h : ReplHdr) (s : State), let l : Nat := link % 64; let m : RxMsgSt := { link := l, seq := h.seq, volume := h.volume, lba := h.lba, header := hdrBytes h, fixed := h.fixed, frames := [], st := List.replicate h.count .zero }; let u : State := (s.useGcm (s.linkKey l)).takeSeq l h.seq; s.pins.powered = true ∧ s.linkState l = 3 ∧ s.hdrRejected l h = false ∧ h.type = 2 ∧ s.volValid h.volume = true ∧
      s.holds (s.volHome h.volume) = true) ∧
    (∃ (link : Nat) (h : ReplHdr) (s : State), let l : Nat := link % 64; s.pins.powered = true ∧ s.linkState l = 3 ∧ s.hdrRejected l h = false ∧ h.type = 3) ∧
    (∃ (link : Nat) (h : ReplHdr) (s : State), let l : Nat := link % 64; s.pins.powered = true ∧ s.linkState l ≠ 0 ∧ s.hdrRejected l h = false ∧ h.type = 4 ∧ h.status = 0 ∧ h.seq < 2 ^ 64 ∧
      h.lba < 2 ^ 64) ∧
    (∃ (link : Nat) (s : State), let l : Nat := link % 64; s.pins.powered = true ∧ (s.snp.sync.any fun m => m.link == l) = true ∧ bit (s.linkConfig l) 0 = false) ∧
    (∃ (link : Nat) (s : State), let l : Nat := link % 64; s.pins.powered = true ∧ (s.snp.sync.any fun m => m.link == l) = true ∧ bit (s.linkConfig l) 0 = true) :=
  ⟨⟨(7), (20), ([(0, 5)]), (snpHead [] []), by decide +kernel⟩,
   ⟨(7), (0), ([]), ({ aSet 20 0 with mirrored := true }), ({ snpHead [] [] with snp := { sets := [{ aSet 20 0 with mirrored := true }] } }), by decide +kernel⟩,
   ⟨(7), (aSet 0 0), ({ snpHead [] [(2 ^ 32 + 0xBA, 4), (2 ^ 32 + 2 ^ 29 + 4, 1)] with snp := { sets := [aSet 0 0] }, commit := { lastSeq := (9, 4) } }), by decide +kernel⟩,
   ⟨(7), (aSet 0 1), ({ snpHead [] [] with snp := { sets := [aSet 0 1] } }), by decide +kernel⟩,
   ⟨(7), (aSet 0 1), ({ snpHead [] [(2 ^ 32 + 0xBA, 4), (2 ^ 32 + 2 ^ 29 + 4, 1)] with snp := { sets := [aSet 0 1] } }), by decide +kernel⟩,
   ⟨(7), (aSet 0 1), ({ snpHead [(F.SNP_CTRL_SEAL_LIMIT, 0), (F.TRN_NOW_LO_VALUE, 1024)] [(2 ^ 32 + 0xBA, 4)] with snp := { sets := [aSet 0 1] } }), by decide +kernel⟩,
   ⟨(0), (aHdr 1 1 1), ([]), (snpHead [] []), by decide +kernel⟩,
   ⟨(0), (aHdr 1 1 1), ([([1], [2])]), (snpHead [] [(2 ^ 32 + 0x20080000, 3)]), by decide +kernel⟩,
   ⟨(0), (aHdr 2 1 4), (snpHead [] [(2 ^ 32 + 0x20080000, 3)]), by decide +kernel⟩,
   ⟨(0), (aHdr 3 1 0), (snpHead [] [(2 ^ 32 + 0x20080000, 3)]), by decide +kernel⟩,
   ⟨(0), (aHdr 4 1 0), (snpHead [] [(2 ^ 32 + 0x20080000, 2)]), by decide +kernel⟩,
   ⟨(64), ({ snpHead [] [(2 ^ 32 + 0x20080000, 2)] with snp := { sync := [⟨0, 0, 4, 0, 0, 1, [], some 9, ⟨1, 5, 0, false⟩⟩] } }), by decide +kernel⟩,
   ⟨(64), ({ snpHead [] [(2 ^ 32 + 0x20080000, 2), (2 ^ 32 + 0x20080001, 1)] with snp := { sync := [⟨0, 0, 4, 0, 0, 1, [], some 9, ⟨1, 5, 0, false⟩⟩] } }), by decide +kernel⟩⟩

theorem witness_HostCommandsAreTakenAndEnd :
    (∃ (q : Nat) (c : HostCmd) (s : State), let u : State := s.testPacing; let v : State := (u.takeHead q (u.cmdBytes q c) c.op).setAdmitHeld false; let i : Nat := v.volHome (v.nsVolume c.nsid); s.pins.powered = true ∧ q < 65536 ∧ (c.op = .flush ∨ c.op = .read) ∧ s.flag F.NVQ_CTRL_ENABLE = true ∧ s.qState q = 1 ∧
      s.inService = true ∧ s.fetchHeld = false ∧ s.ctl.hold.phase < 2 ∧ s.headHeld q c = false ∧ u.cmdBytes q c ≤ u.qDeficit q ∧
      u.bucketOpen c.op = true ∧ v.fetchStatus q c = hsSuccess ∧ v.serves i = true) ∧
    (∃ (inst seq : Nat) (w : Waiting) (data : Bytes) (s : State), let used : List Version := takenVersions (sortBy (fun a b => decide (b.seq ≤ a.seq)) (s.ringVersions (inst % 2) w.volume w.lba seq ++ s.stagedVersions (inst % 2) w.volume w.lba seq)) 0; s.pins.powered = true ∧ s.waiting? (inst % 2) seq = some w ∧ w.open_ = false ∧ w.cmd.op = .read ∧ w.cmd.pract = true ∧
      w.count = 1 ∧ w.origin.forwarded = false ∧ lbaf512 (s.nsLbaf w.cmd.nsid) = false ∧ s.pinsFull w = false ∧
      s.commit.tcpHeld = [] ∧ (s.qTcp w.origin.queue = false ∨ s.commit.tcpOut < s.tcpLimit) ∧
      s.settledBelow (inst % 2) seq w.volume w.lba 1 = true ∧ s.heldVersion (inst % 2) w.volume w.lba seq = (0xFF, data, false) ∧
      used.all (fun v => v.intact) = true ∧ s.silent = false ∧ s.ctl.hold.phase < 2) ∧
    (∃ (inst seq : Nat) (w : Waiting) (s : State), s.pins.powered = true ∧ s.waiting? (inst % 2) seq = some w ∧ (w.cmd.op = .deallocate ∨ w.cmd.op = .writeZeroes) ∧
      s.settledBelow (inst % 2) seq w.volume w.lba w.count = true ∧ s.cutHolds (inst % 2) w.volume seq = false ∧
      (s.jnl (inst % 2)).hold = false ∧
      s.commit.waiting.any (fun r => r.inst == inst % 2 && decide (r.seq < seq) && overlaps r.volume r.lba r.count w.volume w.lba w.count) = false ∧
      w.count ≤ 128 ∧ s.missingFor (inst % 2) w.volume w.lba w.count = none) ∧
    (∃ (inst seq : Nat) (w : Waiting) (s : State), s.pins.powered = true ∧ s.waiting? (inst % 2) seq = some w ∧ w.cmd.op = .flush ∧ s.flushReady w = true ∧
      w.origin.forwarded = false ∧ s.pathLost w.origin.queue = false ∧ s.commit.tcpHeld = [] ∧ s.silent = false ∧
      s.ctl.hold.phase < 2) ∧
    (∃ (s : State), s.pins.powered = true ∧ s.writeThrough = true ∧ 1024 ≤ s.commit.goodTurns ∧ s.commit.turnGood = true ∧ s.wbGood = true) ∧
    (∃ (q : Nat) (s : State), s.pins.powered = true ∧ q < 65536 ∧ s.qState q = 2) ∧
    (∃ (port qpn cntl : Nat) (capsule : Bytes) (s : State), let i : Nat := s.fld F.NVQ_ADM_TAIL_INDEX; let a : Nat := s.nvqBase + 0x2500000 + 128 * i; let entry : Bytes := leBytes 4 port ++ leBytes 4 qpn ++ leBytes 4 cntl ++ zeros 4 ++ (capsule ++ zeros 112).take 112; s.pins.powered = true ∧ (i + 1) % 4096 ≠ s.fld F.NVQ_ADM_HEAD_INDEX) ∧
    (∃ (q cid : Nat) (header data : Bytes) (x : Xfer) (s : State), s.pins.powered = true ∧ s.fld F.NVQ_TCP_CFG_LIMIT_PCT ≠ 0 ∧ s.qTcp (q % 65536) = true ∧ s.tcpShut (q % 65536) = false ∧
      s.commit.tcpIn + data.length ≤ s.tcpLimit ∧ s.xfer? (q % 65536) cid = some x ∧ x.cmd.op = .compare ∧ x.cmd.pract = true ∧
      x.bytes.length + data.length < x.cmd.nlb * lbaSize (s.xferLbaf x) ∧ s.commit.due = []) :=
  ⟨⟨(1), (aCmd .flush), (inPair [(F.NVQ_CTRL_ENABLE, 1)] hostTables), by decide +kernel⟩,
   ⟨(0), (4), (⟨aCmd .read, 0, 4, 0, 7, 1, ⟨1, 5, 0, false⟩, false, [], [], none⟩), (zeros 8), ({ inPair [] hostTables with commit := { waiting := [⟨aCmd .read, 0, 4, 0, 7, 1, ⟨1, 5, 0, false⟩, false, [], [], none⟩], staging := [(0, ⟨0, 3, 0, 7, zeros 8, carryGuard (zeros 8), false, false, false, false, false, 0, .waiting, 0xFF, 0, none⟩)] } }), by decide +kernel⟩,
   ⟨(0), (4), (⟨aCmd .deallocate, 0, 4, 0, 7, 0, ⟨1, 5, 0, false⟩, false, [], [], none⟩), ({ inPair [] hostTables with commit := { waiting := [⟨aCmd .deallocate, 0, 4, 0, 7, 0, ⟨1, 5, 0, false⟩, false, [], [], none⟩] } }), by decide +kernel⟩,
   ⟨(0), (4), (⟨aCmd .flush, 0, 4, 0, 7, 0, ⟨1, 5, 0, false⟩, false, [], [], none⟩), ({ inPair [] (hostTables ++ []) with commit := { waiting := [⟨aCmd .flush, 0, 4, 0, 7, 0, ⟨1, 5, 0, false⟩, false, [], [], none⟩] }, dram := [(0x10004C, 1), (0x10004E, 1)] }), by decide +kernel⟩,
   ⟨({ inPair [(F.CMT_STATUS_MODE, 1), (F.CMT_DIRTY_LIMIT_LO_LIMIT_LO, 2 ^ 31), (F.CMT_DIRTY_CAP_LO_CAP_LO, 2 ^ 31), (F.CMT_CTRL_WB_RESUME_MIB, 1)] [] with commit := { goodTurns := 1024 } }), by decide +kernel⟩,
   ⟨(1), (inPair [(F.NVQ_FROZEN_COUNT, 3)] [(0x10004C, 2)]), by decide +kernel⟩,
   ⟨(1), (2), (3), ([9]), (inPair [] []), by decide +kernel⟩,
   ⟨(1), (5), ([6, 0, 24]), ([7]), (⟨⟨1, 5, 0, false⟩, aCmd .compare, 0, 0, [], [], 0, 0⟩), ({ inPair [(F.NVQ_TCP_CFG_LIMIT_PCT, 0xA)] ((hostTables.take 5) ++ [(0x10004E, 1)]) with commit := { xfers := [⟨⟨1, 5, 0, false⟩, aCmd .compare, 0, 0, [], [], 0, 0⟩] } }), by decide +kernel⟩⟩

theorem witness_ForwardedCommandsMoveOn :
    (∃ (q : Nat) (c : HostCmd) (s : State), let i : Nat := s.volHome (s.nsVolume c.nsid); let w : Waiting := ⟨c, i, s.nextSeq i, s.nsVolume c.nsid, 0, 0, ⟨q, c.cid, 0, true⟩, false, [], [], none⟩; s.pins.powered = true ∧ s.hearsPartner = true ∧ s.commit.fwdIn = [] ∧ c.op = .flush ∧ s.volValid (s.nsVolume c.nsid) = true) ∧
    (∃ (q cid seq own mirror count status : Nat) (f : Fwd) (s : State), s.pins.powered = true ∧ s.hearsPartner = true ∧ s.fwd? q cid = some f ∧ count ≠ 0 ∧ count < f.count) ∧
    (∃ (q cid seq own mirror status : Nat) (f : Fwd) (s : State), s.pins.powered = true ∧ s.hearsPartner = true ∧ s.fwd? q cid = some f ∧ f.cmd.op = .flush) ∧
    (∃ (q cid lba : Nat) (data : Bytes) (f : Fwd) (s : State), s.pins.powered = true ∧ s.hearsPartner = true ∧ s.fwd? q cid = some f ∧ f.ended = false) :=
  ⟨⟨(1), (aCmd .flush), (inPair [] hostTables), by decide +kernel⟩,
   ⟨(1), (5), (4), (8), (9), (64), (0), (⟨aCmd .write, ⟨1, 5, 0, false⟩, 0, 0, 65, 0, 0, 0, false, false, [], [], none, 0⟩), ({ inPair [] hostTables with commit := { fwd := [⟨aCmd .write, ⟨1, 5, 0, false⟩, 0, 0, 65, 0, 0, 0, false, false, [], [], none, 0⟩] } }), by decide +kernel⟩,
   ⟨(1), (5), (4), (0), (0), (0), (⟨aCmd .flush, ⟨1, 5, 0, false⟩, 0, 0, 0, 0, 0, 0, false, false, [], [], none, 0⟩), ({ inPair [] hostTables with commit := { fwd := [⟨aCmd .flush, ⟨1, 5, 0, false⟩, 0, 0, 0, 0, 0, 0, false, false, [], [], none, 0⟩] } }), by decide +kernel⟩,
   ⟨(1), (5), (7), ([1]), (⟨aCmd .read, ⟨1, 5, 0, false⟩, 0, 7, 1, 0, 0, 0, false, false, [], [], none, 0⟩), ({ inPair [] hostTables with commit := { fwd := [⟨aCmd .read, ⟨1, 5, 0, false⟩, 0, 7, 1, 0, 0, 0, false, false, [], [], none, 0⟩] } }), by decide +kernel⟩⟩

theorem witness_RequestPacketsAreTaken :
    (∃ (p : RocePkt) (s : State), s.pins.powered = true ∧ s.flag F.RDT_CTRL_ENABLE = true ∧ p.whole = true ∧ p.qpn = 1) ∧
    (∃ (p : RocePkt) (s : State), s.pins.powered = true ∧ s.flag F.RDT_CTRL_ENABLE = true ∧ p.whole = false) ∧
    (∃ (p : RocePkt) (s : State), s.pins.powered = true ∧ s.flag F.RDT_CTRL_ENABLE = true ∧ p.whole = true ∧ p.qpn ≠ 1 ∧ s.qpConnected p.qpn = false) ∧
    (∃ (p : RocePkt) (q : Qp) (s : State), let q1 : Qp := { q with rqPsn := (p.psn + 1) % 2 ^ 24, nakSent := false, unacked := 0, ackedPsn := p.psn }; s.pins.powered = true ∧ s.atHand p.qpn ∧ s.portsOpen ∧ s.prioPaused q.port q.prio = false ∧ p.whole = true ∧ p.qpn ≠ 1 ∧
      p.ecn = false ∧ s.qp? p.qpn = some q ∧ psnBehind q.rqPsn p.psn = 0 ∧ p.op = .send ∧ p.fieldsOk = true ∧
      p.first = q.rx.isNone ∧ q.rx.all (fun m => m.op == .send) = true ∧ hasRecv q = false ∧ p.ackReq = true) ∧
    (∃ (p : RocePkt) (q : Qp) (s : State), let q1 : Qp := { q with rqPsn := (p.psn + 1) % 2 ^ 24, nakSent := false, unacked := 0, ackedPsn := p.psn }; let w : State := s.physWr p.va p.data; s.pins.powered = true ∧ s.atHand p.qpn ∧ s.portsOpen ∧ s.prioPaused q.port q.prio = false ∧ p.whole = true ∧ p.qpn ≠ 1 ∧
      p.ecn = false ∧ s.qp? p.qpn = some q ∧ psnBehind q.rqPsn p.psn = 0 ∧ p.op = .write ∧ p.fieldsOk = true ∧ p.first = true ∧
      p.last = true ∧ p.imm = none ∧ q.rx = none ∧ p.ackReq = true ∧ s.mrAllows q.cls q.tenant p.rkey p.va p.len 2 = true ∧
      p.data.length = p.len ∧ bit (w.mrAccess (p.rkey / 256)) 4 = false) ∧
    (∃ (p : RocePkt) (q : Qp) (s : State), let n : Nat := max 1 (ceilDiv p.len (pmtuBytes q)); let last : Nat := (p.psn + n - 1) % 2 ^ 24; let q1 : Qp := { q with rqPsn := (last + 1) % 2 ^ 24, nakSent := false, unacked := 0, ackedPsn := last }; s.pins.powered = true ∧ s.atHand p.qpn ∧ s.portsOpen ∧ s.prioPaused q.port q.prio = false ∧ p.whole = true ∧ p.qpn ≠ 1 ∧
      p.ecn = false ∧ s.qp? p.qpn = some q ∧ psnBehind q.rqPsn p.psn = 0 ∧ p.op = .read ∧ p.fieldsOk = true ∧ p.first = true ∧
      q.rx = none ∧ s.mrAllows q.cls q.tenant p.rkey p.va p.len 1 = true) ∧
    (∃ (p : RocePkt) (q : Qp) (s : State), let old : Nat := s.physRdN p.va 8; let w : State := s.physWrN p.va 8 ((old + p.swap) % 2 ^ 64); let q1 : Qp := { q with rqPsn := (p.psn + 1) % 2 ^ 24, nakSent := false, unacked := 0, ackedPsn := p.psn, atomics := (q.atomics ++ [(p.psn, old)]).drop (q.atomics.length + 1 - 16) }; s.pins.powered = true ∧ s.atHand p.qpn ∧ s.portsOpen ∧ s.prioPaused q.port q.prio = false ∧ p.whole = true ∧ p.qpn ≠ 1 ∧
      p.ecn = false ∧ s.qp? p.qpn = some q ∧ psnBehind q.rqPsn p.psn = 0 ∧ p.op = .fetchAdd ∧ p.fieldsOk = true ∧ p.first = true ∧
      q.rx = none ∧ p.va % 8 = 0 ∧ s.mrAllows q.cls q.tenant p.rkey p.va 8 3 = true) ∧
    (∃ (p : RocePkt) (q : Qp) (s : State), s.pins.powered = true ∧ s.atHand p.qpn ∧ s.portsOpen ∧ s.prioPaused q.port q.prio = false ∧ p.whole = true ∧ p.qpn ≠ 1 ∧
      p.ecn = false ∧ s.qp? p.qpn = some q ∧ 2 ^ 23 < psnBehind q.rqPsn p.psn) ∧
    (∃ (p : RocePkt) (q : Qp) (s : State), s.pins.powered = true ∧ s.atHand p.qpn ∧ s.portsOpen ∧ s.prioPaused q.port q.prio = false ∧ p.whole = true ∧ p.qpn ≠ 1 ∧
      p.ecn = false ∧ s.qp? p.qpn = some q ∧ psnBehind q.rqPsn p.psn ≠ 0 ∧ psnBehind q.rqPsn p.psn ≤ 1024 ∧
      (p.op = .send ∨ p.op = .write)) ∧
    (∃ (p : RocePkt) (s : State), s.pins.powered = true ∧ s.flag F.RDT_CTRL_ENABLE = true ∧ p.whole = true ∧ p.qpn ≠ 1 ∧ s.qpConnected p.qpn = true ∧
      s.rdt.cache = [] ∧ s.rdt.parked = [] ∧ s.rdt.writing = [] ∧ s.rdt.fetching = []) :=
  ⟨⟨({ aPkt .send 0 0 0 [7] with qpn := 1 }), (rdtHead [] [] aQp), by decide +kernel⟩,
   ⟨({ aPkt .send 0 0 0 [7] with whole := false }), (rdtHead [] [] aQp), by decide +kernel⟩,
   ⟨(aPkt .send 0 0 0 [7]), (rdtHead [] [] { aQp with state := 2 }), by decide +kernel⟩,
   ⟨(aPkt .send 200 0 1 [7]), (aQp), (rdtHead [] [] aQp), by decide +kernel⟩,
   ⟨(aPkt .write 200 0x8000 2 [7, 9]), (aQp), (rdtHead [] [] aQp), by decide +kernel⟩,
   ⟨(aPkt .read 200 0x8000 1025 []), (aQp), (rdtHead [] [(0x8000, 6)] aQp), by decide +kernel⟩,
   ⟨(aPkt .fetchAdd 200 0x8000 8 []), (aQp), (rdtHead [] [(0x8000, 6)] aQp), by decide +kernel⟩,
   ⟨(aPkt .send 201 0 1 [7]), (aQp), (rdtHead [] [] aQp), by decide +kernel⟩,
   ⟨(aPkt .write 198 0 1 [7]), (aQp), (rdtHead [] [] aQp), by decide +kernel⟩,
   ⟨(aPkt .write 198 0 1 [7]), ({ rdtHead [] [] aQp with rdt := { qps := [(5, aQp)] } }), by decide +kernel⟩⟩

theorem witness_AnswersTimersAndContextsTakeEffect :
    (∃ (qpn psn : Nat) (data : Bytes) (pi : List PiIn) (at_ : Nat) (q : Qp) (w : OutWqe) (s : State), let v : State := s.physWr (w.laddr + w.got * pmtuBytes q) data; let q1 : Qp := { q with out := [], retriesLeft := q.retry, rnrLeft := q.rnrRetry }; s.pins.powered = true ∧ s.atHand qpn ∧ s.qp? qpn = some q ∧ s.undragged = true ∧ q.out = [w] ∧ q.readQ = [] ∧
      w.reads = true ∧ w.host = none ∧ w.signaled = false ∧ (w.first + w.got) % 2 ^ 24 = psn % 2 ^ 24 ∧ w.last = psn % 2 ^ 24 ∧
      s.commit.due = []) ∧
    (∃ (qpn psn : Nat) (q : Qp) (w : OutWqe) (c : Cq) (s : State), let q1 : Qp := { q with out := [], retriesLeft := q.retry, rnrLeft := q.rnrRetry }; s.pins.powered = true ∧ s.atHand qpn ∧ s.qp? qpn = some q ∧ s.undragged = true ∧ q.out = [w] ∧ w.reads = false ∧
      psnLe w.last psn = true ∧ s.cq? q.scq = some c ∧ c.bad = false ∧ c.unread < c.size) ∧
    (∃ (qpn psn : Nat) (q : Qp) (w : OutWqe) (s : State), s.pins.powered = true ∧ s.atHand qpn ∧ s.portsOpen ∧ s.prioPaused q.port q.prio = false ∧ s.qp? qpn = some q ∧
      s.undragged = true ∧ q.out = [w] ∧ (w.reads || !psnLe w.last ((psn + 2 ^ 24 - 1) % 2 ^ 24)) = true ∧ 0 < q.retriesLeft) ∧
    (∃ (qpn at_ : Nat) (q : Qp) (s : State), let g : Nat := s.fld F.RDT_CC_CFG_G; s.pins.powered = true ∧ s.atHand qpn ∧ s.qp? qpn = some q ∧ s.flag F.RDT_CTRL_CC_EN = true ∧
      q.cutAt.all (fun c => decide (c + 50000 ≤ at_)) = true) ∧
    (∃ (qpn : Nat) (q : Qp) (s : State), s.pins.powered = true ∧ s.flag F.RDT_CTRL_CC_EN = true ∧ s.qp? qpn = some q ∧ q.state = 1) ∧
    (∃ (qpn : Nat) (q : Qp) (s : State), let rt : Nat := if 5 ≤ q.steps then min (q.rt + s.fld F.RDT_CC_RATES_AI_MBPS) (s.portRate q.port) else q.rt; s.pins.powered = true ∧ s.flag F.RDT_CTRL_CC_EN = true ∧ s.qp? qpn = some q ∧ q.state = 1) ∧
    (∃ (qpn : Nat) (q : Qp) (w : OutWqe) (r : List OutWqe) (s : State), s.pins.powered = true ∧ s.qp? qpn = some q ∧ s.portsOpen ∧ s.prioPaused q.port q.prio = false ∧ q.out = w :: r ∧
      q.state = 1 ∧ 0 < q.retriesLeft) ∧
    (∃ (qpn : Nat) (q : Qp) (s : State), s.pins.powered = true ∧ s.qp? qpn = some q ∧ s.portsOpen ∧ s.prioPaused q.port q.prio = false ∧ q.state = 1 ∧
      q.rnrWait = true) ∧
    (∃ (qpn : Nat) (v : Option Nat) (s : State), s.pins.powered = true ∧ s.rdt.fetching.find? (fun f => f.1 == qpn) = some (qpn, v) ∧
      (s.rdt.parked.any fun p => pktQpn p == qpn) = false) ∧
    (∃ (qpn : Nat) (s : State), s.pins.powered = true ∧ s.rdt.writing.contains qpn = true ∧ (s.rdt.parked.any fun p => pktQpn p == qpn) = false) :=
  ⟨⟨(5), (100), ([7]), ([]), (0), ({ aQp with out := [aWork 5 100 100] }), (aWork 5 100 100), (rdtHead [] [] { aQp with out := [aWork 5 100 100] }), by decide +kernel⟩,
   ⟨(5), (101), ({ aQp with out := [{ aWork 1 100 101 with signaled := true }] }), ({ aWork 1 100 101 with signaled := true }), ({ cls := 0, tenant := 0, addr := 0x6000, size := 16 }), (rdtHead [] [] { aQp with out := [{ aWork 1 100 101 with signaled := true }] }), by decide +kernel⟩,
   ⟨(5), (101), ({ aQp with out := [{ aWork 1 100 101 with pkts := [aPkt .send 100 0 1 [1], aPkt .send 101 0 1 [2]] }] }), ({ aWork 1 100 101 with pkts := [aPkt .send 100 0 1 [1], aPkt .send 101 0 1 [2]] }), (rdtHead [] [] { aQp with out := [{ aWork 1 100 101 with pkts := [aPkt .send 100 0 1 [1], aPkt .send 101 0 1 [2]] }] }), by decide +kernel⟩,
   ⟨(5), (50000), ({ aQp with cutAt := some 0 }), (rdtHead [(F.RDT_CTRL_CC_EN, 1)] [] { aQp with cutAt := some 0 }), by decide +kernel⟩,
   ⟨(5), (aQp), (rdtHead [(F.RDT_CTRL_CC_EN, 1)] [] aQp), by decide +kernel⟩,
   ⟨(5), ({ aQp with steps := 5 }), (rdtHead [(F.RDT_CTRL_CC_EN, 1)] [] { aQp with steps := 5 }), by decide +kernel⟩,
   ⟨(5), ({ aQp with out := [aWork 1 100 101] }), (aWork 1 100 101), ([]), (rdtHead [] [] { aQp with out := [aWork 1 100 101] }), by decide +kernel⟩,
   ⟨(5), ({ aQp with rnrWait := true }), (rdtHead [] [] { aQp with rnrWait := true }), by decide +kernel⟩,
   ⟨(9), (some 5), ({ rdtHead [] [] aQp with rdt := { qps := [(5, aQp), (9, aQp)], cache := [5], fetching := [(9, some 5)] } }), by decide +kernel⟩,
   ⟨(5), ({ rdtHead [] [] aQp with rdt := { qps := [(5, aQp)], writing := [5] } }), by decide +kernel⟩⟩

theorem witness_QueuePairsAndWorkTakeEffect :
    (∃ (qpn : Nat) (q : Qp) (s : State), let k : Nat := q.sqHead % q.sqSize; let w : Wqe := s.readWqe (q.sqAddr + 64 * k); let q1 : Qp := { q with sqHead := q.sqHead + 1 }; let data : Bytes := if w.isInline then w.inline_.take w.len else s.physRd w.local_ w.len; let pkts : List RocePkt := dataPkts q1 .send (if w.op = 2 then some w.aux else none) 0 0 data; s.pins.powered = true ∧ s.qp? qpn = some q ∧ s.portsOpen ∧ s.prioPaused q.port q.prio = false ∧
      s.flag F.RDT_CTRL_ENABLE = true ∧ q.sqSize ≠ 0 ∧ q.state = 1 ∧ q.tally = none ∧ q.rnrWait = false ∧ w.reserved = false ∧
      (w.op = 1 ∨ w.op = 2) ∧ w.fence = false ∧ s.wqeError q w = 0) ∧
    (∃ (qpn : Nat) (q : Qp) (s : State), let k : Nat := q.sqHead % q.sqSize; let w : Wqe := s.readWqe (q.sqAddr + 64 * k); let q1 : Qp := { q with sqHead := q.sqHead + 1 }; let p : RocePkt := mkPkt q1 q.sqPsn .read w.remote w.rkey w.len; let n : Nat := max 1 (ceilDiv w.len (pmtuBytes q)); s.pins.powered = true ∧ s.qp? qpn = some q ∧ s.portsOpen ∧ s.prioPaused q.port q.prio = false ∧
      s.flag F.RDT_CTRL_ENABLE = true ∧ q.sqSize ≠ 0 ∧ q.state = 1 ∧ q.tally = none ∧ q.rnrWait = false ∧ w.reserved = false ∧
      w.op = 5 ∧ (q.out.filter OutWqe.reads).length < 16 ∧ w.fence = false ∧ s.wqeError q w = 0) ∧
    (∃ (qpn : Nat) (q : Qp) (c : Cq) (s : State), let k : Nat := q.sqHead % q.sqSize; let w : Wqe := s.readWqe (q.sqAddr + 64 * k); s.pins.powered = true ∧ s.qp? qpn = some q ∧ s.flag F.RDT_CTRL_ENABLE = true ∧ q.sqSize ≠ 0 ∧ q.state = 1 ∧ q.tally = none ∧
      q.rnrWait = false ∧ w.reserved = false ∧ w.op = 9 ∧ s.tallyCq q w = some c ∧ s.undragged = true) ∧
    (∃ (qpn since : Nat) (q : Qp) (c : Cq) (s : State), let w : Wqe := (s.headWqe q).2; s.pins.powered = true ∧ s.qp? qpn = some q ∧ q.tally = some since ∧ s.tallyCq q w = some c ∧
      tallyMet c.count w.remote = true ∧ w.signaled = false ∧ s.undragged = true) ∧
    (∃ (qpn since : Nat) (q : Qp) (s : State), s.pins.powered = true ∧ s.qp? qpn = some q ∧ q.tally = some since ∧ q.state = 1 ∧
      since + max 1 (s.fld F.RDT_TALLY_TIMEOUT_TIMEOUT) ≤ s.turn) ∧
    (∃ (arg addr n : Nat) (q : Qp) (s : State), let u : State := s.rdtStart 0 arg addr id; s.pins.powered = true ∧ s.flag F.RDT_CMD_BUSY = false ∧
      u.qpBlock (u.base F.RDT_CMD_ADDR_LO_ADDR F.RDT_CMD_ADDR_HI_ADDR 6) = some (n, q) ∧ s.qp? n = none ∧
      (q.cls = 0 ∨ s.rdt.disabled.contains q.tenant = false) ∧ s.queuesMatch q = true ∧
      (s.rdt.qps.filter fun p => p.2.cls == 1).length < 65536) ∧
    (∃ (qpn : Nat) (q : Qp) (s : State), let n : Nat := qpn % 2 ^ 24; let r : Nat := s.portRate q.port; s.pins.powered = true ∧ s.flag F.RDT_CMD_BUSY = false ∧ s.qp? n = some q ∧
      (q.cls = 0 ∨ s.rdt.disabled.contains q.tenant = false) ∧ q.state = 0) ∧
    (∃ (qpn : Nat) (q : Qp) (s : State), s.pins.powered = true ∧ s.flag F.RDT_CMD_BUSY = false ∧ s.qp? (qpn % 2 ^ 24) = some q ∧
      (q.cls = 0 ∨ s.rdt.disabled.contains q.tenant = false) ∧ s.commit.own = []) ∧
    (∃ (qpn : Nat) (s : State), let n : Nat := qpn % 2 ^ 24; let k : Nat := (s.rdt.parked.filter fun p => pktQpn p == n).length; s.pins.powered = true ∧ s.flag F.RDT_CMD_BUSY = false ∧ (s.qp? n).isSome = true) ∧
    (∃ (cq cls tenant addr size : Nat) (s : State), s.pins.powered = true ∧ s.flag F.RDT_CMD_BUSY = false ∧ cq < 16384 ∧ cls < 2 ∧ tenant < 4096 ∧ (cls = 1 ∨ tenant = 0) ∧
      0 < size ∧ s.cq? cq = none) ∧
    (∃ (cq : Nat) (s : State), let c : Nat := cq % 2 ^ 24; s.pins.powered = true ∧ s.flag F.RDT_CMD_BUSY = false ∧ (s.cq? c).isSome = true ∧
      (s.rdt.qps.any fun p => p.2.scq == c || p.2.rcq == c) = false) ∧
    (∃ (srq cls tenant addr size : Nat) (s : State), s.pins.powered = true ∧ s.flag F.RDT_CMD_BUSY = false ∧ srq < 1024 ∧ cls < 2 ∧ tenant < 4096 ∧ (cls = 1 ∨ tenant = 0) ∧
      0 < size ∧ s.rdt.srqs.get? srq = none) ∧
    (∃ (srq : Nat) (s : State), let c : Nat := srq % 2 ^ 24; s.pins.powered = true ∧ s.flag F.RDT_CMD_BUSY = false ∧ (s.rdt.srqs.get? c).isSome = true ∧
      (s.rdt.qps.any fun p => p.2.srq == c + 1) = false) ∧
    (∃ (tenant : Nat) (s : State), let n : Nat := tenant % 2 ^ 24; s.pins.powered = true ∧ s.flag F.RDT_CMD_BUSY = false) ∧
    (∃ (op : Nat) (s : State), s.pins.powered = true ∧ s.flag F.RDT_CMD_BUSY = false) :=
  ⟨⟨(5), (aQp), (rdtHead [] [(0x4000, 1), (0x4001, 4), (0x4010, 7), (0x4018, 1)] aQp), by decide +kernel⟩,
   ⟨(5), (aQp), (rdtHead [] [(0x4000, 5), (0x4010, 7), (0x4018, 1)] aQp), by decide +kernel⟩,
   ⟨(5), (aQp), ({ cls := 0, tenant := 0, addr := 0x6000, size := 16 }), (rdtHead [] [(0x4000, 9), (0x4004, 1), (0x4020, 1)] aQp), by decide +kernel⟩,
   ⟨(5), (0), ({ aQp with tally := some 0 }), ({ cls := 0, tenant := 0, addr := 0x6000, size := 16 }), (rdtHead [] [(0x4000, 9), (0x4004, 1)] { aQp with tally := some 0 }), by decide +kernel⟩,
   ⟨(5), (0), ({ aQp with tally := some 0 }), (rdtHead [(F.RDT_TALLY_TIMEOUT_TIMEOUT, 1), (F.TRN_NOW_LO_VALUE, 1024)] [(0x4000, 9), (0x4004, 1)] { aQp with tally := some 0 }), by decide +kernel⟩,
   ⟨(0), (0x9000), (6), ({ aQp with dest := 0, retry := 0, rnrRetry := 0, sqSize := 0, sqAddr := 0, state := 0, sqPsn := 0, rqPsn := 0, retriesLeft := 0, rnrLeft := 0, rc := 0, rt := 0, ackTimeout := 1, destIp := zeros 16, destMac := zeros 6, ackedPsn := 16777215 }), (rdtHead [] [(0x9000, 6), (0x9014, 1), (0x9016, 1), (0x9030, 0x80), (0x9038, 1), (0x903A, 1)] aQp), by decide +kernel⟩,
   ⟨(5), ({ aQp with state := 0 }), (rdtHead [] [] { aQp with state := 0 }), by decide +kernel⟩,
   ⟨(5), (aQp), (rdtHead [] [] aQp), by decide +kernel⟩,
   ⟨(5), ({ rdtHead [] [] aQp with rdt := { qps := [(5, aQp)], cache := [5], parked := [.ack 5 1] } }), by decide +kernel⟩,
   ⟨(16383), (1), (4095), (0), (1), (rdtHead [] [] aQp), by decide +kernel⟩,
   ⟨(1), ({ rdtHead [] [] aQp with rdt := { cqs := [(1, { cls := 0, tenant := 0, addr := 0x6000, size := 16 })] } }), by decide +kernel⟩,
   ⟨(1023), (0), (0), (0), (1), (rdtHead [] [] aQp), by decide +kernel⟩,
   ⟨(0), ({ rdtHead [] [] aQp with rdt := { srqs := [(0, { cls := 0, tenant := 0, addr := 0x6000, size := 16 })] } }), by decide +kernel⟩,
   ⟨(9), ({ rdtHead [] [] aQp with rdt := { disabled := [9] } }), by decide +kernel⟩,
   ⟨(9), (rdtHead [] [] aQp), by decide +kernel⟩⟩

theorem witness_EthernetPortsAndQuarantineTakeEffect :
    (∃ (port : Nat) (s : State), let p : Nat := port % 16; let n : Nat := (s.pattern.ethernet[p / 4]?).getD 0; s.pins.powered = true ∧ s.flag (F.ETH_PORT_CTRL_ENABLE p) = true ∧ portUsed s.pattern.ethernet p = true ∧
      s.pins.portsOn = true) ∧
    (∃ (port : Nat) (s : State), let p : Nat := port % 16; s.pins.powered = true) ∧
    (∃ (port mask pause : Nat) (s : State), let p : Nat := port % 16; let was : Nat := (s.rdt.paused.get? p).getD 0; s.pins.powered = true ∧ s.egress = [] ∧ (s.rdt.qps.all fun x => x.2.sendQ.isEmpty) = true) ∧
    (∃ (pool index : Nat) (s : State), let p : Nat := pool % 64; let q : List Nat := (s.bbm.quar.get? p).getD []; let aged : Bool := decide (max 1 (s.fld F.RDT_QUAR_CFG_QUAR_TURNS) ≤ (s.turn + 2 ^ 32 - s.physRdN (s.metaAddr p index + 12) 4) % 2 ^ 32); s.pins.powered = true ∧ q.contains index = true ∧ s.qp? (s.link p index) = none) :=
  ⟨⟨(2), ({ inPair [(F.ETH_PORT_CTRL_ENABLE 2, 1)] [] with pattern := { ethernet := [2, 0, 0, 0] }, pins := { powered := true, portsOn := true } }), by decide +kernel⟩,
   ⟨(18), (inPair [(F.ETH_PORT_STATUS_UP 2, 1)] []), by decide +kernel⟩,
   ⟨(2), (9), (1), ({ inPair [(F.ETH_PORT_CTRL_PFC_EN 2, 8)] [] with rdt := { paused := [(2, 3)] } }), by decide +kernel⟩,
   ⟨(0), (1), ({ inPair [(F.TRN_NOW_LO_VALUE, 0x10000), (F.RDT_QUAR_CFG_QUAR_TURNS, 2)] [] with bbm := { quar := [(0, [1])] } }), by decide +kernel⟩⟩

theorem witness_CacheRequestsSeeTheNewestBytes :
    (∃ (r : MemReq) (w : Nat) (c : CLine) (s : State), s.pins.powered = true ∧ inWindow r.addr = false ∧ inSpad r.addr = false ∧ s.installed r.addr = true ∧
      (s.scc.misses.any fun m => m.line == r.addr / 64) = false ∧ s.wayOf (r.addr / 64) = some w ∧
      s.scc.lines.get? (wayKey (r.addr / 64) w) = some c ∧ r.data = none) ∧
    (∃ (r : MemReq) (w : Nat) (c : CLine) (d : Bytes) (s : State), s.pins.powered = true ∧ inWindow r.addr = false ∧ inSpad r.addr = false ∧ s.installed r.addr = true ∧
      (s.scc.misses.any fun m => m.line == r.addr / 64) = false ∧ s.wayOf (r.addr / 64) = some w ∧
      s.scc.lines.get? (wayKey (r.addr / 64) w) = some c ∧ r.data = some d) ∧
    (∃ (r : MemReq) (e : MemErr) (s : State), s.pins.powered = true ∧ inWindow r.addr = false ∧ inSpad r.addr = false ∧ s.installed r.addr = false) ∧
    (∃ (line : Nat) (r : MemReq) (way : Nat) (s : State), s.pins.powered = true ∧ s.scc.misses = [{ line := line, reqs := [r], filled := false }] ∧ s.scc.waiting = [] ∧
      r.data = none ∧ s.effMask r.cls ≠ [] ∧ s.pickWay line (s.effMask r.cls) = way ∧ s.scc.lines.get? (wayKey line way) = none) ∧
    (∃ (line : Nat) (v : Victim) (s : State), s.pins.powered = true ∧ s.victim? line = some v ∧ s.scc.misses = [] ∧ s.scc.waiting = []) :=
  ⟨⟨({ cls := 0, addr := 128, len := 4, data := none }), (3), ({ line := 2, dirty := false, old := [] }), ({ onWith [(F.DMC_INFO_CAP_GIB, 4)] with scc := { lines := [(wayKey 2 3, { line := 2, dirty := false, old := [] })] } }), by decide +kernel⟩,
   ⟨({ cls := 0, addr := 128, len := 4, data := some [1, 2] }), (3), ({ line := 2, dirty := false, old := [] }), ([1, 2]), ({ onWith [(F.DMC_INFO_CAP_GIB, 4)] with scc := { lines := [(wayKey 2 3, { line := 2, dirty := false, old := [] })] } }), by decide +kernel⟩,
   ⟨({ cls := 0, addr := 128, len := 4, data := none }), (MemErr.none), (onHead), by decide +kernel⟩,
   ⟨(2), ({ cls := 0, addr := 128, len := 4, data := none }), (0), ({ onWith [(F.SCC_WAYMASK_MASK 0, 0xFFFF)] with scc := { misses := [{ line := 2, reqs := [{ cls := 0, addr := 128, len := 4, data := none }], filled := false }] } }), by decide +kernel⟩,
   ⟨(2), ({ line := 2, old := [] }), ({ onHead with scc := { victims := [{ line := 2, old := [] }] } }), by decide +kernel⟩⟩

theorem witness_RangeOperationsAndScratchpad :
    (∃ (who : Requester) (s : State), let a : Nat := s.pair F.SCC_RANGE_ADDR_LO_VALUE F.SCC_RANGE_ADDR_HI_VALUE / 64 * 64; let n : Nat := s.pair F.SCC_RANGE_LEN_LO_VALUE F.SCC_RANGE_LEN_HI_VALUE / 64 * 64; s.pins.powered = true ∧ s.flag F.SCC_RANGE_CMD_BUSY = false ∧ n ≠ 0 ∧ n ≤ 2 ^ 40) ∧
    (∃ (who : Requester) (s : State), let a : Nat := s.pair F.SCC_RANGE_ADDR_LO_VALUE F.SCC_RANGE_ADDR_HI_VALUE / 64 * 64; let n : Nat := s.pair F.SCC_RANGE_LEN_LO_VALUE F.SCC_RANGE_LEN_HI_VALUE / 64 * 64; s.pins.powered = true ∧ s.flag F.SCC_RANGE_CMD_BUSY = false ∧ n ≠ 0 ∧ n ≤ 2 ^ 40) ∧
    (∃ (s : State), let a : Nat := s.pair F.SCC_RANGE_ADDR_LO_VALUE F.SCC_RANGE_ADDR_HI_VALUE / 64 * 64; let n : Nat := s.pair F.SCC_RANGE_LEN_LO_VALUE F.SCC_RANGE_LEN_HI_VALUE / 64 * 64; s.pins.powered = true ∧ s.flag F.SCC_RANGE_CMD_BUSY = false ∧ n ≠ 0 ∧ n ≤ 2 ^ 40) ∧
    (∃ (who : Requester) (s : State), s.pins.powered = true ∧ who ≠ Requester.referee ∧ s.flag F.SCC_RANGE_CMD_BUSY = false) ∧
    (∃ (who : Requester) (s : State), s.pins.powered = true ∧ s.flag F.SCC_RANGE_CMD_BUSY = false) ∧
    (∃ (off len k : Nat) (data : Option Bytes) (s : State), s.pins.powered = true ∧ s.spadPlace off = some k ∧ off + (data.getD []).length ≤ spadSize) ∧
    (∃ (off len : Nat) (data : Option Bytes) (e : MemErr) (s : State), s.pins.powered = true ∧ s.spadPlace off = none) :=
  ⟨⟨(.pcie), ({ onWith [(F.SCC_RANGE_LEN_LO_VALUE, 256)] with scc := { lines := [(wayKey 2 3, { line := 2, dirty := true, old := [] })] } }), by decide +kernel⟩,
   ⟨(.pcie), ({ onWith [(F.SCC_RANGE_LEN_LO_VALUE, 256)] with scc := { lines := [(wayKey 2 3, { line := 2, dirty := true, old := [] })] } }), by decide +kernel⟩,
   ⟨({ onWith [(F.SCC_RANGE_LEN_LO_VALUE, 256)] with scc := { lines := [(wayKey 2 3, { line := 2, dirty := true, old := zeros 64 })] } }), by decide +kernel⟩,
   ⟨(.pcie), (onHead), by decide +kernel⟩,
   ⟨(.pcie), (onHead), by decide +kernel⟩,
   ⟨(5), (4), (5), (none), (onWith [(F.SCC_STATUS_SPAD_WAYS, 1)]), by decide +kernel⟩,
   ⟨(5), (4), (none), (MemErr.none), (onHead), by decide +kernel⟩⟩

theorem witness_MemoryUpkeepTakesEffect :
    (∃ (rows : List RowErrs) (bad : List Nat) (s : State), s.pins.powered = true ∧ s.fld F.DMC_SCRUB_CFG_HOURS ≠ 0) ∧
    (∃ (spare : Bool) (s : State), s.pins.powered = true ∧ s.flag F.DMC_PPR_CMD_BUSY = false) ∧
    (∃ (spare : Bool) (s : State), s.pins.powered = true ∧ s.flag F.DMC_PPR_CMD_BUSY = false) :=
  ⟨⟨([{ row := 7, count := 9 }]), ([64, 128]), (onWith [(F.DMC_SCRUB_CFG_HOURS, 24)]), by decide +kernel⟩,
   ⟨(true), (onHead), by decide +kernel⟩,
   ⟨(true), (onHead), by decide +kernel⟩⟩

theorem witness_BobbinOperationsKeepCounts :
    (∃ (cls tenant pool : Nat) (s : State), s.pins.powered = true ∧ pool < 64 ∧ tenant < 4096 ∧ s.flag (F.BBM_POOL_CTRL_ENABLE pool) = true ∧
      s.flag (F.BBM_POOL_STATUS_CORRUPT pool) = false ∧ s.poolTenant pool = tenant ∧ s.freeCount pool ≠ 0 ∧
      (tenant = 0 ∨ s.quotaUsed tenant + s.poolUnits pool ≤ s.quotaLimit tenant) ∧ s.poolHead pool < s.poolCount pool ∧
      s.bobState pool (s.poolHead pool) = 0) ∧
    (∃ (tenant pool : Nat) (s : State), s.pins.powered = true ∧ pool < 64 ∧ tenant < 4096 ∧ s.flag F.BBM_ALLOC_CMD_BUSY = false ∧
      s.flag (F.BBM_POOL_CTRL_ENABLE pool) = true ∧ s.flag (F.BBM_POOL_STATUS_CORRUPT pool) = false ∧ s.poolTenant pool = tenant ∧
      s.freeCount pool ≠ 0 ∧ (tenant = 0 ∨ s.quotaUsed tenant + s.poolUnits pool ≤ s.quotaLimit tenant) ∧
      s.poolHead pool < s.poolCount pool ∧ s.bobState pool (s.poolHead pool) = 0) ∧
    (∃ (tenant handle : Nat) (s : State), s.pins.powered = true ∧ s.mayRef tenant handle = true ∧ s.refCount (handlePool handle) (handleIndex handle) < 0xFFFF) ∧
    (∃ (tenant handle : Nat) (s : State), s.pins.powered = true ∧ s.mayRef tenant handle = true ∧ 2 ≤ s.refCount (handlePool handle) (handleIndex handle)) ∧
    (∃ (tenant handle : Nat) (s : State), s.pins.powered = true ∧ s.mayRef tenant handle = false) ∧
    (∃ (pool : Nat) (s : State), s.pins.powered = true ∧ pool < 64 ∧ s.flag (F.BBM_POOL_CTRL_ENABLE pool) = false ∧ s.poolCount pool ≠ 0) :=
  ⟨⟨(1), (0), (2), ({ onWith [(F.BBM_POOL_CTRL_ENABLE 2, 1), (F.BBM_POOL_COUNT_COUNT 2, 8), (F.BBM_POOL_STATUS_FREE_COUNT 2, 8), (F.BBM_POOL_BASE_LO_ADDR 2, 1)] with bbm := { head := [(2, 3)] } }), by decide +kernel⟩,
   ⟨(0), (2), ({ onWith [(F.BBM_POOL_CTRL_ENABLE 2, 1), (F.BBM_POOL_COUNT_COUNT 2, 8), (F.BBM_POOL_STATUS_FREE_COUNT 2, 8), (F.BBM_POOL_BASE_LO_ADDR 2, 1)] with bbm := { head := [(2, 3)] } }), by decide +kernel⟩,
   ⟨(0), (2 * 2 ^ 26 + 3), ((onWith [(F.BBM_POOL_COUNT_COUNT 2, 8)]).putMeta 2 3 1 4096 0 0 0), by decide +kernel⟩,
   ⟨(0), (2 * 2 ^ 26 + 3), ((onWith [(F.BBM_POOL_COUNT_COUNT 2, 8)]).putMeta 2 3 2 4096 0 0 0), by decide +kernel⟩,
   ⟨(0), (noBobbin), (onHead), by decide +kernel⟩,
   ⟨(2), (onWith [(F.BBM_POOL_COUNT_COUNT 2, 8)]), by decide +kernel⟩⟩

theorem witness_OnlyTheRefereeCoresRunKeyCommands :
    ∃ (who : Requester) (op slot : Nat) (s : State), s.pins.powered = true ∧ who ≠ Requester.referee ∧ s.flag F.SEC_KEY_CMD_BUSY = false :=
  ⟨.pcie, 0, 5, onHead, by decide⟩

theorem witness_KeysAreInstalledAsLoaded :
    (∃ (slot : Nat) (s : State), let words : Bytes := (List.range (keyLen slot / 4)).flatMap fun i => leBytes 4 (s.fld (F.SEC_KEY_WORD_KEY i)); s.pins.powered = true ∧ slot < 2 ^ 15 ∧ s.flag F.SEC_KEY_CMD_BUSY = false ∧ s.sec.zeroised = false ∧
      slotKind slot ≠ SlotKind.none ∧ s.slotState slot = 0 ∧ ¬ (slotKind slot = SlotKind.xts ∧ words.take 32 = words.drop 32)) ∧
    (∃ (slot : Nat) (kek : Bytes) (s : State), s.pins.powered = true ∧ slot < 2 ^ 15 ∧ s.flag F.SEC_KEY_CMD_BUSY = false ∧ s.sec.zeroised = false ∧
      slotKind slot ≠ SlotKind.none ∧ slotKind slot ≠ SlotKind.kek ∧ s.slotState slot = 0 ∧ s.keyOf s.kekSlot = some kek) ∧
    (∃ (slot : Nat) (s : State), s.pins.powered = true ∧ slot < 2 ^ 15 ∧ s.flag F.SEC_KEY_CMD_BUSY = false ∧ s.sec.zeroised = false ∧
      slotKind slot ≠ SlotKind.none ∧ s.slotState slot = 0) ∧
    (∃ (slot : Nat) (s : State), let words : Bytes := (List.range (keyLen slot / 4)).flatMap fun i => leBytes 4 (s.fld (F.SEC_KEY_WORD_KEY i)); s.pins.powered = true ∧ slot < 2 ^ 15 ∧ s.flag F.SEC_KEY_CMD_BUSY = false ∧ s.sec.zeroised = false ∧
      slotKind slot = SlotKind.xts ∧ s.slotState slot = 0 ∧ words.take 32 = words.drop 32) ∧
    (∃ (slot : Nat) (s : State), s.pins.powered = true ∧ slot < 2 ^ 15 ∧ s.flag F.SEC_KEY_CMD_BUSY = false ∧ s.sec.zeroised = false ∧
      slotKind slot ≠ SlotKind.none ∧ s.slotState slot ≠ 0) :=
  ⟨⟨(0x2005), (onWith [(F.SEC_KEY_WORD_KEY 0, 7), (F.SEC_KEY_ATTR_VERSION, 3)]), by decide +kernel⟩,
   ⟨(0x2005), (zeros 32), ({ onHead with sec := { slots := [(0x4000, ⟨zeros 32, false, 0, false, false, 0⟩)] } }), by decide +kernel⟩,
   ⟨(0x2005), (onHead), by decide +kernel⟩,
   ⟨(5), (onHead), by decide +kernel⟩,
   ⟨(0x2005), ({ onHead with sec := { slots := [(0x2005, ⟨[], false, 0, false, false, 0⟩)] } }), by decide +kernel⟩⟩

theorem witness_KeysAreWrappedClearedAndPhased :
    (∃ (slot : Nat) (k : KeySlot) (kek : Bytes) (s : State), s.pins.powered = true ∧ slot < 2 ^ 15 ∧ s.flag F.SEC_KEY_CMD_BUSY = false ∧ s.sec.zeroised = false ∧
      slotKind slot ≠ SlotKind.none ∧ slotKind slot ≠ SlotKind.kek ∧ s.slot? slot = some k ∧ s.keyOf s.kekSlot = some kek ∧
      k.exportable = true) ∧
    (∃ (slot : Nat) (s : State), s.pins.powered = true ∧ slot < 2 ^ 15 ∧ s.flag F.SEC_KEY_CMD_BUSY = false ∧ s.sec.zeroised = false ∧
      slotKind slot ≠ SlotKind.none ∧ ¬ (slotKind slot = SlotKind.xts ∧ slot % 2 = s.encPhase (slot / 2)) ∧
      ¬ (slotKind slot = SlotKind.gcm ∧ s.linkUses slot = true)) ∧
    (∃ (slot : Nat) (s : State), s.pins.powered = true ∧ s.sec.clearing = some slot ∧ s.stitchUses slot = false) ∧
    (∃ (slot : Nat) (s : State), s.pins.powered = true ∧ slot < 2 ^ 15 ∧ s.flag F.SEC_KEY_CMD_BUSY = false ∧ s.sec.zeroised = false ∧
      slotKind slot ≠ SlotKind.none) ∧
    (∃ (slot : Nat) (s : State), s.pins.powered = true ∧ slot < 2 ^ 15 ∧ s.flag F.SEC_KEY_CMD_BUSY = false ∧ s.sec.zeroised = false ∧
      slotKind slot = SlotKind.xts ∧ s.loaded slot = true) ∧
    (∃ (op slot : Nat) (s : State), s.pins.powered = true ∧ s.flag F.SEC_KEY_CMD_BUSY = false ∧ s.sec.zeroised = false) :=
  ⟨⟨(0x2005), (⟨zeros 32, false, 0, true, false, 0⟩), (zeros 32), ({ onHead with sec := { slots := [(0x2005, ⟨zeros 32, false, 0, true, false, 0⟩), (0x4000, ⟨zeros 32, false, 0, false, false, 0⟩)] } }), by decide +kernel⟩,
   ⟨(5), ({ onHead with sec := { slots := [(5, ⟨zeros 32, false, 0, true, false, 0⟩)], counts := [(5, 9)] } }), by decide +kernel⟩,
   ⟨(5), ({ onHead with sec := { slots := [(5, ⟨zeros 32, false, 0, true, false, 0⟩)], clearing := some 5 } }), by decide +kernel⟩,
   ⟨(5), (onHead), by decide +kernel⟩,
   ⟨(5), ({ onHead with sec := { slots := [(5, ⟨zeros 32, false, 0, true, false, 0⟩)] } }), by decide +kernel⟩,
   ⟨(9), (5), (onHead), by decide +kernel⟩⟩

theorem witness_AlarmsAndRandomnessTakeEffect :
    (∃ (b : Nat) (s : State), s.pins.powered = true ∧ b < 8 ∧ bit (s.fld F.SEC_ALARM_MASK_SOURCES ||| 0xD8) b = true) ∧
    (∃ (s : State), s.pins.powered = true) ∧
    (∃ (who : Requester) (s : State), s.pins.powered = true ∧ who ≠ Requester.referee) ∧
    (∃ (fails : Bool) (s : State), s.pins.powered = true ∧ s.flag F.SEC_RNG_CMD_BUSY = false) ∧
    (∃ (s : State), s.pins.powered = true ∧ s.flag F.SEC_RNG_CMD_BUSY = false ∧ s.sec.zeroised = false) ∧
    (∃ (proportion : Bool) (s : State), s.pins.powered = true ∧ s.sec.failedAt = none) ∧
    (∃ (s : State), s.pins.powered = true ∧ (2 ^ 20 ≤ s.sec.generates ∨ s.taskDue taskDrbg 1024 = true)) ∧
    (∃ (pool : Nat) (f : Fld) (s : State), s.pins.powered = true ∧ dualFld pool = some f) :=
  ⟨⟨(3), ({ onHead with sec := { slots := [(5, ⟨zeros 32, false, 0, true, false, 0⟩)], counts := [(5, 9)] } }), by decide +kernel⟩,
   ⟨({ onHead with sec := { slots := [(5, ⟨zeros 32, false, 0, true, false, 0⟩)], counts := [(5, 9)] } }), by decide +kernel⟩,
   ⟨(.pcie), (onHead), by decide +kernel⟩,
   ⟨(true), (onHead), by decide +kernel⟩,
   ⟨(onHead), by decide +kernel⟩,
   ⟨(true), (onHead), by decide +kernel⟩,
   ⟨({ onHead with sec := { generates := 2 ^ 20 } }), by decide +kernel⟩,
   ⟨(3), (F.SEC_DUAL_XTS_DUAL), (onWith [(F.SEC_DUAL_XTS_DUAL, 1)]), by decide +kernel⟩⟩

theorem witness_WindowReadsShowNoKey :
    ∃ (c : Instr) (who : Requester) (off : Nat), c ∈ [Instr.pairLoRead who off, .resultRegisterRead who off] :=
  ⟨.pairLoRead .jtag 0x200018, .jtag, 0x200018, by simp⟩

theorem witness_ControlEngineCommandsTakeEffect :
    (∃ (codes : List Int) (tj temp17 : Int) (tach : List Nat) (s : State), let word : Nat → Int → Int := fun n c => satInt 32 (roundEven (signed 32 (unsigned 32 (signed 14 (unsigned 14 c) * 65536 - signed 32 (s.fld (F.CTL_ADC_OFS_VALUE n)))) * signed 32 (s.fld (F.CTL_ADC_GAIN_VALUE n))) (2 ^ 29)); s.pins.powered = true) ∧
    (∃ (pairs : List (Int × Int)) (s : State), let fits : Nat → Int × Int → Bool := fun n p => decide ((p.1 - signed 32 (s.fld (F.CTL_ADC_OFS0_VALUE n))).natAbs ≤ 64 * 65536 ∧ 100 * (p.2 - signed 32 (s.fld (F.CTL_ADC_GAIN0_VALUE n))).natAbs ≤ (signed 32 (s.fld (F.CTL_ADC_GAIN0_VALUE n))).natAbs); s.pins.powered = true ∧ s.taskDue 2 1024 = true ∧ s.mode < 4) ∧
    (∃ (who : Requester) (n : Nat) (reset enable : Bool) (s : State), s.pins.powered = true ∧ who ≠ .referee) ∧
    (∃ (n : Nat) (reset enable : Bool) (s : State), let l : Nat := n % 4; s.pins.powered = true ∧ (s.ctl.loops.getD l {}).swap = false ∧ s.mode < 4) ∧
    (∃ (n : Nat) (reset enable : Bool) (s : State), let l : Nat := n % 4; s.pins.powered = true ∧ (s.ctl.loops.getD l {}).swap = false ∧ l % 2 = 0 ∧ 4 ≤ s.mode) ∧
    (∃ (decim sel : Nat) (s : State), s.pins.powered = true ∧ s.flag F.CTL_CAP_CFG_BUSY = false) ∧
    (∃ (decim sel : Nat) (s : State), s.pins.powered = true ∧ s.flag F.CTL_CAP_CFG_BUSY = false) ∧
    (∃ (decim sel : Nat) (s : State), s.pins.powered = true ∧ s.flag F.CTL_CAP_CFG_BUSY = false) ∧
    (∃ (decim sel : Nat) (s : State), s.pins.powered = true ∧ s.flag F.CTL_CAP_CFG_BUSY = false) ∧
    (∃ (vMean : Nat) (s : State), s.pins.powered = true ∧ s.mode = 2 ∧ s.flag F.CTL_CTRL_PROBE_EN = true ∧ s.flag F.CTL_CTRL_ENABLE = true ∧ s.probeDue = true) ∧
    (∃ (charge v1 i1 v2 i2 : Nat) (p : ProbeSt) (s : State), s.pins.powered = true ∧ s.ctl.probe = some p ∧ s.mode = 3 ∧ p.step = 1 ∧ i1 * i2 ≠ 0) ∧
    (∃ (vMean : Nat) (p : ProbeSt) (s : State), s.pins.powered = true ∧ s.ctl.probe = some p ∧ s.mode = 2 ∧ p.step = 2 ∧ vMean < p.vBefore) ∧
    (∃ (s : State), s.pins.powered = true ∧ s.mode = 1 ∧ s.bankFailed = false) ∧
    (∃ (fan : Nat) (s : State), s.pins.powered = true ∧ 300 < s.fld (F.CTL_FAN_DUTY (fan % 4)) ∧
      10 * s.fld (F.CTL_FAN_TACH_RPM (fan % 4)) < max (max (s.fld (F.CTL_FAN_TACH_RPM 0)) (s.fld (F.CTL_FAN_TACH_RPM 1))) (max (s.fld (F.CTL_FAN_TACH_RPM 2)) (s.fld (F.CTL_FAN_TACH_RPM 3)))) :=
  ⟨⟨([100, 200, 300]), (5), (-5), ([3000]), (inPair [(F.CTL_STATUS_MODE, 5), (F.CTL_CTRL_ENABLE, 1)] []), by decide +kernel⟩,
   ⟨([(0, 1), (2 ^ 30, 0)]), (inPair [(F.TRN_NOW_HI_VALUE, 1)] []), by decide +kernel⟩,
   ⟨(.hart 1), (1), (true), (false), (inPair [] []), by decide +kernel⟩,
   ⟨(6), (true), (true), (inPair [] []), by decide +kernel⟩,
   ⟨(6), (true), (true), (inPair [(F.CTL_STATUS_MODE, 5)] []), by decide +kernel⟩,
   ⟨(1), (0x10), (inPair [] []), by decide +kernel⟩,
   ⟨(1), (0x10), (inPair [] []), by decide +kernel⟩,
   ⟨(1), (0x10), (inPair [] []), by decide +kernel⟩,
   ⟨(1), (0x10), (inPair [] []), by decide +kernel⟩,
   ⟨(48000000), (inPair [(F.CTL_STATUS_MODE, 2), (F.CTL_CTRL_ENABLE, 1), (F.CTL_CTRL_PROBE_EN, 1), (F.CTL_PROBE_CFG_PROBE_TURNS, 1), (F.TRN_NOW_LO_VALUE, 1024)] []), by decide +kernel⟩,
   ⟨(10), (5), (2), (6), (3), (⟨1, 48000000, 0, 0⟩), ({ inPair [(F.CTL_STATUS_MODE, 3), (F.CTL_CTRL_ENABLE, 1)] [] with ctl := { probe := some ⟨1, 48000000, 0, 0⟩ } }), by decide +kernel⟩,
   ⟨(47000000), (⟨2, 48000000, 50000, 900⟩), ({ inPair [(F.CTL_STATUS_MODE, 2)] [] with ctl := { probe := some ⟨2, 48000000, 50000, 900⟩ } }), by decide +kernel⟩,
   ⟨(inPair [(F.CTL_STATUS_MODE, 1), (F.CMT_DIRTY_LIMIT_LO_LIMIT_LO, 5)] []), by decide +kernel⟩,
   ⟨(2), (inPair [(F.CTL_FAN_DUTY 2, 301), (F.CTL_FAN_TACH_RPM 0, 3000)] []), by decide +kernel⟩⟩

theorem witness_HoldupCommandsTakeEffect :
    (∃ (droop : Bool) (s : State), s.pins.powered = true ∧ (droop = false ∨ 2 ≤ s.ctl.droop) ∧ s.flag F.CTL_STATUS_INPUT_GOOD = true ∧ s.headState ≠ 0 ∧
      s.headState ≠ stCastOn ∧ s.ctl.hold.phase = 0) ∧
    (∃ (droop : Bool) (s : State), s.pins.powered = false ∧ droop = false) ∧
    (∃ (s : State), s.pins.powered = true ∧ s.ctl.hold.phase = 1 ∧ s.ctl.hold.unseated = false ∧ s.flag F.CTL_STATUS_INPUT_GOOD = false) ∧
    (∃ (s : State), s.pins.powered = false) ∧
    (∃ (idle : Nat) (s : State), s.pins.powered = true ∧ s.ctl.hold.phase = 1 ∧ s.ctl.hold.unseated = false ∧ s.bankFailed = false ∧ s.headState = stPlaying ∧
      s.rows.stitches = [] ∧ s.rows.retired = [] ∧ s.commit.own = [] ∧ s.upd.step = none) ∧
    (∃ (s : State), s.pins.powered = true ∧ s.ownFlushed = true) ∧
    (∃ (s : State), s.pins.powered = true ∧ s.mayShut = true) ∧
    (∃ (straps : Straps) (s : State), s.pins.powered = false ∧ s.ctl.hold.phase = 5 ∧ s.pins.inputGood = true ∧ s.pins.unseated = false) ∧
    (∃ (s : State), s.pins.powered = true ∧ (s.mode = 5 ∨ s.mode = 6) ∧ s.pins.inputGood = true) ∧
    (∃ (s : State), s.pins.powered = true ∧ (s.mode = 5 ∨ s.mode = 6) ∧ s.pins.inputGood = false) ∧
    (∃ (s : State), s.pins.powered = true ∧ s.flag F.CTL_STATUS_INPUT_GOOD = true ∧ s.headState ≠ 0 ∧ s.headState ≠ stCastOn ∧
      s.ctl.hold.phase = 0) ∧
    (∃ (s : State), s.pins.powered = false) :=
  ⟨⟨(true), ({ inPair [(F.CTL_STATUS_INPUT_GOOD, 1), (F.CTL_CTRL_ENABLE, 1)] [] with ctl := { droop := 2 } }), by decide +kernel⟩,
   ⟨(false), (State.reset), by decide +kernel⟩,
   ⟨({ inPair [(F.CTL_CTRL_ENABLE, 1), (F.CTL_STATUS_MODE, 5)] [] with ctl := { hold := { phase := 1 } } }), by decide +kernel⟩,
   ⟨(State.reset), by decide +kernel⟩,
   ⟨(3), ({ inPair [(F.CTL_CTRL_ENABLE, 1), (F.CTL_STATUS_MODE, 5)] [] with ctl := { hold := { phase := 1 } } }), by decide +kernel⟩,
   ⟨({ inPair [] [] with ctl := { hold := { phase := 2 } } }), by decide +kernel⟩,
   ⟨({ inPair [] [] with ctl := { hold := { phase := 4 } } }), by decide +kernel⟩,
   ⟨(⟨1, 1, 0, 0⟩), ({ State.reset with pins := { inputGood := true }, ctl := { hold := { phase := 5 } } }), by decide +kernel⟩,
   ⟨({ inPair [(F.CTL_STATUS_MODE, 6)] [] with pins := { powered := true, inputGood := true } }), by decide +kernel⟩,
   ⟨({ inPair [(F.CTL_STATUS_MODE, 6)] [] with sec := { slots := [(0x2000, aSlot)] }, pins := { powered := true, inputGood := false } }), by decide +kernel⟩,
   ⟨(inPair [(F.CTL_STATUS_INPUT_GOOD, 1), (F.CTL_CTRL_ENABLE, 1)] []), by decide +kernel⟩,
   ⟨(State.reset), by decide +kernel⟩⟩

theorem witness_EdgesAndFramesMoveTheCount :
    (∃ (e ptp : Nat) (s : State), s.pins.powered = true ∧ (s.trnState = 0 ∨ s.trnState = 4)) ∧
    (∃ (e ptp : Nat) (s : State), s.pins.powered = true ∧ s.edgeKind e = .glitch) ∧
    (∃ (e ptp : Nat) (s : State), s.pins.powered = true ∧ s.edgeKind e = .unlocked) ∧
    (∃ (e ptp : Nat) (s : State), s.pins.powered = true ∧ s.edgeKind e = .accepted ∧ s.turn + 1 < 2 ^ 54) ∧
    (∃ (e ptp : Nat) (s : State), s.pins.powered = true ∧ s.edgeKind e = .realigned) ∧
    (∃ (w : Nat) (s : State), s.pins.powered = true ∧ s.trn.awaiting = true ∧ readFrame w = none) ∧
    (∃ (w : Nat) (f : TurnFrame) (s : State), s.pins.powered = true ∧ s.trn.awaiting = true ∧ readFrame w = some f ∧ s.trnState = 2 ∧ f.epoch = s.fld F.TRN_STATUS_EPOCH ∧
      f.count = s.turn) ∧
    (∃ (w : Nat) (f : TurnFrame) (s : State), s.pins.powered = true ∧ s.trn.awaiting = true ∧ readFrame w = some f ∧ s.trnState = 2 ∧ f.count < s.turn) ∧
    (∃ (w : Nat) (f : TurnFrame) (s : State), s.pins.powered = true ∧ s.trn.awaiting = true ∧ readFrame w = some f ∧ s.trnState = 1 ∧ s.trnFloor ≤ f.count ∧
      f.count < 2 ^ 54) ∧
    (∃ (e ptp : Nat) (s : State), s.pins.powered = true ∧ (s.trnState = 2 ∨ s.trnState = 3) ∧ s.edgeDue ≤ e ∧ s.turn + 1 < 2 ^ 54) ∧
    (∃ (e : Nat) (margins : List Nat) (s : State), s.pins.powered = true ∧ (s.trnState = 2 ∨ s.trnState = 3 ∨ s.trnState = 4) ∧ s.stamp % 1024 < 1023 ∧ s.ctl.hold.phase < 2) :=
  ⟨⟨(5), (0), (inPair [(F.TRN_STATUS_STATE, 4)] []), by decide +kernel⟩,
   ⟨(19999), (0), ({ inPair [(F.TRN_STATUS_STATE, 2)] [] with trn := { realEdge := some 0, lastEdge := 0 } }), by decide +kernel⟩,
   ⟨(20000), (0), ({ inPair [(F.TRN_STATUS_STATE, 1)] [] with trn := { realEdge := some 0, lastEdge := 0 } }), by decide +kernel⟩,
   ⟨(100000), (7), ({ inPair [(F.TRN_STATUS_STATE, 2), (F.TRN_PERIOD_EST_P, 1600000), (F.TRN_NOW_LO_VALUE, 2047), (F.TRN_STATUS_LOCAL, 2)] [] with trn := { realEdge := some 0, lastEdge := 0, lockEdges := 5, accepted := true } }), by decide +kernel⟩,
   ⟨(20000), (0), ({ inPair [(F.TRN_STATUS_STATE, 3), (F.TRN_PERIOD_EST_P, 1600000), (F.TRN_STATUS_LOCAL, 2)] [] with trn := { realEdge := some 0, lastEdge := 0, lockEdges := 5 } }), by decide +kernel⟩,
   ⟨(frameBits 5 1 0 + 1), ({ inPair [(F.TRN_STATUS_STATE, 2)] [] with trn := { awaiting := true } }), by decide +kernel⟩,
   ⟨(frameBits 3 1 0), (⟨3, 1, 0⟩), ({ inPair [(F.TRN_STATUS_STATE, 2), (F.TRN_NOW_LO_VALUE, 3072)] [] with trn := { awaiting := true } }), by decide +kernel⟩,
   ⟨(frameBits 2 1 0), (⟨2, 1, 0⟩), ({ inPair [(F.TRN_STATUS_STATE, 2), (F.TRN_NOW_LO_VALUE, 3072)] [] with trn := { awaiting := true } }), by decide +kernel⟩,
   ⟨(frameBits 7 3 1), (⟨7, 3, 1⟩), ({ inPair [(F.TRN_STATUS_STATE, 1), (F.TRN_FLOOR_LO_VALUE, 7)] [] with trn := { awaiting := true } }), by decide +kernel⟩,
   ⟨(100000), (0), (inPair [(F.TRN_STATUS_STATE, 2), (F.TRN_STATUS_LOCAL, 2)] []), by decide +kernel⟩,
   ⟨(100), ([3]), (inPair [(F.TRN_STATUS_STATE, 2), (F.TRN_NOW_LO_VALUE, 1022)] []), by decide +kernel⟩⟩

theorem witness_FirstPlayerAndSchedulesTakeEffect :
    (∃ (e : Nat) (s : State), s.pins.powered = true ∧ s.trnState = 1 ∧ s.flag F.TRN_CTRL_FP_ELIG = true ∧ s.trn.enabledAt + (s.seat + 4) * s.periodNs ≤ e) ∧
    (∃ (e : Nat) (s : State), s.pins.powered = true ∧ s.trnState = 3 ∧ s.flag F.TRN_CTRL_FP_ELIG = true ∧
      s.trn.holdAt + (s.seat + 1) * (if s.pEst = 0 then s.periodNs else s.pEst / 16) ≤ e) ∧
    (∃ (e ptp : Nat) (s : State), let w : Nat := frameBits s.nextCount s.seat (s.fld F.TRN_STATUS_EPOCH); s.pins.powered = true ∧ s.trnState = 4 ∧ s.silent = false ∧ s.nextCount < 2 ^ 54) ∧
    (∃ (e ptp back : Nat) (s : State), s.pins.powered = true ∧ s.trnState = 4 ∧ s.nextCount < 2 ^ 54 ∧
      back ≠ frameBits s.nextCount s.seat (s.fld F.TRN_STATUS_EPOCH)) ∧
    (∃ (who : Requester) (w e : Nat) (s : State), s.pins.powered = true ∧ s.trnState = 0) ∧
    (∃ (who : Requester) (w e : Nat) (s : State), s.pins.powered = true ∧ s.trnState ≠ 0) ∧
    (∃ (who : Requester) (w e : Nat) (s : State), s.pins.powered = true ∧ s.trnState = 4 ∧ bit w 0 = true) ∧
    (∃ (m : TableMsg) (s : State), s.pins.powered = true) ∧
    (∃ (m : TableMsg) (s : State), s.pins.powered = true ∧ s.trnState = 4 ∧ m.type = 2 ∧ m.reserved = 0) ∧
    (∃ (s : State), s.pins.powered = true ∧ s.taskDue 7 1024 = true ∧ s.portsOpen) ∧
    (∃ (n : Nat) (s : State), let k : Nat := n % 16; s.pins.powered = true ∧ s.schedDue k = true) ∧
    (∃ (who : Requester) (n w : Nat) (s : State), let k : Nat := n % 16; s.pins.powered = true ∧ s.stamp < s.schedTarget k) :=
  ⟨⟨(400000), (inPair [(F.TRN_STATUS_STATE, 1), (F.TRN_STATUS_EPOCH, 255)] []), by decide +kernel⟩,
   ⟨(100000), (inPair [(F.TRN_STATUS_STATE, 3)] []), by decide +kernel⟩,
   ⟨(100000), (0), ({ inPair [(F.TRN_STATUS_STATE, 4), (F.TRN_CTRL_SEAT, 2)] [] with trn := { claim := some 5 } }), by decide +kernel⟩,
   ⟨(100000), (0), (0), ({ inPair [(F.TRN_STATUS_STATE, 4), (F.TRN_CTRL_SEAT, 2)] [] with trn := { claim := some 5 } }), by decide +kernel⟩,
   ⟨(.referee), (0x80), (9), (inPair [(F.TRN_NOW_LO_VALUE, 50)] []), by decide +kernel⟩,
   ⟨(.referee), (3), (0), ({ inPair [(F.TRN_STATUS_STATE, 4), (F.TRN_CTRL_ENABLE, 1)] [] with pins := { powered := true, turnDriven := true } }), by decide +kernel⟩,
   ⟨(.referee), (3), (77), ({ inPair [(F.TRN_STATUS_STATE, 4), (F.TRN_CTRL_ENABLE, 1)] [] with pins := { powered := true, turnDriven := true } }), by decide +kernel⟩,
   ⟨(⟨1, 3, 0, 0, 0, 0, 0, 5⟩), (inPair [] []), by decide +kernel⟩,
   ⟨(⟨1, 2, 0, 0, 0, 0, 0, 5⟩), (inPair [(F.TRN_STATUS_STATE, 4), (F.TRN_CTRL_SKIP_TURNS, 3)] []), by decide +kernel⟩,
   ⟨(inPair [(F.TRN_NOW_HI_VALUE, 1), (F.TRN_PEER_VALID 3, 1), (F.TRN_PEER_VALID 7, 1), (F.TRN_PEER_QPN 7, 9)] []), by decide +kernel⟩,
   ⟨(17), (inPair [(F.TRN_NOW_LO_VALUE, 5000), (F.TRN_SCHED_TARGET_LO_STAMP 1, 1000), (F.TRN_SCHED_CFG_EN 1, 1), (F.TRN_SCHED_CFG_PERIOD 1, 2)] []), by decide +kernel⟩,
   ⟨(.referee), (15), (5), (inPair [(F.TRN_SCHED_TARGET_LO_STAMP 15, 1000)] []), by decide +kernel⟩⟩

theorem witness_SlotCommandsTakeEffect :
    (∃ (slot : Nat) (s : State), let l : Nat := slot % 8; let u : State := s.mtfStart 0 0 slot (fun t _ => t); s.pins.powered = true ∧ s.flag F.MTF_CMD_BUSY = false ∧ s.mtLeads l = true ∧ s.mtState l = 0) ∧
    (∃ (slot : Nat) (s : State), let l : Nat := slot % 8; let u : State := s.mtfStart 0 0 slot (fun t _ => t); s.pins.powered = true ∧ s.flag F.MTF_CMD_BUSY = false ∧ s.mtLeads l = true ∧ s.mtState l = 0 ∧ u.bitCode l = 0) ∧
    (∃ (selfOk : Bool) (l : Nat) (key : Bytes) (s : State), let a : Nat := s.bitAddr; let n : Nat := s.bitFld 0x18 4; let p : Option Bytes := gcmDec key (gcmIv (s.bitFld 0xC 4) (s.bitFld 0x10 8)) (s.rd a 256) (s.rd (a + 256) n) (s.rd (a + 256 + n) 16); s.pins.powered = true ∧ s.mtf.loading = some l ∧ l < 8 ∧ s.keyOf (0x2000 + s.bitFld 0xA 2) = some key) ∧
    (∃ (slot : Nat) (s : State), let l : Nat := slot % 8; s.pins.powered = true ∧ s.flag F.MTF_CMD_BUSY = false ∧ s.mtLeads l = true ∧ (s.mtState l = 2 ∨ s.mtState l = 3) ∧
      s.fld (F.MTF_SLOT_BINDS_BINDINGS l) = 0) ∧
    (∃ (slot mode : Nat) (s : State), let l : Nat := slot % 8; let vol : Nat := s.fld F.MTF_CMD_ARG_VOLUME; let m : Nat := mode % 2 ^ F.MTF_CMD_MODE.width; s.pins.powered = true ∧ s.flag F.MTF_CMD_BUSY = false ∧ s.mtLeads l = true ∧ s.mtState l = 2 ∧ s.bindRefused l vol m = false) ∧
    (∃ (slot mode : Nat) (s : State), let l : Nat := slot % 8; let vol : Nat := s.fld F.MTF_CMD_ARG_VOLUME; s.pins.powered = true ∧ s.flag F.MTF_CMD_BUSY = false ∧ s.mtLeads l = true ∧ (s.bindingOf vol).map (·.1) = some l) ∧
    (∃ (v : Nat) (s : State), s.pins.powered = true ∧ s.mtf.unbinding = some v ∧ s.mtHolds v = false) ∧
    (∃ (op slot : Nat) (s : State), s.pins.powered = true ∧ s.flag F.MTF_CMD_BUSY = false) :=
  ⟨⟨(0), (mtfHead 0 [] []), by decide +kernel⟩,
   ⟨(0), ({ mtfHead 0 ([(F.MTF_CMD_ADDR_LO_ADDR, 0x8000)] ++ keyWords (F.MTF_OPKEY_HASH 0)) (cellsAt 0x8000 aBitstream) with sec := { slots := [(0x2000, aSlot)] } }), by decide +kernel⟩,
   ⟨(true), (0), (zeros 32), ({ mtfHead 1 [(F.MTF_CMD_BUSY, 1)] [] with sec := { slots := [(0x2000, aSlot)] }, mtf := { loading := some 0 } }), by decide +kernel⟩,
   ⟨(0), (mtfHead 3 [] []), by decide +kernel⟩,
   ⟨(0), (1), (mtfHead 2 [] [(8, 1), (0x13, 1), (2 ^ 32, 9)]), by decide +kernel⟩,
   ⟨(0), (0), (mtfHead 2 [(F.MTF_SLOT_BINDS_BINDINGS 0, 1)] [(2 ^ 32 + 0x2000, 0x18)]), by decide +kernel⟩,
   ⟨(0), ({ mtfHead 2 [(F.MTF_CMD_BUSY, 1)] [] with mtf := { unbinding := some 0 } }), by decide +kernel⟩,
   ⟨(11), (0), (mtfHead 2 [] []), by decide +kernel⟩⟩

theorem witness_SlotFaultsAndPortsTakeEffect :
    (∃ (sid taken : Nat) (x : Stitch) (s : State), let u : State := s.mtWork sid x taken; s.pins.powered = true ∧ s.AtStage sid stMT x ∧ x.mt = none) ∧
    (∃ (sid taken l mode : Nat) (x : Stitch) (s : State), let u : State := s.mtWork sid x taken; let g : MtGroup := s.mtGroup l; s.pins.powered = true ∧ s.AtStage sid stMT x ∧ x.mt = some (l, mode) ∧ (s.mtf.groups.get? l).isSome = true ∧ x.cls = 0 ∧
      bit mode 0 = true) ∧
    (∃ (slot : Nat) (s : State), let l : Nat := slot % 8; let u : State := s.mtFault l 1; s.pins.powered = true ∧ s.mtState l = 2 ∧ (s.mtGroup l).xform ≠ []) ∧
    (∃ (slot mw : Nat) (s : State), let l : Nat := slot % 8; let u : State := s.powerSample l mw; s.pins.powered = true ∧ s.mtState l = 2 ∧ 5 * s.capMw l < 4 * mw) ∧
    (∃ (slot mw : Nat) (s : State), let l : Nat := slot % 8; let u : State := s.powerSample l mw; s.pins.powered = true ∧ s.mtState l = 2 ∧ 9 * s.capMw l ≤ 10 * mw ∧ mw ≤ s.capMw l) ∧
    (∃ (slot : Nat) (s : State), let l : Nat := slot % 8; let u : State := s.mtFault l 4; s.pins.powered = true ∧ s.mtState l = 2) ∧
    (∃ (slot sid : Nat) (data : Bytes) (r : List Nat) (x : Stitch) (s : State), let l : Nat := slot % 8; let b : Bytes := (data ++ zeroBlock).take 4096; let u : State := s.takeBlkOut l b true; s.pins.powered = true ∧ s.mtState l = 2 ∧ (s.mtf.groups.get? l).isSome = true ∧ (s.mtGroup l).xform = sid :: r ∧
      s.stitch? sid = some x ∧ x.stage = stMT) ∧
    (∃ (slot handle off : Nat) (data : Option Bytes) (e : MemErr) (s : State), let l : Nat := slot % 8; let h : Nat := handle % 2 ^ 32; let p : Nat := handlePool h; let ok : Bool := h != noBobbin && decide (handleIndex h < s.poolCount p) && s.bobState p (handleIndex h) == 1 && s.poolTenant p == s.mtTenant l && decide (off + 64 ≤ s.poolSize p); let u : State := s.shellMem l h off data e; s.pins.powered = true ∧ s.mtState l = 2) ∧
    (∃ (slot pool : Nat) (s : State), let l : Nat := slot % 8; let g : Nat × Nat × State := s.allocBobbin (pool % 64) (s.mtTenant l); let u : State := s.shellBob l (.alloc pool); s.pins.powered = true ∧ s.mtState l = 2) ∧
    (∃ (slot qpn k : Nat) (w : Bytes) (q : Qp) (s : State), let l : Nat := slot % 8; let u : State := s.wr (q.sqAddr + 64 * (k % q.sqSize)) ((w ++ zeros 64).take 64); s.pins.powered = true ∧ s.mtState l = 2 ∧ s.qp? qpn = some q ∧ q.cls = 1 ∧ q.tenant = s.mtTenant l ∧ q.sqSize ≠ 0) ∧
    (∃ (slot qpn : Nat) (block : Bytes) (q : Qp) (s : State), let l : Nat := slot % 8; let b : Bytes := (block ++ zeroBlock).take 4096; let stream : Bytes := encodeStream 1 [] 0 b; let raw : Bool := slotClassOf 8 stream.length == 15; let frame : Bytes := frameBytes (carryGuard b) 0 0 raw (if raw then b else stream); let pkts : List RocePkt := dataPkts q .send none 0 0 frame; let u : State := s.shellSend l qpn block; s.pins.powered = true ∧ s.mtState l = 2 ∧ s.portsOpen ∧ s.qp? qpn = some q ∧ q.cls = 1 ∧ q.tenant = s.mtTenant l ∧
      q.state = 1) :=
  ⟨⟨(1), (0), (aStitch 0 stMT), (inRow (aStitch 0 stMT) [] []), by decide +kernel⟩,
   ⟨(1), (0), (0), (1), ({ aStitch 0 stMT with mt := some (0, 1), lba := 5 }), ({ inRow { aStitch 0 stMT with mt := some (0, 1), lba := 5 } [(F.MTF_SLOT_STATUS_STATE 0, 2)] [] with mtf := { groups := [(0, {})] } }), by decide +kernel⟩,
   ⟨(8), ({ mtfHead 2 [] [] with mtf := { groups := [(0, { xform := [1] })] } }), by decide +kernel⟩,
   ⟨(0), (20000), (mtfHead 2 [] []), by decide +kernel⟩,
   ⟨(0), (7000), (mtfHead 2 [(F.MTF_SLOT_POWER_CAP_MW 0, 7500)] []), by decide +kernel⟩,
   ⟨(0), (mtfHead 2 [] []), by decide +kernel⟩,
   ⟨(0), (1), ([7]), ([]), ({ aStitch 1 stMT with mt := some (0, 4) }), ({ inRow { aStitch 1 stMT with mt := some (0, 4) } [(F.MTF_SLOT_STATUS_STATE 0, 2)] [] with mtf := { groups := [(0, { xform := [1] })] } }), by decide +kernel⟩,
   ⟨(0), (5), (0), (none), (.none), (mtfHead 2 [] []), by decide +kernel⟩,
   ⟨(0), (3), (mtfHead 2 [(F.BBM_POOL_CFG_TENANT 3, 9)] []), by decide +kernel⟩,
   ⟨(0), (5), (17), ([1, 2]), ({ aQp with cls := 1, tenant := 9 }), ({ mtfHead 2 [] [] with rdt := { qps := [(5, { aQp with cls := 1, tenant := 9 })] } }), by decide +kernel⟩,
   ⟨(0), (5), ([1, 2]), ({ aQp with cls := 1, tenant := 9 }), ({ mtfHead 2 [] [] with rdt := { qps := [(5, { aQp with cls := 1, tenant := 9 })] } }), by decide +kernel⟩⟩

theorem witness_UpdateStepsTakeEffect :
    (∃ (bodies : List SectionBody) (s : State), let u : State := s.updStart 0 (s.fld F.UPD_CMD_CLASS) (s.fld F.UPD_CMD_ARG) id; let img : Image := ⟨u.rd u.updImage (u.fld F.UPD_IMG_LEN_LENGTH), bodies⟩; let bad : Bool := u.fld F.UPD_IMG_LEN_LENGTH != img.length || img.cls == 0 || decide (8 ≤ img.cls) || u.checkImage img.cls false img != 0 || (decide (3 ≤ img.cls) && !compatFits img); let older : Bool := decide (img.version < s.fld (F.UPD_RUN_VERSION_VERSION img.cls)) && s.phase != 4; s.pins.powered = true ∧ s.flag F.UPD_CMD_BUSY = false) ∧
    (∃ (bodies : List SectionBody) (s : State), let u : State := s.updStart 0 (s.fld F.UPD_CMD_CLASS) (s.fld F.UPD_CMD_ARG) id; let img : Image := ⟨u.rd u.updImage (u.fld F.UPD_IMG_LEN_LENGTH), bodies⟩; s.pins.powered = true ∧ s.flag F.UPD_CMD_BUSY = false ∧ u.fld F.UPD_IMG_LEN_LENGTH = img.length ∧ 0 < img.cls ∧ img.cls < 8 ∧
      u.checkImage img.cls false img = 0 ∧ (img.cls < 3 ∨ compatFits img = true) ∧
      (s.fld (F.UPD_RUN_VERSION_VERSION img.cls) ≤ img.version ∨ s.phase = 4)) ∧
    (∃ (cls arg : Nat) (s : State), s.pins.powered = true ∧ s.flag F.UPD_CMD_BUSY = false ∧ (cls % 16 < 3 ∨ 7 < cls % 16)) ∧
    (∃ (cls arg : Nat) (s : State), s.pins.powered = true ∧ s.flag F.UPD_CMD_BUSY = false ∧ 3 ≤ cls % 16 ∧ cls % 16 ≤ 7 ∧
      s.fld F.GLB_PAIR_STATUS_PARTNER_STATE = 4) ∧
    (∃ (arg : Nat) (g : Image) (s : State), let a : Nat := arg % 256 / 128 * 128 + arg % 4; s.pins.powered = true ∧ s.flag F.UPD_CMD_BUSY = false ∧ s.fld F.GLB_PAIR_STATUS_PARTNER_STATE ≠ 4 ∧ s.playing = true ∧
      s.solo = false ∧ s.phase ≠ 4 ∧ s.upd.staged.get? 4 = some g ∧ s.upd.checked.contains 4 = true ∧ s.stepMoot 4 a = false) ∧
    (∃ (s : State), s.pins.powered = true) ∧
    (∃ (held : Nat) (x : UpdStep) (s : State), let k : Nat := x.arg % 4; s.pins.powered = true ∧ s.upd.step = some x ∧ x.cls = 4 ∧ x.arg < 128 ∧ s.phase ≠ 4 ∧ s.headState = 4) ∧
    (∃ (held : Nat) (x : UpdStep) (s : State), s.pins.powered = true ∧ s.upd.step = some x ∧ x.cls = 4 ∧ s.headState = 4) ∧
    (∃ (x : UpdStep) (s : State), s.pins.powered = true ∧ s.upd.step = some x ∧ x.cls = 3 ∧ s.headState = 4) :=
  ⟨⟨([]), (inPair [] []), by decide +kernel⟩,
   ⟨([]), ({ inPair [(F.UPD_IMG_LEN_LENGTH, 0x230), (F.UPD_IMG_ADDR_LO_ADDR, 0x8000)] (cellsAt 0x8000 aSigned) with boot := { fuses := some keyFuses } }), by decide +kernel⟩,
   ⟨(8), (0), (inPair [] []), by decide +kernel⟩,
   ⟨(4), (0), (updHead 4 none [(F.GLB_PAIR_STATUS_PARTNER_STATE, 4)]), by decide +kernel⟩,
   ⟨(1), (anUpdate 4 9), (updHead 4 none []), by decide +kernel⟩,
   ⟨(updHead 4 (some ⟨4, 1, false⟩) []), by decide +kernel⟩,
   ⟨(9000), (⟨4, 1, true⟩), (updHead 4 (some ⟨4, 1, true⟩) [(F.GLB_PAIR_STATUS_STATE, 4), (F.IRQ_SWAP_HOLDING, 1), (F.UPD_STATUS_NEW_CLUSTERS, 1)]), by decide +kernel⟩,
   ⟨(9000), (⟨4, 1, true⟩), (updHead 4 (some ⟨4, 1, true⟩) [(F.GLB_PAIR_STATUS_STATE, 4), (F.IRQ_SWAP_HOLDING, 1)]), by decide +kernel⟩,
   ⟨(⟨3, 0, true⟩), (updHead 3 (some ⟨3, 0, true⟩) [(F.GLB_PAIR_STATUS_STATE, 4)]), by decide +kernel⟩⟩

theorem witness_BridgesFrogAndFloorsTakeEffect :
    (∃ (arg a : Nat) (g : Image) (s : State), let m : Nat := arg % 64; let n : Nat := (g.length + 4095) / 4096; s.pins.powered = true ∧ s.flag F.UPD_CMD_BUSY = false ∧ s.upd.staged.get? 7 = some g ∧ s.upd.addr.get? 7 = some a ∧
      s.portUp m = true ∧ s.silent = false) ∧
    (∃ (port code : Nat) (s : State), s.pins.powered = true ∧ s.upd.sending = some port) ∧
    (∃ (arg : Nat) (g : Image) (s : State), let m : Nat := arg % 64; s.pins.powered = true ∧ s.flag F.UPD_CMD_BUSY = false ∧ s.upd.staged.get? 7 = some g ∧ s.phase ≠ 4 ∧
      s.upd.checked.contains 7 = true ∧ s.bridgeMayGo m = true ∧ s.silent = false) ∧
    (∃ (s : State), s.pins.powered = true ∧ s.flag F.UPD_CMD_BUSY = false) ∧
    (∃ (s : State), s.pins.powered = true ∧ s.flag F.UPD_CMD_BUSY = false ∧ s.mayConfirm = true) ∧
    (∃ (s : State), s.pins.powered = true ∧ s.flag F.UPD_CMD_BUSY = false ∧ s.mayConfirm = false) ∧
    (∃ (s : State), s.pins.powered = true ∧ s.flag F.UPD_CMD_BUSY = false) ∧
    (∃ (op : Nat) (s : State), s.pins.powered = true ∧ s.flag F.UPD_CMD_BUSY = false) ∧
    (∃ (who : Requester) (cls : Nat) (flash : List Nat) (s : State), s.pins.powered = true ∧ who ≠ .referee) ∧
    (∃ (cls : Nat) (flash : List Nat) (s : State), let c : Nat := cls % 16; let v : Nat := s.fld F.UPD_FLOOR_VALUE_VALUE; s.pins.powered = true ∧ 0 < c ∧ s.floorCode c v flash = 0) ∧
    (∃ (cls : Nat) (flash : List Nat) (s : State), let c : Nat := cls % 16; let v : Nat := s.fld F.UPD_FLOOR_VALUE_VALUE % (if c = 0 then 128 else 2 ^ 32); s.pins.powered = true ∧ s.floorCode c v flash ≠ 0) :=
  ⟨⟨(3), (0x1000), (anUpdate 7 9), (updHead 7 none [(F.MED_PORT_STATUS_UP 3, 1)]), by decide +kernel⟩,
   ⟨(3), (0), ({ updHead 7 none [(F.UPD_CMD_BUSY, 1)] with upd := { sending := some 3 } }), by decide +kernel⟩,
   ⟨(3), (anUpdate 7 9), (updHead 7 none [(F.STR_MOD_STATE 3, 1)]), by decide +kernel⟩,
   ⟨(updHead 7 none []), by decide +kernel⟩,
   ⟨({ updHead 7 none [] with upd := { staged := [(1, anUpdate 1 9)] } }), by decide +kernel⟩,
   ⟨(updHead 7 none []), by decide +kernel⟩,
   ⟨(updHead 7 none [(F.UPD_STATUS_DIR_STALE, 1)]), by decide +kernel⟩,
   ⟨(8), (updHead 7 none []), by decide +kernel⟩,
   ⟨(.jtag), (4), ([]), (updHead 7 none []), by decide +kernel⟩,
   ⟨(4), ([9]), (inPair [(F.UPD_FLOOR_VALUE_VALUE, 5), (F.UPD_RUN_VERSION_VERSION 4, 5), (F.UPD_FUSE_ROWS_LEFT, 0x1000)] []), by decide +kernel⟩,
   ⟨(8), ([]), (inPair [] []), by decide +kernel⟩⟩

theorem witness_SparesMarginsAndGaugesTakeEffect :
    (∃ (mac row bad : Nat) (s : State), let used : List Nat := (s.health.rowsUsed.get? mac).getD []; let left : List Nat := (List.range 4).filter fun k => !used.contains k; s.pins.powered = true ∧ s.flag F.RPR_CTRL_AUTO_ROW = true ∧ s.ctl.hold.phase < 2) ∧
    (∃ (cluster core : Nat) (s : State), let c : Nat := cluster % 4; let target : Nat := 8 * c + core % 8; s.pins.powered = true ∧ s.flag F.RPR_CMD_BUSY = false) ∧
    (∃ (op : Nat) (s : State), s.pins.powered = true ∧ s.flag F.RPR_CMD_BUSY = false) ∧
    (∃ (e : Nat) (s : State), s.pins.powered = true ∧ s.taskDue 4 1024 = true) ∧
    (∃ (rail : Nat) (acked : Bool) (s : State), let r : Nat := rail % 3; s.pins.powered = true ∧ s.health.waitAck.contains r = true) ∧
    (∃ (s : State), s.pins.powered = true ∧ s.taskDue 5 1024 = true) ∧
    (∃ (s : State), s.pins.powered = true) :=
  ⟨⟨(3), (8), (1), ({ inPair [] [] with health := { rowsUsed := [(3, [0])] } }), by decide +kernel⟩,
   ⟨(1), (3), (inPair [] []), by decide +kernel⟩,
   ⟨(1), (inPair [] []), by decide +kernel⟩,
   ⟨(9), ({ inPair [(F.TRN_NOW_HI_VALUE, 1), (F.RPR_VADJ_RAIL_EN 0, 1), (F.RPR_VADJ_OFS_MAX 0, 4)] [] with health := { winMin := [(0, 3), (3, 5)] } }), by decide +kernel⟩,
   ⟨(4), (false), ({ inPair [(F.RPR_VADJ_RAIL_ADDR 1, 0x20)] [] with health := { waitAck := [1, 2] } }), by decide +kernel⟩,
   ⟨(inPair [(F.TRN_NOW_HI_VALUE, 1), (F.TLM_TJ_OVER_LO_VALUE, 2)] []), by decide +kernel⟩,
   ⟨(withSb 0 [(0x20000, 1)]), by decide +kernel⟩⟩

theorem witness_JournalCommandsTakeEffect :
    (∃ (s : State), s.pins.powered = true ∧ s.taskDue taskCkpt s.ckptTurns = true ∧ bit (s.fld F.RPJ_CTRL_TYPE_MASK) 4 = true ∧ s.holds 0 = true) ∧
    (∃ (who : Requester) (slot seg : Nat) (s : State), s.pins.powered = true ∧ slot < 0x400 ∧ seg < 2 ^ 18 ∧ s.flag F.RPJ_EXP_CMD_BUSY = false) ∧
    (∃ (who : Requester) (w : Nat) (s : State), s.pins.powered = true) ∧
    (∃ (level : Nat) (key sig : Bytes) (s : State), s.pins.powered = true ∧ s.boot.jtagHold = true ∧ s.headState = stCastOn ∧ s.debugSigned level key sig = true ∧
      (level = 1 ∨ level = 2 ∧ s.fld F.GLB_STRAPS_BOOT_MODE = 2)) :=
  ⟨⟨(onWith [(F.TRN_NOW_LO_VALUE, 0x10000000), (F.RPJ_CTRL_TYPE_MASK, 0x1F), (F.RPJ_RSEQ_COUNT, 7)]), by decide +kernel⟩,
   ⟨(.referee), (2), (1), ({ onHead with sec := { slots := [(0x2002, ⟨[], false, 0, false, false, 0⟩)] } }), by decide +kernel⟩,
   ⟨(.jtag), (0), (onWith [(F.GLB_STRAPS_BOOT_MODE, 2), (F.RPJ_DBG_LEVEL, 2), (F.GLB_PAIR_STATUS_STATE, 1)]), by decide +kernel⟩,
   ⟨(1), (aKey), (aResponse), ({ onWith [(F.GLB_PAIR_STATUS_STATE, 1)] with boot := { jtagHold := true, fuses := some keyFuses, challenge := (List.range 64).map (BitVec.ofNat 8) } }), by decide +kernel⟩⟩

theorem witness_RefusedAccessCountsAndRaises :
    ∃ (who : Requester) (off size : Nat) (s : State), s.pins.powered = true ∧ s.mayWrite who = true ∧ accessOk off size = false :=
  ⟨.referee, 0x1BFFFFE, 4, onHead, by decide +kernel⟩

theorem witness_WrittenWordFollowsAccessCodes :
    (∃ (who : Requester) (off w : Nat) (s : State), s.pins.powered = true ∧ s.mayWrite who = true ∧ plainReg off = true ∧ pairAt off = none ∧
      heldHi off = false ∧ s.headState = stCastOn ∧ regFields off ≠ [] ∧ w ≠ 0) ∧
    (∃ (who : Requester) (off w : Nat) (s : State), s.pins.powered = true ∧ s.mayWrite who = true ∧ plainReg off = true ∧ pairAt off = none ∧
      heldHi off = false ∧ s.headState ≠ stCastOn ∧ (∀ p ∈ regFields off, changesLocked s (w % 2 ^ 32) p = false) ∧ regFields off ≠ [] ∧ w ≠ 0) :=
  ⟨⟨.hart 0, 0x900000, 0xFFFFFFFF, onHead, by decide +kernel⟩, ⟨.hart 0, 0x900000, 0x201, inPair [] [], by decide +kernel⟩⟩

theorem witness_LockedChangeIsRefused :
    ∃ (who : Requester) (off w : Nat) (s : State), s.pins.powered = true ∧ s.mayWrite who = true ∧ plainReg off = true ∧ pairAt off = none ∧
      heldHi off = false ∧ off / 0x100000 ≠ 0x18 ∧ off / 0x100000 ≠ 0x1A ∧ s.headState ≠ stCastOn ∧
      ∃ p ∈ regFields off, changesLocked s (w % 2 ^ 32) p = true :=
  ⟨.hart 0, 0x200050, 0xFFFFFFFF, inPair [] [], by decide +kernel⟩

theorem witness_PairReadsAndWritesUseTheRequestersLatch :
    (∃ (who : Requester) (off : Nat) (s : State), s.pins.powered = true ∧ s.mayRead who = true ∧ (pairAt off).isSome = true ∧
      (s.latched who).get? off = none) ∧
    (∃ (who : Requester) (off : Nat) (s : State), s.pins.powered = true ∧ s.mayWrite who = true ∧ heldHi off = true ∧ refereeOnly off = false) ∧
    (∃ (who : Requester) (off h : Nat) (s : State), s.pins.powered = true ∧ s.mayWrite who = true ∧ (pairAt off).isSome = true ∧ heldHi off = false ∧
      plainReg off = true ∧ plainReg (off + 4) = true ∧ (s.heldBy who).get? (off + 4) = some h ∧ s.headState = stCastOn) :=
  ⟨⟨.referee, 0x200018, onHead, by decide +kernel⟩, ⟨.hart 2, 0x20001C, onHead, by decide +kernel⟩,
   ⟨.referee, 0x200018, 5, { onHead with latches := [(2 * latchOf .referee + 1, [(0x200018 + 4, 5)])] }, by decide +kernel⟩⟩

theorem witness_ReadingAResultSetsSeen :
    (∃ (who : Requester) (off : Nat) (s : State), s.pins.powered = true ∧ s.mayRead who = true ∧ off ∈ resultRegs ∧ pairAt off = none ∧
      s.flag (resValid off) = true ∧ who ≠ .jtag) ∧
    (∃ (who : Requester) (off : Nat) (s : State), s.pins.powered = true ∧ s.mayRead who = true ∧ off ∈ resultRegs ∧ pairAt off = none ∧
      s.flag (resValid off) = true ∧ who = .jtag) :=
  ⟨⟨.hart 1, 0x1700018, onWith [(resValid 0x1700018, 1)], by decide +kernel⟩,
   ⟨.jtag, 0x1700018, onWith [(resValid 0x1700018, 1), (F.RPJ_DBG_LEVEL, 1)], by decide +kernel⟩⟩

theorem witness_InterruptRegistersTakeEffect :
    (∃ (who : Requester) (off : Nat) (s : State), s.pins.powered = true ∧ s.mayWrite who = true ∧ off - 8 ∈ isrRegs (off / 0x100000) ∧
      (refereeOnly off = true → who = .referee) ∧ off / 0x100000 ≠ 0x18) ∧
    (∃ s : State, s.pins.powered = true ∧ s.flag F.IRQ_SWAP_HOLDING = true) ∧ (∃ s : State, s.pins.powered = true ∧ s.flag F.IRQ_SWAP_HOLDING = false) ∧
    (∃ (who : Requester) (s : State), s.pins.powered = true ∧ who ≠ .referee) ∧
    (∃ (mask : Nat) (s : State), s.pins.powered = true ∧
      s.fld F.IRQ_ERR_FATAL_BLOCKS - (s.fld F.IRQ_ERR_FATAL_BLOCKS &&& mask) = 0 ∧ s.fld F.IRQ_ERR_FATAL_BLOCKS ≠ 0) :=
  ⟨⟨.hart 0, 0x900078, onHead, by decide +kernel⟩, ⟨onWith [(F.IRQ_SWAP_HOLDING, 1)], by decide⟩, ⟨onHead, by decide⟩, ⟨.pcie, onHead, by decide⟩,
   ⟨6, onWith [(F.IRQ_ERR_FATAL_BLOCKS, 6)], by decide⟩⟩

end Sys2Proof.Tests
end

section
/-! PROOF. GLB_FORFEIT (R28): a forfeit writes nothing else below window offset 0x20, where the head state and GLB_FORFEIT
lie; LAST_CAUSE among the fields that power-down keeps and power-on clears. -/
namespace Sys2Proof.Machine

/-! ### The registers below window offset 0x20 -/

/-- The head's identity, pair status, forfeit and lease registers, all below window offset 0x20, read in t as in s. -/
def State.SameStatus (s t : State) : Prop := ∀ g : Fld, g.key < 0x100 → t.fld g = s.fld g

theorem State.SameStatus.refl (s : State) : s.SameStatus s := fun _ _ => rfl

theorem State.SameStatus.trans {s t u : State} (h : s.SameStatus t) (k : t.SameStatus u) : s.SameStatus u := fun g hg =>
  (k g hg).trans (h g hg)

theorem State.SameStatus.headState {s t : State} (h : s.SameStatus t) : t.headState = s.headState := h _ (by decide)

theorem State.SameStatus.of_cells {s t : State} (h : t.cells = s.cells) : s.SameStatus t := fun _ _ => by
  rw [State.fld, State.fld, h]

theorem State.SameStatus.foldl {α : Type} {f : State → α → State} (h : ∀ (t : State) (a : α), t.SameStatus (f t a)) (l : List α) (s : State) :
    s.SameStatus (l.foldl f s) := by
  induction l generalizing s with
  | nil => exact .refl s
  | cons a l ih => exact (h s a).trans (ih _)

/-- A status field lies in block GLB: in none of those that journaling and FATAL errors write. -/
theorem Fld.blk_ne_of_status {g : Fld} {b : Nat} (hg : g.key < 0x100) (hb : 0 < b) : g.blk ≠ b := by
  unfold Fld.blk; omega

theorem State.sameStatus_setFld (s : State) (f : Fld) (v : Nat) (hf : 0x100 ≤ f.key) : s.SameStatus (s.setFld f v) := fun _ hg =>
  s.fld_setFld_ne v (by omega)

theorem State.sameStatus_record (s : State) (type inst payload : Nat) : s.SameStatus (s.record type inst payload) := fun _ hg =>
  s.fld_record type inst payload (Fld.blk_ne_of_status hg (by decide))

theorem State.sameStatus_logEvent (s : State) (code block severity detail : Nat) :
    s.SameStatus (s.logEvent code block severity detail) := fun _ hg =>
  s.fld_logEvent code block severity detail (Fld.blk_ne_of_status hg (by decide))

theorem State.sameStatus_raise (s : State) (f : Fld) (hf : 0x100 ≤ f.key) : s.SameStatus (s.raise f) := fun _ hg =>
  s.fld_raise_ne (by omega) (Fld.blk_ne_of_status hg (by decide))

theorem State.sameStatus_errFatal (s : State) (b : Nat) : s.SameStatus (s.errFatal b) := fun _ hg =>
  s.fld_errFatal_ne b (Fld.blk_ne_of_status hg (by decide)) (Fld.blk_ne_of_status hg (by decide))

theorem State.sameStatus_setPair (s : State) (lo hi : Fld) (v : Nat) (hl : 0x100 ≤ lo.key) (hh : 0x100 ≤ hi.key) :
    s.SameStatus (s.setPair lo hi v) := fun _ hg => s.fld_setPair_ne v (by omega) (by omega)

theorem State.sameStatus_resDone (s : State) (off : Nat) (l : List (Fld × Nat)) (ho : 0x20 ≤ off) (hl : ∀ p ∈ l, 0x100 ≤ p.1.key) :
    s.SameStatus (s.resDone off l) := by
  have hset : s.SameStatus (l.foldl (fun t p => t.setFld p.1 p.2) s) := by
    clear ho
    induction l generalizing s with
    | nil => exact .refl s
    | cons p r ih =>
      exact (s.sameStatus_setFld p.1 p.2 (hl p List.mem_cons_self)).trans (ih _ fun q hq => hl q (List.mem_cons_of_mem _ hq))
  intro g hg
  rw [s.fld_resDone_ne off (by simp only [Fld.key, resValid] at *; omega) (by simp only [Fld.key, resSeen] at *; omega)
    (by simp only [Fld.key, resSeq] at *; omega)]
  exact hset g hg

/-- What a field written reads as does not depend on the state before, whatever width the reader gives it. -/
theorem State.fld_setFld_congr (s t : State) {f g : Fld} (v : Nat) (h : g.key = f.key) : (s.setFld f v).fld g = (t.setFld f v).fld g := by
  simp only [State.setFld, State.fld, cellPut, h]
  split <;> simp

/-! ### Messages of the head -/

@[simp] theorem State.egressTo_cells (s : State) (q : Qp) (m : Sent) : (s.egressTo q m).cells = s.cells := by
  unfold State.egressTo
  split
  · rfl
  · exact s.send_cells m

theorem State.foldl_egressTo_cells (q : Qp) (l : List RocePkt) (s : State) :
    (l.foldl (fun t p => t.egressTo q (.roce p)) s).cells = s.cells := by
  induction l generalizing s with
  | nil => rfl
  | cons p l ih => rw [List.foldl_cons, ih, State.egressTo_cells]

@[simp] theorem State.launch_cells (s : State) (n : Nat) (q : Qp) (w : OutWqe) (span : Nat) : (s.launch n q w span).cells = s.cells := by
  unfold State.launch
  dsimp only
  split
  · rfl
  · rw [State.foldl_egressTo_cells]; rfl

@[simp] theorem State.post_cells (s : State) (n : Nat) (first : Bool) (w : OutWqe) : (s.post n first w).cells = s.cells := by
  unfold State.post
  split
  · rfl
  · split
    · rfl
    · split
      · rfl
      · exact s.launch_cells _ _ _ _

theorem State.sameStatus_sendStatus (s : State) : s.SameStatus s.sendStatus :=
  .foldl (fun t k => .of_cells (by
    unfold State.sendTable State.postSend
    dsimp only
    split
    · rw [State.post_cells, State.send_cells]
    · rfl)) _ _

/-! ### What a forfeit does to the head -/

/-- A change of head state writes STATE, and no other status field. -/
theorem State.sameStatus_setHead (s : State) (st : Nat) (h : st ≠ s.headState) :
    (s.setFld F.GLB_PAIR_STATUS_STATE st).SameStatus (s.setHead st) := by
  rw [State.setHead, if_neg h]
  exact ((State.sameStatus_raise _ F.GLB_ISR_STATE (by decide)).trans (State.sameStatus_logEvent _ _ _ _ _)).trans
    (State.sameStatus_sendStatus _)

theorem State.sameStatus_linkDown (s : State) (p : Nat) : s.SameStatus (s.linkDown p) := by
  have hset : ∀ (t : State) (f : Fld), 0x1401004 ≤ f.off → t.SameStatus (t.setFld f 0) := fun t f hf =>
    t.sameStatus_setFld f 0 (by unfold Fld.key; omega)
  have h : s.SameStatus ((((s.setFld (F.ETH_PORT_STATUS_UP p) 0).setFld (F.ETH_PORT_STATUS_FEC_LOCK p) 0).setFld
      (F.ETH_PORT_STATUS_AN_DONE p) 0).setFld (F.ETH_PORT_STATUS_SPEED p) 0) :=
    (((hset _ _ (Nat.le_add_right _ _)).trans (hset _ _ (Nat.le_add_right _ _))).trans (hset _ _ (Nat.le_add_right _ _))).trans
      (hset _ _ (Nat.le_add_right _ _))
  unfold State.linkDown
  dsimp only
  split
  · exact h.trans (State.sameStatus_raise _ _ (by decide))
  · exact h

theorem State.sameStatus_portsDown (s : State) : s.SameStatus s.portsDown := by
  have h : s.SameStatus { s with pins := { s.pins with portsOn := false } } := .of_cells rfl
  exact h.trans (.foldl State.sameStatus_linkDown (List.range 16) _)

theorem State.sameStatus_setTrn (s : State) (st : Nat) : s.SameStatus (s.setTrn st) := by
  unfold State.setTrn
  split
  · exact .refl s
  · have h := s.sameStatus_setFld F.TRN_STATUS_STATE st (by decide)
    refine .trans ?_ (State.sameStatus_sendStatus _)
    split
    · exact h.trans (State.sameStatus_raise _ _ (by decide))
    · split
      · exact h.trans (State.sameStatus_raise _ _ (by decide))
      · split
        · exact h.trans (State.sameStatus_raise _ _ (by decide))
        · exact h

theorem State.sameStatus_trnStop (s : State) : s.SameStatus s.trnStop := by
  have h : s.SameStatus s.releaseTurn := .of_cells (by
    unfold State.releaseTurn
    split
    · exact s.send_cells _
    · rfl)
  exact (h.trans (State.sameStatus_setTrn _ _)).trans (.of_cells rfl)

theorem State.freeEngine_cells (s : State) (sid : Nat) : (s.freeEngine sid).cells = s.cells := by
  unfold State.freeEngine; split <;> rfl

/-- A Stitch that retires writes registers of its Row alone. -/
theorem State.sameStatus_retire (s : State) (sid status errStage : Nat) : s.SameStatus (s.retire sid status errStage) := by
  have hrow : ∀ {f : Fld}, 0x901040 ≤ f.off → 0x100 ≤ f.key := fun h => by unfold Fld.key; omega
  unfold State.retire
  split
  · exact .refl s
  · refine .trans (.of_cells ?_) (.trans (State.sameStatus_setFld _ _ _ (hrow (Nat.le_add_right _ _))) (.trans
      (State.sameStatus_setPair _ _ _ _ (hrow ?_) (hrow ?_)) (State.sameStatus_setFld _ _ _ (hrow ?_))))
    · exact s.freeEngine_cells sid
    all_goals simp only [F.ROW_N_RETIRED_LO_COUNT_LO, F.ROW_N_RETIRED_HI_COUNT_HI, F.ROW_N_RETIRED_WRAPS_WRAPS]; omega

theorem State.sameStatus_stopCrypto (s : State) : s.SameStatus s.stopCrypto :=
  .foldl (fun t _ => t.sameStatus_retire _ _ _) _ _

theorem State.sameStatus_clearKeyWords (s : State) : s.SameStatus ((List.range 16).foldl (fun t n => t.setFld (F.SEC_KEY_WORD_KEY n) 0) s) :=
  .foldl (fun t n => t.sameStatus_setFld (F.SEC_KEY_WORD_KEY n) 0 (by simp only [Fld.key, F.SEC_KEY_WORD_KEY]; omega)) _ _

theorem State.sameStatus_keyDone (s : State) (slot code : Nat) : s.SameStatus (s.keyDone slot code) := by
  refine (((s.sameStatus_clearKeyWords.trans (State.sameStatus_setPair _ _ _ _ (by decide) (by decide))).trans
    (State.sameStatus_setFld _ F.SEC_KEY_CMD_BUSY 0 (by decide))).trans (State.sameStatus_resDone _ _ _ (by decide) ?_)).trans
    (State.sameStatus_raise _ _ (by decide))
  simp only [List.forall_mem_cons, List.not_mem_nil, false_imp_iff, implies_true, and_true]
  decide

theorem State.sameStatus_zeroiseKeys (s : State) : s.SameStatus s.zeroiseKeys := by
  have h (f : SecSt → SecSt) : s.SameStatus ((List.range 16).foldl (fun t n => t.setFld (F.SEC_KEY_WORD_KEY n) 0) (s.modSec f)) :=
    .trans (.of_cells rfl) (State.sameStatus_clearKeyWords _)
  unfold State.zeroiseKeys
  dsimp only
  split
  · exact (h _).trans (State.sameStatus_keyDone _ _ _)
  · exact h _

theorem State.sameStatus_zeroise (s : State) : s.SameStatus s.zeroise :=
  ((s.sameStatus_stopCrypto.trans (State.sameStatus_zeroiseKeys _)).trans (State.sameStatus_raise _ _ (by decide))).trans
    (State.sameStatus_errFatal _ _)

theorem State.sameStatus_stopFatalTimer (s : State) : s.SameStatus s.stopFatalTimer :=
  (s.sameStatus_setFld _ _ (by decide)).trans (State.sameStatus_setFld _ _ _ (by decide))

theorem State.sameStatus_stepDies (s : State) : s.SameStatus s.stepDies := by
  unfold State.stepDies
  split
  · exact .refl s
  · exact .trans (.of_cells rfl) ((State.sameStatus_setFld _ _ _ (by decide)).trans (State.sameStatus_setFld _ _ _ (by decide)))

/-- Of the status fields a forfeit writes LAST_CAUSE, then STATE, and no others (R27-R29). -/
theorem State.sameStatus_forfeit (s : State) (cause : Nat) (hp : s.pins.powered = true) (hs : s.headState ≠ stForfeit) :
    ((s.setFld F.GLB_FORFEIT_LAST_CAUSE (forfeitCause cause)).setFld F.GLB_PAIR_STATUS_STATE stForfeit).SameStatus (s.forfeit cause) := by
  unfold State.forfeit
  rw [if_neg (by simp [hp, hs])]
  dsimp only
  generalize e : (s.setFld F.GLB_FORFEIT_LAST_CAUSE (forfeitCause cause)).logEvent 2 0 0 (forfeitCause cause) = s1
  have hlog : (s.setFld F.GLB_FORFEIT_LAST_CAUSE (forfeitCause cause)).SameStatus s1 := e ▸ State.sameStatus_logEvent _ _ _ _ _
  have hne : stForfeit ≠ s1.headState := by
    rw [hlog.headState, State.headState, State.fld_setFld_ne _ _ (by decide)]
    exact hs.symm
  have hset : ((s.setFld F.GLB_FORFEIT_LAST_CAUSE (forfeitCause cause)).setFld F.GLB_PAIR_STATUS_STATE stForfeit).SameStatus
      (s1.setFld F.GLB_PAIR_STATUS_STATE stForfeit) := fun g hg => by
    by_cases hk : g.key = F.GLB_PAIR_STATUS_STATE.key
    · rw [State.fld_setFld_congr _ _ _ hk]
    · rw [State.fld_setFld_ne _ _ hk, State.fld_setFld_ne _ _ hk, hlog g hg]
  have hdown := ((hset.trans (s1.sameStatus_setHead stForfeit hne)).trans (State.sameStatus_portsDown _)).trans (State.sameStatus_trnStop _)
  generalize (s1.setHead stForfeit).portsDown.trnStop = s2 at hdown ⊢
  have hpins : s2.SameStatus { s2 with pins := { s2.pins with forfeitOut := false } } := .of_cells rfl
  exact ((((hdown.trans hpins).trans (State.sameStatus_zeroise _)).trans (State.sameStatus_stopFatalTimer _)).trans
    (State.sameStatus_stepDies _)).trans (State.sameStatus_setFld _ _ _ (by decide))

theorem State.forfeit_of_stForfeit (s : State) (cause : Nat) (hs : s.headState = stForfeit) : s.forfeit cause = s := by
  simp [State.forfeit, hs]

theorem State.headState_forfeit (s : State) (cause : Nat) (hp : s.pins.powered = true) : (s.forfeit cause).headState = stForfeit := by
  by_cases hs : s.headState = stForfeit
  · rw [s.forfeit_of_stForfeit cause hs, hs]
  · rw [(s.sameStatus_forfeit cause hp hs).headState, State.headState, State.fld_setFld_same]
    rfl

theorem State.fld_cause_forfeit (s : State) (cause : Nat) (hp : s.pins.powered = true) :
    (s.forfeit cause).fld F.GLB_FORFEIT_CAUSE = s.fld F.GLB_FORFEIT_CAUSE := by
  by_cases hs : s.headState = stForfeit
  · rw [s.forfeit_of_stForfeit cause hs]
  · rw [s.sameStatus_forfeit cause hp hs _ (by decide), State.fld_setFld_ne _ _ (by decide), State.fld_setFld_ne _ _ (by decide)]

theorem forfeitCause_lt {c : Nat} (h : c < 256) : forfeitCause c < 256 := by
  unfold forfeitCause
  split <;> omega

theorem State.fld_lastCause_forfeit (s : State) {cause : Nat} (hc : cause < 256) (hp : s.pins.powered = true) :
    (s.forfeit cause).fld F.GLB_FORFEIT_LAST_CAUSE =
      if s.headState = stForfeit then s.fld F.GLB_FORFEIT_LAST_CAUSE else forfeitCause cause := by
  split
  · next hs => rw [s.forfeit_of_stForfeit cause hs]
  · next hs =>
    rw [s.sameStatus_forfeit cause hp hs _ (by decide), State.fld_setFld_ne _ _ (by decide), State.fld_setFld_same]
    exact Nat.mod_eq_of_lt (forfeitCause_lt hc)

/-! ### Writes of GLB_FORFEIT (R28) -/

theorem exec_forfeit_referee (cause : Nat) (s : State) (hp : s.pins.powered = true) :
    ∃ t, exec (.forfeit .referee cause) s = .next t ∧ t.headState = stForfeit ∧ t.fld F.GLB_FORFEIT_CAUSE = cause % 256 ∧
      t.fld F.GLB_FORFEIT_LAST_CAUSE =
        if s.headState = stForfeit then s.fld F.GLB_FORFEIT_LAST_CAUSE else forfeitCause (cause % 256) := by
  have hp1 : (s.setFld F.GLB_FORFEIT_CAUSE cause).pins.powered = true := hp
  refine ⟨s.live ((s.setFld F.GLB_FORFEIT_CAUSE cause).forfeit (cause % 256)), rfl, ?_, ?_, ?_⟩
  · rw [State.headState, State.live_fld hp]
    exact State.headState_forfeit _ _ hp1
  · rw [State.live_fld hp, State.fld_cause_forfeit _ _ hp1, State.fld_setFld_same]
    rfl
  · rw [State.live_fld hp, State.fld_lastCause_forfeit _ (Nat.mod_lt _ (by decide)) hp1, State.headState,
      State.fld_setFld_ne _ _ (by decide), State.fld_setFld_ne _ _ (by decide)]
    rfl

theorem exec_forfeit_of_ne_referee {who : Requester} (h : who ≠ .referee) (cause : Nat) (s : State) :
    exec (.forfeit who cause) s = .next s := by
  change execForfeit who cause s = _
  rw [execForfeit, if_neg h, State.live_self]

/-- A requester's word for a register kept for the Referee cores, outside the control engine, is ignored. -/
theorem State.write32_ignored (s : State) {who : Requester} {off : Nat} (w t : Nat) (h : who ≠ .referee) (hr : refereeOnly off = true)
    (hb : off / 0x100000 ≠ 4) : s.write32 who off w t = s := by
  rw [State.write32, if_pos (by simp [hr, h]), if_neg hb]

theorem exec_registerWrite_forfeit_of_ne_referee {who : Requester} (h : who ≠ .referee) (w time : Nat) (s : State) :
    exec (.registerWrite who 0x14 4 w time) s = .next s := by
  change execRegisterWrite who 0x14 4 w time s = _
  have hok : accessOk 0x14 4 = true := rfl
  simp [execRegisterWrite, hok, s.write32_ignored _ time h (show refereeOnly 0x14 = true from rfl) (by decide), State.live_self]

/-! ### What power-down keeps -/

theorem regsOnly_keepFields (old : State) (fs : List Fld) (s : State) : s.RegsOnly (keepFields old fs s) := by
  induction fs generalizing s with
  | nil => exact .refl s
  | cons f fs ih => exact (s.regsOnly_setFld _ _).trans (ih _)

theorem State.RegsOnly.pins {s t : State} (h : s.RegsOnly t) : t.pins = s.pins := by
  obtain ⟨c, rfl⟩ := h
  rfl

/-- A field that is not among those kept stands. -/
theorem fld_keepFields_of_ne (old : State) {fs : List Fld} (s : State) {g : Fld} (h : ∀ f ∈ fs, f.key ≠ g.key) :
    (keepFields old fs s).fld g = s.fld g := by
  induction fs generalizing s with
  | nil => rfl
  | cons f fs ih =>
    obtain ⟨hf, hfs⟩ := List.forall_mem_cons.mp h
    exact (ih (s.setFld f (old.fld f)) hfs).trans (s.fld_setFld_ne _ hf.symm)

/-- A field that is kept reads as it did, cut to its width. -/
theorem fld_keepFields_of_mem (old : State) {fs : List Fld} (s : State) {g : Fld} (hg : g ∈ fs) (hk : ∀ f ∈ fs, f.key = g.key → f = g) :
    (keepFields old fs s).fld g = old.fld g % 2 ^ g.width := by
  induction fs generalizing s with
  | nil => cases hg
  | cons f fs ih =>
    obtain ⟨hf, hfs⟩ := List.forall_mem_cons.mp hk
    by_cases hm : g ∈ fs
    · exact ih (s.setFld f (old.fld f)) hm hfs
    · obtain rfl : g = f := (List.mem_cons.mp hg).resolve_right hm
      exact (fld_keepFields_of_ne old (s.setFld g (old.fld g)) fun f hf' e => hm (hfs f hf' e ▸ hf')).trans (s.fld_setFld_same g _)

theorem State.fld_lastCause_inReset (s : State) (h : s.fld F.GLB_FORFEIT_LAST_CAUSE < 256) :
    s.inReset.fld F.GLB_FORFEIT_LAST_CAUSE = s.fld F.GLB_FORFEIT_LAST_CAUSE :=
  (fld_keepFields_of_mem s _ (by decide) (by decide)).trans (Nat.mod_eq_of_lt h)

theorem State.powered_inReset (s : State) : s.inReset.pins.powered = false := by
  unfold State.inReset
  rw [(regsOnly_keepFields _ _ _).pins]

theorem State.fld_lastCause_powerOn (s : State) : s.powerOn.fld F.GLB_FORFEIT_LAST_CAUSE = 0 :=
  fld_keepFields_of_ne s _ (by decide)

/-- Cast-on powers the head, whether or not it was without power. -/
theorem State.powered_castOn (s : State) (x : Straps) (power : Bool) : (s.castOn x power).pins.powered = true :=
  congrArg Pins.powered (State.logs_logEvent _ _ _ _ _).pins

/-- Cast-on leaves LAST_CAUSE as the reset or power-on before it did. -/
theorem State.fld_lastCause_castOn (s : State) (x : Straps) (power : Bool) :
    (s.castOn x power).fld F.GLB_FORFEIT_LAST_CAUSE = (if power then s.powerOn else s.inReset).fld F.GLB_FORFEIT_LAST_CAUSE := by
  unfold State.castOn
  dsimp only
  rw [State.fld_logEvent _ _ _ _ _ (by decide)]
  iterate 6 rw [State.fld_setFld_ne _ _ (by decide)]
  rfl

theorem exec_castOnStart_of_off (x : Straps) (power : Bool) (s : State) (hp : s.pins.powered = false) :
    exec (.castOnStart x power) s = .next (s.castOn x power) := by
  change execCastOnStart x power s = _
  simp [execCastOnStart, hp]

theorem exec_powerDown_of_on (s : State) (hp : s.pins.powered = true) : exec .powerDown s = .next s.inReset := by
  change execPowerDown s = _
  simp [execPowerDown, hp]

/-- Settles O5: by the frame of a forfeit, the refusal of the other requesters, and LAST_CAUSE among the retained fields. -/
theorem refereeForfeitRegister : Obligations.RefereeForfeitRegister := by
  refine ⟨by decide, exec_forfeit_referee, fun _ cause s h => exec_forfeit_of_ne_referee h cause s,
    fun _ w time s h => exec_registerWrite_forfeit_of_ne_referee h w time s, ?_, ?_⟩
  · intro s hp hl
    exact ⟨s.inReset, exec_powerDown_of_on s hp, s.powered_inReset, s.fld_lastCause_inReset hl⟩
  · intro x s hp hl
    refine ⟨⟨s.castOn x false, exec_castOnStart_of_off x false s hp, s.powered_castOn x false, ?_⟩,
      ⟨s.castOn x true, exec_castOnStart_of_off x true s hp, s.powered_castOn x true, ?_⟩⟩
    · exact (s.fld_lastCause_castOn x false).trans (s.fld_lastCause_inReset hl)
    · exact (s.fld_lastCause_castOn x true).trans s.fld_lastCause_powerOn

end Sys2Proof.Machine
end

section
/-! PROOF. The bank's bounds (R389): the observer writes them from the samples held, and neither a failed bank nor the
dirty limit computed after it writes them again. -/
namespace Sys2Proof.Machine

/-! ### The root rounded up -/

theorem le_isqrtUp_sq (n : Nat) : n ≤ isqrtUp n * isqrtUp n := by
  unfold isqrtUp
  dsimp only
  split
  · next h => exact Nat.le_of_eq h.symm
  · exact Nat.le_of_lt (Nat.lt_succ_sqrt n)

theorem isqrtUp_le {n k : Nat} (h : n ≤ k * k) : isqrtUp n ≤ k := by
  have hr : Nat.sqrt n ≤ k := Nat.mul_self_le_mul_self_iff.mp (Nat.le_trans (Nat.sqrt_le n) h)
  unfold isqrtUp
  dsimp only
  split
  · exact hr
  · next hne =>
    have hk : Nat.sqrt n ≠ k := fun e => hne (Nat.le_antisymm (Nat.sqrt_le n) (e ▸ h))
    exact Nat.lt_of_le_of_ne hr hk

/-! ### The samples held -/

theorem keep64_ne_nil (l : List Nat) (x : Nat) : keep64 l x ≠ [] := by
  simp only [keep64, ne_eq, List.drop_eq_nil_iff, List.length_append, List.length_singleton]
  omega

theorem length_keep64_le (l : List Nat) (x : Nat) : (keep64 l x).length ≤ 64 := by
  simp only [keep64, List.length_drop]
  omega

/-- The spread of R389: a share of the mean, rounded up, below 8 samples; else the root of the samples' variance over n. -/
theorem meanSig_snd (l : List Nat) {d : Nat} (hd : 0 < d) :
    (meanSig l d).2 = if l.length < 8 then (l.foldl (· + ·) 0 / l.length + (d - 1)) / d
      else isqrtUp ((l.length * l.foldl (fun a x => a + x * x) 0 - l.foldl (· + ·) 0 * l.foldl (· + ·) 0) /
        (l.length * (l.length - 1) * l.length)) := by
  simp only [meanSig, ceilDiv, Nat.add_sub_assoc hd]

/-! ### What leaves the bank's bounds alone -/

/-- The observer's counts of samples and its bounds (R389). -/
def boundFlds : List Fld := [F.CTL_BANK_SAMPLES_N, F.CTL_BANK_SAMPLES_N_ESR, F.CTL_BANK_C_LOW_UF, F.CTL_BANK_ESR_HIGH_UO]

/-- The samples held, their counts and the bounds published from them are in t as in s. -/
structure State.SameBounds (s t : State) : Prop where
  cSamples : t.ctl.cSamples = s.ctl.cSamples
  esrSamples : t.ctl.esrSamples = s.ctl.esrSamples
  fld : ∀ g ∈ boundFlds, t.fld g = s.fld g

theorem State.SameBounds.refl (s : State) : s.SameBounds s := ⟨rfl, rfl, fun _ _ => rfl⟩

theorem State.SameBounds.trans {s t u : State} (h : s.SameBounds t) (k : t.SameBounds u) : s.SameBounds u where
  cSamples := k.cSamples.trans h.cSamples
  esrSamples := k.esrSamples.trans h.esrSamples
  fld g hg := (k.fld g hg).trans (h.fld g hg)

theorem State.sameBounds_setFld (s : State) {f : Fld} (v : Nat) (hf : ∀ g ∈ boundFlds, g.key ≠ f.key) : s.SameBounds (s.setFld f v) :=
  ⟨rfl, rfl, fun g hg => s.fld_setFld_ne v (hf g hg)⟩

theorem State.sameBounds_setPair (s : State) {lo hi : Fld} (v : Nat) (hl : ∀ g ∈ boundFlds, g.key ≠ lo.key)
    (hh : ∀ g ∈ boundFlds, g.key ≠ hi.key) : s.SameBounds (s.setPair lo hi v) :=
  (s.sameBounds_setFld _ hl).trans (State.sameBounds_setFld _ _ hh)

/-- The journal lies in block RPJ, the bounds in CTL. -/
theorem State.JournalFrame.sameBounds {s t : State} (h : s.JournalFrame t) : s.SameBounds t where
  cSamples := by rw [h.ctl]
  esrSamples := by rw [h.ctl]
  fld g hg := h.fld g ((by decide : ∀ g ∈ boundFlds, g.blk ≠ 0x18) g hg)

theorem State.sameBounds_raise (s : State) {f : Fld} (hf : ∀ g ∈ boundFlds, g.key ≠ f.key) : s.SameBounds (s.raise f) :=
  (s.sameBounds_setFld 1 hf).trans (s.logs_raise f).sameBounds

theorem State.sameBounds_testWriteThrough (s : State) : s.SameBounds s.testWriteThrough := by
  have hcause := s.sameBounds_setFld (f := F.CMT_STATUS_WT_CAUSE) s.wtCause (by decide)
  have henter : ∀ t : State, t.SameBounds (((t.setFld F.CMT_STATUS_MODE 1).raise F.CMT_ISR_WT_ENTER).logEvent 6 0x10 0 s.wtCause) :=
    fun t => ((t.sameBounds_setFld _ (by decide)).trans (State.sameBounds_raise _ (by decide))).trans
      (State.logs_logEvent _ _ _ _ _).sameBounds
  unfold State.testWriteThrough
  dsimp only
  refine iteInduction (motive := s.SameBounds) (fun _ => .trans ?_ (henter _)) fun _ => ?_
  all_goals
    split
    · exact hcause
    · exact hcause.trans ⟨rfl, rfl, fun _ _ => rfl⟩

theorem State.sameBounds_ledger (s : State) : s.SameBounds s.ledger :=
  (((s.sameBounds_setPair _ (by decide) (by decide)).trans (State.sameBounds_setFld _ _ (by decide))).trans
    (State.sameBounds_setPair _ _ (by decide) (by decide))).trans (State.sameBounds_testWriteThrough _)

/-- A failed bank turns the converter off, and keeps its samples and bounds (R390). -/
theorem State.sameBounds_failBank (s : State) (cause : Nat) : s.SameBounds (s.failBank cause) := by
  have hfail : s.SameBounds (((s.setFld F.CTL_STATUS_BANK_FAILED 1).setFld F.CTL_STATUS_BANK_CAUSE cause).setFld F.CTL_INJ_CFG_EN 0) :=
    ((s.sameBounds_setFld _ (by decide)).trans (State.sameBounds_setFld _ _ (by decide))).trans (State.sameBounds_setFld _ _ (by decide))
  have hend : ∀ t : State, t.SameBounds (t.raise F.CTL_ISR_BANK_FAILED).ledger := fun t =>
    (t.sameBounds_raise (by decide)).trans (State.sameBounds_ledger _)
  unfold State.failBank
  dsimp only
  split
  · exact .refl s
  · refine .trans ?_ (hend _)
    split
    · exact hfail
    · exact (hfail.trans (State.sameBounds_setFld _ _ (by decide))).trans ⟨rfl, rfl, fun _ _ => rfl⟩

/-! ### What the observer writes -/

/-- The means and bounds of the samples held are published, before the tests of R390. -/
def State.publishBounds (s : State) : State :=
  let c := meanSig s.ctl.cSamples 16
  let r := meanSig s.ctl.esrSamples 4
  (((((s.setFld F.CTL_BANK_SAMPLES_N s.ctl.cSamples.length).setFld F.CTL_BANK_SAMPLES_N_ESR s.ctl.esrSamples.length).setFld
    F.CTL_BANK_C_MEAN_UF c.1).setFld F.CTL_BANK_C_LOW_UF (c.1 - 3 * c.2)).setFld F.CTL_BANK_ESR_MEAN_UO (min 0xFFFF r.1)).setFld
    F.CTL_BANK_ESR_HIGH_UO (min 0xFFFF (r.1 + 3 * r.2))

/-- With a sample of each quantity, the observer publishes its bounds and then only fails the bank (R389, R390). -/
theorem State.publishBounds_sameBounds_observe (s : State) (hc : s.ctl.cSamples ≠ []) (hr : s.ctl.esrSamples ≠ []) :
    s.publishBounds.SameBounds s.observe := by
  have hC : s.ctl.cSamples.length ≠ 0 := mt List.length_eq_zero_iff.mp hc
  have hR : s.ctl.esrSamples.length ≠ 0 := mt List.length_eq_zero_iff.mp hr
  unfold State.observe
  simp only [if_neg hC, if_neg hR]
  split
  · exact s.publishBounds.sameBounds_failBank 1
  · split
    · exact s.publishBounds.sameBounds_failBank 2
    · exact .refl s.publishBounds

/-- The counts and the bounds published are those of the samples held (R389). -/
structure State.BoundsFollow (s : State) : Prop where
  n : s.fld F.CTL_BANK_SAMPLES_N = s.ctl.cSamples.length % 128
  nEsr : s.fld F.CTL_BANK_SAMPLES_N_ESR = s.ctl.esrSamples.length % 128
  cLow : s.fld F.CTL_BANK_C_LOW_UF = ((meanSig s.ctl.cSamples 16).1 - 3 * (meanSig s.ctl.cSamples 16).2) % 2 ^ 32
  esrHigh : s.fld F.CTL_BANK_ESR_HIGH_UO = min 0xFFFF ((meanSig s.ctl.esrSamples 4).1 + 3 * (meanSig s.ctl.esrSamples 4).2)

theorem State.boundsFollow_publishBounds (s : State) : s.publishBounds.BoundsFollow where
  n := by
    unfold State.publishBounds
    dsimp only
    iterate 5 rw [State.fld_setFld_ne _ _ (by decide)]
    exact State.fld_setFld_same _ _ _
  nEsr := by
    unfold State.publishBounds
    dsimp only
    iterate 4 rw [State.fld_setFld_ne _ _ (by decide)]
    exact State.fld_setFld_same _ _ _
  cLow := by
    unfold State.publishBounds
    dsimp only
    iterate 2 rw [State.fld_setFld_ne _ _ (by decide)]
    exact State.fld_setFld_same _ _ _
  esrHigh := (State.fld_setFld_same _ F.CTL_BANK_ESR_HIGH_UO _).trans
    (Nat.mod_eq_of_lt (Nat.lt_of_le_of_lt (Nat.min_le_left _ _) (by decide)))

theorem State.SameBounds.boundsFollow {s t : State} (h : s.SameBounds t) (k : s.BoundsFollow) : t.BoundsFollow where
  n := by rw [h.fld _ (by decide), h.cSamples, k.n]
  nEsr := by rw [h.fld _ (by decide), h.esrSamples, k.nEsr]
  cLow := by rw [h.fld _ (by decide), h.cSamples, k.cLow]
  esrHigh := by rw [h.fld _ (by decide), h.esrSamples, k.esrHigh]

/-! ### The end of a probe -/

/-- A probe that ends with a fall of voltage is counted, and yields a sample of each quantity (R388). -/
theorem exec_probeRestEnd_of_fall {vMean : Nat} {p : ProbeSt} {s : State} (hp : s.ctl.probe = some p) (hm : s.mode = 2)
    (hstep : p.step = 2) (hv : vMean < p.vBefore) :
    exec (.probeRestEnd vMean) s = .next (s.live (((s.modCtl fun c => { c with probe := none }).inc F.CTL_BANK_SAMPLES_PROBES).addSamples
      (p.charge * 1000000 / (p.vBefore - vMean)) p.esr)) := by
  have hcap : s.capSample p.charge (p.vBefore - vMean) = (p.charge * 1000000 / (p.vBefore - vMean), s) := if_neg (by omega)
  change execProbeRestEnd vMean s = _
  simp only [execProbeRestEnd, hp, hm, hstep, hcap, and_self, if_true]

theorem State.SameBounds.live {s t u : State} (hon : s.pins.powered = true) (h : t.SameBounds u) : t.SameBounds (s.live u) :=
  h.trans (by rw [State.live_on hon]; exact ⟨rfl, rfl, fun _ _ => rfl⟩)

/-- Samples are taken among the latest 64 held, and the bounds are published from those. -/
theorem State.sameBounds_addSamples (s : State) (c esr : Nat) :
    (s.modCtl fun t => { t with cSamples := keep64 t.cSamples c, esrSamples := keep64 t.esrSamples esr }).publishBounds.SameBounds
      (s.addSamples c esr) :=
  State.publishBounds_sameBounds_observe _ (keep64_ne_nil _ _) (keep64_ne_nil _ _)

/-- Settles O6: the bounds published from the samples held after the probe stand at its end; the root by `Nat.sqrt`. -/
theorem bankBoundsFollowTheSamples : Obligations.BankBoundsFollowTheSamples := by
  refine ⟨fun vMean p s hon hp hm hstep hv => ?_, fun n => ⟨le_isqrtUp_sq n, fun _ => isqrtUp_le⟩, rfl, rfl, by decide, by decide⟩
  refine ⟨_, exec_probeRestEnd_of_fall hp hm hstep hv, ?_⟩
  have hsame := (State.sameBounds_addSamples ((s.modCtl fun c => { c with probe := none }).inc F.CTL_BANK_SAMPLES_PROBES)
    (p.charge * 1000000 / (p.vBefore - vMean)) p.esr).live hon
  generalize s.live _ = t at hsame ⊢
  obtain ⟨hn, hnEsr, hlow, hhigh⟩ := hsame.boundsFollow (State.boundsFollow_publishBounds _)
  have hc : t.ctl.cSamples = keep64 s.ctl.cSamples (p.charge * 1000000 / (p.vBefore - vMean)) := hsame.cSamples
  have hr : t.ctl.esrSamples = keep64 s.ctl.esrSamples p.esr := hsame.esrSamples
  rw [meanSig_snd _ (by decide)] at hlow hhigh
  exact ⟨hc, hr, hn, hnEsr, hc ▸ length_keep64_le _ _, hr ▸ length_keep64_le _ _, hlow, hhigh⟩

end Sys2Proof.Machine
end

section
/-! PROOF. The spare figures (R450): a rebuild counts the held blocks set in the bad-block bitmap, the gauge refresh shows
that count and the SPARE_PCT computed from it, and the bitmap names each of its blocks once. -/
namespace Sys2Proof.Machine

/-! ### The spare registers -/

/-- The TLM banks with the spare registers lie above its interrupt registers, and so outside RPJ. -/
theorem Fld.blk_ne_of_bank {g : Fld} (hg : 0x1900100 * 8 ≤ g.key) : g.blk ≠ 0x18 := by
  unfold Fld.blk; omega

theorem State.fld_raise_of_bank (s : State) {f g : Fld} (hf : f.key < 0x1900100 * 8) (hg : 0x1900100 * 8 ≤ g.key) :
    (s.raise f).fld g = s.fld g := s.fld_raise_ne (by omega) (Fld.blk_ne_of_bank hg)

theorem regFields_spareTotal_madeBad : ∀ i < 2, regFields (F.TLM_SPARE_TOTAL_BLOCKS i).off = [(F.TLM_SPARE_TOTAL_BLOCKS i, .RW)] ∧
    regFields (F.TLM_BAD_AT_CREATION_BLOCKS i).off = [(F.TLM_BAD_AT_CREATION_BLOCKS i, .RW)] := by decide

/-! ### The rebuild -/

/-- How many blocks of half i a rebuild finds in the bad-block bitmap: none where the head does not hold it. -/
def State.badCount (s : State) (i : Nat) : Nat := (s.badMembers.filter fun b => s.memberHalf b == i).length

theorem State.ofInst_bad_sweepWear (s : State) {i : Nat} (hi : i < 2) : ofInst s.sweepWear.health.bad i = s.badCount i := by
  obtain rfl | rfl : i = 0 ∨ i = 1 := by omega
  · rfl
  · rfl

/-- What a rebuild leaves: its own interrupt bit, its counts, and the journal of that interrupt. -/
def State.rebuilt (s : State) : State := s.sweepWear.raise F.TLM_ISR_REBUILT

theorem State.pins_rebuilt (s : State) : s.rebuilt.pins = s.pins := (s.sweepWear.logs_raise F.TLM_ISR_REBUILT).pins

theorem State.trn_rebuilt (s : State) : s.rebuilt.trn = s.trn := (s.sweepWear.logs_raise F.TLM_ISR_REBUILT).trn

theorem State.health_rebuilt (s : State) : s.rebuilt.health = s.sweepWear.health := (s.sweepWear.logs_raise F.TLM_ISR_REBUILT).health

theorem State.fld_rebuilt (s : State) {g : Fld} (hg : g.key ≠ F.TLM_ISR_REBUILT.key) (hb : g.blk ≠ 0x18) : s.rebuilt.fld g = s.fld g :=
  s.sweepWear.fld_raise_ne hg hb

theorem exec_tlmRebuild_of_on {s : State} (hon : s.pins.powered = true) : exec .tlmRebuild s = .next s.rebuilt :=
  congrArg Host.Outcome.next (State.live_eq hon s.pins_rebuilt)

theorem State.holds_rebuilt (s : State) (i : Nat) : s.rebuilt.holds i = s.holds i := by
  unfold State.holds State.headId State.solo State.flag
  rw [s.fld_rebuilt (by decide) (by decide), s.fld_rebuilt (by decide) (by decide)]

theorem State.taskDue_rebuilt (s : State) (id period : Nat) : s.rebuilt.taskDue id period = s.taskDue id period := by
  unfold State.taskDue State.turn State.stamp State.pair
  rw [s.trn_rebuilt, s.fld_rebuilt (by decide) (by decide), s.fld_rebuilt (by decide) (by decide)]

/-! ### The gauge refresh -/

/-- SPARE_PCT is a percentage: its register never cuts it. -/
theorem sparePct_le (total bad created : Nat) : sparePct total bad created ≤ 100 := by
  unfold sparePct clampInt
  split <;> omega

/-- BAD and SPARE_PCT of half i, where the head holds it, are copied into t from the counts and registers of s (R450). -/
def State.copySpare (s t : State) (i : Nat) : State :=
  if s.holds i then
    (t.setFld (F.TLM_BAD_BLOCKS i) (ofInst s.health.bad i)).setFld (F.TLM_SPARE_PCT i)
      (sparePct (s.fld (F.TLM_SPARE_TOTAL_BLOCKS i)) (ofInst s.health.bad i) (s.fld (F.TLM_BAD_AT_CREATION_BLOCKS i)))
  else t

/-- The spare figures are the last that the copy writes. -/
theorem State.copyGauges_eq_copySpare (s : State) : ∃ t, s.copyGauges = s.copySpare (s.copySpare t 0) 1 := ⟨_, rfl⟩

/-- BAD and SPARE_PCT of half i read in u as the counts and registers of s give them. -/
structure State.ShowsSpare (s u : State) (i : Nat) : Prop where
  bad : u.fld (F.TLM_BAD_BLOCKS i) = ofInst s.health.bad i % 2 ^ 32
  pct : u.fld (F.TLM_SPARE_PCT i) =
    sparePct (s.fld (F.TLM_SPARE_TOTAL_BLOCKS i)) (ofInst s.health.bad i) (s.fld (F.TLM_BAD_AT_CREATION_BLOCKS i))

theorem State.fld_copySpare_ne (s t : State) {i : Nat} {g : Fld} (hb : g.key ≠ (F.TLM_BAD_BLOCKS i).key)
    (hp : g.key ≠ (F.TLM_SPARE_PCT i).key) : (s.copySpare t i).fld g = t.fld g := by
  unfold State.copySpare
  split
  · rw [State.fld_setFld_ne _ _ hp, State.fld_setFld_ne _ _ hb]
  · rfl

theorem State.showsSpare_copySpare (s t : State) {i : Nat} (hh : s.holds i = true) : s.ShowsSpare (s.copySpare t i) i := by
  rw [State.copySpare, if_pos hh]
  constructor
  · rw [State.fld_setFld_ne _ _ (by simp only [Fld.key, F.TLM_BAD_BLOCKS, F.TLM_SPARE_PCT]; omega)]
    exact State.fld_setFld_same _ _ _
  · exact (State.fld_setFld_same _ _ _).trans (Nat.mod_eq_of_lt (Nat.lt_of_le_of_lt (sparePct_le _ _ _) (by decide : 100 < 2 ^ 7)))

theorem State.ShowsSpare.congr {s u v : State} {i : Nat} (h : s.ShowsSpare u i)
    (hv : ∀ g ∈ [F.TLM_BAD_BLOCKS i, F.TLM_SPARE_PCT i], v.fld g = u.fld g) : s.ShowsSpare v i where
  bad := (hv _ (by simp)).trans h.bad
  pct := (hv _ (by simp)).trans h.pct

theorem State.showsSpare_copyGauges (s : State) {i : Nat} (hi : i < 2) (hh : s.holds i = true) : s.ShowsSpare s.copyGauges i := by
  obtain ⟨t, e⟩ := s.copyGauges_eq_copySpare
  rw [e]
  obtain rfl | rfl : i = 0 ∨ i = 1 := by omega
  · exact (s.showsSpare_copySpare t hh).congr fun g hg =>
      s.fld_copySpare_ne _ ((by decide : ∀ g ∈ [F.TLM_BAD_BLOCKS 0, F.TLM_SPARE_PCT 0], g.key ≠ (F.TLM_BAD_BLOCKS 1).key) g hg)
        ((by decide : ∀ g ∈ [F.TLM_BAD_BLOCKS 0, F.TLM_SPARE_PCT 0], g.key ≠ (F.TLM_SPARE_PCT 1).key) g hg)
  · exact s.showsSpare_copySpare _ hh

theorem State.fld_testProfile_of_bank (s : State) {g : Fld} (hg : 0x1900100 * 8 ≤ g.key) : s.testProfile.fld g = s.fld g := by
  have hraise : ∀ (c : Prop) [Decidable c] (t : State) (f : Fld), f.key < 0x1900100 * 8 → (if c then t.raise f else t).fld g = t.fld g := by
    intro c _ t f hf
    split
    · exact t.fld_raise_of_bank hf hg
    · rfl
  exact (hraise _ _ F.TLM_ISR_OVER (by decide)).trans (hraise _ s F.TLM_ISR_PROFILE (by decide))

theorem exec_gaugeRefresh_of_due {s : State} (hdue : s.taskDue 5 1024 = true) : exec .gaugeRefresh s =
    .next (s.live (((s.taskRan 5).copyGauges.wrapInc F.TLM_GAUGE_SEQ_SEQ).raise F.TLM_ISR_GAUGE).testProfile) := by
  change execGaugeRefresh s = _
  simp only [execGaugeRefresh, taskGauge, hdue, Bool.not_true, Bool.false_eq_true, if_false]

/-- A refresh that is due shows the spare figures of each half held. -/
theorem State.showsSpare_gaugeRefresh {s : State} (hon : s.pins.powered = true) (hdue : s.taskDue 5 1024 = true) :
    ∃ u, exec .gaugeRefresh s = .next u ∧ ∀ i < 2, s.holds i = true → s.ShowsSpare u i := by
  refine ⟨_, exec_gaugeRefresh_of_due hdue, fun i hi hh => ?_⟩
  have hcopy : s.ShowsSpare (s.taskRan 5).copyGauges i :=
    let ⟨bad, pct⟩ := (s.taskRan 5).showsSpare_copyGauges hi hh
    ⟨bad, pct⟩
  refine hcopy.congr fun g hg => ?_
  have hbank : 0x1900100 * 8 ≤ g.key :=
    (by decide : ∀ i < 2, ∀ g ∈ [F.TLM_BAD_BLOCKS i, F.TLM_SPARE_PCT i], 0x1900100 * 8 ≤ g.key) i hi g hg
  have hseq : F.TLM_GAUGE_SEQ_SEQ.key < 0x1900100 * 8 := by decide
  rw [State.live_fld hon, State.fld_testProfile_of_bank _ hbank, State.fld_raise_of_bank _ (by decide) hbank,
    State.fld_wrapInc_ne _ _ (by omega)]

/-! ### The bad-block bitmap -/

theorem Tbl.above_iff {α : Type} {b : Nat} {t : Tbl α} : t.above b ↔ (∀ p ∈ t, b < p.1) ∧ t.Pairwise fun p q => p.1 < q.1 := by
  induction t generalizing b with
  | nil => simp [Tbl.above]
  | cons p r ih =>
    simp only [Tbl.above, ih, List.forall_mem_cons, List.pairwise_cons]
    exact ⟨fun ⟨hb, hp, hr⟩ => ⟨⟨hb, fun q hq => Nat.lt_trans hb (hp q hq)⟩, hp, hr⟩, fun ⟨⟨hb, _⟩, hp, hr⟩ => ⟨hb, hp, hr⟩⟩

/-- The keys of a table in canonical form rise. -/
theorem Tbl.pairwise_lt_of_wf {α : Type} {t : Tbl α} (h : t.wf = true) : t.Pairwise fun p q => p.1 < q.1 := by
  cases t with
  | nil => exact .nil
  | cons p r => exact List.pairwise_cons.mpr (Tbl.above_iff.mp ((Tbl.wf_cons p.1 p.2 r).mp h))

theorem Memory.pairwise_lt_of_wf {m : List Host.Cell} (h : Memory.wf m = true) : m.Pairwise fun p q => p.1 < q.1 :=
  Tbl.pairwise_lt_of_wf (Bool.and_eq_true_iff.mp h).left

/-- In rising keys, what is listed under a key is what is found there. -/
theorem Tbl.mem_iff_get? {α : Type} {t : Tbl α} (h : t.Pairwise fun p q => p.1 < q.1) {k : Nat} {v : α} :
    (k, v) ∈ t ↔ t.get? k = some v := by
  induction t with
  | nil => simp
  | cons p r ih =>
    obtain ⟨hp, hr⟩ := List.pairwise_cons.mp h
    rw [List.mem_cons, ih hr, Tbl.get?]
    split
    · next e =>
      have hnot : Tbl.get? r k ≠ some v := fun hk => Nat.lt_irrefl _ (e ▸ hp _ ((ih hr).mpr hk))
      rw [or_iff_left hnot]
      simp [Prod.ext_iff, e, eq_comm]
    · next e => simp [Prod.ext_iff, e]

/-- The blocks whose bits one byte of memory holds set, where it lies in the bad-block bitmap. -/
def State.cellBlocks (s : State) (c : Host.Cell) : List Nat :=
  if s.bbtBase ≤ c.1 ∧ c.1 < s.bbtBase + 2 ^ 25 then
    (List.range 8).filterMap fun k => if bit c.2.toNat k then some (8 * (c.1 - s.bbtBase) + k) else none
  else []

theorem State.badMembers_eq_cellBlocks (s : State) :
    s.badMembers = (s.dram.flatMap s.cellBlocks).filter fun b => s.holds (s.memberHalf b) := rfl

/-- The bit of block b lies in byte b / 8 of the bitmap, at place b % 8. -/
theorem State.mem_cellBlocks (s : State) {c : Host.Cell} {b : Nat} :
    b ∈ s.cellBlocks c ↔ b < 2 ^ 28 ∧ c.1 = s.bbtBase + b / 8 ∧ bit c.2.toNat (b % 8) = true := by
  unfold State.cellBlocks
  split
  · next hin =>
    simp only [List.mem_filterMap, List.mem_range, Option.ite_none_right_eq_some, Option.some.injEq]
    constructor
    · rintro ⟨k, hk, hbit, rfl⟩
      have hmod : (8 * (c.1 - s.bbtBase) + k) % 8 = k := by omega
      exact ⟨by omega, by omega, hmod.symm ▸ hbit⟩
    · rintro ⟨-, hc, hbit⟩
      exact ⟨b % 8, by omega, hbit, by omega⟩
  · next hout => exact ⟨fun h => absurd h List.not_mem_nil, fun ⟨hb, hc, _⟩ => absurd hc (by omega)⟩

theorem State.nodup_cellBlocks (s : State) (c : Host.Cell) : (s.cellBlocks c).Nodup := by
  unfold State.cellBlocks
  split
  · refine List.pairwise_filterMap.mpr (List.nodup_range.imp fun hne b hb b' hb' => ?_)
    simp only [Option.ite_none_right_eq_some, Option.some.injEq] at hb hb'
    omega
  · exact .nil

/-- A rebuild's blocks are named once each: no two bytes of memory share an address. -/
theorem State.nodup_badMembers (s : State) (hwf : Memory.wf s.dram = true) : s.badMembers.Nodup := by
  refine .filter _ (List.pairwise_flatMap.mpr
    ⟨fun c _ => s.nodup_cellBlocks c, (Memory.pairwise_lt_of_wf hwf).imp fun hlt b hb b' hb' => ?_⟩)
  obtain ⟨-, hc, -⟩ := s.mem_cellBlocks.mp hb
  obtain ⟨-, hc', -⟩ := s.mem_cellBlocks.mp hb'
  omega

theorem State.badBlock_eq_bit (s : State) (b : Nat) : s.badBlock b = bit (memGet s.dram (s.bbtBase + b / 8)).toNat (b % 8) := rfl

/-- A bit read as set lies in a byte that memory lists: an unlisted one reads 0. -/
theorem bit_memGet {m : List Host.Cell} (hwf : Memory.wf m = true) {a k : Nat} :
    bit (memGet m a).toNat k = true ↔ ∃ v, (a, v) ∈ m ∧ bit v.toNat k = true := by
  have hmem : ∀ v, (a, v) ∈ m ↔ Tbl.get? m a = some v := fun v => Tbl.mem_iff_get? (Memory.pairwise_lt_of_wf hwf)
  simp only [hmem, memGet]
  cases Tbl.get? m a with
  | none => simp [bit]
  | some v => simp

theorem State.mem_badMembers (s : State) (hwf : Memory.wf s.dram = true) {b : Nat} (hb : b < 2 ^ 28) :
    b ∈ s.badMembers ↔ s.badBlock b = true ∧ s.holds (s.memberHalf b) = true := by
  rw [s.badMembers_eq_cellBlocks, List.mem_filter, List.mem_flatMap, s.badBlock_eq_bit, bit_memGet hwf]
  refine and_congr_left fun _ => ⟨fun ⟨c, hc, hcb⟩ => ?_, fun ⟨v, hv, hbit⟩ => ⟨_, hv, s.mem_cellBlocks.mpr ⟨hb, rfl, hbit⟩⟩⟩
  obtain ⟨-, haddr, hbit⟩ := s.mem_cellBlocks.mp hcb
  exact ⟨c.2, haddr ▸ hc, hbit⟩

/-- Settles O7: the refresh shows what the rebuild counted, and the bitmap's bytes stand at rising addresses. -/
theorem spareFollowsTheBitmap : Obligations.SpareFollowsTheBitmap := by
  refine ⟨regFields_spareTotal_madeBad, fun s hon hdue => ?_, fun s hwf => ⟨s.nodup_badMembers hwf, fun b hb => s.mem_badMembers hwf hb⟩⟩
  obtain ⟨u, hu, hshow⟩ := State.showsSpare_gaugeRefresh (s := s.rebuilt) (s.pins_rebuilt ▸ hon) (s.taskDue_rebuilt 5 1024 ▸ hdue)
  refine ⟨s.rebuilt, u, exec_tlmRebuild_of_on hon, hu, fun i hi hh => ?_⟩
  obtain ⟨hbad, hpct⟩ := hshow i hi (s.holds_rebuilt i ▸ hh)
  have hkeep : ∀ g ∈ [F.TLM_SPARE_TOTAL_BLOCKS i, F.TLM_BAD_AT_CREATION_BLOCKS i], s.rebuilt.fld g = s.fld g := fun g hg =>
    have hbank : 0x1900100 * 8 ≤ g.key :=
      (by decide : ∀ i < 2, ∀ g ∈ [F.TLM_SPARE_TOTAL_BLOCKS i, F.TLM_BAD_AT_CREATION_BLOCKS i], 0x1900100 * 8 ≤ g.key) i hi g hg
    State.fld_raise_of_bank _ (by decide) hbank
  rw [s.health_rebuilt, s.ofInst_bad_sweepWear hi] at hbad hpct
  rw [hkeep _ (by simp), hkeep _ (by simp)] at hpct
  exact ⟨hbad, hpct⟩

end Sys2Proof.Machine
end

section
/-! PROOF. OFF (R23, R24, R481): what a head in reset holds, that the commands of its lines are all an OFF head takes, and
that no step leaves an OFF head that is not clean; the ways in and out of OFF. -/
namespace Sys2Proof.Machine

/-! ### Steps -/

theorem step_cons (c : Instr) (r : List Instr) (s : State) : step { s with pending := c :: r } = exec c { s with pending := r } := rfl

theorem step_of_pending_cons {s : State} {c : Instr} {r : List Instr} (h : s.pending = c :: r) :
    step s = exec c { s with pending := r } := by
  unfold step
  rw [h]

theorem step_of_pending_nil {s : State} (h : s.pending = []) : step s = .next (s.live s.settle) := by
  unfold step
  rw [h]

/-- Settles O1: an empty queue lets the head go on, a head that is OFF with nothing. -/
theorem stepRunsFrontCommand : Obligations.StepRunsFrontCommand := by
  refine ⟨step_cons, fun s h => step_of_pending_nil h, fun s h hoff => ?_⟩
  rw [step_of_pending_nil h, State.live_off hoff]

/-! ### The clean OFF head -/

/-- Lines of the outside may change on an OFF head. -/
theorem State.OffClean.modPins {s : State} (h : s.OffClean) {f : Pins → Pins} (hf : (f s.pins).forfeitOut = s.pins.forfeitOut)
    (ht : (f s.pins).turnDriven = s.pins.turnDriven) (hp : (f s.pins).portsOn = s.pins.portsOn) : (s.modPins f).OffClean :=
  { h with
    forfeitOut := hf.trans h.forfeitOut
    turnDriven := ht.trans h.turnDriven
    portsOn := hp.trans h.portsOn }

/-- A field that stands outside the head, or that OFF retains, may be written on an OFF head. -/
theorem State.OffClean.setFld {s : State} (h : s.OffClean) {f : Fld} (v : Nat) (hf : f.key ∈ offKeys) : (s.setFld f v).OffClean :=
  { h with registers := fun g hg => (s.fld_setFld_ne v (ne_of_mem_of_not_mem hf hg).symm).trans (h.registers g hg) }

/-- The registers of a head in reset: what a field that no line keeps reads as. -/
theorem State.fld_inReset_of_ne (s : State) {f : Fld} (hf : f.key ∉ offKeys) : s.inReset.fld f = f.reset :=
  fld_keepFields_of_ne s _ fun _ hg => ne_of_mem_of_not_mem (List.mem_map_of_mem hg) hf

theorem State.offClean_inReset (s : State) : s.inReset.OffClean := by
  have hreg := fun (f : Fld) (hf : f.key ∉ offKeys) => s.fld_inReset_of_ne hf
  obtain ⟨c, hc⟩ : ∃ c, s.inReset = { State.reset with
      pending := s.pending, sent := s.sent, fresh := s.fresh, cells := c
      pins := { partnerLow := s.pins.partnerLow, partnerHere := s.pins.partnerHere, unseated := s.pins.unseated, inputGood := s.pins.inputGood }
      sec := { zeroised := s.sec.zeroised, counts := s.sec.counts, phases := s.sec.phases }
      rpj := { events := s.rpj.events, log := s.rpj.log, exports := s.rpj.exports } } := regsOnly_keepFields _ _ _
  rw [hc] at hreg ⊢
  exact { forfeitOut := rfl, turnDriven := rfl, portsOn := rfl, keys := rfl, journal := rfl, control := rfl, registers := hreg,
          memory := rfl, latches := rfl, cast := ⟨rfl, rfl, rfl, rfl⟩, pairSt := ⟨rfl, rfl, rfl⟩,
          work := ⟨rfl, rfl, rfl, rfl, rfl, rfl, rfl, rfl, rfl⟩, flash := ⟨rfl, rfl, rfl, rfl⟩ }

theorem State.pending_inReset (s : State) : s.inReset.pending = s.pending ∧ s.inReset.sent = s.sent := by
  obtain ⟨c, hc⟩ := regsOnly_keepFields s (outsideFields ++ retainedFields) { State.reset with
      pending := s.pending, sent := s.sent, fresh := s.fresh
      pins := { partnerLow := s.pins.partnerLow, partnerHere := s.pins.partnerHere, unseated := s.pins.unseated, inputGood := s.pins.inputGood }
      sec := { zeroised := s.sec.zeroised, counts := s.sec.counts, phases := s.sec.phases }
      rpj := { events := s.rpj.events, log := s.rpj.log, exports := s.rpj.exports } }
  unfold State.inReset
  dsimp only
  rw [hc]
  exact ⟨rfl, rfl⟩

/-- Settles O2: at reset no cell is listed and every unit's state is its default. -/
theorem resetLeavesResetValues : Obligations.ResetLeavesResetValues :=
  ⟨fun _ => rfl, by decide, by decide, by decide, by decide, rfl, rfl, rfl, rfl, fun _ =>
    { forfeitOut := rfl, turnDriven := rfl, portsOn := rfl, keys := rfl, journal := rfl, control := rfl, registers := fun _ _ => rfl,
      memory := rfl, latches := rfl, cast := ⟨rfl, rfl, rfl, rfl⟩, pairSt := ⟨rfl, rfl, rfl⟩,
      work := ⟨rfl, rfl, rfl, rfl, rfl, rfl, rfl, rfl, rfl⟩, flash := ⟨rfl, rfl, rfl, rfl⟩ }⟩

/-! ### What an OFF head takes -/

/-- The commands that may turn a head off. -/
def turnsOff : Instr → Bool
  | .powerDown | .holdupShutdown => true
  | _ => false

/-- Of the commands no line of the head gives, each takes effect on a powered head only. -/
theorem exec_eq_live (c : Instr) (s : State) (hc : takenWhenOff c = false) (hd : turnsOff c = false) :
    ∃ u, exec c s = .next (s.live u) := by
  cases c
  case castOnStart | holdupResetRelease | seatedRemoval | inputLoss | inputReturn | partnerPresenceChange | partnerForfeitSampled
    | partnerForfeitRelease | modulePresenceChange => cases hc
  case powerDown | holdupShutdown => cases hd
  all_goals exact ⟨_, rfl⟩

theorem exec_holdupShutdown (s : State) : exec .holdupShutdown s = .next (if s.pins.powered && s.mayShut then s.shutDown else s) := rfl

theorem exec_castOnStart (x : Straps) (power : Bool) (s : State) :
    exec (.castOnStart x power) s = .next (if s.pins.powered then s else s.castOn x power) := rfl

theorem exec_powerDown (s : State) : exec .powerDown s = .next (if s.pins.powered then s.inReset else s) := rfl

/-- Settles O3: an effect that only a powered head takes, or one of the two ways into OFF, leaves an OFF head as it is. -/
theorem offHeadTakesNoCommand : Obligations.OffHeadTakesNoCommand := by
  intro c s hoff hc
  cases hd : turnsOff c with
  | false =>
    obtain ⟨u, e⟩ := exec_eq_live c s hc hd
    rw [e, State.live_off hoff]
  | true =>
    cases c <;> cases hd
    · rw [exec_holdupShutdown, hoff]; rfl
    · rw [exec_powerDown, hoff]; rfl

/-! ### The invariant -/

theorem State.offInv_of_clean {s : State} (h : s.OffClean) : s.offInv := fun _ => h

theorem State.offInv_of_on {s : State} (h : s.pins.powered = true) : s.offInv := fun hoff => absurd (hoff.symm.trans h) (by decide)

theorem State.offInv.live {s : State} (h : s.offInv) (u : State) : (s.live u).offInv := by
  cases hp : s.pins.powered with
  | true => exact State.offInv_of_on ((s.live_powered u).trans hp)
  | false => rw [State.live_off hp]; exact h

theorem State.offInv.modPins {s : State} (h : s.offInv) {f : Pins → Pins} (hw : (f s.pins).powered = s.pins.powered)
    (hf : (f s.pins).forfeitOut = s.pins.forfeitOut) (ht : (f s.pins).turnDriven = s.pins.turnDriven)
    (hp : (f s.pins).portsOn = s.pins.portsOn) : (s.modPins f).offInv := fun hoff =>
  (h (hw.symm.trans hoff)).modPins hf ht hp

theorem State.offInv.setFld {s : State} (h : s.offInv) {f : Fld} (v : Nat) (hf : f.key ∈ offKeys) : (s.setFld f v).offInv := fun hoff =>
  (h hoff).setFld v hf

theorem State.offInv.ite {s t : State} {c : Prop} [Decidable c] (hs : s.offInv) (ht : t.offInv) : (if c then s else t).offInv := by
  split
  · exact hs
  · exact ht

theorem State.offInv_castOn (s : State) (x : Straps) (power : Bool) : (s.castOn x power).offInv :=
  State.offInv_of_on (s.powered_castOn x power)

theorem State.OffClean.setPhase {s : State} (h : s.OffClean) (n : Nat) : (s.modHold fun x => { x with phase := n }).OffClean :=
  { h with control := congrArg (fun c : CtlSt => { c with hold := { c.hold with phase := n } }) h.control }

/-- A head that hold-up shuts down is in reset, but for the phase that its release waits for. -/
theorem State.offClean_shutDown (s : State) : s.shutDown.OffClean := s.zeroise.offClean_inReset.setPhase 5

theorem key_present_mem_offKeys (port : Nat) : (F.MED_PORT_STATUS_PRESENT (port % 64)).key ∈ offKeys :=
  List.mem_map_of_mem (List.mem_append_left _ (List.mem_append_right _
    (List.mem_map_of_mem (f := F.MED_PORT_STATUS_PRESENT) (List.mem_range.mpr (Nat.mod_lt port (by decide))))))

/-- The commands of the lines keep an OFF head clean: a line's level is noted on its pin and its field. -/
theorem offInv_exec_line {c : Instr} {s t : State} (hc : takenWhenOff c = true) (hs : s.offInv) (h : exec c s = .next t) : t.offInv := by
  cases c <;> cases hc <;> obtain rfl := (Host.Outcome.next.inj h).symm
  case castOnStart x power => exact .ite hs (s.offInv_castOn x power)
  case partnerForfeitSampled found =>
    exact .ite hs (.ite ((hs.modPins rfl rfl rfl rfl).setFld 1 (by decide)) (hs.live _))
  case modulePresenceChange port present =>
    have h1 : (s.setFld (F.MED_PORT_STATUS_PRESENT (port % 64)) (if present then 1 else 0)).offInv :=
      hs.setFld _ (key_present_mem_offKeys port)
    exact .ite h1 (h1.live _)
  case inputLoss droop =>
    have h1 : (s.modPins fun p => { p with inputGood := false }).offInv := hs.modPins rfl rfl rfl rfl
    exact .ite hs (.ite h1 (h1.live _))
  case inputReturn =>
    have h1 : (s.modPins fun p => { p with inputGood := true }).offInv := hs.modPins rfl rfl rfl rfl
    exact .ite h1 (h1.live _)
  case holdupResetRelease x => exact .ite (s.offInv_castOn x false) hs
  case seatedRemoval =>
    have h1 : (s.modPins fun p => { p with unseated := true }).offInv := hs.modPins rfl rfl rfl rfl
    exact .ite h1 (h1.live _)
  case partnerPresenceChange present =>
    have h1 : (s.modPins fun p => { p with partnerHere := present }).offInv := hs.modPins rfl rfl rfl rfl
    exact .ite h1 (.ite (h1.setFld _ (by decide)) (h1.live _))
  case partnerForfeitRelease =>
    exact .ite hs (.ite ((hs.modPins rfl rfl rfl rfl).setFld 0 (by decide)) (hs.live _))

/-- Every command keeps an OFF head clean. -/
theorem offInv_exec {c : Instr} {s t : State} (hs : s.offInv) (h : exec c s = .next t) : t.offInv := by
  cases hc : takenWhenOff c with
  | true => exact offInv_exec_line hc hs h
  | false =>
    cases hd : turnsOff c with
    | false =>
      obtain ⟨u, e⟩ := exec_eq_live c s hc hd
      obtain rfl := Host.Outcome.next.inj (e.symm.trans h)
      exact hs.live u
    | true =>
      cases c <;> cases hd <;> obtain rfl := (Host.Outcome.next.inj h).symm
      · exact .ite (State.offInv_of_clean s.offClean_shutDown) hs
      · exact .ite (State.offInv_of_clean s.offClean_inReset) hs

/-- Settles O4: a command's effect needs power, or is a line's level, or is a reset. -/
theorem offStaysClean : Obligations.OffStaysClean := by
  intro s t hs h
  cases hq : s.pending with
  | nil =>
    obtain rfl := Host.Outcome.next.inj ((step_of_pending_nil hq).symm.trans h)
    exact hs.live _
  | cons c r =>
    have hs' : ({ s with pending := r } : State).offInv := fun hoff => { hs hoff with }
    exact offInv_exec hs' ((step_of_pending_cons hq).symm.trans h)

/-! ### Into and out of OFF -/

/-- The state that cast-on starts from. -/
def State.castFrom (s : State) (power : Bool) : State := if power then s.powerOn else s.inReset

/-- Cast-on starts with nothing held: neither keys nor DRAM content, every line of the head low. -/
theorem State.castFrom_frame (s : State) (power : Bool) : (s.castFrom power).sec.slots = [] ∧ (s.castFrom power).dram = [] ∧
    (s.castFrom power).pending = s.pending ∧ (s.castFrom power).pins.forfeitOut = false := by
  have hr := s.offClean_inReset
  have hq := s.pending_inReset.1
  unfold State.castFrom State.powerOn
  generalize s.inReset = r at hr hq ⊢
  cases power with
  | false => exact ⟨congrArg SecSt.slots hr.keys, hr.memory, hq, hr.forfeitOut⟩
  | true =>
    obtain ⟨c, hc⟩ := regsOnly_keepFields s outsideFields { r with sec := {}, rpj := {}, cells := [] }
    rw [if_pos rfl, hc]
    exact ⟨rfl, hr.memory, hq, hr.forfeitOut⟩

theorem State.castOn_frame (s : State) (x : Straps) (power : Bool) : (s.castOn x power).sec = (s.castFrom power).sec ∧
    (s.castOn x power).dram = (s.castFrom power).dram ∧ (s.castOn x power).pending = (s.castFrom power).pending ∧
    (s.castOn x power).pins.forfeitOut = (s.castFrom power).pins.forfeitOut ∧ (s.castOn x power).boot.labHold = (x.bootMode % 4 == 2) := by
  unfold State.castOn State.castFrom
  generalize (if power then s.powerOn else s.inReset) = s1
  exact ⟨rfl, rfl, rfl, rfl, rfl⟩

/-- The straps are latched, and step 1 is done (R52, R56). -/
theorem State.fld_castOn (s : State) (x : Straps) (power : Bool) :
    (s.castOn x power).fld F.GLB_CASTON_STATUS_STEP = 1 ∧ (s.castOn x power).fld F.GLB_PAIR_STATUS_HEAD_ID = x.headId % 2 ∧
      (s.castOn x power).fld F.GLB_STRAPS_BOOT_MODE = x.bootMode % 4 := by
  unfold State.castOn
  generalize (if power then s.powerOn else s.inReset) = s1
  dsimp only
  simp only [State.fld_logEvent _ _ _ _ _ (show Fld.blk F.GLB_CASTON_STATUS_STEP ≠ 0x18 by decide),
    State.fld_logEvent _ _ _ _ _ (show Fld.blk F.GLB_PAIR_STATUS_HEAD_ID ≠ 0x18 by decide),
    State.fld_logEvent _ _ _ _ _ (show Fld.blk F.GLB_STRAPS_BOOT_MODE ≠ 0x18 by decide)]
  refine ⟨State.fld_setFld_same _ _ _, ?_, ?_⟩
  · rw [State.fld_setFld_ne _ _ (by decide), State.fld_setFld_same]
    rfl
  · iterate 3 rw [State.fld_setFld_ne _ _ (by decide)]
    rw [State.fld_setFld_same]
    exact Nat.mod_mod _ _

/-- No two of the fields that OFF keeps share a key. -/
theorem kept_inj : ∀ f ∈ outsideFields ++ retainedFields, ∀ g ∈ outsideFields ++ retainedFields, f.key = g.key → f = g := by
  decide +kernel

/-- What stands outside the head, and what only power-on clears, stands through a reset. -/
theorem State.fld_inReset_of_mem (s : State) {f : Fld} (hf : f ∈ outsideFields ++ retainedFields) (hv : s.fld f < 2 ^ f.width) :
    s.inReset.fld f = s.fld f :=
  (fld_keepFields_of_mem s _ hf fun g hg => kept_inj g hg f hf).trans (Nat.mod_eq_of_lt hv)

/-- Settles O12: cast-on starts from the head in reset, or without power; power-down is the reset itself. -/
theorem castOnStartsFromOff : Obligations.CastOnStartsFromOff := by
  refine ⟨fun x power s hoff => ?_, fun x power s hon => ⟨s, by rw [exec_castOnStart, if_pos hon], rfl⟩, fun s hon => ?_, fun s hon => ?_⟩
  · obtain ⟨hstep, hid, hmode⟩ := s.fld_castOn x power
    obtain ⟨hkeys, hmem, hq, hline⟩ := s.castFrom_frame power
    obtain ⟨fsec, fdram, fq, fline, hlab⟩ := s.castOn_frame x power
    exact ⟨_, exec_castOnStart_of_off x power s hoff, s.powered_castOn x power, fline.trans hline, hstep, hid, hmode,
      fsec ▸ hkeys, fdram.trans hmem, fq.trans hq, hlab⟩
  · exact ⟨_, exec_powerDown_of_on s hon, s.powered_inReset, s.offClean_inReset, s.pending_inReset.1, s.pending_inReset.2,
      fun f hf hv => s.fld_inReset_of_mem hf hv⟩
  · exact ⟨_, congrArg Host.Outcome.next (State.live_eq (t := s.modBoot fun b => { b with imageHold := false }) hon rfl), rfl⟩

end Sys2Proof.Machine
end

section
/-! PROOF. The register window (R465-R470, R472, R475): refused accesses, written words, 64-bit pairs, result registers,
interrupts set and routes swapped, and that no read depends on the keys held. -/
namespace Sys2Proof.Machine

/-! ### Fields of a register -/

theorem apart_iff {l : List (Fld × Access)} : apart l = true ↔ (∀ p ∈ l, 0 < p.1.width ∧ p.1.lo + p.1.width ≤ 32) ∧
    l.Pairwise fun p q => p.1.lo + p.1.width ≤ q.1.lo ∨ q.1.lo + q.1.width ≤ p.1.lo := by
  induction l with
  | nil => simp [apart]
  | cons p r ih =>
    simp only [apart, Bool.and_eq_true, decide_eq_true_eq, List.all_eq_true, Bool.or_eq_true, ih, List.forall_mem_cons, List.pairwise_cons]
    exact ⟨fun ⟨⟨h1, h2⟩, h3, h4⟩ => ⟨⟨h1, h3⟩, h2, h4⟩, fun ⟨⟨h1, h3⟩, h2, h4⟩ => ⟨⟨h1, h2⟩, h3, h4⟩⟩

/-- Settles O55: the register tables' rows were found apart, and an offset takes its row's fields. -/
theorem registerFieldsLieApart : Obligations.RegisterFieldsLieApart := by
  intro off
  obtain ⟨hin, hapart⟩ := apart_iff.mp (regFields_apart off)
  exact ⟨fun p hp => ⟨regFields_off off p hp, hin p hp⟩, hapart⟩

/-- A field of a register lies within its word. -/
theorem lo_lt_of_mem_regFields {off : Nat} {p : Fld × Access} (hp : p ∈ regFields off) : p.1.lo < 32 := by
  obtain ⟨hw, hl⟩ := (apart_iff.mp (regFields_apart off)).1 p hp
  omega

theorem width_pos_of_mem_regFields {off : Nat} {p : Fld × Access} (hp : p ∈ regFields off) : 0 < p.1.width :=
  ((apart_iff.mp (regFields_apart off)).1 p hp).1

theorem key_of_mem_regFields {off : Nat} {p : Fld × Access} (hp : p ∈ regFields off) : p.1.key = off * 8 + p.1.lo := by
  rw [Fld.key, regFields_off off p hp]

/-- A register's fields lie in its block. -/
theorem blk_of_mem_regFields {off : Nat} {p : Fld × Access} (hp : p ∈ regFields off) (ha : off % 4 = 0) : p.1.blk = off / 0x100000 := by
  have hlo := lo_lt_of_mem_regFields hp
  rw [Fld.blk, key_of_mem_regFields hp]
  omega

/-- Fields of different registers are different. -/
theorem key_ne_of_off_ne {off off' : Nat} {p q : Fld × Access} (hp : p ∈ regFields off) (hq : q ∈ regFields off') (ha : off % 4 = 0)
    (ha' : off' % 4 = 0) (h : off ≠ off') : p.1.key ≠ q.1.key := by
  have hlp := lo_lt_of_mem_regFields hp
  have hlq := lo_lt_of_mem_regFields hq
  rw [key_of_mem_regFields hp, key_of_mem_regFields hq]
  omega

/-! ### Refused accesses (R465) -/

theorem State.logs_refuseAccess (s : State) (off : Nat) :
    (((s.setFld F.IRQ_ACCESS_ERR_COUNT (min (s.fld F.IRQ_ACCESS_ERR_COUNT + 1) 63)).setFld F.IRQ_ACCESS_ERR_OFFSET off).setFld
        F.IRQ_ISR_ACCESS_ERR 1).JournalFrame (s.refuseAccess off) := State.logs_raise _ _

/-- Settles O54: an access in another form is a refusal and nothing else. -/
theorem refusedAccessCountsAndRaises : Obligations.RefusedAccessCountsAndRaises := by
  intro who off size value time s hon hmay hbad
  have h := s.logs_refuseAccess (off % 2 ^ 26)
  refine ⟨s.refuseAccess (off % 2 ^ 26), ?_, h⟩
  change execRegisterWrite who off size value time s = _
  simp only [execRegisterWrite, hmay, hbad, Bool.not_true, Bool.not_false, Bool.false_eq_true, if_false, if_true]
  rw [State.live_eq hon h.pins]

theorem State.fld_refuseAccess_ne (s : State) (off : Nat) {g : Fld} (h : g.blk ≠ 0x1A) (hb : g.blk ≠ 0x18) :
    (s.refuseAccess off).fld g = s.fld g := by
  rw [(s.logs_refuseAccess off).fld g hb, State.fld_setFld_ne _ _ (Fld.key_ne_of_blk h), State.fld_setFld_ne _ _ (Fld.key_ne_of_blk h),
    State.fld_setFld_ne _ _ (Fld.key_ne_of_blk h)]

/-! ### Plain registers (R468) -/

/-- What an offset of a plain register is not. -/
structure PlainAt (off : Nat) : Prop where
  inside   : off < 0x1C00000
  aligned  : off % 4 = 0
  free     : refereeOnly off = false
  coef     : coefBank off = none
  hooks    : ∀ o ∈ hookedRegs, off ≠ o
  pools    : ¬ (0x801000 ≤ off ∧ off < 0x801800)
  routes   : ¬ (0x1A01000 ≤ off ∧ off < 0x1A01E00)
  slots    : ¬ (0x300108 ≤ off ∧ off < 0x300200 ∧ off % 0x10 = 8)
  rails    : ¬ (0x200040 ≤ off ∧ off < 0x20004C)
  tiers    : ¬ (0xC00060 ≤ off ∧ off < 0xC00074)
  enables  : (isrRegs (off / 0x100000)).contains (off - 4) = false

theorem plainAt_of_plainReg {off : Nat} (h : plainReg off = true) : PlainAt off := by
  simp only [plainReg, Bool.and_eq_true, decide_eq_true_eq, beq_iff_eq, Bool.not_eq_true', Option.isNone_iff_eq_none,
    Bool.and_eq_false_iff, decide_eq_false_iff_not, beq_eq_false_iff_ne, List.contains_eq_mem] at h
  obtain ⟨⟨⟨⟨⟨⟨⟨⟨⟨⟨h1, h2⟩, h3⟩, h4⟩, h5⟩, h6⟩, h7⟩, h8⟩, h9⟩, h10⟩, h11⟩ := h
  exact ⟨h1, h2, h3, h4, fun o ho e => h5 (e ▸ ho), by omega, by omega, by omega, by omega, by omega,
    by simpa only [List.contains_eq_mem, decide_eq_false_iff_not] using h11⟩

theorem State.writeBlocked_plain {off : Nat} (h : PlainAt off) (s : State) : s.writeBlocked off = none := by
  have hp := h.pools
  have hr := h.routes
  unfold State.writeBlocked
  rw [h.coef]
  dsimp only
  rw [if_neg (by omega), if_neg (by omega)]

/-- Nothing follows at once from a plain register's new word. -/
theorem State.afterWrite_plain {off : Nat} (h : PlainAt off) (s0 s : State) : State.afterWrite s0 s off = s := by
  have hk := h.hooks
  simp only [hookedRegs, List.forall_mem_cons, List.not_mem_nil, false_imp_iff, implies_true, and_true] at hk
  obtain ⟨-, -, -, -, -, -, -, h1, h2, h3, h4, h5, h6, h7, h8, h9, h10, h11, h12, h13, h14, h15, h16⟩ := hk
  have hp := h.pools
  have hr := h.rails
  have ht := h.tiers
  unfold State.afterWrite
  rw [if_neg (by omega), if_neg h4, if_neg h5, if_neg h6, if_neg h12, if_neg h13, if_neg h14, if_neg (by omega), if_neg hp, if_neg hr,
    if_neg ht, if_neg (by omega), if_neg (by omega), if_neg h7, h.enables]
  rfl

theorem refereeOnly_of_block {off : Nat} (h : off / 0x100000 = 4) : refereeOnly off = true := by
  simp [refereeOnly, h]

theorem State.writeReg_plain {off : Nat} (h : PlainAt off) (s : State) (w t : Nat) : s.writeReg off w t = s.writeWord off w := by
  have hk := h.hooks
  simp only [hookedRegs, List.forall_mem_cons, List.not_mem_nil, false_imp_iff, implies_true, and_true] at hk
  obtain ⟨h1, h2, h3, h4, h5, h6, h7, -⟩ := hk
  have hs := h.slots
  have hc : off / 0x100000 ≠ 4 := fun e => absurd (h.free.symm.trans (refereeOnly_of_block e)) (by decide)
  unfold State.writeReg
  rw [State.writeBlocked_plain h]
  dsimp only
  rw [if_neg h1, if_neg hs, if_neg h2, if_neg h3, if_neg (by omega), if_neg (by omega), State.afterWrite_plain h]

theorem accessOk_plain {off : Nat} (h : PlainAt off) : accessOk off 4 = true := by
  simp [accessOk, h.inside, h.aligned]

/-- A word that a requester writes to a plain register that is no half of a pair. -/
theorem exec_registerWrite_plain {who : Requester} {off : Nat} (w time : Nat) {s : State} (hmay : s.mayWrite who = true) (h : PlainAt off)
    (hpair : pairAt off = none) (hhi : heldHi off = false) :
    exec (.registerWrite who off 4 w time) s = .next (s.live (s.writeWord off (w % 2 ^ 32))) := by
  change execRegisterWrite who off 4 w time s = _
  have h32 : s.write32 who off (w % 2 ^ 32) time = s.writeWord off (w % 2 ^ 32) := by
    simp [State.write32, h.free, hhi, hpair, State.writeReg_plain h]
  simp only [execRegisterWrite, hmay, accessOk_plain h, Bool.not_true, Bool.false_eq_true, if_false, h32, Nat.reduceEqDiff]

/-- Settles O56: a plain register's word is taken by the access codes alone. -/
theorem writtenWordFollowsAccessCodes : Obligations.WrittenWordFollowsAccessCodes := by
  intro who off w time s hon hmay hplain hpair hhi hlock
  obtain ⟨hflds, hsame⟩ := s.writeWord_spec off (w % 2 ^ 32) hlock
  refine ⟨s.writeWord off (w % 2 ^ 32), ?_, hflds, hsame⟩
  rw [exec_registerWrite_plain w time hmay (plainAt_of_plainReg hplain) hpair hhi, State.live_eq hon hsame.1.pins]

/-! ### Locked changes (R468) -/

/-- The fields of a register as a word leaves them, a locked change left out. -/
def State.wordTaken (s : State) (off w : Nat) : State :=
  clearByWrite ((regFields off).foldl (writeField (s.headState != stCastOn) w) s) off

theorem State.wordTaken_spec (s : State) (off w : Nat) :
    (∀ p ∈ regFields off, (s.wordTaken off w).fld p.1 = fieldAfter s off w p) ∧ s.SameBut (s.wordTaken off w) off := by
  obtain ⟨a1, a2, a3⟩ := writeFields_spec (s.headState != stCastOn) w (regFields off) s (regFields_keys off)
  obtain ⟨c1, c2, c3⟩ := clearByWrite_spec ((regFields off).foldl (writeField (s.headState != stCastOn) w) s) off
  refine ⟨fun p hp => ?_, a3.trans c3, fun f hf => (c2 f hf).trans (a2 f hf)⟩
  unfold State.wordTaken
  rw [c1 p hp, a1 p hp]
  unfold fieldAfter valueAfter
  split
  · rfl
  · cases p.2 <;> simp [bne]

theorem State.writeWord_locked {s : State} {off w : Nat} (hlock : s.headState ≠ stCastOn)
    (h : ∃ p ∈ regFields off, changesLocked s w p = true) : s.writeWord off w = (s.wordTaken off w).refuseAccess off := by
  unfold State.writeWord
  rw [if_pos]
  · rfl
  · simp only [Bool.and_eq_true, List.any_eq_true, bne_iff_ne]
    exact ⟨hlock, h⟩

/-- Settles O57: a refusal touches only the blocks IRQ and RPJ, and is counted after the word is taken. -/
theorem lockedChangeIsRefused : Obligations.LockedChangeIsRefused := by
  intro who off w time s hon hmay hplain hpair hhi hrpj hirq hlock hchange
  have hat := plainAt_of_plainReg hplain
  obtain ⟨hflds, -, hsame⟩ := s.wordTaken_spec off (w % 2 ^ 32)
  generalize hu : s.wordTaken off (w % 2 ^ 32) = u at hflds hsame
  have hlog := u.logs_refuseAccess off
  have hirqFld : ∀ f : Fld, f.blk = 0x1A → u.fld f = s.fld f := fun f hf =>
    hsame f fun p hp => Fld.key_ne_of_blk (by rw [blk_of_mem_regFields hp hat.aligned, hf]; exact hirq)
  refine ⟨s.live (u.refuseAccess off), ?_, fun p hp => ?_, ?_, ?_, ?_⟩
  · rw [exec_registerWrite_plain w time hmay hat hpair hhi, State.writeWord_locked hlock hchange, hu]
  · have hblk := blk_of_mem_regFields hp hat.aligned
    rw [State.live_fld hon, u.fld_refuseAccess_ne off (hblk ▸ hirq) (hblk ▸ hrpj), hflds p hp]
  · rw [State.live_fld hon, hlog.fld _ (by decide), State.fld_setFld_ne _ _ (by decide), State.fld_setFld_ne _ _ (by decide),
      State.fld_setFld_same, hirqFld _ (by decide)]
    exact Nat.mod_eq_of_lt (Nat.lt_of_le_of_lt (Nat.min_le_right _ _) (by decide))
  · rw [State.live_fld hon, hlog.fld _ (by decide), State.fld_setFld_ne _ _ (by decide), State.fld_setFld_same]
    exact Nat.mod_eq_of_lt (Nat.lt_of_lt_of_le hat.inside (by decide))
  · rw [State.live_fld hon, hlog.fld _ (by decide), State.fld_setFld_same]
    rfl

/-! ### Latches (R469) -/

theorem State.get?_setLatch_same (s : State) (k : Nat) (l : Tbl Nat) : ((s.setLatch k l).latches.get? k).getD [] = l := by
  unfold State.setLatch
  split
  · next h => rw [Tbl.get?_del_same, List.isEmpty_iff.mp h]; rfl
  · rw [Tbl.get?_put_same]; rfl

theorem State.get?_setLatch_ne (s : State) {k j : Nat} (l : Tbl Nat) (h : j ≠ k) : (s.setLatch k l).latches.get? j = s.latches.get? j := by
  unfold State.setLatch
  split
  · exact Tbl.get?_del_ne _ h
  · exact Tbl.get?_put_ne _ _ h

/-- A value put under each key of a list that holds k is found there under k, where it depends on the key alone. -/
theorem Tbl.get?_foldl_put {α : Type} {v : Nat → α} {l : List Nat} {k : Nat} (hk : k ∈ l) (t : Tbl α) :
    (l.foldl (fun t o => t.put o (v o)) t).get? k = some (v k) := by
  have stays : ∀ (r : List Nat) (t : Tbl α), t.get? k = some (v k) → (r.foldl (fun t o => t.put o (v o)) t).get? k = some (v k) := by
    intro r
    induction r with
    | nil => exact fun _ h => h
    | cons o r ih =>
      intro t h
      refine ih _ ?_
      by_cases e : k = o
      · rw [e, Tbl.get?_put_same]
      · rw [Tbl.get?_put_ne _ _ e, h]
  induction l generalizing t with
  | nil => cases hk
  | cons o r ih =>
    by_cases e : k = o
    · exact stays r _ (e ▸ Tbl.get?_put_same _ _ _)
    · exact ih ((List.mem_cons.mp hk).resolve_left e) _

theorem State.latchValue_hi (s : State) (who : Requester) (off : Nat) : s.latchValue who off (off + 4) = s.rawReg (off + 4) := by
  unfold State.latchValue
  split
  · simp
  · rfl

/-- What a result register's read changes. -/
theorem State.markSeen_eq (s : State) (who : Requester) (off : Nat) : s.markSeen who off = s ∨ s.markSeen who off = s.setFld (resSeen off) 1 := by
  unfold State.markSeen
  split
  · exact .inr rfl
  · exact .inl rfl

theorem State.sent_send_regRead (s : State) (who off v : Nat) : s.send (.regRead who off v) = { s with sent := s.sent ++ [.regRead who off v] } := by
  simp [State.send, Sent.external, State.shut, Sent.onPorts, Sent.onEfmo]

theorem State.markSeen_frame (s : State) (who : Requester) (off : Nat) :
    s.RegsOnly (s.markSeen who off) ∧ ∀ f : Fld, f.key ≠ (resSeen off).key → (s.markSeen who off).fld f = s.fld f := by
  obtain e | e := s.markSeen_eq who off
  · rw [e]; exact ⟨.refl s, fun _ _ => rfl⟩
  · rw [e]; exact ⟨s.regsOnly_setFld _ _, fun f hf => s.fld_setFld_ne 1 hf⟩

/-- A first read of a _LO register latches its _HI for its requester alone. -/
theorem exec_pairLoRead_first {who : Requester} {off : Nat} {s : State} (hon : s.pins.powered = true) (hmay : s.mayRead who = true)
    (hpair : (pairAt off).isSome = true) (hfirst : (s.latched who).get? off = none) :
    ∃ t, exec (.pairLoRead who off) s = .next t ∧ t.sent = s.sent ++ [.regRead (latchOf who) off (s.rawReg off)] ∧
      (t.latched who).get? (off + 4) = some (s.rawReg (off + 4)) ∧
      (∀ other, latchOf other ≠ latchOf who → t.latched other = s.latched other ∧ t.heldBy other = s.heldBy other) ∧
      (∀ f : Fld, f.key ≠ (resSeen off).key → t.fld f = s.fld f) ∧ t.dram = s.dram ∧ t.pins = s.pins := by
  let l := ((off + 4) :: (pairAt off).getD []).foldl (fun (t : Tbl Nat) o => t.put o (s.latchValue who off o)) (s.latched who)
  have hl : l.get? (off + 4) = some (s.rawReg (off + 4)) :=
    (Tbl.get?_foldl_put List.mem_cons_self _).trans (congrArg some (s.latchValue_hi who off))
  let u : State := { s.setLatch (2 * latchOf who) l with sent := s.sent ++ [.regRead (latchOf who) off (s.rawReg off)] }
  obtain ⟨⟨c, hc⟩, hfld⟩ := u.markSeen_frame who off
  have hpins : (u.markSeen who off).pins = s.pins := (congrArg State.pins hc).trans rfl
  have hexec : exec (.pairLoRead who off) s = .next (u.markSeen who off) := by
    change execPairLoRead who off s = _
    simp only [execPairLoRead, hmay, hpair, Bool.and_self, if_true, State.readLo, hfirst]
    rw [State.sent_send_regRead]
    exact congrArg Host.Outcome.next (State.live_eq hon hpins)
  refine ⟨_, hexec, congrArg State.sent hc, ?_, fun other ho => ?_, hfld, (congrArg State.dram hc).trans rfl, hpins⟩
  · rw [hc]
    exact (congrArg (Tbl.get? · (off + 4)) (s.get?_setLatch_same (2 * latchOf who) l)).trans hl
  · rw [hc]
    exact ⟨congrArg (Option.getD · []) (s.get?_setLatch_ne l (by omega)), congrArg (Option.getD · []) (s.get?_setLatch_ne l (by omega))⟩

theorem exec_pairHiWrite_held {who : Requester} {off : Nat} (v : Nat) {s : State} (hon : s.pins.powered = true)
    (hmay : s.mayWrite who = true) (hhi : heldHi off = true) (hfree : refereeOnly off = false) :
    ∃ t, exec (.pairHiWrite who off v) s = .next t ∧ (t.heldBy who).get? off = some (v % 2 ^ 32) ∧ t = { s with latches := t.latches } := by
  refine ⟨s.setLatch (2 * latchOf who + 1) ((s.heldBy who).put off (v % 2 ^ 32)), ?_, ?_, rfl⟩
  · change execPairHiWrite who off v s = _
    simp [execPairHiWrite, hmay, hhi, State.write32, hfree]
    exact State.live_eq hon rfl
  · rw [State.heldBy, State.get?_setLatch_same, Tbl.get?_put_same]

/-- No _LO register lies below the head's status register. -/
theorem pairAt_below_status : pairAt 0xC = none := by decide +kernel

theorem fieldAfter_congr {s t : State} {off w : Nat} {p : Fld × Access} (hst : t.headState = s.headState) (hf : t.fld p.1 = s.fld p.1) :
    fieldAfter t off w p = fieldAfter s off w p := by
  unfold fieldAfter
  rw [hst, hf]

/-- A written _LO takes its held _HI with it. -/
theorem exec_pairLoWrite_held {who : Requester} {off : Nat} (v : Nat) {h : Nat} {s : State} (hon : s.pins.powered = true)
    (hmay : s.mayWrite who = true) (hpair : (pairAt off).isSome = true) (hhi : heldHi off = false) (hlo : PlainAt off)
    (hup : PlainAt (off + 4)) (hheld : (s.heldBy who).get? (off + 4) = some h) (hcast : s.headState = stCastOn) :
    ∃ t, exec (.pairLoWrite who off v) s = .next t ∧ (t.heldBy who).get? (off + 4) = none ∧
      (∀ p ∈ regFields (off + 4), t.fld p.1 = fieldAfter s (off + 4) h p) ∧ (∀ p ∈ regFields off, t.fld p.1 = fieldAfter s off (v % 2 ^ 32) p) ∧
      t.dram = s.dram ∧ t.pins = s.pins ∧ t.sent = s.sent := by
  generalize hu : s.setLatch (2 * latchOf who + 1) ((s.heldBy who).del (off + 4)) = u
  have hufld : ∀ f : Fld, u.fld f = s.fld f := fun f => hu ▸ rfl
  have huhead : u.headState = s.headState := hufld _
  obtain ⟨hflds1, hregs1, hsame1⟩ := u.writeWord_spec (off + 4) h (.inl (huhead.trans hcast))
  generalize hw : u.writeWord (off + 4) h = w at hflds1 hregs1 hsame1
  have hne : off + 4 ≠ 0x10 := fun e => by
    obtain rfl : off = 0xC := by omega
    rw [pairAt_below_status] at hpair
    cases hpair
  have hwhead : w.headState = s.headState := (hsame1 _ fun p hp => by
    have hlo := lo_lt_of_mem_regFields hp
    have halign := hup.aligned
    have hkey : F.GLB_PAIR_STATUS_STATE.key = 0x80 := by decide
    rw [key_of_mem_regFields hp, hkey]
    omega).trans huhead
  obtain ⟨hflds2, hregs2, hsame2⟩ := w.writeWord_spec off (v % 2 ^ 32) (.inl (hwhead.trans hcast))
  have hexec : exec (.pairLoWrite who off v) s = .next (s.live (w.writeWord off (v % 2 ^ 32))) := by
    change execPairLoWrite who off v s = _
    simp only [execPairLoWrite, hmay, hpair, Bool.and_self, if_true, State.write32, hlo.free, Bool.false_and, Bool.false_eq_true, if_false,
      hhi, hheld, hu, hw, State.writeBlocked_plain hup, Option.isSome_none, State.writeReg_plain hlo]
  obtain ⟨c, hc⟩ := hregs1.trans hregs2
  have hpins : (w.writeWord off (v % 2 ^ 32)).pins = s.pins := by rw [hc, ← hu]; rfl
  rw [State.live_eq hon hpins] at hexec
  refine ⟨_, hexec, ?_, fun p hp => ?_, fun p hp => ?_, ?_, hpins, ?_⟩
  · rw [hc, ← hu]
    exact (congrArg (Tbl.get? · (off + 4)) (s.get?_setLatch_same _ _)).trans (Tbl.get?_del_same _ _)
  · rw [hsame2 _ fun q hq => key_ne_of_off_ne hq hp hlo.aligned hup.aligned (by omega), hflds1 p hp]
    exact fieldAfter_congr huhead (hufld _)
  · rw [hflds2 p hp]
    exact fieldAfter_congr hwhead ((hsame1 _ fun q hq => key_ne_of_off_ne hq hp hup.aligned hlo.aligned (by omega)).trans (hufld _))
  · rw [hc, ← hu]; rfl
  · rw [hc, ← hu]; rfl

/-- Settles O58: by the requester's own place in the table of latches. -/
theorem pairReadsAndWritesUseTheRequestersLatch : Obligations.PairReadsAndWritesUseTheRequestersLatch :=
  ⟨fun _ _ _ => exec_pairLoRead_first, fun _ _ v _ => exec_pairHiWrite_held v, fun _ _ v _ _ hon hmay hpair hhi hlo hup =>
    exec_pairLoWrite_held v hon hmay hpair hhi (plainAt_of_plainReg hlo) (plainAt_of_plainReg hup)⟩

/-! ### Result registers (R470) -/

theorem exec_resultRegisterRead_of_result {who : Requester} {off : Nat} {s : State} (hmay : s.mayRead who = true) (hres : off ∈ resultRegs)
    (hpair : pairAt off = none) : exec (.resultRegisterRead who off) s =
      .next (s.live ((s.send (.regRead (latchOf who) off (s.rawReg off))).markSeen who off)) := by
  change execResultRegisterRead who off s = _
  simp [execResultRegisterRead, hmay, hres, hpair]

/-- Settles O59: the value goes out as it stands, then SEEN is set where R470 says. -/
theorem readingAResultSetsSeen : Obligations.ReadingAResultSetsSeen := by
  intro who off s hon hmay hres hpair
  have hexec := exec_resultRegisterRead_of_result hmay hres hpair
  rw [State.sent_send_regRead] at hexec
  generalize hu : ({ s with sent := s.sent ++ [.regRead (latchOf who) off (s.rawReg off)] } : State) = u at hexec
  obtain ⟨⟨c, hc⟩, hfld⟩ := u.markSeen_frame who off
  have hufld : ∀ f : Fld, u.fld f = s.fld f := fun f => hu ▸ rfl
  rw [State.live_eq hon (by rw [hc, ← hu])] at hexec
  refine ⟨_, hexec, ?_, ?_, fun f hf => (hfld f hf).trans (hufld f), ?_⟩
  · rw [hc, ← hu]
  · unfold State.markSeen
    rw [State.flag, hufld, ← State.flag, List.contains_eq_mem, decide_eq_true hres, Bool.true_and]
    simp only [Bool.and_eq_true, bne_iff_ne]
    split
    · rw [State.fld_setFld_same]; rfl
    · exact hufld _
  · rw [hc, ← hu]

/-! ### Interrupts set (R472) -/

theorem isrRegs_block {b o : Nat} (h : o ∈ isrRegs b) : o / 0x100000 = b ∧ o % 4 = 0 ∧ 0x10 ≤ o := by
  have hmain : isrOff b / 0x100000 = b ∧ isrOff b % 4 = 0 ∧ 0x10 ≤ isrOff b := by
    unfold isrOff
    split <;> omega
  unfold isrRegs at h
  split at h
  · next hb =>
    simp only [List.mem_cons, List.not_mem_nil, or_false] at h
    obtain rfl | rfl := h
    · exact hmain
    · exact ⟨hb ▸ rfl, rfl, by omega⟩
  · rw [List.mem_singleton.mp h]
    exact hmain

/-- Each 1 of a word raises its bit; a bit that is not raised stands. -/
theorem State.fld_foldl_raise (v off : Nat) (hoff : off / 0x100000 ≠ 0x18) (ha : off % 4 = 0) (l : List (Fld × Access))
    (hlo : ∀ p ∈ l, p.1.lo < 32 ∧ 0 < p.1.width) (hd : l.Pairwise fun p q => p.1.lo ≠ q.1.lo) (s : State) :
    (∀ p ∈ l, (l.foldl (fun t p => if wordField p.1 v = 1 then t.raise { p.1 with off := off } else t) s).fld { p.1 with off := off } =
      if wordField p.1 v = 1 then 1 else s.fld { p.1 with off := off }) ∧
    (∀ f : Fld, f.blk ≠ 0x18 → (∀ p ∈ l, Fld.key { p.1 with off := off } ≠ f.key) →
      (l.foldl (fun t p => if wordField p.1 v = 1 then t.raise { p.1 with off := off } else t) s).fld f = s.fld f) := by
  induction l generalizing s with
  | nil => exact ⟨by simp, fun _ _ _ => rfl⟩
  | cons p r ih =>
    obtain ⟨hp, hr⟩ := List.pairwise_cons.mp hd
    obtain ⟨⟨hplo, hpw⟩, hrlo⟩ := List.forall_mem_cons.mp hlo
    obtain ⟨i1, i2⟩ := ih hrlo hr (if wordField p.1 v = 1 then s.raise { p.1 with off := off } else s)
    have hblk : ∀ q : Fld × Access, q.1.lo < 32 → Fld.blk { q.1 with off := off } ≠ 0x18 := fun q hq => by
      simp only [Fld.blk, Fld.key]; omega
    have hkey : ∀ q ∈ r, Fld.key { q.1 with off := off } ≠ Fld.key { p.1 with off := off } := fun q hq => by
      have := hp q hq
      simp only [Fld.key]; omega
    refine ⟨fun q hq => ?_, fun f hf hk => ?_⟩
    · rw [List.foldl_cons]
      obtain rfl | hq := List.mem_cons.mp hq
      · rw [i2 _ (hblk q hplo) hkey]
        split
        · rw [(s.logs_raise _).fld _ (hblk q hplo), State.fld_setFld_same]
          exact Nat.mod_eq_of_lt (Nat.one_lt_two_pow (Nat.pos_iff_ne_zero.mp hpw))
        · rfl
      · rw [i1 q hq]
        split
        · rfl
        · split
          · exact s.fld_raise_ne (hkey q hq) (hblk q (hrlo q hq).1)
          · rfl
    · obtain ⟨hkp, hkr⟩ := List.forall_mem_cons.mp hk
      rw [List.foldl_cons, i2 f hf hkr]
      split
      · exact s.fld_raise_ne hkp.symm hf
      · rfl

/-! ### Routes swapped (R473) -/

theorem State.fld_of_no_cell {s : State} {f : Fld} (h : ∀ p ∈ s.cells, p.1 ≠ f.key) : s.fld f = f.reset := by
  have hnone : ∀ c : Tbl Nat, (∀ p ∈ c, p.1 ≠ f.key) → c.get? f.key = none := by
    intro c
    induction c with
    | nil => exact fun _ => rfl
    | cons p r ih =>
      intro h
      obtain ⟨hp, hr⟩ := List.forall_mem_cons.mp h
      rw [Tbl.get?, if_neg hp.symm, ih hr]
  rw [State.fld, hnone _ h]
  rfl

/-- A route that no cell names reads its reset value. -/
theorem State.fld_route_of_not_mem {s : State} {k : Nat} (hk : k < 896) (h : k ∉ s.routedSources) {lo : Nat} (hlo : lo < 32) {w r : Nat} :
    s.fld ⟨0x1A01000 + 0x4 * k, lo, w, r⟩ = r := by
  refine State.fld_of_no_cell fun p hp e => h ?_
  rw [State.routedSources, List.mem_eraseDups, List.mem_map]
  simp only [Fld.key] at e
  refine ⟨p, List.mem_filter.mpr ⟨hp, ?_⟩, by omega⟩
  simp only [Bool.and_eq_true, decide_eq_true_eq]
  omega

theorem State.foldl_swap_spec (s : State) (l : List Nat) (t : State) :
    let u := l.foldl (fun t k => t.setFld (F.IRQ_ROUTE_ACTIVE k) (s.fld (F.IRQ_ROUTE_SHADOW k))) t
    t.RegsOnly u ∧ (∀ k, u.fld (F.IRQ_ROUTE_SHADOW k) = t.fld (F.IRQ_ROUTE_SHADOW k)) ∧
      ∀ k, u.fld (F.IRQ_ROUTE_ACTIVE k) = if k ∈ l then s.fld (F.IRQ_ROUTE_SHADOW k) % 256 else t.fld (F.IRQ_ROUTE_ACTIVE k) := by
  induction l generalizing t with
  | nil => exact ⟨.refl t, fun _ => rfl, fun _ => rfl⟩
  | cons j r ih =>
    obtain ⟨h1, h2, h3⟩ := ih (t.setFld (F.IRQ_ROUTE_ACTIVE j) (s.fld (F.IRQ_ROUTE_SHADOW j)))
    refine ⟨(t.regsOnly_setFld _ _).trans h1, fun k => (h2 k).trans (t.fld_setFld_ne _ ?_), fun k => (h3 k).trans ?_⟩
    · simp only [Fld.key, F.IRQ_ROUTE_ACTIVE, F.IRQ_ROUTE_SHADOW]; omega
    · by_cases hkr : k ∈ r
      · rw [if_pos hkr, if_pos (List.mem_cons_of_mem _ hkr)]
      · rw [if_neg hkr]
        by_cases hkj : k = j
        · rw [if_pos (hkj ▸ List.mem_cons_self), hkj, State.fld_setFld_same]
          rfl
        · rw [if_neg (by simp [hkj, hkr]), State.fld_setFld_ne _ _ (by simp only [Fld.key, F.IRQ_ROUTE_ACTIVE]; omega)]

theorem State.swapRoutes_spec (s : State) : s.RegsOnly s.swapRoutes ∧ ∀ k < 896,
    s.swapRoutes.fld (F.IRQ_ROUTE_ACTIVE k) = s.fld (F.IRQ_ROUTE_SHADOW k) % 256 ∧
      s.swapRoutes.fld (F.IRQ_ROUTE_SHADOW k) = s.fld (F.IRQ_ROUTE_SHADOW k) := by
  obtain ⟨h1, h2, h3⟩ := s.foldl_swap_spec s.routedSources s
  refine ⟨h1, fun k hk => ⟨(h3 k).trans ?_, h2 k⟩⟩
  split
  · rfl
  · next hn =>
    rw [F.IRQ_ROUTE_ACTIVE, F.IRQ_ROUTE_SHADOW, State.fld_route_of_not_mem hk hn (by omega), State.fld_route_of_not_mem hk hn (by omega)]

/-! ### IRQ_ERR_FATAL (R475) -/

theorem State.regsOnly_clearFatal (s : State) (mask : Nat) : s.RegsOnly (s.clearFatal mask) := by
  unfold State.clearFatal
  dsimp only
  split
  · exact ((s.regsOnly_setFld _ _).trans (State.regsOnly_setFld _ _ _)).trans (State.regsOnly_setFld _ _ _)
  · exact s.regsOnly_setFld _ _

theorem State.fld_clearFatal (s : State) (mask : Nat) : (s.clearFatal mask).fld F.IRQ_ERR_FATAL_BLOCKS =
    (s.fld F.IRQ_ERR_FATAL_BLOCKS - (s.fld F.IRQ_ERR_FATAL_BLOCKS &&& mask)) % 2 ^ 28 := by
  unfold State.clearFatal
  dsimp only
  split
  · rw [State.stopFatalTimer, State.fld_setFld_ne _ _ (by decide), State.fld_setFld_ne _ _ (by decide), State.fld_setFld_same]; rfl
  · rw [State.fld_setFld_same]; rfl

theorem State.fld_running_clearFatal {s : State} {mask : Nat} (h : s.fld F.IRQ_ERR_FATAL_BLOCKS - (s.fld F.IRQ_ERR_FATAL_BLOCKS &&& mask) = 0) :
    (s.clearFatal mask).fld F.IRQ_FATAL_TIMER_RUNNING = 0 := by
  unfold State.clearFatal
  dsimp only
  rw [if_pos h, State.stopFatalTimer, State.fld_setFld_ne _ _ (by decide), State.fld_setFld_same]
  rfl

/-- Settles O60: each 1 of an _ISR_SET word raises its bit, a swap copies the routes, and FATAL bits clear by a mask. -/
theorem interruptRegistersTakeEffect : Obligations.InterruptRegistersTakeEffect := by
  refine ⟨fun who off v s hon hmay hisr href hrpj => ?_, fun who s hon hmay => ?_, fun who mask s hon => ?_⟩
  · obtain ⟨hb, ha, hge⟩ := isrRegs_block hisr
    obtain ⟨hset, hkeep⟩ := State.fld_foldl_raise v (off - 8) (hb ▸ hrpj) ha (regFields off)
      (fun p hp => ⟨lo_lt_of_mem_regFields hp, width_pos_of_mem_regFields hp⟩) (apart_lo (regFields_apart off)) s
    generalize hu : (regFields off).foldl (fun t p => if wordField p.1 v = 1 then t.raise { p.1 with off := off - 8 } else t) s = u at hset hkeep
    refine ⟨s.live u, ?_, fun p hp => (State.live_fld hon u _).trans (hset p hp), fun f hf hk => (State.live_fld hon u f).trans (hkeep f hf hk)⟩
    change execInterruptSet who off v s = _
    have hc : (isrRegs (off / 0x100000)).contains (off - 8) = true := by simpa using hisr
    have hr : (refereeOnly off && who != .referee) = false := by
      cases h : refereeOnly off with
      | false => rfl
      | true => simp [href h]
    simp only [execInterruptSet, hmay, hc, hr, Bool.not_true, Bool.or_self, Bool.false_eq_true, if_false, ← hu]
  · change ∃ t, execIrqSwap who s = .next t ∧ _
    obtain ⟨hregs, hroutes⟩ := s.swapRoutes_spec
    cases hh : s.flag F.IRQ_SWAP_HOLDING with
    | true =>
      refine ⟨s, ?_, fun _ => rfl, nofun⟩
      simp [execIrqSwap, hmay, hh, State.live_self]
    | false =>
      refine ⟨s.swapRoutes, ?_, nofun, fun _ => ⟨hregs, hroutes⟩⟩
      simp [execIrqSwap, hmay, hh, State.live_eq hon hregs.pins]
  · change ∃ t, execErrFatalClear who mask s = .next t ∧ _
    by_cases hw : who = .referee
    · refine ⟨s.clearFatal mask, ?_, s.regsOnly_clearFatal mask, fun h => absurd hw h, fun _ => ⟨s.fld_clearFatal mask, State.fld_running_clearFatal⟩⟩
      rw [execErrFatalClear, if_pos hw, State.live_eq hon (s.regsOnly_clearFatal mask).pins]
    · refine ⟨s, ?_, .refl s, fun _ => rfl, fun h => absurd h hw⟩
      rw [execErrFatalClear, if_neg hw, State.live_self]

/-! ### Reads and the keys held (R349) -/

/-- The head with other keys in its slots. -/
def State.withSlots (s : State) (k : Tbl KeySlot) : State := { s with sec := { s.sec with slots := k } }

theorem State.markSeen_withSlots (s : State) (k : Tbl KeySlot) (who : Requester) (off : Nat) :
    (s.withSlots k).markSeen who off = (s.markSeen who off).withSlots k := by
  unfold State.markSeen
  rw [apply_ite (fun t : State => t.withSlots k)]
  rfl

theorem State.live_withSlots (s t : State) (k : Tbl KeySlot) : (s.withSlots k).live (t.withSlots k) = (s.live t).withSlots k := by
  unfold State.live
  rw [apply_ite (fun t : State => t.withSlots k)]
  rfl

theorem State.readLo_withSlots (s : State) (k : Tbl KeySlot) (who : Requester) (off : Nat) :
    (s.withSlots k).readLo who off = (s.readLo who off).withSlots k := by
  unfold State.readLo
  change (match (s.latched who).get? off with | some v => _ | none => _) = _
  cases (s.latched who).get? off with
  | some v =>
    dsimp only
    rw [State.sent_send_regRead, State.sent_send_regRead]
    rfl
  | none =>
    dsimp only
    rw [State.sent_send_regRead, State.sent_send_regRead, ← State.markSeen_withSlots]
    rfl

/-- A read of a result register that is no pair. -/
theorem State.readResult_withSlots (s : State) (k : Tbl KeySlot) (who : Requester) (off : Nat) :
    ((s.withSlots k).send (.regRead (latchOf who) off (s.rawReg off))).markSeen who off =
      ((s.send (.regRead (latchOf who) off (s.rawReg off))).markSeen who off).withSlots k := by
  rw [State.sent_send_regRead, State.sent_send_regRead, ← State.markSeen_withSlots]
  rfl

theorem exec_pairLoRead (who : Requester) (off : Nat) (s : State) :
    exec (.pairLoRead who off) s = .next (s.live (if s.mayRead who && (pairAt off).isSome then s.readLo who off else s)) := rfl

theorem exec_resultRegisterRead (who : Requester) (off : Nat) (s : State) : exec (.resultRegisterRead who off) s =
    .next (s.live (if !s.mayRead who || !resultRegs.contains off then s
      else if (pairAt off).isSome then s.readLo who off
      else (s.send (.regRead (latchOf who) off (s.rawReg off))).markSeen who off)) := rfl

/-- Settles O43: a read's latch, value and SEEN come from the registers and latches. -/
theorem windowReadsShowNoKey : Obligations.WindowReadsShowNoKey := by
  intro who off s k
  have hmay : (s.withSlots k).mayRead who = s.mayRead who := rfl
  have hraw : (s.withSlots k).rawReg off = s.rawReg off := rfl
  simp only [List.forall_mem_cons, List.not_mem_nil, false_imp_iff, implies_true, and_true]
  change (∃ t, exec (.pairLoRead who off) s = .next t ∧ exec (.pairLoRead who off) (s.withSlots k) = .next (t.withSlots k)) ∧
    ∃ t, exec (.resultRegisterRead who off) s = .next t ∧ exec (.resultRegisterRead who off) (s.withSlots k) = .next (t.withSlots k)
  refine ⟨⟨_, exec_pairLoRead who off s, ?_⟩, ⟨_, exec_resultRegisterRead who off s, ?_⟩⟩
  · rw [exec_pairLoRead, hmay, State.readLo_withSlots, ← State.live_withSlots, apply_ite (fun t : State => t.withSlots k)]
  · rw [exec_resultRegisterRead, hmay, hraw, State.readLo_withSlots, State.readResult_withSlots, ← State.live_withSlots,
      apply_ite (fun t : State => t.withSlots k), apply_ite (fun t : State => t.withSlots k)]

end Sys2Proof.Machine
end

section
/-! SUPPORT. What recording, interrupts, errors and result registers leave alone, unit by unit: one lemma per field of the
state, as Laws/State.lean has them for the updates of one unit. -/
namespace Sys2Proof.Machine

/-! ### Register fields alone -/

theorem State.RegsOnly.latches {s t : State} (h : s.RegsOnly t) : t.latches = s.latches := by obtain ⟨c, rfl⟩ := h; rfl
theorem State.RegsOnly.sent {s t : State} (h : s.RegsOnly t) : t.sent = s.sent := by obtain ⟨c, rfl⟩ := h; rfl
theorem State.RegsOnly.pattern {s t : State} (h : s.RegsOnly t) : t.pattern = s.pattern := by obtain ⟨c, rfl⟩ := h; rfl
theorem State.RegsOnly.boot {s t : State} (h : s.RegsOnly t) : t.boot = s.boot := by obtain ⟨c, rfl⟩ := h; rfl
theorem State.RegsOnly.repat {s t : State} (h : s.RegsOnly t) : t.repat = s.repat := by obtain ⟨c, rfl⟩ := h; rfl
theorem State.RegsOnly.upd {s t : State} (h : s.RegsOnly t) : t.upd = s.upd := by obtain ⟨c, rfl⟩ := h; rfl
theorem State.RegsOnly.pairSt {s t : State} (h : s.RegsOnly t) : t.pairSt = s.pairSt := by obtain ⟨c, rfl⟩ := h; rfl
theorem State.RegsOnly.commit {s t : State} (h : s.RegsOnly t) : t.commit = s.commit := by obtain ⟨c, rfl⟩ := h; rfl
theorem State.RegsOnly.efmo {s t : State} (h : s.RegsOnly t) : t.efmo = s.efmo := by obtain ⟨c, rfl⟩ := h; rfl
theorem State.RegsOnly.rows {s t : State} (h : s.RegsOnly t) : t.rows = s.rows := by obtain ⟨c, rfl⟩ := h; rfl
theorem State.RegsOnly.ddp {s t : State} (h : s.RegsOnly t) : t.ddp = s.ddp := by obtain ⟨c, rfl⟩ := h; rfl
theorem State.RegsOnly.sec {s t : State} (h : s.RegsOnly t) : t.sec = s.sec := by obtain ⟨c, rfl⟩ := h; rfl
theorem State.RegsOnly.mtf {s t : State} (h : s.RegsOnly t) : t.mtf = s.mtf := by obtain ⟨c, rfl⟩ := h; rfl
theorem State.RegsOnly.scc {s t : State} (h : s.RegsOnly t) : t.scc = s.scc := by obtain ⟨c, rfl⟩ := h; rfl
theorem State.RegsOnly.bbm {s t : State} (h : s.RegsOnly t) : t.bbm = s.bbm := by obtain ⟨c, rfl⟩ := h; rfl
theorem State.RegsOnly.rdt {s t : State} (h : s.RegsOnly t) : t.rdt = s.rdt := by obtain ⟨c, rfl⟩ := h; rfl
theorem State.RegsOnly.snp {s t : State} (h : s.RegsOnly t) : t.snp = s.snp := by obtain ⟨c, rfl⟩ := h; rfl
theorem State.RegsOnly.ctl {s t : State} (h : s.RegsOnly t) : t.ctl = s.ctl := by obtain ⟨c, rfl⟩ := h; rfl
theorem State.RegsOnly.health {s t : State} (h : s.RegsOnly t) : t.health = s.health := by obtain ⟨c, rfl⟩ := h; rfl
theorem State.RegsOnly.map {s t : State} (h : s.RegsOnly t) : t.map = s.map := by obtain ⟨c, rfl⟩ := h; rfl
theorem State.RegsOnly.ftl {s t : State} (h : s.RegsOnly t) : t.ftl = s.ftl := by obtain ⟨c, rfl⟩ := h; rfl
theorem State.RegsOnly.media {s t : State} (h : s.RegsOnly t) : t.media = s.media := by obtain ⟨c, rfl⟩ := h; rfl
theorem State.RegsOnly.trn {s t : State} (h : s.RegsOnly t) : t.trn = s.trn := by obtain ⟨c, rfl⟩ := h; rfl
theorem State.RegsOnly.pending {s t : State} (h : s.RegsOnly t) : t.pending = s.pending := by obtain ⟨c, rfl⟩ := h; rfl
theorem State.RegsOnly.egress {s t : State} (h : s.RegsOnly t) : t.egress = s.egress := by obtain ⟨c, rfl⟩ := h; rfl
theorem State.RegsOnly.dram {s t : State} (h : s.RegsOnly t) : t.dram = s.dram := by obtain ⟨c, rfl⟩ := h; rfl
theorem State.RegsOnly.rpj {s t : State} (h : s.RegsOnly t) : t.rpj = s.rpj := by obtain ⟨c, rfl⟩ := h; rfl
theorem State.RegsOnly.fresh {s t : State} (h : s.RegsOnly t) : t.fresh = s.fresh := by obtain ⟨c, rfl⟩ := h; rfl

/-! ### Registers and the journal alone -/

/-- t is s but for registers, the ring's bytes and the journal's own state. -/
def State.SameUnits (s t : State) : Prop := t = { s with cells := t.cells, dram := t.dram, rpj := t.rpj, fresh := t.fresh }

theorem State.SameUnits.refl (s : State) : s.SameUnits s := rfl

theorem State.SameUnits.trans {s t u : State} (h : s.SameUnits t) (k : t.SameUnits u) : s.SameUnits u := by
  unfold State.SameUnits at *
  rw [k, h]

theorem State.SameUnits.ite {s t u : State} {c : Prop} [Decidable c] (ht : s.SameUnits t) (hu : s.SameUnits u) :
    s.SameUnits (if c then t else u) := by
  split
  · exact ht
  · exact hu

theorem State.SameUnits.foldl {α : Type} {f : State → α → State} (h : ∀ (t : State) (a : α), t.SameUnits (f t a)) (l : List α) (s : State) :
    s.SameUnits (l.foldl f s) := by
  induction l generalizing s with
  | nil => exact .refl s
  | cons a l ih => exact (h s a).trans (ih _)

theorem State.RegsOnly.sameUnits {s t : State} (h : s.RegsOnly t) : s.SameUnits t := by
  obtain ⟨c, rfl⟩ := h
  rfl

theorem State.JournalFrame.sameUnits {s t : State} (h : s.JournalFrame t) : s.SameUnits t := by
  cases t
  cases h
  simp_all [State.SameUnits]

theorem State.SameUnits.latches {s t : State} (h : s.SameUnits t) : t.latches = s.latches := by rw [h]
theorem State.SameUnits.sent {s t : State} (h : s.SameUnits t) : t.sent = s.sent := by rw [h]
theorem State.SameUnits.pins {s t : State} (h : s.SameUnits t) : t.pins = s.pins := by rw [h]
theorem State.SameUnits.pattern {s t : State} (h : s.SameUnits t) : t.pattern = s.pattern := by rw [h]
theorem State.SameUnits.boot {s t : State} (h : s.SameUnits t) : t.boot = s.boot := by rw [h]
theorem State.SameUnits.repat {s t : State} (h : s.SameUnits t) : t.repat = s.repat := by rw [h]
theorem State.SameUnits.upd {s t : State} (h : s.SameUnits t) : t.upd = s.upd := by rw [h]
theorem State.SameUnits.pairSt {s t : State} (h : s.SameUnits t) : t.pairSt = s.pairSt := by rw [h]
theorem State.SameUnits.commit {s t : State} (h : s.SameUnits t) : t.commit = s.commit := by rw [h]
theorem State.SameUnits.efmo {s t : State} (h : s.SameUnits t) : t.efmo = s.efmo := by rw [h]
theorem State.SameUnits.rows {s t : State} (h : s.SameUnits t) : t.rows = s.rows := by rw [h]
theorem State.SameUnits.ddp {s t : State} (h : s.SameUnits t) : t.ddp = s.ddp := by rw [h]
theorem State.SameUnits.sec {s t : State} (h : s.SameUnits t) : t.sec = s.sec := by rw [h]
theorem State.SameUnits.mtf {s t : State} (h : s.SameUnits t) : t.mtf = s.mtf := by rw [h]
theorem State.SameUnits.scc {s t : State} (h : s.SameUnits t) : t.scc = s.scc := by rw [h]
theorem State.SameUnits.bbm {s t : State} (h : s.SameUnits t) : t.bbm = s.bbm := by rw [h]
theorem State.SameUnits.rdt {s t : State} (h : s.SameUnits t) : t.rdt = s.rdt := by rw [h]
theorem State.SameUnits.snp {s t : State} (h : s.SameUnits t) : t.snp = s.snp := by rw [h]
theorem State.SameUnits.ctl {s t : State} (h : s.SameUnits t) : t.ctl = s.ctl := by rw [h]
theorem State.SameUnits.health {s t : State} (h : s.SameUnits t) : t.health = s.health := by rw [h]
theorem State.SameUnits.map {s t : State} (h : s.SameUnits t) : t.map = s.map := by rw [h]
theorem State.SameUnits.ftl {s t : State} (h : s.SameUnits t) : t.ftl = s.ftl := by rw [h]
theorem State.SameUnits.media {s t : State} (h : s.SameUnits t) : t.media = s.media := by rw [h]
theorem State.SameUnits.trn {s t : State} (h : s.SameUnits t) : t.trn = s.trn := by rw [h]
theorem State.SameUnits.pending {s t : State} (h : s.SameUnits t) : t.pending = s.pending := by rw [h]
theorem State.SameUnits.egress {s t : State} (h : s.SameUnits t) : t.egress = s.egress := by rw [h]

theorem State.sameUnits_setFld (s : State) (f : Fld) (v : Nat) : s.SameUnits (s.setFld f v) := rfl

theorem State.sameUnits_raise (s : State) (f : Fld) : s.SameUnits (s.raise f) :=
  (s.sameUnits_setFld f 1).trans (s.logs_raise f).sameUnits

theorem State.sameUnits_errFatal (s : State) (b : Nat) : s.SameUnits (s.errFatal b) := by
  unfold State.errFatal
  dsimp only
  have h1 : s.SameUnits ((s.setFld F.IRQ_ERR_FATAL_BLOCKS (s.fld F.IRQ_ERR_FATAL_BLOCKS ||| 2 ^ b)).logEvent 3 b 3 (s.rawReg (isrOff b))) := rfl
  generalize (s.setFld F.IRQ_ERR_FATAL_BLOCKS (s.fld F.IRQ_ERR_FATAL_BLOCKS ||| 2 ^ b)).logEvent 3 b 3 (s.rawReg (isrOff b)) = s1 at h1 ⊢
  have h2 : s.SameUnits ((s1.setFld F.IRQ_ISR_FATAL 1).record 4 0 (0x1A + 2 ^ 32 * (s1.setFld F.IRQ_ISR_FATAL 1).rawReg 0x1A000F0)) :=
    h1.trans ((s1.sameUnits_setFld _ _).trans (State.logs_record _ _ _ _).sameUnits)
  have h3 : ∀ t : State, s.SameUnits t → s.SameUnits ((t.setFld F.IRQ_FATAL_TIMER_RUNNING 1).setFld F.IRQ_FATAL_TIMER_LEFT_NS 50000) :=
    fun t ht => ht.trans ((t.sameUnits_setFld _ _).trans (State.sameUnits_setFld _ _ _))
  split
  · split
    · exact h3 _ h2
    · exact h3 _ h1
  · split
    · exact h2
    · exact h1

/-! ### record -/

@[simp] theorem State.record_latches (s : State) (type inst payload : Nat) : (s.record type inst payload).latches = s.latches := (s.logs_record type inst payload).latches
@[simp] theorem State.record_sent (s : State) (type inst payload : Nat) : (s.record type inst payload).sent = s.sent := (s.logs_record type inst payload).sent
@[simp] theorem State.record_pins (s : State) (type inst payload : Nat) : (s.record type inst payload).pins = s.pins := (s.logs_record type inst payload).pins
@[simp] theorem State.record_pattern (s : State) (type inst payload : Nat) : (s.record type inst payload).pattern = s.pattern := (s.logs_record type inst payload).pattern
@[simp] theorem State.record_boot (s : State) (type inst payload : Nat) : (s.record type inst payload).boot = s.boot := (s.logs_record type inst payload).boot
@[simp] theorem State.record_repat (s : State) (type inst payload : Nat) : (s.record type inst payload).repat = s.repat := (s.logs_record type inst payload).repat
@[simp] theorem State.record_upd (s : State) (type inst payload : Nat) : (s.record type inst payload).upd = s.upd := (s.logs_record type inst payload).upd
@[simp] theorem State.record_pairSt (s : State) (type inst payload : Nat) : (s.record type inst payload).pairSt = s.pairSt := (s.logs_record type inst payload).pairSt
@[simp] theorem State.record_commit (s : State) (type inst payload : Nat) : (s.record type inst payload).commit = s.commit := (s.logs_record type inst payload).commit
@[simp] theorem State.record_efmo (s : State) (type inst payload : Nat) : (s.record type inst payload).efmo = s.efmo := (s.logs_record type inst payload).efmo
@[simp] theorem State.record_rows (s : State) (type inst payload : Nat) : (s.record type inst payload).rows = s.rows := (s.logs_record type inst payload).rows
@[simp] theorem State.record_ddp (s : State) (type inst payload : Nat) : (s.record type inst payload).ddp = s.ddp := (s.logs_record type inst payload).ddp
@[simp] theorem State.record_sec (s : State) (type inst payload : Nat) : (s.record type inst payload).sec = s.sec := (s.logs_record type inst payload).sec
@[simp] theorem State.record_mtf (s : State) (type inst payload : Nat) : (s.record type inst payload).mtf = s.mtf := (s.logs_record type inst payload).mtf
@[simp] theorem State.record_scc (s : State) (type inst payload : Nat) : (s.record type inst payload).scc = s.scc := (s.logs_record type inst payload).scc
@[simp] theorem State.record_bbm (s : State) (type inst payload : Nat) : (s.record type inst payload).bbm = s.bbm := (s.logs_record type inst payload).bbm
@[simp] theorem State.record_rdt (s : State) (type inst payload : Nat) : (s.record type inst payload).rdt = s.rdt := (s.logs_record type inst payload).rdt
@[simp] theorem State.record_snp (s : State) (type inst payload : Nat) : (s.record type inst payload).snp = s.snp := (s.logs_record type inst payload).snp
@[simp] theorem State.record_ctl (s : State) (type inst payload : Nat) : (s.record type inst payload).ctl = s.ctl := (s.logs_record type inst payload).ctl
@[simp] theorem State.record_health (s : State) (type inst payload : Nat) : (s.record type inst payload).health = s.health := (s.logs_record type inst payload).health
@[simp] theorem State.record_map (s : State) (type inst payload : Nat) : (s.record type inst payload).map = s.map := (s.logs_record type inst payload).map
@[simp] theorem State.record_ftl (s : State) (type inst payload : Nat) : (s.record type inst payload).ftl = s.ftl := (s.logs_record type inst payload).ftl
@[simp] theorem State.record_media (s : State) (type inst payload : Nat) : (s.record type inst payload).media = s.media := (s.logs_record type inst payload).media
@[simp] theorem State.record_trn (s : State) (type inst payload : Nat) : (s.record type inst payload).trn = s.trn := (s.logs_record type inst payload).trn
@[simp] theorem State.record_pending (s : State) (type inst payload : Nat) : (s.record type inst payload).pending = s.pending := (s.logs_record type inst payload).pending
@[simp] theorem State.record_egress (s : State) (type inst payload : Nat) : (s.record type inst payload).egress = s.egress := (s.logs_record type inst payload).egress

/-! ### logEvent -/

@[simp] theorem State.logEvent_latches (s : State) (code block severity detail : Nat) : (s.logEvent code block severity detail).latches = s.latches := rfl
@[simp] theorem State.logEvent_sent (s : State) (code block severity detail : Nat) : (s.logEvent code block severity detail).sent = s.sent := rfl
@[simp] theorem State.logEvent_pins (s : State) (code block severity detail : Nat) : (s.logEvent code block severity detail).pins = s.pins := rfl
@[simp] theorem State.logEvent_pattern (s : State) (code block severity detail : Nat) : (s.logEvent code block severity detail).pattern = s.pattern := rfl
@[simp] theorem State.logEvent_boot (s : State) (code block severity detail : Nat) : (s.logEvent code block severity detail).boot = s.boot := rfl
@[simp] theorem State.logEvent_repat (s : State) (code block severity detail : Nat) : (s.logEvent code block severity detail).repat = s.repat := rfl
@[simp] theorem State.logEvent_upd (s : State) (code block severity detail : Nat) : (s.logEvent code block severity detail).upd = s.upd := rfl
@[simp] theorem State.logEvent_pairSt (s : State) (code block severity detail : Nat) : (s.logEvent code block severity detail).pairSt = s.pairSt := rfl
@[simp] theorem State.logEvent_commit (s : State) (code block severity detail : Nat) : (s.logEvent code block severity detail).commit = s.commit := rfl
@[simp] theorem State.logEvent_efmo (s : State) (code block severity detail : Nat) : (s.logEvent code block severity detail).efmo = s.efmo := rfl
@[simp] theorem State.logEvent_rows (s : State) (code block severity detail : Nat) : (s.logEvent code block severity detail).rows = s.rows := rfl
@[simp] theorem State.logEvent_ddp (s : State) (code block severity detail : Nat) : (s.logEvent code block severity detail).ddp = s.ddp := rfl
@[simp] theorem State.logEvent_sec (s : State) (code block severity detail : Nat) : (s.logEvent code block severity detail).sec = s.sec := rfl
@[simp] theorem State.logEvent_mtf (s : State) (code block severity detail : Nat) : (s.logEvent code block severity detail).mtf = s.mtf := rfl
@[simp] theorem State.logEvent_scc (s : State) (code block severity detail : Nat) : (s.logEvent code block severity detail).scc = s.scc := rfl
@[simp] theorem State.logEvent_bbm (s : State) (code block severity detail : Nat) : (s.logEvent code block severity detail).bbm = s.bbm := rfl
@[simp] theorem State.logEvent_rdt (s : State) (code block severity detail : Nat) : (s.logEvent code block severity detail).rdt = s.rdt := rfl
@[simp] theorem State.logEvent_snp (s : State) (code block severity detail : Nat) : (s.logEvent code block severity detail).snp = s.snp := rfl
@[simp] theorem State.logEvent_ctl (s : State) (code block severity detail : Nat) : (s.logEvent code block severity detail).ctl = s.ctl := rfl
@[simp] theorem State.logEvent_health (s : State) (code block severity detail : Nat) : (s.logEvent code block severity detail).health = s.health := rfl
@[simp] theorem State.logEvent_map (s : State) (code block severity detail : Nat) : (s.logEvent code block severity detail).map = s.map := rfl
@[simp] theorem State.logEvent_ftl (s : State) (code block severity detail : Nat) : (s.logEvent code block severity detail).ftl = s.ftl := rfl
@[simp] theorem State.logEvent_media (s : State) (code block severity detail : Nat) : (s.logEvent code block severity detail).media = s.media := rfl
@[simp] theorem State.logEvent_trn (s : State) (code block severity detail : Nat) : (s.logEvent code block severity detail).trn = s.trn := rfl
@[simp] theorem State.logEvent_pending (s : State) (code block severity detail : Nat) : (s.logEvent code block severity detail).pending = s.pending := rfl
@[simp] theorem State.logEvent_egress (s : State) (code block severity detail : Nat) : (s.logEvent code block severity detail).egress = s.egress := rfl

/-! ### raise -/

@[simp] theorem State.raise_latches (s : State) (f : Fld) : (s.raise f).latches = s.latches := (s.logs_raise f).latches
@[simp] theorem State.raise_sent (s : State) (f : Fld) : (s.raise f).sent = s.sent := (s.logs_raise f).sent
@[simp] theorem State.raise_pins (s : State) (f : Fld) : (s.raise f).pins = s.pins := (s.logs_raise f).pins
@[simp] theorem State.raise_pattern (s : State) (f : Fld) : (s.raise f).pattern = s.pattern := (s.logs_raise f).pattern
@[simp] theorem State.raise_boot (s : State) (f : Fld) : (s.raise f).boot = s.boot := (s.logs_raise f).boot
@[simp] theorem State.raise_repat (s : State) (f : Fld) : (s.raise f).repat = s.repat := (s.logs_raise f).repat
@[simp] theorem State.raise_upd (s : State) (f : Fld) : (s.raise f).upd = s.upd := (s.logs_raise f).upd
@[simp] theorem State.raise_pairSt (s : State) (f : Fld) : (s.raise f).pairSt = s.pairSt := (s.logs_raise f).pairSt
@[simp] theorem State.raise_commit (s : State) (f : Fld) : (s.raise f).commit = s.commit := (s.logs_raise f).commit
@[simp] theorem State.raise_efmo (s : State) (f : Fld) : (s.raise f).efmo = s.efmo := (s.logs_raise f).efmo
@[simp] theorem State.raise_rows (s : State) (f : Fld) : (s.raise f).rows = s.rows := (s.logs_raise f).rows
@[simp] theorem State.raise_ddp (s : State) (f : Fld) : (s.raise f).ddp = s.ddp := (s.logs_raise f).ddp
@[simp] theorem State.raise_sec (s : State) (f : Fld) : (s.raise f).sec = s.sec := (s.logs_raise f).sec
@[simp] theorem State.raise_mtf (s : State) (f : Fld) : (s.raise f).mtf = s.mtf := (s.logs_raise f).mtf
@[simp] theorem State.raise_scc (s : State) (f : Fld) : (s.raise f).scc = s.scc := (s.logs_raise f).scc
@[simp] theorem State.raise_bbm (s : State) (f : Fld) : (s.raise f).bbm = s.bbm := (s.logs_raise f).bbm
@[simp] theorem State.raise_rdt (s : State) (f : Fld) : (s.raise f).rdt = s.rdt := (s.logs_raise f).rdt
@[simp] theorem State.raise_snp (s : State) (f : Fld) : (s.raise f).snp = s.snp := (s.logs_raise f).snp
@[simp] theorem State.raise_ctl (s : State) (f : Fld) : (s.raise f).ctl = s.ctl := (s.logs_raise f).ctl
@[simp] theorem State.raise_health (s : State) (f : Fld) : (s.raise f).health = s.health := (s.logs_raise f).health
@[simp] theorem State.raise_map (s : State) (f : Fld) : (s.raise f).map = s.map := (s.logs_raise f).map
@[simp] theorem State.raise_ftl (s : State) (f : Fld) : (s.raise f).ftl = s.ftl := (s.logs_raise f).ftl
@[simp] theorem State.raise_media (s : State) (f : Fld) : (s.raise f).media = s.media := (s.logs_raise f).media
@[simp] theorem State.raise_trn (s : State) (f : Fld) : (s.raise f).trn = s.trn := (s.logs_raise f).trn
@[simp] theorem State.raise_pending (s : State) (f : Fld) : (s.raise f).pending = s.pending := (s.logs_raise f).pending
@[simp] theorem State.raise_egress (s : State) (f : Fld) : (s.raise f).egress = s.egress := (s.logs_raise f).egress

/-! ### errDefer -/

@[simp] theorem State.errDefer_latches (s : State) (b : Nat) : (s.errDefer b).latches = s.latches := rfl
@[simp] theorem State.errDefer_sent (s : State) (b : Nat) : (s.errDefer b).sent = s.sent := rfl
@[simp] theorem State.errDefer_pins (s : State) (b : Nat) : (s.errDefer b).pins = s.pins := rfl
@[simp] theorem State.errDefer_pattern (s : State) (b : Nat) : (s.errDefer b).pattern = s.pattern := rfl
@[simp] theorem State.errDefer_boot (s : State) (b : Nat) : (s.errDefer b).boot = s.boot := rfl
@[simp] theorem State.errDefer_repat (s : State) (b : Nat) : (s.errDefer b).repat = s.repat := rfl
@[simp] theorem State.errDefer_upd (s : State) (b : Nat) : (s.errDefer b).upd = s.upd := rfl
@[simp] theorem State.errDefer_pairSt (s : State) (b : Nat) : (s.errDefer b).pairSt = s.pairSt := rfl
@[simp] theorem State.errDefer_commit (s : State) (b : Nat) : (s.errDefer b).commit = s.commit := rfl
@[simp] theorem State.errDefer_efmo (s : State) (b : Nat) : (s.errDefer b).efmo = s.efmo := rfl
@[simp] theorem State.errDefer_rows (s : State) (b : Nat) : (s.errDefer b).rows = s.rows := rfl
@[simp] theorem State.errDefer_ddp (s : State) (b : Nat) : (s.errDefer b).ddp = s.ddp := rfl
@[simp] theorem State.errDefer_sec (s : State) (b : Nat) : (s.errDefer b).sec = s.sec := rfl
@[simp] theorem State.errDefer_mtf (s : State) (b : Nat) : (s.errDefer b).mtf = s.mtf := rfl
@[simp] theorem State.errDefer_scc (s : State) (b : Nat) : (s.errDefer b).scc = s.scc := rfl
@[simp] theorem State.errDefer_bbm (s : State) (b : Nat) : (s.errDefer b).bbm = s.bbm := rfl
@[simp] theorem State.errDefer_rdt (s : State) (b : Nat) : (s.errDefer b).rdt = s.rdt := rfl
@[simp] theorem State.errDefer_snp (s : State) (b : Nat) : (s.errDefer b).snp = s.snp := rfl
@[simp] theorem State.errDefer_ctl (s : State) (b : Nat) : (s.errDefer b).ctl = s.ctl := rfl
@[simp] theorem State.errDefer_health (s : State) (b : Nat) : (s.errDefer b).health = s.health := rfl
@[simp] theorem State.errDefer_map (s : State) (b : Nat) : (s.errDefer b).map = s.map := rfl
@[simp] theorem State.errDefer_ftl (s : State) (b : Nat) : (s.errDefer b).ftl = s.ftl := rfl
@[simp] theorem State.errDefer_media (s : State) (b : Nat) : (s.errDefer b).media = s.media := rfl
@[simp] theorem State.errDefer_trn (s : State) (b : Nat) : (s.errDefer b).trn = s.trn := rfl
@[simp] theorem State.errDefer_pending (s : State) (b : Nat) : (s.errDefer b).pending = s.pending := rfl
@[simp] theorem State.errDefer_egress (s : State) (b : Nat) : (s.errDefer b).egress = s.egress := rfl

/-! ### errCorr -/

@[simp] theorem State.errCorr_latches (s : State) (b : Nat) : (s.errCorr b).latches = s.latches := rfl
@[simp] theorem State.errCorr_sent (s : State) (b : Nat) : (s.errCorr b).sent = s.sent := rfl
@[simp] theorem State.errCorr_pins (s : State) (b : Nat) : (s.errCorr b).pins = s.pins := rfl
@[simp] theorem State.errCorr_pattern (s : State) (b : Nat) : (s.errCorr b).pattern = s.pattern := rfl
@[simp] theorem State.errCorr_boot (s : State) (b : Nat) : (s.errCorr b).boot = s.boot := rfl
@[simp] theorem State.errCorr_repat (s : State) (b : Nat) : (s.errCorr b).repat = s.repat := rfl
@[simp] theorem State.errCorr_upd (s : State) (b : Nat) : (s.errCorr b).upd = s.upd := rfl
@[simp] theorem State.errCorr_pairSt (s : State) (b : Nat) : (s.errCorr b).pairSt = s.pairSt := rfl
@[simp] theorem State.errCorr_commit (s : State) (b : Nat) : (s.errCorr b).commit = s.commit := rfl
@[simp] theorem State.errCorr_efmo (s : State) (b : Nat) : (s.errCorr b).efmo = s.efmo := rfl
@[simp] theorem State.errCorr_rows (s : State) (b : Nat) : (s.errCorr b).rows = s.rows := rfl
@[simp] theorem State.errCorr_ddp (s : State) (b : Nat) : (s.errCorr b).ddp = s.ddp := rfl
@[simp] theorem State.errCorr_sec (s : State) (b : Nat) : (s.errCorr b).sec = s.sec := rfl
@[simp] theorem State.errCorr_mtf (s : State) (b : Nat) : (s.errCorr b).mtf = s.mtf := rfl
@[simp] theorem State.errCorr_scc (s : State) (b : Nat) : (s.errCorr b).scc = s.scc := rfl
@[simp] theorem State.errCorr_bbm (s : State) (b : Nat) : (s.errCorr b).bbm = s.bbm := rfl
@[simp] theorem State.errCorr_rdt (s : State) (b : Nat) : (s.errCorr b).rdt = s.rdt := rfl
@[simp] theorem State.errCorr_snp (s : State) (b : Nat) : (s.errCorr b).snp = s.snp := rfl
@[simp] theorem State.errCorr_ctl (s : State) (b : Nat) : (s.errCorr b).ctl = s.ctl := rfl
@[simp] theorem State.errCorr_health (s : State) (b : Nat) : (s.errCorr b).health = s.health := rfl
@[simp] theorem State.errCorr_map (s : State) (b : Nat) : (s.errCorr b).map = s.map := rfl
@[simp] theorem State.errCorr_ftl (s : State) (b : Nat) : (s.errCorr b).ftl = s.ftl := rfl
@[simp] theorem State.errCorr_media (s : State) (b : Nat) : (s.errCorr b).media = s.media := rfl
@[simp] theorem State.errCorr_trn (s : State) (b : Nat) : (s.errCorr b).trn = s.trn := rfl
@[simp] theorem State.errCorr_pending (s : State) (b : Nat) : (s.errCorr b).pending = s.pending := rfl
@[simp] theorem State.errCorr_egress (s : State) (b : Nat) : (s.errCorr b).egress = s.egress := rfl

/-! ### errFatal -/

@[simp] theorem State.errFatal_latches (s : State) (b : Nat) : (s.errFatal b).latches = s.latches := s.sameUnits_errFatal b |>.latches
@[simp] theorem State.errFatal_sent (s : State) (b : Nat) : (s.errFatal b).sent = s.sent := s.sameUnits_errFatal b |>.sent
@[simp] theorem State.errFatal_pins (s : State) (b : Nat) : (s.errFatal b).pins = s.pins := s.sameUnits_errFatal b |>.pins
@[simp] theorem State.errFatal_pattern (s : State) (b : Nat) : (s.errFatal b).pattern = s.pattern := s.sameUnits_errFatal b |>.pattern
@[simp] theorem State.errFatal_boot (s : State) (b : Nat) : (s.errFatal b).boot = s.boot := s.sameUnits_errFatal b |>.boot
@[simp] theorem State.errFatal_repat (s : State) (b : Nat) : (s.errFatal b).repat = s.repat := s.sameUnits_errFatal b |>.repat
@[simp] theorem State.errFatal_upd (s : State) (b : Nat) : (s.errFatal b).upd = s.upd := s.sameUnits_errFatal b |>.upd
@[simp] theorem State.errFatal_pairSt (s : State) (b : Nat) : (s.errFatal b).pairSt = s.pairSt := s.sameUnits_errFatal b |>.pairSt
@[simp] theorem State.errFatal_commit (s : State) (b : Nat) : (s.errFatal b).commit = s.commit := s.sameUnits_errFatal b |>.commit
@[simp] theorem State.errFatal_efmo (s : State) (b : Nat) : (s.errFatal b).efmo = s.efmo := s.sameUnits_errFatal b |>.efmo
@[simp] theorem State.errFatal_rows (s : State) (b : Nat) : (s.errFatal b).rows = s.rows := s.sameUnits_errFatal b |>.rows
@[simp] theorem State.errFatal_ddp (s : State) (b : Nat) : (s.errFatal b).ddp = s.ddp := s.sameUnits_errFatal b |>.ddp
@[simp] theorem State.errFatal_sec (s : State) (b : Nat) : (s.errFatal b).sec = s.sec := s.sameUnits_errFatal b |>.sec
@[simp] theorem State.errFatal_mtf (s : State) (b : Nat) : (s.errFatal b).mtf = s.mtf := s.sameUnits_errFatal b |>.mtf
@[simp] theorem State.errFatal_scc (s : State) (b : Nat) : (s.errFatal b).scc = s.scc := s.sameUnits_errFatal b |>.scc
@[simp] theorem State.errFatal_bbm (s : State) (b : Nat) : (s.errFatal b).bbm = s.bbm := s.sameUnits_errFatal b |>.bbm
@[simp] theorem State.errFatal_rdt (s : State) (b : Nat) : (s.errFatal b).rdt = s.rdt := s.sameUnits_errFatal b |>.rdt
@[simp] theorem State.errFatal_snp (s : State) (b : Nat) : (s.errFatal b).snp = s.snp := s.sameUnits_errFatal b |>.snp
@[simp] theorem State.errFatal_ctl (s : State) (b : Nat) : (s.errFatal b).ctl = s.ctl := s.sameUnits_errFatal b |>.ctl
@[simp] theorem State.errFatal_health (s : State) (b : Nat) : (s.errFatal b).health = s.health := s.sameUnits_errFatal b |>.health
@[simp] theorem State.errFatal_map (s : State) (b : Nat) : (s.errFatal b).map = s.map := s.sameUnits_errFatal b |>.map
@[simp] theorem State.errFatal_ftl (s : State) (b : Nat) : (s.errFatal b).ftl = s.ftl := s.sameUnits_errFatal b |>.ftl
@[simp] theorem State.errFatal_media (s : State) (b : Nat) : (s.errFatal b).media = s.media := s.sameUnits_errFatal b |>.media
@[simp] theorem State.errFatal_trn (s : State) (b : Nat) : (s.errFatal b).trn = s.trn := s.sameUnits_errFatal b |>.trn
@[simp] theorem State.errFatal_pending (s : State) (b : Nat) : (s.errFatal b).pending = s.pending := s.sameUnits_errFatal b |>.pending
@[simp] theorem State.errFatal_egress (s : State) (b : Nat) : (s.errFatal b).egress = s.egress := s.sameUnits_errFatal b |>.egress

/-! ### resStart -/

@[simp] theorem State.resStart_latches (s : State) (off : Nat) : (s.resStart off).latches = s.latches := rfl
@[simp] theorem State.resStart_sent (s : State) (off : Nat) : (s.resStart off).sent = s.sent := rfl
@[simp] theorem State.resStart_pins (s : State) (off : Nat) : (s.resStart off).pins = s.pins := rfl
@[simp] theorem State.resStart_pattern (s : State) (off : Nat) : (s.resStart off).pattern = s.pattern := rfl
@[simp] theorem State.resStart_boot (s : State) (off : Nat) : (s.resStart off).boot = s.boot := rfl
@[simp] theorem State.resStart_repat (s : State) (off : Nat) : (s.resStart off).repat = s.repat := rfl
@[simp] theorem State.resStart_upd (s : State) (off : Nat) : (s.resStart off).upd = s.upd := rfl
@[simp] theorem State.resStart_pairSt (s : State) (off : Nat) : (s.resStart off).pairSt = s.pairSt := rfl
@[simp] theorem State.resStart_commit (s : State) (off : Nat) : (s.resStart off).commit = s.commit := rfl
@[simp] theorem State.resStart_efmo (s : State) (off : Nat) : (s.resStart off).efmo = s.efmo := rfl
@[simp] theorem State.resStart_rows (s : State) (off : Nat) : (s.resStart off).rows = s.rows := rfl
@[simp] theorem State.resStart_ddp (s : State) (off : Nat) : (s.resStart off).ddp = s.ddp := rfl
@[simp] theorem State.resStart_sec (s : State) (off : Nat) : (s.resStart off).sec = s.sec := rfl
@[simp] theorem State.resStart_mtf (s : State) (off : Nat) : (s.resStart off).mtf = s.mtf := rfl
@[simp] theorem State.resStart_scc (s : State) (off : Nat) : (s.resStart off).scc = s.scc := rfl
@[simp] theorem State.resStart_bbm (s : State) (off : Nat) : (s.resStart off).bbm = s.bbm := rfl
@[simp] theorem State.resStart_rdt (s : State) (off : Nat) : (s.resStart off).rdt = s.rdt := rfl
@[simp] theorem State.resStart_snp (s : State) (off : Nat) : (s.resStart off).snp = s.snp := rfl
@[simp] theorem State.resStart_ctl (s : State) (off : Nat) : (s.resStart off).ctl = s.ctl := rfl
@[simp] theorem State.resStart_health (s : State) (off : Nat) : (s.resStart off).health = s.health := rfl
@[simp] theorem State.resStart_map (s : State) (off : Nat) : (s.resStart off).map = s.map := rfl
@[simp] theorem State.resStart_ftl (s : State) (off : Nat) : (s.resStart off).ftl = s.ftl := rfl
@[simp] theorem State.resStart_media (s : State) (off : Nat) : (s.resStart off).media = s.media := rfl
@[simp] theorem State.resStart_trn (s : State) (off : Nat) : (s.resStart off).trn = s.trn := rfl
@[simp] theorem State.resStart_pending (s : State) (off : Nat) : (s.resStart off).pending = s.pending := rfl
@[simp] theorem State.resStart_egress (s : State) (off : Nat) : (s.resStart off).egress = s.egress := rfl

/-! ### resDone -/

@[simp] theorem State.resDone_latches (s : State) (off : Nat) (l : List (Fld × Nat)) : (s.resDone off l).latches = s.latches := (s.regsOnly_resDone off l).latches
@[simp] theorem State.resDone_sent (s : State) (off : Nat) (l : List (Fld × Nat)) : (s.resDone off l).sent = s.sent := (s.regsOnly_resDone off l).sent
@[simp] theorem State.resDone_pins (s : State) (off : Nat) (l : List (Fld × Nat)) : (s.resDone off l).pins = s.pins := (s.regsOnly_resDone off l).pins
@[simp] theorem State.resDone_pattern (s : State) (off : Nat) (l : List (Fld × Nat)) : (s.resDone off l).pattern = s.pattern := (s.regsOnly_resDone off l).pattern
@[simp] theorem State.resDone_boot (s : State) (off : Nat) (l : List (Fld × Nat)) : (s.resDone off l).boot = s.boot := (s.regsOnly_resDone off l).boot
@[simp] theorem State.resDone_repat (s : State) (off : Nat) (l : List (Fld × Nat)) : (s.resDone off l).repat = s.repat := (s.regsOnly_resDone off l).repat
@[simp] theorem State.resDone_upd (s : State) (off : Nat) (l : List (Fld × Nat)) : (s.resDone off l).upd = s.upd := (s.regsOnly_resDone off l).upd
@[simp] theorem State.resDone_pairSt (s : State) (off : Nat) (l : List (Fld × Nat)) : (s.resDone off l).pairSt = s.pairSt := (s.regsOnly_resDone off l).pairSt
@[simp] theorem State.resDone_commit (s : State) (off : Nat) (l : List (Fld × Nat)) : (s.resDone off l).commit = s.commit := (s.regsOnly_resDone off l).commit
@[simp] theorem State.resDone_efmo (s : State) (off : Nat) (l : List (Fld × Nat)) : (s.resDone off l).efmo = s.efmo := (s.regsOnly_resDone off l).efmo
@[simp] theorem State.resDone_rows (s : State) (off : Nat) (l : List (Fld × Nat)) : (s.resDone off l).rows = s.rows := (s.regsOnly_resDone off l).rows
@[simp] theorem State.resDone_ddp (s : State) (off : Nat) (l : List (Fld × Nat)) : (s.resDone off l).ddp = s.ddp := (s.regsOnly_resDone off l).ddp
@[simp] theorem State.resDone_sec (s : State) (off : Nat) (l : List (Fld × Nat)) : (s.resDone off l).sec = s.sec := (s.regsOnly_resDone off l).sec
@[simp] theorem State.resDone_mtf (s : State) (off : Nat) (l : List (Fld × Nat)) : (s.resDone off l).mtf = s.mtf := (s.regsOnly_resDone off l).mtf
@[simp] theorem State.resDone_scc (s : State) (off : Nat) (l : List (Fld × Nat)) : (s.resDone off l).scc = s.scc := (s.regsOnly_resDone off l).scc
@[simp] theorem State.resDone_bbm (s : State) (off : Nat) (l : List (Fld × Nat)) : (s.resDone off l).bbm = s.bbm := (s.regsOnly_resDone off l).bbm
@[simp] theorem State.resDone_rdt (s : State) (off : Nat) (l : List (Fld × Nat)) : (s.resDone off l).rdt = s.rdt := (s.regsOnly_resDone off l).rdt
@[simp] theorem State.resDone_snp (s : State) (off : Nat) (l : List (Fld × Nat)) : (s.resDone off l).snp = s.snp := (s.regsOnly_resDone off l).snp
@[simp] theorem State.resDone_ctl (s : State) (off : Nat) (l : List (Fld × Nat)) : (s.resDone off l).ctl = s.ctl := (s.regsOnly_resDone off l).ctl
@[simp] theorem State.resDone_health (s : State) (off : Nat) (l : List (Fld × Nat)) : (s.resDone off l).health = s.health := (s.regsOnly_resDone off l).health
@[simp] theorem State.resDone_map (s : State) (off : Nat) (l : List (Fld × Nat)) : (s.resDone off l).map = s.map := (s.regsOnly_resDone off l).map
@[simp] theorem State.resDone_ftl (s : State) (off : Nat) (l : List (Fld × Nat)) : (s.resDone off l).ftl = s.ftl := (s.regsOnly_resDone off l).ftl
@[simp] theorem State.resDone_media (s : State) (off : Nat) (l : List (Fld × Nat)) : (s.resDone off l).media = s.media := (s.regsOnly_resDone off l).media
@[simp] theorem State.resDone_trn (s : State) (off : Nat) (l : List (Fld × Nat)) : (s.resDone off l).trn = s.trn := (s.regsOnly_resDone off l).trn
@[simp] theorem State.resDone_pending (s : State) (off : Nat) (l : List (Fld × Nat)) : (s.resDone off l).pending = s.pending := (s.regsOnly_resDone off l).pending
@[simp] theorem State.resDone_egress (s : State) (off : Nat) (l : List (Fld × Nat)) : (s.resDone off l).egress = s.egress := (s.regsOnly_resDone off l).egress

theorem State.regsOnly_setPair (s : State) (lo hi : Fld) (v : Nat) : s.RegsOnly (s.setPair lo hi v) := ⟨_, rfl⟩

theorem State.regsOnly_inc (s : State) (f : Fld) (n : Nat) : s.RegsOnly (s.inc f n) := ⟨_, rfl⟩

/-! ### Bytes outside the replay ring -/

/-- The ring lies where its registers, which are RPJ's, put it. -/
theorem State.inRing_congr {s t : State} (h : ∀ g : Fld, g.blk = 0x18 → t.fld g = s.fld g) (a : Nat) : t.inRing a ↔ s.inRing a := by
  unfold State.inRing State.ringBase State.ringRecords State.base
  rw [h _ (by decide), h _ (by decide), h _ (by decide)]

theorem State.inRing_setFld (s : State) {f : Fld} (v : Nat) (h : f.blk ≠ 0x18) (a : Nat) : (s.setFld f v).inRing a ↔ s.inRing a :=
  State.inRing_congr (fun _ hg => s.fld_setFld_ne v (Fld.key_ne_of_blk fun e => h (e.symm.trans hg))) a

/-- An interrupt outside RPJ leaves the bytes outside the ring alone. -/
theorem State.memGet_raise (s : State) {f : Fld} (h : f.blk ≠ 0x18) {a : Nat} (ha : ¬ s.inRing a) : memGet (s.raise f).dram a = memGet s.dram a :=
  (s.logs_raise f).mem a fun hr => ha ((s.inRing_setFld 1 h a).mp hr)

/-! ### Answers in result registers (R470) -/

/-- The fields of an answer: apart from VALID, SEEN and SEQ and from one another. -/
def outcomeKeys (off : Nat) : List Fld → Bool
  | [] => true
  | f :: r =>
    decide (f.key ≠ (resValid off).key) && decide (f.key ≠ (resSeen off).key) && decide (f.key ≠ (resSeq off).key) &&
      r.all (fun g => decide (g.key ≠ f.key)) && outcomeKeys off r

theorem outcomeOk_of_keys {off : Nat} {l : List (Fld × Nat)} (hk : outcomeKeys off (l.map Prod.fst) = true)
    (hv : ∀ p ∈ l, p.2 < 2 ^ p.1.width) : outcomeOk off l = true := by
  induction l with
  | nil => rfl
  | cons p r ih =>
    obtain ⟨hp, hr⟩ := List.forall_mem_cons.mp hv
    simp only [List.map_cons, outcomeKeys, List.all_map, Bool.and_eq_true] at hk
    obtain ⟨⟨hkeys, hall⟩, hrest⟩ := hk
    simp only [outcomeOk, Bool.and_eq_true, decide_eq_true hp, ih hrest hr, and_true]
    exact ⟨hkeys, hall⟩

/-- An answer stands where its fields do. -/
theorem State.Answered.congr {s t u : State} {off : Nat} {l : List (Fld × Nat)} (h : s.Answered t off l)
    (hu : ∀ g ∈ resValid off :: resSeen off :: resSeq off :: l.map Prod.fst, u.fld g = t.fld g) : s.Answered u off l :=
  h.mono (hu _ (by simp)) (hu _ (by simp)) (hu _ (by simp)) fun p hp => hu _ (by simp only [List.mem_cons]; exact .inr (.inr (.inr (List.mem_map_of_mem hp))))

/-- Are all of an answer's fields other than a bit, and outside RPJ? -/
def clearOf (off : Nat) (fs : List Fld) (f : Fld) : Bool :=
  (resValid off :: resSeen off :: resSeq off :: fs).all fun g => decide (g.key ≠ f.key) && decide (g.blk ≠ 0x18)

theorem State.Answered.raise_clear {s t : State} {off : Nat} {l : List (Fld × Nat)} (h : s.Answered t off l) {f : Fld}
    (hf : clearOf off (l.map Prod.fst) f = true) : s.Answered (t.raise f) off l :=
  h.congr fun g hg => by
    have := List.all_eq_true.mp hf g hg
    simp only [Bool.and_eq_true, decide_eq_true_eq] at this
    exact t.fld_raise_ne this.1 this.2

/-- A command that completes with an interrupt answers. -/
theorem State.answered_done (s : State) {off : Nat} {l : List (Fld × Nat)} {f : Fld} (fs : List Fld) (hfs : l.map Prod.fst = fs)
    (hk : (outcomeKeys off fs && clearOf off fs f) = true) (hv : ∀ p ∈ l, p.2 < 2 ^ p.1.width) :
    s.Answered ((s.resDone off l).raise f) off l := by
  subst hfs
  obtain ⟨hk, hf⟩ := Bool.and_eq_true_iff.mp hk
  exact (s.answered_resDone off l (outcomeOk_of_keys hk hv)).raise_clear hf

/-- Every outcome of a list of one. -/
theorem forall_outcome_one {f : Fld} {v : Nat} (h : v < 2 ^ f.width) : ∀ p ∈ [(f, v)], p.2 < 2 ^ p.1.width := by
  simpa using h

/-- Of an answer's outcome fields some may be told. -/
theorem State.Answered.subset {s t : State} {off : Nat} {l l' : List (Fld × Nat)} (h : s.Answered t off l) (hl : ∀ p ∈ l', p ∈ l) :
    s.Answered t off l' :=
  let ⟨h1, h2, h3, h4⟩ := h
  ⟨h1, h2, h3, fun p hp => h4 p (hl p hp)⟩

/-! ### Commands on a powered head -/

/-- A command's effect that leaves the pins alone is what a powered head answers. -/
theorem State.next_live_eq {s u : State} (hon : s.pins.powered = true) (hu : u.pins = s.pins) :
    (Host.Outcome.next (s.live u) : Result) = .next u := congrArg Host.Outcome.next (State.live_eq hon hu)

end Sys2Proof.Machine
end

section
/-! PROOF. Keys (R347-R371): which commands a key command's requester may run, what LOAD, UNWRAP and GENERATE install, WRAP,
CLEAR, QUERY and SET_PHASE, alarms and zeroisation, the DRBG. -/
namespace Sys2Proof.Machine

/-! ### A key command's answer (R350) -/

/-- The fields that a key command's end may write: its words, its usage, BUSY and its result. -/
theorem State.keyWords_spec (s : State) : s.RegsOnly ((List.range 16).foldl (fun t n => t.setFld (F.SEC_KEY_WORD_KEY n) 0) s) ∧
    (∀ i < 16, ((List.range 16).foldl (fun t n => t.setFld (F.SEC_KEY_WORD_KEY n) 0) s).fld (F.SEC_KEY_WORD_KEY i) = 0) ∧
    ∀ g : Fld, (∀ n, g.key ≠ (F.SEC_KEY_WORD_KEY n).key) →
      ((List.range 16).foldl (fun t n => t.setFld (F.SEC_KEY_WORD_KEY n) 0) s).fld g = s.fld g := by
  have h : ∀ (l : List Nat) (s : State), s.RegsOnly (l.foldl (fun t n => t.setFld (F.SEC_KEY_WORD_KEY n) 0) s) ∧
      (∀ i, (i ∈ l ∨ s.fld (F.SEC_KEY_WORD_KEY i) = 0) → (l.foldl (fun t n => t.setFld (F.SEC_KEY_WORD_KEY n) 0) s).fld (F.SEC_KEY_WORD_KEY i) = 0) ∧
      ∀ g : Fld, (∀ n, g.key ≠ (F.SEC_KEY_WORD_KEY n).key) → (l.foldl (fun t n => t.setFld (F.SEC_KEY_WORD_KEY n) 0) s).fld g = s.fld g := by
    intro l
    induction l with
    | nil => exact fun s => ⟨.refl s, fun i hi => hi.resolve_left List.not_mem_nil, fun _ _ => rfl⟩
    | cons n r ih =>
      intro s
      obtain ⟨i1, i2, i3⟩ := ih (s.setFld (F.SEC_KEY_WORD_KEY n) 0)
      refine ⟨(s.regsOnly_setFld _ _).trans i1, fun i hi => i2 i ?_, fun g hg => (i3 g hg).trans (s.fld_setFld_ne 0 (hg n))⟩
      by_cases hin : i = n
      · exact .inr (hin ▸ (s.fld_setFld_same _ 0).trans (Nat.zero_mod _))
      · refine hi.imp (fun h => (List.mem_cons.mp h).resolve_left hin) fun h => ?_
        rw [s.fld_setFld_ne 0 (by simp only [Fld.key, F.SEC_KEY_WORD_KEY]; omega), h]
  obtain ⟨h1, h2, h3⟩ := h (List.range 16) s
  exact ⟨h1, fun i hi => h2 i (.inl (List.mem_range.mpr hi)), h3⟩

theorem State.slotState_le (s : State) (n : Nat) : s.slotState n ≤ 2 := by
  unfold State.slotState
  split
  · omega
  · split <;> omega

theorem State.encPhase_le (s : State) (d : Nat) : s.encPhase d ≤ 1 := by
  unfold State.encPhase
  split <;> omega

theorem State.sameUnits_keyAnswer (s : State) (slot code : Nat) : s.SameUnits (s.keyAnswer slot code) :=
  (s.regsOnly_resDone _ _).sameUnits.trans (State.sameUnits_raise _ _)

/-- SEC_KEY_RESULT shows the slot's state and the code. -/
theorem State.answered_keyAnswer (s : State) (slot : Nat) {code : Nat} (hc : code < 16) :
    s.Answered (s.keyAnswer slot code) keyRes [(F.SEC_KEY_RESULT_CODE, code), (F.SEC_KEY_RESULT_STATE, s.slotState slot)] := by
  have hph : (if slotKind slot = .xts then s.encPhase (slot / 2) else 0) < 2 := by
    have := s.encPhase_le (slot / 2)
    split <;> omega
  have hst : s.slotState slot < 4 := Nat.lt_of_le_of_lt (s.slotState_le slot) (by decide)
  refine (s.answered_done [F.SEC_KEY_RESULT_STATE, F.SEC_KEY_RESULT_PHASE, F.SEC_KEY_RESULT_CODE] rfl (by decide) ?_).subset fun p hp => ?_
  · simp only [List.forall_mem_cons, List.not_mem_nil, false_imp_iff, implies_true, and_true]
    exact ⟨hst, hph, hc⟩
  · simp only [List.mem_cons, List.not_mem_nil, or_false] at hp ⊢
    obtain rfl | rfl := hp
    · exact .inr (.inr rfl)
    · exact .inl rfl

theorem State.fld_keyDone_isr (s : State) (slot code : Nat) : (s.keyAnswer slot code).fld F.SEC_ISR_KEY_DONE = 1 :=
  State.fld_raise_same _ _ rfl (by decide)

/-- A key command that completes has written registers alone. -/
theorem State.sameUnits_keyDone (s : State) (slot code : Nat) : s.SameUnits (s.keyDone slot code) := by
  obtain ⟨h, -, -⟩ := s.keyWords_spec
  exact h.sameUnits.trans (((State.regsOnly_setPair _ _ _ _).trans (State.regsOnly_setFld _ _ _)).sameUnits.trans (State.sameUnits_keyAnswer _ _ _))


theorem State.keyDone_spec (s : State) (slot : Nat) {code : Nat} (hc : code < 16) :
    s.Answered (s.keyDone slot code) keyRes [(F.SEC_KEY_RESULT_CODE, code), (F.SEC_KEY_RESULT_STATE, s.slotState slot)] ∧
      (∀ i < 16, (s.keyDone slot code).fld (F.SEC_KEY_WORD_KEY i) = 0) := by
  obtain ⟨hregs, hwords, hkeep⟩ := s.keyWords_spec
  unfold State.keyDone
  dsimp only
  generalize (List.range 16).foldl (fun t n => t.setFld (F.SEC_KEY_WORD_KEY n) 0) s = w at hregs hwords hkeep ⊢
  generalize hu : (w.setPair F.SEC_KEY_USAGE_LO_COUNT F.SEC_KEY_USAGE_HI_COUNT (s.slotCount slot)).setFld F.SEC_KEY_CMD_BUSY 0 = u
  have hslot : u.slotState slot = s.slotState slot := by
    have : u.sec = s.sec := hu ▸ hregs.sec
    unfold State.slotState State.slot?
    rw [this]
  have hfld : ∀ g : Fld, g.key ≠ F.SEC_KEY_USAGE_LO_COUNT.key → g.key ≠ F.SEC_KEY_USAGE_HI_COUNT.key → g.key ≠ F.SEC_KEY_CMD_BUSY.key →
      u.fld g = w.fld g := fun g h1 h2 h3 => by
    rw [← hu, State.fld_setFld_ne _ _ h3, State.fld_setPair_ne _ _ h1 h2]
  refine ⟨?_, fun i hi => ?_⟩
  · rw [← hslot]
    refine (u.answered_keyAnswer slot hc).of_seq ?_
    rw [hfld _ (by decide) (by decide) (by decide), hkeep _ fun n => by simp only [Fld.key, resSeq, keyRes, F.SEC_KEY_WORD_KEY]; omega]
  · have hk : (F.SEC_KEY_WORD_KEY i).key = 0x500100 * 8 + 32 * i := by simp only [Fld.key, F.SEC_KEY_WORD_KEY]; omega
    have hlow : ∀ f : Fld, f.key < 0x500100 * 8 → (F.SEC_KEY_WORD_KEY i).key ≠ f.key := fun f hf => by omega
    unfold State.keyAnswer
    dsimp only
    rw [State.fld_raise_ne _ (hlow _ (by decide)) (by unfold Fld.blk; omega), State.fld_resDone_ne _ _ (hlow _ (by decide)) (hlow _ (by decide)) (hlow _ (by decide))]
    simp only [List.foldl_cons, List.foldl_nil]
    rw [State.fld_setFld_ne _ _ (hlow _ (by decide)), State.fld_setFld_ne _ _ (hlow _ (by decide)), State.fld_setFld_ne _ _ (hlow _ (by decide)),
      hfld _ (hlow _ (by decide)) (hlow _ (by decide)) (hlow _ (by decide)), hwords i hi]

/-! ### Start of a key command (R349, R350) -/

/-- The state in which a key command that starts runs. -/
def State.keyBegun (s : State) (op slot : Nat) : State := ((s.setFld F.SEC_KEY_CMD_OP op).setFld F.SEC_KEY_CMD_SLOT slot).resStart keyRes

theorem State.regsOnly_keyBegun (s : State) (op slot : Nat) : s.RegsOnly (s.keyBegun op slot) := ⟨_, rfl⟩

theorem State.fld_keyBegun (s : State) (op slot : Nat) {g : Fld} (h : g.off ≠ 0x500010 ∧ g.off ≠ 0x500020 ∧ g.off % 4 = 0 ∧ g.lo < 32) :
    (s.keyBegun op slot).fld g = s.fld g := by
  obtain ⟨h1, h2, h3, h4⟩ := h
  rw [State.keyBegun, State.fld_resStart_ne _ _ (by simp only [Fld.key, resValid, keyRes]; omega) (by simp only [Fld.key, resSeen, keyRes]; omega),
    State.fld_setFld_ne _ _ (by simp only [Fld.key, F.SEC_KEY_CMD_SLOT]; omega), State.fld_setFld_ne _ _ (by simp only [Fld.key, F.SEC_KEY_CMD_OP]; omega)]

theorem State.fld_seq_keyBegun (s : State) (op slot : Nat) : (s.keyBegun op slot).fld (resSeq keyRes) = s.fld (resSeq keyRes) := by
  rw [State.keyBegun, State.fld_resStart_ne _ _ (by decide) (by decide), State.fld_setFld_ne _ _ (by decide), State.fld_setFld_ne _ _ (by decide)]

section
variable {s : State} (hbusy : s.flag F.SEC_KEY_CMD_BUSY = false) (op slot : Nat) (run : State → State)
include hbusy

theorem State.keyStart_of_other {who : Requester} (hw : who ≠ .referee) : s.keyStart who op slot run = (s.keyBegun op slot).keyAnswer slot 1 := by
  rw [State.keyStart, State.startWith, hbusy, if_neg (by decide), if_pos hw]
  rfl

theorem State.keyStart_of_referee (hz : s.sec.zeroised = false) (hk : 6 < op ∨ slotKind slot ≠ .none) :
    s.keyStart .referee op slot run = run (s.keyBegun op slot) := by
  have hz' : (s.keyBegun op slot).sec.zeroised = false := hz
  rw [State.keyStart, State.startWith, hbusy, if_neg (by decide), if_neg (by decide)]
  change (if (s.keyBegun op slot).sec.zeroised then _ else _) = _
  rw [hz', if_neg (by decide), if_neg fun h => hk.elim (fun h' => absurd h.1 (by omega)) fun h' => h' h.2]
  rfl

end

/-- Settles O39: a key command of another requester ends in its answer alone. -/
theorem onlyTheRefereeCoresRunKeyCommands : Obligations.OnlyTheRefereeCoresRunKeyCommands := by
  intro who op slot s hon hw hbusy
  have hmain : ∀ (op : Nat) (run : State → State), ∃ t, (Host.Outcome.next (s.live (s.keyStart who op slot run)) : Result) = .next t ∧ t.sec = s.sec ∧
      s.Answered t keyRes [(F.SEC_KEY_RESULT_CODE, 1)] ∧ t.fld F.SEC_ISR_KEY_DONE = 1 := fun op run => by
    have hunits := (s.keyBegun op slot).sameUnits_keyAnswer slot 1
    rw [State.keyStart_of_other hbusy op slot run hw, State.next_live_eq hon hunits.pins]
    exact ⟨_, rfl, hunits.sec, (((s.keyBegun op slot).answered_keyAnswer slot (by decide)).of_seq (s.fld_seq_keyBegun op slot)).subset
      (by simp), State.fld_keyDone_isr _ _ _⟩
  simp only [List.forall_mem_cons, List.not_mem_nil, false_imp_iff, implies_true, and_true]
  exact ⟨hmain _ _, hmain _ _, hmain _ _, hmain _ _, hmain _ _, hmain _ _, hmain _ _, hmain _ _⟩

/-! ### Keys installed (R350) -/

/-- Both halves of an XTS key agree. -/
abbrev halvesAgree (slot : Nat) (key : Bytes) : Prop := slotKind slot = .xts ∧ key.take 32 = key.drop 32

theorem State.reportCheck_eq (s : State) (slot : Nat) : s.reportCheck slot = s ∨ ∃ v, s.reportCheck slot = s.setFld F.SEC_KEY_CHECK_KCV v := by
  unfold State.reportCheck
  split
  · exact .inr ⟨_, rfl⟩
  · exact .inl rfl

theorem State.reportCheck_frame (s : State) (slot : Nat) : s.RegsOnly (s.reportCheck slot) ∧
    ∀ g : Fld, g.key ≠ F.SEC_KEY_CHECK_KCV.key → (s.reportCheck slot).fld g = s.fld g := by
  obtain e | ⟨v, e⟩ := s.reportCheck_eq slot
  · rw [e]; exact ⟨.refl s, fun _ _ => rfl⟩
  · rw [e]; exact ⟨s.regsOnly_setFld _ _, fun g h => s.fld_setFld_ne v h⟩

theorem State.slotCount_setCount_zero (s : State) (n : Nat) : (s.setCount n 0).slotCount n = 0 := by
  change ((s.sec.counts.del n).get? n).getD 0 = 0
  rw [Tbl.get?_del_same]
  rfl

/-- What a command that installs a key leaves: the key in its slot alone, with no use counted. -/
structure State.Installed (s t : State) (slot : Nat) (key : Bytes) : Prop where
  stored : t.slot? slot = some (asLoaded s key)
  count  : t.slotCount slot = 0
  others : ∀ n, n ≠ slot → t.slot? n = s.slot? n
  words  : ∀ i < 16, t.fld (F.SEC_KEY_WORD_KEY i) = 0
  answer : s.Answered t keyRes [(F.SEC_KEY_RESULT_CODE, 0)]
  pins   : t.pins = s.pins

theorem State.installed_installKey (s : State) {slot : Nat} {key : Bytes} (h : ¬ halvesAgree slot key) :
    s.Installed (s.installKey slot key) slot key := by
  unfold State.installKey
  rw [if_neg h]
  dsimp only
  generalize hs1 : (s.setSlot slot _).setCount slot 0 = s1
  generalize hs2 : (if slot = 0x23FF then s1.modSec fun x => { x with sentInv := 0, gotInv := 0 } else s1) = s2
  have h2 : s2.cells = s.cells ∧ s2.pins = s.pins ∧ s2.sec.slots = s1.sec.slots ∧ s2.sec.counts = s1.sec.counts := by
    subst hs1 hs2
    split <;> exact ⟨rfl, rfl, rfl, rfl⟩
  obtain ⟨hcells, hpins, hslots, hcounts⟩ := h2
  obtain ⟨hregs, hfld⟩ := s2.reportCheck_frame slot
  obtain ⟨hans, hwords⟩ := (s2.reportCheck slot).keyDone_spec slot (code := 0) (by decide)
  have hunits := hregs.sameUnits.trans ((s2.reportCheck slot).sameUnits_keyDone slot 0)
  have hslot : ∀ n, ((s2.reportCheck slot).keyDone slot 0).slot? n = s1.slot? n := fun n => by
    rw [State.slot?, hunits.sec, hslots]
    rfl
  refine ⟨?_, ?_, fun n hn => ?_, hwords, (hans.subset (by simp)).of_seq ?_, hunits.pins.trans hpins⟩
  · rw [hslot, ← hs1]
    exact Tbl.get?_put_same _ _ _
  · rw [State.slotCount, hunits.sec, hcounts, ← hs1]
    exact State.slotCount_setCount_zero _ slot
  · rw [hslot, ← hs1]
    exact Tbl.get?_put_ne _ _ hn
  · rw [hfld _ (by decide), State.fld, hcells]
    rfl

/-- A key command that begins and then installs a key has installed it in the head as it was. -/
theorem State.Installed.of_begun {s t : State} {op slot : Nat} {key : Bytes} (h : (s.keyBegun op slot).Installed t slot key) :
    s.Installed t slot key :=
  { h with
    stored := by
      refine h.stored.trans (congrArg some ?_)
      unfold asLoaded State.flag
      rw [s.fld_keyBegun op slot (by decide), s.fld_keyBegun op slot (by decide), s.fld_keyBegun op slot (by decide),
        s.fld_keyBegun op slot (by decide)]
    answer := h.answer.of_seq (s.fld_seq_keyBegun op slot) }

/-- A key command that begins and ends with a code alone. -/
theorem State.answered_begun_done (s : State) (op slot : Nat) {code : Nat} (hc : code < 16) :
    s.Answered ((s.keyBegun op slot).keyDone slot code) keyRes [(F.SEC_KEY_RESULT_CODE, code), (F.SEC_KEY_RESULT_STATE, s.slotState slot)] :=
  ((s.keyBegun op slot).keyDone_spec slot hc).1.of_seq (s.fld_seq_keyBegun op slot)

theorem State.answered_begun_code (s : State) (op slot : Nat) {code : Nat} (hc : code < 16) :
    s.Answered ((s.keyBegun op slot).keyDone slot code) keyRes [(F.SEC_KEY_RESULT_CODE, code)] :=
  (s.answered_begun_done op slot hc).subset (by simp)

theorem State.units_begun_done (s : State) (op slot code : Nat) : s.SameUnits ((s.keyBegun op slot).keyDone slot code) :=
  (s.regsOnly_keyBegun op slot).sameUnits.trans ((s.keyBegun op slot).sameUnits_keyDone slot code)

theorem State.SameUnits.slot? {s t : State} (h : s.SameUnits t) (n : Nat) : t.slot? n = s.slot? n := by
  rw [State.slot?, h.sec]
  rfl

theorem State.SameUnits.slotState {s t : State} (h : s.SameUnits t) (n : Nat) : t.slotState n = s.slotState n := by
  rw [State.slotState, h.slot?]
  rfl

/-- The key of SEC_KEY_WORD_n (R350). -/
def State.wordsKey (s : State) (slot : Nat) : Bytes := (List.range (keyLen slot / 4)).flatMap fun i => leBytes 4 (s.fld (F.SEC_KEY_WORD_KEY i))

theorem State.wordsKey_keyBegun (s : State) (op slot : Nat) : (s.keyBegun op slot).wordsKey slot = s.wordsKey slot := by
  unfold State.wordsKey
  refine congrArg (fun word => (List.range (keyLen slot / 4)).flatMap word) (funext fun i => ?_)
  rw [s.fld_keyBegun op slot (by simp only [F.SEC_KEY_WORD_KEY]; omega)]

section
variable {s : State} {slot : Nat} (hbusy : s.flag F.SEC_KEY_CMD_BUSY = false) (hz : s.sec.zeroised = false)
  (hkind : slotKind slot ≠ .none)
include hbusy hz hkind

theorem exec_keyLoad_full (hon : s.pins.powered = true) (h : s.slotState slot ≠ 0) :
    exec (.keyLoad .referee slot) s = .next ((s.keyBegun 0 slot).keyDone slot 4) := by
  change (Host.Outcome.next (s.live (s.keyStart .referee 0 slot _)) : Result) = _
  rw [State.keyStart_of_referee hbusy 0 slot _ hz (.inr hkind), if_pos (show (s.keyBegun 0 slot).slotState slot ≠ 0 from h), State.next_live_eq hon (s.units_begun_done 0 slot 4).pins]

theorem exec_keyLoad_empty (h : s.slotState slot = 0) :
    exec (.keyLoad .referee slot) s = .next (s.live ((s.keyBegun 0 slot).installKey slot (s.wordsKey slot))) := by
  change (Host.Outcome.next (s.live (s.keyStart .referee 0 slot _)) : Result) = _
  rw [State.keyStart_of_referee hbusy 0 slot _ hz (.inr hkind), if_neg (show ¬ (s.keyBegun 0 slot).slotState slot ≠ 0 from fun hn => hn h), ← s.wordsKey_keyBegun 0 slot]
  rfl

/-- LOAD installs the key of SEC_KEY_WORD_n in an EMPTY slot. -/
theorem exec_keyLoad_installed (hon : s.pins.powered = true) (h : s.slotState slot = 0) (hk : ¬ halvesAgree slot (s.wordsKey slot)) :
    ∃ t, exec (.keyLoad .referee slot) s = .next t ∧ s.Installed t slot (s.wordsKey slot) := by
  have hi := ((s.keyBegun 0 slot).installed_installKey hk).of_begun
  rw [exec_keyLoad_empty hbusy hz hkind h, State.next_live_eq hon hi.pins]
  exact ⟨_, rfl, hi⟩

theorem exec_keyLoad_agreeing (hon : s.pins.powered = true) (h : s.slotState slot = 0) (hk : halvesAgree slot (s.wordsKey slot)) :
    exec (.keyLoad .referee slot) s = .next ((s.keyBegun 0 slot).keyDone slot 9) := by
  rw [exec_keyLoad_empty hbusy hz hkind h, State.installKey, if_pos hk, State.next_live_eq hon (s.units_begun_done 0 slot 9).pins]

theorem exec_keyUnwrap_empty (hkek : slotKind slot ≠ .kek) (h : s.slotState slot = 0) {kek : Bytes} (hk : s.keyOf s.kekSlot = some kek) :
    exec (.keyUnwrap .referee slot) s = .next (s.live (match keyUnwrap kek (s.rd s.keyAddr (keyLen slot + 8)) with
      | none => ((s.keyBegun 1 slot).inc F.SEC_AUTH_FAILS_UNWRAP).keyDone slot 3
      | some key => (s.keyBegun 1 slot).installKey slot key)) := by
  have hslot : (s.keyBegun 1 slot).kekSlot = s.kekSlot := by
    rw [State.kekSlot, s.fld_keyBegun 1 slot (by decide)]
    rfl
  have hkey : (s.keyBegun 1 slot).keyOf (s.keyBegun 1 slot).kekSlot = some kek := by rw [hslot]; exact hk
  have haddr : (s.keyBegun 1 slot).keyAddr = s.keyAddr := by
    rw [State.keyAddr, State.base, s.fld_keyBegun 1 slot (by decide), s.fld_keyBegun 1 slot (by decide)]
    rfl
  change (Host.Outcome.next (s.live (s.keyStart .referee 1 slot _)) : Result) = _
  rw [State.keyStart_of_referee hbusy 1 slot _ hz (.inr hkind), if_neg hkek, if_neg (show ¬ (s.keyBegun 1 slot).slotState slot ≠ 0 from fun hn => hn h), hkey]
  dsimp only
  rw [haddr]
  rfl

/-- GENERATE installs a draw of the DRBG of the slot's length. -/
theorem exec_keyGenerate_empty (h : s.slotState slot = 0) : ∃ (u : State) (key : Bytes), exec (.keyGenerate .referee slot) s = .next (s.live (u.installKey slot key)) ∧
    key.length = keyLen slot ∧ u.cells = (s.keyBegun 2 slot).cells ∧ u.pins = s.pins ∧ u.sec.slots = s.sec.slots := by
  refine ⟨((s.keyBegun 2 slot).free (8 * keyLen slot)).2.modSec fun k => { k with generates := k.generates + 1 },
    leBytes (keyLen slot) ((s.keyBegun 2 slot).free (8 * keyLen slot)).1, ?_, leBytes_length _ _, rfl, rfl, rfl⟩
  change (Host.Outcome.next (s.live (s.keyStart .referee 2 slot _)) : Result) = _
  rw [State.keyStart_of_referee hbusy 2 slot _ hz (.inr hkind), if_neg (show ¬ (s.keyBegun 2 slot).slotState slot ≠ 0 from fun hn => hn h)]

end

theorem State.fld_of_cells {s t : State} (h : t.cells = s.cells) (g : Fld) : t.fld g = s.fld g := by
  rw [State.fld, h]
  rfl

/-- Settles O40: an EMPTY slot takes the key; a command that is refused ends in its code alone. -/
theorem keysAreInstalledAsLoaded : Obligations.KeysAreInstalledAsLoaded := by
  refine ⟨fun slot s => ?_, fun slot kek s hon hslot hbusy hz hkind hkek hempty hk => ?_, fun slot s hon hslot hbusy hz hkind hempty => ?_, fun slot s => ?_,
    fun slot s hon hslot hbusy hz hkind hfull => ?_⟩
  · intro words hon hslot hbusy hz hkind hempty hne
    obtain ⟨t, he, hi⟩ := exec_keyLoad_installed hbusy hz hkind hon hempty hne
    exact ⟨t, he, hi.stored, hi.count, hi.others, hi.words, hi.answer⟩
  · rw [exec_keyUnwrap_empty hbusy hz hkind hkek hempty hk]
    cases keyUnwrap kek (s.rd s.keyAddr (keyLen slot + 8)) with
    | none =>
      have hunits := ((s.regsOnly_keyBegun 1 slot).trans (State.regsOnly_inc _ F.SEC_AUTH_FAILS_UNWRAP 1)).sameUnits.trans
        (State.sameUnits_keyDone _ slot 3)
      have hseq : ((s.keyBegun 1 slot).inc F.SEC_AUTH_FAILS_UNWRAP).fld (resSeq keyRes) = s.fld (resSeq keyRes) := by
        rw [State.fld_inc_ne _ _ (by decide), s.fld_seq_keyBegun]
      have hnone : s.slot? slot = none := by
        unfold State.slotState at hempty
        split at hempty
        · assumption
        · split at hempty <;> cases hempty
      dsimp only
      rw [State.next_live_eq hon hunits.pins]
      exact ⟨_, rfl, fun n _ => hunits.slot? n, (hunits.slot? slot).trans hnone,
        ((State.keyDone_spec _ slot (by decide)).1.subset (by simp)).of_seq hseq⟩
    | some key =>
      dsimp only
      by_cases hh : halvesAgree slot key
      · have hunits := s.units_begun_done 1 slot 9
        rw [State.installKey, if_pos hh, State.next_live_eq hon hunits.pins]
        exact ⟨_, rfl, fun n _ => hunits.slot? n, fun h => absurd hh h⟩
      · have hi := ((s.keyBegun 1 slot).installed_installKey hh).of_begun
        rw [State.next_live_eq hon hi.pins]
        exact ⟨_, rfl, hi.others, fun _ => ⟨hi.count, hi.answer, hi.stored⟩⟩
  · obtain ⟨u, key, he, hlen, hcells, hpins, hslots⟩ := exec_keyGenerate_empty hbusy hz hkind hempty
    have hflds : ∀ g : Fld, (g.off ≠ 0x500010 ∧ g.off ≠ 0x500020 ∧ g.off % 4 = 0 ∧ g.lo < 32) → u.fld g = s.fld g := fun g hg =>
      (State.fld_of_cells hcells g).trans (s.fld_keyBegun 2 slot hg)
    have hseq : u.fld (resSeq keyRes) = s.fld (resSeq keyRes) := (State.fld_of_cells hcells _).trans (s.fld_seq_keyBegun 2 slot)
    have hothers : ∀ n, u.slot? n = s.slot? n := fun n => by rw [State.slot?, hslots]; rfl
    by_cases hh : halvesAgree slot key
    · have hunits := u.sameUnits_keyDone slot 9
      rw [State.installKey, if_pos hh, State.next_live_eq hon (hunits.pins.trans hpins)] at he
      exact ⟨_, key, he, hlen, fun h => absurd hh h, fun n _ => (hunits.slot? n).trans (hothers n)⟩
    · have hi := u.installed_installKey hh
      have hload : asLoaded u key = asLoaded s key := by
        unfold asLoaded State.flag
        rw [hflds _ (by decide), hflds _ (by decide), hflds _ (by decide), hflds _ (by decide)]
      rw [State.next_live_eq hon (hi.pins.trans hpins)] at he
      exact ⟨_, key, he, hlen, fun _ => ⟨hi.count, hi.answer.of_seq hseq, hload ▸ hi.stored⟩, fun n hn => (hi.others n hn).trans (hothers n)⟩
  · intro words hon hslot hbusy hz hkind hempty hagree
    exact ⟨_, exec_keyLoad_agreeing hbusy hz (by rw [hkind]; decide) hon hempty ⟨hkind, hagree⟩, (s.units_begun_done 0 slot 9).sec,
      s.answered_begun_code 0 slot (by decide)⟩
  · exact ⟨_, exec_keyLoad_full hbusy hz hkind hon hfull, (s.units_begun_done 0 slot 4).sec, s.answered_begun_code 0 slot (by decide)⟩

/-! ### Keys wrapped, cleared and phased (R350) -/

/-- No key command's end writes a register of RPJ. -/
theorem State.memGet_keyDone (s : State) (slot code : Nat) {a : Nat} (ha : ¬ s.inRing a) :
    memGet (s.keyDone slot code).dram a = memGet s.dram a := by
  obtain ⟨hregs, -, hkeep⟩ := s.keyWords_spec
  have hrpj : ∀ {f g : Fld}, f.blk = 0x05 → g.blk = 0x18 → g.key ≠ f.key := fun hf hg => Fld.key_ne_of_blk (by omega)
  have hwords : ∀ g : Fld, g.blk = 0x18 → ∀ n, n < 16 → g.key ≠ (F.SEC_KEY_WORD_KEY n).key := fun g hg n hn =>
    hrpj (by simp only [Fld.blk, Fld.key, F.SEC_KEY_WORD_KEY]; omega) hg
  unfold State.keyDone State.keyAnswer
  dsimp only
  generalize hw : (List.range 16).foldl (fun t n => t.setFld (F.SEC_KEY_WORD_KEY n) 0) s = w at hregs hkeep
  have hwf : ∀ g : Fld, g.blk = 0x18 → w.fld g = s.fld g := fun g hg => by
    rw [← hw]
    have hfold : ∀ (l : List Nat) (u : State), (∀ n ∈ l, n < 16) → (l.foldl (fun t n => t.setFld (F.SEC_KEY_WORD_KEY n) 0) u).fld g = u.fld g := by
      intro l
      induction l with
      | nil => exact fun _ _ => rfl
      | cons n r ih =>
        intro u hl
        obtain ⟨hn, hr⟩ := List.forall_mem_cons.mp hl
        exact (ih _ hr).trans (u.fld_setFld_ne 0 (hwords g hg n hn))
    exact hfold _ _ fun n hn => List.mem_range.mp hn
  refine (State.memGet_raise _ (by decide) fun hr => ha ((State.inRing_congr (fun g hg => ?_) a).mp hr)).trans (congrArg (memGet · a) hregs.dram)
  have hne : ∀ f : Fld, f.blk = 0x05 → g.key ≠ f.key := fun f hf => hrpj hf hg
  rw [State.fld_resDone_ne _ _ (hne _ (by decide)) (hne _ (by decide)) (hne _ (by decide))]
  simp only [List.foldl_cons, List.foldl_nil]
  rw [State.fld_setFld_ne _ _ (hne _ (by decide)), State.fld_setFld_ne _ _ (hne _ (by decide)), State.fld_setFld_ne _ _ (hne _ (by decide)),
    State.fld_setFld_ne _ _ (hne _ (by decide)), State.fld_setPair_ne _ _ (hne _ (by decide)) (hne _ (by decide)), hwf g hg]

end Sys2Proof.Machine
end

section
/-! PROOF. The journal's commands (21_replay_and_diagnosis.md): a segment number wider than RPJ_EXP_CMD.SEGMENT. -/
namespace Sys2Proof.Machine

-- The concrete runs are evaluated one after another, which bounds the threads and stacks in use.
set_option Elab.async false

/-- A powered head that has counted 2^26 records in a ring of 2^25 and holds a key for RPJ_EXP_CMD. -/
def exportHead : State :=
  { State.reset with pins := { powered := true }, sec := { slots := [(0x2000, ⟨zeros 32, false, 0, false, false, 0⟩)] } }.setFld F.RPJ_RSEQ_COUNT (2 ^ 26)

/-- The register takes segment 2^17 for segment 0, which the ring has lost. -/
theorem exportHead_answers : ∃ t, exec (.exportCmd .referee 0 (2 ^ 17)) exportHead = .next t ∧ t.fld F.RPJ_EXP_RESULT_CODE = 2 :=
  ⟨_, rfl, by decide +kernel⟩

/-- Segment 2^17 is not yet written. -/
theorem exportHead_segBehind : exportHead.segBehind (2 ^ 17) = none := by decide +kernel

/-- Refutes O53: RPJ_EXP_CMD.SEGMENT is 17 bits wide, so a command for segment 2^17, which lies ahead of the newest record, is one of segment 0, and
answers code 2 where the statement has 3. -/
theorem not_journalCommandsTakeEffect : ¬ Obligations.JournalCommandsTakeEffect := by
  rintro ⟨-, h, -⟩
  obtain ⟨t, he, -, -, hans⟩ := h .referee 0 (2 ^ 17) exportHead (by decide +kernel) (by decide) (by decide) (by decide +kernel)
  obtain ⟨u, hu, hcode⟩ := exportHead_answers
  obtain rfl : t = u := by simpa using he.symm.trans hu
  have hloaded : exportHead.loaded (0x2000 + 0) = true := by decide +kernel
  rw [exportHead_segBehind, hloaded] at hans
  obtain ⟨-, -, -, hfields⟩ := hans
  exact absurd (hcode.symm.trans (hfields _ List.mem_cons_self)) (by decide)

end Sys2Proof.Machine
end

section
/-! PROOF. Heads of a pair: a takeover with a mirror entry that does not drain, groups that come while a cold start waits, a state message. -/
namespace Sys2Proof.Machine

-- The concrete runs are evaluated one after another, which bounds the threads and stacks in use.
set_option Elab.async false

/-- A powered head at reset with register fields set. -/
def headWith (l : List (Fld × Nat)) : State :=
  l.foldl (fun t p => t.setFld p.1 p.2) { State.reset with pins := { powered := true } }

/-- An instruction has one answer. -/
theorem answers_agree {c : Instr} {s : State} {P Q : State → Prop} (h : ∃ t, exec c s = .next t ∧ P t) (h' : ∃ t, exec c s = .next t ∧ Q t) :
    ∃ t, P t ∧ Q t := by
  obtain ⟨t, ht, hP⟩ := h
  obtain ⟨u, hu, hQ⟩ := h'
  obtain rfl : t = u := by simpa using ht.symm.trans hu
  exact ⟨t, hP, hQ⟩

/-! ### Takeover (R31-R35) -/

/-- A head in a takeover's step 4 whose mirror holds an entry of one slot, with no staging to drain it to. -/
def undrainedHead : State :=
  { headWith [(F.GLB_PAIR_STATUS_STATE, 3)] with pairSt := { takeover := 4 }, commit := { mentries := [{ seq := 1, volume := 0, slots := [0] }] } }

/-- The adoption waits in its step 5 for the entry. -/
theorem undrainedHead_waits : ∃ t, exec .takeoverAdopt undrainedHead = .next t ∧ t.pairSt.takeover = 5 := ⟨_, rfl, by decide +kernel⟩

/-- Refutes O9: with a mirror entry that no staging slot takes, the adoption stands in step 5 and is not over. -/
theorem not_partnerLineIsFollowed : ¬ Obligations.PartnerLineIsFollowed := by
  rintro ⟨-, -, -, h, -⟩
  obtain ⟨t, ⟨-, h0, -⟩, h5⟩ := answers_agree (h undrainedHead (by decide +kernel) rfl) undrainedHead_waits
  exact absurd (h0.symm.trans h5) (by decide)

/-! ### A cold start's replay (R36, R193) -/

/-- A head of a cold start alone whose journal 0 waits for group 1, with group 2 mirrored, and whose journal 1 is replayed. -/
def gapHead : State :=
  let s : State := { headWith [(F.GLB_PAIR_STATUS_STATE, stJoining), (F.GLB_PAIR_STATUS_EFMO_UP, 1)] with pairSt := { starting := 2, coldClaimed := true } }
  (s.modJnl 0 fun j => { j with replay := 2, mirrored := [⟨0, 2, [.dictUses 0 0]⟩] }).modJnl 1 fun j => { j with replay := 4 }

/-- With group 1 the replay is done, the head starts alone, and group 2 is applied. -/
theorem gapHead_applies : ∃ t, exec (.missingGroupsReply 0 [groupBytes 1 [.dictUses 0 0]]) gapHead = .next t ∧ (t.jnl 0).lastApplied = 2 :=
  ⟨_, rfl, by decide +kernel⟩

/-- Refutes O10: the group that ends a held replay may let a cold start go on, which applies the groups held from the partner; the last
group applied is then not the one that came. -/
theorem not_startsFromJoiningTakeEffect : ¬ Obligations.StartsFromJoiningTakeEffect := by
  rintro ⟨-, -, -, -, h, -⟩
  have hcame := h 0 ⟨0, 1, [.dictUses 0 0]⟩ gapHead rfl (by decide) rfl (by decide +kernel) (by decide +kernel) (by decide +kernel)
    (by decide +kernel) (by decide +kernel)
  obtain ⟨t, ⟨-, h1⟩, h2⟩ := answers_agree hcame gapHead_applies
  exact absurd (h1.symm.trans h2) (by decide)

/-! ### State messages (R36, R446) -/

/-- A head that hears its partner, whose PARTNER_STATE holds 9 in its three bits. -/
def wideStateHead : State :=
  let s := headWith [(F.GLB_PAIR_STATUS_STATE, 3), (F.GLB_PAIR_STATUS_EFMO_UP, 1)]
  { s with cells := s.cells.put F.GLB_PAIR_STATUS_PARTNER_STATE.key 9 }

/-- A report of the state that the register holds already leaves it. -/
theorem wideStateHead_keeps :
    ∃ t, exec (.stateMessage ⟨9, 0, 0, 0, false, 0, 0⟩) wideStateHead = .next t ∧ t.fld F.GLB_PAIR_STATUS_PARTNER_STATE = 9 :=
  ⟨_, rfl, by decide +kernel⟩

/-- Refutes O16: PARTNER_STATE is written only where it differs from the report, so a value that does not fit the field stays. -/
theorem not_partnerMessagesTakeEffect : ¬ Obligations.PartnerMessagesTakeEffect := by
  rintro ⟨-, -, -, h, -⟩
  have hreport := h ⟨9, 0, 0, 0, false, 0, 0⟩ wideStateHead rfl (by decide +kernel) rfl
  obtain ⟨t, ⟨-, h1, -⟩, h9⟩ := answers_agree hreport wideStateHead_keeps
  exact absurd (h1.symm.trans h9) (by decide)

end Sys2Proof.Machine
end

section
/-! PROOF. The Rows, dictionaries and the map-page cache: a content id of 0, a Stitch number in use, a Stitch whose dictionary is still to be
applied, and a cache full of pinned pages. -/
namespace Sys2Proof.Machine

-- The concrete runs are evaluated one after another, which bounds the threads and stacks in use.
set_option Elab.async false

/-! ### A new content id of 0 (R126, R145) -/

/-- A Stitch in DX. -/
def dxStitch : Stitch := { cls := 0, stage := stDX, engine := some 0 }

/-- That Stitch on a head with a Row of DX and CP, whose next content id is 0. -/
def zeroCidHead : State :=
  { headWith [(F.GLB_PAIR_STATUS_STATE, 3), (F.FTL_CID_NEXT_LO_NEXT 0, 0)] with
    rows := { stitches := [(1, dxStitch)], nextSid := 2 }
    pattern := { rows := [{ stages := [⟨stDX, [0], [0], [], []⟩, ⟨stCP, [0], [0], [], []⟩], classes := [0], stalled := false }] } }

/-- DX takes id 0, and CP, which it moves up to, takes 0 for none and gives the Stitch another. -/
theorem zeroCidHead_lookup : ((zeroCidHead.lookupDx 1 dxStitch).stitchAfter 1).map (·.cid) = some 1 := by decide +kernel

/-- The id that the clause names. -/
theorem zeroCidHead_takes : ((zeroCidHead.countLookup dxStitch).takeCid dxStitch.inst).map Prod.fst = some 0 := by decide +kernel

/-- Refutes O19: a Stitch that takes content id 0 at DX is given the next one on its way into CP. -/
theorem not_writeStagesMakeTheirOutput : ¬ Obligations.WriteStagesMakeTheirOutput := by
  rintro ⟨-, h, -⟩
  obtain ⟨⟨cid, gen, w⟩, htake, rfl⟩ := Option.map_eq_some_iff.mp zeroCidHead_takes
  obtain ⟨y, hy, hcid⟩ := Option.map_eq_some_iff.mp zeroCidHead_lookup
  obtain ⟨-, -, -, hany⟩ := h 1 0 gen dxStitch w zeroCidHead rfl (by decide +kernel) rfl rfl rfl (by decide) (by decide +kernel) (by decide +kernel)
    (by decide +kernel) htake
  rw [hy, Option.any_some, hcid] at hany
  exact absurd hany (by simp)

/-! ### A Stitch number in use (R109) -/

/-- A class 5 Stitch that waits. -/
def spentStitch : Stitch := { cls := 5, lba := 1 }

/-- A head whose GCM slot 0 is exhausted, whose next Stitch number is that of a Stitch in flight. -/
def takenSidHead : State :=
  { headWith [(F.GLB_PAIR_STATUS_STATE, 3)] with
    rows := { stitches := [(1, { cls := 5, lba := 2 })], nextSid := 1, waiting := [spentStitch] }
    sec := { slots := [(0x2000, ⟨zeros 32, true, 0, false, false, 0⟩)] } }

/-- Refutes O20: a Stitch turned away takes a number without standing among those in flight, where another may hold the number. -/
theorem not_rowsAdmitRepairAndTest : ¬ Obligations.RowsAdmitRepairAndTest := by
  rintro ⟨-, h, -⟩
  obtain ⟨-, -, -, -, -, hany⟩ := h 0 spentStitch takenSidHead rfl rfl (by decide +kernel)
  exact absurd hany (by decide +kernel)

/-! ### A dictionary still to be applied (R159) -/

/-- A head with dictionary 3 RETIRING and a Stitch before CP that CP will compress with it. -/
def heldDictHead : State :=
  { headWith [(F.GLB_PAIR_STATUS_STATE, 3)] with dram := [(0x20C0, 2)], rows := { waiting := [{ cls := 8, cpDict := (3, true) }] } }

theorem heldDictHead_free : ∃ t, exec (.dictFree 3) heldDictHead = .next t ∧ t.fld F.CMP_DICT_RESULT_CODE = 6 := ⟨_, rfl, by decide +kernel⟩

/-- Refutes O21: FREE answers 6 too while CP has a Stitch's dictionary still to apply, which the statement's users leave out. -/
theorem not_dictionaryCommandsAnswer : ¬ Obligations.DictionaryCommandsAnswer := by
  rintro ⟨-, -, h, -⟩
  have hfree := h 3 heldDictHead rfl (by decide) (by decide) (by decide +kernel) (by decide +kernel)
  obtain ⟨t, ⟨hans, -⟩, h6⟩ := answers_agree hfree heldDictHead_free
  obtain ⟨-, -, -, hfields⟩ := hans
  exact absurd (h6.symm.trans (hfields _ List.mem_cons_self)) (by decide +kernel)

/-! ### A cache full of pinned pages (R176) -/

/-- In a cache full of pinned pages a clean page that comes is the one that is evicted. -/
theorem State.pages_putPage_full (s : State) {p q : MapPage} (hq : q.pinned = true) (hwb : q.wb = .none)
    (hqp : q.is p.inst p.tree p.level p.ident = false) (hp : p.pinned = false) (hpwb : p.wb = .none) (hclean : p.dirty = false)
    (hfull : s.map.pages = List.replicate s.mpcPages q) : (s.putPage p).map.pages = List.replicate s.mpcPages q := by
  have hput : ∀ n, (List.replicate n q).filter (fun r => !(r.is p.inst p.tree p.level p.ident && r.loc == p.loc)) = List.replicate n q := fun n => by
    rw [List.filter_replicate, hqp]; rfl
  unfold State.putPage
  generalize hu : (State.recountMpc _) = u
  have hpages : u.map.pages = p :: List.replicate s.mpcPages q := by rw [← hu, ← hput, ← hfull]; rfl
  have hcap : u.mpcPages = s.mpcPages := by
    unfold State.mpcPages
    rw [← hu]
    simp only [State.recountMpc]
    rw [State.fld_setFld_ne _ _ (by decide), State.fld_setFld_ne _ _ (by decide)]
    rfl
  have hover : u.mpcPages < (u.map.pages.filter fun p => p.wb == .none).length := by
    rw [hpages, hcap]
    simp [hpwb, hwb]
  have hvictim : u.victimPage = some p := by
    rw [State.victimPage, hpages]
    simp [hq, hp, hpwb]
  rw [State.trimPages, if_pos hover, hvictim]
  simp only [hclean, Bool.false_eq_true, if_false]
  change (u.map.pages.filter _) = _
  rw [hpages, List.filter_cons_of_neg (by simp [MapPage.is]), hput]

/-- A pinned page of another tree, and a fetch of leaf 4 of tree 2. -/
def pinnedPage : MapPage := { newPage 1 1 2 7 0 with dirty := false }
def leafFetch : PageFetch := { inst := 0, tree := 2, level := 0, ident := 4, loc := 0x500, ops := [], rebuilt := false }

/-- A head with that fetch out and some pages in its map-page cache of 2^18. -/
def cacheHead (l : List MapPage) : State := { headWith [(F.GLB_PAIR_STATUS_STATE, 3)] with map := { fetches := [leafFetch], pages := l } }

theorem cacheHead_mpcPages (l : List MapPage) : (cacheHead l).mpcPages = 2 ^ 18 := by
  change (cacheHead []).mpcPages = _
  decide +kernel

/-- The page that is fetched does not stay. -/
theorem pages_pageArrived_full (w : State) (h : w.map.pages = List.replicate w.mpcPages pinnedPage) (b : Bytes) :
    (w.pageArrived leafFetch b).map.pages = List.replicate w.mpcPages pinnedPage := by
  rw [State.pageArrived, show leafFetch.ops = [] from rfl, List.foldl_nil, List.foldl_nil, State.count64_map]
  generalize pageWords b = words
  exact w.pages_putPage_full rfl rfl rfl rfl rfl rfl h

/-! ### The page's bytes (R101, R175) -/

theorem crcBitsR_lt {poly w : Nat} (hp : poly < 2 ^ w) (n : Nat) : ∀ {c : Nat}, c < 2 ^ w → crcBitsR poly n c < 2 ^ w := by
  induction n with
  | zero => exact id
  | succ n ih =>
    intro c hc
    refine ih ?_
    unfold crcBitR
    split
    · exact Nat.xor_lt_two_pow (by omega) hp
    · omega

theorem crcRefl_lt {poly init w : Nat} (hp : poly < 2 ^ w) (hi : init < 2 ^ w) (hw : 8 ≤ w) (b : Bytes) : crcRefl poly init b < 2 ^ w := by
  unfold crcRefl
  induction b generalizing init with
  | nil => exact hi
  | cons x b ih => exact ih (crcBitsR_lt hp 8 (Nat.xor_lt_two_pow hi (Nat.lt_of_lt_of_le x.isLt (Nat.pow_le_pow_right (by decide) hw))))

theorem carryGuard_lt (b : Bytes) : carryGuard b < 2 ^ 64 :=
  Nat.xor_lt_two_pow (crcRefl_lt (by decide) (by decide) (by decide) b) (by decide)

theorem leNat_leBytes (n v : Nat) : leNat (leBytes n v) = v % 256 ^ n := by
  induction n generalizing v with
  | zero => rw [Nat.pow_zero, Nat.mod_one]; rfl
  | succ n ih =>
    have hmod : v % 256 ^ (n + 1) = v % 256 + 256 * (v / 256 % 256 ^ n) := by rw [Nat.pow_succ', Nat.mod_mul]
    rw [leBytes, leNat, ih, BitVec.toNat_ofNat, hmod]

theorem slice_append_add (a b : Bytes) (off n : Nat) : slice (a ++ b) (a.length + off) n = slice b off n := by
  rw [slice, List.drop_length_add_append]
  rfl

theorem zeros_length (n : Nat) : (zeros n).length = n := List.length_replicate

/-- The headers of leaf 4 of tree 2 after the page's guard, and the page with them. -/
def leafTail : Bytes := (metaHeaders 2 2 0 4 []).drop 8
def leafBytes : Bytes := zeros 4096 ++ (leBytes 8 (carryGuard (zeros 4096)) ++ leafTail)

theorem slice_leafBytes (k : Nat) : slice leafBytes (4096 + 16 * k + 8) 8 = slice leafTail (16 * k) 8 := by
  have h := slice_append_add (zeros 4096) (leBytes 8 (carryGuard (zeros 4096)) ++ leafTail) (16 * k + 8) 8
  rw [zeros_length, ← Nat.add_assoc] at h
  have h8 := slice_append_add (leBytes 8 (carryGuard (zeros 4096))) leafTail (16 * k) 8
  rw [leBytes_length, Nat.add_comm 8] at h8
  exact h.trans h8

theorem guard_leafBytes : leNat (slice leafBytes 4096 8) = carryGuard (leafBytes.take 4096) := by
  have h := slice_append_add (zeros 4096) (leBytes 8 (carryGuard (zeros 4096)) ++ leafTail) 0 8
  rw [zeros_length] at h
  rw [leafBytes, h, slice, List.drop_zero, List.take_left' (leBytes_length _ _), List.take_left' (zeros_length _), leNat_leBytes]
  exact Nat.mod_eq_of_lt (carryGuard_lt _)

theorem pageChecks_leafBytes : pageChecks 2 0 4 leafFetch.index leafBytes = true := by
  have hlen : leafBytes.length = 4224 := by
    rw [leafBytes, List.length_append, List.length_append, zeros_length, leBytes_length]
    decide +kernel
  unfold pageChecks
  simp only [slice_leafBytes, hlen, guard_leafBytes, beq_self_eq_true, Bool.and_true]
  decide +kernel

/-- Refutes O22: a page that comes into a cache full of pinned pages is evicted at once. -/
theorem not_mapCommandsTakeEffect : ¬ Obligations.MapCommandsTakeEffect := by
  rintro ⟨h, -⟩
  generalize hl : List.replicate (2 ^ 18) pinnedPage = l
  obtain ⟨-, -, -, -, hany⟩ := h 0 2 0 4 leafBytes leafFetch (cacheHead l) rfl pageChecks_leafBytes rfl rfl rfl
  generalize hw : (cacheHead l).modMap _ = w at hany
  have hcap : w.mpcPages = 2 ^ 18 := hw ▸ cacheHead_mpcPages l
  have hpages : w.map.pages = List.replicate w.mpcPages pinnedPage := by rw [hcap, hl, ← hw]; rfl
  rw [pages_pageArrived_full w hpages, List.any_replicate] at hany
  split at hany
  · exact absurd hany (by decide)
  · exact absurd hany (by decide +kernel)

end Sys2Proof.Machine
end

section
/-! PROOF. Modules, cuts and host commands: states in which a clause of the statement is not what the instruction does. -/
namespace Sys2Proof.Machine

-- The concrete runs are evaluated one after another, which bounds the threads and stacks in use.
set_option Elab.async false

/-! ### A discarded frame that is not counted (R219, R220) -/

/-- A head with module 3's port up and a discard count that does not fit its field. -/
def wideDiscardHead : State :=
  let s := headWith [(F.MED_PORT_STATUS_UP 3, 1)]
  { s with cells := s.cells.put F.MED_ERR_COUNTS_DISCARDS.key (2 ^ 16) }

/-- A frame too short to have a header leaves the count. -/
theorem wideDiscardHead_keeps :
    ∃ t, exec (.purlFrameDiscard 3 [[]]) wideDiscardHead = .next t ∧ t.fld F.MED_ERR_COUNTS_DISCARDS = 2 ^ 16 := ⟨_, rfl, by decide +kernel⟩

/-- Refutes O24: a discard that is not counted does not bound the count. -/
theorem not_portsTrainReplayAndRecover : ¬ Obligations.PortsTrainReplayAndRecover := by
  rintro ⟨-, -, -, -, h, -⟩
  have hnak := h 3 [] false wideDiscardHead rfl (by decide) (by decide +kernel) (by decide +kernel) (by decide +kernel)
  obtain ⟨t, ⟨-, -, hbound⟩, hkept⟩ := answers_agree hnak wideDiscardHead_keeps
  exact absurd (hkept.symm.trans hbound) (by decide +kernel)

/-! ### A die fault under the replay ring (R230, R236, R450) -/

/-- A head whose replay ring lies over the STR region and journals the interrupts. -/
def journaledAlertHead : State := headWith [({ F.MED_ISR_ALERT with off := F.MED_ISR_ALERT.off + 4 }, 1), (F.RPJ_CTRL_TYPE_MASK, 8)]

/-- The byte of a replay record that holds its type (R453). -/
theorem State.memGet_putRecord_type (s : State) (n type inst payload : Nat) :
    memGet (s.putRecord n type inst payload).dram (s.recordAddr n + 8) = BitVec.ofNat 8 type :=
  memGet_memWrite_in _ (s.recordAddr n) (leBytes 8 s.stamp ++ leBytes 1 type ++ leBytes 1 (inst % 2) ++ leBytes 2 (s.free 16).1 ++ leBytes 4 n ++
    leBytes 16 payload) 8 (by simp [leBytes])

/-- What an interrupt's record writes: the ring's first record, with the type of an interrupt. -/
theorem journaledAlertHead_records : ∃ (u : State) (payload : Nat), journaledAlertHead.alertLast 0 2 66 = u.putRecord 0 4 0 payload ∧ u.recordAddr 0 = 0 ∧ u.strBase = 0 := by
  rw [State.alertLast, State.raise, if_pos (by decide +kernel), State.record, if_neg (by decide +kernel), if_neg (by decide +kernel),
    if_neg (by decide +kernel), if_neg (by decide +kernel)]
  exact ⟨_, _, rfl, by decide +kernel, by decide +kernel⟩

/-- The record of the alert sets the die's bit before the fault does. -/
theorem journaledAlertHead_failed : (journaledAlertHead.alertLast 0 2 66).dieFailed 0 66 = true := by
  obtain ⟨u, payload, hrec, haddr, hbase⟩ := journaledAlertHead_records
  have hbyte : memGet (u.putRecord 0 4 0 payload).dram 8 = 4 := by simpa [haddr] using u.memGet_putRecord_type 0 4 0 payload
  have hstr : (u.putRecord 0 4 0 payload).strBase = 0 := hbase
  rw [hrec, State.dieFailed, hstr, State.rdN, State.rd, memRead, memRead, hbyte]
  decide

theorem journaledAlertHead_silent :
    ∃ t, exec (.alertDieFault 0 66) journaledAlertHead = .next t ∧ t.fld F.STR_ISR_DIE_FAILED = 0 := by
  refine ⟨_, rfl, ?_⟩
  rw [State.dieFault, if_pos journaledAlertHead_failed]
  decide +kernel

/-- Refutes O25: a die whose bit the replay ring's record sets first raises no DIE_FAILED. -/
theorem not_alertsAndAbsenceMoveModules : ¬ Obligations.AlertsAndAbsenceMoveModules := by
  rintro ⟨-, h, -⟩
  have hfault := h 0 66 journaledAlertHead rfl (by decide) (by decide) (by decide +kernel)
  obtain ⟨t, ⟨-, -, h1, -⟩, h0⟩ := answers_agree hfault journaledAlertHead_silent
  exact absurd (h1.symm.trans h0) (by decide)

/-! ### A reconstruction that met a bad codeword (R247, R248) -/

/-- A reconstruction whose one asked codeword decoded badly and whose stripe is solved without it. -/
def badRecon : ReconSt := { sb := 0, stripe := 0, want := 0, budget := 6, asked := [1], bad := [1], good := [], purpose := .selfTest }
def badReconHead : State := { headWith [(F.GLB_PAIR_STATUS_STATE, 3)] with media := { recons := [badRecon] } }

/-- Refutes O26: a reconstruction counts its bad codewords beside the wanted one. -/
theorem not_operationsEndAndReadsReturn : ¬ Obligations.OperationsEndAndReadsReturn := by
  rintro ⟨-, -, -, -, h, -⟩
  obtain ⟨-, -, -, -, -, hcount⟩ := h 0 0 0 badRecon [] badReconHead rfl (by decide +kernel) (by decide +kernel) (by decide +kernel)
  exact absurd hcount (by decide +kernel)

/-! ### A volume table under the snapshot table (R264, R267) -/

/-- A set that cuts volume 0 into snapshot 0 now. -/
def overlaidSet : CutSet := { id := 7, edge := 0, cuts := [(0, 0)], mirrored := false, phase := 0, guard := false }

/-- A head whose snapshot table lies over its volume table, with a commit sequence number whose byte 3 is the VALID bit of volume 0. -/
def overlaidHead : State :=
  { headWith [(F.GLB_PAIR_STATUS_STATE, 3)] with snp := { sets := [overlaidSet] }, dram := [(0x20000004, 1)], commit := { lastSeq := (2 ^ 24, 0) } }

/-- The volume is not valid at the edge, and the set ends. -/
theorem overlaidHead_ends : ∃ t, exec (.cutEdge 7) overlaidHead = .next t ∧ t.snp.sets = [] := ⟨_, rfl, by decide +kernel⟩

/-- Refutes O28: a volume is tested as it was before the stamps are written, which may make it valid. -/
theorem not_cutsAndReplicationMessagesTakeEffect : ¬ Obligations.CutsAndReplicationMessagesTakeEffect := by
  rintro ⟨-, -, h, -⟩
  have hedge := h 7 overlaidSet overlaidHead rfl (by decide +kernel) rfl (by decide +kernel) (by decide +kernel)
  obtain ⟨t, ⟨hsnp, -⟩, hends⟩ := answers_agree hedge overlaidHead_ends
  rw [hsnp] at hends
  exact absurd (congrArg List.length hends) (by decide)

/-! ### A Flush on a shut TCP queue, and behind a forwarded piece (R16, R303) -/

/-- A Flush of namespace 1. -/
def flushCmd : HostCmd := ⟨.flush, 5, 1, 0, 1, 0, true, 0, [], true, true, false, 0, 0, [], []⟩

/-- Queue 1, live and of NVMe/TCP, of namespace 1 of volume 0. -/
def tcpTables : List Host.Cell := [(2, 1), (3, 2), (8, 1), (0x13, 1), (0x10004C, 1), (0x10004E, 1), (0x100059, 0x10), (0x500000, 1)]

/-- A head whose NVMe/TCP share is 0. -/
def shutTcpHead : State := { headWith [(F.GLB_PAIR_STATUS_STATE, 3), (F.NVQ_CTRL_ENABLE, 1), (F.NVQ_TCP_CFG_LIMIT_PCT, 0)] with dram := tcpTables }

theorem shutTcpHead_stays : ∃ t, exec (.commandFetch 1 flushCmd false true) shutTcpHead = .next t ∧ t.commit.waiting.length = 0 :=
  ⟨_, rfl, by decide +kernel⟩

/-- Refutes O29: nothing is fetched from an NVMe/TCP queue that is shut. -/
theorem not_hostCommandsAreTakenAndEnd : ¬ Obligations.HostCommandsAreTakenAndEnd := by
  rintro ⟨h, -⟩
  have hfetch := h 1 flushCmd shutTcpHead rfl (by decide) (.inl rfl) (by decide +kernel) (by decide +kernel) (by decide +kernel)
    (by decide +kernel) (by decide) (by decide +kernel) (by decide +kernel) (by decide +kernel) (by decide +kernel) (by decide +kernel)
  obtain ⟨t, ⟨-, h1, -⟩, h0⟩ := answers_agree hfetch shutTcpHead_stays
  exact absurd (h1.symm.trans h0) (by decide)

/-- A head that hears its partner, with a piece of a forwarded write of queue 1 that waits for room. -/
def pieceHead : State :=
  { headWith [(F.GLB_PAIR_STATUS_EFMO_UP, 1), (F.GLB_PAIR_STATUS_STATE, 3)] with
    dram := tcpTables, commit := { pieces := [⟨{ flushCmd with op := .write }, ⟨1, 4, 0, true⟩, 0, 0, 1⟩] } }

theorem pieceHead_waits : ∃ t, exec (.forwardedCommand 1 flushCmd) pieceHead = .next t ∧ t.commit.waiting.length = 0 := ⟨_, rfl, by decide +kernel⟩

/-- Refutes O30: a forwarded command stands behind the pieces of an earlier one of its queue. -/
theorem not_forwardedCommandsMoveOn : ¬ Obligations.ForwardedCommandsMoveOn := by
  rintro ⟨h, -⟩
  have htaken := h 1 flushCmd pieceHead rfl (by decide +kernel) rfl rfl (by decide +kernel)
  obtain ⟨t, ⟨hcommit, -⟩, h0⟩ := answers_agree htaken pieceHead_waits
  rw [hcommit] at h0
  exact absurd h0 (by decide)

/-! ### An EXPORT while its queue pair waits out an RNR timer (R308, R414) -/

theorem cutBytes_ne_nil (n : Nat) {k : Nat} (hk : 0 < k) (b : Bytes) : cutBytes n k b ≠ [] := by
  cases k with
  | zero => omega
  | succ k => rw [cutBytes]; split <;> simp

theorem dataPkts_ne_nil (q : Qp) (op : RoceOp) (imm : Option Nat) (va rkey : Nat) {data : Bytes} (h : 0 < data.length) :
    dataPkts q op imm va rkey data ≠ [] := by
  have hcut := cutBytes_ne_nil (pmtuBytes q) h data
  simp only [dataPkts, ne_eq, List.map_eq_nil_iff, List.zipIdx_eq_nil_iff]
  exact hcut

theorem frameBytes_length_pos (guard dict tag : Nat) (raw : Bool) (body : Bytes) : 0 < (frameBytes guard dict tag raw body).length := by
  simp [frameBytes, leBytes]

/-- A queue pair of tenant 0 that waits out an RNR timer. -/
def rnrQp : Qp :=
  { cls := 1, tenant := 0, port := 0, dest := 77, pmtu := 1, retry := 3, rnrRetry := 3, sqSize := 16, rqSize := 0, srq := 0, scq := 1, rcq := 1,
    sqAddr := 0x4000, rqAddr := 0, state := 1, sqPsn := 100, rqPsn := 200, retriesLeft := 2, rnrLeft := 1, rc := 1000, rt := 2000, alpha := 65536,
    rnrWait := true }

def rnrHead : State :=
  { headWith [(F.GLB_PAIR_STATUS_STATE, 3), (F.MTF_SLOT_STATUS_STATE 0, 2)] with rdt := { qps := [(5, rnrQp)] } }

/-- Its packets go with those sent again. -/
theorem rnrHead_sends_nothing (block : Bytes) : (rnrHead.shellSend 0 5 block).sent = rnrHead.sent := by
  rw [State.shellSend, show (rnrHead.qp? 5).filter _ = some rnrQp by decide +kernel]
  rfl

/-- Refutes O49: an EXPORT on a queue pair that waits out an RNR timer sends nothing yet. -/
theorem not_slotFaultsAndPortsTakeEffect : ¬ Obligations.SlotFaultsAndPortsTakeEffect := by
  rintro ⟨-, -, -, -, -, -, -, -, -, -, h⟩
  obtain ⟨-, -, -, hsent, -⟩ := h 0 5 [] rnrQp rnrHead rfl (by decide +kernel) ⟨by decide +kernel, by decide⟩ (by decide +kernel) rfl (by decide +kernel) rfl
  rw [rnrHead_sends_nothing] at hsent
  exact dataPkts_ne_nil _ _ _ _ _ (frameBytes_length_pos ..) (by simpa using hsent)

end Sys2Proof.Machine
end

section
/-! PROOF. Keys wrapped, cleared and phased (R350); alarms and zeroisation, the DRBG and dual compute (R364-R371). -/
namespace Sys2Proof.Machine

/-! ### WRAP, CLEAR, QUERY and SET_PHASE (R350) -/

theorem State.inRing_keyBegun (s : State) (op slot a : Nat) : (s.keyBegun op slot).inRing a ↔ s.inRing a :=
  State.inRing_congr (fun g hg => by
    have hne : ∀ f : Fld, f.blk = 0x05 → g.key ≠ f.key := fun f hf => Fld.key_ne_of_blk (by omega)
    rw [State.keyBegun, State.fld_resStart_ne _ _ (hne _ (by decide)) (hne _ (by decide)), State.fld_setFld_ne _ _ (hne _ (by decide)),
      State.fld_setFld_ne _ _ (hne _ (by decide))]) a

theorem State.inRing_wr (s : State) (b : Nat) (l : Bytes) (a : Nat) : (s.wr b l).inRing a ↔ s.inRing a := Iff.rfl

theorem State.kekSlot_keyBegun (s : State) (op slot : Nat) : (s.keyBegun op slot).kekSlot = s.kekSlot := by
  rw [State.kekSlot, s.fld_keyBegun op slot (by decide)]
  rfl

theorem State.keyAddr_keyBegun (s : State) (op slot : Nat) : (s.keyBegun op slot).keyAddr = s.keyAddr := by
  rw [State.keyAddr, State.base, s.fld_keyBegun op slot (by decide), s.fld_keyBegun op slot (by decide)]
  rfl

theorem State.linkUses_keyBegun (s : State) (op slot : Nat) : (s.keyBegun op slot).linkUses slot = s.linkUses slot := by
  have hbase : (s.keyBegun op slot).snpBase = s.snpBase := by
    rw [State.snpBase, State.base, s.fld_keyBegun op slot (by decide), s.fld_keyBegun op slot (by decide)]
    rfl
  unfold State.linkUses
  rw [hbase]
  rfl

/-- What WRAP leaves after the wrapped bytes are written. -/
theorem State.answered_begun_wr (s : State) (op slot a : Nat) (b : Bytes) {code : Nat} (hc : code < 16) :
    s.Answered (((s.keyBegun op slot).wr a b).keyDone slot code) keyRes [(F.SEC_KEY_RESULT_CODE, code)] :=
  ((((s.keyBegun op slot).wr a b).keyDone_spec slot hc).1.subset (by simp)).of_seq (s.fld_seq_keyBegun op slot)

/-- A cleared slot is EMPTY, its count 0, and no CLEAR waits. -/
theorem State.clearSlot_spec (s : State) (slot : Nat) :
    (s.clearSlot slot).slot? slot = none ∧ (s.clearSlot slot).slotCount slot = 0 ∧ (s.clearSlot slot).sec.clearing = none ∧
      (∀ n, n ≠ slot → (s.clearSlot slot).slot? n = s.slot? n) ∧ (s.clearSlot slot).pins = s.pins ∧
      s.Answered (s.clearSlot slot) keyRes [(F.SEC_KEY_RESULT_CODE, 0)] := by
  unfold State.clearSlot
  generalize hu : (s.modSec fun k => { k with slots := k.slots.del slot, clearing := none }) = u
  have hunits := (u.setCount slot 0).sameUnits_keyDone slot 0
  have hslots : (u.setCount slot 0).sec.slots = s.sec.slots.del slot := hu ▸ rfl
  refine ⟨?_, ?_, ?_, fun n hn => ?_, hunits.pins.trans (hu ▸ rfl), ?_⟩
  · rw [hunits.slot?, State.slot?, hslots, Tbl.get?_del_same]
  · rw [State.slotCount, hunits.sec]
    exact u.slotCount_setCount_zero slot
  · rw [hunits.sec, ← hu]
    rfl
  · rw [hunits.slot?, State.slot?, hslots, Tbl.get?_del_ne _ hn]
    rfl
  · exact (((u.setCount slot 0).keyDone_spec slot (code := 0) (by decide)).1.subset (by simp)).of_seq (hu ▸ rfl)

section
variable {s : State} {slot : Nat} (hbusy : s.flag F.SEC_KEY_CMD_BUSY = false) (hz : s.sec.zeroised = false)
include hbusy hz

theorem exec_keyWrap (hkind : slotKind slot ≠ .none) (hkek : slotKind slot ≠ .kek) {k : KeySlot} {kek : Bytes} (hslot : s.slot? slot = some k)
    (hk : s.keyOf s.kekSlot = some kek) (hexp : k.exportable = true) :
    exec (.keyWrap .referee slot) s = .next (s.live (((s.keyBegun 3 slot).wr s.keyAddr (keyWrap kek k.key)).keyDone slot 0)) := by
  have hkey : (s.keyBegun 3 slot).keyOf (s.keyBegun 3 slot).kekSlot = some kek := by rw [s.kekSlot_keyBegun]; exact hk
  change (Host.Outcome.next (s.live (s.keyStart .referee 3 slot _)) : Result) = _
  rw [State.keyStart_of_referee hbusy 3 slot _ hz (.inr hkind), if_neg hkek, show (s.keyBegun 3 slot).slot? slot = some k from hslot, hkey]
  dsimp only
  rw [hexp, s.keyAddr_keyBegun]
  rfl

theorem exec_keyClear (hkind : slotKind slot ≠ .none) (hphase : ¬ (slotKind slot = .xts ∧ slot % 2 = s.encPhase (slot / 2)))
    (hlink : ¬ (slotKind slot = .gcm ∧ s.linkUses slot = true)) :
    exec (.keyClear .referee slot) s = .next (s.live (if s.stitchUses slot then
      ((s.keyBegun 4 slot).modSec fun k => { k with clearing := some slot }).setFld F.SEC_KEY_CMD_BUSY 1 else (s.keyBegun 4 slot).clearSlot slot)) := by
  rw [← s.linkUses_keyBegun 4 slot] at hlink
  change (Host.Outcome.next (s.live (s.keyStart .referee 4 slot _)) : Result) = _
  rw [State.keyStart_of_referee hbusy 4 slot _ hz (.inr hkind),
    if_neg (show ¬ (slotKind slot = .xts ∧ slot % 2 = (s.keyBegun 4 slot).encPhase (slot / 2)) from hphase), if_neg hlink]
  rfl

theorem exec_keyQuery (hkind : slotKind slot ≠ .none) :
    exec (.keyQuery .referee slot) s = .next (s.live (((s.keyBegun 5 slot).reportCheck slot).keyDone slot 0)) := by
  change (Host.Outcome.next (s.live (s.keyStart .referee 5 slot _)) : Result) = _
  rw [State.keyStart_of_referee hbusy 5 slot _ hz (.inr hkind)]

theorem exec_setPhase (hkind : slotKind slot = .xts) (hload : s.loaded slot = true) :
    exec (.setPhase .referee slot) s = .next (s.live (((s.keyBegun 6 slot).setEncPhase (slot / 2) (slot % 2)).keyDone slot 0)) := by
  change (Host.Outcome.next (s.live (s.keyStart .referee 6 slot _)) : Result) = _
  rw [State.keyStart_of_referee hbusy 6 slot _ hz (.inr (by rw [hkind]; decide)), if_neg (by rw [hkind]; decide),
    show (s.keyBegun 6 slot).loaded slot = true from hload]
  rfl

theorem exec_keyReservedOp (op : Nat) :
    exec (.keyReservedOp .referee op slot) s = .next (s.live ((s.keyBegun (max 7 op) slot).keyDone slot 7)) := by
  change (Host.Outcome.next (s.live (s.keyStart .referee (max 7 op) slot _)) : Result) = _
  rw [State.keyStart_of_referee hbusy (max 7 op) slot _ hz (.inl (by omega))]

end

theorem State.encPhase_setEncPhase (s : State) (d : Nat) {p : Nat} (hp : p < 2) : (s.setEncPhase d p).encPhase d = p := by
  have hnot : d ∉ s.sec.phases.filter fun x => x != d := by simp
  unfold State.encPhase State.setEncPhase
  by_cases h : p = 1
  · simp [h, State.modSec]
  · have h0 : p = 0 := by omega
    simp [h0, State.modSec]

/-- Settles O41: each command begins, does its one thing and ends with its code. -/
theorem keysAreWrappedClearedAndPhased : Obligations.KeysAreWrappedClearedAndPhased := by
  refine ⟨fun slot k kek s hon hrange hbusy hz hkind hkek hslot hk hexp => ?_, fun slot s hon hrange hbusy hz hkind hphase hlink => ?_,
    fun slot s hon hclearing huses => ?_, fun slot s hon hrange hbusy hz hkind => ?_, fun slot s hon hrange hbusy hz hkind hload => ?_,
    fun op slot s hon hbusy hz => ?_⟩
  · have hunits := ((s.keyBegun 3 slot).wr s.keyAddr (keyWrap kek k.key)).sameUnits_keyDone slot 0
    rw [exec_keyWrap hbusy hz hkind hkek hslot hk hexp, State.next_live_eq hon hunits.pins]
    exact ⟨_, rfl, hunits.sec, s.answered_begun_wr 3 slot _ _ (by decide), fun a ha => State.memGet_keyDone _ _ _ fun h => ha ((s.inRing_keyBegun 3 slot a).mp ((State.inRing_wr _ _ _ a).mp h))⟩
  · rw [exec_keyClear hbusy hz hkind hphase hlink]
    cases huses : s.stitchUses slot with
    | false =>
      obtain ⟨hnone, hcount, -, hothers, hpins, hans⟩ := (s.keyBegun 4 slot).clearSlot_spec slot
      rw [if_neg (by decide), State.next_live_eq hon hpins]
      exact ⟨_, rfl, hothers, fun _ => ⟨hnone, hcount, hans.of_seq (s.fld_seq_keyBegun 4 slot)⟩, fun h => absurd h (by decide)⟩
    | true =>
      rw [if_pos rfl, State.next_live_eq hon (by rfl)]
      exact ⟨_, rfl, fun _ _ => rfl, fun h => absurd h (by decide), fun _ => ⟨rfl, State.fld_setFld_same _ _ 1, rfl⟩⟩
  · obtain ⟨hnone, -, hcl, -, hpins, hans⟩ := s.clearSlot_spec slot
    have he : exec .keyClearRetired s = .next (s.live (s.clearSlot slot)) := by
      change (Host.Outcome.next (s.live (match s.sec.clearing with | some slot => if s.stitchUses slot then s else s.clearSlot slot | none => s)) : Result) = _
      rw [hclearing]
      dsimp only
      rw [huses]
      rfl
    rw [he, State.next_live_eq hon hpins]
    exact ⟨_, rfl, hnone, hcl, hans⟩
  · obtain ⟨hregs, hfld⟩ := (s.keyBegun 5 slot).reportCheck_frame slot
    have hunits := hregs.sameUnits.trans (((s.keyBegun 5 slot).reportCheck slot).sameUnits_keyDone slot 0)
    rw [exec_keyQuery hbusy hz hkind, State.next_live_eq hon hunits.pins]
    refine ⟨_, rfl, hunits.sec, ?_⟩
    have hstate : ((s.keyBegun 5 slot).reportCheck slot).slotState slot = s.slotState slot := hregs.sameUnits.slotState slot
    exact hstate ▸ (((s.keyBegun 5 slot).reportCheck slot).keyDone_spec slot (code := 0) (by decide)).1.of_seq
      ((hfld _ (by decide)).trans (s.fld_seq_keyBegun 5 slot))
  · have hunits := ((s.keyBegun 6 slot).setEncPhase (slot / 2) (slot % 2)).sameUnits_keyDone slot 0
    rw [exec_setPhase hbusy hz hkind hload, State.next_live_eq hon hunits.pins]
    refine ⟨_, rfl, ?_, by rw [hunits.sec]; rfl, (State.keyDone_spec _ slot (by decide)).1.subset (by simp) |>.of_seq (s.fld_seq_keyBegun 6 slot)⟩
    rw [State.encPhase, hunits.sec]
    exact State.encPhase_setEncPhase _ _ (Nat.mod_lt _ (by decide))
  · rw [exec_keyReservedOp hbusy hz op, State.next_live_eq hon (s.units_begun_done (max 7 op) slot 7).pins]
    exact ⟨_, rfl, (s.units_begun_done (max 7 op) slot 7).sec, s.answered_begun_code (max 7 op) slot (by decide)⟩

end Sys2Proof.Machine
end

section
/-! SUPPORT. Which of some named register fields an operation leaves as they were. -/
namespace Sys2Proof.Machine

/-- The fields of l read in t as in s. -/
def State.Keeps (l : List Fld) (s t : State) : Prop := ∀ g ∈ l, t.fld g = s.fld g

/-- Is none of the fields of l the field f, or one of RPJ? -/
def apartFrom (f : Fld) (l : List Fld) : Bool := l.all fun g => decide (g.key ≠ f.key) && decide (g.blk ≠ 0x18)

theorem apartFrom_spec {f : Fld} {l : List Fld} (h : apartFrom f l = true) {g : Fld} (hg : g ∈ l) : g.key ≠ f.key ∧ g.blk ≠ 0x18 := by
  have := List.all_eq_true.mp h g hg
  simpa using this

section
variable {l : List Fld} {s t u : State}

theorem State.Keeps.refl (l : List Fld) (s : State) : s.Keeps l s := fun _ _ => rfl

theorem State.Keeps.trans (h : s.Keeps l t) (k : t.Keeps l u) : s.Keeps l u := fun g hg => (k g hg).trans (h g hg)

theorem State.Keeps.of_cells (h : t.cells = s.cells) : s.Keeps l t := fun _ _ => State.fld_of_cells h _

theorem State.Keeps.ite {c : Prop} [Decidable c] (ht : s.Keeps l t) (hu : s.Keeps l u) : s.Keeps l (if c then t else u) := by
  split
  · exact ht
  · exact hu

theorem State.Keeps.foldl {α : Type} {f : State → α → State} {r : List α} (h : ∀ (t : State), ∀ a ∈ r, t.Keeps l (f t a)) (s : State) :
    s.Keeps l (r.foldl f s) := by
  induction r generalizing s with
  | nil => exact .refl l s
  | cons a r ih =>
    exact (h s a List.mem_cons_self).trans (ih (fun t b hb => h t b (List.mem_cons_of_mem _ hb)) _)

theorem State.keeps_setFld (s : State) {f : Fld} (v : Nat) (h : apartFrom f l = true) : s.Keeps l (s.setFld f v) :=
  fun _ hg => s.fld_setFld_ne v (apartFrom_spec h hg).1

theorem State.keeps_inc (s : State) {f : Fld} (n : Nat) (h : apartFrom f l = true) : s.Keeps l (s.inc f n) := s.keeps_setFld _ h

theorem State.keeps_setPair (s : State) {lo hi : Fld} (v : Nat) (h : (apartFrom lo l && apartFrom hi l) = true) : s.Keeps l (s.setPair lo hi v) := by
  obtain ⟨h1, h2⟩ := Bool.and_eq_true_iff.mp h
  exact fun g hg => s.fld_setPair_ne v (apartFrom_spec h1 hg).1 (apartFrom_spec h2 hg).1

theorem State.keeps_raise (s : State) {f : Fld} (h : apartFrom f l = true) : s.Keeps l (s.raise f) :=
  fun _ hg => s.fld_raise_ne (apartFrom_spec h hg).1 (apartFrom_spec h hg).2

theorem State.keeps_resStart (s : State) {off : Nat} (h : (apartFrom (resValid off) l && apartFrom (resSeen off) l) = true) :
    s.Keeps l (s.resStart off) := by
  obtain ⟨h1, h2⟩ := Bool.and_eq_true_iff.mp h
  exact fun g hg => s.fld_resStart_ne off (apartFrom_spec h1 hg).1 (apartFrom_spec h2 hg).1

/-- Is none of the fields of l one that an answer in the result register at off writes? -/
def apartFromResult (off : Nat) (fs : List Fld) (l : List Fld) : Bool :=
  (resValid off :: resSeen off :: resSeq off :: fs).all fun f => apartFrom f l

theorem State.keeps_setAll (s : State) {r : List (Fld × Nat)} (fs : List Fld) (hfs : r.map Prod.fst = fs) (h : fs.all (fun f => apartFrom f l) = true) :
    s.Keeps l (r.foldl (fun t p => t.setFld p.1 p.2) s) :=
  .foldl (fun t p hp => t.keeps_setFld p.2 (List.all_eq_true.mp h p.1 (hfs ▸ List.mem_map_of_mem hp))) s

theorem State.keeps_resDone (s : State) {off : Nat} {r : List (Fld × Nat)} (fs : List Fld) (hfs : r.map Prod.fst = fs) (h : apartFromResult off fs l = true) :
    s.Keeps l (s.resDone off r) := by
  simp only [apartFromResult, List.all_cons, Bool.and_eq_true] at h
  obtain ⟨h1, h2, h3, h4⟩ := h
  exact fun g hg => (s.fld_resDone_ne off (apartFrom_spec h1 hg).1 (apartFrom_spec h2 hg).1 (apartFrom_spec h3 hg).1 r).trans (s.keeps_setAll fs hfs h4 g hg)

theorem State.keeps_logEvent (s : State) (code block severity detail : Nat) (h : ∀ g ∈ l, g.blk ≠ 0x18) :
    s.Keeps l (s.logEvent code block severity detail) := fun g hg => s.fld_logEvent code block severity detail (h g hg)

theorem State.keeps_record (s : State) (type inst payload : Nat) (h : ∀ g ∈ l, g.blk ≠ 0x18) :
    s.Keeps l (s.record type inst payload) := fun g hg => s.fld_record type inst payload (h g hg)

theorem State.keeps_errFatal (s : State) (b : Nat) (h : ∀ g ∈ l, g.blk ≠ 0x1A ∧ g.blk ≠ 0x18) :
    s.Keeps l (s.errFatal b) := fun g hg => s.fld_errFatal_ne b (h g hg).1 (h g hg).2

theorem State.Answered.of_keeps {off : Nat} {r : List (Fld × Nat)} (h : s.Answered t off r)
    (hk : t.Keeps (resValid off :: resSeen off :: resSeq off :: r.map Prod.fst) u) : s.Answered u off r := h.congr hk

end

/-! ### The Rows' registers lie above SEC's (R364, R366) -/

/-- A Stitch that retires writes registers of its Row alone, all from offset 0x901000 on. -/
theorem State.keeps_retire {l : List Fld} (s : State) (sid status errStage : Nat) (h : ∀ g ∈ l, g.key < 0x901000 * 8) :
    s.Keeps l (s.retire sid status errStage) := by
  have hrow : ∀ {f : Fld} (t : State) (v : Nat), 0x901000 ≤ f.off → t.Keeps l (t.setFld f v) := fun t v hf g hg =>
    t.fld_setFld_ne v (by have := h g hg; unfold Fld.key at *; omega)
  unfold State.retire
  split
  · exact .refl l s
  · refine .trans (.of_cells ?_) (.trans (hrow _ _ ?_) (.trans (hrow _ _ ?_) (.trans (hrow _ _ ?_) (hrow _ _ ?_))))
    · exact s.freeEngine_cells sid
    all_goals simp only [F.ROW_N_INFLIGHT_INFLIGHT, F.ROW_N_RETIRED_LO_COUNT_LO, F.ROW_N_RETIRED_HI_COUNT_HI, F.ROW_N_RETIRED_WRAPS_WRAPS]; omega

theorem State.keeps_stopCrypto {l : List Fld} (s : State) (h : ∀ g ∈ l, g.key < 0x901000 * 8) : s.Keeps l s.stopCrypto :=
  .foldl (fun t _ _ => t.keeps_retire _ _ _ h) s

theorem State.retire_sec (s : State) (sid status errStage : Nat) : (s.retire sid status errStage).sec = s.sec := by
  unfold State.retire
  split
  · rfl
  · change (s.freeEngine sid).sec = s.sec
    unfold State.freeEngine
    split <;> rfl

theorem State.stopCrypto_sec (s : State) : s.stopCrypto.sec = s.sec := by
  unfold State.stopCrypto
  generalize List.filter _ _ = r
  induction r generalizing s with
  | nil => rfl
  | cons p r ih => rw [List.foldl_cons, ih, State.retire_sec]

end Sys2Proof.Machine
end

section
/-! PROOF. Alarms and zeroisation, the DRBG and dual compute (R364-R371). -/
namespace Sys2Proof.Machine

/-! ### Zeroisation (R364-R366) -/

theorem State.keeps_keyDone {l : List Fld} (s : State) (slot code : Nat)
    (h : ((List.range 16).all (fun n => apartFrom (F.SEC_KEY_WORD_KEY n) l) && apartFrom F.SEC_KEY_USAGE_LO_COUNT l && apartFrom F.SEC_KEY_USAGE_HI_COUNT l &&
      apartFrom F.SEC_KEY_CMD_BUSY l && apartFromResult keyRes [F.SEC_KEY_RESULT_STATE, F.SEC_KEY_RESULT_PHASE, F.SEC_KEY_RESULT_CODE] l &&
      apartFrom F.SEC_ISR_KEY_DONE l) = true) : s.Keeps l (s.keyDone slot code) := by
  simp only [Bool.and_eq_true] at h
  obtain ⟨⟨⟨⟨⟨hwords, hlo⟩, hhi⟩, hbusy⟩, hres⟩, hisr⟩ := h
  have hkey : s.Keeps l ((List.range 16).foldl (fun t n => t.setFld (F.SEC_KEY_WORD_KEY n) 0) s) :=
    .foldl (fun t n hn => t.keeps_setFld 0 (List.all_eq_true.mp hwords n hn)) s
  exact (((hkey.trans (State.keeps_setPair _ _ (by rw [hlo, hhi]; rfl))).trans (State.keeps_setFld _ _ hbusy)).trans (State.keeps_resDone _ _ rfl hres)).trans
    (State.keeps_raise _ hisr)

/-- The key store is emptied; nothing that counts uses is. -/
theorem State.zeroiseKeys_sec (s : State) :
    s.zeroiseKeys.sec = { s.sec with slots := [], zeroised := true, clearing := none, generates := 0, sentInv := 0, gotInv := 0 } := by
  unfold State.zeroiseKeys
  dsimp only
  generalize hu : s.modSec _ = u
  obtain ⟨hregs, -, -⟩ := u.keyWords_spec
  split
  · rw [(State.sameUnits_keyDone _ _ _).sec, hregs.sec, ← hu]; rfl
  · rw [hregs.sec, ← hu]; rfl

theorem State.keeps_zeroiseKeys (s : State) : s.Keeps [F.SEC_ALARM_STATUS_SOURCES] s.zeroiseKeys := by
  have hwords : ∀ u : State, u.Keeps [F.SEC_ALARM_STATUS_SOURCES] ((List.range 16).foldl (fun t n => t.setFld (F.SEC_KEY_WORD_KEY n) 0) u) := fun u =>
    .foldl (fun t n hn => t.keeps_setFld 0 (List.all_eq_true.mp (by decide : (List.range 16).all (fun n => apartFrom (F.SEC_KEY_WORD_KEY n) [F.SEC_ALARM_STATUS_SOURCES]) = true) n hn)) u
  unfold State.zeroiseKeys
  dsimp only
  generalize hu : s.modSec _ = u
  have hcells : u.cells = s.cells := hu ▸ rfl
  split
  · exact ((State.Keeps.of_cells hcells).trans (hwords u)).trans (State.keeps_keyDone _ _ _ (by decide))
  · exact (State.Keeps.of_cells hcells).trans (hwords u)

/-- An alarm source that is not masked is latched and empties the key store. -/
theorem State.alarm_spec (s : State) {b : Nat} (h : bit (s.fld F.SEC_ALARM_MASK_SOURCES ||| 0xD8) b = true) :
    (s.alarm b).sec = { s.sec with slots := [], zeroised := true, clearing := none, generates := 0, sentInv := 0, gotInv := 0 } ∧
      (s.alarm b).fld F.SEC_ALARM_STATUS_SOURCES = (s.fld F.SEC_ALARM_STATUS_SOURCES ||| 2 ^ b) % 256 ∧ (s.alarm b).fld F.SEC_ISR_ALARM = 1 := by
  have hlatch : ∀ u : State, u.sec = s.sec → u.fld F.SEC_ALARM_STATUS_SOURCES = (s.fld F.SEC_ALARM_STATUS_SOURCES ||| 2 ^ b) % 256 →
      u.zeroise.sec = { s.sec with slots := [], zeroised := true, clearing := none, generates := 0, sentInv := 0, gotInv := 0 } ∧
        u.zeroise.fld F.SEC_ALARM_STATUS_SOURCES = (s.fld F.SEC_ALARM_STATUS_SOURCES ||| 2 ^ b) % 256 ∧ u.zeroise.fld F.SEC_ISR_ALARM = 1 := by
    intro u hsec hfld
    refine ⟨?_, ?_, ?_⟩
    · rw [State.zeroise, State.errFatal_sec, State.raise_sec, State.zeroiseKeys_sec, State.stopCrypto_sec, hsec]
    · exact (((u.keeps_stopCrypto (by decide)).trans (State.keeps_zeroiseKeys _)).trans ((State.keeps_raise _ (by decide)).trans
        (State.keeps_errFatal _ _ (by decide))) _ List.mem_cons_self).trans hfld
    · rw [State.zeroise, State.fld_errFatal_ne _ _ (by decide) (by decide), State.fld_raise_same _ _ rfl (by decide)]
  unfold State.alarm
  rw [if_neg (by rw [show alarmAlways = 0xD8 from rfl, h]; decide)]
  dsimp only
  refine hlatch _ ?_ ?_
  · split <;> rfl
  · have hset : ((s.setFld F.SEC_ALARM_STATUS_SOURCES (s.fld F.SEC_ALARM_STATUS_SOURCES ||| 2 ^ b)).logEvent 4 0x05 0
        (s.fld F.SEC_ALARM_STATUS_SOURCES ||| 2 ^ b)).fld F.SEC_ALARM_STATUS_SOURCES = (s.fld F.SEC_ALARM_STATUS_SOURCES ||| 2 ^ b) % 256 := by
      rw [State.fld_logEvent _ _ _ _ _ (by decide), State.fld_setFld_same]
      rfl
    split <;> exact hset

theorem bit_eq_testBit (v k : Nat) : bit v k = v.testBit k := by
  rw [bit, Nat.testBit_eq_decide_div_mod_eq]
  rfl

/-! ### The DRBG (R370, R371) -/

theorem State.rngDone_spec (s : State) (out : Nat) {code : Nat} (hc : code < 16) :
    (s.rngDone out code).sec = s.sec ∧ (s.rngDone out code).fld F.SEC_ISR_RNG_DONE = 1 ∧ s.Answered (s.rngDone out code) rngRes [(F.SEC_RNG_RESULT_CODE, code)] := by
  unfold State.rngDone
  dsimp only
  have hdata : s.Keeps [resSeq rngRes] ((List.range 8).foldl (fun t n => t.setFld (F.SEC_RNG_OUT_DATA n) (out / 2 ^ (32 * n) % 2 ^ 32)) s) :=
    .foldl (fun t n hn => t.keeps_setFld _ (List.all_eq_true.mp (by decide : (List.range 8).all (fun n => apartFrom (F.SEC_RNG_OUT_DATA n) [resSeq rngRes]) = true) n hn)) s
  have hregs : s.RegsOnly ((List.range 8).foldl (fun t n => t.setFld (F.SEC_RNG_OUT_DATA n) (out / 2 ^ (32 * n) % 2 ^ 32)) s) := by
    generalize List.range 8 = r
    clear hdata
    induction r generalizing s with
    | nil => exact .refl s
    | cons n r ih => exact (s.regsOnly_setFld _ _).trans (ih _)
  generalize (List.range 8).foldl (fun t n => t.setFld (F.SEC_RNG_OUT_DATA n) (out / 2 ^ (32 * n) % 2 ^ 32)) s = u at hdata hregs ⊢
  exact ⟨by rw [State.raise_sec, State.resDone_sec, hregs.sec], State.fld_raise_same _ _ rfl (by decide),
    (u.answered_done [F.SEC_RNG_RESULT_CODE] rfl (by decide) (forall_outcome_one hc)).of_seq (hdata _ List.mem_cons_self)⟩

/-- The state in which a request of the DRBG runs. -/
def State.rngBegun (s : State) (op : Nat) : State := (s.setFld F.SEC_RNG_CMD_OP op).resStart rngRes

theorem State.fld_rngBegun (s : State) (op : Nat) : s.Keeps [resSeq rngRes] (s.rngBegun op) :=
  (s.keeps_setFld op (by decide)).trans (State.keeps_resStart _ (by decide))

section
variable (fails : Bool) {s : State} (hbusy : s.flag F.SEC_RNG_CMD_BUSY = false)
include hbusy

theorem exec_rngGenerate_zeroised (hz : s.sec.zeroised = true) : exec (.rngGenerate fails) s = .next (s.live ((s.rngBegun 0).rngDone 0 2)) := by
  change execRngGenerate fails s = _
  rw [execRngGenerate, State.startWith, hbusy, if_neg (by decide)]
  change (Host.Outcome.next (s.live (if s.sec.zeroised then _ else _)) : Result) = _
  rw [if_pos hz]
  rfl

theorem exec_rngGenerate_failed (hz : s.sec.zeroised = false) : exec (.rngGenerate true) s = .next (s.live ((s.rngBegun 0).rngDone 0 1)) := by
  change execRngGenerate true s = _
  rw [execRngGenerate, State.startWith, hbusy, if_neg (by decide)]
  change (Host.Outcome.next (s.live (if s.sec.zeroised then _ else _)) : Result) = _
  rw [hz, if_neg (by decide), if_pos rfl]
  rfl

theorem exec_rngGenerate_good (hz : s.sec.zeroised = false) : ∃ (u : State) (v : Nat), exec (.rngGenerate false) s = .next (s.live (u.rngDone v 0)) ∧
    u.cells = (s.rngBegun 0).cells ∧ u.sec.slots = s.sec.slots := by
  have hfree : ((s.rngBegun 0).free 256).2.cells = (s.rngBegun 0).cells ∧ ((s.rngBegun 0).free 256).2.sec = s.sec := ⟨rfl, rfl⟩
  change ∃ (u : State) (v : Nat), execRngGenerate false s = _ ∧ _
  rw [execRngGenerate, State.startWith, hbusy, if_neg (by decide),
    show (List.foldl (fun t p => t.setFld p.1 p.2) s [(F.SEC_RNG_CMD_OP, 0)]).resStart rngRes = s.rngBegun 0 from rfl,
    if_neg (show ¬ (s.rngBegun 0).sec.zeroised = true from Bool.eq_false_iff.mp hz), if_neg (by decide)]
  revert hfree
  rcases (s.rngBegun 0).free 256 with ⟨v, x⟩
  rintro ⟨hcells, hsec⟩
  have hslots : x.sec.slots = s.sec.slots := congrArg SecSt.slots hsec
  exact ⟨_, v, rfl, hcells, hslots⟩

end

theorem exec_rngReseed {s : State} (hbusy : s.flag F.SEC_RNG_CMD_BUSY = false) (hz : s.sec.zeroised = false) :
    exec .rngReseed s = .next (s.live ((s.rngBegun 1).reseed.rngDone 0 0)) := by
  change execRngReseed s = _
  rw [execRngReseed, State.startWith, hbusy, if_neg (by decide),
    show (List.foldl (fun t p => t.setFld p.1 p.2) s [(F.SEC_RNG_CMD_OP, 1)]).resStart rngRes = s.rngBegun 1 from rfl,
    if_neg (show ¬ (s.rngBegun 1).sec.zeroised = true from Bool.eq_false_iff.mp hz)]

/-- What the last step of a request says of its answer. -/
theorem State.rngDone_begun (s : State) (op out : Nat) {code : Nat} (hc : code < 16) {u : State} (hu : u.cells = (s.rngBegun op).cells) :
    (u.rngDone out code).sec = u.sec ∧ (u.rngDone out code).fld F.SEC_ISR_RNG_DONE = 1 ∧ s.Answered (u.rngDone out code) rngRes [(F.SEC_RNG_RESULT_CODE, code)] := by
  obtain ⟨hsec, hisr, hans⟩ := u.rngDone_spec out hc
  exact ⟨hsec, hisr, hans.of_seq ((State.fld_of_cells hu _).trans (s.fld_rngBegun op _ List.mem_cons_self))⟩

/-- What a powered head answers reads as the command's effect. -/
theorem State.live_sec {s : State} (hon : s.pins.powered = true) (t : State) : (s.live t).sec = t.sec := by
  rw [State.live, if_pos hon]

theorem State.live_cells {s : State} (hon : s.pins.powered = true) (t : State) : (s.live t).cells = t.cells := by
  rw [State.live, if_pos hon]

theorem State.live_answered {s : State} (hon : s.pins.powered = true) {t : State} {off : Nat} {l : List (Fld × Nat)} (h : s.Answered t off l) :
    s.Answered (s.live t) off l := h.congr fun g _ => State.live_fld hon t g

/-- Settles O42. -/
theorem alarmsAndRandomnessTakeEffect : Obligations.AlarmsAndRandomnessTakeEffect := by
  refine ⟨fun b s hon hb hmask => ?_, fun s hon => ?_, fun who s hon hw => ?_, fun fails s hon hbusy => ?_, fun s hon hbusy hz => ?_,
    fun proportion s hon hfailed => ?_, fun s hon hdue => ?_, fun pool f s hon hf => ?_⟩
  · obtain ⟨hsec, hsrc, hisr⟩ := s.alarm_spec hmask
    refine ⟨_, rfl, ?_⟩
    rw [Nat.mod_eq_of_lt hb, State.live_sec hon, State.live_fld hon, State.live_fld hon, hsec]
    exact ⟨rfl, rfl, rfl, hsrc, hisr⟩
  · have hmask : bit (s.fld F.SEC_ALARM_MASK_SOURCES ||| 0xD8) 6 = true := by
      rw [bit_eq_testBit, Nat.testBit_or, show Nat.testBit 0xD8 6 = true from rfl, Bool.or_true]
    obtain ⟨hsec, -, -⟩ := s.alarm_spec hmask
    refine ⟨_, rfl, ?_⟩
    rw [if_pos rfl, State.live_sec hon, hsec]
    exact ⟨rfl, rfl⟩
  · refine ⟨_, rfl, ?_⟩
    rw [if_neg hw, State.live_eq hon rfl]
  · have hend : ∀ (u : State) (out : Nat) {code : Nat}, code < 16 → u.cells = (s.rngBegun 0).cells → u.sec.slots = s.sec.slots →
        ∃ t, (Host.Outcome.next (s.live (u.rngDone out code)) : Result) = .next t ∧ t.sec.slots = s.sec.slots ∧ t.fld F.SEC_ISR_RNG_DONE = 1 ∧
          s.Answered t rngRes [(F.SEC_RNG_RESULT_CODE, code)] := fun u out code hc hu hslots => by
      obtain ⟨hsec, hisr, hans⟩ := s.rngDone_begun 0 out hc hu
      exact ⟨_, rfl, by rw [State.live_sec hon, hsec, hslots], by rw [State.live_fld hon, hisr], State.live_answered hon hans⟩
    cases hz : s.sec.zeroised with
    | true =>
      rw [exec_rngGenerate_zeroised fails hbusy hz, if_pos rfl]
      exact hend _ _ (by decide) rfl rfl
    | false =>
      rw [if_neg (by decide)]
      cases fails with
      | true =>
        rw [exec_rngGenerate_failed hbusy hz, if_pos rfl]
        exact hend _ _ (by decide) rfl rfl
      | false =>
        obtain ⟨u, v, he, hcells, hslots⟩ := exec_rngGenerate_good hbusy hz
        rw [he, if_neg (by decide)]
        exact hend u v (by decide) hcells hslots
  · have hreseed : (s.rngBegun 1).reseed.fld (resSeq rngRes) = s.fld (resSeq rngRes) :=
      (State.fld_inc_ne _ _ (by decide)).trans (s.fld_rngBegun 1 _ List.mem_cons_self)
    obtain ⟨hsec, -, hans⟩ := (s.rngBegun 1).reseed.rngDone_spec 0 (code := 0) (by decide)
    rw [exec_rngReseed hbusy hz]
    refine ⟨_, rfl, ?_, State.live_answered hon (hans.of_seq hreseed)⟩
    rw [State.live_sec hon, hsec]
    rfl
  · have hagain : (s.sec.failedAt.any fun t => decide (s.turn < t + 1024)) = false := by rw [hfailed]; rfl
    refine ⟨_, rfl, ?_⟩
    rw [State.live_sec hon, State.live_fld hon, State.live_fld hon]
    dsimp only
    rw [hagain, if_neg (by decide)]
    generalize hv : s.inc (if proportion then F.SEC_RNG_HEALTH_APT_FAIL else F.SEC_RNG_HEALTH_RCT_FAIL) = v
    have hslots : (v.raise F.SEC_ISR_RNG_HEALTH).sec.slots = s.sec.slots := by rw [State.raise_sec, ← hv]; rfl
    refine ⟨rfl, hslots, State.fld_raise_same v _ rfl (by decide), ?_⟩
    refine (State.fld_raise_ne v (by decide) (by decide)).trans ?_
    subst hv
    cases proportion with
    | true => exact State.fld_inc_same _ _ _
    | false => exact State.fld_inc_ne _ _ (by decide)
  · refine ⟨_, rfl, ?_⟩
    rw [State.live_sec hon, State.live_fld hon, if_pos hdue]
    exact ⟨rfl, rfl, State.fld_inc_same _ _ _⟩
  · refine ⟨_, rfl, ?_⟩
    rw [hf]
    exact State.live_eq hon rfl

end Sys2Proof.Machine
end

section
/-! PROOF. DRAM's upkeep: patrol scrub and post-package repair (R337-R339). -/
namespace Sys2Proof.Machine

/-- What a step of a fold brings about for some element, and keeps, stands at the end. -/
theorem foldl_reaches {α : Type} {f : State → α → State} {P : State → Prop} {Q : α → Prop} (hkeep : ∀ t a, P t → P (f t a))
    (hmake : ∀ t a, Q a → P (f t a)) (l : List α) (h : ∃ a ∈ l, Q a) (s : State) : P (l.foldl f s) := by
  have hkeeps : ∀ (l : List α) (s : State), P s → P (l.foldl f s) := by
    intro l
    induction l with
    | nil => exact fun _ hs => hs
    | cons a l ih => exact fun s hs => ih _ (hkeep s a hs)
  induction l generalizing s with
  | nil => exact absurd h (by simp)
  | cons a l ih =>
    obtain ⟨b, hb, hQ⟩ := h
    obtain rfl | hb := List.mem_cons.mp hb
    · exact hkeeps l _ (hmake s b hQ)
    · exact ih ⟨b, hb, hQ⟩ _

theorem foldl_keeps {α : Type} {f : State → α → State} {P : State → Prop} (hkeep : ∀ t a, P t → P (f t a)) (l : List α) {s : State} (h : P s) :
    P (l.foldl f s) := by
  induction l generalizing s with
  | nil => exact h
  | cons a l ih => exact ih (hkeep s a h)

theorem apartFrom_of_lt {f : Fld} {l : List Fld} (h : (l.all fun g => decide (g.blk ≠ 0x18)) = true) (hf : ∀ g ∈ l, g.key < f.key) : apartFrom f l = true := by
  refine List.all_eq_true.mpr fun g hg => ?_
  have hb := List.all_eq_true.mp h g hg
  have hk := hf g hg
  simp only [Bool.and_eq_true, decide_eq_true_eq] at hb ⊢
  exact ⟨by omega, hb⟩

/-- DMC's interrupts. -/
def dmcIsrs : List Fld := [F.DMC_ISR_CORR, F.DMC_ISR_UNCORR, F.DMC_ISR_PPR_ADVISED]

/-- The channel counts lie above DMC's interrupts. -/
theorem apartFrom_chErrs (n : Nat) : apartFrom (F.DMC_CH_ERRS_CORR n) dmcIsrs = true ∧ apartFrom (F.DMC_CH_ERRS_UNCORR n) dmcIsrs = true := by
  constructor <;> refine apartFrom_of_lt (by decide) ?_ <;>
    simp only [dmcIsrs, List.forall_mem_cons, List.not_mem_nil, false_imp_iff, implies_true, and_true, Fld.key, F.DMC_CH_ERRS_CORR,
      F.DMC_CH_ERRS_UNCORR, F.DMC_ISR_CORR, F.DMC_ISR_UNCORR, F.DMC_ISR_PPR_ADVISED] <;> omega

theorem State.keeps_errCorr {l : List Fld} (s : State) (b : Nat) (h : apartFrom F.IRQ_ERR_CORR_BLOCKS l = true) : s.Keeps l (s.errCorr b) :=
  s.keeps_setFld _ h

theorem State.keeps_errDefer {l : List Fld} (s : State) (b : Nat) (h : apartFrom F.IRQ_ERR_DEFER_BLOCKS l = true) : s.Keeps l (s.errDefer b) :=
  (s.keeps_setFld _ h).trans (State.keeps_logEvent _ _ _ _ _ fun _ hg => (apartFrom_spec h hg).2)

/-! ### The rows of a pass -/

/-- A row's corrected errors are counted on its channel and raised. -/
def State.scrubCount (s : State) (r : RowErrs) : State :=
  ((s.inc (F.DMC_CH_ERRS_CORR (r.row / 2 ^ 28 % 16)) r.count).raise F.DMC_ISR_CORR).errCorr 0x07

/-- What a pass makes of one row. -/
def State.scrubRow (limit : Nat) (s : State) (r : RowErrs) : State :=
  if r.count = 0 then s
  else if limit ≤ r.count then
    ((((((s.scrubCount r).setFld F.DMC_PPR_ROW_CHANNEL (bits r.row 31 28)).setFld F.DMC_PPR_ROW_SUB (bits r.row 27 27)).setFld
      F.DMC_PPR_ROW_RANK_BG (bits r.row 26 24)).setFld F.DMC_PPR_ROW_BANK (bits r.row 23 18)).setFld
      F.DMC_PPR_ROW_ROW (bits r.row 17 0)).raise F.DMC_ISR_PPR_ADVISED
  else s.scrubCount r

theorem State.scrubCount_corr (s : State) (r : RowErrs) : (s.scrubCount r).fld F.DMC_ISR_CORR = 1 :=
  ((State.keeps_errCorr (l := dmcIsrs) _ _ (by decide)) _ (by decide)).trans (State.fld_raise_same _ _ rfl (by decide))

theorem State.scrubCount_advised (s : State) (r : RowErrs) : (s.scrubCount r).fld F.DMC_ISR_PPR_ADVISED = s.fld F.DMC_ISR_PPR_ADVISED :=
  ((State.keeps_errCorr (l := dmcIsrs) _ _ (by decide)) _ (by decide)).trans ((State.fld_raise_ne _ (by decide) (by decide)).trans
    (State.keeps_inc s _ (apartFrom_chErrs _).1 _ (by decide)))

theorem State.scrubRow_corr (limit : Nat) (s : State) {r : RowErrs} (h : r.count ≠ 0) : (s.scrubRow limit r).fld F.DMC_ISR_CORR = 1 := by
  unfold State.scrubRow
  rw [if_neg h]
  split
  · rw [State.fld_raise_ne _ (by decide) (by decide), State.fld_setFld_ne _ _ (by decide), State.fld_setFld_ne _ _ (by decide),
      State.fld_setFld_ne _ _ (by decide), State.fld_setFld_ne _ _ (by decide), State.fld_setFld_ne _ _ (by decide)]
    exact s.scrubCount_corr r
  · exact s.scrubCount_corr r

theorem State.scrubRow_corr_kept (limit : Nat) (s : State) (r : RowErrs) (h : s.fld F.DMC_ISR_CORR = 1) : (s.scrubRow limit r).fld F.DMC_ISR_CORR = 1 := by
  by_cases h0 : r.count = 0
  · rw [State.scrubRow, if_pos h0, h]
  · exact s.scrubRow_corr limit h0

theorem State.scrubRow_advised {limit : Nat} (s : State) {r : RowErrs} (h : r.count ≠ 0) (hl : limit ≤ r.count) :
    (s.scrubRow limit r).fld F.DMC_ISR_PPR_ADVISED = 1 := by
  rw [State.scrubRow, if_neg h, if_pos hl]
  exact State.fld_raise_same _ _ rfl (by decide)

theorem State.scrubRow_advised_kept (limit : Nat) (s : State) (r : RowErrs) (h : s.fld F.DMC_ISR_PPR_ADVISED = 1) :
    (s.scrubRow limit r).fld F.DMC_ISR_PPR_ADVISED = 1 := by
  by_cases h0 : r.count = 0
  · rw [State.scrubRow, if_pos h0, h]
  · by_cases hl : limit ≤ r.count
    · exact s.scrubRow_advised h0 hl
    · rw [State.scrubRow, if_neg h0, if_neg hl, State.scrubCount_advised, h]

/-! ### The lines it could not correct -/

theorem State.dramError_spec (s : State) (a : Nat) :
    s.Keeps [F.DMC_ISR_CORR, F.DMC_ISR_PPR_ADVISED] (s.dramError a .uncorrected) ∧ (s.dramError a .uncorrected).fld F.DMC_ISR_UNCORR = 1 ∧
      (s.dramError a .uncorrected).scc.poison = (s.scc.poison.filter (· != a / 64)) ++ [a / 64] := by
  unfold State.dramError
  dsimp only
  generalize hu : ((s.inc (F.DMC_CH_ERRS_UNCORR _)).setPair F.DMC_ERR_ADDR_LO_ADDR F.DMC_ERR_ADDR_HI_ADDR a) = u
  have hku : s.Keeps dmcIsrs u := hu ▸ (s.keeps_inc _ (apartFrom_chErrs _).2).trans (State.keeps_setPair _ _ (by decide))
  have hscc : u.scc = s.scc := hu ▸ rfl
  have hcells : ((u.raise F.DMC_ISR_UNCORR).setPoison (a / 64) true).cells = (u.raise F.DMC_ISR_UNCORR).cells := rfl
  refine ⟨?_, ?_, ?_⟩
  · have hk : s.Keeps [F.DMC_ISR_CORR, F.DMC_ISR_PPR_ADVISED] u := fun g hg => hku g (by revert g; decide)
    exact ((hk.trans (u.keeps_raise (by decide))).trans (.of_cells hcells)).trans (State.keeps_errDefer _ _ (by decide))
  · exact ((State.keeps_errDefer (l := dmcIsrs) _ _ (by decide)) _ (by decide)).trans ((State.fld_of_cells hcells _).trans (State.fld_raise_same _ _ rfl (by decide)))
  · rw [State.errDefer_scc]
    change ((u.raise F.DMC_ISR_UNCORR).scc.poison.filter _) ++ _ = _
    rw [State.raise_scc, hscc]
    rfl

/-! ### Post-package repair -/

/-- The result of a repair. -/
def State.pprCode (s : State) (hard spare : Bool) : Nat :=
  if 11 < s.fld F.DMC_PPR_ROW_CHANNEL then 3
  else if hard && (s.headState != stCastOn || decide (7 < s.fld F.GLB_CASTON_STATUS_STEP)) then 2
  else if !spare then 1 else 0

theorem State.pprCode_lt (s : State) (hard spare : Bool) : s.pprCode hard spare < 16 := by
  unfold State.pprCode
  split
  · decide
  · split
    · decide
    · split <;> decide

/-- A repair that is not BUSY ends with its result. -/
theorem State.ppr_spec (s : State) (hard spare : Bool) (hbusy : s.flag F.DMC_PPR_CMD_BUSY = false) :
    s.Answered (s.ppr hard spare) 0x700010 [(F.DMC_PPR_RESULT_CODE, s.pprCode hard spare)] ∧ (s.ppr hard spare).fld F.DMC_ISR_PPR_DONE = 1 ∧
      (s.ppr hard spare).pins = s.pins := by
  rw [State.ppr, State.startWith, hbusy, if_neg (by decide)]
  generalize hu : (List.foldl (fun t p => t.setFld p.1 p.2) s [(F.DMC_PPR_CMD_HARD, if hard then 1 else 0)]).resStart 0x700010 = u
  have hk : s.Keeps [F.DMC_PPR_ROW_CHANNEL, F.GLB_PAIR_STATUS_STATE, F.GLB_CASTON_STATUS_STEP, resSeq 0x700010] u :=
    hu ▸ (s.keeps_setAll [F.DMC_PPR_CMD_HARD] rfl (by decide)).trans (State.keeps_resStart _ (by decide))
  have hcode : u.pprCode hard spare = s.pprCode hard spare := by
    unfold State.pprCode State.headState
    rw [hk _ (by decide), hk _ (by decide), hk _ (by decide)]
  change s.Answered ((u.resDone 0x700010 [(F.DMC_PPR_RESULT_CODE, u.pprCode hard spare)]).raise F.DMC_ISR_PPR_DONE) _ _ ∧
    ((u.resDone 0x700010 [(F.DMC_PPR_RESULT_CODE, u.pprCode hard spare)]).raise F.DMC_ISR_PPR_DONE).fld _ = _ ∧
    ((u.resDone 0x700010 [(F.DMC_PPR_RESULT_CODE, u.pprCode hard spare)]).raise F.DMC_ISR_PPR_DONE).pins = _
  rw [hcode]
  exact ⟨(u.answered_done [F.DMC_PPR_RESULT_CODE] rfl (by decide) (forall_outcome_one (s.pprCode_lt hard spare))).of_seq (hk _ (by decide)),
    State.fld_raise_same _ _ rfl (by decide), by rw [State.raise_pins, State.resDone_pins, ← hu]; rfl⟩

/-- Settles O37. -/
theorem memoryUpkeepTakesEffect : Obligations.MemoryUpkeepTakesEffect := by
  refine ⟨fun rows bad s hon hhours => ?_, fun spare s hon hbusy => ?_, fun spare s hon hbusy => ?_⟩
  · have he : exec (.patrolScrub rows bad) s = .next (s.live (bad.foldl (fun t a => t.dramError a .uncorrected)
        (rows.foldl (State.scrubRow (max 1 (s.fld F.DMC_SCRUB_CFG_ROW_LIMIT))) s))) := by
      change execPatrolScrub rows bad s = _
      rw [execPatrolScrub, if_neg hhours]
      rfl
    have hbad : ∀ {f : Fld}, f ∈ [F.DMC_ISR_CORR, F.DMC_ISR_PPR_ADVISED] → ∀ u : State, u.fld f = 1 →
        (bad.foldl (fun t a => t.dramError a .uncorrected) u).fld f = 1 := fun hf u hu =>
      foldl_keeps (P := fun t => t.fld _ = 1) (fun t a ht => ((t.dramError_spec a).1 _ hf).trans ht) bad hu
    rw [he]
    refine ⟨_, rfl, fun a ha => ?_, fun h => ?_, fun ⟨r, hr, h0, hlim⟩ => ?_, fun h => ?_⟩
    · rw [State.live_on hon]
      refine foldl_reaches (P := fun t => a / 64 ∈ t.scc.poison) (Q := (· = a)) (fun t b ht => ?_) (fun t b hb => ?_) bad ⟨a, ha, rfl⟩ _
      · obtain ⟨-, -, hp⟩ := t.dramError_spec b
        rw [hp, List.mem_append, List.mem_filter]
        by_cases hab : a / 64 = b / 64
        · exact .inr (by simp [hab])
        · exact .inl ⟨ht, by simpa using hab⟩
      · obtain ⟨-, -, hp⟩ := t.dramError_spec b
        rw [hp, hb]
        simp
    · rw [State.live_fld hon]
      exact hbad (by decide) _ (foldl_reaches (P := fun t => t.fld F.DMC_ISR_CORR = 1) (fun t r => t.scrubRow_corr_kept _ r)
        (fun t r => t.scrubRow_corr _) rows h s)
    · rw [State.live_fld hon]
      exact hbad (by decide) _ (foldl_reaches (P := fun t => t.fld F.DMC_ISR_PPR_ADVISED = 1) (Q := (· = r)) (fun t r => t.scrubRow_advised_kept _ r)
        (fun t r' hr' => hr' ▸ t.scrubRow_advised h0 (by omega)) rows ⟨r, hr, rfl⟩ s)
    · rw [State.live_fld hon]
      obtain ⟨a, r, rfl⟩ := List.exists_cons_of_ne_nil h
      exact foldl_reaches (P := fun t => t.fld F.DMC_ISR_UNCORR = 1) (Q := fun _ => True) (fun t b _ => (t.dramError_spec b).2.1)
        (fun t b _ => (t.dramError_spec b).2.1) _ ⟨a, List.mem_cons_self, trivial⟩ _
  · obtain ⟨hans, hdone, hpins⟩ := s.ppr_spec false spare hbusy
    refine ⟨_, State.next_live_eq hon hpins, hdone, ?_⟩
    have hcode : s.pprCode false spare = if 11 < s.fld F.DMC_PPR_ROW_CHANNEL then 3 else if spare = true then 0 else 1 := by
      cases spare <;> rfl
    exact hcode ▸ hans
  · obtain ⟨hans, hdone, hpins⟩ := s.ppr_spec true spare hbusy
    refine ⟨_, State.next_live_eq hon hpins, hdone, ?_⟩
    have hcode : s.pprCode true spare = if 11 < s.fld F.DMC_PPR_ROW_CHANNEL then 3
        else if s.headState ≠ stCastOn ∨ 7 < s.fld F.GLB_CASTON_STATUS_STEP then 2 else if spare = true then 0 else 1 := by
      unfold State.pprCode
      cases spare <;> simp
    exact hcode ▸ hans

end Sys2Proof.Machine
end

section
/-! PROOF. Bobbin pools (R340-R346): allocation, references, INIT. -/
namespace Sys2Proof.Machine

/-! ### Writes by physical address (R328) -/

/-- t is s but for the bytes at some addresses, the scratchpad, and what a write beyond its ways raises. -/
structure State.PhysFrame (W : Nat → Prop) (s t : State) : Prop where
  units : t = { s with cells := t.cells, dram := t.dram, rpj := t.rpj, fresh := t.fresh, scc := t.scc }
  fld   : ∀ g : Fld, g.blk ≠ 0x18 → g.key ≠ F.SCC_ISR_SPAD_RANGE.key → t.fld g = s.fld g
  mem   : ∀ a, ¬ W a → ¬ s.inRing a → memGet t.dram a = memGet s.dram a
  ring  : ∀ a, t.inRing a ↔ s.inRing a

theorem State.PhysFrame.refl (W : Nat → Prop) (s : State) : s.PhysFrame W s := ⟨rfl, fun _ _ _ => rfl, fun _ _ _ => rfl, fun _ => Iff.rfl⟩

theorem State.PhysFrame.trans {W : Nat → Prop} {s t u : State} (h : s.PhysFrame W t) (k : t.PhysFrame W u) : s.PhysFrame W u where
  units := by
    have h1 := h.units
    have h2 := k.units
    rw [h2, h1]
  fld g h1 h2 := (k.fld g h1 h2).trans (h.fld g h1 h2)
  mem a h1 h2 := (k.mem a h1 fun hr => h2 ((h.ring a).mp hr)).trans (h.mem a h1 h2)
  ring a := (k.ring a).trans (h.ring a)

theorem State.PhysFrame.weaken {W V : Nat → Prop} {s t : State} (h : s.PhysFrame W t) (hv : ∀ a, W a → V a) : s.PhysFrame V t :=
  { h with mem := fun a h1 h2 => h.mem a (fun hw => h1 (hv a hw)) h2 }

theorem State.PhysFrame.foldl {α : Type} {W : Nat → Prop} {f : State → α → State} {r : List α}
    (h : ∀ (t : State), ∀ a ∈ r, t.PhysFrame W (f t a)) (s : State) : s.PhysFrame W (r.foldl f s) := by
  induction r generalizing s with
  | nil => exact .refl W s
  | cons a r ih => exact (h s a List.mem_cons_self).trans (ih (fun t b hb => h t b (List.mem_cons_of_mem _ hb)) _)

section
variable {W : Nat → Prop} {s t : State} (h : s.PhysFrame W t)
include h

theorem State.PhysFrame.pins : t.pins = s.pins := by rw [h.units]
theorem State.PhysFrame.sent : t.sent = s.sent := by rw [h.units]
theorem State.PhysFrame.bbm : t.bbm = s.bbm := by rw [h.units]
theorem State.PhysFrame.ctl : t.ctl = s.ctl := by rw [h.units]

end

theorem State.physFrame_raise (W : Nat → Prop) (s : State) : s.PhysFrame W (s.raise F.SCC_ISR_SPAD_RANGE) where
  units := by
    have h := s.sameUnits_raise F.SCC_ISR_SPAD_RANGE
    unfold State.SameUnits at h
    rw [h]
  fld _ h1 h2 := s.fld_raise_ne h2 h1
  mem _ _ h2 := s.memGet_raise (by decide) h2
  ring a := by
    have hlogs := s.logs_raise F.SCC_ISR_SPAD_RANGE
    have hset := s.inRing_setFld (f := F.SCC_ISR_SPAD_RANGE) 1 (by decide) a
    obtain ⟨h1, h2⟩ := hlogs.ring
    unfold State.inRing at *
    rw [h1, h2]
    exact hset

theorem State.physFrame_physSet (s : State) (a : Nat) (b : Byte) : s.PhysFrame (· = a) (s.physSet a b) := by
  unfold State.physSet
  split
  · split
    · exact ⟨rfl, fun _ _ _ => rfl, fun _ _ _ => rfl, fun _ => Iff.rfl⟩
    · exact s.physFrame_raise _
  · exact ⟨rfl, fun _ _ _ => rfl, fun c hc _ => memGet_memSet_ne _ _ hc, fun _ => Iff.rfl⟩

theorem State.physFrame_physWr (s : State) (a : Nat) (d : Bytes) : s.PhysFrame (fun c => a ≤ c ∧ c < a + d.length) (s.physWr a d) := by
  refine .foldl (fun t p hp => (t.physFrame_physSet (a + p.2) p.1).weaken fun c hc => ?_) s
  obtain ⟨-, hlt, -⟩ := List.mem_zipIdx hp
  omega

theorem State.physFrame_putMeta (s : State) (p i ref own link mark turn : Nat) :
    s.PhysFrame (fun c => s.metaAddr p i ≤ c ∧ c < s.metaAddr p i + 16) (s.putMeta p i ref own link mark turn) :=
  (s.physFrame_physWr _ _).weaken fun c hc => by
    simpa only [List.length_append, leBytes_length] using hc

/-! ### Reads that depend on some registers alone -/

/-- The pools' registers. -/
def poolFlds (p : Nat) : List Fld :=
  [F.BBM_POOL_BASE_LO_ADDR p, F.BBM_POOL_BASE_HI_ADDR p, F.BBM_POOL_CFG_TENANT p, F.BBM_POOL_CFG_SIZE_LOG2 p, F.BBM_POOL_COUNT_COUNT p,
   F.BBM_POOL_CTRL_ENABLE p, F.BBM_POOL_STATUS_CORRUPT p, F.BBM_POOL_STATUS_FREE_COUNT p]

theorem State.Keeps.metaAddr {s t : State} {p : Nat} (h : s.Keeps (poolFlds p) t) (i : Nat) : t.metaAddr p i = s.metaAddr p i := by
  unfold State.metaAddr State.poolBase State.poolCount State.poolSize State.poolLog2 State.base
  rw [h (F.BBM_POOL_BASE_LO_ADDR p) (by simp [poolFlds]), h (F.BBM_POOL_BASE_HI_ADDR p) (by simp [poolFlds]),
    h (F.BBM_POOL_CFG_SIZE_LOG2 p) (by simp [poolFlds]), h (F.BBM_POOL_COUNT_COUNT p) (by simp [poolFlds])]

theorem State.Keeps.poolCount {s t : State} {p : Nat} (h : s.Keeps (poolFlds p) t) : t.poolCount p = s.poolCount p := by
  rw [State.poolCount, h (F.BBM_POOL_COUNT_COUNT p) (by simp [poolFlds])]
  rfl

/-- The pools' registers lie below RPJ's, above the scratchpad's interrupt. -/
theorem mem_poolFlds {p : Nat} (hp : p < 64) {g : Fld} (hg : g ∈ poolFlds p) : 0x801000 * 8 ≤ g.key ∧ g.key < 0x801800 * 8 := by
  revert g
  simp only [poolFlds, List.forall_mem_cons, List.not_mem_nil, false_imp_iff, implies_true, and_true, Fld.key, F.BBM_POOL_BASE_LO_ADDR,
    F.BBM_POOL_BASE_HI_ADDR, F.BBM_POOL_CFG_TENANT, F.BBM_POOL_CFG_SIZE_LOG2, F.BBM_POOL_COUNT_COUNT, F.BBM_POOL_CTRL_ENABLE,
    F.BBM_POOL_STATUS_CORRUPT, F.BBM_POOL_STATUS_FREE_COUNT]
  omega

theorem Fld.blk_of_key {g : Fld} (h1 : 0x801000 * 8 ≤ g.key) (h2 : g.key < 0x801800 * 8) : g.blk = 8 := by
  unfold Fld.blk
  omega

theorem State.PhysFrame.keeps_poolFlds {W : Nat → Prop} {s t : State} (h : s.PhysFrame W t) {p : Nat} (hp : p < 64) : s.Keeps (poolFlds p) t := fun g hg => by
  obtain ⟨h1, h2⟩ := mem_poolFlds hp hg
  refine h.fld g (by rw [Fld.blk_of_key h1 h2]; decide) fun e => ?_
  rw [e] at h1
  exact absurd h1 (by decide)

/-! ### Allocation (R343, R345) -/

/-- What taking the head of a pool's free list for a tenant leaves. -/
def State.taken (s : State) (p tenant : Nat) : State :=
  let s2 := (s.modBbm fun b => { b with head := b.head.put p (s.link p (s.poolHead p)) }).putMeta p (s.poolHead p) 1 (tenant % 4096 + 4096) 0 0 0
  let s3 := s2.setFld (F.BBM_POOL_STATUS_FREE_COUNT p) (s.freeCount p - 1)
  if s.poolTenant p = 0 then s3 else s3.setUsed (s.poolTenant p) (s.quotaUsed (s.poolTenant p) + s.poolUnits p)

section
variable {s : State} {p tenant : Nat}

/-- A pool of the tenant has a free bobbin within its quota. -/
structure State.CanTake (s : State) (p tenant : Nat) : Prop where
  enabled : s.flag (F.BBM_POOL_CTRL_ENABLE p) = true
  sound   : s.flag (F.BBM_POOL_STATUS_CORRUPT p) = false
  owner   : s.poolTenant p = tenant
  free    : s.freeCount p ≠ 0
  quota   : tenant = 0 ∨ s.quotaUsed tenant + s.poolUnits p ≤ s.quotaLimit tenant
  head    : s.poolHead p < s.poolCount p
  state   : s.bobState p (s.poolHead p) = 0

theorem State.takeBobbin_got (h : s.CanTake p tenant) : s.takeBobbin p tenant = .got (p * 2 ^ 26 + s.poolHead p) (s.taken p tenant) := by
  obtain ⟨hen, hcor, hown, hfree, hquota, hhead, hstate⟩ := h
  have h1 : ¬ ((!s.flag (F.BBM_POOL_CTRL_ENABLE p)) = true ∨ s.flag (F.BBM_POOL_STATUS_CORRUPT p) = true ∨ s.freeCount p = 0) := by
    simp [hen, hcor, hfree]
  have h2 : ¬ (s.poolTenant p ≠ 0 ∧ s.quotaLimit (s.poolTenant p) < s.quotaUsed (s.poolTenant p) + s.poolUnits p) := by
    rw [hown]
    omega
  have h3 : ¬ (s.poolCount p ≤ s.poolHead p ∨ s.bobState p (s.poolHead p) ≠ 0) := by omega
  rw [State.takeBobbin, if_neg h1, if_neg h2, if_neg h3]
  rfl

theorem State.allocBobbin_got (h : s.CanTake p tenant) : s.allocBobbin p tenant = (0, p * 2 ^ 26 + s.poolHead p, s.taken p tenant) := by
  have h1 : ¬ ((!s.flag (F.BBM_POOL_CTRL_ENABLE p)) = true ∨ s.flag (F.BBM_POOL_STATUS_CORRUPT p) = true ∨ s.poolTenant p ≠ tenant) := by
    simp [h.enabled, h.sound, h.owner]
  rw [State.allocBobbin, if_neg h1, State.allocChain, State.takeBobbin_got h]
  rfl

/-- The state of a bobbin taken, up to its quota's count. -/
theorem State.taken_eq (s : State) (p tenant : Nat) : ∃ u : State, ∃ W : Nat → Prop, ∃ d : List Host.Cell,
    (s.modBbm fun b => { b with head := b.head.put p (s.link p (s.poolHead p)) }).PhysFrame W u ∧
      s.taken p tenant = { u.setFld (F.BBM_POOL_STATUS_FREE_COUNT p) (s.freeCount p - 1) with dram := d } := by
  refine ⟨_, _, (s.taken p tenant).dram, State.physFrame_putMeta _ p (s.poolHead p) 1 (tenant % 4096 + 4096) 0 0 0, ?_⟩
  unfold State.taken
  dsimp only
  split <;> rfl

theorem State.taken_poolHead (s : State) (p tenant : Nat) : (s.taken p tenant).poolHead p = s.link p (s.poolHead p) := by
  obtain ⟨u, W, d, hu, he⟩ := s.taken_eq p tenant
  rw [State.poolHead, he]
  change (u.bbm.head.get? p).getD listEnd = _
  rw [hu.bbm]
  change ((s.bbm.head.put p _).get? p).getD listEnd = _
  rw [Tbl.get?_put_same]
  rfl

theorem State.taken_freeCount (s : State) (p tenant : Nat) :
    (s.taken p tenant).fld (F.BBM_POOL_STATUS_FREE_COUNT p) = (s.freeCount p - 1) % 2 ^ 26 := by
  obtain ⟨u, W, d, -, he⟩ := s.taken_eq p tenant
  rw [he]
  exact u.fld_setFld_same _ _

theorem State.taken_sent (s : State) (p tenant : Nat) : (s.taken p tenant).sent = s.sent := by
  obtain ⟨u, W, d, hu, he⟩ := s.taken_eq p tenant
  rw [he]
  exact hu.sent

theorem State.taken_pins (s : State) (p tenant : Nat) : (s.taken p tenant).pins = s.pins := by
  obtain ⟨u, W, d, hu, he⟩ := s.taken_eq p tenant
  rw [he]
  exact hu.pins

theorem State.taken_fld (s : State) (p tenant : Nat) {g : Fld} (h1 : g.blk ≠ 0x18) (h2 : g.key ≠ F.SCC_ISR_SPAD_RANGE.key)
    (h3 : g.key ≠ (F.BBM_POOL_STATUS_FREE_COUNT p).key) : (s.taken p tenant).fld g = s.fld g := by
  obtain ⟨u, W, d, hu, he⟩ := s.taken_eq p tenant
  rw [he]
  exact (u.fld_setFld_ne _ h3).trans (hu.fld g h1 h2)

end

/-- A bobbin's message is for the head's own agents: nothing holds it back. -/
theorem State.send_bobbin (s : State) (cls tenant h code : Nat) : s.send (.bobbin cls tenant h code) = { s with sent := s.sent ++ [.bobbin cls tenant h code] } := by
  unfold State.send State.shut
  simp [Sent.external, Sent.onPorts, Sent.onEfmo]

/-! ### Firmware's allocation -/

/-- The state in which firmware's allocation runs. -/
def State.allocBegun (s : State) (p tenant : Nat) : State :=
  ((s.setFld F.BBM_ALLOC_CMD_POOL p).setFld F.BBM_ALLOC_CMD_TENANT tenant).resStart 0x800014

theorem State.fld_allocBegun (s : State) (p tenant : Nat) {g : Fld} (h : g.key < 0x800010 * 8 ∨ 0x80001C * 8 ≤ g.key) :
    (s.allocBegun p tenant).fld g = s.fld g := by
  have hne : ∀ f : Fld, 0x800010 * 8 ≤ f.key → f.key < 0x80001C * 8 → g.key ≠ f.key := fun f h1 h2 => by omega
  rw [State.allocBegun, State.fld_resStart_ne _ _ (hne _ (by decide) (by decide)) (hne _ (by decide) (by decide)),
    State.fld_setFld_ne _ _ (hne _ (by decide) (by decide)), State.fld_setFld_ne _ _ (hne _ (by decide) (by decide))]

theorem State.keeps_allocBegun (s : State) {p : Nat} (tenant : Nat) (hp : p < 64) : s.Keeps (poolFlds p) (s.allocBegun p tenant) := fun g hg => by
  obtain ⟨h, -⟩ := mem_poolFlds hp hg
  exact s.fld_allocBegun p tenant (.inr (by omega))

/-- The byte at a physical address, where DRAM, the scratchpad and its ways are the same. -/
theorem State.physRd_congr {s t : State} (hd : t.dram = s.dram) (hs : t.scc = s.scc) (hw : t.spadWays = s.spadWays) (a n : Nat) :
    t.physRd a n = s.physRd a n := by
  unfold State.physRd State.physGet State.spadPlace
  rw [hd, hs, hw]

theorem State.physRdN_allocBegun (s : State) (p tenant a n : Nat) : (s.allocBegun p tenant).physRdN a n = s.physRdN a n := by
  refine congrArg leNat (State.physRd_congr (s := s) (t := s.allocBegun p tenant) rfl rfl ?_ a n)
  unfold State.spadWays
  rw [s.fld_allocBegun p tenant (.inl (by decide))]

theorem State.canTake_allocBegun {s : State} {p tenant : Nat} (hp : p < 64) (h : s.CanTake p tenant) : (s.allocBegun p tenant).CanTake p tenant := by
  have hk := s.keeps_allocBegun tenant hp
  have hbase : (s.allocBegun p tenant).quotaAddr tenant = s.quotaAddr tenant := by
    unfold State.quotaAddr State.base
    rw [s.fld_allocBegun p tenant (.inl (by decide)), s.fld_allocBegun p tenant (.inl (by decide))]
  have hhead : (s.allocBegun p tenant).poolHead p = s.poolHead p := rfl
  have hrd : ∀ a n, (s.allocBegun p tenant).rdN a n = s.rdN a n := fun _ _ => rfl
  obtain ⟨hen, hcor, hown, hfree, hquota, hlt, hstate⟩ := h
  refine ⟨?_, ?_, ?_, ?_, ?_, ?_, ?_⟩
  · rwa [State.flag, hk _ (by simp [poolFlds])]
  · rwa [State.flag, hk _ (by simp [poolFlds])]
  · rwa [State.poolTenant, hk _ (by simp [poolFlds])]
  · rwa [State.freeCount, hk _ (by simp [poolFlds])]
  · rwa [State.quotaUsed, State.quotaLimit, hbase, hrd, hrd, State.poolUnits, State.poolSize, State.poolLog2, hk _ (by simp [poolFlds])]
  · rwa [hhead, hk.poolCount]
  · rwa [State.bobState, State.owner, hhead, hk.metaAddr, s.physRdN_allocBegun]

theorem State.link_allocBegun (s : State) {p : Nat} (tenant i : Nat) (hp : p < 64) : (s.allocBegun p tenant).link p i = s.link p i := by
  rw [State.link, (s.keeps_allocBegun tenant hp).metaAddr, s.physRdN_allocBegun]
  rfl

theorem exec_allocCmd {s : State} {p tenant : Nat} (hp : p < 64) (ht : tenant < 4096) (hbusy : s.flag F.BBM_ALLOC_CMD_BUSY = false)
    (h : s.CanTake p tenant) : exec (.allocCmd p tenant) s = .next (s.live ((((s.allocBegun p tenant).taken p tenant).resDone 0x800014
      [(F.BBM_ALLOC_RESULT_LO_CODE, 0), (F.BBM_ALLOC_RESULT_HI_HANDLE, p * 2 ^ 26 + s.poolHead p)]).raise F.BBM_ISR_ALLOC_DONE)) := by
  change execAllocCmd p tenant s = _
  rw [execAllocCmd, State.startWith, hbusy, if_neg (by decide), Nat.mod_eq_of_lt hp, Nat.mod_eq_of_lt ht,
    show (List.foldl (fun t q => t.setFld q.1 q.2) s [(F.BBM_ALLOC_CMD_POOL, p), (F.BBM_ALLOC_CMD_TENANT, tenant)]).resStart 0x800014 = s.allocBegun p tenant from rfl,
    State.allocBobbin_got (State.canTake_allocBegun hp h)]
  rfl

/-! ### INIT (R346) -/

/-- INIT links the pool's bobbins in order. -/
def State.linkPool (s : State) (p n : Nat) : State :=
  (List.range n).foldl (fun t i => t.putMeta p i 0 0 (if i + 1 = n then listEnd else i + 1) 0 0) s

theorem State.physFrame_linkPool (s : State) {p : Nat} (hp : p < 64) (n : Nat) :
    s.PhysFrame (fun c => s.metaAddr p 0 ≤ c ∧ c < s.metaAddr p n) (s.linkPool p n) := by
  have hfold : ∀ (l : List Nat) (t : State), s.Keeps (poolFlds p) t → (∀ i ∈ l, i < n) →
      t.PhysFrame (fun c => s.metaAddr p 0 ≤ c ∧ c < s.metaAddr p n)
        (l.foldl (fun t i => t.putMeta p i 0 0 (if i + 1 = n then listEnd else i + 1) 0 0) t) := by
    intro l
    induction l with
    | nil => exact fun t _ _ => .refl _ t
    | cons i l ih =>
      intro t ht hl
      obtain ⟨hi, hl⟩ := List.forall_mem_cons.mp hl
      have hput := t.physFrame_putMeta p i 0 0 (if i + 1 = n then listEnd else i + 1) 0 0
      refine (hput.weaken fun c hc => ?_).trans (ih _ (ht.trans (hput.keeps_poolFlds hp)) hl)
      rw [ht.metaAddr] at hc
      unfold State.metaAddr at hc ⊢
      omega
  exact hfold _ s (.refl _ s) fun i hi => List.mem_range.mp hi

/-- Settles O38. -/
theorem bobbinOperationsKeepCounts : Obligations.BobbinOperationsKeepCounts := by
  refine ⟨fun cls tenant pool s hon hp ht hen hcor hown hfree hquota hlt hstate => ?_, fun tenant pool s hon hp ht hbusy hen hcor hown hfree hquota hlt hstate => ?_,
    fun tenant handle s hon hmay href => ?_, fun tenant handle s hon hmay href => ?_, fun tenant handle s hon hmay => ?_, fun pool s hon hp hen hn => ?_⟩
  · have h : s.CanTake pool tenant := ⟨hen, hcor, hown, hfree, hquota, hlt, hstate⟩
    have he : exec (.bobbinAllocate cls tenant pool) s =
        .next (s.live ((s.taken pool tenant).send (.bobbin cls tenant (pool * 2 ^ 26 + s.poolHead pool) 0))) := by
      change execBobbinAllocate cls tenant pool s = _
      rw [execBobbinAllocate, Nat.mod_eq_of_lt hp, Nat.mod_eq_of_lt ht, State.allocBobbin_got h]
    rw [he, State.send_bobbin, State.next_live_eq hon (by exact s.taken_pins pool tenant)]
    exact ⟨_, rfl, congrArg (· ++ _) (s.taken_sent pool tenant), s.taken_poolHead pool tenant, s.taken_freeCount pool tenant⟩
  · have h : s.CanTake pool tenant := ⟨hen, hcor, hown, hfree, hquota, hlt, hstate⟩
    rw [exec_allocCmd hp ht hbusy h]
    generalize hu : (s.allocBegun pool tenant).taken pool tenant = u
    have hhandle : pool * 2 ^ 26 + s.poolHead pool < 2 ^ 32 := by
      have : s.poolCount pool ≤ 0x3FFFFFE := Nat.min_le_left _ _
      omega
    have hseq : u.fld (resSeq 0x800014) = s.fld (resSeq 0x800014) := by
      rw [← hu, State.taken_fld _ _ _ (by decide) (by decide) (by simp only [Fld.key, resSeq, F.BBM_POOL_STATUS_FREE_COUNT]; omega), State.allocBegun,
        State.fld_resStart_ne _ _ (by decide) (by decide), State.fld_setFld_ne _ _ (by decide), State.fld_setFld_ne _ _ (by decide)]
    have hpins : u.pins = s.pins := hu ▸ State.taken_pins _ _ _
    rw [State.next_live_eq hon (by rw [State.raise_pins, State.resDone_pins, hpins])]
    refine ⟨_, rfl, (u.answered_done [F.BBM_ALLOC_RESULT_LO_CODE, F.BBM_ALLOC_RESULT_HI_HANDLE] rfl (by decide) ?_).of_seq hseq, ?_,
      State.fld_raise_same _ _ rfl (by decide)⟩
    · simp only [List.forall_mem_cons, List.not_mem_nil, false_imp_iff, implies_true, and_true]
      exact ⟨by decide, hhandle⟩
    · rw [State.poolHead, State.raise_bbm, State.resDone_bbm, ← hu]
      exact (State.taken_poolHead _ _ _).trans (s.link_allocBegun tenant _ hp)
  · have he : s.incBobbin tenant handle = s.setRef (handlePool handle) (handleIndex handle) (s.refCount (handlePool handle) (handleIndex handle) + 1) := by
      rw [State.incBobbin, if_pos (by simp [hmay, href])]
    refine ⟨_, State.next_live_eq hon ?_, he⟩
    rw [he]
    exact (s.physFrame_physWr _ _).pins
  · have he : s.decBobbin tenant handle = s.setRef (handlePool handle) (handleIndex handle) (s.refCount (handlePool handle) (handleIndex handle) - 1) := by
      rw [State.decBobbin, if_neg (by simp [hmay]), if_pos href]
    refine ⟨_, State.next_live_eq hon ?_, he⟩
    rw [he]
    exact (s.physFrame_physWr _ _).pins
  · have he : s.decBobbin tenant handle = s.refuseBobbin := by
      rw [State.decBobbin, if_pos (by simp [hmay])]
    refine ⟨_, State.next_live_eq hon ?_, ?_⟩
    · rw [he]
      exact State.raise_pins _ _
    · rw [he]
      exact State.logs_raise _ _
  · have he : exec (.poolInit pool) s = .next (s.live (((((s.linkPool pool (s.poolCount pool)).modBbm fun b => { b with
        head := b.head.put pool 0, tail := b.tail.put pool (s.poolCount pool - 1), quar := b.quar.del pool }).setFld
        (F.BBM_POOL_STATUS_CORRUPT pool) 0).setFld (F.BBM_POOL_STATUS_FREE_COUNT pool) (s.poolCount pool)).setFld (F.BBM_POOL_QUAR_QUARANTINED pool) 0 |>.setFld
        F.RDT_QUAR_COUNT_BOBBINS (s.fld F.RDT_QUAR_COUNT_BOBBINS - s.fld (F.BBM_POOL_QUAR_QUARANTINED pool)))) := by
      change execPoolInit pool s = _
      unfold execPoolInit
      dsimp only
      rw [Nat.mod_eq_of_lt hp, hen, if_neg (by decide)]
      simp only [if_neg hn]
      rfl
    have hframe := s.physFrame_linkPool hp (s.poolCount pool)
    generalize s.linkPool pool (s.poolCount pool) = u at he hframe
    have hcount : s.poolCount pool < 2 ^ 26 := Nat.lt_of_le_of_lt (Nat.min_le_left _ _) (by decide)
    refine ⟨_, he.trans (State.next_live_eq hon hframe.pins), ?_, ?_, ?_, ?_, fun a ha hr => hframe.mem a (by omega) hr⟩
    · rw [State.fld_setFld_ne _ _ (by simp only [Fld.key, F.BBM_POOL_STATUS_FREE_COUNT, F.RDT_QUAR_COUNT_BOBBINS]; omega),
        State.fld_setFld_ne _ _ (by simp only [Fld.key, F.BBM_POOL_STATUS_FREE_COUNT, F.BBM_POOL_QUAR_QUARANTINED]; omega), State.fld_setFld_same]
      exact Nat.mod_eq_of_lt hcount
    · rw [State.fld_setFld_ne _ _ (by simp only [Fld.key, F.BBM_POOL_STATUS_CORRUPT, F.RDT_QUAR_COUNT_BOBBINS]; omega),
        State.fld_setFld_ne _ _ (by simp only [Fld.key, F.BBM_POOL_STATUS_CORRUPT, F.BBM_POOL_QUAR_QUARANTINED]; omega),
        State.fld_setFld_ne _ _ (by simp only [Fld.key, F.BBM_POOL_STATUS_CORRUPT, F.BBM_POOL_STATUS_FREE_COUNT]; omega), State.fld_setFld_same]
      rfl
    · change ((u.bbm.head.put pool 0).get? pool).getD listEnd = 0
      rw [Tbl.get?_put_same]
      rfl
    · change ((u.bbm.tail.put pool (s.poolCount pool - 1)).get? pool).getD listEnd = _
      rw [Tbl.get?_put_same]
      rfl

end Sys2Proof.Machine
end

section
/-! SUPPORT. What the head's own messages and a change of its state leave alone. -/
namespace Sys2Proof.Machine

/-- t is s but for registers, the journal and what goes out on the wire. -/
def State.Reports (s t : State) : Prop :=
  t = { s with cells := t.cells, dram := t.dram, rpj := t.rpj, fresh := t.fresh, rdt := t.rdt, sent := t.sent, egress := t.egress }

section
variable {s t u : State}

theorem State.Reports.refl (s : State) : s.Reports s := rfl

theorem State.Reports.trans (h : s.Reports t) (k : t.Reports u) : s.Reports u := by
  unfold State.Reports at *
  rw [k, h]

theorem State.Reports.foldl {α : Type} {f : State → α → State} (h : ∀ (t : State) (a : α), t.Reports (f t a)) (l : List α) (s : State) :
    s.Reports (l.foldl f s) := by
  induction l generalizing s with
  | nil => exact .refl s
  | cons a l ih => exact (h s a).trans (ih _)

theorem State.SameUnits.reports (h : s.SameUnits t) : s.Reports t := by
  unfold State.SameUnits at h
  unfold State.Reports
  rw [h]

theorem State.Reports.pins (h : s.Reports t) : t.pins = s.pins := by rw [h]
theorem State.Reports.upd (h : s.Reports t) : t.upd = s.upd := by rw [h]
theorem State.Reports.boot (h : s.Reports t) : t.boot = s.boot := by rw [h]
theorem State.Reports.trn (h : s.Reports t) : t.trn = s.trn := by rw [h]

end

theorem State.reports_send (s : State) (m : Sent) : s.Reports (s.send m) := by
  rcases s.send_eq m with e | e <;> rw [e] <;> rfl

theorem State.reports_egressTo (s : State) (q : Qp) (m : Sent) : s.Reports (s.egressTo q m) := by
  unfold State.egressTo
  split
  · rfl
  · exact s.reports_send m

theorem State.reports_launch (s : State) (n : Nat) (q : Qp) (w : OutWqe) (span : Nat) : s.Reports (s.launch n q w span) := by
  unfold State.launch
  dsimp only
  split
  · rfl
  · exact State.Reports.trans (by rfl) (.foldl (fun t p => t.reports_egressTo q (.roce p)) w.pkts _)

theorem State.reports_post (s : State) (n : Nat) (first : Bool) (w : OutWqe) : s.Reports (s.post n first w) := by
  unfold State.post
  split
  · rfl
  · split
    · rfl
    · split
      · rfl
      · exact s.reports_launch _ _ _ _

theorem State.reports_sendStatus (s : State) : s.Reports s.sendStatus := by
  refine .foldl (fun t k => ?_) _ s
  unfold State.sendTable
  dsimp only
  split
  · exact (t.reports_send _).trans (State.reports_post _ _ _ _)
  · rfl

theorem State.sendStatus_cells (s : State) : s.sendStatus.cells = s.cells := by
  unfold State.sendStatus
  generalize List.range 8 = l
  induction l generalizing s with
  | nil => rfl
  | cons k l ih =>
    rw [List.foldl_cons, ih]
    unfold State.sendTable State.postSend
    dsimp only
    split
    · rw [State.post_cells, State.send_cells]
    · rfl

theorem State.reports_setHead (s : State) (st : Nat) : s.Reports (s.setHead st) := by
  unfold State.setHead
  split
  · rfl
  · exact ((s.sameUnits_setFld _ _).trans ((State.sameUnits_raise _ F.GLB_ISR_STATE).trans (by rfl))).reports.trans (State.reports_sendStatus _)

theorem State.keeps_setHead {l : List Fld} (s : State) (st : Nat) (h : (apartFrom F.GLB_PAIR_STATUS_STATE l && apartFrom F.GLB_ISR_STATE l) = true) :
    s.Keeps l (s.setHead st) := by
  obtain ⟨h1, h2⟩ := Bool.and_eq_true_iff.mp h
  unfold State.setHead
  split
  · exact .refl l s
  · exact ((s.keeps_setFld st h1).trans (State.keeps_raise _ h2)).trans ((State.keeps_logEvent _ _ _ _ _ fun g hg => (apartFrom_spec h1 hg).2).trans
      (.of_cells (State.sendStatus_cells _)))

theorem State.headState_setHead (s : State) {st : Nat} (h : st < 8) : (s.setHead st).headState = st := by
  unfold State.setHead
  split
  · next he => exact he.symm
  · rw [State.headState, State.fld_of_cells (State.sendStatus_cells _), State.fld_logEvent _ _ _ _ _ (by decide),
      State.fld_raise_ne _ (by decide) (by decide), State.fld_setFld_same]
    exact Nat.mod_eq_of_lt h

/-- A command that completes, clears its BUSY bit and raises an interrupt answers. -/
theorem State.answered_done_idle (s : State) {off : Nat} {l : List (Fld × Nat)} {b f : Fld} (fs : List Fld) (hfs : l.map Prod.fst = fs)
    (hk : (outcomeKeys off fs && apartFrom b (resValid off :: resSeen off :: resSeq off :: fs) && clearOf off fs f) = true)
    (hv : ∀ p ∈ l, p.2 < 2 ^ p.1.width) : s.Answered (((s.resDone off l).setFld b 0).raise f) off l := by
  subst hfs
  simp only [Bool.and_eq_true] at hk
  obtain ⟨⟨hk, hb⟩, hf⟩ := hk
  exact ((s.answered_resDone off l (outcomeOk_of_keys hk hv)).congr (State.keeps_setFld _ _ hb)).raise_clear hf

end Sys2Proof.Machine
end

section
/-! PROOF. LOAD of an image, the steps of an update and how they end (R424-R429). -/
namespace Sys2Proof.Machine

/-! ### Commands of UPD_CMD -/

/-- The state in which a command of UPD_CMD runs. -/
def State.updBegun (s : State) (op cls arg : Nat) : State :=
  ((((s.setFld F.UPD_CMD_OP op).setFld F.UPD_CMD_CLASS cls).setFld F.UPD_CMD_ARG arg).resStart updRes).setFld F.UPD_CMD_BUSY 1

theorem State.updStart_of_idle {s : State} (h : s.flag F.UPD_CMD_BUSY = false) (op cls arg : Nat) (run : State → State) :
    s.updStart op cls arg run = run (s.updBegun op cls arg) := by
  rw [State.updStart, State.startWith, h, if_neg (by decide)]
  rfl

theorem State.keeps_updBegun {l : List Fld} (s : State) (op cls arg : Nat)
    (h : ([F.UPD_CMD_OP, F.UPD_CMD_CLASS, F.UPD_CMD_ARG, resValid updRes, resSeen updRes, F.UPD_CMD_BUSY].all fun f => apartFrom f l) = true) :
    s.Keeps l (s.updBegun op cls arg) := by
  simp only [List.all_cons, List.all_nil, Bool.and_eq_true, Bool.and_true] at h
  obtain ⟨hop, hcls, harg, hvalid, hseen, hbusy⟩ := h
  exact (((s.keeps_setFld _ hop).trans (State.keeps_setFld _ _ hcls)).trans (State.keeps_setFld _ _ harg)).trans
    ((State.keeps_resStart _ (by rw [hvalid, hseen]; rfl)).trans (State.keeps_setFld _ _ hbusy))

/-- A command that completes answers, and writes nothing else. -/
theorem State.updDone_spec (s : State) {code : Nat} (hc : code < 16) :
    s.SameUnits (s.updDone code) ∧ s.Answered (s.updDone code) updRes [(F.UPD_RESULT_CODE, code)] ∧
      (s.updDone code).fld F.UPD_CMD_BUSY = 0 ∧ (s.updDone code).fld F.UPD_ISR_CMD_DONE = 1 := by
  refine ⟨?_, ?_, ?_, State.fld_raise_same _ _ rfl (by decide)⟩
  · exact ((s.regsOnly_resDone _ _).sameUnits.trans (State.sameUnits_setFld _ _ _)).trans (State.sameUnits_raise _ _)
  · exact s.answered_done_idle [F.UPD_RESULT_CODE] rfl (by decide) (forall_outcome_one hc)
  · exact (State.fld_raise_ne _ (by decide) (by decide)).trans (State.fld_setFld_same _ _ 0)

theorem State.keeps_updDone {l : List Fld} (s : State) (code : Nat)
    (h : (apartFromResult updRes [F.UPD_RESULT_CODE] l && apartFrom F.UPD_CMD_BUSY l && apartFrom F.UPD_ISR_CMD_DONE l) = true) :
    s.Keeps l (s.updDone code) := by
  simp only [Bool.and_eq_true] at h
  obtain ⟨⟨hres, hbusy⟩, hisr⟩ := h
  exact ((s.keeps_resDone _ rfl hres).trans (State.keeps_setFld _ _ hbusy)).trans (State.keeps_raise _ hisr)

/-! ### LOAD -/

/-- The version that runs is not an operand of a command. -/
theorem State.runVersion_updBegun (s : State) (op cls arg c : Nat) :
    (s.updBegun op cls arg).fld (F.UPD_RUN_VERSION_VERSION c) = s.fld (F.UPD_RUN_VERSION_VERSION c) := by
  have hne : ∀ f : Fld, f.key < 0x1700040 * 8 → (F.UPD_RUN_VERSION_VERSION c).key ≠ f.key := fun f hf => by
    simp only [Fld.key, F.UPD_RUN_VERSION_VERSION] at hf ⊢
    omega
  rw [State.updBegun, State.fld_setFld_ne _ _ (hne _ (by decide)), State.fld_resStart_ne _ _ (hne _ (by decide)) (hne _ (by decide)),
    State.fld_setFld_ne _ _ (hne _ (by decide)), State.fld_setFld_ne _ _ (hne _ (by decide)), State.fld_setFld_ne _ _ (hne _ (by decide))]

/-- Is an image refused for what it is? -/
def State.imageBad (s : State) (g : Image) : Bool :=
  s.fld F.UPD_IMG_LEN_LENGTH != g.length || g.cls == 0 || decide (8 ≤ g.cls) || s.checkImage g.cls false g != 0 || (decide (3 ≤ g.cls) && !compatFits g)

theorem State.imageBad_of_fits (s : State) {g : Image} (hlen : s.fld F.UPD_IMG_LEN_LENGTH = g.length) (hcls : 0 < g.cls ∧ g.cls < 8)
    (hcheck : s.checkImage g.cls false g = 0) (hfits : g.cls < 3 ∨ compatFits g = true) : s.imageBad g = false := by
  obtain ⟨h0, h8⟩ := hcls
  rw [State.imageBad, hlen, hcheck]
  obtain hlt | hfit := hfits
  · simp [Nat.ne_of_gt h0, Nat.not_le.mpr h8, Nat.not_le.mpr hlt]
  · simp [Nat.ne_of_gt h0, Nat.not_le.mpr h8, hfit]

/-- What LOAD makes of the image it finds. -/
def State.load (s : State) (g : Image) : State :=
  if s.imageBad g then s.updDone 1
  else if g.version < s.fld (F.UPD_RUN_VERSION_VERSION g.cls) ∧ s.phase ≠ phFrogging then s.updDone 2
  else (s.stageImage g).updDone 0

theorem exec_updateLoad {s : State} (h : s.flag F.UPD_CMD_BUSY = false) (bodies : List SectionBody) :
    let u := s.updBegun 0 (s.fld F.UPD_CMD_CLASS) (s.fld F.UPD_CMD_ARG)
    exec (.updateLoad bodies) s = .next (s.live (u.load ⟨u.rd u.updImage (u.fld F.UPD_IMG_LEN_LENGTH), bodies⟩)) := by
  intro u
  change execUpdateLoad bodies s = _
  rw [execUpdateLoad, State.updStart_of_idle h]
  unfold State.load State.imageBad
  simp only [Bool.or_eq_true, Bool.and_eq_true, bne_iff_ne, decide_eq_true_eq, beq_iff_eq, or_assoc]
  rfl

/-- What earlier images had reached ends; a verified image stands as its class's. -/
theorem State.stageImage_spec (s : State) (g : Image) :
    (s.stageImage g).upd.staged = s.upd.staged.put g.cls g ∧ (s.stageImage g).boot = s.boot ∧ (s.stageImage g).pins = s.pins ∧
      s.Keeps [resSeq updRes] (s.stageImage g) := by
  have hlast : ∀ (u : State) (p : Nat), u.Keeps [resSeq updRes] ((u.setFld F.UPD_STATUS_STEP_FAILS 0).setPhase p) := fun u p =>
    (u.keeps_setFld _ (by decide)).trans (State.keeps_setFld _ _ (by decide))
  unfold State.stageImage
  dsimp only
  generalize hs1 : (if s.phase = phIdle ∨ s.phase = phFrogged then _ else s : State) = s1
  have h1 : s1.upd.staged = s.upd.staged ∧ s1.boot = s.boot ∧ s1.pins = s.pins ∧ s.Keeps [resSeq updRes] s1 := by
    subst hs1
    split
    · exact ⟨rfl, rfl, rfl, ((State.Keeps.of_cells rfl).trans (State.keeps_setFld _ _ (by decide))).trans
        ((State.keeps_setFld _ _ (by decide)).trans (State.keeps_setFld _ _ (by decide)))⟩
    · exact ⟨rfl, rfl, rfl, .refl _ s⟩
  generalize hs2 : (s1.modUpd _) = s2
  have h2 : s2.upd.staged = s1.upd.staged.put g.cls g ∧ s2.boot = s1.boot ∧ s2.pins = s1.pins ∧ s1.Keeps [resSeq updRes] s2 := by
    subst hs2
    exact ⟨rfl, rfl, rfl, .of_cells rfl⟩
  generalize hs3 : (if g.cls = 4 then _ else _ : State) = s3
  have h3 : s2.RegsOnly s3 ∧ s2.Keeps [resSeq updRes] s3 := by
    subst hs3
    split
    · exact ⟨s2.regsOnly_setFld _ _, s2.keeps_setFld _ (by decide)⟩
    · split
      · exact ⟨s2.regsOnly_setFld _ _, s2.keeps_setFld _ (by decide)⟩
      · exact ⟨.refl s2, .refl _ s2⟩
  obtain ⟨hst1, hb1, hp1, hk1⟩ := h1
  obtain ⟨hst2, hb2, hp2, hk2⟩ := h2
  obtain ⟨hr3, hk3⟩ := h3
  exact ⟨(congrArg UpdSt.staged hr3.upd).trans (by rw [hst2, hst1]), hr3.boot.trans (by rw [hb2, hb1]), hr3.pins.trans (by rw [hp2, hp1]),
    ((hk1.trans hk2).trans hk3).trans (hlast s3 _)⟩

/-- LOAD answers what it found, and leaves what runs alone. -/
theorem State.load_spec (s : State) (g : Image) :
    let older : Bool := decide (g.version < s.fld (F.UPD_RUN_VERSION_VERSION g.cls)) && s.phase != 4
    (s.imageBad g = true → s.Answered (s.load g) updRes [(F.UPD_RESULT_CODE, 1)] ∧ (s.load g).upd = s.upd) ∧
      (s.imageBad g = false ∧ older = true → s.Answered (s.load g) updRes [(F.UPD_RESULT_CODE, 2)] ∧ (s.load g).upd = s.upd) ∧
      (s.imageBad g = false ∧ older = false → s.Answered (s.load g) updRes [(F.UPD_RESULT_CODE, 0)] ∧ (s.load g).upd.staged = s.upd.staged.put g.cls g) ∧
      (s.load g).fld F.UPD_CMD_BUSY = 0 ∧ (s.load g).fld F.UPD_ISR_CMD_DONE = 1 ∧ (s.load g).boot = s.boot ∧ (s.load g).pins = s.pins := by
  intro older
  have holder : (g.version < s.fld (F.UPD_RUN_VERSION_VERSION g.cls) ∧ s.phase ≠ phFrogging) ↔ older = true := by
    simp only [older, Bool.and_eq_true, decide_eq_true_eq, bne_iff_ne]
    rfl
  unfold State.load
  rw [ite_congr (propext holder) (fun _ => rfl) fun _ => rfl]
  cases hbad : s.imageBad g with
  | true =>
    obtain ⟨hunits, hans, hbusy, hisr⟩ := s.updDone_spec (code := 1) (by decide)
    rw [if_pos rfl]
    exact ⟨fun _ => ⟨hans, hunits.upd⟩, nofun, nofun, hbusy, hisr, hunits.boot, hunits.pins⟩
  | false =>
    rw [if_neg (by decide)]
    cases older with
    | true =>
      obtain ⟨hunits, hans, hbusy, hisr⟩ := s.updDone_spec (code := 2) (by decide)
      rw [if_pos rfl]
      exact ⟨nofun, fun _ => ⟨hans, hunits.upd⟩, nofun, hbusy, hisr, hunits.boot, hunits.pins⟩
    | false =>
      obtain ⟨hstaged, hboot, hpins, hk⟩ := s.stageImage_spec g
      obtain ⟨hunits, hans, hbusy, hisr⟩ := (s.stageImage g).updDone_spec (code := 0) (by decide)
      rw [if_neg (by decide)]
      exact ⟨nofun, nofun, fun _ => ⟨hans.of_seq (hk _ (by decide)), by rw [hunits.upd, hstaged]⟩, hbusy, hisr, hunits.boot.trans hboot,
        hunits.pins.trans hpins⟩

theorem updateLoad_holds (bodies : List SectionBody) (s : State) :
    let u : State := s.updStart 0 (s.fld F.UPD_CMD_CLASS) (s.fld F.UPD_CMD_ARG) id
    let img : Image := ⟨u.rd u.updImage (u.fld F.UPD_IMG_LEN_LENGTH), bodies⟩
    let bad : Bool := u.imageBad img
    let older : Bool := decide (img.version < s.fld (F.UPD_RUN_VERSION_VERSION img.cls)) && s.phase != 4
    s.pins.powered = true → s.flag F.UPD_CMD_BUSY = false →
    ∃ t, exec (.updateLoad bodies) s = .next t ∧
      (bad = true → s.Answered t 0x1700018 [(F.UPD_RESULT_CODE, 1)] ∧ t.upd = s.upd) ∧
      ((bad = false ∧ older = true) → s.Answered t 0x1700018 [(F.UPD_RESULT_CODE, 2)] ∧ t.upd = s.upd) ∧
      ((bad = false ∧ older = false) → s.Answered t 0x1700018 [(F.UPD_RESULT_CODE, 0)] ∧ t.upd.staged = s.upd.staged.put img.cls img) ∧
      t.fld F.UPD_CMD_BUSY = 0 ∧ t.fld F.UPD_ISR_CMD_DONE = 1 ∧ t.boot = s.boot := by
  intro u img bad older hon hbusy
  have hu : u = s.updBegun 0 (s.fld F.UPD_CMD_CLASS) (s.fld F.UPD_CMD_ARG) := State.updStart_of_idle hbusy _ _ _ _
  have hk : s.Keeps [resSeq updRes, F.UPD_STATUS_PHASE] u := hu ▸ s.keeps_updBegun _ _ _ (by decide)
  have hver : u.fld (F.UPD_RUN_VERSION_VERSION img.cls) = s.fld (F.UPD_RUN_VERSION_VERSION img.cls) := hu ▸ s.runVersion_updBegun _ _ _ _
  have hphase : u.phase = s.phase := hk _ (by decide)
  have hunits : u.upd = s.upd ∧ u.boot = s.boot ∧ u.pins = s.pins := hu ▸ ⟨rfl, rfl, rfl⟩
  have he := exec_updateLoad hbusy bodies
  rw [← hu] at he
  have h := u.load_spec img
  rw [hver, hphase] at h
  clear_value u
  obtain ⟨hupd, hboot, hpins⟩ := hunits
  obtain ⟨h1, h2, h3, h4, h5, h6, h7⟩ := h
  rw [hupd] at h1 h2 h3
  have hseq : u.fld (resSeq updRes) = s.fld (resSeq updRes) := hk _ (by decide)
  exact ⟨_, he.trans (State.next_live_eq hon (h7.trans hpins)), fun hb => ⟨(h1 hb).1.of_seq hseq, (h1 hb).2⟩, fun hb => ⟨(h2 hb).1.of_seq hseq, (h2 hb).2⟩,
    fun hb => ⟨(h3 hb).1.of_seq hseq, (h3 hb).2⟩, h4, h5, h6.trans hboot⟩

/-! ### The hold of a step (R473) -/

theorem State.keeps_swapRoutes {l : List Fld} (s : State) (hl : ∀ g ∈ l, g.key < 0x1A01000 * 8) : s.Keeps l s.swapRoutes :=
  .foldl (fun t k _ g hg => t.fld_setFld_ne _ (by have := hl g hg; simp only [Fld.key, F.IRQ_ROUTE_ACTIVE] at this ⊢; omega)) s

/-- The head as a hold's end leaves it before what was held is delivered. -/
def State.holdLeft (s : State) (swap : Bool) : State :=
  if swap then (s.setFld F.IRQ_SWAP_HOLDING 0).swapRoutes else s.setFld F.IRQ_SWAP_HOLDING 0

theorem State.keeps_holdLeft {l : List Fld} (s : State) (swap : Bool) (hl : ∀ g ∈ l, g.key < 0x1A01000 * 8) :
    (s.setFld F.IRQ_SWAP_HOLDING 0).Keeps l (s.holdLeft swap) := .ite (State.keeps_swapRoutes _ hl) (.refl _ _)

theorem State.keeps_endIrqHold {l : List Fld} (s : State) (swap : Bool) (h : apartFrom F.IRQ_SWAP_HOLDING l = true) (hl : ∀ g ∈ l, g.key < 0x1A01000 * 8) :
    s.Keeps l (s.endIrqHold swap) := by
  unfold State.endIrqHold
  split
  · exact .refl l s
  · exact ((s.keeps_setFld 0 h).trans (s.keeps_holdLeft swap hl)).trans (.foldl (fun t b _ => t.keeps_record _ _ _ fun g hg => (apartFrom_spec h hg).2) _)

theorem State.sameUnits_endIrqHold (s : State) (swap : Bool) : s.SameUnits (s.endIrqHold swap) := by
  have hleft : s.SameUnits (s.holdLeft swap) :=
    (s.sameUnits_setFld F.IRQ_SWAP_HOLDING 0).trans (.ite (State.swapRoutes_spec _).1.sameUnits (.refl _))
  unfold State.endIrqHold
  split
  · exact .refl s
  · exact hleft.trans (.foldl (fun t b => (t.logs_record _ _ _).sameUnits) _ _)

theorem State.holding_endIrqHold (s : State) (swap : Bool) : (s.endIrqHold swap).flag F.IRQ_SWAP_HOLDING = false := by
  unfold State.endIrqHold
  cases hh : s.flag F.IRQ_SWAP_HOLDING with
  | false => rw [if_pos (by rfl), hh]
  | true =>
    rw [if_neg (by decide)]
    refine foldl_keeps (P := fun t => t.flag F.IRQ_SWAP_HOLDING = false) (fun t b ht => ?_) _ (s := s.holdLeft swap) ?_
    · rw [State.flag, State.fld_record _ _ _ _ (by decide)]
      exact ht
    · rw [State.flag, s.keeps_holdLeft swap (l := [F.IRQ_SWAP_HOLDING]) (by decide) _ (by decide), State.fld_setFld_same]
      rfl

/-! ### How a step ends (R428, R429) -/

/-- What a step of another class than 5 leaves before its result. -/
def State.stepLeft (s : State) (x : UpdStep) (held : Nat) (swap : Bool) : State :=
  let s1 := (s.endIrqHold swap).modUpd fun u => { u with step := none }
  let s2 := if x.cls = 4 then s1.noteHold held else s1
  if s2.headState = stHandover then s2.setHead stPlaying else s2

theorem State.stepEnd_eq (s : State) {x : UpdStep} (h : x.cls ≠ 5) (code held : Nat) (swap : Bool) :
    s.stepEnd x code held swap = (if code = 4 then (s.stepLeft x held swap).countFail x else s.stepLeft x held swap).updDone code := by
  rw [State.stepEnd, if_neg h]
  rfl

/-- The fields of a step that its end leaves to its result. -/
def stepFlds : List Fld :=
  [F.UPD_STATUS_PHASE, F.UPD_STATUS_NEW_CLUSTERS, F.UPD_STATUS_STEP_FAILS, F.UPD_STATUS_FROG_ADVISED]

theorem State.keeps_noteHold {l : List Fld} (s : State) (ns : Nat) (h : (apartFrom F.UPD_PAUSE_STEPS l && apartFrom F.UPD_PAUSE_MAX_NS l) = true) :
    s.Keeps l (s.noteHold ns) := by
  obtain ⟨h1, h2⟩ := Bool.and_eq_true_iff.mp h
  exact (s.keeps_inc 1 h1).trans (State.keeps_setFld _ _ h2)

theorem State.noteHold_pause (s : State) (ns : Nat) :
    (s.noteHold ns).fld F.UPD_PAUSE_STEPS = min (s.fld F.UPD_PAUSE_STEPS + 1) 0xFFFF ∧
      (s.noteHold ns).fld F.UPD_PAUSE_MAX_NS = min 0xFFFF (max ns (s.fld F.UPD_PAUSE_MAX_NS)) := by
  constructor
  · exact (State.fld_setFld_ne _ _ (by decide)).trans (s.fld_inc_same _ _)
  · rw [State.noteHold, State.fld_setFld_same]
    exact Nat.mod_eq_of_lt (Nat.lt_of_le_of_lt (Nat.min_le_left _ _) (by decide))

theorem State.stepLeft_spec (s : State) (x : UpdStep) (held : Nat) (swap : Bool) (hhead : s.headState = 4) :
    (s.stepLeft x held swap).upd = { s.upd with step := none } ∧ (s.stepLeft x held swap).pins = s.pins ∧ (s.stepLeft x held swap).boot = s.boot ∧
      (s.stepLeft x held swap).headState = 3 ∧ (s.stepLeft x held swap).flag F.IRQ_SWAP_HOLDING = false ∧ s.Keeps stepFlds (s.stepLeft x held swap) ∧
      (x.cls = 4 → (s.stepLeft x held swap).fld F.UPD_PAUSE_STEPS = min (s.fld F.UPD_PAUSE_STEPS + 1) 0xFFFF ∧
        (s.stepLeft x held swap).fld F.UPD_PAUSE_MAX_NS = min 0xFFFF (max held (s.fld F.UPD_PAUSE_MAX_NS))) := by
  unfold State.stepLeft
  dsimp only
  generalize hs1 : ((s.endIrqHold swap).modUpd fun u => { u with step := none }) = s1
  have h1 : s1.upd = { s.upd with step := none } ∧ s1.pins = s.pins ∧ s1.boot = s.boot ∧ s1.flag F.IRQ_SWAP_HOLDING = false ∧
      s.Keeps (F.GLB_PAIR_STATUS_STATE :: F.UPD_PAUSE_STEPS :: F.UPD_PAUSE_MAX_NS :: stepFlds) s1 := by
    have hunits := s.sameUnits_endIrqHold swap
    subst hs1
    exact ⟨congrArg (fun u : UpdSt => { u with step := none }) hunits.upd, hunits.pins, hunits.boot, s.holding_endIrqHold swap,
      (s.keeps_endIrqHold swap (by decide) (by decide)).trans (.of_cells rfl)⟩
  obtain ⟨hupd, hpins, hboot, hhold, hk1⟩ := h1
  generalize hs2 : (if x.cls = 4 then s1.noteHold held else s1) = s2
  have h2 : s1.RegsOnly s2 ∧ s1.Keeps (F.IRQ_SWAP_HOLDING :: F.GLB_PAIR_STATUS_STATE :: stepFlds) s2 ∧
      (x.cls = 4 → s2.fld F.UPD_PAUSE_STEPS = min (s1.fld F.UPD_PAUSE_STEPS + 1) 0xFFFF ∧
        s2.fld F.UPD_PAUSE_MAX_NS = min 0xFFFF (max held (s1.fld F.UPD_PAUSE_MAX_NS))) := by
    subst hs2
    split
    · exact ⟨(s1.regsOnly_setFld _ _).trans (State.regsOnly_setFld _ _ _), s1.keeps_noteHold held (by decide), fun _ => s1.noteHold_pause held⟩
    · next hne => exact ⟨.refl s1, .refl _ s1, fun h => absurd h hne⟩
  obtain ⟨hr2, hk2, hpause⟩ := h2
  have hhead2 : s2.headState = stHandover := (hk2 F.GLB_PAIR_STATUS_STATE (by decide)).trans ((hk1 F.GLB_PAIR_STATUS_STATE (by decide)).trans hhead)
  rw [if_pos hhead2]
  have hset : s2.Keeps (F.IRQ_SWAP_HOLDING :: F.UPD_PAUSE_STEPS :: F.UPD_PAUSE_MAX_NS :: stepFlds) (s2.setHead stPlaying) := s2.keeps_setHead _ (by decide)
  have hrep := s2.reports_setHead stPlaying
  refine ⟨by rw [hrep.upd, hr2.upd, hupd], by rw [hrep.pins, hr2.pins, hpins], by rw [hrep.boot, hr2.boot, hboot], s2.headState_setHead (by decide), ?_, ?_, ?_⟩
  · rw [State.flag, hset _ (by decide), hk2 _ (by decide)]
    exact hhold
  · exact fun g hg => (hset g (by simp [hg])).trans ((hk2 g (by simp [hg])).trans (hk1 g (by simp [hg])))
  · intro h4
    obtain ⟨hsteps, hmax⟩ := hpause h4
    rw [hset _ (by decide), hset _ (by decide), hsteps, hmax, hk1 _ (by decide), hk1 _ (by decide)]
    exact ⟨rfl, rfl⟩

/-- The count of failures of a step after one more. -/
def State.failsNow (s : State) (x : UpdStep) : Nat := (s.upd.fails.get? (256 * x.cls + x.arg)).getD 0 + 1

/-- A failure counted. -/
def State.failCounted (s : State) (x : UpdStep) : State :=
  ((s.inc F.UPD_STATUS_STEP_FAILS).raise F.UPD_ISR_STEP_FAIL).modUpd fun u => { u with fails := u.fails.put (256 * x.cls + x.arg) (s.failsNow x) }

theorem State.countFail_eq (s : State) (x : UpdStep) :
    s.countFail x = if 2 ≤ s.failsNow x ∧ (!(s.failCounted x).flag F.UPD_STATUS_FROG_ADVISED) = true then
      ((s.failCounted x).setFld F.UPD_STATUS_FROG_ADVISED 1).raise F.UPD_ISR_FROG_ADVISED else s.failCounted x := rfl

/-- The fields that a count of failures leaves alone. -/
def failFlds : List Fld := [F.GLB_PAIR_STATUS_STATE, F.UPD_STATUS_NEW_CLUSTERS, F.IRQ_SWAP_HOLDING]

theorem State.countFail_spec (s : State) (x : UpdStep) :
    (s.countFail x).upd = { s.upd with fails := s.upd.fails.put (256 * x.cls + x.arg) (s.failsNow x) } ∧ (s.countFail x).pins = s.pins ∧
      (s.countFail x).fld F.UPD_STATUS_STEP_FAILS = min (s.fld F.UPD_STATUS_STEP_FAILS + 1) 0xFF ∧ (s.countFail x).fld F.UPD_ISR_STEP_FAIL = 1 ∧
      (2 ≤ s.failsNow x → (s.countFail x).flag F.UPD_STATUS_FROG_ADVISED = true) ∧ s.Keeps failFlds (s.countFail x) := by
  have hup := (s.sameUnits_setFld F.UPD_STATUS_STEP_FAILS (min (s.fld F.UPD_STATUS_STEP_FAILS + 1) 0xFF)).trans (State.sameUnits_raise _ F.UPD_ISR_STEP_FAIL)
  have hfailsUp : ((s.inc F.UPD_STATUS_STEP_FAILS).raise F.UPD_ISR_STEP_FAIL).fld F.UPD_STATUS_STEP_FAILS = min (s.fld F.UPD_STATUS_STEP_FAILS + 1) 0xFF :=
    (State.fld_raise_ne _ (by decide) (by decide)).trans (s.fld_inc_same _ _)
  have hisrUp : ((s.inc F.UPD_STATUS_STEP_FAILS).raise F.UPD_ISR_STEP_FAIL).fld F.UPD_ISR_STEP_FAIL = 1 := State.fld_raise_same _ _ rfl (by decide)
  have hkUp : s.Keeps failFlds ((s.inc F.UPD_STATUS_STEP_FAILS).raise F.UPD_ISR_STEP_FAIL) := (s.keeps_inc 1 (by decide)).trans (State.keeps_raise _ (by decide))
  have hcounted : ∃ u, s.failCounted x = u ∧ u.upd = { s.upd with fails := s.upd.fails.put (256 * x.cls + x.arg) (s.failsNow x) } ∧ u.pins = s.pins ∧
      u.fld F.UPD_STATUS_STEP_FAILS = min (s.fld F.UPD_STATUS_STEP_FAILS + 1) 0xFF ∧ u.fld F.UPD_ISR_STEP_FAIL = 1 ∧ s.Keeps failFlds u := by
    rw [State.failCounted]
    change s.SameUnits ((s.inc F.UPD_STATUS_STEP_FAILS).raise F.UPD_ISR_STEP_FAIL) at hup
    generalize (s.inc F.UPD_STATUS_STEP_FAILS).raise F.UPD_ISR_STEP_FAIL = w at hup hfailsUp hisrUp hkUp ⊢
    exact ⟨_, rfl, by rw [← hup.upd]; rfl, hup.pins, hfailsUp, hisrUp, hkUp.trans (.of_cells rfl)⟩
  obtain ⟨u, hu, hupd, hpins, hfails, hisr, hk⟩ := hcounted
  rw [State.countFail_eq, hu]
  have hunits := (u.sameUnits_setFld F.UPD_STATUS_FROG_ADVISED 1).trans (State.sameUnits_raise _ F.UPD_ISR_FROG_ADVISED)
  have hku : u.Keeps (F.UPD_STATUS_STEP_FAILS :: F.UPD_ISR_STEP_FAIL :: failFlds) ((u.setFld F.UPD_STATUS_FROG_ADVISED 1).raise F.UPD_ISR_FROG_ADVISED) :=
    (u.keeps_setFld 1 (by decide)).trans (State.keeps_raise _ (by decide))
  split
  · refine ⟨hunits.upd.trans hupd, hunits.pins.trans hpins, (hku _ (by decide)).trans hfails, (hku _ (by decide)).trans hisr, fun _ => ?_,
      hk.trans fun g hg => hku g (by simp [hg])⟩
    rw [State.flag, State.fld_raise_ne _ (by decide) (by decide), State.fld_setFld_same]
    rfl
  · next hnot =>
    refine ⟨hupd, hpins, hfails, hisr, fun hn => ?_, hk⟩
    cases hf : u.flag F.UPD_STATUS_FROG_ADVISED with
    | true => rfl
    | false => exact absurd ⟨hn, by rw [hf]; rfl⟩ hnot

/-! ### A function move's good end (R428) -/

/-- The fields that a new image's running leaves alone. -/
def moveFlds : List Fld := [F.GLB_PAIR_STATUS_STATE, F.UPD_STATUS_NEW_CLUSTERS, F.UPD_STATUS_STEP_FAILS, F.UPD_PAUSE_STEPS, F.UPD_PAUSE_MAX_NS]

theorem State.nowRuns_spec (s : State) (g : Option Image) (version : Nat) :
    (s.nowRuns 4 g version).upd = s.upd ∧ (s.nowRuns 4 g version).pins = s.pins ∧ s.Keeps moveFlds (s.nowRuns 4 g version) :=
  ⟨rfl, rfl, ((State.Keeps.of_cells rfl).trans (State.keeps_setFld _ _ (by decide))).trans
    ((State.keeps_setFld _ _ (by decide)).trans (State.keeps_setFld _ _ (by decide)))⟩

theorem State.settlePhase_spec (s : State) (h : s.phase ≠ 4) :
    (s.settlePhase 4).upd = s.upd ∧ (s.settlePhase 4).pins = s.pins ∧ s.Keeps moveFlds (s.settlePhase 4) := by
  have hset : ∀ (u : State) (p : Nat), u.upd = s.upd ∧ u.pins = s.pins ∧ s.Keeps moveFlds u →
      (u.setPhase p).upd = s.upd ∧ (u.setPhase p).pins = s.pins ∧ s.Keeps moveFlds (u.setPhase p) := fun u p ⟨h1, h2, h3⟩ =>
    ⟨h1, h2, h3.trans (State.keeps_setFld _ _ (by decide))⟩
  rw [State.settlePhase, if_neg (show ¬ s.phase = phFrogging from h)]
  refine hset _ _ ?_
  split
  · exact s.nowRuns_spec _ _
  · exact ⟨rfl, rfl, .refl _ s⟩

theorem bit_add_two_pow {n k j : Nat} (hk : k < 4) (hj : j < 4) :
    bit ((n - (if bit n k then 2 ^ k else 0) + 2 ^ k) % 16) j = (bit n j || decide (j = k)) := by
  have hmod : ∀ v, bit (v % 16) j = bit v j := fun v => by
    rw [bit_eq_testBit, bit_eq_testBit, show 16 = 2 ^ 4 from rfl, Nat.testBit_mod_two_pow, decide_eq_true hj, Bool.true_and]
  rw [hmod]
  cases hb : bit n k with
  | true =>
    have hge : 2 ^ k ≤ n := Nat.ge_two_pow_of_testBit (bit_eq_testBit n k ▸ hb)
    rw [if_pos rfl, Nat.sub_add_cancel hge]
    by_cases hjk : j = k
    · simp [hjk, hb]
    · simp [hjk]
  | false =>
    rw [if_neg (by decide), Nat.sub_zero]
    unfold bit at hb ⊢
    rw [Bool.eq_iff_iff, Bool.or_eq_true, beq_iff_eq, beq_iff_eq, decide_eq_true_eq]
    rw [beq_eq_false_iff_ne] at hb
    obtain rfl | rfl | rfl | rfl : k = 0 ∨ k = 1 ∨ k = 2 ∨ k = 3 := by omega
    all_goals obtain rfl | rfl | rfl | rfl : j = 0 ∨ j = 1 ∨ j = 2 ∨ j = 3 := by omega
    all_goals omega

theorem State.stepEffect_move (s : State) (x : UpdStep) (hcls : x.cls = 4) (harg : x.arg < 128) (hphase : s.phase ≠ 4) :
    s.stepEffect x = (s.setFld F.UPD_STATUS_NEW_CLUSTERS (s.newClusters - (if bit s.newClusters (x.arg % 4) then 2 ^ (x.arg % 4) else 0) + 2 ^ (x.arg % 4))).modUpd
      fun u => { u with away := x.arg % 4 :: u.away } := by
  have hfrog : (s.phase == phFrogging) = false := beq_eq_false_iff_ne.mpr hphase
  rw [State.stepEffect, hcls, if_neg (by decide), if_pos rfl, if_neg (by omega), hfrog]
  rfl

/-- The head after a function move that is done, before its phase and result. -/
def State.moveDone (s : State) (k : Nat) : State :=
  ((s.setFld F.UPD_STATUS_NEW_CLUSTERS (s.newClusters - (if bit s.newClusters k then 2 ^ k else 0) + 2 ^ k)).modUpd
    fun u => { u with away := k :: u.away }).modUpd fun u => { u with lastStep := some s.turn }

theorem State.stepGood_move (s : State) (x : UpdStep) (held : Nat) (hcls : x.cls = 4) (harg : x.arg < 128) (hphase : s.phase ≠ 4) :
    s.stepGood x held = (((s.moveDone (x.arg % 4)).settlePhase 4).stepLeft x held true).updDone 0 := by
  rw [State.stepGood, s.stepEffect_move x hcls harg hphase, hcls, State.stepEnd_eq _ (by rw [hcls]; decide), if_neg (by decide)]
  rfl

/-- The answer of a step's end. -/
theorem State.updDone_code (s : State) {code : Nat} (hc : code < 16) : (s.updDone code).fld F.UPD_RESULT_CODE = code := by
  obtain ⟨-, ⟨-, -, -, hcode⟩, -, -⟩ := s.updDone_spec hc
  exact hcode (F.UPD_RESULT_CODE, code) List.mem_cons_self

theorem State.stepGood_spec (s : State) (x : UpdStep) (held : Nat) (hcls : x.cls = 4) (harg : x.arg < 128) (hphase : s.phase ≠ 4) (hhead : s.headState = 4) :
    (s.stepGood x held).pins = s.pins ∧
      (s.stepGood x held).upd = { s.upd with away := x.arg % 4 :: s.upd.away, lastStep := some s.turn, step := none } ∧
      (s.stepGood x held).fld F.UPD_RESULT_CODE = 0 ∧ (s.stepGood x held).fld F.UPD_CMD_BUSY = 0 ∧
      (∀ j, j < 4 → bit (s.stepGood x held).newClusters j = (bit s.newClusters j || decide (j = x.arg % 4))) ∧
      (s.stepGood x held).headState = 3 ∧ (s.stepGood x held).flag F.IRQ_SWAP_HOLDING = false ∧
      (s.stepGood x held).fld F.UPD_PAUSE_STEPS = min (s.fld F.UPD_PAUSE_STEPS + 1) 0xFFFF ∧
      (s.stepGood x held).fld F.UPD_PAUSE_MAX_NS = min 0xFFFF (max held (s.fld F.UPD_PAUSE_MAX_NS)) ∧
      (s.stepGood x held).fld F.UPD_STATUS_STEP_FAILS = s.fld F.UPD_STATUS_STEP_FAILS := by
  rw [s.stepGood_move x held hcls harg hphase]
  have hmove : ∃ u, s.moveDone (x.arg % 4) = u ∧ u.upd = { s.upd with away := x.arg % 4 :: s.upd.away, lastStep := some s.turn } ∧ u.pins = s.pins ∧
      u.newClusters = (s.newClusters - (if bit s.newClusters (x.arg % 4) then 2 ^ (x.arg % 4) else 0) + 2 ^ (x.arg % 4)) % 16 ∧
      s.Keeps [F.GLB_PAIR_STATUS_STATE, F.UPD_STATUS_STEP_FAILS, F.UPD_PAUSE_STEPS, F.UPD_PAUSE_MAX_NS, F.UPD_STATUS_PHASE] u :=
    ⟨_, rfl, rfl, rfl, State.fld_setFld_same _ _ _, (s.keeps_setFld _ (by decide)).trans (.of_cells rfl)⟩
  obtain ⟨u, hu, hupd, hpins, hnew, hk⟩ := hmove
  rw [hu]
  obtain ⟨hupd2, hpins2, hk2⟩ := u.settlePhase_spec (by rw [State.phase, hk _ (by decide)]; exact hphase)
  generalize u.settlePhase 4 = v at hupd2 hpins2 hk2 ⊢
  have hheadv : v.headState = 4 := (hk2 F.GLB_PAIR_STATUS_STATE (by decide)).trans ((hk F.GLB_PAIR_STATUS_STATE (by decide)).trans hhead)
  obtain ⟨hupd3, hpins3, -, hhead3, hhold3, hk3, hpause⟩ := v.stepLeft_spec x held true hheadv
  obtain ⟨hsteps, hmax⟩ := hpause hcls
  generalize v.stepLeft x held true = w at hupd3 hpins3 hhead3 hhold3 hk3 hsteps hmax ⊢
  obtain ⟨hunits, -, hbusy, -⟩ := w.updDone_spec (code := 0) (by decide)
  have hk4 : w.Keeps (F.GLB_PAIR_STATUS_STATE :: F.IRQ_SWAP_HOLDING :: F.UPD_PAUSE_STEPS :: F.UPD_PAUSE_MAX_NS :: stepFlds) (w.updDone 0) :=
    w.keeps_updDone 0 (by decide)
  refine ⟨by rw [hunits.pins, hpins3, hpins2, hpins], by rw [hunits.upd, hupd3, hupd2, hupd], w.updDone_code (by decide), hbusy, fun j hj => ?_, ?_, ?_, ?_, ?_, ?_⟩
  · rw [State.newClusters, hk4 _ (by decide), hk3 _ (by decide), hk2 _ (by decide)]
    change bit u.newClusters j = _
    rw [hnew]
    exact bit_add_two_pow (Nat.mod_lt _ (by decide)) hj
  · exact (hk4 F.GLB_PAIR_STATUS_STATE (by decide)).trans hhead3
  · rw [State.flag, hk4 _ (by decide)]
    exact hhold3
  · rw [hk4 _ (by decide), hsteps, hk2 _ (by decide), hk _ (by decide)]
  · rw [hk4 _ (by decide), hmax, hk2 _ (by decide), hk _ (by decide)]
  · rw [hk4 _ (by decide), hk3 _ (by decide), hk2 _ (by decide), hk _ (by decide)]

/-! ### A step that is not bound in time (R429) -/

theorem State.stepEnd_late (s : State) (x : UpdStep) (held : Nat) (hcls : x.cls ≠ 5) (hhead : s.headState = 4) :
    let t := s.stepEnd x 4 held false
    t.pins = s.pins ∧ t.upd = { s.upd with step := none, fails := s.upd.fails.put (256 * x.cls + x.arg) (s.failsNow x) } ∧ t.fld F.UPD_RESULT_CODE = 4 ∧
      t.fld F.UPD_CMD_BUSY = 0 ∧ t.newClusters = s.newClusters ∧ t.headState = 3 ∧ t.flag F.IRQ_SWAP_HOLDING = false ∧
      t.fld F.UPD_STATUS_STEP_FAILS = min (s.fld F.UPD_STATUS_STEP_FAILS + 1) 0xFF ∧ t.fld F.UPD_ISR_STEP_FAIL = 1 ∧
      (2 ≤ s.failsNow x → t.flag F.UPD_STATUS_FROG_ADVISED = true) := by
  intro t
  have ht : t = ((s.stepLeft x held false).countFail x).updDone 4 := (s.stepEnd_eq hcls 4 held false).trans (by rw [if_pos rfl])
  obtain ⟨hupd, hpins, -, hhead1, hhold, hk, -⟩ := s.stepLeft_spec x held false hhead
  generalize s.stepLeft x held false = v at ht hupd hpins hhead1 hhold hk
  have hfails : v.failsNow x = s.failsNow x := by rw [State.failsNow, hupd]; rfl
  obtain ⟨hupd2, hpins2, hcount, hisr, hfrog, hk2⟩ := v.countFail_spec x
  rw [hfails] at hupd2 hfrog
  generalize v.countFail x = w at ht hupd2 hpins2 hcount hisr hfrog hk2
  obtain ⟨hunits, -, hbusy, -⟩ := w.updDone_spec (code := 4) (by decide)
  have hk3 : w.Keeps (F.UPD_ISR_STEP_FAIL :: F.GLB_PAIR_STATUS_STATE :: F.IRQ_SWAP_HOLDING :: stepFlds) (w.updDone 4) := w.keeps_updDone 4 (by decide)
  rw [ht]
  refine ⟨by rw [hunits.pins, hpins2, hpins], by rw [hunits.upd, hupd2, hupd], w.updDone_code (by decide), hbusy, ?_, ?_, ?_, ?_, ?_, fun hn => ?_⟩
  · rw [State.newClusters, hk3 _ (by decide), hk2 _ (by decide), hk _ (by decide)]
    rfl
  · exact (hk3 F.GLB_PAIR_STATUS_STATE (by decide)).trans ((hk2 F.GLB_PAIR_STATUS_STATE (by decide)).trans hhead1)
  · rw [State.flag, hk3 _ (by decide), hk2 _ (by decide)]
    exact hhold
  · rw [hk3 _ (by decide), hcount, hk _ (by decide)]
  · rw [hk3 _ (by decide), hisr]
  · rw [State.flag, hk3 _ (by decide)]
    exact hfrog hn

/-! ### A function move that begins (R424, R473) -/

theorem State.stepBegin_spec (s : State) (x : UpdStep) (hplay : s.playing = true) (hphase : s.phase ≠ 4) (hcls : x.cls = 4) :
    (s.stepBegin x).pins = s.pins ∧ (s.stepBegin x).upd = { s.upd with step := some x } ∧ (s.stepBegin x).headState = 4 ∧
      (s.stepBegin x).flag F.IRQ_SWAP_HOLDING = true ∧ (s.stepBegin x).phase = 2 ∧ (s.stepBegin x).fld F.UPD_STATUS_CLASS = 4 ∧
      s.Keeps [F.UPD_STATUS_SUSPENDED, F.UPD_CMD_BUSY, F.UPD_STATUS_NEW_CLUSTERS] (s.stepBegin x) := by
  have hset : ∃ u, ((s.modUpd fun u => { u with step := some x }).setFld F.UPD_STATUS_CLASS x.cls).setFlag F.IRQ_SWAP_HOLDING (x.cls == 4) = u ∧
      u.pins = s.pins ∧ u.upd = { s.upd with step := some x } ∧ u.fld F.IRQ_SWAP_HOLDING = 1 ∧ u.fld F.UPD_STATUS_CLASS = 4 ∧
      s.Keeps [F.GLB_PAIR_STATUS_STATE, F.UPD_STATUS_PHASE, F.UPD_STATUS_SUSPENDED, F.UPD_CMD_BUSY, F.UPD_STATUS_NEW_CLUSTERS] u := by
    refine ⟨_, rfl, rfl, rfl, ?_, ?_, ?_⟩
    · rw [State.setFlag, State.fld_setFld_same, hcls]
      rfl
    · rw [State.setFlag, State.fld_setFld_ne _ _ (by decide), State.fld_setFld_same, hcls]
      rfl
    · exact ((State.Keeps.of_cells rfl).trans (State.keeps_setFld _ _ (by decide))).trans (State.keeps_setFld _ _ (by decide))
  obtain ⟨u, hu, hpins, hupd, hhold, hclass, hk⟩ := hset
  rw [State.stepBegin, hu]
  dsimp only
  have hne : ¬ u.phase = phFrogging := by
    rw [State.phase, hk _ (by decide)]
    exact hphase
  rw [if_neg hne]
  have hphase2 : (u.setPhase phUpdating).phase = 2 := State.fld_setFld_same _ _ _
  have hk2 : u.Keeps [F.GLB_PAIR_STATUS_STATE, F.IRQ_SWAP_HOLDING, F.UPD_STATUS_CLASS, F.UPD_STATUS_SUSPENDED, F.UPD_CMD_BUSY, F.UPD_STATUS_NEW_CLUSTERS]
      (u.setPhase phUpdating) := u.keeps_setFld _ (by decide)
  have hunits : (u.setPhase phUpdating).pins = u.pins ∧ (u.setPhase phUpdating).upd = u.upd := ⟨rfl, rfl⟩
  generalize u.setPhase phUpdating = v at hphase2 hk2 hunits ⊢
  have hplay2 : v.playing = true := by
    rw [State.playing, State.headState, hk2 _ (by decide), hk _ (by decide)]
    exact hplay
  rw [if_pos hplay2]
  have hrep := v.reports_setHead stHandover
  have hk3 : v.Keeps [F.IRQ_SWAP_HOLDING, F.UPD_STATUS_PHASE, F.UPD_STATUS_CLASS, F.UPD_STATUS_SUSPENDED, F.UPD_CMD_BUSY, F.UPD_STATUS_NEW_CLUSTERS]
      (v.setHead stHandover) := v.keeps_setHead _ (by decide)
  refine ⟨by rw [hrep.pins, hunits.1, hpins], by rw [hrep.upd, hunits.2, hupd], v.headState_setHead (by decide), ?_, ?_, ?_, fun g hg => ?_⟩
  · rw [State.flag, hk3 _ (by decide), hk2 _ (by decide), hhold]
    rfl
  · exact (hk3 F.UPD_STATUS_PHASE (by decide)).trans hphase2
  · rw [hk3 _ (by decide), hk2 _ (by decide), hclass]
  · have hg2 := List.mem_cons_of_mem F.UPD_STATUS_CLASS hg
    rw [hk3 g (List.mem_cons_of_mem _ (List.mem_cons_of_mem _ hg2)), hk2 g (List.mem_cons_of_mem _ (List.mem_cons_of_mem _ hg2)),
      hk g (List.mem_cons_of_mem _ (List.mem_cons_of_mem _ hg))]

section
variable {s : State} (hbusy : s.flag F.UPD_CMD_BUSY = false)
include hbusy

theorem exec_updateStep_noClass {cls : Nat} (arg : Nat) (hc : cls % 16 < 3 ∨ 7 < cls % 16) :
    exec (.updateStep cls arg) s = .next (s.live ((s.updBegun 1 cls arg).updDone 9)) := by
  change execUpdateStep cls arg s = _
  rw [execUpdateStep, State.updStart_of_idle hbusy]
  dsimp only
  rw [if_pos hc]

theorem exec_updateStep_handover {cls : Nat} (arg : Nat) (h3 : 3 ≤ cls % 16) (h7 : cls % 16 ≤ 7) (hp : s.fld F.GLB_PAIR_STATUS_PARTNER_STATE = 4) :
    exec (.updateStep cls arg) s = .next (s.live ((s.updBegun 1 cls arg).updDone 6)) := by
  have hk : s.Keeps [F.GLB_PAIR_STATUS_PARTNER_STATE] (s.updBegun 1 cls arg) := s.keeps_updBegun _ _ _ (by decide)
  change execUpdateStep cls arg s = _
  rw [execUpdateStep, State.updStart_of_idle hbusy]
  dsimp only
  rw [if_neg (by omega), if_pos (show (s.updBegun 1 cls arg).fld F.GLB_PAIR_STATUS_PARTNER_STATE = stHandover from (hk _ (by decide)).trans hp)]

theorem exec_updateStep_move (arg : Nat) {g : Image} (hp : s.fld F.GLB_PAIR_STATUS_PARTNER_STATE ≠ 4) (hplay : s.playing = true) (hsolo : s.solo = false)
    (hphase : s.phase ≠ 4) (hstaged : s.upd.staged.get? 4 = some g) (hchecked : s.upd.checked.contains 4 = true)
    (hmoot : s.stepMoot 4 (arg % 256 / 128 * 128 + arg % 4) = false) :
    exec (.updateStep 4 arg) s = .next (s.live ((((s.updBegun 1 4 arg).noteOld 4).setFld F.UPD_STATUS_SUSPENDED 0).stepRun 4 (arg % 256 / 128 * 128 + arg % 4))) := by
  have hk : s.Keeps [F.GLB_PAIR_STATUS_PARTNER_STATE, F.GLB_PAIR_STATUS_STATE, F.GLB_PAIR_STATUS_SOLO, F.UPD_STATUS_PHASE, F.UPD_STATUS_NEW_CLUSTERS]
      (s.updBegun 1 4 arg) := s.keeps_updBegun _ _ _ (by decide)
  have hupd : (s.updBegun 1 4 arg).upd = s.upd := rfl
  change execUpdateStep 4 arg s = _
  rw [execUpdateStep, State.updStart_of_idle hbusy]
  generalize s.updBegun 1 4 arg = t at hk hupd ⊢
  have hplay2 : t.playing = true := by
    rw [State.playing, State.headState, hk _ (by decide)]
    exact hplay
  have hsolo2 : t.solo = false := by
    rw [State.solo, State.flag, hk _ (by decide)]
    exact hsolo
  have hfrog : (t.phase == phFrogging) = false := by
    rw [State.phase, hk _ (by decide)]
    exact beq_eq_false_iff_ne.mpr hphase
  have hmoot2 : (t.noteOld 4).stepMoot 4 (arg % 256 / 128 * 128 + arg % 4) = false := by
    have hnew : (t.noteOld 4).newClusters = s.newClusters ∧ (t.noteOld 4).phase = s.phase := ⟨hk F.UPD_STATUS_NEW_CLUSTERS (by decide), hk F.UPD_STATUS_PHASE (by decide)⟩
    have haway : (t.noteOld 4).upd.away = s.upd.away := by rw [← hupd]; rfl
    rw [← hmoot, State.stepMoot, hnew.1, hnew.2, haway]
    rfl
  simp only [show 4 % 16 = 4 from rfl, hfrog, hplay2, hsolo2, hupd, hstaged, hchecked, if_pos]
  rw [if_neg (by decide), if_neg (show ¬ t.fld F.GLB_PAIR_STATUS_PARTNER_STATE = stHandover by rw [hk _ (by decide)]; exact hp), if_neg (by decide),
    if_neg (fun h => absurd h.2.1 (by decide)), if_neg (fun h => absurd h.1 (by decide)), if_neg (fun h => absurd h.1 (by decide)),
    if_neg (by decide : ¬ false = true), hmoot2, if_neg (by decide), if_neg (fun h => absurd h.1 (by decide))]

end

theorem updateStep_begins (arg : Nat) (g : Image) (s : State) (hon : s.pins.powered = true) (hbusy : s.flag F.UPD_CMD_BUSY = false)
    (hp : s.fld F.GLB_PAIR_STATUS_PARTNER_STATE ≠ 4) (hplay : s.playing = true) (hsolo : s.solo = false) (hphase : s.phase ≠ 4)
    (hstaged : s.upd.staged.get? 4 = some g) (hchecked : s.upd.checked.contains 4 = true)
    (hmoot : s.stepMoot 4 (arg % 256 / 128 * 128 + arg % 4) = false) :
    ∃ t, exec (.updateStep 4 arg) s = .next t ∧
      t.upd.step = some ⟨4, arg % 256 / 128 * 128 + arg % 4, false⟩ ∧ t.headState = 4 ∧ t.flag F.IRQ_SWAP_HOLDING = true ∧ t.phase = 2 ∧
      t.fld F.UPD_STATUS_CLASS = 4 ∧ t.fld F.UPD_STATUS_SUSPENDED = 0 ∧ t.fld F.UPD_CMD_BUSY = 1 ∧ t.upd.staged = s.upd.staged ∧
      t.newClusters = s.newClusters := by
  rw [exec_updateStep_move hbusy arg hp hplay hsolo hphase hstaged hchecked hmoot]
  have hk : s.Keeps [F.GLB_PAIR_STATUS_STATE, F.UPD_STATUS_PHASE, F.UPD_STATUS_NEW_CLUSTERS] (s.updBegun 1 4 arg) := s.keeps_updBegun _ _ _ (by decide)
  have hb : (s.updBegun 1 4 arg).pins = s.pins ∧ (s.updBegun 1 4 arg).upd = s.upd ∧ (s.updBegun 1 4 arg).fld F.UPD_CMD_BUSY = 1 :=
    ⟨rfl, rfl, State.fld_setFld_same _ _ 1⟩
  generalize s.updBegun 1 4 arg = b at hk hb ⊢
  obtain ⟨hpinsb, hupdb, hbusyb⟩ := hb
  have hu : ∃ u, (b.noteOld 4).setFld F.UPD_STATUS_SUSPENDED 0 = u ∧ u.pins = b.pins ∧ u.upd.staged = b.upd.staged ∧ u.fld F.UPD_STATUS_SUSPENDED = 0 ∧
      b.Keeps [F.GLB_PAIR_STATUS_STATE, F.UPD_STATUS_PHASE, F.UPD_STATUS_NEW_CLUSTERS, F.UPD_CMD_BUSY] u :=
    ⟨_, rfl, rfl, rfl, State.fld_setFld_same _ _ 0, (State.Keeps.of_cells rfl).trans (State.keeps_setFld _ _ (by decide))⟩
  obtain ⟨u, hu, hpinsu, hstagedu, hsusp, hku⟩ := hu
  rw [hu, State.stepRun]
  rw [if_pos (by decide)]
  obtain ⟨hpins, hupd, hhead, hhold, hph, hclass, hkeep⟩ := u.stepBegin_spec ⟨4, arg % 256 / 128 * 128 + arg % 4, false⟩
    (by rw [State.playing, State.headState, hku _ (by decide), hk _ (by decide)]; exact hplay)
    (by rw [State.phase, hku _ (by decide), hk _ (by decide)]; exact hphase) rfl
  refine ⟨_, State.next_live_eq hon (by rw [hpins, hpinsu, hpinsb]), by rw [hupd], hhead, hhold, hph, hclass, ?_, ?_, ?_, ?_⟩
  · rw [hkeep _ (by decide), hsusp]
  · rw [hkeep _ (by decide), hku _ (by decide), hbusyb]
  · rw [hupd, ← hupdb, ← hstagedu]
  · rw [State.newClusters, hkeep _ (by decide), hku _ (by decide), hk _ (by decide)]
    rfl

/-- Settles O50. -/
theorem updateStepsTakeEffect : Obligations.UpdateStepsTakeEffect := by
  refine ⟨updateLoad_holds, fun bodies s hon hbusy hlen hcls hcheck hfits hver => ?_, fun cls arg s hon hbusy hc => ?_,
    fun cls arg s hon hbusy h3 h7 hp => ?_, updateStep_begins, fun s hon => ?_, fun held x s hon hstep hcls harg hphase hhead => ?_,
    fun held x s hon hstep hcls hhead => ?_, fun x s hon hstep hcls hhead => ?_⟩
  · obtain ⟨t, he, -, -, hgood, hdone, -, -⟩ := updateLoad_holds bodies s hon hbusy
    refine ⟨t, he, ?_⟩
    have hboth := hgood ⟨State.imageBad_of_fits _ hlen hcls hcheck hfits, ?_⟩
    · exact ⟨hboth.1, hboth.2, hdone⟩
    · rw [Bool.and_eq_false_iff, decide_eq_false_iff_not, bne_eq_false_iff_eq]
      omega
  · obtain ⟨hunits, hans, hdone, -⟩ := (s.updBegun 1 cls arg).updDone_spec (code := 9) (by decide)
    rw [exec_updateStep_noClass hbusy arg hc, State.next_live_eq hon (by exact hunits.pins)]
    exact ⟨_, rfl, hans.of_seq (s.keeps_updBegun 1 cls arg (l := [resSeq updRes]) (by decide) _ (by decide)), hunits.upd, hdone⟩
  · obtain ⟨hunits, hans, -, -⟩ := (s.updBegun 1 cls arg).updDone_spec (code := 6) (by decide)
    have hk : s.Keeps [resSeq updRes, F.GLB_PAIR_STATUS_STATE] (s.updBegun 1 cls arg) := s.keeps_updBegun _ _ _ (by decide)
    rw [exec_updateStep_handover hbusy arg h3 h7 hp, State.next_live_eq hon (by exact hunits.pins)]
    exact ⟨_, rfl, hans.of_seq (hk _ (by decide)), hunits.upd,
      (State.keeps_updDone (l := [F.GLB_PAIR_STATUS_STATE]) _ _ (by decide) _ (by decide)).trans (hk _ (by decide))⟩
  · exact ⟨_, State.next_live_eq hon (by rfl), rfl⟩
  · obtain ⟨hpins, hupd, hcode, hdone, hnew, hplay, hhold, hsteps, hmax, hfails⟩ := s.stepGood_spec x held hcls harg hphase hhead
    have he : exec (.boundOn held) s = .next (s.live (s.stepGood x held)) := by
      change execBoundOn held s = _
      rw [execBoundOn, hstep]
      dsimp only
      rw [if_pos (.inr hcls)]
    rw [he, State.next_live_eq hon hpins]
    exact ⟨_, rfl, by rw [hupd], hcode, hdone, hnew, by rw [hupd], by rw [hupd], hplay, hhold, hsteps, hmax, hfails.symm⟩
  · obtain ⟨hpins, hupd, hcode, hdone, hnew, hplay, hhold, hfails, hisr, hfrog⟩ := s.stepEnd_late x held (by omega) hhead
    have he : exec (.stepBindTimeout held) s = .next (s.live (s.stepEnd x 4 held false)) := by
      change execStepBindTimeout held s = _
      rw [execStepBindTimeout, hstep]
      dsimp only
      rw [if_pos hcls]
    rw [he, State.next_live_eq hon hpins]
    exact ⟨_, rfl, by rw [hupd], hcode, hdone, hnew, by rw [hupd], hplay, hhold, hfails, hisr, fun hn => hfrog (by rw [State.failsNow]; omega)⟩
  · obtain ⟨hpins, hupd, hcode, hdone, -, hplay, -, hfails, hisr, -⟩ := s.stepEnd_late x 0 (by omega) hhead
    have he : exec .refereeBindTimeout s = .next (s.live (s.stepEnd x 4 0 false)) := by
      change execRefereeBindTimeout s = _
      rw [execRefereeBindTimeout, hstep]
      dsimp only
      rw [if_pos hcls]
    rw [he, State.next_live_eq hon hpins]
    exact ⟨_, rfl, by rw [hupd], hcode, hdone, by rw [hupd], hplay, hfails, hisr⟩

end Sys2Proof.Machine
end

section
/-! SUPPORT. Bytes of DRAM that an operation writes. -/
namespace Sys2Proof.Machine

/-- t is s but for the bytes at some addresses. -/
structure State.WritesAt (W : Nat → Prop) (s t : State) : Prop where
  units : t = { s with dram := t.dram }
  mem   : ∀ a, ¬ W a → memGet t.dram a = memGet s.dram a

section
variable {W V : Nat → Prop} {s t u : State}

theorem State.WritesAt.refl (W : Nat → Prop) (s : State) : s.WritesAt W s := ⟨rfl, fun _ _ => rfl⟩

theorem State.WritesAt.trans (h : s.WritesAt W t) (k : t.WritesAt W u) : s.WritesAt W u where
  units := by
    have h1 := h.units
    have h2 := k.units
    rw [h2, h1]
  mem a ha := (k.mem a ha).trans (h.mem a ha)

theorem State.WritesAt.weaken (h : s.WritesAt W t) (hv : ∀ a, W a → V a) : s.WritesAt V t := ⟨h.units, fun a ha => h.mem a fun hw => ha (hv a hw)⟩

theorem State.WritesAt.foldl {α : Type} {f : State → α → State} {r : List α} (P : State → Prop) (hP : ∀ t u : State, t.WritesAt W u → P t → P u)
    (h : ∀ (t : State), P t → ∀ a ∈ r, t.WritesAt W (f t a)) (s : State) (hs : P s) : s.WritesAt W (r.foldl f s) := by
  induction r generalizing s with
  | nil => exact .refl W s
  | cons a r ih =>
    have h1 := h s hs a List.mem_cons_self
    exact h1.trans (ih (fun t ht b hb => h t ht b (List.mem_cons_of_mem _ hb)) _ (hP _ _ h1 hs))

theorem State.WritesAt.cells (h : s.WritesAt W t) : t.cells = s.cells := by rw [h.units]
theorem State.WritesAt.fld (h : s.WritesAt W t) (g : Fld) : t.fld g = s.fld g := State.fld_of_cells h.cells g
theorem State.WritesAt.inRing (h : s.WritesAt W t) (a : Nat) : t.inRing a ↔ s.inRing a := State.inRing_congr (fun g _ => h.fld g) a

end

theorem State.writesAt_wr {W : Nat → Prop} (s : State) (a : Nat) (b : Bytes) (h : ∀ i, i < b.length → W (a + i)) : s.WritesAt W (s.wr a b) where
  units := rfl
  mem c hc := memGet_memWrite_out _ _ _ _ (by
    refine Decidable.byContradiction fun hn => hc ?_
    have := h (c - a) (by omega)
    rwa [Nat.add_sub_cancel' (by omega)] at this)

theorem State.writesAt_wrN {W : Nat → Prop} (s : State) (a n v : Nat) (h : ∀ i, i < n → W (a + i)) : s.WritesAt W (s.wrN a n v) :=
  s.writesAt_wr a _ fun i hi => h i (by rwa [leBytes_length] at hi)

theorem State.WritesAt.wrN {W : Nat → Prop} {s t : State} (h : s.WritesAt W t) {a n v : Nat} (hW : ∀ i, i < n → W (a + i)) : s.WritesAt W (t.wrN a n v) :=
  h.trans (t.writesAt_wrN a n v hW)

theorem State.memGet_wrN_out (s : State) (a n v : Nat) {c : Nat} (h : c < a ∨ a + n ≤ c) : memGet (s.wrN a n v).dram c = memGet s.dram c :=
  memGet_memWrite_out _ _ _ _ (by rwa [leBytes_length])

/-- The first byte of a number written. -/
theorem State.memGet_wrN_first (s : State) (a n v : Nat) (h : 0 < n) : (memGet (s.wrN a n v).dram a).toNat = v % 256 := by
  obtain ⟨m, rfl⟩ := Nat.exists_eq_succ_of_ne_zero (Nat.ne_of_gt h)
  change (memGet (memWrite s.dram a (leBytes (m + 1) v)) (a + 0)).toNat = _
  rw [memGet_memWrite_in s.dram a (leBytes (m + 1) v) 0 (by rw [leBytes_length]; exact h)]
  exact BitVec.toNat_ofNat ..

theorem State.rdN_one (s : State) (a : Nat) : s.rdN a 1 = (memGet s.dram a).toNat := by
  rw [State.rdN, State.rd, memRead, memRead, leNat, leNat, Nat.mul_zero, Nat.add_zero]

/-! ### A replay that runs (R461) -/

/-- Where no replay runs, recording starts none. -/
theorem State.replay_record (s : State) (type inst payload : Nat) (h : s.flag F.RPJ_CTRL_REPLAY = false) :
    (s.record type inst payload).flag F.RPJ_CTRL_REPLAY = false := by
  have hcount : s.countRecord.flag F.RPJ_CTRL_REPLAY = false := by
    have hset : (s.wrapInc F.RPJ_RSEQ_COUNT).flag F.RPJ_CTRL_REPLAY = false := by
      rw [State.flag, State.wrapInc, State.fld_setFld_ne _ _ (by decide)]
      exact h
    unfold State.countRecord
    split <;> exact hset
  have hdrop : ∀ t : State, t.flag F.RPJ_CTRL_REPLAY = false → t.dropRecord.flag F.RPJ_CTRL_REPLAY = false := fun t ht => by
    rw [State.flag, State.dropRecord, State.fld_setFld_ne _ _ (by decide), State.inc, State.fld_setFld_ne _ _ (by decide)]
    exact ht
  unfold State.record
  rw [h]
  split
  · exact h
  · rw [if_neg (by decide)]
    dsimp only
    split
    · exact hdrop _ hcount
    · split
      · exact hdrop _ hcount
      · exact hcount

theorem State.replay_raise (s : State) {f : Fld} (hf : f.blk ≠ 0x18) (h : s.flag F.RPJ_CTRL_REPLAY = false) : (s.raise f).flag F.RPJ_CTRL_REPLAY = false := by
  have hset : (s.setFld f 1).flag F.RPJ_CTRL_REPLAY = false := by
    rw [State.flag, State.fld_setFld_ne _ _ (Fld.key_ne_of_blk fun e => hf (e.symm.trans (by decide)))]
    exact h
  unfold State.raise
  dsimp only
  split
  · exact State.replay_record _ _ _ _ hset
  · exact hset

end Sys2Proof.Machine
end

section
/-! PROOF. The commands of SNP_CMD (R260-R273). -/
namespace Sys2Proof.Machine

/-! ### A command of SNP_CMD -/

/-- The argument fields of a command. -/
def snpArgs (op count addr arg arg2 value : Nat) (fromEmpty : Bool) : List (Fld × Nat) :=
  [(F.SNP_CMD_OP, op), (F.SNP_CMD_COUNT, count), (F.SNP_CMD_FROM_EMPTY, if fromEmpty then 1 else 0),
    (F.SNP_CMD_ADDR_LO_ADDR, addr), (F.SNP_CMD_ADDR_HI_ADDR, addr / 2 ^ 32), (F.SNP_CMD_ARG_ARG, arg), (F.SNP_CMD_ARG2_ARG2, arg2),
    (F.SNP_CMD_VALUE_LO_VALUE, value), (F.SNP_CMD_VALUE_HI_VALUE, value / 2 ^ 32)]

def snpArgFlds : List Fld :=
  [F.SNP_CMD_OP, F.SNP_CMD_COUNT, F.SNP_CMD_FROM_EMPTY, F.SNP_CMD_ADDR_LO_ADDR, F.SNP_CMD_ADDR_HI_ADDR, F.SNP_CMD_ARG_ARG, F.SNP_CMD_ARG2_ARG2,
    F.SNP_CMD_VALUE_LO_VALUE, F.SNP_CMD_VALUE_HI_VALUE]

/-- The state in which a command of SNP_CMD runs. -/
def State.snpBegun (s : State) (op count addr arg arg2 value : Nat) (fromEmpty : Bool) : State :=
  ((snpArgs op count addr arg arg2 value fromEmpty).foldl (fun t p => t.setFld p.1 p.2) s).resStart snpCmdRes

theorem State.regsOnly_setAll (s : State) (r : List (Fld × Nat)) : s.RegsOnly (r.foldl (fun t p => t.setFld p.1 p.2) s) := by
  induction r generalizing s with
  | nil => exact .refl s
  | cons p r ih => exact (s.regsOnly_setFld _ _).trans (ih _)

section
variable (s : State) (op count addr arg arg2 value : Nat) (e : Bool)

theorem State.regsOnly_snpBegun : s.RegsOnly (s.snpBegun op count addr arg arg2 value e) :=
  (s.regsOnly_setAll _).trans (State.regsOnly_resStart _ _)

theorem State.keeps_snpBegun {l : List Fld} (h : (snpArgFlds.all (fun f => apartFrom f l) && apartFrom (resValid snpCmdRes) l && apartFrom (resSeen snpCmdRes) l) = true) :
    s.Keeps l (s.snpBegun op count addr arg arg2 value e) := by
  simp only [Bool.and_eq_true] at h
  obtain ⟨⟨hargs, hvalid⟩, hseen⟩ := h
  exact (s.keeps_setAll snpArgFlds rfl hargs).trans (State.keeps_resStart _ (by rw [hvalid, hseen]; rfl))

theorem State.snpBegun_count : (s.snpBegun op count addr arg arg2 value e).fld F.SNP_CMD_COUNT = count % 2 ^ 16 := by
  rw [State.snpBegun, State.fld_resStart_ne _ _ (by decide) (by decide), snpArgs]
  simp only [List.foldl_cons, List.foldl_nil]
  rw [State.fld_setFld_ne _ _ (by decide), State.fld_setFld_ne _ _ (by decide), State.fld_setFld_ne _ _ (by decide), State.fld_setFld_ne _ _ (by decide),
    State.fld_setFld_ne _ _ (by decide), State.fld_setFld_ne _ _ (by decide), State.fld_setFld_ne _ _ (by decide), State.fld_setFld_same]
  rfl

theorem State.snpBegun_args : (s.snpBegun op count addr arg arg2 value e).fld F.SNP_CMD_ARG_ARG = arg % 2 ^ 24 ∧
    (s.snpBegun op count addr arg arg2 value e).fld F.SNP_CMD_ARG2_ARG2 = arg2 % 2 ^ 24 := by
  rw [State.snpBegun, State.fld_resStart_ne _ _ (by decide) (by decide), State.fld_resStart_ne _ _ (by decide) (by decide), snpArgs]
  simp only [List.foldl_cons, List.foldl_nil]
  rw [State.fld_setFld_ne _ _ (by decide), State.fld_setFld_ne _ _ (by decide), State.fld_setFld_ne _ _ (by decide), State.fld_setFld_same,
    State.fld_setFld_ne _ _ (by decide), State.fld_setFld_ne _ _ (by decide), State.fld_setFld_same]
  exact ⟨rfl, rfl⟩

theorem State.snpBegun_fromEmpty : (s.snpBegun op count addr arg arg2 value e).flag F.SNP_CMD_FROM_EMPTY = e := by
  rw [State.flag, State.snpBegun, State.fld_resStart_ne _ _ (by decide) (by decide), snpArgs]
  simp only [List.foldl_cons, List.foldl_nil]
  rw [State.fld_setFld_ne _ _ (by decide), State.fld_setFld_ne _ _ (by decide), State.fld_setFld_ne _ _ (by decide), State.fld_setFld_ne _ _ (by decide),
    State.fld_setFld_ne _ _ (by decide), State.fld_setFld_ne _ _ (by decide), State.fld_setFld_same]
  cases e <;> rfl

/-- Registers of another block read as before. -/
theorem State.fld_snpBegun {g : Fld} (hg : g.blk ≠ 0x1B) : (s.snpBegun op count addr arg arg2 value e).fld g = s.fld g := by
  have hne : ∀ f : Fld, f.blk = 0x1B → g.key ≠ f.key := fun f hf => Fld.key_ne_of_blk (by rw [hf]; exact hg)
  have hset : ∀ r : List (Fld × Nat), (∀ p ∈ r, p.1.blk = 0x1B) → ∀ t : State, (r.foldl (fun t p => t.setFld p.1 p.2) t).fld g = t.fld g := by
    intro r
    induction r with
    | nil => exact fun _ _ => rfl
    | cons p r ih =>
      intro hr t
      rw [List.foldl_cons, ih (fun q hq => hr q (List.mem_cons_of_mem _ hq)), State.fld_setFld_ne _ _ (hne _ (hr p List.mem_cons_self))]
  rw [State.snpBegun, State.fld_resStart_ne _ _ (hne _ (by decide)) (hne _ (by decide))]
  exact hset _ (by simp only [snpArgs, List.forall_mem_cons]; decide) s

end

theorem State.snpStart_of_idle {s : State} (h : s.flag F.SNP_CMD_BUSY = false) (op count addr arg arg2 value : Nat) (e : Bool) (run : State → State) :
    s.snpStart op count addr arg arg2 value e run = run (s.snpBegun op count addr arg arg2 value e) := by
  rw [State.snpStart, State.startWith, h, if_neg (by decide)]
  rfl

theorem State.snpDone_spec (s : State) {code : Nat} (hc : code < 16) :
    s.SameUnits (s.snpDone code) ∧ s.Answered (s.snpDone code) snpCmdRes [(F.SNP_CMD_RESULT_CODE, code)] ∧ (s.snpDone code).fld F.SNP_ISR_CMD_DONE = 1 ∧
      (s.snpDone code).fld F.SNP_CMD_BUSY = 0 := by
  refine ⟨?_, ?_, State.fld_raise_same _ _ rfl (by decide), ?_⟩
  · exact ((s.sameUnits_setFld _ _).trans (State.regsOnly_resDone _ _ _).sameUnits).trans (State.sameUnits_raise _ _)
  · exact ((s.setFld F.SNP_CMD_BUSY 0).answered_done [F.SNP_CMD_RESULT_CODE] rfl (by decide) (forall_outcome_one hc)).of_seq (State.fld_setFld_ne _ _ (by decide))
  · exact ((State.keeps_resDone (l := [F.SNP_CMD_BUSY]) _ [F.SNP_CMD_RESULT_CODE] rfl (by decide)).trans (State.keeps_raise _ (by decide)) _ (by decide)).trans
      (State.fld_setFld_same _ _ 0)

theorem State.keeps_snpDone {l : List Fld} (s : State) (code : Nat)
    (h : (apartFrom F.SNP_CMD_BUSY l && apartFromResult snpCmdRes [F.SNP_CMD_RESULT_CODE] l && apartFrom F.SNP_ISR_CMD_DONE l) = true) : s.Keeps l (s.snpDone code) := by
  simp only [Bool.and_eq_true] at h
  obtain ⟨⟨hbusy, hres⟩, hisr⟩ := h
  exact ((s.keeps_setFld _ hbusy).trans (State.keeps_resDone _ _ rfl hres)).trans (State.keeps_raise _ hisr)

/-- The fields of the replay journal before its interrupt's record. -/
theorem State.memGet_snpDone (s : State) (code : Nat) {a : Nat} (ha : ¬ s.inRing a) : memGet (s.snpDone code).dram a = memGet s.dram a := by
  have hregs : s.RegsOnly ((s.setFld F.SNP_CMD_BUSY 0).resDone snpCmdRes [(F.SNP_CMD_RESULT_CODE, code)]) := (s.regsOnly_setFld _ _).trans (State.regsOnly_resDone _ _ _)
  refine (State.memGet_raise _ (by decide) fun hr => ha ((State.inRing_congr (fun g hg => ?_) a).mp hr)).trans (congrArg (memGet · a) hregs.dram)
  have hne : ∀ f : Fld, f.blk = 0x1B → g.key ≠ f.key := fun f hf => Fld.key_ne_of_blk (by rw [hf, hg]; decide)
  rw [State.fld_resDone_ne _ _ (hne _ (by decide)) (hne _ (by decide)) (hne _ (by decide))]
  simp only [List.foldl_cons, List.foldl_nil]
  rw [State.fld_setFld_ne _ _ (hne _ (by decide)), State.fld_setFld_ne _ _ (hne _ (by decide))]

theorem State.snpBase_snpDone (s : State) (code : Nat) : (s.snpDone code).snpBase = s.snpBase := by
  have hk : s.Keeps [F.SNP_REGION_BASE_LO_ADDR, F.SNP_REGION_BASE_HI_ADDR] (s.snpDone code) := s.keeps_snpDone code (by decide)
  rw [State.snpBase, State.base, hk _ (by decide), hk _ (by decide)]
  rfl

theorem State.snapAddr_snpDone (s : State) (code k : Nat) : (s.snpDone code).snapAddr k = s.snapAddr k := by rw [State.snapAddr, s.snpBase_snpDone]; rfl
theorem State.genAddr_snpDone (s : State) (code v : Nat) : (s.snpDone code).genAddr v = s.genAddr v := by rw [State.genAddr, s.snpBase_snpDone]; rfl

/-! ### ARM (R266) -/

/-- The cuts that a list in DRAM names. -/
def cutsOf (l : List Nat) : List (Nat × Nat) := l.map fun e => (e % 2 ^ 16, bits e 39 16)

theorem cutsOf_lt {l : List Nat} {k : Nat × Nat} (h : k ∈ cutsOf l) : k.2 < 2 ^ 24 := by
  obtain ⟨e, -, rfl⟩ := List.mem_map.mp h
  exact Nat.mod_lt _ (by decide)

/-- The bytes that a snapshot's entry, and ARMED of its volume, stand in. -/
def State.cutBytes (s : State) (k : Nat × Nat) (b : Nat) : Prop :=
  (s.snapAddr k.2 ≤ b ∧ b < s.snapAddr k.2 + 32) ∨ (s.genAddr k.1 + 4 ≤ b ∧ b < s.genAddr k.1 + 8)

theorem State.genAddr_of_cells {s t : State} (h : t.cells = s.cells) (v : Nat) : t.genAddr v = s.genAddr v := by
  unfold State.genAddr State.snpBase State.base
  simp only [State.fld_of_cells h]

theorem State.snapAddr_of_cells {s t : State} (h : t.cells = s.cells) (k : Nat) : t.snapAddr k = s.snapAddr k := by
  unfold State.snapAddr State.snpBase State.base
  simp only [State.fld_of_cells h]

/-- A snapshot's entry as ARM writes it. -/
def State.pendEntry (s : State) (v k : Nat) : State :=
  let a := s.snapAddr k
  let s1 := ((s.wr a (zeros 24)).wrN (a + 0x18) 2 v).wrN (a + 0x1A) 1 (4 + 2 * s.volHome v)
  (s1.wrN (a + 0x1B) 1 (s.volDepth v)).wrN (a + 0x1C) 4 (s.genOf v)

theorem State.pendSnapshot_eq (s : State) (v k : Nat) : s.pendSnapshot v k = (s.pendEntry v k).setArmed v true := rfl

theorem State.writesAt_pendEntry (s : State) (v k : Nat) : s.WritesAt (fun b => s.snapAddr k ≤ b ∧ b < s.snapAddr k + 32) (s.pendEntry v k) := by
  unfold State.pendEntry
  dsimp only
  generalize s.snapAddr k = a
  refine .wrN (.wrN (.wrN (.wrN (s.writesAt_wr _ _ fun i hi => ?_) fun i hi => ?_) fun i hi => ?_) fun i hi => ?_) fun i hi => ?_
  · rw [zeros_length] at hi
    omega
  all_goals omega

theorem State.writesAt_setArmed (s : State) (v : Nat) (b : Bool) : s.WritesAt (fun a => s.genAddr v + 4 ≤ a ∧ a < s.genAddr v + 8) (s.setArmed v b) := by
  unfold State.setArmed State.setGenBits
  generalize s.genAddr v = g
  exact s.writesAt_wrN _ _ _ fun i hi => by omega

theorem State.writesAt_pendSnapshot (s : State) (v k : Nat) : s.WritesAt (s.cutBytes (v, k)) (s.pendSnapshot v k) := by
  have hgen := (s.pendEntry v k).writesAt_setArmed v true
  rw [State.genAddr_of_cells ((s.writesAt_pendEntry v k).cells)] at hgen
  rw [State.pendSnapshot_eq]
  exact ((s.writesAt_pendEntry v k).weaken fun b hb => .inl hb).trans (hgen.weaken fun b hb => .inr hb)

theorem State.volHome_lt (s : State) (v : Nat) : s.volHome v < 2 := Nat.mod_lt _ (by decide)

/-- A snapshot entry is PENDING for its volume's home. -/
theorem State.snapFlags_pendSnapshot (s : State) (v : Nat) {k : Nat} (hk : k < 2 ^ 24) :
    (memGet (s.pendSnapshot v k).dram (s.snapAddr k + 0x1A)).toNat = 4 + 2 * s.volHome v := by
  have hhome := s.volHome_lt v
  have hgen := ((s.pendEntry v k).writesAt_setArmed v true).mem (s.snapAddr k + 0x1A) (by
    rw [State.genAddr_of_cells ((s.writesAt_pendEntry v k).cells)]
    unfold State.snapAddr State.genAddr
    omega)
  rw [State.pendSnapshot_eq, hgen]
  unfold State.pendEntry
  dsimp only
  generalize s.snapAddr k = a
  rw [State.memGet_wrN_out _ _ _ _ (.inl (by omega)), State.memGet_wrN_out _ _ _ _ (.inl (by omega)), State.memGet_wrN_first _ _ _ _ (by decide)]
  omega

theorem State.writesAt_pendAll (s : State) (l : List (Nat × Nat)) :
    s.WritesAt (fun b => ∃ k ∈ l, s.cutBytes k b) (l.foldl (fun u k => u.pendSnapshot k.1 k.2) s) := by
  refine .foldl (fun t => t.cells = s.cells) (fun t u h ht => h.cells.trans ht) (fun t ht k hmem => ?_) s rfl
  have hbytes : t.cutBytes k = s.cutBytes k := by
    unfold State.cutBytes
    simp only [State.snapAddr_of_cells ht, State.genAddr_of_cells ht]
  exact (t.writesAt_pendSnapshot k.1 k.2).weaken fun b hb => ⟨k, hmem, hbytes ▸ hb⟩

/-- A message to the partner goes out over a link that is up, from a head that is not silent. -/
theorem State.efmoSend_spec (s : State) (m : Sent) (hm : m.onEfmo = true) (hshut : s.shut m = false) :
    let t := if s.efmoUp then s.send m else s
    t = { s with sent := t.sent } ∧ ((s.efmoUp = true ∧ s.silent = false) → t.sent = s.sent ++ [m]) ∧ (s.efmoUp = false → t.sent = s.sent) := by
  intro t
  cases hup : s.efmoUp with
  | false =>
    have ht : t = s := if_neg (by rw [hup]; decide)
    rw [ht]
    exact ⟨rfl, fun h => absurd h.1 (by decide), fun _ => rfl⟩
  | true =>
    have ht : t = s.send m := if_pos hup
    rw [ht]
    refine ⟨by rcases s.send_eq m with e | e <;> rw [e], fun ⟨_, hsil⟩ => ?_, fun h => absurd h (by decide)⟩
    have hflag : s.flag F.GLB_PAIR_STATUS_EFMO_UP = true := hup
    rw [State.send, hsil, hshut, hm, hflag]
    simp

/-- The head with a set armed. -/
def State.armed (s : State) (c : CutSet) : State :=
  (c.cuts.foldl (fun u k => u.pendSnapshot k.1 k.2) s).modSnp fun x => { x with sets := x.sets ++ [c] }

theorem exec_snapshotArm_late {s : State} (hbusy : s.flag F.SNP_CMD_BUSY = false) (addr set edge count : Nat) (hedge : edge % 2 ^ 64 < s.turn + 16) :
    exec (.snapshotArm addr set edge count) s = .next (s.live ((s.snpBegun 0 count addr set 0 edge false).snpDone 1)) := by
  have hturn : (s.snpBegun 0 count addr set 0 edge false).turn = s.turn := by
    rw [State.turn, State.stamp, State.pair, s.fld_snpBegun _ _ _ _ _ _ _ (by decide), s.fld_snpBegun _ _ _ _ _ _ _ (by decide)]
    rfl
  change execSnapshotArm addr set edge count s = _
  rw [execSnapshotArm, State.snpStart_of_idle hbusy]
  dsimp only
  rw [hturn, if_pos hedge]

theorem exec_snapshotArm_good {s : State} (hbusy : s.flag F.SNP_CMD_BUSY = false) (addr set edge count : Nat) (hedge : s.turn + 16 ≤ edge % 2 ^ 64) :
    let u := s.snpBegun 0 count addr set 0 edge false
    let l := u.cutList (u.base F.SNP_CMD_ADDR_LO_ADDR F.SNP_CMD_ADDR_HI_ADDR 4) (count % 2 ^ 16)
    let c : CutSet := ⟨set % 2 ^ 16, edge % 2 ^ 64, cutsOf l, false, 0, (0, 0), false, (0, 0)⟩
    u.cutListBad l = false → s.snp.sets.length < 16 →
    exec (.snapshotArm addr set edge count) s = .next (s.live
      ((if (u.armed c).efmoUp then (u.armed c).send (.efmoArm (set % 2 ^ 16) (edge % 2 ^ 64) (cutsOf l)) else u.armed c).snpDone 0)) := by
  intro u l c hgood hlen
  have hturn : u.turn = s.turn := by
    rw [State.turn, State.stamp, State.pair, s.fld_snpBegun _ _ _ _ _ _ _ (by decide), s.fld_snpBegun _ _ _ _ _ _ _ (by decide)]
    rfl
  have hcount : u.fld F.SNP_CMD_COUNT = count % 2 ^ 16 := s.snpBegun_count _ _ _ _ _ _ _
  have hsets : u.snp.sets.length = s.snp.sets.length := rfl
  change execSnapshotArm addr set edge count s = _
  rw [execSnapshotArm, State.snpStart_of_idle hbusy]
  change (Host.Outcome.next (s.live (if edge % 2 ^ 64 < u.turn + 16 then _ else _)) : Result) = _
  rw [hturn, if_neg (by omega), hcount, if_neg (show ¬ u.cutListBad l = true by rw [hgood]; decide), if_neg (show ¬ 16 ≤ u.snp.sets.length by omega)]
  rfl

/-- What the end of a command that its effect u comes to answers. -/
theorem State.snpDone_after {s u : State} (hon : s.pins.powered = true) (hpins : u.pins = s.pins) (hseq : u.fld (resSeq snpCmdRes) = s.fld (resSeq snpCmdRes))
    {code : Nat} (hc : code < 16) :
    ∃ t, (Host.Outcome.next (s.live (u.snpDone code)) : Result) = .next t ∧ t = u.snpDone code ∧ s.Answered t 0x1B0002C [(F.SNP_CMD_RESULT_CODE, code)] ∧
      t.fld F.SNP_ISR_CMD_DONE = 1 ∧ t.fld F.SNP_CMD_BUSY = 0 ∧ u.SameUnits t ∧ (∀ b, ¬ u.inRing b → memGet t.dram b = memGet u.dram b) := by
  obtain ⟨hunits, hans, hdone, hbusy⟩ := u.snpDone_spec hc
  rw [State.next_live_eq hon (hunits.pins.trans hpins)]
  exact ⟨_, rfl, rfl, hans.of_seq hseq, hdone, hbusy, hunits, fun b => u.memGet_snpDone code⟩

/-- What a command that has begun has left alone. -/
structure State.SnpBegan (s u : State) : Prop where
  regs : s.RegsOnly u
  fld  : ∀ g : Fld, g.blk ≠ 0x1B → u.fld g = s.fld g
  kept : s.Keeps [F.SNP_REGION_BASE_LO_ADDR, F.SNP_REGION_BASE_HI_ADDR, resSeq snpCmdRes, resSeq snpCutRes] u

theorem State.snpBegan (s : State) (op count addr arg arg2 value : Nat) (e : Bool) : s.SnpBegan (s.snpBegun op count addr arg arg2 value e) :=
  ⟨s.regsOnly_snpBegun _ _ _ _ _ _ _, fun _ => s.fld_snpBegun _ _ _ _ _ _ _, s.keeps_snpBegun _ _ _ _ _ _ _ (by decide)⟩

section
variable {s u : State} (h : s.SnpBegan u)
include h

theorem State.SnpBegan.snpBase : u.snpBase = s.snpBase := by
  rw [State.snpBase, State.base, h.kept _ (by decide), h.kept _ (by decide)]
  rfl

theorem State.SnpBegan.snapAddr (k : Nat) : u.snapAddr k = s.snapAddr k := by rw [State.snapAddr, h.snpBase]; rfl
theorem State.SnpBegan.genAddr (v : Nat) : u.genAddr v = s.genAddr v := by rw [State.genAddr, h.snpBase]; rfl
theorem State.SnpBegan.inRing (b : Nat) : u.inRing b ↔ s.inRing b := State.inRing_congr (fun g hg => h.fld g (by rw [hg]; decide)) b
theorem State.SnpBegan.seq : u.fld (resSeq snpCmdRes) = s.fld (resSeq snpCmdRes) := h.kept _ (by decide)

theorem State.SnpBegan.rdN (a n : Nat) : u.rdN a n = s.rdN a n := by rw [State.rdN, State.rd, h.regs.dram]; rfl

theorem State.SnpBegan.volAddr (v : Nat) : u.volAddr v = s.volAddr v := by
  rw [State.volAddr, State.base, h.fld _ (by decide), h.fld _ (by decide)]
  rfl

theorem State.SnpBegan.volRoot (v : Nat) : u.volRoot v = s.volRoot v := by rw [State.volRoot, h.rdN, h.volAddr]; rfl

theorem State.SnpBegan.volValid (v : Nat) : u.volValid v = s.volValid v := by
  unfold State.volValid State.volFlags State.volDepth State.volSize
  rw [h.rdN, h.rdN, h.rdN, h.volAddr]

theorem State.SnpBegan.snapFlags (k : Nat) : u.snapFlags k = s.snapFlags k := by rw [State.snapFlags, h.rdN, h.snapAddr]; rfl

theorem State.SnpBegan.volHome (v : Nat) : u.volHome v = s.volHome v := by rw [State.volHome, State.volFlags, h.rdN, h.volAddr]; rfl

theorem State.SnpBegan.turn : u.turn = s.turn := by
  rw [State.turn, State.stamp, State.pair, h.fld _ (by decide), h.fld _ (by decide)]
  rfl

theorem State.SnpBegan.efmoUp : u.efmoUp = s.efmoUp := by
  rw [State.efmoUp, State.flag, h.fld _ (by decide)]
  rfl

theorem State.SnpBegan.silent : u.silent = s.silent := by
  rw [State.silent, State.flag, h.fld _ (by decide), h.fld _ (by decide), h.regs.pins]
  rfl

end

/-- A command that ends at once with a code. -/
theorem snpAnswer {s u : State} (h : s.SnpBegan u) (hon : s.pins.powered = true) {code : Nat} (hc : code < 16) :
    ∃ t, (Host.Outcome.next (s.live (u.snpDone code)) : Result) = .next t ∧
      s.Answered t 0x1B0002C [(F.SNP_CMD_RESULT_CODE, code)] ∧ t.fld F.SNP_ISR_CMD_DONE = 1 ∧ t.fld F.SNP_CMD_BUSY = 0 ∧
      t.snp = s.snp ∧ t.map = s.map ∧ t.sent = s.sent ∧ (∀ b, ¬ s.inRing b → memGet t.dram b = memGet s.dram b) := by
  obtain ⟨t, he, -, hans, hdone, hbusy, hsame, hdram⟩ := State.snpDone_after hon h.regs.pins h.seq hc
  refine ⟨t, he, hans, hdone, hbusy, hsame.snp.trans h.regs.snp, hsame.map.trans h.regs.map, hsame.sent.trans h.regs.sent, fun b hb => ?_⟩
  rw [hdram b fun hr => hb ((h.inRing b).mp hr), h.regs.dram]

/-- ARM of a set writes its snapshots' entries and notes the set. -/
theorem State.armed_frame (u : State) (c : CutSet) :
    u.armed c = { u with dram := (u.armed c).dram, snp := { u.snp with sets := u.snp.sets ++ [c] } } ∧
      (∀ b, (¬ ∃ k ∈ c.cuts, u.cutBytes k b) → memGet (u.armed c).dram b = memGet u.dram b) ∧
      (∀ v k, c.cuts = [(v, k)] → k < 2 ^ 24 → (memGet (u.armed c).dram (u.snapAddr k + 0x1A)).toNat = 4 + 2 * u.volHome v) := by
  have hpend := u.writesAt_pendAll c.cuts
  have hone : ∀ v k, c.cuts = [(v, k)] → k < 2 ^ 24 →
      (memGet (c.cuts.foldl (fun u k => u.pendSnapshot k.1 k.2) u).dram (u.snapAddr k + 0x1A)).toNat = 4 + 2 * u.volHome v := fun v k hc hk => by
    rw [hc]
    exact u.snapFlags_pendSnapshot v hk
  rw [State.armed]
  generalize c.cuts.foldl (fun u k => u.pendSnapshot k.1 k.2) u = p at hpend hone ⊢
  refine ⟨?_, hpend.mem, hone⟩
  have hunits := hpend.units
  rw [hunits]
  rfl

/-- ARM of sets that begin leaves the set armed and its entries PENDING. -/
theorem State.armed_spec {s u : State} (h : s.SnpBegan u) (hon : s.pins.powered = true) (id edge : Nat) (cuts : List (Nat × Nat)) (hbound : ∀ k ∈ cuts, k.2 < 2 ^ 24) :
    let c : CutSet := ⟨id, edge, cuts, false, 0, (0, 0), false, (0, 0)⟩
    ∃ t, (Host.Outcome.next (s.live ((if (u.armed c).efmoUp then (u.armed c).send (.efmoArm id edge cuts) else u.armed c).snpDone 0)) : Result) = .next t ∧
      s.Answered t 0x1B0002C [(F.SNP_CMD_RESULT_CODE, 0)] ∧ t.fld F.SNP_ISR_CMD_DONE = 1 ∧
      t.snp = { s.snp with sets := s.snp.sets ++ [c] } ∧
      ((s.efmoUp = true ∧ s.silent = false) → t.sent = s.sent ++ [Sent.efmoArm id edge cuts]) ∧
      (s.efmoUp = false → t.sent = s.sent) ∧
      (∀ v k, cuts = [(v, k)] → ¬ s.inRing (s.snapAddr k + 0x1A) → t.snapFlags k = 4 + 2 * s.volHome v) ∧
      (∀ b, ¬ s.inRing b → (∀ k ∈ cuts, (b < s.snapAddr k.2 ∨ s.snapAddr k.2 + 32 ≤ b) ∧ (b < s.genAddr k.1 + 4 ∨ s.genAddr k.1 + 8 ≤ b)) → memGet t.dram b = memGet s.dram b) := by
  intro c
  obtain ⟨hunits, hmem, hone⟩ := u.armed_frame c
  have hcuts : c.cuts = cuts := rfl
  rw [hcuts] at hmem hone
  have hcells : (u.armed c).cells = u.cells := by rw [hunits]
  have hpins : (u.armed c).pins = u.pins := by rw [hunits]
  have hsnp : (u.armed c).snp = { u.snp with sets := u.snp.sets ++ [c] } := by rw [hunits]
  have hsent : (u.armed c).sent = u.sent := by rw [hunits]
  clear hunits hcuts
  generalize u.armed c = q at hmem hone hcells hpins hsnp hsent ⊢
  have hup : q.efmoUp = s.efmoUp := by
    rw [State.efmoUp, State.flag, State.fld_of_cells hcells]
    exact h.efmoUp
  have hsil : q.silent = s.silent := by
    rw [State.silent, State.flag, State.fld_of_cells hcells, State.fld_of_cells hcells, hpins]
    exact h.silent
  obtain ⟨hw, hto, hno⟩ := q.efmoSend_spec (.efmoArm id edge cuts) rfl (by simp [State.shut, Sent.onPorts])
  generalize (if q.efmoUp then q.send (.efmoArm id edge cuts) else q : State) = w at hw hto hno ⊢
  have hwcells : w.cells = u.cells := by rw [hw, hcells]
  have hwpins : w.pins = s.pins := by rw [hw, hpins, h.regs.pins]
  have hwdram : w.dram = q.dram := by rw [hw]
  obtain ⟨t, he, ht, hans, hdone, -, hsame, hdram⟩ := State.snpDone_after hon hwpins ((State.fld_of_cells hwcells _).trans h.seq) (code := 0) (by decide)
  have hring : ∀ b, w.inRing b ↔ s.inRing b := fun b => (State.inRing_congr (fun g _ => State.fld_of_cells hwcells g) b).trans (h.inRing b)
  refine ⟨t, he, hans, hdone, ?_, fun hup' => ?_, fun hdown => ?_, fun v k hc hb => ?_, fun b hb hout => ?_⟩
  · rw [hsame.snp, hw, hsnp, h.regs.snp]
  · rw [hsame.sent, hto (by rw [hup, hsil]; exact hup'), hsent, h.regs.sent]
  · rw [hsame.sent, hno (by rw [hup]; exact hdown), hsent, h.regs.sent]
  · have hk : k < 2 ^ 24 := hbound (v, k) (by rw [hc]; exact List.mem_cons_self)
    have hbase : t.snapAddr k = s.snapAddr k := by rw [ht, State.snapAddr_snpDone, State.snapAddr_of_cells hwcells, h.snapAddr]
    rw [State.snapFlags, State.rdN_one, hbase, hdram _ fun hr => hb ((hring _).mp hr), hwdram, ← h.snapAddr, hone v k hc hk, h.volHome]
  · rw [hdram b fun hr => hb ((hring b).mp hr), hwdram, hmem b ?_, h.regs.dram]
    rintro ⟨k, hk, hbytes⟩
    have := hout k hk
    rw [State.cutBytes, h.snapAddr, h.genAddr] at hbytes
    omega

/-! ### CANCEL (R266) -/

theorem State.release_spec (s : State) (names : List Nat) (hheld : s.snp.held = []) :
    ((s.releaseInstalls names).releaseGuarded names).cells = s.cells ∧ ((s.releaseInstalls names).releaseGuarded names).pins = s.pins ∧
      ((s.releaseInstalls names).releaseGuarded names).sent = s.sent ∧ ((s.releaseInstalls names).releaseGuarded names).snp.sets = s.snp.sets := by
  unfold State.releaseInstalls State.releaseGuarded
  dsimp only
  rw [hheld, List.filter_nil, List.foldl_nil]
  exact ⟨rfl, rfl, rfl, rfl⟩

/-- A fold of operations that write DRAM alone writes DRAM alone. -/
theorem State.foldl_dramOnly {α : Type} {f : State → α → State} (h : ∀ (t : State) (a : α), t.WritesAt (fun _ => True) (f t a)) (l : List α) (s : State) :
    s.WritesAt (fun _ => True) (l.foldl f s) := .foldl (fun _ => True) (fun _ _ _ _ => trivial) (fun t _ a _ => h t a) s trivial

theorem State.dramOnly_setArmed (s : State) (v : Nat) (b : Bool) : s.WritesAt (fun _ => True) (s.setArmed v b) :=
  (s.writesAt_setArmed v b).weaken fun _ _ => trivial

theorem State.dramOnly_freeSnapshot (s : State) (k : Nat) : s.WritesAt (fun _ => True) (s.freeSnapshot k) := by
  unfold State.freeSnapshot
  split
  · exact s.writesAt_wrN _ _ _ fun _ _ => trivial
  · exact .refl _ s

/-- The set's volumes as the end of its cut finds them: nothing is ARMED, no entry PENDING. -/
def State.cutUndone (s : State) (c : CutSet) (vols : List (Nat × Nat)) (code : Nat) : State :=
  vols.foldl (fun t k => (if code = 0 then t else t.freeSnapshot k.2).setArmed k.1 false) (s.dropSet c)

theorem State.cutUndone_units (s : State) (c : CutSet) (vols : List (Nat × Nat)) (code : Nat) :
    s.cutUndone c vols code = { s with dram := (s.cutUndone c vols code).dram, snp := { s.snp with sets := s.snp.sets.filter fun d => d != c } } := by
  have hfree : ∀ (t : State) (snap : Nat), t.WritesAt (fun _ => True) (if code = 0 then t else t.freeSnapshot snap) := fun t snap => by
    split
    · exact .refl _ t
    · exact t.dramOnly_freeSnapshot snap
  have h1 := State.foldl_dramOnly (f := fun t (k : Nat × Nat) => t.setArmed k.1 false) (fun t k => t.dramOnly_setArmed k.1 false) c.cuts
    (s.modSnp fun x => { x with sets := x.sets.filter fun d => d != c })
  have h2 := State.foldl_dramOnly (f := fun t (k : Nat × Nat) => (if code = 0 then t else t.freeSnapshot k.2).setArmed k.1 false)
    (fun t k => .trans (hfree t k.2) (State.dramOnly_setArmed _ k.1 false)) vols (s.dropSet c)
  unfold State.cutUndone
  generalize vols.foldl _ (s.dropSet c) = t at h2 ⊢
  rw [State.dropSet] at h2
  have h := (h1.trans h2).units
  rw [h]
  rfl

theorem State.cutDone_eq (s : State) (c : CutSet) (vols : List (Nat × Nat)) {code : Nat} (h0 : code ≠ 0) :
    ∃ i, s.cutDone c vols code = (((((s.cutUndone c vols code).releaseInstalls (vols.map (·.1))).releaseGuarded (vols.map (·.1))).setPair
      F.SNP_CUT_SEQ_LO_S_CUT F.SNP_CUT_SEQ_HI_S_CUT i).resDone snpCutRes [(F.SNP_CUT_RESULT_CODE, code), (F.SNP_CUT_RESULT_SET, c.id)]).raise F.SNP_ISR_CUT_FAILED := by
  refine ⟨ofInst c.sCut (((vols.head?).map fun k => (s.dropSet c).volHome k.1).getD (s.dropSet c).headId), ?_⟩
  rw [State.cutDone, State.cutEnd, if_neg h0]
  rfl

/-- A set that is cancelled holds nothing more here. -/
theorem State.cutDone_spec (u : State) (c : CutSet) (hheld : u.snp.held = []) {code : Nat} (hcode : code < 16) (hid : c.id < 2 ^ 16) (h0 : code ≠ 0) :
    u.Answered (u.cutDone c c.cuts code) snpCutRes [(F.SNP_CUT_RESULT_CODE, code), (F.SNP_CUT_RESULT_SET, c.id)] ∧
      (u.cutDone c c.cuts code).fld F.SNP_ISR_CUT_FAILED = 1 ∧ (u.cutDone c c.cuts code).snp.sets = u.snp.sets.filter (fun d => d != c) ∧
      (u.cutDone c c.cuts code).pins = u.pins ∧ (u.cutDone c c.cuts code).sent = u.sent ∧
      u.Keeps [F.GLB_PAIR_STATUS_STATE, F.GLB_PAIR_STATUS_EFMO_UP, resSeq snpCmdRes] (u.cutDone c c.cuts code) ∧
      (u.flag F.RPJ_CTRL_REPLAY = false → (u.cutDone c c.cuts code).flag F.RPJ_CTRL_REPLAY = false) := by
  obtain ⟨i, he⟩ := u.cutDone_eq c c.cuts h0
  rw [he]
  clear he
  have hundone := u.cutUndone_units c c.cuts code
  generalize u.cutUndone c c.cuts code = v at hundone ⊢
  obtain ⟨hcells, hpins, hsent, hsets⟩ := v.release_spec (c.cuts.map (·.1)) (by rw [hundone]; exact hheld)
  generalize (v.releaseInstalls (c.cuts.map (·.1))).releaseGuarded (c.cuts.map (·.1)) = w at hcells hpins hsent hsets ⊢
  have hwcells : w.cells = u.cells := by rw [hcells, hundone]
  have hk : w.Keeps [F.GLB_PAIR_STATUS_STATE, F.GLB_PAIR_STATUS_EFMO_UP, resSeq snpCmdRes, resSeq snpCutRes] (w.setPair F.SNP_CUT_SEQ_LO_S_CUT F.SNP_CUT_SEQ_HI_S_CUT i) :=
    w.keeps_setPair _ (by decide)
  have hregs := w.regsOnly_setPair F.SNP_CUT_SEQ_LO_S_CUT F.SNP_CUT_SEQ_HI_S_CUT i
  have hreplay : (w.setPair F.SNP_CUT_SEQ_LO_S_CUT F.SNP_CUT_SEQ_HI_S_CUT i).flag F.RPJ_CTRL_REPLAY = u.flag F.RPJ_CTRL_REPLAY := by
    rw [State.flag, State.fld_setPair_ne _ _ (by decide) (by decide), State.fld_of_cells hwcells]
    rfl
  generalize w.setPair F.SNP_CUT_SEQ_LO_S_CUT F.SNP_CUT_SEQ_HI_S_CUT i = x at hk hregs hreplay ⊢
  have hans := x.answered_done (off := snpCutRes) (l := [(F.SNP_CUT_RESULT_CODE, code), (F.SNP_CUT_RESULT_SET, c.id)]) (f := F.SNP_ISR_CUT_FAILED)
    [F.SNP_CUT_RESULT_CODE, F.SNP_CUT_RESULT_SET] rfl (by decide) (by simpa using ⟨hcode, hid⟩)
  have hxk : x.Keeps [F.GLB_PAIR_STATUS_STATE, F.GLB_PAIR_STATUS_EFMO_UP, resSeq snpCmdRes] (x.resDone snpCutRes [(F.SNP_CUT_RESULT_CODE, code), (F.SNP_CUT_RESULT_SET, c.id)]) :=
    x.keeps_resDone [F.SNP_CUT_RESULT_CODE, F.SNP_CUT_RESULT_SET] rfl (by decide)
  have hxregs := x.regsOnly_resDone snpCutRes [(F.SNP_CUT_RESULT_CODE, code), (F.SNP_CUT_RESULT_SET, c.id)]
  have hxreplay : (x.resDone snpCutRes [(F.SNP_CUT_RESULT_CODE, code), (F.SNP_CUT_RESULT_SET, c.id)]).flag F.RPJ_CTRL_REPLAY = x.flag F.RPJ_CTRL_REPLAY := by
    rw [State.flag, State.fld_resDone_ne _ _ (by decide) (by decide) (by decide)]
    simp only [List.foldl_cons, List.foldl_nil]
    rw [State.fld_setFld_ne _ _ (by decide), State.fld_setFld_ne _ _ (by decide)]
    rfl
  generalize x.resDone snpCutRes [(F.SNP_CUT_RESULT_CODE, code), (F.SNP_CUT_RESULT_SET, c.id)] = y at hans hxk hxregs hxreplay ⊢
  have hunits := y.sameUnits_raise F.SNP_ISR_CUT_FAILED
  refine ⟨hans.of_seq ((hk _ (by decide)).trans (State.fld_of_cells hwcells _)), State.fld_raise_same _ _ rfl (by decide), ?_, ?_, ?_, fun g hg => ?_, fun h => ?_⟩
  · rw [hunits.snp, hxregs.snp, hregs.snp, hsets, hundone]
  · rw [hunits.pins, hxregs.pins, hregs.pins, hpins, hundone]
  · rw [hunits.sent, hxregs.sent, hregs.sent, hsent, hundone]
  · rw [State.keeps_raise y (by decide) g hg, hxk g hg, hk g (List.mem_append_left [resSeq snpCutRes] hg), State.fld_of_cells hwcells]
  · exact State.replay_raise _ (by decide) (by rw [hxreplay, hreplay, h])

theorem snapshotCancel_found (set : Nat) (c : CutSet) (s : State) (hon : s.pins.powered = true) (hbusy : s.flag F.SNP_CMD_BUSY = false)
    (hfind : s.snp.sets.find? (fun c => c.id == set % 2 ^ 16 && c.phase == 0 && decide (s.turn < c.edge)) = some c) (hheld : s.snp.held = []) :
    ∃ t, exec (.snapshotCancel set) s = .next t ∧
      s.Answered t 0x1B0002C [(F.SNP_CMD_RESULT_CODE, 0)] ∧
      s.Answered t 0x1B00040 [(F.SNP_CUT_RESULT_CODE, 5), (F.SNP_CUT_RESULT_SET, set % 2 ^ 16)] ∧ t.fld F.SNP_ISR_CUT_FAILED = 1 ∧
      t.snp.sets = s.snp.sets.filter (fun d => d != c) ∧
      ((s.efmoUp = true ∧ s.silent = false) → t.sent = s.sent ++ [Sent.efmoCancelArm (set % 2 ^ 16)]) := by
  have h := s.snpBegan 1 0 0 set 0 0 false
  have he : ∀ u, s.snpBegun 1 0 0 set 0 0 false = u → exec (.snapshotCancel set) s =
      .next (s.live ((if (u.cutDone c c.cuts 5).efmoUp then (u.cutDone c c.cuts 5).send (.efmoCancelArm c.id) else u.cutDone c c.cuts 5).snpDone 0)) := by
    rintro u rfl
    change execSnapshotCancel set s = _
    rw [execSnapshotCancel, State.snpStart_of_idle hbusy]
    dsimp only
    rw [h.turn, show (s.snpBegun 1 0 0 set 0 0 false).snp.sets = s.snp.sets from rfl, hfind]
  rw [he _ rfl]
  generalize s.snpBegun 1 0 0 set 0 0 false = u at h ⊢
  have hid : c.id = set % 2 ^ 16 := by
    have := List.find?_some hfind
    simp only [Bool.and_eq_true, beq_iff_eq] at this
    exact this.1.1
  obtain ⟨hans, hisr, hsets, hpins, hsent, hk, hreplay⟩ := u.cutDone_spec c (by rw [h.regs.snp, hheld]) (code := 5) (by decide)
    (by rw [hid]; exact Nat.mod_lt _ (by decide)) (by decide)
  generalize u.cutDone c c.cuts 5 = q at hans hisr hsets hpins hsent hk hreplay ⊢
  obtain ⟨hw, hto, -⟩ := q.efmoSend_spec (.efmoCancelArm c.id) rfl (by simp [State.shut, Sent.onPorts])
  generalize (if q.efmoUp then q.send (.efmoCancelArm c.id) else q : State) = w at hw hto ⊢
  have hwcells : w.cells = q.cells := by rw [hw]
  have hwpins : w.pins = s.pins := by rw [hw, hpins, h.regs.pins]
  obtain ⟨t, he, ht, hdoneans, -, -, hsame, -⟩ := State.snpDone_after hon hwpins
    ((State.fld_of_cells hwcells _).trans ((hk _ (by decide)).trans h.seq)) (code := 0) (by decide)
  have hkt : w.Keeps [resValid snpCutRes, resSeen snpCutRes, resSeq snpCutRes, F.SNP_CUT_RESULT_CODE, F.SNP_CUT_RESULT_SET, F.SNP_ISR_CUT_FAILED] t :=
    ht ▸ w.keeps_snpDone 0 (by decide)
  refine ⟨t, he, hdoneans, ?_, ?_, ?_, fun ⟨hup, hsil⟩ => ?_⟩
  · exact hid ▸ ((hans.of_seq (h.kept _ (by decide))).congr fun g hg =>
      (hkt g (List.mem_append_left [F.SNP_ISR_CUT_FAILED] hg)).trans (State.fld_of_cells hwcells g))
  · rw [hkt _ (by decide), State.fld_of_cells hwcells, hisr]
  · rw [hsame.snp, hw, hsets, h.regs.snp]
  · have hupq : q.efmoUp = true := by
      rw [State.efmoUp, State.flag, hk _ (by decide)]
      exact h.efmoUp.trans hup
    have hsilq : q.silent = false := by
      have hsilu : u.silent = false := h.silent.trans hsil
      rw [State.silent, Bool.or_eq_false_iff, Bool.or_eq_false_iff] at hsilu ⊢
      obtain ⟨⟨hon', hstate⟩, hrep⟩ := hsilu
      exact ⟨⟨by rw [hpins]; exact hon', by rw [hk _ (by decide)]; exact hstate⟩, hreplay hrep⟩
    rw [hsame.sent, hto ⟨hupq, hsilq⟩, hsent, h.regs.sent, hid]

theorem exec_snapshotCancel_none {s : State} (hbusy : s.flag F.SNP_CMD_BUSY = false) (set : Nat)
    (hnone : s.snp.sets.all (fun c => c.id != set % 2 ^ 16 || c.phase != 0 || decide (c.edge ≤ s.turn)) = true) :
    exec (.snapshotCancel set) s = .next (s.live ((s.snpBegun 1 0 0 set 0 0 false).snpDone 6)) := by
  have hfind : s.snp.sets.find? (fun c => c.id == set % 2 ^ 16 && c.phase == 0 && decide (s.turn < c.edge)) = none := by
    refine List.find?_eq_none.mpr fun c hc => ?_
    have := List.all_eq_true.mp hnone c hc
    simp only [Bool.or_eq_true, bne_iff_ne, decide_eq_true_eq] at this
    simp only [Bool.and_eq_true, beq_iff_eq, decide_eq_true_eq, not_and]
    omega
  change execSnapshotCancel set s = _
  rw [execSnapshotCancel, State.snpStart_of_idle hbusy]
  dsimp only
  rw [(s.snpBegan 1 0 0 set 0 0 false).turn, show (s.snpBegun 1 0 0 set 0 0 false).snp.sets = s.snp.sets from rfl, hfind]

/-! ### SWEEP (R261) -/

/-- A pointer that is absent needs no split. -/
theorem State.sweepRun_absent (n : Nat) {s : State} {v lvl page ptr : Nat} (hw : s.snp.sweep = some ⟨v, [(lvl, page, ptr)]⟩)
    (hgood : ptrCorrupt ptr = false) (habsent : ptrKind ptr = 0) :
    s.sweepRun (n + 1) = (s.modSnp fun x => { x with sweep := some ⟨v, []⟩ }).sweepRun n := by
  rw [State.sweepRun, hw]
  dsimp only
  rw [hgood, if_neg (by decide), if_pos habsent]

theorem State.sweepRun_end (n : Nat) {s : State} {v : Nat} (hw : s.snp.sweep = some ⟨v, []⟩) :
    s.sweepRun (n + 1) = (s.modSnp fun x => { x with sweep := none, swept := (x.swept.filter (· != v)) ++ [v] }).snpDone 0 := by
  rw [State.sweepRun, hw]

/-- A volume with no page is swept at once. -/
theorem State.sweepOn_absent {s : State} {v lvl page ptr : Nat} (hw : s.snp.sweep = some ⟨v, [(lvl, page, ptr)]⟩)
    (hgood : ptrCorrupt ptr = false) (habsent : ptrKind ptr = 0) (hswept : s.snp.swept = []) :
    s.sweepOn = (s.modSnp fun x => { x with sweep := none, swept := [v] }).snpDone 0 := by
  obtain ⟨m, hm⟩ : ∃ m, 512 * (s.map.pages.length + 1) + 2 = m + 1 + 1 := ⟨512 * (s.map.pages.length + 1), rfl⟩
  rw [State.sweepOn, hm, State.sweepRun_absent _ hw hgood habsent, State.sweepRun_end (v := v) _ rfl]
  rw [State.modSnp, State.modSnp, State.modSnp]
  dsimp only
  rw [hswept]
  rfl

theorem State.sweepPassed_one {s : State} {v : Nat} (hswept : s.snp.swept = [v]) (hsplits : s.map.splits = []) :
    s.sweepPassed = (s.modSnp fun x => { x with swept := [] }).setSwept v := by
  have hdone : ([v].filter fun v => !(s.map.splits.any fun r => r.sweep && r.volume == v)) = [v] := by rw [hsplits]; rfl
  rw [State.sweepPassed, hswept, hdone, State.modSnp, hswept]
  simp [State.modSnp]

theorem State.writesAt_setSwept (s : State) (v : Nat) : s.WritesAt (fun a => s.genAddr v + 4 ≤ a ∧ a < s.genAddr v + 8) (s.setSwept v) := by
  unfold State.setSwept State.setGenBits
  generalize s.genAddr v = g
  exact s.writesAt_wrN _ _ _ fun i hi => by omega

theorem State.swept_setSwept (s : State) (v : Nat) : (memGet (s.setSwept v).dram (s.genAddr v + 4)).toNat % 2 = 1 := by
  rw [State.setSwept, State.setGenBits, State.memGet_wrN_first _ _ _ _ (by decide), Nat.mod_mod_of_dvd _ (by decide : 2 ∣ 256)]
  exact Nat.or_mod_two_eq_one.mpr (.inr rfl)

theorem sweep_absent (volume : Nat) (s : State) (hon : s.pins.powered = true) (hbusy : s.flag F.SNP_CMD_BUSY = false) (hvalid : s.volValid (volume % 2 ^ 16) = true)
    (hgood : ptrCorrupt (s.volRoot (volume % 2 ^ 16)) = false) (habsent : ptrKind (s.volRoot (volume % 2 ^ 16)) = 0) (hsplits : s.map.splits = [])
    (hswept : s.snp.swept = []) :
    ∃ t, exec (.sweep volume) s = .next t ∧
      s.Answered t 0x1B0002C [(F.SNP_CMD_RESULT_CODE, 0)] ∧ t.fld F.SNP_CMD_BUSY = 0 ∧ t.fld F.SNP_ISR_CMD_DONE = 1 ∧
      t.snp = { s.snp with sweep := none } ∧ (¬ s.inRing (s.genAddr (volume % 2 ^ 16) + 4) → (memGet t.dram (s.genAddr (volume % 2 ^ 16) + 4)).toNat % 2 = 1) ∧
      (∀ b, ¬ s.inRing b → (b < s.genAddr (volume % 2 ^ 16) + 4 ∨ s.genAddr (volume % 2 ^ 16) + 8 ≤ b) → memGet t.dram b = memGet s.dram b) := by
  have h := s.snpBegan 2 0 0 volume 0 0 false
  have he : ∀ u, s.snpBegun 2 0 0 volume 0 0 false = u → exec (.sweep volume) s = .next (s.live
      ((u.setFld F.SNP_CMD_BUSY 1).modSnp fun x => { x with sweep := some ⟨volume % 2 ^ 16, [(u.volDepth (volume % 2 ^ 16), 0, u.volRoot (volume % 2 ^ 16))]⟩ }).sweepOn.sweepPassed) := by
    rintro u rfl
    change execSweep volume s = _
    rw [execSweep, State.snpStart_of_idle hbusy]
    dsimp only
    rw [h.volValid, hvalid]
    rfl
  rw [he _ rfl]
  clear he
  have hroot := h.volRoot (volume % 2 ^ 16)
  generalize s.snpBegun 2 0 0 volume 0 0 false = u at h hroot ⊢
  generalize volume % 2 ^ 16 = v at *
  have hwork : ∃ w, (u.setFld F.SNP_CMD_BUSY 1).modSnp (fun x => { x with sweep := some ⟨v, [(u.volDepth v, 0, u.volRoot v)]⟩ }) = w ∧
      w.snp = { u.snp with sweep := some ⟨v, [(u.volDepth v, 0, u.volRoot v)]⟩ } ∧ w.pins = u.pins ∧ w.map = u.map ∧ w.dram = u.dram ∧
      (∀ g : Fld, g.key ≠ F.SNP_CMD_BUSY.key → w.fld g = u.fld g) :=
    ⟨_, rfl, rfl, rfl, rfl, rfl, fun g hg => (State.fld_of_cells rfl g).trans (u.fld_setFld_ne 1 hg)⟩
  obtain ⟨w, hw, hwsnp, hwpins, hwmap, hwdram, hwfld⟩ := hwork
  rw [hw, State.sweepOn_absent (by rw [hwsnp]) (by rw [hroot]; exact hgood) (by rw [hroot]; exact habsent) (by rw [hwsnp]; exact h.regs.snp ▸ hswept)]
  have hend : ∃ x, w.modSnp (fun x => { x with sweep := none, swept := [v] }) = x ∧ x.snp = { s.snp with sweep := none, swept := [v] } ∧ x.pins = s.pins ∧
      x.map = s.map ∧ x.dram = s.dram ∧ x.cells = w.cells :=
    ⟨_, rfl, by rw [← h.regs.snp]; exact congrArg (fun k : SnpSt => { k with sweep := none, swept := [v] }) hwsnp, by rw [← h.regs.pins, ← hwpins]; rfl,
      by rw [← h.regs.map, ← hwmap]; rfl, by rw [← h.regs.dram, ← hwdram]; rfl, rfl⟩
  obtain ⟨x, hx, hxsnp, hxpins, hxmap, hxdram, hxcells⟩ := hend
  have hxfld : ∀ g : Fld, g.key ≠ F.SNP_CMD_BUSY.key → x.fld g = u.fld g := fun g hg => (State.fld_of_cells hxcells g).trans (hwfld g hg)
  rw [hx]
  obtain ⟨hunits, hans, hdone, hbusy2⟩ := x.snpDone_spec (code := 0) (by decide)
  have hgen : ∀ v, (x.snpDone 0).genAddr v = s.genAddr v := fun v => by
    rw [x.genAddr_snpDone, State.genAddr, State.snpBase, State.base, hxfld _ (by decide), hxfld _ (by decide)]
    exact h.genAddr v
  have hring : ∀ b, x.inRing b ↔ s.inRing b := fun b =>
    (State.inRing_congr (fun g hg => hxfld g (Fld.key_ne_of_blk (by rw [hg]; decide))) b).trans (h.inRing b)
  have hmem : ∀ b, ¬ s.inRing b → memGet (x.snpDone 0).dram b = memGet s.dram b := fun b hb => by
    rw [x.memGet_snpDone 0 fun hr => hb ((hring b).mp hr), hxdram]
  have hysnp : (x.snpDone 0).snp = { s.snp with sweep := none, swept := [v] } := hunits.snp.trans hxsnp
  have hypins : (x.snpDone 0).pins = s.pins := hunits.pins.trans hxpins
  have hymap : (x.snpDone 0).map = s.map := hunits.map.trans hxmap
  have hyans := hans.of_seq ((hxfld _ (by decide)).trans h.seq)
  clear hans hunits hring
  generalize x.snpDone 0 = y at hdone hbusy2 hgen hmem hysnp hypins hymap hyans ⊢
  rw [State.sweepPassed_one (v := v) (by rw [hysnp]) (by rw [hymap, hsplits])]
  have hq : ∃ q, y.modSnp (fun x => { x with swept := [] }) = q ∧ q.snp = { s.snp with sweep := none } ∧ q.pins = s.pins ∧ q.dram = y.dram ∧ q.cells = y.cells := by
    refine ⟨_, rfl, ?_, hypins, rfl, rfl⟩
    change ({ y.snp with swept := [] } : SnpSt) = _
    rw [hysnp, ← hswept]
  obtain ⟨q, hq, hqsnp, hqpins, hqdram, hqcells⟩ := hq
  rw [hq]
  have hset := q.writesAt_setSwept v
  have hqgen : q.genAddr v = s.genAddr v := (State.genAddr_of_cells hqcells v).trans (hgen v)
  have hlow := q.swept_setSwept v
  rw [hqgen] at hset hlow
  have hunits2 := hset.units
  have hfld2 : ∀ g, (q.setSwept v).fld g = y.fld g := fun g => (hset.fld g).trans (State.fld_of_cells hqcells g)
  refine ⟨_, State.next_live_eq hon (by rw [hunits2]; exact hqpins), hyans.congr fun g _ => hfld2 g,
    by rw [hfld2, hbusy2], by rw [hfld2, hdone], by rw [hunits2]; exact hqsnp, fun _ => hlow, fun b hb hout => ?_⟩
  rw [hset.mem b (by omega), hqdram, hmem b hb]

/-! ### DELTA (R273) -/

theorem exec_delta_invalid {s : State} (hbusy : s.flag F.SNP_CMD_BUSY = false) (fromEmpty : Bool) (older newer count addr start : Nat)
    (hbad : bit (s.snapFlags (newer % 2 ^ 24)) 0 = false) :
    exec (.delta fromEmpty older newer count addr start) s = .next (s.live ((s.snpBegun 3 count addr older newer start fromEmpty).snpDone 2)) := by
  have h := s.snpBegan 3 count addr older newer start fromEmpty
  obtain ⟨-, hn⟩ := s.snpBegun_args 3 count addr older newer start fromEmpty
  change execDelta fromEmpty older newer count addr start s = _
  rw [execDelta, State.snpStart_of_idle hbusy]
  generalize s.snpBegun 3 count addr older newer start fromEmpty = u at h hn ⊢
  dsimp only
  rw [hn, h.snapFlags, hbad, Bool.not_false, Bool.true_or, if_pos rfl]

/-- Two roots that are one need no page compared. -/
theorem State.deltaFrom_same (s : State) (start d p k : Nat) (hgood : ptrCorrupt p = false) : s.deltaFrom false start d p d p d (k + 1) = .runs [] := by
  have hwalk : s.deltaWalk false start d p p 0 [] = .runs [] := by
    have hsame : samePtr p p = true := by simp [samePtr]
    unfold State.deltaWalk
    rw [if_neg (by rw [hgood]; decide), if_pos (.inl hsame)]
  rw [State.deltaFrom, if_pos rfl, hwalk]

/-- A delta that finds nothing changed. -/
theorem State.deltaOn_same {s : State} (hdelta : s.snp.delta = true) (hfrom : s.flag F.SNP_CMD_FROM_EMPTY = false)
    (hdepth : s.rdN (s.snapAddr (s.fld F.SNP_CMD_ARG_ARG) + 0x1B) 1 = s.rdN (s.snapAddr (s.fld F.SNP_CMD_ARG2_ARG2) + 0x1B) 1)
    (hroot : s.rdN (s.snapAddr (s.fld F.SNP_CMD_ARG_ARG)) 8 = s.rdN (s.snapAddr (s.fld F.SNP_CMD_ARG2_ARG2)) 8)
    (hgood : ptrCorrupt (s.rdN (s.snapAddr (s.fld F.SNP_CMD_ARG2_ARG2)) 8) = false) :
    s.deltaOn = ((s.setFld F.SNP_DELTA_WRITTEN_ENTRIES 0).modSnp fun x => { x with delta := false }).snpDone 0 := by
  rw [State.deltaOn, hdelta, if_neg (by decide)]
  dsimp only
  rw [hfrom, if_neg (by decide), if_neg (by decide), hdepth, hroot, Nat.max_self, State.deltaFrom_same _ _ _ _ _ hgood]
  dsimp only
  rw [State.deltaDone]
  simp only [List.reverse_nil, List.take_nil, List.flatMap_nil, List.length_nil, Nat.min_zero, List.getElem?_nil]
  rfl

theorem delta_same (older newer count addr start : Nat) (s : State) (hon : s.pins.powered = true) (hbusy : s.flag F.SNP_CMD_BUSY = false)
    (hvalidO : bit (s.snapFlags (older % 2 ^ 24)) 0 = true) (hvalidN : bit (s.snapFlags (newer % 2 ^ 24)) 0 = true)
    (hvol : s.rdN (s.snapAddr (older % 2 ^ 24) + 0x18) 2 = s.rdN (s.snapAddr (newer % 2 ^ 24) + 0x18) 2)
    (hseq : s.rdN (s.snapAddr (older % 2 ^ 24) + 0x10) 8 ≤ s.rdN (s.snapAddr (newer % 2 ^ 24) + 0x10) 8)
    (hdepth : s.rdN (s.snapAddr (older % 2 ^ 24) + 0x1B) 1 = s.rdN (s.snapAddr (newer % 2 ^ 24) + 0x1B) 1)
    (hroot : s.rdN (s.snapAddr (older % 2 ^ 24)) 8 = s.rdN (s.snapAddr (newer % 2 ^ 24)) 8)
    (hgood : ptrCorrupt (s.rdN (s.snapAddr (newer % 2 ^ 24)) 8) = false) :
    ∃ t, exec (.delta false older newer count addr start) s = .next t ∧
      s.Answered t 0x1B0002C [(F.SNP_CMD_RESULT_CODE, 0)] ∧ t.fld F.SNP_DELTA_WRITTEN_ENTRIES = 0 ∧ t.fld F.SNP_CMD_BUSY = 0 ∧
      t.snp = { s.snp with delta := false } ∧ t.map = s.map ∧ (∀ b, ¬ s.inRing b → memGet t.dram b = memGet s.dram b) := by
  have h := s.snpBegan 3 count addr older newer start false
  obtain ⟨ho, hn⟩ := s.snpBegun_args 3 count addr older newer start false
  have hfrom := s.snpBegun_fromEmpty 3 count addr older newer start false
  have he : exec (.delta false older newer count addr start) s = execDelta false older newer count addr start s := rfl
  rw [he, execDelta, State.snpStart_of_idle hbusy]
  clear he
  generalize s.snpBegun 3 count addr older newer start false = u at h ho hn hfrom ⊢
  dsimp only
  simp only [hn, ho, h.snapFlags, h.snapAddr, h.rdN, hvalidO, hvalidN, hvol, decide_eq_false (Nat.not_lt.mpr hseq), bne_self_eq_false]
  rw [if_neg (by decide), if_neg (by decide)]
  have hwork : ∃ w, (u.setFld F.SNP_CMD_BUSY 1).modSnp (fun x => { x with delta := true }) = w ∧ w.snp = { s.snp with delta := true } ∧ w.pins = s.pins ∧
      w.map = s.map ∧ w.dram = s.dram ∧ (∀ g : Fld, g.key ≠ F.SNP_CMD_BUSY.key → w.fld g = u.fld g) :=
    ⟨_, rfl, by rw [← h.regs.snp]; rfl, h.regs.pins, h.regs.map, h.regs.dram, fun g hg => (State.fld_of_cells rfl g).trans (u.fld_setFld_ne 1 hg)⟩
  obtain ⟨w, hw, hwsnp, hwpins, hwmap, hwdram, hwfld⟩ := hwork
  have hrd : ∀ a n, w.rdN a n = s.rdN a n := fun a n => by rw [State.rdN, State.rd, hwdram]; rfl
  have hsnap : ∀ k, w.snapAddr k = s.snapAddr k := fun k => by
    rw [State.snapAddr, State.snpBase, State.base, hwfld _ (by decide), hwfld _ (by decide)]
    exact h.snapAddr k
  have harg : w.fld F.SNP_CMD_ARG_ARG = older % 2 ^ 24 ∧ w.fld F.SNP_CMD_ARG2_ARG2 = newer % 2 ^ 24 :=
    ⟨(hwfld _ (by decide)).trans ho, (hwfld _ (by decide)).trans hn⟩
  have hdelta := State.deltaOn_same (s := w) (by rw [hwsnp]) (by rw [State.flag, hwfld _ (by decide)]; exact hfrom)
    (by rw [harg.1, harg.2, hsnap, hsnap, hrd, hrd, hdepth]) (by rw [harg.1, harg.2, hsnap, hsnap, hrd, hrd, hroot]) (by rw [harg.2, hsnap, hrd, hgood])
  rw [hw, hdelta]
  have hend : ∃ x, (w.setFld F.SNP_DELTA_WRITTEN_ENTRIES 0).modSnp (fun x => { x with delta := false }) = x ∧ x.snp = { s.snp with delta := false } ∧
      x.pins = s.pins ∧ x.map = s.map ∧ x.dram = s.dram ∧ x.fld F.SNP_DELTA_WRITTEN_ENTRIES = 0 ∧
      (∀ g : Fld, g.key ≠ F.SNP_DELTA_WRITTEN_ENTRIES.key → x.fld g = w.fld g) :=
    ⟨_, rfl, by rw [State.modSnp]; change ({ w.snp with delta := false } : SnpSt) = _; rw [hwsnp], hwpins, hwmap, hwdram,
      (State.fld_of_cells (s := w.setFld F.SNP_DELTA_WRITTEN_ENTRIES 0) rfl _).trans (w.fld_setFld_same _ 0),
      fun g hg => (State.fld_of_cells rfl g).trans (w.fld_setFld_ne 0 hg)⟩
  obtain ⟨x, hx, hxsnp, hxpins, hxmap, hxdram, hxwritten, hxfld⟩ := hend
  rw [hx]
  obtain ⟨t, he, ht, hans, -, hdone, hsame, hmem⟩ := State.snpDone_after hon hxpins
    ((hxfld _ (by decide)).trans ((hwfld _ (by decide)).trans h.seq)) (code := 0) (by decide)
  have hring : ∀ b, x.inRing b ↔ s.inRing b := fun b =>
    (State.inRing_congr (fun g hg => (hxfld g (Fld.key_ne_of_blk (by rw [hg]; decide))).trans (hwfld g (Fld.key_ne_of_blk (by rw [hg]; decide)))) b).trans (h.inRing b)
  refine ⟨t, he, hans, ?_, hdone, hsame.snp.trans hxsnp, hsame.map.trans hxmap, fun b hb => ?_⟩
  · rw [ht, x.keeps_snpDone 0 (l := [F.SNP_DELTA_WRITTEN_ENTRIES]) (by decide) _ (by decide), hxwritten]
  · rw [hmem b fun hr => hb ((hring b).mp hr), hxdram]

theorem exec_snpReservedOp {s : State} (hbusy : s.flag F.SNP_CMD_BUSY = false) (op : Nat) :
    exec (.snpReservedOp op) s = .next (s.live ((s.snpBegun (max 4 (op % 16)) 0 0 0 0 0 false).snpDone 7)) := by
  change execSnpReservedOp op s = _
  rw [execSnpReservedOp, State.snpStart_of_idle hbusy]

theorem exec_sweep_invalid {s : State} (hbusy : s.flag F.SNP_CMD_BUSY = false) (volume : Nat) (hbad : s.volValid (volume % 2 ^ 16) = false) :
    exec (.sweep volume) s = .next (s.live ((s.snpBegun 2 0 0 volume 0 0 false).snpDone 2)) := by
  change execSweep volume s = _
  rw [execSweep, State.snpStart_of_idle hbusy]
  dsimp only
  rw [(s.snpBegan 2 0 0 volume 0 0 false).volValid, hbad, Bool.not_false, if_pos rfl]

/-- Settles O27. -/
theorem snapshotCommandsAnswer : Obligations.SnapshotCommandsAnswer := by
  refine ⟨fun addr set edge count s hon hbusy hedge => ?_, fun addr set edge count s => ?_, fun set c s hon hbusy hfind hheld => ?_, fun set s hon hbusy hnone => ?_,
    fun volume s hon hbusy hbad => ?_, fun volume s => ?_, fun e older newer count addr start s => ?_, fun older newer count addr start s => ?_, fun op s hon hbusy => ?_⟩
  · rw [exec_snapshotArm_late hbusy addr set edge count hedge]
    obtain ⟨t, he, hans, hdone, hidle, hsnp, -, hsent, hmem⟩ := snpAnswer (s.snpBegan 0 count addr set 0 edge false) hon (code := 1) (by decide)
    exact ⟨t, he, hans, hdone, hidle, hsnp, hsent, hmem⟩
  · intro u l cuts hon hbusy hedge hgood hlen
    have hu : u = s.snpBegun 0 count addr set 0 edge false := State.snpStart_of_idle hbusy _ _ _ _ _ _ _ _
    have he := exec_snapshotArm_good hbusy addr set edge count hedge
    rw [← hu] at he
    have h : s.SnpBegan u := hu ▸ s.snpBegan 0 count addr set 0 edge false
    rw [he hgood hlen]
    exact State.armed_spec h hon _ _ cuts fun k hk => cutsOf_lt hk
  · exact snapshotCancel_found set c s hon hbusy hfind hheld
  · rw [exec_snapshotCancel_none hbusy set hnone]
    obtain ⟨t, he, hans, hdone, -, hsnp, -, -, -⟩ := snpAnswer (s.snpBegan 1 0 0 set 0 0 false) hon (code := 6) (by decide)
    exact ⟨t, he, hans, hdone, hsnp⟩
  · rw [exec_sweep_invalid hbusy volume hbad]
    obtain ⟨t, he, hans, hdone, -, hsnp, hmap, -, -⟩ := snpAnswer (s.snpBegan 2 0 0 volume 0 0 false) hon (code := 2) (by decide)
    exact ⟨t, he, hans, hdone, hsnp, hmap⟩
  · exact fun hon hbusy hvalid hgood habsent hsplits hswept => sweep_absent volume s hon hbusy hvalid hgood habsent hsplits hswept
  · intro n hon hbusy hbad
    rw [exec_delta_invalid hbusy e older newer count addr start hbad]
    obtain ⟨t, he, hans, hdone, -, hsnp, -, -, hmem⟩ := snpAnswer (s.snpBegan 3 count addr older newer start e) hon (code := 2) (by decide)
    exact ⟨t, he, hans, hdone, hsnp, hmem⟩
  · exact fun hon hbusy h1 h2 h3 h4 h5 h6 h7 => delta_same older newer count addr start s hon hbusy h1 h2 h3 h4 h5 h6 h7
  · rw [exec_snpReservedOp hbusy op]
    obtain ⟨t, he, hans, hdone, -, hsnp, hmap, -, hmem⟩ := snpAnswer (s.snpBegan (max 4 (op % 16)) 0 0 0 0 0 false) hon (code := 7) (by decide)
    exact ⟨t, he, hans, hdone, hsnp, hmap, hmem⟩

end Sys2Proof.Machine
end

section
/-! SUPPORT. The Rows through a stage's end: what a Stitch keeps when it moves up or retires (R109-R117, R126). -/
namespace Sys2Proof.Machine

/-! ### What leaves the Rows alone -/

theorem State.foldl_same {α β : Type} (π : State → β) {f : State → α → State} (h : ∀ (t : State) (a : α), π (f t a) = π t) (l : List α) (s : State) :
    π (l.foldl f s) = π s := by
  induction l generalizing s with
  | nil => rfl
  | cons a l ih => rw [List.foldl_cons, ih, h]

theorem State.trimPages_rows (s : State) : s.trimPages.rows = s.rows := by
  unfold State.trimPages
  split
  · split
    · split <;> rfl
    · rfl
  · rfl

theorem State.putPage_rows (s : State) (p : MapPage) : (s.putPage p).rows = s.rows := State.trimPages_rows _

theorem State.setTreeRoot_rows (s : State) (i tree vol p : Nat) : (s.setTreeRoot i tree vol p).rows = s.rows := by
  unfold State.setTreeRoot
  split <;> rfl

theorem State.descendTo_rows (i tree vol idx jseq stop lvl : Nat) (set : State → Nat → State) (hset : ∀ t v, (set t v).rows = t.rows) (ptr : Nat) (s : State) :
    (State.descendTo i tree vol idx jseq stop lvl set ptr s).1.rows = s.rows := by
  have hnew : ∀ (p : MapPage) (ptr v : Nat) (s : State) (set : State → Nat → State), (∀ t v, (set t v).rows = t.rows) →
      (if ptrKind ptr = 0 then (set s v).putPage p else s).rows = s.rows := fun p ptr v s set hset => by
    split
    · exact (State.putPage_rows _ _).trans (hset _ _)
    · rfl
  induction lvl generalizing set ptr s with
  | zero =>
    unfold State.descendTo
    dsimp only
    generalize (if tree = 1 then s.volGen vol else 0) = gen
    have h := hnew (newPage i tree 0 (identOf tree vol idx 0) jseq) ptr (mkPtr 2 gen 0) s set hset
    generalize (if ptrKind ptr = 0 then (set s (mkPtr 2 gen 0)).putPage _ else s) = s1 at h ⊢
    generalize (if ptrKind ptr = 0 then mkPtr 2 gen 0 else ptr) = ptr1
    split
    · rfl
    · split
      · rfl
      · split <;> exact h
  | succ l ih =>
    unfold State.descendTo
    dsimp only
    generalize (if tree = 1 then s.volGen vol else 0) = gen
    have h := hnew (newPage i tree (l + 1) (identOf tree vol idx (l + 1)) jseq) ptr (mkPtr 2 gen 0) s set hset
    generalize (if ptrKind ptr = 0 then (set s (mkPtr 2 gen 0)).putPage _ else s) = s1 at h ⊢
    generalize (if ptrKind ptr = 0 then mkPtr 2 gen 0 else ptr) = ptr1
    split
    · rfl
    · split
      · rfl
      · split
        · exact h
        · split
          · exact h
          · exact (ih _ (fun t v => t.putPage_rows _) _ _).trans h

theorem State.readCodeword_rows (s : State) (budget loc : Nat) (p : Purpose) : (s.readCodeword budget loc p).rows = s.rows := by
  have hrecon : ∀ sb stripe c, (s.startRecon sb stripe c budget p).rows = s.rows := fun sb stripe c => by
    unfold State.startRecon
    dsimp only
    split
    · exact State.raise_rows _ _
    · exact State.foldl_same State.rows (f := fun t x => State.queueRead t budget (s.readMode sb) (s.cwLoc sb stripe x) (.rebuildRead sb stripe c x)) (fun t a => rfl) _ _
  unfold State.readCodeword
  split
  · rfl
  · split
    · exact hrecon _ _ _
    · rfl

theorem State.waitFetch_rows (s : State) (f : PageFetch) : (s.waitFetch f).rows = s.rows := by
  unfold State.waitFetch
  dsimp only
  split
  · rfl
  · split
    · rfl
    · unfold State.startFetch
      split
      · exact State.readCodeword_rows _ _ _ _
      · rfl

theorem State.setRec_rows (s : State) (cid raw : Nat) (jseq? : Option Nat) : (s.setRec cid raw jseq?).rows = s.rows := by
  unfold State.setRec
  dsimp only
  have hopen := State.descendTo_rows (cidInst cid) 2 0 (cidLeaf cid) (jseq?.getD (s.nextJseq (cidInst cid))) 0 (s.treeDepth (cidInst cid) 2 0)
    (fun t v => t.setTreeRoot (cidInst cid) 2 0 v) (fun t v => t.setTreeRoot_rows _ _ _ _) (s.treeRoot (cidInst cid) 2 0) s
  rw [State.openLeaf]
  generalize State.descendTo _ _ _ _ _ _ _ _ _ s = r at hopen ⊢
  obtain ⟨s1, w⟩ := r
  dsimp only at hopen ⊢
  split
  · rw [State.putPage_rows, hopen]
  · exact (State.waitFetch_rows _ _).trans hopen
  · exact hopen

theorem State.takeCid_rows {s s1 : State} {i cid gen : Nat} (h : s.takeCid i = some (cid, gen, s1)) : s1.rows = s.rows := by
  unfold State.takeCid at h
  split at h
  · cases h
    rfl
  · split at h
    · cases h
      rfl
    · cases h

/-! ### A Stitch by its number -/

theorem State.stitch?_of_rows {s t : State} (h : t.rows = s.rows) (sid : Nat) : t.stitch? sid = s.stitch? sid := by rw [State.stitch?, h]; rfl

theorem State.stitch?_modStitch (s : State) (sid : Nat) (f : Stitch → Stitch) : (s.modStitch sid f).stitch? sid = (s.stitch? sid).map f := by
  change (s.rows.stitches.modify sid f).get? sid = _
  unfold Tbl.modify
  rw [State.stitch?]
  cases h : s.rows.stitches.get? sid with
  | none => exact h
  | some x => exact Tbl.get?_put_same _ _ _

theorem State.stitch?_freeEngine {s : State} {sid : Nat} {x : Stitch} (h : s.stitch? sid = some x) :
    (s.freeEngine sid).stitch? sid = some { x with engine := none } := by
  rw [State.freeEngine, h]
  dsimp only
  rw [State.stitch?_modStitch]
  exact congrArg (Option.map _) h

/-- y is x in what a stage's output is: bytes, headers, guard, flags and the stages done. -/
structure Stitch.Same (x y : Stitch) : Prop where
  data    : y.data = x.data
  headers : y.headers = x.headers
  guard   : y.guard = x.guard
  flags   : y.flags = x.flags
  done    : y.done = x.done

theorem State.stitch?_newContent {s : State} {sid : Nat} {x : Stitch} (h : s.stitch? sid = some x) :
    ∃ y, (s.newContent sid).stitch? sid = some y ∧ x.Same y := by
  unfold State.newContent
  rw [h]
  dsimp only
  split
  · exact ⟨x, h, rfl, rfl, rfl, rfl, rfl⟩
  · next cid gen s1 htake =>
    rw [State.stitch?_modStitch, State.stitch?_of_rows ((s1.setRec_rows _ _ _).trans (State.takeCid_rows htake)), h]
    exact ⟨_, rfl, rfl, rfl, rfl, rfl, rfl⟩

theorem State.stitch?_enterStage {s : State} {sid : Nat} {x : Stitch} (h : s.stitch? sid = some x) (n type : Nat) (front : Bool) :
    ∃ y, (s.enterStage sid n type front).stitch? sid = some y ∧ x.Same y := by
  have h1 : (((s.modStitch sid fun t => { t with stage := type, engine := none, held := false }).modStage n type fun g =>
      { g with queue := if front then sid :: g.queue else g.queue ++ [sid] }).stitch? sid) = some { x with stage := type, engine := none, held := false } := by
    change (s.modStitch sid fun t => { t with stage := type, engine := none, held := false }).stitch? sid = _
    rw [State.stitch?_modStitch, h]
    rfl
  unfold State.enterStage
  rw [h]
  dsimp only
  generalize (s.modStitch sid fun t => { t with stage := type, engine := none, held := false }).modStage n type _ = s1 at h1 ⊢
  split
  · obtain ⟨y, hy, hsame⟩ := State.stitch?_newContent h1
    exact ⟨y, hy, hsame.data, hsame.headers, hsame.guard, hsame.flags, hsame.done⟩
  · exact ⟨_, h1, rfl, rfl, rfl, rfl, rfl⟩

theorem State.stitchAfter_of_rows {s t : State} (h : t.rows = s.rows) (sid : Nat) : t.stitchAfter sid = s.stitchAfter sid := by
  rw [State.stitchAfter, State.stitchAfter, State.stitch?_of_rows h, h]

theorem State.stitchAfter_of_some {s : State} {sid : Nat} {x : Stitch} (h : s.stitch? sid = some x) : s.stitchAfter sid = some x := by
  rw [State.stitchAfter, h]

/-- A Stitch that retires is the last of its number to. -/
theorem State.stitchAfter_retire {s : State} {sid : Nat} {x : Stitch} (h : s.stitch? sid = some x) (status errStage : Nat) :
    (s.retire sid status errStage).stitchAfter sid = some { x with status := status, errStage := errStage, engine := none } := by
  have hrows : (s.retire sid status errStage).rows = { (s.freeEngine sid).rows with
      stitches := (s.freeEngine sid).rows.stitches.del sid, buffers := (s.freeEngine sid).rows.buffers + 2,
      retired := (s.freeEngine sid).rows.retired ++ [(sid, { x with status := status, errStage := errStage, engine := none })] } := by
    rw [State.retire, h]
    rfl
  have hnone : (s.retire sid status errStage).stitch? sid = none := by
    rw [State.stitch?, hrows]
    exact Tbl.get?_del_same _ _
  rw [State.stitchAfter, hnone, hrows]
  simp

/-! ### A stage's end (R113, R114) -/

/-- A Stitch that is handed on is the same in its output, in the next queue, held by its engine, or retired. -/
theorem State.stitchAfter_handTo {s : State} {sid : Nat} {x : Stitch} (h : s.stitch? sid = some x) (k : Nat) :
    ∃ y, (s.handTo sid k).stitchAfter sid = some y ∧ x.Same y := by
  have hheld : (s.modStitch sid fun t => { t with held := true }).stitch? sid = some { x with held := true } := by
    rw [State.stitch?_modStitch, h]
    rfl
  unfold State.handTo
  rw [h]
  dsimp only
  split
  · exact ⟨_, State.stitchAfter_retire h 1 0, rfl, rfl, rfl, rfl, rfl⟩
  · split
    · exact ⟨_, State.stitchAfter_of_some hheld, rfl, rfl, rfl, rfl, rfl⟩
    · split
      · exact ⟨_, State.stitchAfter_of_some ((State.stitch?_of_rows (State.raise_rows _ _) sid).trans hheld), rfl, rfl, rfl, rfl, rfl⟩
      · generalize hv : s.free 12 = p
        have h0 : p.2.stitch? sid = some x := by rw [← hv]; exact h
        have h1 : ∀ f : Stitch → Stitch, ((p.2.freeEngine sid).modStitch sid f).stitch? sid = some (f { x with engine := none }) := fun f => by
          rw [State.stitch?_modStitch, State.stitch?_freeEngine h0]
          rfl
        obtain ⟨y, hy, hsame⟩ := State.stitch?_enterStage (h1 fun t => { t with
          bufIn := t.bufOut, bufOut := p.1, producer := if x.stage = stDX then x.producer else x.engine.map fun e => (x.stage, e), tried := 0 }) x.row k false
        exact ⟨y, State.stitchAfter_of_some hy, hsame.data, hsame.headers, hsame.guard, hsame.flags, hsame.done⟩

/-- A Stitch whose stage finishes keeps its output, and has the stage's DONE bit. -/
theorem State.stitchAfter_finishStage {s : State} {sid : Nat} {x : Stitch} (h : s.stitch? sid = some x) :
    ∃ y, (s.finishStage sid).stitchAfter sid = some y ∧ Stitch.Same { x with done := x.done ||| 2 ^ (x.stage - 1) } y := by
  have h1 : (s.modStitch sid fun t => { t with done := t.done ||| 2 ^ (t.stage - 1) }).stitch? sid = some { x with done := x.done ||| 2 ^ (x.stage - 1) } := by
    rw [State.stitch?_modStitch, h]
    rfl
  unfold State.finishStage
  rw [h]
  dsimp only
  split
  · exact State.stitchAfter_handTo h1 _
  · exact ⟨_, State.stitchAfter_retire h1 1 0, rfl, rfl, rfl, rfl, rfl⟩

theorem bit_or_two_pow (n k : Nat) : bit (n ||| 2 ^ k) k = true := by
  rw [bit_eq_testBit, Nat.testBit_or, Nat.testBit_two_pow_self, Bool.or_true]

/-- What finishing a stage leaves to see of a Stitch, for a property of its output. -/
theorem State.any_stitchAfter_finishStage {s : State} {sid : Nat} {x : Stitch} (h : s.stitch? sid = some x) {P : Stitch → Bool}
    (hP : ∀ y, Stitch.Same { x with done := x.done ||| 2 ^ (x.stage - 1) } y → P y = true) : ((s.finishStage sid).stitchAfter sid).any P = true := by
  obtain ⟨y, hy, hsame⟩ := State.stitchAfter_finishStage h
  rw [hy]
  exact hP y hsame

end Sys2Proof.Machine
end
section
/-! PROOF. What GD, LDH, LDS, XTD and DC make of a Stitch (R161, R236-R239, R353-R358). -/
namespace Sys2Proof.Machine

/-! ### A stage that runs -/

theorem State.runStage_good {s : State} {sid type : Nat} {x : Stitch} (h : s.AtStage sid type x) (work : State → Stitch → State) :
    s.runStage sid type .good work = work s x := by
  obtain ⟨hx, hstage, hheld, hready, hserved, hz⟩ := h
  unfold State.runStage
  rw [hx]
  dsimp only
  rw [if_neg (by rcases hserved with h | h <;> simp_all [Option.isSome_iff_ne_none]), if_neg (by simp [hz])]

/-! ### What a stage counts leaves the Rows alone -/

theorem State.limitEvent_rows (s : State) (kind slot : Nat) (isr : Fld) : (s.limitEvent kind slot isr).rows = s.rows := State.raise_rows _ _

theorem State.countUse_rows (s : State) (n limit : Nat) : (s.countUse n limit).rows = s.rows := by
  unfold State.countUse
  dsimp only
  split
  · exact State.limitEvent_rows _ _ _ _
  · rfl

theorem State.exhaust_rows (s : State) (n : Nat) : (s.exhaust n).rows = s.rows := by
  unfold State.exhaust
  split
  · exact State.limitEvent_rows _ _ _ _
  · rfl

theorem State.useGcm_rows (s : State) (off : Nat) : (s.useGcm off).rows = s.rows := by
  unfold State.useGcm
  dsimp only
  split
  · rfl
  · next k _ =>
    generalize 2 ^ (if 32 ≤ k.limLog2 ∧ k.limLog2 ≤ 48 then k.limLog2 else 48) = limit
    split
    · exact (State.exhaust_rows _ _).trans (State.countUse_rows _ _ _)
    · exact State.countUse_rows _ _ _

theorem State.stitchSample_rows (s : State) (t : Stitch) : (s.stitchSample t).rows = s.rows := by
  unfold State.stitchSample
  split <;> rfl

theorem State.countSoft_rows (s : State) (sb : Option Nat) : (s.countSoft sb).rows = s.rows := by
  unfold State.countSoft
  split
  · split <;> rfl
  · rfl

theorem State.countDecode_ok_rows (s : State) (sb : Option Nat) (m die : Nat) (soft : Bool) (fixed : Nat) (b : Bytes) :
    (s.countDecode sb m die soft (.ok fixed b)).rows = s.rows := by
  unfold State.countDecode
  dsimp only
  split
  · exact State.countSoft_rows _ _
  · rfl

theorem State.recomputeLlr_rows (s : State) (m d : Nat) : (s.recomputeLlr m d).rows = s.rows := by
  unfold State.recomputeLlr
  split
  · rfl
  · refine State.foldl_same State.rows ?_ _ _
    intro t pt
    refine State.foldl_same State.rows ?_ _ _
    intro u p
    exact State.wrN_rows _ _ _ _

theorem State.addTally_rows (s : State) (m d pt n : Nat) (counts : List (Nat × Nat)) : (s.addTally m d pt n counts).rows = s.rows := by
  have hadd : ∀ (a : Nat) (l : List ((Nat × Nat) × Nat)), (l.foldl (fun t p => (t.wrN (tallyAddr a pt n p.2) 4 (t.rdN (tallyAddr a pt n p.2) 4 + p.1.1)).wrN
      (tallyAddr a pt n p.2 + 4) 4 (t.rdN (tallyAddr a pt n p.2 + 4) 4 + p.1.2)) s).rows = s.rows := fun a l => by
    refine State.foldl_same State.rows ?_ _ _
    intro t p
    rw [State.wrN_rows, State.wrN_rows]
  unfold State.addTally
  dsimp only
  split
  · rw [State.recomputeLlr_rows]
    refine (State.foldl_same State.rows ?_ _ _).trans (hadd _ _)
    intro t z
    rw [State.wrN_rows, State.wrN_rows]
  · exact hadd _ _

theorem State.countSoftDecode_rows (s : State) (m d pt : Nat) (raw : Bytes) (extra : List Bytes) (o : LdpcOut × Bool) :
    (s.countSoftDecode m d pt raw extra o).rows = s.rows := by
  have hsat : (if o.2 then s.inc F.LDC_EVENTS_MSG_SAT else s).rows = s.rows := by split <;> rfl
  unfold State.countSoftDecode
  dsimp only
  split
  · exact (State.addTally_rows _ _ _ _ _ _).trans hsat
  · exact hsat

/-- A Stitch as a stage changes it in a state whose Rows are those of one that holds it. -/
theorem State.stitch?_changed {s u : State} {sid : Nat} {x : Stitch} (h : s.stitch? sid = some x) (hu : u.rows = s.rows) (f : Stitch → Stitch) :
    (u.modStitch sid f).stitch? sid = some (f x) := by
  rw [State.stitch?_modStitch, State.stitch?_of_rows hu, h]
  rfl

/-! ### GD -/

/-- GD of a Stitch whose frame and key are at hand does what the frame's tag asks for. -/
theorem State.gdWork_of_frame {s : State} {x : Stitch} {l seq k : Nat} {m : RxMsgSt} {ct tag key : Bytes} (sid : Nat) (hframe : x.frame = some (l, seq, k))
    (hm : s.snp.rx.find? (fun m => m.link == l && m.seq == seq) = some m) (hf : m.frames[k]? = some (ct, tag)) (hkey : s.keyOf (0x2000 + x.gcmSlot) = some key) :
    (∀ p, gcmDec key (gcmIv m.fixed (seq * 64 + k)) m.header ct tag = some p →
      s.gdWork sid x = ((s.useGcm x.gcmSlot).takeSeq l seq).frameOpened sid x p) ∧
    (gcmDec key (gcmIv m.fixed (seq * 64 + k)) m.header ct tag = none → s.gdWork sid x = (s.useGcm x.gcmSlot).frameBad sid ct.length) := by
  refine ⟨fun p hp => ?_, fun hp => ?_⟩ <;>
  · unfold State.gdWork
    rw [hframe]
    dsimp only
    rw [hm]
    dsimp only
    rw [hf, hkey]
    dsimp only
    rw [hp]

theorem State.any_frameOpened {s u : State} {sid : Nat} {x : Stitch} (h : s.AtStage sid stGD x) (hu : u.rows = s.rows) (p : Bytes) :
    ((u.frameOpened sid x p).stitchAfter sid).any (fun y => y.data == p.drop 16 && y.guard == leNat (p.take 8) && bit y.done (stGD - 1)) = true := by
  have hset : (u.setOutput sid (p.drop 16) []).stitch? sid = some { x with kept := x.data, keptHeaders := x.headers, data := p.drop 16, headers := [], hop := crc32c (p.drop 16) } :=
    State.stitch?_changed h.1 hu _
  refine State.any_stitchAfter_finishStage (State.stitch?_changed (s := u.setOutput sid (p.drop 16) []) hset rfl _) fun y hy => ?_
  obtain ⟨hdata, -, hguard, -, hdone⟩ := hy
  rw [hdata, hguard, hdone, ← h.2.1]
  simp [bit_or_two_pow]

theorem State.frameBad_spec {s u : State} {sid : Nat} {x : Stitch} (h : s.AtStage sid stGD x) (hu : u.rows = s.rows) (len : Nat) :
    ((u.frameBad sid len).stitchAfter sid).any (fun y => y.status == 4) = true ∧ (u.frameBad sid len).fld F.SEC_ISR_AUTH_FAIL = 1 := by
  unfold State.frameBad
  have hrows : u.authFail.countAuth.rows = s.rows := by
    rw [State.countAuth, State.raise_rows, State.inc_rows, State.authFail, State.raise_rows, State.inc_rows, hu]
  refine ⟨?_, ?_⟩
  · generalize u.authFail.countAuth = v at hrows
    generalize zeros len = b
    rw [State.setOutput, State.stitchAfter_retire (State.stitch?_changed h.1 hrows _)]
    rfl
  · have hone : u.authFail.fld F.SEC_ISR_AUTH_FAIL = 1 := State.fld_raise_same _ _ rfl (by decide)
    generalize u.authFail = v at hone ⊢
    have hcount : v.countAuth.fld F.SEC_ISR_AUTH_FAIL = 1 := by
      rw [State.countAuth, State.fld_raise_ne _ (by decide) (by decide), State.fld_inc_ne _ _ (by decide), hone]
    generalize v.countAuth = w at hcount ⊢
    generalize zeros len = b
    exact (State.keeps_retire (l := [F.SEC_ISR_AUTH_FAIL]) (w.setOutput sid b []) sid 4 stGD (by decide) _ (by decide)).trans hcount

/-! ### DC's errors are told in CMP's registers, which the Rows' and engines' are apart from -/

/-- What a DC error leaves to read. -/
def dcErrFlds : List Fld := [F.CMP_DC_ERRS_LAST_CODE, F.CMP_ISR_DC_ERR]

theorem State.retire_keeps_dcErr (s : State) (sid status errStage : Nat) : s.Keeps dcErrFlds (s.retire sid status errStage) := by
  have hfld : ∀ {f : Fld} (t : State) (v : Nat), f.key % 2048 ∈ [512, 576, 608, 640] → t.Keeps dcErrFlds (t.setFld f v) := fun t v hf g hg =>
    t.fld_setFld_ne v fun e => by
      have : ∀ g ∈ dcErrFlds, g.key % 2048 ∉ [512, 576, 608, 640] := by decide
      exact this g hg (e ▸ hf)
  have hrow : ∀ (n off lo width reset : Nat), lo < 32 → (Fld.mk (off + 256 * n) lo width reset).key % 2048 = (off * 8 + lo) % 2048 := fun n off lo width reset _ => by
    change ((off + 256 * n) * 8 + lo) % 2048 = _
    omega
  unfold State.retire
  split
  · exact .refl _ _
  · refine .trans (.of_cells ?_) (.trans (hfld _ _ ?_) (.trans (hfld _ _ ?_) (.trans (hfld _ _ ?_) (hfld _ _ ?_))))
    · exact s.freeEngine_cells sid
    all_goals
      simp only [F.ROW_N_INFLIGHT_INFLIGHT, F.ROW_N_RETIRED_LO_COUNT_LO, F.ROW_N_RETIRED_HI_COUNT_HI, F.ROW_N_RETIRED_WRAPS_WRAPS, hrow _ _ _ _ _ (by decide : 0 < 32)]
      decide

theorem State.enterStage_cells (s : State) (sid n type : Nat) (front : Bool) (h : type ≤ stDX) : (s.enterStage sid n type front).cells = s.cells := by
  unfold State.enterStage
  dsimp only
  split
  · rw [if_neg (by simp [Nat.not_lt.mpr h])]
    rfl
  · rfl

theorem State.rerun_cells (s : State) (sid type k : Nat) (h : type ≤ stDX) : (s.rerun sid type k).cells = s.cells := by
  unfold State.rerun
  split
  · rfl
  · exact (State.enterStage_cells _ _ _ _ _ h).trans (s.freeEngine_cells sid)

theorem State.stageShort_keeps_dcErr (s : State) (n type : Nat) : s.Keeps dcErrFlds (s.stageShort n type) := by
  have hraise := s.keeps_raise (l := dcErrFlds) (f := F.ROW_ISR_POOL_SHORT) (by decide)
  unfold State.stageShort
  dsimp only
  split
  · split
    · refine hraise.trans (.trans (.of_cells (t := (s.raise F.ROW_ISR_POOL_SHORT).modRow n fun r => { r with stalled := true }) rfl) (.ite ?_ (.refl _ _)))
      exact (State.keeps_raise _ (by decide)).trans (State.keeps_errFatal _ _ (by decide))
    · exact hraise
  · exact hraise

theorem State.callSpare_keeps_dcErr (s : State) (pool failed n type source : Nat) (named : Option Nat) :
    s.Keeps dcErrFlds (s.callSpare pool failed n type source named) := by
  unfold State.callSpare
  split
  · refine .trans (.of_cells ?_) (.trans (State.keeps_setFld _ _ (f := F.RPR_REC_COUNT_COUNT) (by decide)) (State.keeps_raise _ (by decide)))
    rfl
  · exact s.stageShort_keeps_dcErr n type

theorem State.startDual_keeps_dcErr (s : State) (pool : Nat) : s.Keeps dcErrFlds (s.startDual pool) := by
  unfold State.startDual
  split
  · exact .refl _ _
  · next f hf =>
    have : apartFrom f dcErrFlds = true := by
      unfold dualFld at hf
      split at hf <;> cases hf <;> decide
    exact .trans (.of_cells rfl) (State.keeps_setFld _ _ this)

/-- A pool's register lies below CMP's. -/
theorem apartFrom_pool {f : Fld} (h : f.key < F.CMP_DC_ERRS_LAST_CODE.key) : apartFrom f dcErrFlds = true := by
  have hbelow : F.CMP_DC_ERRS_LAST_CODE.key < F.CMP_ISR_DC_ERR.key := by decide
  simp only [apartFrom, dcErrFlds, List.all_cons, List.all_nil, Bool.and_true, Bool.and_eq_true, decide_eq_true_eq]
  exact ⟨⟨by omega, by decide⟩, by omega, by decide⟩

theorem State.retireEngine_keeps_dcErr (s : State) {pool : Nat} (e n type source : Nat) (named : Option Nat) (hp : pool < 8) :
    s.Keeps dcErrFlds (s.retireEngine pool e n type source named) := by
  unfold State.retireEngine
  dsimp only
  refine .trans (.trans (.trans (.trans (.of_cells ?_) (State.keeps_setFld _ _ (f := F.ROW_POOL_ACTIVE pool) (apartFrom_pool ?_)))
    (State.keeps_inc _ _ (f := F.ROW_POOL_RETIRED pool) (apartFrom_pool ?_))) (State.keeps_raise _ (by decide)))
    (.trans (State.startDual_keeps_dcErr _ _) (State.callSpare_keeps_dcErr _ _ _ _ _ _ _))
  · refine (State.foldl_same State.cells ?_ _ _).trans rfl
    exact fun t _ => rfl
  all_goals
    simp only [Fld.key, F.ROW_POOL_ACTIVE, F.ROW_POOL_RETIRED, F.CMP_DC_ERRS_LAST_CODE]
    omega

theorem stagePool_lt {type p : Nat} (h : stagePool type = some p) : p < 8 := by
  unfold stagePool at h
  split at h <;> cases h <;> decide

theorem State.stageFault_keeps_dcErr (s : State) (n type e kind : Nat) : s.Keeps dcErrFlds (s.stageFault n type e kind) := by
  unfold State.stageFault
  split
  · next p hp =>
    unfold State.engineFault
    dsimp only
    have hset : ∀ t : State, s.Keeps dcErrFlds t → s.Keeps dcErrFlds ((((t.setFld F.ROW_FAULT_LAST_KIND kind).setFld F.ROW_FAULT_LAST_POOL p).setFld
        F.ROW_FAULT_LAST_ENGINE e).setFld F.ROW_FAULT_LAST_ROW n) := fun t h =>
      (((h.trans (t.keeps_setFld _ (by decide))).trans (State.keeps_setFld _ _ (by decide))).trans (State.keeps_setFld _ _ (by decide))).trans
        (State.keeps_setFld _ _ (by decide))
    generalize hu : (((State.setFld _ F.ROW_FAULT_LAST_KIND kind).setFld F.ROW_FAULT_LAST_POOL p).setFld F.ROW_FAULT_LAST_ENGINE e).setFld F.ROW_FAULT_LAST_ROW n = u
    have h2 : s.Keeps dcErrFlds (if kind = 2 then u.startDual p else u) :=
      (hu ▸ hset _ (.of_cells rfl) : s.Keeps dcErrFlds u).trans (.ite (State.startDual_keeps_dcErr _ _) (.refl _ _))
    exact h2.trans (.ite (State.retireEngine_keeps_dcErr _ _ _ _ _ _ (stagePool_lt hp)) (.refl _ _))
  · exact .refl _ _

theorem State.dcFail_dcErr (s : State) {sid : Nat} {t : Stitch} (code : Nat) (ht : t.stage = stDC) :
    (s.dcFail sid t code).fld F.CMP_DC_ERRS_LAST_CODE = code % 256 ∧ (s.dcFail sid t code).fld F.CMP_ISR_DC_ERR = 1 := by
  have hcount : (s.countDc code).fld F.CMP_DC_ERRS_LAST_CODE = code % 256 ∧ (s.countDc code).fld F.CMP_ISR_DC_ERR = 1 := by
    refine ⟨?_, State.fld_raise_same _ _ rfl (by decide)⟩
    rw [State.countDc, State.fld_raise_ne _ (by decide) (by decide), State.fld_inc_ne _ _ (by decide), State.fld_setFld_same]
    rfl
  have hguard : (s.countDc code).Keeps dcErrFlds (s.countDc code).countGuard := (State.keeps_inc _ _ (by decide)).trans (State.keeps_raise _ (by decide))
  have hrest : (s.countDc code).Keeps dcErrFlds (s.dcFail sid t code) := by
    unfold State.dcFail
    dsimp only
    have hfault := hguard.trans (State.stageFault_keeps_dcErr _ t.row t.stage (t.engine.getD 0) 1)
    generalize (s.countDc code).countGuard.stageFault t.row t.stage (t.engine.getD 0) 1 = u at hfault ⊢
    refine hfault.trans (.ite (State.retire_keeps_dcErr _ _ _ _) (.ite ?_ ?_))
    · exact .of_cells (State.rerun_cells _ _ _ _ (ht ▸ by decide))
    · refine .trans (t := match t.producer with | some (type, e) => u.stageFault t.row type e 1 | none => u) ?_
        (.of_cells (State.rerun_cells _ _ _ _ (by decide)))
      split
      · exact State.stageFault_keeps_dcErr _ _ _ _ _
      · exact .refl _ _
  exact ⟨(hrest _ (by decide)).trans hcount.1, (hrest _ (by decide)).trans hcount.2⟩

/-! ### LDH and LDS -/

theorem State.any_takeCodeword {s u : State} {sid type : Nat} {x : Stitch} (h : s.AtStage sid type x) (hu : u.rows = s.rows) (b : Bytes) (flags : Nat) :
    ((((u.modStitch sid fun t => { t.takeCodeword b with flags := t.flags ||| flags }).finishStage sid).stitchAfter sid).any (fun y =>
      y.data == (ldhOutput x b).1 && y.headers == (ldhOutput x b).2 && y.flags == x.flags ||| flags && bit y.done (type - 1))) = true := by
  refine State.any_stitchAfter_finishStage (State.stitch?_changed h.1 hu _) fun y hy => ?_
  obtain ⟨hdata, hheaders, -, hflags, hdone⟩ := hy
  rw [hdata, hheaders, hflags, hdone, ← h.2.1]
  simp [Stitch.takeCodeword, bit_or_two_pow]

theorem State.ldhWork_output {s : State} {sid : Nat} {x : Stitch} (h : s.AtStage sid stLDH x) {fixed : Nat} {b : Bytes} (hout : s.hardOut x.data = .ok fixed b) :
    ((s.ldhWork sid x).stitchAfter sid).any (fun y => y.data == (ldhOutput x b).1 && y.headers == (ldhOutput x b).2 && bit y.done (stLDH - 1)) = true := by
  have hwork : s.ldhWork sid x = ((((s.stitchSample x).countDecode (s.sbOfAddr x.loc) x.die.1 x.die.2 false (.ok fixed b)).modStitch sid fun t =>
      { t.takeCodeword b with flags := t.flags ||| 0 }).finishStage sid) := by
    unfold State.ldhWork
    rw [hout]
    simp only [Nat.or_zero]
    rfl
  have hrows := (State.countDecode_ok_rows (s.stitchSample x) (s.sbOfAddr x.loc) x.die.1 x.die.2 false fixed b).trans (s.stitchSample_rows x)
  have hany := State.any_takeCodeword h hrows b 0
  rw [← hwork] at hany
  revert hany
  cases (s.ldhWork sid x).stitchAfter sid with
  | none => exact id
  | some y => simp +contextual

theorem State.ldsWork_output {s : State} {sid : Nat} {x : Stitch} (h : s.AtStage sid stLDS x) {fixed : Nat} {b : Bytes}
    (hout : (s.softOut x.die.1 x.die.2 (s.pageType x) x.data x.softReads).1 = .ok fixed b) :
    ((s.ldsWork sid x).stitchAfter sid).any (fun y => y.data == (ldhOutput x b).1 && bit y.flags 6 && bit y.done (stLDS - 1)) = true := by
  have hsoft := State.countSoftDecode_rows s x.die.1 x.die.2 (s.pageType x) x.data x.softReads (s.softOut x.die.1 x.die.2 (s.pageType x) x.data x.softReads)
  have hwork : s.ldsWork sid x = (((((s.countSoftDecode x.die.1 x.die.2 (s.pageType x) x.data x.softReads (s.softOut x.die.1 x.die.2 (s.pageType x) x.data x.softReads)).stitchSample x).countDecode
      (s.sbOfAddr x.loc) x.die.1 x.die.2 true (.ok fixed b)).modStitch sid fun t => { t.takeCodeword b with flags := t.flags ||| 0x40 }).finishStage sid) := by
    unfold State.ldsWork
    dsimp only
    rw [hout]
  generalize s.countSoftDecode _ _ _ _ _ _ = s0 at hsoft hwork
  have hrows := ((State.countDecode_ok_rows (s0.stitchSample x) (s.sbOfAddr x.loc) x.die.1 x.die.2 true fixed b).trans (s0.stitchSample_rows x)).trans hsoft
  have hany := State.any_takeCodeword h hrows b 0x40
  rw [← hwork] at hany
  revert hany
  cases (s.ldsWork sid x).stitchAfter sid with
  | none => exact id
  | some y =>
    have hbit : bit (x.flags ||| 0x40) 6 = true := bit_or_two_pow x.flags 6
    simp only [Option.any_some, Bool.and_eq_true, beq_iff_eq]
    rintro ⟨⟨⟨hdata, -⟩, hflags⟩, hdone⟩
    exact ⟨⟨hdata, hflags ▸ hbit⟩, hdone⟩

/-! ### XTD and DC -/

theorem State.xtdWork_output {s : State} {sid : Nat} {x : Stitch} (h : s.AtStage sid stXTD x) {key : Bytes} (hkey : s.keyOf x.keySlot = some key)
    (hok : headersOk x.cid x.gen x.slotClass (slotsOf x.slotClass) x.headers = true) :
    ((s.xtdWork sid x).stitchAfter sid).any (fun y => y.data == xtsDec key (xtsTweak x.cid x.gen (x.keySlot / 2)) x.data &&
      y.guard == leNat (x.headers.take 8) ^^^ guardMask key (xtsTweak x.cid x.gen (x.keySlot / 2)) && bit y.done (stXTD - 1)) = true := by
  unfold State.xtdWork
  rw [hkey]
  dsimp only
  rw [hok, if_neg (by decide)]
  generalize xtsDec key (xtsTweak x.cid x.gen (x.keySlot / 2)) x.data = b
  generalize leNat (x.headers.take 8) ^^^ guardMask key (xtsTweak x.cid x.gen (x.keySlot / 2)) = g
  have hset : (s.setOutput sid b []).stitch? sid = some { x with kept := x.data, keptHeaders := x.headers, data := b, headers := [], hop := crc32c b } :=
    State.stitch?_changed h.1 rfl _
  refine State.any_stitchAfter_finishStage (State.stitch?_changed hset rfl _) fun y hy => ?_
  obtain ⟨hdata, -, hguard, -, hdone⟩ := hy
  rw [hdata, hguard, hdone, ← h.2.1]
  simp [bit_or_two_pow]

/-- What DC makes of a stored form: the error it met, and the block. -/
def State.dcOut (s : State) (x : Stitch) : Nat × Bytes :=
  if x.slotClass = 15 then (0, x.data) else decodeStream (s.dictFor x.dict x.domain) x.data none

theorem State.dcWork_of_stored {s : State} {sid : Nat} {x : Stitch} (hx : x.frameHdr = none) :
    s.dcWork sid x false =
      (let code := if (s.dcOut x).1 ≠ 0 then (s.dcOut x).1 else if (s.dcOut x).2.length ≠ 4096 ∨ carryGuard (s.dcOut x).2 ≠ x.guard then 0xA else 0
       if code ≠ 0 then s.dcFail sid x code else (s.setOutput sid (s.dcOut x).2 []).finishStage sid) := by
  unfold State.dcWork State.dcOut
  rw [hx]
  by_cases hraw : x.slotClass = 15 <;> simp [hraw]

theorem State.dcWork_output {s : State} {sid : Nat} {x : Stitch} (h : s.AtStage sid stDC x) (hx : x.frameHdr = none) (h0 : (s.dcOut x).1 = 0)
    (hlen : (s.dcOut x).2.length = 4096) (hguard : carryGuard (s.dcOut x).2 = x.guard) :
    ((s.dcWork sid x false).stitchAfter sid).any (fun y => y.data == (s.dcOut x).2 && bit y.done (stDC - 1)) = true := by
  rw [State.dcWork_of_stored hx]
  dsimp only
  rw [if_neg (by simp [h0, hlen, hguard])]
  refine State.any_stitchAfter_finishStage (State.stitch?_changed h.1 rfl _) fun y hy => ?_
  obtain ⟨hdata, -, -, -, hdone⟩ := hy
  rw [hdata, hdone, ← h.2.1]
  simp [bit_or_two_pow]

theorem State.dcWork_error {s : State} {sid : Nat} {x : Stitch} (h : s.AtStage sid stDC x) (hx : x.frameHdr = none) (h0 : (s.dcOut x).1 ≠ 0) :
    (s.dcWork sid x false).fld F.CMP_DC_ERRS_LAST_CODE = (s.dcOut x).1 % 256 ∧ (s.dcWork sid x false).fld F.CMP_ISR_DC_ERR = 1 := by
  rw [State.dcWork_of_stored hx]
  dsimp only
  rw [if_pos h0, if_pos h0]
  exact s.dcFail_dcErr _ h.2.1

/-- Settles O18: each stage of a Stitch that its engine ends well hands on the output that its work function makes, with the
stage's DONE bit, in the next queue, held or retired. -/
theorem readStagesMakeTheirOutput : Obligations.ReadStagesMakeTheirOutput := by
  unfold Obligations.ReadStagesMakeTheirOutput
  refine ⟨fun sid l seq k x m ct tag key s _ hat hframe hm hf hkey => ?_, fun sid x fixed b s _ hat hout => ?_, fun sid x fixed b s _ hat hout => ?_,
    fun sid x key s _ hat hkey hok => ?_, fun sid x s _ hat hx => ?_⟩
  · obtain ⟨hsome, hnone⟩ := State.gdWork_of_frame sid hframe hm hf hkey
    refine ⟨_, rfl, ?_, fun p hp => ?_, fun hp => ?_⟩
    · rw [State.runStage_good hat]
    · rw [hsome p hp]
      exact State.any_frameOpened hat ((State.wrN_rows _ _ _ _).trans (s.useGcm_rows _)) p
    · rw [hnone hp]
      exact State.frameBad_spec hat (s.useGcm_rows _) _
  · exact ⟨_, rfl, by rw [State.runStage_good hat], State.ldhWork_output hat hout⟩
  · exact ⟨_, rfl, by rw [State.runStage_good hat], State.ldsWork_output hat hout⟩
  · exact ⟨_, rfl, by rw [State.runStage_good hat], State.xtdWork_output hat hkey hok⟩
  · refine ⟨_, rfl, ?_, State.dcWork_output hat hx, State.dcWork_error hat hx⟩
    rw [if_neg (by decide), State.runStage_good hat]
    rfl

end Sys2Proof.Machine
end

section
/-! SUPPORT. The superblock table and what reads it (R180-R182, R200-R201). -/
namespace Sys2Proof.Machine

/-! ### Where the tables stand -/

/-- The registers that name the superblock tables, and the instances that a head holds. -/
def sbFlds : List Fld :=
  [F.FTL_SBT_BASE_LO_BASE_LO, F.FTL_SBT_BASE_HI_BASE_HI, F.FTL_SBS_BASE_LO_BASE_LO, F.FTL_SBS_BASE_HI_BASE_HI,
    F.GLB_PAIR_STATUS_HEAD_ID, F.GLB_PAIR_STATUS_SOLO]

section
variable {s t : State}

theorem State.Keeps.sbtBase (h : s.Keeps sbFlds t) : t.sbtBase = s.sbtBase := by
  rw [State.sbtBase, State.base, h _ (by decide), h _ (by decide)]
  rfl

theorem State.Keeps.sbAddr (h : s.Keeps sbFlds t) (sb : Nat) : t.sbAddr sb = s.sbAddr sb := by rw [State.sbAddr, h.sbtBase]; rfl

theorem State.Keeps.sbsAddr (h : s.Keeps sbFlds t) (sb : Nat) : t.sbsAddr sb = s.sbsAddr sb := by
  rw [State.sbsAddr, State.base, h _ (by decide), h _ (by decide)]
  rfl

theorem State.Keeps.holds (h : s.Keeps sbFlds t) (i : Nat) : t.holds i = s.holds i := by
  rw [State.holds, State.headId, State.solo, State.flag, h _ (by decide), h _ (by decide)]
  rfl

end

/-- t holds what s does in DRAM, and the tables stand where they stood. -/
structure State.SameTables (s t : State) : Prop where
  dram : t.dram = s.dram
  keep : s.Keeps sbFlds t

section
variable {s t : State}

theorem State.rdN_of_dram (h : t.dram = s.dram) (a n : Nat) : t.rdN a n = s.rdN a n := by rw [State.rdN, State.rd, h]; rfl

theorem State.SameTables.sbState (h : s.SameTables t) (sb : Nat) : t.sbState sb = s.sbState sb := by
  rw [State.sbState, h.keep.sbAddr, State.rdN_of_dram h.dram]; rfl
theorem State.SameTables.sbMode (h : s.SameTables t) (sb : Nat) : t.sbMode sb = s.sbMode sb := by
  rw [State.sbMode, h.keep.sbAddr, State.rdN_of_dram h.dram]; rfl
theorem State.SameTables.sbInst (h : s.SameTables t) (sb : Nat) : t.sbInst sb = s.sbInst sb := by
  rw [State.sbInst, h.keep.sbAddr, State.rdN_of_dram h.dram]; rfl
theorem State.SameTables.sbValid (h : s.SameTables t) (sb : Nat) : t.sbValid sb = s.sbValid sb := by
  rw [State.sbValid, h.keep.sbsAddr, State.rdN_of_dram h.dram]; rfl
theorem State.SameTables.sbW (h : s.SameTables t) (sb : Nat) : t.sbW sb = s.sbW sb := by
  rw [State.sbW, State.sbK, State.sbM, h.keep.sbAddr, State.rdN_of_dram h.dram, State.rdN_of_dram h.dram]; rfl

theorem State.SameTables.sbMembers (h : s.SameTables t) (sb : Nat) : t.sbMembers sb = s.sbMembers sb := by
  have hmember : t.sbMember sb = s.sbMember sb := funext fun j => by
    rw [State.sbMember, h.keep.sbAddr, State.rdN_of_dram h.dram]; rfl
  rw [State.sbMembers, h.sbW, hmember]; rfl

theorem State.SameTables.allSbs (h : s.SameTables t) : t.allSbs = s.allSbs := by rw [State.allSbs, h.dram, h.keep.sbtBase]; rfl

theorem State.SameTables.sbOfAddr (h : s.SameTables t) (a : Nat) : t.sbOfAddr a = s.sbOfAddr a := by
  unfold State.sbOfAddr State.sbOfMember
  rw [h.allSbs]
  congr 1
  funext sb
  rw [h.sbState, h.sbMembers]

/-- What forbids erasing a superblock is read in the tables and in FTL, the map and the Rows. -/
theorem State.SameTables.eraseBegun (h : s.SameTables t) (hftl : t.ftl = s.ftl) (sb : Nat) : t.eraseBegun sb = s.eraseBegun sb := by
  unfold State.eraseBegun State.jnl
  rw [h.sbInst, hftl]

theorem State.SameTables.copiesOut (h : s.SameTables t) (hftl : t.ftl = s.ftl) (hmap : t.map = s.map) (sb : Nat) : t.copiesOut sb = s.copiesOut sb := by
  have haddr : t.sbOfAddr = s.sbOfAddr := funext h.sbOfAddr
  unfold State.copiesOut
  rw [hftl, hmap, haddr, h.sbMode]

theorem State.SameTables.finishCode (h : s.SameTables t) (hftl : t.ftl = s.ftl) (hmap : t.map = s.map) (sb : Nat) : t.finishCode sb = s.finishCode sb := by
  have haddr : t.sbOfAddr = s.sbOfAddr := funext h.sbOfAddr
  unfold State.finishCode State.jpageIn State.jnl
  rw [h.copiesOut hftl hmap, h.sbValid, h.sbMode, h.sbInst, hftl, haddr]

theorem State.SameTables.movesFrom (h : s.SameTables t) (hrows : t.rows = s.rows) (sb : Nat) : t.movesFrom sb = s.movesFrom sb := by
  have haddr : t.sbOfAddr = s.sbOfAddr := funext h.sbOfAddr
  unfold State.movesFrom
  rw [hrows, haddr]

end

/-! ### The reclaim candidates (R201) -/

theorem State.regsOnly_recandidate (s : State) (i : Nat) : s.RegsOnly (s.recandidate i) := by
  unfold State.recandidate
  dsimp only
  split <;> exact ((s.regsOnly_setFld _ _).trans (State.regsOnly_setFld _ _ _)).trans (State.regsOnly_setFld _ _ _)

theorem State.keeps_recandidate {l : List Fld} (s : State) (i : Nat)
    (h : (apartFrom (F.FTL_RCL_CAND_VALID i) l && apartFrom (F.FTL_RCL_CAND_URGENT i) l && apartFrom (F.FTL_RCL_CAND_SB i) l) = true) :
    s.Keeps l (s.recandidate i) := by
  simp only [Bool.and_eq_true] at h
  obtain ⟨⟨hvalid, hurgent⟩, hsb⟩ := h
  unfold State.recandidate
  dsimp only
  split <;> exact ((s.keeps_setFld _ hvalid).trans (State.keeps_setFld _ _ hurgent)).trans (State.keeps_setFld _ _ hsb)

theorem State.sbInst_lt (s : State) (sb : Nat) : s.sbInst sb < 2 := Nat.mod_lt _ (by decide)

theorem State.regsOnly_sbChanged (s : State) (sb : Nat) : s.RegsOnly (s.sbChanged sb) := by
  unfold State.sbChanged
  split
  · exact s.regsOnly_recandidate _
  · exact .refl s

theorem apartFrom_cand {i : Nat} (h : i < 2) :
    (apartFrom (F.FTL_RCL_CAND_VALID i) sbFlds && apartFrom (F.FTL_RCL_CAND_URGENT i) sbFlds && apartFrom (F.FTL_RCL_CAND_SB i) sbFlds) = true := by
  have : ∀ i ∈ [0, 1], (apartFrom (F.FTL_RCL_CAND_VALID i) sbFlds && apartFrom (F.FTL_RCL_CAND_URGENT i) sbFlds && apartFrom (F.FTL_RCL_CAND_SB i) sbFlds) = true := by decide
  exact this i (by simp; omega)

theorem State.keeps_sbChanged (s : State) (sb : Nat) : s.Keeps sbFlds (s.sbChanged sb) := by
  unfold State.sbChanged
  exact .ite (s.keeps_recandidate _ (apartFrom_cand (s.sbInst_lt sb))) (.refl _ _)

end Sys2Proof.Machine
end

section
/-! PROOF. Superblocks: push, open, padding, reclaim, refresh and anchors (R181, R182, R195-R212, R247). -/
namespace Sys2Proof.Machine

/-! ### Push (R181) -/

theorem queueKey_inj {i j a b : Nat} (ha : a < 8) (hb : b < 8) (h : queueKey i a = queueKey j b) : i = j ∧ a = b := by
  unfold queueKey at h
  omega

theorem State.sbQueue_setQueue (s : State) (i stream : Nat) (q : List Nat) : (s.setQueue i stream q).sbQueue i stream = q := by
  unfold State.sbQueue State.setQueue
  rw [State.setFld_ftl]
  dsimp only
  split
  · rw [Tbl.get?_del_same]
    simp_all
  · rw [Tbl.get?_put_same]
    rfl

theorem State.keeps_setQueue {l : List Fld} (s : State) (i stream : Nat) (q : List Nat) (h : apartFrom (F.FTL_SBQ_LEVEL_QUEUED stream i) l = true) :
    s.Keeps l (s.setQueue i stream q) := (State.Keeps.of_cells rfl).trans (State.keeps_setFld _ _ h)

theorem apartFrom_level {i stream : Nat} (hi : i < 2) (hs : stream < 8) : apartFrom (F.FTL_SBQ_LEVEL_QUEUED stream i) sbFlds = true := by
  have : ∀ i ∈ List.range 2, ∀ stream ∈ List.range 8, apartFrom (F.FTL_SBQ_LEVEL_QUEUED stream i) sbFlds = true := by decide
  exact this i (List.mem_range.mpr hi) stream (List.mem_range.mpr hs)

/-- The state of a superblock of a half that the head does not hold is one byte of the table. -/
theorem State.setSbState_unheld {s : State} {sb : Nat} (st : Nat) (h : s.holds (s.sbInst sb) = false) :
    ∃ q, s.setSbState sb st = (s.modFtl fun t => { t with qlc := q }).wrN (s.sbAddr sb) 1 st := by
  have hrecount : ∀ t : State, t.cells = s.cells → t.recountSbs (s.sbInst sb) = t := fun t ht => by
    rw [State.recountSbs, (State.Keeps.of_cells (l := sbFlds) ht).holds, h]
    rfl
  unfold State.setSbState
  dsimp only
  by_cases hmode : (sbInUse st || sbInUse (s.sbState sb)) = true
  · rw [if_pos hmode]
    exact ⟨_, hrecount _ rfl⟩
  · rw [if_neg hmode]
    exact ⟨s.ftl.qlc, hrecount _ rfl⟩

theorem State.pushSb_unheld {s : State} {stream sb : Nat} (hs : stream < 8) (hcode : s.pushCode stream sb = 0) (h : s.holds (s.sbInst sb) = false) :
    let t := s.pushSb stream sb
    t.sbQueue (s.sbInst sb) stream = s.sbQueue (s.sbInst sb) stream ++ [sb] ∧ t.sbState sb = sbQueued ∧
      (∀ a, a ≠ s.sbAddr sb → memGet t.dram a = memGet s.dram a) ∧ t.sent = s.sent ∧ t.pins = s.pins := by
  have hk : s.Keeps sbFlds (s.setQueue (s.sbInst sb) stream (s.sbQueue (s.sbInst sb) stream ++ [sb])) :=
    s.keeps_setQueue _ _ _ (apartFrom_level (s.sbInst_lt sb) hs)
  have hq := s.sbQueue_setQueue (s.sbInst sb) stream (s.sbQueue (s.sbInst sb) stream ++ [sb])
  have hu : ∃ q, s.pushSb stream sb = ((s.setQueue (s.sbInst sb) stream (s.sbQueue (s.sbInst sb) stream ++ [sb])).modFtl fun t => { t with qlc := q }).wrN
      (s.sbAddr sb) 1 sbQueued := by
    have htables : s.SameTables (s.setQueue (s.sbInst sb) stream (s.sbQueue (s.sbInst sb) stream ++ [sb])) := ⟨rfl, hk⟩
    have hheld : (s.setQueue (s.sbInst sb) stream (s.sbQueue (s.sbInst sb) stream ++ [sb])).holds
        ((s.setQueue (s.sbInst sb) stream (s.sbQueue (s.sbInst sb) stream ++ [sb])).sbInst sb) = false := by
      rw [htables.sbInst, hk.holds, h]
    obtain ⟨q, hset⟩ := State.setSbState_unheld sbQueued hheld
    refine ⟨q, ?_⟩
    rw [State.pushSb, hcode, if_neg (by decide)]
    dsimp only
    rw [h, if_neg (by decide), hset, hk.sbAddr]
  obtain ⟨q, hu⟩ := hu
  have hrest : (s.setQueue (s.sbInst sb) stream (s.sbQueue (s.sbInst sb) stream ++ [sb])).dram = s.dram ∧
      (s.setQueue (s.sbInst sb) stream (s.sbQueue (s.sbInst sb) stream ++ [sb])).sent = s.sent ∧
      (s.setQueue (s.sbInst sb) stream (s.sbQueue (s.sbInst sb) stream ++ [sb])).pins = s.pins := ⟨rfl, rfl, rfl⟩
  rw [hu]
  generalize s.setQueue (s.sbInst sb) stream (s.sbQueue (s.sbInst sb) stream ++ [sb]) = w at hk hq hrest
  obtain ⟨hdram, hsent, hpins⟩ := hrest
  refine ⟨hq, ?_, fun a ha => ?_, hsent, hpins⟩
  · have haddr : ((w.modFtl fun t => { t with qlc := q }).wrN (s.sbAddr sb) 1 sbQueued).sbAddr sb = s.sbAddr sb := hk.sbAddr sb
    rw [State.sbState, haddr, State.rdN_one, State.memGet_wrN_first _ _ _ _ (by decide)]
    rfl
  · rw [State.memGet_wrN_out _ _ _ _ (by omega)]
    exact congrArg (memGet · a) hdram

theorem State.pushSb_refused {s : State} {stream sb : Nat} (hsb : sb < 2 ^ 28) (hcode : s.pushCode stream sb ≠ 0) :
    let t := s.pushSb stream sb
    t.fld F.FTL_SBQ_STATUS_LAST_CODE = s.pushCode stream sb % 2 ^ F.FTL_SBQ_STATUS_LAST_CODE.width ∧ t.fld F.FTL_SBQ_STATUS_LAST_SB = sb ∧
      t.fld F.FTL_ISR_SBQ_REFUSED = 1 ∧ s.SameUnits t := by
  rw [State.pushSb, if_pos hcode]
  refine ⟨?_, ?_, State.fld_raise_same _ _ rfl (by decide), ?_⟩
  · rw [State.fld_raise_ne _ (by decide) (by decide), State.fld_setFld_ne _ _ (by decide), State.fld_setFld_same]
  · rw [State.fld_raise_ne _ (by decide) (by decide), State.fld_setFld_same]
    exact Nat.mod_eq_of_lt hsb
  · exact ((s.sameUnits_setFld _ _).trans (State.sameUnits_setFld _ _ _)).trans (State.sameUnits_raise _ _)

/-! ### Open (R181, R200) -/

theorem State.queueRead_spec (s : State) (budget mode loc : Nat) (p : Purpose) :
    ∃ x : Nat × PendOp, s.queueRead budget mode loc p = s.modMedia fun m => { m with queued := m.queued ++ [x] } := ⟨_, rfl⟩

/-- Reads of a member's first and last page are queued. -/
theorem State.checkMember_spec (s : State) (sb stream member : Nat) :
    ∃ l : List (Nat × PendOp), l.length = 2 ∧ s.checkMember sb stream member = s.modMedia fun m => { m with queued := m.queued ++ l } := by
  obtain ⟨x, hx⟩ := s.queueRead_spec (if stream = 2 then 0 else 6) (s.readMode sb) (memberAddr member (s.checkPage sb 0) 0) (.openCheck sb member 0)
  obtain ⟨y, hy⟩ := (s.modMedia fun m => { m with queued := m.queued ++ [x] }).queueRead_spec (if stream = 2 then 0 else 6) (s.readMode sb)
    (memberAddr member (s.checkPage sb 1) 3) (.openCheck sb member 1)
  refine ⟨[x, y], rfl, ?_⟩
  calc s.checkMember sb stream member
      = (s.queueRead (if stream = 2 then 0 else 6) (s.readMode sb) (memberAddr member (s.checkPage sb 0) 0) (.openCheck sb member 0)).queueRead
          (if stream = 2 then 0 else 6) (s.readMode sb) (memberAddr member (s.checkPage sb 1) 3) (.openCheck sb member 1) := rfl
    _ = _ := by rw [hx, hy]; simp [State.modMedia]

theorem State.foldl_checkMember (sb stream : Nat) (l : List Nat) (s : State) :
    ∃ q : List (Nat × PendOp), q.length = 2 * l.length ∧
      l.foldl (fun t m => t.checkMember sb stream m) s = s.modMedia fun m => { m with queued := m.queued ++ q } := by
  induction l generalizing s with
  | nil => exact ⟨[], rfl, by simp [State.modMedia]⟩
  | cons a l ih =>
    obtain ⟨q1, h1, e1⟩ := s.checkMember_spec sb stream a
    obtain ⟨q2, h2, e2⟩ := ih (s.modMedia fun m => { m with queued := m.queued ++ q1 })
    refine ⟨q1 ++ q2, by rw [List.length_append, List.length_cons, h1, h2]; omega, ?_⟩
    rw [List.foldl_cons, e1, e2]
    simp only [State.modMedia, List.append_assoc]

theorem State.openNext_ready {s : State} {i stream sb : Nat} (n : Nat)
    (hfind : (s.sbQueue i stream).find? (fun b => (s.sbMembers b).all s.memberReady) = some sb) (hbad : (s.sbMembers sb).any s.badBlock = false) :
    let t := State.openNext (n + 1) i stream s
    t.ftl.opening = s.ftl.opening ++ [⟨sb, i, stream, (s.sbMembers sb).flatMap (fun m => [(m, 0), (m, 1)]), []⟩] ∧
      t.sbQueue i stream = (s.sbQueue i stream).erase sb ∧ t.media.queued.length = s.media.queued.length + 2 * (s.sbMembers sb).length ∧
      t.sent = s.sent ∧ t.pins = s.pins := by
  unfold State.openNext
  rw [hfind]
  dsimp only
  rw [hbad, if_neg (by decide)]
  have hskip : s.SameUnits (if (s.sbQueue i stream).head? = some sb then s else s.raise F.STR_ISR_SB_SKIPPED) := .ite (.refl s) (s.sameUnits_raise _)
  generalize (if (s.sbQueue i stream).head? = some sb then s else s.raise F.STR_ISR_SB_SKIPPED) = s0 at hskip
  have hftl : s0.ftl = s.ftl := by rw [hskip]
  have hmedia : s0.media = s.media := by rw [hskip]
  have hsent : s0.sent = s.sent := by rw [hskip]
  have hpins : s0.pins = s.pins := by rw [hskip]
  have hq := s0.sbQueue_setQueue i stream ((s.sbQueue i stream).erase sb)
  obtain ⟨q, hlen, hfold⟩ := State.foldl_checkMember sb stream (s.sbMembers sb) ((s0.setQueue i stream ((s.sbQueue i stream).erase sb)).modFtl fun t =>
    { t with opening := t.opening ++ [⟨sb, i, stream, (s.sbMembers sb).flatMap (fun m => [(m, 0), (m, 1)]), []⟩] })
  rw [hfold]
  refine ⟨?_, hq, ?_, hsent, hpins⟩
  · change s0.ftl.opening ++ _ = _
    rw [hftl]
  · change (s0.media.queued ++ q).length = _
    rw [List.length_append, hlen, hmedia]

/-! ### Padding (R182, R247) -/

theorem find?_replaced {l : List OpenSb} {o o' : OpenSb} {sb : Nat} (h : l.find? (fun x => x.sb == sb) = some o) (ho : o'.sb = sb) :
    (l.map fun x => if x.sb == o'.sb then o' else x).find? (fun x => x.sb == sb) = some o' := by
  induction l with
  | nil => cases h
  | cons a l ih =>
    rw [List.map_cons, List.find?_cons]
    by_cases ha : a.sb = sb
    · simp [ha, ho]
    · rw [List.find?_cons, show (a.sb == sb) = false from by simp [ha]] at h
      simp only [ho, show (a.sb == sb) = false from by simp [ha], Bool.false_eq_true, if_false]
      simpa only [ho] using ih h

theorem State.openSb?_sb {s : State} {sb : Nat} {o : OpenSb} (h : s.openSb? sb = some o) : o.sb = sb := by
  simpa using List.find?_some h

theorem State.openSb?_setOpen {s : State} {sb : Nat} {o o' : OpenSb} (h : s.openSb? sb = some o) (ho : o'.sb = sb) : (s.setOpen o').openSb? sb = some o' :=
  find?_replaced h ho

/-- t is s but for registers, DRAM and what the operations queued for modules and open superblocks are. -/
def State.Places (s t : State) : Prop :=
  t = { s with cells := t.cells, dram := t.dram, rpj := t.rpj, fresh := t.fresh, ftl := t.ftl, media := t.media }

theorem State.Places.trans {s t u : State} (h : s.Places t) (k : t.Places u) : s.Places u := by
  unfold State.Places at *
  rw [k, h]

theorem State.SameUnits.places {s t : State} (h : s.SameUnits t) : s.Places t := by
  unfold State.Places
  rw [h]

theorem State.sameUnits_slotsInvalid (s : State) (sb n : Nat) : s.SameUnits (s.slotsInvalid sb n) :=
  State.SameUnits.trans (by rfl) (State.regsOnly_sbChanged _ _).sameUnits

/-- A unit's programs are queued; the superblock is the one given but for its items and units. -/
theorem State.programUnit_spec {s : State} {sb : Nat} {o o' : OpenSb} (h : s.openSb? sb = some o) (ho : o'.sb = sb) (unit : Nat) :
    s.Places (s.programUnit o' unit) ∧ ∃ items units, (s.programUnit o' unit).openSb? sb = some { o' with items := items, units := units } := by
  unfold State.programUnit
  dsimp only
  have hs0 : (if unit = 0 then s.wrN (s.sbAddr o'.sb + 8) 8 s.stamp else s).ftl = s.ftl ∧ s.Places (if unit = 0 then s.wrN (s.sbAddr o'.sb + 8) 8 s.stamp else s) := by
    split
    · exact ⟨rfl, rfl⟩
    · exact ⟨rfl, rfl⟩
  generalize hw : List.foldl _ _ _ = w
  have hall : w.ftl = s.ftl ∧ s.Places w := by
    rw [← hw]
    refine foldl_keeps (P := fun t => t.ftl = s.ftl ∧ s.Places t) (fun t j ht => ?_) _ hs0
    exact ⟨ht.1, ht.2.trans rfl⟩
  have hopen : w.openSb? sb = some o := by rw [State.openSb?, hall.1]; exact h
  exact ⟨hall.2.trans rfl, _, _, State.openSb?_setOpen hopen ho⟩

/-- What a codeword's end leaves of the superblock under fill. -/
structure OpenSb.Steps (o p : OpenSb) : Prop where
  members : p.members = o.members
  k       : p.k = o.k
  mode    : p.mode = o.mode
  slots   : p.slots = 0
  place   : (o.cw + 1 < o.k ∧ p.stripe = o.stripe ∧ p.cw = o.cw + 1) ∨ (o.cw + 1 = o.k ∧ p.stripe = o.stripe + 1 ∧ p.cw = 0)

theorem State.endCodeword_spec {s : State} {sb : Nat} {o : OpenSb} (h : s.openSb? sb = some o) (hcw : o.cw < o.k) :
    s.Places (s.endCodeword o) ∧ ∃ p, (s.endCodeword o).openSb? sb = some p ∧ o.Steps p := by
  have hsb := State.openSb?_sb h
  have hs1 : s.SameUnits (if o.slots < 8 then s.slotsInvalid o.sb (8 - o.slots) else s) := .ite (s.sameUnits_slotsInvalid _ _) (.refl s)
  unfold State.endCodeword
  dsimp only
  generalize (if o.slots < 8 then s.slotsInvalid o.sb (8 - o.slots) else s) = s1 at hs1 ⊢
  have h1 : s1.openSb? sb = some o := by rw [State.openSb?, hs1]; exact h
  have hset : ∀ p : OpenSb, s.Places (s1.setOpen p) := fun p => hs1.places.trans rfl
  split
  · next hlast =>
    unfold State.endStripe
    dsimp only
    split
    · obtain ⟨hp, items, units, hopen⟩ := State.programUnit_spec (o' := { o with
        cws := ((stripeParity o.m ((List.range o.k).map (o.cwBytes o.stripe))).zipIdx).foldl (fun (t : Tbl Bytes) p => t.put (o.stripe * 32 + o.k + p.2) p.1) o.cws,
        stripe := o.stripe + 1, cw := 0, slots := 0 }) h1 hsb (o.stripe / unitStripes o.mode)
      exact ⟨hs1.places.trans hp, _, hopen, rfl, rfl, rfl, rfl, .inr ⟨hlast, rfl, rfl⟩⟩
    · exact ⟨hset _, _, State.openSb?_setOpen h1 hsb, rfl, rfl, rfl, rfl, .inr ⟨hlast, rfl, rfl⟩⟩
  · exact ⟨hset _, _, State.openSb?_setOpen h1 hsb, rfl, rfl, rfl, rfl, .inl ⟨by omega, rfl, rfl⟩⟩

/-- Is a superblock at the start of a program unit, with no codeword under fill? -/
def OpenSb.AtUnit (o : OpenSb) : Prop := o.slots = 0 ∧ o.cw = 0 ∧ o.stripe % unitStripes o.mode = 0

/-- Codewords left to the end of the program unit. -/
def OpenSb.left (o : OpenSb) : Nat := o.k * (unitStripes o.mode - o.stripe % unitStripes o.mode) - o.cw

theorem unitStripes_pos (mode : Nat) : 0 < unitStripes mode := by
  unfold unitStripes
  split <;> decide

theorem OpenSb.left_pos {o : OpenSb} (h : o.cw < o.k) : 0 < o.left := by
  have hmod := Nat.mod_lt o.stripe (unitStripes_pos o.mode)
  have : o.k * 1 ≤ o.k * (unitStripes o.mode - o.stripe % unitStripes o.mode) := Nat.mul_le_mul_left _ (by omega)
  unfold OpenSb.left
  omega

theorem OpenSb.Steps.cw_lt {o p : OpenSb} (h : o.Steps p) : p.cw < p.k := by
  rcases h.place with ⟨hk, -, hcw⟩ | ⟨hk, -, hcw⟩ <;> rw [hcw, h.k] <;> omega

/-- A codeword's end brings the unit's end nearer. -/
theorem OpenSb.Steps.nearer {o p : OpenSb} (h : o.Steps p) (hcw : o.cw < o.k) : p.AtUnit ∨ p.left + 1 = o.left := by
  have hpos := unitStripes_pos o.mode
  have hmod := Nat.mod_lt o.stripe hpos
  have hleft := OpenSb.left_pos hcw
  unfold OpenSb.AtUnit OpenSb.left at *
  rw [h.mode, h.k]
  rcases h.place with ⟨hk, hstripe, hcw'⟩ | ⟨hk, hstripe, hcw'⟩
  · rw [hstripe, hcw']
    exact .inr (by omega)
  · rw [hstripe, hcw']
    generalize unitStripes o.mode = us at *
    have hdiv : o.stripe + 1 = us * (o.stripe / us) + (o.stripe % us + 1) := by rw [← Nat.add_assoc, Nat.div_add_mod]
    by_cases hlast : o.stripe % us + 1 = us
    · refine .inl ⟨h.slots, rfl, ?_⟩
      rw [hdiv, hlast, ← Nat.mul_succ, Nat.mul_mod_right]
    · have hnext : (o.stripe + 1) % us = o.stripe % us + 1 := by
        rw [hdiv, Nat.mul_add_mod, Nat.mod_eq_of_lt (by omega)]
      obtain ⟨d, hd⟩ : ∃ d, us - o.stripe % us = d + 1 := ⟨us - o.stripe % us - 1, by omega⟩
      rw [hnext, hd, show us - (o.stripe % us + 1) = d by omega, Nat.mul_succ]
      exact .inr (by omega)

/-- Padding ends at the start of a program unit. -/
theorem State.padN_spec {sb : Nat} (n : Nat) {s : State} {o : OpenSb} (h : s.openSb? sb = some o) (hcw : o.cw < o.k) (hn : o.AtUnit ∨ o.left ≤ n) :
    s.Places (State.padN n sb s) ∧ ∃ p, (State.padN n sb s).openSb? sb = some p ∧ p.AtUnit ∧ o.stripe ≤ p.stripe ∧ p.members = o.members := by
  induction n generalizing s o with
  | zero =>
    have := OpenSb.left_pos hcw
    exact ⟨rfl, o, h, hn.resolve_right (by omega), Nat.le_refl _, rfl⟩
  | succ n ih =>
    unfold State.padN
    rw [h]
    dsimp only
    split
    · next hunit => exact ⟨rfl, o, h, hunit, Nat.le_refl _, rfl⟩
    · next hunit =>
      obtain ⟨hplaces, p, hp, hsteps⟩ := State.endCodeword_spec h hcw
      obtain ⟨hrest, q, hq, hat, hstripe, hmembers⟩ := ih hp hsteps.cw_lt ((hsteps.nearer hcw).imp_right fun e => by have := hn.resolve_left hunit; omega)
      refine ⟨hplaces.trans hrest, q, hq, hat, ?_, hmembers.trans hsteps.members⟩
      rcases hsteps.place with ⟨-, hs, -⟩ | ⟨-, hs, -⟩ <;> omega

theorem State.padSb_spec {s : State} {sb : Nat} {o : OpenSb} (h : s.openSb? sb = some o) (hcw : o.cw < o.k) :
    s.Places (s.padSb sb) ∧ ∃ p, (s.padSb sb).openSb? sb = some p ∧ p.AtUnit ∧ o.stripe ≤ p.stripe ∧ p.members = o.members := by
  rw [State.padSb, h]
  refine State.padN_spec _ h hcw (.inr ?_)
  have : o.k * (unitStripes o.mode - o.stripe % unitStripes o.mode) ≤ o.k * unitStripes o.mode := Nat.mul_le_mul_left _ (Nat.sub_le _ _)
  unfold OpenSb.left
  omega

/-! ### Reclaim commands (R200, R204) -/

theorem State.regsOnly_rclBegun (s : State) (op : Nat) (force : Bool) :
    s.RegsOnly ((([(F.FTL_RCL_CMD_OP, op), (F.FTL_RCL_CMD_FORCE, if force = true then 1 else 0)].foldl (fun t p => t.setFld p.1 p.2) s).resStart rclRes).setFld F.FTL_RCL_CMD_BUSY 1) :=
  ((s.regsOnly_setAll _).trans (State.regsOnly_resStart _ _)).trans (State.regsOnly_setFld _ _ _)

/-- The state in which a reclaim command runs. -/
def State.rclBegun (s : State) (op : Nat) (force : Bool) : State :=
  (([(F.FTL_RCL_CMD_OP, op), (F.FTL_RCL_CMD_FORCE, if force = true then 1 else 0)].foldl (fun t p => t.setFld p.1 p.2) s).resStart rclRes).setFld F.FTL_RCL_CMD_BUSY 1

theorem State.keeps_rclBegun (s : State) (op : Nat) (force : Bool) : s.Keeps (resSeq rclRes :: F.FTL_RCL_SB_SB :: sbFlds) (s.rclBegun op force) :=
  ((s.keeps_setAll [F.FTL_RCL_CMD_OP, F.FTL_RCL_CMD_FORCE] rfl (by decide)).trans (State.keeps_resStart _ (by decide))).trans (State.keeps_setFld _ _ (by decide))

theorem State.rclBegun_units (s : State) (op : Nat) (force : Bool) :
    (s.rclBegun op force).ftl = s.ftl ∧ (s.rclBegun op force).map = s.map ∧ (s.rclBegun op force).rows = s.rows ∧ (s.rclBegun op force).pins = s.pins := ⟨rfl, rfl, rfl, rfl⟩

theorem State.sameTables_rclBegun (s : State) (op : Nat) (force : Bool) : s.SameTables (s.rclBegun op force) :=
  ⟨rfl, fun g hg => s.keeps_rclBegun op force g (List.mem_cons_of_mem _ (List.mem_cons_of_mem _ hg))⟩

/-- A reclaim command that is not BUSY runs on the superblock of FTL_RCL_SB. -/
theorem State.rclStart_eq {s : State} (h : s.flag F.FTL_RCL_CMD_BUSY = false) (op : Nat) (force : Bool) (run : State → Nat → State) :
    s.rclStart op force run = (let u := s.rclBegun op force
      let sb := u.fld F.FTL_RCL_SB_SB
      if op = 3 then u.rclDone 6 0 else if !u.holds (u.sbInst sb) then u.rclDone 5 0 else run u sb) := by
  rw [State.rclStart, State.startWith, h, if_neg (by decide)]
  rfl

theorem State.rclStart_of_idle {s : State} (h : s.flag F.FTL_RCL_CMD_BUSY = false) {op : Nat} (hop : op ≠ 3) (force : Bool) (run : State → Nat → State)
    (hheld : s.holds (s.sbInst (s.fld F.FTL_RCL_SB_SB)) = true) :
    s.rclStart op force run = run (s.rclBegun op force) (s.fld F.FTL_RCL_SB_SB) := by
  have hsb := s.keeps_rclBegun op force F.FTL_RCL_SB_SB (by decide)
  have hsame := s.sameTables_rclBegun op force
  rw [State.rclStart_eq h]
  generalize s.rclBegun op force = u at hsb hsame ⊢
  dsimp only
  rw [if_neg hop, hsb, hsame.sbInst, hsame.keep.holds, hheld]
  rfl

theorem State.rclDone_spec (s : State) {code : Nat} (hc : code < 2 ^ F.FTL_RCL_RESULT_CODE.width) :
    s.Answered (s.rclDone code 0) rclRes [(F.FTL_RCL_RESULT_POISONED, 0), (F.FTL_RCL_RESULT_CODE, code)] ∧ (s.rclDone code 0).fld F.FTL_RCL_CMD_BUSY = 0 ∧
      (s.rclDone code 0).fld F.FTL_RCL_ISR_RCL_DONE = 1 ∧ (s.modFtl fun t => { t with forced := none }).SameUnits (s.rclDone code 0) := by
  refine ⟨?_, ?_, State.fld_raise_same _ _ rfl (by decide), ?_⟩
  · have hseq : ((s.modFtl fun t => { t with forced := none }).setFld F.FTL_RCL_CMD_BUSY 0).fld (resSeq rclRes) = s.fld (resSeq rclRes) := State.fld_setFld_ne _ _ (by decide)
    refine (State.answered_done _ [F.FTL_RCL_RESULT_POISONED, F.FTL_RCL_RESULT_CODE] rfl (by decide) ?_).of_seq hseq
    simp only [List.forall_mem_cons]
    exact ⟨by decide, hc, by simp⟩
  · exact ((State.keeps_resDone (l := [F.FTL_RCL_CMD_BUSY]) _ [F.FTL_RCL_RESULT_POISONED, F.FTL_RCL_RESULT_CODE] rfl (by decide)).trans (State.keeps_raise _ (by decide)) _ (by decide)).trans
      (State.fld_setFld_same _ _ 0)
  · exact ((State.sameUnits_setFld _ _ _).trans (State.regsOnly_resDone _ _ _).sameUnits).trans (State.sameUnits_raise _ _)

/-- What the completion of a reclaim command with code 0 leaves to read. -/
theorem State.rclDone_read {s u w : State} (hon : s.pins.powered = true) (hu : u = s.live (w.rclDone 0 0)) :
    u.fld F.FTL_RCL_RESULT_CODE = 0 ∧ u.fld (resValid 0xC00410) = 1 ∧ u.fld F.FTL_RCL_CMD_BUSY = 0 ∧ u.fld F.FTL_RCL_ISR_RCL_DONE = 1 := by
  obtain ⟨hans, hbusy, hisr, -⟩ := w.rclDone_spec (by decide : 0 < 2 ^ F.FTL_RCL_RESULT_CODE.width)
  generalize w.rclDone 0 0 = v at hu hans hbusy hisr
  obtain ⟨hvalid, -, -, hall⟩ := hans
  rw [hu, State.live_fld hon, State.live_fld hon, State.live_fld hon, State.live_fld hon]
  exact ⟨hall (F.FTL_RCL_RESULT_CODE, 0) (by simp), hvalid, hbusy, hisr⟩

theorem State.rclBegin_closed {s : State} {sb : Nat} (hstate : s.sbState sb = sbClosed) (hmode : s.sbMode sb ≠ 2) :
    s.rclBegin sb = ((s.setSbState sb sbReclaiming).journalSb sb sbReclaiming 0).rclDone 0 0 := by
  rw [State.rclBegin, if_neg (not_not_intro hstate), if_neg fun h => hmode h.1]

theorem State.rclFinish_idle {s : State} {sb : Nat} (lost : List Nat) (hstate : s.sbState sb = sbReclaiming) (herase : s.eraseBegun sb = false) (hcode : s.finishCode sb = 0) :
    s.rclFinish sb false lost = (s.journalSb sb sbReclaiming 1).rclDone 0 0 := by
  rw [State.rclFinish, if_neg (by simp [hstate, herase]), if_neg (by decide), if_neg (not_not_intro hcode)]
  rfl

theorem State.rclAbort_idle {s : State} {sb : Nat} (hstate : s.sbState sb = sbReclaiming) (herase : s.eraseBegun sb = false) (hmoves : s.movesFrom sb = false)
    (hout : s.copiesOut sb = false) : s.rclAbort sb = ((s.setSbState sb sbClosed).journalSb sb sbClosed 0).rclDone 0 0 := by
  rw [State.rclAbort, if_neg (by simp [hstate, herase]), if_neg (by simp [hmoves, hout])]

theorem State.rclStart_reserved {s : State} (h : s.flag F.FTL_RCL_CMD_BUSY = false) (force : Bool) (run : State → Nat → State) :
    s.rclStart 3 force run = (s.rclBegun 3 force).rclDone 6 0 := by
  rw [State.rclStart_eq h]
  exact if_pos rfl

/-! ### Refresh (R212) -/

/-- Is a field none of those that name the reclaim candidates? -/
def candApart (g : Fld) : Prop := ∀ i < 2, g.key ≠ (F.FTL_RCL_CAND_VALID i).key ∧ g.key ≠ (F.FTL_RCL_CAND_URGENT i).key ∧ g.key ≠ (F.FTL_RCL_CAND_SB i).key

/-- t is s but for DRAM and the reclaim candidates. -/
structure State.Flags (s t : State) : Prop where
  units : t = { s with cells := t.cells, dram := t.dram }
  fld   : ∀ g, candApart g → t.fld g = s.fld g

theorem State.Flags.trans {s t u : State} (h : s.Flags t) (k : t.Flags u) : s.Flags u where
  units := by
    have h1 := h.units
    have h2 := k.units
    rw [h2, h1]
  fld g hg := (k.fld g hg).trans (h.fld g hg)

theorem State.flags_recandidate (s : State) {i : Nat} (hi : i < 2) : s.Flags (s.recandidate i) := by
  have hset : ∀ (a b c : Nat), s.Flags (((s.setFld (F.FTL_RCL_CAND_VALID i) a).setFld (F.FTL_RCL_CAND_URGENT i) b).setFld (F.FTL_RCL_CAND_SB i) c) := fun a b c =>
    ⟨rfl, fun g hg => by
      obtain ⟨hvalid, hurgent, hsb⟩ := hg i hi
      rw [State.fld_setFld_ne _ _ hsb, State.fld_setFld_ne _ _ hurgent, State.fld_setFld_ne _ _ hvalid]⟩
  unfold State.recandidate
  dsimp only
  split <;> exact hset _ _ _

theorem candApart_sbFlds : ∀ g ∈ sbFlds, candApart g := by
  have : ∀ g ∈ sbFlds, ∀ i ∈ [0, 1], g.key ≠ (F.FTL_RCL_CAND_VALID i).key ∧ g.key ≠ (F.FTL_RCL_CAND_URGENT i).key ∧ g.key ≠ (F.FTL_RCL_CAND_SB i).key := by decide
  exact fun g hg i hi => this g hg i (by simp; omega)

theorem candApart_of_ring {g : Fld} (h : g.blk = 0x18) : candApart g := by
  have : ∀ i ∈ [0, 1], (F.FTL_RCL_CAND_VALID i).blk ≠ 0x18 ∧ (F.FTL_RCL_CAND_URGENT i).blk ≠ 0x18 ∧ (F.FTL_RCL_CAND_SB i).blk ≠ 0x18 := by decide
  intro i hi
  obtain ⟨h1, h2, h3⟩ := this i (by simp; omega)
  exact ⟨Fld.key_ne_of_blk fun e => h1 (e.symm.trans h), Fld.key_ne_of_blk fun e => h2 (e.symm.trans h), Fld.key_ne_of_blk fun e => h3 (e.symm.trans h)⟩

theorem State.Flags.keeps {s t : State} (h : s.Flags t) : s.Keeps sbFlds t := fun g hg => h.fld g (candApart_sbFlds g hg)

theorem State.Flags.inRing {s t : State} (h : s.Flags t) (a : Nat) : t.inRing a ↔ s.inRing a := State.inRing_congr (fun g hg => h.fld g (candApart_of_ring hg)) a

/-- The byte that holds a superblock's flags, after flags of one were set. -/
theorem State.orFlags_spec (s : State) (x v : Nat) :
    s.Flags (s.orFlags x v) ∧ (s.orFlags x v).sbFlags x = (s.sbFlags x ||| v) % 256 ∧ ∀ y, y ≠ x → (s.orFlags x v).sbFlags y = s.sbFlags y := by
  have hw : s.Flags (s.wrN (s.sbsAddr x + 0x12) 1 (s.sbFlags x ||| v)) := ⟨rfl, fun _ _ => rfl⟩
  have hu : (s.wrN (s.sbsAddr x + 0x12) 1 (s.sbFlags x ||| v)).Flags (s.orFlags x v) := by
    unfold State.orFlags State.sbChanged
    split
    · exact State.flags_recandidate _ (State.sbInst_lt _ _)
    · exact ⟨rfl, fun _ _ => rfl⟩
  have hdram : (s.orFlags x v).dram = (s.wrN (s.sbsAddr x + 0x12) 1 (s.sbFlags x ||| v)).dram := by
    obtain ⟨c, hc⟩ := (s.wrN (s.sbsAddr x + 0x12) 1 (s.sbFlags x ||| v)).regsOnly_sbChanged x
    rw [State.orFlags, hc]
  refine ⟨hw.trans hu, ?_, fun y hy => ?_⟩
  · rw [State.sbFlags, (hw.trans hu).keeps.sbsAddr, State.rdN_one, hdram, State.memGet_wrN_first _ _ _ _ (by decide)]
  · have hne : s.sbsAddr y + 0x12 < s.sbsAddr x + 0x12 ∨ s.sbsAddr x + 0x12 + 1 ≤ s.sbsAddr y + 0x12 := by
      unfold State.sbsAddr
      omega
    rw [State.sbFlags, (hw.trans hu).keeps.sbsAddr, State.rdN_one, hdram, State.memGet_wrN_out _ _ _ _ hne, ← State.rdN_one]
    rfl

theorem State.foldl_orFlags (v : Nat → Nat) (sb : Nat) (l : List Nat) (s : State) :
    s.Flags (l.foldl (fun t x => t.orFlags x (v x)) s) ∧
      (l.foldl (fun t x => t.orFlags x (v x)) s).sbFlags sb = if sb ∈ l then (s.sbFlags sb ||| v sb) % 256 else s.sbFlags sb := by
  induction l generalizing s with
  | nil => exact ⟨⟨rfl, fun _ _ => rfl⟩, rfl⟩
  | cons x l ih =>
    obtain ⟨hflags, hsame, hne⟩ := s.orFlags_spec x (v x)
    obtain ⟨hrest, hval⟩ := ih (s.orFlags x (v x))
    rw [List.foldl_cons]
    refine ⟨hflags.trans hrest, hval.trans ?_⟩
    by_cases hx : sb = x
    · subst hx
      rw [hsame, if_pos List.mem_cons_self]
      split
      · rw [show (256 : Nat) = 2 ^ 8 from rfl, Nat.or_mod_two_pow, Nat.mod_mod, ← Nat.or_mod_two_pow, Nat.or_assoc, Nat.or_self]
      · rfl
    · rw [hne sb hx]
      simp [hx]

theorem State.refreshInst_unheld {s : State} {i : Nat} (h : s.holds i = false) : s.refreshInst i = s := by
  rw [State.refreshInst, h]
  rfl

theorem State.refreshInst_spec {s : State} {i sb : Nat} (hi : i < 2) (hheld : s.holds i = true) (hin : sb ∈ s.allSbs) (hinst : s.sbInst sb = i) (hst : s.sbState sb = sbClosed) :
    (¬ s.inRing (s.sbsAddr sb + 0x12) → (s.refreshInst i).sbFlags sb = (s.sbFlags sb ||| s.refreshFlags sb) % 256) ∧
      s.SameUnits (s.refreshInst i) ∧ s.Keeps sbFlds (s.refreshInst i) := by
  have hmem : sb ∈ s.allSbs.filter fun sb => s.sbInst sb == i && s.sbState sb == sbClosed := List.mem_filter.mpr ⟨hin, by simp [hinst, hst]⟩
  obtain ⟨hflags, hval⟩ := State.foldl_orFlags s.refreshFlags sb (s.allSbs.filter fun sb => s.sbInst sb == i && s.sbState sb == sbClosed) s
  rw [if_pos hmem] at hval
  unfold State.refreshInst
  rw [hheld, if_neg (by decide)]
  dsimp only
  generalize (s.allSbs.filter fun sb => s.sbInst sb == i && s.sbState sb == sbClosed).foldl (fun t sb => t.orFlags sb (s.refreshFlags sb)) s = s1 at hflags hval ⊢
  have hs1 : s.SameUnits s1 := by
    have := hflags.units
    unfold State.SameUnits
    rw [this]
  have hraise : ∀ c : Bool, s1.SameUnits (if c then s1.raise F.FTL_RCL_ISR_REFRESH else s1) ∧ s1.Keeps sbFlds (if c then s1.raise F.FTL_RCL_ISR_REFRESH else s1) ∧
      ∀ a, ¬ s1.inRing a → memGet (if c then s1.raise F.FTL_RCL_ISR_REFRESH else s1).dram a = memGet s1.dram a := fun c => by
    cases c
    · exact ⟨.refl s1, .refl _ s1, fun _ _ => rfl⟩
    · exact ⟨s1.sameUnits_raise _, s1.keeps_raise (by decide), fun a ha => s1.memGet_raise (by decide) ha⟩
  generalize ((s.allSbs.filter fun sb => s.sbInst sb == i && s.sbState sb == sbClosed).any fun sb => s.refreshFlags sb != 0) = c
  obtain ⟨hu, hk, hm⟩ := hraise c
  generalize (if c then s1.raise F.FTL_RCL_ISR_REFRESH else s1) = s2 at hu hk hm ⊢
  have hcand := s2.flags_recandidate hi
  have hkeep : s.Keeps sbFlds (s2.recandidate i) := (hflags.keeps.trans hk).trans hcand.keeps
  refine ⟨fun hr => ?_, (hs1.trans hu).trans (s2.regsOnly_recandidate i).sameUnits, hkeep⟩
  have hdram : (s2.recandidate i).dram = s2.dram := by
    obtain ⟨c, hc⟩ := s2.regsOnly_recandidate i
    rw [hc]
  rw [State.sbFlags, hkeep.sbsAddr, State.rdN_one, hdram, hm _ (fun h => hr ((hflags.inRing _).mp h)), ← State.rdN_one, ← hflags.keeps.sbsAddr]
  exact hval

/-! ### Anchors (R195, R196) -/

theorem ofInst_putInst {α : Type} (p : α × α) (i : Nat) (v : α) : ofInst (putInst p i v) i = v := by
  unfold ofInst putInst
  split <;> rfl

theorem ofInst_putInst_other {α : Type} (p : α × α) {i : Nat} (hi : i < 2) (v : α) : ofInst (putInst p i v) (1 - i) = ofInst p (1 - i) := by
  obtain rfl | rfl : i = 0 ∨ i = 1 := by omega
  · rfl
  · rfl

theorem State.writeAnchor_program {s : State} {i : Nat} {b : Bytes} (hfail : s.anchorFailed i (s.jnl i).anchorCur = false)
    (hroom : ofInst (s.jnl i).anchorNext (s.jnl i).anchorCur < s.slcPages (memberModule (s.anchorBlock i (s.jnl i).anchorCur))) :
    s.writeAnchor i b = s.programAnchor i (s.jnl i).anchorCur (ofInst (s.jnl i).anchorNext (s.jnl i).anchorCur) (s.anchorBytes i b) := by
  unfold State.writeAnchor
  dsimp only
  simp only [hfail, Bool.false_eq_true, if_false]
  rw [if_pos hroom]

theorem State.jnl_programAnchor (s : State) (i which page : Nat) (bytes : Bytes) :
    (s.programAnchor i which page bytes).jnl i = { s.jnl i with
      anchorCur := which, anchorNext := putInst (s.jnl i).anchorNext which (page + 1), anchorSeq := leNat (slice bytes 0 8), anchorTurn := s.turn,
      anchorPage := s.tailPage i, anchorOut := (s.jnl i).anchorOut ++ [(which, bytes)] } := by
  rw [State.jnl]
  exact ofInst_putInst _ _ _

/-- Settles O23: push, open, padding, reclaim, refresh and anchors have the effects that their sections give them. -/
theorem superblocksMoveThroughTheirStates : Obligations.SuperblocksMoveThroughTheirStates := by
  unfold Obligations.SuperblocksMoveThroughTheirStates
  refine ⟨fun stream sb s hon hcode hheld => ?_, fun stream sb s hon hcode => ?_, fun inst stream sb s hon hi hst hopen hfind hbad => ?_,
    fun sb o s hon ho hcw => ?_, fun force s hon hidle hheld hst hmode => ?_, fun lost s hon hidle hheld hst herase hcode => ?_,
    fun force s hon hidle hheld hst herase hmoves hout => ?_, fun force s hon hidle => ?_, fun sb s hon hsolo hhead hin hinst hst => ?_,
    fun inst s hon hdue hcur hfail hroom => ?_, fun inst n block s hon hcast hfail => ?_⟩
  · obtain ⟨hq, hstate, hmem, hsent, hpins⟩ := State.pushSb_unheld (Nat.mod_lt _ (by decide)) hcode hheld
    exact ⟨_, State.next_live_eq hon hpins, hq, hstate, hmem, hsent⟩
  · obtain ⟨hlast, hsb, hisr, hunits⟩ := State.pushSb_refused (Nat.mod_lt _ (by decide)) hcode
    exact ⟨_, State.next_live_eq hon (by rw [hunits]), hlast, hsb, hisr, by rw [hunits], by rw [hunits]⟩
  · obtain ⟨hopening, hq, hqueued, hsent, hpins⟩ := State.openNext_ready 63 hfind hbad
    refine ⟨_, ?_, hopening, hq, hqueued, hsent⟩
    change Host.Outcome.next (s.live (if s.mayOpen inst stream then State.openNext 64 inst stream s else s)) = _
    rw [if_pos hopen]
    exact State.next_live_eq hon hpins
  · obtain ⟨hplaces, p, hp, ⟨hslots, hpcw, hunit⟩, hstripe, hmembers⟩ := State.padSb_spec ho hcw
    exact ⟨_, p, State.next_live_eq hon (by rw [hplaces]), hp, hslots, hpcw, hunit, hstripe, hmembers, by rw [hplaces]⟩
  · have hsame := s.sameTables_rclBegun 0 force
    have hrun : exec (.reclaimStart force) s = .next (s.live ((s.rclBegun 0 force).rclBegin (s.fld F.FTL_RCL_SB_SB))) :=
      congrArg (fun t => Host.Outcome.next (s.live t)) (State.rclStart_of_idle hidle (by decide) force _ hheld)
    rw [State.rclBegin_closed ((hsame.sbState _).trans hst) (by rw [hsame.sbMode]; exact hmode)] at hrun
    exact ⟨_, hrun, rfl, State.rclDone_read hon rfl⟩
  · have hsame := s.sameTables_rclBegun 1 false
    obtain ⟨hftl, hmap, -, -⟩ := s.rclBegun_units 1 false
    have hrun : exec (.reclaimFinish false lost) s = .next (s.live ((s.rclBegun 1 false).rclFinish (s.fld F.FTL_RCL_SB_SB) false lost)) :=
      congrArg (fun t => Host.Outcome.next (s.live t)) (State.rclStart_of_idle hidle (by decide) false _ hheld)
    rw [State.rclFinish_idle lost ((hsame.sbState _).trans hst) ((hsame.eraseBegun hftl _).trans herase) ((hsame.finishCode hftl hmap _).trans hcode)] at hrun
    exact ⟨_, hrun, rfl, State.rclDone_read hon rfl⟩
  · have hsame := s.sameTables_rclBegun 2 force
    obtain ⟨hftl, hmap, hrows, -⟩ := s.rclBegun_units 2 force
    have hrun : exec (.reclaimAbort force) s = .next (s.live ((s.rclBegun 2 force).rclAbort (s.fld F.FTL_RCL_SB_SB))) :=
      congrArg (fun t => Host.Outcome.next (s.live t)) (State.rclStart_of_idle hidle (by decide) force _ hheld)
    rw [State.rclAbort_idle ((hsame.sbState _).trans hst) ((hsame.eraseBegun hftl _).trans herase) ((hsame.movesFrom hrows _).trans hmoves)
      ((hsame.copiesOut hftl hmap _).trans hout)] at hrun
    obtain ⟨hcode, hvalid, hbusy, -⟩ := State.rclDone_read (s := s) hon rfl
    exact ⟨_, hrun, rfl, hcode, hvalid, hbusy⟩
  · have hrun : exec (.reclaimReservedOp force) s = .next (s.live ((s.rclBegun 3 force).rclDone 6 0)) :=
      congrArg (fun t => Host.Outcome.next (s.live t)) (State.rclStart_reserved hidle force _)
    have hseq := s.keeps_rclBegun 3 force (resSeq rclRes) (by decide)
    obtain ⟨hftl, -, -, hpins⟩ := s.rclBegun_units 3 force
    obtain ⟨hans, hbusy, hisr, hunits⟩ := (s.rclBegun 3 force).rclDone_spec (by decide : 6 < 2 ^ F.FTL_RCL_RESULT_CODE.width)
    generalize s.rclBegun 3 force = u at hrun hseq hftl hpins hans hbusy hisr hunits
    have hforced : (u.rclDone 6 0).ftl = { u.ftl with forced := none } := by rw [hunits]; rfl
    have hpins' : (u.rclDone 6 0).pins = u.pins := by rw [hunits]; rfl
    exact ⟨_, hrun.trans (State.next_live_eq hon (hpins'.trans hpins)), (hans.of_seq hseq).subset (by simp), hbusy, hisr, hforced.trans (by rw [hftl])⟩
  · have hhold : ∀ j : Nat, s.holds j = (j == s.headId) := fun j => by rw [State.holds, hsolo, Bool.or_false]
    obtain ⟨hflags, hunits, hkeep⟩ := State.refreshInst_spec hhead (by rw [hhold]; exact beq_self_eq_true _) hin hinst hst
    have hrun : (s.refreshInst 0).refreshInst 1 = s.refreshInst s.headId := by
      generalize hj : s.headId = j at hhead hhold hkeep ⊢
      obtain rfl | rfl : j = 0 ∨ j = 1 := by omega
      · exact State.refreshInst_unheld (by rw [hkeep.holds, hhold]; rfl)
      · rw [State.refreshInst_unheld (i := 0) (by rw [hhold]; rfl)]
    refine ⟨s.refreshInst s.headId, ?_, hflags, by rw [hunits], by rw [hunits]⟩
    change Host.Outcome.next (s.live ((s.refreshInst 0).refreshInst 1)) = _
    rw [hrun]
    exact State.next_live_eq hon (by rw [hunits])
  · have hjnl := s.jnl_programAnchor (inst % 2) (s.jnl (inst % 2)).anchorCur (ofInst (s.jnl (inst % 2)).anchorNext (s.jnl (inst % 2)).anchorCur) (s.anchorBytes (inst % 2) (zeros 32))
    refine ⟨s.programAnchor (inst % 2) (s.jnl (inst % 2)).anchorCur (ofInst (s.jnl (inst % 2)).anchorNext (s.jnl (inst % 2)).anchorCur) (s.anchorBytes (inst % 2) (zeros 32)), ?_, ?_⟩
    · change Host.Outcome.next (s.live (if s.anchorDue (inst % 2) then s.writeAnchor (inst % 2) (zeros 32) else s)) = _
      rw [if_pos hdue, State.writeAnchor_program hfail hroom]
      exact State.next_live_eq hon rfl
    · rw [hjnl]
      exact ⟨ofInst_putInst _ _ _, ofInst_putInst_other _ hcur _, rfl, rfl, List.length_append, rfl⟩
  · refine ⟨_, ?_, rfl⟩
    change Host.Outcome.next (s.live (s.nameAnchor (inst % 2) (n % 2) (block % 2 ^ 28))) = _
    rw [State.nameAnchor, hfail, if_neg (by decide), if_pos (.inl hcast)]
    exact State.next_live_eq hon rfl

end Sys2Proof.Machine
end

section
/-! SUPPORT. Two states that differ in the queue pairs and in RDT's registers write memory alike (R328, R453). -/
namespace Sys2Proof.Machine

/-- t is s but for the queue pairs and RDT's registers. -/
structure State.Beside (s t : State) : Prop where
  units : t = { s with cells := t.cells, rdt := t.rdt }
  fld   : ∀ g : Fld, g.blk ≠ 0x13 → t.fld g = s.fld g

section
variable {s t u : State}

theorem State.Beside.trans (h : s.Beside t) (k : t.Beside u) : s.Beside u where
  units := by
    have h1 := h.units
    have h2 := k.units
    rw [h2, h1]
  fld g hg := (k.fld g hg).trans (h.fld g hg)

theorem State.Beside.flag (h : s.Beside t) {g : Fld} (hg : g.blk ≠ 0x13) : t.flag g = s.flag g := by
  rw [State.flag, h.fld g hg]
  rfl

theorem State.beside_modRdt (s : State) (f : RdtSt → RdtSt) : s.Beside (s.modRdt f) := ⟨rfl, fun _ _ => rfl⟩

theorem State.beside_setRdt (s : State) {f : Fld} (v : Nat) (hf : f.blk = 0x13) : s.Beside (s.setFld f v) :=
  ⟨rfl, fun _ hg => s.fld_setFld_ne v (Fld.key_ne_of_blk (by rw [hf]; exact hg))⟩

theorem State.Beside.setFld (h : s.Beside t) (f : Fld) (v : Nat) : (s.setFld f v).Beside (t.setFld f v) where
  units := by
    have h1 := h.units
    generalize hc : (t.setFld f v).cells = c
    generalize hr : (t.setFld f v).rdt = r
    change { t with cells := (t.setFld f v).cells } = _
    rw [hc, h1] at *
    subst hr
    rfl
  fld g hg := by
    by_cases hk : g.key = f.key
    · exact State.fld_setFld_congr _ _ _ hk
    · rw [State.fld_setFld_ne _ _ hk, State.fld_setFld_ne _ _ hk, h.fld g hg]

theorem State.Beside.ite (c : Prop) [Decidable c] {s' t' : State} (h : s.Beside t) (k : s'.Beside t') : (if c then s else s').Beside (if c then t else t') := by
  split
  · exact h
  · exact k

theorem State.Beside.dram (h : s.Beside t) : t.dram = s.dram := by rw [h.units]
theorem State.Beside.rpj (h : s.Beside t) : t.rpj = s.rpj := by rw [h.units]
theorem State.Beside.pattern (h : s.Beside t) : t.pattern = s.pattern := by rw [h.units]

theorem State.Beside.wr (h : s.Beside t) (a : Nat) (b : Bytes) : (s.wr a b).Beside (t.wr a b) where
  units := by
    have h1 := h.units
    rw [h1]
    rfl
  fld g hg := h.fld g hg

theorem State.Beside.modRpj (h : s.Beside t) (f : RpjSt → RpjSt) : (s.modRpj f).Beside (t.modRpj f) where
  units := by
    have h1 := h.units
    rw [h1]
    rfl
  fld g hg := h.fld g hg

theorem State.Beside.free (h : s.Beside t) (n : Nat) : (t.free n).1 = (s.free n).1 ∧ (s.free n).2.Beside (t.free n).2 := by
  have h1 := h.units
  have hfresh : t.fresh = s.fresh := by rw [h1]
  refine ⟨?_, ?_, fun g hg => h.fld g hg⟩
  · unfold State.free
    rw [hfresh]
  · unfold State.free
    rw [h1]

theorem State.Beside.stamp (h : s.Beside t) : t.stamp = s.stamp := by
  rw [State.stamp, State.pair, h.fld _ (by decide), h.fld _ (by decide)]
  rfl

theorem State.Beside.recordAddr (h : s.Beside t) (n : Nat) : t.recordAddr n = s.recordAddr n := by
  rw [State.recordAddr, State.base, State.ringRecords, h.fld _ (by decide), h.fld _ (by decide), h.fld _ (by decide)]
  rfl

theorem State.Beside.rdN (h : s.Beside t) (a n : Nat) : t.rdN a n = s.rdN a n := State.rdN_of_dram h.dram a n

theorem State.Beside.wrapInc (h : s.Beside t) {f : Fld} (hf : f.blk ≠ 0x13) (n : Nat) : (s.wrapInc f n).Beside (t.wrapInc f n) := by
  rw [State.wrapInc, State.wrapInc, h.fld f hf]
  exact h.setFld _ _

theorem State.Beside.inc (h : s.Beside t) {f : Fld} (hf : f.blk ≠ 0x13) (n : Nat) : (s.inc f n).Beside (t.inc f n) := by
  rw [State.inc, State.inc, h.fld f hf]
  exact h.setFld _ _

theorem State.Beside.stopReplay (h : s.Beside t) (f : Fld) : (s.stopReplay f).Beside (t.stopReplay f) := by
  rw [State.stopReplay, State.stopReplay, h.fld F.RPJ_RSEQ_COUNT (by decide)]
  exact (((h.setFld _ _).setFld _ _).setFld _ _).setFld _ _

theorem State.Beside.compareRecord (h : s.Beside t) (type inst payload : Nat) : (s.compareRecord type inst payload).Beside (t.compareRecord type inst payload) := by
  unfold State.compareRecord
  dsimp only
  rw [h.fld F.RPJ_RSEQ_COUNT (by decide), h.recordAddr, h.rdN, h.rdN, h.rdN]
  exact .ite _ (h.stopReplay _) (.ite _ (h.wrapInc (by decide) _) (h.stopReplay _))

theorem State.Beside.countRecord (h : s.Beside t) : s.countRecord.Beside t.countRecord := by
  unfold State.countRecord
  rw [h.fld F.RPJ_RSEQ_COUNT (by decide)]
  exact .ite _ ((h.wrapInc (by decide) _).modRpj _) (h.wrapInc (by decide) _)

theorem State.Beside.dropRecord (h : s.Beside t) : s.dropRecord.Beside t.dropRecord := (h.inc (by decide) _).setFld _ _

theorem State.Beside.putRecord (h : s.Beside t) (n type inst payload : Nat) : (s.putRecord n type inst payload).Beside (t.putRecord n type inst payload) := by
  obtain ⟨hns, hu⟩ := h.free 16
  unfold State.putRecord
  generalize s.free 16 = p at hns hu ⊢
  generalize t.free 16 = q at hns hu ⊢
  obtain ⟨ns, s1⟩ := p
  obtain ⟨ms, t1⟩ := q
  dsimp only at hns hu ⊢
  rw [hns, hu.recordAddr, hu.stamp]
  exact hu.wr _ _

theorem State.Beside.record (h : s.Beside t) (type inst payload : Nat) : (s.record type inst payload).Beside (t.record type inst payload) := by
  unfold State.record
  dsimp only
  rw [h.fld F.RPJ_CTRL_TYPE_MASK (by decide), h.flag (g := F.RPJ_CTRL_REPLAY) (by decide), h.fld F.RPJ_RSEQ_COUNT (by decide), h.flag (g := F.RPJ_CTRL_FREEZE) (by decide), h.rpj]
  exact .ite _ h (.ite _ (h.compareRecord _ _ _) (.ite _ h.countRecord.dropRecord (.ite _ (h.countRecord.modRpj _).dropRecord
    ((h.countRecord.modRpj _).putRecord _ _ _ _))))

/-- Bytes of a register outside RDT read alike. -/
theorem State.Beside.rawReg (h : s.Beside t) {off : Nat} (ho : off ≠ 0x1A00000) (hoff : ∀ p ∈ regFields off, p.1.blk ≠ 0x13) : t.rawReg off = s.rawReg off := by
  have hblank : t.bankBlank off = s.bankBlank off := by
    unfold State.bankBlank
    rw [h.fld F.GLB_PAIR_STATUS_HEAD_ID (by decide), h.flag (g := F.GLB_PAIR_STATUS_SOLO) (by decide), h.pattern]
  have hread : (regFields off).map (fieldRead t) = (regFields off).map (fieldRead s) := List.map_congr_left fun p hp => by
    unfold fieldRead
    rw [h.fld p.1 (hoff p hp)]
  unfold State.rawReg
  rw [hblank, if_neg ho, if_neg ho, hread]

theorem State.Beside.spadRange (h : s.Beside t) : (s.raise F.SCC_ISR_SPAD_RANGE).Beside (t.raise F.SCC_ISR_SPAD_RANGE) := by
  have hset := h.setFld F.SCC_ISR_SPAD_RANGE 1
  unfold State.raise State.sourceHeld
  dsimp only
  rw [h.flag (g := F.SCC_ISR_SPAD_RANGE) (by decide), h.flag (g := { F.SCC_ISR_SPAD_RANGE with off := F.SCC_ISR_SPAD_RANGE.off + 4 }) (by decide),
    h.flag (g := F.IRQ_SWAP_HOLDING) (by decide), h.fld (F.IRQ_ROUTE_ACTIVE _) (by decide), h.fld (F.IRQ_ROUTE_SHADOW _) (by decide),
    hset.rawReg (by decide) (by decide)]
  exact .ite _ (hset.record _ _ _) hset

theorem State.Beside.spadPlace (h : s.Beside t) (o : Nat) : t.spadPlace o = s.spadPlace o := by
  unfold State.spadPlace State.spadWays
  rw [h.fld F.SCC_STATUS_SPAD_WAYS (by decide)]

theorem State.Beside.scc (h : s.Beside t) : t.scc = s.scc := by rw [h.units]

theorem State.Beside.physSet (h : s.Beside t) (a : Nat) (b : Byte) : (s.physSet a b).Beside (t.physSet a b) := by
  have h1 := h.units
  unfold State.physSet
  rw [h.spadPlace]
  split
  · split
    · exact ⟨by rw [h1]; rfl, fun g hg => h.fld g hg⟩
    · exact h.spadRange
  · exact ⟨by rw [h1], fun g hg => h.fld g hg⟩

theorem State.Beside.physWr (h : s.Beside t) (a : Nat) (d : Bytes) : (s.physWr a d).Beside (t.physWr a d) := by
  unfold State.physWr
  generalize d.zipIdx = l
  induction l generalizing s t with
  | nil => exact h
  | cons p l ih => exact ih (h.physSet _ _)

theorem State.Beside.physGet (h : s.Beside t) (a : Nat) : t.physGet a = s.physGet a := by
  unfold State.physGet
  rw [h.spadPlace, h.scc, h.dram]

theorem State.Beside.physRd (h : s.Beside t) (a n : Nat) : t.physRd a n = s.physRd a n := by
  unfold State.physRd
  exact List.map_congr_left fun k _ => h.physGet _

theorem State.Beside.physRdN (h : s.Beside t) (a n : Nat) : t.physRdN a n = s.physRdN a n := by
  rw [State.physRdN, h.physRd]
  rfl

theorem State.Beside.portsOpen (h : s.Beside t) (ho : s.portsOpen) : t.portsOpen := by
  have hpins : t.pins = s.pins := by rw [h.units]
  have hctl : t.ctl = s.ctl := by rw [h.units]
  unfold State.portsOpen State.silent at *
  rw [hpins, hctl, h.fld F.GLB_PAIR_STATUS_STATE (by decide), h.flag (g := F.RPJ_CTRL_REPLAY) (by decide)]
  exact ho

end

end Sys2Proof.Machine
end

section
/-! SUPPORT. Packets and timers of a queue pair (R301-R321). -/
namespace Sys2Proof.Machine

/-! ### Messages on the wire -/

/-- A head whose ports are open sends what is neither Efmo's nor Purl's. -/
theorem State.send_open {s : State} (h : s.portsOpen) {m : Sent} (hefmo : m.onEfmo = false)
    (hm : s.shut m = (m.onPorts && decide (2 ≤ s.ctl.hold.phase) || s.ctl.hold.unseated && false)) : s.send m = { s with sent := s.sent ++ [m] } := by
  obtain ⟨hsilent, hphase⟩ := h
  rw [State.send, hsilent, hm, hefmo, decide_eq_false (by omega : ¬ 2 ≤ s.ctl.hold.phase), Bool.and_false, Bool.and_false, Bool.and_false]
  rfl

theorem State.egressTo_open {s : State} (h : s.portsOpen) {q : Qp} (hq : s.prioPaused q.port q.prio = false) {m : Sent} (hefmo : m.onEfmo = false)
    (hm : s.shut m = (m.onPorts && decide (2 ≤ s.ctl.hold.phase) || s.ctl.hold.unseated && false)) :
    s.egressTo q m = { s with sent := s.sent ++ [m] } := by
  rw [State.egressTo, hq, if_neg (by decide)]
  exact State.send_open h hefmo hm

/-- Packets of a queue pair go out in order. -/
theorem State.foldl_egressTo {s : State} (h : s.portsOpen) {q : Qp} (hq : s.prioPaused q.port q.prio = false) (l : List RocePkt) :
    l.foldl (fun t p => t.egressTo q (.roce p)) s = { s with sent := s.sent ++ l.map Sent.roce } := by
  induction l generalizing s with
  | nil => rw [List.map_nil, List.append_nil]; rfl
  | cons p l ih =>
    rw [List.foldl_cons, State.egressTo_open h hq rfl rfl, ih (s := { s with sent := s.sent ++ [.roce p] }) h hq]
    dsimp only
    rw [List.map_cons, List.append_assoc, List.singleton_append]

theorem State.resend_open {s : State} (h : s.portsOpen) {n : Nat} {q : Qp} (hn : s.qp? n = some q) (hq : s.prioPaused q.port q.prio = false) (psn : Nat) :
    s.resend n psn = { s with sent := s.sent ++ ((q.out.flatMap (·.pkts)).filter fun p => psnLe psn p.psn).map Sent.roce } := by
  rw [State.resend, hn]
  dsimp only
  rw [← State.foldl_egressTo h hq, List.foldl_filter]

/-! ### A queue pair's context -/

theorem State.qp?_setQp (s : State) (n : Nat) (q : Qp) : (s.setQp n q).qp? n = some q := Tbl.get?_put_same _ _ _
theorem State.qp?_setQp_ne (s : State) {n m : Nat} (q : Qp) (h : m ≠ n) : (s.setQp n q).qp? m = s.qp? m := Tbl.get?_put_ne _ _ h

theorem State.modQp_of_some {s : State} {n : Nat} {q : Qp} (h : s.qp? n = some q) (f : Qp → Qp) : s.modQp n f = s.setQp n (f q) := by
  unfold State.modQp State.setQp Tbl.modify State.modRdt
  dsimp only
  rw [show s.rdt.qps.get? n = some q from h]

/-- What counts the cache writes. -/
theorem State.countCache_spec (s : State) : s.countCache = { s with cells := s.countCache.cells } ∧
    (∀ g : Fld, (∀ f ∈ [F.RDT_CACHE_STATUS_CACHED, F.RDT_PARK_STATUS_PARKED, F.RDT_PARK_STATUS_PEAK], g.key ≠ f.key) → s.countCache.fld g = s.fld g) ∧
    s.countCache.fld F.RDT_CACHE_STATUS_CACHED = s.rdt.cache.length % 2 ^ F.RDT_CACHE_STATUS_CACHED.width ∧
    s.countCache.fld F.RDT_PARK_STATUS_PARKED = s.rdt.parked.length % 2 ^ F.RDT_PARK_STATUS_PARKED.width := by
  refine ⟨rfl, fun g hg => ?_, ?_, ?_⟩
  · simp only [List.forall_mem_cons] at hg
    obtain ⟨hcached, hparked, hpeak, -⟩ := hg
    rw [State.countCache, State.fld_setFld_ne _ _ hpeak, State.fld_setFld_ne _ _ hparked, State.fld_setFld_ne _ _ hcached]
  · rw [State.countCache, State.fld_setFld_ne _ _ (by decide), State.fld_setFld_ne _ _ (by decide), State.fld_setFld_same]
  · rw [State.countCache, State.fld_setFld_ne _ _ (by decide), State.fld_setFld_same]

theorem State.cancelVictim_idle {s : State} {n : Nat} (h : (s.rdt.fetching.any fun f => f.2 == some n) = false) : s.cancelVictim n = s := by
  rw [State.cancelVictim, h]
  rfl

/-- A packet of a queue pair whose context is at hand is processed. -/
theorem State.receivePacket_atHand {s : State} {p : RdtPkt} (h : s.atHand (pktQpn p)) :
    s.receivePacket p = ((s.touchCtx (pktQpn p)).takePacket p).countCache := by
  obtain ⟨henable, hconn, hcache, hparked, hfetch⟩ := h
  unfold State.receivePacket
  dsimp only
  rw [henable, hconn, hcache, hparked, State.cancelVictim_idle hfetch]
  rfl

/-- Where no error spreads, the pins alone are counted again. -/
theorem State.settleQps_undragged {s : State} (h : s.undragged = true) : s.settleQps = s.countPins := by
  have hnone : s.rdt.qps.find? (fun p => s.dragged p.2) = none := by
    rw [List.find?_eq_none]
    intro p hp
    have := List.all_eq_true.mp h p hp
    simpa using this
  rw [State.settleQps, State.spread, hnone]

theorem State.countPins_spec (s : State) : s.countPins = { s with cells := s.countPins.cells } ∧
    ∀ g : Fld, g.key ≠ F.RDT_CACHE_STATUS_PINNED.key → s.countPins.fld g = s.fld g :=
  ⟨rfl, fun _ hg => s.fld_setFld_ne _ hg⟩

theorem State.beside_countPins (s : State) : s.Beside s.countPins := s.beside_setRdt _ (by decide)

theorem Tbl.mem_of_mem_put {α : Type} {t : Tbl α} {k : Nat} {v : α} {p : Nat × α} (h : p ∈ t.put k v) : p = (k, v) ∨ p ∈ t := by
  induction t with
  | nil => exact .inl (by simpa [Tbl.put] using h)
  | cons a t ih =>
    obtain ⟨k', v'⟩ := a
    unfold Tbl.put at h
    split at h
    · exact (List.mem_cons.mp h).imp_right fun h => List.mem_cons_of_mem _ h
    · split at h
      · exact List.mem_cons.mp h
      · rcases List.mem_cons.mp h with h | h
        · exact .inr (h ▸ List.mem_cons_self)
        · exact (ih h).imp_right fun h => List.mem_cons_of_mem _ h

theorem Tbl.mem_of_get? {α : Type} {t : Tbl α} {k : Nat} {v : α} (h : t.get? k = some v) : (k, v) ∈ t := by
  induction t with
  | nil => cases h
  | cons a t ih =>
    obtain ⟨k', v'⟩ := a
    unfold Tbl.get? at h
    split at h
    · next hk => cases h; rw [hk]; exact List.mem_cons_self
    · exact List.mem_cons_of_mem _ (ih h)

/-- No queue pair is dragged along where none was, and one was changed in nothing that drags it. -/
theorem State.undragged_put {s t : State} {n : Nat} {q q1 : Qp} (h : s.undragged = true) (hq : s.qp? n = some q) (hdrag : ∀ x, t.dragged x = s.dragged x)
    (hqps : t.rdt.qps = s.rdt.qps.put n q1) (hsame : s.dragged q1 = s.dragged q) : t.undragged = true := by
  have hmem : ∀ p ∈ s.rdt.qps, (!s.dragged p.2) = true := List.all_eq_true.mp h
  rw [State.undragged, hqps]
  refine List.all_eq_true.mpr fun p hp => ?_
  rw [hdrag]
  rcases Tbl.mem_of_mem_put hp with rfl | hp
  · rw [hsame]
    exact hmem _ (Tbl.mem_of_get? hq)
  · exact hmem p hp

end Sys2Proof.Machine
end

section
/-! PROOF. Responses, acknowledgements, NAKs, CNPs, timers and context fetches (R301-R321). -/
namespace Sys2Proof.Machine

/-! ### Timers -/

theorem State.retry_open {s : State} (h : s.portsOpen) {n : Nat} {q : Qp} (hn : s.qp? n = some q) (hq : s.prioPaused q.port q.prio = false) (hleft : 0 < q.retriesLeft)
    (psn : Nat) : s.retry n psn = { s.setQp n { q with retriesLeft := q.retriesLeft - 1 } with
      sent := s.sent ++ ((q.out.flatMap (·.pkts)).filter fun p => psnLe psn p.psn).map Sent.roce } := by
  rw [State.retry, hn]
  dsimp only
  rw [if_neg (Nat.ne_of_gt hleft)]
  exact State.resend_open (s := s.setQp n { q with retriesLeft := q.retriesLeft - 1 }) h (State.qp?_setQp _ _ _) hq psn

theorem State.qpConnected_of_state {s : State} {n : Nat} {q : Qp} (hn : s.qp? n = some q) (hq : q.state = 1) : s.qpConnected n = true := by
  rw [State.qpConnected, hn]
  simp [hq]

/-! ### Acknowledgements -/

/-- An acknowledgement that does not cover the first request outstanding completes nothing. -/
theorem State.takeAck_none {s : State} {n psn : Nat} {q : Qp} {w : OutWqe} {r : List OutWqe} (hn : s.qp? n = some q) (hout : q.out = w :: r)
    (hw : (w.reads || !psnLe w.last psn) = true) (h : s.undragged = true) : s.takeAck n psn = s.countPins := by
  have hack : ∀ k, State.ackUpTo k n psn s = s := fun k => by
    cases k with
    | zero => rfl
    | succ k =>
      unfold State.ackUpTo
      rw [hn]
      dsimp only
      rw [hout]
      dsimp only
      rw [if_neg]
      cases hr : w.reads <;> rw [hr] at hw <;> simp_all
  rw [State.takeAck, hack, State.settleQps_undragged h]

/-- A CQE of a queue with room goes to its place. -/
theorem State.writeCqe_room {s : State} {k : Nat} {c : Cq} (hc : s.cq? k = some c) (hbad : c.bad = false) (hroom : c.unread < c.size)
    (wrId qpn bytes imm op status index : Nat) :
    ∃ c' : Cq, c'.bad = false ∧ s.writeCqe k wrId qpn bytes imm op status index =
      (s.wr (c.addr + 32 * c.index) (cqeBytes wrId qpn bytes imm op status index c.phase)).modRdt fun r => { r with cqs := r.cqs.put k c' } := by
  refine ⟨{ c with
    index := if c.index + 1 = c.size then 0 else c.index + 1, phase := if c.index + 1 = c.size then 1 - c.phase else c.phase,
    count := (c.count + 1) % 2 ^ 32, unread := min c.size (c.unread + 1) }, hbad, ?_⟩
  rw [State.writeCqe, hc]
  dsimp only
  rw [hbad, if_neg (by decide), if_neg (Nat.not_le.mpr hroom)]
  rfl

/-- A signaled request's CQE is written when it completes. -/
theorem State.sqDone_spec {s : State} {n : Nat} {q : Qp} {w : OutWqe} {c : Cq} (hc : s.cq? q.scq = some c) (hbad : c.bad = false) (hroom : c.unread < c.size) :
    let u := s.sqDone n q w 0
    (u = { s with dram := u.dram, rdt := { s.rdt with cqs := u.rdt.cqs } }) ∧
      u.dram = (if w.signaled then (s.wr (c.addr + 32 * c.index) (cqeBytes w.wrId n w.len 0 w.op 0 w.index c.phase)).dram else s.dram) ∧
      ∀ k, (u.cq? k).any (·.bad) = (s.cq? k).any (·.bad) := by
  unfold State.sqDone
  by_cases hs : w.signaled = true
  · obtain ⟨c', hc', hcqe⟩ := State.writeCqe_room hc hbad hroom w.wrId n w.len 0 w.op 0 w.index
    rw [if_pos (.inl hs), if_pos hs, hcqe]
    generalize cqeBytes w.wrId n w.len 0 w.op 0 w.index c.phase = b
    refine ⟨rfl, rfl, fun k => ?_⟩
    by_cases hk : k = q.scq
    · subst hk
      rw [hc, State.cq?, State.modRdt_rdt, Tbl.get?_put_same]
      exact hc'.trans hbad.symm
    · exact congrArg (Option.any _) (Tbl.get?_put_ne _ _ hk)
  · rw [if_neg (by simp [hs]), if_neg hs]
    exact ⟨rfl, rfl, fun _ => rfl⟩

theorem State.dragged_of_bad {s t : State} (hbad : ∀ k, (t.cq? k).any (·.bad) = (s.cq? k).any (·.bad)) (hdis : t.rdt.disabled = s.rdt.disabled) (x : Qp) :
    t.dragged x = s.dragged x := by
  unfold State.dragged
  rw [hbad, hbad, hdis]

/-- An acknowledgement of the one request outstanding retires it. -/
theorem State.takeAck_one {s : State} {n psn : Nat} {q : Qp} {w : OutWqe} {c : Cq} (hn : s.qp? n = some q) (hout : q.out = [w]) (hw : w.reads = false)
    (hle : psnLe w.last psn = true) (h : s.undragged = true) (hc : s.cq? q.scq = some c) (hbad : c.bad = false) (hroom : c.unread < c.size) :
    ∃ u : State, s.takeAck n psn = u.countPins ∧ u.qp? n = some { q with out := [], retriesLeft := q.retry, rnrLeft := q.rnrRetry } ∧
      u = { s with rdt := u.rdt, dram := u.dram } ∧
      u.dram = if w.signaled then (s.wr (c.addr + 32 * c.index) (cqeBytes w.wrId n w.len 0 w.op 0 w.index c.phase)).dram else s.dram := by
  have hack : s.takeAck n psn = ((s.setQp n { q with out := [], retriesLeft := q.retry, rnrLeft := q.rnrRetry }).sqDone n q w 0).settleQps := by
    have hone : State.ackUpTo 1 n psn s = (s.setQp n { q with out := [], retriesLeft := q.retry, rnrLeft := q.rnrRetry }).sqDone n q w 0 := by
      unfold State.ackUpTo
      rw [hn]
      dsimp only
      rw [hout]
      dsimp only
      rw [if_pos (by rw [hw, hle]; rfl)]
      rfl
    have hlen : ((s.qp? n).map fun q => q.out.length).getD 0 = 1 := by rw [hn]; simp [hout]
    rw [State.takeAck, hlen, hone]
  have hset := s.qp?_setQp n { q with out := [], retriesLeft := q.retry, rnrLeft := q.rnrRetry }
  obtain ⟨hunits, hdram, hbads⟩ := State.sqDone_spec (s := s.setQp n { q with out := [], retriesLeft := q.retry, rnrLeft := q.rnrRetry }) (n := n) (w := w) hc hbad hroom
  generalize (s.setQp n { q with out := [], retriesLeft := q.retry, rnrLeft := q.rnrRetry }).sqDone n q w 0 = u at hack hunits hdram hbads
  have hqps : u.rdt.qps = s.rdt.qps.put n { q with out := [], retriesLeft := q.retry, rnrLeft := q.rnrRetry } := by rw [hunits]; rfl
  have hundrag : u.undragged = true :=
    State.undragged_put h hn (State.dragged_of_bad hbads (by rw [hunits]; rfl)) hqps rfl
  refine ⟨u, hack.trans (State.settleQps_undragged hundrag), ?_, ?_, hdram⟩
  · rw [State.qp?, hqps]
    exact Tbl.get?_put_same _ _ _
  · rw [hunits]
    rfl

theorem cqeBytes_length (wrId qpn bytes imm op status index phase : Nat) : (cqeBytes wrId qpn bytes imm op status index phase).length = 32 := by
  simp [cqeBytes, leBytes_length, zeros_length]

/-! ### Responses -/

/-- The last response of a READ places its bytes and retires it. -/
theorem State.takeResponse_last {s : State} {n psn : Nat} {data : Bytes} {pi : List PiIn} {q : Qp} {w : OutWqe} (hn : s.qp? n = some q) (h : s.undragged = true)
    (hout : q.out = [w]) (hreadQ : q.readQ = []) (hw : w.reads = true) (hhost : w.host = none) (hsig : w.signaled = false)
    (hpsn : (w.first + w.got) % 2 ^ 24 = psn % 2 ^ 24) (hlast : w.last = psn % 2 ^ 24) :
    s.takeResponse n psn data pi =
      ((s.countPins.setQp n { q with out := [], retriesLeft := q.retry, rnrLeft := q.rnrRetry }).physWr (w.laddr + w.got * pmtuBytes q) data).countPins := by
  have hu : s.countPins.qp? n = some q := hn
  unfold State.takeResponse
  dsimp only
  rw [State.takeAck_none hn hout (by rw [hw]; rfl) h, hu]
  dsimp only
  rw [hout]
  dsimp only
  rw [if_neg (by rw [hw]; exact fun e => e.elim (by decide) fun e => e hpsn), hhost]
  dsimp only
  rw [if_pos hlast, if_pos hlast]
  have hset := State.undragged_put (t := s.countPins.setQp n { q with out := [], retriesLeft := q.retry, rnrLeft := q.rnrRetry }) h hn (fun _ => rfl) rfl rfl
  generalize hv : s.countPins.setQp n { q with out := [], retriesLeft := q.retry, rnrLeft := q.rnrRetry } = v at hset ⊢
  have hq : v.qp? n = some { q with out := [], retriesLeft := q.retry, rnrLeft := q.rnrRetry } := by rw [← hv]; exact State.qp?_setQp _ _ _
  have hrdt : (v.physWr (w.laddr + w.got * pmtuBytes q) data).rdt = v.rdt := by rw [(v.physFrame_physWr _ _).units]
  have hundrag : (v.physWr (w.laddr + w.got * pmtuBytes q) data).undragged = true := by
    have hdrag : (v.physWr (w.laddr + w.got * pmtuBytes q) data).dragged = v.dragged := by
      unfold State.dragged State.cq?
      rw [hrdt]
    rw [State.undragged, hrdt, hdrag]
    exact hset
  rw [State.sqDone, if_neg (by simp [hsig]), State.settleQps_undragged hundrag, State.pumpReads]
  have hq' : (v.physWr (w.laddr + w.got * pmtuBytes q) data).countPins.qp? n = some { q with out := [], retriesLeft := q.retry, rnrLeft := q.rnrRetry } := by
    rw [← hq]
    exact congrArg (fun r : RdtSt => r.qps.get? n) hrdt
  rw [hq']
  dsimp only
  rw [hreadQ]
  split <;> rfl

/-! ### Contexts -/

theorem State.takeCnp_cut {s : State} {n at_ : Nat} {q : Qp} (hn : s.qp? n = some q) (hcc : s.flag F.RDT_CTRL_CC_EN = true)
    (hcut : q.cutAt.all (fun c => decide (c + 50000 ≤ at_)) = true) :
    s.takeCnp n at_ = (s.inc F.RDT_CNP_COUNTS_RECEIVED).setQp n { q with
      rt := q.rc, rc := max (q.rc * (65536 - q.alpha / 2) / 65536) (max 1 (s.fld F.RDT_CC_RATES_MIN_MBPS)),
      alpha := ((65536 - s.fld F.RDT_CC_CFG_G) * q.alpha + s.fld F.RDT_CC_CFG_G * 65536) / 65536, steps := 0, cutAt := some at_ } := by
  have hn' : (s.inc F.RDT_CNP_COUNTS_RECEIVED).qp? n = some q := hn
  have hcc' : (s.inc F.RDT_CNP_COUNTS_RECEIVED).flag F.RDT_CTRL_CC_EN = true := by rw [State.flag, State.fld_inc_ne _ _ (by decide)]; exact hcc
  have hany : (q.cutAt.any fun c => decide (at_ < c + 50000)) = false := by
    cases hx : q.cutAt with
    | none => rfl
    | some c => rw [hx] at hcut; simpa using hcut
  unfold State.takeCnp
  dsimp only
  rw [hn']
  dsimp only
  rw [hcc', hany, if_neg (by decide), State.fld_inc_ne _ _ (by decide), State.fld_inc_ne _ _ (by decide)]

theorem State.unparkQp_none {s : State} {n : Nat} (h : (s.rdt.parked.any fun p => pktQpn p == n) = false) : s.unparkQp n = (s.touchCtx n).countCache := by
  have hnone : ∀ p ∈ s.rdt.parked, (pktQpn p == n) = false := by simpa using h
  have hmine : (s.rdt.parked.filter fun p => pktQpn p == n) = [] := List.filter_eq_nil_iff.mpr fun p hp => by simp [hnone p hp]
  have hrest : (s.rdt.parked.filter fun p => pktQpn p != n) = s.rdt.parked := List.filter_eq_self.mpr fun p hp => by simp [bne, hnone p hp]
  unfold State.unparkQp
  rw [hmine]
  dsimp only
  rw [List.foldl_nil]
  unfold State.modRdt
  dsimp only
  rw [hrest]

theorem State.sendDues_none {s : State} (h : s.commit.due = []) : s.sendDues = s := by
  have hdue : { s.commit with due := [] } = s.commit := by rw [← h]
  rw [State.sendDues, h, List.foldl_nil, State.modCommit, hdue]

theorem State.undragged_touchCtx {s : State} (h : s.undragged = true) (n : Nat) : (s.touchCtx n).undragged = true := h

/-- What the last response of a READ leaves of a queue pair whose context is at hand. -/
theorem State.receive_response {s : State} {n psn : Nat} {data : Bytes} {pi : List PiIn} {at_ : Nat} {q : Qp} {w : OutWqe} (hat : s.atHand n) (hn : s.qp? n = some q)
    (h : s.undragged = true) (hout : q.out = [w]) (hreadQ : q.readQ = []) (hw : w.reads = true) (hhost : w.host = none) (hsig : w.signaled = false)
    (hpsn : (w.first + w.got) % 2 ^ 24 = psn % 2 ^ 24) (hlast : w.last = psn % 2 ^ 24) :
    let t := s.receivePacket (.response n psn data pi false at_)
    t = { s.physWr (w.laddr + w.got * pmtuBytes q) data with
      cells := t.cells,
      rdt := { (s.touchCtx n).rdt with qps := s.rdt.qps.put n { q with out := [], retriesLeft := q.retry, rnrLeft := q.rnrRetry } } } := by
  have hrun : s.receivePacket (.response n psn data pi false at_) = (((((s.touchCtx n).countPins.setQp n
      { q with out := [], retriesLeft := q.retry, rnrLeft := q.rnrRetry }).physWr (w.laddr + w.got * pmtuBytes q) data).countPins).countCache) := by
    rw [State.receivePacket_atHand hat]
    exact congrArg State.countCache (State.takeResponse_last hn (s.undragged_touchCtx h n) hout hreadQ hw hhost hsig hpsn hlast)
  have hbeside : s.Beside ((s.touchCtx n).countPins.setQp n { q with out := [], retriesLeft := q.retry, rnrLeft := q.rnrRetry }) :=
    ((s.beside_modRdt _).trans (State.beside_countPins _)).trans (State.beside_modRdt _ _)
  have hrdt : ((s.touchCtx n).countPins.setQp n { q with out := [], retriesLeft := q.retry, rnrLeft := q.rnrRetry }).rdt =
      { (s.touchCtx n).rdt with qps := s.rdt.qps.put n { q with out := [], retriesLeft := q.retry, rnrLeft := q.rnrRetry } } := rfl
  dsimp only
  rw [hrun, ← hrdt]
  generalize (s.touchCtx n).countPins.setQp n { q with out := [], retriesLeft := q.retry, rnrLeft := q.rnrRetry } = u at hbeside
  have hwr := hbeside.physWr (w.laddr + w.got * pmtuBytes q) data
  have hsame : (u.physWr (w.laddr + w.got * pmtuBytes q) data).rdt = u.rdt := by rw [(u.physFrame_physWr _ _).units]
  generalize u.physWr (w.laddr + w.got * pmtuBytes q) data = v at hwr hsame
  rw [v.countPins.countCache_spec.1, v.countPins_spec.1, ← hsame]
  have hunits := hwr.units
  generalize s.physWr (w.laddr + w.got * pmtuBytes q) data = v0 at hunits
  rw [hunits]

/-- A fetched context is cached first, and its victim is being written back. -/
def State.ctxCame (s : State) (n : Nat) (v : Option Nat) : State :=
  s.modRdt fun r => { r with
    fetching := r.fetching.filter (fun g => g.1 != n),
    cache := match v with | some v => r.cache.filter (· != v) | none => r.cache,
    writing := match v with | some v => r.writing ++ [v] | none => r.writing }

theorem State.ctxCame_rdt (s : State) (n : Nat) (v : Option Nat) : (s.ctxCame n v).rdt = { s.rdt with
    fetching := s.rdt.fetching.filter (fun g => g.1 != n), cache := s.rdt.cache.filter (fun c => some c != v), writing := s.rdt.writing ++ v.toList } := by
  cases v with
  | none =>
    have hcache : s.rdt.cache.filter (fun c => some c != none) = s.rdt.cache := List.filter_eq_self.mpr fun c _ => rfl
    rw [hcache, Option.toList_none, List.append_nil]
    rfl
  | some v =>
    have hcache : s.rdt.cache.filter (fun c => some c != some v) = s.rdt.cache.filter (· != v) := List.filter_congr fun c _ => by simp [bne]
    rw [hcache]
    rfl

/-- Settles O32: a response, an acknowledgement, a NAK, a CNP, each timer and the end of a context's fetch and write-back change
the queue pair as their sections say, and nothing else. -/
theorem answersTimersAndContextsTakeEffect : Obligations.AnswersTimersAndContextsTakeEffect := by
  unfold Obligations.AnswersTimersAndContextsTakeEffect
  refine ⟨fun qpn psn data pi at_ q w s hon hat hn hun hout hreadQ hw hhost hsig hpsn hlast hdue => ?_,
    fun qpn psn q w c s hon hat hn hun hout hw hle hc hbad hroom => ?_, fun qpn psn q w s hon hat hopen hpaused hn hun hout hw hleft => ?_,
    fun qpn at_ q s hon hat hn hcc hcut => ?_, fun qpn q s hon hcc hn hstate => ?_, fun qpn q s hon hcc hn hstate => ?_,
    fun qpn q w r s hon hn hopen hpaused hout hstate hleft => ?_, fun qpn q s hon hn hopen hpaused hstate hwait => ?_,
    fun qpn v s hon hfetch hparked => ?_, fun qpn s hon hwriting hparked => ?_⟩
  · have hspec := State.receive_response (pi := pi) (data := data) (at_ := at_) hat hn hun hout hreadQ hw hhost hsig hpsn hlast
    dsimp only at hspec ⊢
    have hpins : (s.physWr (w.laddr + w.got * pmtuBytes q) data).pins = s.pins := (s.physFrame_physWr _ _).pins
    have hcommit : (s.physWr (w.laddr + w.got * pmtuBytes q) data).commit = s.commit := by rw [(s.physFrame_physWr _ _).units]
    generalize s.physWr (w.laddr + w.got * pmtuBytes q) data = v at hspec hpins hcommit
    have hrun : exec (.roceResponse qpn psn data pi false at_) s = .next (s.live ((s.receivePacket (.response qpn psn data pi false at_)).sendDues)) := rfl
    generalize s.receivePacket (.response qpn psn data pi false at_) = t at hspec hrun
    rw [State.sendDues_none (by rw [hspec]; exact (congrArg CommitSt.due hcommit).trans hdue)] at hrun
    refine ⟨t, hrun.trans (State.next_live_eq hon (by rw [hspec]; exact hpins)), ?_, hspec⟩
    rw [hspec]
    exact Tbl.get?_put_same _ _ _
  · obtain ⟨u, hack, hq, hunits, hdram⟩ := State.takeAck_one (s := s.touchCtx qpn) hn hout hw hle hun hc hbad hroom
    have hrun : s.receivePacket (.ack qpn psn) = u.countPins.countCache := by
      rw [State.receivePacket_atHand hat]
      exact congrArg State.countCache hack
    refine ⟨u.countPins.countCache, ?_, hq, fun hs => ?_, fun hs => ?_, ?_⟩
    · change Host.Outcome.next (s.live (s.receivePacket (.ack qpn psn))) = _
      rw [hrun]
      exact State.next_live_eq hon (by rw [u.countPins.countCache_spec.1, u.countPins_spec.1, hunits]; rfl)
    · change memRead u.dram (c.addr + 32 * c.index) 32 = _
      rw [hdram, if_pos hs]
      have hmem := memRead_memWrite s.dram (c.addr + 32 * c.index) (cqeBytes w.wrId qpn w.len 0 w.op 0 w.index c.phase)
      rw [cqeBytes_length] at hmem
      exact hmem
    · exact hdram.trans (if_neg (by simp [hs]))
    · rw [u.countPins.countCache_spec.1, u.countPins_spec.1, hunits]
      rfl
  · have hack := State.takeAck_none (s := s.touchCtx qpn) hn hout hw hun
    have hretry := State.retry_open (s := (s.touchCtx qpn).countPins) (((s.beside_modRdt _).trans (State.beside_countPins _)).portsOpen hopen) hn hpaused hleft psn
    have hrun : s.receivePacket (.nak qpn psn .sequence) = ((s.touchCtx qpn).countPins.retry qpn psn).countCache := by
      rw [State.receivePacket_atHand hat]
      refine congrArg State.countCache ?_
      change (s.touchCtx qpn).takeNak qpn psn .sequence = _
      unfold State.takeNak
      dsimp only
      rw [hack, show (s.touchCtx qpn).countPins.qp? qpn = some q from hn]
      dsimp only
      rw [hout]
      rfl
    refine ⟨((s.touchCtx qpn).countPins.retry qpn psn).countCache, ?_, ?_, ?_, ?_⟩
    · change Host.Outcome.next (s.live (s.receivePacket (.nak qpn psn .sequence))) = _
      rw [hrun, hretry]
      exact State.next_live_eq hon rfl
    · rw [hretry]
      exact State.qp?_setQp _ _ _
    · rw [hretry, hout]
      simp only [List.flatMap_cons, List.flatMap_nil, List.append_nil]
      rfl
    · rw [hretry]
      rfl
  · have hcnp := State.takeCnp_cut (s := s.touchCtx qpn) (at_ := at_) hn hcc hcut
    have hrun : s.receivePacket (.cnp qpn at_) = ((s.touchCtx qpn).takeCnp qpn at_).countCache := by
      rw [State.receivePacket_atHand hat]
      rfl
    refine ⟨((s.touchCtx qpn).takeCnp qpn at_).countCache, ?_, ?_, ?_, ?_⟩
    · change Host.Outcome.next (s.live (s.receivePacket (.cnp qpn at_))) = _
      rw [hrun, hcnp]
      exact State.next_live_eq hon rfl
    · rw [hcnp]
      exact State.qp?_setQp _ _ _
    · rw [(State.countCache_spec _).2.1 _ (by decide), hcnp]
      exact State.fld_inc_same (s.touchCtx qpn) _ _
    · rw [hcnp]
      rfl
  · refine ⟨_, ?_, State.qp?_setQp s qpn _, rfl, fun m hm => State.qp?_setQp_ne s _ hm⟩
    change Host.Outcome.next (s.live (if s.flag F.RDT_CTRL_CC_EN && s.qpConnected qpn then
      s.modQp qpn fun q => { q with alpha := (65536 - s.fld F.RDT_CC_CFG_G) * q.alpha / 65536 } else s)) = _
    rw [hcc, State.qpConnected_of_state hn hstate, State.modQp_of_some hn]
    exact State.next_live_eq hon rfl
  · refine ⟨_, ?_, State.qp?_setQp s qpn _, rfl, fun m hm => State.qp?_setQp_ne s _ hm⟩
    change Host.Outcome.next (s.live (if s.flag F.RDT_CTRL_CC_EN && s.qpConnected qpn then
      s.modQp qpn fun q =>
        { q with
          rt := if 5 ≤ q.steps then min (q.rt + s.fld F.RDT_CC_RATES_AI_MBPS) (s.portRate q.port) else q.rt,
          rc := ((if 5 ≤ q.steps then min (q.rt + s.fld F.RDT_CC_RATES_AI_MBPS) (s.portRate q.port) else q.rt) + q.rc) / 2, steps := min (q.steps + 1) 255 } else s)) = _
    rw [hcc, State.qpConnected_of_state hn hstate, State.modQp_of_some hn]
    exact State.next_live_eq hon rfl
  · have hretry := State.retry_open hopen hn hpaused hleft w.first
    rw [hout] at hretry
    refine ⟨s.retry qpn w.first, ?_, ?_, ?_, ?_⟩
    · have hrun : exec (.ackTimeout qpn) s = .next (s.live (match s.qp? qpn with
          | some q => match q.out with
            | w :: _ => if q.state = 1 then s.retry qpn w.first else s
            | [] => s
          | none => s)) := rfl
      rw [hrun, hn]
      dsimp only
      rw [hout]
      dsimp only
      rw [if_pos hstate, hretry]
      exact State.next_live_eq hon rfl
    · rw [hretry]
      exact (State.qp?_setQp s qpn _).trans (by rw [hout])
    · rw [hretry]
    · rw [hretry]
      rfl
  · have hresend := State.resend_open (s := s.setQp qpn { q with rnrWait := false }) hopen (State.qp?_setQp _ _ _) hpaused ((q.out.head?.map (·.first)).getD q.sqPsn)
    refine ⟨(s.setQp qpn { q with rnrWait := false }).resend qpn ((q.out.head?.map (·.first)).getD q.sqPsn), ?_, ?_, ?_, ?_⟩
    · have hrun : exec (.rnrTimerExpiry qpn) s = .next (s.live (match s.qp? qpn with
          | some q =>
            if q.state = 1 && q.rnrWait then (s.setQp qpn { q with rnrWait := false }).resend qpn ((q.out.head?.map (·.first)).getD q.sqPsn) else s
          | none => s)) := rfl
      rw [hrun, hn]
      dsimp only
      rw [if_pos (by rw [hstate, hwait]; rfl), hresend]
      exact State.next_live_eq hon rfl
    · rw [hresend]
      exact State.qp?_setQp _ _ _
    · rw [hresend]
      rfl
    · rw [hresend]
      rfl
  · have hrdt := s.ctxCame_rdt qpn v
    have hunits : s.ctxCame qpn v = { s with rdt := (s.ctxCame qpn v).rdt } := rfl
    have hrun : exec (.qpContextFetched qpn false) s = .next (s.live ((s.ctxCame qpn v).unparkQp qpn)) := by
      change Host.Outcome.next (s.live (match s.rdt.fetching.find? fun f => f.1 == qpn with | none => s | some f => _)) = _
      rw [hfetch]
      rfl
    generalize s.ctxCame qpn v = u at hrdt hunits hrun
    rw [State.unparkQp_none (by rw [hrdt]; exact hparked)] at hrun
    have hcache : (u.touchCtx qpn).countCache.rdt.cache = qpn :: (s.rdt.cache.filter fun c => some c != v).filter (fun c => c != qpn) := by
      change qpn :: u.rdt.cache.filter (· != qpn) = _
      rw [hrdt]
    refine ⟨(u.touchCtx qpn).countCache, hrun.trans (State.next_live_eq hon ?_), hcache, ?_, ?_, (State.countCache_spec _).2.2.1, ?_⟩
    · rw [hunits]
      rfl
    · change u.rdt.fetching = _
      rw [hrdt]
    · change u.rdt.writing = _
      rw [hrdt]
    · rw [(u.touchCtx qpn).countCache_spec.1, hunits, State.touchCtx, State.modRdt, hrdt]
  · refine ⟨s.modRdt fun r => { r with writing := r.writing.filter (· != qpn) }, ?_, rfl⟩
    have hrun : exec (.qpContextWritebackDone qpn) s = .next (s.live (
        if !s.rdt.writing.contains qpn then s
        else
          let s1 := s.modRdt fun r => { r with writing := r.writing.filter (· != qpn) }
          if s1.rdt.parked.any fun p => pktQpn p == qpn then
            if s1.rdt.cache.length + s1.rdt.fetching.length < 16384 then s1.unparkQp qpn
            else match s1.ctxVictim with
              | some v => (s1.modRdt fun r => { r with cache := r.cache.filter (· != v), writing := r.writing ++ [v] }).unparkQp qpn
              | none => s1.unparkQp qpn
          else s1)) := rfl
    rw [hrun, hwriting, if_neg (by decide)]
    dsimp only
    rw [State.modRdt_rdt]
    dsimp only
    rw [hparked, if_neg (by decide)]
    exact State.next_live_eq hon rfl

end Sys2Proof.Machine
end

section
/-! PROOF. Request packets: responses, acknowledgements, NAKs, drops and parking (R301-R318). -/
namespace Sys2Proof.Machine

/-! ### Writes by physical address start no replay -/

theorem State.replay_physWr {s : State} (h : s.flag F.RPJ_CTRL_REPLAY = false) (a : Nat) (d : Bytes) : (s.physWr a d).flag F.RPJ_CTRL_REPLAY = false :=
  foldl_keeps (P := fun t => t.flag F.RPJ_CTRL_REPLAY = false) (fun t p ht => by
    unfold State.physSet
    split
    · split
      · exact ht
      · exact State.replay_raise _ (by decide) ht
    · exact ht) _ h

theorem State.portsOpen_physWr {s : State} (h : s.portsOpen) (a : Nat) (d : Bytes) : (s.physWr a d).portsOpen := by
  have hframe := s.physFrame_physWr a d
  obtain ⟨hsilent, hphase⟩ := h
  unfold State.silent at hsilent
  simp only [Bool.or_eq_false_iff] at hsilent
  obtain ⟨⟨hpins, hstate⟩, hreplay⟩ := hsilent
  refine ⟨?_, by rw [hframe.ctl]; exact hphase⟩
  rw [State.silent, hframe.pins, hframe.fld _ (by decide) (by decide), State.replay_physWr hreplay, hpins, hstate]
  rfl

/-! ### The parts of a request's work -/

/-- A state in which more has been sent. -/
def State.andSent (s : State) (l : List Sent) : State := { s with sent := s.sent ++ l }

/-- A request that asks for its acknowledgement is acknowledged at once. -/
theorem State.accepted_now {s : State} (h : s.portsOpen) {n : Nat} {q : Qp} (hq : s.prioPaused q.port q.prio = false) (psn : Nat) :
    s.accepted n q psn true = (s.setQp n { q with rqPsn := (psn + 1) % 2 ^ 24, nakSent := false, unacked := 0, ackedPsn := psn }).andSent
      [Sent.roceAck q.dest psn] := by
  unfold State.accepted State.sendAck
  dsimp only
  rw [if_pos (.inl rfl)]
  exact State.egressTo_open (s := s.setQp n _) (q := { q with rqPsn := (psn + 1) % 2 ^ 24, nakSent := false, unacked := q.unacked + 1 }) h hq rfl rfl

/-- A request at the expected PSN that fits its message is taken by its operation. -/
theorem State.takeExpected_of_op {s : State} {n : Nat} {q : Qp} {p : RocePkt} (hfields : p.fieldsOk = true) (hfirst : p.first = q.rx.isNone)
    (hrx : q.rx.all (fun m => m.op == p.op) = true) :
    (p.op = .send → s.takeExpected n q p = s.takeSend n q p) ∧ (p.op = .write → s.takeExpected n q p = s.takeWrite n q p) ∧
      (p.op = .read → s.takeExpected n q p = s.takeReadReq n q p) ∧ (p.op = .fetchAdd → s.takeExpected n q p = s.takeAtomic n q p) := by
  have hfits : (p.first == q.rx.isSome || (!p.first && (q.rx.map (·.op)) != some p.op)) = false := by
    rw [hfirst]
    cases hx : q.rx with
    | none => rfl
    | some m =>
      rw [hx] at hrx
      simpa using hrx
  refine ⟨fun hop => ?_, fun hop => ?_, fun hop => ?_, fun hop => ?_⟩ <;>
  · unfold State.takeExpected
    rw [hfits, hfields, hop]
    rfl

/-- The k-th response of a READ. -/
def State.readResponse (s : State) (q : Qp) (psn va len k : Nat) : Sent :=
  .roceResponse q.dest ((psn + k) % 2 ^ 24) (s.physRd (va + k * pmtuBytes q) (min (pmtuBytes q) (len - k * pmtuBytes q)))

/-- The responses of a READ leave memory and the queue pairs alone. -/
theorem State.answerRead_open {s : State} (h : s.portsOpen) {q : Qp} (hq : s.prioPaused q.port q.prio = false) (psn va len : Nat) :
    s.answerRead q psn va len = s.andSent ((List.range (max 1 (ceilDiv len (pmtuBytes q)))).map (s.readResponse q psn va len)) := by
  have hfold : ∀ (l : List Nat) (x : List Sent),
      l.foldl (fun t k => t.egressTo q (t.readResponse q psn va len k)) { s with sent := x } = { s with sent := x ++ l.map (s.readResponse q psn va len) } := by
    intro l
    induction l with
    | nil => intro x; rw [List.map_nil, List.append_nil]; rfl
    | cons k l ih =>
      intro x
      rw [List.foldl_cons, State.egressTo_open (s := { s with sent := x }) h hq rfl rfl]
      dsimp only
      rw [ih, List.map_cons, List.append_assoc, List.singleton_append]
      rfl
  exact hfold _ s.sent

theorem State.markBobbins_unmarked {s : State} {key addr len qpn psn : Nat} (h : bit (s.mrAccess (key / 256)) 4 = false) :
    s.markBobbins key addr len qpn psn = s := by
  unfold State.markBobbins
  dsimp only
  rw [h, if_pos (by simp)]

/-- A request of a queue pair whose context is at hand, with no congestion told. -/
theorem State.receive_request {s : State} {p : RocePkt} (hat : s.atHand p.qpn) (hwhole : p.whole = true) (hqpn : p.qpn ≠ 1) :
    exec (.roceRequest p) s = .next (s.live (((s.touchCtx p.qpn).takeRequest p.qpn p).countCache)) := by
  have henable := hat.1
  have hrun : exec (.roceRequest p) s = .next (s.live (
    if !s.flag F.RDT_CTRL_ENABLE then s
    else if !p.whole then s.inc (F.ETH_DROPS_ICRC (p.port % 16))
    else if p.qpn = 1 then s.send (.cmPacket p.data)
    else s.receivePacket (.request p))) := rfl
  rw [hrun, henable, hwhole, if_neg (by decide), if_neg (by decide), if_neg hqpn, State.receivePacket_atHand (p := .request p) hat]
  rfl

theorem State.takeRequest_eq {s : State} {n : Nat} {p : RocePkt} {q : Qp} (hecn : p.ecn = false) (hq : s.qp? n = some q) :
    s.takeRequest n p =
      (if psnBehind q.rqPsn p.psn = 0 then s.takeExpected n q p
       else if psnBehind q.rqPsn p.psn ≤ 2 ^ 23 then s.takeDuplicate n q p (psnBehind q.rqPsn p.psn)
       else if q.nakSent then s
       else (s.setQp n { q with nakSent := true }).egressTo q (.roceNak q.dest q.rqPsn .sequence)) := by
  unfold State.takeRequest
  rw [hecn]
  dsimp only
  rw [if_neg (by decide), hq]

/-- A WRITE of one packet within its region is written and acknowledged. -/
theorem State.takeWrite_whole {s : State} (h : s.portsOpen) {n : Nat} {q : Qp} {p : RocePkt} (hq : s.prioPaused q.port q.prio = false) (hfirst : p.first = true)
    (hlast : p.last = true) (himm : p.imm = none) (hrx : q.rx = none) (hack : p.ackReq = true) (hmr : s.mrAllows q.cls q.tenant p.rkey p.va p.len 2 = true)
    (hlen : p.data.length = p.len) (hmark : bit ((s.physWr p.va p.data).mrAccess (p.rkey / 256)) 4 = false) :
    s.takeWrite n q p = ((s.physWr p.va p.data).setQp n { q with rqPsn := (p.psn + 1) % 2 ^ 24, nakSent := false, unacked := 0, ackedPsn := p.psn }).andSent
      [Sent.roceAck q.dest p.psn] := by
  have hself : { q with rx := none } = q := by rw [← hrx]
  have hpaused : (s.physWr p.va p.data).prioPaused q.port q.prio = false := by
    rw [State.prioPaused, (s.physFrame_physWr p.va p.data).units]
    exact hq
  have hopen := State.portsOpen_physWr h p.va p.data
  unfold State.takeWrite
  dsimp only
  rw [if_pos hfirst]
  dsimp only
  rw [hfirst, hmr, hlast, himm, hlen, hack]
  generalize s.physWr p.va p.data = w at hmark hpaused hopen ⊢
  rw [State.markBobbins_unmarked hmark]
  dsimp only
  rw [if_neg (by decide), if_neg (by simp), if_neg (by simp), if_neg (by decide), hself]
  exact State.accepted_now hopen hpaused p.psn

/-- A FETCH ADD adds in memory and answers the old value. -/
theorem State.takeAtomic_add {s : State} (h : s.portsOpen) {n : Nat} {q : Qp} {p : RocePkt} (hq : s.prioPaused q.port q.prio = false) (hop : p.op = .fetchAdd)
    (hva : p.va % 8 = 0) (hmr : s.mrAllows q.cls q.tenant p.rkey p.va 8 3 = true) :
    s.takeAtomic n q p = ((s.physWrN p.va 8 ((s.physRdN p.va 8 + p.swap) % 2 ^ 64)).setQp n { q with
        rqPsn := (p.psn + 1) % 2 ^ 24, nakSent := false, unacked := 0, ackedPsn := p.psn,
        atomics := (q.atomics ++ [(p.psn, s.physRdN p.va 8)]).drop (q.atomics.length + 1 - 16) }).andSent
      [Sent.roceResponse q.dest p.psn (leBytes 8 (s.physRdN p.va 8))] := by
  have hpaused : ∀ v, (s.physWrN p.va 8 v).prioPaused q.port q.prio = false := fun v => by
    rw [State.prioPaused, State.physWrN, (s.physFrame_physWr p.va (leBytes 8 v)).units]
    exact hq
  have hopen : ∀ v, (s.physWrN p.va 8 v).portsOpen := fun v => State.portsOpen_physWr h p.va (leBytes 8 v)
  unfold State.takeAtomic
  rw [if_neg (not_not_intro hva), hmr, if_neg (by decide), hop]
  dsimp only
  generalize s.physRdN p.va 8 = old
  have hp := hpaused ((old + p.swap) % 2 ^ 64)
  have ho := hopen ((old + p.swap) % 2 ^ 64)
  generalize s.physWrN p.va 8 ((old + p.swap) % 2 ^ 64) = w at hp ho ⊢
  exact State.egressTo_open (s := w.setQp n _) ho hp rfl rfl

theorem State.park_first {s : State} {p : RdtPkt} (hcache : s.rdt.cache = []) (hparked : s.rdt.parked = []) (hwriting : s.rdt.writing = [])
    (hfetching : s.rdt.fetching = []) :
    s.park p = (s.modRdt fun r => { r with parked := [p], fetching := [(pktQpn p, none)] }).countCache := by
  have hfirst : (s.modRdt fun r => { r with parked := r.parked ++ [p] }) = s.modRdt fun r => { r with parked := [p] } := by
    unfold State.modRdt
    dsimp only
    rw [hparked, List.nil_append]
  unfold State.park
  dsimp only
  rw [if_neg (by simp [hparked]), hfirst, State.modRdt_rdt]
  dsimp only
  rw [hcache, hwriting, hfetching, if_neg (by simp), State.fetchCtx, State.modRdt_rdt]
  dsimp only
  rw [hcache, hfetching]
  unfold State.modRdt
  dsimp only
  rw [hfetching]
  rfl

/-- What a queue pair's packet leaves of a state that runs beside another. -/
theorem State.countCache_beside {s v : State} (h : s.Beside v) (n : Nat) (q : Qp) (l : List Sent) :
    ((v.setQp n q).andSent l).countCache =
      { s with cells := ((v.setQp n q).andSent l).countCache.cells, rdt := { v.rdt with qps := v.rdt.qps.put n q }, sent := s.sent ++ l } := by
  have hunits := h.units
  rw [State.countCache_spec _ |>.1]
  generalize ((v.setQp n q).andSent l).countCache.cells = c
  unfold State.andSent State.setQp State.modRdt
  dsimp only
  generalize v.rdt = r at hunits ⊢
  rw [hunits]

/-- Where a region's entry lies does not depend on what is written or cached. -/
theorem State.mrAccess_physWr_touchCtx (s : State) (n a : Nat) (d : Bytes) (i : Nat) : ((s.touchCtx n).physWr a d).mrAccess i = (s.physWr a d).mrAccess i := by
  have hbeside := (s.beside_modRdt fun r => { r with cache := n :: r.cache.filter (· != n) }).physWr a d
  have hfld : ∀ g ∈ [F.RDT_MR_BASE_LO_BASE_LO, F.RDT_MR_BASE_HI_BASE_HI], ((s.touchCtx n).physWr a d).fld g = (s.physWr a d).fld g := fun g hg => by
    have hg' : g.blk ≠ 0x18 ∧ g.key ≠ F.SCC_ISR_SPAD_RANGE.key := (by decide : ∀ g ∈ [F.RDT_MR_BASE_LO_BASE_LO, F.RDT_MR_BASE_HI_BASE_HI],
      g.blk ≠ 0x18 ∧ g.key ≠ F.SCC_ISR_SPAD_RANGE.key) g hg
    rw [((s.touchCtx n).physFrame_physWr a d).fld g hg'.1 hg'.2, (s.physFrame_physWr a d).fld g hg'.1 hg'.2]
    rfl
  have haddr : ((s.touchCtx n).physWr a d).mrAddr i = (s.physWr a d).mrAddr i := by
    rw [State.mrAddr, State.base, hfld _ (by decide), hfld _ (by decide)]
    rfl
  rw [State.mrAccess, haddr]
  exact State.rdN_of_dram hbeside.dram _ _

/-- A write into memory for a queue pair whose context is at hand, its queue pair and its answer. -/
theorem State.physWr_answered {s : State} (hon : s.pins.powered = true) (n : Nat) (a : Nat) (d : Bytes) (q : Qp) (l : List Sent) :
    let w := s.physWr a d
    let t := ((((s.touchCtx n).physWr a d).setQp n q).andSent l).countCache
    Host.Outcome.next (s.live t) = (Host.Outcome.next t : Result) ∧ t.sent = w.sent ++ l ∧
      t = { w with cells := t.cells, rdt := { (s.touchCtx n).rdt with qps := s.rdt.qps.put n q }, sent := t.sent } := by
  have hbeside := (s.beside_modRdt fun r => { r with cache := n :: r.cache.filter (· != n) }).physWr a d
  have hrdt : ((s.touchCtx n).physWr a d).rdt = (s.touchCtx n).rdt := by rw [((s.touchCtx n).physFrame_physWr a d).units]
  have hpins : ((s.touchCtx n).physWr a d).pins = s.pins := ((s.touchCtx n).physFrame_physWr a d).pins
  change (s.physWr a d).Beside ((s.touchCtx n).physWr a d) at hbeside
  dsimp only
  generalize s.physWr a d = w at hbeside
  generalize (s.touchCtx n).physWr a d = v at hbeside hrdt hpins
  have hspec := State.countCache_beside hbeside n q l
  rw [hrdt] at hspec
  have hsent : v.sent = w.sent := by rw [hbeside.units]
  refine ⟨State.next_live_eq hon hpins, ?_, ?_⟩
  · exact congrArg (· ++ l) hsent
  · have hs : ((v.setQp n q).andSent l).countCache.sent = w.sent ++ l := congrArg (· ++ l) hsent
    rw [hs]
    exact hspec

/-- Settles O31: a request packet is dropped, handed on, taken, answered again, refused or parked as its sections say, with
nothing else changed. -/
theorem requestPacketsAreTaken : Obligations.RequestPacketsAreTaken := by
  unfold Obligations.RequestPacketsAreTaken
  have hrun : ∀ (p : RocePkt) (s : State), exec (.roceRequest p) s = .next (s.live (
    if !s.flag F.RDT_CTRL_ENABLE then s
    else if !p.whole then s.inc (F.ETH_DROPS_ICRC (p.port % 16))
    else if p.qpn = 1 then s.send (.cmPacket p.data)
    else s.receivePacket (.request p))) := fun _ _ => rfl
  refine ⟨fun p s hon henable hwhole hqpn => ?_, fun p s hon henable hwhole => ?_, fun p s hon henable hwhole hqpn hconn => ?_,
    fun p q s hon hat hopen hpaused hwhole hqpn hecn hq hpsn hop hfields hfirst hrx hrecv hack => ?_,
    fun p q s hon hat hopen hpaused hwhole hqpn hecn hq hpsn hop hfields hfirst hlast himm hrx hack hmr hlen hmark => ?_,
    fun p q s hon hat hopen hpaused hwhole hqpn hecn hq hpsn hop hfields hfirst hrx hmr => ?_,
    fun p q s hon hat hopen hpaused hwhole hqpn hecn hq hpsn hop hfields hfirst hrx hva hmr => ?_,
    fun p q s hon hat hopen hpaused hwhole hqpn hecn hq hpsn => ?_,
    fun p q s hon hat hopen hpaused hwhole hqpn hecn hq hpsn hnear hop => ?_,
    fun p s hon henable hwhole hqpn hconn hcache hparked hwriting hfetching => ?_⟩
  · refine ⟨_, ?_, rfl⟩
    rw [hrun, henable, hwhole, if_neg (by decide), if_neg (by decide), if_pos hqpn, State.send]
    rw [if_neg (by simp [Sent.external, State.shut, Sent.onPorts, Sent.onEfmo])]
    exact State.next_live_eq hon rfl
  · refine ⟨s.inc (F.ETH_DROPS_ICRC (p.port % 16)), ?_, rfl, State.fld_inc_same _ _ _⟩
    rw [hrun, henable, hwhole, if_neg (by decide), if_pos (by decide)]
    exact State.next_live_eq hon rfl
  · refine ⟨s.inc F.RDT_DROPS_NO_QP, ?_, rfl, State.fld_inc_same _ _ _⟩
    have hconn' : s.qpConnected (pktQpn (.request p)) = false := hconn
    rw [hrun, henable, hwhole, if_neg (by decide), if_neg (by decide), if_neg hqpn, State.receivePacket, henable, hconn', if_neg (by decide), if_pos (by decide)]
    exact State.next_live_eq hon rfl
  · have htake : (s.touchCtx p.qpn).takeRequest p.qpn p = ((s.touchCtx p.qpn).setQp p.qpn
        { q with rqPsn := (p.psn + 1) % 2 ^ 24, nakSent := false, unacked := 0, ackedPsn := p.psn }).andSent [Sent.roceAck q.dest p.psn] := by
      rw [State.takeRequest_eq (s := s.touchCtx p.qpn) hecn hq, if_pos hpsn, (State.takeExpected_of_op hfields hfirst (by rw [hop]; exact hrx)).1 hop, State.takeSend, hrecv,
        if_pos (by decide), hack]
      exact State.accepted_now (s := s.touchCtx p.qpn) hopen hpaused p.psn
    refine ⟨((s.touchCtx p.qpn).takeRequest p.qpn p).countCache, ?_, ?_, ?_, ?_⟩
    · rw [State.receive_request hat hwhole hqpn, htake]
      exact State.next_live_eq hon rfl
    · rw [htake]
      exact State.qp?_setQp (s.touchCtx p.qpn) _ _
    · rw [htake]
      rfl
    · rw [htake]
      exact State.countCache_beside (s.beside_modRdt _) _ _ _
  · have htake : (s.touchCtx p.qpn).takeRequest p.qpn p = (((s.touchCtx p.qpn).physWr p.va p.data).setQp p.qpn
        { q with rqPsn := (p.psn + 1) % 2 ^ 24, nakSent := false, unacked := 0, ackedPsn := p.psn }).andSent [Sent.roceAck q.dest p.psn] := by
      rw [State.takeRequest_eq (s := s.touchCtx p.qpn) hecn hq, if_pos hpsn, (State.takeExpected_of_op hfields (by rw [hfirst, hrx]; rfl) (by rw [hrx]; rfl)).2.1 hop]
      exact State.takeWrite_whole (s := s.touchCtx p.qpn) hopen hpaused hfirst hlast himm hrx hack hmr hlen ((s.mrAccess_physWr_touchCtx _ _ _ _).symm ▸ hmark)
    obtain ⟨hlive, hsent, hspec⟩ := State.physWr_answered hon p.qpn p.va p.data
      { q with rqPsn := (p.psn + 1) % 2 ^ 24, nakSent := false, unacked := 0, ackedPsn := p.psn } [Sent.roceAck q.dest p.psn]
    refine ⟨_, ?_, hsent, hspec⟩
    rw [State.receive_request hat hwhole hqpn, htake]
    exact hlive
  · have htake : (s.touchCtx p.qpn).takeRequest p.qpn p = ((s.touchCtx p.qpn).setQp p.qpn
        { q with rqPsn := ((p.psn + max 1 (ceilDiv p.len (pmtuBytes q)) - 1) % 2 ^ 24 + 1) % 2 ^ 24, nakSent := false, unacked := 0,
                 ackedPsn := (p.psn + max 1 (ceilDiv p.len (pmtuBytes q)) - 1) % 2 ^ 24 }).andSent
        ((List.range (max 1 (ceilDiv p.len (pmtuBytes q)))).map (s.readResponse q p.psn p.va p.len)) := by
      have hmr' : (s.touchCtx p.qpn).mrAllows q.cls q.tenant p.rkey p.va p.len 1 = true := hmr
      rw [State.takeRequest_eq (s := s.touchCtx p.qpn) hecn hq, if_pos hpsn, (State.takeExpected_of_op hfields (by rw [hfirst, hrx]; rfl) (by rw [hrx]; rfl)).2.2.1 hop,
        State.takeReadReq, hmr', if_neg (by decide)]
      exact State.answerRead_open (s := (s.touchCtx p.qpn).setQp p.qpn _) hopen hpaused p.psn p.va p.len
    refine ⟨((s.touchCtx p.qpn).takeRequest p.qpn p).countCache, ?_, ?_, ?_⟩
    · rw [State.receive_request hat hwhole hqpn, htake]
      exact State.next_live_eq hon rfl
    · rw [htake]
      rfl
    · rw [htake]
      exact State.countCache_beside (s.beside_modRdt _) _ _ _
  · have htake : (s.touchCtx p.qpn).takeRequest p.qpn p = (((s.touchCtx p.qpn).physWrN p.va 8 ((s.physRdN p.va 8 + p.swap) % 2 ^ 64)).setQp p.qpn { q with
          rqPsn := (p.psn + 1) % 2 ^ 24, nakSent := false, unacked := 0, ackedPsn := p.psn,
          atomics := (q.atomics ++ [(p.psn, s.physRdN p.va 8)]).drop (q.atomics.length + 1 - 16) }).andSent
        [Sent.roceResponse q.dest p.psn (leBytes 8 (s.physRdN p.va 8))] := by
      rw [State.takeRequest_eq (s := s.touchCtx p.qpn) hecn hq, if_pos hpsn, (State.takeExpected_of_op hfields (by rw [hfirst, hrx]; rfl) (by rw [hrx]; rfl)).2.2.2 hop]
      exact State.takeAtomic_add (s := s.touchCtx p.qpn) hopen hpaused hop hva hmr
    obtain ⟨hlive, hsent, hspec⟩ := State.physWr_answered hon p.qpn p.va (leBytes 8 ((s.physRdN p.va 8 + p.swap) % 2 ^ 64))
      { q with rqPsn := (p.psn + 1) % 2 ^ 24, nakSent := false, unacked := 0, ackedPsn := p.psn,
               atomics := (q.atomics ++ [(p.psn, s.physRdN p.va 8)]).drop (q.atomics.length + 1 - 16) }
      [Sent.roceResponse q.dest p.psn (leBytes 8 (s.physRdN p.va 8))]
    refine ⟨_, ?_, hsent, hspec⟩
    rw [State.receive_request hat hwhole hqpn, htake]
    exact hlive
  · have hfar : (s.touchCtx p.qpn).takeRequest p.qpn p = if q.nakSent then s.touchCtx p.qpn
        else ((s.touchCtx p.qpn).setQp p.qpn { q with nakSent := true }).andSent [Sent.roceNak q.dest q.rqPsn .sequence] := by
      rw [State.takeRequest_eq (s := s.touchCtx p.qpn) hecn hq, if_neg (by omega), if_neg (by omega)]
      refine congrArg (ite _ _) ?_
      exact State.egressTo_open (s := (s.touchCtx p.qpn).setQp p.qpn { q with nakSent := true }) hopen hpaused rfl rfl
    refine ⟨((s.touchCtx p.qpn).takeRequest p.qpn p).countCache, ?_, fun hnak => ?_, fun hnak => ?_, ?_⟩
    · rw [State.receive_request hat hwhole hqpn, hfar]
      refine State.next_live_eq hon ?_
      split <;> rfl
    · rw [hfar, hnak]
      rfl
    · rw [hfar, hnak]
      rfl
    · rw [hfar]
      cases hnak : q.nakSent
      · exact State.countCache_beside (s.beside_modRdt _) _ _ _
      · rfl
  · have hdup : (s.touchCtx p.qpn).takeRequest p.qpn p = ((s.touchCtx p.qpn).andSent [Sent.roceAck q.dest p.psn]).inc F.RDT_DUP_EVENTS_DUP_ACKED := by
      rw [State.takeRequest_eq (s := s.touchCtx p.qpn) hecn hq, if_neg hpsn, if_pos (by omega)]
      have hinside : (s.touchCtx p.qpn).takeDuplicate p.qpn q p (psnBehind q.rqPsn p.psn) = ((s.touchCtx p.qpn).ackAgain q p.psn).inc F.RDT_DUP_EVENTS_DUP_ACKED := by
        unfold State.takeDuplicate
        dsimp only
        rw [decide_eq_true hnear]
        rcases hop with hop | hop <;> rw [hop] <;> rfl
      rw [hinside, State.ackAgain, State.egressTo_open (s := s.touchCtx p.qpn) hopen hpaused rfl rfl]
      rfl
    refine ⟨((s.touchCtx p.qpn).takeRequest p.qpn p).countCache, ?_, ?_, ?_, ?_⟩
    · rw [State.receive_request hat hwhole hqpn, hdup]
      exact State.next_live_eq hon rfl
    · rw [hdup]
      rfl
    · rw [(State.countCache_spec _).2.1 _ (by decide), hdup]
      exact State.fld_inc_same _ _ _
    · rw [hdup]
      rfl
  · have hpark := State.park_first (p := .request p) hcache hparked hwriting hfetching
    refine ⟨s.park (.request p), ?_, ?_, ?_, ?_⟩
    · rw [hrun, henable, hwhole, if_neg (by decide), if_neg (by decide), if_neg hqpn, State.receivePacket, henable, show s.qpConnected (pktQpn (.request p)) = true from hconn,
        if_neg (by decide), if_neg (by decide), hcache, if_neg (by simp), hpark]
      exact State.next_live_eq hon rfl
    · rw [hpark]
      rfl
    · rw [hpark, (State.countCache_spec _).2.2.2]
      rfl
    · rw [hpark]
      rfl

end Sys2Proof.Machine
end

section
/-! SUPPORT. What changes of the map leave of the converter and of hold-up (R168-R178, R394). -/
namespace Sys2Proof.Machine

/-- t keeps of s the control engine's state and registers, the pins, and the hold-up of Rows and modules. -/
structure State.RideKept (s t : State) : Prop where
  ctl   : t.ctl = s.ctl
  pins  : t.pins = s.pins
  rows  : t.rows.holdup = s.rows.holdup
  media : t.media.holdup = s.media.holdup
  fld   : ∀ g : Fld, g.blk = 0x04 → t.fld g = s.fld g

section
variable {s t u : State}

theorem State.RideKept.refl (s : State) : s.RideKept s := ⟨rfl, rfl, rfl, rfl, fun _ _ => rfl⟩

theorem State.RideKept.trans (h : s.RideKept t) (k : t.RideKept u) : s.RideKept u :=
  ⟨k.ctl.trans h.ctl, k.pins.trans h.pins, k.rows.trans h.rows, k.media.trans h.media, fun g hg => (k.fld g hg).trans (h.fld g hg)⟩

/-- The later step first: its start is then known. -/
theorem State.RideKept.after (k : t.RideKept u) (h : s.RideKept t) : s.RideKept u := h.trans k

theorem State.RideKept.foldl {α : Type} {f : State → α → State} {l : List α} (h : ∀ (t : State), ∀ a ∈ l, t.RideKept (f t a)) (s : State) : s.RideKept (l.foldl f s) := by
  induction l generalizing s with
  | nil => exact .refl s
  | cons a l ih => exact (h s a List.mem_cons_self).trans (ih (fun t b hb => h t b (List.mem_cons_of_mem _ hb)) _)

/-- A state of the same registers. -/
theorem State.RideKept.of_units (hcells : t.cells = s.cells) (hctl : t.ctl = s.ctl) (hpins : t.pins = s.pins) (hrows : t.rows.holdup = s.rows.holdup)
    (hmedia : t.media.holdup = s.media.holdup) : s.RideKept t := ⟨hctl, hpins, hrows, hmedia, fun _ _ => State.fld_of_cells hcells _⟩

theorem State.rideKept_setFld (s : State) {f : Fld} (v : Nat) (hf : f.blk ≠ 0x04) : s.RideKept (s.setFld f v) :=
  ⟨rfl, rfl, rfl, rfl, fun _ hg => s.fld_setFld_ne v (Fld.key_ne_of_blk fun h => hf (h.symm.trans hg))⟩

theorem State.rideKept_inc (s : State) {f : Fld} (n : Nat) (hf : f.blk ≠ 0x04) : s.RideKept (s.inc f n) := s.rideKept_setFld _ hf

theorem State.rideKept_modMedia (s : State) {f : MediaSt → MediaSt} (hf : (f s.media).holdup = s.media.holdup) : s.RideKept (s.modMedia f) :=
  .of_units rfl rfl rfl rfl hf

theorem State.rideKept_setPair (s : State) {lo hi : Fld} (v : Nat) (hlo : lo.blk ≠ 0x04) (hhi : hi.blk ≠ 0x04) : s.RideKept (s.setPair lo hi v) :=
  (s.rideKept_setFld _ hlo).trans (State.rideKept_setFld _ _ hhi)

theorem State.SameUnits.rideKept (h : s.SameUnits t) (hfld : ∀ g : Fld, g.blk = 0x04 → t.fld g = s.fld g) : s.RideKept t where
  ctl := by rw [h]
  pins := by rw [h]
  rows := by rw [h]
  media := by rw [h]
  fld := hfld

theorem State.rideKept_raise (s : State) {f : Fld} (hf : f.blk ≠ 0x04) : s.RideKept (s.raise f) :=
  (s.sameUnits_raise f).rideKept fun _ hg => s.fld_raise_ne (Fld.key_ne_of_blk fun h => hf (h.symm.trans hg)) (by rw [hg]; decide)

theorem State.rideKept_logEvent (s : State) (code block severity detail : Nat) : s.RideKept (s.logEvent code block severity detail) :=
  ⟨rfl, rfl, rfl, rfl, fun _ hg => s.fld_logEvent _ _ _ _ (by rw [hg]; decide)⟩

theorem State.rideKept_errDefer (s : State) (b : Nat) : s.RideKept (s.errDefer b) := (s.rideKept_setFld _ (by decide)).trans (State.rideKept_logEvent _ _ _ _ _)

end

/-! ### The map-page cache -/

theorem State.rideKept_recountMpc (s : State) : s.RideKept s.recountMpc := (s.rideKept_setFld _ (by decide)).trans (State.rideKept_setFld _ _ (by decide))

theorem State.rideKept_trimPages (s : State) : s.RideKept s.trimPages := by
  unfold State.trimPages State.replacePage
  split
  · split
    · split
      · exact .after (State.rideKept_recountMpc _) (.of_units rfl rfl rfl rfl rfl)
      · exact .after (State.rideKept_recountMpc _) (.of_units rfl rfl rfl rfl rfl)
    · exact .refl s
  · exact .refl s

theorem State.rideKept_putPage (s : State) (p : MapPage) : s.RideKept (s.putPage p) :=
  .after (State.rideKept_trimPages _) (.after (State.rideKept_recountMpc _) (.of_units rfl rfl rfl rfl rfl))

theorem State.rideKept_setTreeRoot (s : State) (i tree vol p : Nat) : s.RideKept (s.setTreeRoot i tree vol p) := by
  unfold State.setTreeRoot
  split
  · exact .of_units rfl rfl rfl rfl rfl
  · exact .of_units rfl rfl rfl rfl rfl

/-! ### Walks and fetches -/

theorem State.rideKept_descendTo (i tree vol idx jseq stop lvl : Nat) {set : State → Nat → State} (hset : ∀ (t : State) (v : Nat), t.RideKept (set t v)) (ptr : Nat) (s : State) :
    s.RideKept (State.descendTo i tree vol idx jseq stop lvl set ptr s).1 := by
  have hnew : ∀ (p : MapPage) (ptr v : Nat) (s : State) (set : State → Nat → State), (∀ (t : State) (v : Nat), t.RideKept (set t v)) →
      s.RideKept (if ptrKind ptr = 0 then (set s v).putPage p else s) := fun p ptr v s set hset => by
    split
    · exact (hset s v).trans (State.rideKept_putPage _ _)
    · exact .refl s
  induction lvl generalizing set ptr s with
  | zero =>
    unfold State.descendTo
    dsimp only
    generalize (if tree = 1 then s.volGen vol else 0) = gen
    have h := hnew (newPage i tree 0 (identOf tree vol idx 0) jseq) ptr (mkPtr 2 gen 0) s set hset
    generalize (if ptrKind ptr = 0 then (set s (mkPtr 2 gen 0)).putPage _ else s) = s1 at h ⊢
    generalize (if ptrKind ptr = 0 then mkPtr 2 gen 0 else ptr) = ptr1
    split
    · exact .refl s
    · split
      · exact .refl s
      · split <;> exact h
  | succ l ih =>
    unfold State.descendTo
    dsimp only
    generalize (if tree = 1 then s.volGen vol else 0) = gen
    have h := hnew (newPage i tree (l + 1) (identOf tree vol idx (l + 1)) jseq) ptr (mkPtr 2 gen 0) s set hset
    generalize (if ptrKind ptr = 0 then (set s (mkPtr 2 gen 0)).putPage _ else s) = s1 at h ⊢
    generalize (if ptrKind ptr = 0 then mkPtr 2 gen 0 else ptr) = ptr1
    split
    · exact .refl s
    · split
      · exact .refl s
      · split
        · exact h
        · split
          · exact h
          · exact h.trans (ih (fun t v => t.rideKept_putPage _) _ _)

theorem State.rideKept_openLeaf (s : State) (i tree vol idx jseq : Nat) : s.RideKept (s.openLeaf i tree vol idx jseq).1 :=
  State.rideKept_descendTo _ _ _ _ _ _ _ (fun t _ => t.rideKept_setTreeRoot _ _ _ _) _ _

theorem State.rideKept_readCodeword (s : State) (budget loc : Nat) (p : Purpose) : s.RideKept (s.readCodeword budget loc p) := by
  have hqueue : ∀ (t : State) (mode l : Nat) (q : Purpose), t.RideKept (t.queueRead budget mode l q) := fun t mode l q => .of_units rfl rfl rfl rfl rfl
  have hlost : s.RideKept (s.unrecoverable p) := .after (State.rideKept_modMedia _ rfl) (.after (State.rideKept_raise _ (by decide)) (s.rideKept_inc 1 (by decide)))
  have hrecon : ∀ sb stripe c, s.RideKept (s.startRecon sb stripe c budget p) := fun sb stripe c => by
    unfold State.startRecon
    dsimp only
    split
    · exact hlost
    · exact .after (.foldl (fun t a _ => hqueue t _ _ _) _) (.of_units rfl rfl rfl rfl rfl)
  unfold State.readCodeword
  split
  · exact hqueue _ _ _ _
  · split
    · exact hrecon _ _ _
    · exact hqueue _ _ _ _

theorem State.rideKept_waitPage (s : State) (i tree level ident loc : Nat) (ops : List PageOp) (asks : List Asker) :
    s.RideKept (s.waitPage i tree level ident loc ops asks) := by
  unfold State.waitPage State.waitFetch State.startFetch
  dsimp only
  split
  · exact .of_units rfl rfl rfl rfl rfl
  · split
    · exact .of_units rfl rfl rfl rfl rfl
    · split
      · exact .after (State.rideKept_readCodeword _ _ _ _) (.of_units rfl rfl rfl rfl rfl)
      · exact .of_units rfl rfl rfl rfl rfl

/-! ### Installs -/

theorem State.rideKept_holdSplit (s : State) (vol level page : Nat) (op : PageOp) : s.RideKept (s.holdSplit vol level page op) := by
  unfold State.holdSplit
  dsimp only
  split
  · split
    · exact .of_units rfl rfl rfl rfl rfl
    · exact .of_units rfl rfl rfl rfl rfl
  · split
    · exact .of_units rfl rfl rfl rfl rfl
    · exact .after (State.rideKept_raise _ (by decide)) (.after (State.rideKept_setFld _ _ (by decide)) (.of_units rfl rfl rfl rfl rfl))

theorem State.rideKept_mapErr (s : State) {f : Fld} (hf : f.blk ≠ 0x04) : s.RideKept (((s.inc f).raise F.FTL_ISR_MAP_ERR).errDefer 0x0C) :=
  ((s.rideKept_setFld _ hf).trans (State.rideKept_raise _ (by decide))).trans (State.rideKept_errDefer _ _)

theorem State.rideKept_addMapped (s : State) (v : Nat) (d : Int) : s.RideKept (s.addMapped v d) := by
  have hblk : ∀ i, i < 2 → (F.FTL_MAPPED_LO_LEVEL i).blk ≠ 0x04 ∧ (F.FTL_MAPPED_HI_LEVEL i).blk ≠ 0x04 := by decide
  obtain ⟨hlo, hhi⟩ := hblk (s.volHome v) (Nat.mod_lt _ (by decide))
  exact .after (State.rideKept_setPair _ _ hlo hhi) (.of_units rfl rfl rfl rfl rfl)

theorem State.rideKept_writeLme (s : State) (p : MapPage) (vol lba lme jseq : Nat) : s.RideKept (s.writeLme p vol lba lme jseq) := by
  unfold State.writeLme
  dsimp only
  split
  · exact s.rideKept_mapErr (by decide)
  · generalize (if lmeKind lme = 3 then _ else _) = q
    have hput := s.rideKept_putPage q
    generalize s.putPage q = s1 at hput ⊢
    have hmapped : s.RideKept (if lmeKind (p.word (lba % 512)) % 2 = 0 ∧ lmeKind lme % 2 = 1 then s1.addMapped vol 1
        else if lmeKind (p.word (lba % 512)) % 2 = 1 ∧ lmeKind lme % 2 = 0 then s1.addMapped vol (-1) else s1) := by
      split
      · exact hput.trans (s1.rideKept_addMapped _ _)
      · split
        · exact hput.trans (s1.rideKept_addMapped _ _)
        · exact hput
    generalize (if lmeKind (p.word (lba % 512)) % 2 = 0 ∧ lmeKind lme % 2 = 1 then s1.addMapped vol 1
        else if lmeKind (p.word (lba % 512)) % 2 = 1 ∧ lmeKind lme % 2 = 0 then s1.addMapped vol (-1) else s1) = s2 at hmapped ⊢
    split
    · exact hmapped.trans (.of_units rfl rfl rfl rfl rfl)
    · exact hmapped

theorem State.rideKept_install (s : State) (vol lba lme seq : Nat) (jseq? : Option Nat) : s.RideKept (s.install vol lba lme seq jseq?) := by
  unfold State.install
  dsimp only
  have hopen := s.rideKept_openLeaf (s.volHome vol) 1 vol (lba / 512) (jseq?.getD (s.nextJseq (s.volHome vol)))
  generalize s.openLeaf (s.volHome vol) 1 vol (lba / 512) (jseq?.getD (s.nextJseq (s.volHome vol))) = r at hopen ⊢
  obtain ⟨s1, w⟩ := r
  dsimp only at hopen ⊢
  split
  · exact hopen.trans (s1.rideKept_writeLme _ _ _ _ _)
  · exact hopen.trans (s1.rideKept_waitPage _ _ _ _ _ _ _)
  · exact hopen.trans (s1.rideKept_holdSplit _ _ _ _)
  · exact hopen.trans (s1.rideKept_mapErr (by decide))
  · exact hopen

end Sys2Proof.Machine
end

section
/-! PROOF. Input loss and return, the steps of hold-up, VMIN and the removal of the head (R394-R397). -/
namespace Sys2Proof.Machine

/-! ### Confirmation (R394) -/

theorem State.rideKept_modCommit (s : State) (f : CommitSt → CommitSt) : s.RideKept (s.modCommit f) := .of_units rfl rfl rfl rfl rfl
theorem State.rideKept_modRows (s : State) {f : RowsSt → RowsSt} (hf : (f s.rows).holdup = s.rows.holdup) : s.RideKept (s.modRows f) := .of_units rfl rfl rfl hf rfl

theorem State.rideKept_dropStaged (s : State) (k : Nat) (g : Stg) : s.RideKept (s.dropStaged k g) := by
  unfold State.dropStaged
  dsimp only
  refine .after (State.rideKept_modCommit _ _) (.after (State.rideKept_modRows _ rfl) ?_)
  split
  · exact s.rideKept_install _ _ _ _ _
  · exact .refl s

theorem State.rideKept_dropThrough {s : State} (h : s.commit.own = []) : s.RideKept s.dropThrough := by
  unfold State.dropThrough
  dsimp only
  rw [h, List.filter_nil, List.foldl_nil]
  exact .after (State.rideKept_modCommit _ _) (.foldl (fun t _ _ => .foldl (fun u _ _ => u.rideKept_dropStaged _ _) t) s)

theorem State.rideKept_linkDown (s : State) {p : Nat} (hp : p < 16) : s.RideKept (s.linkDown p) := by
  have hblk : ∀ p < 16, (F.ETH_PORT_STATUS_UP p).blk ≠ 0x04 ∧ (F.ETH_PORT_STATUS_FEC_LOCK p).blk ≠ 0x04 ∧ (F.ETH_PORT_STATUS_AN_DONE p).blk ≠ 0x04 ∧
      (F.ETH_PORT_STATUS_SPEED p).blk ≠ 0x04 := by decide
  obtain ⟨hup, hfec, han, hspeed⟩ := hblk p hp
  have h := (((s.rideKept_setFld 0 hup).trans (State.rideKept_setFld _ 0 hfec)).trans (State.rideKept_setFld _ 0 han)).trans (State.rideKept_setFld _ 0 hspeed)
  unfold State.linkDown
  dsimp only
  split
  · exact h.trans (State.rideKept_raise _ (by decide))
  · exact h

theorem State.rideKept_send (s : State) (m : Sent) : s.RideKept (s.send m) := by
  unfold State.send
  split <;> exact .of_units rfl rfl rfl rfl rfl

theorem State.rideKept_issueOp (s : State) (p : PendOp) : s.RideKept (s.issueOp p) := by
  unfold State.issueOp
  dsimp only
  exact .after (.foldl (fun t d _ => t.rideKept_send _) _) (.after (State.rideKept_send _ _) (.of_units rfl rfl rfl rfl rfl))

theorem State.rideKept_powerParts (s : State) (idle : Nat) : ({ s with pins := { s.pins with portsOn := false } } : State).RideKept (s.powerParts idle) := by
  unfold State.powerParts State.portsDown
  dsimp only
  refine .after (State.rideKept_raise _ (by decide)) (.after (State.rideKept_setFld _ _ (by decide)) (.after (State.rideKept_setFld _ _ (by decide))
    (.after (State.rideKept_setFld _ _ (by decide)) (.after (State.rideKept_setFld _ _ (by decide)) ?_))))
  exact .foldl (fun t p hp => t.rideKept_linkDown (List.mem_range.mp hp)) _

theorem State.rideKept_holdNotice (s : State) : s.RideKept s.holdNotice := .foldl (fun t _ _ => t.rideKept_issueOp _) s

/-- The converter holds up, the confirmation is raised and logged. -/
def State.confirmLogged (s : State) : State :=
  (((s.setMode 6).raise F.CTL_ISR_HU_CONFIRM).logEvent 5 0x04 0 (s.dirtyBytes / 4096)).setFld F.RPJ_CTRL_FREEZE 1

/-- What stands in a head whose hold-up has just been confirmed. -/
def State.confirmed (s : State) : State :=
  (s.confirmLogged.capTrigger 1).modHold fun h => { h with phase := 2, stopped := false, stamp := s.stamp, dirty := s.dirtyBytes }

/-- No re-pattern runs. -/
def State.repatEnded (s : State) : State := { s with repat := { s.repat with running := false } }

/-- The Rows hold nothing, and what waits for them waits as the flush. -/
def State.rowsToFlush (s : State) : State := ((s.repatEnded.modRows fun r => { r with retired := [] }).waitAsFlush).flagPrograms

theorem State.capTrigger_spec (s : State) (trig : Nat) : s.capTrigger trig = { s with ctl := { s.ctl with cap := (s.capTrigger trig).ctl.cap } } := by
  unfold State.capTrigger
  split
  · split <;> rfl
  · rfl

theorem State.confirmLogged_spec (s : State) : (s.setMode 6).SameUnits s.confirmLogged ∧ s.confirmLogged.mode = s.allowedMode 6 % 2 ^ F.CTL_STATUS_MODE.width ∧
    s.confirmLogged.fld F.CTL_ISR_HU_CONFIRM = 1 ∧ s.confirmLogged.headState = s.headState := by
  have hfld : ∀ g : Fld, g.blk ≠ 0x18 → s.confirmLogged.fld g = ((s.setMode 6).raise F.CTL_ISR_HU_CONFIRM).fld g := fun g hb => by
    rw [State.confirmLogged, State.fld_setFld_ne _ _ (Fld.key_ne_of_blk hb), State.fld_logEvent _ _ _ _ _ hb]
  have hsame : (s.setMode 6).SameUnits s.confirmLogged :=
    ((State.sameUnits_raise _ _).trans (State.logs_logEvent _ _ _ _ _).sameUnits).trans (State.sameUnits_setFld _ _ _)
  refine ⟨hsame, ?_, (hfld _ (by decide)).trans (State.fld_raise_same _ _ rfl (by decide)), ?_⟩
  · rw [State.mode, hfld _ (by decide), State.fld_raise_ne _ (by decide) (by decide)]
    exact State.fld_setFld_same _ _ _
  · rw [State.headState, hfld _ (by decide), State.fld_raise_ne _ (by decide) (by decide)]
    exact State.fld_setFld_ne _ _ (by decide)

theorem State.confirmed_spec (s : State) : s.confirmed.ctl.hold = { s.ctl.hold with phase := 2, stopped := false, stamp := s.stamp, dirty := s.dirtyBytes } ∧
    s.confirmed.cells = s.confirmLogged.cells ∧ s.confirmed.rows = s.rows ∧ s.confirmed.commit = s.commit ∧ s.confirmed.upd = s.upd := by
  obtain ⟨hsame, -⟩ := s.confirmLogged_spec
  unfold State.confirmed
  generalize s.confirmLogged = v at hsame ⊢
  rw [State.capTrigger_spec, hsame]
  exact ⟨rfl, rfl, rfl, rfl, rfl⟩

/-- What a confirmation does on a seated head once it is noted. -/
def State.confirmOn (v : State) (idle : Nat) : State :=
  let s2 := v.repatEnded.stepAbandon false
  let s3 := if s2.headState = stHandover then s2.setHead stPlaying else s2
  let s4 := s3.cancelStitches.takeRetired.waitAsFlush.flagPrograms
  let s5 := (s4.commit.own.filter fun e => e.st == .reserved || e.st == .filling).foldl (fun t e => t.abortEntry e.inst e.seq) s4
  (s5.dropThrough.powerParts idle).holdNotice

theorem State.stepAbandon_none {s : State} (suspend : Bool) (h : s.upd.step = none) : s.stepAbandon suspend = s := by
  unfold State.stepAbandon
  rw [h]

theorem State.takeRetired_none {s : State} (hrows : s.rows.stitches = []) (hretired : s.rows.retired = []) :
    s.cancelStitches.takeRetired = s.modRows fun r => { r with retired := [] } := by
  rw [State.cancelStitches, hrows, List.filter_nil, List.foldl_nil, State.takeRetired, hretired, List.foldl_nil]

/-- With nothing in the Rows and nothing being filled, nothing is cancelled or aborted. -/
theorem State.confirmOn_eq {v : State} (idle : Nat) (hplay : v.headState = stPlaying) (hrows : v.rows.stitches = []) (hretired : v.rows.retired = [])
    (hown : v.commit.own = []) (hupd : v.upd.step = none) : v.confirmOn idle = (v.rowsToFlush.dropThrough.powerParts idle).holdNotice := by
  have hplay' : v.repatEnded.headState = stPlaying := hplay
  have hflush : v.rowsToFlush.commit.own = [] := hown
  unfold State.confirmOn
  rw [State.stepAbandon_none (s := v.repatEnded) false hupd]
  dsimp only
  rw [hplay', if_neg (by decide), State.takeRetired_none (s := v.repatEnded) hrows hretired, ← State.rowsToFlush, hflush]
  rfl

/-- The confirmation of a ride in service. -/
theorem State.confirmHold_eq {s : State} (idle : Nat) (hseat : s.ctl.hold.unseated = false) (hbank : s.bankFailed = false) (hplay : s.headState = stPlaying) :
    s.confirmHold idle = s.confirmed.confirmOn idle := by
  have hnothing : (s.ctl.hold.unseated || s.bankFailed || !s.inService) = false := by
    rw [hseat, hbank, State.inService, hplay]
    rfl
  unfold State.confirmHold State.confirmOn State.confirmed State.confirmLogged State.repatEnded
  rw [hnothing, hseat]
  rfl

theorem State.execHoldupConfirm_spec {s : State} (idle : Nat) (hon : s.pins.powered = true) (hphase : s.ctl.hold.phase = 1) (hseat : s.ctl.hold.unseated = false)
    (hbank : s.bankFailed = false) (hplay : s.headState = stPlaying) (hrows : s.rows.stitches = []) (hretired : s.rows.retired = []) (hown : s.commit.own = [])
    (hupd : s.upd.step = none) : ∃ t, exec (.holdupConfirm idle) s = .next t ∧
      t.ctl.hold = { s.ctl.hold with phase := 2, stopped := false, stamp := s.stamp, dirty := s.dirtyBytes } ∧
      t.fld F.CTL_ISR_HU_CONFIRM = 1 ∧ (t.mode = if s.flag F.CTL_CTRL_ENABLE then 6 else 0) ∧ t.pins.portsOn = false ∧
      t.rows.holdup = true ∧ t.media.holdup = true := by
  have hrun : exec (.holdupConfirm idle) s = .next (s.live (s.confirmHold (idle % 16))) := by
    have h : exec (.holdupConfirm idle) s = .next (s.live (if s.ctl.hold.phase = 1 then s.confirmHold (idle % 16) else s)) := rfl
    rw [h, if_pos hphase]
  obtain ⟨hlog, hmode, hisr, hstate⟩ := s.confirmLogged_spec
  obtain ⟨hhold, hcells, hr, hc, hu⟩ := s.confirmed_spec
  rw [State.confirmHold_eq _ hseat hbank hplay] at hrun
  generalize s.confirmed = v at *
  rw [State.confirmOn_eq _ ((State.fld_of_cells hcells _).trans (hstate.trans hplay)) (by rw [hr, hrows]) (by rw [hr, hretired]) (by rw [hc, hown]) (by rw [hu, hupd])] at hrun
  have hdrop := State.rideKept_dropThrough (s := v.rowsToFlush) (hc ▸ hown)
  have hlast := (v.rowsToFlush.dropThrough.rideKept_powerParts (idle % 16)).trans (State.rideKept_holdNotice _)
  generalize v.rowsToFlush.dropThrough = w at hdrop hlast hrun
  generalize (w.powerParts (idle % 16)).holdNotice = y at hlast hrun
  have hfld : ∀ g : Fld, g.blk = 0x04 → y.fld g = v.fld g := fun g hg => (hlast.fld g hg).trans (hdrop.fld g hg)
  rw [State.live_on hon] at hrun
  refine ⟨_, hrun, ?_, ?_, ?_, ?_, ?_, ?_⟩
  · exact (congrArg CtlSt.hold (hlast.ctl.trans hdrop.ctl)).trans hhold
  · exact (hfld _ (by decide)).trans ((State.fld_of_cells hcells _).trans hisr)
  · refine (hfld _ (by decide)).trans ((State.fld_of_cells hcells _).trans (hmode.trans ?_))
    rw [State.allowedMode, hbank]
    cases s.flag F.CTL_CTRL_ENABLE <;> rfl
  · exact congrArg Pins.portsOn hlast.pins
  · exact hlast.rows.trans hdrop.rows
  · exact hlast.media.trans hdrop.media

/-! ### The own flush is done (R394) -/

theorem State.writeAnchor_units (s : State) (i : Nat) (holdup : Bytes) :
    (s.writeAnchor i holdup).ctl = s.ctl ∧ (s.writeAnchor i holdup).commit = s.commit ∧ (s.writeAnchor i holdup).rows = s.rows ∧ (s.writeAnchor i holdup).pins = s.pins := by
  unfold State.writeAnchor
  dsimp only
  generalize (if s.anchorFailed i (s.jnl i).anchorCur = true then _ else _) = cur
  split
  · exact ⟨rfl, rfl, rfl, rfl⟩
  · split
    · exact ⟨rfl, rfl, rfl, rfl⟩
    · split
      · exact ⟨rfl, rfl, rfl, rfl⟩
      · split <;> exact ⟨rfl, rfl, rfl, rfl⟩

theorem State.send_units (s : State) (m : Sent) : (s.send m).ctl = s.ctl ∧ (s.send m).commit = s.commit ∧ (s.send m).rows = s.rows ∧ (s.send m).pins = s.pins := by
  unfold State.send
  split <;> exact ⟨rfl, rfl, rfl, rfl⟩

theorem State.ownDone_units (s : State) : s.ownDone.ctl = { s.ctl with hold := { s.ctl.hold with phase := if s.owedCount = 0 then 4 else 3 } } ∧
    s.ownDone.commit = s.commit ∧ s.ownDone.rows = s.rows ∧ s.ownDone.pins = s.pins := by
  have hanchors := State.foldl_same (fun u : State => (u.ctl, u.commit, u.rows, u.pins))
    (f := fun t i => if t.holds i then t.writeAnchor i (s.holdRecord (if s.owedCount = 0 then 1 else 2) 0 s.owedCount) else t) (fun u i => by
      obtain ⟨hctl, hcommit, hrows, hpins⟩ := u.writeAnchor_units i (s.holdRecord (if s.owedCount = 0 then 1 else 2) 0 s.owedCount)
      split
      · rw [hctl, hcommit, hrows, hpins]
      · rfl) (List.range 2) s
  unfold State.ownDone
  dsimp only at hanchors ⊢
  generalize (List.range 2).foldl _ s = u at hanchors ⊢
  simp only [Prod.mk.injEq] at hanchors
  obtain ⟨hctl, hcommit, hrows, hpins⟩ := hanchors
  obtain ⟨hctl', hcommit', hrows', hpins'⟩ := u.send_units .efmoFlushed
  refine ⟨?_, hcommit'.trans hcommit, hrows'.trans hrows, hpins'.trans hpins⟩
  rw [State.modHold_ctl, hctl', hctl]

theorem State.execHoldupOwnDone_spec {s : State} (hon : s.pins.powered = true) (hflushed : s.ownFlushed = true) :
    ∃ t, exec .holdupOwnDone s = .next t ∧ t.ctl.hold = { s.ctl.hold with phase := if s.owedCount = 0 then 4 else 3 } ∧ t.commit = s.commit ∧ t.rows = s.rows := by
  have hrun : exec .holdupOwnDone s = .next (s.live s.ownDone) := congrArg (fun t => Host.Outcome.next (s.live t)) (if_pos hflushed)
  obtain ⟨hctl, hcommit, hrows, hpins⟩ := s.ownDone_units
  exact ⟨_, hrun.trans (State.next_live_eq hon hpins), congrArg CtlSt.hold hctl, hcommit, hrows⟩

/-! ### Input loss and return (R394, R397) -/

/-- What a change of the converter's swaps leaves. -/
theorem State.cancelSwaps_spec (s : State) : s.cancelSwaps.ctl.hold = s.ctl.hold ∧ s.cancelSwaps.pins = s.pins ∧ s.cancelSwaps.sent = s.sent ∧
    s.Keeps [F.CTL_STATUS_INPUT_GOOD, F.CTL_STATUS_MODE, F.CTL_ISR_RIDE] s.cancelSwaps := by
  have hunits : ∀ (t : State) (n : Nat), (fun u : State => (u.ctl.hold, u.pins, u.sent)) (if (t.ctl.loops.getD n {}).swap then t.swapDone n 1 else t) = (t.ctl.hold, t.pins, t.sent) := by
    intro t n
    split
    · have h : (t.modCtl fun c => { c with loops := c.loops.modify n fun l => { l with swap := false } }).SameUnits (t.swapDone n 1) :=
        (State.regsOnly_resDone _ _ _).sameUnits.trans (State.sameUnits_raise _ _)
      rw [h]
      rfl
    · rfl
  have hkeeps : ∀ n < 4, apartFromResult (0x400104 + 0x10 * n) [F.CTL_LOOP_RESULT_CODE n] [F.CTL_STATUS_INPUT_GOOD, F.CTL_STATUS_MODE, F.CTL_ISR_RIDE] = true := by decide
  have h := State.foldl_same (fun u : State => (u.ctl.hold, u.pins, u.sent)) hunits (List.range 4) s
  simp only [Prod.mk.injEq] at h
  obtain ⟨hhold, hpins, hsent⟩ := h
  refine ⟨hhold, hpins, hsent, .foldl (fun t n hn => .ite ?_ (.refl _ t)) s⟩
  exact (State.Keeps.trans (t := t.modCtl _) (.of_cells rfl) (State.keeps_resDone _ _ rfl (hkeeps n (List.mem_range.mp hn)))).trans (State.keeps_raise _ (by decide))

theorem State.takePhases_spec (s : State) : s.takePhases.ctl.hold = s.ctl.hold ∧ s.takePhases.pins = s.pins ∧ s.takePhases.sent = s.sent ∧ s.takePhases.cells = s.cells := by
  unfold State.takePhases
  dsimp only
  by_cases hv : fromUnit (s.adcVal 0) 64000 ≤ 0
  · rw [if_pos hv]
    exact ⟨rfl, rfl, rfl, rfl⟩
  · rw [if_neg hv]
    exact ⟨rfl, rfl, rfl, rfl⟩

/-- The converter carries the bus: swaps are cancelled, the phases taken, the injection stopped. -/
def State.ridesOn (v : State) : State := ((v.cancelSwaps.takePhases).setFld F.CTL_INJ_CFG_EN 0).modHold fun h => { h with phase := 1 }

theorem State.ridesOn_spec (v : State) : v.ridesOn.pins = v.pins ∧ v.ridesOn.sent = v.sent ∧ v.ridesOn.ctl.hold = { v.ctl.hold with phase := 1 } ∧
    v.ridesOn.fld F.CTL_INJ_CFG_EN = 0 ∧ v.Keeps [F.CTL_STATUS_INPUT_GOOD, F.CTL_STATUS_MODE, F.CTL_ISR_RIDE] v.ridesOn := by
  obtain ⟨chold, cpins, csent, ckeeps⟩ := v.cancelSwaps_spec
  obtain ⟨phold, ppins, psent, pcells⟩ := v.cancelSwaps.takePhases_spec
  unfold State.ridesOn
  generalize v.cancelSwaps.takePhases = w at *
  refine ⟨ppins.trans cpins, psent.trans csent, ?_, w.fld_setFld_same F.CTL_INJ_CFG_EN 0, ?_⟩
  · exact congrArg (fun h : HoldSt => { h with phase := 1 }) (phold.trans chold)
  · exact (ckeeps.trans (.of_cells pcells)).trans (w.keeps_setFld (f := F.CTL_INJ_CFG_EN) 0 (by decide))

theorem State.setMode_spec (u : State) {m : Nat} (hm : 5 ≤ m) (hm' : m < 8) : (u.setMode m).mode = (if u.flag F.CTL_CTRL_ENABLE then m else 0) ∧
    (u.setMode m).ctl.hold = u.ctl.hold ∧ (u.setMode m).pins = u.pins ∧ (u.setMode m).sent = u.sent := by
  have hallow : u.allowedMode m = if u.flag F.CTL_CTRL_ENABLE then m else 0 := by
    rw [State.allowedMode, decide_eq_true hm]
    simp
  refine ⟨(State.fld_setFld_same _ _ _).trans ?_, rfl, rfl, rfl⟩
  rw [hallow]
  split
  · exact Nat.mod_eq_of_lt hm'
  · rfl

theorem State.keeps_setMode {l : List Fld} (u : State) (m : Nat) (h : apartFrom F.CTL_STATUS_MODE l = true) : u.Keeps l (u.setMode m) :=
  (u.keeps_setFld _ h).trans (.of_cells rfl)

/-- A head past cast-on rides. -/
theorem State.inputLost_spec {s : State} (hoff : s.headState ≠ 0) (hcast : s.headState ≠ stCastOn) (hphase : s.ctl.hold.phase = 0) :
    s.inputLost.pins = s.pins ∧ s.inputLost.fld F.CTL_STATUS_INPUT_GOOD = 0 ∧ s.inputLost.fld F.CTL_ISR_RIDE = 1 ∧ s.inputLost.fld F.CTL_INJ_CFG_EN = 0 ∧
      (s.inputLost.mode = if s.flag F.CTL_CTRL_ENABLE then 5 else 0) ∧ s.inputLost.ctl.hold = { s.ctl.hold with phase := 1 } ∧ s.inputLost.sent = s.sent := by
  have hunits : s.SameUnits ((s.setFld F.CTL_STATUS_INPUT_GOOD 0).raise F.CTL_ISR_RIDE) := (s.sameUnits_setFld _ _).trans (State.sameUnits_raise _ _)
  have hkeep : (s.setFld F.CTL_STATUS_INPUT_GOOD 0).Keeps [F.CTL_STATUS_INPUT_GOOD, F.CTL_CTRL_ENABLE] ((s.setFld F.CTL_STATUS_INPUT_GOOD 0).raise F.CTL_ISR_RIDE) :=
    State.keeps_raise _ (by decide)
  have hride : ((s.setFld F.CTL_STATUS_INPUT_GOOD 0).raise F.CTL_ISR_RIDE).fld F.CTL_ISR_RIDE = 1 := State.fld_raise_same _ _ rfl (by decide)
  have hgood := (hkeep F.CTL_STATUS_INPUT_GOOD (by decide)).trans (s.fld_setFld_same _ _)
  have henable := (hkeep F.CTL_CTRL_ENABLE (by decide)).trans (State.fld_setFld_ne _ _ (by decide))
  have heq : s.inputLost = (((s.setFld F.CTL_STATUS_INPUT_GOOD 0).raise F.CTL_ISR_RIDE).setMode 5).ridesOn := by
    unfold State.inputLost
    dsimp only
    rw [if_neg hcast, if_neg (by omega)]
    rfl
  clear hkeep
  rw [heq]
  generalize (s.setFld F.CTL_STATUS_INPUT_GOOD 0).raise F.CTL_ISR_RIDE = u at hunits hride hgood henable ⊢
  obtain ⟨hmode, hhold, hpins, hsent⟩ := u.setMode_spec (m := 5) (by decide) (by decide)
  have hset := u.keeps_setMode (l := [F.CTL_STATUS_INPUT_GOOD, F.CTL_ISR_RIDE]) 5 (by decide)
  have hg := (hset F.CTL_STATUS_INPUT_GOOD (by decide)).trans hgood
  have hr := (hset F.CTL_ISR_RIDE (by decide)).trans hride
  generalize u.setMode 5 = v at hmode hhold hpins hsent hg hr ⊢
  obtain ⟨rpins, rsent, rhold, rinj, rkeeps⟩ := v.ridesOn_spec
  rw [hunits] at hpins hsent hhold
  refine ⟨rpins.trans hpins, (rkeeps _ (by decide)).trans hg, (rkeeps _ (by decide)).trans hr, rinj, (rkeeps F.CTL_STATUS_MODE (by decide)).trans (hmode.trans ?_), ?_, rsent.trans hsent⟩
  · rw [State.flag, henable]
    rfl
  · rw [rhold, hhold]

/-- A pin that is not the power's leaves what a head takes. -/
theorem State.live_modPins (s : State) {f : Pins → Pins} (hf : (f s.pins).powered = s.pins.powered) (hon : s.pins.powered = true) (t : State) :
    (s.modPins f).live t = s.live t :=
  (State.live_on (s := s.modPins f) (hf.trans hon) t).trans (State.live_on hon t).symm

theorem State.execInputLoss_spec {s : State} {droop : Bool} (hon : s.pins.powered = true) (hdroop : droop = false ∨ 2 ≤ s.ctl.droop)
    (hgood : s.flag F.CTL_STATUS_INPUT_GOOD = true) : exec (.inputLoss droop) s = .next (s.live (s.modPins fun p => { p with inputGood := false }).inputLost) := by
  have hrun : exec (.inputLoss droop) s = .next (if droop && decide (s.ctl.droop < 2) then s
      else if !s.pins.powered then s.modPins fun p => { p with inputGood := false }
      else (s.modPins fun p => { p with inputGood := false }).live (if s.flag F.CTL_STATUS_INPUT_GOOD then
        (s.modPins fun p => { p with inputGood := false }).inputLost else s.modPins fun p => { p with inputGood := false })) := rfl
  have hnot : (droop && decide (s.ctl.droop < 2)) = false := by
    rcases hdroop with rfl | h
    · rfl
    · rw [decide_eq_false (by omega), Bool.and_false]
  rw [hrun, hnot, hon, hgood]
  exact congrArg Host.Outcome.next (s.live_modPins (f := fun p => { p with inputGood := false }) rfl hon _)

theorem State.execSeatedRemoval_spec {s : State} (hon : s.pins.powered = true) (hphase : (((s.modPins fun p => { p with unseated := true }).modHold
    fun h => { h with unseated := true }).inputLost).ctl.hold.phase = 1) :
    exec .seatedRemoval s = .next (s.live ((s.modPins fun p => { p with unseated := true }).modHold fun h => { h with unseated := true }).inputLost) := by
  have hrun : exec .seatedRemoval s = execSeatedRemoval s := rfl
  rw [hrun, execSeatedRemoval]
  dsimp only
  generalize hu : ((s.modPins fun p => { p with unseated := true }).modHold fun h => { h with unseated := true }).inputLost = u at hphase ⊢
  rw [hon, hphase, if_neg (by decide), if_neg (by decide)]
  exact congrArg Host.Outcome.next (s.live_modPins (f := fun p => { p with unseated := true }) rfl hon _)

/-- A ride ends, counted; the converter is again in the mode without input loss. -/
def State.rideEnded (v : State) : State := ((v.inc F.CTL_EVENTS_RIDES).setMode v.restMode).modHold fun h => { h with phase := 0 }

theorem State.rideEnded_spec (v : State) : v.rideEnded = { v with cells := v.rideEnded.cells, ctl := { v.ctl with probe := none, hold := { v.ctl.hold with phase := 0 } } } ∧
    v.rideEnded.fld F.CTL_STATUS_INPUT_GOOD = v.fld F.CTL_STATUS_INPUT_GOOD ∧
    v.rideEnded.fld F.CTL_EVENTS_RIDES = min (v.fld F.CTL_EVENTS_RIDES + 1) (2 ^ F.CTL_EVENTS_RIDES.width - 1) ∧
    v.rideEnded.mode = if v.flag F.CTL_CTRL_ENABLE && !v.bankFailed then 1 else 0 := by
  have hcells : v.rideEnded.cells = ((v.inc F.CTL_EVENTS_RIDES).setFld F.CTL_STATUS_MODE ((v.inc F.CTL_EVENTS_RIDES).allowedMode v.restMode)).cells := rfl
  have hallow : (v.inc F.CTL_EVENTS_RIDES).allowedMode v.restMode = if v.flag F.CTL_CTRL_ENABLE && !v.bankFailed then 1 else 0 := by
    have hbank : (v.inc F.CTL_EVENTS_RIDES).bankFailed = v.bankFailed := State.flag_inc_ne _ _ (by decide)
    rw [State.allowedMode, hbank, State.flag_inc_ne _ _ (by decide), State.restMode]
    cases v.bankFailed <;> cases v.flag F.CTL_CTRL_ENABLE <;> rfl
  refine ⟨rfl, ?_, ?_, ?_⟩
  · rw [State.fld_of_cells hcells, State.fld_setFld_ne _ _ (by decide), State.fld_inc_ne _ _ (by decide)]
  · rw [State.fld_of_cells hcells, State.fld_setFld_ne _ _ (by decide), State.fld_inc_same]
  · rw [State.mode, State.fld_of_cells hcells, State.fld_setFld_same, hallow]
    split <;> rfl

/-- The return of input ends a ride. -/
theorem State.execInputReturn_spec {s : State} (hon : s.pins.powered = true) (hphase : s.ctl.hold.phase = 1) (hseat : s.ctl.hold.unseated = false)
    (hlost : s.flag F.CTL_STATUS_INPUT_GOOD = false) : ∃ t, exec .inputReturn s = .next t ∧
      t.pins = { s.pins with inputGood := true } ∧ t.fld F.CTL_STATUS_INPUT_GOOD = 1 ∧
      t.fld F.CTL_EVENTS_RIDES = min (s.fld F.CTL_EVENTS_RIDES + 1) (2 ^ F.CTL_EVENTS_RIDES.width - 1) ∧
      (t.mode = if s.flag F.CTL_CTRL_ENABLE && !s.bankFailed then 1 else 0) ∧
      t = { s with cells := t.cells, pins := t.pins, ctl := { s.ctl with probe := none, hold := { s.ctl.hold with phase := 0 } } } := by
  have hrun : exec .inputReturn s = .next ((s.modPins fun p => { p with inputGood := true }).live
      ((s.modPins fun p => { p with inputGood := true }).setFld F.CTL_STATUS_INPUT_GOOD 1).rideEnded) := by
    have h : exec .inputReturn s = execInputReturn s := rfl
    rw [h, execInputReturn]
    dsimp only
    rw [hon, hseat, hlost, if_neg (by decide), if_neg (by decide), if_pos hphase]
    rfl
  generalize hv : (s.modPins fun p => { p with inputGood := true }).setFld F.CTL_STATUS_INPUT_GOOD 1 = v at hrun
  have hfld : ∀ g : Fld, g.key ≠ F.CTL_STATUS_INPUT_GOOD.key → v.fld g = s.fld g := fun g hg => hv ▸ State.fld_setFld_ne _ _ hg
  have hgood : v.fld F.CTL_STATUS_INPUT_GOOD = 1 := hv ▸ State.fld_setFld_same _ _ _
  obtain ⟨hunits, hin, hrides, hmode⟩ := v.rideEnded_spec
  have hpins : v.rideEnded.pins = (s.modPins fun p => { p with inputGood := true }).pins := by rw [hunits, ← hv]; rfl
  refine ⟨_, hrun.trans (State.next_live_eq (s := s.modPins _) hon hpins), hpins, hin.trans hgood, hrides.trans ?_, hmode.trans ?_, ?_⟩
  · rw [hfld _ (by decide)]
  · rw [State.bankFailed, State.flag, State.flag, hfld _ (by decide), hfld _ (by decide)]
    rfl
  · rw [hpins]
    generalize v.rideEnded.cells = c at hunits
    generalize v.rideEnded = w at hunits
    subst hunits
    rw [← hv]
    rfl

/-! ### Shut-down, release and VMIN (R367, R394, R395) -/

theorem State.stopCrypto_pending (s : State) : s.stopCrypto.pending = s.pending := State.foldl_same State.pending (fun t p => by
  unfold State.retire
  split
  · rfl
  · change (t.freeEngine _).pending = t.pending
    unfold State.freeEngine
    split <;> rfl) _ s

theorem State.zeroise_pending (s : State) : s.zeroise.pending = s.pending := by
  have hkeys : ∀ u : State, u.zeroiseKeys.pending = u.pending := fun u => by
    unfold State.zeroiseKeys
    dsimp only
    generalize hv : u.modSec _ = v
    obtain ⟨hregs, -, -⟩ := v.keyWords_spec
    have hpending : v.pending = u.pending := by rw [← hv]; rfl
    split
    · rw [(State.sameUnits_keyDone _ _ _).pending, hregs.sameUnits.pending, hpending]
    · rw [hregs.sameUnits.pending, hpending]
  rw [State.zeroise, State.errFatal_pending, State.raise_pending, hkeys, State.stopCrypto_pending]

theorem State.zeroise_sec (s : State) : s.zeroise.sec = { s.sec with slots := [], zeroised := true, clearing := none, generates := 0, sentInv := 0, gotInv := 0 } := by
  rw [State.zeroise, State.errFatal_sec, State.raise_sec, State.zeroiseKeys_sec, State.stopCrypto_sec]

theorem State.fld_zeroise_alarm (s : State) : s.zeroise.fld F.SEC_ISR_ALARM = 1 := by
  rw [State.zeroise, State.fld_errFatal_ne _ _ (by decide) (by decide), State.fld_raise_same _ _ rfl (by decide)]

/-- A reset keeps of the keys' unit the counts and phases. -/
theorem State.inReset_sec (s : State) : s.inReset.sec = { zeroised := s.sec.zeroised, counts := s.sec.counts, phases := s.sec.phases } := by
  obtain ⟨c, hc⟩ := regsOnly_keepFields s (outsideFields ++ retainedFields) { State.reset with
      pending := s.pending, sent := s.sent, fresh := s.fresh
      pins := { partnerLow := s.pins.partnerLow, partnerHere := s.pins.partnerHere, unseated := s.pins.unseated, inputGood := s.pins.inputGood }
      sec := { zeroised := s.sec.zeroised, counts := s.sec.counts, phases := s.sec.phases }
      rpj := { events := s.rpj.events, log := s.rpj.log, exports := s.rpj.exports } }
  unfold State.inReset
  dsimp only at hc ⊢
  rw [hc]

theorem State.castOn_sent (s : State) (x : Straps) : (s.castOn x false).sent = s.sent := by
  have h : (s.castOn x false).sent = (s.castFrom false).sent := by
    unfold State.castOn State.castFrom
    generalize (if false = true then s.powerOn else s.inReset) = s1
    rfl
  exact h.trans s.pending_inReset.2

theorem State.execHoldupShutdown_spec {s : State} (hon : s.pins.powered = true) (hmay : s.mayShut = true) : ∃ t, exec .holdupShutdown s = .next t ∧
    t.pins.powered = false ∧ t.ctl = { hold := { phase := 5 } } ∧ t.sec.slots = [] ∧ t.sec.zeroised = true ∧ t.OffClean ∧
    t.sent = s.zeroise.sent ∧ t.pending = s.pending := by
  have hrun : exec .holdupShutdown s = .next s.shutDown := congrArg Host.Outcome.next (if_pos (by rw [hon, hmay]; rfl))
  have hclean := s.offClean_shutDown
  have hsec := s.zeroise.inReset_sec
  have hq := s.zeroise.pending_inReset
  have hoff := s.zeroise.powered_inReset
  have hctl := s.zeroise.offClean_inReset.control
  have hz := s.zeroise_sec
  have hpending := s.zeroise_pending
  unfold State.shutDown at hrun hclean
  generalize s.zeroise = z at *
  generalize z.inReset = r at *
  refine ⟨_, hrun, hoff, ?_, ?_, ?_, hclean, hq.2, hq.1.trans hpending⟩
  · rw [State.modHold_ctl, hctl]
  · rw [State.modHold_sec, hsec]
  · rw [State.modHold_sec, hsec, hz]

/-- The converter stops; without input the keys go first. -/
theorem State.execVminReached_spec {s : State} (hmode : s.mode = 5 ∨ s.mode = 6) :
    exec .vminReached s = .next (s.live ((if s.pins.inputGood then s else s.zeroise).setMode 0)) :=
  congrArg (fun t => Host.Outcome.next (s.live t)) (if_neg (by omega))

theorem State.mode_setMode_zero (s : State) : (s.setMode 0).mode = 0 := by
  refine (State.fld_setFld_same _ _ _).trans ?_
  rw [State.allowedMode]
  split <;> rfl

theorem State.offPin {s : State} (hoff : s.pins.powered = false) (droop : Bool) (hd : droop = false) :
    exec (.inputLoss droop) s = .next (s.modPins fun p => { p with inputGood := false }) ∧ exec .inputReturn s = .next (s.modPins fun p => { p with inputGood := true }) ∧
      exec .seatedRemoval s = .next (s.modPins fun p => { p with unseated := true }) := by
  subst hd
  refine ⟨congrArg Host.Outcome.next ?_, congrArg Host.Outcome.next ?_, congrArg Host.Outcome.next ?_⟩
  · exact (if_neg (by rw [Bool.false_and]; decide)).trans (if_pos (by rw [hoff]; rfl))
  · exact if_pos (by rw [hoff]; rfl)
  · exact if_pos (by rw [hoff]; rfl)

theorem State.execVminReached_lost {s : State} (hon : s.pins.powered = true) (hmode : s.mode = 5 ∨ s.mode = 6) (hlost : s.pins.inputGood = false) :
    ∃ t, exec .vminReached s = .next t ∧
      t.mode = 0 ∧ t.sec.zeroised = true ∧ t.sec.slots.all (fun p => p.2.key.all (fun b => b == 0)) = true ∧ t.fld F.SEC_ISR_ALARM = 1 := by
  have hrun := State.execVminReached_spec hmode
  have hsec := s.zeroise_sec
  have halarm := s.fld_zeroise_alarm
  rw [hlost, if_neg (by decide), State.live_on hon] at hrun
  generalize s.zeroise = z at *
  refine ⟨_, hrun, z.mode_setMode_zero, ?_, ?_, (State.fld_setFld_ne _ _ (by decide)).trans halarm⟩
  · exact congrArg SecSt.zeroised hsec
  · exact congrArg (fun x : SecSt => x.slots.all fun p => p.2.key.all fun b => b == 0) hsec

theorem Pins.powered_eta {p : Pins} (h : p.powered = true) : { p with powered := true } = p := by
  cases p
  cases h
  rfl

theorem State.execInputLoss_rides {s : State} {droop : Bool} (hon : s.pins.powered = true) (hdroop : droop = false ∨ 2 ≤ s.ctl.droop)
    (hgood : s.flag F.CTL_STATUS_INPUT_GOOD = true) (hoff : s.headState ≠ 0) (hcast : s.headState ≠ stCastOn) (hphase : s.ctl.hold.phase = 0) :
    ∃ t, exec (.inputLoss droop) s = .next t ∧
      t.pins = { s.pins with inputGood := false } ∧ t.fld F.CTL_STATUS_INPUT_GOOD = 0 ∧ t.fld F.CTL_ISR_RIDE = 1 ∧
      t.fld F.CTL_INJ_CFG_EN = 0 ∧ (t.mode = if s.flag F.CTL_CTRL_ENABLE then 5 else 0) ∧
      t.ctl.hold = { s.ctl.hold with phase := 1 } ∧ t.sent = s.sent := by
  have hrun := State.execInputLoss_spec hon hdroop hgood
  obtain ⟨hpins, hin, hride, hinj, hmode, hhold, hsent⟩ := State.inputLost_spec (s := s.modPins fun p => { p with inputGood := false }) hoff hcast hphase
  generalize (s.modPins fun p => { p with inputGood := false }).inputLost = u at *
  rw [State.live_on hon, hpins] at hrun
  exact ⟨_, hrun, congrArg (fun p : Pins => { p with inputGood := false }) (Pins.powered_eta hon), hin, hride, hinj, hmode, hhold, hsent⟩

theorem State.execSeatedRemoval_rides {s : State} (hon : s.pins.powered = true) (hoff : s.headState ≠ 0) (hcast : s.headState ≠ stCastOn)
    (hphase : s.ctl.hold.phase = 0) : ∃ t, exec .seatedRemoval s = .next t ∧
      t.pins = { s.pins with unseated := true } ∧ t.ctl.hold = { s.ctl.hold with unseated := true, phase := 1 } ∧
      t.fld F.CTL_STATUS_INPUT_GOOD = 0 ∧ t.fld F.CTL_ISR_RIDE = 1 ∧ (t.mode = if s.flag F.CTL_CTRL_ENABLE then 5 else 0) ∧
      t.sent = s.sent := by
  obtain ⟨hpins, hin, hride, -, hmode, hhold, hsent⟩ := State.inputLost_spec
    (s := (s.modPins fun p => { p with unseated := true }).modHold fun h => { h with unseated := true }) hoff hcast hphase
  have hrun := State.execSeatedRemoval_spec hon (by rw [hhold])
  generalize ((s.modPins fun p => { p with unseated := true }).modHold fun h => { h with unseated := true }).inputLost = u at *
  rw [State.live_on hon, hpins] at hrun
  exact ⟨_, hrun, congrArg (fun p : Pins => { p with unseated := true }) (Pins.powered_eta hon), hhold, hin, hride, hmode, hsent⟩

/-- Settles O45: each command of hold-up by what its own step changes. -/
theorem holdupCommandsTakeEffect : Obligations.HoldupCommandsTakeEffect := by
  refine ⟨fun droop s hon hdroop hgood hoff hcast hphase => State.execInputLoss_rides hon hdroop hgood hoff hcast hphase,
    fun droop s hoff hd => ⟨_, (State.offPin hoff droop hd).1, rfl⟩,
    fun s hon hphase hseat hlost => State.execInputReturn_spec hon hphase hseat hlost,
    fun s hoff => ⟨_, (State.offPin hoff false rfl).2.1, rfl⟩,
    fun idle s hon hphase hseat hbank hplay hrows hretired hown hupd => State.execHoldupConfirm_spec idle hon hphase hseat hbank hplay hrows hretired hown hupd,
    fun s hon hflushed => State.execHoldupOwnDone_spec hon hflushed, fun s hon hmay => State.execHoldupShutdown_spec hon hmay,
    fun x s hoff hphase hgood hseat => ?_, fun s hon hmode hgood => ?_,
    fun s hon hmode hgood => State.execVminReached_lost hon hmode hgood,
    fun s hon _ hoff hcast hphase => State.execSeatedRemoval_rides hon hoff hcast hphase, fun s hoff => ⟨_, (State.offPin hoff false rfl).2.2, rfl⟩⟩
  · have hrun : exec (.holdupResetRelease x) s = .next (s.castOn x false) := congrArg Host.Outcome.next (if_pos (by simp [hoff, hphase, hgood, hseat]))
    obtain ⟨hstep, hid, hboot⟩ := s.fld_castOn x false
    obtain ⟨fsec, fdram, fq, -, -⟩ := s.castOn_frame x false
    obtain ⟨-, hmem, hq, -⟩ := s.castFrom_frame false
    exact ⟨_, hrun, s.powered_castOn x false, hstep, hid, hboot, fsec.trans s.inReset_sec, fdram.trans hmem, s.castOn_sent x, fq.trans hq⟩
  · have hrun := State.execVminReached_spec hmode
    rw [hgood, if_pos rfl] at hrun
    exact ⟨_, hrun.trans (State.next_live_eq hon rfl), rfl, s.mode_setMode_zero⟩

end Sys2Proof.Machine
end

section
/-! PROOF. The control engine: a probe's end while the bank has failed (R388-R390). -/
namespace Sys2Proof.Machine

/-- A head at the end of a probe's discharge whose bank is marked failed. -/
def failedBankHead : State :=
  { headWith [(F.CTL_CTRL_ENABLE, 1), (F.CTL_STATUS_MODE, 3), (F.CTL_STATUS_BANK_FAILED, 1)] with ctl := { probe := some ⟨1, 0, 0, 0⟩ } }

/-- A failed bank lets the converter only ride and hold up, so it does not go back to FLOAT. -/
theorem failedBankHead_off : ∃ t, exec (.probeDischargeEnd 0 0 1 0 1) failedBankHead = .next t ∧ t.mode = 0 := ⟨_, rfl, by decide +kernel⟩

/-- Refutes O44: the mode after a probe's discharge follows BANK_FAILED too, which the clause does not name. No run keeps the probe's
mode on a failed bank, but the clause is stated of every state. -/
theorem not_controlEngineCommandsTakeEffect : ¬ Obligations.ControlEngineCommandsTakeEffect := by
  rintro ⟨-, -, -, -, -, -, -, -, -, -, h, -⟩
  obtain ⟨t, ⟨-, h2⟩, h0⟩ := answers_agree (h 0 0 1 0 1 ⟨1, 0, 0, 0⟩ failedBankHead rfl rfl (by decide +kernel) rfl (by decide)) failedBankHead_off
  exact absurd (h0.symm.trans h2) (by decide +kernel)

end Sys2Proof.Machine
end

section
/-! PROOF. Cast-on, step by step, and the self-flush test (R52-R61). -/
namespace Sys2Proof.Machine

/-! ### What a forfeit and the ledger leave of cast-on -/

/-- The fields of cast-on's progress. -/
def castFlds : List Fld :=
  [F.GLB_CASTON_STATUS_FAILED, F.GLB_CASTON_STATUS_WRITE_THROUGH, F.GLB_CASTON_STATUS_FAIL_CODE, F.GLB_CASTON_STATUS_FAIL_STEP, F.GLB_CASTON_STATUS_STEP]

theorem State.keeps_linkDown {l : List Fld} (s : State) {p : Nat} (h : ([F.ETH_PORT_STATUS_UP p, F.ETH_PORT_STATUS_FEC_LOCK p, F.ETH_PORT_STATUS_AN_DONE p,
    F.ETH_PORT_STATUS_SPEED p, F.ETH_ISR_LINK_DOWN].all fun f => apartFrom f l) = true) : s.Keeps l (s.linkDown p) := by
  simp only [List.all_cons, List.all_nil, Bool.and_true, Bool.and_eq_true] at h
  obtain ⟨hup, hfec, han, hspeed, hisr⟩ := h
  have hset := (((s.keeps_setFld 0 hup).trans (State.keeps_setFld _ 0 hfec)).trans (State.keeps_setFld _ 0 han)).trans (State.keeps_setFld _ 0 hspeed)
  unfold State.linkDown
  exact .ite (hset.trans (State.keeps_raise _ hisr)) hset

theorem State.keeps_trnStop {l : List Fld} (s : State) (h : ([F.TRN_STATUS_STATE, F.TRN_ISR_LOCKED, F.TRN_ISR_HOLDOVER, F.TRN_ISR_BECAME_FIRST].all
    fun f => apartFrom f l) = true) : s.Keeps l s.trnStop := by
  simp only [List.all_cons, List.all_nil, Bool.and_true, Bool.and_eq_true] at h
  obtain ⟨hstate, hlocked, hhold, hfirst⟩ := h
  have hrelease : s.Keeps l s.releaseTurn := .ite (.of_cells (s.send_cells _)) (.refl l s)
  have hset : ∀ u : State, u.Keeps l (u.setTrn trnOff) := fun u => by
    have h := u.keeps_setFld trnOff hstate
    unfold State.setTrn
    refine .ite (.refl l u) (.trans ?_ (.of_cells (State.sendStatus_cells _)))
    exact .ite (h.trans (State.keeps_raise _ hlocked)) (.ite (h.trans (State.keeps_raise _ hhold)) (.ite (h.trans (State.keeps_raise _ hfirst)) h))
  exact (hrelease.trans (hset _)).trans (.of_cells rfl)

theorem State.keeps_zeroise_cast (s : State) : s.Keeps castFlds s.zeroise := by
  have hwords : ∀ u : State, u.Keeps castFlds ((List.range 16).foldl (fun t n => t.setFld (F.SEC_KEY_WORD_KEY n) 0) u) := fun u =>
    .foldl (fun t n hn => t.keeps_setFld 0 (List.all_eq_true.mp (by decide : (List.range 16).all (fun n => apartFrom (F.SEC_KEY_WORD_KEY n) castFlds) = true) n hn)) u
  have hkeys : ∀ u : State, u.Keeps castFlds u.zeroiseKeys := fun u => by
    unfold State.zeroiseKeys
    dsimp only
    generalize hv : u.modSec _ = v
    have hcells : v.cells = u.cells := hv ▸ rfl
    split
    · exact ((State.Keeps.of_cells hcells).trans (hwords v)).trans (State.keeps_keyDone _ _ _ (by decide))
    · exact (State.Keeps.of_cells hcells).trans (hwords v)
  exact (((s.keeps_stopCrypto (by decide)).trans (hkeys _)).trans (State.keeps_raise _ (by decide))).trans (State.keeps_errFatal _ _ (by decide))

theorem State.keeps_stepDies {l : List Fld} (s : State) (h : (apartFrom F.UPD_CMD_BUSY l && apartFrom F.IRQ_SWAP_HOLDING l) = true) : s.Keeps l s.stepDies := by
  obtain ⟨hbusy, hhold⟩ := Bool.and_eq_true_iff.mp h
  unfold State.stepDies
  split
  · exact .refl l s
  · exact ((State.Keeps.of_cells rfl).trans (State.keeps_setFld _ _ hbusy)).trans (State.keeps_setFld _ _ hhold)

/-- A forfeit leaves cast-on's progress, and freezes the replay ring. -/
theorem State.forfeit_cast {s : State} (cause : Nat) (hon : s.pins.powered = true) (hstate : s.headState = stCastOn) :
    s.Keeps castFlds (s.forfeit cause) ∧ (s.forfeit cause).fld F.RPJ_CTRL_FREEZE = 1 := by
  have hfree : ∀ p < 16, ([F.ETH_PORT_STATUS_UP p, F.ETH_PORT_STATUS_FEC_LOCK p, F.ETH_PORT_STATUS_AN_DONE p, F.ETH_PORT_STATUS_SPEED p, F.ETH_ISR_LINK_DOWN].all
      fun f => apartFrom f castFlds) = true := by decide
  have hports : ∀ u : State, u.Keeps castFlds u.portsDown := fun u => by
    have hpins : u.Keeps castFlds { u with pins := { u.pins with portsOn := false } } := .of_cells rfl
    exact hpins.trans (.foldl (fun t p hp => t.keeps_linkDown (hfree p (List.mem_range.mp hp))) _)
  unfold State.forfeit
  rw [if_neg (by rw [hon, hstate]; decide)]
  dsimp only
  have hdown := ((((s.keeps_setFld (f := F.GLB_FORFEIT_LAST_CAUSE) (forfeitCause cause) (by decide)).trans (State.keeps_logEvent (l := castFlds) _ 2 0 0 (forfeitCause cause) (by decide))).trans
    (State.keeps_setHead _ stForfeit (by decide))).trans (hports _)).trans (State.keeps_trnStop _ (by decide))
  generalize State.trnStop _ = u at hdown ⊢
  have hkeys := (hdown.trans (.of_cells (t := { u with pins := { u.pins with forfeitOut := false } }) rfl)).trans (State.keeps_zeroise_cast _)
  generalize State.zeroise _ = v at hkeys ⊢
  have hlast := ((hkeys.trans (v.keeps_setFld (f := F.IRQ_FATAL_TIMER_RUNNING) 0 (by decide))).trans (State.keeps_setFld _ (f := F.IRQ_FATAL_TIMER_LEFT_NS) 0 (by decide))).trans
    (State.keeps_stepDies _ (by decide))
  change s.Keeps castFlds v.stopFatalTimer.stepDies at hlast
  generalize v.stopFatalTimer.stepDies = w at hlast ⊢
  exact ⟨hlast.trans fun g hg => w.fld_setFld_ne _ (Fld.key_ne_of_blk ((by decide : ∀ g ∈ castFlds, g.blk ≠ 0x18) g hg)), w.fld_setFld_same F.RPJ_CTRL_FREEZE 1⟩

theorem State.keeps_testWriteThrough {l : List Fld} (s : State) (h : (apartFrom F.CMT_STATUS_WT_CAUSE l && apartFrom F.CMT_STATUS_MODE l && apartFrom F.CMT_ISR_WT_ENTER l) = true) :
    s.Keeps l s.testWriteThrough := by
  simp only [Bool.and_eq_true] at h
  obtain ⟨⟨hcause, hmode⟩, hisr⟩ := h
  have hset := s.keeps_setFld s.wtCause hcause
  have henter : ∀ t : State, t.Keeps l (((t.setFld F.CMT_STATUS_MODE 1).raise F.CMT_ISR_WT_ENTER).logEvent 6 0x10 0 s.wtCause) := fun t =>
    ((t.keeps_setFld _ hmode).trans (State.keeps_raise _ hisr)).trans (State.keeps_logEvent _ _ _ _ _ fun g hg => (apartFrom_spec hmode hg).2)
  unfold State.testWriteThrough
  dsimp only
  have hgood : s.Keeps l (if s.wbGood then s.setFld F.CMT_STATUS_WT_CAUSE s.wtCause else
      { s.setFld F.CMT_STATUS_WT_CAUSE s.wtCause with commit := { (s.setFld F.CMT_STATUS_WT_CAUSE s.wtCause).commit with turnGood := false } }) :=
    .ite hset (hset.trans (.of_cells rfl))
  exact .ite (hgood.trans (henter _)) hgood

/-- The registers of the ledger. -/
def ledgerFlds : List Fld :=
  [F.CTL_LEDGER_E_LO_UJ, F.CTL_LEDGER_E_HI_UJ, F.CTL_ETA_ETA, F.CMT_DIRTY_LIMIT_LO_LIMIT_LO, F.CMT_DIRTY_LIMIT_HI_LIMIT_HI, F.CMT_STATUS_WT_CAUSE, F.CMT_STATUS_MODE, F.CMT_ISR_WT_ENTER]

theorem State.keeps_ledger {l : List Fld} (s : State) (h : (ledgerFlds.all fun f => apartFrom f l) = true) : s.Keeps l s.ledger := by
  simp only [ledgerFlds, List.all_cons, List.all_nil, Bool.and_true, Bool.and_eq_true] at h
  obtain ⟨he, he', heta, hlim, hlim', hcause, hmode, hisr⟩ := h
  exact (((s.keeps_setPair _ (by rw [he, he']; rfl)).trans (State.keeps_setFld _ _ heta)).trans (State.keeps_setPair _ _ (by rw [hlim, hlim']; rfl))).trans
    (State.keeps_testWriteThrough _ (by rw [hcause, hmode, hisr]; rfl))

theorem State.testWriteThrough_units (s : State) : s.testWriteThrough.boot = s.boot ∧ s.testWriteThrough.pins = s.pins := by
  have henter : ∀ t : State, (((t.setFld F.CMT_STATUS_MODE 1).raise F.CMT_ISR_WT_ENTER).logEvent 6 0x10 0 s.wtCause).boot = t.boot ∧
      (((t.setFld F.CMT_STATUS_MODE 1).raise F.CMT_ISR_WT_ENTER).logEvent 6 0x10 0 s.wtCause).pins = t.pins := fun t => by
    have h : t.SameUnits (((t.setFld F.CMT_STATUS_MODE 1).raise F.CMT_ISR_WT_ENTER).logEvent 6 0x10 0 s.wtCause) :=
      ((t.sameUnits_setFld _ _).trans (State.sameUnits_raise _ _)).trans (State.logs_logEvent _ _ _ _ _).sameUnits
    exact ⟨h.boot, h.pins⟩
  unfold State.testWriteThrough
  dsimp only
  split
  · obtain ⟨hb, hp⟩ := henter (if s.wbGood then s.setFld F.CMT_STATUS_WT_CAUSE s.wtCause else
      { s.setFld F.CMT_STATUS_WT_CAUSE s.wtCause with commit := { (s.setFld F.CMT_STATUS_WT_CAUSE s.wtCause).commit with turnGood := false } })
    rw [hb, hp]
    split <;> exact ⟨rfl, rfl⟩
  · split <;> exact ⟨rfl, rfl⟩

theorem State.ledger_units (s : State) : s.ledger.boot = s.boot ∧ s.ledger.pins = s.pins := State.testWriteThrough_units _

theorem State.failBank_units (s : State) (cause : Nat) : (s.failBank cause).boot = s.boot ∧ (s.failBank cause).pins = s.pins := by
  have hraise : ∀ u : State, u.boot = s.boot ∧ u.pins = s.pins → (u.raise F.CTL_ISR_BANK_FAILED).ledger.boot = s.boot ∧ (u.raise F.CTL_ISR_BANK_FAILED).ledger.pins = s.pins :=
    fun u hu => by
      obtain ⟨hb, hp⟩ := (u.raise F.CTL_ISR_BANK_FAILED).ledger_units
      have hraise := u.sameUnits_raise F.CTL_ISR_BANK_FAILED
      exact ⟨hb.trans (hraise.boot.trans hu.1), hp.trans (hraise.pins.trans hu.2)⟩
  unfold State.failBank
  dsimp only
  split
  · exact ⟨rfl, rfl⟩
  · refine hraise _ ?_
    split <;> exact ⟨rfl, rfl⟩

theorem State.keeps_failBank {l : List Fld} (s : State) (cause : Nat) (h : ([F.CTL_STATUS_BANK_FAILED, F.CTL_STATUS_BANK_CAUSE, F.CTL_INJ_CFG_EN, F.CTL_STATUS_MODE,
    F.CTL_ISR_BANK_FAILED].all fun f => apartFrom f l) = true) (hl : (ledgerFlds.all fun f => apartFrom f l) = true) : s.Keeps l (s.failBank cause) := by
  simp only [List.all_cons, List.all_nil, Bool.and_true, Bool.and_eq_true] at h
  obtain ⟨hfailed, hcause, hinj, hmode, hisr⟩ := h
  have h1 := ((s.keeps_setFld 1 hfailed).trans (State.keeps_setFld _ cause hcause)).trans (State.keeps_setFld _ 0 hinj)
  have hraise : ∀ u : State, s.Keeps l u → s.Keeps l (u.raise F.CTL_ISR_BANK_FAILED).ledger := fun u hu => (hu.trans (u.keeps_raise hisr)).trans (State.keeps_ledger _ hl)
  unfold State.failBank
  dsimp only
  split
  · exact .refl l s
  · refine hraise _ ?_
    split
    · exact h1
    · exact (h1.trans (State.keeps_setFld _ 0 hmode)).trans (.of_cells rfl)

/-- The registers of the bank's observer. -/
def observeFlds : List Fld :=
  [F.CTL_BANK_SAMPLES_N, F.CTL_BANK_SAMPLES_N_ESR, F.CTL_BANK_C_MEAN_UF, F.CTL_BANK_C_LOW_UF, F.CTL_BANK_ESR_MEAN_UO, F.CTL_BANK_ESR_HIGH_UO]

/-- The bounds before their tests. -/
def State.bounded (s : State) : State :=
  let c := meanSig s.ctl.cSamples 16
  let r := meanSig s.ctl.esrSamples 4
  let s1 := (s.setFld F.CTL_BANK_SAMPLES_N s.ctl.cSamples.length).setFld F.CTL_BANK_SAMPLES_N_ESR s.ctl.esrSamples.length
  let s2 := if s.ctl.cSamples.length = 0 then s1 else (s1.setFld F.CTL_BANK_C_MEAN_UF c.1).setFld F.CTL_BANK_C_LOW_UF (c.1 - 3 * c.2)
  if s.ctl.esrSamples.length = 0 then s2 else (s2.setFld F.CTL_BANK_ESR_MEAN_UO (min 0xFFFF r.1)).setFld F.CTL_BANK_ESR_HIGH_UO (min 0xFFFF (r.1 + 3 * r.2))

/-- The observer answers the bounds, or a failure of the bank. -/
theorem State.observe_cases (s : State) : s.observe = s.bounded ∨ ∃ cause, s.observe = s.bounded.failBank cause := by
  have h : s.observe = if s.ctl.cSamples.length ≠ 0 ∧ s.bounded.fld F.CTL_BANK_C_LOW_UF < 1000 * s.fld F.CTL_BANK_LIMITS_C_FAIL then s.bounded.failBank 1
      else if s.ctl.esrSamples.length ≠ 0 ∧ s.fld F.CTL_BANK_LIMITS_ESR_FAIL < s.bounded.fld F.CTL_BANK_ESR_HIGH_UO then s.bounded.failBank 2 else s.bounded := rfl
  rw [h]
  split
  · exact .inr ⟨1, rfl⟩
  · split
    · exact .inr ⟨2, rfl⟩
    · exact .inl rfl

theorem State.bounded_units (s : State) : s.bounded.boot = s.boot ∧ s.bounded.pins = s.pins := by
  unfold State.bounded
  dsimp only
  split <;> split <;> exact ⟨rfl, rfl⟩

theorem State.keeps_bounded {l : List Fld} (s : State) (h : (observeFlds.all fun f => apartFrom f l) = true) : s.Keeps l s.bounded := by
  simp only [observeFlds, List.all_cons, List.all_nil, Bool.and_true, Bool.and_eq_true] at h
  obtain ⟨hn, hnr, hmean, hlow, hesr, hhigh⟩ := h
  have h1 := (s.keeps_setFld s.ctl.cSamples.length hn).trans (State.keeps_setFld _ s.ctl.esrSamples.length hnr)
  have h2 : ∀ u : State, s.Keeps l u → s.Keeps l ((u.setFld F.CTL_BANK_ESR_MEAN_UO (min 0xFFFF (meanSig s.ctl.esrSamples 4).1)).setFld F.CTL_BANK_ESR_HIGH_UO
      (min 0xFFFF ((meanSig s.ctl.esrSamples 4).1 + 3 * (meanSig s.ctl.esrSamples 4).2))) := fun u hu => (hu.trans (u.keeps_setFld _ hesr)).trans (State.keeps_setFld _ _ hhigh)
  unfold State.bounded
  dsimp only
  have h3 := (h1.trans (State.keeps_setFld _ (meanSig s.ctl.cSamples 16).1 hmean)).trans (State.keeps_setFld _ ((meanSig s.ctl.cSamples 16).1 - 3 * (meanSig s.ctl.cSamples 16).2) hlow)
  split
  · split
    · exact h1
    · exact h3
  · split
    · exact h2 _ h1
    · exact h2 _ h3

theorem State.addSamples_units (s : State) (c esr : Nat) : (s.addSamples c esr).boot = s.boot ∧ (s.addSamples c esr).pins = s.pins := by
  unfold State.addSamples
  generalize hu : s.modCtl _ = u
  have hb : u.boot = s.boot ∧ u.pins = s.pins := hu ▸ ⟨rfl, rfl⟩
  obtain ⟨hb', hp'⟩ := u.bounded_units
  rcases u.observe_cases with h | ⟨cause, h⟩
  · rw [h, hb', hp']
    exact hb
  · obtain ⟨hf, hfp⟩ := u.bounded.failBank_units cause
    rw [h, hf, hfp, hb', hp']
    exact hb

theorem State.keeps_addSamples {l : List Fld} (s : State) (c esr : Nat) (ho : (observeFlds.all fun f => apartFrom f l) = true)
    (h : ([F.CTL_STATUS_BANK_FAILED, F.CTL_STATUS_BANK_CAUSE, F.CTL_INJ_CFG_EN, F.CTL_STATUS_MODE, F.CTL_ISR_BANK_FAILED].all fun f => apartFrom f l) = true)
    (hl : (ledgerFlds.all fun f => apartFrom f l) = true) : s.Keeps l (s.addSamples c esr) := by
  unfold State.addSamples
  generalize hu : s.modCtl _ = u
  have hs : s.Keeps l u := .of_cells (hu ▸ rfl)
  rcases u.observe_cases with h' | ⟨cause, h'⟩
  · rw [h']
    exact hs.trans (u.keeps_bounded ho)
  · rw [h']
    exact (hs.trans (u.keeps_bounded ho)).trans (State.keeps_failBank _ _ h hl)

/-! ### Steps that complete (R56) -/

theorem execCastonStepDone_eq {s : State} (o : StepOutcome) (hon : s.pins.powered = true) (hcast : s.headState = stCastOn) (hstep : s.castStep ≠ 2) :
    exec (.castonStepDone o) s = .next (s.live (s.castNext o)) := by
  have hwaits : s.castWaits = false := by
    rw [State.castWaits, beq_eq_false_iff_ne.mpr hstep, Bool.false_and]
  refine congrArg (fun t => Host.Outcome.next (s.live t)) (if_neg ?_)
  rw [hon, hcast, hwaits]
  decide

theorem State.readFuses_units (s : State) (f : Fuses) : (s.readFuses f).boot.fuses = some f ∧ (s.readFuses f).pins = s.pins := by
  have h1 := State.foldl_same (fun u : State => (u.boot, u.pins)) (f := fun t c => if c = 0 then t else t.setFld (F.UPD_FLOOR_FLOOR c) (f.floors.getD c 0))
    (fun t c => by split <;> rfl) (List.range 8) (s.modBoot fun b => { b with fuses := some f })
  have h2 := fun u : State => State.foldl_same (fun u : State => (u.boot, u.pins)) (f := fun t r => t.setFld (F.RPR_VADJ_OFS_MAX r) (f.ofsMax.getD r 0))
    (fun t r => rfl) (List.range 3) u
  unfold State.readFuses
  dsimp only at h1 h2 ⊢
  generalize List.foldl _ (s.modBoot fun b => { b with fuses := some f }) (List.range 8) = u at h1 ⊢
  specialize h2 u
  generalize List.foldl _ u (List.range 3) = v at h2 ⊢
  simp only [Prod.mk.injEq] at h1 h2
  obtain ⟨hboot, hpins⟩ := h1
  obtain ⟨hboot', hpins'⟩ := h2
  have hfuses : v.boot.fuses = some f := by rw [hboot', hboot]; rfl
  have hp : v.pins = s.pins := hpins'.trans hpins
  split
  · rw [State.send_boot, State.send_pins]
    exact ⟨hfuses, hp⟩
  · exact ⟨hfuses, hp⟩

/-- Good fuses complete step 2. -/
theorem State.castFuses_spec {s : State} (f : Fuses) (hon : s.pins.powered = true) (hcast : s.headState = stCastOn) (hstep : s.castStep = 1) :
    ∃ t, exec (.castonStepDone (.fuses f true)) s = .next t ∧ t.fld F.GLB_CASTON_STATUS_STEP = 2 ∧ t.boot.fuses = some f := by
  have hrun := execCastonStepDone_eq (.fuses f true) hon hcast (by omega)
  rw [show s.castNext (.fuses f true) = (s.readFuses f).stepIs 2 from if_pos hstep] at hrun
  obtain ⟨hfuses, hpins⟩ := s.readFuses_units f
  generalize s.readFuses f = u at *
  exact ⟨_, hrun.trans (State.next_live_eq hon hpins), u.fld_setFld_same _ _, hfuses⟩

theorem State.castDram_spec {s : State} {type cap mts : Nat} (hon : s.pins.powered = true) (hcast : s.headState = stCastOn) (hstep : s.castStep = 6)
    (htype : type < 2 ^ F.DMC_INFO_TYPE.width) (hcap : cap < 2 ^ F.DMC_INFO_CAP_GIB.width) (hmts : mts < 2 ^ F.DMC_INFO_MTS.width) :
    ∃ t, exec (.castonStepDone (.dram true type cap mts)) s = .next t ∧
      t.fld F.GLB_CASTON_STATUS_STEP = 7 ∧ t.fld F.DMC_INFO_TYPE = type ∧ t.fld F.DMC_INFO_CAP_GIB = cap ∧ t.fld F.DMC_INFO_MTS = mts := by
  have hrun := execCastonStepDone_eq (.dram true type cap mts) hon hcast (by omega)
  rw [show s.castNext (.dram true type cap mts) = (((s.setFld F.DMC_INFO_TYPE type).setFld F.DMC_INFO_CAP_GIB cap).setFld F.DMC_INFO_MTS mts).stepIs 7 from if_pos hstep] at hrun
  refine ⟨_, hrun.trans (State.next_live_eq hon rfl), State.fld_setFld_same _ _ _, ?_, ?_, ?_⟩
  · rw [State.stepIs, State.fld_setFld_ne _ _ (by decide), State.fld_setFld_ne _ _ (by decide), State.fld_setFld_ne _ _ (by decide), State.fld_setFld_same, Nat.mod_eq_of_lt htype]
  · rw [State.stepIs, State.fld_setFld_ne _ _ (by decide), State.fld_setFld_ne _ _ (by decide), State.fld_setFld_same, Nat.mod_eq_of_lt hcap]
  · rw [State.stepIs, State.fld_setFld_ne _ _ (by decide), State.fld_setFld_same, Nat.mod_eq_of_lt hmts]

/-! ### JOINING (R61) -/

theorem State.joined_spec (s : State) (ports : List Nat) :
    let t := (((ports.foldl (fun t p => t.send (.ethTrain p)) s).setAnas 3 3).efmoTrain)
    t.cells = s.cells ∧ t.pins = s.pins ∧ t.efmo.training = 1 := by
  have hsend : ∀ (l : List Nat) (m : Nat → Sent) (u : State), (l.foldl (fun t p => t.send (m p)) u).cells = u.cells ∧ (l.foldl (fun t p => t.send (m p)) u).pins = u.pins ∧
      (l.foldl (fun t p => t.send (m p)) u).efmo = u.efmo := fun l m u =>
    ⟨State.foldl_same State.cells (fun t p => t.send_cells _) l u, State.foldl_same State.pins (fun t p => t.send_pins _) l u, State.foldl_same State.efmo (fun t p => t.send_efmo _) l u⟩
  have hana : ∀ (u : State) (g st : Nat), (u.setAna g st).cells = u.cells ∧ (u.setAna g st).pins = u.pins := fun u g st => by
    unfold State.setAna
    split
    · exact ⟨rfl, rfl⟩
    · exact ⟨State.send_cells _ _, State.send_pins _ _⟩
  obtain ⟨hcells, hpins, -⟩ := hsend ports (fun p => .ethTrain p) s
  generalize ports.foldl _ s = u at hcells hpins ⊢
  have hanas : (u.setAnas 3 3).cells = u.cells ∧ (u.setAnas 3 3).pins = u.pins :=
    ⟨(hana _ _ _).1.trans (hana _ _ _).1, (hana _ _ _).2.trans (hana _ _ _).2⟩
  dsimp only
  generalize u.setAnas 3 3 = v at hanas ⊢
  unfold State.efmoTrain
  dsimp only
  generalize List.range 18 = lanes
  obtain ⟨hc, hp, he⟩ := hsend lanes (fun k => .efmoTrainFrame k (if v.efmo.txLanes.isEmpty then List.range 16 else v.efmo.txLanes))
    (v.modEfmo fun e => { e with training := 1, idRetryAt := none })
  exact ⟨hc.trans (hanas.1.trans hcells), hp.trans (hanas.2.trans hpins), congrArg EfmoSt.training he⟩

theorem State.enterJoining_spec {s : State} (hseat : s.pins.unseated = false) (hreplay : s.flag F.RPJ_CTRL_REPLAY = false)
    (hlevel : s.fld F.RPJ_DBG_LEVEL ≠ 2) : s.enterJoining.pins = { s.pins with forfeitOut := true, portsOn := true } ∧ s.enterJoining.efmo.training = 1 ∧
      s.enterJoining.fld F.GLB_CASTON_STATUS_STEP = 13 ∧ s.enterJoining.headState = stJoining := by
  have hstep : ((s.stepIs 13).modPins fun p => { p with forfeitOut := true, portsOn := true }).fld F.GLB_CASTON_STATUS_STEP = 13 :=
    s.fld_setFld_same F.GLB_CASTON_STATUS_STEP 13
  unfold State.enterJoining
  rw [if_neg (by simp [hseat, hreplay, hlevel])]
  dsimp only
  generalize hu : (s.stepIs 13).modPins _ = u at hstep ⊢
  have hupins : u.pins = { s.pins with forfeitOut := true, portsOn := true } := hu ▸ rfl
  have hpins := (u.reports_setHead stJoining).pins
  have hkeep := u.keeps_setHead (l := castFlds) stJoining (by decide)
  have hhead := u.headState_setHead (st := stJoining) (by decide)
  generalize u.setHead stJoining = v at hpins hkeep hhead ⊢
  generalize hw : v.modPair _ = w
  have hwcells : w.cells = v.cells := hw ▸ rfl
  have hwpins : w.pins = v.pins := hw ▸ rfl
  generalize (List.range 16).filter _ = ports
  obtain ⟨hcells, hpins', htrain⟩ := w.joined_spec ports
  refine ⟨hpins'.trans (hwpins.trans (hpins.trans hupins)), htrain, ?_, ?_⟩
  · rw [State.fld_of_cells hcells, State.fld_of_cells hwcells, hkeep _ (by decide), hstep]
  · rw [State.headState, State.fld_of_cells hcells, State.fld_of_cells hwcells]
    exact hhead

theorem State.castJoining_spec {s : State} (hon : s.pins.powered = true) (hcast : s.headState = stCastOn) (hstep : s.castStep = 12) (hseat : s.pins.unseated = false)
    (hreplay : s.flag F.RPJ_CTRL_REPLAY = false) (hlevel : s.fld F.RPJ_DBG_LEVEL ≠ 2) : ∃ t, exec (.castonStepDone .done) s = .next t ∧
      t.pins.forfeitOut = true ∧ t.pins.portsOn = true ∧ t.efmo.training = 1 ∧ t.fld F.GLB_CASTON_STATUS_STEP = 13 ∧ t.headState = stJoining := by
  have hrun := execCastonStepDone_eq .done hon hcast (by omega)
  rw [show s.castNext .done = s.enterJoining from (if_neg (by omega)).trans (if_pos hstep)] at hrun
  obtain ⟨hpins, htrain, h13, hhead⟩ := State.enterJoining_spec hseat hreplay hlevel
  generalize s.enterJoining = u at *
  rw [State.live_on hon, hpins] at hrun
  exact ⟨_, hrun, rfl, rfl, htrain, h13, hhead⟩

/-! ### A step that passes its bound (R56) -/

theorem State.castTimeout_spec {s : State} (hon : s.pins.powered = true) (hcast : s.headState = stCastOn) (hheld : s.castHeld = false) (hlo : 1 ≤ s.castStep)
    (hhi : s.castStep ≤ 9) : ∃ t, exec .castonStepTimeout s = .next t ∧
      t.fld F.GLB_CASTON_STATUS_FAILED = 1 ∧ t.fld F.GLB_CASTON_STATUS_FAIL_CODE = 7 ∧
      t.fld F.GLB_CASTON_STATUS_FAIL_STEP = s.castStep + 1 ∧ t.headState = stForfeit ∧ t.fld F.RPJ_CTRL_FREEZE = 1 := by
  have hrun : exec .castonStepTimeout s = .next (s.live (s.castFail (s.castStep + 1) 7)) := by
    refine congrArg (fun t => Host.Outcome.next (s.live t)) ((if_neg ?_).trans (if_pos (by omega)))
    simp only [hon, hcast, hheld]
    simp
    omega
  unfold State.castFail at hrun
  generalize hu : (((s.setFld F.GLB_CASTON_STATUS_FAILED 1).setFld F.GLB_CASTON_STATUS_FAIL_CODE 7).setFld F.GLB_CASTON_STATUS_FAIL_STEP (s.castStep + 1)) = u at hrun
  have huon : u.pins.powered = true := hu ▸ hon
  have huhead : u.headState = stCastOn := by
    rw [← hu, State.headState, State.fld_setFld_ne _ _ (by decide), State.fld_setFld_ne _ _ (by decide), State.fld_setFld_ne _ _ (by decide)]
    exact hcast
  have hfailed : u.fld F.GLB_CASTON_STATUS_FAILED = 1 := by
    rw [← hu, State.fld_setFld_ne _ _ (by decide), State.fld_setFld_ne _ _ (by decide)]
    exact State.fld_setFld_same _ _ _
  have hcode : u.fld F.GLB_CASTON_STATUS_FAIL_CODE = 7 := by
    rw [← hu, State.fld_setFld_ne _ _ (by decide)]
    exact State.fld_setFld_same _ _ _
  have hstep : u.fld F.GLB_CASTON_STATUS_FAIL_STEP = s.castStep + 1 := by
    rw [← hu]
    exact (State.fld_setFld_same _ _ _).trans (Nat.mod_eq_of_lt (by rw [show F.GLB_CASTON_STATUS_FAIL_STEP.width = 4 from rfl]; omega))
  obtain ⟨hkeep, hfreeze⟩ := State.forfeit_cast 7 huon huhead
  have hhead := u.headState_forfeit 7 huon
  generalize u.forfeit 7 = v at *
  rw [State.live_on hon] at hrun
  exact ⟨_, hrun, (hkeep _ (by decide)).trans hfailed, (hkeep _ (by decide)).trans hcode, (hkeep _ (by decide)).trans hstep, hhead, hfreeze⟩

/-! ### The self-flush test (R59) -/

theorem State.endSelfFlush_units (s : State) : s.endSelfFlush.cells = s.cells ∧ s.endSelfFlush.pins = s.pins ∧ s.endSelfFlush.boot.testRunning = false := by
  have h := State.foldl_same (fun u : State => (u.cells, u.pins, u.boot)) (f := fun t p => t.queueOp 6 { port := p.1, op := plainOp 3 0x10 0 1 (p.2 * 2 ^ 28), purpose := .selfTest, data := [] })
    (fun t p => rfl) ((testPages s.testDies (65536 * s.testGib)).map fun p => (p.1, p.2.1)).eraseDups s.dropTest
  unfold State.endSelfFlush
  dsimp only at h ⊢
  generalize List.foldl _ s.dropTest _ = u at h ⊢
  simp only [Prod.mk.injEq] at h
  obtain ⟨hcells, hpins, hboot⟩ := h
  exact ⟨hcells, hpins, by rw [hboot]; rfl⟩

/-- A test that lost its input leaves the head in write-through mode. -/
theorem State.castWriteThrough_spec (s : State) : s.castWriteThrough.boot = s.boot ∧ s.castWriteThrough.pins = s.pins ∧
    s.castWriteThrough.fld F.GLB_CASTON_STATUS_WRITE_THROUGH = 1 ∧ s.castWriteThrough.fld F.GLB_FLUSH_COST_ENERGY_MJ = 0 ∧
    s.castWriteThrough.fld F.GLB_FLUSH_COST_TIME_US = 0 ∧ s.castWriteThrough.mode = s.mode := by
  have hkeep : ∀ u : State, u.Keeps [F.GLB_CASTON_STATUS_WRITE_THROUGH, F.GLB_FLUSH_COST_ENERGY_MJ, F.GLB_FLUSH_COST_TIME_US, F.CTL_STATUS_MODE] u.ledger.testWriteThrough := fun u =>
    (u.keeps_ledger (by decide)).trans (State.keeps_testWriteThrough _ (by decide))
  unfold State.castWriteThrough
  generalize hu : (((s.setFld F.GLB_CASTON_STATUS_WRITE_THROUGH 1).setFld F.GLB_FLUSH_COST_ENERGY_MJ 0).setFld F.GLB_FLUSH_COST_TIME_US 0) = u
  obtain ⟨hb, hp⟩ := u.ledger.testWriteThrough_units
  obtain ⟨hb', hp'⟩ := u.ledger_units
  specialize hkeep u
  generalize u.ledger.testWriteThrough = v at hkeep hb hp ⊢
  refine ⟨(hb.trans hb').trans (hu ▸ rfl), (hp.trans hp').trans (hu ▸ rfl), (hkeep _ (by decide)).trans ?_, (hkeep _ (by decide)).trans ?_, (hkeep _ (by decide)).trans ?_,
    (hkeep F.CTL_STATUS_MODE (by decide)).trans ?_⟩
  · rw [← hu, State.fld_setFld_ne _ _ (by decide), State.fld_setFld_ne _ _ (by decide)]
    exact State.fld_setFld_same _ _ _
  · rw [← hu, State.fld_setFld_ne _ _ (by decide)]
    exact State.fld_setFld_same _ _ _
  · rw [← hu]
    exact State.fld_setFld_same _ _ _
  · rw [← hu, State.fld_setFld_ne _ _ (by decide), State.fld_setFld_ne _ _ (by decide), State.fld_setFld_ne _ _ (by decide)]
    rfl

theorem State.selfFlush_lost {s : State} (uj us charge dv v1 i1 v2 i2 : Nat) (hon : s.pins.powered = true) (hrun : s.boot.testRunning = true)
    (hcast : s.headState = stCastOn) : ∃ t, exec (.selfFlushMeasured uj us charge dv v1 i1 v2 i2 true) s = .next t ∧
      t.fld F.GLB_CASTON_STATUS_WRITE_THROUGH = 1 ∧ t.fld F.GLB_FLUSH_COST_ENERGY_MJ = 0 ∧ t.fld F.GLB_FLUSH_COST_TIME_US = 0 ∧
      t.boot.testRunning = false ∧ t.mode = 0 := by
  have hexec : exec (.selfFlushMeasured uj us charge dv v1 i1 v2 i2 true) s = .next (s.live (s.endSelfFlush.setMode 0).castWriteThrough) := by
    refine congrArg (fun t => Host.Outcome.next (s.live t)) ((if_neg ?_).trans (if_pos (by rfl)))
    rw [hrun, hcast]
    simp
  obtain ⟨-, hpins, htest⟩ := s.endSelfFlush_units
  generalize s.endSelfFlush = u at *
  have hmode := u.mode_setMode_zero
  have hvpins : (u.setMode 0).pins = s.pins := hpins
  have hvtest : (u.setMode 0).boot.testRunning = false := htest
  generalize u.setMode 0 = v at *
  obtain ⟨hb, hp, hwt, he, ht, hm⟩ := v.castWriteThrough_spec
  exact ⟨_, hexec.trans (State.next_live_eq hon (hp.trans hvpins)), hwt, he, ht, by rw [hb, hvtest], hm.trans hmode⟩

/-- The observer takes the test's two samples, the flush costs are kept, and the ledger follows. -/
def State.testMeasured (v : State) (charge dv v1 i1 v2 i2 mj us : Nat) : State :=
  let p := v.capSample charge dv
  let q := p.2.esrSample v1 i1 v2 i2
  (((q.2.addSamples p.1 q.1).setFld F.GLB_FLUSH_COST_ENERGY_MJ mj).setFld F.GLB_FLUSH_COST_TIME_US us).ledger

theorem State.capSample_units (s : State) (q dv : Nat) : (s.capSample q dv).2.cells = s.cells ∧ (s.capSample q dv).2.boot = s.boot ∧ (s.capSample q dv).2.pins = s.pins := by
  unfold State.capSample
  split <;> exact ⟨rfl, rfl, rfl⟩

theorem State.esrSample_units (s : State) (v1 i1 v2 i2 : Nat) :
    (s.esrSample v1 i1 v2 i2).2.cells = s.cells ∧ (s.esrSample v1 i1 v2 i2).2.boot = s.boot ∧ (s.esrSample v1 i1 v2 i2).2.pins = s.pins := by
  unfold State.esrSample
  split <;> exact ⟨rfl, rfl, rfl⟩

theorem State.testMeasured_spec (v : State) (charge dv v1 i1 v2 i2 : Nat) {mj us : Nat} (hmj : mj ≤ 65535) (hus : us ≤ 65535) :
    let t := v.testMeasured charge dv v1 i1 v2 i2 mj us
    t.boot = v.boot ∧ t.pins = v.pins ∧ t.fld F.GLB_CASTON_STATUS_WRITE_THROUGH = v.fld F.GLB_CASTON_STATUS_WRITE_THROUGH ∧
      t.fld F.GLB_FLUSH_COST_ENERGY_MJ = mj ∧ t.fld F.GLB_FLUSH_COST_TIME_US = us := by
  unfold State.testMeasured
  dsimp only
  obtain ⟨hcells, hboot, hpins⟩ := v.capSample_units charge dv
  generalize v.capSample charge dv = p at hcells hboot hpins ⊢
  obtain ⟨hcells', hboot', hpins'⟩ := p.2.esrSample_units v1 i1 v2 i2
  generalize p.2.esrSample v1 i1 v2 i2 = q at hcells' hboot' hpins' ⊢
  obtain ⟨ab, ap⟩ := q.2.addSamples_units p.1 q.1
  have akeep := q.2.keeps_addSamples (l := [F.GLB_CASTON_STATUS_WRITE_THROUGH]) p.1 q.1 (by decide) (by decide) (by decide)
  generalize q.2.addSamples p.1 q.1 = u at ab ap akeep ⊢
  have hset : ((u.setFld F.GLB_FLUSH_COST_ENERGY_MJ mj).setFld F.GLB_FLUSH_COST_TIME_US us).boot = u.boot ∧
      ((u.setFld F.GLB_FLUSH_COST_ENERGY_MJ mj).setFld F.GLB_FLUSH_COST_TIME_US us).pins = u.pins := ⟨rfl, rfl⟩
  have hwt : ((u.setFld F.GLB_FLUSH_COST_ENERGY_MJ mj).setFld F.GLB_FLUSH_COST_TIME_US us).fld F.GLB_CASTON_STATUS_WRITE_THROUGH = u.fld F.GLB_CASTON_STATUS_WRITE_THROUGH :=
    (State.fld_setFld_ne _ _ (by decide)).trans (State.fld_setFld_ne _ _ (by decide))
  have he : ((u.setFld F.GLB_FLUSH_COST_ENERGY_MJ mj).setFld F.GLB_FLUSH_COST_TIME_US us).fld F.GLB_FLUSH_COST_ENERGY_MJ = mj :=
    (State.fld_setFld_ne _ _ (by decide)).trans ((State.fld_setFld_same _ _ _).trans (Nat.mod_eq_of_lt (Nat.lt_succ_of_le hmj)))
  have ht : ((u.setFld F.GLB_FLUSH_COST_ENERGY_MJ mj).setFld F.GLB_FLUSH_COST_TIME_US us).fld F.GLB_FLUSH_COST_TIME_US = us :=
    (State.fld_setFld_same _ _ _).trans (Nat.mod_eq_of_lt (Nat.lt_succ_of_le hus))
  generalize (u.setFld F.GLB_FLUSH_COST_ENERGY_MJ mj).setFld F.GLB_FLUSH_COST_TIME_US us = w at *
  obtain ⟨lb, lp⟩ := w.ledger_units
  have lkeep := w.keeps_ledger (l := [F.GLB_CASTON_STATUS_WRITE_THROUGH, F.GLB_FLUSH_COST_ENERGY_MJ, F.GLB_FLUSH_COST_TIME_US]) (by decide)
  refine ⟨?_, ?_, ?_, (lkeep _ (by decide)).trans he, (lkeep _ (by decide)).trans ht⟩
  · rw [lb, hset.1, ab, hboot', hboot]
  · rw [lp, hset.2, ap, hpins', hpins]
  · rw [lkeep _ (by decide), hwt, akeep _ (by decide), State.fld_of_cells hcells', State.fld_of_cells hcells]

theorem State.selfFlush_good {s : State} (uj us charge dv v1 i1 v2 i2 : Nat) (hon : s.pins.powered = true) (hrun : s.boot.testRunning = true)
    (hflush : s.testFlushing = false) (hcast : s.headState = stCastOn) (huj : ceilDiv uj (1000 * s.testGib) ≤ 65535) (hus : ceilDiv us s.testGib ≤ 65535) :
    ∃ t, exec (.selfFlushMeasured uj us charge dv v1 i1 v2 i2 false) s = .next t ∧
      t.fld F.GLB_CASTON_STATUS_WRITE_THROUGH = s.fld F.GLB_CASTON_STATUS_WRITE_THROUGH ∧
      t.fld F.GLB_FLUSH_COST_ENERGY_MJ = ceilDiv uj (1000 * s.testGib) ∧ t.fld F.GLB_FLUSH_COST_TIME_US = ceilDiv us s.testGib ∧
      t.boot.testRunning = false := by
  have hexec : exec (.selfFlushMeasured uj us charge dv v1 i1 v2 i2 false) s =
      .next (s.live ((s.endSelfFlush.setMode 1).testMeasured charge dv v1 i1 v2 i2 (ceilDiv uj (1000 * s.testGib)) (ceilDiv us s.testGib))) := by
    refine congrArg (fun t => Host.Outcome.next (s.live t)) ((if_neg ?_).trans (if_neg ?_))
    · rw [hrun, hcast, hflush]
      decide
    · rw [Bool.false_or, Bool.or_eq_true, decide_eq_true_eq, decide_eq_true_eq]
      omega
  obtain ⟨hcells, hpins, htest⟩ := s.endSelfFlush_units
  generalize s.endSelfFlush = u at *
  have hvpins : (u.setMode 1).pins = s.pins := hpins
  have hvtest : (u.setMode 1).boot.testRunning = false := htest
  have hwt := (u.keeps_setMode (l := [F.GLB_CASTON_STATUS_WRITE_THROUGH]) 1 (by decide) F.GLB_CASTON_STATUS_WRITE_THROUGH (by decide)).trans (State.fld_of_cells hcells _)
  generalize u.setMode 1 = v at *
  obtain ⟨mb, mp, mwt, me, mt⟩ := v.testMeasured_spec charge dv v1 i1 v2 i2 huj hus
  exact ⟨_, hexec.trans (State.next_live_eq hon (mp.trans hvpins)), mwt.trans hwt, me, mt, by rw [mb, hvtest]⟩

/-- Settles O13: each step by what it delivers, the bound by a forfeit, the test by its measure. -/
theorem castOnStepsFollowInOrder : Obligations.CastOnStepsFollowInOrder := by
  refine ⟨fun f s hon hcast hstep => State.castFuses_spec f hon hcast hstep, fun type cap mts s hon hcast hstep htype hcap hmts =>
    State.castDram_spec hon hcast hstep htype hcap hmts, fun s hon hcast hstep => ?_, fun s hon hcast hstep hseat hreplay hlevel =>
    State.castJoining_spec hon hcast hstep hseat hreplay hlevel, fun s hon hcast hheld hlo hhi => State.castTimeout_spec hon hcast hheld hlo hhi,
    fun uj us charge dv v1 i1 v2 i2 s hon hrun hcast => State.selfFlush_lost uj us charge dv v1 i1 v2 i2 hon hrun hcast,
    fun uj us charge dv v1 i1 v2 i2 s hon hrun hflush hcast huj hus => State.selfFlush_good uj us charge dv v1 i1 v2 i2 hon hrun hflush hcast huj hus⟩
  have hrun := execCastonStepDone_eq .done hon hcast (by omega)
  rw [show s.castNext .done = s.stepIs 10 from if_pos hstep] at hrun
  exact ⟨_, hrun.trans (State.next_live_eq hon rfl), rfl⟩

end Sys2Proof.Machine
end

section
/-! PROOF. O14: a re-pattern begins with its sections in order, or is refused; its last section completes it (02, Re-patterning
in service). -/
namespace Sys2Proof.Machine

/-! ### The re-pattern's own record -/

theorem State.Reports.repat {s t : State} (h : s.Reports t) : t.repat = s.repat := by rw [h]

theorem State.send_repat (s : State) (m : Sent) : (s.send m).repat = s.repat := (s.reports_send m).repat

theorem State.refreshRow_repat (s : State) (n : Nat) : (s.refreshRow n).repat = s.repat := by
  unfold State.refreshRow
  split
  · rfl
  · refine State.foldl_same State.repat ?_ _ _
    exact fun t p => t.setFld_repat _ _

theorem State.rowRegs_repat (s : State) (n : Nat) : (s.rowRegs n).repat = s.repat := by
  unfold State.rowRegs
  generalize List.range 12 = l
  split
  · refine State.foldl_same State.repat ?_ _ _
    exact fun t k => rfl
  · refine (State.refreshRow_repat _ _).trans (State.foldl_same State.repat ?_ _ _)
    exact fun t k => rfl

theorem State.applyRows_repat (s : State) (l : List (List Nat × List (Nat × List Nat))) : (s.applyRows l).repat = s.repat :=
  State.foldl_same State.repat State.rowRegs_repat _ _

theorem State.applyMotif_repat (s : State) (l : List (List Nat)) : (s.applyMotif l).repat = s.repat := by
  unfold State.applyMotif
  refine State.foldl_same State.repat ?_ _ _
  exact fun t k => rfl

theorem State.linkDown_repat (s : State) (p : Nat) : (s.linkDown p).repat = s.repat := by
  unfold State.linkDown
  split
  · exact State.raise_repat _ _
  · rfl

theorem State.applyEthernet_repat (s : State) (l : List Nat) : (s.applyEthernet l).repat = s.repat := by
  unfold State.applyEthernet
  have hdown (ports : List Nat) (u : State) : (ports.foldl State.linkDown u).repat = u.repat := State.foldl_same State.repat State.linkDown_repat _ _
  split
  · exact (State.foldl_same State.repat (fun t p => t.send_repat _) _ _).trans (hdown _ _)
  · exact hdown _ _

/-! ### Repairs -/

theorem State.addRepair_repat (s : State) (kind source unit failed spare : Nat) : (s.addRepair kind source unit failed spare).repat = s.repat :=
  State.raise_repat _ _

theorem State.swapEngine_repat (s : State) (pool e : Nat) (spare : Option Nat) : (s.swapEngine pool e spare).repat = s.repat :=
  State.foldl_same State.repat State.refreshRow_repat _ _

theorem State.replaceEngine_repat (s : State) (pool e : Nat) (spare : Option Nat) (counted : Bool) :
    (s.replaceEngine pool e spare counted).repat = s.repat := by
  have hcount (u : State) : (if counted then (u.inc (F.ROW_POOL_RETIRED pool)).raise F.ROW_ISR_ENGINE_RETIRED else u).repat = u.repat := by
    split
    · exact State.raise_repat _ _
    · rfl
  have hleft (u : State) (p : Prop) [Decidable p] (v : Nat) : (if p then u.setFld (F.ROW_POOL_SPARES_LEFT pool) v else u).repat = u.repat := by
    split <;> rfl
  unfold State.replaceEngine
  extract_lets was old s1 s2 s3
  have hspares : s3.repat = s.repat := (hleft s2 _ _).trans (hcount s1)
  clear_value s3
  cases spare with
  | some x => exact (State.swapEngine_repat _ _ _ _).trans ((State.raise_repat _ _).trans hspares)
  | none =>
    dsimp only
    split
    · exact (State.swapEngine_repat _ _ _ _).trans hspares
    · exact hspares

theorem State.applyRepair_repat (s : State) (source : Nat) (r : Repair) : (s.applyRepair source r).repat = s.repat := by
  unfold State.applyRepair
  rw [State.addRepair_repat]
  split
  · rfl
  split
  · split
    · exact State.replaceEngine_repat _ _ _ _ _
    · rfl
  split <;> rfl

theorem State.startDual_repat (s : State) (pool : Nat) : (s.startDual pool).repat = s.repat := by
  unfold State.startDual
  split <;> rfl

theorem State.stageShort_repat (s : State) (n type : Nat) : (s.stageShort n type).repat = s.repat := by
  have hraise := s.raise_repat F.ROW_ISR_POOL_SHORT
  unfold State.stageShort
  generalize s.raise F.ROW_ISR_POOL_SHORT = u at hraise ⊢
  dsimp only
  split
  · split
    · split
      · exact ((State.errFatal_repat _ _).trans (State.raise_repat _ _)).trans hraise
      · exact hraise
    · exact hraise
  · exact hraise

theorem State.callSpare_repat (s : State) (pool failed n type source : Nat) (named : Option Nat) :
    (s.callSpare pool failed n type source named).repat = s.repat := by
  unfold State.callSpare
  split
  · exact State.addRepair_repat _ _ _ _ _ _
  · exact State.stageShort_repat _ _ _

theorem State.retireEngine_repat (s : State) (pool e n type source : Nat) (named : Option Nat) :
    (s.retireEngine pool e n type source named).repat = s.repat := by
  unfold State.retireEngine
  rw [State.callSpare_repat, State.startDual_repat, State.raise_repat]
  refine State.foldl_same State.repat ?_ _ _
  exact fun t sid => rfl

theorem State.repairInService_repat (s : State) (r : Repair) : (s.repairInService r).repat = s.repat := by
  have happly := s.applyRepair_repat 1 r
  unfold State.repairInService
  generalize s.applyRepair 1 r = u at happly ⊢
  dsimp only
  split
  · split
    · exact State.addRepair_repat _ _ _ _ _ _
    split
    · exact State.retireEngine_repat _ _ _ _ _ _ _
    · exact happly
  · split <;> exact happly

/-- Whatever a section changes, the re-pattern's record stands while it is applied. -/
theorem State.applySection_repat (s : State) (c : ImageSection) : (s.applySection c).repat = s.repat := by
  unfold State.applySection
  split
  case h_1 l _ => exact s.applyEthernet_repat l
  case h_3 l _ =>
    refine State.foldl_same State.repat ?_ _ _
    exact fun t p => t.setFlag_repat _ _
  case h_4 l _ => exact s.applyRows_repat l
  case h_6 l _ => exact s.applyMotif_repat l
  case h_7 l _ =>
    refine State.foldl_same State.repat (fun t r => ?_) _ _
    split
    · exact t.applyRepair_repat 1 r
    · exact t.repairInService_repat r
  all_goals rfl

/-! ### How a re-pattern ends -/

/-- The fields of GLB_REPATTERN_RESULT. -/
def repatternResult : List Fld := [F.GLB_REPATTERN_RESULT_CODE, F.GLB_REPATTERN_RESULT_SECTIONS]

theorem State.repatDone_repat (s : State) (code n : Nat) : (s.repatDone code n).repat = s.repat := (State.raise_repat _ _).trans (State.resDone_repat _ _ _)

theorem State.sameUnits_repatDone (s : State) (code n : Nat) : s.SameUnits (s.repatDone code n) :=
  (s.regsOnly_resDone _ _).sameUnits.trans (State.sameUnits_raise _ _)

theorem State.answered_repatDone (s : State) {code n : Nat} (hc : code < 2 ^ F.GLB_REPATTERN_RESULT_CODE.width)
    (hn : n < 2 ^ F.GLB_REPATTERN_RESULT_SECTIONS.width) :
    s.Answered (s.repatDone code n) 0x40 [(F.GLB_REPATTERN_RESULT_CODE, code), (F.GLB_REPATTERN_RESULT_SECTIONS, n)] :=
  s.answered_done repatternResult rfl (by decide) (by simp [hc, hn])

theorem State.repatDone_isr (s : State) (code n : Nat) : (s.repatDone code n).fld F.GLB_ISR_REPATTERN_DONE = 1 := State.fld_raise_same _ _ rfl (by decide)

/-! ### REPATTERN_START -/

theorem State.fld_resStart_valid (s : State) {off : Nat} (h : (resValid off).key ≠ (resSeen off).key) : (s.resStart off).fld (resValid off) = 0 := by
  unfold State.resStart
  rw [State.fld_setFld_ne _ _ h, State.fld_setFld_same]
  rfl

/-- The image that REPATTERN_START reads. -/
def State.deltaImage (s : State) (bodies : List SectionBody) : Image :=
  ⟨s.rd (s.base F.GLB_REPATTERN_ADDR_LO_ADDR_LO F.GLB_REPATTERN_ADDR_HI_ADDR_HI 6) (s.fld F.GLB_REPATTERN_LEN_LENGTH), bodies⟩

theorem State.exec_repatternStart_idle {s : State} (bodies : List SectionBody) (hrun : s.repat.running = false) (hplay : s.playing = false) :
    exec (.repatternStart bodies) s = .next (s.live ((s.resStart 0x40).repatDone 8 0)) := by
  change execRepatternStart bodies s = _
  unfold execRepatternStart
  dsimp only
  rw [if_neg (by simp [hrun]), if_pos (by simp [hplay])]

theorem State.exec_repatternStart_length {s : State} {bodies : List SectionBody} (hrun : s.repat.running = false) (hplay : s.playing = true)
    (hpartner : s.fld F.GLB_PAIR_STATUS_PARTNER_STATE ≠ stHandover) (hlen : s.fld F.GLB_REPATTERN_LEN_LENGTH ≠ (s.deltaImage bodies).length) :
    exec (.repatternStart bodies) s = .next (s.live ((s.resStart 0x40).repatDone 1 0)) := by
  change execRepatternStart bodies s = _
  unfold execRepatternStart
  dsimp only
  rw [← State.deltaImage, if_neg (by simp [hrun]), if_neg (by simp [hplay]), if_neg hpartner, if_pos (.inl hlen)]

/-- A refused start answers its code with no section, and neither the re-pattern's record nor the Pattern changes. -/
theorem State.repatRefused_spec (s : State) {code : Nat} (hc : code < 2 ^ F.GLB_REPATTERN_RESULT_CODE.width) :
    ((s.resStart 0x40).repatDone code 0).pins = s.pins ∧ ((s.resStart 0x40).repatDone code 0).repat = s.repat ∧
    ((s.resStart 0x40).repatDone code 0).pattern = s.pattern ∧
    s.Answered ((s.resStart 0x40).repatDone code 0) 0x40 [(F.GLB_REPATTERN_RESULT_CODE, code), (F.GLB_REPATTERN_RESULT_SECTIONS, 0)] ∧
    ((s.resStart 0x40).repatDone code 0).fld F.GLB_ISR_REPATTERN_DONE = 1 := by
  have hseq : (s.resStart 0x40).fld (resSeq 0x40) = s.fld (resSeq 0x40) :=
    s.keeps_resStart (l := [resSeq 0x40]) (by decide) _ (List.mem_singleton_self _)
  have hunits := (s.resStart 0x40).sameUnits_repatDone code 0
  exact ⟨hunits.pins, hunits.repat, hunits.pattern, ((s.resStart 0x40).answered_repatDone hc (by decide)).of_seq hseq, State.repatDone_isr _ _ _⟩

/-- The drain of the first section begins: the head is in HANDOVER, and neither the re-pattern's record nor its result
changes. -/
theorem State.beginSection_spec (s : State) (h : s.repat.left ≠ []) :
    s.beginSection.repat = s.repat ∧ s.beginSection.headState = stHandover ∧ s.Keeps [resValid 0x40] s.beginSection := by
  have hrep := s.reports_setHead stHandover
  have hstate := s.headState_setHead (st := stHandover) (by decide)
  have hkeep : s.Keeps [resValid 0x40] (s.setHead stHandover) := s.keeps_setHead _ (by decide)
  unfold State.beginSection
  generalize s.setHead stHandover = u at hrep hstate hkeep ⊢
  cases hleft : s.repat.left with
  | nil => exact absurd hleft h
  | cons c rest =>
    dsimp only
    split
    · have hstall := State.foldl_same (fun t : State => (t.repat, t.cells))
        (f := fun t n => t.modRow n fun r => { r with stalled := true }) (fun t n => rfl) (s.rowsChanged ‹_›) u
      simp only [Prod.mk.injEq] at hstall
      obtain ⟨hrepat, hcells⟩ := hstall
      exact ⟨hrepat.trans hrep.repat, (State.Keeps.of_cells (l := [F.GLB_PAIR_STATUS_STATE]) hcells _ (by decide)).trans hstate, hkeep.trans (.of_cells hcells)⟩
    · exact ⟨hrep.repat, hstate, hkeep⟩

theorem insertBy_ne_nil {α : Type} (le : α → α → Bool) (x : α) (l : List α) : insertBy le x l ≠ [] := by
  cases l with
  | nil => exact List.cons_ne_nil _ _
  | cons y r =>
    unfold insertBy
    split <;> exact List.cons_ne_nil _ _

theorem sortBy_ne_nil {α : Type} (le : α → α → Bool) {l : List α} (h : l ≠ []) : sortBy le l ≠ [] := by
  cases l with
  | nil => exact absurd rfl h
  | cons x r => exact insertBy_ne_nil _ _ _

/-- The sections in ascending type. -/
def inTypeOrder (l : List ImageSection) : List ImageSection := sortBy (fun a b => decide (a.type ≤ b.type)) l

/-- The record of a re-pattern of which nothing is applied. -/
def repatOf (g : Image) : RepatSt :=
  { running := true, version := g.version, base := g.baseVersion, secEpoch := g.secEpoch, bound := g.dieId != 0,
    left := inTypeOrder (g.sections.filter fun c => !([] : List Nat).contains c.type), applied := [], before := 0 }

/-- What a start of a delta that passes every check answers, where no re-pattern is in part. -/
def State.repatBegun (s : State) (g : Image) : State :=
  let u : State := { s.resStart 0x40 with repat := repatOf g }
  if (repatOf g).left.isEmpty then u.repatFull else u.beginSection

theorem State.exec_repatternStart_begun {s : State} {bodies : List SectionBody} (hrun : s.repat.running = false) (hplay : s.playing = true)
    (hpartner : s.fld F.GLB_PAIR_STATUS_PARTNER_STATE ≠ stHandover) (hlen : s.fld F.GLB_REPATTERN_LEN_LENGTH = (s.deltaImage bodies).length)
    (hcheck : s.checkImage 2 true (s.deltaImage bodies) = 0) (hpart : s.flag F.GLB_PATTERN_INFO_PARTIAL = false)
    (hbase : (s.deltaImage bodies).baseVersion = s.fld F.GLB_PATTERN_VERSION_VERSION)
    (hver : (s.deltaImage bodies).baseVersion < (s.deltaImage bodies).version)
    (hrep : noRepeat ((s.deltaImage bodies).sections.map (·.type)) = true)
    (hfit : ((s.deltaImage bodies).sections.all fun c => liveTypes.contains c.type && s.sectionFits (s.deltaImage bodies).dieId c && !s.sectionRefused c) = true) :
    exec (.repatternStart bodies) s = .next (s.live (s.repatBegun (s.deltaImage bodies))) := by
  change execRepatternStart bodies s = _
  unfold execRepatternStart
  dsimp only
  rw [← State.deltaImage, if_neg (by simp [hrun]), if_neg (by simp [hplay]), if_neg hpartner, if_neg (by simp [← hlen, hcheck]),
    if_neg (by simp [hbase, hpart]; omega), if_neg (by simp only [hfit, hrep]; decide)]
  simp only [hpart]
  rfl

/-! ### The last section -/

theorem State.keeps_repatDone (s : State) (code n : Nat) : s.Keeps [F.GLB_PATTERN_VERSION_VERSION] (s.repatDone code n) :=
  (s.keeps_resDone repatternResult rfl (by decide)).trans (State.keeps_raise _ (by decide))

/-- With the Pattern's version in place and the record empty, what is left is the result. -/
theorem State.repatDone_full (s : State) {n version : Nat} (hn : n < 2 ^ F.GLB_REPATTERN_RESULT_SECTIONS.width)
    (hr : s.repat = {}) (hv : s.fld F.GLB_PATTERN_VERSION_VERSION = version) :
    (s.repatDone 0 n).repat = {} ∧ (s.repatDone 0 n).fld F.GLB_PATTERN_VERSION_VERSION = version ∧
    (s.repatDone 0 n).fld F.GLB_REPATTERN_RESULT_CODE = 0 ∧ (s.repatDone 0 n).fld F.GLB_REPATTERN_RESULT_SECTIONS = n ∧
    (s.repatDone 0 n).fld F.GLB_ISR_REPATTERN_DONE = 1 := by
  obtain ⟨-, -, -, hans⟩ := s.answered_repatDone (code := 0) (by decide) hn
  have hcode := hans (F.GLB_REPATTERN_RESULT_CODE, 0) (List.mem_cons_self ..)
  have hsections := hans (F.GLB_REPATTERN_RESULT_SECTIONS, n) (List.mem_cons_of_mem _ (List.mem_singleton_self _))
  have hversion := (s.keeps_repatDone 0 n F.GLB_PATTERN_VERSION_VERSION (List.mem_singleton_self _)).trans hv
  have hrepat := (s.repatDone_repat 0 n).trans hr
  have hisr := s.repatDone_isr 0 n
  generalize s.repatDone 0 n = t at *
  exact ⟨hrepat, hversion, hcode, hsections, hisr⟩

/-- A re-pattern done in full: its version runs, its record is empty and its result is code 0 with the sections applied. -/
theorem State.repatFull_spec (s : State) (h : s.repat.applied.length - s.repat.before < 2 ^ F.GLB_REPATTERN_RESULT_SECTIONS.width) :
    s.repatFull.repat = {} ∧ s.repatFull.fld F.GLB_PATTERN_VERSION_VERSION = s.repat.version % 2 ^ 32 ∧
    s.repatFull.fld F.GLB_REPATTERN_RESULT_CODE = 0 ∧
    s.repatFull.fld F.GLB_REPATTERN_RESULT_SECTIONS = s.repat.applied.length - s.repat.before ∧
    s.repatFull.fld F.GLB_ISR_REPATTERN_DONE = 1 := by
  have hset : ∀ u : State, u.Keeps [F.GLB_PATTERN_VERSION_VERSION] (((u.setFld (F.UPD_RUN_VERSION_VERSION 2) s.repat.version).setFld
      F.GLB_PATTERN_INFO_PARTIAL 0).setFld F.GLB_PATTERN_INFO_SEC_EPOCH s.repat.secEpoch) := fun u =>
    ((u.keeps_setFld _ (by decide)).trans (State.keeps_setFld _ _ (by decide))).trans (State.keeps_setFld _ _ (by decide))
  have hversion := State.fld_setFld_same s F.GLB_PATTERN_VERSION_VERSION s.repat.version
  unfold State.repatFull
  extract_lets n s1 s2
  have hs1 : s1.fld F.GLB_PATTERN_VERSION_VERSION = s.repat.version % 2 ^ 32 := (hset _ _ (List.mem_singleton_self _)).trans hversion
  clear_value s1
  refine State.repatDone_full _ h rfl ?_
  unfold s2
  split
  · exact (s1.keeps_setFld (l := [F.GLB_PATTERN_VERSION_VERSION]) (f := F.GLB_PATTERN_INFO_BOUND) 1 (by decide) _ (List.mem_singleton_self _)).trans hs1
  · exact hs1

/-- The head after a section: it counts a step, is PLAYING again, and the re-pattern's record has the section among those applied. -/
def State.sectionApplied (s : State) (c : ImageSection) (held : Nat) : State :=
  let s1 := (s.applySection c).inc F.GLB_PATTERN_INFO_STEPS
  (({ s1 with repat := { s1.repat with left := [], applied := s1.repat.applied ++ [c.type] } } : State).setHead stPlaying).noteHold held

theorem State.sectionApplied_repat (s : State) (c : ImageSection) (held : Nat) :
    (s.sectionApplied c held).repat = { s.repat with left := [], applied := s.repat.applied ++ [c.type] } := by
  have h : ((s.applySection c).inc F.GLB_PATTERN_INFO_STEPS).repat = s.repat := s.applySection_repat c
  unfold State.sectionApplied
  generalize (s.applySection c).inc F.GLB_PATTERN_INFO_STEPS = u at h ⊢
  rw [← h]
  exact (State.reports_setHead _ stPlaying).repat

theorem State.exec_repatternSection_last {s : State} {c : ImageSection} (held : Nat) (hrun : s.repat.running = true) (hleft : s.repat.left = [c])
    (hdrained : s.sectionDrained c = true) : exec (.repatternSection held) s = .next (s.live (s.sectionApplied c held).repatFull) := by
  change execRepatternSection held s = _
  unfold execRepatternSection
  rw [hrun, hleft]
  dsimp only
  rw [if_neg (by simp [hdrained]), if_pos List.isEmpty_nil]
  rfl

/-- Settles O14: each clause is one way of REPATTERN_START and REPATTERN_SECTION. -/
theorem repatterningAppliesSectionsInOrder : Obligations.RepatterningAppliesSectionsInOrder := by
  unfold Obligations.RepatterningAppliesSectionsInOrder
  refine ⟨fun bodies s hon hrun hplay => ?_, fun bodies s hon hrun hplay hpartner hlen => ?_,
    fun bodies s hon hrun hplay hpartner hlen hcheck hpart hbase hver hsec hfit => ?_, fun held c s hon hrun hleft hdrained hbefore hcount => ?_⟩
  · obtain ⟨hpins, hrepat, hpat, hans, hisr⟩ := s.repatRefused_spec (code := 8) (by decide)
    exact ⟨_, (State.exec_repatternStart_idle bodies hrun hplay).trans (State.next_live_eq hon hpins), hrepat, hpat, hans, hisr⟩
  · obtain ⟨hpins, hrepat, hpat, hans, hisr⟩ := s.repatRefused_spec (code := 1) (by decide)
    exact ⟨_, (State.exec_repatternStart_length hrun hplay hpartner hlen).trans (State.next_live_eq hon hpins), hrepat, hpat, hans.subset (by simp)⟩
  · obtain ⟨hne, hrep⟩ := hsec
    have hx := State.exec_repatternStart_begun hrun hplay hpartner hlen hcheck hpart hbase hver hrep hfit
    rw [← State.deltaImage] at *
    generalize s.deltaImage bodies = g at *
    have hleft : (repatOf g).left = inTypeOrder g.sections := congrArg inTypeOrder (by simp)
    have hnil : (repatOf g).left ≠ [] := hleft ▸ sortBy_ne_nil _ hne
    have hbegun : s.repatBegun g = State.beginSection { s.resStart 0x40 with repat := repatOf g } :=
      if_neg (by simpa using hnil)
    obtain ⟨hrepat, hstate, hkeep⟩ := State.beginSection_spec { s.resStart 0x40 with repat := repatOf g } hnil
    rw [hx, State.live_on hon, hbegun]
    have hres := (hkeep _ (List.mem_singleton_self _)).trans (s.fld_resStart_valid (off := 0x40) (by decide))
    generalize State.beginSection { s.resStart 0x40 with repat := repatOf g } = u at *
    exact ⟨_, rfl, by rw [hrepat]; rfl, by rw [hrepat]; rfl, by rw [hrepat]; exact hleft, hstate, hres⟩
  · rw [State.exec_repatternSection_last held hrun hleft hdrained, State.live_on hon]
    have hrec := s.sectionApplied_repat c held
    generalize s.sectionApplied c held = u at hrec ⊢
    have hn : u.repat.applied.length - u.repat.before = s.repat.applied.length + 1 - s.repat.before := by rw [hrec]; simp
    obtain ⟨hrepat, hver, hcode, hsections, hisr⟩ := u.repatFull_spec (by rw [hn]; change _ < 2 ^ 8; omega)
    have hversion : u.repat.version = s.repat.version := by rw [hrec]
    rw [hversion] at hver
    rw [hn] at hsections
    generalize u.repatFull = w at *
    exact ⟨_, rfl, hrepat, hver, hcode, hsections, hisr⟩

end Sys2Proof.Machine
end

section
/-! PROOF. O17: placement is answered block by block (03, The ordering point, The Efmo link, Drain to staging). -/
namespace Sys2Proof.Machine

/-! ### Messages to a partner that is heard -/

theorem State.hearsPartner_iff (s : State) : s.hearsPartner = true ↔ s.efmoUp = true ∧ s.efmo.fenced = false ∧ s.silent = false := by
  simp [State.hearsPartner, and_assoc]

/-- A head that hears its partner sends over Efmo. -/
theorem State.send_partner {s : State} (h : s.hearsPartner = true) {m : Sent} (hshut : s.shut m = false) : s.send m = { s with sent := s.sent ++ [m] } := by
  obtain ⟨hup, -, hsilent⟩ := s.hearsPartner_iff.mp h
  rw [State.send, hsilent, hshut, show s.flag F.GLB_PAIR_STATUS_EFMO_UP = true from hup, Bool.not_true, Bool.and_false, Bool.and_false]
  rfl

theorem State.shut_efmoAck (s : State) (a : AckMsg) : s.shut (.efmoAck a) = false := by simp [State.shut, Sent.onPorts]

theorem State.shut_efmoRefetchReply (s : State) (m : RefetchMsg) (b : Option BlockMsg) : s.shut (.efmoRefetchReply m b) = false := by
  simp [State.shut, Sent.onPorts]

/-- A marker's answer goes out with the credits owed, and none is owed then. -/
theorem State.ackMarker_spec {s : State} (h : s.hearsPartner = true) (m : Marker) (status failing : Nat) :
    s.ackMarker m status failing = { s with
      sent := s.sent ++ [.efmoAck ⟨m.seq, m.firstSlot, m.count, status, failing, s.commit.creditOwed, m.forwarded⟩],
      commit := { s.commit with creditOwed := 0 } } := by
  rw [State.ackMarker, State.send_partner h (s.shut_efmoAck _)]
  rfl

/-! ### BLOCK_MESSAGE -/

/-- The mirror ring's slot of a block message. -/
def mirrorSlotOf (m : BlockMsg) : MSlot := ⟨m.seq, m.volume, m.lba, m.index, m.mask, m.data, m.guard, carryGuard m.data == m.guard, false⟩

theorem State.sameUnits_countCarry (s : State) : s.SameUnits s.countCarry := (s.sameUnits_setFld _ _).trans (State.sameUnits_raise _ _)

theorem State.fld_countCarry_guard (s : State) : s.countCarry.fld F.CMT_ISR_GUARD = 1 := State.fld_raise_same _ _ rfl (by decide)

theorem State.placeMirror_good (s : State) {m : BlockMsg} (h : carryGuard m.data = m.guard) :
    s.placeMirror m = s.modCommit fun c => { c with mslots := c.mslots.put (m.slot % 8192) (mirrorSlotOf m) } := by
  unfold State.placeMirror
  dsimp only
  rw [if_pos (by simp [h])]
  rfl

theorem State.placeMirror_bad (s : State) {m : BlockMsg} (h : carryGuard m.data ≠ m.guard) :
    s.placeMirror m = s.countCarry.modCommit fun c => { c with mslots := c.mslots.put (m.slot % 8192) (mirrorSlotOf m) } := by
  unfold State.placeMirror
  dsimp only
  rw [if_neg (by simp [h])]
  rfl

/-- A block stands in its slot of the mirror ring; one whose guard does not check is counted. -/
theorem State.placeMirror_spec (s : State) (m : BlockMsg) :
    (s.placeMirror m).pins = s.pins ∧ (s.placeMirror m).sent = s.sent ∧
    (s.placeMirror m).commit = { s.commit with mslots := s.commit.mslots.put (m.slot % 8192) (mirrorSlotOf m) } ∧
    (carryGuard m.data = m.guard → s.placeMirror m = { s with commit := (s.placeMirror m).commit }) ∧
    (carryGuard m.data ≠ m.guard → (s.placeMirror m).fld F.CMT_ISR_GUARD = 1) := by
  by_cases h : carryGuard m.data = m.guard
  · rw [s.placeMirror_good h]
    exact ⟨rfl, rfl, rfl, fun _ => rfl, fun hn => absurd h hn⟩
  · rw [s.placeMirror_bad h]
    have hunits := s.sameUnits_countCarry
    have hguard := s.fld_countCarry_guard
    generalize s.countCarry = u at hunits hguard ⊢
    exact ⟨hunits.pins, hunits.sent, congrArg (fun c : CommitSt => { c with mslots := c.mslots.put (m.slot % 8192) (mirrorSlotOf m) }) hunits.commit,
      fun hg => absurd hg h, fun _ => hguard⟩

/-! ### END_MARKER -/

/-- What the mirror ring holds of an entry's blocks. -/
def State.foundBlocks (s : State) (m : Marker) : List (Option (Bool × Nat)) :=
  (slotsFrom m.firstSlot m.count).map fun k => ((s.commit.mslots.get? k).filter fun x => x.seq == m.seq && !x.done).map fun x => (x.good, x.guard)

/-- The head with a good entry among the mirror entries, once. -/
def State.withMirrorEntry (s : State) (m : Marker) : State :=
  if (endCheck (s.foundBlocks m) m.fold).1 = 0 ∧ !s.commit.mentries.any fun e => e.seq == m.seq && e.slots == slotsFrom m.firstSlot m.count then
    s.modCommit fun c => { c with mentries := c.mentries ++ [{
      seq := m.seq, slots := slotsFrom m.firstSlot m.count
      volume := (((slotsFrom m.firstSlot m.count).head?.bind fun k => (s.commit.mslots.get? k).filter fun x => x.seq == m.seq && !x.done).map (·.volume)).getD 0 }] }
  else s

theorem State.endMirror_eq (s : State) (m : Marker) :
    s.endMirror m = (s.withMirrorEntry m).ackMarker m (endCheck (s.foundBlocks m) m.fold).1 (endCheck (s.foundBlocks m) m.fold).2 := rfl

theorem State.withMirrorEntry_spec (s : State) (m : Marker) :
    (∃ l, s.withMirrorEntry m = { s with commit := { s.commit with mentries := l } }) ∧
    ((endCheck (s.foundBlocks m) m.fold).1 ≠ 0 → (s.withMirrorEntry m).commit.mentries = s.commit.mentries) ∧
    ((endCheck (s.foundBlocks m) m.fold).1 = 0 →
      (s.withMirrorEntry m).commit.mentries.any (fun e => e.seq == m.seq && e.slots == slotsFrom m.firstSlot m.count) = true) := by
  unfold State.withMirrorEntry
  split
  case isTrue h =>
    obtain ⟨hgood, -⟩ := h
    exact ⟨⟨_, rfl⟩, fun hn => absurd hgood hn, fun _ => by simp [State.modCommit]⟩
  case isFalse h => exact ⟨⟨_, rfl⟩, fun _ => rfl, fun hgood => by simpa [hgood] using h⟩

/-! ### ABORT_MARKER and the drain of a mirror entry -/

/-- t is s but for slots of the mirror ring, their tail and the credits owed, which only rise. -/
def State.FreesMirror (s t : State) : Prop :=
  t = { s with commit := { s.commit with mslots := t.commit.mslots, mtail := t.commit.mtail, creditOwed := t.commit.creditOwed } } ∧
  s.commit.creditOwed ≤ t.commit.creditOwed

theorem State.FreesMirror.trans {s t u : State} (h : s.FreesMirror t) (k : t.FreesMirror u) : s.FreesMirror u := by
  obtain ⟨ht, hle⟩ := h
  obtain ⟨hu, hle'⟩ := k
  refine ⟨?_, Nat.le_trans hle hle'⟩
  rw [hu, ht]

theorem State.freeMirrorN_frees (n : Nat) (s : State) : s.FreesMirror (State.freeMirrorN n s) := by
  induction n generalizing s with
  | zero => exact ⟨rfl, Nat.le_refl _⟩
  | succ k ih =>
    unfold State.freeMirrorN
    split
    · split
      · exact State.FreesMirror.trans ⟨rfl, Nat.le_succ _⟩ (ih _)
      · exact ⟨rfl, Nat.le_refl _⟩
    · exact ⟨rfl, Nat.le_refl _⟩

theorem State.mirrorDone_frees (s : State) (seq : Nat) (slots : List Nat) : s.FreesMirror (s.mirrorDone seq slots) :=
  State.FreesMirror.trans ⟨rfl, Nat.le_refl _⟩ (State.freeMirrorN_frees 8192 _)

theorem State.FreesMirror.hearsPartner {s t : State} (h : s.FreesMirror t) : t.hearsPartner = s.hearsPartner := by
  rw [h.1]
  rfl

theorem State.putStg_kept (s : State) (k : Nat) (g : Stg) :
    (s.putStg k g).sent = s.sent ∧ (s.putStg k g).pins = s.pins ∧ (s.putStg k g).commit.own = s.commit.own ∧
    (s.putStg k g).commit.mentries = s.commit.mentries := by
  unfold State.putStg
  split <;> exact ⟨rfl, rfl, rfl, rfl⟩

/-- A mirror entry whose slots fit the pool leaves the mirror entries; the own ring and what was sent stay. -/
theorem State.drainMirror_spec {s : State} {seq volume : Nat} {m : MEntry}
    (hm : s.commit.mentries.find? (fun m => m.seq == seq && m.volume == volume) = some m) (hfit : (s.stgFree true m.slots.length).length = m.slots.length) :
    (s.drainMirror seq volume).sent = s.sent ∧ (s.drainMirror seq volume).pins = s.pins ∧ (s.drainMirror seq volume).commit.own = s.commit.own ∧
    (s.drainMirror seq volume).commit.mentries = s.commit.mentries.filter (fun x => x != m) := by
  unfold State.drainMirror
  rw [hm]
  dsimp only
  unfold State.drainMirrorTo
  rw [hm]
  dsimp only
  rw [if_neg (by omega)]
  generalize hstep : (fun (t : State) (p : Nat × Nat) => _) = step
  have hkeep (t : State) (p : Nat × Nat) : ((step t p).sent, (step t p).pins, (step t p).commit.own, (step t p).commit.mentries) =
      (t.sent, t.pins, t.commit.own, t.commit.mentries) := by
    subst hstep
    dsimp only
    split
    · rfl
    · obtain ⟨hsent, hpins, hown, hmentries⟩ := t.putStg_kept p.2 _
      rw [hsent, hpins, hown, hmentries]
  have hfold := State.foldl_same (fun t : State => (t.sent, t.pins, t.commit.own, t.commit.mentries)) hkeep (m.slots.zip (s.stgFree true m.slots.length)) s
  generalize (m.slots.zip (s.stgFree true m.slots.length)).foldl step s = u at hfold ⊢
  simp only [Prod.mk.injEq] at hfold
  obtain ⟨hsent, hpins, hown, hmentries⟩ := hfold
  obtain ⟨hfrees, -⟩ := State.mirrorDone_frees (u.modCommit fun c => { c with mentries := c.mentries.filter fun x => x != m }) seq m.slots
  rw [hfrees]
  exact ⟨hsent, hpins, hown, congrArg (List.filter fun x => x != m) hmentries⟩

/-! ### The horizon and groups -/

theorem State.jnl_modJnl (s : State) (i : Nat) (f : JnlSt → JnlSt) : (s.modJnl i f).jnl i = f (s.jnl i) := ofInst_putInst _ _ _

/-- A journal whose groups below a tail are applied. -/
def appliedBelow (tail : Nat) (j : JnlSt) : JnlSt := { j with lastApplied := max j.lastApplied (tail - 1) }

/-- With no group below the tail nothing of the partner's is applied. -/
theorem State.passTail_none {s : State} {i tail : Nat} (hjoin : s.joinerApplies i = false) (h : ∀ g ∈ (s.jnl i).mirrored, tail ≤ g.jseq) :
    s.passTail i tail = s.modJnl i (appliedBelow tail) := by
  have hnone : ((s.jnl i).mirrored.filter fun g => decide (g.jseq < tail)) = [] :=
    List.filter_eq_nil_iff.mpr fun g hg => by simpa using h g hg
  unfold State.passTail
  rw [if_neg (by simp [hjoin]), hnone]
  rfl

/-- The horizon frees mirror staging at or below it; groups at or above the tail stay. -/
theorem State.takeHorizon_spec {s : State} {i horizon tail : Nat} (hjoin : s.joinerApplies i = false) (h : ∀ g ∈ (s.jnl i).mirrored, tail ≤ g.jseq) :
    let t := s.takeHorizon i horizon tail
    t.pins = s.pins ∧ t.commit.staging = s.commit.staging.filter (fun p => !(p.2.inst == i && decide (p.2.seq ≤ horizon) && p.2.mirror)) ∧
    (t.jnl i).mirrored = (s.jnl i).mirrored ∧ (t.jnl i).partnerTail = tail ∧ t.dram = s.dram ∧ t.sent = s.sent := by
  have hkept : ((s.jnl i).mirrored.filter fun g => decide (tail ≤ g.jseq)) = (s.jnl i).mirrored :=
    List.filter_eq_self.mpr fun g hg => by simpa using h g hg
  have hjoin' (f : JnlSt → JnlSt) : (s.modJnl i f).joinerApplies i = false := hjoin
  have hmirrored : ((s.modJnl i (appliedBelow tail)).jnl i).mirrored = (s.jnl i).mirrored := by
    rw [s.jnl_modJnl i]
    rfl
  have hpins : (s.modJnl i (appliedBelow tail)).pins = s.pins := rfl
  have hcommit : (s.modJnl i (appliedBelow tail)).commit = s.commit := rfl
  have hdram : (s.modJnl i (appliedBelow tail)).dram = s.dram := rfl
  have hsent : (s.modJnl i (appliedBelow tail)).sent = s.sent := rfl
  dsimp only
  unfold State.takeHorizon
  rw [State.passTail_none hjoin h]
  dsimp only
  rw [hjoin', State.jnl_modJnl]
  generalize (s.modJnl i (appliedBelow tail)) = u at *
  refine ⟨hpins, ?_, ?_, rfl, hdram, hsent⟩
  · simp only [Bool.false_and, Bool.or_false]
    exact congrArg (fun c : CommitSt => c.staging.filter _) hcommit
  · exact (congrArg (List.filter fun g => decide (tail ≤ g.jseq)) hmirrored).trans hkept

/-- A whole group is kept once. -/
theorem State.exec_journalGroup_kept {s : State} {g : JGroup} (h : s.hearsPartner = true) (hinst : g.inst < 2) (hjoin : s.joinerApplies g.inst = false)
    (hg : groupOf? g.inst (groupBytes g.jseq g.recs) = some g) :
    exec (.journalGroup g.inst (groupBytes g.jseq g.recs)) s =
      .next (s.live (s.modJnl g.inst fun j => { j with mirrored := (j.mirrored.filter fun x => x.jseq != g.jseq) ++ [g] })) := by
  change execJournalGroup _ _ s = _
  unfold execJournalGroup
  rw [if_pos h, Nat.mod_eq_of_lt hinst, hg]
  dsimp only
  rw [if_neg (by simp [hjoin])]

/-! ### Refetch -/

theorem State.exec_refetchRequest_none {s : State} {m : RefetchMsg} (intact : Bool) (h : s.hearsPartner = true) (hkind : m.kind = 1) (hcopy : s.mirrorCopy m = none) :
    exec (.refetchRequest m intact) s = .next (s.live { s with sent := s.sent ++ [.efmoRefetchReply { m with kind := 0x81, status := 1 } none] }) := by
  change execRefetchRequest m intact s = _
  unfold execRefetchRequest
  rw [if_neg (by simp [h]), if_neg (by simp [hkind]), hcopy]
  dsimp only
  rw [State.send_partner h (s.shut_efmoRefetchReply _ _)]

theorem State.exec_refetchRequest_held {s : State} {m : RefetchMsg} {mask : Nat} {d : Bytes} {g : Nat} (h : s.hearsPartner = true) (hkind : m.kind = 1)
    (hcopy : s.mirrorCopy m = some (mask, d, g)) (hguard : carryGuard d = g) :
    exec (.refetchRequest m true) s = .next (s.live { s with sent := s.sent ++
      [.efmoRefetchReply { m with kind := 0x81, status := 0 } (some ⟨m.seq, 0, mask, m.volume, m.block, false, m.lba, d, g⟩)] }) := by
  change execRefetchRequest m true s = _
  unfold execRefetchRequest
  rw [if_neg (by simp [h]), if_neg (by simp [hkind]), hcopy]
  dsimp only
  rw [if_pos (by simp [hguard]), State.send_partner h (s.shut_efmoRefetchReply _ _)]

/-- The refetch of a token is over. -/
def State.refetchOver (s : State) (token : Nat) : State := s.modCommit fun c => { c with refetch := c.refetch.del token }

theorem State.exec_refetchReply_good {s : State} {m : RefetchMsg} {b : BlockMsg} {key seq lba : Nat} (h : s.hearsPartner = true) (hkind : m.kind = 0x81)
    (hstatus : m.status = 0) (hguard : carryGuard b.data = b.guard) (hr : s.commit.refetch.get? m.token = some (key, seq, lba)) :
    exec (.refetchReply m (some b)) s = .next (s.live ((s.refetchOver m.token).refetchEnd key seq lba (some b.data))) := by
  change execRefetchReply m (some b) s = _
  unfold execRefetchReply State.endRefetch
  rw [if_neg (by simp [h]), if_neg (by omega), hr, if_pos hstatus, Option.filter, if_pos (by simp [hguard])]
  rfl

theorem State.exec_refetchTimeout {s : State} {token key seq lba : Nat} (hr : s.commit.refetch.get? token = some (key, seq, lba)) :
    exec (.refetchTimeout token) s = .next (s.live ((s.refetchOver token).refetchEnd key seq lba none)) := by
  change execRefetchTimeout token s = _
  unfold execRefetchTimeout State.endRefetch
  rw [hr]
  rfl

/-- A block that a refetch brings changes no register, and what asked goes on with it. -/
theorem State.refetchEnd_some (s : State) (key seq lba : Nat) (d : Bytes) :
    (s.refetchEnd key seq lba (some d)).pins = s.pins ∧ (s.refetchEnd key seq lba (some d)).commit.refetch = s.commit.refetch ∧
    (s.refetchEnd key seq lba (some d)).cells = s.cells ∧
    (key % 2 = 0 → s.refetchEnd key seq lba (some d) =
      s.modBlock (key / 2) seq lba (fun x => { x with data := d, guard := carryGuard d, refetched := false })) := by
  unfold State.refetchEnd
  split
  · exact ⟨rfl, rfl, rfl, fun _ => rfl⟩
  · exact ⟨rfl, rfl, rfl, fun h => absurd h ‹_›⟩

theorem State.countPoison_spec (s : State) :
    s.countPoison.pins = s.pins ∧ s.countPoison.commit = s.commit ∧ s.countPoison.sent = s.sent ∧ s.countPoison.fld F.CMT_ISR_GUARD = 1 ∧
    s.countPoison.fld F.CMT_ERRS_STAGING_POISON = min (s.fld F.CMT_ERRS_STAGING_POISON + 1) (2 ^ F.CMT_ERRS_STAGING_POISON.width - 1) := by
  have hunits : s.SameUnits ((s.inc F.CMT_ERRS_STAGING_POISON).raise F.CMT_ISR_GUARD) := (s.sameUnits_setFld _ _).trans (State.sameUnits_raise _ _)
  have hguard : ((s.inc F.CMT_ERRS_STAGING_POISON).raise F.CMT_ISR_GUARD).fld F.CMT_ISR_GUARD = 1 := State.fld_raise_same _ _ rfl (by decide)
  have hpoison := (State.keeps_raise (l := [F.CMT_ERRS_STAGING_POISON]) (s.inc F.CMT_ERRS_STAGING_POISON) (f := F.CMT_ISR_GUARD) (by decide)
    _ (List.mem_singleton_self _)).trans (s.fld_inc_same F.CMT_ERRS_STAGING_POISON 1)
  unfold State.countPoison
  generalize (s.inc F.CMT_ERRS_STAGING_POISON).raise F.CMT_ISR_GUARD = u at *
  have hkeep : u.Keeps [F.CMT_ISR_GUARD, F.CMT_ERRS_STAGING_POISON] (u.errDefer 0x10) :=
    (u.keeps_setFld _ (by decide)).trans (State.keeps_logEvent _ _ _ _ _ (by decide))
  have hg := (hkeep F.CMT_ISR_GUARD (by decide)).trans hguard
  have hp := (hkeep F.CMT_ERRS_STAGING_POISON (by decide)).trans hpoison
  exact ⟨hunits.pins, hunits.commit, hunits.sent, hg, hp⟩

/-- A block of the ring that a refetch does not bring is poisoned. -/
theorem State.refetchEnd_none (s : State) {key : Nat} (seq lba : Nat) (hkey : key % 2 = 0) :
    let t := s.refetchEnd key seq lba none
    t.pins = s.pins ∧ t.commit.refetch = s.commit.refetch ∧ t.sent = s.sent ∧ t.fld F.CMT_ISR_GUARD = 1 ∧
    t.fld F.CMT_ERRS_STAGING_POISON = min (s.fld F.CMT_ERRS_STAGING_POISON + 1) (2 ^ F.CMT_ERRS_STAGING_POISON.width - 1) := by
  obtain ⟨hpins, hcommit, hsent, hguard, hpoison⟩ := s.countPoison_spec
  unfold State.refetchEnd
  rw [if_pos hkey]
  dsimp only
  generalize s.countPoison = u at *
  exact ⟨hpins, (congrArg CommitSt.refetch hcommit : _), hsent, hguard, hpoison⟩

/-! ### Completions that are sent -/

/-- t has the own ring and the mirror credits of s. -/
def State.SameRing (s t : State) : Prop := t.commit.own = s.commit.own ∧ s.Keeps [F.CMT_RING_STATUS_MIRROR_CREDITS] t

theorem State.SameRing.refl (s : State) : s.SameRing s := ⟨rfl, .refl _ s⟩

theorem State.SameRing.trans {s t u : State} (h : s.SameRing t) (k : t.SameRing u) : s.SameRing u := ⟨k.1.trans h.1, h.2.trans k.2⟩

theorem State.SameRing.ite {s t u : State} {c : Prop} [Decidable c] (ht : s.SameRing t) (hu : s.SameRing u) : s.SameRing (if c then t else u) := by
  split
  · exact ht
  · exact hu

theorem State.SameRing.of_cells {s t : State} (hown : t.commit.own = s.commit.own) (hcells : t.cells = s.cells) : s.SameRing t := ⟨hown, .of_cells hcells⟩

theorem State.sameRing_setFld (s : State) {f : Fld} (v : Nat) (h : apartFrom f [F.CMT_RING_STATUS_MIRROR_CREDITS] = true) : s.SameRing (s.setFld f v) :=
  ⟨rfl, s.keeps_setFld v h⟩

theorem State.sameRing_raise (s : State) {f : Fld} (h : apartFrom f [F.CMT_RING_STATUS_MIRROR_CREDITS] = true) : s.SameRing (s.raise f) :=
  ⟨congrArg CommitSt.own (s.sameUnits_raise f).commit, s.keeps_raise h⟩

theorem State.sameRing_send (s : State) (m : Sent) : s.SameRing (s.send m) := .of_cells (congrArg CommitSt.own (s.send_commit m)) (s.send_cells m)

theorem State.sameRing_post (s : State) (n : Nat) (first : Bool) (w : OutWqe) : s.SameRing (s.post n first w) :=
  .of_cells (by rw [s.reports_post n first w]) (s.post_cells n first w)

theorem State.sameRing_foldl {α : Type} {f : State → α → State} (h : ∀ (t : State) (a : α), t.SameRing (f t a)) (l : List α) (s : State) :
    s.SameRing (l.foldl f s) := by
  induction l generalizing s with
  | nil => exact .refl s
  | cons a l ih => exact (h s a).trans (ih _)

theorem State.sameRing_postWrites (s : State) (n queue cid va key : Nat) (data : Bytes) : s.SameRing (s.postWrites n queue cid va key data) := by
  unfold State.postWrites
  exact State.sameRing_foldl (fun t c => t.sameRing_post _ _ _) _ s

theorem State.sameRing_sendHost (s : State) (m : HostMsg) : s.SameRing (s.sendHost m) := by
  cases m with
  | data q cid lba f va key d pi =>
    unfold State.sendHost
    exact (s.sameRing_send _).trans (.ite (State.sameRing_send _ _) (State.sameRing_postWrites _ _ _ _ _ _ _))
  | cqe q cid st first =>
    unfold State.sendHost
    exact (s.sameRing_send _).trans (.ite (.refl _) (State.sameRing_post _ _ _ _))

theorem State.sameRing_toHost (s : State) (q n : Nat) (m : HostMsg) : s.SameRing (s.toHost q n m) := by
  unfold State.toHost State.tcpSend
  refine .ite (.ite ?_ ?_) (s.sameRing_sendHost m)
  · exact (s.sameRing_sendHost m).trans (.of_cells rfl rfl)
  · exact (s.sameRing_raise (by decide)).trans (.of_cells rfl rfl)

theorem State.sameRing_freezeFor (s : State) (o : Origin) (st : HostStat) : s.SameRing (s.freezeFor o st) := by
  have hwr (t : State) (a n v : Nat) : t.SameRing (t.wrN a n v) := .of_cells rfl rfl
  unfold State.freezeFor
  extract_lets a s1 s2
  have hframe : s.SameRing s2 := (((hwr s _ _ _).trans (hwr _ _ _ _)).trans (hwr _ _ _ _)).trans (((hwr _ _ _ _).trans (hwr _ _ _ _)).trans (hwr _ _ _ _))
  clear_value s2
  refine .ite (.refl s) (.ite ?_ (.ite (hwr _ _ _ _) (.refl s)))
  exact (hframe.trans ((hwr _ _ _ _).trans (State.sameRing_setFld _ _ (by decide)))).trans
    ((State.sameRing_setFld _ _ (by decide)).trans (State.sameRing_raise _ (by decide)))

theorem State.sameRing_completeHost (s : State) (o : Origin) (st : HostStat) : s.SameRing (s.completeHost o st) := by
  have hunpin (t : State) : t.SameRing (t.unpin o) := State.SameRing.trans (t := t.modQp _ _) (.of_cells rfl rfl) (State.sameRing_setFld _ _ (by decide))
  have hready := (s.sameRing_freezeFor o st).trans (hunpin _)
  unfold State.completeHost
  refine .ite (s.sameRing_send _) ?_
  generalize (s.freezeFor o st).unpin o = u at hready ⊢
  exact hready.trans (.ite (u.sameRing_setFld _ (by decide)) (u.sameRing_toHost _ _ _))

theorem State.sameRing_ackMarker (s : State) (m : Marker) (status failing : Nat) : s.SameRing (s.ackMarker m status failing) :=
  (s.sameRing_send _).trans (.of_cells rfl rfl)

theorem State.sameRing_sendDue (s : State) (d : Due) : s.SameRing (s.sendDue d) := by
  unfold State.sendDue
  refine .ite (.of_cells rfl rfl) ?_
  split
  · exact .of_cells rfl rfl
  · exact s.sameRing_completeHost _ _
  · exact .ite (s.sameRing_ackMarker _ _ _) (s.sameRing_completeHost _ _)

/-- Sending the completions that are due leaves the own ring and the mirror credits. -/
theorem State.sameRing_sendDues (s : State) : s.SameRing s.sendDues :=
  State.SameRing.trans (t := s.modCommit fun c => { c with due := [] }) (.of_cells rfl rfl) (State.sameRing_foldl State.sameRing_sendDue _ _)

/-! ### Entries that become COMPLETE -/

/-- Which entries the own ring has, and where each is. -/
def State.ringStates (s : State) : List (Nat × Nat × EntrySt) := s.commit.own.map fun e => (e.inst, e.seq, e.st)

/-- t has the own ring's entries where s has them, and its mirror credits. -/
def State.SameStates (s t : State) : Prop := t.ringStates = s.ringStates ∧ s.Keeps [F.CMT_RING_STATUS_MIRROR_CREDITS] t

theorem State.SameStates.trans {s t u : State} (h : s.SameStates t) (k : t.SameStates u) : s.SameStates u := ⟨k.1.trans h.1, h.2.trans k.2⟩

theorem State.sameStates_foldl {α : Type} {f : State → α → State} (h : ∀ (t : State) (a : α), t.SameStates (f t a)) (l : List α) (s : State) :
    s.SameStates (l.foldl f s) := by
  induction l generalizing s with
  | nil => exact ⟨rfl, .refl _ s⟩
  | cons a l ih => exact (h s a).trans (ih _)

theorem State.SameRing.states {s t : State} (h : s.SameRing t) : s.SameStates t := ⟨congrArg (List.map _) h.1, h.2⟩

theorem State.sameStates_mapOwn (s : State) {f : Entry → Entry} (h : ∀ e, ((f e).inst, (f e).seq, (f e).st) = (e.inst, e.seq, e.st)) :
    s.SameStates { s with commit := { s.commit with own := s.commit.own.map f } } :=
  ⟨by rw [State.ringStates, List.map_map]; exact List.map_congr_left fun e _ => h e, .of_cells rfl⟩

theorem State.sameStates_modEntry (s : State) (inst seq : Nat) {f : Entry → Entry} (h : ∀ e, ((f e).inst, (f e).seq, (f e).st) = (e.inst, e.seq, e.st)) :
    s.SameStates (s.modEntry inst seq f) :=
  s.sameStates_mapOwn fun e => by
    split
    · exact h e
    · rfl

theorem State.sameRing_releaseDirty (s : State) (n : Nat) : s.SameRing (s.releaseDirty n) := ⟨rfl, s.keeps_setPair _ (by decide)⟩

theorem State.sameStates_supersede (s : State) (inst volume lba seq : Nat) : s.SameStates (s.supersede inst volume lba seq) := by
  unfold State.supersede
  extract_lets inRing inStg own stg
  have hown : s.SameStates { s with commit := { s.commit with own := own, staging := stg } } :=
    (s.sameStates_mapOwn fun e => by split <;> rfl).trans (t := { s with commit := { s.commit with own := own } }) (State.SameRing.of_cells rfl rfl).states
  generalize ({ s with commit := { s.commit with own := own, staging := stg } } : State) = u at hown ⊢
  exact hown.trans (u.sameRing_releaseDirty _).states

theorem State.sameRing_reportHorizon (s : State) (i : Nat) : s.SameRing (s.reportHorizon i) := by
  unfold State.reportHorizon
  extract_lets h s1
  have hs1 : s.SameRing s1 := .of_cells rfl rfl
  exact .ite (.refl s) (.ite (hs1.trans (State.sameRing_send _ _)) hs1)

theorem State.sameRing_commitLatency (s : State) : s.SameRing s.commitLatency := by
  have hfree : s.SameRing (s.free 16).2 := .of_cells rfl rfl
  unfold State.commitLatency
  generalize s.free 16 = p at hfree ⊢
  have hmax (v : Nat) : s.SameRing (p.2.setFld F.CMT_LAT_MAX_NS v) := hfree.trans (State.sameRing_setFld _ _ (by decide))
  dsimp only
  exact .ite ((hmax _).trans ((State.sameRing_setFld _ _ (by decide)).trans (State.sameRing_raise _ (by decide)))) (hmax _)

theorem State.sameRing_pieceThrough (s : State) (d : Due) : s.SameRing (s.pieceThrough d) := .ite (.of_cells rfl rfl) (.refl s)

/-- An entry of the own ring that becomes COMPLETE stands so; the mirror credits stay. -/
theorem State.completeEntry_spec {s : State} {e : Entry} (h : e ∈ s.commit.own) :
    (e.inst, e.seq, EntrySt.complete) ∈ (s.completeEntry e).ringStates ∧ s.Keeps [F.CMT_RING_STATUS_MIRROR_CREDITS] (s.completeEntry e) := by
  unfold State.completeEntry
  extract_lets covers s1 above late s2
  have hs1 : (e.inst, e.seq, EntrySt.complete) ∈ s1.ringStates ∧ s.Keeps [F.CMT_RING_STATUS_MIRROR_CREDITS] s1 := by
    refine ⟨?_, .of_cells rfl⟩
    refine List.mem_map.mpr ⟨_, List.mem_map_of_mem h, ?_⟩
    simp
  obtain ⟨hmem, hkeep⟩ := hs1
  have hrest : s1.SameStates (e.blocks.foldl (fun t b => t.supersede e.inst e.volume b.lba e.seq) (s2.releaseDirty late.length)) := by
    have hs2 : s1.SameStates s2 := s1.sameStates_modEntry _ _ fun _ => rfl
    clear_value s2
    exact (hs2.trans (s2.sameRing_releaseDirty _).states).trans (State.sameStates_foldl (fun t b => t.sameStates_supersede _ _ _ _) _ _)
  exact ⟨hrest.1 ▸ hmem, hkeep.trans hrest.2⟩

theorem State.finishEntry_spec {s : State} {e : Entry} (h : e ∈ s.commit.own) :
    (e.inst, e.seq, EntrySt.complete) ∈ (s.finishEntry e).ringStates ∧ s.Keeps [F.CMT_RING_STATUS_MIRROR_CREDITS] (s.finishEntry e) := by
  obtain ⟨hmem, hkeep⟩ := State.completeEntry_spec h
  have hafter (t : State) (ht : (s.completeEntry e).SameStates t) :
      (e.inst, e.seq, EntrySt.complete) ∈ t.ringStates ∧ s.Keeps [F.CMT_RING_STATUS_MIRROR_CREDITS] t := ⟨ht.1 ▸ hmem, hkeep.trans ht.2⟩
  unfold State.finishEntry
  generalize s.completeEntry e = u at hafter ⊢
  have hreport := (u.sameRing_reportHorizon e.inst).states
  refine hafter _ ?_
  dsimp only
  split
  · exact hreport
  · generalize u.reportHorizon e.inst = v at hreport ⊢
    have hlatency := hreport.trans v.sameRing_commitLatency.states
    generalize v.commitLatency = w at hlatency ⊢
    have hdone : w.SameStates (w.modEntry e.inst e.seq fun e => { e with completed := true }) := w.sameStates_modEntry _ _ fun _ => rfl
    generalize (w.modEntry e.inst e.seq fun e => { e with completed := true }) = x at hdone ⊢
    exact (hlatency.trans hdone).trans (x.sameRing_pieceThrough _).states

theorem State.entryComplete_spec {s : State} {e : Entry} (h : e ∈ s.commit.own) :
    (e.inst, e.seq, EntrySt.complete) ∈ (s.entryComplete e).ringStates ∧ s.Keeps [F.CMT_RING_STATUS_MIRROR_CREDITS] (s.entryComplete e) := by
  have hsync : s.SameRing (s.startSync e.inst e.seq e.volume e.first e.count e.origin) := by
    unfold State.startSync
    split
    · exact .refl s
    · exact .ite (.refl s) (.of_cells rfl rfl)
  unfold State.entryComplete
  generalize s.startSync e.inst e.seq e.volume e.first e.count e.origin = u at hsync ⊢
  obtain ⟨hmem, hkeep⟩ := State.finishEntry_spec (s := u) (hsync.1.symm ▸ h)
  exact ⟨hmem, hsync.2.trans hkeep⟩

/-! ### PLACEMENT_ACK -/

/-- The head with the credits of an acknowledgement. -/
def State.withCredits (s : State) (a : AckMsg) : State := s.setFld F.CMT_RING_STATUS_MIRROR_CREDITS (min 8192 (s.credits + a.credit))

theorem State.credits_withCredits (s : State) (a : AckMsg) : (s.withCredits a).credits = min 8192 (s.credits + a.credit) := by
  unfold State.withCredits State.credits
  rw [State.fld_setFld_same, Nat.mod_eq_of_lt (by change _ < 2 ^ 14; omega)]

/-- Does an entry wait for an acknowledgement? -/
def Awaits (a : AckMsg) (e : Entry) : Bool := e.seq == a.seq && e.mirrored && e.mirrorFirst == a.firstSlot && (e.st == .localDone || e.st == .aborted)

theorem State.exec_placementAck_done {s : State} {a : AckMsg} {e : Entry} (h : s.hearsPartner = true) (hown : a.forwarded = false) (hstatus : a.status = 0)
    (he : s.commit.own.find? (Awaits a) = some e) (hst : e.st = .localDone) :
    exec (.placementAck a) s = .next (s.live ((s.withCredits a).entryComplete e).sendDues) := by
  have hfind : (s.withCredits a).commit.own.find? (fun e => e.seq == a.seq && e.mirrored && e.mirrorFirst == a.firstSlot && (e.st == .localDone || e.st == .aborted))
    = some e := he
  change execPlacementAck a s = _
  unfold execPlacementAck
  rw [if_neg (by simp [h]), if_neg (by omega)]
  dsimp only
  rw [← State.withCredits, if_neg (by simp [hown])]
  generalize s.withCredits a = u at *
  unfold State.ackOwn
  rw [hfind]
  dsimp only
  rw [hst, if_neg (by decide), if_pos hstatus]

/-- The credits of an acknowledgement are taken, and the entry that waits for it is COMPLETE. -/
theorem State.placementAck_spec {s : State} {a : AckMsg} {e : Entry} (he : s.commit.own.find? (Awaits a) = some e) :
    let t := ((s.withCredits a).entryComplete e).sendDues
    t.credits = min 8192 (s.credits + a.credit) ∧ t.commit.own.any (fun x => x.inst == e.inst && x.seq == e.seq && x.st == .complete) = true := by
  have hmem : e ∈ (s.withCredits a).commit.own := List.mem_of_find?_eq_some he
  have hcredits := s.credits_withCredits a
  generalize s.withCredits a = u at *
  obtain ⟨hdone, hkeep⟩ := State.entryComplete_spec hmem
  generalize u.entryComplete e = v at *
  obtain ⟨hstates, hkeep'⟩ := v.sameRing_sendDues.states
  refine ⟨((hkeep.trans hkeep') _ (List.mem_singleton_self _)).trans hcredits, ?_⟩
  obtain ⟨x, hx, hxe⟩ := List.mem_map.mp (hstates.symm ▸ hdone)
  simp only [Prod.mk.injEq] at hxe
  obtain ⟨hinst, hseq, hst⟩ := hxe
  exact List.any_eq_true.mpr ⟨x, hx, by simp [hinst, hseq, hst]⟩

/-- Settles O17: each clause is one message of placement, drain, the horizon, groups or refetch. -/
theorem placementIsAnsweredBlockByBlock : Obligations.PlacementIsAnsweredBlockByBlock := by
  unfold Obligations.PlacementIsAnsweredBlockByBlock
  refine ⟨fun m s => ?_, fun m s => ?_, fun m s hon h hfwd hkind => ?_, fun a e s hon h hfwd hstatus he hst => ?_, fun inst seq volume bad m s hon hm hfit => ?_,
    fun inst horizon tail s hon hinst h hjoin htail => ?_, fun g s hon hinst h hjoin hg => ?_, fun m intact s hon h hkind hcopy => ?_,
    fun m mask d g s hon h hkind hcopy hguard => ?_, fun m b key seq lba s hon h hkind hstatus hguard hr => ?_, fun token key seq lba s hon hr hkey => ?_⟩
  · intro slot hon h hfwd
    have hx : exec (.blockMessage m) s = .next (s.live (s.placeMirror m)) :=
      congrArg (fun t => Host.Outcome.next (s.live t)) ((if_neg (by simp [h])).trans (if_neg (by simp [hfwd])))
    obtain ⟨hpins, hsent, hcommit, hgood, hbad⟩ := s.placeMirror_spec m
    exact ⟨_, hx.trans (State.next_live_eq hon hpins), hcommit, hgood, hbad, hsent⟩
  · intro found hon h hfwd hkind
    have hx : exec (.endMarker m) s = .next (s.live (s.endMirror m)) :=
      congrArg (fun t => Host.Outcome.next (s.live t)) ((if_neg (by simp [h])).trans ((if_neg (by simp [hkind])).trans (if_neg (by simp [hfwd]))))
    obtain ⟨⟨l, hl⟩, hkeep, hadd⟩ := s.withMirrorEntry_spec m
    have hears : (s.withMirrorEntry m).hearsPartner = true := by rw [hl]; exact h
    rw [hx, State.endMirror_eq, State.ackMarker_spec hears, State.next_live_eq hon (by rw [hl]), hfwd]
    refine ⟨_, rfl, ?_, rfl, hkeep, hadd⟩
    rw [hl]
    rfl
  · have hx : exec (.abortMarker m) s = .next (s.live ((s.mirrorDone m.seq (slotsFrom m.firstSlot m.count)).ackMarker m 0 0)) :=
      congrArg (fun t => Host.Outcome.next (s.live t)) ((if_neg (by simp [h])).trans ((if_neg (by simp [hkind])).trans (if_neg (by simp [hfwd]))))
    have hfrees := s.mirrorDone_frees m.seq (slotsFrom m.firstSlot m.count)
    generalize s.mirrorDone m.seq (slotsFrom m.firstSlot m.count) = u at hx hfrees
    rw [hx, State.ackMarker_spec (hfrees.hearsPartner.trans h), hfwd]
    obtain ⟨hu, hle⟩ := hfrees
    rw [State.next_live_eq hon (by rw [hu])]
    refine ⟨_, u.commit.creditOwed, rfl, ?_, hle, rfl, ?_⟩
    · rw [hu]
    · rw [hu]
  · obtain ⟨hcredits, hdone⟩ := State.placementAck_spec (a := a) he
    have hx := State.exec_placementAck_done h hfwd hstatus he hst
    generalize ((s.withCredits a).entryComplete e).sendDues = u at *
    rw [hx, State.live_on hon]
    exact ⟨_, rfl, hcredits, hdone⟩
  · obtain ⟨hsent, hpins, hown, hmentries⟩ := State.drainMirror_spec hm hfit
    exact ⟨_, State.next_live_eq hon hpins, hmentries, hsent, hown⟩
  · obtain ⟨hpins, hspec⟩ := State.takeHorizon_spec (horizon := horizon) hjoin htail
    have hx : exec (.hardenedHorizon inst horizon tail) s = .next (s.live (s.takeHorizon inst horizon tail)) := by
      change Host.Outcome.next (s.live (if s.hearsPartner then s.takeHorizon (inst % 2) horizon tail else s)) = _
      rw [if_pos h, Nat.mod_eq_of_lt hinst]
    exact ⟨_, hx.trans (State.next_live_eq hon hpins), hspec⟩
  · refine ⟨_, (State.exec_journalGroup_kept h hinst hjoin hg).trans (State.next_live_eq hon rfl), ?_, rfl⟩
    rw [State.jnl_modJnl]
  · exact ⟨_, (State.exec_refetchRequest_none intact h hkind hcopy).trans (State.next_live_eq hon rfl), rfl⟩
  · exact ⟨_, (State.exec_refetchRequest_held h hkind hcopy hguard).trans (State.next_live_eq hon rfl), rfl⟩
  · obtain ⟨hpins, hrefetch, hcells, hblock⟩ := (s.refetchOver m.token).refetchEnd_some key seq lba b.data
    exact ⟨_, (State.exec_refetchReply_good h hkind hstatus hguard hr).trans (State.next_live_eq hon hpins), hrefetch, by rw [State.fld, hcells]; rfl, hblock⟩
  · obtain ⟨hpins, hrefetch, hsent, hguard, hpoison⟩ := (s.refetchOver token).refetchEnd_none seq lba hkey
    exact ⟨_, (State.exec_refetchTimeout hr).trans (State.next_live_eq hon hpins), hrefetch, hpoison, hguard, hsent⟩

end Sys2Proof.Machine
end

section
/-! SUPPORT. What the work of a rejoin leaves of the pair's state: the map, the journal, superblocks, the own ring and messages to
hosts change neither it, nor which head this is, nor which group was applied last. -/
namespace Sys2Proof.Machine

/-! ### The frame -/

/-- t has the pair's state, the head's identity and the last group applied of either journal as s has them. -/
def State.SamePair (s t : State) : Prop :=
  t.pairSt = s.pairSt ∧ s.Keeps [F.GLB_PAIR_STATUS_HEAD_ID] t ∧ ∀ i, (t.jnl i).lastApplied = (s.jnl i).lastApplied

section
variable {s t u : State}

theorem State.SamePair.refl (s : State) : s.SamePair s := ⟨rfl, .refl _ s, fun _ => rfl⟩

theorem State.SamePair.trans (h : s.SamePair t) (k : t.SamePair u) : s.SamePair u :=
  ⟨k.1.trans h.1, h.2.1.trans k.2.1, fun i => (k.2.2 i).trans (h.2.2 i)⟩

theorem State.SamePair.ite {c : Prop} [Decidable c] (ht : s.SamePair t) (hu : s.SamePair u) : s.SamePair (if c then t else u) := by
  split
  · exact ht
  · exact hu

theorem State.SamePair.foldl {α : Type} {f : State → α → State} (h : ∀ (t : State) (a : α), t.SamePair (f t a)) (l : List α) (s : State) :
    s.SamePair (l.foldl f s) := by
  induction l generalizing s with
  | nil => exact .refl s
  | cons a l ih => exact (h s a).trans (ih _)

theorem State.SamePair.of_same (hpair : t.pairSt = s.pairSt) (hcells : t.cells = s.cells) (hjnl : t.ftl.jnl = s.ftl.jnl) : s.SamePair t :=
  ⟨hpair, .of_cells hcells, fun i => congrArg (fun p => (ofInst p i).lastApplied) hjnl⟩

theorem State.SamePair.of_units (hunits : s.SameUnits t) (hkeep : s.Keeps [F.GLB_PAIR_STATUS_HEAD_ID] t) : s.SamePair t :=
  ⟨hunits.pairSt, hkeep, fun i => congrArg (fun x : FtlSt => (ofInst x.jnl i).lastApplied) hunits.ftl⟩

/-- A register beyond the first ones is another than the head's identity. -/
theorem apartFrom_headId {f : Fld} (h : 0x100 ≤ f.off) : apartFrom f [F.GLB_PAIR_STATUS_HEAD_ID] = true := by
  have hkey : F.GLB_PAIR_STATUS_HEAD_ID.key ≠ f.key := by
    simp only [Fld.key, F.GLB_PAIR_STATUS_HEAD_ID]
    omega
  simp [apartFrom, hkey]
  decide

end

/-- An indexed register lies where the first of its kind does, or above. -/
theorem off_high {a k : Nat} (h : 0x100 ≤ a := by decide) : 0x100 ≤ a + k := Nat.le_add_right_of_le h

theorem State.samePair_setFld (s : State) {f : Fld} (v : Nat) (h : 0x100 ≤ f.off) : s.SamePair (s.setFld f v) :=
  .of_units (s.sameUnits_setFld f v) (s.keeps_setFld v (apartFrom_headId h))

theorem State.samePair_setFlag (s : State) {f : Fld} (b : Bool) (h : 0x100 ≤ f.off) : s.SamePair (s.setFlag f b) := s.samePair_setFld _ h

theorem State.samePair_inc (s : State) {f : Fld} (n : Nat) (h : 0x100 ≤ f.off) : s.SamePair (s.inc f n) := s.samePair_setFld _ h

theorem State.samePair_setPair (s : State) {lo hi : Fld} (v : Nat) (hlo : 0x100 ≤ lo.off) (hhi : 0x100 ≤ hi.off) : s.SamePair (s.setPair lo hi v) :=
  (s.samePair_setFld _ hlo).trans (State.samePair_setFld _ _ hhi)

theorem State.samePair_count64 (s : State) {lo hi w : Fld} (n : Nat) (hlo : 0x100 ≤ lo.off) (hhi : 0x100 ≤ hi.off) (hw : 0x100 ≤ w.off) :
    s.SamePair (s.count64 lo hi w n) := (s.samePair_setPair _ hlo hhi).trans (State.samePair_inc _ _ hw)

theorem State.samePair_raise (s : State) {f : Fld} (h : 0x100 ≤ f.off) : s.SamePair (s.raise f) :=
  .of_units (s.sameUnits_raise f) (s.keeps_raise (apartFrom_headId h))

theorem State.samePair_errDefer (s : State) (b : Nat) : s.SamePair (s.errDefer b) :=
  (s.samePair_setFld _ (by decide)).trans (.of_units (State.logs_logEvent _ _ _ _ _).sameUnits (State.keeps_logEvent _ _ _ _ _ (by decide)))

theorem State.samePair_wrN (s : State) (a n v : Nat) : s.SamePair (s.wrN a n v) := .of_same rfl rfl rfl

theorem State.samePair_send (s : State) (m : Sent) : s.SamePair (s.send m) :=
  .of_same (s.send_pairSt m) (s.send_cells m) (congrArg FtlSt.jnl (s.send_ftl m))

theorem State.samePair_post (s : State) (n : Nat) (first : Bool) (w : OutWqe) : s.SamePair (s.post n first w) :=
  .of_same (by rw [s.reports_post n first w]) (s.post_cells n first w) (by rw [s.reports_post n first w])

/-- A change of a journal that leaves the last group applied. -/
theorem State.samePair_modJnl (s : State) (i : Nat) {f : JnlSt → JnlSt} (h : ∀ j, (f j).lastApplied = j.lastApplied) : s.SamePair (s.modJnl i f) := by
  refine ⟨rfl, .of_cells rfl, fun k => ?_⟩
  unfold State.modJnl State.modFtl State.jnl putInst ofInst
  by_cases hi : i = 0 <;> by_cases hk : k = 0 <;> simp [hi, hk, h]

/-! ### Superblocks -/

theorem State.samePair_recandidate (s : State) (i : Nat) : s.SamePair (s.recandidate i) := by
  unfold State.recandidate
  extract_lets l
  split
  · exact ((s.samePair_setFld _ off_high).trans (State.samePair_setFlag _ _ off_high)).trans
      (State.samePair_setFld _ _ off_high)
  · exact ((s.samePair_setFld _ off_high).trans (State.samePair_setFld _ _ off_high)).trans
      (State.samePair_setFld _ _ off_high)

theorem State.samePair_sbChanged (s : State) (sb : Nat) : s.SamePair (s.sbChanged sb) := .ite (s.samePair_recandidate _) (.refl s)

theorem State.samePair_addStat (s : State) (sb off n : Nat) (d : Int) : s.SamePair (s.addStat sb off n d) := s.samePair_wrN _ _ _

theorem State.samePair_addValid (s : State) (i : Nat) (d : Int) : s.SamePair (s.addValid i d) := s.samePair_setPair _ off_high off_high

theorem State.samePair_addInvalid (s : State) (i : Nat) (d : Int) : s.SamePair (s.addInvalid i d) := s.samePair_setPair _ off_high off_high

theorem State.samePair_slotsValid (s : State) (sb n : Nat) : s.SamePair (s.slotsValid sb n) :=
  ((s.samePair_addStat _ _ _ _).trans (State.samePair_addValid _ _ _)).trans (State.samePair_sbChanged _ _)

theorem State.samePair_slotsInvalid (s : State) (sb n : Nat) : s.SamePair (s.slotsInvalid sb n) :=
  ((s.samePair_addStat _ _ _ _).trans (State.samePair_addInvalid _ _ _)).trans (State.samePair_sbChanged _ _)

theorem State.samePair_slotsFreed (s : State) (sb n : Nat) : s.SamePair (s.slotsFreed sb n) :=
  ((s.samePair_addStat _ _ _ _).trans (State.samePair_addValid _ _ _)).trans (State.samePair_slotsInvalid _ _ _)

theorem State.samePair_recountRebuild (s : State) (i : Nat) : s.SamePair (s.recountRebuild i) := by
  unfold State.recountRebuild
  extract_lets l exposed broken worse s1 s2
  have hs1 : s.SamePair s1 := ((s.samePair_setFld _ off_high).trans (State.samePair_setFld _ _ off_high)).trans (State.samePair_setFld _ _ off_high)
  clear_value s1
  have hs2 : s1.SamePair s2 := by
    unfold s2
    split
    · exact ((s1.samePair_setFld _ off_high).trans (State.samePair_setFld _ _ off_high)).trans (State.samePair_setFld _ _ off_high)
    · exact ((s1.samePair_setFld _ off_high).trans (State.samePair_setFld _ _ off_high)).trans (State.samePair_setFld _ _ off_high)
  clear_value s2
  exact .ite (.refl s) (.ite ((hs1.trans hs2).trans (s2.samePair_raise (by decide))) (hs1.trans hs2))

theorem State.samePair_raiseIf (s : State) (c : Prop) [Decidable c] {f : Fld} (h : 0x100 ≤ f.off) : s.SamePair (if c then s.raise f else s) :=
  .ite (s.samePair_raise h) (.refl s)

theorem State.samePair_recountSbs (s : State) (i : Nat) : s.SamePair (s.recountSbs i) := by
  unfold State.recountSbs
  extract_lets l hu live free fast dense meta_ huN f s1 s2 s3 s4 s5
  have hs1 : s.SamePair s1 := (((s.samePair_setFld _ off_high).trans (State.samePair_setFld _ _ off_high)).trans ((State.samePair_setFld _ _ off_high).trans
    (State.samePair_setFld _ _ off_high))).trans (((State.samePair_setFld _ _ off_high).trans (State.samePair_setFld _ _ off_high)).trans
    ((State.samePair_setFld _ _ off_high).trans (State.samePair_setFld _ _ off_high)))
  clear_value s1
  have hs2 : s1.SamePair s2 := s1.samePair_raiseIf _ (by decide)
  clear_value s2
  have hs3 : s2.SamePair s3 := s2.samePair_raiseIf _ (by decide)
  clear_value s3
  have hs4 : s3.SamePair s4 := s3.samePair_raiseIf _ (by decide)
  clear_value s4
  have hs5 : s4.SamePair s5 := s4.samePair_raiseIf _ (by decide)
  clear_value s5
  exact .ite (.refl s) (((hs1.trans hs2).trans (hs3.trans hs4)).trans (hs5.trans ((s5.samePair_recandidate i).trans (State.samePair_recountRebuild _ _))))

theorem State.samePair_setSbState (s : State) (sb st : Nat) : s.SamePair (s.setSbState sb st) := by
  have hmode : s.SamePair (s.noteMode sb) := .of_same rfl rfl rfl
  unfold State.setSbState
  extract_lets s1
  have hs1 : s.SamePair s1 := .ite hmode (.refl s)
  clear_value s1
  exact (hs1.trans (s1.samePair_wrN _ _ _)).trans (State.samePair_recountSbs _ _)

theorem State.SamePair.setSbState {s t : State} (h : s.SamePair t) (sb st : Nat) : s.SamePair (t.setSbState sb st) := h.trans (t.samePair_setSbState sb st)

theorem State.samePair_rewear (s : State) (i : Nat) : s.SamePair (s.rewear i) := by
  unfold State.rewear
  extract_lets l bad mx mn s1
  have hs1 : s.SamePair s1 := (s.samePair_setFld _ off_high).trans (State.samePair_setFld _ _ off_high)
  clear_value s1
  exact hs1.trans (s1.samePair_raiseIf _ (by decide))

theorem State.samePair_markBad (s : State) (member reason : Nat) : s.SamePair (s.markBad member reason) := by
  unfold State.markBad
  extract_lets a m
  split
  extract_lets s0
  have hs0 : s.SamePair s0 := .of_same rfl rfl rfl
  clear_value s0
  exact (((hs0.trans (s0.samePair_wrN _ _ _)).trans ((State.samePair_inc _ _ (by decide)).trans (State.samePair_setFld _ _ (by decide)))).trans
    ((State.samePair_setFld _ _ (by decide)).trans (State.samePair_raise _ (by decide)))).trans (State.samePair_rewear _ _)

theorem State.samePair_addWear (s : State) (member : Nat) : s.SamePair (s.addWear member) := by
  unfold State.addWear
  extract_lets w m
  split
  extract_lets s1
  have hs1 : s.SamePair s1 := .of_same rfl rfl rfl
  clear_value s1
  exact (hs1.trans (s1.samePair_wrN _ _ _)).trans (State.samePair_rewear _ _)

/-! ### Operations and stripes -/

theorem State.samePair_queueOp (s : State) (budget : Nat) (p : PendOp) : s.SamePair (s.queueOp budget p) := .of_same rfl rfl rfl

theorem State.samePair_issueOp (s : State) (p : PendOp) : s.SamePair (s.issueOp p) := by
  unfold State.issueOp
  extract_lets t old op media port s1
  have hs1 : s.SamePair s1 := .of_same rfl rfl rfl
  clear_value s1
  exact (hs1.trans (s1.samePair_send _)).trans (.foldl (fun u d => u.samePair_send _) _ _)

theorem State.samePair_sendClaim (s : State) (half epoch : Nat) (die : Option Nat) (m : Nat) : s.SamePair (s.sendClaim half epoch die m) :=
  s.samePair_issueOp _

theorem State.samePair_setOpen (s : State) (o : OpenSb) : s.SamePair (s.setOpen o) := .of_same rfl rfl rfl

theorem State.samePair_programUnit (s : State) (o : OpenSb) (unit : Nat) : s.SamePair (s.programUnit o unit) := by
  unfold State.programUnit
  extract_lets us hu flags s0 s1 now later
  have hs0 : s.SamePair s0 := .ite (s.samePair_wrN _ _ _) (.refl s)
  clear_value s0
  have hs1 : s0.SamePair s1 := .foldl (fun t j => t.samePair_queueOp _ _) _ _
  clear_value s1
  exact (hs0.trans hs1).trans (s1.samePair_setOpen _)

theorem State.samePair_endStripe (s : State) (o : OpenSb) : s.SamePair (s.endStripe o) :=
  .ite (s.samePair_programUnit _ _) (s.samePair_setOpen _)

theorem State.samePair_endCodeword (s : State) (o : OpenSb) : s.SamePair (s.endCodeword o) := by
  unfold State.endCodeword
  extract_lets s1
  have hs1 : s.SamePair s1 := .ite (s.samePair_slotsInvalid _ _) (.refl s)
  clear_value s1
  exact hs1.trans (.ite (s1.samePair_endStripe o) (s1.samePair_setOpen _))

theorem State.samePair_place (s : State) (x : ToPlace) : s.SamePair (s.place x) := by
  unfold State.place
  split
  · exact .of_same rfl rfl rfl
  · extract_lets s1
    have hs1 : s.SamePair s1 := .ite (.refl s) (s.samePair_endCodeword _)
    clear_value s1
    split
    · exact hs1.trans (.of_same rfl rfl rfl)
    · extract_lets o2 s2
      have hs2 : s1.SamePair s2 := s1.samePair_setOpen o2
      clear_value s2
      exact (hs1.trans hs2).trans (.ite (s2.samePair_endCodeword o2) (.refl s2))

theorem State.samePair_padN (n sb : Nat) (s : State) : s.SamePair (State.padN n sb s) := by
  induction n generalizing s with
  | zero => exact .refl s
  | succ n ih =>
    unfold State.padN
    split
    · exact .refl s
    · exact .ite (.refl s) ((s.samePair_endCodeword _).trans (ih _))

theorem State.samePair_padSb (s : State) (sb : Nat) : s.SamePair (s.padSb sb) := by
  unfold State.padSb
  split
  · exact .refl s
  · exact State.samePair_padN _ _ _

/-! ### The journal -/

theorem State.samePair_placeJpage (s : State) (i n : Nat) : s.SamePair (s.placeJpage i n) := by
  unfold State.placeJpage
  refine (s.samePair_modJnl i ?_).trans (State.samePair_place _ _)
  exact fun _ => rfl

theorem State.samePair_placeFull (n i : Nat) (s : State) : s.SamePair (State.placeFull n i s) := by
  induction n generalizing s with
  | zero => exact .refl s
  | succ n ih =>
    unfold State.placeFull
    exact .ite ((s.samePair_placeJpage i 4064).trans (ih _)) (.refl s)

theorem State.samePair_fillGroup (s : State) (i : Nat) (bytes : Bytes) : s.SamePair (s.fillGroup i bytes).1 := by
  unfold State.fillGroup
  refine (s.samePair_modJnl i ?_).trans (State.samePair_placeFull _ _ _)
  exact fun _ => rfl

theorem State.samePair_buildGroup (s : State) (i : Nat) (recs : List JRec) : s.SamePair (s.buildGroup i recs) := by
  unfold State.buildGroup
  extract_lets jseq s1 s2
  have hs1 : s.SamePair s1 := .ite (s.samePair_send _) (.refl s)
  clear_value s1
  have hs2 : s1.SamePair s2 := s1.samePair_modJnl i fun _ => rfl
  clear_value s2
  have hfill := s2.samePair_fillGroup i (groupBytes jseq recs)
  generalize s2.fillGroup i (groupBytes jseq recs) = p at hfill ⊢
  exact .ite (.refl s) (((hs1.trans hs2).trans hfill).trans (p.1.samePair_modJnl i fun _ => rfl))

theorem State.samePair_journalSb (s : State) (sb st phase : Nat) : s.SamePair (s.journalSb sb st phase) := s.samePair_buildGroup _ _

/-! ### Superblocks that close -/

theorem State.samePair_closeSb (s : State) (o : OpenSb) : s.SamePair (s.closeSb o) := by
  unfold State.closeSb
  extract_lets s1 wmax s2
  have hs2 : s.SamePair s2 := .of_same rfl rfl rfl
  clear_value s2
  exact (hs2.trans (s2.samePair_setSbState _ _)).trans (State.samePair_journalSb _ _ _ _)

theorem State.samePair_shutSb (s : State) (sb : Nat) : s.SamePair (s.shutSb sb) := by
  unfold State.shutSb
  extract_lets s1
  have hs1 : s.SamePair s1 := s.samePair_padSb sb
  clear_value s1
  split
  · extract_lets total s2
    have hs2 : s1.SamePair s2 := (s1.samePair_slotsInvalid _ _).trans (State.samePair_setOpen _ _)
    clear_value s2
    exact (hs1.trans hs2).trans (.ite (s2.samePair_closeSb _) (.refl s2))
  · exact hs1

theorem State.samePair_closeQuiet (s : State) (o : OpenSb) : s.SamePair (s.closeQuiet o) := by
  unfold State.closeQuiet
  extract_lets s1
  have hs1 : s.SamePair s1 := .of_same rfl rfl rfl
  clear_value s1
  exact (hs1.trans (s1.samePair_slotsInvalid _ _)).trans (State.samePair_wrN _ _ _ _)

theorem State.samePair_eraseMembers (s : State) (sb : Nat) : s.SamePair (s.eraseMembers sb) := by
  unfold State.eraseMembers
  exact State.SamePair.trans (t := s.modFtl _) (.of_same rfl rfl rfl) (.foldl (fun t m => t.samePair_queueOp _ _) _ _)

/-! ### Reads of flash and pages of the map -/

theorem State.samePair_queueRead (s : State) (budget mode loc : Nat) (p : Purpose) : s.SamePair (s.queueRead budget mode loc p) := s.samePair_queueOp _ _

theorem State.samePair_unrecoverable (s : State) (p : Purpose) : s.SamePair (s.unrecoverable p) := by
  have hcount : s.SamePair s.countUnrecovered := (s.samePair_inc 1 (by decide)).trans (State.samePair_raise _ (by decide))
  unfold State.unrecoverable
  generalize s.countUnrecovered = u at hcount ⊢
  exact hcount.trans (.of_same rfl rfl rfl)

theorem State.samePair_startRecon (s : State) (sb stripe want budget : Nat) (p : Purpose) : s.SamePair (s.startRecon sb stripe want budget p) := by
  unfold State.startRecon
  extract_lets ask s1
  have hs1 : s.SamePair s1 := .of_same rfl rfl rfl
  clear_value s1
  exact .ite (s.samePair_unrecoverable p) (hs1.trans (.foldl (fun t c => t.samePair_queueRead _ _ _ _) _ _))

theorem State.samePair_readCodeword (s : State) (budget loc : Nat) (p : Purpose) : s.SamePair (s.readCodeword budget loc p) := by
  unfold State.readCodeword
  split
  · exact s.samePair_queueRead _ _ _ _
  · exact .ite (s.samePair_startRecon _ _ _ _ _) (s.samePair_queueRead _ _ _ _)

theorem State.samePair_setTreeRoot (s : State) (i tree vol p : Nat) : s.SamePair (s.setTreeRoot i tree vol p) :=
  .ite (s.samePair_wrN _ _ _) (.of_same rfl rfl rfl)

theorem State.samePair_recountMpc (s : State) : s.SamePair s.recountMpc :=
  (s.samePair_setFld _ (by decide)).trans (State.samePair_setFld _ _ (by decide))

theorem State.samePair_dropPage (s : State) (p : MapPage) : s.SamePair (s.dropPage p) := .of_same rfl rfl rfl

theorem State.samePair_replacePage (s : State) (old new : MapPage) : s.SamePair (s.replacePage old new) := by
  unfold State.replacePage
  refine State.SamePair.trans ?_ (State.samePair_recountMpc _)
  exact .of_same rfl rfl rfl

theorem State.samePair_trimPages (s : State) : s.SamePair s.trimPages := by
  unfold State.trimPages
  refine .ite ?_ (.refl s)
  split
  · exact .ite (s.samePair_replacePage _ _) ((s.samePair_dropPage _).trans (State.samePair_recountMpc _))
  · exact .refl s

theorem State.samePair_putPage (s : State) (p : MapPage) : s.SamePair (s.putPage p) := by
  unfold State.putPage
  refine State.SamePair.trans (State.SamePair.trans ?_ (State.samePair_recountMpc _)) (State.samePair_trimPages _)
  exact .of_same rfl rfl rfl

theorem State.samePair_startFetch (s : State) (f : PageFetch) : s.SamePair (s.startFetch f) := by
  unfold State.startFetch
  refine .ite (State.SamePair.trans ?_ (State.samePair_readCodeword _ _ _ _)) (.of_same rfl rfl rfl)
  exact .of_same rfl rfl rfl

theorem State.samePair_waitPage (s : State) (i tree level ident loc : Nat) (ops : List PageOp) (asks : List Asker) :
    s.SamePair (s.waitPage i tree level ident loc ops asks) := by
  unfold State.waitPage State.waitFetch
  exact .ite (.of_same rfl rfl rfl) (.ite (.of_same rfl rfl rfl) (s.samePair_startFetch _))

/-- A walk of a tree that makes the pages it does not find, whatever sets its pointers. -/
theorem State.samePair_descendTo (i tree vol idx jseq stop lvl : Nat) {set : State → Nat → State} (hset : ∀ (t : State) (v : Nat), t.SamePair (set t v)) (ptr : Nat)
    (s : State) : s.SamePair (State.descendTo i tree vol idx jseq stop lvl set ptr s).1 := by
  induction lvl generalizing set ptr s with
  | zero =>
    unfold State.descendTo
    extract_lets ident gen s1 ptr1
    have hs1 : s.SamePair s1 := .ite ((hset _ _).trans (State.samePair_putPage _ _)) (.refl s)
    clear_value s1
    split
    · exact .refl s
    split
    · exact .refl s
    split
    · exact hs1
    · exact hs1
  | succ lvl ih =>
    unfold State.descendTo
    extract_lets ident gen s1 ptr1
    have hs1 : s.SamePair s1 := .ite ((hset _ _).trans (State.samePair_putPage _ _)) (.refl s)
    clear_value s1
    split
    · exact .refl s
    split
    · exact .refl s
    split
    · exact hs1
    · dsimp only
      split
      · exact hs1
      · exact hs1.trans (ih (fun t _ => t.samePair_putPage _) _ _)

theorem State.samePair_openLeaf (s : State) (i tree vol idx jseq : Nat) : s.SamePair (s.openLeaf i tree vol idx jseq).1 :=
  State.samePair_descendTo _ _ _ _ _ _ _ (fun t _ => t.samePair_setTreeRoot _ _ _ _) _ s

theorem State.samePair_mapError (s : State) {f : Fld} (h : 0x100 ≤ f.off) : s.SamePair (((s.inc f).raise F.FTL_ISR_MAP_ERR).errDefer 0x0C) :=
  ((s.samePair_inc 1 h).trans (State.samePair_raise _ (by decide))).trans (State.samePair_errDefer _ _)

theorem State.samePair_lmeError (s : State) : s.SamePair s.lmeError := s.samePair_mapError (by decide)

theorem State.samePair_ptrError (s : State) : s.SamePair s.ptrError := s.samePair_mapError (by decide)

theorem State.samePair_hotLine (s : State) (i vol line : Nat) : s.SamePair (s.hotLine i vol line) := .of_same rfl rfl rfl

theorem State.samePair_addMapped (s : State) (v : Nat) (d : Int) : s.SamePair (s.addMapped v d) := by
  unfold State.addMapped
  extract_lets i
  have hwr := s.samePair_wrN (s.volAddr v + 0x18) 8 ((s.volMapped v : Int) + d).toNat
  generalize s.wrN (s.volAddr v + 0x18) 8 ((s.volMapped v : Int) + d).toNat = u at hwr ⊢
  exact hwr.trans (u.samePair_setPair _ off_high off_high)

theorem State.samePair_writeLme (s : State) (p : MapPage) (vol lba lme jseq : Nat) : s.SamePair (s.writeLme p vol lba lme jseq) := by
  unfold State.writeLme
  extract_lets old was now q s1 s2
  have hs1 : s.SamePair s1 := s.samePair_putPage _
  clear_value s1
  have hs2 : s1.SamePair s2 := .ite (s1.samePair_addMapped _ _) (.ite (s1.samePair_addMapped _ _) (.refl s1))
  clear_value s2
  exact .ite s.samePair_lmeError ((hs1.trans hs2).trans (.ite (s2.samePair_hotLine _ _ _) (.refl s2)))

theorem State.samePair_holdSplit (s : State) (vol level page : Nat) (op : PageOp) : s.SamePair (s.holdSplit vol level page op) := by
  unfold State.holdSplit
  extract_lets base tail next add s1
  split
  · extract_lets n s2
    have hs2 : s.SamePair s2 := .of_same rfl rfl rfl
    clear_value s2
    exact .ite (hs2.trans (s2.samePair_wrN _ _ _)) hs2
  · have hadd (k : Nat) (u : State) : u.SamePair (add k u) := .of_same rfl rfl rfl
    have hs1 : s.SamePair s1 := .of_same rfl rfl rfl
    clear_value s1 add
    exact .ite (hadd _ s) (((hs1.trans (hadd _ s1)).trans (State.samePair_setFld _ _ (by decide))).trans (State.samePair_raise _ (by decide)))

theorem State.samePair_install (s : State) (vol lba lme seq : Nat) (jseq : Option Nat) : s.SamePair (s.install vol lba lme seq jseq) := by
  unfold State.install
  extract_lets i j
  have hopen := s.samePair_openLeaf i 1 vol (lba / 512) j
  generalize s.openLeaf i 1 vol (lba / 512) j = p at hopen ⊢
  split
  next s1 w =>
  split
  · exact hopen.trans (s1.samePair_writeLme _ _ _ _ _)
  · exact hopen.trans (s1.samePair_waitPage _ _ _ _ _ _ _)
  · exact hopen.trans (s1.samePair_holdSplit _ _ _ _)
  · exact hopen.trans s1.samePair_ptrError
  · exact hopen

theorem State.samePair_setRec (s : State) (cid raw : Nat) (jseq : Option Nat) : s.SamePair (s.setRec cid raw jseq) := by
  unfold State.setRec
  extract_lets i j
  have hopen := s.samePair_openLeaf i 2 0 (cidLeaf cid) j
  generalize s.openLeaf i 2 0 (cidLeaf cid) j = p at hopen ⊢
  split
  next s1 w =>
  split
  · exact hopen.trans (s1.samePair_putPage _)
  · exact hopen.trans (s1.samePair_waitPage _ _ _ _ _ _ _)
  · exact hopen

/-! ### Content records -/

theorem State.samePair_domAdd (s : State) (d off : Nat) (n : Int) : s.SamePair (s.domAdd d off n) := s.samePair_wrN _ _ _

theorem State.samePair_addUses (s : State) (d i : Nat) (n : Int) : s.SamePair (s.addUses d i n) := .ite (.refl s) (s.samePair_wrN _ _ _)

theorem State.samePair_slotsFreedOf (s : State) (sb : Option Nat) (n : Nat) :
    s.SamePair (match sb with | some sb => s.slotsFreed sb n | none => s) := by
  split
  · exact s.samePair_slotsFreed _ _
  · exact .refl s

theorem State.samePair_recSlotsFreed (s : State) (r : Rec) : s.SamePair (s.recSlotsFreed r) := by
  unfold State.recSlotsFreed
  refine .ite (.refl s) ?_
  split
  · exact s.samePair_slotsFreed _ _
  · exact .refl s

theorem State.samePair_refRejected (s : State) : s.SamePair ((s.inc F.DDP_EVENTS_C_REF_REJECTS).raise F.DDP_ISR_REF_REJECT) :=
  (s.samePair_inc 1 (by decide)).trans (State.samePair_raise _ (by decide))

theorem State.samePair_refApply (s : State) (cid : Nat) (gen : Option Nat) (dec : Bool) (r : Rec) : s.SamePair (s.refApply cid gen dec r).1 := by
  unfold State.refApply
  split
  · exact s.samePair_refRejected
  split
  · exact s.samePair_refRejected
  · exact s.samePair_inc _ (by decide)
  · extract_lets s1 s2
    have hs1 : s.SamePair s1 := s.samePair_domAdd _ _ _
    clear_value s1
    split
    · have hs2 : s1.SamePair s2 := (((s1.samePair_setRec _ _ _).trans (State.samePair_recSlotsFreed _ _)).trans (State.samePair_domAdd _ _ _ _)).trans
        (State.samePair_addUses _ _ _ _)
      clear_value s2
      exact (hs1.trans hs2).trans (.of_same rfl rfl rfl)
    split
    · exact ((hs1.trans (s1.samePair_setRec _ _ _)).trans ((State.samePair_setPair _ _ (by decide) (by decide)).trans (State.samePair_domAdd _ _ _ _))).trans
        (State.samePair_raise _ (by decide))
    · exact hs1.trans (s1.samePair_setRec _ _ _)

theorem State.samePair_refDrop (s : State) (cid : Nat) : s.SamePair (s.refDrop cid).1 := by
  unfold State.refDrop
  split
  · exact s.samePair_waitPage _ _ _ _ _ _ _
  · split
    · exact s.samePair_refApply _ _ _ _
    · exact .refl s

theorem State.samePair_dropRecs (s : State) (cid : Nat) : s.SamePair (s.dropRecs cid).1 := by
  unfold State.dropRecs
  split
  · exact s.samePair_waitPage _ _ _ _ _ _ _
  split
  next r _ =>
    split
    · extract_lets s1 waits s2 s3
      have hs1 : s.SamePair s1 := s.samePair_setRec _ _ _
      clear_value s1
      have hs2 : s1.SamePair s2 := .ite (.refl s1) (.ite (.of_same rfl rfl rfl) (s1.samePair_slotsFreedOf _ _))
      clear_value s2
      have hs3 : s2.SamePair s3 := s2.samePair_addUses _ _ _
      clear_value s3
      exact ((hs1.trans hs2).trans hs3).trans (.of_same rfl rfl rfl)
    · exact .refl s
  · exact .refl s

/-! ### Groups that another head journaled -/

theorem State.samePair_snapshotRoot (s : State) (k ptr : Nat) : s.SamePair (s.snapshotRoot k ptr) := by
  have hgen (t : State) (v g : Nat) : t.SamePair (t.setGeneration v g) := .of_same rfl rfl rfl
  unfold State.snapshotRoot
  extract_lets f s1 v g s2
  have hs1 : s.SamePair s1 := s.samePair_wrN _ _ _
  clear_value s1
  have hs2 : s1.SamePair s2 := .of_same rfl rfl rfl
  clear_value s2
  exact .ite ((hs1.trans hs2).trans (.ite (hgen s2 _ _) (.refl s2))) (.ite (hs1.trans (s1.samePair_wrN _ _ _)) hs1)

theorem State.samePair_movePage (s : State) (i tree level ident loc : Nat) : s.SamePair (s.movePage i tree level ident loc) := by
  unfold State.movePage
  split
  · exact (s.samePair_dropPage _).trans (State.samePair_putPage _ _)
  · exact .refl s

theorem State.samePair_applyPointer (s : State) (i slot ident ptr jseq : Nat) : s.SamePair (s.applyPointer i slot ident ptr jseq) := by
  unfold State.applyPointer
  extract_lets tree level id vol idx
  refine .ite ((s.samePair_movePage _ _ _ _ _).trans (State.samePair_setTreeRoot _ _ _ _ _))
    (.ite ((s.samePair_movePage _ _ _ _ _).trans (State.samePair_setTreeRoot _ _ _ _ _)) (.ite (s.samePair_snapshotRoot _ _) ?_))
  split
  · exact (s.samePair_movePage _ _ _ _ _).trans (State.samePair_putPage _ _)
  · exact s.samePair_waitPage _ _ _ _ _ _ _
  · exact .refl s

theorem State.samePair_modStg (s : State) (k : Nat) (f : Stg → Stg) : s.SamePair (s.modStg k f) := .of_same rfl rfl rfl

/-- The number of a block's record moves with its new place. -/
theorem State.samePair_relocate (s : State) (jseq cid raw : Nat) (old new : Option Nat) (n : Nat) :
    s.SamePair (
      let s1 := s.setRec cid raw (some jseq)
      let s2 := match old with | some sb => s1.slotsFreed sb n | none => s1
      match new with | some sb => s2.slotsValid sb n | none => s2) := by
  extract_lets s1 s2
  have hs1 : s.SamePair s1 := s.samePair_setRec _ _ _
  clear_value s1
  have hs2 : s1.SamePair s2 := s1.samePair_slotsFreedOf _ _
  clear_value s2
  split
  · exact (hs1.trans hs2).trans (s2.samePair_slotsValid _ _)
  · exact hs1.trans hs2

theorem State.samePair_applyForeign (s : State) (i jseq : Nat) (r : JRec) : s.SamePair (s.applyForeign i jseq r) := by
  unfold State.applyForeign
  split
  case h_1 vol lba lme seq =>
    extract_lets s0 e
    have hs0 : s.SamePair s0 := .of_same rfl rfl rfl
    clear_value s0
    split
    · exact hs0.trans (.ite (s0.samePair_modStg _ _) (s0.samePair_install _ _ _ _ _))
    · exact hs0.trans (s0.samePair_install _ _ _ _ _)
  case h_2 => exact s.samePair_setRec _ _ _
  case h_3 => exact s.samePair_applyPointer _ _ _ _ _
  case h_4 =>
    split
    · exact s.samePair_waitPage _ _ _ _ _ _ _
    split
    · exact .ite (s.samePair_relocate _ _ _ _ _ _) (.refl s)
    · exact .refl s
  case h_5 =>
    extract_lets was s1 s2
    have hs1 : s.SamePair s1 := .ite (.foldl (fun t m => t.samePair_addWear m) _ _) (.refl s)
    clear_value s1
    have hs2 : s1.SamePair s2 := .ite (s1.samePair_wrN _ _ _) (.ite (s1.samePair_wrN _ _ _) (.refl s1))
    clear_value s2
    refine State.SamePair.setSbState ?_ _ _
    exact (hs1.trans hs2).trans (.of_same rfl rfl rfl)
  case h_6 h t n =>
    extract_lets fill
    have hmap : s.SamePair (s.modMap fun m => { m with cidHead := putInst m.cidHead i h, cidTail := putInst m.cidTail i (h + fill) }) := .of_same rfl rfl rfl
    generalize (s.modMap fun m => { m with cidHead := putInst m.cidHead i h, cidTail := putInst m.cidTail i (h + fill) }) = u at hmap ⊢
    exact (hmap.trans (u.samePair_setPair _ off_high off_high)).trans (State.samePair_setFld _ _ off_high)
  case h_7 => exact s.samePair_wrN _ _ _
  case h_8 => exact State.SamePair.trans (.ite (.refl s) (s.samePair_markBad _ _)) (State.samePair_wrN _ _ _ _)

/-- A group applied leaves the pair's state and the head's identity. -/
theorem State.applyGroup_kept (s : State) (g : JGroup) : (s.applyGroup g).pairSt = s.pairSt ∧ s.Keeps [F.GLB_PAIR_STATUS_HEAD_ID] (s.applyGroup g) := by
  unfold State.applyGroup
  extract_lets j
  split
  · obtain ⟨hpair, hkeep, -⟩ := State.SamePair.foldl (fun (t : State) r => t.samePair_applyForeign g.inst g.jseq r) g.recs s
    exact ⟨hpair, hkeep.trans (.of_cells rfl)⟩
  · exact ⟨rfl, .refl _ s⟩

/-- The held groups that follow on the last applied one leave them too. -/
theorem State.applyHeld_kept (s : State) (i : Nat) : (s.applyHeld i).pairSt = s.pairSt ∧ s.Keeps [F.GLB_PAIR_STATUS_HEAD_ID] (s.applyHeld i) := by
  unfold State.applyHeld
  generalize (s.jnl i).mirrored.length = n
  induction n generalizing s with
  | zero => exact ⟨rfl, .refl _ s⟩
  | succ n ih =>
    unfold State.applyHeldN
    split
    next g _ =>
      obtain ⟨hpair, hkeep⟩ := s.applyGroup_kept g
      obtain ⟨hpair', hkeep'⟩ := ih (s.applyGroup g)
      exact ⟨hpair'.trans hpair, hkeep.trans hkeep'⟩
    · exact ⟨rfl, .refl _ s⟩

end Sys2Proof.Machine
end

section
/-! PROOF. O11: a rejoin goes on in steps (01, Rejoin and handback). -/
namespace Sys2Proof.Machine

/-! ### Messages to hosts and reads -/

theorem State.samePair_postWrites (s : State) (n queue cid va key : Nat) (data : Bytes) : s.SamePair (s.postWrites n queue cid va key data) :=
  .foldl (fun t _ => t.samePair_post _ _ _) _ s

theorem State.samePair_sendHost (s : State) (m : HostMsg) : s.SamePair (s.sendHost m) := by
  cases m with
  | data q cid lba f va key d pi => exact (s.samePair_send _).trans (.ite (State.samePair_send _ _) (State.samePair_postWrites _ _ _ _ _ _ _))
  | cqe q cid st first => exact (s.samePair_send _).trans (.ite (.refl _) (State.samePair_post _ _ _ _))

theorem State.samePair_toHost (s : State) (q n : Nat) (m : HostMsg) : s.SamePair (s.toHost q n m) := by
  unfold State.toHost State.tcpSend
  refine .ite (.ite ?_ ?_) (s.samePair_sendHost m)
  · exact (s.samePair_sendHost m).trans (.of_same rfl rfl rfl)
  · exact (s.samePair_raise (by decide)).trans (.of_same rfl rfl rfl)

theorem State.samePair_freezeFor (s : State) (o : Origin) (st : HostStat) : s.SamePair (s.freezeFor o st) := by
  unfold State.freezeFor
  extract_lets a s1 s2
  have hs2 : s.SamePair s2 := .of_same rfl rfl rfl
  clear_value s2
  refine .ite (.refl s) (.ite ?_ (.ite (s.samePair_wrN _ _ _) (.refl s)))
  exact (hs2.trans ((s2.samePair_wrN _ _ _).trans (State.samePair_inc _ _ (by decide)))).trans
    ((State.samePair_setFld _ _ (by decide)).trans (State.samePair_raise _ (by decide)))

theorem State.samePair_completeHost (s : State) (o : Origin) (st : HostStat) : s.SamePair (s.completeHost o st) := by
  have hunpin (t : State) : t.SamePair (t.unpin o) := State.SamePair.trans (t := t.modQp _ _) (.of_same rfl rfl rfl) (State.samePair_setFld _ _ (by decide))
  have hready := (s.samePair_freezeFor o st).trans (hunpin _)
  unfold State.completeHost
  refine .ite (s.samePair_send _) ?_
  generalize (s.freezeFor o st).unpin o = u at hready ⊢
  exact hready.trans (.ite (u.samePair_inc _ (by decide)) (u.samePair_toHost _ _ _))

theorem State.samePair_freeStg (s : State) (k : Nat) : s.SamePair (s.freeStg k) := by
  unfold State.freeStg
  split
  · exact .ite (.of_same rfl rfl rfl) (.refl s)
  · exact .refl s

theorem State.samePair_endWaiting (s : State) (w : Waiting) (st : HostStat) : s.SamePair (s.endWaiting w st) := by
  unfold State.endWaiting
  extract_lets s1
  have hs1 : s.SamePair s1 := .of_same rfl rfl rfl
  clear_value s1
  have hsweep : s1.SamePair (s1.sweepStg w.inst w.volume w.lba w.count) := .foldl (fun t p => t.samePair_freeStg _) _ s1
  exact (hs1.trans hsweep).trans (State.samePair_completeHost _ _ _)

theorem State.samePair_failRead (s : State) (inst seq : Nat) : s.SamePair (s.failRead inst seq) := by
  unfold State.failRead
  split
  · exact .ite (.of_same rfl rfl rfl) (s.samePair_endWaiting _ _)
  · exact .refl s

theorem State.samePair_sendRead (s : State) (w : Waiting) : s.SamePair (s.sendRead w) := by
  unfold State.sendRead
  exact .ite (.foldl (fun t k => t.samePair_send _) _ s) (s.samePair_toHost _ _ _)

theorem State.samePair_tryFinish (s : State) (inst seq : Nat) : s.SamePair (s.tryFinish inst seq) := by
  unfold State.tryFinish
  split
  · exact .refl s
  · refine .ite ?_ (.refl s)
    split
    · exact (s.samePair_sendRead _).trans (State.samePair_endWaiting _ _ _)
    · split
      · exact .refl s
      · exact s.samePair_endWaiting _ _
    · exact s.samePair_endWaiting _ _

theorem State.samePair_deliver (s : State) (inst seq lba : Nat) (data : Bytes) : s.SamePair (s.deliver inst seq lba data) := by
  unfold State.deliver
  split
  · exact .refl s
  · refine State.SamePair.trans ?_ (State.samePair_tryFinish _ _ _)
    exact .of_same rfl rfl rfl

theorem State.samePair_recError (s : State) : s.SamePair s.recError :=
  ((s.samePair_inc 1 (by decide)).trans (State.samePair_raise _ (by decide))).trans (State.samePair_errDefer _ _)

theorem State.samePair_readEntry (s : State) (inst seq vol lba e : Nat) : s.SamePair (s.readEntry inst seq vol lba e) := by
  unfold State.readEntry
  extract_lets lme cid
  refine .ite (s.samePair_deliver _ _ _ _) ?_
  split
  · exact s.samePair_waitPage _ _ _ _ _ _ _
  · exact s.samePair_ptrError.trans (State.samePair_failRead _ _ _)
  · exact (s.samePair_errDefer _).trans (State.samePair_failRead _ _ _)
  · split
    · exact .ite (s.samePair_recError.trans (State.samePair_failRead _ _ _)) (.of_same rfl rfl rfl)
    · exact s.samePair_failRead _ _

theorem State.samePair_lookEntry (s : State) (e : Nat) : s.SamePair (s.lookEntry e).1 := by
  unfold State.lookEntry
  split
  · exact s.samePair_lmeError
  · exact .refl s

theorem State.samePair_lookWalk (s : State) (i vol lba : Nat) (ask : Asker) (fetched : Bool) (w : Walk) : s.SamePair (s.lookWalk i vol lba ask fetched w).1 := by
  unfold State.lookWalk
  split
  · extract_lets s1 s2
    have hs1 : s.SamePair s1 := .ite (.refl s) (s.samePair_count64 1 (by decide) (by decide) (by decide))
    clear_value s1
    have hs2 : s1.SamePair s2 := .ite (s1.samePair_hotLine _ _ _) (.refl s1)
    clear_value s2
    exact (hs1.trans hs2).trans (s2.samePair_lookEntry _)
  · exact .refl s
  · exact s.samePair_ptrError
  · exact s.samePair_errDefer _
  · exact s.samePair_waitPage _ _ _ _ _ _ _
  · exact .refl s

theorem State.samePair_lookup (s : State) (vol lba : Nat) (ask : Asker) (fetched : Bool) : s.SamePair (s.lookup vol lba ask fetched).1 := by
  have hcount := s.samePair_count64 (lo := F.FTL_HOTMAP_HITS_LO_COUNT) (hi := F.FTL_HOTMAP_HITS_HI_COUNT) (w := F.FTL_MAP_WRAPS_HOTMAP_WRAPS) 1
    (by decide) (by decide) (by decide)
  unfold State.lookup
  extract_lets i
  split
  · exact (hcount.trans (State.samePair_hotLine _ _ _ _)).trans (State.samePair_lookEntry _ _)
  · exact s.samePair_lookWalk _ _ _ _ _ _

theorem State.samePair_readMap (s : State) (inst seq vol lba : Nat) (fetched : Bool) : s.SamePair (s.readMap inst seq vol lba fetched) := by
  have hlook := s.samePair_lookup vol lba (.read inst seq lba) fetched
  unfold State.readMap
  generalize s.lookup vol lba (.read inst seq lba) fetched = p at hlook ⊢
  split
  · exact hlook.trans (State.samePair_readEntry _ _ _ _ _ _)
  · exact hlook.trans (State.samePair_failRead _ _ _)
  · exact hlook

theorem State.samePair_baseRead (s : State) (inst seq vol first count : Nat) (lbas : List Nat) : s.SamePair (s.baseRead inst seq vol first count lbas) := by
  unfold State.baseRead
  refine .ite (.refl s) (State.SamePair.trans ?_ (.foldl (fun t l => t.samePair_readMap _ _ _ _ _) _ _))
  exact .of_same rfl rfl rfl

/-! ### The drain of an entry -/

theorem State.samePair_modEntry (s : State) (inst seq : Nat) (f : Entry → Entry) : s.SamePair (s.modEntry inst seq f) := .of_same rfl rfl rfl

theorem State.samePair_countCarry (s : State) : s.SamePair s.countCarry := (s.samePair_inc 1 (by decide)).trans (State.samePair_raise _ (by decide))

theorem State.samePair_countPoison (s : State) : s.SamePair s.countPoison :=
  ((s.samePair_inc 1 (by decide)).trans (State.samePair_raise _ (by decide))).trans (State.samePair_errDefer _ _)

theorem State.samePair_badBlockInRing (s : State) (e : Entry) (b : RBlock) : s.SamePair (s.badBlockInRing e b) := by
  have hcarry := s.samePair_countCarry
  unfold State.badBlockInRing
  generalize s.countCarry = u at hcarry ⊢
  split
  next s1 h =>
    have hask : u.SamePair s1 := by
      unfold State.refetch at h
      split at h
      · cases h
      · obtain rfl := Option.some.inj h
        exact State.SamePair.trans (.of_same rfl rfl rfl) (State.samePair_send _ _)
    exact (hcarry.trans hask).trans (s1.samePair_modEntry _ _ _)
  · exact (hcarry.trans u.samePair_countPoison).trans (State.samePair_modEntry _ _ _ _)

theorem State.samePair_putStg (s : State) (k : Nat) (g : Stg) : s.SamePair (s.putStg k g) := by
  unfold State.putStg
  split <;> exact .of_same rfl rfl rfl

theorem State.samePair_submitWrite (s : State) (k : Nat) (g : Stg) : s.SamePair (s.submitWrite k g) := .of_same rfl rfl rfl

theorem State.samePair_submitSync (s : State) (k : Nat) (g : Stg) : s.SamePair (s.submitSync k g) := by
  unfold State.submitSync
  split
  · exact .refl s
  · exact .of_same rfl rfl rfl

theorem State.samePair_installStaged (s : State) (k : Nat) (g : Stg) : s.SamePair (s.installStaged k g) := by
  unfold State.installStaged
  exact .ite (.of_same rfl rfl rfl) (s.samePair_install _ _ _ _ _)

theorem State.samePair_stageBlock (s : State) (e : Entry) (k : Nat) (b : RBlock) (data : Bytes) (poisoned : Bool) :
    s.SamePair (s.stageBlock e k b data poisoned) := by
  unfold State.stageBlock
  extract_lets old g s1 s2
  have hs1 : s.SamePair s1 := s.samePair_putStg _ _
  clear_value s1
  have hs2 : s1.SamePair s2 := s1.samePair_installStaged _ _
  clear_value s2
  exact hs1.trans (.ite (s1.samePair_freeStg _) (hs2.trans (.ite (.refl s2) ((s2.samePair_submitWrite _ _).trans (State.samePair_submitSync _ _ _)))))

theorem State.samePair_drainedEntry (s : State) (e : Entry) : s.SamePair (s.drainedEntry e) := by
  unfold State.drainedEntry
  extract_lets s1 s2 s3
  have hs2 : s.SamePair s2 := .of_same rfl rfl rfl
  clear_value s2
  have hs3 : s2.SamePair s3 := .ite (.of_same rfl rfl rfl) (.refl s2)
  clear_value s3
  refine (hs2.trans hs3).trans (State.SamePair.trans ?_ (State.samePair_setFld _ _ (by decide)))
  exact .of_same rfl rfl rfl

theorem State.samePair_stgRecords (s : State) (g : Stg) : s.SamePair (s.stgRecords g).1 := by
  unfold State.stgRecords
  split
  · exact .refl s
  split
  · split
    · exact s.samePair_refDrop _
    · exact s.samePair_dropRecs _
  · dsimp only
    split
    · exact s.samePair_refDrop _
    · exact .refl s

theorem State.samePair_foldl_fst {α β : Type} {f : State × β → α → State × β} (h : ∀ (p : State × β) (a : α), p.1.SamePair (f p a).1) (l : List α)
    (p : State × β) : p.1.SamePair (l.foldl f p).1 := by
  induction l generalizing p with
  | nil => exact .refl p.1
  | cons a l ih => exact (h p a).trans (ih _)

theorem State.samePair_tryJournal (s : State) (i seq : Nat) : s.SamePair (s.tryJournal i seq) := by
  unfold State.tryJournal
  extract_lets l jseq r recs s1
  refine .ite (.refl s) (.ite (.refl s) ?_)
  split
  · exact s.samePair_waitPage _ _ _ _ _ _ _
  · have hr : s.SamePair r.1 := by
      refine State.samePair_foldl_fst ?_ l (s, ([] : List JRec))
      exact fun p x => p.1.samePair_stgRecords x.2
    have hs1 : r.1.SamePair s1 := r.1.samePair_buildGroup i recs
    clear_value s1
    exact (hr.trans hs1).trans (.foldl (fun t p => t.samePair_modStg _ _) _ _)

theorem State.samePair_drainEntry (s : State) (inst seq : Nat) (bad : List Nat) : s.SamePair (s.drainEntry inst seq bad) := by
  unfold State.drainEntry
  split
  · exact .refl s
  next e0 _ =>
    extract_lets s1
    have hs1 : s.SamePair s1 := .foldl (fun t b => t.samePair_badBlockInRing e0 b) _ s
    clear_value s1
    refine .ite (.refl s) ?_
    split
    · exact hs1
    next e _ =>
      extract_lets part need s2 done slots s3
      have hs2 : s1.SamePair s2 := .ite (.refl s1) (s1.samePair_baseRead _ _ _ _ _ _)
      clear_value s2
      have hpoison (t : State) (c : Bool) : t.SamePair (if c then t.countPoison else t) := .ite t.samePair_countPoison (.refl t)
      have hs3 : s2.SamePair s3 := .foldl (fun t p => (hpoison t _).trans (State.samePair_stageBlock _ _ _ _ _ _)) _ s2
      clear_value s3
      exact .ite hs1 (.ite (hs1.trans hs2) ((hs1.trans hs2).trans ((hs3.trans (s3.samePair_drainedEntry e)).trans (State.samePair_tryJournal _ _ _))))

/-! ### REJOIN_PAUSE -/

theorem State.samePair_reclassify (s : State) (i : Nat) : s.SamePair (s.reclassify i) := by
  unfold State.reclassify
  extract_lets fresh mine n keys s1
  have hs1 : s.SamePair s1 := (s.samePair_setPair _ (by decide) (by decide)).trans (.of_same rfl rfl rfl)
  clear_value s1
  exact hs1.trans (.of_same rfl rfl rfl)

/-- A survivor that is past step 2 goes on past it. -/
theorem State.endPause_spec {s : State} {r : RejoinSt} (hr : s.pairSt.rejoin = some r) (hsurvivor : r.survivor = true) (hstep : 4 ≤ r.step)
    (hheld : s.pairSt.groupHeld = true) :
    s.endPause.pairSt.groupHeld = true ∧ s.endPause.pairSt.rejoin.any (fun x => x.survivor && decide (4 ≤ x.step)) = true := by
  have hstays (t : State) (h : t.pairSt = s.pairSt) :
      t.pairSt.groupHeld = true ∧ t.pairSt.rejoin.any (fun x => x.survivor && decide (4 ≤ x.step)) = true := by
    rw [h, hr, Option.any_some, hsurvivor]
    exact ⟨hheld, by simpa using hstep⟩
  unfold State.endPause
  rw [hr]
  extract_lets i drained
  have hdrained : drained.pairSt = s.pairSt := (State.SamePair.foldl (fun t (e : Entry) => t.samePair_drainEntry i e.seq []) _ s).1
  clear_value drained
  dsimp only
  split
  · exact hstays s rfl
  split
  · exact hstays drained hdrained
  · have hclass := (drained.samePair_reclassify i).1.trans hdrained
    generalize drained.reclassify i = u at hclass ⊢
    rw [State.send_pairSt]
    refine ⟨(congrArg PairSt.groupHeld hclass).trans hheld, ?_⟩
    change ((some { r with step := 5 }).any fun x => x.survivor && decide (4 ≤ x.step)) = true
    rw [Option.any_some, hsurvivor]
    rfl

/-! ### SURVIVOR_HANDBACK -/

/-- A survivor in step 6 stays in it, or reports the final number in step 7. -/
theorem State.tryFinal_spec {s : State} {r : RejoinSt} (hr : s.pairSt.rejoin = some r) (hsurvivor : r.survivor = true) (hstep : r.step = 6) :
    s.tryFinal.pairSt.rejoin.any (fun x => x.survivor && decide (6 ≤ x.step)) = true := by
  have hstays (t : State) (h : t.pairSt = s.pairSt) : t.pairSt.rejoin.any (fun x => x.survivor && decide (6 ≤ x.step)) = true := by
    rw [h, hr, Option.any_some, hsurvivor, hstep]
    rfl
  unfold State.tryFinal
  rw [hr]
  dsimp -zeta only
  extract_lets i s0 s1
  split
  · exact hstays s rfl
  split
  · exact hstays _ (State.SamePair.foldl (fun t (o : OpenSb) => t.samePair_padSb o.sb) _ s).1
  · have hs1 : s1.pairSt.rejoin = some { r with step := 7, finalJseq := some (s.hardened i) } := by
      unfold s1
      clear_value s0
      exact congrArg PairSt.rejoin (State.send_pairSt _ _)
    clear_value s1
    change s1.pairSt.rejoin.any (fun x => x.survivor && decide (6 ≤ x.step)) = true
    rw [hs1, Option.any_some, hsurvivor]
    rfl

/-- The survivor in step 6, the open superblocks that the joiner takes over padded, and all but the last kind closed. -/
def State.handedBack (s : State) (r : RejoinSt) : State :=
  let l := s.ftl.open_.filter fun o => o.inst == s.partnerId
  (l.filter fun o => o.stream == 3).foldl (fun t o => t.padSb o.sb) ((l.filter fun o => o.stream != 3).foldl (fun t o => t.shutSb o.sb)
    (s.modPair fun p => { p with rejoin := some { r with step := 6 } }))

theorem State.handedBack_rejoin (s : State) (r : RejoinSt) : (s.handedBack r).pairSt.rejoin = some { r with step := 6 } := by
  unfold State.handedBack
  extract_lets l
  have hshut := State.SamePair.foldl (fun t (o : OpenSb) => t.samePair_shutSb o.sb) (l.filter fun o => o.stream != 3)
    (s.modPair fun p => { p with rejoin := some { r with step := 6 } })
  exact congrArg PairSt.rejoin (hshut.trans (State.SamePair.foldl (fun t (o : OpenSb) => t.samePair_padSb o.sb) (l.filter fun o => o.stream == 3) _)).1

/-! ### FINAL_JSEQ -/

/-- The state that hears the final number, its held groups applied. -/
def State.heardFinal (s : State) (jseq : Nat) (r : RejoinSt) : State :=
  (s.applyHeld s.headId).modPair fun p => { p with rejoin := some { r with step := 6, finalJseq := some jseq } }

theorem State.heardFinal_spec (s : State) (jseq : Nat) (r : RejoinSt) :
    (s.heardFinal jseq r).pairSt = { s.pairSt with rejoin := some { r with step := 6, finalJseq := some jseq } } ∧
    (s.heardFinal jseq r).headId = s.headId := by
  obtain ⟨hpair, hkeep⟩ := s.applyHeld_kept s.headId
  unfold State.heardFinal
  generalize s.applyHeld s.headId = u at hpair hkeep ⊢
  exact ⟨by rw [State.modPair, hpair], hkeep F.GLB_PAIR_STATUS_HEAD_ID (List.mem_singleton_self _)⟩

/-- Which head this is, as a state and one that differs in other registers agree. -/
theorem State.Keeps.headId {s t : State} (h : s.Keeps [F.GLB_PAIR_STATUS_HEAD_ID] t) : t.headId = s.headId := h F.GLB_PAIR_STATUS_HEAD_ID (List.mem_singleton_self _)

theorem State.setEpoch_pairSt (s : State) (half e : Nat) : (s.setEpoch half e).pairSt = s.pairSt := by
  unfold State.setEpoch
  extract_lets u
  split <;> rfl

theorem State.keeps_setEpoch (s : State) (half e : Nat) : s.Keeps [F.GLB_PAIR_STATUS_HEAD_ID] (s.setEpoch half e) := by
  have hhalf : s.Keeps [F.GLB_PAIR_STATUS_HEAD_ID] (s.setFld (if half = 0 then F.GLB_LEASE_EPOCHS_HALF0 else F.GLB_LEASE_EPOCHS_HALF1) e) := by
    split
    · exact s.keeps_setFld _ (by decide)
    · exact s.keeps_setFld _ (by decide)
  unfold State.setEpoch
  exact .ite (hhalf.trans (State.keeps_setFld _ _ (by decide))) hhalf

/-- A claim put where none is out is the only one; nothing else of the pair's state but the epochs claimed changes. -/
theorem State.claimNew_spec (s : State) (half : Nat) (why : ClaimFor) (hclaims : s.pairSt.claims = []) :
    (∃ c, (s.claimNew half why).pairSt.claims = [c] ∧ c.half = half ∧ c.for_ = why) ∧ (s.claimNew half why).pairSt.rejoin = s.pairSt.rejoin ∧
    (s.claimNew half why).headId = s.headId := by
  have hepoch (e : Nat) : s.Keeps [F.GLB_PAIR_STATUS_HEAD_ID] (if s.epoch half = 0 then s else s.setEpoch half e) ∧
      (if s.epoch half = 0 then s else s.setEpoch half e).pairSt = s.pairSt := by
    split
    · exact ⟨.refl _ s, rfl⟩
    · exact ⟨s.keeps_setEpoch _ _, s.setEpoch_pairSt _ _⟩
  unfold State.claimNew State.claimHalf
  extract_lets s0 claimed s1 s2
  obtain ⟨hkeep, hpair⟩ := hepoch (epochNext (s.highestEpoch half))
  have hs0 : s.Keeps [F.GLB_PAIR_STATUS_HEAD_ID] s0 ∧ s0.pairSt = s.pairSt := ⟨hkeep, hpair⟩
  clear_value s0
  have hs1 : s.Keeps [F.GLB_PAIR_STATUS_HEAD_ID] s1 ∧ s1.pairSt.rejoin = s.pairSt.rejoin :=
    ⟨hs0.1.trans (.of_cells rfl), (congrArg PairSt.rejoin hs0.2 : s0.pairSt.rejoin = _)⟩
  clear_value s1
  obtain ⟨hpair2, hkeep2, -⟩ := State.SamePair.foldl (fun (t : State) m => t.samePair_sendClaim half (epochNext (s.highestEpoch half)) none m) s.presentMods s1
  have hs2 : s.Keeps [F.GLB_PAIR_STATUS_HEAD_ID] s2 ∧ s2.pairSt.rejoin = s.pairSt.rejoin := ⟨hs1.1.trans hkeep2, (congrArg PairSt.rejoin hpair2).trans hs1.2⟩
  clear_value s2
  rw [hclaims, List.filter_nil, List.nil_append]
  exact ⟨⟨_, rfl, rfl, rfl⟩, hs2.2, (hs2.1.trans (.of_cells rfl)).headId⟩

/-! ### The joiner's last step -/

theorem State.samePair_takeJournal (s : State) (i : Nat) : s.SamePair (s.takeJournal i) := by
  have hfree : s.SamePair (s.free 48).2 := .of_same rfl rfl rfl
  unfold State.takeJournal
  generalize s.free 48 = p at hfree ⊢
  obtain ⟨n, u⟩ := p
  dsimp -zeta only
  extract_lets f s2
  have hs2 : u.SamePair s2 := u.samePair_modJnl i fun _ => rfl
  clear_value s2
  exact (hfree.trans hs2).trans ((s2.samePair_setPair _ off_high off_high).trans (State.samePair_setPair _ _ off_high off_high))

theorem State.samePair_namePlaces (s : State) (recs : List JRec) : s.SamePair (s.namePlaces recs).1 := by
  unfold State.namePlaces
  refine State.samePair_foldl_fst ?_ recs (s, ([] : Tbl (Nat × Nat)))
  intro p r
  dsimp only
  split
  · exact .refl _
  · split
    · exact .refl _
    · split
      · exact .refl _
      · exact .of_same rfl rfl rfl
  · exact .refl _

theorem State.samePair_closeLeft (s : State) (i sb named : Nat) : s.SamePair (s.closeLeft i sb named) := by
  unfold State.closeLeft
  extract_lets total v s1 s2 wmax s3
  have hs1 : s.SamePair s1 := (s.samePair_addValid _ _).trans (State.samePair_addInvalid _ _ _)
  clear_value s1
  have hs3 : s1.SamePair s3 := .of_same rfl rfl rfl
  clear_value s3
  exact ((hs1.trans hs3).trans (s3.samePair_setSbState _ _)).trans (State.samePair_journalSb _ _ _ _)

theorem State.samePair_closeLefts (s : State) (i : Nat) (recs : List JRec) : s.SamePair (s.closeLefts i recs) := by
  have hnames := s.samePair_namePlaces recs
  unfold State.closeLefts
  generalize s.namePlaces recs = p at hnames ⊢
  obtain ⟨u, places⟩ := p
  dsimp -zeta only
  extract_lets pages l s2
  have hs2 : u.SamePair s2 := .foldl (fun t sb => t.samePair_closeLeft _ _ _) _ _
  clear_value s2
  exact (hnames.trans hs2).trans (.foldl (fun t e => t.samePair_eraseMembers _) _ s2)

theorem State.samePair_modCommit (s : State) (f : CommitSt → CommitSt) : s.SamePair (s.modCommit f) := .of_same rfl rfl rfl

theorem State.samePair_submitAdopted (s : State) (i : Nat) : s.SamePair (s.submitAdopted i) := by
  unfold State.submitAdopted
  refine .foldl (fun t p => ?_) _ s
  extract_lets old g t1
  have ht1 : t.SamePair t1 := (t.samePair_setPair _ (by decide) (by decide)).trans (State.samePair_modCommit _ _)
  clear_value t1
  exact ht1.trans (.ite (t1.samePair_submitWrite _ _) (.refl t1))

/-- The joiner's last step leaves no rejoin, and its journal goes on above the final number. -/
theorem State.joinerDone_spec {s : State} {r : RejoinSt} {jseq : Nat} (hr : s.pairSt.rejoin = some r) (hf : r.finalJseq = some jseq) :
    s.joinerDone.pairSt.rejoin = none ∧ (s.joinerDone.jnl s.headId).lastApplied = jseq := by
  unfold State.joinerDone
  rw [hr]
  dsimp -zeta only
  extract_lets i f s1
  have hf : f = jseq := by
    unfold f
    rw [hf]
    rfl
  have hnone : s1.pairSt.rejoin = none := rfl
  have hnumber : (s1.jnl i).lastApplied = f := congrArg JnlSt.lastApplied (State.jnl_modJnl _ i _)
  clear_value s1
  obtain ⟨hpair, -, hjnl⟩ := ((s1.samePair_takeJournal i).trans (State.samePair_closeLefts _ i [])).trans (State.samePair_submitAdopted _ i)
  exact ⟨(congrArg PairSt.rejoin hpair).trans hnone, ((hjnl i).trans hnumber).trans hf⟩

/-- The one claim of a joiner either stays out with its rejoin, or is over and the joiner is done. -/
theorem State.settleClaims_spec {s : State} {c : ClaimSt} {r : RejoinSt} {jseq : Nat} (hclaims : s.pairSt.claims = [c]) (hfor : c.for_ = .rejoin)
    (hr : s.pairSt.rejoin = some r) (hf : r.finalJseq = some jseq) :
    s.settleClaims = s ∨ s.settleClaims.pairSt.rejoin = none ∧ (s.settleClaims.jnl s.headId).lastApplied = jseq := by
  unfold State.settleClaims
  rw [hclaims]
  by_cases hup : c.waiting.any s.portUp = true
  · left
    rw [List.filter_cons_of_neg (by simp [hup])]
    rfl
  · right
    rw [List.filter_cons_of_pos (by simp [hup]), List.filter_nil, List.foldl_cons, List.foldl_nil, if_pos (by rw [hclaims]; simp)]
    unfold State.claimsOver
    rw [hfor]
    exact State.joinerDone_spec (s := s.modPair fun p => { p with claims := p.claims.filter fun x => x.half != c.half || x.for_ != ClaimFor.rejoin }) hr hf

/-- Settles O11: each clause is one step of a rejoin. -/
theorem rejoinGoesOnInSteps : Obligations.RejoinGoesOnInSteps := by
  unfold Obligations.RejoinGoesOnInSteps
  refine ⟨fun r s hon hr hsurvivor hstep hhard => ?_, fun r s hon hr hsurvivor hstep hbusy => ?_, fun jseq r s hon h hr hsurvivor hstep hclaims => ?_⟩
  · have hx : exec .rejoinPause s = .next (s.live (s.modPair fun p => { p with rejoin := some { r with step := 4 }, groupHeld := true }).endPause) := by
      change execRejoinPause s = _
      unfold execRejoinPause
      rw [hr]
      dsimp only
      rw [if_pos ⟨hsurvivor, hstep, hhard⟩]
    have hspec := State.endPause_spec (s := s.modPair fun p => { p with rejoin := some { r with step := 4 }, groupHeld := true }) rfl hsurvivor (Nat.le_refl 4) rfl
    generalize (s.modPair fun p => { p with rejoin := some { r with step := 4 }, groupHeld := true }).endPause = u at hx hspec
    rw [hx, State.live_on hon]
    exact ⟨_, rfl, hspec⟩
  · have hx : exec .survivorHandback s = .next (s.live (s.handedBack r).tryFinal) := by
      change execSurvivorHandback s = _
      unfold execSurvivorHandback
      rw [hr]
      dsimp only
      rw [if_neg (by simp [hsurvivor, hstep, hbusy])]
      rfl
    have hspec := State.tryFinal_spec (s.handedBack_rejoin r) hsurvivor rfl
    generalize (s.handedBack r).tryFinal = u at hx hspec
    rw [hx, State.live_on hon]
    exact ⟨_, rfl, hspec⟩
  · have hx : exec (.finalJseq jseq) s = .next (s.live ((s.heardFinal jseq r).claimNew s.headId .rejoin).settleClaims) := by
      change execFinalJseq jseq s = _
      unfold execFinalJseq
      rw [hr]
      dsimp only
      rw [if_neg (by simp [h, hsurvivor, hstep])]
      rfl
    obtain ⟨hpair, hid⟩ := s.heardFinal_spec jseq r
    generalize s.heardFinal jseq r = u at *
    obtain ⟨⟨c, hc, hhalf, hfor⟩, hrejoin, hid'⟩ := u.claimNew_spec s.headId .rejoin (by rw [hpair]; exact hclaims)
    generalize u.claimNew s.headId .rejoin = v at *
    have hr' : v.pairSt.rejoin = some { r with step := 6, finalJseq := some jseq } := by rw [hrejoin, hpair]
    rw [hx, State.live_on hon]
    refine ⟨_, rfl, ?_⟩
    rcases State.settleClaims_spec hc hfor hr' rfl with hstays | ⟨hnone, hnumber⟩
    · rw [hstays]
      have hout : v.pairSt.claims.any (fun c => c.half == s.headId && c.for_ == ClaimFor.rejoin) = true := by simp [hc, hhalf, hfor]
      exact ⟨.inr hr', fun hn => absurd (hr'.symm.trans hn) (Option.some_ne_none _), fun _ => hout⟩
    · rw [hid'.trans hid] at hnumber
      generalize v.settleClaims = w at *
      exact ⟨.inl hnone, fun _ => hnumber, fun hn => absurd hnone hn⟩

end Sys2Proof.Machine
end

section
/-! SUPPORT. A queue pair in error stays so whatever completes or fails beside it (R304, R305). -/
namespace Sys2Proof.Machine

/-- A queue pair that is in error in s is so in t, with the same requests, tally wait and place in its send queue. -/
def State.ErrorKept (n : Nat) (s t : State) : Prop :=
  ∀ q, s.qp? n = some q → q.state = 2 → ∃ q', t.qp? n = some q' ∧ q'.state = 2 ∧ q'.tally = q.tally ∧ q'.out = q.out ∧ q'.sqHead = q.sqHead

section
variable {n : Nat} {s t u : State}

theorem State.ErrorKept.of_qps (h : t.rdt.qps = s.rdt.qps) : s.ErrorKept n t := fun q hq h2 =>
  ⟨q, (congrArg (fun r : Tbl Qp => r.get? n) h).trans hq, h2, rfl, rfl, rfl⟩

theorem State.ErrorKept.refl (n : Nat) (s : State) : s.ErrorKept n s := .of_qps rfl

theorem State.ErrorKept.trans (h : s.ErrorKept n t) (k : t.ErrorKept n u) : s.ErrorKept n u := fun q hq h2 => by
  obtain ⟨q', hq', h2', htally, hout, hhead⟩ := h q hq h2
  obtain ⟨q'', hq'', h2'', htally', hout', hhead'⟩ := k q' hq' h2'
  exact ⟨q'', hq'', h2'', htally'.trans htally, hout'.trans hout, hhead'.trans hhead⟩

theorem State.ErrorKept.ite {c : Prop} [Decidable c] (ht : s.ErrorKept n t) (hu : s.ErrorKept n u) : s.ErrorKept n (if c then t else u) := by
  split
  · exact ht
  · exact hu

theorem State.ErrorKept.foldl {α : Type} {f : State → α → State} (h : ∀ (t : State) (a : α), t.ErrorKept n (f t a)) (l : List α) (s : State) :
    s.ErrorKept n (l.foldl f s) := by
  induction l generalizing s with
  | nil => exact .refl n s
  | cons a l ih => exact (h s a).trans (ih _)

theorem State.SameUnits.errorKept (h : s.SameUnits t) : s.ErrorKept n t := .of_qps (congrArg RdtSt.qps h.rdt)

end

theorem State.errorKept_setFld (n : Nat) (s : State) (f : Fld) (v : Nat) : s.ErrorKept n (s.setFld f v) := .of_qps rfl
theorem State.errorKept_raise (n : Nat) (s : State) (f : Fld) : s.ErrorKept n (s.raise f) := (s.sameUnits_raise f).errorKept
theorem State.errorKept_send (n : Nat) (s : State) (m : Sent) : s.ErrorKept n (s.send m) := by
  rcases s.send_eq m with e | e <;> rw [e] <;> exact .of_qps rfl

theorem State.errorKept_egressTo (n : Nat) (s : State) (q : Qp) (m : Sent) : s.ErrorKept n (s.egressTo q m) := .ite (.of_qps rfl) (s.errorKept_send n m)

/-- A context that is written is not the one in error. -/
theorem State.errorKept_setQp {n m : Nat} {s : State} {q : Qp} (q1 : Qp) (hq : s.qp? m = some q) (h2 : q.state ≠ 2) : s.ErrorKept n (s.setQp m q1) :=
  fun p hp hp2 => by
    have hm : n ≠ m := fun e => h2 (by
      rw [← e, hp] at hq
      exact Option.some.inj hq ▸ hp2)
    exact ⟨p, (s.qp?_setQp_ne q1 hm).trans hp, hp2, rfl, rfl, rfl⟩

theorem State.errorKept_launch {n m : Nat} {s : State} {q : Qp} (hq : s.qp? m = some q) (h2 : q.state ≠ 2) (q1 : Qp) (w : OutWqe) (span : Nat) :
    s.ErrorKept n (s.launch m q1 w span) := by
  unfold State.launch
  extract_lets q2 s1
  have hs1 : s.ErrorKept n s1 := State.errorKept_setQp q2 hq h2
  exact .ite hs1 (hs1.trans (.foldl (fun t p => t.errorKept_egressTo n _ _) _ s1))

theorem State.errorKept_post (n : Nat) (s : State) (m : Nat) (first : Bool) (w : OutWqe) : s.ErrorKept n (s.post m first w) := by
  unfold State.post
  split
  · exact .refl n s
  · next q hq =>
    split
    · exact .refl n s
    · next hst =>
      have h2 : q.state ≠ 2 := fun h => hst (.inl (by omega))
      exact .ite (State.errorKept_setQp _ hq h2) (State.errorKept_launch hq h2 _ _ _)

theorem State.errorKept_sendHost (n : Nat) (s : State) (m : HostMsg) : s.ErrorKept n (s.sendHost m) := by
  unfold State.sendHost
  split
  · exact (s.errorKept_send n _).trans (.ite (State.errorKept_send n _ _) (.foldl (fun t c => t.errorKept_post n _ _ _) _ _))
  · exact (s.errorKept_send n _).trans (.ite (.refl n _) (State.errorKept_post n _ _ _ _))

theorem State.errorKept_toHost (n : Nat) (s : State) (q k : Nat) (m : HostMsg) : s.ErrorKept n (s.toHost q k m) :=
  .ite (.ite ((s.errorKept_sendHost n m).trans (.of_qps rfl)) ((s.errorKept_raise n _).trans (.of_qps rfl))) (s.errorKept_sendHost n m)

theorem State.errorKept_freezeFor (n : Nat) (s : State) (o : Origin) (st : HostStat) : s.ErrorKept n (s.freezeFor o st) := by
  have hwr (t : State) (a k v : Nat) : t.ErrorKept n (t.wrN a k v) := .of_qps rfl
  unfold State.freezeFor
  extract_lets a s1 s2
  have hs2 : s.ErrorKept n s2 := .of_qps rfl
  clear_value s2
  refine .ite (.refl n s) (.ite ?_ (.ite (hwr _ _ _ _) (.refl n s)))
  exact (hs2.trans ((hwr _ _ _ _).trans (State.errorKept_setFld n _ _ _))).trans ((State.errorKept_setFld n _ _ _).trans (State.errorKept_raise n _ _))

/-- A write's completion changes the pins alone. -/
theorem State.errorKept_unpin (n : Nat) (s : State) (o : Origin) : s.ErrorKept n (s.unpin o) := by
  refine State.ErrorKept.trans (t := s.modQp (s.qQpn o.queue) fun q => { q with pins := q.pins.filter fun p => p != (o.queue, o.cid) }) ?_ (.of_qps rfl)
  cases hq : s.qp? (s.qQpn o.queue) with
  | none =>
    refine .of_qps ?_
    unfold State.modQp Tbl.modify
    rw [State.modRdt_rdt, show s.rdt.qps.get? (s.qQpn o.queue) = none from hq]
  | some q =>
    rw [State.modQp_of_some hq]
    intro p hp h2
    by_cases hm : n = s.qQpn o.queue
    · subst hm
      obtain rfl : q = p := Option.some.inj (hq.symm.trans hp)
      exact ⟨_, State.qp?_setQp _ _ _, h2, rfl, rfl, rfl⟩
    · exact ⟨p, (State.qp?_setQp_ne _ _ hm).trans hp, h2, rfl, rfl, rfl⟩

theorem State.errorKept_completeHost (n : Nat) (s : State) (o : Origin) (st : HostStat) : s.ErrorKept n (s.completeHost o st) :=
  .ite (s.errorKept_send n _) (((s.errorKept_freezeFor n o st).trans (State.errorKept_unpin n _ o)).trans
    (.ite (State.errorKept_setFld n _ _ _) (State.errorKept_toHost n _ _ _ _)))

theorem State.errorKept_reportHorizon (n : Nat) (s : State) (i : Nat) : s.ErrorKept n (s.reportHorizon i) :=
  .ite (.refl n s) (State.ErrorKept.trans (t := s.modCommit _) (.of_qps rfl) (.ite (State.errorKept_send n _ _) (.refl n _)))

theorem State.errorKept_abortEntry (n : Nat) (s : State) (inst seq : Nat) : s.ErrorKept n (s.abortEntry inst seq) := by
  have hfree (t : State) : t.ErrorKept n (t.freeAborted inst seq) := by
    unfold State.freeAborted
    split
    · next e _ =>
      extract_lets s1
      have hs1 : t.ErrorKept n s1 := .of_qps rfl
      clear_value s1
      have htail (u : State) : u.ErrorKept n u.freeTail := .of_qps rfl
      have hdirty : s1.ErrorKept n ((s1.releaseDirty (e.blocks.filter (·.dirty)).length).unlock inst seq) := .of_qps rfl
      exact (hs1.trans hdirty).trans ((htail _).trans (State.errorKept_reportHorizon n _ _))
    · exact .refl n t
  unfold State.abortEntry
  split
  · extract_lets s1
    have hs1 : s.ErrorKept n s1 := .of_qps rfl
    clear_value s1
    exact hs1.trans (.ite (hfree _) ((State.errorKept_reportHorizon n _ _).trans (State.errorKept_send n _ _)))
  · exact .refl n s

theorem State.errorKept_abortWrites (n : Nat) (s : State) (m : Nat) : s.ErrorKept n (s.abortWrites m) :=
  .trans (.foldl (fun t e => t.errorKept_abortEntry n _ _) _ s) (.foldl (fun t o => t.errorKept_completeHost n _ _) _ _)

/-- A CQE that finds no room, or one that goes to its place: the completion queue alone changes of the queues. -/
theorem State.writeCqe_qps (s : State) (c wrId qpn bytes imm op status index : Nat) :
    (s.writeCqe c wrId qpn bytes imm op status index).rdt.qps = s.rdt.qps := by
  unfold State.writeCqe
  split
  · rfl
  · next q hq =>
    clear hq
    split
    · rfl
    · split
      next full s1 hdraw =>
      have hs1 : s1.rdt.qps = s.rdt.qps := by
        split at hdraw <;> cases hdraw <;> rfl
      clear hdraw
      split
      · split
        · rw [State.errFatal_rdt]
          exact hs1
        · exact hs1
      · exact hs1

theorem State.sqDone_qps (s : State) (n : Nat) (q : Qp) (w : OutWqe) (status : Nat) : (s.sqDone n q w status).rdt.qps = s.rdt.qps := by
  unfold State.sqDone
  split
  · exact s.writeCqe_qps _ _ _ _ _ _ _ _
  · rfl

theorem State.errorKept_systemEvent (n : Nat) (s : State) (m code : Nat) : s.ErrorKept n (s.systemEvent m code) := by
  have hwr (t : State) (a : Nat) (b : Bytes) : t.ErrorKept n (t.wr a b) := .of_qps rfl
  exact .ite ((State.errorKept_setFld n _ _ _).trans (State.errorKept_raise n _ _))
    (((hwr _ _ _).trans (State.errorKept_setFld n _ _ _)).trans (State.errorKept_raise n _ _))

theorem State.errorKept_tenantError (n : Nat) (s : State) (tenant : Nat) : s.ErrorKept n (s.tenantError tenant) := by
  unfold State.tenantError
  extract_lets l s1
  have hs1 : s.ErrorKept n s1 := 
    (State.ErrorKept.of_qps (t := s.modRdt fun r => { r with errTurns := r.errTurns.put tenant l }) rfl).trans
      ((State.errorKept_setFld n _ _ _).trans (State.errorKept_raise n _ _))
  exact .ite (hs1.trans (.of_qps rfl)) hs1

/-- A queue pair as its error leaves it. -/
def Qp.failed (q : Qp) : Qp := { q with state := 2, out := [], readQ := [], sendQ := [], tally := none, rx := none, rnrWait := false }

/-- What comes with the error of a queue pair: the CQEs of its requests, its event, and the writes that ride on it. -/
def State.failRest (s1 : State) (n : Nat) (q : Qp) (status : Nat) (event : Option Nat) : State :=
  let s2 := if q.tally.isSome then s1.setFld F.RDT_TALLY_CFG_PENDING (s1.fld F.RDT_TALLY_CFG_PENDING - 1) else s1
  let s3 := (q.out.zipIdx).foldl (fun t p => if p.1.host.isSome then t else t.sqDone n q p.1 (if p.2 = 0 then status else 4)) s2
  if q.cls = 0 then
    let s4 := match event with | some c => s3.systemEvent n c | none => s3
    (s4.inc F.RDT_DROPS_CPL_LOST (q.sendQ.filter fun m => m.2.op == 1 && m.2.host.isSome).length).abortWrites n
  else
    let s4 := match event with | some c => s3.send (.tenantEvent q.tenant n c) | none => s3
    s4.tenantError q.tenant

theorem State.failOne_eq {s : State} {n : Nat} {q : Qp} (hq : s.qp? n = some q) (h2 : q.state ≠ 2) (status : Nat) (event : Option Nat) :
    s.failOne n status event = (s.setQp n q.failed).failRest n q status event := by
  unfold State.failOne
  rw [hq]
  dsimp only
  rw [if_neg h2]
  rfl

theorem State.errorKept_failRest (n : Nat) (s : State) (m : Nat) (q : Qp) (status : Nat) (event : Option Nat) :
    s.ErrorKept n (s.failRest m q status event) := by
  unfold State.failRest
  extract_lets s2 s3 s4 s5
  have hs2 : s.ErrorKept n s2 := .ite (.of_qps rfl) (.refl n s)
  have hs3 : s2.ErrorKept n s3 := .foldl (fun t p => .ite (.refl n t) (.of_qps (t.sqDone_qps _ _ _ _))) _ s2
  have hs4 : s3.ErrorKept n s4 := by
    cases event with
    | some c => exact State.errorKept_systemEvent n _ _ _
    | none => exact .refl n s3
  have hs5 : s3.ErrorKept n s5 := by
    cases event with
    | some c => exact State.errorKept_send n _ _
    | none => exact .refl n s3
  clear_value s2 s3 s4 s5
  refine (hs2.trans hs3).trans (.ite ?_ (hs5.trans (State.errorKept_tenantError n _ _)))
  exact hs4.trans ((State.errorKept_setFld n _ _ _).trans (State.errorKept_abortWrites n _ _))

theorem State.errorKept_failOne (n : Nat) (s : State) (m status : Nat) (event : Option Nat) : s.ErrorKept n (s.failOne m status event) := by
  cases hq : s.qp? m with
  | none =>
    rw [State.failOne, hq]
    exact .refl n s
  | some q =>
    by_cases h2 : q.state = 2
    · rw [State.failOne, hq]
      dsimp only
      rw [if_pos h2]
      exact .refl n s
    · rw [State.failOne_eq hq h2]
      exact (State.errorKept_setQp _ hq h2).trans (State.errorKept_failRest n _ _ _ _ _)

theorem State.errorKept_spread (n k : Nat) (s : State) : s.ErrorKept n (State.spread k s) := by
  induction k generalizing s with
  | zero => exact .refl n s
  | succ k ih =>
    unfold State.spread
    split
    · exact .refl n s
    · exact ((State.ErrorKept.of_qps (t := (s.free 8).2) rfl).trans (State.errorKept_failOne n _ _ _ _)).trans (ih _)

theorem State.errorKept_settleQps (n : Nat) (s : State) : s.ErrorKept n s.settleQps :=
  (State.errorKept_spread n _ s).trans (State.errorKept_setFld n _ _ _)

/-- A queue pair that fails is in error, waits for nothing and has nothing outstanding. -/
theorem State.failQp_spec {n : Nat} {s : State} {q : Qp} (hq : s.qp? n = some q) (h2 : q.state ≠ 2) (status : Nat) (event : Option Nat) :
    ∃ q', (s.failQp n status event).qp? n = some q' ∧ q'.state = 2 ∧ q'.tally = none ∧ q'.out = [] ∧ q'.sqHead = q.sqHead :=
  (State.failOne_eq hq h2 status event ▸ (State.errorKept_failRest n (s.setQp n q.failed) n q status event).trans
    ((State.errorKept_spread n _ _).trans (State.errorKept_setFld n _ _ _))) _ (State.qp?_setQp _ _ _) rfl

end Sys2Proof.Machine
end

section
/-! SUPPORT. Send work requests and tally waits (R308, R313). -/
namespace Sys2Proof.Machine

/-! ### Send work requests (R308) -/

/-- A work request on the wire: its PSNs are taken and it is outstanding. -/
def Qp.launched (q : Qp) (w : OutWqe) (span : Nat) : Qp :=
  { q with
    sqPsn := (q.sqPsn + span) % 2 ^ 24, retriesLeft := q.retry, rnrLeft := q.rnrRetry,
    out := q.out ++ [{ w with first := q.sqPsn, last := (q.sqPsn + span - 1) % 2 ^ 24 }] }

/-- The state that has sent packets. -/
def State.andPkts (s : State) (l : List RocePkt) : State := { s with sent := s.sent ++ l.map Sent.roce }

theorem State.launch_open {s : State} (h : s.portsOpen) {n : Nat} {q : Qp} (hq : s.prioPaused q.port q.prio = false) (hrnr : q.rnrWait = false) (w : OutWqe) (span : Nat) :
    s.launch n q w span = (s.setQp n (q.launched w span)).andPkts w.pkts := by
  have hsend : (w.pkts.foldl (fun t p => t.egressTo q (.roce p)) (s.setQp n (q.launched w span))) = _ :=
    State.foldl_egressTo (s := s.setQp n (q.launched w span)) h hq w.pkts
  exact (if_neg (by rw [hrnr]; decide)).trans hsend

theorem State.headWqe_sized {s : State} {q : Qp} (h : q.sqSize ≠ 0) :
    s.headWqe q = (q.sqHead % q.sqSize, s.readWqe (q.sqAddr + 64 * (q.sqHead % q.sqSize))) := by
  rw [State.headWqe, Nat.max_eq_right (Nat.one_le_iff_ne_zero.mpr h)]

/-- A send queue that works on: connected, enabled, waiting for nothing. -/
structure State.SendsNext (s : State) (n : Nat) (q : Qp) : Prop where
  found   : s.qp? n = some q
  sized   : q.sqSize ≠ 0
  conn    : q.state = 1
  enabled : s.flag F.RDT_CTRL_ENABLE = true
  tally   : q.tally = none
  rnr     : q.rnrWait = false

/-- A request that is legal, finds a place and has no error is put on the wire. -/
theorem execSendWqe_runs {s : State} {n : Nat} {q : Qp} (h : s.SendsNext n q) {k : Nat} {w : Wqe} (hhead : s.headWqe q = (k, w)) (hres : w.reserved = false)
    (hop : w.op ≠ 9) (hplace : ¬((w.fence ∧ 0 < (q.out.filter OutWqe.reads).length) ∨
      ((w.op = 5 ∨ w.op = 6 ∨ w.op = 7) ∧ 16 ≤ (q.out.filter OutWqe.reads).length))) (herr : s.wqeError q w = 0) :
    execSendWqe n s = .next (s.live ((s.setQp n { q with sqHead := q.sqHead + 1 }).runWqe n { q with sqHead := q.sqHead + 1 } k w)) := by
  obtain ⟨hq, hsize, hstate, hen, htally, hrnr⟩ := h
  have hskip : ¬(q.sqSize = 0 ∨ q.state = 0 ∨ (!s.flag F.RDT_CTRL_ENABLE) = true ∨ q.tally.isSome = true ∨ q.rnrWait = true) := by
    simp [hsize, hstate, hen, htally, hrnr]
  unfold execSendWqe
  rw [hq]
  dsimp only
  rw [if_neg hskip, hhead]
  dsimp only
  rw [if_neg (by omega), hres, if_neg (by decide), if_neg hop, if_neg hplace, herr, if_neg (not_not_intro rfl), State.popWqe, State.modQp_of_some hq]

theorem State.setQp_setQp_spec (s : State) (n : Nat) (p q : Qp) (l : List RocePkt) :
    let t := ((s.setQp n p).setQp n q).andPkts l
    t.qp? n = some q ∧ t.sent = s.sent ++ l.map Sent.roce ∧ t = { s with rdt := { s.rdt with qps := t.rdt.qps }, sent := t.sent } ∧
      ∀ m, m ≠ n → t.qp? m = s.qp? m :=
  ⟨State.qp?_setQp _ _ _, rfl, rfl, fun _ hm => (State.qp?_setQp_ne _ _ hm).trans (State.qp?_setQp_ne _ _ hm)⟩

section
variable {s : State} {n : Nat} {q : Qp} (h : s.SendsNext n q)
include h

theorem State.exec_sendWqe_of_runs (hon : s.pins.powered = true) (hopen : s.portsOpen) (hpaused : s.prioPaused q.port q.prio = false) {k : Nat} {w : Wqe}
    (hhead : s.headWqe q = (k, w)) (hres : w.reserved = false)
    (hop : w.op ≠ 9) (hplace : ¬((w.fence ∧ 0 < (q.out.filter OutWqe.reads).length) ∨
      ((w.op = 5 ∨ w.op = 6 ∨ w.op = 7) ∧ 16 ≤ (q.out.filter OutWqe.reads).length))) (herr : s.wqeError q w = 0)
    {pkts : List RocePkt} {span : Nat}
    (hrun : ∀ t : State, t.physRd w.local_ w.len = s.physRd w.local_ w.len →
      t.runWqe n { q with sqHead := q.sqHead + 1 } k w = t.launch n { q with sqHead := q.sqHead + 1 } (w.out k pkts) span) :
    ∃ t, exec (.sendWqe n) s = .next t ∧
      t.qp? n = some (Qp.launched { q with sqHead := q.sqHead + 1 } (w.out k pkts) span) ∧
      t.sent = s.sent ++ pkts.map Sent.roce ∧ t = { s with rdt := { s.rdt with qps := t.rdt.qps }, sent := t.sent } ∧
      ∀ m, m ≠ n → t.qp? m = s.qp? m := by
  have hrdt : (s.setQp n { q with sqHead := q.sqHead + 1 }).physRd w.local_ w.len = s.physRd w.local_ w.len := rfl
  have hexec : exec (.sendWqe n) s = execSendWqe n s := rfl
  rw [hexec, execSendWqe_runs h hhead hres hop hplace herr, hrun _ hrdt,
    State.launch_open (s := s.setQp n { q with sqHead := q.sqHead + 1 }) (q := { q with sqHead := q.sqHead + 1 }) hopen hpaused h.rnr]
  exact ⟨_, State.next_live_eq hon rfl, State.setQp_setQp_spec _ _ _ _ _⟩

end

/-- The data of a SEND: inline, or at the address it names. -/
def State.wqeData (s : State) (w : Wqe) : Bytes := if w.isInline then w.inline_.take w.len else s.physRd w.local_ w.len

theorem State.runWqe_send {s t : State} {n : Nat} {q : Qp} {k : Nat} {w : Wqe} (hop : w.op = 1 ∨ w.op = 2) (hread : t.physRd w.local_ w.len = s.physRd w.local_ w.len) :
    let pkts := dataPkts q .send (if w.op = 2 then some w.aux else none) 0 0 (s.wqeData w)
    t.runWqe n q k w = t.launch n q (w.out k pkts) pkts.length := by
  unfold State.runWqe State.wqeData
  rw [hread]
  rcases hop with hop | hop <;> rw [hop] <;> rfl

theorem State.runWqe_read {t : State} {n : Nat} {q : Qp} {k : Nat} {w : Wqe} (hop : w.op = 5) :
    t.runWqe n q k w = t.launch n q (w.out k [mkPkt q q.sqPsn .read w.remote w.rkey w.len]) (max 1 (ceilDiv w.len (pmtuBytes q))) := by
  unfold State.runWqe
  rw [hop]
  rfl

/-! ### Tally waits (R313) -/

/-- Whatever draw decides whether a full completion queue has room, one that is not full takes a CQE without error. -/
theorem State.writeCqe_good (heven : ∀ k, Config.freeValue k % 2 = 0) (s : State) (c wrId qpn bytes imm op status index : Nat) :
    let u := s.writeCqe c wrId qpn bytes imm op status index
    u.sent = s.sent ∧ u.pins = s.pins ∧ u.rdt.qps = s.rdt.qps ∧ u.rdt.disabled = s.rdt.disabled ∧ ∀ k, (u.cq? k).any (·.bad) = (s.cq? k).any (·.bad) := by
  intro u
  dsimp only [u]
  unfold State.writeCqe
  generalize cqeBytes wrId qpn bytes imm op status index = b
  cases hq : s.cq? c with
  | none => exact ⟨rfl, rfl, rfl, rfl, fun _ => rfl⟩
  | some q =>
    dsimp only
    cases hbad : q.bad with
    | true => exact ⟨rfl, rfl, rfl, rfl, fun _ => rfl⟩
    | false =>
      rw [if_neg (by decide)]
      generalize hdraw : (if q.size ≤ q.unread then ((s.free 1).1 == 1, (s.free 1).2) else (false, s)) = draw
      obtain ⟨full, s1⟩ := draw
      have hnot : full = false ∧ s1 = { s with fresh := s1.fresh } := by
        split at hdraw
        · cases hdraw
          exact ⟨by rw [State.free, Nat.pow_one, heven]; rfl, rfl⟩
        · cases hdraw
          exact ⟨rfl, rfl⟩
      clear hdraw
      obtain ⟨rfl, hs1⟩ := hnot
      dsimp only
      rw [if_neg Bool.false_ne_true, hs1]
      refine ⟨rfl, rfl, rfl, rfl, fun k => ?_⟩
      rw [State.cq?, State.modRdt_rdt]
      by_cases hk : k = c
      · subst hk
        rw [hq, Tbl.get?_put_same, Option.any_some, Option.any_some]
        exact hbad.symm
      · exact congrArg (Option.any _) (Tbl.get?_put_ne _ _ hk)

/-- A work request that fails takes its queue pair to error. -/
theorem State.wqeFails_spec {s : State} {n : Nat} {q : Qp} (hq : s.qp? n = some q) (h2 : q.state ≠ 2) (q0 : Qp) (k : Nat) (w : Wqe) (status : Nat) :
    ∃ q', (s.wqeFails n q0 k w status).qp? n = some q' ∧ q'.state = 2 ∧ q'.tally = none ∧ q'.out = [] ∧ q'.sqHead = q.sqHead := by
  obtain ⟨q1, hq1, h21, htally1, hout1, hhead1⟩ := State.failQp_spec hq h2 4 (some status)
  obtain ⟨q2, hq2, h22, htally2, hout2, hhead2⟩ := ((State.ErrorKept.of_qps (n := n) (State.sqDone_qps (s.failQp n 4 (some status)) n q0
    { w.out k [] with signaled := true } status)).trans (State.errorKept_settleQps n _)) q1 hq1 h21
  exact ⟨q2, hq2, h22, htally2.trans htally1, hout2.trans hout1, hhead2.trans hhead1⟩

section
variable {s : State} {n : Nat} {q : Qp}

/-- A tally wait at the head of a send queue passes, or is pending, or finds too many pending. -/
theorem exec_sendWqe_tally (h : s.SendsNext n q) {k : Nat} {w : Wqe} (hhead : s.headWqe q = (k, w)) (hres : w.reserved = false) (hop : w.op = 9) {c : Cq}
    (hc : s.tallyCq q w = some c) :
    exec (.sendWqe n) s = .next (s.live (
      if tallyMet c.count w.remote then ((s.setQp n { q with sqHead := q.sqHead + 1 }).sqDone n q (w.out k []) 0).settleQps
      else if 4096 ≤ s.fld F.RDT_TALLY_CFG_PENDING then s
      else (s.setQp n { q with tally := some s.turn }).countTally)) := by
  obtain ⟨hq, hsize, hstate, hen, htally, hrnr⟩ := h
  have hskip : ¬(q.sqSize = 0 ∨ q.state = 0 ∨ (!s.flag F.RDT_CTRL_ENABLE) = true ∨ q.tally.isSome = true ∨ q.rnrWait = true) := by
    simp [hsize, hstate, hen, htally, hrnr]
  have hexec : exec (.sendWqe n) s = execSendWqe n s := rfl
  rw [hexec]
  unfold execSendWqe
  rw [hq]
  dsimp only
  rw [if_neg hskip, hhead]
  dsimp only
  rw [if_neg (by omega), hres, if_neg (by decide), if_pos hop, hc]
  dsimp only
  rw [State.popWqe, State.modQp_of_some hq]

/-- A tally wait whose count is reached passes; its CQE, where it is signaled, goes out to no one. -/
theorem exec_sendWqe_tally_unheard (hon : s.pins.powered = true) (h : s.SendsNext n q) {w : Wqe} (hhead : s.headWqe q = (q.sqHead % q.sqSize, w)) (hres : w.reserved = false)
    (hop : w.op = 9) {c : Cq} (hc : s.tallyCq q w = some c) (hdrag : s.undragged = true) (heven : ∀ k, Config.freeValue k % 2 = 0) :
    ∃ t, exec (.sendWqe n) s = .next t ∧
      ((tallyMet c.count w.remote = true ∧ w.signaled = false) → t.qp? n = some { q with sqHead := q.sqHead + 1 } ∧ t.dram = s.dram) ∧
      ((tallyMet c.count w.remote = false ∧ s.fld F.RDT_TALLY_CFG_PENDING < 4096) → t.qp? n = some { q with tally := some s.turn } ∧ t.dram = s.dram) ∧
      t.sent = s.sent := by
  rw [exec_sendWqe_tally h hhead hres hop hc]
  have hq := h.found
  cases hmet : tallyMet c.count w.remote with
  | true =>
    rw [if_pos rfl]
    have hset := State.undragged_put (t := s.setQp n { q with sqHead := q.sqHead + 1 }) hdrag hq (fun _ => rfl) rfl rfl
    generalize hv : s.setQp n { q with sqHead := q.sqHead + 1 } = v at hset
    have hvq : v.qp? n = some { q with sqHead := q.sqHead + 1 } := by rw [← hv]; exact State.qp?_setQp _ _ _
    have hvs : v.sent = s.sent ∧ v.pins = s.pins ∧ v.dram = s.dram := by rw [← hv]; exact ⟨rfl, rfl, rfl⟩
    have hdone : let u := v.sqDone n q (w.out (q.sqHead % q.sqSize) []) 0
        u.sent = v.sent ∧ u.pins = v.pins ∧ u.rdt.qps = v.rdt.qps ∧ u.rdt.disabled = v.rdt.disabled ∧ (∀ k, (u.cq? k).any (·.bad) = (v.cq? k).any (·.bad)) ∧
          (w.signaled = false → u.dram = v.dram) := by
      intro u
      dsimp only [u]
      unfold State.sqDone
      by_cases hs : w.signaled = true
      · rw [if_pos (.inl hs)]
        obtain ⟨h1, h2, h3, h4, h5⟩ := v.writeCqe_good heven q.scq (w.out (q.sqHead % q.sqSize) []).wrId n (w.out (q.sqHead % q.sqSize) []).len 0
          (w.out (q.sqHead % q.sqSize) []).op 0 (w.out (q.sqHead % q.sqSize) []).index
        exact ⟨h1, h2, h3, h4, h5, fun e => absurd (e.symm.trans hs) (by decide)⟩
      · rw [if_neg (fun e => e.elim (fun e => hs e) (fun e => e rfl))]
        exact ⟨rfl, rfl, rfl, rfl, fun _ => rfl, fun _ => rfl⟩
    generalize v.sqDone n q (w.out (q.sqHead % q.sqSize) []) 0 = u at hdone ⊢
    obtain ⟨hsent, hpins, hqps, hdis, hbads, hdram⟩ := hdone
    have hund : u.undragged = true := by
      rw [State.undragged, hqps, show u.dragged = v.dragged from funext fun x => State.dragged_of_bad hbads hdis x]
      exact hset
    rw [State.settleQps_undragged hund, State.next_live_eq hon (u.countPins_spec.1 ▸ hpins.trans hvs.2.1)]
    refine ⟨_, rfl, fun e => ⟨?_, (hdram e.2).trans hvs.2.2⟩, fun e => absurd e.1 (by decide), hsent.trans hvs.1⟩
    exact (congrArg (fun r : Tbl Qp => r.get? n) hqps).trans hvq
  | false =>
    rw [if_neg (by decide)]
    by_cases hp : 4096 ≤ s.fld F.RDT_TALLY_CFG_PENDING
    · rw [if_pos hp, State.next_live_eq hon rfl]
      exact ⟨s, rfl, fun e => absurd e.1 (by decide), fun e => absurd hp (Nat.not_le.mpr e.2), rfl⟩
    · rw [if_neg hp, State.next_live_eq (u := (s.setQp n { q with tally := some s.turn }).countTally) hon rfl]
      exact ⟨_, rfl, fun e => absurd e.1 (by decide), fun _ => ⟨State.qp?_setQp _ _ _, rfl⟩, rfl⟩

/-- A pending wait whose count is reached passes. -/
theorem exec_tallyWaitRelease_met (hon : s.pins.powered = true) (hq : s.qp? n = some q) {since : Nat} (htally : q.tally = some since) {c : Cq}
    (hc : s.tallyCq q (s.headWqe q).2 = some c) (hmet : tallyMet c.count (s.headWqe q).2.remote = true) (hsig : (s.headWqe q).2.signaled = false)
    (hdrag : s.undragged = true) :
    ∃ t, exec (.tallyWaitRelease n) s = .next t ∧
      t.qp? n = some { q with tally := none, sqHead := q.sqHead + 1 } ∧ t = { s with cells := t.cells, rdt := t.rdt } := by
  have hexec : exec (.tallyWaitRelease n) s = execTallyWaitRelease n s := rfl
  rw [hexec]
  unfold execTallyWaitRelease
  rw [hq]
  dsimp only
  rw [htally, Option.isNone_some, if_neg Bool.false_ne_true, hc]
  dsimp only
  rw [if_pos hmet, State.sqDone, if_neg (fun e => e.elim (fun e => absurd (hsig.symm.trans e) (by decide)) (fun e => e rfl))]
  have hund : (s.setQp n { q with tally := none, sqHead := q.sqHead + 1 }).countTally.undragged = true :=
    State.undragged_put (s := s) hdrag hq (fun _ => rfl) rfl rfl
  rw [State.settleQps_undragged hund,
    State.next_live_eq (u := (s.setQp n { q with tally := none, sqHead := q.sqHead + 1 }).countTally.countPins) hon rfl]
  exact ⟨_, rfl, State.qp?_setQp _ _ _, rfl⟩

/-- A pending wait that times out takes its queue pair to error. -/
theorem exec_tallyWaitTimeout_due (hon : s.pins.powered = true) (hq : s.qp? n = some q) {since : Nat} (htally : q.tally = some since) (hstate : q.state = 1)
    (hdue : since + max 1 (s.fld F.RDT_TALLY_TIMEOUT_TIMEOUT) ≤ s.turn) :
    ∃ t, exec (.tallyWaitTimeout n) s = .next t ∧
      (t.qp? n).any (fun r => r.state == 2 && r.tally.isNone && r.out.isEmpty && r.sqHead == q.sqHead + 1) = true := by
  have hexec : exec (.tallyWaitTimeout n) s = execTallyWaitTimeout n s := rfl
  rw [hexec]
  unfold execTallyWaitTimeout
  rw [hq]
  dsimp only
  generalize (s.headWqe q).1 = k
  generalize (s.headWqe q).2 = w
  rw [htally]
  dsimp only
  rw [if_pos hdue, State.live_on hon]
  have hset : (s.setQp n { q with tally := none, sqHead := q.sqHead + 1 }).countTally.qp? n = some { q with tally := none, sqHead := q.sqHead + 1 } :=
    State.qp?_setQp _ _ _
  have hfail : ∃ q', ((s.setQp n { q with tally := none, sqHead := q.sqHead + 1 }).countTally.wqeFails n q k w 0xA).qp? n = some q' ∧ q'.state = 2 ∧
      q'.tally = none ∧ q'.out = [] ∧ q'.sqHead = q.sqHead + 1 := State.wqeFails_spec hset (by rw [hstate]; decide) q k w 0xA
  generalize (s.setQp n { q with tally := none, sqHead := q.sqHead + 1 }).countTally.wqeFails n q k w 0xA = u at hfail
  obtain ⟨q1, hq1, h2, htally1, hout, hhead⟩ := hfail
  have hlive : State.qp? { u with pins := { u.pins with powered := true } } n = some q1 := hq1
  refine ⟨_, rfl, ?_⟩
  rw [hlive, Option.any_some, h2, htally1, hout, hhead]
  simp

end

end Sys2Proof.Machine
end

section
/-! SUPPORT. The commands of RDT_CMD (R301, R306). -/
namespace Sys2Proof.Machine

def rdtArgs (op arg addr : Nat) : List (Fld × Nat) :=
  [(F.RDT_CMD_OP, op), (F.RDT_CMD_ARG, arg), (F.RDT_CMD_ADDR_LO_ADDR, addr), (F.RDT_CMD_ADDR_HI_ADDR, addr / 2 ^ 32)]

def rdtArgFlds : List Fld := [F.RDT_CMD_OP, F.RDT_CMD_ARG, F.RDT_CMD_ADDR_LO_ADDR, F.RDT_CMD_ADDR_HI_ADDR]

/-- The state in which a command of RDT_CMD runs. -/
def State.rdtBegun (s : State) (op arg addr : Nat) : State := ((rdtArgs op arg addr).foldl (fun t p => t.setFld p.1 p.2) s).resStart rdtRes

theorem State.rdtStart_of_idle {s : State} (h : s.flag F.RDT_CMD_BUSY = false) (op arg addr : Nat) (run : State → State) :
    s.rdtStart op arg addr run = run (s.rdtBegun op arg addr) := by
  rw [State.rdtStart, State.startWith, h, if_neg (by decide)]
  rfl

/-- What a command that has begun has left alone. -/
structure State.RdtBegan (s u : State) : Prop where
  regs : s.RegsOnly u
  kept : s.Keeps [resSeq rdtRes, F.RDT_DROPS_NO_QP] u
  ring : ∀ b, u.inRing b ↔ s.inRing b

theorem State.rdtBegan (s : State) (op arg addr : Nat) : s.RdtBegan (s.rdtBegun op arg addr) where
  regs := (s.regsOnly_setAll _).trans (State.regsOnly_resStart _ _)
  kept := (s.keeps_setAll rdtArgFlds rfl (by decide)).trans (State.keeps_resStart _ (by decide))
  ring b :=
    have hset (t : State) (f : Fld) (v : Nat) (hf : f.blk ≠ 0x18) : (t.setFld f v).inRing b ↔ t.inRing b := t.inRing_setFld v hf b
    ((hset _ (resSeen rdtRes) _ (by decide)).trans (hset _ (resValid rdtRes) _ (by decide))).trans
      (((hset _ F.RDT_CMD_ADDR_HI_ADDR _ (by decide)).trans (hset _ F.RDT_CMD_ADDR_LO_ADDR _ (by decide))).trans
        ((hset _ F.RDT_CMD_ARG _ (by decide)).trans (hset _ F.RDT_CMD_OP _ (by decide))))

/-- What the end of a command that its effect v comes to answers. -/
theorem State.rdtDone_after {s v : State} (hon : s.pins.powered = true) (hpins : v.pins = s.pins) (hseq : v.fld (resSeq rdtRes) = s.fld (resSeq rdtRes))
    {code : Nat} (hc : code < 16) :
    ∃ t, (Host.Outcome.next (s.live (v.rdtDone code)) : Result) = .next t ∧ s.Answered t 0x130002C [(F.RDT_CMD_RESULT_CODE, code)] ∧
      t.fld F.RDT_ISR_CMD_DONE = 1 ∧ v.SameUnits t ∧ v.Keeps [F.RDT_DROPS_NO_QP] t ∧ (∀ b, ¬ v.inRing b → memGet t.dram b = memGet v.dram b) := by
  have hunits : v.SameUnits (v.rdtDone code) := (State.regsOnly_resDone v rdtRes _).sameUnits.trans (State.sameUnits_raise _ _)
  rw [State.next_live_eq hon (hunits.pins.trans hpins)]
  refine ⟨_, rfl, (v.answered_done [F.RDT_CMD_RESULT_CODE] rfl (by decide) (forall_outcome_one hc)).of_seq hseq,
    State.fld_raise_same _ _ rfl (by decide), hunits, (v.keeps_resDone [F.RDT_CMD_RESULT_CODE] rfl (by decide)).trans (State.keeps_raise _ (by decide)), fun b hb => ?_⟩
  have hring : (v.resDone rdtRes [(F.RDT_CMD_RESULT_CODE, code)]).inRing b ↔ v.inRing b :=
    ((State.inRing_setFld _ _ (by decide) b).trans (State.inRing_setFld _ _ (by decide) b)).trans
      ((State.inRing_setFld _ _ (by decide) b).trans (State.inRing_setFld _ (f := F.RDT_CMD_RESULT_CODE) _ (by decide) b))
  exact (State.memGet_raise _ (by decide) fun hr => hb (hring.mp hr)).trans (congrArg (fun m => memGet m b) (State.regsOnly_resDone v rdtRes _).dram)

/-- A command that changes RDT's own state alone. -/
theorem State.RdtBegan.answer {s u v : State} (h : s.RdtBegan u) (hon : s.pins.powered = true) (hv : v = { u with rdt := v.rdt }) {code : Nat} (hc : code < 16) :
    ∃ t, (Host.Outcome.next (s.live (v.rdtDone code)) : Result) = .next t ∧ s.Answered t 0x130002C [(F.RDT_CMD_RESULT_CODE, code)] ∧
      t.fld F.RDT_ISR_CMD_DONE = 1 ∧ t.rdt = v.rdt ∧ t.sent = s.sent ∧ (∀ b, ¬ s.inRing b → memGet t.dram b = memGet s.dram b) := by
  have hcells : v.cells = u.cells := by rw [hv]
  have hpins : v.pins = s.pins := by rw [hv]; exact h.regs.pins
  have hsent : v.sent = s.sent := by rw [hv]; exact h.regs.sent
  have hdram : v.dram = s.dram := by rw [hv]; exact h.regs.dram
  obtain ⟨t, he, hans, hdone, hunits, -, hmem⟩ := State.rdtDone_after hon hpins ((State.fld_of_cells hcells _).trans (h.kept _ (by decide))) hc
  refine ⟨t, he, hans, hdone, hunits.rdt, hunits.sent.trans hsent, fun b hb => (hmem b fun hr => hb ?_).trans (by rw [hdram])⟩
  exact (h.ring b).mp ((State.inRing_congr (fun g _ => State.fld_of_cells hcells g) b).mp hr)

section
variable {s : State} (hon : s.pins.powered = true) (hbusy : s.flag F.RDT_CMD_BUSY = false)
include hon hbusy

theorem exec_createQp_good {arg addr n : Nat} {q : Qp}
    (hblock : (s.rdtStart 0 arg addr id).qpBlock ((s.rdtStart 0 arg addr id).base F.RDT_CMD_ADDR_LO_ADDR F.RDT_CMD_ADDR_HI_ADDR 6) = some (n, q))
    (hnew : s.qp? n = none) (hcls : q.cls = 0 ∨ s.rdt.disabled.contains q.tenant = false) (hmatch : s.queuesMatch q = true)
    (hcount : (s.rdt.qps.filter fun p => p.2.cls == 1).length < 65536) :
    ∃ t, exec (.createQp arg addr) s = .next t ∧
      s.Answered t 0x130002C [(F.RDT_CMD_RESULT_CODE, 0)] ∧ t.fld F.RDT_ISR_CMD_DONE = 1 ∧
      t.rdt = { s.rdt with qps := s.rdt.qps.put n q } ∧ t.sent = s.sent ∧ (∀ b, ¬ s.inRing b → memGet t.dram b = memGet s.dram b) := by
  rw [State.rdtStart_of_idle hbusy, id] at hblock
  have h := s.rdtBegan 0 arg addr
  have hexec : exec (.createQp arg addr) s = execCreateQp arg addr s := rfl
  rw [hexec, execCreateQp, State.rdtStart_of_idle hbusy]
  generalize s.rdtBegun 0 arg addr = u at h hblock
  rw [hblock]
  dsimp only
  have hq : u.qp? n = none := (congrArg (fun r : RdtSt => r.qps.get? n) h.regs.rdt).trans hnew
  have hmatch' : u.queuesMatch q = true := by
    rw [← hmatch]
    unfold State.queuesMatch State.cq?
    rw [h.regs.rdt]
  rw [hq, if_neg (by decide), h.regs.rdt, if_neg (fun e => hcls.elim (fun e0 => by omega) fun e0 => absurd (e0.symm.trans e.2) (by decide)), hmatch',
    if_neg (by decide), if_neg (fun e => absurd hcount (Nat.not_lt.mpr e.2))]
  obtain ⟨t, he, hans, hdone, hrdt, hrest⟩ := h.answer (v := u.setQp n q) hon rfl (code := 0) (by decide)
  exact ⟨t, he, hans, hdone, hrdt.trans (congrArg (fun r : RdtSt => { r with qps := r.qps.put n q }) h.regs.rdt), hrest⟩

theorem exec_modifyQpConnected_good {qpn : Nat} {q : Qp} (hq : s.qp? (qpn % 2 ^ 24) = some q) (hcls : q.cls = 0 ∨ s.rdt.disabled.contains q.tenant = false)
    (hstate : q.state = 0) :
    ∃ t, exec (.modifyQpConnected qpn) s = .next t ∧
      s.Answered t 0x130002C [(F.RDT_CMD_RESULT_CODE, 0)] ∧ t.fld F.RDT_ISR_CMD_DONE = 1 ∧
      t.rdt = { s.rdt with qps := s.rdt.qps.put (qpn % 2 ^ 24) { q with state := 1, rc := s.portRate q.port, rt := s.portRate q.port, alpha := 65536 } } := by
  have h := s.rdtBegan 1 qpn 0
  have hexec : exec (.modifyQpConnected qpn) s = execModifyQpConnected qpn s := rfl
  rw [hexec, execModifyQpConnected, State.rdtStart_of_idle hbusy]
  generalize s.rdtBegun 1 qpn 0 = u at h
  have hqu : u.qp? (qpn % 2 ^ 24) = some q := (congrArg (fun r : RdtSt => r.qps.get? (qpn % 2 ^ 24)) h.regs.rdt).trans hq
  have hrate : u.portRate q.port = s.portRate q.port := by
    rw [State.portRate, h.regs.pattern]
    rfl
  rw [hqu]
  dsimp only
  rw [h.regs.rdt, if_neg (fun e => hcls.elim (fun e0 => by omega) fun e0 => absurd (e0.symm.trans e.2) (by decide)), if_neg (not_not_intro hstate), hrate]
  obtain ⟨t, he, hans, hdone, hunits, -, -⟩ := State.rdtDone_after
    (v := (u.setQp (qpn % 2 ^ 24) { q with state := 1, rc := s.portRate q.port, rt := s.portRate q.port, alpha := 65536 }).countPins)
    hon h.regs.pins ((State.fld_setFld_ne _ _ (by decide)).trans (h.kept _ (by decide))) (code := 0) (by decide)
  exact ⟨t, he, hans, hdone, hunits.rdt.trans (by rw [← h.regs.rdt]; rfl)⟩

theorem exec_destroyQp_good {qpn : Nat} (hq : (s.qp? (qpn % 2 ^ 24)).isSome = true) :
    let n : Nat := qpn % 2 ^ 24
    let k : Nat := (s.rdt.parked.filter fun p => pktQpn p == n).length
    ∃ t, exec (.destroyQp qpn) s = .next t ∧
      s.Answered t 0x130002C [(F.RDT_CMD_RESULT_CODE, 0)] ∧ t.fld F.RDT_ISR_CMD_DONE = 1 ∧ t.qp? n = none ∧
      t.rdt = { s.rdt with qps := s.rdt.qps.del n, parked := s.rdt.parked.filter (fun p => pktQpn p != n), cache := s.rdt.cache.filter (fun m => m != n), fetching := s.rdt.fetching.filter (fun f => f.1 != n), writing := s.rdt.writing.filter (fun m => m != n) } ∧
      t.fld F.RDT_DROPS_NO_QP = min (s.fld F.RDT_DROPS_NO_QP + k) (2 ^ F.RDT_DROPS_NO_QP.width - 1) := by
  intro n k
  have h := s.rdtBegan 3 qpn 0
  have hexec : exec (.destroyQp qpn) s = execDestroyQp qpn s := rfl
  rw [hexec, execDestroyQp, State.rdtStart_of_idle hbusy]
  generalize s.rdtBegun 3 qpn 0 = u at h
  have hqu : (u.qp? n).isNone = false := by
    rw [State.qp?, h.regs.rdt]
    exact (Option.not_isSome ..).symm.trans (by rw [show (s.rdt.qps.get? n).isSome = true from hq]; rfl)
  dsimp only
  rw [hqu, if_neg (by decide)]
  generalize hw : (u.inc F.RDT_DROPS_NO_QP (u.rdt.parked.filter fun p => pktQpn p == n).length).modRdt (fun r => { r with
        qps := r.qps.del n, parked := r.parked.filter (fun p => pktQpn p != n), cache := r.cache.filter (fun m => m != n),
        fetching := r.fetching.filter (fun f => f.1 != n), writing := r.writing.filter (fun m => m != n) }) = w
  have hwregs : w.pins = s.pins ∧ w.fld (resSeq rdtRes) = s.fld (resSeq rdtRes) ∧
      w.rdt = { s.rdt with qps := s.rdt.qps.del n, parked := s.rdt.parked.filter (fun p => pktQpn p != n), cache := s.rdt.cache.filter (fun m => m != n), fetching := s.rdt.fetching.filter (fun f => f.1 != n), writing := s.rdt.writing.filter (fun m => m != n) } ∧
      w.fld F.RDT_DROPS_NO_QP = min (s.fld F.RDT_DROPS_NO_QP + k) (2 ^ F.RDT_DROPS_NO_QP.width - 1) := by
    subst hw
    refine ⟨h.regs.pins, (State.fld_setFld_ne _ _ (by decide)).trans (h.kept _ (by decide)), ?_, ?_⟩
    · rw [State.modRdt_rdt, show (u.inc F.RDT_DROPS_NO_QP _).rdt = u.rdt from rfl, h.regs.rdt]
    · have hk : (u.rdt.parked.filter fun p => pktQpn p == n).length = k := by rw [h.regs.rdt]
      rw [hk]
      refine (State.fld_setFld_same u F.RDT_DROPS_NO_QP _).trans ?_
      rw [h.kept F.RDT_DROPS_NO_QP (by decide)]
      exact Nat.mod_eq_of_lt (by have : 0 < 2 ^ F.RDT_DROPS_NO_QP.width := by decide
                                 omega)
  obtain ⟨hpins, hseq, hrdt, hdrops⟩ := hwregs
  have hcount : w.Keeps [resSeq rdtRes, F.RDT_DROPS_NO_QP] w.countTally.countCache :=
    (((w.keeps_setFld _ (by decide)).trans (State.keeps_setFld _ _ (by decide))).trans (State.keeps_setFld _ _ (by decide))).trans
      ((State.keeps_setFld _ _ (by decide)).trans (State.keeps_setFld _ _ (by decide)))
  obtain ⟨t, he, hans, hdone, hunits, hkeep, -⟩ := State.rdtDone_after (v := w.countTally.countCache) hon hpins ((hcount _ (by decide)).trans hseq) (code := 0) (by decide)
  have hrt := hunits.rdt.trans hrdt
  refine ⟨t, he, hans, hdone, ?_, hrt, (hkeep _ (by decide)).trans ((hcount _ (by decide)).trans hdrops)⟩
  rw [State.qp?, hrt]
  exact Tbl.get?_del_same _ _

theorem exec_createCq_good {cq cls tenant addr size : Nat} (hcq : cq < 16384) (hcls : cls < 2) (hten : tenant < 4096) (hsys : cls = 1 ∨ tenant = 0) (hsize : 0 < size)
    (hnew : s.cq? cq = none) :
    ∃ t, exec (.createCq cq cls tenant addr size) s = .next t ∧
      s.Answered t 0x130002C [(F.RDT_CMD_RESULT_CODE, 0)] ∧ t.fld F.RDT_ISR_CMD_DONE = 1 ∧
      t.rdt = { s.rdt with cqs := s.rdt.cqs.put cq ⟨cls, tenant, addr, size, 0, 1, 0, 0, false⟩ } := by
  have h := s.rdtBegan 4 cq 0
  have hexec : exec (.createCq cq cls tenant addr size) s = execCreateCq cq cls tenant addr size s := rfl
  rw [hexec, execCreateCq, State.rdtStart_of_idle hbusy]
  generalize s.rdtBegun 4 cq 0 = u at h
  have hc : u.cq? cq = none := (congrArg (fun r : RdtSt => r.cqs.get? cq) h.regs.rdt).trans hnew
  dsimp only
  rw [if_neg (by omega), hc, if_neg (by decide)]
  obtain ⟨t, he, hans, hdone, hrdt, -⟩ := h.answer (v := u.modRdt fun r => { r with cqs := r.cqs.put cq ⟨cls, tenant, addr, size, 0, 1, 0, 0, false⟩ }) hon rfl
    (code := 0) (by decide)
  exact ⟨t, he, hans, hdone, hrdt.trans (congrArg (fun r : RdtSt => { r with cqs := r.cqs.put cq ⟨cls, tenant, addr, size, 0, 1, 0, 0, false⟩ }) h.regs.rdt)⟩

theorem exec_destroyCq_good {cq : Nat} (hc : (s.cq? (cq % 2 ^ 24)).isSome = true)
    (hfree : (s.rdt.qps.any fun p => p.2.scq == cq % 2 ^ 24 || p.2.rcq == cq % 2 ^ 24) = false) :
    ∃ t, exec (.destroyCq cq) s = .next t ∧
      s.Answered t 0x130002C [(F.RDT_CMD_RESULT_CODE, 0)] ∧ t.fld F.RDT_ISR_CMD_DONE = 1 ∧ t.rdt = { s.rdt with cqs := s.rdt.cqs.del (cq % 2 ^ 24) } := by
  have h := s.rdtBegan 5 cq 0
  have hexec : exec (.destroyCq cq) s = execDestroyCq cq s := rfl
  rw [hexec, execDestroyCq, State.rdtStart_of_idle hbusy]
  generalize s.rdtBegun 5 cq 0 = u at h
  have hcu : (u.cq? (cq % 2 ^ 24)).isNone = false := by
    rw [State.cq?, h.regs.rdt]
    exact (Option.not_isSome ..).symm.trans (by rw [show (s.rdt.cqs.get? (cq % 2 ^ 24)).isSome = true from hc]; rfl)
  dsimp only
  rw [hcu, if_neg (by decide), h.regs.rdt, hfree, if_neg (by decide)]
  obtain ⟨t, he, hans, hdone, hrdt, -⟩ := h.answer (v := u.modRdt fun r => { r with cqs := r.cqs.del (cq % 2 ^ 24) }) hon rfl (code := 0) (by decide)
  exact ⟨t, he, hans, hdone, hrdt.trans (congrArg (fun r : RdtSt => { r with cqs := r.cqs.del (cq % 2 ^ 24) }) h.regs.rdt)⟩

theorem exec_createSrq_good {srq cls tenant addr size : Nat} (hsrq : srq < 1024) (hcls : cls < 2) (hten : tenant < 4096) (hsys : cls = 1 ∨ tenant = 0) (hsize : 0 < size)
    (hnew : s.rdt.srqs.get? srq = none) :
    ∃ t, exec (.createSrq srq cls tenant addr size) s = .next t ∧
      s.Answered t 0x130002C [(F.RDT_CMD_RESULT_CODE, 0)] ∧ t.fld F.RDT_ISR_CMD_DONE = 1 ∧
      t.rdt = { s.rdt with srqs := s.rdt.srqs.put srq { cls := cls, tenant := tenant, addr := addr, size := size } } := by
  have h := s.rdtBegan 6 srq 0
  have hexec : exec (.createSrq srq cls tenant addr size) s = execCreateSrq srq cls tenant addr size s := rfl
  rw [hexec, execCreateSrq, State.rdtStart_of_idle hbusy]
  generalize s.rdtBegun 6 srq 0 = u at h
  dsimp only
  rw [if_neg (by omega), h.regs.rdt, hnew, if_neg (by decide)]
  obtain ⟨t, he, hans, hdone, hrdt, -⟩ := h.answer (v := u.modRdt fun r => { r with srqs := r.srqs.put srq { cls := cls, tenant := tenant, addr := addr, size := size } }) hon rfl
    (code := 0) (by decide)
  exact ⟨t, he, hans, hdone, hrdt.trans (by rw [← h.regs.rdt]; rfl)⟩

theorem exec_destroySrq_good {srq : Nat} (hc : (s.rdt.srqs.get? (srq % 2 ^ 24)).isSome = true)
    (hfree : (s.rdt.qps.any fun p => p.2.srq == srq % 2 ^ 24 + 1) = false) :
    ∃ t, exec (.destroySrq srq) s = .next t ∧
      s.Answered t 0x130002C [(F.RDT_CMD_RESULT_CODE, 0)] ∧ t.fld F.RDT_ISR_CMD_DONE = 1 ∧ t.rdt = { s.rdt with srqs := s.rdt.srqs.del (srq % 2 ^ 24) } := by
  have h := s.rdtBegan 7 srq 0
  have hexec : exec (.destroySrq srq) s = execDestroySrq srq s := rfl
  rw [hexec, execDestroySrq, State.rdtStart_of_idle hbusy]
  generalize s.rdtBegun 7 srq 0 = u at h
  have hcu : (u.rdt.srqs.get? (srq % 2 ^ 24)).isNone = false := by
    rw [h.regs.rdt]
    exact (Option.not_isSome ..).symm.trans (by rw [hc]; rfl)
  dsimp only
  rw [hcu, if_neg (by decide), h.regs.rdt, hfree, if_neg (by decide)]
  obtain ⟨t, he, hans, hdone, hrdt, -⟩ := h.answer (v := u.modRdt fun r => { r with srqs := r.srqs.del (srq % 2 ^ 24) }) hon rfl (code := 0) (by decide)
  exact ⟨t, he, hans, hdone, hrdt.trans (congrArg (fun r : RdtSt => { r with srqs := r.srqs.del (srq % 2 ^ 24) }) h.regs.rdt)⟩

theorem exec_tenantReenable_idle (tenant : Nat) :
    let n : Nat := tenant % 2 ^ 24
    ∃ t, exec (.tenantReenable tenant) s = .next t ∧
      (n < 4096 → s.Answered t 0x130002C [(F.RDT_CMD_RESULT_CODE, 0)] ∧ t.rdt = { s.rdt with disabled := s.rdt.disabled.filter (fun m => m != n), errTurns := s.rdt.errTurns.del n }) ∧
      (4096 ≤ n → s.Answered t 0x130002C [(F.RDT_CMD_RESULT_CODE, 2)] ∧ t.rdt = s.rdt) ∧ t.fld F.RDT_ISR_CMD_DONE = 1 := by
  intro n
  have h := s.rdtBegan 8 tenant 0
  have hexec : exec (.tenantReenable tenant) s = execTenantReenable tenant s := rfl
  rw [hexec, execTenantReenable, State.rdtStart_of_idle hbusy]
  generalize s.rdtBegun 8 tenant 0 = u at h
  change ∃ t, Host.Outcome.next (s.live (if 4096 ≤ n then u.rdtDone 2 else _)) = _ ∧ _
  by_cases hn : 4096 ≤ n
  · rw [if_pos hn]
    obtain ⟨t, he, hans, hdone, hrdt, -⟩ := h.answer (v := u) hon rfl (code := 2) (by decide)
    exact ⟨t, he, fun e => absurd hn (Nat.not_le.mpr e), fun _ => ⟨hans, hrdt.trans h.regs.rdt⟩, hdone⟩
  · rw [if_neg hn]
    obtain ⟨t, he, hans, hdone, hrdt, -⟩ := h.answer (v := u.modRdt fun r => { r with disabled := r.disabled.filter (fun m => m != n), errTurns := r.errTurns.del n }) hon rfl
      (code := 0) (by decide)
    exact ⟨t, he, fun _ => ⟨hans, hrdt.trans (congrArg (fun r : RdtSt => { r with disabled := r.disabled.filter (fun m => m != n), errTurns := r.errTurns.del n }) h.regs.rdt)⟩,
      fun e => absurd e hn, hdone⟩

theorem exec_rdtReservedOp_idle (op : Nat) :
    ∃ t, exec (.rdtReservedOp op) s = .next t ∧
      s.Answered t 0x130002C [(F.RDT_CMD_RESULT_CODE, 7)] ∧ t.fld F.RDT_ISR_CMD_DONE = 1 ∧ t.rdt = s.rdt ∧ t.sent = s.sent ∧
      (∀ b, ¬ s.inRing b → memGet t.dram b = memGet s.dram b) := by
  have h := s.rdtBegan (max 9 (op % 16)) 0 0
  have hexec : exec (.rdtReservedOp op) s = execRdtReservedOp op s := rfl
  rw [hexec, execRdtReservedOp, State.rdtStart_of_idle hbusy]
  obtain ⟨t, he, hans, hdone, hrdt, hrest⟩ := h.answer (v := s.rdtBegun (max 9 (op % 16)) 0 0) hon rfl (code := 7) (by decide)
  exact ⟨t, he, hans, hdone, hrdt.trans h.regs.rdt, hrest⟩

end

end Sys2Proof.Machine
end

section
/-! SUPPORT. MODIFY_QP to error (R301, R305). -/
namespace Sys2Proof.Machine

/-- t has the own ring, the pins and the number of RDT_CMD's last answer as s has them. -/
structure State.AnswerKept (s t : State) : Prop where
  commit : t.commit = s.commit
  pins   : t.pins = s.pins
  seq    : s.Keeps [resSeq rdtRes] t

section
variable {s t u : State}

theorem State.AnswerKept.refl (s : State) : s.AnswerKept s := ⟨rfl, rfl, .refl _ s⟩

theorem State.AnswerKept.trans (h : s.AnswerKept t) (k : t.AnswerKept u) : s.AnswerKept u :=
  ⟨k.commit.trans h.commit, k.pins.trans h.pins, h.seq.trans k.seq⟩

theorem State.AnswerKept.ite {c : Prop} [Decidable c] (ht : s.AnswerKept t) (hu : s.AnswerKept u) : s.AnswerKept (if c then t else u) := by
  split
  · exact ht
  · exact hu

theorem State.AnswerKept.foldl {α : Type} {f : State → α → State} (h : ∀ (t : State) (a : α), t.AnswerKept (f t a)) (l : List α) (s : State) :
    s.AnswerKept (l.foldl f s) := by
  induction l generalizing s with
  | nil => exact .refl s
  | cons a l ih => exact (h s a).trans (ih _)

end

theorem State.answerKept_setFld (s : State) {f : Fld} (v : Nat) (hf : apartFrom f [resSeq rdtRes] = true) : s.AnswerKept (s.setFld f v) :=
  ⟨rfl, rfl, s.keeps_setFld v hf⟩
theorem State.answerKept_raise (s : State) {f : Fld} (hf : apartFrom f [resSeq rdtRes] = true) : s.AnswerKept (s.raise f) :=
  ⟨(s.sameUnits_raise f).commit, (s.sameUnits_raise f).pins, s.keeps_raise hf⟩
theorem State.answerKept_modRdt (s : State) (f : RdtSt → RdtSt) : s.AnswerKept (s.modRdt f) := ⟨rfl, rfl, .of_cells rfl⟩
theorem State.answerKept_wr (s : State) (a : Nat) (b : Bytes) : s.AnswerKept (s.wr a b) := ⟨rfl, rfl, .of_cells rfl⟩
theorem State.answerKept_errFatal (s : State) (b : Nat) : s.AnswerKept (s.errFatal b) :=
  ⟨(s.sameUnits_errFatal b).commit, (s.sameUnits_errFatal b).pins, s.keeps_errFatal b (by decide)⟩
theorem State.answerKept_send (s : State) (m : Sent) : s.AnswerKept (s.send m) := by
  rcases s.send_eq m with e | e <;> rw [e]
  · exact .refl s
  · exact ⟨rfl, rfl, .of_cells rfl⟩

theorem State.answerKept_writeCqe (s : State) (c wrId qpn bytes imm op status index : Nat) :
    s.AnswerKept (s.writeCqe c wrId qpn bytes imm op status index) := by
  unfold State.writeCqe
  split
  · exact .refl s
  · next q hq =>
    clear hq
    split
    · exact .refl s
    · split
      next full s1 hdraw =>
      have hs1 : s.AnswerKept s1 := by
        split at hdraw <;> cases hdraw
        · exact ⟨rfl, rfl, .of_cells rfl⟩
        · exact .refl s
      clear hdraw
      refine .ite ?_ (hs1.trans ((s1.answerKept_wr _ _).trans (State.answerKept_modRdt _ _)))
      have hbad := hs1.trans (s1.answerKept_modRdt fun r => { r with cqs := r.cqs.put c { q with bad := true } })
      exact .ite (hbad.trans (State.answerKept_errFatal _ _)) hbad

theorem State.answerKept_systemEvent (s : State) (m code : Nat) : s.AnswerKept (s.systemEvent m code) :=
  .ite ((s.answerKept_setFld _ (by decide)).trans (State.answerKept_raise _ (by decide)))
    (((s.answerKept_wr _ _).trans (State.answerKept_setFld _ _ (by decide))).trans (State.answerKept_raise _ (by decide)))

theorem State.answerKept_tenantError (s : State) (tenant : Nat) : s.AnswerKept (s.tenantError tenant) := by
  unfold State.tenantError
  extract_lets l s1
  have hs1 : s.AnswerKept s1 := (s.answerKept_modRdt _).trans ((State.answerKept_setFld _ _ (by decide)).trans (State.answerKept_raise _ (by decide)))
  exact .ite (hs1.trans ((s1.answerKept_modRdt _).trans (State.answerKept_setFld _ _ (by decide)))) hs1

theorem State.abortWrites_none {s : State} (h : s.commit.own = []) (n : Nat) : s.abortWrites n = s := by
  rw [State.abortWrites, h]
  rfl

theorem State.answerKept_failRest {s : State} (hown : s.commit.own = []) (n : Nat) (q : Qp) (status : Nat) (event : Option Nat) :
    s.AnswerKept (s.failRest n q status event) := by
  unfold State.failRest
  extract_lets s2 s3 s4 s5
  have hs2 : s.AnswerKept s2 := .ite (s.answerKept_setFld _ (by decide)) (.refl s)
  have hs3 : s2.AnswerKept s3 := .foldl (fun t p => .ite (.refl t) (.ite (t.answerKept_writeCqe _ _ _ _ _ _ _ _) (.refl t))) _ s2
  have hs4 : s3.AnswerKept s4 := by
    cases event with
    | some c => exact State.answerKept_systemEvent _ _ _
    | none => exact .refl s3
  have hs5 : s3.AnswerKept s5 := by
    cases event with
    | some c => exact State.answerKept_send _ _
    | none => exact .refl s3
  clear_value s2 s3 s4 s5
  have hcount := ((hs2.trans hs3).trans hs4).trans (s4.answerKept_setFld (f := F.RDT_DROPS_CPL_LOST)
    (min (s4.fld F.RDT_DROPS_CPL_LOST + (q.sendQ.filter fun m => m.2.op == 1 && m.2.host.isSome).length) (2 ^ F.RDT_DROPS_CPL_LOST.width - 1)) (by decide))
  refine .ite ?_ (((hs2.trans hs3).trans hs5).trans (State.answerKept_tenantError _ _))
  rw [State.abortWrites_none (by rw [show (s4.inc F.RDT_DROPS_CPL_LOST _).commit = s.commit from hcount.commit]; exact hown)]
  exact hcount

theorem State.answerKept_failOne {s : State} (hown : s.commit.own = []) (n status : Nat) (event : Option Nat) : s.AnswerKept (s.failOne n status event) := by
  cases hq : s.qp? n with
  | none =>
    rw [State.failOne, hq]
    exact .refl s
  | some q =>
    by_cases h2 : q.state = 2
    · rw [State.failOne, hq]
      dsimp only
      rw [if_pos h2]
      exact .refl s
    · rw [State.failOne_eq hq h2]
      have hset : s.AnswerKept (s.setQp n q.failed) := s.answerKept_modRdt _
      exact hset.trans (State.answerKept_failRest (hset.commit ▸ hown) _ _ _ _)

theorem State.answerKept_spread (k : Nat) {s : State} (hown : s.commit.own = []) : s.AnswerKept (State.spread k s) := by
  induction k generalizing s with
  | zero => exact .refl s
  | succ k ih =>
    unfold State.spread
    split
    · exact .refl s
    · next p _ =>
      have hfree : s.AnswerKept (s.free 8).2 := ⟨rfl, rfl, .of_cells rfl⟩
      have hone := hfree.trans (State.answerKept_failOne (s := (s.free 8).2) hown p.1 4 (some (s.free 8).1))
      exact hone.trans (ih (hone.commit ▸ hown))

theorem State.answerKept_failQp {s : State} (hown : s.commit.own = []) (n status : Nat) (event : Option Nat) : s.AnswerKept (s.failQp n status event) := by
  have hone := State.answerKept_failOne hown n status event
  exact hone.trans ((State.answerKept_spread _ (hone.commit ▸ hown)).trans (State.answerKept_setFld _ _ (by decide)))

theorem State.state_failQp {n : Nat} {s : State} {q : Qp} (hq : s.qp? n = some q) (status : Nat) (event : Option Nat) :
    ∃ q', (s.failQp n status event).qp? n = some q' ∧ q'.state = 2 := by
  by_cases h2 : q.state = 2
  · obtain ⟨q', hq', h2', -⟩ := ((State.errorKept_failOne n s n status event).trans
      ((State.errorKept_spread n _ _).trans (State.errorKept_setFld n _ _ _))) q hq h2
    exact ⟨q', hq', h2'⟩
  · obtain ⟨q', hq', h2', -⟩ := State.failQp_spec hq h2 status event
    exact ⟨q', hq', h2'⟩

theorem exec_modifyQpError_good {s : State} (hon : s.pins.powered = true) (hbusy : s.flag F.RDT_CMD_BUSY = false) {qpn : Nat} {q : Qp}
    (hq : s.qp? (qpn % 2 ^ 24) = some q) (hcls : q.cls = 0 ∨ s.rdt.disabled.contains q.tenant = false) (hown : s.commit.own = []) :
    ∃ t, exec (.modifyQpError qpn) s = .next t ∧
      s.Answered t 0x130002C [(F.RDT_CMD_RESULT_CODE, 0)] ∧ t.fld F.RDT_ISR_CMD_DONE = 1 ∧
      (t.qp? (qpn % 2 ^ 24)).any (fun r => r.state == 2) = true := by
  have h := s.rdtBegan 2 qpn 0
  have hexec : exec (.modifyQpError qpn) s = execModifyQpError qpn s := rfl
  rw [hexec, execModifyQpError, State.rdtStart_of_idle hbusy]
  generalize s.rdtBegun 2 qpn 0 = u at h
  have hqu : u.qp? (qpn % 2 ^ 24) = some q := (congrArg (fun r : RdtSt => r.qps.get? (qpn % 2 ^ 24)) h.regs.rdt).trans hq
  rw [hqu]
  dsimp only
  rw [h.regs.rdt, if_neg (fun e => hcls.elim (fun e0 => by omega) fun e0 => absurd (e0.symm.trans e.2) (by decide))]
  obtain ⟨-, hpins, hseq⟩ := State.answerKept_failQp (h.regs.commit ▸ hown) (qpn % 2 ^ 24) 4 none
  obtain ⟨q', hq', h2⟩ := State.state_failQp hqu 4 none
  generalize u.failQp (qpn % 2 ^ 24) 4 none = v at hpins hseq hq'
  obtain ⟨t, he, hans, hdone, hunits, -, -⟩ := State.rdtDone_after hon (hpins.trans h.regs.pins) ((hseq _ (by decide)).trans (h.kept _ (by decide))) (code := 0) (by decide)
  refine ⟨t, he, hans, hdone, ?_⟩
  rw [State.qp?, hunits.rdt, show v.rdt.qps.get? (qpn % 2 ^ 24) = some q' from hq', Option.any_some, h2]
  rfl

end Sys2Proof.Machine
end

section
/-! PROOF. What O33 rests on (R304, R309, R313; log entry 3): a signaled tally wait that passes finds its completion queue full where
a free value is odd, and the error of its queue pair then tells the tenant, so that something is sent. Nothing constrains
Config.freeValue, so O33 stays open; it is shown here to be the same as that no free value is odd. -/
namespace Sys2Proof.Machine

/-! ### Every draw is even -/

/-- With every free value even, a full completion queue takes its CQE, and each clause holds. -/
theorem queuePairsAndWorkTakeEffect_of_even (heven : ∀ k, Config.freeValue k % 2 = 0) : Obligations.QueuePairsAndWorkTakeEffect := by
  unfold Obligations.QueuePairsAndWorkTakeEffect
  refine ⟨fun n q s => ?_, fun n q s => ?_, fun n q c s => ?_, fun n since q c s => ?_, fun n since q s => ?_, fun arg addr n q s => ?_, fun qpn q s => ?_,
    fun qpn q s => ?_, fun qpn s => ?_, fun cq cls tenant addr size s => ?_, fun cq s => ?_, fun srq cls tenant addr size s => ?_, fun srq s => ?_,
    fun tenant s => ?_, fun op s => ?_⟩
  · intro k w q1 data pkts hon hq hopen hpaused hen hsize hstate htally hrnr hres hop hfence herr
    have hplace : ¬((w.fence ∧ 0 < (q.out.filter OutWqe.reads).length) ∨ ((w.op = 5 ∨ w.op = 6 ∨ w.op = 7) ∧ 16 ≤ (q.out.filter OutWqe.reads).length)) :=
      fun e => e.elim (fun e => absurd (hfence.symm.trans e.1) (by decide)) fun e => by omega
    exact State.exec_sendWqe_of_runs ⟨hq, hsize, hstate, hen, htally, hrnr⟩ hon hopen hpaused (State.headWqe_sized hsize) hres
      (show w.op ≠ 9 by omega) hplace herr fun t ht => State.runWqe_send hop ht
  · intro k w q1 p m hon hq hopen hpaused hen hsize hstate htally hrnr hres hop hreads hfence herr
    have hplace : ¬((w.fence ∧ 0 < (q.out.filter OutWqe.reads).length) ∨ ((w.op = 5 ∨ w.op = 6 ∨ w.op = 7) ∧ 16 ≤ (q.out.filter OutWqe.reads).length)) :=
      fun e => e.elim (fun e => absurd (hfence.symm.trans e.1) (by decide)) fun e => by omega
    obtain ⟨t, he, hqp, hsent, ht, -⟩ := State.exec_sendWqe_of_runs ⟨hq, hsize, hstate, hen, htally, hrnr⟩ hon hopen hpaused (State.headWqe_sized hsize)
      hres (show w.op ≠ 9 by omega) hplace herr fun t _ => State.runWqe_read hop
    exact ⟨t, he, hqp, hsent, ht⟩
  · intro k w hon hq hen hsize hstate htally hrnr hres hop hc hdrag
    exact exec_sendWqe_tally_unheard hon ⟨hq, hsize, hstate, hen, htally, hrnr⟩ (State.headWqe_sized hsize) hres hop hc hdrag heven
  · intro w hon hq htally hc hmet hsig hdrag
    exact exec_tallyWaitRelease_met hon hq htally hc hmet hsig hdrag
  · exact fun hon hq htally hstate hdue => exec_tallyWaitTimeout_due hon hq htally hstate hdue
  · exact fun hon hbusy hblock hnew hcls hmatch hcount => exec_createQp_good hon hbusy hblock hnew hcls hmatch hcount
  · exact fun hon hbusy hq hcls hstate => exec_modifyQpConnected_good hon hbusy hq hcls hstate
  · exact fun hon hbusy hq hcls hown => exec_modifyQpError_good hon hbusy hq hcls hown
  · exact fun hon hbusy hq => exec_destroyQp_good hon hbusy hq
  · exact fun hon hbusy hcq hcls hten hsys hsize hnew => exec_createCq_good hon hbusy hcq hcls hten hsys hsize hnew
  · exact fun hon hbusy hc hfree => exec_destroyCq_good hon hbusy hc hfree
  · exact fun hon hbusy hsrq hcls hten hsys hsize hnew => exec_createSrq_good hon hbusy hsrq hcls hten hsys hsize hnew
  · exact fun hon hbusy hc hfree => exec_destroySrq_good hon hbusy hc hfree
  · exact fun hon hbusy => exec_tenantReenable_idle hon hbusy tenant
  · exact fun hon hbusy => exec_rdtReservedOp_idle hon hbusy op

/-! ### Some draw is odd -/

/-- A connected queue pair of the tenant class. -/
def tenantQp : Qp := { cls := 1, tenant := 0, port := 0, dest := 77, pmtu := 1, retry := 3, rnrRetry := 3, sqSize := 16, rqSize := 0, srq := 0, scq := 1, rcq := 1,
                       sqAddr := 0x4000, rqAddr := 0, state := 1, sqPsn := 100, rqPsn := 200, retriesLeft := 2, rnrLeft := 1 }

/-- A completion queue with as many unread entries as places. -/
def fullCq : Cq := { cls := 1, tenant := 0, addr := 0x6000, size := 16, unread := 16 }

/-- A head whose queue pair 5 has a signaled tally wait at its head that is met; the next draw is the one numbered k. -/
def fullCqHead (k : Nat) : State :=
  { headWith [(F.RDT_CTRL_ENABLE, 1)] with
    fresh := k, dram := [(0x4000, 9), (0x4001, 1), (0x4004, 1)], rdt := { qps := [(5, tenantQp)], cqs := [(1, fullCq)] } }

/-- The draw says that the completion queue is full: it goes to error. -/
theorem State.writeCqe_full {s : State} {c : Nat} {q : Cq} (hq : s.cq? c = some q) (hbad : q.bad = false) (hfull : q.size ≤ q.unread) (hcls : q.cls ≠ 0)
    (hdraw : (s.free 1).1 = 1) (wrId qpn bytes imm op status index : Nat) :
    s.writeCqe c wrId qpn bytes imm op status index = (s.free 1).2.modRdt fun r => { r with cqs := r.cqs.put c { q with bad := true } } := by
  rw [State.writeCqe, hq]
  dsimp only
  rw [hbad, if_neg (by decide), if_pos hfull, hdraw]
  dsimp only
  rw [if_pos (by decide), if_neg hcls]

/-- The work request at its head: a signaled tally wait for a count of 0. -/
theorem fullCqHead_wqe (k : Nat) : ∃ w, (fullCqHead k).headWqe tenantQp = (0, w) ∧ w.reserved = false ∧ w.op = 9 ∧
    (fullCqHead k).tallyCq tenantQp w = some fullCq ∧ tallyMet fullCq.count w.remote = true ∧ w.signaled = true :=
  have hzero : ((fullCqHead 0).headWqe tenantQp).2.reserved = false ∧ ((fullCqHead 0).headWqe tenantQp).2.op = 9 ∧
      (fullCqHead 0).tallyCq tenantQp ((fullCqHead 0).headWqe tenantQp).2 = some fullCq ∧
      tallyMet fullCq.count ((fullCqHead 0).headWqe tenantQp).2.remote = true ∧ ((fullCqHead 0).headWqe tenantQp).2.signaled = true := by decide +kernel
  ⟨((fullCqHead 0).headWqe tenantQp).2, rfl, hzero⟩

/-- The queue pair is taken to error by its completion queue, and its tenant is told. -/
theorem exec_sendWqe_fullCqHead {k : Nat} (hodd : Config.freeValue k % 2 = 1) : ∃ t, exec (.sendWqe 5) (fullCqHead k) = .next t ∧ t.sent.length = 1 := by
  have hnext : (fullCqHead k).SendsNext 5 tenantQp := ⟨rfl, by decide, rfl, rfl, rfl, rfl⟩
  obtain ⟨w, hhead, hres, hop, hcq, hmet, hsig⟩ := fullCqHead_wqe k
  refine ⟨_, exec_sendWqe_tally hnext hhead hres hop hcq, ?_⟩
  have hdraw : (((fullCqHead k).setQp 5 { tenantQp with sqHead := tenantQp.sqHead + 1 }).free 1).1 = 1 := hodd
  rw [if_pos hmet, State.sqDone, if_pos (.inl hsig), State.writeCqe_full (q := fullCq) rfl rfl (by decide) (by decide) hdraw]
  rfl

theorem even_of_queuePairsAndWorkTakeEffect (h : Obligations.QueuePairsAndWorkTakeEffect) (k : Nat) : Config.freeValue k % 2 = 0 := by
  obtain ⟨-, -, htally, -⟩ := h
  refine (Nat.mod_two_eq_zero_or_one _).resolve_right fun hodd => ?_
  obtain ⟨u, hu, hsent⟩ := exec_sendWqe_fullCqHead hodd
  obtain ⟨t, ht, -, -, hnone⟩ := htally 5 tenantQp fullCq (fullCqHead k) rfl rfl rfl (by decide) rfl rfl rfl rfl rfl rfl rfl
  obtain rfl := Host.Outcome.next.inj (hu.symm.trans ht)
  rw [hnone] at hsent
  exact Nat.zero_ne_one hsent

/-- The statement of O33 is that no free value is odd: of Config.freeValue, which is opaque, neither this nor its contrary can be shown. -/
theorem queuePairsAndWorkTakeEffect_iff : Obligations.QueuePairsAndWorkTakeEffect ↔ ∀ k, Config.freeValue k % 2 = 0 :=
  ⟨even_of_queuePairsAndWorkTakeEffect, queuePairsAndWorkTakeEffect_of_even⟩

end Sys2Proof.Machine
end
